-- ==== Sys2Proof/Word.lean ====
section
/-! DEFINITION. Octets, words and the plainest arithmetic on them. Multi-octet fields of register space are
little-endian (Table 0-4); formats of the air, the fabric and the gateway state their own order. -/

namespace Sys2Proof

/-- One octet. -/
abbrev Byte := BitVec 8

/-- The value of an octet list, least significant octet first. -/
def leNat : List Byte → Nat
  | [] => 0
  | b :: bs => b.toNat + 256 * leNat bs

/-- The value of an octet list, most significant octet first. -/
def beNat (bs : List Byte) : Nat := bs.foldl (fun a b => a * 256 + b.toNat) 0

/-- `n` octets of a value, least significant first. -/
def toLE : Nat → Nat → List Byte
  | 0, _ => []
  | n + 1, v => BitVec.ofNat 8 v :: toLE n (v / 256)

/-- `n` octets of a value, most significant first. -/
def toBE (n v : Nat) : List Byte := (toLE n v).reverse

/-- The value modulo 2^w. -/
def trunc (w v : Nat) : Nat := v % 2 ^ w

/-- Bits [lo + w - 1 : lo] of a value. -/
def bitsOf (v lo w : Nat) : Nat := v / 2 ^ lo % 2 ^ w

/-- Bit `i` of a value. -/
def bitOf (v i : Nat) : Bool := v / 2 ^ i % 2 == 1

/-- The value with bits [lo + w - 1 : lo] replaced by `x`. -/
def putBits (v lo w x : Nat) : Nat :=
  v - bitsOf v lo w * 2 ^ lo + (x % 2 ^ w) * 2 ^ lo

/-- The value with bit `i` set or cleared. -/
def putBit (v i : Nat) (b : Bool) : Nat := putBits v i 1 (if b then 1 else 0)

/-- A Boolean as a one-bit value. -/
def b2n (b : Bool) : Nat := if b then 1 else 0

/-- A `w`-bit two's-complement value as an integer. -/
def sext (w v : Nat) : Int :=
  let u := v % 2 ^ w
  if u < 2 ^ (w - 1) then (u : Int) else (u : Int) - (2 ^ w : Nat)

/-- An integer as a `w`-bit two's-complement value. -/
def ofSigned (w : Nat) (i : Int) : Nat := (i % ((2 ^ w : Nat) : Int)).toNat

/-- An integer held between two limits. -/
def clampI (lo hi i : Int) : Int := if i < lo then lo else if hi < i then hi else i

/-- A natural number held between two limits. -/
def clampN (lo hi n : Nat) : Nat := if n < lo then lo else if hi < n then hi else n

/-- Addition that stops at a largest value. -/
def satAdd (cap a b : Nat) : Nat := min cap (a + b)

/-- A list cut or padded with zero octets to length `n`. -/
def padTo (n : Nat) (bs : List Byte) : List Byte :=
  (bs ++ List.replicate (n - bs.length) 0#8).take n

/-- `n` octets from offset `o`, zero where the list ends. -/
def sliceB (bs : List Byte) (o n : Nat) : List Byte := padTo n (bs.drop o)

/-- Little-endian field of `n` octets at offset `o`. -/
def leAt (bs : List Byte) (o n : Nat) : Nat := leNat (sliceB bs o n)

/-- Big-endian field of `n` octets at offset `o`. -/
def beAt (bs : List Byte) (o n : Nat) : Nat := beNat (sliceB bs o n)

/-- The numbers of the set bits of a value, below `n`. -/
def bitList (n v : Nat) : List Nat := (List.range n).filter (fun i => bitOf v i)

/-- The value whose set bits are the numbers of a list. -/
def ofBits (l : List Nat) : Nat := l.foldl (fun a i => putBit a i true) 0

/-- How many of the low `n` bits of a value are set. -/
def popCount (n v : Nat) : Nat := (bitList n v).length

/-- Element-wise exclusive-or, as long as the first list. -/
def xorB : List Byte → List Byte → List Byte
  | [], _ => []
  | a :: as, [] => a :: as
  | a :: as, b :: bs => (a ^^^ b) :: xorB as bs

/-- Replace the element at position `i`; unchanged when there is none. -/
def setAt {α : Type} (l : List α) (i : Nat) (x : α) : List α := l.set i x

/-- Apply a function to the element at position `i`; unchanged when there is none. -/
def modAt {α : Type} : List α → Nat → (α → α) → List α
  | [], _, _ => []
  | a :: as, 0, f => f a :: as
  | a :: as, n + 1, f => a :: modAt as n f

/-- Apply a function to the elements that satisfy a test. -/
def mapIf {α : Type} (p : α → Bool) (f : α → α) (l : List α) : List α :=
  l.map (fun a => if p a then f a else a)

/-- The numbers `0 … n - 1` folded over a state. -/
def forN {σ : Type} (n : Nat) (s : σ) (f : σ → Nat → σ) : σ := (List.range n).foldl f s

end Sys2Proof
end

