-- ==== Sys2Proof/Registers.lean ====
section
/-! DEFINITION. Page kinds, access types and the descriptors of register fields, counters and error sources. -/

namespace Sys2Proof

/-- The page tags of Table 4-3 (R90). -/
inductive Tag where
  | CPT | VLT | FCL | SBD | BTL | UPD | HST | GWY | DRM | FLS | TIM | SNS | TWN | BEN | MNT | HUD
  | ETH | CAN | VXL
  | ING | FWD | SCH | POL | SRC | CMP | NTB | CRY | PLY | LAN
  | CHZ | CMB | NSE | AMC | TXB | WUC | DEC | DEM | SIC
  | SYN | RXF | RSM | LIM | TXF
  deriving DecidableEq, Repr

/-- The access types of Table 0-5 (R5). -/
inductive Access where
  | rw | ro | wo | w1c | rws | rc
  deriving DecidableEq, Repr

/-- One register field: page kind, byte offset, how many instances and their stride, lowest bit, width, access
type, reset value (`rsts` gives the reset of the instances it covers where they differ), and whether only
instance 0 of the page kind has it. -/
structure Fld where
  tag    : Tag
  off    : Nat
  n      : Nat
  stride : Nat
  lsb    : Nat
  width  : Nat
  acc    : Access
  rst    : Nat
  rsts   : List Nat
  only0  : Bool
  deriving DecidableEq, Repr

/-- One 64-bit counter: page kind, offset, how many instances (stride 8), and whether only instance 0 has it. -/
structure Ctr where
  tag   : Tag
  off   : Nat
  n     : Nat
  only0 : Bool
  deriving DecidableEq, Repr

/-- One error source: page kind, number, reset reaction code, and whether only instance 0 has it (R510). -/
structure Src where
  tag   : Tag
  num   : Nat
  code  : Nat
  only0 : Bool
  deriving DecidableEq, Repr

/-- The reset value of instance `i` of a field. -/
def Fld.reset (f : Fld) (i : Nat) : Nat := f.rsts.getD i f.rst

/-! ## The common page registers (Table 4-1, R80) -/

def Fld.common (t : Tag) (off lsb width : Nat) (acc : Access) (rst : Nat) : Fld :=
  { tag := t, off := off, n := 1, stride := 4, lsb := lsb, width := width, acc := acc, rst := rst,
    rsts := [], only0 := false }

/-- PG_CTRL.EN (R80). -/
def pgEn (t : Tag) : Fld := Fld.common t 0x008 0 1 .rw 0
/-- PG_CTRL.SRST (R80, R82). -/
def pgSrst (t : Tag) : Fld := Fld.common t 0x008 1 1 .wo 0
/-- PG_STAT.RUN (R80). -/
def pgRun (t : Tag) : Fld := Fld.common t 0x00C 0 1 .ro 0
/-- PG_STAT.RST_BUSY (R82). -/
def pgRstBusy (t : Tag) : Fld := Fld.common t 0x00C 1 1 .ro 0
/-- PG_STAT.COMMIT_BUSY (R83). -/
def pgCommitBusy (t : Tag) : Fld := Fld.common t 0x00C 2 1 .ro 0
/-- PG_STAT.COMMIT_RES: 0 none, 1 applied, 2 refused, 3 deferred (R83). -/
def pgCommitRes (t : Tag) : Fld := Fld.common t 0x00C 3 2 .ro 0
/-- PG_STAT.REF_WORD (R83). -/
def pgRefWord (t : Tag) : Fld := Fld.common t 0x00C 6 10 .ro 0
/-- PG_ERR_STICKY.SRC (R510). -/
def pgSticky (t : Tag) : Fld := Fld.common t 0x010 0 16 .w1c 0
/-- PG_ERR_FORCE.SRC (R517). -/
def pgForce (t : Tag) : Fld := Fld.common t 0x014 0 16 .wo 0
/-- PG_COMMIT.GO (R83). -/
def pgGo (t : Tag) : Fld := Fld.common t 0x020 0 1 .wo 0
/-- PG_COMMIT.GEN (R83). -/
def pgGen (t : Tag) : Fld := Fld.common t 0x020 16 16 .ro 0
/-- PG_ACCESS.UREAD (R88). -/
def pgUread (t : Tag) : Fld := Fld.common t 0x024 0 1 .rw 0
/-- PG_ACCESS.LOCK (R89). -/
def pgLock (t : Tag) : Fld := Fld.common t 0x024 1 1 .rw 0
/-- PG_MAINT.ACT (R80). -/
def pgMaintAct (t : Tag) : Fld := Fld.common t 0x028 0 3 .ro 0
/-- PG_MAINT.HELD (R80). -/
def pgMaintHeld (t : Tag) : Fld := Fld.common t 0x028 3 1 .ro 0
/-- PG_MAINT.QUEUED (R80). -/
def pgMaintQueued (t : Tag) : Fld := Fld.common t 0x028 4 1 .ro 0

/-- PG_ERR_REACT code of source `n`, three bits each, sources 0 to 9 in the low register (R80, R81). `rst` is
the source's reset code. -/
def pgReact (t : Tag) (n rst : Nat) : Fld :=
  if n < 10 then Fld.common t 0x018 (3 * n) 3 .rw rst
  else Fld.common t 0x01C (3 * (n - 10)) 3 .rw rst

end Sys2Proof
end

