-- ==== Sys2Proof/Syntax.lean ====
section
/-! DEFINITION. The commands of the block: one constructor for each row of the table of operations and events, with
what the outside world supplies as its operands. -/

namespace Sys2Proof

/-! ## Operand types -/

/-- What cuts a boot step short (Tables 5-1 and 5-9): nothing; a hang, which the watchdog ends; WARM_RST_N; PORST_N or a loss of power; a supply monitor, by
its number. -/
inductive StepCut where
  | none | hang | warm | porst | monitor (mon : Nat)
  deriving DecidableEq, Repr

/-- What the outside supplies to one boot step (Table 5-2): whether the first and the second attempt pass in
place (steps 1 to 3), or the step passes in the form chosen; the DETAIL code of a failure; what cuts it short; the time in ms. -/
structure StepEnv where
  pass   : Bool := true
  again  : Bool := true
  detail : Nat  := 0
  cut    : StepCut := .none
  ms     : Nat  := 0
  deriving DecidableEq, Repr

/-- Coarse codes that a receive calibration learns for a gain index of a chain, and the size of a step of each in the fine estimate's unit (R151). -/
structure DcoCode where
  chain : Nat
  idx   : Nat
  i     : Int
  q     : Int
  stepI : Nat := 0
  stepQ : Nat := 0
  deriving DecidableEq, Repr

/-- What a calibration in full measures: coarse codes by Band die; the receive chains that fail, bit
8 × (die − 5) + chain; the transmit chains that fail, bit 4 × (die − 5) + chain. -/
structure CalEnv where
  codes : List (Nat × DcoCode) := []
  rxBad : Nat := 0
  txBad : Nat := 0
  deriving DecidableEq, Repr

/-- What the outside supplies to a boot: the twelve steps, the EUI-64 and the countersignature fuse as read, whether a ledger
sector can be read, where a loss of power in step 4 falls (0 behind the new record's header, 1 within it, 2 before it, while a sector is erased where the
record needs that), the DRAM density in MiB, the region that fails to power (24 for none), the calibration's measurements, whether the
copy of the set into the DRAM boot area succeeds, the words of a limit image that read otherwise than they were programmed, as Band die, word number and
value, whether a fuse read of Band-L (bit 0) or Band-H (bit 1) has a parity error, and the device-unique key as read. -/
structure BootEnv where
  steps    : List StepEnv := []
  eui64    : Nat := 0
  csigFuse : Bool := false
  ledgerOk : Bool := true
  ledgerCut : Nat := 0
  dramMiB  : Nat := 4096
  badRegion : Nat := 24
  cal      : CalEnv := {}
  copyOk   : Bool := true
  fuseRead : List (Nat × Nat × Nat) := []
  parity   : Nat  := 0
  uniqueKey : List (BitVec 8) := List.replicate 32 0#8
  deriving DecidableEq, Repr

/-- What one unit's pace monitor counted (R50): bench type, die, index, the replica steps in the window, and the errors corrected since the last
interval. -/
structure PaceReading where
  type  : Nat
  die   : Nat
  index : Nat
  steps : Nat
  corr  : Nat := 0
  deriving DecidableEq, Repr

/-- A rail's loss (R40): the monitor number of R116, 5 for a rail that no monitor watches, and the mask of rails that are off by then (`Power.railsOff`). -/
structure RailTrip where
  mon   : Nat
  rails : Nat := 0
  deriving DecidableEq, Repr

/-- A read through BAR0 (R78): the offset read and the access size in octets. -/
structure BarRead where
  addr : Nat
  size : Nat := 4
  deriving DecidableEq, Repr

/-- A transmit descriptor given by test control (Table 8-1), with its PSDU; `startUs` is how far ahead START lies. -/
structure TxSpec where
  kind     : Nat
  channel  : Nat
  mode     : Nat := 0
  map      : Nat := 0
  rate     : Nat := 0
  psdu     : List (BitVec 8) := []
  wakeCode : Nat := 0
  wakeIdx  : Nat := 0
  power    : Option Nat := none
  startUs  : Nat := 100
  deriving DecidableEq, Repr

/-- Which transmission is handed to the transmit baseband: one that the air MAC has planned, by its number, or one from test
control. -/
inductive DescSel where
  | planned (id : Nat)
  | test (x : TxSpec)
  deriving DecidableEq, Repr

/-- A decoded frame as the decoder delivers it: the octets before descrambling (native) or the PSDU (legacy), and for the
recommendation of R198 the channel power of each data subcarrier, code p meaning −160 + 0.25 × p dBm. -/
structure DecodeEnv where
  bits  : List (BitVec 8) := []
  power : List Nat := []
  fcs4  : Bool := false
  unsup : Bool := false
  deriving DecidableEq, Repr

/-- A frame found by the residual search (R190): its family, SNR in 0.25 dB, carrier offset in 0.01 ppm, the ticks since its reference
instant, its 36 SIG bits, and what the decoder delivers. -/
structure ResidFrame where
  family : Nat
  snr    : Int := 0
  cfo    : Int := 0
  ago    : Nat := 0
  sig    : Nat
  env    : DecodeEnv := {}
  deriving DecidableEq, Repr

/-- What the first two stages measure on P1 (R181): whether it is the SHR of the leader's legacy family; M1 averaged over at least one whole P1 symbol
and the best normalised correlation with the P1 word of each native family, in 1/256. -/
structure P1Seen where
  shr   : Bool := false
  m1    : Nat := 256
  corr  : List Nat := []
  deriving DecidableEq, Repr

/-- What a channel unit measures on a preamble (R181, R186): P1; the combined SNR from P2 and that of each receive chain, in 0.25 dB; the carrier offset in
0.01 ppm; and the ticks since the reference instant. -/
structure Preamble extends P1Seen where
  snr   : Int := 0
  chSnr : List Int := []
  cfo   : Int := 0
  ago   : Nat := 0
  deriving DecidableEq, Repr

/-- One FFT output of the noise unit (R197): the channel, the ticks since its symbol interval began, the receive chain, and the antenna-referred power of
each non-null subcarrier in ascending order, in units of 10^-16 mW / 1,000. -/
structure NoiseObs where
  ch     : Nat
  ago    : Nat
  chain  : Nat
  powers : List Nat
  deriving DecidableEq, Repr

/-! ## Frames and events of the Route dies, as a journal record carries them (Table 12-1, R488) -/

namespace Machine

/-- A node's key (R299): tag and tenant. -/
structure NodeKey where
  tag    : Nat
  tenant : Nat
  deriving DecidableEq, Repr

/-- A pending downlink in the air MAC's store (R240 to R242): its node, whether it is for the legacy side, the header and the
plaintext payload that a reply completes, how often it was sent, whether a wake-up call serves it, and its class. -/
structure DlFrame where
  id      : Nat
  tag     : Nat
  tenant  : Nat
  epoch   : Nat
  fcnt    : Nat
  micl    : Nat
  enc     : Bool
  nh      : Nat
  payload : List (BitVec 8)
  psdu    : List (BitVec 8)
  cls     : Nat
  cells   : Nat
  sends   : Nat
  onAir   : Bool
  readyAt : Nat  := 0
  endAt   : Nat  := 0
  called  : Bool := false
  leg     : Bool := false
  deriving DecidableEq, Repr

/-- The air MAC's report of an outcome to the owning Route die (Table 12-1, kind 12). -/
inductive AirOut where
  | acked (id tag tenant : Nat)
  | unacked (id tag tenant : Nat)
  | expired (id tag tenant : Nat)
  | noCall (tag tenant : Nat)
  | camp (cid fcnt : Nat)
  deriving DecidableEq, Repr

/-- A forwarding entry (Table 11-6) with its place `pos` = bucket × 4 + slot. -/
structure FwdEnt where
  pos    : Nat
  kind   : Nat
  ver    : Bool
  static : Bool
  plen   : Nat
  vlan   : Nat
  key    : Nat
  age    : Nat
  port   : Nat
  dest   : Nat
  action : Nat
  dev    : Nat
  sub    : Nat
  cls    : Nat
  clsEn  : Bool
  nhMac  : Nat
  deriving DecidableEq, Repr

/-- An air frame on its way to a play: the PSDU without its FCS, the receive descriptor and what the air MAC found (R230): band,
slot, superframe and arrival offset in µs. For a legacy frame `leg` holds and `key` is the node's (R253); `ext` is its extended
address and `secBad` says that its security form is not the one of R271. -/
structure AirIn where
  band  : Nat
  ch    : Nat
  psdu  : List (BitVec 8)
  tref  : Nat
  fin   : Nat
  snr   : Int
  map   : Nat
  rate  : Nat
  recMap : Nat
  noFit : Bool
  slot  : Nat
  sf    : Nat
  offs  : Int
  leg   : Bool
  key   : NodeKey
  ext   : Nat
  secBad : Bool
  buf   : Nat
  fcs4  : Bool := false
  deriving DecidableEq, Repr

/-- A received CAN frame, or one to be sent: identifier, extended flag, FD flag, BRS, ESI, remote flag, DLC, data, the bus it came from or
ingress otherwise, its event time in ticks, and what its filter left in INFO (bits [7:0] of the FILTER and HPF octet of Table 15-2). -/
structure CanFrame where
  id   : Nat
  ide  : Bool
  fd   : Bool
  brs  : Bool
  rtr  : Bool
  data : List (BitVec 8)
  src  : Nat
  time : Nat
  esi  : Bool := false
  dlc  : Nat  := 0
  filt : Nat  := 0x7F
  deriving DecidableEq, Repr

/-- A frame that the forwarding play handles: an Ethernet frame without FCS or a bare IPv6 packet, its ingress port, the source device of
a fabric frame, the event time, whether it is for the port's own MAC, and the header that its flooded copies carry on (R461). -/
structure FwdIn where
  port : Nat
  dev  : Option Nat
  data : List (BitVec 8)
  ip   : Bool
  own  : Bool
  flood : Bool
  time : Nat
  cls  : Option Nat
  sub  : Option Nat
  buf  : Nat
  hdr  : List (BitVec 8) := []
  deriving DecidableEq, Repr

/-- A packet to a node: the destination node, the IPv6 packet or the opaque or control payload with its NH, the class and subscriber
already chosen, the first hop once the walk is done, and its event time. -/
structure DownIn where
  dest : NodeKey
  hop  : Option NodeKey
  nh   : Nat
  data : List (BitVec 8)
  cls  : Option Nat
  sub  : Option Nat
  time : Nat
  buf  : Nat
  col  : Nat := 0
  tries : Nat := 0
  deriving DecidableEq, Repr

/-- What crosses from one Route die to the other (R21). -/
inductive XferIn where
  | enq (port cls sub : Nat) (yellow : Bool) (data : List (BitVec 8)) (dl : Option DlFrame) (time : Nat)
  | flood (f : FwdIn)
  | down (x : DownIn)
  | dao (target : NodeKey) (parent : Option NodeKey) (root : Bool) (pseq life : Nat)
  | report (key : NodeKey) (sf : Nat) (value : List (BitVec 8))
  deriving DecidableEq, Repr

/-- A slow-path operation (Table 11-5) with what waits for it: a node frame whose job has the engine's reservation not yet, a hop of a
downlink's walk, or a downlink. -/
inductive SlowOp where
  | frame (a : AirIn)
  | hop (x : DownIn) (miss : NodeKey)
  deriving DecidableEq, Repr

/-- An event of an internal source (kinds 7 to 13 of Table 12-1). -/
inductive IntEv where
  | pop (key : NodeKey) (granted : Bool)
  | ageCas (pos : Nat) (key : NodeKey) (age : Nat) (ver : Bool)
  | migrate (table bucket : Nat)
  | slow (op : SlowOp) (granted : Bool) (found : Bool)
  | learn (e : FwdEnt)
  | airOut (o : AirOut)
  | egress (port queue : Nat)
  | ageFwd (e : FwdEnt)
  deriving DecidableEq, Repr

/-- An event of the WIRED source: a frame for the forwarding play, a fabric frame with its link, or a CAN frame (Table 12-1). -/
inductive WiredIn where
  | eth (f : FwdIn)
  | fab (link : Nat) (frame : List (BitVec 8)) (time buf : Nat)
  | can (f : CanFrame)
  deriving DecidableEq, Repr

/-- The input data of a journal record (R488). -/
inductive JBody where
  | air (a : AirIn)
  | wired (w : WiredIn)
  | host (ring : Nat) (bytes data : List (BitVec 8))
  | commit (page : Nat) (snap : List (Nat × Nat))
  | timer (kinds : List (Nat × Nat))
  | gate (port : Nat) (take : Bool)
  | xfer (x : XferIn)
  | int (e : IntEv)
  | mode (m : Nat)
  | heldClear (rule : Nat)
  | dev (l : List (Nat × Nat))
  | sf (air num : Nat)
  | camp (cid flag : Nat)
  deriving DecidableEq, Repr

/-- A journal record (R488): its event's sequence number, kind, outcome flags, event time and input data. The flags of R341 are bits: 0 a full slow-path
lane, 1 a lane error, 2 the watchdog, 3 a late acknowledgement, 4 an internal buffer allocation that failed (DESIGN CHOICE, log 42). -/
structure JRec where
  seq   : Nat
  kind  : Nat
  flags : Nat
  time  : Nat
  body  : JBody
  deriving DecidableEq, Repr

end Machine

/-- An instruction that an engine executes, as precise sampling sees it (R551, R552, Table 19-6): the engine's own count at it, the steps since the die's
buffer last took a record, the playbook address, the engine, the packet's first cell, the event's kind and the steps since dispatch. -/
structure Sampled where
  count   : Nat
  gap     : Nat
  pbAddr  : Nat
  engine  : Nat
  handle  : Nat
  kind    : Nat
  latency : Nat
  deriving DecidableEq, Repr

/-- What the outside decides of a play (R346, R551, Table 10-4): whether a lane reader meets an uncorrectable error in a data word (1) or a
header word (2), on which lane of the die; whether a tamper reaction aborts the crypto job; whether its working key register (1) or the root's transfer (2) meets a parity error; the instructions that precise sampling may take; and, for each word that a lane reader corrected, its lane of the die. -/
structure PlayEnv where
  lane     : Nat := 0
  laneNo   : Nat := 0
  tampered : Bool := false
  keyErr   : Nat  := 0
  samples  : List Sampled := []
  corr     : List Nat := []
  deriving DecidableEq, Repr

/-- How a KEY_PERSIST ends (R286, Tables 10-7 and 10-10): written; a failed read-back; power lost in a step from 2 to 5, or after
step 5; or a level-2 tamper reaction before step 5 completes. -/
inductive PersistEnd where
  | done
  | readFail
  | powerLost (step : Nat)
  | tamper
  deriving DecidableEq, Repr

/-- What the outside decides of a packet's egress: whether an uncorrectable error is met in a buffer cell (R366), whether the air MAC's store is full (Table 13-6), and whether an access to
host memory fails. -/
structure EgressEnv where
  bufErr : Bool := false
  storeFull : Bool := false
  dmaErr : Bool := false
  deriving DecidableEq, Repr

/-! ## Route dies, the gateway and campaigns, as a member of a pair copies them (R498) -/

namespace Machine

/-- A detail record (Table 11-3). DRIFT in 0.01 ppm, O_LAST in µs, T_LAST in ticks, LAST_SNR in 0.25 dB. -/
structure Detail where
  dlFcnt   : Nat  := 0
  map      : Nat  := 0
  mpin     : Bool := false
  mapNew   : Bool := false
  classP   : Bool := false
  classW   : Bool := false
  wakeIdx  : Nat  := 0
  desync   : Bool := false
  unack    : Nat  := 0
  ref      : Bool := false
  lastBand : Nat  := 0
  assigned : Bool := false
  aBand    : Nat  := 0
  listen   : Bool := false
  apin     : Bool := false
  wakeCode : Nat  := 0
  lastCh   : Nat  := 0
  aSlot    : Nat  := 0
  aCh      : Nat  := 0
  aPeriod  : Nat  := 0
  aPhase   : Nat  := 0
  drift    : Int  := 0
  oLast    : Int  := 0
  tLast    : Nat  := 0
  rxFrames : Nat  := 0
  txFrames : Nat  := 0
  lastSnr  : Int  := 0
  deriving DecidableEq, Repr

/-- A route record (Table 11-4). -/
structure RouteRec where
  parent : NodeKey := ⟨0, 0⟩
  pvalid : Bool := false
  proot  : Bool := false
  pseq   : Nat  := 0
  pexp   : Nat  := 0
  deriving DecidableEq, Repr

/-- A node entry: its slot (Table 11-2) with its place `pos` = bucket × 4 + slot (in the cold store bucket × 8 + record), its detail
record and its route record. VALID is held by being listed; OVF and COLD_TIME have meaning in the cold store only. -/
structure NodeEnt where
  pos    : Nat
  key    : NodeKey
  ver    : Bool := false
  pin    : Bool := false
  leg    : Bool := false
  epoch  : Nat  := 0
  detail : Nat  := 0
  rpv    : Bool := false
  ovf    : Bool := false
  ulFcnt : Nat  := 0
  age    : Nat  := 0
  coldTime : Nat := 0
  det    : Detail := {}
  rt     : RouteRec := {}
  deriving DecidableEq, Repr


/-- A cede record (Table 16-4) with its place `pos` = bucket × 4 + record. -/
structure Cede where
  pos     : Nat
  key     : NodeKey
  claimer : Nat
  snr     : Int := 0
  heard   : Nat := 0
  dlDrop  : Nat := 0
  tLast   : Nat := 0
  deriving DecidableEq, Repr

/-- A tenant table entry (R351). -/
structure Tenant where
  en      : Bool := true
  miclMin : Nat  := 0
  cls     : Nat  := 0
  sub     : Nat  := 0
  deriving DecidableEq, Repr

/-! ## Route dies: packets and events (chapters 12 and 13) -/


/-- A packet in a packet buffer: its buffer handle, its octets in the form of its port, the event time, the low bits of its event's
sequence number, the PSDU length for an air port, and for an air port the downlink. -/
structure Pkt where
  buf  : Nat
  data : List (BitVec 8)
  time : Nat
  seq  : Nat
  cls  : Nat
  cells : Nat
  dl   : Option DlFrame := none
  deriving DecidableEq, Repr


/-- What waits behind a creation (R311): a verified frame, a DAO, or a NODE_WRITE command with its 96 octets. -/
inductive Held where
  | frame (a : AirIn) (payload : List (BitVec 8)) (first : Bool)
  | dao (parent : Option NodeKey) (root : Bool) (pseq life : Nat)
  | write (cmd : Nat) (data : List (BitVec 8))
  deriving DecidableEq, Repr

/-- A creation that awaits its answer (R310, R311): `asked` once the request has gone to the counter. -/
structure Creation where
  key   : NodeKey
  asked : Bool
  held  : List Held
  deriving DecidableEq, Repr


/-- A crypto job that holds a reservation (R355, R356): its number, region and engine. Its result is back when its event has run, and
CRYPTO_JOB_DONE releases the reservation. `key` is the node whose frame key it loaded (R273) and `frames` the downlinks that it built. -/
structure Job where
  id     : Nat
  region : Nat
  engine : Nat
  key    : Option NodeKey := none
  frames : List Nat := []
  deriving DecidableEq, Repr

/-- Cells of a packet in the buffer (R362, R363): handle, group, cells and how many copies hold them. -/
structure Buf where
  id    : Nat
  group : Nat
  cells : Nat
  refs  : Nat
  deriving DecidableEq, Repr

/-- A 6LoWPAN reassembly context (R360). -/
structure Reasm where
  key   : NodeKey
  tag   : Nat
  size  : Nat
  parts : List (Nat × List (BitVec 8))
  first : Nat
  buf   : Nat
  deriving DecidableEq, Repr

/-- A queue (Table 13-1) with its state: the record, the shaper values in force since the last refill, credit in 1/256 byte, the packets in
order, fair-queueing tags, drop counts, the last sample, and whether its head is held by a gate. Numbers from 16384 are the fixed queues: 16384 + 16 × port + F. -/
structure Queue where
  num    : Nat
  port   : Nat := 0
  cls    : Nat := 0
  en     : Bool := false
  shp    : Bool := false
  weight : Nat := 1
  mant   : Nat := 0
  exp    : Nat := 0
  burst  : Nat := 0
  qlim   : Nat := 0
  ylim   : Nat := 0
  liveShp : Bool := false
  credit : Int := 0
  pkts   : List Pkt := []
  headF  : Nat := 0
  fLast  : Nat := 0
  tail   : Nat := 0
  yel    : Nat := 0
  smpDepth : Nat := 0
  smpSoj : Nat := 0
  gateHeld : Bool := false
  deriving DecidableEq, Repr

/-- A scheduler port's own state: shaper in force and credit, virtual times of its eight classes' queues, of its weighted classes and of the
fixed queues, each class's f_last and start tag, and whether an EGRESS_DONE of it waits. -/
structure PortSt where
  num    : Nat
  shp    : Bool := false
  mant   : Nat := 0
  exp    : Nat := 0
  burst  : Nat := 0
  credit : Int := 0
  vSub   : List (Nat × Nat) := []
  vCls   : Nat := 0
  vFix   : Nat := 0
  clsLast : List (Nat × Nat) := []
  clsStart : List (Nat × Nat) := []
  taking : Bool := false
  deriving DecidableEq, Repr

/-- A lineup bank (R388): entries as GATES and DURATION, CYCLE in ns, KICKOFF in ns of PTP time. -/
structure Bank where
  entries : List (Nat × Nat) := []
  cycle   : Nat := 1000000
  kick    : Nat := 0
  deriving DecidableEq, Repr

/-- A port's lineup (R388 to R393): the active bank once one has taken over, the PTP time in ns at which its cycles start, the entry and
gates in force, and the pending bank with its takeover time. -/
structure Lineup where
  port   : Nat
  active : Option Bank := none
  start  : Nat := 0
  entry  : Nat := 0
  gates  : Nat := 255
  pending : Option (Bank × Nat) := none
  late   : Bool := false
  deriving DecidableEq, Repr

/-- A meter record (Table 13-3). -/
structure Meter where
  en    : Bool := false
  aware : Bool := false
  cir   : Nat := 0
  pir   : Nat := 0
  cbs   : Nat := 0
  pbs   : Nat := 0
  deriving DecidableEq, Repr

/-- A meter's token counts in 2^-16 byte and the event time of its last update (R383). -/
structure Bucket where
  tc   : Nat
  tp   : Nat
  last : Nat
  deriving DecidableEq, Repr

/-- A migration under way (R318): table 0 node or 1 forwarding, the new seed, the next bucket, the command that asked, and the entries that
ended in OVF or were dropped, and whether some were lost. -/
structure Migration where
  table : Nat
  seed  : Nat
  pos   : Nat
  cmd   : Nat
  bad   : Nat
  lost  : Bool := false
  deriving DecidableEq, Repr

/-- A lane (R344): the words of its memory by place, 72 bits each with the check bits on top, its write and read pointers of 10 bits, and the packets of
writers that wait while it is full, oldest first (R347). -/
structure Lane where
  mem  : List (Nat × Nat) := []
  wr   : Nat := 0
  rd   : Nat := 0
  wait : List (List Nat) := []
  deriving DecidableEq, Repr

/-- A Route die (chapters 11 to 13). -/
structure Route where
  /-- The lanes of the die by their number, region × 32 + lane; an unlisted one is empty with both pointers at 0 (R344). -/
  lanes : List (Nat × Lane) := []
  /-- The next sequence number (R338). -/
  seq : Nat := 0
  /-- Input lanes (Table 12-2) of the sources AIR, WIRED, XFER and INTERNAL. -/
  air : List AirIn := []
  wired : List WiredIn := []
  xfer : List XferIn := []
  int : List IntEv := []
  /-- MODE events that wait: the new mode, and the number of the next command at its issue (R339). -/
  modeEv : List (Nat × Nat) := []
  /-- The source being visited, in the order AIR, WIRED, HOST, XFER, INTERNAL, and the places left in its visit (R339). -/
  visit : Nat := 4
  left : Nat := 0
  /-- The slow-path lane (R316). -/
  slow : List SlowOp := []
  /-- The clusters whose playbooks the captain reloads (Table 12-12). -/
  reload : List Nat := []
  /-- Node entries, cold records, cede records and forwarding entries. -/
  nodes : List NodeEnt := []
  cold : List NodeEnt := []
  cedes : List Cede := []
  fwd : List FwdEnt := []
  /-- RELOC_PTR of each table (R308). -/
  relocPtr : Nat := 0
  fwdReloc : Nat := 0
  /-- Creations that wait (R311). -/
  creations : List Creation := []
  /-- Migration in progress. -/
  mig : List Migration := []
  /-- Tenant table and play state. -/
  tenants : List (Nat × Tenant) := []
  /-- Crypto jobs and the next number of jobs and buffers. -/
  jobs : List Job := []
  next : Nat := 1
  /-- The late-acknowledgement counter (R71); no register shows it. -/
  lateAck : Nat := 0
  /-- Packet buffer and reassembly contexts. -/
  bufs : List Buf := []
  reasm : List Reasm := []
  dgTag : Nat := 0
  /-- Queues, ports, lineups with the staged list, meters and buckets by kind and index. -/
  queues : List Queue := []
  ports : List PortSt := []
  fixed : Bool := true
  lineups : List Lineup := []
  lupStage : List (Nat × Nat) := []
  meters : List (Nat × Meter) := []
  buckets : List (Nat × Bucket) := []
  profiles : List (Nat × Nat) := []
  /-- Nodes whose frame has opened a reply window: key, band, superframe and slot (R240). -/
  windows : List (NodeKey × Nat × Nat × Nat) := []
  /-- Journal records not yet acknowledged, in order, and the sequence number up to which the partner has acknowledged (R489). -/
  jrn : List JRec := []
  acked : Nat := 0
  /-- The outcome flags of the journal record that runs; none in the die's own order (R341). -/
  forced : Option Nat := none
  deriving DecidableEq, Repr


/-! ## The gateway engine (chapter 15) -/

/-- A gateway event (R434): its Route-0 sequence number, its ingress and can_bus_id (R435), and the frame. -/
structure GwEv where
  seq   : Nat
  ing   : Nat
  bus   : Nat
  frame : CanFrame
  deriving DecidableEq, Repr

/-- The gateway engine (R434 to R441): rule records, theoretical times and freshness values by rule, rules held, stream sequence numbers, the
key slots and keys of its four authentication units, most recently used first, the events and the port-27 packets that wait. -/
structure Gateway where
  rules   : List (Nat × List (BitVec 8)) := []
  tat     : List (Nat × Nat) := []
  held    : List Nat := []
  freshRx : List (Nat × Nat) := []
  freshTx : List (Nat × Nat) := []
  seqs    : List (Nat × Nat) := []
  units   : List (Nat × List (BitVec 8)) := []
  inq     : List GwEv := []
  pdus    : List Pkt := []
  deriving DecidableEq, Repr

/-! ## Node campaigns (chapter 21) -/

/-- A member record (R594, Table 21-4): its key, the STATE, round, superframe and missing blocks of its last report, and whether it has reported. -/
structure CampMember where
  tag     : Nat
  tenant  : Nat
  state   : Nat  := 0
  round   : Nat  := 0
  sf      : Nat  := 0
  missing : Nat  := 0
  heard   : Bool := false
  deriving DecidableEq, Repr

/-- A campaign (R586, R593, R595): its number, the 64 octets of its record, its state and cause, the state that a pause left, the round count and
pointer, the send set and the repair set in ascending block order, the next group counter, superframes left to wait, frames sent, its members, and
the frames built whose outcome is not known, each counter with its blocks. -/
structure Camp where
  cid     : Nat
  body    : List (BitVec 8)
  state   : Nat := 1
  cause   : Nat := 0
  resume  : Nat := 0
  round   : Nat := 0
  ptr     : Nat := 0
  send    : List Nat := []
  repair  : List Nat := []
  fcnt    : Nat := 0
  waitLeft : Nat := 0
  frames  : Nat := 0
  members : List CampMember := []
  flight  : List (Nat × List Nat) := []
  deriving DecidableEq, Repr

/-- A node image (R585): its number, octets and SHA-256. -/
structure NodeImg where
  idx  : Nat
  data : List (BitVec 8)
  hash : List (BitVec 8)
  deriving DecidableEq, Repr

/-- The campaign engine (R584 to R596): images and campaigns in DRAM, the Route die whose engine runs or ran last, and whether no engine is left. -/
structure Camps where
  images : List NodeImg := []
  list   : List Camp := []
  engine : Nat := 1
  lost   : Bool := false
  deriving DecidableEq, Repr

/-! ## What crosses the twin link -/

/-- What TWN_FORM copies to the partner (R498 step 4): both Route dies, the gateway's rules, limiters and freshness values, the campaign records
(R597), the population count, and the registers and counters of the pages on the Route dies, each copy as key and value lists. -/
structure TwinCopy where
  routes : List Route := []
  gw     : Gateway := {}
  cmp    : Camps := {}
  pop    : Nat := 0
  regs   : List (Nat × Nat) := []
  live   : List (Nat × Nat) := []
  staged : List (Nat × Nat) := []
  ctrs   : List (Nat × Nat) := []
  deriving DecidableEq, Repr

end Machine

/-- A message from the partner over the twin link (Table 17-6, R498): it holds possession; it breaks the pair or has restarted; its twin state;
it takes part in a formation that its issuer has begun; the formation's copy is complete. -/
inductive PeerMsg where
  | holds
  | broke
  | state (n : Nat)
  | forming
  | formed (copy : Machine.TwinCopy)
  deriving DecidableEq, Repr

/-- A CAN frame on a bus as a controller's decoder gives it. -/
structure CanRx where
  id   : Nat
  ide  : Bool
  rtr  : Bool := false
  fdf  : Bool := false
  brs  : Bool := false
  esi  : Bool := false
  dlc  : Nat
  data : List (BitVec 8)
  deriving DecidableEq, Repr

/-- How a transmission attempt ends: sent and acknowledged, arbitration lost, or an error with its LEC code. -/
inductive AttemptEnd where
  | sent
  | lost
  | error (lec : Nat) (counts : Bool)
  deriving DecidableEq, Repr

/-- What wakes the device from DOZE (R130): a bus with the frame that it decoded or a dominant level, a GPIO that is at a level, a rising edge on
PERST_N. -/
inductive WakeSrc where
  | can (bus : Nat) (frame : Option CanRx)
  | gpio (n : Nat) (high : Bool)
  | perst
  deriving DecidableEq, Repr

/-- A Voxnen lane that may have failed (R456): the physical lane, and the invalid sync headers of a 1 ms, none for a loss of block lock. -/
structure LaneFail where
  lane : Nat
  bad  : Option Nat := none
  deriving DecidableEq, Repr

/-- How a flash operation of the update engine ends (Tables 20-8, 20-13): done, a failed read-back, or power lost while a step of it runs. -/
inductive FlashEnd where
  | done
  | readFail
  | powerLost (step : Nat)
  deriving DecidableEq, Repr


/-- The commands and events of Dravina. Each constructor's docstring names its rule. -/
inductive Instr where
  /-- PORST_N goes low and holds the whole package in reset, with outputs to their Reset states. (R107) -/
  | porstNAssert
  /-- PORST_N rises; BOOT_RECOVER is sampled and boot step 1 follows after 10 µs. (R110) Operands: the level of BOOT_RECOVER. -/
  | porstNRelease (recover : Bool)
  /-- A monitored rail falls below its trip point and the package enters internal reset within 2 µs. (R40) Operands: what trips (`RailTrip`). -/
  | supplyMonitorTrip (trip : RailTrip)
  /-- The last monitored rail returns, and release from internal reset follows Table 2-8 from step 7. (R40) Operands: the monitor number. -/
  | supplyMonitorReturn (mon : Nat)
  /-- WARM_RST_N is held low for at least 1 µs and causes a chip reset with cause 3. (R107) -/
  | warmRstN
  /-- Boot starts at step 1, 10 µs after reset release, and runs the twelve boot steps in order. (R111) Operands: what the outside supplies to each step. -/
  | bootStart (env : BootEnv)
  /-- The captain watchdog expires after 1.0 s and causes a chip reset with cause 5. (R109) -/
  | captainWatchdog
  /-- Writing 0xD1A6 to BTL.RESET_REQ causes a chip reset with cause 6. (R110) Operands: the value written. -/
  | resetReq (code : Nat)
  /-- Writing BTL.LEDGER_CLR zeroes every step's failure count in the record written at the next boot. (R118) Operands: the value written. -/
  | ledgerClr (data : Nat)
  /-- PERST_N or a Function Level Reset resets the host link only: rings disabled, doorbells cleared, vectors masked. (R93) Operands: whether PERST_N caused it. -/
  | hostLinkReset (perst : Bool)
  /-- TRST_N low resets the JTAG TAP only. (R107) -/
  | tapReset
  /-- A tamper source whose condition has held for FILTER µs fires and acts at its configured level. (R293) Operands: tamper source. -/
  | tamperFire (source : Nat)
  /-- A tamper source re-arms after its condition has been absent for FILTER µs. (R292) Operands: tamper source. -/
  | tamperRearm (source : Nat)
  /-- The level-3 erase of both key blob slots completes. (R293) -/
  | tamperEraseDone
  /-- At each pace-monitor interval the units report their pace and the die pace figures are refreshed. (R50) Operands: what the monitor of each bench unit counted, and die, page and count of each other unit. -/
  | paceInterval (readings : List PaceReading) (blocks : List (Nat × Nat × Nat))
  /-- The adaptive-voltage loop compares the lowest die pace with the target and steps VCORE by 5 mV. (R52) -/
  | avlPeriod
  /-- The regulator reports a VOUT_COMMAND complete, and the loop may issue its next command. (R52) -/
  | vcoreCommandDone
  /-- The regulator does not acknowledge after 3 retries within 1 ms; the loop halts and PMBUS is raised. (R55) -/
  | pmbusNoAck
  /-- PMB_ALERT_N is asserted; the captain reads and logs STATUS_WORD and pauses the loop. (R55) Operands: STATUS_WORD as read. -/
  | pmbAlert (statusWord : Nat)
  /-- PMB_ALERT_N is released and the paused loop resumes. (R55) -/
  | pmbAlertRelease
  /-- Every 1 ms the captain publishes the temperature and supply readings and checks their limits. (R539) Operands: 24 temperatures in 0.125 °C and 12 supplies in mV. -/
  | sensorPublish (temps : List Int) (mv : List Nat)
  /-- A read of the low half of a split time or sequence register latches its high half. (R57) Operands: the BAR0 offset read. -/
  | latchingRead (addr : Nat)
  /-- A 4-byte read of a counter's low half latches its high half for the next read. (R78) Operands: the BAR0 offset read. -/
  | counterHalfRead (addr : Nat)
  /-- An applied TIM commit with a non-zero step adds the offset to PTP time at the next tick and clears both step registers. (R59) -/
  | ptpStep
  /-- A rising edge on PPS_IN is accepted, latching local time into PPS_CAP, or rejected and counted. (R61) -/
  | ppsInEdge
  /-- After 8 consecutive seconds with offset below 1 µs, discipline moves from ACQUIRE to LOCKED. (R62) -/
  | discLock
  /-- After 3 seconds without an accepted pulse or host rate update, discipline moves from LOCKED to HOLDOVER. (R62) -/
  | discHoldover
  /-- PPS_OUT rises within one tick of each PTP second boundary. (R63) -/
  | ppsOutPulse
  /-- PPS_OUT falls after WIDTH ms. (R63) -/
  | ppsOutEnd
  /-- A write to a register that has no row of its own takes effect by its access type. (R5) Operands: BAR0 offset, value and access size in octets. -/
  | registerWrite (addr data size : Nat)
  /-- A read of an RC register returns its value and clears it. (R5) Operands: the access through BAR0. -/
  | readClear (a : BarRead)
  /-- A BAR2 access returns permitted data without side effects, or is denied and counted. (R88) Operands: direction, offset and size. -/
  | bar2Access (write : Bool) (addr size : Nat)
  /-- Writing PG_CTRL.SRST starts a block soft reset of the page. (R82) Operands: die (7 for all) and page number. -/
  | blockSoftReset (die page : Nat)
  /-- The block reaches its reset state and RST_BUSY clears. (R82) Operands: die and page number. -/
  | softResetDone (die page : Nat)
  /-- Writing PG_COMMIT.GO snapshots, checks and applies or refuses the page's staged fields. (R83) Operands: die (7 for all) and page number. -/
  | pgCommit (die page : Nat)
  /-- Writing 1 to PG_ACCESS.LOCK locks the page until the next package or chip reset. (R89) Operands: die (7 for all) and page number. -/
  | pageLock (die page : Nat)
  /-- Writing 1 to a sticky bit clears it and may release the block's error pin. (R512) Operands: die (7 for all), page and the value written. -/
  | stickyClear (die page bits : Nat)
  /-- Writing a force bit while injection is enabled fires the source as a real firing would. (R517) Operands: die (7 for all), page and the value written. -/
  | errorForce (die page bits : Nat)
  /-- A reaction code is written; codes 6 and 7 are ignored, and the error pin follows the live codes. (R81) Operands: die (7 for all), page, which register, the value written. -/
  | reactCodeWrite (die page : Nat) (hi : Bool) (data : Nat)
  /-- The host advances CR_TAIL and makes the ring's new entries pending. (R95) Operands: ring and the value written to CR_TAIL. -/
  | doorbell (ring idx : Nat)
  /-- Writing CR_RESUME clears HALT and refetches at CR_HEAD. (R100) Operands: ring. -/
  | ringResume (ring : Nat)
  /-- The host advances CQ_HEAD and frees room in the completion ring. (R99) Operands: the value written. -/
  | cqHeadWrite (cnt : Nat)
  /-- The captain fetches a pending command once in-flight limits and lane room allow, and dispatches it whole. (R98) Operands: ring, and whether the host memory read fails. -/
  | commandFetch (ring : Nat) (readErr : Bool)
  /-- A finished command's completion record is written once the ring has room, and its slot is released. (R99) Operands: command in flight, and whether the host memory write fails. -/
  | completionWrite (id : Nat) (writeErr : Bool)
  /-- CQ_IRQ.TIME µs after the first unsignalled record, vector 0 fires. (R626) -/
  | cqIrqTime
  /-- The completion ring has been full for CQ_STALL ms, and vector 1 fires. (R99) -/
  | cqStallTimeout
  /-- Command 0x0001 passes through each addressed sequencer and changes nothing. (R632) Operands: command in flight. -/
  | nop (id : Nat)
  /-- A BTL commit requesting SERVICE starts the transition from BRINGUP or QUIESCE. (R126) -/
  | modeReqService
  /-- A BTL commit requesting BRINGUP starts the transition from SERVICE, QUIESCE or SHADOW. (R126) -/
  | modeReqBringup
  /-- A BTL commit requesting QUIESCE runs the QUIESCE entry sequence. (R127) -/
  | modeReqQuiesce
  /-- A BTL commit requesting DOZE runs the DOZE entry of Table 5-7. (R129) -/
  | modeReqDoze
  /-- A transition completes; TRANS returns to 0 and the new mode's activity starts. (R125) -/
  | modeEntered
  /-- QUIESCE has lasted QUIESCE_MAX seconds with no activation pending; Dravina returns to SERVICE. (R128) -/
  | quiesceMaxExpiry
  /-- A wake source fires in DOZE and the wake sequence of Table 5-8 runs. (R130) Operands: the wake source, and what the calibrations of wake step 7 measure. -/
  | dozeWake (src : WakeSrc) (cal : CalEnv)
  /-- DOZE_TIMER seconds pass after DOZE entry step 6 and wake the device. (R130) Operands: what the calibrations of wake step 7 measure. -/
  | dozeTimerExpiry (cal : CalEnv)
  /-- WAKE_N is released at the first PCIe configuration request after the link trains. (R131) -/
  | wakeNRelease
  /-- The receive LO locks and the band moves from LO_SETTLE to RECEIVE or HOLD. (R139) Operands: Band die. -/
  | bandLoLocked (die : Nat)
  /-- The receive LO loses lock, or fails to lock within 120 µs, and the band enters FAULT. (R139) Operands: Band die. -/
  | bandLoLockLost (die : Nat)
  /-- 1 ms after FAULT entry, an automatic retry moves the band to LO_SETTLE. (R139) Operands: Band die. -/
  | bandFaultRetry (die : Nat)
  /-- Writing RSM.RESUME.BAND moves the band from FAULT to LO_SETTLE. (R139) Operands: Band die (7 for both). -/
  | rsmResumeBand (die : Nat)
  /-- An RSM.REQ commit with target STANDBY in BRINGUP moves the band to STANDBY. (R139) Operands: Band die (7 for both). -/
  | bandReqStandby (die : Nat)
  /-- An RSM.REQ commit with target RECEIVE in BRINGUP moves the band to RECEIVE. (R139) Operands: Band die (7 for both). -/
  | bandReqReceive (die : Nat)
  /-- An RSM.REQ commit with target HOLD in BRINGUP moves the band to HOLD. (R139) Operands: Band die (7 for both). -/
  | bandReqHold (die : Nat)
  /-- The air MAC asks a transmit chain to tune to a channel. (R141) Operands: Band die, chain, channel or gang leader, and whether it is a legacy gang. -/
  | txTuneRequest (die chain channel : Nat) (gang : Bool)
  /-- A transmit synthesiser locks and its chain moves from TX_TUNE to TX_IDLE. (R139) Operands: Band die and chain. -/
  | txSynthLocked (die chain : Nat)
  /-- A transmit synthesiser loses lock; a frame on air is cut off and a second loss gives TX_FAIL. (R139) Operands: Band die and chain. -/
  | txSynthLockLost (die chain : Nat)
  /-- A start reaches a chain; it is checked, and an accepted start runs the transmission sequence and is charged. (R161) Operands: Band die and chain. -/
  | txStart (die chain : Nat)
  /-- The last sample leaves; ramp-down, PA release and unblanking follow, and the chain returns to TX_IDLE. (R142) Operands: Band die and chain. -/
  | txFrameEnd (die chain : Nat)
  /-- A chain's sample FIFO empties during a frame, and the frame is cut off. (R206) Operands: Band die and chain. -/
  | txUnderrun (die chain : Nat)
  /-- CNT consecutive windows violate the spectral mask; the frame is cut off and the chain may be held. (R213) Operands: Band die, chain and the windows measured since the first sample that overlap no ramp, the last one last, each as its power by cell in a linear unit. -/
  | maskCut (die chain : Nat) (windows : List (List (Int × Nat)))
  /-- Writing RSM.RESUME.TX moves a chain from TX_FAIL to TX_CAL. (R139) Operands: Band die (7 for both) and the mask of chains. -/
  | rsmResumeTx (die chains : Nat)
  /-- Writing RSM.CAL_REQ.RX requests a receive calibration under the maintenance token. (R145) Operands: Band die (7 for both). -/
  | calReqRx (die : Nat)
  /-- Writing RSM.CAL_REQ.TX requests a transmit calibration of the named chains. (R146) Operands: Band die (7 for both) and the mask of chains. -/
  | calReqTx (die chains : Nat)
  /-- A region sensor moves by THRESH °C from its last calibration and triggers a calibration. (R143) Operands: Band die, and whether the transmit-region sensor has moved. -/
  | calTempTrigger (die : Nat) (tx : Bool)
  /-- DEFER_MAX ms pass without a free moment, and the transmit calibration starts at the next TX_IDLE. (R146) Operands: Band die. -/
  | calDeferExpiry (die : Nat)
  /-- A receive calibration ends and the band returns to the state its mode requires. (R139) Operands: Band die, whether the LO relocked, the mask of chains that fail, and the coarse codes learned. -/
  | rxCalDone (die : Nat) (relocked : Bool) (failed : Nat) (codes : List DcoCode)
  /-- A transmit calibration ends and the chain returns to TX_IDLE, or to TX_FAIL on failure. (R139) Operands: Band die, chain and outcome. -/
  | txCalDone (die chain : Nat) (ok : Bool)
  /-- At each AGC period a chain compares RMS input with TARGET and steps its gain index. (R149) Operands: Band die, chain and RMS level in 0.1 dBFS. -/
  | agcPeriod (die chain : Nat) (level : Int)
  /-- CLIP_LIM samples clip within 1 µs and the gain index falls by 2 at once. (R149) Operands: Band die, chain and samples clipped within 1 µs. -/
  | agcClip (die chain count : Nat)
  /-- Every COARSE_PERIOD ms the coarse offset code steps toward cancellation. (R151) Operands: Band die, chain and the converter samples of I and of Q in the period, in converter LSB. -/
  | dcoCoarsePeriod (die chain : Nat) (samplesI samplesQ : List Int)
  /-- A converter output holds one code for 1 ms and its receive chain fails. (R163) Operands: Band die and chain. -/
  | converterStuck (die chain : Nat)
  /-- A write of LIM.LOCK_DATA stages a fuse word and increments LOCK_IDX. (R160) Operands: Band die (7 for both) and the value written. -/
  | lockDataWrite (die word : Nat)
  /-- Writing 0x4C4B to LIM.LOCK_GO checks the image and starts fuse programming. (R160) Operands: Band die (7 for both) and the value written. -/
  | lockGo (die code : Nat)
  /-- Fuse programming and DONE complete, and the die becomes LOCKED or SPOILED. (R160) Operands: Band die, and the word that fails verify after one re-program. -/
  | lockProgramDone (die : Nat) (badWord : Option Nat)
  /-- VFUSE falls below 1.70 V during programming; the lock stops with INTERRUPTED and the die is PARTIAL. (R160) Operands: Band die and the words programmed by then. -/
  | lockVfuseLoss (die words : Nat)
  /-- A channelizer sample FIFO overflows and raises SAMPLE_OVF. (R27) Operands: Air die and chain. -/
  | sampleFifoOverflow (die chain : Nat)
  /-- A preamble passes the three acquisition stages on a channel unit and a reception starts. (R181) Operands: Air die, channel and what the three stages measure, the fields of `Preamble`. -/
  | preambleAccept (die channel : Nat) (p1 : P1Seen) (snr : Int) (chSnr : List Int) (cfo : Int) (ago : Nat)
  /-- A frame's SIG is decoded and checked; a bad SIG, map or length drops the frame. (R185) Operands: Air die, reception and the 36 SIG bits. -/
  | sigDecode (die id sig : Nat)
  /-- Decoding ends; the PSDU is descrambled, the FCS is checked and the descriptor is built. (R194) Operands: Air die, reception and what the decoder delivers. -/
  | frameDecoded (die id : Nat) (env : DecodeEnv)
  /-- A decoded frame leaves the delivery queue for the air MAC, or is dropped when the queue is full. (R195) Operands: Air die. -/
  | frameDelivery (die : Nat)
  /-- After the stronger frame ends, the engine cancels it and decodes the weaker frame from the residual. (R188) Operands: Air die, weaker reception, the octets and channel powers of `DecodeEnv` that the decoder delivers, and a further frame found in the residual. -/
  | sicRecovery (die id : Nat) (bits : List (BitVec 8)) (power : List Nat) (resid : Option ResidFrame)
  /-- At each superframe boundary the noise unit publishes per-subcarrier noise codes. (R197) Operands: Air die, and the FFT outputs of the superframe. -/
  | noisePublish (die : Nat) (obs : List NoiseObs)
  /-- A changed channel's new DEM settings go live once it and its gangs have no reception in progress. (R201) Operands: Air die and channel. -/
  | demCommitLive (die channel : Nat)
  /-- The air MAC hands a transmit descriptor and PSDU to the transmit baseband at least 100 µs before START. (R205) Operands: Air die and the transmission handed over. -/
  | txDescriptor (die : Nat) (sel : DescSel)
  /-- A superframe begins; AMC commits go live and the beacon rounds are sent. (R226) Operands: Air die. -/
  | superframeBoundary (die : Nat)
  /-- A slot begins and its planned transmissions are scheduled. (R229) Operands: Air die. -/
  | slotStart (die : Nat)
  /-- The air MAC reads a decoded frame's header, checks its format and passes it to the owning Route die. (R238) Operands: Air die. -/
  | airMacRx (die : Nat)
  /-- In a listen slot a ready downlink is sent at DL_OFS, unless the drift check withholds it. (R241) Operands: Air die and pending downlink. -/
  | listenSlotDownlink (die id : Nat)
  /-- A unicast downlink gets no node ack; it stays pending, or expires after RETRY sends. (R242) Operands: Air die and pending downlink. -/
  | nodeAckMissing (die id : Nat)
  /-- A SCHED_REQ element makes the planner choose a slot and channel, or answer RELEASE. (R244) Operands: Air die. -/
  | schedReq (die : Nat)
  /-- A downlink becomes pending for a class W node and a wake-up call is scheduled. (R247) Operands: Air die and node. -/
  | wakeCallSchedule (die tag tenant : Nat)
  /-- RESP slots pass without an answer; the call is repeated, or the downlink counts as unacknowledged. (R247) Operands: Air die and node. -/
  | wakeCallNoAnswer (die tag tenant : Nat)
  /-- A legacy Association Request is acknowledged, a short address is allocated and the response is held. (R253) Operands: Air die. -/
  | legAssocRequest (die : Nat)
  /-- A legacy Data Request fetches a held indirect frame. (R252) Operands: Air die. -/
  | legDataRequest (die : Nat)
  /-- A Disassociation Notification frees the address and deletes the node's entries. (R253) Operands: Air die. -/
  | legDisassocNotify (die : Nat)
  /-- A legacy Beacon Request is answered with a beacon. (R251) Operands: Air die. -/
  | legBeaconRequest (die : Nat)
  /-- A held indirect frame is not fetched within PERSIST ms and is dropped. (R254) Operands: Air die and held frame. -/
  | legPersistExpiry (die id : Nat)
  /-- A foreign F2 beacon creates or refreshes a neighbour entry and its reservations. (R255) Operands: Air die. -/
  | neighbourBeacon (die : Nat)
  /-- A neighbour is not heard for three of its superframes and is marked lost. (R256) Operands: Air die and BR_TAG of the neighbour. -/
  | neighbourLost (die tag : Nat)
  /-- HOLDOFF superframes pass after loss; the neighbour's reservations and entry are released. (R256) Operands: Air die and BR_TAG of the neighbour. -/
  | neighbourHoldoffExpiry (die tag : Nat)
  /-- Command 0x0401 sets a node's assignment and sends ASSIGN at its next opportunity. (R245) Operands: command in flight. -/
  | planSet (id : Nat)
  /-- Command 0x0402 releases a node's assignment and sends RELEASE. (R245) Operands: command in flight. -/
  | planClear (id : Nat)
  /-- Command 0x0403 writes a node's assignment and state to host memory. (R245) Operands: command in flight, and whether the data buffer access fails. -/
  | planGet (id : Nat) (dmaErr : Bool)
  /-- Command 0x0404 clears DESYNC and the unacknowledged count of a node. (R249) Operands: command in flight. -/
  | desyncClear (id : Nat)
  /-- Command 0x0405 sends a Disassociation Notification and frees a short address. (R253) Operands: command in flight. -/
  | legRelease (id : Nat)
  /-- Command 0x0301 loads keys, wrapped or clear, into consecutive vault slots. (R281) Operands: command in flight, a data buffer error, and the key before which a tamper reaction stops it. -/
  | keyImport (id : Nat) (dmaErr : Bool) (stopAt : Option Nat)
  /-- Command 0x0302 zeroises vault slots. (R280) Operands: command in flight. -/
  | keyErase (id : Nat)
  /-- Command 0x0303 writes the check values of vault slots. (R282) Operands: command in flight and a data buffer error. -/
  | keyKcv (id : Nat) (dmaErr : Bool)
  /-- Command 0x0304 writes the vault to a key blob slot in flash. (R286) Operands: command in flight and how the write ends. -/
  | keyPersist (id : Nat) (fate : PersistEnd)
  /-- Command 0x0305 clears the vault and loads the newest valid blob. (R280) Operands: command in flight. -/
  | vaultReload (id : Nat)
  /-- Command 0x0306 clears HOLD when no level-2 or level-3 source is asserted. (R294) Operands: command in flight. -/
  | tamperAck (id : Nat)
  /-- PERIOD × 100 ms after the last sweep, a key re-masking sweep is requested under the A3 token. (R284) -/
  | remaskStart
  /-- A re-mask sweep finishes rewriting every entry into the new generation. (R283) -/
  | remaskDone
  /-- A decoded air frame enters the owning Route die's sequencer and runs its node play. (R24) Operands: Route die and what the outside decides of the play. -/
  | airFrame (die : Nat) (env : PlayEnv)
  /-- A frame from an owned Ethernet, Voxnen or gateway port enters the sequencer and runs its play. (R23) Operands: Route die and what the outside decides of the play. -/
  | wiredFrame (die : Nat) (env : PlayEnv)
  /-- A fetched command is sequenced on its Route die and run by the CMD play. (R339) Operands: command in flight and Route die. -/
  | hostCmd (id die : Nat)
  /-- A commit on a Route-die page takes effect at its place in the die's order. (R85) Operands: Route die. -/
  | commitEvent (die : Nat)
  /-- A TIMER event carrying its due mask runs each due kind's work. (R339) Operands: Route die, and each kind that is due with its count: 0 port shapers, 1 queue shapers, 2 node age tick, 3 forwarding age tick, 4 lineup gates, 5 queue sampling, 6 reassembly expiry, 7 superframe boundary, 8 TIME_STEP. -/
  | timer (die : Nat) (kinds : List (Nat × Nat))
  /-- A transfer from the other Route die enters the sequencer as a new input event. (R21) Operands: receiving Route die and what the outside decides of the play. -/
  | xfer (die : Nat) (env : PlayEnv)
  /-- The air MAC reports a downlink acknowledged, unacknowledged or expired, or a call unanswered. (R337) Operands: Route die. -/
  | airOutcome (die : Nat)
  /-- A transmitter takes a packet; its selection, shaper charges and removal take effect. (R374) Operands: Route die. -/
  | egressDone (die : Nat)
  /-- A mode transition is placed as a MODE event in each Route die's order. (R337) Operands: Route die. -/
  | modeEvent (die : Nat)
  /-- A token grant or release, or a bench switch-over, is placed as a MAINT event. (R525) Operands: Route die. -/
  | maint (die : Nat)
  /-- A play reaches WD.LIMIT steps and is aborted without commit. (R349) Operands: Route die and source: 0 AIR, 1 WIRED, 3 XFER, 4 INTERNAL. -/
  | playWatchdog (die src : Nat)
  /-- A crypto engine returns a job's result and the reservation is released. (R356) Operands: Route die and job. -/
  | cryptoJobDone (die job : Nat)
  /-- A reassembly context older than REASM ms is freed at the reassembly tick. (R360) Operands: Route die. -/
  | reassemblyExpiry (die : Nat)
  /-- At each node age tick the ager visits every bucket and issues AGE_CAS events for aged slots. (R313) Operands: Route die. -/
  | ageTick (die : Nat)
  /-- At each forwarding age tick, learned MAC entries are aged. (R324) Operands: Route die. -/
  | fwdAgeTick (die : Nat)
  /-- An AGE_CAS event moves an unchanged aged entry to the cold store, or has no effect. (R313) Operands: Route die. -/
  | ageCas (die : Nat)
  /-- The population counter takes a creation request and answers GRANT or FULL. (R310) -/
  | popRequest
  /-- The counter's answer is sequenced; creation takes effect, or the held frames are dropped. (R310) Operands: Route die and what the outside decides of the play. -/
  | popAnswer (die : Nat) (env : PlayEnv)
  /-- A slow-path operation performs its DRAM table work from the slow-path lane. (R316) Operands: Route die. -/
  | slowPathOp (die : Nat)
  /-- A slow-path result re-enters the sequencer and the waiting event continues. (R316) Operands: Route die and what the outside decides of the play. -/
  | slowResult (die : Nat) (env : PlayEnv)
  /-- A MIGRATE event reinserts one bucket's entries under the new seed. (R318) Operands: Route die. -/
  | migrate (die : Nat)
  /-- A LEARN event inserts or updates a learned forwarding entry. (R322) Operands: Route die. -/
  | learn (die : Nat)
  /-- Command 0x0101 writes a node's slot, detail and route records to host memory. (R332) Operands: command in flight, and whether the data buffer access fails. -/
  | nodeRead (id : Nat) (dmaErr : Bool)
  /-- Command 0x0102 overwrites or creates a node's entry. (R332) Operands: command in flight, and whether the data buffer access fails. -/
  | nodeWrite (id : Nat) (dmaErr : Bool)
  /-- Command 0x0103 deletes a node's resident and cold entries. (R332) Operands: command in flight. -/
  | nodeDelete (id : Nat)
  /-- Command 0x0104 sets PIN and MPIN and optionally a map. (R332) Operands: command in flight. -/
  | nodePin (id : Nat)
  /-- Command 0x0105 writes a consistent batch of table records from a cursor. (R333) Operands: command in flight, and whether the data buffer access fails. -/
  | tableDump (id : Nat) (dmaErr : Bool)
  /-- Command 0x0106 migrates a table to a new seed under the rehash token. (R318) Operands: command in flight. -/
  | tableRehash (id : Nat)
  /-- Command 0x0107 inserts static forwarding entries. (R332) Operands: command in flight, and whether the data buffer access fails. -/
  | fwdAdd (id : Nat) (dmaErr : Bool)
  /-- Command 0x0108 deletes forwarding entries by key. (R332) Operands: command in flight, and whether the data buffer access fails. -/
  | fwdDelete (id : Nat) (dmaErr : Bool)
  /-- Command 0x0109 deletes learned forwarding entries. (R332) Operands: command in flight. -/
  | fwdFlush (id : Nat)
  /-- At each refill period a shaper's credit grows by INC up to its burst. (R378) Operands: Route die, and whether the queue shapers (true) or the port shapers refill. -/
  | shaperRefill (die : Nat) (queues : Bool)
  /-- Every sampling period each queue's depth and sojourn are recorded. (R387) Operands: Route die. -/
  | queueSample (die : Nat)
  /-- A lineup entry's time arrives and its gate settings take force. (R389) Operands: Route die and scheduler port. -/
  | lineupGate (die port : Nat)
  /-- An SCH commit with LUP_CTRL.LOAD copies the staged list into the port's pending bank. (R390) Operands: Route die. -/
  | lineupLoad (die : Nat)
  /-- The pending bank takes over at its kickoff time or late boundary. (R390) Operands: Route die and scheduler port. -/
  | lineupTakeover (die port : Nat)
  /-- A port's transmitter can take a packet and the scheduler chooses one. (R372) Operands: Route die, scheduler port and what the outside decides of the egress. -/
  | portDequeue (die port : Nat) (env : EgressEnv)
  /-- Command 0x0201 applies queue records. (R368) Operands: command in flight, and whether the data buffer access fails. -/
  | queueSet (id : Nat) (dmaErr : Bool)
  /-- Command 0x0202 writes queue records and state to host memory. (R395) Operands: command in flight, and whether the data buffer access fails. -/
  | queueRead (id : Nat) (dmaErr : Bool)
  /-- Command 0x0203 drops every packet in the named queues. (R395) Operands: command in flight. -/
  | queueFlush (id : Nat)
  /-- Command 0x0204 applies meter records. (R385) Operands: command in flight, and whether the data buffer access fails. -/
  | policerSet (id : Nat) (dmaErr : Bool)
  /-- Command 0x0205 writes queue depth and sojourn samples. (R387) Operands: command in flight, and whether the data buffer access fails. -/
  | sampleRead (id : Nat) (dmaErr : Bool)
  /-- A received Ethernet frame is checked and filtered, then enters the owning sequencer. (R402) Operands: port, the frame with its FCS, and whether it has code or block errors. -/
  | ethFrameRx (port : Nat) (frame : List (BitVec 8)) (codeErr : Bool)
  /-- The MAC starts a frame once its start threshold has reached the transmit FIFO. (R406) Operands: port. -/
  | ethTxStart (port : Nat)
  /-- The transmit FIFO empties mid-frame; the frame ends with a bad FCS and the step rises. (R407) Operands: port. -/
  | ethTxUnderrun (port : Nat)
  /-- The PCS reaches lock or synchronisation with no fault and LINK rises. (R401) Operands: port. -/
  | ethLinkUp (port : Nat)
  /-- Lock is lost; LINK falls and a frame being sent is cut off. (R401) Operands: port, and lock and fault states after the loss. -/
  | ethLinkDown (port : Nat) (lock localFault remoteFault : Bool)
  /-- A PAUSE or PFC frame pauses classes for its time in quanta. (R408) Operands: port, MAC Control opcode, class-enable vector, and one time (PAUSE) or eight (PFC) in quanta. -/
  | ethPauseRx (port opcode enables : Nat) (times : List Nat)
  /-- A pause's time elapses and the class may transmit again. (R408) Operands: port and class. -/
  | ethPauseExpiry (port cls : Nat)
  /-- The wired input lane reaches XOFF and the MAC sends a PAUSE or PFC frame. (R410) Operands: port. -/
  | ethFcXoff (port : Nat)
  /-- Half of QUANTA elapses above XON and the flow-control frame is repeated. (R410) Operands: port. -/
  | ethFcRepeat (port : Nat)
  /-- The lane falls to XON and the MAC sends a frame with time 0. (R410) Operands: port. -/
  | ethFcXon (port : Nat)
  /-- Writing TS_POP removes the head entry of a timestamp FIFO. (R412) Operands: port and the value written. -/
  | tsPop (port data : Nat)
  /-- Writing MDIO_CMD with GO starts one Clause 22 or Clause 45 transaction. (R413) Operands: the value written. -/
  | mdioCmd (data : Nat)
  /-- An MDIO transaction completes and BUSY clears. (R413) Operands: what a read returned. -/
  | mdioDone (data : Nat)
  /-- A valid CAN frame is matched against the filters and queued, sent to the gateway, or both. (R421) Operands: bus, the frame, and whether its res bit was recessive. -/
  | canFrameRx (bus : Nat) (f : CanRx) (resRecessive : Bool)
  /-- A gateway-bound CAN frame is sequenced on Route-0 and returned to the gateway engine. (R434) -/
  | canFrameEvent
  /-- The gateway engine applies the matching rule's limit, verify, strip, rewrite, append and dispatch. (R436) -/
  | gatewayEvent
  /-- An NTSCF PDU from port 27 is split into gateway events, one per CAN message. (R441) -/
  | acfPduRx
  /-- Writing RX_ACK frees the head entry of the receive queue or high-priority buffer. (R422) Operands: bus and the value written. -/
  | canRxAck (bus data : Nat)
  /-- A write through TX_WIN fills a free software entry, or is dropped and counted. (R424) Operands: bus, word 0 to 19 of the window and the value written. -/
  | canTxWinWrite (bus word data : Nat)
  /-- Writing an index to TX_PUSH makes the entry PENDING, or INVALID. (R424) Operands: bus and the value written. -/
  | canTxPush (bus data : Nat)
  /-- Writing TX_ACK returns a final software entry to FREE. (R425) Operands: bus and the value written. -/
  | canTxAck (bus data : Nat)
  /-- Writing TX_ABORT aborts a pending, held or active entry. (R428) Operands: bus and the value written. -/
  | canTxAbort (bus data : Nat)
  /-- Writing RECOVER starts bus-off recovery. (R432) Operands: bus and the value written. -/
  | canRecoverWrite (bus data : Nat)
  /-- CTRL_SLEEP.REQ 1 puts the controller to sleep with wake on edge at frame end. (R433) Operands: bus. -/
  | canSleepEdge (bus : Nat)
  /-- CTRL_SLEEP.REQ 2 puts the controller to sleep with wake on frame at frame end. (R433) Operands: bus. -/
  | canSleepFrame (bus : Nat)
  /-- CTRL_SLEEP.REQ 0 wakes the controller at once. (R433) Operands: bus. -/
  | canWakeReq (bus : Nat)
  /-- A change of OPMODE takes effect when the frame in progress ends. (R418) Operands: bus. -/
  | canOpmodeChange (bus : Nat)
  /-- The bus goes idle and the highest-priority contending entry starts an attempt. (R426) Operands: bus. -/
  | canArbitration (bus : Nat)
  /-- A transmission attempt ends sent, lost or in error, and the entry's state moves. (R425) Operands: bus, how the attempt ends (with whether an error counts under ISO 11898-1), and the delay measured. -/
  | canTxAttemptEnd (bus : Nat) (how : AttemptEnd) (tdcv : Nat)
  /-- A transmit-at-time window closes before the entry wins arbitration; the entry becomes LATE. (R429) Operands: bus and entry. -/
  | canTatWindowClose (bus idx : Nat)
  /-- After 128 occurrences of 11 recessive bits, recovery ends and HELD entries become PENDING. (R432) Operands: bus. -/
  | canRecoveryDone (bus : Nat)
  /-- A dominant level or matching wake pattern wakes a sleeping controller. (R433) Operands: bus, the frame decoded (none for a dominant level), and what the calibrations of a wake from DOZE measure. -/
  | canBusWake (bus : Nat) (frame : Option CanRx) (cal : CalEnv)
  /-- Writing 1 to a GWY.STANDBY bit releases a bus or port from standby. (R444) Operands: whether STANDBY_ETH is written, else STANDBY_CAN, and the value written. -/
  | standbyRelease (eth : Bool) (data : Nat)
  /-- Command 0x0501 applies gateway rule records and restarts their limiters. (R445) Operands: command in flight, and whether its data read fails. -/
  | gwRuleSet (id : Nat) (dmaErr : Bool)
  /-- Command 0x0502 writes rule records to host memory. (R445) Operands: command in flight, and whether its data write fails. -/
  | gwRuleRead (id : Nat) (dmaErr : Bool)
  /-- Command 0x0503 writes freshness values and may clear FRESH_LOST. (R439) Operands: command in flight, and whether its data read fails. -/
  | gwFreshSet (id : Nat) (dmaErr : Bool)
  /-- Command 0x0504 reads freshness values. (R445) Operands: command in flight, and whether its data write fails. -/
  | gwFreshRead (id : Nat) (dmaErr : Bool)
  /-- Command 0x0505 injects host frames as gateway events with ingress 48. (R442) Operands: command in flight, and whether its data read fails. -/
  | gwInject (id : Nat) (dmaErr : Bool)
  /-- BUS_MODE OP 0 wakes each bus in the mask. (R445) Operands: command in flight. -/
  | busWake (id : Nat)
  /-- BUS_MODE OP 1 puts each bus in the mask to sleep with wake on edge. (R445) Operands: command in flight. -/
  | busSleepEdge (id : Nat)
  /-- BUS_MODE OP 2 puts each bus in the mask to sleep with wake on frame. (R445) Operands: command in flight. -/
  | busSleepFrame (id : Nat)
  /-- BUS_MODE OP 3 starts bus-off recovery on each bus in the mask. (R445) Operands: command in flight. -/
  | busRecover (id : Nat)
  /-- Signal is seen on both data lanes and the link moves from DETECT to LOCK. (R455) Operands: link. -/
  | vxlSignalDetect (link : Nat)
  /-- Block lock and deskew on both data lanes move the link to HELLO. (R455) Operands: link. -/
  | vxlBlockLock (link : Nat)
  /-- Every 100 µs in HELLO the link sends a HELLO. (R455) Operands: link. -/
  | vxlHelloTx (link : Nat)
  /-- A received HELLO moves the link to UP, or to FAULT for a wrong FID or loop. (R455) Operands: link and the 16 octets of the message. -/
  | vxlHelloRx (link : Nat) (msg : List (BitVec 8))
  /-- The link is not UP within 10 ms of LOCK and enters FAULT. (R455) Operands: link. -/
  | vxlLockTimeout (link : Nat)
  /-- 100 ms after FAULT entry the link returns to DETECT. (R455) Operands: link. -/
  | vxlFaultRetry (link : Nat)
  /-- Loss of block lock on the remaining lanes takes the link from UP to DETECT. (R455) Operands: link. -/
  | vxlLossOfLock (link : Nat)
  /-- A data lane fails and the lane-swap ordered set is sent to move it to the bench lane. (R456) Operands: link and what fails. -/
  | vxlLaneFail (link : Nat) (lane : LaneFail)
  /-- The peer's lane-swap ordered set arrives and both ends carry the lane on physical lane 2. (R456) Operands: link and the physical lane that the ordered set names. -/
  | vxlLaneSwapRx (link lane : Nat)
  /-- A fabric frame is received and checked, then delivered, forwarded or dropped. (R454) Operands: link, the frame with its CRC-32C, and whether it has code or block errors. -/
  | vxlFrameRx (link : Nat) (frame : List (BitVec 8)) (codeErr : Bool)
  /-- A flow-control ordered set holds or releases service classes on the link. (R458) Operands: link and the mask of classes to hold. -/
  | vxlFcSetRx (link mask : Nat)
  /-- 1 ms after the last holding set, a held class is released. (R458) Operands: link and class. -/
  | vxlFcExpiry (link cls : Nat)
  /-- The owning die's wired lane reaches XOFF and the link sends a hold set. (R458) Operands: link. -/
  | vxlFcXoff (link : Nat)
  /-- Every 100 µs above XON the hold set is repeated. (R458) Operands: link. -/
  | vxlFcRepeat (link : Nat)
  /-- The lane falls to XON and the link sends a set with mask 0. (R458) Operands: link. -/
  | vxlFcXon (link : Nat)
  /-- A received LSA is kept and flooded, or counted stale; ID contests are decided. (R464) Operands: link and the 48 octets of the message. -/
  | lsaRx (link : Nat) (msg : List (BitVec 8))
  /-- REFRESH ms pass and the device originates its LSA again. (R464) -/
  | lsaRefresh
  /-- An LSA not renewed within 3 × REFRESH ms is removed. (R464) Operands: originator. -/
  | lsaExpiry (eui : Nat)
  /-- The held LSAs have not changed for SETTLE ms and the huddle settles. (R466) -/
  | huddleSettle
  /-- The captain recomputes the shortest-path table and rewrites the DEV entries. (R468) -/
  | sptRecompute
  /-- Command 0x0601 sends a HOSTMSG fabric frame. (R474) Operands: command in flight, and whether its data read fails. -/
  | fabSend (id : Nat) (dmaErr : Bool)
  /-- Command 0x0602 runs a fabric re-huddle under the A1 token. (R467) Operands: command in flight. -/
  | hudRehuddle (id : Nat)
  /-- Command 0x0603 writes the held LSAs to host memory. (R474) Operands: command in flight, and whether its data write fails. -/
  | lsdbRead (id : Nat) (dmaErr : Bool)
  /-- Command 0x0604 sets or removes cede records. (R472) Operands: command in flight, and whether its data read fails. -/
  | claimSet (id : Nat) (dmaErr : Bool)
  /-- Command 0x0605 writes valid cede records from a cursor. (R474) Operands: command in flight, and whether its data write fails. -/
  | claimRead (id : Nat) (dmaErr : Bool)
  /-- Every 1,000 µs UMP_HB rises with the width of the member's heartbeat code. (R483) -/
  | heartbeatPulse
  /-- UMP_GO rises; the member takes possession, or starts a takeover from STANDBY. (R480) Operands: how many records of the journal that the partner sent are not received when a takeover closes the intake. -/
  | umpGoRise (lost : Nat)
  /-- UMP_GO stays low for GO_FILT µs and the holder releases possession. (R480) -/
  | umpGoFall
  /-- POSS reads high for 10 µs while held; the member releases outputs and raises POSS_FAULT. (R481) -/
  | possLineHigh
  /-- Every received journal record is executed and the new holder enables its outputs. (R500) -/
  | takeoverBacklogDone
  /-- POSS is not released 20 ms after the verdict; the takeover is abandoned. (R506) -/
  | takeoverPossTimeout
  /-- In umpire duty, a member's heartbeat pulse is classified and may lead to a verdict. (R484) Operands: member (0 A, 1 B) and width of the pulse in µs. -/
  | umpirePulseRx (member widthUs : Nat)
  /-- 3 ms without a rising edge; the umpire declares the heartbeat lost. (R484) Operands: member (0 A, 1 B). -/
  | umpireHbLost (member : Nat)
  /-- The old holder does not release POSS within 1 ms, and the umpire resets it. (R485) -/
  | umpireReleaseTimeout
  /-- A SHADOW receives a journal record and places it in sequence-number order. (R488) Operands: Route die and record. -/
  | journalRecordRx (die : Nat) (record : Machine.JRec)
  /-- Every ACK_INT µs the SHADOW acknowledges the highest record received in full. (R489) -/
  | journalAckTimer
  /-- An acknowledgement reaches the PRIMARY and the external effects of acknowledged events are released. (R490) Operands: Route die, the sequence number after the highest record received in full, in order, and the partner's lag in µs. -/
  | journalAckRx (die seq lagUs : Nat)
  /-- 20 µs after their last send, unacknowledged records are sent again. (R489) Operands: Route die. -/
  | journalResend (die : Nat)
  /-- No acknowledgement advances for JTIMEOUT ms; the journal is stalled and REPLACE is sent. (R489) -/
  | journalStall
  /-- The stall lasts 20 ms while possession is held; the member breaks the pair and enters SOLO. (R489) -/
  | journalStallBreak
  /-- Every 1 ms a joining member measures the partner's pair time and sets PT_OFS. (R493) Operands: the offset from local time to the partner's pair time, measured over the twin link. -/
  | pairTimeMeasure (ofs : Nat)
  /-- Every 10 ms the holder reports its duty usage over the twin link. (R501) Operands: the holder's report as it arrives (sub-band and Air die as key, usage in µs), or none where this member reports. -/
  | dutyUsageReport (rx : Option (List (Nat × Nat)))
  /-- LAG exceeds LAG_MAX for 10 ms and TWN source LAG is raised. (R509) -/
  | lagAlarm
  /-- A message over the twin link reports the partner's possession or break, and the member reacts. (R506) Operands: message. -/
  | twinPeerNotice (msg : PeerMsg)
  /-- Command 0x0701 forms a pair: checks, pair time, QUIESCE, state copy, then PRIMARY and STANDBY. (R498) Operands: command in flight, and the cause from 4 to 8 of R498 that only both members together show (0 where all hold). -/
  | twnForm (id cause : Nat)
  /-- Command 0x0702 leaves the pair. (R507) Operands: command in flight. -/
  | twnBreak (id : Nat)
  /-- Command 0x0703 drains the journal and sends REPLACE for a planned swap. (R504) Operands: command in flight. -/
  | twnHandover (id : Nat)
  /-- An error source sets its sticky bit and acts by its reaction code. (R511) Operands: die, page and source, what the error hit where the source names a thing of the table: its kind and its place (`Dev.errorHits` says what they are), and the bench unit whose own memory the error is in, if any (R520). -/
  | errorSourceFire (die page src kind place : Nat) (unit : Option Nat)
  /-- Writing 1 to a collector bit clears it when its input is no longer asserted. (R514) Operands: the collector word's offset in the FCL page and the value written. -/
  | collectorClear (off data : Nat)
  /-- Writing FCL.FIRST_CLR clears FIRST. (R515) Operands: the value written. -/
  | firstClear (data : Nat)
  /-- Writing 1 to ERRN.LATCH clears it when no code-5 sticky bit remains. (R516) Operands: the value written. -/
  | errnLatchClear (data : Nat)
  /-- An activity requests its maintenance tokens; it is granted or queued. (R527) Operands: activity code, mask of regions, and the activity's argument. -/
  | tokenRequest (act scope : Nat) (arg : Nat)
  /-- An activity releases its tokens and queued requests are granted in order. (R525) Operands: activity code and mask of regions. -/
  | tokenRelease (act scope : Nat)
  /-- At the unit's switch-over point the spare takes over and the old unit is isolated. (R522) Operands: the unit replaced, and whether each spare of its group passes its self-test. -/
  | substitutionSwitchover (type die old : Nat) (sparesOk : List Bool)
  /-- Every PERIOD minutes a memory scrub pass over the regions starts. (R528) -/
  | scrubPassStart
  /-- A scrub slice ends and releases its region's token. (R528) Operands: words corrected in the slice. -/
  | scrubSliceDone (corrected : Nat)
  /-- Command 0x0801 substitutes a named active unit. (R522) Operands: command in flight. -/
  | benSubst (id : Nat)
  /-- Command 0x0802 writes bench records. (R531) Operands: command in flight, and whether the data buffer access fails. -/
  | benRead (id : Nat) (dmaErr : Bool)
  /-- Command 0x0803 scrubs each region in the mask once. (R528) Operands: command in flight. -/
  | mntScrub (id : Nat)
  /-- Writing CPT.MBOX_GO submits the mailbox command. (R535) Operands: the value written. -/
  | mboxGo (data : Nat)
  /-- Command 0x0901 writes the captain information block. (R536) Operands: command in flight, and whether the data buffer access fails. -/
  | cptInfo (id : Nat) (dmaErr : Bool)
  /-- Command 0x0902 commands VCORE and disables the loop. (R54) Operands: command in flight. -/
  | vcoreSet (id : Nat)
  /-- Command 0x0903 writes log records from a SEQ onward. (R536) Operands: command in flight, and whether the data buffer access fails. -/
  | logRead (id : Nat) (dmaErr : Bool)
  /-- Command 0x0904 programs every unflushed log record to flash. (R544) Operands: command in flight. -/
  | logFlush (id : Nat)
  /-- Command 0x0905 adds one scoreboard capture at the next tick. (R547) Operands: command in flight. -/
  | sbNow (id : Nat)
  /-- Command 0x0906 drains sampling records from a Route die. (R552) Operands: command in flight, and whether the data buffer access fails. -/
  | psRead (id : Nat) (dmaErr : Bool)
  /-- Command 0x0907 writes the sensor and pace readings. (R536) Operands: command in flight, and whether the data buffer access fails. -/
  | sensorRead (id : Nat) (dmaErr : Bool)
  /-- Command 0x0908 draws and writes a debug challenge. (R538) Operands: command in flight, and whether the data buffer access fails. -/
  | debugChal (id : Nat) (dmaErr : Bool)
  /-- Command 0x0909 checks the response and opens the debug scopes. (R538) Operands: command in flight, and whether the data buffer access fails. -/
  | debugUnlock (id : Nat) (dmaErr : Bool)
  /-- 10 s after a failed unlock attempt, attempts are accepted again. (R538) -/
  | debugBlockExpiry
  /-- FLUSH ms after the oldest unflushed record, or at 128 records, the log is flushed. (R544) -/
  | logFlushTimer
  /-- A 4 KiB log page finishes programming to flash. (R544) Operands: whether the page programs and verifies. -/
  | logPageProgrammed (ok : Bool)
  /-- At each capture tick every counter copies its value into its shadow. (R548) -/
  | scoreboardCapture
  /-- A dump is written to the ring, RING_TAIL advances and vector 10 fires. (R550) Operands: whether the DRAM write fails. -/
  | scoreboardDumpWritten (dmaErr : Bool)
  /-- Command 0x0A01 begins a download session on the staging bank. (R564) Operands: command in flight and how the erase ends. -/
  | updOpen (id : Nat) (fate : FlashEnd)
  /-- Command 0x0A02 programs a block of the staging bank. (R565) Operands: command in flight, a data buffer error, and how the program ends. -/
  | updWrite (id : Nat) (dmaErr : Bool) (fate : FlashEnd)
  /-- Command 0x0A03 runs the VERIFY checks on the staging bank. (R567) Operands: command in flight. -/
  | updCheck (id : Nat)
  /-- Command 0x0A04 takes the activation token and restarts into the staging bank. (R570) Operands: command in flight. -/
  | updActivate (id : Nat)
  /-- At t_q the activation enters QUIESCE, saves state, programs GEN and TRIAL and resets the chip. (R571) Operands: how the programming of GEN (step 1) and TRIAL (step 2) ends. -/
  | activationBegin (fate : FlashEnd)
  /-- Command 0x0A05 programs GOOD on the running bank and ends the trial. (R574) Operands: command in flight and how the programming of GOOD ends. -/
  | updConfirm (id : Nat) (fate : FlashEnd)
  /-- Command 0x0A06 gives up the trial bank and restarts into the previous bank. (R575) Operands: command in flight. -/
  | updRevert (id : Nat)
  /-- Command 0x0A07 writes both banks' state words and manifest headers. (R579) Operands: command in flight and a data buffer error. -/
  | updInfo (id : Nat) (dmaErr : Bool)
  /-- Command 0x0A08 checks and writes a configuration blob to flash. (R578) Operands: command in flight, a data buffer error, and how the program ends. -/
  | cfgWrite (id : Nat) (dmaErr : Bool) (fate : FlashEnd)
  /-- 60 s before the trial window expires, vector 12 fires. (R574) -/
  | trialWarning
  /-- The trial window expires unconfirmed; the bank is given up and the device may restart. (R574) -/
  | trialExpiry
  /-- Command 0x0B01 copies a node image into DRAM and hashes it. (R585) Operands: command in flight, and whether its data read fails. -/
  | cmpImgLoad (id : Nat) (dmaErr : Bool)
  /-- Command 0x0B02 writes an image's size and hash. (R599) Operands: command in flight, and whether its data write fails. -/
  | cmpImgInfo (id : Nat) (dmaErr : Bool)
  /-- Command 0x0B03 writes a campaign record and puts it in DEFINED. (R587) Operands: command in flight, and whether its data read fails. -/
  | cmpSet (id : Nat) (dmaErr : Bool)
  /-- Command 0x0B04 adds members to a DEFINED campaign. (R599) Operands: command in flight, and whether its data read fails. -/
  | cmpMembers (id : Nat) (dmaErr : Bool)
  /-- CMP_CTRL OP 0 arms a campaign and queues CAMP_ANNOUNCE to its members. (R595) Operands: command in flight. -/
  | cmpStart (id : Nat)
  /-- CMP_CTRL OP 1 pauses a campaign. (R595) Operands: command in flight. -/
  | cmpPause (id : Nat)
  /-- CMP_CTRL OP 2 returns a paused campaign to the state it left. (R595) Operands: command in flight. -/
  | cmpResume (id : Nat)
  /-- CMP_CTRL OP 3 stops a campaign. (R595) Operands: command in flight. -/
  | cmpStop (id : Nat)
  /-- CMP_CTRL OP 4 returns a finished campaign to EMPTY. (R595) Operands: command in flight. -/
  | cmpClear (id : Nat)
  /-- Command 0x0B06 writes a campaign's status. (R599) Operands: command in flight, and whether its data write fails. -/
  | cmpStatus (id : Nat) (dmaErr : Bool)
  /-- Command 0x0B07 writes member records. (R599) Operands: command in flight, and whether its data write fails. -/
  | cmpMemberRead (id : Nat) (dmaErr : Bool)
  /-- In a campaign slot the engine builds a block frame and hands it to the air MAC, or lets the slot pass. (R591) Operands: campaign. -/
  | campaignSlot (cid : Nat)
  /-- WAIT superframes end; the round count rises and the next round, DONE or EXHAUSTED follows. (R593) Operands: campaign. -/
  | campaignWaitEnd (cid : Nat)
  /-- A CAMP_STATUS report updates the member's state and the repair set. (R594) -/
  | campaignReport
  /-- At a superframe boundary with no frame held, Route-1's engine takes over the campaigns. (R596) -/
  | campaignEngineSwitchover
  /-- With UMP_GO high for GO_FILT and the mode permitting, POSS has read high for 50 µs and the member drives POSS low and takes possession. (R480) -/
  | possessionTake
  /-- In umpire duty with ERR_EN set, the holder's ERR_N input has been low for 1 ms, and the umpire may give its verdict. (R484) Operands: member (0 A, 1 B). -/
  | umpireErrNLow (member : Nat)
  /-- After holding a member's PORST_N low for at least 10 ms, the umpire releases it so that the member boots. (R485) Operands: member (0 A, 1 B). -/
  | umpireResetRelease (member : Nat)
  /-- VLT.MASK_STAT.AGE exceeds twice the re-mask period and VLT source MASK_LATE is raised. (R284) -/
  | remaskLate
  /-- A controller detects a bus error or protocol exception while receiving, raising its receive error counter and possibly entering error-passive or bus integration. (R430) Operands: bus, LEC code, how much the receive and the transmit counter rise under ISO 11898-1, and whether it is a protocol exception. -/
  | canReceiveError (bus lec recUp tecUp : Nat) (pxe : Bool)
  /-- A pending transmit-at-time entry's LAUNCH time arrives and the entry may contend, starting an attempt at once on an idle bus. (R429) Operands: bus, entry, and whether the bus is idle. -/
  | canTatLaunch (bus idx : Nat) (idle : Bool)
  deriving DecidableEq, Repr

end Sys2Proof
end

