-- ==== Sys2Proof/Config.lean ====
section
/-! DEFINITION. What the spec leaves open: free values. None of these constants has a body, so no proof can see
a value of it, and whatever is proved holds for every value. Each is named in the assumption log. -/

namespace Sys2Proof.Config

/-- A fresh value that the spec does not state (an undefined or unspecified result, a random draw). The argument
is the free-value counter of State, which the step advances. Assumption 2. -/
opaque freeNat : Nat → Nat

/-- A fresh octet string that the spec does not state. Assumption 2. -/
opaque freeBytes : Nat → List Byte

/-- Verification of an ECDSA P-256 signature over a SHA-256 digest: public key, digest, signature. The spec names
the algorithm and does not write it out. Assumption 3. -/
opaque ecdsaP256Valid : List Byte → List Byte → List Byte → Bool

/-- Haleri's signing public keys 0 to 3, which the spec says are in boot ROM and does not print. Assumption 3. -/
opaque haleriKey : Nat → List Byte

/-- The octets of the image area of the set that a bank holds at manufacture, which the spec does not print. Assumption 6. -/
opaque factoryOctet : Nat → Byte

/-- The default coefficients of the shaping filters in the RF calibration part of the image, by set and tap, which the spec does not print (R211).
Assumption 26. -/
opaque firTap : Nat → Nat → Nat

/-- The 8 check bits of a lane word's 64 data bits: the spec names SECDED and gives no code (R344). Assumption 35. -/
opaque secded : Nat → Nat

end Sys2Proof.Config
end

