-- ==== Sys2Proof/Machine/State.lean ====
section
/-! DEFINITION. The state of the Dravina block as plain data: every register copy, every table, queue, buffer,
mode and pin that the spec gives the device, host memory, and the queue of waiting commands. -/

namespace Sys2Proof.Machine
open Sys2Proof

/-! ## Reasons a step can stop -/

/-- Why a command stops with a fault. No command of this hardware ends in a fault: the spec turns every error into
an effect (a failed access, a refusal code, an error source). The one constructor names the case that the
model's own form leaves: a command that the spec's text gives no effect at all. Raised by no meaning. Safe. -/
inductive Fault where
  | noEffectGiven (mnemonic : String)
  deriving DecidableEq, Repr

/-- Why a command is refused. `notModelled` is answered by exec for a command that has no meaning yet. Safe: the
model then says nothing about it. -/
inductive Refusal where
  | notModelled (mnemonic : String)
  deriving DecidableEq, Repr

/-! ## The register file -/

/-- Every register copy, as key and value lists in strictly rising key order. A key that is not listed holds the
field's reset value. `regs` holds the fields that are not staged, `live` and `staged` the two copies of each RWS
field (R6, R83), `ctrs` the 64-bit counters (R78, R546), `ctrHi` the high halves latched by a 4-byte read of a
counter (R78) and `split` the high halves latched by a read of a split register (R57, R58, R61). -/
structure RegFile where
  regs   : List (Nat × Nat) := []
  live   : List (Nat × Nat) := []
  staged : List (Nat × Nat) := []
  ctrs   : List (Nat × Nat) := []
  ctrHi  : List (Nat × Nat) := []
  split  : List (Nat × Nat) := []
  deriving DecidableEq, Repr

/-- A commit that has taken its snapshot and is not yet applied or refused (R83, R85, Table 4-2). -/
structure PendCommit where
  tag    : Tag
  die    : Nat
  inst   : Nat
  snap   : List (Nat × Nat)
  deferred : Bool
  after  : Nat := 0
  deriving DecidableEq, Repr

/-! ## Pins and power -/

/-- An output level of Table 2-9: high-impedance or released, low, high, or driven by its block as its work demands. -/
inductive Level where
  | hiz | low | high | active
  deriving DecidableEq, Repr

/-- The outputs of Table 2-9 (R41, R43). A set bit of a mask is the active level named. Masks of eight bits hold
low-band chains 0 to 3 in bits 0 to 3 and high-band chains in bits 4 to 7. -/
structure Pins where
  rfOut    : Nat   := 0
  trsw     : Nat   := 0
  paEn     : Nat   := 0
  paBias   : List Nat := [0, 0, 0, 0, 0, 0, 0, 0]
  rfsw     : Nat   := 0
  possLow  : Bool  := false
  errNLow  : Bool  := true
  linksIdle : Bool := true
  phyRstLow : Bool := true
  wakeNLow : Bool  := false
  ddrRstLow : Bool := true
  flCsHigh : Bool  := true
  flRstLow : Bool  := true
  canStb   : Nat   := 0xFFFFFFFF
  ppsOut   : Bool  := false
  umpGoOut : Nat   := 0
  porstOut : Nat   := 0
  deriving DecidableEq, Repr

/-- Power, reset and gating (R40, R107, R625, R28). `inReset` holds while PORST_N is low or a monitor has
tripped; `porstLow` says which. `monLow` is the mask of monitored rails below their trip point. `powered` is the
mask of powered regions in the numbering of REGION_EN (R122). `halted` is the mask of dies halted by a die-level
fault (Table 1-6). `dramSelfRefresh` and `dramUp` describe the LPDDR5X (R45, R121). `grade` is 0 for DRV-1024-I
and 1 for DRV-1024-V (R2). `railsOff` is the mask of the rails of Table 2-7 that are so low that the outputs they feed are high-impedance and what they
hold is lost (R41, R45): 0 VCORE, 1 VDD_ISL, 2 VDD_SRD, 3 VDDH_SRD, 4 VDD_DDR, 5 VDDQ_DDR, 6 VDD_RFA, 7 VDD_RFS, 8 VIO18, 9 VIO33, 10 the DRAM's own. -/
structure Power where
  porstLow : Bool := false
  inReset  : Bool := false
  monLow   : Nat  := 0
  bootDue  : Bool := true
  bootHeld : Bool := false
  recoverPin : Bool := false
  cause    : Nat  := 1
  causeMon : Nat  := 0
  powered  : Nat  := 0x00000F
  halted   : Nat  := 0
  dramUp   : Bool := false
  dramMiB  : Nat  := 0
  dramSelfRefresh : Bool := false
  tapReset : Bool := false
  grade    : Nat  := 0
  railsOff : Nat  := 0
  resetDue : Option Nat := none
  deriving DecidableEq, Repr

/-! ## Time (chapter 3) -/

/-- The time island: local time in ticks (R57), PTP time in seconds, nanoseconds and 2^-32 ns (R58), the step that
waits for the next tick (R59), the Route dies whose TIME_STEP event waits for their order to open, as bits 0 and 1 (R59), the local time of the last
accepted PPS_IN edge (R61), whether PPS_OUT pulses may start (R63), and what R62 tests: how many consecutive seconds of good offsets have run, the PTP
second of the last offset, the local time of the last accepted pulse or host rate update, and whether the host has staged PTP_RATE since the last commit of the
page. -/
structure Time where
  lt        : Nat := 0
  ptpSec    : Nat := 0
  ptpNs     : Nat := 0
  ptpFrac   : Nat := 0
  stepNs    : Int := 0
  stepSec   : Int := 0
  stepDue   : Bool := false
  ppsCap    : Nat := 0
  ppsAllowed : Bool := false
  stepFor   : Nat := 0
  okRun     : Nat := 0
  okSec     : Nat := 0
  updAt     : Nat := 0
  rateStaged : Bool := false
  deriving DecidableEq, Repr

/-- The adaptive-voltage loop (R52, R54, Table 3-2): the command in progress (0 none, 1 loop raise, 2 loop lower,
3 host, 4 to CEIL), whether a raise of 25 mV is due at its end, the reason the loop is paused (bit 0 alert, bit 1 temperature), a host command that waits, whether the loop is
halted, and whether CEIL is due at the end of the command in progress. -/
structure Avl where
  busy      : Nat := 0
  bigRaise  : Bool := false
  pauseMask : Nat := 0
  hostNext  : Option Nat := none
  halted    : Bool := false
  ceilDue   : Bool := false
  deriving DecidableEq, Repr

/-! ## Host link, rings and commands (chapter 4) -/

/-- How far a command in flight has come (R97): fetched into the captain's lanes, sequenced on every die it
addresses, waiting for a maintenance token, or finished with its completion waiting for the ring. -/
inductive CmdStage where
  | fetched | sequenced | waiting | finished
  deriving DecidableEq, Repr

/-- What a finished command reports (Table 4-8). -/
structure Cpl where
  status  : Nat
  unitOk  : Nat
  unitTry : Nat
  result  : Nat
  deriving DecidableEq, Repr

/-- A command in flight (R97): its number in the model, its ring (4 stands for the mailbox, R535), its 64 octets, its
stage, the dies still to sequence it, its sequence number, whether a host link reset discards its record (R93),
whether an interim BUSY record is due (R105), its outcome, and whether an Anchor command is sequenced
through Route-1 (R599). -/
structure Cmd where
  id      : Nat
  ring    : Nat
  bytes   : List Byte
  stage   : CmdStage
  toSeq   : Nat
  seq     : Nat
  discard : Bool
  interim : Bool
  cpl     : Cpl
  alt     : Bool := false
  evs     : List (Nat × Nat) := []
  deriving DecidableEq, Repr

/-- The host link (R91 to R106): the MSI-X table, mask and pending bits, the commands in flight in fetch order, the
next number, the completion ring's moderation counts (R626), the ring visited last or now and the fetches left in the visit (R96:
the first visit after reset is to ring 0), and the mailbox command that waits for a place in flight or in a lane (R97, R535). -/
structure HostLink where
  msixTbl   : List (Nat × Nat) := []
  msixUnmask : Nat := 0
  msixPend  : Nat := 0
  inflight  : List Cmd := []
  nextId    : Nat := 0
  unsignalled : Nat := 0
  visit     : Nat := 3
  visitLeft : Nat := 0
  mboxWait  : Option Cmd := none
  deriving DecidableEq, Repr

/-! ## Boot (chapter 5) -/

/-- A boot ledger record (Table 5-3). `steps` holds the twelve STEP words; FLAGS is held uninverted. A record that
power loss cut off has `valid` false (R116). -/
structure LedgerRec where
  seq   : Nat
  cause : Nat
  bank  : Nat
  steps : List Nat
  flags : Nat
  mode  : Nat
  valid : Bool
  deriving DecidableEq, Repr

/-- The boot process's own state: the two ledger sectors, newest record first, and the sector in use (R115); the
pending LEDGER_CLR (R118); the configuration blob in flash (R122); the population in the blob and in force (R29); the regions that the blob enables (R122); and whether boot step 12 has entered a
mode. -/
structure Boot where
  sec0     : List LedgerRec := []
  sec1     : List LedgerRec := []
  cur      : Nat := 0
  clearDue : Bool := false
  blob     : List Byte := []
  population : Nat := 0
  popRunning : Nat := 0
  regionEn : Nat := 0xFFFFFF
  enteredMode : Bool := false
  deriving DecidableEq, Repr

/-- Modes and their transitions (chapter 5): the trigger of the transition in progress for the log (Table 19-4), the mode DOZE was
entered from, the local time of the commit that began DOZE entry, how far DOZE has come (0 to 5 steps of the entry done, 6 asleep, 7 wake steps 1 to 7 done), whether the
endpoint has seen a configuration request since the wake, and each CAN controller's sleep and OPMODE before its bus was armed. The target of a transition stands in BTL.BOOT_STAT. -/
structure ModeSt where
  trigger   : Nat := 0
  dozeFrom  : Nat := 2
  dozeAt    : Nat := 0
  dozeStep  : Nat := 0
  cfgSeen   : Bool := false
  canBefore : List (Nat × Nat) := []
  deriving DecidableEq, Repr

/-! ## Faults, bench, maintenance tokens (chapter 18) -/

/-- The state of a bench unit (Table 18-10). -/
inductive UnitState where
  | active | spare | worn | failed | rejected
  deriving DecidableEq, Repr

/-- One unit of the bench (Table 18-3), kept where it differs from manufacture or where a figure is known;
`serves` is the position whose work it does, its own until it takes over as a spare. -/
structure BenchUnit where
  type  : Nat
  die   : Nat
  index : Nat
  state : UnitState
  serves : Nat := index
  birth : Nat := 256
  ratio : Nat := 256
  low   : Nat := 0
  corr  : Nat := 0
  corrWin : Nat := 0
  pace  : Nat := 0
  worn  : Bool := false
  deriving DecidableEq, Repr

/-- A holder of, or a request for, maintenance tokens (R525, R527): the activity code of Table 18-6, the mask of
regions, the command in flight that asked (none for an internal trigger), and the activity's own argument. -/
structure TokenReq where
  act    : Nat
  scope  : Nat
  cmd    : Option Nat
  arg    : Nat
  deriving DecidableEq, Repr

/-- Bench manager, maintenance tokens and scrub (R518 to R529): units, the activities lost to the last chip reset and not yet counted, token holders, the
queue of requests, the regions that scrubs still visit, each with the command that asked (none for a scheduled pass), and the grants (true) and releases
that wait for their MAINT event on a Route die (R525). -/
structure Maint where
  units   : List BenchUnit := []
  lost    : Nat := 0
  held    : List TokenReq := []
  queue   : List TokenReq := []
  scrubTodo : List (Nat × Option Nat) := []
  events  : List (Nat × TokenReq × Bool) := []
  deriving DecidableEq, Repr

/-! ## Captain (chapter 19) -/

/-- A log record (Table 19-3). -/
structure LogRec where
  seq  : Nat
  time : Nat
  code : Nat
  sev  : Nat
  die  : Nat
  data : List Byte
  boot : Nat
  deriving DecidableEq, Repr

/-- The event log (R542 to R544): the unflushed records in the RAM front, oldest first; the 4 KiB pages in flash,
oldest first, and how many pages the ring has taken; the last SEQ given, the records lost since the last one
written, how many records the page in programming takes, and the LOG_FLUSH commands that wait, each with the SEQ it
waits for. -/
structure Log where
  ram    : List LogRec := []
  flash  : List (List LogRec) := []
  pageNo : Nat := 0
  last   : Nat := 0
  lost   : Nat := 0
  busy   : Nat := 0
  flushCmds : List (Nat × Nat) := []
  deriving DecidableEq, Repr

/-- Scoreboards (R547 to R550): the header and body of the dump being written, its ring's base and size, whether SB_NOW adds
a capture, captures missed since the last dump, those that fell due in DOZE, whether a change of the ring waits for the dump to end, and the octets of the ring
in DRAM. -/
structure Board where
  header   : List Byte := []
  body     : List Byte := []
  base     : Nat := 0
  sizeLog2 : Nat := 0
  nowDue   : Bool := false
  missed   : Nat := 0
  dozed    : Nat := 0
  renew    : Bool := false
  ring     : List Host.Cell := []
  deriving DecidableEq, Repr

/-- A precise-sampling record (Table 19-6). -/
structure SampRec where
  pbAddr  : Nat
  engine  : Nat
  handle  : Nat
  kind    : Nat
  latency : Nat
  seq     : Nat
  deriving DecidableEq, Repr

/-- Captain functions: debug access (R538), the 24 region temperatures in 0.125 °C and 12 supplies in mV as last
measured, sampling buffers of Route-0 and Route-1, the last reset sources for the log, the device identity and the
countersignature fuse (R563) as read at boot step 2. -/
structure Captain where
  challenge : Option (List Byte) := none
  blocked   : Bool := false
  overTemp  : Bool := false
  eui64     : Nat := 0
  csigFuse  : Bool := false
  samp0     : List SampRec := []
  samp1     : List SampRec := []
  deriving DecidableEq, Repr
/-! ## What a transmission puts on the air -/

/-- What a subcarrier carries in one symbol: (i + j q) × √(num / den) on subcarrier `s` (R171, R173, R175, R208). -/
structure Sub where
  s   : Int
  i   : Int
  q   : Int
  num : Nat
  den : Nat
  deriving DecidableEq, Repr

/-- What a transmission puts on the air: the symbols of an NB-OFDM frame with the taps they are filtered by; the bits of a SUN-FSK frame with its filtered
frequency pulses and its frequency shift; the chips of an O-QPSK frame with its shift and taps; the chips of a wake-up call, with which of their ends are
shaped, and over how many µs (R207 to R211, R220, R221). -/
inductive Wave where
  | ofdm (symbols : List (List Sub)) (taps : Option (List Int))
  | fsk (bits : List Bool) (pulses : List Int) (fofs : Int)
  | oqpsk (chips : List Bool) (fofs : Int) (taps : Option (List Int))
  | ook (chips : List Bool) (edges : List (Bool × Bool)) (edgeUs : Nat)
  deriving DecidableEq, Repr


/-! ## What the device puts on its interfaces -/

/-- One thing that leaves the device on an interface, or reaches a partner: the model's record of outputs. -/
inductive Out where
  | msix (vector addr data : Nat) -- an MSI-X message (R94)
  | readData (addr value : Nat) -- data returned by a register read
  | hostDma (addr len : Nat) -- a write to host memory
  | pmbus (mv : Nat) -- a VOUT_COMMAND on PMBus (R52)
  | timeStep (dest oldSec oldNs newSec newNs : Nat) -- a TIME_STEP timer event (R59): dest 1, 2 Route dies, 3, 4 air MACs
  | linkTrain (on : Bool) -- the PCIe link trains or goes down
  | txStep (die chain step at_ : Nat) -- a step of Table 6-5 on a chain, with its time in ticks of local time
  | radiated (die chain kind channel : Nat) (psdu : List Byte) (wave : Wave) -- a frame whose last sample has left the ball, as its PSDU and as what was on the air
  | cutOff (die chain kind : Nat) -- a frame cut off
  | gainChange (die chain idx sample : Nat) -- a gain change reported to the channelizer with its sample number (R150)
  | hostFrame (data : List Byte) -- a frame delivered to the host with its 16-octet prefix (R352)
  | ethFrame (port : Nat) (data : List Byte) -- an Ethernet frame sent, with its FCS
  | vxlFrame (link : Nat) (data : List Byte) -- a fabric frame sent on a Voxnen link
  | ethUnderrun (port : Nat) -- the frame being sent on a port ends with the complement of its FCS (R407)
  | ethCut (port : Nat) -- the frame being sent on a port is cut off (R401)
  | mdio (cl45 : Bool) (op phy reg devad data : Nat) -- an MDIO transaction (R413)
  | canFrame (bus : Nat) (entry : List Byte) -- a frame sent and acknowledged on a CAN bus, as its transmit entry
  | vxlSet (link code data : Nat) -- an ordered set of block type 0x4B with its O code and first data octet (R456, R458)
  | umpPulse (us : Nat) -- a heartbeat pulse on UMP_HB with its width (R483)
  | twinMsg (kind : Nat) (data : List Byte) -- a message on the twin link (R492): 1 acknowledgement, 2 usage report, 3 break, 4 pair-time measurement, 5 state
  | jrnSend (die seq : Nat) -- a journal record sent, or sent again, on the twin link (R488, R489)
  | twinCopy (c : TwinCopy) -- the state copied to the partner over the twin link (R498)
  deriving DecidableEq, Repr

/-! ## Radio: Band dies and Air dies (chapters 6 to 9) -/

/-- What a transmission is for, so that its outcome reaches its origin. -/
inductive TxWho where
  | test
  | beacon (k : Nat)
  | ack (tag tenant : Nat)
  | downlink (id : Nat)
  | reply (id tag tenant : Nat)
  | wake (tag tenant : Nat)
  | group (chunk : Nat)
  | legAck | legFrame (id : Nat) | legBeacon
  deriving DecidableEq, Repr

/-- A transmission as the air MAC hands it to the transmit baseband: the descriptor of Table 8-1 with its PSDU, the map
word read at the hand-off (R207), the service class for the air gate (R392), and its purpose. Times are in ticks of local time.
`power` is none where the air MAC gives no power (R153); `nb` counts the busy back-offs of unslotted CSMA-CA (Table 9-8). -/
structure Tx where
  id      : Nat
  kind    : Nat
  channel : Nat
  mode    : Nat
  map     : Nat
  mapWord : Nat
  rate    : Nat
  psdu    : List Byte
  wakeCode : Nat
  wakeIdx : Nat
  power   : Option Nat
  start   : Nat
  chain   : Nat
  retune  : Bool
  cls     : Nat
  who     : TxWho
  nb      : Nat := 0
  deriving DecidableEq, Repr

/-- One transmit chain of a Band die: the first cell and the width of the channel or gang it is tuned to or is tuning to;
the tune request that waits for TX_IDLE; the local time of the last loss of lock; the frame on air and the moment its last sample is
due; the local times of its mask cut-offs; and whether a calibration is due: 0 none, 1 at the next TX_IDLE, 2 at the first
TX_IDLE with no start in the next 460 µs, 3 from TX_FAIL. `fir` holds the four filter sets, 64 taps each, by set × 64 + tap. -/
structure TxChain where
  tuned  : Option (Nat × Nat) := none
  pend   : Option (Nat × Nat) := none
  lossAt : Option Nat := none
  air    : Option Tx := none
  airEnd : Nat := 0
  cuts   : List Nat := []
  cal    : Nat := 0
  fir    : List (Nat × Nat) := []
  deriving DecidableEq, Repr

/-- A Band die (chapter 6): its four transmit chains; the local times of automatic retries and whether the last LO_SETTLE came from
one; a receive calibration that is due (0 none, 1 at once, 2 at the next slot boundary); the learned coarse codes by
chain × 64 + gain index × 2 + (0 for I, 1 for Q), and the size of a step of each; the fine estimates by chain × 2 + (I or Q), in 2^-20 converter LSB (R151); successive steps called for beyond the range, by chain × 2 + (I or Q); and
the staging words of the limit image with the local time at which their programming began. -/
structure BandDie where
  chains  : List TxChain := [{}, {}, {}, {}]
  retries : List Nat := []
  autoTry : Bool := false
  rxCal   : Nat := 0
  dco     : List (Nat × Nat) := []
  dcoSize : List (Nat × Nat) := []
  fine    : List Int := []
  dcoOver : List (Nat × Nat) := []
  staged  : List (Nat × Nat) := []
  progAt  : Nat := 0
  deriving DecidableEq, Repr

/-- What a Band die keeps in fuses (R158): the programmed words of the limit image by word number. -/
structure BandFuses where
  words : List (Nat × Nat) := []
  state : Nat := 0
  result : Nat := 0
  word  : Nat := 0
  deriving DecidableEq, Repr

/-- The stored calibration of a Band die in flash (R147): the receive T_cal, T_cal and V_cal of each chain, the coarse
codes and their step sizes. -/
structure StoredCal where
  valid : Bool := false
  rxT   : Nat := 0
  txT   : List (Nat × Nat) := []
  dco   : List (Nat × Nat) := []
  dcoSize : List (Nat × Nat) := []
  deriving DecidableEq, Repr

/-- A reception in progress on a channel (R181 to R191). `role` is 0 single, 1 stronger, 2 weaker, 3 found by the
residual search; `sic` says whether a collision job serves it, `ended` is the stronger frame's outcome once known, `resid` SIC.CFG.RESID as the
collision started, `maxSym` CMB.CFG.MAX_SYM at stage 3, `thr` and `rungs` the thresholds and the ladder at its SIG (R201); `heard` the chains included at stage 3
(Table 7-5) and `spans` the air times of the stronger frames that overlapped it (R189). -/
structure Recep where
  id      : Nat
  channel : Nat
  family  : Nat
  tref    : Nat
  snr     : Int
  cfo     : Int
  chains  : Nat
  role    : Nat
  sic     : Bool
  partner : Nat
  ended   : Option Bool
  sig     : Bool
  map     : Nat
  mapWord : Nat
  rate    : Nat
  length  : Nat
  resid   : Bool := false
  maxSym  : Nat := 512
  thr     : List Nat := []
  rungs   : List Nat := []
  heard   : Nat := 0
  spans   : List (Nat × Nat) := []
  deriving DecidableEq, Repr

/-- A decoded frame with the receive descriptor of Table 7-5, with its loading map as it stood at its SIG (R199);
the PSDU carries its FCS. -/
structure RxFrame where
  band    : Nat
  channel : Nat
  family  : Nat
  role    : Nat
  nov     : Nat
  map     : Nat
  rate    : Nat
  tref    : Nat
  snr     : Int
  cfo     : Int
  chains  : Nat
  recMap  : Nat
  noFit   : Bool
  psdu    : List Byte
  fcs     : Nat := 2
  mapWord : Nat := 0xAAAAAAAAAAAA
  deriving DecidableEq, Repr


/-- What was on the air during the present superframe, in ticks: a reception (chain 4) or a transmission on a chain, over `width` channels (R197). -/
structure AirSpan where
  chain   : Nat
  channel : Nat
  width   : Nat
  start   : Nat
  till    : Nat
  deriving DecidableEq, Repr

/-- A wake-up call that is scheduled or waits for its answer (R247). -/
structure WakeCall where
  tag    : Nat
  tenant : Nat
  calls  : Nat
  sent   : Bool
  deriving DecidableEq, Repr

/-- A neighbour entry (R255, R256): state 1 heard or 2 lost, the superframe start in ticks, its geometry, channels, superframes
missed, and superframes of hold-off left. -/
structure Nbr where
  tag     : Nat
  state   : Nat
  aligned : Bool
  snr     : Int
  slotCode : Nat
  len     : Nat
  bslots  : Nat
  start   : Nat
  chans   : List Nat
  missed  : Nat
  hold    : Nat
  deriving DecidableEq, Repr

/-- A legacy association (R253): short address, extended address, PAN entry, association state (0 response held, 1 associated), and
the frame counter of frames to the node. -/
structure LegNode where
  short  : Nat
  ext    : Nat
  pan    : Nat
  state  : Nat
  deriving DecidableEq, Repr

/-- A held indirect legacy frame (R252, R254): the short address (or the extended one before association), the MAC frame, and
what it is: 0 data, 1 Association Response, 2 Disassociation Notification. -/
structure LegHeld where
  id    : Nat
  short : Nat
  ext   : Nat
  kind  : Nat
  frame : List Byte
  dl    : Option DlFrame := none
  since : Nat := 0
  seq   : Nat := 0
  onAir : Bool := false
  deriving DecidableEq, Repr


/-- A reply window (R240): its start in ticks, the latest end of a transmission in the slot, and channel, map, rate and counter of the
frame that opened it, with the crypto job whose working key its reply uses (R273). -/
structure Win where
  start   : Nat
  limit   : Nat
  channel : Nat
  map     : Nat
  rate    : Nat
  ctr     : Nat
  job     : Option Nat := none
  deriving DecidableEq, Repr

/-- A SCHED_REQ element on its way to the planner (R244): the node, the period, whether a listen slot is asked for, the superframe in which it
arrived, and the reply window that its frame opened. -/
structure SchedReq where
  tag    : Nat
  tenant : Nat
  period : Nat
  listen : Bool
  sf     : Nat
  win    : Option Win
  deriving DecidableEq, Repr

/-- The superframe before the present one: its start, the slots it ran, its number, and by how much its last slot was lengthened, in ticks (R257, R258). -/
structure SfPast where
  start : Nat := 0
  slots : Nat := 0
  num   : Nat := 0
  adj   : Int := 0
  deriving DecidableEq, Repr

/-- An Air die (chapters 7 to 9). -/
structure AirDie where
  /-- Receptions in progress. -/
  receps : List Recep := []
  /-- The next reception and transmission number. -/
  next : Nat := 1
  /-- The delivery queue of R195 and the frames the air MAC has taken and not yet read. -/
  deliv : List RxFrame := []
  macIn : List RxFrame := []
  /-- Channels whose DEM commit is not live yet (R201). -/
  demWait : List Nat := []
  /-- Loading maps, ladders (ladder × 8 + rung) and the channel ladder (R199); noise codes by channel × 32 + position, the stale
  count by channel, and the latched set (R197). -/
  maps : List (Nat × Nat) := []
  ladders : List (Nat × Nat) := []
  chLad : List (Nat × Nat) := []
  noise : List (Nat × Nat) := []
  staleRun : List (Nat × Nat) := []
  staleNow : List (Nat × Nat) := []
  sfNoise : Nat := 0
  /-- What was on the air since the noise unit last published (R197). -/
  aired : List AirSpan := []
  /-- Superframe start, current slot and its start in ticks of local time, and whether superframes run (R226, R228). -/
  sfStart : Nat := 0
  slot : Nat := 0
  slotStart : Nat := 0
  running : Bool := false
  /-- A new boundary that a re-phase waits for, with its superframe number (R258), and a slew that is left, in ticks (R257). -/
  rephase : Option (Nat × Nat) := none
  slew : Int := 0
  /-- The superframe before the present one. -/
  past : SfPast := {}
  /-- C of the live settings, and C of the last commit of the AMC page, which waits for the superframe's end with it (R227, R231). -/
  chainsC : Nat := 4
  chainsN : Nat := 4
  /-- Transmissions planned and not yet handed over. -/
  planned : List Tx := []
  /-- Transmissions handed over and not yet started, on their chains. -/
  handed : List Tx := []
  /-- The chain assigned to the acknowledgements of each channel in the present slot (R216). -/
  ackChain : List (Nat × Nat) := []
  /-- Pending downlinks, calls, neighbours, legacy nodes and held frames. -/
  dl : List DlFrame := []
  calls : List WakeCall := []
  nbrs : List Nbr := []
  leg : List LegNode := []
  held : List LegHeld := []
  /-- Beacons missed in a row by beacon channel entry (source BCN_MISS). -/
  bcnRun : List (Nat × Nat) := []
  /-- SCHED_REQ elements that wait for the planner (R244). -/
  reqs : List SchedReq := []
  /-- Whether the planner waits for its load map to be rebuilt (source PLAN_ECC). -/
  planBlocked : Bool := false
  deriving DecidableEq, Repr

/-- The duty ledgers of an Air die (R218, R219), in retention memory: charges in ticks by sub-band × 2^48 + bin, and
whether boot step 12 has initialised them since the last package reset. -/
structure Ledger where
  bins : List (Nat × Nat) := []
  initialised : Bool := false
  deriving DecidableEq, Repr


/-! ## Route dies: node and forwarding tables, packets and events (chapters 11 to 13) -/



/-! ## Key vault (chapter 10) -/

/-- A vault entry: its place, class × 65536 + slot, the generation bit of its mask, and the key under that mask (R283).
In a blob's list the key stands in the clear, with generation 0. -/
structure VKey where
  place : Nat
  gen   : Nat
  val   : List Byte
  deriving DecidableEq, Repr

/-- A key blob slot in flash (R285, R287): 0 erased, 1 valid, 2 invalid, 3 with a good MAGIC whose content does not decrypt; its SEQ and
the keys that its ciphertext carries, in the clear, with the eight random octets of its IV. `BlobSlot.octets` gives its octets. -/
structure BlobSlot where
  state : Nat := 0
  seq   : Nat := 0
  keys  : List VKey := []
  iv    : List Byte := []
  deriving DecidableEq, Repr

/-- The vault (R264, R283): its entries and the device-unique key, held under the mask of their generation, the masks of generations 0 and 1, whether a re-mask sweep runs, the local time of the last completed sweep. Sources latched during boot wait in `latched` (Table 10-10). -/
structure Vault where
  keys  : List VKey := []
  sweep : Bool := false
  sweptAt : Nat := 0
  latched : List Nat := []
  uniqueKey : List Byte := []
  masks : List (List Byte) := [[], []]
  deriving DecidableEq, Repr


/-! ## Ethernet MACs (chapter 14) -/

/-- A timestamp of a PTP event message (R411): messageType, domainNumber and sequenceId as TX_TS_INFO holds them, and the PTP time. -/
structure TsEnt where
  info : Nat
  sec  : Nat
  ns   : Nat
  deriving DecidableEq, Repr

/-- An Ethernet MAC: the packet its transmit FIFO has taken and not started, the frame being sent, the two timestamp FIFOs, oldest first, and
whether XOFF is in force (R406 to R412). -/
structure EthPort where
  tx   : Option Pkt := none
  wire : Option (List Byte) := none
  wireEnd : Nat := 0
  rxTs : List TsEnt := []
  txTs : List TsEnt := []
  xoff : Bool := false
  deriving DecidableEq, Repr


/-! ## CAN controllers and the gateway (chapter 15) -/

/-- A transmit entry (Tables 15-3 and 15-4): its octets, its state, the order of its push, whether its LAUNCH has passed, whether its abort is
asked for, whether its window has closed, and the rule that holds it (R438). -/
structure CanTx where
  idx    : Nat
  bytes  : List Byte := []
  st     : Nat  := 0
  order  : Nat  := 0
  ready  : Bool := true
  abort  : Bool := false
  closed : Bool := false
  rule   : Option Nat := none
  deriving DecidableEq, Repr

/-- A CAN controller: the OPMODE in effect (R418), the sleep request that waits for the end of a frame (R433), its transmit entries that are not at
reset, its receive queue and high-priority buffer with their entries oldest first, and the place of the receive queue's head. -/
structure CanCtl where
  op        : Nat := 0
  sleepPend : Nat := 0
  tx        : List CanTx := []
  rxq       : List (List Byte) := []
  hp        : List (List Byte) := []
  rxHead    : Nat := 0
  pushes    : Nat := 0
  deriving DecidableEq, Repr


/-! ## Fabric (chapter 16) -/

/-- A Voxnen link's own state: the physical lane whose swap waits for the peer's ordered set (R456), and whether its hold set is in force (R458). -/
structure VxlLink where
  swap : Option Nat := none
  xoff : Bool := false
  deriving DecidableEq, Repr

/-- A held LSA (Table 16-3): originator, the 48 octets, the link it arrived on (255 for the device's own) and the local time of its arrival. -/
structure LsaRec where
  eui   : Nat
  bytes : List Byte
  link  : Nat
  since : Nat
  deriving DecidableEq, Repr

/-- The huddle (R463 to R467): whether it runs, the claimed ID (255 for none), the held LSAs, and whether it has settled since it started. -/
structure Huddle where
  on          : Bool := false
  id          : Nat  := 255
  lsas        : List LsaRec := []
  settledOnce : Bool := false
  devWait     : List Nat := []
  deriving DecidableEq, Repr


/-! ## Twin operation (chapter 17) -/

/-- What an umpire knows of a member (R484 to R486): its last three pulse codes, newest first; how many pulses in a row were REPLACE and the local
time of the first of them; and whether its heartbeat is lost. -/
structure UmpMember where
  codes  : List Nat := []
  replRun : Nat := 0
  replAt : Nat := 0
  lost   : Bool := false
  deriving DecidableEq, Repr

/-- Twin operation: whether a conflict blocks possession until UMP_GO has been low (Table 17-6); journal records received and not executed,
each with its Route die, in order (R488); whether TWN_HANDOVER is pending and whether the journal is stalled (Table 17-3, R489); the step of
Table 17-5 that a takeover has reached (0 none); the duty usage last reported by the holder, by sub-band and Air die, and the local time of that
report (R501); in umpire duty, members A and B and the old holder that has not yet released POSS (R485); and the event time that no event goes below,
one tick after the latest that the journal executed (R494); the TWN_FORM command whose formation is under way (R498); the partner's mode as its
journal's MODE events tell it; and the MSI-X vectors that wait for the acknowledgement of an event's record, each with its die and number (R490). -/
structure TwinSt where
  blocked  : Bool := false
  intake   : List (Nat × JRec) := []
  handover : Bool := false
  stalled  : Bool := false
  step     : Nat := 0
  duty     : List (Nat × Nat) := []
  dutyAt   : Nat := 0
  ump      : List UmpMember := [{}, {}]
  leaving  : Option Nat := none
  minTime  : Nat := 0
  form     : Option Nat := none
  partnerMode : Nat := 2
  vecs     : List (Nat × Nat × Nat) := []
  deriving DecidableEq, Repr


/-! ## Node campaigns (chapter 21) -/



/-! ## Device update (chapter 20) -/

/-- An image bank in flash (R556, R557): the words of its state sector as they stand, all ones when erased; whether it holds the set of manufacture,
with the 64 KiB sectors erased since; and the octets programmed in its image area, each held complemented, so that an unlisted octet is erased. -/
structure ImgBank where
  gen     : Nat := 0xFFFFFFFF
  trial   : Nat := 0xFFFFFFFF
  tried   : Nat := 0xFFFFFFFF
  good    : Nat := 0xFFFFFFFF
  reason  : Nat := 0xFF
  dead    : Nat := 0xFFFFFFFF
  factory : Bool := false
  erased  : List Nat := []
  cells   : List Host.Cell := []
  deriving DecidableEq, Repr

/-- The state saved for an activation (R570, R572, Table 5-7 step 3): the format, the population and COLD_CFG at the time, the Route dies' tables and
scheduler state with queues empty, the population count, the status registers of the table pages, the counters, and the campaigns with IMG_BASE
and WORK_BASE of both engines. -/
structure Saved where
  fmt        : Nat
  population : Nat
  coldCfg    : List Nat
  routes     : List Route
  pop        : Nat
  regs       : List (Nat × Nat)
  ctrs       : List (Nat × Nat)
  camps      : Camps
  bases      : List Nat
  deriving DecidableEq, Repr

/-- The update engine (R564 to R577): the two banks; the bank and the programmed pages of the download session; the restart that is due (1 an activation,
2 a revert); whether a bank was given up since the last start; the mode an activation left; the saved state; whether t_q has come since the tokens were
granted (R571); and the local time at which the trial's window ends. -/
structure Update where
  banks    : List ImgBank := [{ gen := 1, trial := 0x5452494C, tried := 0x54524944, good := 0x474F4F44, factory := true }, {}]
  session  : Option Nat := none
  pages    : List Nat := []
  due      : Nat := 0
  gaveUp   : Bool := false
  backMode : Option Nat := none
  saved    : Option Saved := none
  atQ      : Bool := false
  trialEnd : Nat := 0
  deriving DecidableEq, Repr


/-! ## The device and the state -/

/-- The device: everything but host memory and the queue of waiting commands. -/
structure Dev where
  /-- Every register copy. -/
  rf : RegFile := {}
  /-- Commits that hold a snapshot and wait for their point (R83, R85). -/
  commits : List PendCommit := []
  /-- What the device has put on its interfaces since reset, newest first (the model's own field). -/
  out : List Out := []
  /-- Counter of free values (the model's own field, assumption 2). -/
  free : Nat := 0
  /-- Outputs. -/
  pins : Pins := {}
  /-- Power, reset and gating. -/
  pwr : Power := {}
  /-- The time island. -/
  time : Time := {}
  /-- The adaptive-voltage loop. -/
  avl : Avl := {}
  /-- Host link and commands in flight. -/
  hl : HostLink := {}
  /-- Boot ledger and configuration blob. -/
  boot : Boot := {}
  /-- Modes. -/
  ms : ModeSt := {}
  /-- Bench and maintenance tokens. -/
  mt : Maint := {}
  /-- Event log. -/
  log : Log := {}
  /-- Scoreboards. -/
  sb : Board := {}
  /-- Captain functions. -/
  cpt : Captain := {}
  /-- Band-L and Band-H. -/
  bands : List BandDie := [{}, {}]
  /-- The limit images in fuses. -/
  fuses : List BandFuses := [{}, {}]
  /-- The stored calibrations in flash. -/
  stored : List StoredCal := [{}, {}]
  /-- Air-L and Air-H. -/
  air : List AirDie := [{}, {}]
  /-- The duty ledgers of the two Air dies. -/
  ledgers : List Ledger := [{}, {}]
  /-- Route-0 and Route-1. -/
  routes : List Route := [{}, {}]
  /-- The device-wide resident count of the population counter (R310). -/
  pop : Nat := 0
  /-- This age tick's first POP_LIMIT drop of the device is logged (R30). -/
  popLogged : Bool := false
  /-- Creation requests in the counter, in order of arrival: Route die and key (R310). -/
  popQ : List (Nat × NodeKey) := []
  /-- Frames originated by this device (Table 16-2, SEQ). -/
  fabSeq : Nat := 0
  /-- CAMP_STATUS elements on their way to the campaign engine: sender, superframe and value (R594). -/
  cmpIn : List (NodeKey × Nat × List Byte) := []
  /-- The key vault. -/
  vault : Vault := {}
  /-- The two key blob slots in flash. -/
  blobs : List BlobSlot := [{}, {}]
  /-- ETH0 to ETH15. -/
  eth : List EthPort := List.replicate 16 {}
  /-- CAN0 to CAN31. -/
  can : List CanCtl := List.replicate 32 {}
  /-- The gateway engine. -/
  gw : Gateway := {}
  /-- VXL0 to VXL7. -/
  vxl : List VxlLink := List.replicate 8 {}
  /-- The huddle. -/
  hud : Huddle := {}
  /-- Twin operation and umpire duty. -/
  tw : TwinSt := {}
  /-- Node images, campaigns and the active campaign engine. -/
  cmp : Camps := {}
  /-- Flash banks and the update engine. -/
  upd : Update := {}
  deriving DecidableEq, Repr

/-- The state of the block: the commands that wait, first in, first out; host memory as a list of cells in strictly
rising address order with no cell that holds 0; and the device. -/
structure State where
  /-- The commands that wait. -/
  pending : List Instr := []
  /-- Host memory (rings, completion ring, data buffers). -/
  host : List Host.Cell := []
  /-- The device. -/
  dev : Dev := {}
  deriving DecidableEq, Repr

/-- The machine right after reset: PORST_N has just been released (Table 2-8 step 7), every register at its reset
value, every table empty, no command waiting. -/
def State.reset : State := {}

end Sys2Proof.Machine
end

