-- ==== Sys2Proof/Machine/RegMap.lean ====
section
/-! DEFINITION. The register map of every page kind: one named field descriptor for each field that a
chapter's register table lists, one for each counter and one for each error source. Each docstring names the
rule whose table gives the row. The common registers of Table 4-1 are in Sys2Proof.Registers. -/

namespace Sys2Proof.Machine
open Sys2Proof

/-! ## SNS page -/

/-- SNS.PACE_CFG.WIN [15:0] (R56). -/
def F.SNS.PACE_CFG_WIN : Fld := ⟨.SNS, 0x200, 1, 4, 0, 16, .rws, 32000, [], false⟩
/-- SNS.PACE_CFG.INT [31:16] (R56). -/
def F.SNS.PACE_CFG_INT : Fld := ⟨.SNS, 0x200, 1, 4, 16, 16, .rws, 10, [], false⟩
/-- SNS.AVL_CTRL.EN [0:0] (R56). -/
def F.SNS.AVL_CTRL_EN : Fld := ⟨.SNS, 0x204, 1, 4, 0, 1, .rws, 0, [], false⟩
/-- SNS.AVL_CTRL.PERIOD [15:8] (R56). -/
def F.SNS.AVL_CTRL_PERIOD : Fld := ⟨.SNS, 0x204, 1, 4, 8, 8, .rws, 10, [], false⟩
/-- SNS.AVL_CTRL.HYST [23:16] (R56). -/
def F.SNS.AVL_CTRL_HYST : Fld := ⟨.SNS, 0x204, 1, 4, 16, 8, .rws, 30, [], false⟩
/-- SNS.AVL_TARGET.PACE [15:0] (R56). -/
def F.SNS.AVL_TARGET_PACE : Fld := ⟨.SNS, 0x208, 1, 4, 0, 16, .rws, 1200, [], false⟩
/-- SNS.AVL_LIMITS.FLOOR [11:0] (R56). -/
def F.SNS.AVL_LIMITS_FLOOR : Fld := ⟨.SNS, 0x20C, 1, 4, 0, 12, .rws, 750, [], false⟩
/-- SNS.AVL_LIMITS.CEIL [27:16] (R56). -/
def F.SNS.AVL_LIMITS_CEIL : Fld := ⟨.SNS, 0x20C, 1, 4, 16, 12, .rws, 850, [], false⟩
/-- SNS.VCORE_SET.MV [11:0] (R56). -/
def F.SNS.VCORE_SET_MV : Fld := ⟨.SNS, 0x210, 1, 4, 0, 12, .ro, 0, [], false⟩
/-- SNS.AVL_STAT.STATE [1:0] (R56). -/
def F.SNS.AVL_STAT_STATE : Fld := ⟨.SNS, 0x214, 1, 4, 0, 2, .ro, 0, [], false⟩
/-- SNS.AVL_STAT.HOST_OVR [2:2] (R56). -/
def F.SNS.AVL_STAT_HOST_OVR : Fld := ⟨.SNS, 0x214, 1, 4, 2, 1, .ro, 0, [], false⟩
/-- SNS.DIE_PACE.PACE [15:0] (R56). -/
def F.SNS.DIE_PACE_PACE : Fld := ⟨.SNS, 0x220, 7, 4, 0, 16, .ro, 0, [], false⟩
/-- SNS.TEMP.VALUE [11:0] (R554). -/
def F.SNS.TEMP_VALUE : Fld := ⟨.SNS, 0x040, 24, 4, 0, 12, .ro, 0, [], false⟩
/-- SNS.TEMP.VALID [15:15] (R554). -/
def F.SNS.TEMP_VALID : Fld := ⟨.SNS, 0x040, 24, 4, 15, 1, .ro, 0, [], false⟩
/-- SNS.SUPPLY.MV [12:0] (R554). -/
def F.SNS.SUPPLY_MV : Fld := ⟨.SNS, 0x0A0, 12, 4, 0, 13, .ro, 0, [], false⟩
/-- SNS.SUPPLY.VALID [15:15] (R554). -/
def F.SNS.SUPPLY_VALID : Fld := ⟨.SNS, 0x0A0, 12, 4, 15, 1, .ro, 0, [], false⟩
/-- SNS.TEMP_CFG.HIGH [11:0] (R554). -/
def F.SNS.TEMP_CFG_HIGH : Fld := ⟨.SNS, 0x0D0, 1, 4, 0, 12, .rws, 792, [], false⟩
/-- SNS.SUP_CFG.TOL [3:0] (R554). -/
def F.SNS.SUP_CFG_TOL : Fld := ⟨.SNS, 0x0D4, 1, 4, 0, 4, .rws, 5, [], false⟩
/-- Fields of the SNS page, part 0. -/
def fieldsSNS0 : List Fld := [F.SNS.PACE_CFG_WIN, F.SNS.PACE_CFG_INT, F.SNS.AVL_CTRL_EN, F.SNS.AVL_CTRL_PERIOD, F.SNS.AVL_CTRL_HYST, F.SNS.AVL_TARGET_PACE, F.SNS.AVL_LIMITS_FLOOR, F.SNS.AVL_LIMITS_CEIL, F.SNS.VCORE_SET_MV, F.SNS.AVL_STAT_STATE, F.SNS.AVL_STAT_HOST_OVR, F.SNS.DIE_PACE_PACE, F.SNS.TEMP_VALUE, F.SNS.TEMP_VALID, F.SNS.SUPPLY_MV, F.SNS.SUPPLY_VALID, F.SNS.TEMP_CFG_HIGH, F.SNS.SUP_CFG_TOL]
/-- Every block field of the SNS page. -/
def fieldsSNS : List Fld := fieldsSNS0
/-- Counter SNS.TEMP_HIGH_CNT (R554). -/
def C.SNS.TEMP_HIGH_CNT : Ctr := ⟨.SNS, 0x800, 1, false⟩
/-- Counter SNS.SUP_RANGE_CNT (R554). -/
def C.SNS.SUP_RANGE_CNT : Ctr := ⟨.SNS, 0x808, 1, false⟩
/-- Counters of the SNS page, part 0. -/
def ctrsSNS0 : List Ctr := [C.SNS.TEMP_HIGH_CNT, C.SNS.SUP_RANGE_CNT]
/-- Every counter of the SNS page. -/
def ctrsSNS : List Ctr := ctrsSNS0
/-- Error source SNS 0 TEMP_HIGH, reset code 1 (R555). -/
def E.SNS.TEMP_HIGH : Src := ⟨.SNS, 0, 1, false⟩
/-- Error source SNS 1 SUPPLY_RANGE, reset code 1 (R555). -/
def E.SNS.SUPPLY_RANGE : Src := ⟨.SNS, 1, 1, false⟩
/-- Every error source of the SNS page (R510). -/
def srcsSNS : List Src := [E.SNS.TEMP_HIGH, E.SNS.SUPPLY_RANGE]

/-! ## TIM page -/

/-- TIM.LT_LO.LT_LO [31:0] (R57). -/
def F.TIM.LT_LO : Fld := ⟨.TIM, 0x040, 1, 4, 0, 32, .ro, 0, [], false⟩
/-- TIM.LT_HI.LT_HI [31:0] (R57). -/
def F.TIM.LT_HI : Fld := ⟨.TIM, 0x044, 1, 4, 0, 32, .ro, 0, [], false⟩
/-- TIM.PTP_SEC_LO.PTP_SEC_LO [31:0] (R58). -/
def F.TIM.PTP_SEC_LO : Fld := ⟨.TIM, 0x048, 1, 4, 0, 32, .ro, 0, [], false⟩
/-- TIM.PTP_SEC_HI.PTP_SEC_HI [15:0] (R58). -/
def F.TIM.PTP_SEC_HI : Fld := ⟨.TIM, 0x04C, 1, 4, 0, 16, .ro, 0, [], false⟩
/-- TIM.PTP_NS.PTP_NS [29:0] (R58). -/
def F.TIM.PTP_NS : Fld := ⟨.TIM, 0x050, 1, 4, 0, 30, .ro, 0, [], false⟩
/-- TIM.PTP_RATE.ADJ [24:0] (R58). -/
def F.TIM.PTP_RATE_ADJ : Fld := ⟨.TIM, 0x054, 1, 4, 0, 25, .rws, 0, [], false⟩
/-- TIM.PTP_STEP_NS.STEP [30:0] (R59). -/
def F.TIM.PTP_STEP_NS_STEP : Fld := ⟨.TIM, 0x058, 1, 4, 0, 31, .rws, 0, [], false⟩
/-- TIM.PTP_STEP_SEC.STEP [31:0] (R59). -/
def F.TIM.PTP_STEP_SEC_STEP : Fld := ⟨.TIM, 0x05C, 1, 4, 0, 32, .rws, 0, [], false⟩
/-- TIM.DISC_CTRL.SRC [1:0] (R60). -/
def F.TIM.DISC_CTRL_SRC : Fld := ⟨.TIM, 0x060, 1, 4, 0, 2, .rws, 0, [], false⟩
/-- TIM.DISC_CTRL.PPS_WIN [15:2] (R60). -/
def F.TIM.DISC_CTRL_PPS_WIN : Fld := ⟨.TIM, 0x060, 1, 4, 2, 14, .rws, 0, [], false⟩
/-- TIM.DISC_CTRL.STEP_LIMIT [31:16] (R60). -/
def F.TIM.DISC_CTRL_STEP_LIMIT : Fld := ⟨.TIM, 0x060, 1, 4, 16, 16, .rws, 100, [], false⟩
/-- TIM.DISC_STAT.STATE [1:0] (R62). -/
def F.TIM.DISC_STAT_STATE : Fld := ⟨.TIM, 0x064, 1, 4, 0, 2, .ro, 0, [], false⟩
/-- TIM.DISC_STAT.REJ [15:8] (R62). -/
def F.TIM.DISC_STAT_REJ : Fld := ⟨.TIM, 0x064, 1, 4, 8, 8, .ro, 0, [], false⟩
/-- TIM.DISC_STAT.MISSED [23:16] (R62). -/
def F.TIM.DISC_STAT_MISSED : Fld := ⟨.TIM, 0x064, 1, 4, 16, 8, .ro, 0, [], false⟩
/-- TIM.PPS_CAP_LO.PPS_CAP_LO [31:0] (R61). -/
def F.TIM.PPS_CAP_LO : Fld := ⟨.TIM, 0x068, 1, 4, 0, 32, .ro, 0, [], false⟩
/-- TIM.PPS_CAP_HI.PPS_CAP_HI [31:0] (R61). -/
def F.TIM.PPS_CAP_HI : Fld := ⟨.TIM, 0x06C, 1, 4, 0, 32, .ro, 0, [], false⟩
/-- TIM.PPS_OUT_CFG.WIDTH [9:0] (R63). -/
def F.TIM.PPS_OUT_CFG_WIDTH : Fld := ⟨.TIM, 0x070, 1, 4, 0, 10, .rws, 100, [], false⟩
/-- TIM.HOST_OFS.HOST_OFS [31:0] (R62). -/
def F.TIM.HOST_OFS : Fld := ⟨.TIM, 0x074, 1, 4, 0, 32, .rws, 0, [], false⟩
/-- Fields of the TIM page, part 0. -/
def fieldsTIM0 : List Fld := [F.TIM.LT_LO, F.TIM.LT_HI, F.TIM.PTP_SEC_LO, F.TIM.PTP_SEC_HI, F.TIM.PTP_NS, F.TIM.PTP_RATE_ADJ, F.TIM.PTP_STEP_NS_STEP, F.TIM.PTP_STEP_SEC_STEP, F.TIM.DISC_CTRL_SRC, F.TIM.DISC_CTRL_PPS_WIN, F.TIM.DISC_CTRL_STEP_LIMIT, F.TIM.DISC_STAT_STATE, F.TIM.DISC_STAT_REJ, F.TIM.DISC_STAT_MISSED, F.TIM.PPS_CAP_LO, F.TIM.PPS_CAP_HI, F.TIM.PPS_OUT_CFG_WIDTH, F.TIM.HOST_OFS]
/-- Every block field of the TIM page. -/
def fieldsTIM : List Fld := fieldsTIM0
/-- Every counter of the TIM page. -/
def ctrsTIM : List Ctr := []
/-- Every error source of the TIM page (R510). -/
def srcsTIM : List Src := []

/-! ## HST page -/

/-- HST.CR_BASE_LO.BASE [31:0] (R95). -/
def F.HST.CR_BASE_LO_BASE : Fld := ⟨.HST, 0x040, 4, 32, 0, 32, .rws, 0, [], false⟩
/-- HST.CR_BASE_HI.BASE [31:0] (R95). -/
def F.HST.CR_BASE_HI_BASE : Fld := ⟨.HST, 0x044, 4, 32, 0, 32, .rws, 0, [], false⟩
/-- HST.CR_CFG.WEIGHT [3:0] (R96). -/
def F.HST.CR_CFG_WEIGHT : Fld := ⟨.HST, 0x048, 4, 32, 0, 4, .rws, 0, [], false⟩
/-- HST.CR_TAIL.IDX [8:0] (R95). -/
def F.HST.CR_TAIL_IDX : Fld := ⟨.HST, 0x04C, 4, 32, 0, 9, .rw, 0, [], false⟩
/-- HST.CR_HEAD.IDX [8:0] (R95). -/
def F.HST.CR_HEAD_IDX : Fld := ⟨.HST, 0x050, 4, 32, 0, 9, .ro, 0, [], false⟩
/-- HST.CR_STAT.HALT [0:0] (R98). -/
def F.HST.CR_STAT_HALT : Fld := ⟨.HST, 0x054, 4, 32, 0, 1, .ro, 0, [], false⟩
/-- HST.CR_STAT.CAUSE [2:1] (R98). -/
def F.HST.CR_STAT_CAUSE : Fld := ⟨.HST, 0x054, 4, 32, 1, 2, .ro, 0, [], false⟩
/-- HST.CR_STAT.STALL_DIE [5:4] (R98). -/
def F.HST.CR_STAT_STALL_DIE : Fld := ⟨.HST, 0x054, 4, 32, 4, 2, .ro, 0, [], false⟩
/-- HST.CR_RESUME.GO [0:0] (R100). -/
def F.HST.CR_RESUME_GO : Fld := ⟨.HST, 0x058, 4, 32, 0, 1, .wo, 0, [], false⟩
/-- HST.CQ_BASE_LO.BASE [31:0] (R99). -/
def F.HST.CQ_BASE_LO_BASE : Fld := ⟨.HST, 0x0C0, 1, 4, 0, 32, .rws, 0, [], false⟩
/-- HST.CQ_BASE_HI.BASE [31:0] (R99). -/
def F.HST.CQ_BASE_HI_BASE : Fld := ⟨.HST, 0x0C4, 1, 4, 0, 32, .rws, 0, [], false⟩
/-- HST.CQ_CFG.SIZE_LOG2 [3:0] (R99). -/
def F.HST.CQ_CFG_SIZE_LOG2 : Fld := ⟨.HST, 0x0C8, 1, 4, 0, 4, .rws, 9, [], false⟩
/-- HST.CQ_HEAD.CNT [15:0] (R99). -/
def F.HST.CQ_HEAD_CNT : Fld := ⟨.HST, 0x0CC, 1, 4, 0, 16, .rw, 0, [], false⟩
/-- HST.CQ_TAIL.CNT [15:0] (R99). -/
def F.HST.CQ_TAIL_CNT : Fld := ⟨.HST, 0x0D0, 1, 4, 0, 16, .ro, 0, [], false⟩
/-- HST.CQ_IRQ.COUNT [8:0] (R626). -/
def F.HST.CQ_IRQ_COUNT : Fld := ⟨.HST, 0x0D4, 1, 4, 0, 9, .rws, 0, [], false⟩
/-- HST.CQ_IRQ.TIME [31:16] (R626). -/
def F.HST.CQ_IRQ_TIME : Fld := ⟨.HST, 0x0D4, 1, 4, 16, 16, .rws, 0, [], false⟩
/-- HST.CQ_STALL.MS [15:0] (R99). -/
def F.HST.CQ_STALL_MS : Fld := ⟨.HST, 0x0D8, 1, 4, 0, 16, .rws, 10, [], false⟩
/-- HST.INFLIGHT.R0 [7:0] (R97). -/
def F.HST.INFLIGHT_R0 : Fld := ⟨.HST, 0x0E0, 1, 4, 0, 8, .ro, 0, [], false⟩
/-- HST.INFLIGHT.R1 [15:8] (R97). -/
def F.HST.INFLIGHT_R1 : Fld := ⟨.HST, 0x0E0, 1, 4, 8, 8, .ro, 0, [], false⟩
/-- HST.INFLIGHT.TOTAL [24:16] (R97). -/
def F.HST.INFLIGHT_TOTAL : Fld := ⟨.HST, 0x0E0, 1, 4, 16, 9, .ro, 0, [], false⟩
/-- HST.ACC_ERR.OFFSET [23:0] (R79). -/
def F.HST.ACC_ERR_OFFSET : Fld := ⟨.HST, 0x0E4, 1, 4, 0, 24, .rc, 0, [], false⟩
/-- HST.ACC_ERR.BAR [24:24] (R79). -/
def F.HST.ACC_ERR_BAR : Fld := ⟨.HST, 0x0E4, 1, 4, 24, 1, .rc, 0, [], false⟩
/-- HST.ACC_ERR.CAUSE [28:25] (R79). -/
def F.HST.ACC_ERR_CAUSE : Fld := ⟨.HST, 0x0E4, 1, 4, 25, 4, .rc, 0, [], false⟩
/-- HST.ACC_ERR_CNT.CNT [31:0] (R79). -/
def F.HST.ACC_ERR_CNT_CNT : Fld := ⟨.HST, 0x0E8, 1, 4, 0, 32, .rc, 0, [], false⟩
/-- HST.UREAD_DENY.CNT [31:0] (R88). -/
def F.HST.UREAD_DENY_CNT : Fld := ⟨.HST, 0x0EC, 1, 4, 0, 32, .rc, 0, [], false⟩
/-- Fields of the HST page, part 0. -/
def fieldsHST0 : List Fld := [F.HST.CR_BASE_LO_BASE, F.HST.CR_BASE_HI_BASE, F.HST.CR_CFG_WEIGHT, F.HST.CR_TAIL_IDX, F.HST.CR_HEAD_IDX, F.HST.CR_STAT_HALT, F.HST.CR_STAT_CAUSE, F.HST.CR_STAT_STALL_DIE, F.HST.CR_RESUME_GO, F.HST.CQ_BASE_LO_BASE, F.HST.CQ_BASE_HI_BASE, F.HST.CQ_CFG_SIZE_LOG2, F.HST.CQ_HEAD_CNT, F.HST.CQ_TAIL_CNT, F.HST.CQ_IRQ_COUNT, F.HST.CQ_IRQ_TIME, F.HST.CQ_STALL_MS, F.HST.INFLIGHT_R0, F.HST.INFLIGHT_R1, F.HST.INFLIGHT_TOTAL, F.HST.ACC_ERR_OFFSET, F.HST.ACC_ERR_BAR, F.HST.ACC_ERR_CAUSE, F.HST.ACC_ERR_CNT_CNT]
/-- Fields of the HST page, part 1. -/
def fieldsHST1 : List Fld := [F.HST.UREAD_DENY_CNT]
/-- Every block field of the HST page. -/
def fieldsHST : List Fld := fieldsHST0 ++ fieldsHST1
/-- Every counter of the HST page. -/
def ctrsHST : List Ctr := []
/-- Every error source of the HST page (R510). -/
def srcsHST : List Src := []

/-! ## BTL page -/

/-- BTL.BOOT_STAT.STEP [3:0] (R133). -/
def F.BTL.BOOT_STAT_STEP : Fld := ⟨.BTL, 0x040, 1, 4, 0, 4, .ro, 0, [], false⟩
/-- BTL.BOOT_STAT.DONE [4:4] (R133). -/
def F.BTL.BOOT_STAT_DONE : Fld := ⟨.BTL, 0x040, 1, 4, 4, 1, .ro, 0, [], false⟩
/-- BTL.BOOT_STAT.MODE [7:5] (R133). -/
def F.BTL.BOOT_STAT_MODE : Fld := ⟨.BTL, 0x040, 1, 4, 5, 3, .ro, 0, [], false⟩
/-- BTL.BOOT_STAT.TRANS [8:8] (R133). -/
def F.BTL.BOOT_STAT_TRANS : Fld := ⟨.BTL, 0x040, 1, 4, 8, 1, .ro, 0, [], false⟩
/-- BTL.BOOT_STAT.TARGET [11:9] (R133). -/
def F.BTL.BOOT_STAT_TARGET : Fld := ⟨.BTL, 0x040, 1, 4, 9, 3, .ro, 0, [], false⟩
/-- BTL.RESET_CAUSE.CODE [3:0] (R133). -/
def F.BTL.RESET_CAUSE_CODE : Fld := ⟨.BTL, 0x044, 1, 4, 0, 4, .ro, 0, [], false⟩
/-- BTL.RESET_CAUSE.MON [7:4] (R133). -/
def F.BTL.RESET_CAUSE_MON : Fld := ⟨.BTL, 0x044, 1, 4, 4, 4, .ro, 0, [], false⟩
/-- BTL.BOOT_FLAGS.CFG_DEFAULT [0:0] (R133). -/
def F.BTL.BOOT_FLAGS_CFG_DEFAULT : Fld := ⟨.BTL, 0x048, 1, 4, 0, 1, .ro, 0, [], false⟩
/-- BTL.BOOT_FLAGS.STORED_CAL [1:1] (R133). -/
def F.BTL.BOOT_FLAGS_STORED_CAL : Fld := ⟨.BTL, 0x048, 1, 4, 1, 1, .ro, 0, [], false⟩
/-- BTL.BOOT_FLAGS.HUDDLE_DEFERRED [2:2] (R133). -/
def F.BTL.BOOT_FLAGS_HUDDLE_DEFERRED : Fld := ⟨.BTL, 0x048, 1, 4, 2, 1, .ro, 0, [], false⟩
/-- BTL.BOOT_FLAGS.BANK_FALLBACK [3:3] (R133). -/
def F.BTL.BOOT_FLAGS_BANK_FALLBACK : Fld := ⟨.BTL, 0x048, 1, 4, 3, 1, .ro, 0, [], false⟩
/-- BTL.BOOT_FLAGS.IMAGE_ABANDONED [4:4] (R133). -/
def F.BTL.BOOT_FLAGS_IMAGE_ABANDONED : Fld := ⟨.BTL, 0x048, 1, 4, 4, 1, .ro, 0, [], false⟩
/-- BTL.BOOT_FLAGS.NO_DRAM [5:5] (R133). -/
def F.BTL.BOOT_FLAGS_NO_DRAM : Fld := ⟨.BTL, 0x048, 1, 4, 5, 1, .ro, 0, [], false⟩
/-- BTL.BOOT_FLAGS.DRAM_ALT_RATE [6:6] (R133). -/
def F.BTL.BOOT_FLAGS_DRAM_ALT_RATE : Fld := ⟨.BTL, 0x048, 1, 4, 6, 1, .ro, 0, [], false⟩
/-- BTL.BOOT_FLAGS.FLASH_SINGLE [7:7] (R133). -/
def F.BTL.BOOT_FLAGS_FLASH_SINGLE : Fld := ⟨.BTL, 0x048, 1, 4, 7, 1, .ro, 0, [], false⟩
/-- BTL.BOOT_FLAGS.REGION_FAIL [8:8] (R133). -/
def F.BTL.BOOT_FLAGS_REGION_FAIL : Fld := ⟨.BTL, 0x048, 1, 4, 8, 1, .ro, 0, [], false⟩
/-- BTL.BOOT_FLAGS.LEDGER_NEW [9:9] (R133). -/
def F.BTL.BOOT_FLAGS_LEDGER_NEW : Fld := ⟨.BTL, 0x048, 1, 4, 9, 1, .ro, 0, [], false⟩
/-- BTL.BOOT_FLAGS.RECOVER_PIN [10:10] (R133). -/
def F.BTL.BOOT_FLAGS_RECOVER_PIN : Fld := ⟨.BTL, 0x048, 1, 4, 10, 1, .ro, 0, [], false⟩
/-- BTL.BOOT_FLAGS.CFG_REFUSED [11:11] (R133). -/
def F.BTL.BOOT_FLAGS_CFG_REFUSED : Fld := ⟨.BTL, 0x048, 1, 4, 11, 1, .ro, 0, [], false⟩
/-- BTL.BOOT_SEQ.SEQ [31:0] (R133). -/
def F.BTL.BOOT_SEQ_SEQ : Fld := ⟨.BTL, 0x04C, 1, 4, 0, 32, .ro, 0, [], false⟩
/-- BTL.BOOT_BANK.BANK [0:0] (R133). -/
def F.BTL.BOOT_BANK_BANK : Fld := ⟨.BTL, 0x050, 1, 4, 0, 1, .ro, 0, [], false⟩
/-- BTL.STEP_RES.OUTCOME [3:0] (R133). -/
def F.BTL.STEP_RES_OUTCOME : Fld := ⟨.BTL, 0x054, 12, 4, 0, 4, .ro, 0, [], false⟩
/-- BTL.STEP_RES.FAILS [7:4] (R133). -/
def F.BTL.STEP_RES_FAILS : Fld := ⟨.BTL, 0x054, 12, 4, 4, 4, .ro, 0, [], false⟩
/-- BTL.STEP_RES.TIME [23:8] (R133). -/
def F.BTL.STEP_RES_TIME : Fld := ⟨.BTL, 0x054, 12, 4, 8, 16, .ro, 0, [], false⟩
/-- BTL.STEP_RES.DETAIL [31:24] (R133). -/
def F.BTL.STEP_RES_DETAIL : Fld := ⟨.BTL, 0x054, 12, 4, 24, 8, .ro, 0, [], false⟩
/-- BTL.MODE_REQ.TARGET [2:0] (R126). -/
def F.BTL.MODE_REQ_TARGET : Fld := ⟨.BTL, 0x090, 1, 4, 0, 3, .rws, 7, [], false⟩
/-- BTL.QUIESCE_MAX.SEC [15:0] (R128). -/
def F.BTL.QUIESCE_MAX_SEC : Fld := ⟨.BTL, 0x094, 1, 4, 0, 16, .rws, 30, [], false⟩
/-- BTL.RESET_REQ.CODE [15:0] (R110). -/
def F.BTL.RESET_REQ_CODE : Fld := ⟨.BTL, 0x098, 1, 4, 0, 16, .wo, 0, [], false⟩
/-- BTL.LEDGER_CLR.GO [0:0] (R118). -/
def F.BTL.LEDGER_CLR_GO : Fld := ⟨.BTL, 0x09C, 1, 4, 0, 1, .wo, 0, [], false⟩
/-- BTL.LEDGER_SEL.IDX [9:0] (R133). -/
def F.BTL.LEDGER_SEL_IDX : Fld := ⟨.BTL, 0x0A0, 1, 4, 0, 10, .rw, 0, [], false⟩
/-- BTL.DOZE_TIMER.SEC [31:0] (R130). -/
def F.BTL.DOZE_TIMER_SEC : Fld := ⟨.BTL, 0x0A4, 1, 4, 0, 32, .rws, 0, [], false⟩
/-- BTL.DOZE_GPIO.EN [15:0] (R130). -/
def F.BTL.DOZE_GPIO_EN : Fld := ⟨.BTL, 0x0A8, 1, 4, 0, 16, .rws, 0, [], false⟩
/-- BTL.DOZE_GPIO.POL [31:16] (R130). -/
def F.BTL.DOZE_GPIO_POL : Fld := ⟨.BTL, 0x0A8, 1, 4, 16, 16, .rws, 0, [], false⟩
/-- BTL.WAKE_CAUSE.CAN_FRAME [0:0] (R130). -/
def F.BTL.WAKE_CAUSE_CAN_FRAME : Fld := ⟨.BTL, 0x0AC, 1, 4, 0, 1, .rc, 0, [], false⟩
/-- BTL.WAKE_CAUSE.CAN_EDGE [1:1] (R130). -/
def F.BTL.WAKE_CAUSE_CAN_EDGE : Fld := ⟨.BTL, 0x0AC, 1, 4, 1, 1, .rc, 0, [], false⟩
/-- BTL.WAKE_CAUSE.TIMER [2:2] (R130). -/
def F.BTL.WAKE_CAUSE_TIMER : Fld := ⟨.BTL, 0x0AC, 1, 4, 2, 1, .rc, 0, [], false⟩
/-- BTL.WAKE_CAUSE.GPIO [3:3] (R130). -/
def F.BTL.WAKE_CAUSE_GPIO : Fld := ⟨.BTL, 0x0AC, 1, 4, 3, 1, .rc, 0, [], false⟩
/-- BTL.WAKE_CAUSE.PERST [4:4] (R130). -/
def F.BTL.WAKE_CAUSE_PERST : Fld := ⟨.BTL, 0x0AC, 1, 4, 4, 1, .rc, 0, [], false⟩
/-- BTL.WAKE_CAUSE.BUS [12:8] (R130). -/
def F.BTL.WAKE_CAUSE_BUS : Fld := ⟨.BTL, 0x0AC, 1, 4, 8, 5, .rc, 0, [], false⟩
/-- BTL.WAKE_CAUSE.GPIO_NUM [19:16] (R130). -/
def F.BTL.WAKE_CAUSE_GPIO_NUM : Fld := ⟨.BTL, 0x0AC, 1, 4, 16, 4, .rc, 0, [], false⟩
/-- BTL.CFG_STAT.FAIL [2:0] (R123). -/
def F.BTL.CFG_STAT_FAIL : Fld := ⟨.BTL, 0x0B0, 1, 4, 0, 3, .ro, 0, [], false⟩
/-- BTL.CFG_STAT.ENTRY [31:8] (R123). -/
def F.BTL.CFG_STAT_ENTRY : Fld := ⟨.BTL, 0x0B0, 1, 4, 8, 24, .ro, 0, [], false⟩
/-- BTL.LEDGER_DATA.D [31:0] (R133). -/
def F.BTL.LEDGER_DATA_D : Fld := ⟨.BTL, 0x100, 32, 4, 0, 32, .ro, 0, [], false⟩
/-- Fields of the BTL page, part 0. -/
def fieldsBTL0 : List Fld := [F.BTL.BOOT_STAT_STEP, F.BTL.BOOT_STAT_DONE, F.BTL.BOOT_STAT_MODE, F.BTL.BOOT_STAT_TRANS, F.BTL.BOOT_STAT_TARGET, F.BTL.RESET_CAUSE_CODE, F.BTL.RESET_CAUSE_MON, F.BTL.BOOT_FLAGS_CFG_DEFAULT, F.BTL.BOOT_FLAGS_STORED_CAL, F.BTL.BOOT_FLAGS_HUDDLE_DEFERRED, F.BTL.BOOT_FLAGS_BANK_FALLBACK, F.BTL.BOOT_FLAGS_IMAGE_ABANDONED, F.BTL.BOOT_FLAGS_NO_DRAM, F.BTL.BOOT_FLAGS_DRAM_ALT_RATE, F.BTL.BOOT_FLAGS_FLASH_SINGLE, F.BTL.BOOT_FLAGS_REGION_FAIL, F.BTL.BOOT_FLAGS_LEDGER_NEW, F.BTL.BOOT_FLAGS_RECOVER_PIN, F.BTL.BOOT_FLAGS_CFG_REFUSED, F.BTL.BOOT_SEQ_SEQ, F.BTL.BOOT_BANK_BANK, F.BTL.STEP_RES_OUTCOME, F.BTL.STEP_RES_FAILS, F.BTL.STEP_RES_TIME]
/-- Fields of the BTL page, part 1. -/
def fieldsBTL1 : List Fld := [F.BTL.STEP_RES_DETAIL, F.BTL.MODE_REQ_TARGET, F.BTL.QUIESCE_MAX_SEC, F.BTL.RESET_REQ_CODE, F.BTL.LEDGER_CLR_GO, F.BTL.LEDGER_SEL_IDX, F.BTL.DOZE_TIMER_SEC, F.BTL.DOZE_GPIO_EN, F.BTL.DOZE_GPIO_POL, F.BTL.WAKE_CAUSE_CAN_FRAME, F.BTL.WAKE_CAUSE_CAN_EDGE, F.BTL.WAKE_CAUSE_TIMER, F.BTL.WAKE_CAUSE_GPIO, F.BTL.WAKE_CAUSE_PERST, F.BTL.WAKE_CAUSE_BUS, F.BTL.WAKE_CAUSE_GPIO_NUM, F.BTL.CFG_STAT_FAIL, F.BTL.CFG_STAT_ENTRY, F.BTL.LEDGER_DATA_D]
/-- Every block field of the BTL page. -/
def fieldsBTL : List Fld := fieldsBTL0 ++ fieldsBTL1
/-- Every counter of the BTL page. -/
def ctrsBTL : List Ctr := []
/-- Every error source of the BTL page (R510). -/
def srcsBTL : List Src := []

/-! ## SYN page -/

/-- SYN.RXLO_CELL.C0 [11:0] (R165). -/
def F.SYN.RXLO_CELL_C0 : Fld := ⟨.SYN, 0x040, 1, 4, 0, 12, .rws, 0, [], false⟩
/-- SYN.CAL_CFG.THRESH [5:0] (R165). -/
def F.SYN.CAL_CFG_THRESH : Fld := ⟨.SYN, 0x044, 1, 4, 0, 6, .rws, 10, [], false⟩
/-- SYN.CAL_CFG.DEFER_MAX [31:16] (R165). -/
def F.SYN.CAL_CFG_DEFER_MAX : Fld := ⟨.SYN, 0x044, 1, 4, 16, 16, .rws, 10000, [], false⟩
/-- SYN.CAL_STAT.RX_BUSY [0:0] (R165). -/
def F.SYN.CAL_STAT_RX_BUSY : Fld := ⟨.SYN, 0x048, 1, 4, 0, 1, .ro, 0, [], false⟩
/-- SYN.CAL_STAT.TX_BUSY [4:1] (R165). -/
def F.SYN.CAL_STAT_TX_BUSY : Fld := ⟨.SYN, 0x048, 1, 4, 1, 4, .ro, 0, [], false⟩
/-- SYN.CAL_STAT.QUEUED [5:5] (R165). -/
def F.SYN.CAL_STAT_QUEUED : Fld := ⟨.SYN, 0x048, 1, 4, 5, 1, .ro, 0, [], false⟩
/-- SYN.CAL_STAT.LAST_FAIL [9:8] (R165). -/
def F.SYN.CAL_STAT_LAST_FAIL : Fld := ⟨.SYN, 0x048, 1, 4, 8, 2, .ro, 0, [], false⟩
/-- SYN.RX_TCAL.T [7:0] (R165). -/
def F.SYN.RX_TCAL_T : Fld := ⟨.SYN, 0x04C, 1, 4, 0, 8, .ro, 0, [], false⟩
/-- SYN.TX_TCAL.T [7:0] (R165). -/
def F.SYN.TX_TCAL_T : Fld := ⟨.SYN, 0x050, 4, 4, 0, 8, .ro, 0, [], false⟩
/-- SYN.TX_TCAL.V [27:16] (R165). -/
def F.SYN.TX_TCAL_V : Fld := ⟨.SYN, 0x050, 4, 4, 16, 12, .ro, 0, [], false⟩
/-- SYN.TX_CELL.CELL [15:0] (R165). -/
def F.SYN.TX_CELL_CELL : Fld := ⟨.SYN, 0x060, 4, 4, 0, 16, .ro, 0, [], false⟩
/-- Fields of the SYN page, part 0. -/
def fieldsSYN0 : List Fld := [F.SYN.RXLO_CELL_C0, F.SYN.CAL_CFG_THRESH, F.SYN.CAL_CFG_DEFER_MAX, F.SYN.CAL_STAT_RX_BUSY, F.SYN.CAL_STAT_TX_BUSY, F.SYN.CAL_STAT_QUEUED, F.SYN.CAL_STAT_LAST_FAIL, F.SYN.RX_TCAL_T, F.SYN.TX_TCAL_T, F.SYN.TX_TCAL_V, F.SYN.TX_CELL_CELL]
/-- Every block field of the SYN page. -/
def fieldsSYN : List Fld := fieldsSYN0
/-- Counter SYN.RX_CAL_CNT (R165). -/
def C.SYN.RX_CAL_CNT : Ctr := ⟨.SYN, 0x800, 1, false⟩
/-- Counter SYN.TX_CAL_CNT (R165). -/
def C.SYN.TX_CAL_CNT : Ctr := ⟨.SYN, 0x808, 4, false⟩
/-- Counters of the SYN page, part 0. -/
def ctrsSYN0 : List Ctr := [C.SYN.RX_CAL_CNT, C.SYN.TX_CAL_CNT]
/-- Every counter of the SYN page. -/
def ctrsSYN : List Ctr := ctrsSYN0
/-- Error source SYN 0 RXLO_LOCK, reset code 1 (R166). -/
def E.SYN.RXLO_LOCK : Src := ⟨.SYN, 0, 1, false⟩
/-- Error source SYN 1 TXSYN_LOCK, reset code 1 (R166). -/
def E.SYN.TXSYN_LOCK : Src := ⟨.SYN, 1, 1, false⟩
/-- Error source SYN 2 CAL_FAIL, reset code 1 (R166). -/
def E.SYN.CAL_FAIL : Src := ⟨.SYN, 2, 1, false⟩
/-- Every error source of the SYN page (R510). -/
def srcsSYN : List Src := [E.SYN.RXLO_LOCK, E.SYN.TXSYN_LOCK, E.SYN.CAL_FAIL]

/-! ## RXF page -/

/-- RXF.CHAIN_EN.EN [7:0] (R165). -/
def F.RXF.CHAIN_EN_EN : Fld := ⟨.RXF, 0x040, 1, 4, 0, 8, .rws, 255, [], false⟩
/-- RXF.CHAIN_STAT.FAILED [7:0] (R165). -/
def F.RXF.CHAIN_STAT_FAILED : Fld := ⟨.RXF, 0x044, 1, 4, 0, 8, .ro, 0, [], false⟩
/-- RXF.CHAIN_STAT.BLANK [15:8] (R165). -/
def F.RXF.CHAIN_STAT_BLANK : Fld := ⟨.RXF, 0x044, 1, 4, 8, 8, .ro, 0, [], false⟩
/-- RXF.CHAIN_STAT.HEALTHY [19:16] (R165). -/
def F.RXF.CHAIN_STAT_HEALTHY : Fld := ⟨.RXF, 0x044, 1, 4, 16, 4, .ro, 0, [], false⟩
/-- RXF.AGC_CFG.TARGET [5:0] (R165). -/
def F.RXF.AGC_CFG_TARGET : Fld := ⟨.RXF, 0x048, 1, 4, 0, 6, .rws, 12, [], false⟩
/-- RXF.AGC_CFG.PERIOD [15:8] (R165). -/
def F.RXF.AGC_CFG_PERIOD : Fld := ⟨.RXF, 0x048, 1, 4, 8, 8, .rws, 10, [], false⟩
/-- RXF.AGC_CFG.CLIP_LIM [23:16] (R165). -/
def F.RXF.AGC_CFG_CLIP_LIM : Fld := ⟨.RXF, 0x048, 1, 4, 16, 8, .rws, 8, [], false⟩
/-- RXF.AGC_FIX.IDX [4:0] (R165). -/
def F.RXF.AGC_FIX_IDX : Fld := ⟨.RXF, 0x04C, 1, 4, 0, 5, .rws, 10, [], false⟩
/-- RXF.DCO_CFG.FINE_SHIFT [4:0] (R165). -/
def F.RXF.DCO_CFG_FINE_SHIFT : Fld := ⟨.RXF, 0x050, 1, 4, 0, 5, .rws, 16, [], false⟩
/-- RXF.DCO_CFG.COARSE_PERIOD [15:8] (R165). -/
def F.RXF.DCO_CFG_COARSE_PERIOD : Fld := ⟨.RXF, 0x050, 1, 4, 8, 8, .rws, 10, [], false⟩
/-- RXF.DCO_CFG.COARSE_THRESH [27:16] (R165). -/
def F.RXF.DCO_CFG_COARSE_THRESH : Fld := ⟨.RXF, 0x050, 1, 4, 16, 12, .rws, 16, [], false⟩
/-- RXF.GAIN.IDX [4:0] (R165). -/
def F.RXF.GAIN_IDX : Fld := ⟨.RXF, 0x060, 8, 4, 0, 5, .ro, 0, [], false⟩
/-- RXF.DCO.I [7:0] (R165). -/
def F.RXF.DCO_I : Fld := ⟨.RXF, 0x080, 8, 4, 0, 8, .ro, 0, [], false⟩
/-- RXF.DCO.Q [15:8] (R165). -/
def F.RXF.DCO_Q : Fld := ⟨.RXF, 0x080, 8, 4, 8, 8, .ro, 0, [], false⟩
/-- RXF.FAIL_CAUSE.CAUSE [1:0] (R165). -/
def F.RXF.FAIL_CAUSE_CAUSE : Fld := ⟨.RXF, 0x0A0, 8, 4, 0, 2, .ro, 0, [], false⟩
/-- Fields of the RXF page, part 0. -/
def fieldsRXF0 : List Fld := [F.RXF.CHAIN_EN_EN, F.RXF.CHAIN_STAT_FAILED, F.RXF.CHAIN_STAT_BLANK, F.RXF.CHAIN_STAT_HEALTHY, F.RXF.AGC_CFG_TARGET, F.RXF.AGC_CFG_PERIOD, F.RXF.AGC_CFG_CLIP_LIM, F.RXF.AGC_FIX_IDX, F.RXF.DCO_CFG_FINE_SHIFT, F.RXF.DCO_CFG_COARSE_PERIOD, F.RXF.DCO_CFG_COARSE_THRESH, F.RXF.GAIN_IDX, F.RXF.DCO_I, F.RXF.DCO_Q, F.RXF.FAIL_CAUSE_CAUSE]
/-- Every block field of the RXF page. -/
def fieldsRXF : List Fld := fieldsRXF0
/-- Every counter of the RXF page. -/
def ctrsRXF : List Ctr := []
/-- Error source RXF 0 CHAIN_FAIL, reset code 1 (R166). -/
def E.RXF.CHAIN_FAIL : Src := ⟨.RXF, 0, 1, false⟩
/-- Error source RXF 1 SAMPLE_LINK, reset code 1 (R166). -/
def E.RXF.SAMPLE_LINK : Src := ⟨.RXF, 1, 1, false⟩
/-- Every error source of the RXF page (R510). -/
def srcsRXF : List Src := [E.RXF.CHAIN_FAIL, E.RXF.SAMPLE_LINK]

/-! ## RSM page -/

/-- RSM.REQ.TARGET [2:0] (R165). -/
def F.RSM.REQ_TARGET : Fld := ⟨.RSM, 0x040, 1, 4, 0, 3, .rws, 1, [], false⟩
/-- RSM.BAND_STAT.STATE [2:0] (R165). -/
def F.RSM.BAND_STAT_STATE : Fld := ⟨.RSM, 0x044, 1, 4, 0, 3, .ro, 0, [], false⟩
/-- RSM.BAND_STAT.RETRIES [5:4] (R165). -/
def F.RSM.BAND_STAT_RETRIES : Fld := ⟨.RSM, 0x044, 1, 4, 4, 2, .ro, 0, [], false⟩
/-- RSM.TX_STAT.STATE [2:0] (R165). -/
def F.RSM.TX_STAT_STATE : Fld := ⟨.RSM, 0x048, 4, 4, 0, 3, .ro, 0, [], false⟩
/-- RSM.TX_STAT.LAST_REFUSAL [11:8] (R165). -/
def F.RSM.TX_STAT_LAST_REFUSAL : Fld := ⟨.RSM, 0x048, 4, 4, 8, 4, .ro, 0, [], false⟩
/-- RSM.CAL_REQ.RX [0:0] (R165). -/
def F.RSM.CAL_REQ_RX : Fld := ⟨.RSM, 0x058, 1, 4, 0, 1, .wo, 0, [], false⟩
/-- RSM.CAL_REQ.TX [4:1] (R165). -/
def F.RSM.CAL_REQ_TX : Fld := ⟨.RSM, 0x058, 1, 4, 1, 4, .wo, 0, [], false⟩
/-- RSM.RESUME.BAND [0:0] (R165). -/
def F.RSM.RESUME_BAND : Fld := ⟨.RSM, 0x05C, 1, 4, 0, 1, .wo, 0, [], false⟩
/-- RSM.RESUME.TX [4:1] (R165). -/
def F.RSM.RESUME_TX : Fld := ⟨.RSM, 0x05C, 1, 4, 1, 4, .wo, 0, [], false⟩
/-- Fields of the RSM page, part 0. -/
def fieldsRSM0 : List Fld := [F.RSM.REQ_TARGET, F.RSM.BAND_STAT_STATE, F.RSM.BAND_STAT_RETRIES, F.RSM.TX_STAT_STATE, F.RSM.TX_STAT_LAST_REFUSAL, F.RSM.CAL_REQ_RX, F.RSM.CAL_REQ_TX, F.RSM.RESUME_BAND, F.RSM.RESUME_TX]
/-- Every block field of the RSM page. -/
def fieldsRSM : List Fld := fieldsRSM0
/-- Counter RSM.REFUSE_CNT (R165). -/
def C.RSM.REFUSE_CNT : Ctr := ⟨.RSM, 0x800, 10, false⟩
/-- Counter RSM.LO_LOSS_CNT (R165). -/
def C.RSM.LO_LOSS_CNT : Ctr := ⟨.RSM, 0x850, 1, false⟩
/-- Counter RSM.REFUSE_CNT11 (R165). -/
def C.RSM.REFUSE_CNT11 : Ctr := ⟨.RSM, 0x858, 1, false⟩
/-- Counters of the RSM page, part 0. -/
def ctrsRSM0 : List Ctr := [C.RSM.REFUSE_CNT, C.RSM.LO_LOSS_CNT, C.RSM.REFUSE_CNT11]
/-- Every counter of the RSM page. -/
def ctrsRSM : List Ctr := ctrsRSM0
/-- Error source RSM 0 RELOCK_EXHAUSTED, reset code 5 (R166). -/
def E.RSM.RELOCK_EXHAUSTED : Src := ⟨.RSM, 0, 5, false⟩
/-- Every error source of the RSM page (R510). -/
def srcsRSM : List Src := [E.RSM.RELOCK_EXHAUSTED]

/-! ## LIM page -/

/-- LIM.LOCK_STAT.STATE [1:0] (R160). -/
def F.LIM.LOCK_STAT_STATE : Fld := ⟨.LIM, 0x040, 1, 4, 0, 2, .ro, 0, [], false⟩
/-- LIM.LOCK_STAT.RESULT [7:4] (R160). -/
def F.LIM.LOCK_STAT_RESULT : Fld := ⟨.LIM, 0x040, 1, 4, 4, 4, .ro, 0, [], false⟩
/-- LIM.LOCK_STAT.WORD [23:16] (R160). -/
def F.LIM.LOCK_STAT_WORD : Fld := ⟨.LIM, 0x040, 1, 4, 16, 8, .ro, 0, [], false⟩
/-- LIM.LOCK_IDX.IDX [7:0] (R160). -/
def F.LIM.LOCK_IDX_IDX : Fld := ⟨.LIM, 0x044, 1, 4, 0, 8, .rw, 0, [], false⟩
/-- LIM.LOCK_DATA.WORD [31:0] (R160). -/
def F.LIM.LOCK_DATA_WORD : Fld := ⟨.LIM, 0x048, 1, 4, 0, 32, .rw, 0, [], false⟩
/-- LIM.FUSE_DATA.WORD [31:0] (R160). -/
def F.LIM.FUSE_DATA_WORD : Fld := ⟨.LIM, 0x04C, 1, 4, 0, 32, .ro, 0, [], false⟩
/-- LIM.LOCK_GO.CODE [15:0] (R160). -/
def F.LIM.LOCK_GO_CODE : Fld := ⟨.LIM, 0x050, 1, 4, 0, 16, .wo, 0, [], false⟩
/-- LIM.LOCK_PROG.WORDS [7:0] (R160). -/
def F.LIM.LOCK_PROG_WORDS : Fld := ⟨.LIM, 0x054, 1, 4, 0, 8, .ro, 0, [], false⟩
/-- LIM.LOCK_PROG.BUSY [8:8] (R160). -/
def F.LIM.LOCK_PROG_BUSY : Fld := ⟨.LIM, 0x054, 1, 4, 8, 1, .ro, 0, [], false⟩
/-- Fields of the LIM page, part 0. -/
def fieldsLIM0 : List Fld := [F.LIM.LOCK_STAT_STATE, F.LIM.LOCK_STAT_RESULT, F.LIM.LOCK_STAT_WORD, F.LIM.LOCK_IDX_IDX, F.LIM.LOCK_DATA_WORD, F.LIM.FUSE_DATA_WORD, F.LIM.LOCK_GO_CODE, F.LIM.LOCK_PROG_WORDS, F.LIM.LOCK_PROG_BUSY]
/-- Every block field of the LIM page. -/
def fieldsLIM : List Fld := fieldsLIM0
/-- Every counter of the LIM page. -/
def ctrsLIM : List Ctr := []
/-- Error source LIM 0 LOCK_SPOILED, reset code 5 (R166). -/
def E.LIM.LOCK_SPOILED : Src := ⟨.LIM, 0, 5, false⟩
/-- Error source LIM 1 FUSE_PARITY, reset code 5 (R166). -/
def E.LIM.FUSE_PARITY : Src := ⟨.LIM, 1, 5, false⟩
/-- Every error source of the LIM page (R510). -/
def srcsLIM : List Src := [E.LIM.LOCK_SPOILED, E.LIM.FUSE_PARITY]

/-! ## TXF page -/

/-- TXF.PWR_DEF.CODE [7:0] (R165). -/
def F.TXF.PWR_DEF_CODE : Fld := ⟨.TXF, 0x040, 1, 4, 0, 8, .rws, 0, [], false⟩
/-- TXF.PA_CFG.EN [0:0] (R165). -/
def F.TXF.PA_CFG_EN : Fld := ⟨.TXF, 0x044, 1, 4, 0, 1, .rws, 0, [], false⟩
/-- TXF.PA_CFG.GAIN [8:1] (R165). -/
def F.TXF.PA_CFG_GAIN : Fld := ⟨.TXF, 0x044, 1, 4, 1, 8, .rws, 0, [], false⟩
/-- TXF.PA_CFG.BIAS [25:16] (R165). -/
def F.TXF.PA_CFG_BIAS : Fld := ⟨.TXF, 0x044, 1, 4, 16, 10, .rws, 0, [], false⟩
/-- TXF.COMP.TCOEF [15:0] (R165). -/
def F.TXF.COMP_TCOEF : Fld := ⟨.TXF, 0x048, 1, 4, 0, 16, .rws, 0, [], false⟩
/-- TXF.COMP.VCOEF [31:16] (R165). -/
def F.TXF.COMP_VCOEF : Fld := ⟨.TXF, 0x048, 1, 4, 16, 16, .rws, 0, [], false⟩
/-- TXF.PWR_STAT.G [6:0] (R165). -/
def F.TXF.PWR_STAT_G : Fld := ⟨.TXF, 0x04C, 1, 4, 0, 7, .ro, 0, [], false⟩
/-- TXF.PWR_STAT.COMP_SAT [7:7] (R165). -/
def F.TXF.PWR_STAT_COMP_SAT : Fld := ⟨.TXF, 0x04C, 1, 4, 7, 1, .ro, 0, [], false⟩
/-- TXF.PWR_STAT.V [15:8] (R165). -/
def F.TXF.PWR_STAT_V : Fld := ⟨.TXF, 0x04C, 1, 4, 8, 8, .ro, 0, [], false⟩
/-- TXF.FIR_SEL.SET [1:0] (R224). -/
def F.TXF.FIR_SEL_SET : Fld := ⟨.TXF, 0x100, 1, 4, 0, 2, .rws, 0, [], false⟩
/-- TXF.FIR_COEF.T0 [15:0] (R224). -/
def F.TXF.FIR_COEF_T0 : Fld := ⟨.TXF, 0x104, 32, 4, 0, 16, .rws, 0, ((List.range 32).map (fun m => Config.firTap 0 (2 * m) % 65536)), false⟩
/-- TXF.FIR_COEF.T1 [31:16] (R224). -/
def F.TXF.FIR_COEF_T1 : Fld := ⟨.TXF, 0x104, 32, 4, 16, 16, .rws, 0, ((List.range 32).map (fun m => Config.firTap 0 (2 * m + 1) % 65536)), false⟩
/-- TXF.MASK_CFG.ACP_NAT [7:0] (R224). -/
def F.TXF.MASK_CFG_ACP_NAT : Fld := ⟨.TXF, 0x184, 1, 4, 0, 8, .rws, 120, [], false⟩
/-- TXF.MASK_CFG.ACP_LEG [15:8] (R224). -/
def F.TXF.MASK_CFG_ACP_LEG : Fld := ⟨.TXF, 0x184, 1, 4, 8, 8, .rws, 160, [], false⟩
/-- TXF.MASK_CFG.CNT [19:16] (R224). -/
def F.TXF.MASK_CFG_CNT : Fld := ⟨.TXF, 0x184, 1, 4, 16, 4, .rws, 2, [], false⟩
/-- TXF.MASK_STAT.ACR [7:0] (R224). -/
def F.TXF.MASK_STAT_ACR : Fld := ⟨.TXF, 0x188, 1, 4, 0, 8, .ro, 0, [], false⟩
/-- TXF.MASK_STAT.CUTS_10S [11:8] (R224). -/
def F.TXF.MASK_STAT_CUTS_10S : Fld := ⟨.TXF, 0x188, 1, 4, 8, 4, .ro, 0, [], false⟩
/-- Fields of the TXF page, part 0. -/
def fieldsTXF0 : List Fld := [F.TXF.PWR_DEF_CODE, F.TXF.PA_CFG_EN, F.TXF.PA_CFG_GAIN, F.TXF.PA_CFG_BIAS, F.TXF.COMP_TCOEF, F.TXF.COMP_VCOEF, F.TXF.PWR_STAT_G, F.TXF.PWR_STAT_COMP_SAT, F.TXF.PWR_STAT_V, F.TXF.FIR_SEL_SET, F.TXF.FIR_COEF_T0, F.TXF.FIR_COEF_T1, F.TXF.MASK_CFG_ACP_NAT, F.TXF.MASK_CFG_ACP_LEG, F.TXF.MASK_CFG_CNT, F.TXF.MASK_STAT_ACR, F.TXF.MASK_STAT_CUTS_10S]
/-- Every block field of the TXF page. -/
def fieldsTXF : List Fld := fieldsTXF0
/-- Counter TXF.MASK_CUT_CNT (R224). -/
def C.TXF.MASK_CUT_CNT : Ctr := ⟨.TXF, 0x800, 1, false⟩
/-- Counter TXF.FRAMES_CNT (R224). -/
def C.TXF.FRAMES_CNT : Ctr := ⟨.TXF, 0x808, 1, false⟩
/-- Counters of the TXF page, part 0. -/
def ctrsTXF0 : List Ctr := [C.TXF.MASK_CUT_CNT, C.TXF.FRAMES_CNT]
/-- Every counter of the TXF page. -/
def ctrsTXF : List Ctr := ctrsTXF0
/-- Error source TXF 0 TX_FAIL, reset code 1 (R166). -/
def E.TXF.TX_FAIL : Src := ⟨.TXF, 0, 1, false⟩
/-- Error source TXF 1 COMP_SAT, reset code 0 (R166). -/
def E.TXF.COMP_SAT : Src := ⟨.TXF, 1, 0, false⟩
/-- Error source TXF 2 MASK_CUT, reset code 1 (R225). -/
def E.TXF.MASK_CUT : Src := ⟨.TXF, 2, 1, false⟩
/-- Every error source of the TXF page (R510). -/
def srcsTXF : List Src := [E.TXF.TX_FAIL, E.TXF.COMP_SAT, E.TXF.MASK_CUT]

/-! ## CHZ page -/

/-- CHZ.STAT.CHAINS [7:0] (R203). -/
def F.CHZ.STAT_CHAINS : Fld := ⟨.CHZ, 0x040, 1, 4, 0, 8, .ro, 0, [], false⟩
/-- CHZ.OVF_STAT.CHAIN [2:0] (R203). -/
def F.CHZ.OVF_STAT_CHAIN : Fld := ⟨.CHZ, 0x044, 1, 4, 0, 3, .ro, 0, [], false⟩
/-- CHZ.OVF_STAT.OVF [8:8] (R203). -/
def F.CHZ.OVF_STAT_OVF : Fld := ⟨.CHZ, 0x044, 1, 4, 8, 1, .ro, 0, [], false⟩
/-- Fields of the CHZ page, part 0. -/
def fieldsCHZ0 : List Fld := [F.CHZ.STAT_CHAINS, F.CHZ.OVF_STAT_CHAIN, F.CHZ.OVF_STAT_OVF]
/-- Every block field of the CHZ page. -/
def fieldsCHZ : List Fld := fieldsCHZ0
/-- Counter CHZ.OVF_CNT (R203). -/
def C.CHZ.OVF_CNT : Ctr := ⟨.CHZ, 0x800, 1, false⟩
/-- Counter CHZ.GAIN_CHG_CNT (R203). -/
def C.CHZ.GAIN_CHG_CNT : Ctr := ⟨.CHZ, 0x808, 1, false⟩
/-- Counters of the CHZ page, part 0. -/
def ctrsCHZ0 : List Ctr := [C.CHZ.OVF_CNT, C.CHZ.GAIN_CHG_CNT]
/-- Every counter of the CHZ page. -/
def ctrsCHZ : List Ctr := ctrsCHZ0
/-- Error source CHZ 0 SAMPLE_OVF, reset code 1 (R204). -/
def E.CHZ.SAMPLE_OVF : Src := ⟨.CHZ, 0, 1, false⟩
/-- Error source CHZ 1 COEF_PARITY, reset code 2 (R204). -/
def E.CHZ.COEF_PARITY : Src := ⟨.CHZ, 1, 2, false⟩
/-- Every error source of the CHZ page (R510). -/
def srcsCHZ : List Src := [E.CHZ.SAMPLE_OVF, E.CHZ.COEF_PARITY]

/-! ## DEM page -/

/-- DEM.CH_CFG.EN [0:0] (R203). -/
def F.DEM.CH_CFG_EN : Fld := ⟨.DEM, 0x040, 32, 4, 0, 1, .rws, 1, [], false⟩
/-- DEM.CH_CFG.MODE [2:1] (R203). -/
def F.DEM.CH_CFG_MODE : Fld := ⟨.DEM, 0x040, 32, 4, 1, 2, .rws, 0, [], false⟩
/-- DEM.CH_CFG.PFAM [7:4] (R203). -/
def F.DEM.CH_CFG_PFAM : Fld := ⟨.DEM, 0x040, 32, 4, 4, 4, .rws, 5, [], false⟩
/-- DEM.CH_CFG.FSK_RATE [8:8] (R203). -/
def F.DEM.CH_CFG_FSK_RATE : Fld := ⟨.DEM, 0x040, 32, 4, 8, 1, .rws, 0, [], false⟩
/-- DEM.CH_CFG.SFD_SEL [9:9] (R203). -/
def F.DEM.CH_CFG_SFD_SEL : Fld := ⟨.DEM, 0x040, 32, 4, 9, 1, .rws, 0, [], false⟩
/-- DEM.CH_CFG.FOFS [31:14] (R203). -/
def F.DEM.CH_CFG_FOFS : Fld := ⟨.DEM, 0x040, 32, 4, 14, 18, .rws, 0, [], false⟩
/-- DEM.DET_CFG.THR1 [7:0] (R203). -/
def F.DEM.DET_CFG_THR1 : Fld := ⟨.DEM, 0x0C0, 1, 4, 0, 8, .rws, 80, [], false⟩
/-- DEM.DET_CFG.THR2 [15:8] (R203). -/
def F.DEM.DET_CFG_THR2 : Fld := ⟨.DEM, 0x0C0, 1, 4, 8, 8, .rws, 128, [], false⟩
/-- DEM.DET_CFG.SNR_MIN [23:16] (R203). -/
def F.DEM.DET_CFG_SNR_MIN : Fld := ⟨.DEM, 0x0C0, 1, 4, 16, 8, .rws, 0, [], false⟩
/-- DEM.DET_CFG.CFO_MAX [29:24] (R203). -/
def F.DEM.DET_CFG_CFO_MAX : Fld := ⟨.DEM, 0x0C0, 1, 4, 24, 6, .rws, 20, [], false⟩
/-- DEM.SPARE.FREE [1:0] (R203). -/
def F.DEM.SPARE_FREE : Fld := ⟨.DEM, 0x0C4, 1, 4, 0, 2, .ro, 2, [], false⟩
/-- DEM.BUSY.CH [31:0] (R203). -/
def F.DEM.BUSY_CH : Fld := ⟨.DEM, 0x0C8, 1, 4, 0, 32, .ro, 0, [], false⟩
/-- Fields of the DEM page, part 0. -/
def fieldsDEM0 : List Fld := [F.DEM.CH_CFG_EN, F.DEM.CH_CFG_MODE, F.DEM.CH_CFG_PFAM, F.DEM.CH_CFG_FSK_RATE, F.DEM.CH_CFG_SFD_SEL, F.DEM.CH_CFG_FOFS, F.DEM.DET_CFG_THR1, F.DEM.DET_CFG_THR2, F.DEM.DET_CFG_SNR_MIN, F.DEM.DET_CFG_CFO_MAX, F.DEM.SPARE_FREE, F.DEM.BUSY_CH]
/-- Every block field of the DEM page. -/
def fieldsDEM : List Fld := fieldsDEM0
/-- Counter DEM.DET_CNT (R203). -/
def C.DEM.DET_CNT : Ctr := ⟨.DEM, 0x800, 6, false⟩
/-- Counter DEM.SIG_FAIL (R203). -/
def C.DEM.SIG_FAIL : Ctr := ⟨.DEM, 0x830, 1, false⟩
/-- Counter DEM.TOO_LONG (R203). -/
def C.DEM.TOO_LONG : Ctr := ⟨.DEM, 0x838, 1, false⟩
/-- Counter DEM.MAP_INVALID (R203). -/
def C.DEM.MAP_INVALID : Ctr := ⟨.DEM, 0x840, 1, false⟩
/-- Counter DEM.CFO_REJECT (R203). -/
def C.DEM.CFO_REJECT : Ctr := ⟨.DEM, 0x848, 1, false⟩
/-- Counter DEM.COLL3 (R203). -/
def C.DEM.COLL3 : Ctr := ⟨.DEM, 0x850, 1, false⟩
/-- Counter DEM.ABANDON (R203). -/
def C.DEM.ABANDON : Ctr := ⟨.DEM, 0x858, 1, false⟩
/-- Counter DEM.LEGACY_UNSUP (R203). -/
def C.DEM.LEGACY_UNSUP : Ctr := ⟨.DEM, 0x860, 1, false⟩
/-- Counter DEM.CAL_LOST (R203). -/
def C.DEM.CAL_LOST : Ctr := ⟨.DEM, 0x868, 1, false⟩
/-- Counters of the DEM page, part 0. -/
def ctrsDEM0 : List Ctr := [C.DEM.DET_CNT, C.DEM.SIG_FAIL, C.DEM.TOO_LONG, C.DEM.MAP_INVALID, C.DEM.CFO_REJECT, C.DEM.COLL3, C.DEM.ABANDON, C.DEM.LEGACY_UNSUP, C.DEM.CAL_LOST]
/-- Every counter of the DEM page. -/
def ctrsDEM : List Ctr := ctrsDEM0
/-- Error source DEM 0 PACE, reset code 1 (R204). -/
def E.DEM.PACE : Src := ⟨.DEM, 0, 1, false⟩
/-- Error source DEM 1 HIST_ECC, reset code 1 (R204). -/
def E.DEM.HIST_ECC : Src := ⟨.DEM, 1, 1, false⟩
/-- Every error source of the DEM page (R510). -/
def srcsDEM : List Src := [E.DEM.PACE, E.DEM.HIST_ECC]

/-! ## CMB page -/

/-- CMB.CFG.MODE [0:0] (R203). -/
def F.CMB.CFG_MODE : Fld := ⟨.CMB, 0x040, 1, 4, 0, 1, .rws, 0, [], false⟩
/-- CMB.CFG.CHAIN_MASK [15:8] (R203). -/
def F.CMB.CFG_CHAIN_MASK : Fld := ⟨.CMB, 0x040, 1, 4, 8, 8, .rws, 255, [], false⟩
/-- CMB.CFG.MAX_SYM [27:16] (R203). -/
def F.CMB.CFG_MAX_SYM : Fld := ⟨.CMB, 0x040, 1, 4, 16, 12, .rws, 512, [], false⟩
/-- CMB.STAT.CHAINS_USED [7:0] (R203). -/
def F.CMB.STAT_CHAINS_USED : Fld := ⟨.CMB, 0x044, 1, 4, 0, 8, .ro, 0, [], false⟩
/-- Fields of the CMB page, part 0. -/
def fieldsCMB0 : List Fld := [F.CMB.CFG_MODE, F.CMB.CFG_CHAIN_MASK, F.CMB.CFG_MAX_SYM, F.CMB.STAT_CHAINS_USED]
/-- Every block field of the CMB page. -/
def fieldsCMB : List Fld := fieldsCMB0
/-- Counter CMB.FRAMES_OUT (R203). -/
def C.CMB.FRAMES_OUT : Ctr := ⟨.CMB, 0x800, 1, false⟩
/-- Counter CMB.OUT_DROP (R203). -/
def C.CMB.OUT_DROP : Ctr := ⟨.CMB, 0x808, 1, false⟩
/-- Counter CMB.CHAIN_DROP (R203). -/
def C.CMB.CHAIN_DROP : Ctr := ⟨.CMB, 0x810, 1, false⟩
/-- Counter CMB.SELF (R203). -/
def C.CMB.SELF : Ctr := ⟨.CMB, 0x818, 1, false⟩
/-- Counter CMB.DUP (R203). -/
def C.CMB.DUP : Ctr := ⟨.CMB, 0x820, 1, false⟩
/-- Counters of the CMB page, part 0. -/
def ctrsCMB0 : List Ctr := [C.CMB.FRAMES_OUT, C.CMB.OUT_DROP, C.CMB.CHAIN_DROP, C.CMB.SELF, C.CMB.DUP]
/-- Every counter of the CMB page. -/
def ctrsCMB : List Ctr := ctrsCMB0
/-- Error source CMB 0 OUT_OVF, reset code 1 (R204). -/
def E.CMB.OUT_OVF : Src := ⟨.CMB, 0, 1, false⟩
/-- Every error source of the CMB page (R510). -/
def srcsCMB : List Src := [E.CMB.OUT_OVF]

/-! ## SIC page -/

/-- SIC.CFG.EN [0:0] (R203). -/
def F.SIC.CFG_EN : Fld := ⟨.SIC, 0x040, 1, 4, 0, 1, .rws, 1, [], false⟩
/-- SIC.CFG.RESID [1:1] (R203). -/
def F.SIC.CFG_RESID : Fld := ⟨.SIC, 0x040, 1, 4, 1, 1, .rws, 1, [], false⟩
/-- SIC.STAT.ACTIVE [5:0] (R203). -/
def F.SIC.STAT_ACTIVE : Fld := ⟨.SIC, 0x044, 1, 4, 0, 6, .ro, 0, [], false⟩
/-- Fields of the SIC page, part 0. -/
def fieldsSIC0 : List Fld := [F.SIC.CFG_EN, F.SIC.CFG_RESID, F.SIC.STAT_ACTIVE]
/-- Every block field of the SIC page. -/
def fieldsSIC : List Fld := fieldsSIC0
/-- Counter SIC.COLL_DET (R203). -/
def C.SIC.COLL_DET : Ctr := ⟨.SIC, 0x800, 1, false⟩
/-- Counter SIC.STRONG_FAIL (R203). -/
def C.SIC.STRONG_FAIL : Ctr := ⟨.SIC, 0x808, 1, false⟩
/-- Counter SIC.WEAK_OK (R203). -/
def C.SIC.WEAK_OK : Ctr := ⟨.SIC, 0x810, 1, false⟩
/-- Counter SIC.WEAK_FAIL (R203). -/
def C.SIC.WEAK_FAIL : Ctr := ⟨.SIC, 0x818, 1, false⟩
/-- Counter SIC.LONG (R203). -/
def C.SIC.LONG : Ctr := ⟨.SIC, 0x820, 1, false⟩
/-- Counter SIC.RESID_FOUND (R203). -/
def C.SIC.RESID_FOUND : Ctr := ⟨.SIC, 0x828, 1, false⟩
/-- Counter SIC.LEGACY_COLL (R203). -/
def C.SIC.LEGACY_COLL : Ctr := ⟨.SIC, 0x830, 1, false⟩
/-- Counters of the SIC page, part 0. -/
def ctrsSIC0 : List Ctr := [C.SIC.COLL_DET, C.SIC.STRONG_FAIL, C.SIC.WEAK_OK, C.SIC.WEAK_FAIL, C.SIC.LONG, C.SIC.RESID_FOUND, C.SIC.LEGACY_COLL]
/-- Every counter of the SIC page. -/
def ctrsSIC : List Ctr := ctrsSIC0
/-- Error source SIC 0 PACE, reset code 1 (R204). -/
def E.SIC.PACE : Src := ⟨.SIC, 0, 1, false⟩
/-- Error source SIC 1 BUF_ECC, reset code 1 (R204). -/
def E.SIC.BUF_ECC : Src := ⟨.SIC, 1, 1, false⟩
/-- Every error source of the SIC page (R510). -/
def srcsSIC : List Src := [E.SIC.PACE, E.SIC.BUF_ECC]

/-! ## DEC page -/

/-- DEC.STAT.ACTIVE [19:0] (R203). -/
def F.DEC.STAT_ACTIVE : Fld := ⟨.DEC, 0x040, 1, 4, 0, 20, .ro, 0, [], false⟩
/-- DEC.CTX.C0 [7:0] (R203). -/
def F.DEC.CTX_C0 : Fld := ⟨.DEC, 0x044, 1, 4, 0, 8, .ro, 0, [], false⟩
/-- DEC.CTX.C1 [15:8] (R203). -/
def F.DEC.CTX_C1 : Fld := ⟨.DEC, 0x044, 1, 4, 8, 8, .ro, 0, [], false⟩
/-- DEC.CTX.C2 [23:16] (R203). -/
def F.DEC.CTX_C2 : Fld := ⟨.DEC, 0x044, 1, 4, 16, 8, .ro, 0, [], false⟩
/-- DEC.CTX.C3 [31:24] (R203). -/
def F.DEC.CTX_C3 : Fld := ⟨.DEC, 0x044, 1, 4, 24, 8, .ro, 0, [], false⟩
/-- Fields of the DEC page, part 0. -/
def fieldsDEC0 : List Fld := [F.DEC.STAT_ACTIVE, F.DEC.CTX_C0, F.DEC.CTX_C1, F.DEC.CTX_C2, F.DEC.CTX_C3]
/-- Every block field of the DEC page. -/
def fieldsDEC : List Fld := fieldsDEC0
/-- Counter DEC.FRAMES_OK (R203). -/
def C.DEC.FRAMES_OK : Ctr := ⟨.DEC, 0x800, 1, false⟩
/-- Counter DEC.FCS_FAIL (R203). -/
def C.DEC.FCS_FAIL : Ctr := ⟨.DEC, 0x808, 1, false⟩
/-- Counter DEC.SIG_DECODED (R203). -/
def C.DEC.SIG_DECODED : Ctr := ⟨.DEC, 0x810, 1, false⟩
/-- Counter DEC.BITS_OUT (R203). -/
def C.DEC.BITS_OUT : Ctr := ⟨.DEC, 0x818, 1, false⟩
/-- Counters of the DEC page, part 0. -/
def ctrsDEC0 : List Ctr := [C.DEC.FRAMES_OK, C.DEC.FCS_FAIL, C.DEC.SIG_DECODED, C.DEC.BITS_OUT]
/-- Every counter of the DEC page. -/
def ctrsDEC : List Ctr := ctrsDEC0
/-- Error source DEC 0 PACE, reset code 1 (R204). -/
def E.DEC.PACE : Src := ⟨.DEC, 0, 1, false⟩
/-- Error source DEC 1 PATH_ECC, reset code 1 (R204). -/
def E.DEC.PATH_ECC : Src := ⟨.DEC, 1, 1, false⟩
/-- Every error source of the DEC page (R510). -/
def srcsDEC : List Src := [E.DEC.PACE, E.DEC.PATH_ECC]

/-! ## NSE page -/

/-- NSE.THR.T_BPSK [7:0] (R203). -/
def F.NSE.THR_T_BPSK : Fld := ⟨.NSE, 0x040, 1, 4, 0, 8, .rws, 24, [], false⟩
/-- NSE.THR.T_QPSK [15:8] (R203). -/
def F.NSE.THR_T_QPSK : Fld := ⟨.NSE, 0x040, 1, 4, 8, 8, .rws, 36, [], false⟩
/-- NSE.THR.T_16QAM [23:16] (R203). -/
def F.NSE.THR_T_16QAM : Fld := ⟨.NSE, 0x040, 1, 4, 16, 8, .rws, 60, [], false⟩
/-- NSE.OBS_CFG.MIN_OBS [7:0] (R203). -/
def F.NSE.OBS_CFG_MIN_OBS : Fld := ⟨.NSE, 0x044, 1, 4, 0, 8, .rws, 16, [], false⟩
/-- NSE.MAP_IDX.IDX [11:0] (R203). -/
def F.NSE.MAP_IDX_IDX : Fld := ⟨.NSE, 0x048, 1, 4, 0, 12, .rws, 0, [], false⟩
/-- NSE.MAP_LO.W [31:0] (R203). -/
def F.NSE.MAP_LO_W : Fld := ⟨.NSE, 0x04C, 1, 4, 0, 32, .rws, 0, [], false⟩
/-- NSE.MAP_HI.W [15:0] (R203). -/
def F.NSE.MAP_HI_W : Fld := ⟨.NSE, 0x050, 1, 4, 0, 16, .rws, 0, [], false⟩
/-- NSE.MAP_RD_IDX.IDX [11:0] (R203). -/
def F.NSE.MAP_RD_IDX_IDX : Fld := ⟨.NSE, 0x054, 1, 4, 0, 12, .rw, 0, [], false⟩
/-- NSE.MAP_RD_LO.W [31:0] (R203). -/
def F.NSE.MAP_RD_LO_W : Fld := ⟨.NSE, 0x058, 1, 4, 0, 32, .ro, 0, [], false⟩
/-- NSE.MAP_RD_HI.W [15:0] (R203). -/
def F.NSE.MAP_RD_HI_W : Fld := ⟨.NSE, 0x05C, 1, 4, 0, 16, .ro, 0, [], false⟩
/-- NSE.LAD_IDX.LADDER [5:0] (R203). -/
def F.NSE.LAD_IDX_LADDER : Fld := ⟨.NSE, 0x060, 1, 4, 0, 6, .rws, 0, [], false⟩
/-- NSE.LAD_IDX.RUNG [10:8] (R203). -/
def F.NSE.LAD_IDX_RUNG : Fld := ⟨.NSE, 0x060, 1, 4, 8, 3, .rws, 0, [], false⟩
/-- NSE.LAD_MAP.MAP [11:0] (R203). -/
def F.NSE.LAD_MAP_MAP : Fld := ⟨.NSE, 0x064, 1, 4, 0, 12, .rws, 0, [], false⟩
/-- NSE.CH_LAD_IDX.CH [8:0] (R203). -/
def F.NSE.CH_LAD_IDX_CH : Fld := ⟨.NSE, 0x068, 1, 4, 0, 9, .rws, 0, [], false⟩
/-- NSE.CH_LAD.LADDER [5:0] (R203). -/
def F.NSE.CH_LAD_LADDER : Fld := ⟨.NSE, 0x06C, 1, 4, 0, 6, .rws, 0, [], false⟩
/-- NSE.NF_SEL.CH [8:0] (R203). -/
def F.NSE.NF_SEL_CH : Fld := ⟨.NSE, 0x070, 1, 4, 0, 9, .rw, 0, [], false⟩
/-- NSE.NF_STAT.STALE [0:0] (R203). -/
def F.NSE.NF_STAT_STALE : Fld := ⟨.NSE, 0x074, 1, 4, 0, 1, .ro, 0, [], false⟩
/-- NSE.NF_STAT.SF [31:16] (R203). -/
def F.NSE.NF_STAT_SF : Fld := ⟨.NSE, 0x074, 1, 4, 16, 16, .ro, 0, [], false⟩
/-- NSE.NF_DATA.CODES [31:0] (R203). -/
def F.NSE.NF_DATA_CODES : Fld := ⟨.NSE, 0x080, 7, 4, 0, 32, .ro, 0, [], false⟩
/-- Fields of the NSE page, part 0. -/
def fieldsNSE0 : List Fld := [F.NSE.THR_T_BPSK, F.NSE.THR_T_QPSK, F.NSE.THR_T_16QAM, F.NSE.OBS_CFG_MIN_OBS, F.NSE.MAP_IDX_IDX, F.NSE.MAP_LO_W, F.NSE.MAP_HI_W, F.NSE.MAP_RD_IDX_IDX, F.NSE.MAP_RD_LO_W, F.NSE.MAP_RD_HI_W, F.NSE.LAD_IDX_LADDER, F.NSE.LAD_IDX_RUNG, F.NSE.LAD_MAP_MAP, F.NSE.CH_LAD_IDX_CH, F.NSE.CH_LAD_LADDER, F.NSE.NF_SEL_CH, F.NSE.NF_STAT_STALE, F.NSE.NF_STAT_SF, F.NSE.NF_DATA_CODES]
/-- Every block field of the NSE page. -/
def fieldsNSE : List Fld := fieldsNSE0
/-- Counter NSE.SF_MEASURED (R203). -/
def C.NSE.SF_MEASURED : Ctr := ⟨.NSE, 0x800, 1, false⟩
/-- Counter NSE.NO_FIT (R203). -/
def C.NSE.NO_FIT : Ctr := ⟨.NSE, 0x808, 1, false⟩
/-- Counter NSE.STALE_CH (R203). -/
def C.NSE.STALE_CH : Ctr := ⟨.NSE, 0x810, 1, false⟩
/-- Counters of the NSE page, part 0. -/
def ctrsNSE0 : List Ctr := [C.NSE.SF_MEASURED, C.NSE.NO_FIT, C.NSE.STALE_CH]
/-- Every counter of the NSE page. -/
def ctrsNSE : List Ctr := ctrsNSE0
/-- Error source NSE 0 MAP_PARITY, reset code 2 (R204). -/
def E.NSE.MAP_PARITY : Src := ⟨.NSE, 0, 2, false⟩
/-- Error source NSE 1 STALE, reset code 0 (R204). -/
def E.NSE.STALE : Src := ⟨.NSE, 1, 0, false⟩
/-- Every error source of the NSE page (R510). -/
def srcsNSE : List Src := [E.NSE.MAP_PARITY, E.NSE.STALE]

/-! ## TXB page -/

/-- TXB.OFDM_CFG.BOOST [0:0] (R224). -/
def F.TXB.OFDM_CFG_BOOST : Fld := ⟨.TXB, 0x040, 1, 4, 0, 1, .rws, 1, [], false⟩
/-- TXB.LEG_CFG.PRE_OCT [9:0] (R224). -/
def F.TXB.LEG_CFG_PRE_OCT : Fld := ⟨.TXB, 0x044, 1, 4, 0, 10, .rws, 8, [], false⟩
/-- TXB.LEG_CFG.FCS4 [16:16] (R224). -/
def F.TXB.LEG_CFG_FCS4 : Fld := ⟨.TXB, 0x044, 1, 4, 16, 1, .rws, 0, [], false⟩
/-- TXB.LEG_CFG.WHITEN [17:17] (R224). -/
def F.TXB.LEG_CFG_WHITEN : Fld := ⟨.TXB, 0x044, 1, 4, 17, 1, .rws, 0, [], false⟩
/-- TXB.LEG_CFG.SFD_SEL [18:18] (R224). -/
def F.TXB.LEG_CFG_SFD_SEL : Fld := ⟨.TXB, 0x044, 1, 4, 18, 1, .rws, 0, [], false⟩
/-- TXB.DUTY_CFG.COLD [0:0] (R224). -/
def F.TXB.DUTY_CFG_COLD : Fld := ⟨.TXB, 0x048, 1, 4, 0, 1, .rws, 0, [], false⟩
/-- TXB.DUTY_CFG.RSV [11:4] (R224). -/
def F.TXB.DUTY_CFG_RSV : Fld := ⟨.TXB, 0x048, 1, 4, 4, 8, .rws, 5, [], false⟩
/-- TXB.ASSIGN.CHAIN_EN [3:0] (R224). -/
def F.TXB.ASSIGN_CHAIN_EN : Fld := ⟨.TXB, 0x04C, 1, 4, 0, 4, .rws, 15, [], false⟩
/-- TXB.MASK_TRIP.MAX [3:0] (R224). -/
def F.TXB.MASK_TRIP_MAX : Fld := ⟨.TXB, 0x050, 1, 4, 0, 4, .rws, 3, [], false⟩
/-- TXB.HELD.CHAINS [3:0] (R224). -/
def F.TXB.HELD_CHAINS : Fld := ⟨.TXB, 0x054, 1, 4, 0, 4, .ro, 0, [], false⟩
/-- TXB.DUTY_USED.U [31:0] (R224). -/
def F.TXB.DUTY_USED_U : Fld := ⟨.TXB, 0x060, 8, 4, 0, 32, .ro, 0, [], false⟩
/-- TXB.DUTY_BUDGET.B [31:0] (R224). -/
def F.TXB.DUTY_BUDGET_B : Fld := ⟨.TXB, 0x080, 8, 4, 0, 32, .ro, 0, [], false⟩
/-- Fields of the TXB page, part 0. -/
def fieldsTXB0 : List Fld := [F.TXB.OFDM_CFG_BOOST, F.TXB.LEG_CFG_PRE_OCT, F.TXB.LEG_CFG_FCS4, F.TXB.LEG_CFG_WHITEN, F.TXB.LEG_CFG_SFD_SEL, F.TXB.DUTY_CFG_COLD, F.TXB.DUTY_CFG_RSV, F.TXB.ASSIGN_CHAIN_EN, F.TXB.MASK_TRIP_MAX, F.TXB.HELD_CHAINS, F.TXB.DUTY_USED_U, F.TXB.DUTY_BUDGET_B]
/-- Every block field of the TXB page. -/
def fieldsTXB : List Fld := fieldsTXB0
/-- Counter TXB.SENT (R224). -/
def C.TXB.SENT : Ctr := ⟨.TXB, 0x800, 5, false⟩
/-- Counter TXB.MAP_INVALID (R224). -/
def C.TXB.MAP_INVALID : Ctr := ⟨.TXB, 0x828, 1, false⟩
/-- Counter TXB.DUTY_REFUSED (R224). -/
def C.TXB.DUTY_REFUSED : Ctr := ⟨.TXB, 0x830, 1, false⟩
/-- Counter TXB.RSV_REFUSED (R224). -/
def C.TXB.RSV_REFUSED : Ctr := ⟨.TXB, 0x838, 1, false⟩
/-- Counter TXB.NO_CHAIN (R224). -/
def C.TXB.NO_CHAIN : Ctr := ⟨.TXB, 0x840, 1, false⟩
/-- Counter TXB.UNDERRUN (R224). -/
def C.TXB.UNDERRUN : Ctr := ⟨.TXB, 0x848, 1, false⟩
/-- Counter TXB.MOVED (R224). -/
def C.TXB.MOVED : Ctr := ⟨.TXB, 0x850, 1, false⟩
/-- Counters of the TXB page, part 0. -/
def ctrsTXB0 : List Ctr := [C.TXB.SENT, C.TXB.MAP_INVALID, C.TXB.DUTY_REFUSED, C.TXB.RSV_REFUSED, C.TXB.NO_CHAIN, C.TXB.UNDERRUN, C.TXB.MOVED]
/-- Every counter of the TXB page. -/
def ctrsTXB : List Ctr := ctrsTXB0
/-- Error source TXB 0 TX_UNDERRUN, reset code 1 (R225). -/
def E.TXB.TX_UNDERRUN : Src := ⟨.TXB, 0, 1, false⟩
/-- Error source TXB 1 PACE, reset code 1 (R225). -/
def E.TXB.PACE : Src := ⟨.TXB, 1, 1, false⟩
/-- Error source TXB 2 LEDGER_ECC, reset code 2 (R225). -/
def E.TXB.LEDGER_ECC : Src := ⟨.TXB, 2, 2, false⟩
/-- Every error source of the TXB page (R510). -/
def srcsTXB : List Src := [E.TXB.TX_UNDERRUN, E.TXB.PACE, E.TXB.LEDGER_ECC]

/-! ## WUC page -/

/-- WUC.CFG.PRE_BITS [6:0] (R224). -/
def F.WUC.CFG_PRE_BITS : Fld := ⟨.WUC, 0x040, 1, 4, 0, 7, .rws, 32, [], false⟩
/-- WUC.CFG.REPEAT [10:8] (R224). -/
def F.WUC.CFG_REPEAT : Fld := ⟨.WUC, 0x040, 1, 4, 8, 3, .rws, 1, [], false⟩
/-- WUC.CFG.EDGE [20:16] (R224). -/
def F.WUC.CFG_EDGE : Fld := ⟨.WUC, 0x040, 1, 4, 16, 5, .rws, 8, [], false⟩
/-- WUC.SYNC.SYNC [15:0] (R224). -/
def F.WUC.SYNC : Fld := ⟨.WUC, 0x044, 1, 4, 0, 16, .rws, 54161, [], false⟩
/-- WUC.CHAN.CH [8:0] (R224). -/
def F.WUC.CHAN_CH : Fld := ⟨.WUC, 0x048, 8, 4, 0, 9, .rws, 0, [], false⟩
/-- WUC.CHAN.EN [15:15] (R224). -/
def F.WUC.CHAN_EN : Fld := ⟨.WUC, 0x048, 8, 4, 15, 1, .rws, 0, [], false⟩
/-- Fields of the WUC page, part 0. -/
def fieldsWUC0 : List Fld := [F.WUC.CFG_PRE_BITS, F.WUC.CFG_REPEAT, F.WUC.CFG_EDGE, F.WUC.SYNC, F.WUC.CHAN_CH, F.WUC.CHAN_EN]
/-- Every block field of the WUC page. -/
def fieldsWUC : List Fld := fieldsWUC0
/-- Counter WUC.CALLS_SENT (R224). -/
def C.WUC.CALLS_SENT : Ctr := ⟨.WUC, 0x800, 1, false⟩
/-- Counter WUC.CALLS_REFUSED (R224). -/
def C.WUC.CALLS_REFUSED : Ctr := ⟨.WUC, 0x808, 1, false⟩
/-- Counters of the WUC page, part 0. -/
def ctrsWUC0 : List Ctr := [C.WUC.CALLS_SENT, C.WUC.CALLS_REFUSED]
/-- Every counter of the WUC page. -/
def ctrsWUC : List Ctr := ctrsWUC0
/-- Error source WUC 0 PACE, reset code 1 (R225). -/
def E.WUC.PACE : Src := ⟨.WUC, 0, 1, false⟩
/-- Every error source of the WUC page (R510). -/
def srcsWUC : List Src := [E.WUC.PACE]

/-! ## AMC page -/

/-- AMC.SF_CFG.SLOT [2:0] (R262). -/
def F.AMC.SF_CFG_SLOT : Fld := ⟨.AMC, 0x040, 1, 4, 0, 3, .rws, 2, [], false⟩
/-- AMC.SF_CFG.LEN [15:4] (R262). -/
def F.AMC.SF_CFG_LEN : Fld := ⟨.AMC, 0x040, 1, 4, 4, 12, .rws, 99, [], false⟩
/-- AMC.SF_CFG.ALIGN [17:16] (R262). -/
def F.AMC.SF_CFG_ALIGN : Fld := ⟨.AMC, 0x040, 1, 4, 16, 2, .rws, 0, [], false⟩
/-- AMC.SF_PHASE.US [31:0] (R262). -/
def F.AMC.SF_PHASE_US : Fld := ⟨.AMC, 0x044, 1, 4, 0, 32, .rws, 0, [], false⟩
/-- AMC.SLOT_TIME.UL_OFS [15:0] (R262). -/
def F.AMC.SLOT_TIME_UL_OFS : Fld := ⟨.AMC, 0x048, 1, 4, 0, 16, .rws, 500, [], false⟩
/-- AMC.SLOT_TIME.DL_OFS [31:16] (R262). -/
def F.AMC.SLOT_TIME_DL_OFS : Fld := ⟨.AMC, 0x048, 1, 4, 16, 16, .rws, 1000, [], false⟩
/-- AMC.REPLY_CFG.ACK_DELAY [15:0] (R262). -/
def F.AMC.REPLY_CFG_ACK_DELAY : Fld := ⟨.AMC, 0x04C, 1, 4, 0, 16, .rws, 1000, [], false⟩
/-- AMC.REPLY_CFG.RETRY [19:16] (R262). -/
def F.AMC.REPLY_CFG_RETRY : Fld := ⟨.AMC, 0x04C, 1, 4, 16, 4, .rws, 3, [], false⟩
/-- AMC.PWR.BCN [7:0] (R262). -/
def F.AMC.PWR_BCN : Fld := ⟨.AMC, 0x050, 1, 4, 0, 8, .rws, 120, [], false⟩
/-- AMC.PWR.DL [15:8] (R262). -/
def F.AMC.PWR_DL : Fld := ⟨.AMC, 0x050, 1, 4, 8, 8, .rws, 120, [], false⟩
/-- AMC.PWR.WUC [23:16] (R262). -/
def F.AMC.PWR_WUC : Fld := ⟨.AMC, 0x050, 1, 4, 16, 8, .rws, 120, [], false⟩
/-- AMC.BR_TAG.TAG [31:0] (R262). -/
def F.AMC.BR_TAG_TAG : Fld := ⟨.AMC, 0x054, 1, 4, 0, 32, .rws, 0, [], false⟩
/-- AMC.CONT_CFG.FIRST [11:0] (R262). -/
def F.AMC.CONT_CFG_FIRST : Fld := ⟨.AMC, 0x058, 1, 4, 0, 12, .rws, 0, [], false⟩
/-- AMC.CONT_CFG.COUNT [27:16] (R262). -/
def F.AMC.CONT_CFG_COUNT : Fld := ⟨.AMC, 0x058, 1, 4, 16, 12, .rws, 0, [], false⟩
/-- AMC.BCN_STAT.B [4:0] (R262). -/
def F.AMC.BCN_STAT_B : Fld := ⟨.AMC, 0x05C, 1, 4, 0, 5, .ro, 0, [], false⟩
/-- AMC.BCN_STAT.ROUNDS [11:8] (R262). -/
def F.AMC.BCN_STAT_ROUNDS : Fld := ⟨.AMC, 0x05C, 1, 4, 8, 4, .ro, 0, [], false⟩
/-- AMC.BCN_CH.CH [8:0] (R262). -/
def F.AMC.BCN_CH_CH : Fld := ⟨.AMC, 0x060, 8, 4, 0, 9, .rws, 0, [], false⟩
/-- AMC.BCN_CH.EN [15:15] (R262). -/
def F.AMC.BCN_CH_EN : Fld := ⟨.AMC, 0x060, 8, 4, 15, 1, .rws, 0, [], false⟩
/-- AMC.SF_NUM.NUM [31:0] (R262). -/
def F.AMC.SF_NUM_NUM : Fld := ⟨.AMC, 0x080, 1, 4, 0, 32, .ro, 0, [], false⟩
/-- AMC.DRIFT_CFG.GUARD [15:0] (R262). -/
def F.AMC.DRIFT_CFG_GUARD : Fld := ⟨.AMC, 0x084, 1, 4, 0, 16, .rws, 1000, [], false⟩
/-- AMC.DRIFT_CFG.MIN_DT [23:16] (R262). -/
def F.AMC.DRIFT_CFG_MIN_DT : Fld := ⟨.AMC, 0x084, 1, 4, 16, 8, .rws, 1, [], false⟩
/-- AMC.WAKE_CFG.LEAD [7:0] (R262). -/
def F.AMC.WAKE_CFG_LEAD : Fld := ⟨.AMC, 0x088, 1, 4, 0, 8, .rws, 2, [], false⟩
/-- AMC.WAKE_CFG.RESP [15:8] (R262). -/
def F.AMC.WAKE_CFG_RESP : Fld := ⟨.AMC, 0x088, 1, 4, 8, 8, .rws, 10, [], false⟩
/-- AMC.WAKE_CFG.CALLS [19:16] (R262). -/
def F.AMC.WAKE_CFG_CALLS : Fld := ⟨.AMC, 0x088, 1, 4, 16, 4, .rws, 3, [], false⟩
/-- AMC.NBR_CFG.HOLDOFF [15:0] (R262). -/
def F.AMC.NBR_CFG_HOLDOFF : Fld := ⟨.AMC, 0x08C, 1, 4, 0, 16, .rws, 16, [], false⟩
/-- AMC.NBR_CFG.SLEW [23:16] (R262). -/
def F.AMC.NBR_CFG_SLEW : Fld := ⟨.AMC, 0x08C, 1, 4, 16, 8, .rws, 20, [], false⟩
/-- AMC.PLAN_CFG.FILL [15:0] (R262). -/
def F.AMC.PLAN_CFG_FILL : Fld := ⟨.AMC, 0x090, 1, 4, 0, 16, .rws, 256, [], false⟩
/-- AMC.PLAN_STAT.N [19:0] (R262). -/
def F.AMC.PLAN_STAT_N : Fld := ⟨.AMC, 0x094, 1, 4, 0, 20, .ro, 0, [], false⟩
/-- AMC.NBR_SEL.IDX [4:0] (R262). -/
def F.AMC.NBR_SEL_IDX : Fld := ⟨.AMC, 0x098, 1, 4, 0, 5, .rw, 0, [], false⟩
/-- AMC.NBR_TAG.TAG [31:0] (R262). -/
def F.AMC.NBR_TAG_TAG : Fld := ⟨.AMC, 0x09C, 1, 4, 0, 32, .ro, 0, [], false⟩
/-- AMC.NBR_INFO.STATE [1:0] (R262). -/
def F.AMC.NBR_INFO_STATE : Fld := ⟨.AMC, 0x0A0, 1, 4, 0, 2, .ro, 0, [], false⟩
/-- AMC.NBR_INFO.ALIGNED [2:2] (R262). -/
def F.AMC.NBR_INFO_ALIGNED : Fld := ⟨.AMC, 0x0A0, 1, 4, 2, 1, .ro, 0, [], false⟩
/-- AMC.NBR_INFO.MISSED [7:4] (R262). -/
def F.AMC.NBR_INFO_MISSED : Fld := ⟨.AMC, 0x0A0, 1, 4, 4, 4, .ro, 0, [], false⟩
/-- AMC.NBR_INFO.SNR [15:8] (R262). -/
def F.AMC.NBR_INFO_SNR : Fld := ⟨.AMC, 0x0A0, 1, 4, 8, 8, .ro, 0, [], false⟩
/-- AMC.NBR_GEOM.SLOT [2:0] (R262). -/
def F.AMC.NBR_GEOM_SLOT : Fld := ⟨.AMC, 0x0A4, 1, 4, 0, 3, .ro, 0, [], false⟩
/-- AMC.NBR_GEOM.LEN [15:4] (R262). -/
def F.AMC.NBR_GEOM_LEN : Fld := ⟨.AMC, 0x0A4, 1, 4, 4, 12, .ro, 0, [], false⟩
/-- AMC.NBR_GEOM.BSLOTS [19:16] (R262). -/
def F.AMC.NBR_GEOM_BSLOTS : Fld := ⟨.AMC, 0x0A4, 1, 4, 16, 4, .ro, 0, [], false⟩
/-- AMC.NBR_OFS.OFS [31:0] (R262). -/
def F.AMC.NBR_OFS_OFS : Fld := ⟨.AMC, 0x0A8, 1, 4, 0, 32, .ro, 0, [], false⟩
/-- AMC.NBR_CH.CH [8:0] (R262). -/
def F.AMC.NBR_CH_CH : Fld := ⟨.AMC, 0x0AC, 8, 4, 0, 9, .ro, 0, [], false⟩
/-- AMC.NBR_CH.VALID [15:15] (R262). -/
def F.AMC.NBR_CH_VALID : Fld := ⟨.AMC, 0x0AC, 8, 4, 15, 1, .ro, 0, [], false⟩
/-- AMC.LEG_CFG.PERSIST [15:0] (R262). -/
def F.AMC.LEG_CFG_PERSIST : Fld := ⟨.AMC, 0x0D0, 1, 4, 0, 16, .rws, 7680, [], false⟩
/-- AMC.LEG_CFG.CLOSED [16:16] (R262). -/
def F.AMC.LEG_CFG_CLOSED : Fld := ⟨.AMC, 0x0D0, 1, 4, 16, 1, .rws, 0, [], false⟩
/-- AMC.LEG_STAT.N [15:0] (R262). -/
def F.AMC.LEG_STAT_N : Fld := ⟨.AMC, 0x0D4, 1, 4, 0, 16, .ro, 0, [], false⟩
/-- AMC.LEG_PAN.PAN_ID [15:0] (R262). -/
def F.AMC.LEG_PAN_PAN_ID : Fld := ⟨.AMC, 0x0E0, 8, 8, 0, 16, .rws, 0, [], false⟩
/-- AMC.LEG_PAN.TENANT [27:16] (R262). -/
def F.AMC.LEG_PAN_TENANT : Fld := ⟨.AMC, 0x0E0, 8, 8, 16, 12, .rws, 0, [], false⟩
/-- AMC.LEG_PAN.EN [31:31] (R262). -/
def F.AMC.LEG_PAN_EN : Fld := ⟨.AMC, 0x0E0, 8, 8, 31, 1, .rws, 0, [], false⟩
/-- AMC.LEG_GANG.LEADER [8:0] (R262). -/
def F.AMC.LEG_GANG_LEADER : Fld := ⟨.AMC, 0x0E4, 8, 8, 0, 9, .rws, 0, [], false⟩
/-- Fields of the AMC page, part 0. -/
def fieldsAMC0 : List Fld := [F.AMC.SF_CFG_SLOT, F.AMC.SF_CFG_LEN, F.AMC.SF_CFG_ALIGN, F.AMC.SF_PHASE_US, F.AMC.SLOT_TIME_UL_OFS, F.AMC.SLOT_TIME_DL_OFS, F.AMC.REPLY_CFG_ACK_DELAY, F.AMC.REPLY_CFG_RETRY, F.AMC.PWR_BCN, F.AMC.PWR_DL, F.AMC.PWR_WUC, F.AMC.BR_TAG_TAG, F.AMC.CONT_CFG_FIRST, F.AMC.CONT_CFG_COUNT, F.AMC.BCN_STAT_B, F.AMC.BCN_STAT_ROUNDS, F.AMC.BCN_CH_CH, F.AMC.BCN_CH_EN, F.AMC.SF_NUM_NUM, F.AMC.DRIFT_CFG_GUARD, F.AMC.DRIFT_CFG_MIN_DT, F.AMC.WAKE_CFG_LEAD, F.AMC.WAKE_CFG_RESP, F.AMC.WAKE_CFG_CALLS]
/-- Fields of the AMC page, part 1. -/
def fieldsAMC1 : List Fld := [F.AMC.NBR_CFG_HOLDOFF, F.AMC.NBR_CFG_SLEW, F.AMC.PLAN_CFG_FILL, F.AMC.PLAN_STAT_N, F.AMC.NBR_SEL_IDX, F.AMC.NBR_TAG_TAG, F.AMC.NBR_INFO_STATE, F.AMC.NBR_INFO_ALIGNED, F.AMC.NBR_INFO_MISSED, F.AMC.NBR_INFO_SNR, F.AMC.NBR_GEOM_SLOT, F.AMC.NBR_GEOM_LEN, F.AMC.NBR_GEOM_BSLOTS, F.AMC.NBR_OFS_OFS, F.AMC.NBR_CH_CH, F.AMC.NBR_CH_VALID, F.AMC.LEG_CFG_PERSIST, F.AMC.LEG_CFG_CLOSED, F.AMC.LEG_STAT_N, F.AMC.LEG_PAN_PAN_ID, F.AMC.LEG_PAN_TENANT, F.AMC.LEG_PAN_EN, F.AMC.LEG_GANG_LEADER]
/-- Every block field of the AMC page. -/
def fieldsAMC : List Fld := fieldsAMC0 ++ fieldsAMC1
/-- Counter AMC.BCN_SENT (R262). -/
def C.AMC.BCN_SENT : Ctr := ⟨.AMC, 0x800, 1, false⟩
/-- Counter AMC.BCN_MISS (R262). -/
def C.AMC.BCN_MISS : Ctr := ⟨.AMC, 0x808, 1, false⟩
/-- Counter AMC.BCN_CLASH (R262). -/
def C.AMC.BCN_CLASH : Ctr := ⟨.AMC, 0x810, 1, false⟩
/-- Counter AMC.UL_RX (R262). -/
def C.AMC.UL_RX : Ctr := ⟨.AMC, 0x818, 1, false⟩
/-- Counter AMC.OFF_PLAN (R262). -/
def C.AMC.OFF_PLAN : Ctr := ⟨.AMC, 0x820, 1, false⟩
/-- Counter AMC.CONT_RX (R262). -/
def C.AMC.CONT_RX : Ctr := ⟨.AMC, 0x828, 1, false⟩
/-- Counter AMC.FMT_DROP (R262). -/
def C.AMC.FMT_DROP : Ctr := ⟨.AMC, 0x830, 1, false⟩
/-- Counter AMC.FOREIGN (R262). -/
def C.AMC.FOREIGN : Ctr := ⟨.AMC, 0x838, 1, false⟩
/-- Counter AMC.REPLY_SENT (R262). -/
def C.AMC.REPLY_SENT : Ctr := ⟨.AMC, 0x840, 1, false⟩
/-- Counter AMC.NO_ROOM (R262). -/
def C.AMC.NO_ROOM : Ctr := ⟨.AMC, 0x848, 1, false⟩
/-- Counter AMC.DL_SENT (R262). -/
def C.AMC.DL_SENT : Ctr := ⟨.AMC, 0x850, 1, false⟩
/-- Counter AMC.DL_UNACK (R262). -/
def C.AMC.DL_UNACK : Ctr := ⟨.AMC, 0x858, 1, false⟩
/-- Counter AMC.DL_EXPIRED (R262). -/
def C.AMC.DL_EXPIRED : Ctr := ⟨.AMC, 0x860, 1, false⟩
/-- Counter AMC.DESYNC_SET (R262). -/
def C.AMC.DESYNC_SET : Ctr := ⟨.AMC, 0x868, 1, false⟩
/-- Counter AMC.WAKE_NORESP (R262). -/
def C.AMC.WAKE_NORESP : Ctr := ⟨.AMC, 0x870, 1, false⟩
/-- Counter AMC.PLAN_FULL (R262). -/
def C.AMC.PLAN_FULL : Ctr := ⟨.AMC, 0x878, 1, false⟩
/-- Counter AMC.NBR_LOST (R262). -/
def C.AMC.NBR_LOST : Ctr := ⟨.AMC, 0x880, 1, false⟩
/-- Counter AMC.NBR_FULL (R262). -/
def C.AMC.NBR_FULL : Ctr := ⟨.AMC, 0x888, 1, false⟩
/-- Counter AMC.LEG_ASSOC (R262). -/
def C.AMC.LEG_ASSOC : Ctr := ⟨.AMC, 0x890, 1, false⟩
/-- Counter AMC.LEG_REFUSED (R262). -/
def C.AMC.LEG_REFUSED : Ctr := ⟨.AMC, 0x898, 1, false⟩
/-- Counter AMC.LEG_EXPIRED (R262). -/
def C.AMC.LEG_EXPIRED : Ctr := ⟨.AMC, 0x8A0, 1, false⟩
/-- Counter AMC.REPHASE (R262). -/
def C.AMC.REPHASE : Ctr := ⟨.AMC, 0x8A8, 1, false⟩
/-- Counter AMC.ACK_NO_LISTEN (R262). -/
def C.AMC.ACK_NO_LISTEN : Ctr := ⟨.AMC, 0x8B0, 1, false⟩
/-- Counter AMC.OWNER_DOWN (R262). -/
def C.AMC.OWNER_DOWN : Ctr := ⟨.AMC, 0x8B8, 1, false⟩
/-- Counters of the AMC page, part 0. -/
def ctrsAMC0 : List Ctr := [C.AMC.BCN_SENT, C.AMC.BCN_MISS, C.AMC.BCN_CLASH, C.AMC.UL_RX, C.AMC.OFF_PLAN, C.AMC.CONT_RX, C.AMC.FMT_DROP, C.AMC.FOREIGN, C.AMC.REPLY_SENT, C.AMC.NO_ROOM, C.AMC.DL_SENT, C.AMC.DL_UNACK, C.AMC.DL_EXPIRED, C.AMC.DESYNC_SET, C.AMC.WAKE_NORESP, C.AMC.PLAN_FULL, C.AMC.NBR_LOST, C.AMC.NBR_FULL, C.AMC.LEG_ASSOC, C.AMC.LEG_REFUSED, C.AMC.LEG_EXPIRED, C.AMC.REPHASE, C.AMC.ACK_NO_LISTEN, C.AMC.OWNER_DOWN]
/-- Every counter of the AMC page. -/
def ctrsAMC : List Ctr := ctrsAMC0
/-- Error source AMC 0 PACE, reset code 1 (R263). -/
def E.AMC.PACE : Src := ⟨.AMC, 0, 1, false⟩
/-- Error source AMC 1 PLAN_ECC, reset code 2 (R263). -/
def E.AMC.PLAN_ECC : Src := ⟨.AMC, 1, 2, false⟩
/-- Error source AMC 2 BCN_MISS, reset code 1 (R263). -/
def E.AMC.BCN_MISS : Src := ⟨.AMC, 2, 1, false⟩
/-- Error source AMC 3 NBR_FULL, reset code 0 (R263). -/
def E.AMC.NBR_FULL : Src := ⟨.AMC, 3, 0, false⟩
/-- Error source AMC 4 REPHASE, reset code 0 (R263). -/
def E.AMC.REPHASE : Src := ⟨.AMC, 4, 0, false⟩
/-- Every error source of the AMC page (R510). -/
def srcsAMC : List Src := [E.AMC.PACE, E.AMC.PLAN_ECC, E.AMC.BCN_MISS, E.AMC.NBR_FULL, E.AMC.REPHASE]

/-! ## VLT page -/

/-- VLT.STAT.ROOTS [12:0] (R297). -/
def F.VLT.STAT_ROOTS : Fld := ⟨.VLT, 0x040, 1, 4, 0, 13, .ro, 0, [], false⟩
/-- VLT.STAT.GW [22:16] (R297). -/
def F.VLT.STAT_GW : Fld := ⟨.VLT, 0x040, 1, 4, 16, 7, .ro, 0, [], false⟩
/-- VLT.STAT.SVC [28:24] (R297). -/
def F.VLT.STAT_SVC : Fld := ⟨.VLT, 0x040, 1, 4, 24, 5, .ro, 0, [], false⟩
/-- VLT.BLOB_SEQ.SEQ [31:0] (R297). -/
def F.VLT.BLOB_SEQ_SEQ : Fld := ⟨.VLT, 0x044, 1, 4, 0, 32, .ro, 0, [], false⟩
/-- VLT.BLOB_STAT.LOADED [1:0] (R297). -/
def F.VLT.BLOB_STAT_LOADED : Fld := ⟨.VLT, 0x048, 1, 4, 0, 2, .ro, 0, [], false⟩
/-- VLT.BLOB_STAT.SLOT0 [3:2] (R297). -/
def F.VLT.BLOB_STAT_SLOT0 : Fld := ⟨.VLT, 0x048, 1, 4, 2, 2, .ro, 0, [], false⟩
/-- VLT.BLOB_STAT.SLOT1 [5:4] (R297). -/
def F.VLT.BLOB_STAT_SLOT1 : Fld := ⟨.VLT, 0x048, 1, 4, 4, 2, .ro, 0, [], false⟩
/-- VLT.BLOB_STAT.PERSIST_BUSY [8:8] (R297). -/
def F.VLT.BLOB_STAT_PERSIST_BUSY : Fld := ⟨.VLT, 0x048, 1, 4, 8, 1, .ro, 0, [], false⟩
/-- VLT.BLOB_STAT.ERASE_BUSY [9:9] (R297). -/
def F.VLT.BLOB_STAT_ERASE_BUSY : Fld := ⟨.VLT, 0x048, 1, 4, 9, 1, .ro, 0, [], false⟩
/-- VLT.MASK_CFG.PERIOD [7:0] (R297). -/
def F.VLT.MASK_CFG_PERIOD : Fld := ⟨.VLT, 0x04C, 1, 4, 0, 8, .rws, 20, [], false⟩
/-- VLT.MASK_STAT.GEN [0:0] (R297). -/
def F.VLT.MASK_STAT_GEN : Fld := ⟨.VLT, 0x050, 1, 4, 0, 1, .ro, 0, [], false⟩
/-- VLT.MASK_STAT.AGE [31:16] (R297). -/
def F.VLT.MASK_STAT_AGE : Fld := ⟨.VLT, 0x050, 1, 4, 16, 16, .ro, 0, [], false⟩
/-- VLT.EPOCH_CFG.AHEAD [6:0] (R297). -/
def F.VLT.EPOCH_CFG_AHEAD : Fld := ⟨.VLT, 0x054, 1, 4, 0, 7, .rws, 1, [], false⟩
/-- VLT.TAMPER_CFG.EN [0:0] (R297). -/
def F.VLT.TAMPER_CFG_EN : Fld := ⟨.VLT, 0x060, 7, 4, 0, 1, .rws, 1, [], false⟩
/-- VLT.TAMPER_CFG.LEVEL [2:1] (R297). -/
def F.VLT.TAMPER_CFG_LEVEL : Fld := ⟨.VLT, 0x060, 7, 4, 1, 2, .rws, 0, [1, 1, 1, 1, 0, 0, 0], false⟩
/-- VLT.TAMPER_CFG.FILTER [15:8] (R297). -/
def F.VLT.TAMPER_CFG_FILTER : Fld := ⟨.VLT, 0x060, 7, 4, 8, 8, .rws, 0, [10, 10, 10, 10, 1, 1, 1], false⟩
/-- VLT.TAMPER_STAT.ASSERTED [6:0] (R297). -/
def F.VLT.TAMPER_STAT_ASSERTED : Fld := ⟨.VLT, 0x080, 1, 4, 0, 7, .ro, 0, [], false⟩
/-- VLT.TAMPER_STAT.HOLD [8:8] (R297). -/
def F.VLT.TAMPER_STAT_HOLD : Fld := ⟨.VLT, 0x080, 1, 4, 8, 1, .ro, 0, [], false⟩
/-- VLT.TAMPER_STAT.LAST_SRC [14:12] (R297). -/
def F.VLT.TAMPER_STAT_LAST_SRC : Fld := ⟨.VLT, 0x080, 1, 4, 12, 3, .ro, 0, [], false⟩
/-- VLT.TAMPER_STAT.LAST_LEVEL [17:16] (R297). -/
def F.VLT.TAMPER_STAT_LAST_LEVEL : Fld := ⟨.VLT, 0x080, 1, 4, 16, 2, .ro, 0, [], false⟩
/-- VLT.TAMPER_LATCH.SRC [6:0] (R297). -/
def F.VLT.TAMPER_LATCH_SRC : Fld := ⟨.VLT, 0x084, 1, 4, 0, 7, .w1c, 0, [], false⟩
/-- VLT.TAMPER_TIME_LO.T [31:0] (R297). -/
def F.VLT.TAMPER_TIME_LO_T : Fld := ⟨.VLT, 0x088, 1, 4, 0, 32, .ro, 0, [], false⟩
/-- VLT.TAMPER_TIME_HI.T [31:0] (R297). -/
def F.VLT.TAMPER_TIME_HI_T : Fld := ⟨.VLT, 0x08C, 1, 4, 0, 32, .ro, 0, [], false⟩
/-- Fields of the VLT page, part 0. -/
def fieldsVLT0 : List Fld := [F.VLT.STAT_ROOTS, F.VLT.STAT_GW, F.VLT.STAT_SVC, F.VLT.BLOB_SEQ_SEQ, F.VLT.BLOB_STAT_LOADED, F.VLT.BLOB_STAT_SLOT0, F.VLT.BLOB_STAT_SLOT1, F.VLT.BLOB_STAT_PERSIST_BUSY, F.VLT.BLOB_STAT_ERASE_BUSY, F.VLT.MASK_CFG_PERIOD, F.VLT.MASK_STAT_GEN, F.VLT.MASK_STAT_AGE, F.VLT.EPOCH_CFG_AHEAD, F.VLT.TAMPER_CFG_EN, F.VLT.TAMPER_CFG_LEVEL, F.VLT.TAMPER_CFG_FILTER, F.VLT.TAMPER_STAT_ASSERTED, F.VLT.TAMPER_STAT_HOLD, F.VLT.TAMPER_STAT_LAST_SRC, F.VLT.TAMPER_STAT_LAST_LEVEL, F.VLT.TAMPER_LATCH_SRC, F.VLT.TAMPER_TIME_LO_T, F.VLT.TAMPER_TIME_HI_T]
/-- Every block field of the VLT page. -/
def fieldsVLT : List Fld := fieldsVLT0
/-- Counter VLT.TAMPER_EVENTS (R297). -/
def C.VLT.TAMPER_EVENTS : Ctr := ⟨.VLT, 0x800, 1, false⟩
/-- Counter VLT.REMASKS (R297). -/
def C.VLT.REMASKS : Ctr := ⟨.VLT, 0x808, 1, false⟩
/-- Counter VLT.IMPORTS (R297). -/
def C.VLT.IMPORTS : Ctr := ⟨.VLT, 0x810, 1, false⟩
/-- Counter VLT.UNWRAP_FAIL (R297). -/
def C.VLT.UNWRAP_FAIL : Ctr := ⟨.VLT, 0x818, 1, false⟩
/-- Counter VLT.PERSISTS (R297). -/
def C.VLT.PERSISTS : Ctr := ⟨.VLT, 0x820, 1, false⟩
/-- Counters of the VLT page, part 0. -/
def ctrsVLT0 : List Ctr := [C.VLT.TAMPER_EVENTS, C.VLT.REMASKS, C.VLT.IMPORTS, C.VLT.UNWRAP_FAIL, C.VLT.PERSISTS]
/-- Every counter of the VLT page. -/
def ctrsVLT : List Ctr := ctrsVLT0
/-- Error source VLT 0 TAMPER, reset code 5 (R298). -/
def E.VLT.TAMPER : Src := ⟨.VLT, 0, 5, false⟩
/-- Error source VLT 1 MASK_LATE, reset code 1 (R298). -/
def E.VLT.MASK_LATE : Src := ⟨.VLT, 1, 1, false⟩
/-- Error source VLT 2 BLOB_INVALID, reset code 1 (R298). -/
def E.VLT.BLOB_INVALID : Src := ⟨.VLT, 2, 1, false⟩
/-- Error source VLT 3 VAULT_ECC, reset code 2 (R298). -/
def E.VLT.VAULT_ECC : Src := ⟨.VLT, 3, 2, false⟩
/-- Every error source of the VLT page (R510). -/
def srcsVLT : List Src := [E.VLT.TAMPER, E.VLT.MASK_LATE, E.VLT.BLOB_INVALID, E.VLT.VAULT_ECC]

/-! ## CRY page -/

/-- CRY.STAT.ACTIVE [4:0] (R297). -/
def F.CRY.STAT_ACTIVE : Fld := ⟨.CRY, 0x040, 1, 4, 0, 5, .ro, 0, [], false⟩
/-- CRY.STAT.FAILED [12:8] (R297). -/
def F.CRY.STAT_FAILED : Fld := ⟨.CRY, 0x040, 1, 4, 8, 5, .ro, 0, [], false⟩
/-- CRY.WK.LOADED [0:0] (R297). -/
def F.CRY.WK_LOADED : Fld := ⟨.CRY, 0x044, 5, 4, 0, 1, .ro, 0, [], false⟩
/-- CRY.WK.ATTR [1:1] (R297). -/
def F.CRY.WK_ATTR : Fld := ⟨.CRY, 0x044, 5, 4, 1, 1, .ro, 0, [], false⟩
/-- CRY.WK.COUNT [17:2] (R297). -/
def F.CRY.WK_COUNT : Fld := ⟨.CRY, 0x044, 5, 4, 2, 16, .ro, 0, [], false⟩
/-- Fields of the CRY page, part 0. -/
def fieldsCRY0 : List Fld := [F.CRY.STAT_ACTIVE, F.CRY.STAT_FAILED, F.CRY.WK_LOADED, F.CRY.WK_ATTR, F.CRY.WK_COUNT]
/-- Every block field of the CRY page. -/
def fieldsCRY : List Fld := fieldsCRY0
/-- Counter CRY.DERIVED (R297). -/
def C.CRY.DERIVED : Ctr := ⟨.CRY, 0x800, 1, false⟩
/-- Counter CRY.VERIFY_OK (R297). -/
def C.CRY.VERIFY_OK : Ctr := ⟨.CRY, 0x808, 1, false⟩
/-- Counter CRY.MIC_FAIL (R297). -/
def C.CRY.MIC_FAIL : Ctr := ⟨.CRY, 0x810, 1, false⟩
/-- Counter CRY.REPLAY (R297). -/
def C.CRY.REPLAY : Ctr := ⟨.CRY, 0x818, 1, false⟩
/-- Counter CRY.EPOCH_REJECT (R297). -/
def C.CRY.EPOCH_REJECT : Ctr := ⟨.CRY, 0x820, 1, false⟩
/-- Counter CRY.NO_ROOT (R297). -/
def C.CRY.NO_ROOT : Ctr := ⟨.CRY, 0x828, 1, false⟩
/-- Counter CRY.ENCRYPTED (R297). -/
def C.CRY.ENCRYPTED : Ctr := ⟨.CRY, 0x830, 1, false⟩
/-- Counter CRY.DL_WRAP (R297). -/
def C.CRY.DL_WRAP : Ctr := ⟨.CRY, 0x838, 1, false⟩
/-- Counter CRY.COUNT_EXHAUSTED (R297). -/
def C.CRY.COUNT_EXHAUSTED : Ctr := ⟨.CRY, 0x840, 1, false⟩
/-- Counter CRY.TAMPER_ABORT (R297). -/
def C.CRY.TAMPER_ABORT : Ctr := ⟨.CRY, 0x848, 1, false⟩
/-- Counter CRY.SEC_DROP (R297). -/
def C.CRY.SEC_DROP : Ctr := ⟨.CRY, 0x850, 1, false⟩
/-- Counters of the CRY page, part 0. -/
def ctrsCRY0 : List Ctr := [C.CRY.DERIVED, C.CRY.VERIFY_OK, C.CRY.MIC_FAIL, C.CRY.REPLAY, C.CRY.EPOCH_REJECT, C.CRY.NO_ROOT, C.CRY.ENCRYPTED, C.CRY.DL_WRAP, C.CRY.COUNT_EXHAUSTED, C.CRY.TAMPER_ABORT, C.CRY.SEC_DROP]
/-- Every counter of the CRY page. -/
def ctrsCRY : List Ctr := ctrsCRY0
/-- Error source CRY 0 PACE, reset code 1 (R298). -/
def E.CRY.PACE : Src := ⟨.CRY, 0, 1, false⟩
/-- Error source CRY 1 WK_PARITY, reset code 2 (R298). -/
def E.CRY.WK_PARITY : Src := ⟨.CRY, 1, 2, false⟩
/-- Error source CRY 2 ROOT_PATH, reset code 2 (R298). -/
def E.CRY.ROOT_PATH : Src := ⟨.CRY, 2, 2, false⟩
/-- Every error source of the CRY page (R510). -/
def srcsCRY : List Src := [E.CRY.PACE, E.CRY.WK_PARITY, E.CRY.ROOT_PATH]

/-! ## NTB page -/

/-- NTB.SEED.SEED [31:0] (R335). -/
def F.NTB.SEED : Fld := ⟨.NTB, 0x040, 1, 4, 0, 32, .ro, 0, [], true⟩
/-- NTB.SEED_NEW.SEED [31:0] (R335). -/
def F.NTB.SEED_NEW_SEED : Fld := ⟨.NTB, 0x044, 1, 4, 0, 32, .ro, 0, [], true⟩
/-- NTB.AGE_CFG.TICK [15:0] (R335). -/
def F.NTB.AGE_CFG_TICK : Fld := ⟨.NTB, 0x048, 1, 4, 0, 16, .rws, 1000, [], true⟩
/-- NTB.AGE_CFG.LIMIT [31:16] (R335). -/
def F.NTB.AGE_CFG_LIMIT : Fld := ⟨.NTB, 0x048, 1, 4, 16, 16, .rws, 65535, [], true⟩
/-- NTB.AGE_NOW.N [31:0] (R335). -/
def F.NTB.AGE_NOW_N : Fld := ⟨.NTB, 0x04C, 1, 4, 0, 32, .ro, 0, [], true⟩
/-- NTB.COLD_BASE_LO.A [31:0] (R335). -/
def F.NTB.COLD_BASE_LO_A : Fld := ⟨.NTB, 0x050, 1, 4, 0, 32, .rws, 0, [], true⟩
/-- NTB.COLD_BASE_HI.A [31:0] (R335). -/
def F.NTB.COLD_BASE_HI_A : Fld := ⟨.NTB, 0x054, 1, 4, 0, 32, .rws, 0, [], true⟩
/-- NTB.COLD_CFG.SIZE_LOG2 [4:0] (R335). -/
def F.NTB.COLD_CFG_SIZE_LOG2 : Fld := ⟨.NTB, 0x058, 1, 4, 0, 5, .rws, 0, [], true⟩
/-- NTB.DETAIL_BASE_LO.A [31:0] (R335). -/
def F.NTB.DETAIL_BASE_LO_A : Fld := ⟨.NTB, 0x05C, 1, 4, 0, 32, .rws, 0, [], true⟩
/-- NTB.DETAIL_BASE_HI.A [31:0] (R335). -/
def F.NTB.DETAIL_BASE_HI_A : Fld := ⟨.NTB, 0x060, 1, 4, 0, 32, .rws, 0, [], true⟩
/-- NTB.STAT.RESIDENT [19:0] (R335). -/
def F.NTB.STAT_RESIDENT : Fld := ⟨.NTB, 0x064, 1, 4, 0, 20, .ro, 0, [], true⟩
/-- NTB.STAT.REQ [24:24] (R335). -/
def F.NTB.STAT_REQ : Fld := ⟨.NTB, 0x064, 1, 4, 24, 1, .ro, 0, [], true⟩
/-- NTB.STAT.REHASH [25:25] (R335). -/
def F.NTB.STAT_REHASH : Fld := ⟨.NTB, 0x064, 1, 4, 25, 1, .ro, 0, [], true⟩
/-- NTB.COLD_STAT.COLD [21:0] (R335). -/
def F.NTB.COLD_STAT_COLD : Fld := ⟨.NTB, 0x068, 1, 4, 0, 22, .ro, 0, [], true⟩
/-- NTB.COLD_STAT.OVF [31:22] (R335). -/
def F.NTB.COLD_STAT_OVF : Fld := ⟨.NTB, 0x068, 1, 4, 22, 10, .ro, 0, [], true⟩
/-- NTB.REHASH_POS.POS [17:0] (R335). -/
def F.NTB.REHASH_POS_POS : Fld := ⟨.NTB, 0x06C, 1, 4, 0, 18, .ro, 0, [], true⟩
/-- NTB.POP.N [20:0] (R335). -/
def F.NTB.POP_N : Fld := ⟨.NTB, 0x070, 1, 4, 0, 21, .ro, 0, [], true⟩
/-- NTB.REQ_CAUSE.CAUSE [1:0] (R335). -/
def F.NTB.REQ_CAUSE_CAUSE : Fld := ⟨.NTB, 0x074, 1, 4, 0, 2, .rc, 0, [], true⟩
/-- NTB.RELOC_GEN.GEN [31:0] (R335). -/
def F.NTB.RELOC_GEN_GEN : Fld := ⟨.NTB, 0x078, 1, 4, 0, 32, .ro, 0, [], true⟩
/-- NTB.BANK_STAT.USED [17:0] (R335). -/
def F.NTB.BANK_STAT_USED : Fld := ⟨.NTB, 0x080, 1, 4, 0, 18, .ro, 0, [], false⟩
/-- NTB.ROW_SPARE.FREE [8:0] (R335). -/
def F.NTB.ROW_SPARE_FREE : Fld := ⟨.NTB, 0x084, 1, 4, 0, 9, .ro, 288, [], false⟩
/-- Fields of the NTB page, part 0. -/
def fieldsNTB0 : List Fld := [F.NTB.SEED, F.NTB.SEED_NEW_SEED, F.NTB.AGE_CFG_TICK, F.NTB.AGE_CFG_LIMIT, F.NTB.AGE_NOW_N, F.NTB.COLD_BASE_LO_A, F.NTB.COLD_BASE_HI_A, F.NTB.COLD_CFG_SIZE_LOG2, F.NTB.DETAIL_BASE_LO_A, F.NTB.DETAIL_BASE_HI_A, F.NTB.STAT_RESIDENT, F.NTB.STAT_REQ, F.NTB.STAT_REHASH, F.NTB.COLD_STAT_COLD, F.NTB.COLD_STAT_OVF, F.NTB.REHASH_POS_POS, F.NTB.POP_N, F.NTB.REQ_CAUSE_CAUSE, F.NTB.RELOC_GEN_GEN, F.NTB.BANK_STAT_USED, F.NTB.ROW_SPARE_FREE]
/-- Every block field of the NTB page. -/
def fieldsNTB : List Fld := fieldsNTB0
/-- Counter NTB.LOOKUPS (R335). -/
def C.NTB.LOOKUPS : Ctr := ⟨.NTB, 0x800, 1, true⟩
/-- Counter NTB.HITS (R335). -/
def C.NTB.HITS : Ctr := ⟨.NTB, 0x808, 1, true⟩
/-- Counter NTB.RETRIES (R335). -/
def C.NTB.RETRIES : Ctr := ⟨.NTB, 0x810, 1, true⟩
/-- Counter NTB.INSERTS (R335). -/
def C.NTB.INSERTS : Ctr := ⟨.NTB, 0x818, 1, true⟩
/-- Counter NTB.RELOCS (R335). -/
def C.NTB.RELOCS : Ctr := ⟨.NTB, 0x820, 1, true⟩
/-- Counter NTB.INSERT_FAIL (R335). -/
def C.NTB.INSERT_FAIL : Ctr := ⟨.NTB, 0x828, 1, true⟩
/-- Counter NTB.AGED_OUT (R335). -/
def C.NTB.AGED_OUT : Ctr := ⟨.NTB, 0x830, 1, true⟩
/-- Counter NTB.AGE_CAS_LOST (R335). -/
def C.NTB.AGE_CAS_LOST : Ctr := ⟨.NTB, 0x838, 1, true⟩
/-- Counter NTB.COLD_HITS (R335). -/
def C.NTB.COLD_HITS : Ctr := ⟨.NTB, 0x840, 1, true⟩
/-- Counter NTB.COLD_MISS (R335). -/
def C.NTB.COLD_MISS : Ctr := ⟨.NTB, 0x848, 1, true⟩
/-- Counter NTB.COLD_EVICT (R335). -/
def C.NTB.COLD_EVICT : Ctr := ⟨.NTB, 0x850, 1, true⟩
/-- Counter NTB.PROMOTE (R335). -/
def C.NTB.PROMOTE : Ctr := ⟨.NTB, 0x858, 1, true⟩
/-- Counter NTB.POP_LIMIT (R335). -/
def C.NTB.POP_LIMIT : Ctr := ⟨.NTB, 0x860, 1, true⟩
/-- Counter NTB.SLOW_DROP (R335). -/
def C.NTB.SLOW_DROP : Ctr := ⟨.NTB, 0x868, 1, true⟩
/-- Counter NTB.PEND_FULL (R335). -/
def C.NTB.PEND_FULL : Ctr := ⟨.NTB, 0x870, 1, true⟩
/-- Counter NTB.COLD_FULL (R335). -/
def C.NTB.COLD_FULL : Ctr := ⟨.NTB, 0x878, 1, true⟩
/-- Counter NTB.ECC_CORR (R335). -/
def C.NTB.ECC_CORR : Ctr := ⟨.NTB, 0x900, 1, false⟩
/-- Counter NTB.ECC_UNCORR (R335). -/
def C.NTB.ECC_UNCORR : Ctr := ⟨.NTB, 0x908, 1, false⟩
/-- Counters of the NTB page, part 0. -/
def ctrsNTB0 : List Ctr := [C.NTB.LOOKUPS, C.NTB.HITS, C.NTB.RETRIES, C.NTB.INSERTS, C.NTB.RELOCS, C.NTB.INSERT_FAIL, C.NTB.AGED_OUT, C.NTB.AGE_CAS_LOST, C.NTB.COLD_HITS, C.NTB.COLD_MISS, C.NTB.COLD_EVICT, C.NTB.PROMOTE, C.NTB.POP_LIMIT, C.NTB.SLOW_DROP, C.NTB.PEND_FULL, C.NTB.COLD_FULL, C.NTB.ECC_CORR, C.NTB.ECC_UNCORR]
/-- Every counter of the NTB page. -/
def ctrsNTB : List Ctr := ctrsNTB0
/-- Error source NTB 0 PACE, reset code 1 (R336). -/
def E.NTB.PACE : Src := ⟨.NTB, 0, 1, true⟩
/-- Error source NTB 1 SLOT_ECC, reset code 1 (R336). -/
def E.NTB.SLOT_ECC : Src := ⟨.NTB, 1, 1, false⟩
/-- Error source NTB 2 DRAM_ECC, reset code 1 (R336). -/
def E.NTB.DRAM_ECC : Src := ⟨.NTB, 2, 1, true⟩
/-- Every error source of the NTB page (R510). -/
def srcsNTB : List Src := [E.NTB.PACE, E.NTB.SLOT_ECC, E.NTB.DRAM_ECC]

/-! ## FWD page -/

/-- FWD.SEED.SEED [31:0] (R335). -/
def F.FWD.SEED : Fld := ⟨.FWD, 0x040, 1, 4, 0, 32, .ro, 0, [], false⟩
/-- FWD.SEED_NEW.SEED [31:0] (R335). -/
def F.FWD.SEED_NEW_SEED : Fld := ⟨.FWD, 0x044, 1, 4, 0, 32, .ro, 0, [], false⟩
/-- FWD.AGE_CFG.TICK [15:0] (R335). -/
def F.FWD.AGE_CFG_TICK : Fld := ⟨.FWD, 0x048, 1, 4, 0, 16, .rws, 1000, [], false⟩
/-- FWD.AGE_CFG.LIMIT [31:16] (R335). -/
def F.FWD.AGE_CFG_LIMIT : Fld := ⟨.FWD, 0x048, 1, 4, 16, 16, .rws, 300, [], false⟩
/-- FWD.AGE_NOW.N [31:0] (R335). -/
def F.FWD.AGE_NOW_N : Fld := ⟨.FWD, 0x04C, 1, 4, 0, 32, .ro, 0, [], false⟩
/-- FWD.LEARN_MASK.PORTS [23:0] (R335). -/
def F.FWD.LEARN_MASK_PORTS : Fld := ⟨.FWD, 0x050, 1, 4, 0, 24, .rws, 16777215, [], false⟩
/-- FWD.FLOOD_MASK.PORTS [23:0] (R335). -/
def F.FWD.FLOOD_MASK_PORTS : Fld := ⟨.FWD, 0x054, 1, 4, 0, 24, .rws, 65535, [], false⟩
/-- FWD.CFG.MISS_HOST [0:0] (R335). -/
def F.FWD.CFG_MISS_HOST : Fld := ⟨.FWD, 0x058, 1, 4, 0, 1, .rws, 1, [], false⟩
/-- FWD.STAT.USED [16:0] (R335). -/
def F.FWD.STAT_USED : Fld := ⟨.FWD, 0x05C, 1, 4, 0, 17, .ro, 0, [], false⟩
/-- FWD.STAT.REQ [24:24] (R335). -/
def F.FWD.STAT_REQ : Fld := ⟨.FWD, 0x05C, 1, 4, 24, 1, .ro, 0, [], false⟩
/-- FWD.STAT.REHASH [25:25] (R335). -/
def F.FWD.STAT_REHASH : Fld := ⟨.FWD, 0x05C, 1, 4, 25, 1, .ro, 0, [], false⟩
/-- FWD.PLEN_LIST.LEN [7:0] (R335). -/
def F.FWD.PLEN_LIST_LEN : Fld := ⟨.FWD, 0x060, 8, 4, 0, 8, .ro, 0, [], false⟩
/-- FWD.PLEN_LIST.VALID [8:8] (R335). -/
def F.FWD.PLEN_LIST_VALID : Fld := ⟨.FWD, 0x060, 8, 4, 8, 1, .ro, 0, [], false⟩
/-- Fields of the FWD page, part 0. -/
def fieldsFWD0 : List Fld := [F.FWD.SEED, F.FWD.SEED_NEW_SEED, F.FWD.AGE_CFG_TICK, F.FWD.AGE_CFG_LIMIT, F.FWD.AGE_NOW_N, F.FWD.LEARN_MASK_PORTS, F.FWD.FLOOD_MASK_PORTS, F.FWD.CFG_MISS_HOST, F.FWD.STAT_USED, F.FWD.STAT_REQ, F.FWD.STAT_REHASH, F.FWD.PLEN_LIST_LEN, F.FWD.PLEN_LIST_VALID]
/-- Every block field of the FWD page. -/
def fieldsFWD : List Fld := fieldsFWD0
/-- Counter FWD.LOOKUPS (R335). -/
def C.FWD.LOOKUPS : Ctr := ⟨.FWD, 0x800, 1, false⟩
/-- Counter FWD.HITS (R335). -/
def C.FWD.HITS : Ctr := ⟨.FWD, 0x808, 1, false⟩
/-- Counter FWD.FLOODED (R335). -/
def C.FWD.FLOODED : Ctr := ⟨.FWD, 0x810, 1, false⟩
/-- Counter FWD.MISS_HOST (R335). -/
def C.FWD.MISS_HOST : Ctr := ⟨.FWD, 0x818, 1, false⟩
/-- Counter FWD.MISS_DROP (R335). -/
def C.FWD.MISS_DROP : Ctr := ⟨.FWD, 0x820, 1, false⟩
/-- Counter FWD.DEV_MISS (R335). -/
def C.FWD.DEV_MISS : Ctr := ⟨.FWD, 0x828, 1, false⟩
/-- Counter FWD.LEARNED (R335). -/
def C.FWD.LEARNED : Ctr := ⟨.FWD, 0x830, 1, false⟩
/-- Counter FWD.MOVES (R335). -/
def C.FWD.MOVES : Ctr := ⟨.FWD, 0x838, 1, false⟩
/-- Counter FWD.LEARN_FAIL (R335). -/
def C.FWD.LEARN_FAIL : Ctr := ⟨.FWD, 0x840, 1, false⟩
/-- Counter FWD.AGED (R335). -/
def C.FWD.AGED : Ctr := ⟨.FWD, 0x848, 1, false⟩
/-- Counter FWD.RETRIES (R335). -/
def C.FWD.RETRIES : Ctr := ⟨.FWD, 0x850, 1, false⟩
/-- Counters of the FWD page, part 0. -/
def ctrsFWD0 : List Ctr := [C.FWD.LOOKUPS, C.FWD.HITS, C.FWD.FLOODED, C.FWD.MISS_HOST, C.FWD.MISS_DROP, C.FWD.DEV_MISS, C.FWD.LEARNED, C.FWD.MOVES, C.FWD.LEARN_FAIL, C.FWD.AGED, C.FWD.RETRIES]
/-- Every counter of the FWD page. -/
def ctrsFWD : List Ctr := ctrsFWD0
/-- Error source FWD 0 PACE, reset code 1 (R336). -/
def E.FWD.PACE : Src := ⟨.FWD, 0, 1, false⟩
/-- Error source FWD 1 ENTRY_ECC, reset code 1 (R336). -/
def E.FWD.ENTRY_ECC : Src := ⟨.FWD, 1, 1, false⟩
/-- Every error source of the FWD page (R510). -/
def srcsFWD : List Src := [E.FWD.PACE, E.FWD.ENTRY_ECC]

/-! ## SRC page -/

/-- SRC.PREFIX_HI.P [31:0] (R335). -/
def F.SRC.PREFIX_HI_P : Fld := ⟨.SRC, 0x040, 1, 4, 0, 32, .rws, 0, [], false⟩
/-- SRC.PREFIX_LO.P [31:0] (R335). -/
def F.SRC.PREFIX_LO_P : Fld := ⟨.SRC, 0x044, 1, 4, 0, 32, .rws, 0, [], false⟩
/-- SRC.RPL_CFG.INST [7:0] (R335). -/
def F.SRC.RPL_CFG_INST : Fld := ⟨.SRC, 0x048, 1, 4, 0, 8, .rws, 0, [], false⟩
/-- SRC.RPL_CFG.VERSION [15:8] (R335). -/
def F.SRC.RPL_CFG_VERSION : Fld := ⟨.SRC, 0x048, 1, 4, 8, 8, .rws, 0, [], false⟩
/-- SRC.RPL_CFG.DTSN [23:16] (R335). -/
def F.SRC.RPL_CFG_DTSN : Fld := ⟨.SRC, 0x048, 1, 4, 16, 8, .rws, 0, [], false⟩
/-- SRC.RPL_CFG.LUNIT [31:24] (R335). -/
def F.SRC.RPL_CFG_LUNIT : Fld := ⟨.SRC, 0x048, 1, 4, 24, 8, .rws, 60, [], false⟩
/-- SRC.RANK.MIN_HOP_RANK [15:0] (R335). -/
def F.SRC.RANK_MIN_HOP_RANK : Fld := ⟨.SRC, 0x04C, 1, 4, 0, 16, .rws, 256, [], false⟩
/-- SRC.BLD_CFG.MAX_H [3:0] (R335). -/
def F.SRC.BLD_CFG_MAX_H : Fld := ⟨.SRC, 0x050, 1, 4, 0, 4, .rws, 12, [], false⟩
/-- SRC.STAT.PVALID_N [19:0] (R335). -/
def F.SRC.STAT_PVALID_N : Fld := ⟨.SRC, 0x054, 1, 4, 0, 20, .ro, 0, [], false⟩
/-- Fields of the SRC page, part 0. -/
def fieldsSRC0 : List Fld := [F.SRC.PREFIX_HI_P, F.SRC.PREFIX_LO_P, F.SRC.RPL_CFG_INST, F.SRC.RPL_CFG_VERSION, F.SRC.RPL_CFG_DTSN, F.SRC.RPL_CFG_LUNIT, F.SRC.RANK_MIN_HOP_RANK, F.SRC.BLD_CFG_MAX_H, F.SRC.STAT_PVALID_N]
/-- Every block field of the SRC page. -/
def fieldsSRC : List Fld := fieldsSRC0
/-- Counter SRC.BUILT (R335). -/
def C.SRC.BUILT : Ctr := ⟨.SRC, 0x800, 1, false⟩
/-- Counter SRC.NO_NODE (R335). -/
def C.SRC.NO_NODE : Ctr := ⟨.SRC, 0x808, 1, false⟩
/-- Counter SRC.NO_ROUTE (R335). -/
def C.SRC.NO_ROUTE : Ctr := ⟨.SRC, 0x810, 1, false⟩
/-- Counter SRC.PARENT_MISS (R335). -/
def C.SRC.PARENT_MISS : Ctr := ⟨.SRC, 0x818, 1, false⟩
/-- Counter SRC.TOO_DEEP (R335). -/
def C.SRC.TOO_DEEP : Ctr := ⟨.SRC, 0x820, 1, false⟩
/-- Counter SRC.DAO_RX (R335). -/
def C.SRC.DAO_RX : Ctr := ⟨.SRC, 0x828, 1, false⟩
/-- Counter SRC.DAO_STALE (R335). -/
def C.SRC.DAO_STALE : Ctr := ⟨.SRC, 0x830, 1, false⟩
/-- Counter SRC.DAO_BAD (R335). -/
def C.SRC.DAO_BAD : Ctr := ⟨.SRC, 0x838, 1, false⟩
/-- Counter SRC.DIS_RX (R335). -/
def C.SRC.DIS_RX : Ctr := ⟨.SRC, 0x840, 1, false⟩
/-- Counter SRC.DIO_TX (R335). -/
def C.SRC.DIO_TX : Ctr := ⟨.SRC, 0x848, 1, false⟩
/-- Counter SRC.DAO_ACK_TX (R335). -/
def C.SRC.DAO_ACK_TX : Ctr := ⟨.SRC, 0x850, 1, false⟩
/-- Counters of the SRC page, part 0. -/
def ctrsSRC0 : List Ctr := [C.SRC.BUILT, C.SRC.NO_NODE, C.SRC.NO_ROUTE, C.SRC.PARENT_MISS, C.SRC.TOO_DEEP, C.SRC.DAO_RX, C.SRC.DAO_STALE, C.SRC.DAO_BAD, C.SRC.DIS_RX, C.SRC.DIO_TX, C.SRC.DAO_ACK_TX]
/-- Every counter of the SRC page. -/
def ctrsSRC : List Ctr := ctrsSRC0
/-- Error source SRC 0 PACE, reset code 1 (R336). -/
def E.SRC.PACE : Src := ⟨.SRC, 0, 1, false⟩
/-- Error source SRC 1 ROUTE_ECC, reset code 1 (R336). -/
def E.SRC.ROUTE_ECC : Src := ⟨.SRC, 1, 1, false⟩
/-- Every error source of the SRC page (R510). -/
def srcsSRC : List Src := [E.SRC.PACE, E.SRC.ROUTE_ECC]

/-! ## ING page -/

/-- ING.SEQ_LO.SEQ [31:0] (R365). -/
def F.ING.SEQ_LO_SEQ : Fld := ⟨.ING, 0x040, 1, 4, 0, 32, .ro, 0, [], false⟩
/-- ING.SEQ_HI.SEQ [31:0] (R365). -/
def F.ING.SEQ_HI_SEQ : Fld := ⟨.ING, 0x044, 1, 4, 0, 32, .ro, 0, [], false⟩
/-- ING.ARB.AIR [3:0] (R365). -/
def F.ING.ARB_AIR : Fld := ⟨.ING, 0x048, 1, 4, 0, 4, .rws, 4, [], false⟩
/-- ING.ARB.WIRED [7:4] (R365). -/
def F.ING.ARB_WIRED : Fld := ⟨.ING, 0x048, 1, 4, 4, 4, .rws, 4, [], false⟩
/-- ING.ARB.HOST [11:8] (R365). -/
def F.ING.ARB_HOST : Fld := ⟨.ING, 0x048, 1, 4, 8, 4, .rws, 1, [], false⟩
/-- ING.ARB.XFER [15:12] (R365). -/
def F.ING.ARB_XFER : Fld := ⟨.ING, 0x048, 1, 4, 12, 4, .rws, 1, [], false⟩
/-- ING.ARB.INTERNAL [19:16] (R365). -/
def F.ING.ARB_INTERNAL : Fld := ⟨.ING, 0x048, 1, 4, 16, 4, .rws, 1, [], false⟩
/-- ING.IN_STAT.LANES [5:0] (R365). -/
def F.ING.IN_STAT_LANES : Fld := ⟨.ING, 0x04C, 1, 4, 0, 6, .ro, 0, [], false⟩
/-- ING.CRY_RSV.FREE [4:0] (R365). -/
def F.ING.CRY_RSV_FREE : Fld := ⟨.ING, 0x050, 1, 4, 0, 5, .ro, 16, [], false⟩
/-- ING.CRY_RSV.TOTAL [12:8] (R365). -/
def F.ING.CRY_RSV_TOTAL : Fld := ⟨.ING, 0x050, 1, 4, 8, 5, .ro, 16, [], false⟩
/-- ING.JOURNAL.EN [0:0] (R365). -/
def F.ING.JOURNAL_EN : Fld := ⟨.ING, 0x054, 1, 4, 0, 1, .rws, 0, [], false⟩
/-- ING.BUF_RSV.CELLS [15:0] (R365). -/
def F.ING.BUF_RSV_CELLS : Fld := ⟨.ING, 0x060, 5, 4, 0, 16, .rws, 2048, [], false⟩
/-- ING.BUF_STAT.FREE [15:0] (R365). -/
def F.ING.BUF_STAT_FREE : Fld := ⟨.ING, 0x074, 1, 4, 0, 16, .ro, 32768, [], false⟩
/-- ING.LOWPAN_CFG.REASM [15:0] (R365). -/
def F.ING.LOWPAN_CFG_REASM : Fld := ⟨.ING, 0x078, 1, 4, 0, 16, .rws, 5000, [], false⟩
/-- ING.LOWPAN_CFG.DL_MAX [25:16] (R365). -/
def F.ING.LOWPAN_CFG_DL_MAX : Fld := ⟨.ING, 0x078, 1, 4, 16, 10, .rws, 255, [], false⟩
/-- ING.LOWPAN_STAT.N [9:0] (R365). -/
def F.ING.LOWPAN_STAT_N : Fld := ⟨.ING, 0x07C, 1, 4, 0, 10, .ro, 0, [], false⟩
/-- ING.PLAY_TBL.PLAY [1:0] (R365). -/
def F.ING.PLAY_TBL_PLAY : Fld := ⟨.ING, 0x080, 64, 4, 0, 2, .rws, 0, [1, 1, 1, 1, 1, 1, 1, 1, 1, 1, 1, 1, 1, 1, 1, 1, 1, 1, 1, 1, 1, 1, 1, 1, 1, 1, 1, 1, 0, 0, 0, 0, 1, 2, 1, 0, 0, 0, 0, 0, 0, 0, 0, 0, 0, 0, 0, 0, 0, 0, 0, 0, 0, 0, 0, 0, 0, 0, 0, 0, 0, 0, 0, 0], false⟩
/-- ING.PLAY_TBL.CLASS [6:4] (R365). -/
def F.ING.PLAY_TBL_CLASS : Fld := ⟨.ING, 0x080, 64, 4, 4, 3, .rws, 0, [], false⟩
/-- ING.PLAY_TBL.CLS_EN [7:7] (R365). -/
def F.ING.PLAY_TBL_CLS_EN : Fld := ⟨.ING, 0x080, 64, 4, 7, 1, .rws, 0, [], false⟩
/-- ING.PLAY_TBL.MIRROR [8:8] (R365). -/
def F.ING.PLAY_TBL_MIRROR : Fld := ⟨.ING, 0x080, 64, 4, 8, 1, .rws, 0, [], false⟩
/-- ING.TEN_IDX.IDX [11:0] (R365). -/
def F.ING.TEN_IDX_IDX : Fld := ⟨.ING, 0x180, 1, 4, 0, 12, .rws, 0, [], false⟩
/-- ING.TEN_DATA.EN [0:0] (R365). -/
def F.ING.TEN_DATA_EN : Fld := ⟨.ING, 0x184, 1, 4, 0, 1, .rws, 1, [], false⟩
/-- ING.TEN_DATA.MICL_MIN [2:1] (R365). -/
def F.ING.TEN_DATA_MICL_MIN : Fld := ⟨.ING, 0x184, 1, 4, 1, 2, .rws, 0, [], false⟩
/-- ING.TEN_DATA.CLASS [6:4] (R365). -/
def F.ING.TEN_DATA_CLASS : Fld := ⟨.ING, 0x184, 1, 4, 4, 3, .rws, 0, [], false⟩
/-- ING.TEN_DATA.SUB [27:16] (R365). -/
def F.ING.TEN_DATA_SUB : Fld := ⟨.ING, 0x184, 1, 4, 16, 12, .rws, 0, [], false⟩
/-- ING.TEN_RD_IDX.IDX [11:0] (R365). -/
def F.ING.TEN_RD_IDX_IDX : Fld := ⟨.ING, 0x188, 1, 4, 0, 12, .rw, 0, [], false⟩
/-- ING.TEN_RD.D [31:0] (R365). -/
def F.ING.TEN_RD_D : Fld := ⟨.ING, 0x18C, 1, 4, 0, 32, .ro, 1, [], false⟩
/-- Fields of the ING page, part 0. -/
def fieldsING0 : List Fld := [F.ING.SEQ_LO_SEQ, F.ING.SEQ_HI_SEQ, F.ING.ARB_AIR, F.ING.ARB_WIRED, F.ING.ARB_HOST, F.ING.ARB_XFER, F.ING.ARB_INTERNAL, F.ING.IN_STAT_LANES, F.ING.CRY_RSV_FREE, F.ING.CRY_RSV_TOTAL, F.ING.JOURNAL_EN, F.ING.BUF_RSV_CELLS, F.ING.BUF_STAT_FREE, F.ING.LOWPAN_CFG_REASM, F.ING.LOWPAN_CFG_DL_MAX, F.ING.LOWPAN_STAT_N, F.ING.PLAY_TBL_PLAY, F.ING.PLAY_TBL_CLASS, F.ING.PLAY_TBL_CLS_EN, F.ING.PLAY_TBL_MIRROR, F.ING.TEN_IDX_IDX, F.ING.TEN_DATA_EN, F.ING.TEN_DATA_MICL_MIN, F.ING.TEN_DATA_CLASS]
/-- Fields of the ING page, part 1. -/
def fieldsING1 : List Fld := [F.ING.TEN_DATA_SUB, F.ING.TEN_RD_IDX_IDX, F.ING.TEN_RD_D]
/-- Every block field of the ING page. -/
def fieldsING : List Fld := fieldsING0 ++ fieldsING1
/-- Counter ING.EVENTS (R365). -/
def C.ING.EVENTS : Ctr := ⟨.ING, 0x800, 16, false⟩
/-- Counter ING.DROP_AIR (R365). -/
def C.ING.DROP_AIR : Ctr := ⟨.ING, 0x880, 1, false⟩
/-- Counter ING.DROP_WIRED (R365). -/
def C.ING.DROP_WIRED : Ctr := ⟨.ING, 0x888, 1, false⟩
/-- Counter ING.DROP_XFER (R365). -/
def C.ING.DROP_XFER : Ctr := ⟨.ING, 0x890, 1, false⟩
/-- Counter ING.CRY_FULL (R365). -/
def C.ING.CRY_FULL : Ctr := ⟨.ING, 0x898, 1, false⟩
/-- Counter ING.BUF_DROP (R365). -/
def C.ING.BUF_DROP : Ctr := ⟨.ING, 0x8A0, 5, false⟩
/-- Counter ING.LOWPAN_BAD (R365). -/
def C.ING.LOWPAN_BAD : Ctr := ⟨.ING, 0x8C8, 1, false⟩
/-- Counter ING.REASM_TIMEOUT (R365). -/
def C.ING.REASM_TIMEOUT : Ctr := ⟨.ING, 0x8D0, 1, false⟩
/-- Counter ING.REASM_FULL (R365). -/
def C.ING.REASM_FULL : Ctr := ⟨.ING, 0x8D8, 1, false⟩
/-- Counter ING.FRAG_TX (R365). -/
def C.ING.FRAG_TX : Ctr := ⟨.ING, 0x8E0, 1, false⟩
/-- Counter ING.TEN_DROP (R365). -/
def C.ING.TEN_DROP : Ctr := ⟨.ING, 0x8E8, 1, false⟩
/-- Counter ING.HOP_LIMIT (R365). -/
def C.ING.HOP_LIMIT : Ctr := ⟨.ING, 0x8F0, 1, false⟩
/-- Counters of the ING page, part 0. -/
def ctrsING0 : List Ctr := [C.ING.EVENTS, C.ING.DROP_AIR, C.ING.DROP_WIRED, C.ING.DROP_XFER, C.ING.CRY_FULL, C.ING.BUF_DROP, C.ING.LOWPAN_BAD, C.ING.REASM_TIMEOUT, C.ING.REASM_FULL, C.ING.FRAG_TX, C.ING.TEN_DROP, C.ING.HOP_LIMIT]
/-- Every counter of the ING page. -/
def ctrsING : List Ctr := ctrsING0
/-- Error source ING 0 PACE, reset code 1 (R366). -/
def E.ING.PACE : Src := ⟨.ING, 0, 1, false⟩
/-- Error source ING 1 SEQ_PARITY, reset code 4 (R366). -/
def E.ING.SEQ_PARITY : Src := ⟨.ING, 1, 4, false⟩
/-- Error source ING 2 BUF_ECC, reset code 1 (R366). -/
def E.ING.BUF_ECC : Src := ⟨.ING, 2, 1, false⟩
/-- Every error source of the ING page (R510). -/
def srcsING : List Src := [E.ING.PACE, E.ING.SEQ_PARITY, E.ING.BUF_ECC]

/-! ## PLY page -/

/-- PLY.STAT.ACTIVE [7:0] (R365). -/
def F.PLY.STAT_ACTIVE : Fld := ⟨.PLY, 0x040, 1, 4, 0, 8, .ro, 0, [], false⟩
/-- PLY.STAT.SPARE [8:8] (R365). -/
def F.PLY.STAT_SPARE : Fld := ⟨.PLY, 0x040, 1, 4, 8, 1, .ro, 0, [], false⟩
/-- PLY.STAT.BUSY [23:16] (R365). -/
def F.PLY.STAT_BUSY : Fld := ⟨.PLY, 0x040, 1, 4, 16, 8, .ro, 0, [], false⟩
/-- PLY.WD.LIMIT [15:0] (R365). -/
def F.PLY.WD_LIMIT : Fld := ⟨.PLY, 0x044, 1, 4, 0, 16, .rws, 8000, [], false⟩
/-- PLY.ABORT_LAST.ENGINE [2:0] (R365). -/
def F.PLY.ABORT_LAST_ENGINE : Fld := ⟨.PLY, 0x048, 1, 4, 0, 3, .ro, 0, [], false⟩
/-- PLY.ABORT_LAST.PLAY [11:4] (R365). -/
def F.PLY.ABORT_LAST_PLAY : Fld := ⟨.PLY, 0x048, 1, 4, 4, 8, .ro, 0, [], false⟩
/-- PLY.ABORT_LAST.CAUSE [15:12] (R365). -/
def F.PLY.ABORT_LAST_CAUSE : Fld := ⟨.PLY, 0x048, 1, 4, 12, 4, .ro, 0, [], false⟩
/-- PLY.PS_CFG.EN [0:0] (R554). -/
def F.PLY.PS_CFG_EN : Fld := ⟨.PLY, 0x100, 1, 4, 0, 1, .rws, 0, [], true⟩
/-- PLY.PS_CFG.WRAP [1:1] (R554). -/
def F.PLY.PS_CFG_WRAP : Fld := ⟨.PLY, 0x100, 1, 4, 1, 1, .rws, 0, [], true⟩
/-- PLY.PS_CFG.N [12:8] (R554). -/
def F.PLY.PS_CFG_N : Fld := ⟨.PLY, 0x100, 1, 4, 8, 5, .rws, 10, [], true⟩
/-- PLY.PS_STAT.COUNT [12:0] (R554). -/
def F.PLY.PS_STAT_COUNT : Fld := ⟨.PLY, 0x104, 1, 4, 0, 13, .ro, 0, [], true⟩
/-- PLY.PS_STAT.FULL [16:16] (R554). -/
def F.PLY.PS_STAT_FULL : Fld := ⟨.PLY, 0x104, 1, 4, 16, 1, .ro, 0, [], true⟩
/-- Fields of the PLY page, part 0. -/
def fieldsPLY0 : List Fld := [F.PLY.STAT_ACTIVE, F.PLY.STAT_SPARE, F.PLY.STAT_BUSY, F.PLY.WD_LIMIT, F.PLY.ABORT_LAST_ENGINE, F.PLY.ABORT_LAST_PLAY, F.PLY.ABORT_LAST_CAUSE, F.PLY.PS_CFG_EN, F.PLY.PS_CFG_WRAP, F.PLY.PS_CFG_N, F.PLY.PS_STAT_COUNT, F.PLY.PS_STAT_FULL]
/-- Every block field of the PLY page. -/
def fieldsPLY : List Fld := fieldsPLY0
/-- Counter PLY.EVENTS (R365). -/
def C.PLY.EVENTS : Ctr := ⟨.PLY, 0x800, 1, false⟩
/-- Counter PLY.STEPS (R365). -/
def C.PLY.STEPS : Ctr := ⟨.PLY, 0x808, 1, false⟩
/-- Counter PLY.ABORTS (R365). -/
def C.PLY.ABORTS : Ctr := ⟨.PLY, 0x810, 1, false⟩
/-- Counter PLY.WD_EXPIRED (R365). -/
def C.PLY.WD_EXPIRED : Ctr := ⟨.PLY, 0x818, 1, false⟩
/-- Counter PLY.PS_RECORDS (R554). -/
def C.PLY.PS_RECORDS : Ctr := ⟨.PLY, 0x820, 1, true⟩
/-- Counter PLY.PS_LOST (R554). -/
def C.PLY.PS_LOST : Ctr := ⟨.PLY, 0x828, 1, true⟩
/-- Counters of the PLY page, part 0. -/
def ctrsPLY0 : List Ctr := [C.PLY.EVENTS, C.PLY.STEPS, C.PLY.ABORTS, C.PLY.WD_EXPIRED, C.PLY.PS_RECORDS, C.PLY.PS_LOST]
/-- Every counter of the PLY page. -/
def ctrsPLY : List Ctr := ctrsPLY0
/-- Error source PLY 0 PACE, reset code 1 (R366). -/
def E.PLY.PACE : Src := ⟨.PLY, 0, 1, false⟩
/-- Error source PLY 1 WATCHDOG, reset code 1 (R366). -/
def E.PLY.WATCHDOG : Src := ⟨.PLY, 1, 1, false⟩
/-- Error source PLY 2 UCODE_PARITY, reset code 2 (R366). -/
def E.PLY.UCODE_PARITY : Src := ⟨.PLY, 2, 2, false⟩
/-- Every error source of the PLY page (R510). -/
def srcsPLY : List Src := [E.PLY.PACE, E.PLY.WATCHDOG, E.PLY.UCODE_PARITY]

/-! ## LAN page -/

/-- LAN.NONEMPTY.LANES [31:0] (R365). -/
def F.LAN.NONEMPTY_LANES : Fld := ⟨.LAN, 0x040, 1, 4, 0, 32, .ro, 0, [], false⟩
/-- LAN.FULL.LANES [31:0] (R365). -/
def F.LAN.FULL_LANES : Fld := ⟨.LAN, 0x044, 1, 4, 0, 32, .ro, 0, [], false⟩
/-- Fields of the LAN page, part 0. -/
def fieldsLAN0 : List Fld := [F.LAN.NONEMPTY_LANES, F.LAN.FULL_LANES]
/-- Every block field of the LAN page. -/
def fieldsLAN : List Fld := fieldsLAN0
/-- Counter LAN.CORR (R365). -/
def C.LAN.CORR : Ctr := ⟨.LAN, 0x800, 32, false⟩
/-- Counter LAN.UNCORR (R365). -/
def C.LAN.UNCORR : Ctr := ⟨.LAN, 0x900, 32, false⟩
/-- Counter LAN.REWIND (R365). -/
def C.LAN.REWIND : Ctr := ⟨.LAN, 0xA00, 32, false⟩
/-- Counters of the LAN page, part 0. -/
def ctrsLAN0 : List Ctr := [C.LAN.CORR, C.LAN.UNCORR, C.LAN.REWIND]
/-- Every counter of the LAN page. -/
def ctrsLAN : List Ctr := ctrsLAN0
/-- Error source LAN 0 LANE_ECC, reset code 1 (R366). -/
def E.LAN.LANE_ECC : Src := ⟨.LAN, 0, 1, false⟩
/-- Every error source of the LAN page (R510). -/
def srcsLAN : List Src := [E.LAN.LANE_ECC]

/-! ## SCH page -/

/-- SCH.CFG.REFILL_PORT [9:0] (R397). -/
def F.SCH.CFG_REFILL_PORT : Fld := ⟨.SCH, 0x040, 1, 4, 0, 10, .rws, 8, [], false⟩
/-- SCH.CFG.REFILL_Q [31:16] (R397). -/
def F.SCH.CFG_REFILL_Q : Fld := ⟨.SCH, 0x040, 1, 4, 16, 16, .rws, 256, [], false⟩
/-- SCH.SAMPLE_CFG.PERIOD [15:0] (R397). -/
def F.SCH.SAMPLE_CFG_PERIOD : Fld := ⟨.SCH, 0x044, 1, 4, 0, 16, .rws, 0, [], false⟩
/-- SCH.PCP_MAP.MAP [23:0] (R397). -/
def F.SCH.PCP_MAP_MAP : Fld := ⟨.SCH, 0x048, 1, 4, 0, 24, .rws, 16434824, [], false⟩
/-- SCH.FIX_QLIM.CELLS [15:0] (R397). -/
def F.SCH.FIX_QLIM_CELLS : Fld := ⟨.SCH, 0x04C, 1, 4, 0, 16, .rws, 2048, [], false⟩
/-- SCH.STAT.REGIME [0:0] (R397). -/
def F.SCH.STAT_REGIME : Fld := ⟨.SCH, 0x050, 1, 4, 0, 1, .ro, 0, [], false⟩
/-- SCH.STAT.QUEUES_EN [30:16] (R397). -/
def F.SCH.STAT_QUEUES_EN : Fld := ⟨.SCH, 0x050, 1, 4, 16, 15, .ro, 0, [], false⟩
/-- SCH.SMP_SEL.Q [13:0] (R397). -/
def F.SCH.SMP_SEL_Q : Fld := ⟨.SCH, 0x054, 1, 4, 0, 14, .rw, 0, [], false⟩
/-- SCH.SMP_SEL.FIXED [14:14] (R397). -/
def F.SCH.SMP_SEL_FIXED : Fld := ⟨.SCH, 0x054, 1, 4, 14, 1, .rw, 0, [], false⟩
/-- SCH.SMP_SEL.PORT [20:16] (R397). -/
def F.SCH.SMP_SEL_PORT : Fld := ⟨.SCH, 0x054, 1, 4, 16, 5, .rw, 0, [], false⟩
/-- SCH.SMP_DEPTH.D [31:0] (R397). -/
def F.SCH.SMP_DEPTH_D : Fld := ⟨.SCH, 0x058, 1, 4, 0, 32, .ro, 0, [], false⟩
/-- SCH.SMP_SOJ.S [31:0] (R397). -/
def F.SCH.SMP_SOJ_S : Fld := ⟨.SCH, 0x05C, 1, 4, 0, 32, .ro, 0, [], false⟩
/-- SCH.LUP_SEL.PORT [4:0] (R397). -/
def F.SCH.LUP_SEL_PORT : Fld := ⟨.SCH, 0x060, 1, 4, 0, 5, .rws, 0, [], false⟩
/-- SCH.LUP_CTRL.LOAD [0:0] (R397). -/
def F.SCH.LUP_CTRL_LOAD : Fld := ⟨.SCH, 0x064, 1, 4, 0, 1, .rws, 0, [], false⟩
/-- SCH.LUP_IDX.IDX [7:0] (R397). -/
def F.SCH.LUP_IDX_IDX : Fld := ⟨.SCH, 0x068, 1, 4, 0, 8, .rw, 0, [], false⟩
/-- SCH.LUP_ENT_LO.W [31:0] (R397). -/
def F.SCH.LUP_ENT_LO_W : Fld := ⟨.SCH, 0x06C, 1, 4, 0, 32, .rw, 0, [], false⟩
/-- SCH.LUP_ENT_HI.W [31:0] (R397). -/
def F.SCH.LUP_ENT_HI_W : Fld := ⟨.SCH, 0x070, 1, 4, 0, 32, .rw, 0, [], false⟩
/-- SCH.LUP_COUNT.N [8:0] (R397). -/
def F.SCH.LUP_COUNT_N : Fld := ⟨.SCH, 0x074, 1, 4, 0, 9, .rws, 0, [], false⟩
/-- SCH.LUP_CYCLE.NS [31:0] (R397). -/
def F.SCH.LUP_CYCLE_NS : Fld := ⟨.SCH, 0x078, 1, 4, 0, 32, .rws, 1000000, [], false⟩
/-- SCH.LUP_KICK_SEC_LO.S [31:0] (R397). -/
def F.SCH.LUP_KICK_SEC_LO_S : Fld := ⟨.SCH, 0x07C, 1, 4, 0, 32, .rws, 0, [], false⟩
/-- SCH.LUP_KICK_SEC_HI.S [15:0] (R397). -/
def F.SCH.LUP_KICK_SEC_HI_S : Fld := ⟨.SCH, 0x080, 1, 4, 0, 16, .rws, 0, [], false⟩
/-- SCH.LUP_KICK_NS.NS [29:0] (R397). -/
def F.SCH.LUP_KICK_NS_NS : Fld := ⟨.SCH, 0x084, 1, 4, 0, 30, .rws, 0, [], false⟩
/-- SCH.LUP_STAT.ACTIVE [0:0] (R397). -/
def F.SCH.LUP_STAT_ACTIVE : Fld := ⟨.SCH, 0x088, 1, 4, 0, 1, .ro, 0, [], false⟩
/-- SCH.LUP_STAT.PENDING [1:1] (R397). -/
def F.SCH.LUP_STAT_PENDING : Fld := ⟨.SCH, 0x088, 1, 4, 1, 1, .ro, 0, [], false⟩
/-- SCH.LUP_STAT.LATE [2:2] (R397). -/
def F.SCH.LUP_STAT_LATE : Fld := ⟨.SCH, 0x088, 1, 4, 2, 1, .ro, 0, [], false⟩
/-- SCH.LUP_STAT.ENTRY [15:8] (R397). -/
def F.SCH.LUP_STAT_ENTRY : Fld := ⟨.SCH, 0x088, 1, 4, 8, 8, .ro, 0, [], false⟩
/-- SCH.LUP_STAT.COUNT [24:16] (R397). -/
def F.SCH.LUP_STAT_COUNT : Fld := ⟨.SCH, 0x088, 1, 4, 16, 9, .ro, 0, [], false⟩
/-- SCH.PORT_CFG.STRICT [3:0] (R397). -/
def F.SCH.PORT_CFG_STRICT : Fld := ⟨.SCH, 0x100, 28, 16, 0, 4, .rws, 0, [], false⟩
/-- SCH.PORT_CFG.DEF_CLASS [6:4] (R397). -/
def F.SCH.PORT_CFG_DEF_CLASS : Fld := ⟨.SCH, 0x100, 28, 16, 4, 3, .rws, 0, [], false⟩
/-- SCH.PORT_CFG.OVH [15:8] (R397). -/
def F.SCH.PORT_CFG_OVH : Fld := ⟨.SCH, 0x100, 28, 16, 8, 8, .rws, 0, [20, 20, 20, 20, 20, 20, 20, 20, 20, 20, 20, 20, 20, 20, 20, 20], false⟩
/-- SCH.PORT_RATE.MANT [11:0] (R397). -/
def F.SCH.PORT_RATE_MANT : Fld := ⟨.SCH, 0x104, 28, 16, 0, 12, .rws, 0, [], false⟩
/-- SCH.PORT_RATE.EXP [16:12] (R397). -/
def F.SCH.PORT_RATE_EXP : Fld := ⟨.SCH, 0x104, 28, 16, 12, 5, .rws, 0, [], false⟩
/-- SCH.PORT_RATE.EN [31:31] (R397). -/
def F.SCH.PORT_RATE_EN : Fld := ⟨.SCH, 0x104, 28, 16, 31, 1, .rws, 0, [], false⟩
/-- SCH.PORT_BURST.B [15:0] (R397). -/
def F.SCH.PORT_BURST_B : Fld := ⟨.SCH, 0x108, 28, 16, 0, 16, .rws, 64, [], false⟩
/-- SCH.CLASS_W.W [31:0] (R397). -/
def F.SCH.CLASS_W_W : Fld := ⟨.SCH, 0x10C, 28, 16, 0, 32, .rws, 286331153, [], false⟩
/-- SCH.PORT_CREDIT.C [31:0] (R397). -/
def F.SCH.PORT_CREDIT_C : Fld := ⟨.SCH, 0x300, 28, 4, 0, 32, .ro, 0, [], false⟩
/-- SCH.QMAP.BASE [13:0] (R397). -/
def F.SCH.QMAP_BASE : Fld := ⟨.SCH, 0x400, 224, 4, 0, 14, .rws, 0, [], false⟩
/-- SCH.QMAP.N [26:14] (R397). -/
def F.SCH.QMAP_N : Fld := ⟨.SCH, 0x400, 224, 4, 14, 13, .rws, 0, [], false⟩
/-- Fields of the SCH page, part 0. -/
def fieldsSCH0 : List Fld := [F.SCH.CFG_REFILL_PORT, F.SCH.CFG_REFILL_Q, F.SCH.SAMPLE_CFG_PERIOD, F.SCH.PCP_MAP_MAP, F.SCH.FIX_QLIM_CELLS, F.SCH.STAT_REGIME, F.SCH.STAT_QUEUES_EN, F.SCH.SMP_SEL_Q, F.SCH.SMP_SEL_FIXED, F.SCH.SMP_SEL_PORT, F.SCH.SMP_DEPTH_D, F.SCH.SMP_SOJ_S, F.SCH.LUP_SEL_PORT, F.SCH.LUP_CTRL_LOAD, F.SCH.LUP_IDX_IDX, F.SCH.LUP_ENT_LO_W, F.SCH.LUP_ENT_HI_W, F.SCH.LUP_COUNT_N, F.SCH.LUP_CYCLE_NS, F.SCH.LUP_KICK_SEC_LO_S, F.SCH.LUP_KICK_SEC_HI_S, F.SCH.LUP_KICK_NS_NS, F.SCH.LUP_STAT_ACTIVE, F.SCH.LUP_STAT_PENDING]
/-- Fields of the SCH page, part 1. -/
def fieldsSCH1 : List Fld := [F.SCH.LUP_STAT_LATE, F.SCH.LUP_STAT_ENTRY, F.SCH.LUP_STAT_COUNT, F.SCH.PORT_CFG_STRICT, F.SCH.PORT_CFG_DEF_CLASS, F.SCH.PORT_CFG_OVH, F.SCH.PORT_RATE_MANT, F.SCH.PORT_RATE_EXP, F.SCH.PORT_RATE_EN, F.SCH.PORT_BURST_B, F.SCH.CLASS_W_W, F.SCH.PORT_CREDIT_C, F.SCH.QMAP_BASE, F.SCH.QMAP_N]
/-- Every block field of the SCH page. -/
def fieldsSCH : List Fld := fieldsSCH0 ++ fieldsSCH1
/-- Counter SCH.TX_PKTS (R397). -/
def C.SCH.TX_PKTS : Ctr := ⟨.SCH, 0x800, 28, false⟩
/-- Counter SCH.TX_CHARGE (R397). -/
def C.SCH.TX_CHARGE : Ctr := ⟨.SCH, 0x900, 28, false⟩
/-- Counter SCH.DROP (R397). -/
def C.SCH.DROP : Ctr := ⟨.SCH, 0xA00, 28, false⟩
/-- Counter SCH.NO_QUEUE (R397). -/
def C.SCH.NO_QUEUE : Ctr := ⟨.SCH, 0xB00, 1, false⟩
/-- Counter SCH.REGIME_FLUSH (R397). -/
def C.SCH.REGIME_FLUSH : Ctr := ⟨.SCH, 0xB08, 1, false⟩
/-- Counter SCH.LUP_LATE (R397). -/
def C.SCH.LUP_LATE : Ctr := ⟨.SCH, 0xB10, 1, false⟩
/-- Counter SCH.GATE_WAIT (R397). -/
def C.SCH.GATE_WAIT : Ctr := ⟨.SCH, 0xB18, 1, false⟩
/-- Counters of the SCH page, part 0. -/
def ctrsSCH0 : List Ctr := [C.SCH.TX_PKTS, C.SCH.TX_CHARGE, C.SCH.DROP, C.SCH.NO_QUEUE, C.SCH.REGIME_FLUSH, C.SCH.LUP_LATE, C.SCH.GATE_WAIT]
/-- Every counter of the SCH page. -/
def ctrsSCH : List Ctr := ctrsSCH0
/-- Error source SCH 0 PACE, reset code 1 (R398). -/
def E.SCH.PACE : Src := ⟨.SCH, 0, 1, false⟩
/-- Error source SCH 1 QSTATE_ECC, reset code 1 (R398). -/
def E.SCH.QSTATE_ECC : Src := ⟨.SCH, 1, 1, false⟩
/-- Error source SCH 2 LUP_PARITY, reset code 1 (R398). -/
def E.SCH.LUP_PARITY : Src := ⟨.SCH, 2, 1, false⟩
/-- Every error source of the SCH page (R510). -/
def srcsSCH : List Src := [E.SCH.PACE, E.SCH.QSTATE_ECC, E.SCH.LUP_PARITY]

/-! ## POL page -/

/-- POL.STAT.FULL [0:0] (R397). -/
def F.POL.STAT_FULL : Fld := ⟨.POL, 0x040, 1, 4, 0, 1, .ro, 0, [], false⟩
/-- Fields of the POL page, part 0. -/
def fieldsPOL0 : List Fld := [F.POL.STAT_FULL]
/-- Every block field of the POL page. -/
def fieldsPOL : List Fld := fieldsPOL0
/-- Counter POL.GREEN (R397). -/
def C.POL.GREEN : Ctr := ⟨.POL, 0x800, 1, false⟩
/-- Counter POL.YELLOW (R397). -/
def C.POL.YELLOW : Ctr := ⟨.POL, 0x808, 1, false⟩
/-- Counter POL.RED (R397). -/
def C.POL.RED : Ctr := ⟨.POL, 0x810, 1, false⟩
/-- Counter POL.NODE_DROP (R397). -/
def C.POL.NODE_DROP : Ctr := ⟨.POL, 0x818, 1, false⟩
/-- Counter POL.RED_BY_KIND (R397). -/
def C.POL.RED_BY_KIND : Ctr := ⟨.POL, 0x820, 4, false⟩
/-- Counters of the POL page, part 0. -/
def ctrsPOL0 : List Ctr := [C.POL.GREEN, C.POL.YELLOW, C.POL.RED, C.POL.NODE_DROP, C.POL.RED_BY_KIND]
/-- Every counter of the POL page. -/
def ctrsPOL : List Ctr := ctrsPOL0
/-- Error source POL 0 PACE, reset code 1 (R398). -/
def E.POL.PACE : Src := ⟨.POL, 0, 1, false⟩
/-- Error source POL 1 METER_ECC, reset code 1 (R398). -/
def E.POL.METER_ECC : Src := ⟨.POL, 1, 1, false⟩
/-- Every error source of the POL page (R510). -/
def srcsPOL : List Src := [E.POL.PACE, E.POL.METER_ECC]

/-! ## ETH page -/

/-- ETH.MODE.PCS [2:0] (R415). -/
def F.ETH.MODE_PCS : Fld := ⟨.ETH, 0x040, 1, 4, 0, 3, .rws, 0, [], false⟩
/-- ETH.MAC_CFG.MAXLEN [13:0] (R415). -/
def F.ETH.MAC_CFG_MAXLEN : Fld := ⟨.ETH, 0x044, 1, 4, 0, 14, .rws, 1522, [], false⟩
/-- ETH.MAC_CFG.BRIDGE [16:16] (R415). -/
def F.ETH.MAC_CFG_BRIDGE : Fld := ⟨.ETH, 0x044, 1, 4, 16, 1, .rws, 0, [], false⟩
/-- ETH.MAC_CFG.BCAST [17:17] (R415). -/
def F.ETH.MAC_CFG_BCAST : Fld := ⟨.ETH, 0x044, 1, 4, 17, 1, .rws, 1, [], false⟩
/-- ETH.STAT.LINK [0:0] (R415). -/
def F.ETH.STAT_LINK : Fld := ⟨.ETH, 0x048, 1, 4, 0, 1, .ro, 0, [], false⟩
/-- ETH.STAT.LOCK [1:1] (R415). -/
def F.ETH.STAT_LOCK : Fld := ⟨.ETH, 0x048, 1, 4, 1, 1, .ro, 0, [], false⟩
/-- ETH.STAT.LOCAL_FAULT [2:2] (R415). -/
def F.ETH.STAT_LOCAL_FAULT : Fld := ⟨.ETH, 0x048, 1, 4, 2, 1, .ro, 0, [], false⟩
/-- ETH.STAT.REMOTE_FAULT [3:3] (R415). -/
def F.ETH.STAT_REMOTE_FAULT : Fld := ⟨.ETH, 0x048, 1, 4, 3, 1, .ro, 0, [], false⟩
/-- ETH.STAT.AN_DONE [4:4] (R415). -/
def F.ETH.STAT_AN_DONE : Fld := ⟨.ETH, 0x048, 1, 4, 4, 1, .ro, 0, [], false⟩
/-- ETH.STAT.PAUSED [15:8] (R415). -/
def F.ETH.STAT_PAUSED : Fld := ⟨.ETH, 0x048, 1, 4, 8, 8, .ro, 0, [], false⟩
/-- ETH.STAT.STEP [18:16] (R415). -/
def F.ETH.STAT_STEP : Fld := ⟨.ETH, 0x048, 1, 4, 16, 3, .ro, 0, [], false⟩
/-- ETH.UC_LO.A [31:0] (R415). -/
def F.ETH.UC_LO_A : Fld := ⟨.ETH, 0x050, 8, 8, 0, 32, .rws, 0, [], false⟩
/-- ETH.UC_HI.A [15:0] (R415). -/
def F.ETH.UC_HI_A : Fld := ⟨.ETH, 0x054, 8, 8, 0, 16, .rws, 0, [], false⟩
/-- ETH.UC_HI.EN [31:31] (R415). -/
def F.ETH.UC_HI_EN : Fld := ⟨.ETH, 0x054, 8, 8, 31, 1, .rws, 0, [], false⟩
/-- ETH.MC_HASH.B [31:0] (R415). -/
def F.ETH.MC_HASH_B : Fld := ⟨.ETH, 0x090, 8, 4, 0, 32, .rws, 0, [], false⟩
/-- ETH.FC_CFG.MODE [1:0] (R415). -/
def F.ETH.FC_CFG_MODE : Fld := ⟨.ETH, 0x0B0, 1, 4, 0, 2, .rws, 1, [], false⟩
/-- ETH.FC_CFG.RX_EN [2:2] (R415). -/
def F.ETH.FC_CFG_RX_EN : Fld := ⟨.ETH, 0x0B0, 1, 4, 2, 1, .rws, 1, [], false⟩
/-- ETH.FC_CFG.TX_EN [3:3] (R415). -/
def F.ETH.FC_CFG_TX_EN : Fld := ⟨.ETH, 0x0B0, 1, 4, 3, 1, .rws, 1, [], false⟩
/-- ETH.FC_CFG.QUANTA [31:16] (R415). -/
def F.ETH.FC_CFG_QUANTA : Fld := ⟨.ETH, 0x0B0, 1, 4, 16, 16, .rws, 65535, [], false⟩
/-- ETH.FC_THR.XOFF [10:0] (R415). -/
def F.ETH.FC_THR_XOFF : Fld := ⟨.ETH, 0x0B4, 1, 4, 0, 11, .rws, 768, [], false⟩
/-- ETH.FC_THR.XON [26:16] (R415). -/
def F.ETH.FC_THR_XON : Fld := ⟨.ETH, 0x0B4, 1, 4, 16, 11, .rws, 512, [], false⟩
/-- ETH.TX_CFG.THR_INIT [2:0] (R415). -/
def F.ETH.TX_CFG_THR_INIT : Fld := ⟨.ETH, 0x0B8, 1, 4, 0, 3, .rws, 2, [], false⟩
/-- ETH.TX_STEP.STEP [2:0] (R415). -/
def F.ETH.TX_STEP_STEP : Fld := ⟨.ETH, 0x0BC, 1, 4, 0, 3, .rw, 2, [], false⟩
/-- ETH.PTP_CFG.RX_EN [0:0] (R415). -/
def F.ETH.PTP_CFG_RX_EN : Fld := ⟨.ETH, 0x0C0, 1, 4, 0, 1, .rws, 0, [], false⟩
/-- ETH.PTP_CFG.TX_EN [1:1] (R415). -/
def F.ETH.PTP_CFG_TX_EN : Fld := ⟨.ETH, 0x0C0, 1, 4, 1, 1, .rws, 0, [], false⟩
/-- ETH.PTP_CFG.L2 [2:2] (R415). -/
def F.ETH.PTP_CFG_L2 : Fld := ⟨.ETH, 0x0C0, 1, 4, 2, 1, .rws, 0, [], false⟩
/-- ETH.PTP_CFG.UDP4 [3:3] (R415). -/
def F.ETH.PTP_CFG_UDP4 : Fld := ⟨.ETH, 0x0C0, 1, 4, 3, 1, .rws, 0, [], false⟩
/-- ETH.PTP_CFG.UDP6 [4:4] (R415). -/
def F.ETH.PTP_CFG_UDP6 : Fld := ⟨.ETH, 0x0C0, 1, 4, 4, 1, .rws, 0, [], false⟩
/-- ETH.PTP_LAT.ING [15:0] (R415). -/
def F.ETH.PTP_LAT_ING : Fld := ⟨.ETH, 0x0C4, 1, 4, 0, 16, .rws, 0, [], false⟩
/-- ETH.PTP_LAT.EGR [31:16] (R415). -/
def F.ETH.PTP_LAT_EGR : Fld := ⟨.ETH, 0x0C4, 1, 4, 16, 16, .rws, 0, [], false⟩
/-- ETH.TS_STAT.TX_CNT [4:0] (R415). -/
def F.ETH.TS_STAT_TX_CNT : Fld := ⟨.ETH, 0x0C8, 1, 4, 0, 5, .ro, 0, [], false⟩
/-- ETH.TS_STAT.RX_CNT [12:8] (R415). -/
def F.ETH.TS_STAT_RX_CNT : Fld := ⟨.ETH, 0x0C8, 1, 4, 8, 5, .ro, 0, [], false⟩
/-- ETH.TS_POP.TX [0:0] (R415). -/
def F.ETH.TS_POP_TX : Fld := ⟨.ETH, 0x0CC, 1, 4, 0, 1, .wo, 0, [], false⟩
/-- ETH.TS_POP.RX [1:1] (R415). -/
def F.ETH.TS_POP_RX : Fld := ⟨.ETH, 0x0CC, 1, 4, 1, 1, .wo, 0, [], false⟩
/-- ETH.TX_TS_INFO.MSGTYPE [3:0] (R415). -/
def F.ETH.TX_TS_INFO_MSGTYPE : Fld := ⟨.ETH, 0x0D0, 1, 4, 0, 4, .ro, 0, [], false⟩
/-- ETH.TX_TS_INFO.DOMAIN [15:8] (R415). -/
def F.ETH.TX_TS_INFO_DOMAIN : Fld := ⟨.ETH, 0x0D0, 1, 4, 8, 8, .ro, 0, [], false⟩
/-- ETH.TX_TS_INFO.SEQID [31:16] (R415). -/
def F.ETH.TX_TS_INFO_SEQID : Fld := ⟨.ETH, 0x0D0, 1, 4, 16, 16, .ro, 0, [], false⟩
/-- ETH.TX_TS_SEC_LO.S [31:0] (R415). -/
def F.ETH.TX_TS_SEC_LO_S : Fld := ⟨.ETH, 0x0D4, 1, 4, 0, 32, .ro, 0, [], false⟩
/-- ETH.TX_TS_SEC_HI.S [15:0] (R415). -/
def F.ETH.TX_TS_SEC_HI_S : Fld := ⟨.ETH, 0x0D8, 1, 4, 0, 16, .ro, 0, [], false⟩
/-- ETH.TX_TS_NS.NS [29:0] (R415). -/
def F.ETH.TX_TS_NS_NS : Fld := ⟨.ETH, 0x0DC, 1, 4, 0, 30, .ro, 0, [], false⟩
/-- ETH.RX_TS_INFO.MSGTYPE [3:0] (R415). -/
def F.ETH.RX_TS_INFO_MSGTYPE : Fld := ⟨.ETH, 0x0E0, 1, 4, 0, 4, .ro, 0, [], false⟩
/-- ETH.RX_TS_INFO.DOMAIN [15:8] (R415). -/
def F.ETH.RX_TS_INFO_DOMAIN : Fld := ⟨.ETH, 0x0E0, 1, 4, 8, 8, .ro, 0, [], false⟩
/-- ETH.RX_TS_INFO.SEQID [31:16] (R415). -/
def F.ETH.RX_TS_INFO_SEQID : Fld := ⟨.ETH, 0x0E0, 1, 4, 16, 16, .ro, 0, [], false⟩
/-- ETH.RX_TS_SEC_LO.S [31:0] (R415). -/
def F.ETH.RX_TS_SEC_LO_S : Fld := ⟨.ETH, 0x0E4, 1, 4, 0, 32, .ro, 0, [], false⟩
/-- ETH.RX_TS_SEC_HI.S [15:0] (R415). -/
def F.ETH.RX_TS_SEC_HI_S : Fld := ⟨.ETH, 0x0E8, 1, 4, 0, 16, .ro, 0, [], false⟩
/-- ETH.RX_TS_NS.NS [29:0] (R415). -/
def F.ETH.RX_TS_NS_NS : Fld := ⟨.ETH, 0x0EC, 1, 4, 0, 30, .ro, 0, [], false⟩
/-- ETH.MDIO_CFG.DIV [7:0] (R415). -/
def F.ETH.MDIO_CFG_DIV : Fld := ⟨.ETH, 0x0F0, 1, 4, 0, 8, .rws, 8, [], true⟩
/-- ETH.MDIO_CMD.DATA [15:0] (R415). -/
def F.ETH.MDIO_CMD_DATA : Fld := ⟨.ETH, 0x0F4, 1, 4, 0, 16, .rw, 0, [], true⟩
/-- ETH.MDIO_CMD.REG [20:16] (R415). -/
def F.ETH.MDIO_CMD_REG : Fld := ⟨.ETH, 0x0F4, 1, 4, 16, 5, .rw, 0, [], true⟩
/-- ETH.MDIO_CMD.PHYAD [25:21] (R415). -/
def F.ETH.MDIO_CMD_PHYAD : Fld := ⟨.ETH, 0x0F4, 1, 4, 21, 5, .rw, 0, [], true⟩
/-- ETH.MDIO_CMD.OP [27:26] (R415). -/
def F.ETH.MDIO_CMD_OP : Fld := ⟨.ETH, 0x0F4, 1, 4, 26, 2, .rw, 0, [], true⟩
/-- ETH.MDIO_CMD.CL45 [28:28] (R415). -/
def F.ETH.MDIO_CMD_CL45 : Fld := ⟨.ETH, 0x0F4, 1, 4, 28, 1, .rw, 0, [], true⟩
/-- ETH.MDIO_CMD.GO [30:30] (R415). -/
def F.ETH.MDIO_CMD_GO : Fld := ⟨.ETH, 0x0F4, 1, 4, 30, 1, .rw, 0, [], true⟩
/-- ETH.MDIO_CMD.BUSY [31:31] (R415). -/
def F.ETH.MDIO_CMD_BUSY : Fld := ⟨.ETH, 0x0F4, 1, 4, 31, 1, .ro, 0, [], true⟩
/-- ETH.MDIO_DEVAD.D [4:0] (R415). -/
def F.ETH.MDIO_DEVAD_D : Fld := ⟨.ETH, 0x0F8, 1, 4, 0, 5, .rw, 0, [], true⟩
/-- ETH.PHY_RST.ASSERT [0:0] (R415). -/
def F.ETH.PHY_RST_ASSERT : Fld := ⟨.ETH, 0x0FC, 1, 4, 0, 1, .rw, 1, [], true⟩
/-- Fields of the ETH page, part 0. -/
def fieldsETH0 : List Fld := [F.ETH.MODE_PCS, F.ETH.MAC_CFG_MAXLEN, F.ETH.MAC_CFG_BRIDGE, F.ETH.MAC_CFG_BCAST, F.ETH.STAT_LINK, F.ETH.STAT_LOCK, F.ETH.STAT_LOCAL_FAULT, F.ETH.STAT_REMOTE_FAULT, F.ETH.STAT_AN_DONE, F.ETH.STAT_PAUSED, F.ETH.STAT_STEP, F.ETH.UC_LO_A, F.ETH.UC_HI_A, F.ETH.UC_HI_EN, F.ETH.MC_HASH_B, F.ETH.FC_CFG_MODE, F.ETH.FC_CFG_RX_EN, F.ETH.FC_CFG_TX_EN, F.ETH.FC_CFG_QUANTA, F.ETH.FC_THR_XOFF, F.ETH.FC_THR_XON, F.ETH.TX_CFG_THR_INIT, F.ETH.TX_STEP_STEP, F.ETH.PTP_CFG_RX_EN]
/-- Fields of the ETH page, part 1. -/
def fieldsETH1 : List Fld := [F.ETH.PTP_CFG_TX_EN, F.ETH.PTP_CFG_L2, F.ETH.PTP_CFG_UDP4, F.ETH.PTP_CFG_UDP6, F.ETH.PTP_LAT_ING, F.ETH.PTP_LAT_EGR, F.ETH.TS_STAT_TX_CNT, F.ETH.TS_STAT_RX_CNT, F.ETH.TS_POP_TX, F.ETH.TS_POP_RX, F.ETH.TX_TS_INFO_MSGTYPE, F.ETH.TX_TS_INFO_DOMAIN, F.ETH.TX_TS_INFO_SEQID, F.ETH.TX_TS_SEC_LO_S, F.ETH.TX_TS_SEC_HI_S, F.ETH.TX_TS_NS_NS, F.ETH.RX_TS_INFO_MSGTYPE, F.ETH.RX_TS_INFO_DOMAIN, F.ETH.RX_TS_INFO_SEQID, F.ETH.RX_TS_SEC_LO_S, F.ETH.RX_TS_SEC_HI_S, F.ETH.RX_TS_NS_NS, F.ETH.MDIO_CFG_DIV, F.ETH.MDIO_CMD_DATA]
/-- Fields of the ETH page, part 2. -/
def fieldsETH2 : List Fld := [F.ETH.MDIO_CMD_REG, F.ETH.MDIO_CMD_PHYAD, F.ETH.MDIO_CMD_OP, F.ETH.MDIO_CMD_CL45, F.ETH.MDIO_CMD_GO, F.ETH.MDIO_CMD_BUSY, F.ETH.MDIO_DEVAD_D, F.ETH.PHY_RST_ASSERT]
/-- Every block field of the ETH page. -/
def fieldsETH : List Fld := fieldsETH0 ++ fieldsETH1 ++ fieldsETH2
/-- Counter ETH.RX_FRAMES (R415). -/
def C.ETH.RX_FRAMES : Ctr := ⟨.ETH, 0x800, 1, false⟩
/-- Counter ETH.RX_OCTETS (R415). -/
def C.ETH.RX_OCTETS : Ctr := ⟨.ETH, 0x808, 1, false⟩
/-- Counter ETH.RX_CODE_ERR (R415). -/
def C.ETH.RX_CODE_ERR : Ctr := ⟨.ETH, 0x810, 1, false⟩
/-- Counter ETH.RX_FCS_ERR (R415). -/
def C.ETH.RX_FCS_ERR : Ctr := ⟨.ETH, 0x818, 1, false⟩
/-- Counter ETH.RX_RUNT (R415). -/
def C.ETH.RX_RUNT : Ctr := ⟨.ETH, 0x820, 1, false⟩
/-- Counter ETH.RX_OVERSIZE (R415). -/
def C.ETH.RX_OVERSIZE : Ctr := ⟨.ETH, 0x828, 1, false⟩
/-- Counter ETH.RX_FILTERED (R415). -/
def C.ETH.RX_FILTERED : Ctr := ⟨.ETH, 0x830, 1, false⟩
/-- Counter ETH.RX_QUIESCE (R415). -/
def C.ETH.RX_QUIESCE : Ctr := ⟨.ETH, 0x838, 1, false⟩
/-- Counter ETH.RX_PAUSE (R415). -/
def C.ETH.RX_PAUSE : Ctr := ⟨.ETH, 0x840, 1, false⟩
/-- Counter ETH.RX_CTRL_DROP (R415). -/
def C.ETH.RX_CTRL_DROP : Ctr := ⟨.ETH, 0x848, 1, false⟩
/-- Counter ETH.TX_FRAMES (R415). -/
def C.ETH.TX_FRAMES : Ctr := ⟨.ETH, 0x850, 1, false⟩
/-- Counter ETH.TX_OCTETS (R415). -/
def C.ETH.TX_OCTETS : Ctr := ⟨.ETH, 0x858, 1, false⟩
/-- Counter ETH.TX_PADDED (R415). -/
def C.ETH.TX_PADDED : Ctr := ⟨.ETH, 0x860, 1, false⟩
/-- Counter ETH.TX_TOO_LONG (R415). -/
def C.ETH.TX_TOO_LONG : Ctr := ⟨.ETH, 0x868, 1, false⟩
/-- Counter ETH.TX_UNDERRUN (R415). -/
def C.ETH.TX_UNDERRUN : Ctr := ⟨.ETH, 0x870, 1, false⟩
/-- Counter ETH.TX_ABORT (R415). -/
def C.ETH.TX_ABORT : Ctr := ⟨.ETH, 0x878, 1, false⟩
/-- Counter ETH.TX_PAUSE (R415). -/
def C.ETH.TX_PAUSE : Ctr := ⟨.ETH, 0x880, 1, false⟩
/-- Counter ETH.TS_OVF (R415). -/
def C.ETH.TS_OVF : Ctr := ⟨.ETH, 0x888, 1, false⟩
/-- Counter ETH.LINK_DOWN (R415). -/
def C.ETH.LINK_DOWN : Ctr := ⟨.ETH, 0x890, 1, false⟩
/-- Counters of the ETH page, part 0. -/
def ctrsETH0 : List Ctr := [C.ETH.RX_FRAMES, C.ETH.RX_OCTETS, C.ETH.RX_CODE_ERR, C.ETH.RX_FCS_ERR, C.ETH.RX_RUNT, C.ETH.RX_OVERSIZE, C.ETH.RX_FILTERED, C.ETH.RX_QUIESCE, C.ETH.RX_PAUSE, C.ETH.RX_CTRL_DROP, C.ETH.TX_FRAMES, C.ETH.TX_OCTETS, C.ETH.TX_PADDED, C.ETH.TX_TOO_LONG, C.ETH.TX_UNDERRUN, C.ETH.TX_ABORT, C.ETH.TX_PAUSE, C.ETH.TS_OVF, C.ETH.LINK_DOWN]
/-- Every counter of the ETH page. -/
def ctrsETH : List Ctr := ctrsETH0
/-- Error source ETH 0 PACE, reset code 1 (R416). -/
def E.ETH.PACE : Src := ⟨.ETH, 0, 1, false⟩
/-- Error source ETH 1 LINK_DOWN, reset code 1 (R416). -/
def E.ETH.LINK_DOWN : Src := ⟨.ETH, 1, 1, false⟩
/-- Error source ETH 2 TX_UNDERRUN, reset code 0 (R416). -/
def E.ETH.TX_UNDERRUN : Src := ⟨.ETH, 2, 0, false⟩
/-- Error source ETH 3 FIFO_ECC, reset code 1 (R416). -/
def E.ETH.FIFO_ECC : Src := ⟨.ETH, 3, 1, false⟩
/-- Error source ETH 4 TS_OVF, reset code 0 (R416). -/
def E.ETH.TS_OVF : Src := ⟨.ETH, 4, 0, false⟩
/-- Every error source of the ETH page (R510). -/
def srcsETH : List Src := [E.ETH.PACE, E.ETH.LINK_DOWN, E.ETH.TX_UNDERRUN, E.ETH.FIFO_ECC, E.ETH.TS_OVF]

/-! ## CAN page -/

/-- CAN.CTRL.OPMODE [1:0] (R448). -/
def F.CAN.CTRL_OPMODE : Fld := ⟨.CAN, 0x040, 1, 4, 0, 2, .rws, 0, [], false⟩
/-- CAN.CTRL.FD_EN [2:2] (R448). -/
def F.CAN.CTRL_FD_EN : Fld := ⟨.CAN, 0x040, 1, 4, 2, 1, .rws, 0, [], false⟩
/-- CAN.CTRL.AUTO_REC [3:3] (R448). -/
def F.CAN.CTRL_AUTO_REC : Fld := ⟨.CAN, 0x040, 1, 4, 3, 1, .rws, 0, [], false⟩
/-- CAN.CTRL.ONE_SHOT [4:4] (R448). -/
def F.CAN.CTRL_ONE_SHOT : Fld := ⟨.CAN, 0x040, 1, 4, 4, 1, .rws, 0, [], false⟩
/-- CAN.CTRL.NOMATCH [6:5] (R448). -/
def F.CAN.CTRL_NOMATCH : Fld := ⟨.CAN, 0x040, 1, 4, 5, 2, .rws, 0, [], false⟩
/-- CAN.CTRL.EP_HOLD [7:7] (R448). -/
def F.CAN.CTRL_EP_HOLD : Fld := ⟨.CAN, 0x040, 1, 4, 7, 1, .rws, 0, [], false⟩
/-- CAN.CTRL_SLEEP.REQ [1:0] (R448). -/
def F.CAN.CTRL_SLEEP_REQ : Fld := ⟨.CAN, 0x044, 1, 4, 0, 2, .rw, 0, [], false⟩
/-- CAN.RECOVER.GO [0:0] (R448). -/
def F.CAN.RECOVER_GO : Fld := ⟨.CAN, 0x048, 1, 4, 0, 1, .wo, 0, [], false⟩
/-- CAN.NBT0.BRP [8:0] (R448). -/
def F.CAN.NBT0_BRP : Fld := ⟨.CAN, 0x04C, 1, 4, 0, 9, .rws, 2, [], false⟩
/-- CAN.NBT0.TSEG1 [24:16] (R448). -/
def F.CAN.NBT0_TSEG1 : Fld := ⟨.CAN, 0x04C, 1, 4, 16, 9, .rws, 63, [], false⟩
/-- CAN.NBT1.TSEG2 [7:0] (R448). -/
def F.CAN.NBT1_TSEG2 : Fld := ⟨.CAN, 0x050, 1, 4, 0, 8, .rws, 16, [], false⟩
/-- CAN.NBT1.SJW [15:8] (R448). -/
def F.CAN.NBT1_SJW : Fld := ⟨.CAN, 0x050, 1, 4, 8, 8, .rws, 16, [], false⟩
/-- CAN.DBT0.BRP [8:0] (R448). -/
def F.CAN.DBT0_BRP : Fld := ⟨.CAN, 0x054, 1, 4, 0, 9, .rws, 2, [], false⟩
/-- CAN.DBT0.TSEG1 [21:16] (R448). -/
def F.CAN.DBT0_TSEG1 : Fld := ⟨.CAN, 0x054, 1, 4, 16, 6, .rws, 14, [], false⟩
/-- CAN.DBT1.TSEG2 [4:0] (R448). -/
def F.CAN.DBT1_TSEG2 : Fld := ⟨.CAN, 0x058, 1, 4, 0, 5, .rws, 5, [], false⟩
/-- CAN.DBT1.SJW [12:8] (R448). -/
def F.CAN.DBT1_SJW : Fld := ⟨.CAN, 0x058, 1, 4, 8, 5, .rws, 5, [], false⟩
/-- CAN.TDC_CFG.EN [0:0] (R448). -/
def F.CAN.TDC_CFG_EN : Fld := ⟨.CAN, 0x05C, 1, 4, 0, 1, .rws, 0, [], false⟩
/-- CAN.TDC_CFG.TDCO [14:8] (R448). -/
def F.CAN.TDC_CFG_TDCO : Fld := ⟨.CAN, 0x05C, 1, 4, 8, 7, .rws, 30, [], false⟩
/-- CAN.TDC_CFG.TDCF [22:16] (R448). -/
def F.CAN.TDC_CFG_TDCF : Fld := ⟨.CAN, 0x05C, 1, 4, 16, 7, .rws, 0, [], false⟩
/-- CAN.STAT.STATE [1:0] (R448). -/
def F.CAN.STAT_STATE : Fld := ⟨.CAN, 0x060, 1, 4, 0, 2, .ro, 0, [], false⟩
/-- CAN.STAT.ASLEEP [3:2] (R448). -/
def F.CAN.STAT_ASLEEP : Fld := ⟨.CAN, 0x060, 1, 4, 2, 2, .ro, 0, [], false⟩
/-- CAN.STAT.TX_ACTIVE [4:4] (R448). -/
def F.CAN.STAT_TX_ACTIVE : Fld := ⟨.CAN, 0x060, 1, 4, 4, 1, .ro, 0, [], false⟩
/-- CAN.STAT.TDCV [14:8] (R448). -/
def F.CAN.STAT_TDCV : Fld := ⟨.CAN, 0x060, 1, 4, 8, 7, .ro, 0, [], false⟩
/-- CAN.STAT.LEC [18:16] (R448). -/
def F.CAN.STAT_LEC : Fld := ⟨.CAN, 0x060, 1, 4, 16, 3, .ro, 0, [], false⟩
/-- CAN.STAT.STB [20:20] (R448). -/
def F.CAN.STAT_STB : Fld := ⟨.CAN, 0x060, 1, 4, 20, 1, .ro, 0, [], false⟩
/-- CAN.ERRCNT.TEC [8:0] (R448). -/
def F.CAN.ERRCNT_TEC : Fld := ⟨.CAN, 0x064, 1, 4, 0, 9, .ro, 0, [], false⟩
/-- CAN.ERRCNT.REC [23:16] (R448). -/
def F.CAN.ERRCNT_REC : Fld := ⟨.CAN, 0x064, 1, 4, 16, 8, .ro, 0, [], false⟩
/-- CAN.TX_CFG.GW_SLOTS [5:0] (R448). -/
def F.CAN.TX_CFG_GW_SLOTS : Fld := ⟨.CAN, 0x068, 1, 4, 0, 6, .rws, 16, [], false⟩
/-- CAN.TX_CFG.TAT_WIN [31:16] (R448). -/
def F.CAN.TX_CFG_TAT_WIN : Fld := ⟨.CAN, 0x068, 1, 4, 16, 16, .rws, 100, [], false⟩
/-- CAN.TX_SEL.IDX [5:0] (R448). -/
def F.CAN.TX_SEL_IDX : Fld := ⟨.CAN, 0x06C, 1, 4, 0, 6, .rw, 0, [], false⟩
/-- CAN.TX_PUSH.IDX [5:0] (R448). -/
def F.CAN.TX_PUSH_IDX : Fld := ⟨.CAN, 0x070, 1, 4, 0, 6, .wo, 0, [], false⟩
/-- CAN.TX_ACK.IDX [5:0] (R448). -/
def F.CAN.TX_ACK_IDX : Fld := ⟨.CAN, 0x074, 1, 4, 0, 6, .wo, 0, [], false⟩
/-- CAN.TX_ABORT.IDX [5:0] (R448). -/
def F.CAN.TX_ABORT_IDX : Fld := ⟨.CAN, 0x078, 1, 4, 0, 6, .wo, 0, [], false⟩
/-- CAN.TX_STATE.S [31:0] (R448). -/
def F.CAN.TX_STATE_S : Fld := ⟨.CAN, 0x080, 8, 4, 0, 32, .ro, 0, [], false⟩
/-- CAN.RX_STAT.COUNT [6:0] (R448). -/
def F.CAN.RX_STAT_COUNT : Fld := ⟨.CAN, 0x0A0, 1, 4, 0, 7, .ro, 0, [], false⟩
/-- CAN.RX_STAT.HEAD [21:16] (R448). -/
def F.CAN.RX_STAT_HEAD : Fld := ⟨.CAN, 0x0A0, 1, 4, 16, 6, .ro, 0, [], false⟩
/-- CAN.RX_STAT.HP_COUNT [26:24] (R448). -/
def F.CAN.RX_STAT_HP_COUNT : Fld := ⟨.CAN, 0x0A0, 1, 4, 24, 3, .ro, 0, [], false⟩
/-- CAN.RX_ACK.RX [0:0] (R448). -/
def F.CAN.RX_ACK_RX : Fld := ⟨.CAN, 0x0A4, 1, 4, 0, 1, .wo, 0, [], false⟩
/-- CAN.RX_ACK.HP [1:1] (R448). -/
def F.CAN.RX_ACK_HP : Fld := ⟨.CAN, 0x0A4, 1, 4, 1, 1, .wo, 0, [], false⟩
/-- CAN.WP_ID.ID [28:0] (R448). -/
def F.CAN.WP_ID_ID : Fld := ⟨.CAN, 0x0C0, 4, 32, 0, 29, .rws, 0, [], false⟩
/-- CAN.WP_ID.IDE [29:29] (R448). -/
def F.CAN.WP_ID_IDE : Fld := ⟨.CAN, 0x0C0, 4, 32, 29, 1, .rws, 0, [], false⟩
/-- CAN.WP_ID.EN [31:31] (R448). -/
def F.CAN.WP_ID_EN : Fld := ⟨.CAN, 0x0C0, 4, 32, 31, 1, .rws, 0, [], false⟩
/-- CAN.WP_MASK.M [28:0] (R448). -/
def F.CAN.WP_MASK_M : Fld := ⟨.CAN, 0x0C4, 4, 32, 0, 29, .rws, 0, [], false⟩
/-- CAN.WP_DATA_LO.D [31:0] (R448). -/
def F.CAN.WP_DATA_LO_D : Fld := ⟨.CAN, 0x0C8, 4, 32, 0, 32, .rws, 0, [], false⟩
/-- CAN.WP_DATA_HI.D [31:0] (R448). -/
def F.CAN.WP_DATA_HI_D : Fld := ⟨.CAN, 0x0CC, 4, 32, 0, 32, .rws, 0, [], false⟩
/-- CAN.WP_DMASK_LO.D [31:0] (R448). -/
def F.CAN.WP_DMASK_LO_D : Fld := ⟨.CAN, 0x0D0, 4, 32, 0, 32, .rws, 0, [], false⟩
/-- CAN.WP_DMASK_HI.D [31:0] (R448). -/
def F.CAN.WP_DMASK_HI_D : Fld := ⟨.CAN, 0x0D4, 4, 32, 0, 32, .rws, 0, [], false⟩
/-- CAN.SFILT.ID [10:0] (R448). -/
def F.CAN.SFILT_ID : Fld := ⟨.CAN, 0x200, 128, 4, 0, 11, .rws, 0, [], false⟩
/-- CAN.SFILT.MASK [26:16] (R448). -/
def F.CAN.SFILT_MASK : Fld := ⟨.CAN, 0x200, 128, 4, 16, 11, .rws, 0, [], false⟩
/-- CAN.SFILT.ACT [29:28] (R448). -/
def F.CAN.SFILT_ACT : Fld := ⟨.CAN, 0x200, 128, 4, 28, 2, .rws, 0, [], false⟩
/-- CAN.XFILT_ID.ID [28:0] (R448). -/
def F.CAN.XFILT_ID_ID : Fld := ⟨.CAN, 0x400, 64, 8, 0, 29, .rws, 0, [], false⟩
/-- CAN.XFILT_ID.ACT [30:29] (R448). -/
def F.CAN.XFILT_ID_ACT : Fld := ⟨.CAN, 0x400, 64, 8, 29, 2, .rws, 0, [], false⟩
/-- CAN.XFILT_MASK.M [28:0] (R448). -/
def F.CAN.XFILT_MASK_M : Fld := ⟨.CAN, 0x404, 64, 8, 0, 29, .rws, 0, [], false⟩
/-- CAN.HFILT_ID.ID [28:0] (R448). -/
def F.CAN.HFILT_ID_ID : Fld := ⟨.CAN, 0x600, 8, 8, 0, 29, .rws, 0, [], false⟩
/-- CAN.HFILT_ID.IDE [29:29] (R448). -/
def F.CAN.HFILT_ID_IDE : Fld := ⟨.CAN, 0x600, 8, 8, 29, 1, .rws, 0, [], false⟩
/-- CAN.HFILT_ID.EN [30:30] (R448). -/
def F.CAN.HFILT_ID_EN : Fld := ⟨.CAN, 0x600, 8, 8, 30, 1, .rws, 0, [], false⟩
/-- CAN.HFILT_ID.GW [31:31] (R448). -/
def F.CAN.HFILT_ID_GW : Fld := ⟨.CAN, 0x600, 8, 8, 31, 1, .rws, 0, [], false⟩
/-- CAN.HFILT_MASK.M [28:0] (R448). -/
def F.CAN.HFILT_MASK_M : Fld := ⟨.CAN, 0x604, 8, 8, 0, 29, .rws, 0, [], false⟩
/-- CAN.TX_WIN.W [31:0] (R448). -/
def F.CAN.TX_WIN_W : Fld := ⟨.CAN, 0x680, 20, 4, 0, 32, .rw, 0, [], false⟩
/-- CAN.RX_WIN.W [31:0] (R448). -/
def F.CAN.RX_WIN_W : Fld := ⟨.CAN, 0x700, 20, 4, 0, 32, .ro, 0, [], false⟩
/-- CAN.HP_WIN.W [31:0] (R448). -/
def F.CAN.HP_WIN_W : Fld := ⟨.CAN, 0x780, 20, 4, 0, 32, .ro, 0, [], false⟩
/-- Fields of the CAN page, part 0. -/
def fieldsCAN0 : List Fld := [F.CAN.CTRL_OPMODE, F.CAN.CTRL_FD_EN, F.CAN.CTRL_AUTO_REC, F.CAN.CTRL_ONE_SHOT, F.CAN.CTRL_NOMATCH, F.CAN.CTRL_EP_HOLD, F.CAN.CTRL_SLEEP_REQ, F.CAN.RECOVER_GO, F.CAN.NBT0_BRP, F.CAN.NBT0_TSEG1, F.CAN.NBT1_TSEG2, F.CAN.NBT1_SJW, F.CAN.DBT0_BRP, F.CAN.DBT0_TSEG1, F.CAN.DBT1_TSEG2, F.CAN.DBT1_SJW, F.CAN.TDC_CFG_EN, F.CAN.TDC_CFG_TDCO, F.CAN.TDC_CFG_TDCF, F.CAN.STAT_STATE, F.CAN.STAT_ASLEEP, F.CAN.STAT_TX_ACTIVE, F.CAN.STAT_TDCV, F.CAN.STAT_LEC]
/-- Fields of the CAN page, part 1. -/
def fieldsCAN1 : List Fld := [F.CAN.STAT_STB, F.CAN.ERRCNT_TEC, F.CAN.ERRCNT_REC, F.CAN.TX_CFG_GW_SLOTS, F.CAN.TX_CFG_TAT_WIN, F.CAN.TX_SEL_IDX, F.CAN.TX_PUSH_IDX, F.CAN.TX_ACK_IDX, F.CAN.TX_ABORT_IDX, F.CAN.TX_STATE_S, F.CAN.RX_STAT_COUNT, F.CAN.RX_STAT_HEAD, F.CAN.RX_STAT_HP_COUNT, F.CAN.RX_ACK_RX, F.CAN.RX_ACK_HP, F.CAN.WP_ID_ID, F.CAN.WP_ID_IDE, F.CAN.WP_ID_EN, F.CAN.WP_MASK_M, F.CAN.WP_DATA_LO_D, F.CAN.WP_DATA_HI_D, F.CAN.WP_DMASK_LO_D, F.CAN.WP_DMASK_HI_D, F.CAN.SFILT_ID]
/-- Fields of the CAN page, part 2. -/
def fieldsCAN2 : List Fld := [F.CAN.SFILT_MASK, F.CAN.SFILT_ACT, F.CAN.XFILT_ID_ID, F.CAN.XFILT_ID_ACT, F.CAN.XFILT_MASK_M, F.CAN.HFILT_ID_ID, F.CAN.HFILT_ID_IDE, F.CAN.HFILT_ID_EN, F.CAN.HFILT_ID_GW, F.CAN.HFILT_MASK_M, F.CAN.TX_WIN_W, F.CAN.RX_WIN_W, F.CAN.HP_WIN_W]
/-- Every block field of the CAN page. -/
def fieldsCAN : List Fld := fieldsCAN0 ++ fieldsCAN1 ++ fieldsCAN2
/-- Counter CAN.RX_FRAMES (R448). -/
def C.CAN.RX_FRAMES : Ctr := ⟨.CAN, 0x800, 1, false⟩
/-- Counter CAN.RX_FILTERED (R448). -/
def C.CAN.RX_FILTERED : Ctr := ⟨.CAN, 0x808, 1, false⟩
/-- Counter CAN.RX_OVF (R448). -/
def C.CAN.RX_OVF : Ctr := ⟨.CAN, 0x810, 1, false⟩
/-- Counter CAN.HP_OVF (R448). -/
def C.CAN.HP_OVF : Ctr := ⟨.CAN, 0x818, 1, false⟩
/-- Counter CAN.RX_QUIESCE (R448). -/
def C.CAN.RX_QUIESCE : Ctr := ⟨.CAN, 0x820, 1, false⟩
/-- Counter CAN.TX_FRAMES (R448). -/
def C.CAN.TX_FRAMES : Ctr := ⟨.CAN, 0x828, 1, false⟩
/-- Counter CAN.TX_PUSH_ERR (R448). -/
def C.CAN.TX_PUSH_ERR : Ctr := ⟨.CAN, 0x830, 1, false⟩
/-- Counter CAN.TAT_LATE (R448). -/
def C.CAN.TAT_LATE : Ctr := ⟨.CAN, 0x838, 1, false⟩
/-- Counter CAN.BUSOFF_CNT (R448). -/
def C.CAN.BUSOFF_CNT : Ctr := ⟨.CAN, 0x840, 1, false⟩
/-- Counter CAN.GW_TXQ_FULL (R448). -/
def C.CAN.GW_TXQ_FULL : Ctr := ⟨.CAN, 0x848, 1, false⟩
/-- Counter CAN.GW_BUS_DOWN (R448). -/
def C.CAN.GW_BUS_DOWN : Ctr := ⟨.CAN, 0x850, 1, false⟩
/-- Counter CAN.GW_BUSOFF_DROP (R448). -/
def C.CAN.GW_BUSOFF_DROP : Ctr := ⟨.CAN, 0x858, 1, false⟩
/-- Counter CAN.PXE (R448). -/
def C.CAN.PXE : Ctr := ⟨.CAN, 0x860, 1, false⟩
/-- Counter CAN.WAKE_CNT (R448). -/
def C.CAN.WAKE_CNT : Ctr := ⟨.CAN, 0x868, 1, false⟩
/-- Counters of the CAN page, part 0. -/
def ctrsCAN0 : List Ctr := [C.CAN.RX_FRAMES, C.CAN.RX_FILTERED, C.CAN.RX_OVF, C.CAN.HP_OVF, C.CAN.RX_QUIESCE, C.CAN.TX_FRAMES, C.CAN.TX_PUSH_ERR, C.CAN.TAT_LATE, C.CAN.BUSOFF_CNT, C.CAN.GW_TXQ_FULL, C.CAN.GW_BUS_DOWN, C.CAN.GW_BUSOFF_DROP, C.CAN.PXE, C.CAN.WAKE_CNT]
/-- Every counter of the CAN page. -/
def ctrsCAN : List Ctr := ctrsCAN0
/-- Error source CAN 0 PACE, reset code 1 (R450). -/
def E.CAN.PACE : Src := ⟨.CAN, 0, 1, false⟩
/-- Error source CAN 1 BUS_OFF, reset code 1 (R450). -/
def E.CAN.BUS_OFF : Src := ⟨.CAN, 1, 1, false⟩
/-- Error source CAN 2 ERR_PASSIVE, reset code 0 (R450). -/
def E.CAN.ERR_PASSIVE : Src := ⟨.CAN, 2, 0, false⟩
/-- Error source CAN 3 HP_HELD, reset code 1 (R450). -/
def E.CAN.HP_HELD : Src := ⟨.CAN, 3, 1, false⟩
/-- Error source CAN 4 HP_OVF, reset code 1 (R450). -/
def E.CAN.HP_OVF : Src := ⟨.CAN, 4, 1, false⟩
/-- Error source CAN 5 RXQ_EVENT, reset code 0 (R450). -/
def E.CAN.RXQ_EVENT : Src := ⟨.CAN, 5, 0, false⟩
/-- Error source CAN 6 TXQ_EVENT, reset code 0 (R450). -/
def E.CAN.TXQ_EVENT : Src := ⟨.CAN, 6, 0, false⟩
/-- Error source CAN 7 WAKE, reset code 1 (R450). -/
def E.CAN.WAKE : Src := ⟨.CAN, 7, 1, false⟩
/-- Error source CAN 8 QUEUE_ECC, reset code 1 (R450). -/
def E.CAN.QUEUE_ECC : Src := ⟨.CAN, 8, 1, false⟩
/-- Every error source of the CAN page (R510). -/
def srcsCAN : List Src := [E.CAN.PACE, E.CAN.BUS_OFF, E.CAN.ERR_PASSIVE, E.CAN.HP_HELD, E.CAN.HP_OVF, E.CAN.RXQ_EVENT, E.CAN.TXQ_EVENT, E.CAN.WAKE, E.CAN.QUEUE_ECC]

/-! ## GWY page -/

/-- GWY.CFG.DEFAULT [0:0] (R449). -/
def F.GWY.CFG_DEFAULT : Fld := ⟨.GWY, 0x040, 1, 4, 0, 1, .rws, 0, [], false⟩
/-- GWY.CFG.FRESH_ZERO_OK [1:1] (R449). -/
def F.GWY.CFG_FRESH_ZERO_OK : Fld := ⟨.GWY, 0x040, 1, 4, 1, 1, .rws, 0, [], false⟩
/-- GWY.CFG.HOST_CLASS [6:4] (R449). -/
def F.GWY.CFG_HOST_CLASS : Fld := ⟨.GWY, 0x040, 1, 4, 4, 3, .rws, 0, [], false⟩
/-- GWY.STAT.RULES [12:0] (R449). -/
def F.GWY.STAT_RULES : Fld := ⟨.GWY, 0x044, 1, 4, 0, 13, .ro, 0, [], false⟩
/-- GWY.STAT.FRESH_LOST [16:16] (R449). -/
def F.GWY.STAT_FRESH_LOST : Fld := ⟨.GWY, 0x044, 1, 4, 16, 1, .ro, 1, [], false⟩
/-- GWY.STANDBY_CAN.BUS [31:0] (R449). -/
def F.GWY.STANDBY_CAN_BUS : Fld := ⟨.GWY, 0x048, 1, 4, 0, 32, .w1c, 0, [], false⟩
/-- GWY.STANDBY_ETH.PORT [15:0] (R449). -/
def F.GWY.STANDBY_ETH_PORT : Fld := ⟨.GWY, 0x04C, 1, 4, 0, 16, .w1c, 0, [], false⟩
/-- GWY.WAKE_FRAME_INFO.ENTRY [5:0] (R449). -/
def F.GWY.WAKE_FRAME_INFO_ENTRY : Fld := ⟨.GWY, 0x080, 1, 4, 0, 6, .ro, 0, [], false⟩
/-- GWY.WAKE_FRAME_INFO.BUS [12:8] (R449). -/
def F.GWY.WAKE_FRAME_INFO_BUS : Fld := ⟨.GWY, 0x080, 1, 4, 8, 5, .ro, 0, [], false⟩
/-- GWY.WAKE_FRAME_INFO.KIND [14:13] (R449). -/
def F.GWY.WAKE_FRAME_INFO_KIND : Fld := ⟨.GWY, 0x080, 1, 4, 13, 2, .ro, 0, [], false⟩
/-- GWY.WAKE_FRAME_INFO.DLC [19:16] (R449). -/
def F.GWY.WAKE_FRAME_INFO_DLC : Fld := ⟨.GWY, 0x080, 1, 4, 16, 4, .ro, 0, [], false⟩
/-- GWY.WAKE_FRAME_ID.ID [28:0] (R449). -/
def F.GWY.WAKE_FRAME_ID_ID : Fld := ⟨.GWY, 0x084, 1, 4, 0, 29, .ro, 0, [], false⟩
/-- GWY.WAKE_FRAME_ID.IDE [29:29] (R449). -/
def F.GWY.WAKE_FRAME_ID_IDE : Fld := ⟨.GWY, 0x084, 1, 4, 29, 1, .ro, 0, [], false⟩
/-- GWY.WAKE_FRAME_LO.D [31:0] (R449). -/
def F.GWY.WAKE_FRAME_LO_D : Fld := ⟨.GWY, 0x088, 1, 4, 0, 32, .ro, 0, [], false⟩
/-- GWY.WAKE_FRAME_HI.D [31:0] (R449). -/
def F.GWY.WAKE_FRAME_HI_D : Fld := ⟨.GWY, 0x08C, 1, 4, 0, 32, .ro, 0, [], false⟩
/-- GWY.ST_DMAC_LO.A [31:0] (R449). -/
def F.GWY.ST_DMAC_LO_A : Fld := ⟨.GWY, 0x100, 16, 32, 0, 32, .rws, 0, [], false⟩
/-- GWY.ST_DMAC_HI.A [15:0] (R449). -/
def F.GWY.ST_DMAC_HI_A : Fld := ⟨.GWY, 0x104, 16, 32, 0, 16, .rws, 0, [], false⟩
/-- GWY.ST_SID_LO.S [31:0] (R449). -/
def F.GWY.ST_SID_LO_S : Fld := ⟨.GWY, 0x108, 16, 32, 0, 32, .rws, 0, [], false⟩
/-- GWY.ST_SID_HI.S [31:0] (R449). -/
def F.GWY.ST_SID_HI_S : Fld := ⟨.GWY, 0x10C, 16, 32, 0, 32, .rws, 0, [], false⟩
/-- GWY.ST_CFG.PORT [3:0] (R449). -/
def F.GWY.ST_CFG_PORT : Fld := ⟨.GWY, 0x110, 16, 32, 0, 4, .rws, 0, [], false⟩
/-- GWY.ST_CFG.VID [15:4] (R449). -/
def F.GWY.ST_CFG_VID : Fld := ⟨.GWY, 0x110, 16, 32, 4, 12, .rws, 0, [], false⟩
/-- GWY.ST_CFG.PCP [18:16] (R449). -/
def F.GWY.ST_CFG_PCP : Fld := ⟨.GWY, 0x110, 16, 32, 16, 3, .rws, 0, [], false⟩
/-- GWY.ST_CFG.CLASS [22:20] (R449). -/
def F.GWY.ST_CFG_CLASS : Fld := ⟨.GWY, 0x110, 16, 32, 20, 3, .rws, 0, [], false⟩
/-- GWY.ST_CFG.DIR [25:24] (R449). -/
def F.GWY.ST_CFG_DIR : Fld := ⟨.GWY, 0x110, 16, 32, 24, 2, .rws, 0, [], false⟩
/-- GWY.ST_SUB.SUB [11:0] (R449). -/
def F.GWY.ST_SUB_SUB : Fld := ⟨.GWY, 0x114, 16, 32, 0, 12, .rws, 0, [], false⟩
/-- GWY.WMAP_TRIG.BUS [4:0] (R449). -/
def F.GWY.WMAP_TRIG_BUS : Fld := ⟨.GWY, 0x300, 64, 16, 0, 5, .rws, 0, [], false⟩
/-- GWY.WMAP_TRIG.KIND [6:5] (R449). -/
def F.GWY.WMAP_TRIG_KIND : Fld := ⟨.GWY, 0x300, 64, 16, 5, 2, .rws, 0, [], false⟩
/-- GWY.WMAP_TRIG.PAT [9:8] (R449). -/
def F.GWY.WMAP_TRIG_PAT : Fld := ⟨.GWY, 0x300, 64, 16, 8, 2, .rws, 0, [], false⟩
/-- GWY.WMAP_CAN.BUS [31:0] (R449). -/
def F.GWY.WMAP_CAN_BUS : Fld := ⟨.GWY, 0x304, 64, 16, 0, 32, .rws, 0, [], false⟩
/-- GWY.WMAP_ETH.PORT [15:0] (R449). -/
def F.GWY.WMAP_ETH_PORT : Fld := ⟨.GWY, 0x308, 64, 16, 0, 16, .rws, 0, [], false⟩
/-- Fields of the GWY page, part 0. -/
def fieldsGWY0 : List Fld := [F.GWY.CFG_DEFAULT, F.GWY.CFG_FRESH_ZERO_OK, F.GWY.CFG_HOST_CLASS, F.GWY.STAT_RULES, F.GWY.STAT_FRESH_LOST, F.GWY.STANDBY_CAN_BUS, F.GWY.STANDBY_ETH_PORT, F.GWY.WAKE_FRAME_INFO_ENTRY, F.GWY.WAKE_FRAME_INFO_BUS, F.GWY.WAKE_FRAME_INFO_KIND, F.GWY.WAKE_FRAME_INFO_DLC, F.GWY.WAKE_FRAME_ID_ID, F.GWY.WAKE_FRAME_ID_IDE, F.GWY.WAKE_FRAME_LO_D, F.GWY.WAKE_FRAME_HI_D, F.GWY.ST_DMAC_LO_A, F.GWY.ST_DMAC_HI_A, F.GWY.ST_SID_LO_S, F.GWY.ST_SID_HI_S, F.GWY.ST_CFG_PORT, F.GWY.ST_CFG_VID, F.GWY.ST_CFG_PCP, F.GWY.ST_CFG_CLASS, F.GWY.ST_CFG_DIR]
/-- Fields of the GWY page, part 1. -/
def fieldsGWY1 : List Fld := [F.GWY.ST_SUB_SUB, F.GWY.WMAP_TRIG_BUS, F.GWY.WMAP_TRIG_KIND, F.GWY.WMAP_TRIG_PAT, F.GWY.WMAP_CAN_BUS, F.GWY.WMAP_ETH_PORT]
/-- Every block field of the GWY page. -/
def fieldsGWY : List Fld := fieldsGWY0 ++ fieldsGWY1
/-- Counter GWY.EVENTS (R449). -/
def C.GWY.EVENTS : Ctr := ⟨.GWY, 0x800, 1, false⟩
/-- Counter GWY.NO_RULE (R449). -/
def C.GWY.NO_RULE : Ctr := ⟨.GWY, 0x808, 1, false⟩
/-- Counter GWY.RULE_DROP (R449). -/
def C.GWY.RULE_DROP : Ctr := ⟨.GWY, 0x810, 1, false⟩
/-- Counter GWY.RL_DROP (R449). -/
def C.GWY.RL_DROP : Ctr := ⟨.GWY, 0x818, 1, false⟩
/-- Counter GWY.RL_HELD (R449). -/
def C.GWY.RL_HELD : Ctr := ⟨.GWY, 0x820, 1, false⟩
/-- Counter GWY.AUTH_OK (R449). -/
def C.GWY.AUTH_OK : Ctr := ⟨.GWY, 0x828, 1, false⟩
/-- Counter GWY.AUTH_FAIL (R449). -/
def C.GWY.AUTH_FAIL : Ctr := ⟨.GWY, 0x830, 1, false⟩
/-- Counter GWY.AUTH_NOKEY (R449). -/
def C.GWY.AUTH_NOKEY : Ctr := ⟨.GWY, 0x838, 1, false⟩
/-- Counter GWY.AUTH_NOFRESH (R449). -/
def C.GWY.AUTH_NOFRESH : Ctr := ⟨.GWY, 0x840, 1, false⟩
/-- Counter GWY.FRESH_WRAP (R449). -/
def C.GWY.FRESH_WRAP : Ctr := ⟨.GWY, 0x848, 1, false⟩
/-- Counter GWY.FMT_DROP (R449). -/
def C.GWY.FMT_DROP : Ctr := ⟨.GWY, 0x850, 1, false⟩
/-- Counter GWY.ENC_TX (R449). -/
def C.GWY.ENC_TX : Ctr := ⟨.GWY, 0x858, 1, false⟩
/-- Counter GWY.ACF_SKIP (R449). -/
def C.GWY.ACF_SKIP : Ctr := ⟨.GWY, 0x860, 1, false⟩
/-- Counter GWY.ACF_BAD (R449). -/
def C.GWY.ACF_BAD : Ctr := ⟨.GWY, 0x868, 1, false⟩
/-- Counter GWY.WAKE_DROP (R449). -/
def C.GWY.WAKE_DROP : Ctr := ⟨.GWY, 0x870, 1, false⟩
/-- Counters of the GWY page, part 0. -/
def ctrsGWY0 : List Ctr := [C.GWY.EVENTS, C.GWY.NO_RULE, C.GWY.RULE_DROP, C.GWY.RL_DROP, C.GWY.RL_HELD, C.GWY.AUTH_OK, C.GWY.AUTH_FAIL, C.GWY.AUTH_NOKEY, C.GWY.AUTH_NOFRESH, C.GWY.FRESH_WRAP, C.GWY.FMT_DROP, C.GWY.ENC_TX, C.GWY.ACF_SKIP, C.GWY.ACF_BAD, C.GWY.WAKE_DROP]
/-- Every counter of the GWY page. -/
def ctrsGWY : List Ctr := ctrsGWY0
/-- Error source GWY 0 PACE, reset code 1 (R450). -/
def E.GWY.PACE : Src := ⟨.GWY, 0, 1, false⟩
/-- Error source GWY 1 RULE_ECC, reset code 2 (R450). -/
def E.GWY.RULE_ECC : Src := ⟨.GWY, 1, 2, false⟩
/-- Error source GWY 2 AUTH_FAIL, reset code 0 (R450). -/
def E.GWY.AUTH_FAIL : Src := ⟨.GWY, 2, 0, false⟩
/-- Error source GWY 3 FRESH_LOST, reset code 1 (R450). -/
def E.GWY.FRESH_LOST : Src := ⟨.GWY, 3, 1, false⟩
/-- Error source GWY 4 FRESH_ECC, reset code 1 (R450). -/
def E.GWY.FRESH_ECC : Src := ⟨.GWY, 4, 1, false⟩
/-- Every error source of the GWY page (R510). -/
def srcsGWY : List Src := [E.GWY.PACE, E.GWY.RULE_ECC, E.GWY.AUTH_FAIL, E.GWY.FRESH_LOST, E.GWY.FRESH_ECC]

/-! ## VXL page -/

/-- VXL.CFG.EN [0:0] (R476). -/
def F.VXL.CFG_EN : Fld := ⟨.VXL, 0x040, 1, 4, 0, 1, .rws, 0, [], false⟩
/-- VXL.CFG.LANE_ERR [15:8] (R476). -/
def F.VXL.CFG_LANE_ERR : Fld := ⟨.VXL, 0x040, 1, 4, 8, 8, .rws, 16, [], false⟩
/-- VXL.CFG.FC_EN [16:16] (R476). -/
def F.VXL.CFG_FC_EN : Fld := ⟨.VXL, 0x040, 1, 4, 16, 1, .rws, 1, [], false⟩
/-- VXL.STAT.STATE [2:0] (R476). -/
def F.VXL.STAT_STATE : Fld := ⟨.VXL, 0x044, 1, 4, 0, 3, .ro, 0, [], false⟩
/-- VXL.STAT.FAULT_CAUSE [5:4] (R476). -/
def F.VXL.STAT_FAULT_CAUSE : Fld := ⟨.VXL, 0x044, 1, 4, 4, 2, .ro, 0, [], false⟩
/-- VXL.STAT.DEGRADED [6:6] (R476). -/
def F.VXL.STAT_DEGRADED : Fld := ⟨.VXL, 0x044, 1, 4, 6, 1, .ro, 0, [], false⟩
/-- VXL.STAT.HELD_RX [15:8] (R476). -/
def F.VXL.STAT_HELD_RX : Fld := ⟨.VXL, 0x044, 1, 4, 8, 8, .ro, 0, [], false⟩
/-- VXL.STAT.PEER_ID [21:16] (R476). -/
def F.VXL.STAT_PEER_ID : Fld := ⟨.VXL, 0x044, 1, 4, 16, 6, .ro, 0, [], false⟩
/-- VXL.LANE_STAT.LOCK [2:0] (R476). -/
def F.VXL.LANE_STAT_LOCK : Fld := ⟨.VXL, 0x048, 1, 4, 0, 3, .ro, 0, [], false⟩
/-- VXL.LANE_STAT.FAILED [6:4] (R476). -/
def F.VXL.LANE_STAT_FAILED : Fld := ⟨.VXL, 0x048, 1, 4, 4, 3, .ro, 0, [], false⟩
/-- VXL.LANE_STAT.MAP0 [9:8] (R476). -/
def F.VXL.LANE_STAT_MAP0 : Fld := ⟨.VXL, 0x048, 1, 4, 8, 2, .ro, 0, [], false⟩
/-- VXL.LANE_STAT.MAP1 [11:10] (R476). -/
def F.VXL.LANE_STAT_MAP1 : Fld := ⟨.VXL, 0x048, 1, 4, 10, 2, .ro, 0, [], false⟩
/-- VXL.PEER_EUI_LO.E [31:0] (R476). -/
def F.VXL.PEER_EUI_LO_E : Fld := ⟨.VXL, 0x04C, 1, 4, 0, 32, .ro, 0, [], false⟩
/-- VXL.PEER_EUI_HI.E [31:0] (R476). -/
def F.VXL.PEER_EUI_HI_E : Fld := ⟨.VXL, 0x050, 1, 4, 0, 32, .ro, 0, [], false⟩
/-- VXL.FC_THR.XOFF [10:0] (R476). -/
def F.VXL.FC_THR_XOFF : Fld := ⟨.VXL, 0x054, 1, 4, 0, 11, .rws, 768, [], false⟩
/-- VXL.FC_THR.XON [26:16] (R476). -/
def F.VXL.FC_THR_XON : Fld := ⟨.VXL, 0x054, 1, 4, 16, 11, .rws, 512, [], false⟩
/-- Fields of the VXL page, part 0. -/
def fieldsVXL0 : List Fld := [F.VXL.CFG_EN, F.VXL.CFG_LANE_ERR, F.VXL.CFG_FC_EN, F.VXL.STAT_STATE, F.VXL.STAT_FAULT_CAUSE, F.VXL.STAT_DEGRADED, F.VXL.STAT_HELD_RX, F.VXL.STAT_PEER_ID, F.VXL.LANE_STAT_LOCK, F.VXL.LANE_STAT_FAILED, F.VXL.LANE_STAT_MAP0, F.VXL.LANE_STAT_MAP1, F.VXL.PEER_EUI_LO_E, F.VXL.PEER_EUI_HI_E, F.VXL.FC_THR_XOFF, F.VXL.FC_THR_XON]
/-- Every block field of the VXL page. -/
def fieldsVXL : List Fld := fieldsVXL0
/-- Counter VXL.RX_FRAMES (R476). -/
def C.VXL.RX_FRAMES : Ctr := ⟨.VXL, 0x800, 1, false⟩
/-- Counter VXL.RX_OCTETS (R476). -/
def C.VXL.RX_OCTETS : Ctr := ⟨.VXL, 0x808, 1, false⟩
/-- Counter VXL.TX_FRAMES (R476). -/
def C.VXL.TX_FRAMES : Ctr := ⟨.VXL, 0x810, 1, false⟩
/-- Counter VXL.TX_OCTETS (R476). -/
def C.VXL.TX_OCTETS : Ctr := ⟨.VXL, 0x818, 1, false⟩
/-- Counter VXL.RX_CODE_ERR (R476). -/
def C.VXL.RX_CODE_ERR : Ctr := ⟨.VXL, 0x820, 1, false⟩
/-- Counter VXL.RX_HCRC_ERR (R476). -/
def C.VXL.RX_HCRC_ERR : Ctr := ⟨.VXL, 0x828, 1, false⟩
/-- Counter VXL.RX_HDR_ERR (R476). -/
def C.VXL.RX_HDR_ERR : Ctr := ⟨.VXL, 0x830, 1, false⟩
/-- Counter VXL.RX_FID_DROP (R476). -/
def C.VXL.RX_FID_DROP : Ctr := ⟨.VXL, 0x838, 1, false⟩
/-- Counter VXL.RX_LEN_ERR (R476). -/
def C.VXL.RX_LEN_ERR : Ctr := ⟨.VXL, 0x840, 1, false⟩
/-- Counter VXL.RX_CRC_ERR (R476). -/
def C.VXL.RX_CRC_ERR : Ctr := ⟨.VXL, 0x848, 1, false⟩
/-- Counter VXL.TTL_DROP (R476). -/
def C.VXL.TTL_DROP : Ctr := ⟨.VXL, 0x850, 1, false⟩
/-- Counter VXL.RPF_DROP (R476). -/
def C.VXL.RPF_DROP : Ctr := ⟨.VXL, 0x858, 1, false⟩
/-- Counter VXL.RX_QUIESCE (R476). -/
def C.VXL.RX_QUIESCE : Ctr := ⟨.VXL, 0x860, 1, false⟩
/-- Counter VXL.LINK_DOWN (R476). -/
def C.VXL.LINK_DOWN : Ctr := ⟨.VXL, 0x868, 1, false⟩
/-- Counter VXL.LANE_SWAP (R476). -/
def C.VXL.LANE_SWAP : Ctr := ⟨.VXL, 0x870, 1, false⟩
/-- Counter VXL.FC_TX (R476). -/
def C.VXL.FC_TX : Ctr := ⟨.VXL, 0x878, 1, false⟩
/-- Counters of the VXL page, part 0. -/
def ctrsVXL0 : List Ctr := [C.VXL.RX_FRAMES, C.VXL.RX_OCTETS, C.VXL.TX_FRAMES, C.VXL.TX_OCTETS, C.VXL.RX_CODE_ERR, C.VXL.RX_HCRC_ERR, C.VXL.RX_HDR_ERR, C.VXL.RX_FID_DROP, C.VXL.RX_LEN_ERR, C.VXL.RX_CRC_ERR, C.VXL.TTL_DROP, C.VXL.RPF_DROP, C.VXL.RX_QUIESCE, C.VXL.LINK_DOWN, C.VXL.LANE_SWAP, C.VXL.FC_TX]
/-- Every counter of the VXL page. -/
def ctrsVXL : List Ctr := ctrsVXL0
/-- Error source VXL 0 PACE, reset code 1 (R477). -/
def E.VXL.PACE : Src := ⟨.VXL, 0, 1, false⟩
/-- Error source VXL 1 LINK_DOWN, reset code 1 (R477). -/
def E.VXL.LINK_DOWN : Src := ⟨.VXL, 1, 1, false⟩
/-- Error source VXL 2 LANE_SWAP, reset code 1 (R477). -/
def E.VXL.LANE_SWAP : Src := ⟨.VXL, 2, 1, false⟩
/-- Error source VXL 3 DEGRADED, reset code 1 (R477). -/
def E.VXL.DEGRADED : Src := ⟨.VXL, 3, 1, false⟩
/-- Error source VXL 4 FIFO_ECC, reset code 1 (R477). -/
def E.VXL.FIFO_ECC : Src := ⟨.VXL, 4, 1, false⟩
/-- Every error source of the VXL page (R510). -/
def srcsVXL : List Src := [E.VXL.PACE, E.VXL.LINK_DOWN, E.VXL.LANE_SWAP, E.VXL.DEGRADED, E.VXL.FIFO_ECC]

/-! ## HUD page -/

/-- HUD.CFG.PREF_ID [5:0] (R476). -/
def F.HUD.CFG_PREF_ID : Fld := ⟨.HUD, 0x040, 1, 4, 0, 6, .rws, 0, [], false⟩
/-- HUD.CFG.PREF_EN [6:6] (R476). -/
def F.HUD.CFG_PREF_EN : Fld := ⟨.HUD, 0x040, 1, 4, 6, 1, .rws, 0, [], false⟩
/-- HUD.CFG.FID [15:8] (R476). -/
def F.HUD.CFG_FID : Fld := ⟨.HUD, 0x040, 1, 4, 8, 8, .rws, 0, [], false⟩
/-- HUD.CFG.TTL [23:16] (R476). -/
def F.HUD.CFG_TTL : Fld := ⟨.HUD, 0x040, 1, 4, 16, 8, .rws, 16, [], false⟩
/-- HUD.TIMING.REFRESH [15:0] (R476). -/
def F.HUD.TIMING_REFRESH : Fld := ⟨.HUD, 0x044, 1, 4, 0, 16, .rws, 1000, [], false⟩
/-- HUD.TIMING.SETTLE [31:16] (R476). -/
def F.HUD.TIMING_SETTLE : Fld := ⟨.HUD, 0x044, 1, 4, 16, 16, .rws, 50, [], false⟩
/-- HUD.STAT.ID [5:0] (R476). -/
def F.HUD.STAT_ID : Fld := ⟨.HUD, 0x048, 1, 4, 0, 6, .ro, 0, [], false⟩
/-- HUD.STAT.NO_ID [6:6] (R476). -/
def F.HUD.STAT_NO_ID : Fld := ⟨.HUD, 0x048, 1, 4, 6, 1, .ro, 0, [], false⟩
/-- HUD.STAT.SETTLED [7:7] (R476). -/
def F.HUD.STAT_SETTLED : Fld := ⟨.HUD, 0x048, 1, 4, 7, 1, .ro, 0, [], false⟩
/-- HUD.STAT.DEVICES [14:8] (R476). -/
def F.HUD.STAT_DEVICES : Fld := ⟨.HUD, 0x048, 1, 4, 8, 7, .ro, 0, [], false⟩
/-- HUD.STAT.REHUDDLE [15:15] (R476). -/
def F.HUD.STAT_REHUDDLE : Fld := ⟨.HUD, 0x048, 1, 4, 15, 1, .ro, 0, [], false⟩
/-- HUD.EUI_LO.E [31:0] (R476). -/
def F.HUD.EUI_LO_E : Fld := ⟨.HUD, 0x04C, 1, 4, 0, 32, .ro, 0, [], false⟩
/-- HUD.EUI_HI.E [31:0] (R476). -/
def F.HUD.EUI_HI_E : Fld := ⟨.HUD, 0x050, 1, 4, 0, 32, .ro, 0, [], false⟩
/-- HUD.SEQ.N [31:0] (R476). -/
def F.HUD.SEQ_N : Fld := ⟨.HUD, 0x054, 1, 4, 0, 32, .ro, 0, [], false⟩
/-- HUD.ID_LAST.ID [5:0] (R476). -/
def F.HUD.ID_LAST_ID : Fld := ⟨.HUD, 0x058, 1, 4, 0, 6, .ro, 0, [], false⟩
/-- HUD.ID_LAST.VALID [7:7] (R476). -/
def F.HUD.ID_LAST_VALID : Fld := ⟨.HUD, 0x058, 1, 4, 7, 1, .ro, 0, [], false⟩
/-- HUD.LINK_COST.C [15:0] (R476). -/
def F.HUD.LINK_COST_C : Fld := ⟨.HUD, 0x060, 8, 4, 0, 16, .rws, 0, [], false⟩
/-- HUD.SPT.VALID [0:0] (R476). -/
def F.HUD.SPT_VALID : Fld := ⟨.HUD, 0x080, 64, 4, 0, 1, .ro, 0, [], false⟩
/-- HUD.SPT.LINK [3:1] (R476). -/
def F.HUD.SPT_LINK : Fld := ⟨.HUD, 0x080, 64, 4, 1, 3, .ro, 0, [], false⟩
/-- HUD.SPT.HOPS [9:4] (R476). -/
def F.HUD.SPT_HOPS : Fld := ⟨.HUD, 0x080, 64, 4, 4, 6, .ro, 0, [], false⟩
/-- HUD.SPT.COST [31:16] (R476). -/
def F.HUD.SPT_COST : Fld := ⟨.HUD, 0x080, 64, 4, 16, 16, .ro, 0, [], false⟩
/-- Fields of the HUD page, part 0. -/
def fieldsHUD0 : List Fld := [F.HUD.CFG_PREF_ID, F.HUD.CFG_PREF_EN, F.HUD.CFG_FID, F.HUD.CFG_TTL, F.HUD.TIMING_REFRESH, F.HUD.TIMING_SETTLE, F.HUD.STAT_ID, F.HUD.STAT_NO_ID, F.HUD.STAT_SETTLED, F.HUD.STAT_DEVICES, F.HUD.STAT_REHUDDLE, F.HUD.EUI_LO_E, F.HUD.EUI_HI_E, F.HUD.SEQ_N, F.HUD.ID_LAST_ID, F.HUD.ID_LAST_VALID, F.HUD.LINK_COST_C, F.HUD.SPT_VALID, F.HUD.SPT_LINK, F.HUD.SPT_HOPS, F.HUD.SPT_COST]
/-- Every block field of the HUD page. -/
def fieldsHUD : List Fld := fieldsHUD0
/-- Counter HUD.LSA_RX (R476). -/
def C.HUD.LSA_RX : Ctr := ⟨.HUD, 0x800, 1, false⟩
/-- Counter HUD.LSA_TX (R476). -/
def C.HUD.LSA_TX : Ctr := ⟨.HUD, 0x808, 1, false⟩
/-- Counter HUD.LSA_STALE (R476). -/
def C.HUD.LSA_STALE : Ctr := ⟨.HUD, 0x810, 1, false⟩
/-- Counter HUD.CONTESTS (R476). -/
def C.HUD.CONTESTS : Ctr := ⟨.HUD, 0x818, 1, false⟩
/-- Counter HUD.ID_CHANGES (R476). -/
def C.HUD.ID_CHANGES : Ctr := ⟨.HUD, 0x820, 1, false⟩
/-- Counter HUD.SPT_RUNS (R476). -/
def C.HUD.SPT_RUNS : Ctr := ⟨.HUD, 0x828, 1, false⟩
/-- Counters of the HUD page, part 0. -/
def ctrsHUD0 : List Ctr := [C.HUD.LSA_RX, C.HUD.LSA_TX, C.HUD.LSA_STALE, C.HUD.CONTESTS, C.HUD.ID_CHANGES, C.HUD.SPT_RUNS]
/-- Every counter of the HUD page. -/
def ctrsHUD : List Ctr := ctrsHUD0
/-- Error source HUD 0 ID_CHANGE, reset code 1 (R477). -/
def E.HUD.ID_CHANGE : Src := ⟨.HUD, 0, 1, false⟩
/-- Error source HUD 1 NO_ID, reset code 5 (R477). -/
def E.HUD.NO_ID : Src := ⟨.HUD, 1, 5, false⟩
/-- Error source HUD 2 LSDB_ECC, reset code 2 (R477). -/
def E.HUD.LSDB_ECC : Src := ⟨.HUD, 2, 2, false⟩
/-- Every error source of the HUD page (R510). -/
def srcsHUD : List Src := [E.HUD.ID_CHANGE, E.HUD.NO_ID, E.HUD.LSDB_ECC]

/-! ## TWN page -/

/-- TWN.CFG.EN [0:0] (R508). -/
def F.TWN.CFG_EN : Fld := ⟨.TWN, 0x040, 1, 4, 0, 1, .rws, 0, [], false⟩
/-- TWN.CFG.LINK [6:4] (R508). -/
def F.TWN.CFG_LINK : Fld := ⟨.TWN, 0x040, 1, 4, 4, 3, .rws, 0, [], false⟩
/-- TWN.CFG.GO_FILT [31:16] (R508). -/
def F.TWN.CFG_GO_FILT : Fld := ⟨.TWN, 0x040, 1, 4, 16, 16, .rws, 100, [], false⟩
/-- TWN.JCFG.ACK_INT [7:0] (R508). -/
def F.TWN.JCFG_ACK_INT : Fld := ⟨.TWN, 0x044, 1, 4, 0, 8, .rws, 2, [], false⟩
/-- TWN.JCFG.JTIMEOUT [15:8] (R508). -/
def F.TWN.JCFG_JTIMEOUT : Fld := ⟨.TWN, 0x044, 1, 4, 8, 8, .rws, 2, [], false⟩
/-- TWN.JCFG.LAG_MAX [23:16] (R508). -/
def F.TWN.JCFG_LAG_MAX : Fld := ⟨.TWN, 0x044, 1, 4, 16, 8, .rws, 5, [], false⟩
/-- TWN.PAIR_EUI_LO.E [31:0] (R508). -/
def F.TWN.PAIR_EUI_LO_E : Fld := ⟨.TWN, 0x048, 1, 4, 0, 32, .rws, 0, [], false⟩
/-- TWN.PAIR_EUI_HI.E [31:0] (R508). -/
def F.TWN.PAIR_EUI_HI_E : Fld := ⟨.TWN, 0x04C, 1, 4, 0, 32, .rws, 0, [], false⟩
/-- TWN.STAT.STATE [2:0] (R508). -/
def F.TWN.STAT_STATE : Fld := ⟨.TWN, 0x050, 1, 4, 0, 3, .ro, 0, [], false⟩
/-- TWN.STAT.POSS_HELD [3:3] (R508). -/
def F.TWN.STAT_POSS_HELD : Fld := ⟨.TWN, 0x050, 1, 4, 3, 1, .ro, 0, [], false⟩
/-- TWN.STAT.POSS_LINE [4:4] (R508). -/
def F.TWN.STAT_POSS_LINE : Fld := ⟨.TWN, 0x050, 1, 4, 4, 1, .ro, 0, [], false⟩
/-- TWN.STAT.GO [5:5] (R508). -/
def F.TWN.STAT_GO : Fld := ⟨.TWN, 0x050, 1, 4, 5, 1, .ro, 0, [], false⟩
/-- TWN.STAT.HB_CODE [7:6] (R508). -/
def F.TWN.STAT_HB_CODE : Fld := ⟨.TWN, 0x050, 1, 4, 6, 2, .ro, 0, [], false⟩
/-- TWN.STAT.LINK_UP [8:8] (R508). -/
def F.TWN.STAT_LINK_UP : Fld := ⟨.TWN, 0x050, 1, 4, 8, 1, .ro, 0, [], false⟩
/-- TWN.STAT.PARTNER [14:12] (R508). -/
def F.TWN.STAT_PARTNER : Fld := ⟨.TWN, 0x050, 1, 4, 12, 3, .ro, 0, [], false⟩
/-- TWN.PT_OFS_LO.O [31:0] (R508). -/
def F.TWN.PT_OFS_LO_O : Fld := ⟨.TWN, 0x054, 1, 4, 0, 32, .ro, 0, [], false⟩
/-- TWN.PT_OFS_HI.O [31:0] (R508). -/
def F.TWN.PT_OFS_HI_O : Fld := ⟨.TWN, 0x058, 1, 4, 0, 32, .ro, 0, [], false⟩
/-- TWN.LAG.US [31:0] (R508). -/
def F.TWN.LAG_US : Fld := ⟨.TWN, 0x05C, 1, 4, 0, 32, .ro, 0, [], false⟩
/-- TWN.LAST_SEQ_LO.S [31:0] (R508). -/
def F.TWN.LAST_SEQ_LO_S : Fld := ⟨.TWN, 0x060, 2, 8, 0, 32, .ro, 0, [], false⟩
/-- TWN.LAST_SEQ_HI.S [31:0] (R508). -/
def F.TWN.LAST_SEQ_HI_S : Fld := ⟨.TWN, 0x064, 2, 8, 0, 32, .ro, 0, [], false⟩
/-- TWN.LAST_TAG.T [31:0] (R508). -/
def F.TWN.LAST_TAG_T : Fld := ⟨.TWN, 0x070, 2, 8, 0, 32, .ro, 0, [], false⟩
/-- TWN.LAST_RING.R [1:0] (R508). -/
def F.TWN.LAST_RING_R : Fld := ⟨.TWN, 0x074, 2, 8, 0, 2, .ro, 0, [], false⟩
/-- TWN.UMP_CFG.EN [0:0] (R508). -/
def F.TWN.UMP_CFG_EN : Fld := ⟨.TWN, 0x080, 1, 4, 0, 1, .rws, 0, [], false⟩
/-- TWN.UMP_CFG.PREF [1:1] (R508). -/
def F.TWN.UMP_CFG_PREF : Fld := ⟨.TWN, 0x080, 1, 4, 1, 1, .rws, 0, [], false⟩
/-- TWN.UMP_CFG.ERR_EN [2:2] (R508). -/
def F.TWN.UMP_CFG_ERR_EN : Fld := ⟨.TWN, 0x080, 1, 4, 2, 1, .rws, 0, [], false⟩
/-- TWN.UMP_CFG.RST_EN [3:3] (R508). -/
def F.TWN.UMP_CFG_RST_EN : Fld := ⟨.TWN, 0x080, 1, 4, 3, 1, .rws, 0, [], false⟩
/-- TWN.UMP_STAT.CODE_A [1:0] (R508). -/
def F.TWN.UMP_STAT_CODE_A : Fld := ⟨.TWN, 0x084, 1, 4, 0, 2, .ro, 0, [], false⟩
/-- TWN.UMP_STAT.CODE_B [3:2] (R508). -/
def F.TWN.UMP_STAT_CODE_B : Fld := ⟨.TWN, 0x084, 1, 4, 2, 2, .ro, 0, [], false⟩
/-- TWN.UMP_STAT.GO_A [4:4] (R508). -/
def F.TWN.UMP_STAT_GO_A : Fld := ⟨.TWN, 0x084, 1, 4, 4, 1, .ro, 0, [], false⟩
/-- TWN.UMP_STAT.GO_B [5:5] (R508). -/
def F.TWN.UMP_STAT_GO_B : Fld := ⟨.TWN, 0x084, 1, 4, 5, 1, .ro, 0, [], false⟩
/-- TWN.UMP_STAT.BLOCK_A [6:6] (R508). -/
def F.TWN.UMP_STAT_BLOCK_A : Fld := ⟨.TWN, 0x084, 1, 4, 6, 1, .ro, 0, [], false⟩
/-- TWN.UMP_STAT.BLOCK_B [7:7] (R508). -/
def F.TWN.UMP_STAT_BLOCK_B : Fld := ⟨.TWN, 0x084, 1, 4, 7, 1, .ro, 0, [], false⟩
/-- Fields of the TWN page, part 0. -/
def fieldsTWN0 : List Fld := [F.TWN.CFG_EN, F.TWN.CFG_LINK, F.TWN.CFG_GO_FILT, F.TWN.JCFG_ACK_INT, F.TWN.JCFG_JTIMEOUT, F.TWN.JCFG_LAG_MAX, F.TWN.PAIR_EUI_LO_E, F.TWN.PAIR_EUI_HI_E, F.TWN.STAT_STATE, F.TWN.STAT_POSS_HELD, F.TWN.STAT_POSS_LINE, F.TWN.STAT_GO, F.TWN.STAT_HB_CODE, F.TWN.STAT_LINK_UP, F.TWN.STAT_PARTNER, F.TWN.PT_OFS_LO_O, F.TWN.PT_OFS_HI_O, F.TWN.LAG_US, F.TWN.LAST_SEQ_LO_S, F.TWN.LAST_SEQ_HI_S, F.TWN.LAST_TAG_T, F.TWN.LAST_RING_R, F.TWN.UMP_CFG_EN, F.TWN.UMP_CFG_PREF]
/-- Fields of the TWN page, part 1. -/
def fieldsTWN1 : List Fld := [F.TWN.UMP_CFG_ERR_EN, F.TWN.UMP_CFG_RST_EN, F.TWN.UMP_STAT_CODE_A, F.TWN.UMP_STAT_CODE_B, F.TWN.UMP_STAT_GO_A, F.TWN.UMP_STAT_GO_B, F.TWN.UMP_STAT_BLOCK_A, F.TWN.UMP_STAT_BLOCK_B]
/-- Every block field of the TWN page. -/
def fieldsTWN : List Fld := fieldsTWN0 ++ fieldsTWN1
/-- Counter TWN.JRN_SENT (R508). -/
def C.TWN.JRN_SENT : Ctr := ⟨.TWN, 0x800, 1, false⟩
/-- Counter TWN.JRN_RESEND (R508). -/
def C.TWN.JRN_RESEND : Ctr := ⟨.TWN, 0x808, 1, false⟩
/-- Counter TWN.JRN_WAIT (R508). -/
def C.TWN.JRN_WAIT : Ctr := ⟨.TWN, 0x810, 1, false⟩
/-- Counter TWN.TAKEOVERS (R508). -/
def C.TWN.TAKEOVERS : Ctr := ⟨.TWN, 0x818, 1, false⟩
/-- Counter TWN.DEMOTIONS (R508). -/
def C.TWN.DEMOTIONS : Ctr := ⟨.TWN, 0x820, 1, false⟩
/-- Counter TWN.FORMS (R508). -/
def C.TWN.FORMS : Ctr := ⟨.TWN, 0x828, 1, false⟩
/-- Counter TWN.LOST_REC (R508). -/
def C.TWN.LOST_REC : Ctr := ⟨.TWN, 0x830, 1, false⟩
/-- Counter TWN.VERDICTS (R508). -/
def C.TWN.VERDICTS : Ctr := ⟨.TWN, 0x838, 1, false⟩
/-- Counters of the TWN page, part 0. -/
def ctrsTWN0 : List Ctr := [C.TWN.JRN_SENT, C.TWN.JRN_RESEND, C.TWN.JRN_WAIT, C.TWN.TAKEOVERS, C.TWN.DEMOTIONS, C.TWN.FORMS, C.TWN.LOST_REC, C.TWN.VERDICTS]
/-- Every counter of the TWN page. -/
def ctrsTWN : List Ctr := ctrsTWN0
/-- Error source TWN 0 POSS_LOST, reset code 1 (R509). -/
def E.TWN.POSS_LOST : Src := ⟨.TWN, 0, 1, false⟩
/-- Error source TWN 1 TWIN_BROKEN, reset code 1 (R509). -/
def E.TWN.TWIN_BROKEN : Src := ⟨.TWN, 1, 1, false⟩
/-- Error source TWN 2 POSS_FAULT, reset code 5 (R509). -/
def E.TWN.POSS_FAULT : Src := ⟨.TWN, 2, 5, false⟩
/-- Error source TWN 3 POSS_CONFLICT, reset code 5 (R509). -/
def E.TWN.POSS_CONFLICT : Src := ⟨.TWN, 3, 5, false⟩
/-- Error source TWN 4 TAKEOVER_FAIL, reset code 5 (R509). -/
def E.TWN.TAKEOVER_FAIL : Src := ⟨.TWN, 4, 5, false⟩
/-- Error source TWN 5 UMP_VERDICT, reset code 1 (R509). -/
def E.TWN.UMP_VERDICT : Src := ⟨.TWN, 5, 1, false⟩
/-- Error source TWN 6 LAG, reset code 1 (R509). -/
def E.TWN.LAG : Src := ⟨.TWN, 6, 1, false⟩
/-- Every error source of the TWN page (R510). -/
def srcsTWN : List Src := [E.TWN.POSS_LOST, E.TWN.TWIN_BROKEN, E.TWN.POSS_FAULT, E.TWN.POSS_CONFLICT, E.TWN.TAKEOVER_FAIL, E.TWN.UMP_VERDICT, E.TWN.LAG]

/-! ## FCL page -/

/-- FCL.PKG_WORD.D [31:0] (R532). -/
def F.FCL.PKG_WORD_D : Fld := ⟨.FCL, 0x040, 1, 4, 0, 32, .w1c, 0, [], false⟩
/-- FCL.DIE_WORD.D [31:0] (R532). -/
def F.FCL.DIE_WORD_D : Fld := ⟨.FCL, 0x044, 7, 4, 0, 32, .w1c, 0, [], false⟩
/-- FCL.REGION_WORD.D [31:0] (R532). -/
def F.FCL.REGION_WORD_D : Fld := ⟨.FCL, 0x060, 24, 4, 0, 32, .w1c, 0, [], false⟩
/-- FCL.FIRST.DIE [2:0] (R532). -/
def F.FCL.FIRST_DIE : Fld := ⟨.FCL, 0x0C0, 1, 4, 0, 3, .ro, 0, [], false⟩
/-- FCL.FIRST.PAGE [12:4] (R532). -/
def F.FCL.FIRST_PAGE : Fld := ⟨.FCL, 0x0C0, 1, 4, 4, 9, .ro, 0, [], false⟩
/-- FCL.FIRST.SRC [19:16] (R532). -/
def F.FCL.FIRST_SRC : Fld := ⟨.FCL, 0x0C0, 1, 4, 16, 4, .ro, 0, [], false⟩
/-- FCL.FIRST.VALID [31:31] (R532). -/
def F.FCL.FIRST_VALID : Fld := ⟨.FCL, 0x0C0, 1, 4, 31, 1, .ro, 0, [], false⟩
/-- FCL.FIRST_CLR.GO [0:0] (R532). -/
def F.FCL.FIRST_CLR_GO : Fld := ⟨.FCL, 0x0C4, 1, 4, 0, 1, .wo, 0, [], false⟩
/-- FCL.ERRN.LATCH [0:0] (R532). -/
def F.FCL.ERRN_LATCH : Fld := ⟨.FCL, 0x0C8, 1, 4, 0, 1, .w1c, 0, [], false⟩
/-- FCL.ERRN.PIN [1:1] (R532). -/
def F.FCL.ERRN_PIN : Fld := ⟨.FCL, 0x0C8, 1, 4, 1, 1, .ro, 0, [], false⟩
/-- FCL.INJ.EN [0:0] (R532). -/
def F.FCL.INJ_EN : Fld := ⟨.FCL, 0x0CC, 1, 4, 0, 1, .rw, 0, [], false⟩
/-- FCL.LAST_RESET.DIE [2:0] (R532). -/
def F.FCL.LAST_RESET_DIE : Fld := ⟨.FCL, 0x0D0, 1, 4, 0, 3, .ro, 0, [], false⟩
/-- FCL.LAST_RESET.PAGE [12:4] (R532). -/
def F.FCL.LAST_RESET_PAGE : Fld := ⟨.FCL, 0x0D0, 1, 4, 4, 9, .ro, 0, [], false⟩
/-- FCL.LAST_RESET.SRC [19:16] (R532). -/
def F.FCL.LAST_RESET_SRC : Fld := ⟨.FCL, 0x0D0, 1, 4, 16, 4, .ro, 0, [], false⟩
/-- FCL.LAST_RESET.VALID [31:31] (R532). -/
def F.FCL.LAST_RESET_VALID : Fld := ⟨.FCL, 0x0D0, 1, 4, 31, 1, .ro, 0, [], false⟩
/-- Fields of the FCL page, part 0. -/
def fieldsFCL0 : List Fld := [F.FCL.PKG_WORD_D, F.FCL.DIE_WORD_D, F.FCL.REGION_WORD_D, F.FCL.FIRST_DIE, F.FCL.FIRST_PAGE, F.FCL.FIRST_SRC, F.FCL.FIRST_VALID, F.FCL.FIRST_CLR_GO, F.FCL.ERRN_LATCH, F.FCL.ERRN_PIN, F.FCL.INJ_EN, F.FCL.LAST_RESET_DIE, F.FCL.LAST_RESET_PAGE, F.FCL.LAST_RESET_SRC, F.FCL.LAST_RESET_VALID]
/-- Every block field of the FCL page. -/
def fieldsFCL : List Fld := fieldsFCL0
/-- Counter FCL.INTS (R532). -/
def C.FCL.INTS : Ctr := ⟨.FCL, 0x800, 1, false⟩
/-- Counter FCL.TRAPS (R532). -/
def C.FCL.TRAPS : Ctr := ⟨.FCL, 0x808, 1, false⟩
/-- Counter FCL.BLOCK_RESETS (R532). -/
def C.FCL.BLOCK_RESETS : Ctr := ⟨.FCL, 0x810, 1, false⟩
/-- Counter FCL.ERRN_SETS (R532). -/
def C.FCL.ERRN_SETS : Ctr := ⟨.FCL, 0x818, 1, false⟩
/-- Counter FCL.FORCED (R532). -/
def C.FCL.FORCED : Ctr := ⟨.FCL, 0x820, 1, false⟩
/-- Counters of the FCL page, part 0. -/
def ctrsFCL0 : List Ctr := [C.FCL.INTS, C.FCL.TRAPS, C.FCL.BLOCK_RESETS, C.FCL.ERRN_SETS, C.FCL.FORCED]
/-- Every counter of the FCL page. -/
def ctrsFCL : List Ctr := ctrsFCL0
/-- Error source FCL 0 HOST_LINK, reset code 1 (R533). -/
def E.FCL.HOST_LINK : Src := ⟨.FCL, 0, 1, false⟩
/-- Error source FCL 1 COLLECT_PARITY, reset code 5 (R533). -/
def E.FCL.COLLECT_PARITY : Src := ⟨.FCL, 1, 5, false⟩
/-- Every error source of the FCL page (R510). -/
def srcsFCL : List Src := [E.FCL.HOST_LINK, E.FCL.COLLECT_PARITY]

/-! ## BEN page -/

/-- BEN.CFG.MODE [1:0] (R532). -/
def F.BEN.CFG_MODE : Fld := ⟨.BEN, 0x040, 1, 4, 0, 2, .rws, 2, [], false⟩
/-- BEN.WEAR_CFG.PACE_DROP [7:0] (R532). -/
def F.BEN.WEAR_CFG_PACE_DROP : Fld := ⟨.BEN, 0x044, 1, 4, 0, 8, .rws, 20, [], false⟩
/-- BEN.WEAR_CFG.CONFIRM [23:8] (R532). -/
def F.BEN.WEAR_CFG_CONFIRM : Fld := ⟨.BEN, 0x044, 1, 4, 8, 16, .rws, 1000, [], false⟩
/-- BEN.CORR_CFG.CORR_LIM [15:0] (R532). -/
def F.BEN.CORR_CFG_CORR_LIM : Fld := ⟨.BEN, 0x048, 1, 4, 0, 16, .rws, 64, [], false⟩
/-- BEN.CORR_CFG.WIN [31:16] (R532). -/
def F.BEN.CORR_CFG_WIN : Fld := ⟨.BEN, 0x048, 1, 4, 16, 16, .rws, 3600, [], false⟩
/-- BEN.ROW_CFG.ROW_LIM [7:0] (R532). -/
def F.BEN.ROW_CFG_ROW_LIM : Fld := ⟨.BEN, 0x04C, 1, 4, 0, 8, .rws, 4, [], false⟩
/-- BEN.STAT.BUSY [0:0] (R532). -/
def F.BEN.STAT_BUSY : Fld := ⟨.BEN, 0x050, 1, 4, 0, 1, .ro, 0, [], false⟩
/-- BEN.STAT.QUEUED [1:1] (R532). -/
def F.BEN.STAT_QUEUED : Fld := ⟨.BEN, 0x050, 1, 4, 1, 1, .ro, 0, [], false⟩
/-- BEN.DEGRADED.TYPES [8:0] (R532). -/
def F.BEN.DEGRADED_TYPES : Fld := ⟨.BEN, 0x054, 1, 4, 0, 9, .ro, 0, [], false⟩
/-- Fields of the BEN page, part 0. -/
def fieldsBEN0 : List Fld := [F.BEN.CFG_MODE, F.BEN.WEAR_CFG_PACE_DROP, F.BEN.WEAR_CFG_CONFIRM, F.BEN.CORR_CFG_CORR_LIM, F.BEN.CORR_CFG_WIN, F.BEN.ROW_CFG_ROW_LIM, F.BEN.STAT_BUSY, F.BEN.STAT_QUEUED, F.BEN.DEGRADED_TYPES]
/-- Every block field of the BEN page. -/
def fieldsBEN : List Fld := fieldsBEN0
/-- Counter BEN.SUBST_FAIL (R532). -/
def C.BEN.SUBST_FAIL : Ctr := ⟨.BEN, 0x800, 1, false⟩
/-- Counter BEN.SUBST_WEAR (R532). -/
def C.BEN.SUBST_WEAR : Ctr := ⟨.BEN, 0x808, 1, false⟩
/-- Counter BEN.SUBST_HOST (R532). -/
def C.BEN.SUBST_HOST : Ctr := ⟨.BEN, 0x810, 1, false⟩
/-- Counter BEN.NO_SPARE (R532). -/
def C.BEN.NO_SPARE : Ctr := ⟨.BEN, 0x818, 1, false⟩
/-- Counter BEN.SPARE_REJECT (R532). -/
def C.BEN.SPARE_REJECT : Ctr := ⟨.BEN, 0x820, 1, false⟩
/-- Counter BEN.LANE_WEAR (R532). -/
def C.BEN.LANE_WEAR : Ctr := ⟨.BEN, 0x828, 1, false⟩
/-- Counters of the BEN page, part 0. -/
def ctrsBEN0 : List Ctr := [C.BEN.SUBST_FAIL, C.BEN.SUBST_WEAR, C.BEN.SUBST_HOST, C.BEN.NO_SPARE, C.BEN.SPARE_REJECT, C.BEN.LANE_WEAR]
/-- Every counter of the BEN page. -/
def ctrsBEN : List Ctr := ctrsBEN0
/-- Error source BEN 0 NO_SPARE, reset code 1 (R533). -/
def E.BEN.NO_SPARE : Src := ⟨.BEN, 0, 1, false⟩
/-- Error source BEN 1 SPARE_REJECT, reset code 1 (R533). -/
def E.BEN.SPARE_REJECT : Src := ⟨.BEN, 1, 1, false⟩
/-- Error source BEN 2 LANE_WEAR, reset code 0 (R533). -/
def E.BEN.LANE_WEAR : Src := ⟨.BEN, 2, 0, false⟩
/-- Every error source of the BEN page (R510). -/
def srcsBEN : List Src := [E.BEN.NO_SPARE, E.BEN.SPARE_REJECT, E.BEN.LANE_WEAR]

/-! ## MNT page -/

/-- MNT.SCRUB_CFG.PERIOD [15:0] (R532). -/
def F.MNT.SCRUB_CFG_PERIOD : Fld := ⟨.MNT, 0x040, 1, 4, 0, 16, .rws, 1440, [], false⟩
/-- MNT.TOKEN.HELD [7:1] (R532). -/
def F.MNT.TOKEN_HELD : Fld := ⟨.MNT, 0x044, 24, 4, 1, 7, .ro, 0, [], false⟩
/-- MNT.TOKEN.QUEUED [13:8] (R532). -/
def F.MNT.TOKEN_QUEUED : Fld := ⟨.MNT, 0x044, 24, 4, 8, 6, .ro, 0, [], false⟩
/-- MNT.QUEUE.DEPTH [6:0] (R532). -/
def F.MNT.QUEUE_DEPTH : Fld := ⟨.MNT, 0x0A4, 1, 4, 0, 7, .ro, 0, [], false⟩
/-- MNT.SCRUB_STAT.NEXT [4:0] (R532). -/
def F.MNT.SCRUB_STAT_NEXT : Fld := ⟨.MNT, 0x0A8, 1, 4, 0, 5, .ro, 0, [], false⟩
/-- MNT.SCRUB_STAT.ACTIVE [8:8] (R532). -/
def F.MNT.SCRUB_STAT_ACTIVE : Fld := ⟨.MNT, 0x0A8, 1, 4, 8, 1, .ro, 0, [], false⟩
/-- Fields of the MNT page, part 0. -/
def fieldsMNT0 : List Fld := [F.MNT.SCRUB_CFG_PERIOD, F.MNT.TOKEN_HELD, F.MNT.TOKEN_QUEUED, F.MNT.QUEUE_DEPTH, F.MNT.SCRUB_STAT_NEXT, F.MNT.SCRUB_STAT_ACTIVE]
/-- Every block field of the MNT page. -/
def fieldsMNT : List Fld := fieldsMNT0
/-- Counter MNT.GRANTS (R532). -/
def C.MNT.GRANTS : Ctr := ⟨.MNT, 0x800, 1, false⟩
/-- Counter MNT.WAITED (R532). -/
def C.MNT.WAITED : Ctr := ⟨.MNT, 0x808, 1, false⟩
/-- Counter MNT.ABANDONED (R532). -/
def C.MNT.ABANDONED : Ctr := ⟨.MNT, 0x810, 1, false⟩
/-- Counter MNT.SCRUB_CORR (R532). -/
def C.MNT.SCRUB_CORR : Ctr := ⟨.MNT, 0x818, 1, false⟩
/-- Counters of the MNT page, part 0. -/
def ctrsMNT0 : List Ctr := [C.MNT.GRANTS, C.MNT.WAITED, C.MNT.ABANDONED, C.MNT.SCRUB_CORR]
/-- Every counter of the MNT page. -/
def ctrsMNT : List Ctr := ctrsMNT0
/-- Error source MNT 0 TOKEN_PARITY, reset code 4 (R533). -/
def E.MNT.TOKEN_PARITY : Src := ⟨.MNT, 0, 4, false⟩
/-- Every error source of the MNT page (R510). -/
def srcsMNT : List Src := [E.MNT.TOKEN_PARITY]

/-! ## CPT page -/

/-- CPT.FW_VER.VER [31:0] (R554). -/
def F.CPT.FW_VER_VER : Fld := ⟨.CPT, 0x040, 1, 4, 0, 32, .ro, 0, [], false⟩
/-- CPT.STAT.RUNNING [0:0] (R554). -/
def F.CPT.STAT_RUNNING : Fld := ⟨.CPT, 0x044, 1, 4, 0, 1, .ro, 0, [], false⟩
/-- CPT.STAT.DEBUG_UART [1:1] (R554). -/
def F.CPT.STAT_DEBUG_UART : Fld := ⟨.CPT, 0x044, 1, 4, 1, 1, .ro, 0, [], false⟩
/-- CPT.STAT.DEBUG_JTAG [2:2] (R554). -/
def F.CPT.STAT_DEBUG_JTAG : Fld := ⟨.CPT, 0x044, 1, 4, 2, 1, .ro, 0, [], false⟩
/-- CPT.LOG_CFG.FLUSH [15:0] (R554). -/
def F.CPT.LOG_CFG_FLUSH : Fld := ⟨.CPT, 0x048, 1, 4, 0, 16, .rws, 1000, [], false⟩
/-- CPT.LOG_CFG.IRQ_SEV [18:16] (R554). -/
def F.CPT.LOG_CFG_IRQ_SEV : Fld := ⟨.CPT, 0x048, 1, 4, 16, 3, .rws, 2, [], false⟩
/-- CPT.LOG_STAT.UNFLUSHED [13:0] (R554). -/
def F.CPT.LOG_STAT_UNFLUSHED : Fld := ⟨.CPT, 0x04C, 1, 4, 0, 14, .ro, 0, [], false⟩
/-- CPT.LOG_NEWEST.SEQ [31:0] (R554). -/
def F.CPT.LOG_NEWEST_SEQ : Fld := ⟨.CPT, 0x050, 1, 4, 0, 32, .ro, 0, [], false⟩
/-- CPT.LOG_OLDEST.SEQ [31:0] (R554). -/
def F.CPT.LOG_OLDEST_SEQ : Fld := ⟨.CPT, 0x054, 1, 4, 0, 32, .ro, 0, [], false⟩
/-- CPT.MBOX_CMD.W [31:0] (R554). -/
def F.CPT.MBOX_CMD_W : Fld := ⟨.CPT, 0x100, 16, 4, 0, 32, .rw, 0, [], false⟩
/-- CPT.MBOX_GO.GO [0:0] (R554). -/
def F.CPT.MBOX_GO_GO : Fld := ⟨.CPT, 0x140, 1, 4, 0, 1, .wo, 0, [], false⟩
/-- CPT.MBOX_STAT.BUSY [0:0] (R554). -/
def F.CPT.MBOX_STAT_BUSY : Fld := ⟨.CPT, 0x144, 1, 4, 0, 1, .ro, 0, [], false⟩
/-- CPT.MBOX_STAT.DONE [1:1] (R554). -/
def F.CPT.MBOX_STAT_DONE : Fld := ⟨.CPT, 0x144, 1, 4, 1, 1, .ro, 0, [], false⟩
/-- CPT.MBOX_CPL.W [31:0] (R554). -/
def F.CPT.MBOX_CPL_W : Fld := ⟨.CPT, 0x180, 8, 4, 0, 32, .ro, 0, [], false⟩
/-- Fields of the CPT page, part 0. -/
def fieldsCPT0 : List Fld := [F.CPT.FW_VER_VER, F.CPT.STAT_RUNNING, F.CPT.STAT_DEBUG_UART, F.CPT.STAT_DEBUG_JTAG, F.CPT.LOG_CFG_FLUSH, F.CPT.LOG_CFG_IRQ_SEV, F.CPT.LOG_STAT_UNFLUSHED, F.CPT.LOG_NEWEST_SEQ, F.CPT.LOG_OLDEST_SEQ, F.CPT.MBOX_CMD_W, F.CPT.MBOX_GO_GO, F.CPT.MBOX_STAT_BUSY, F.CPT.MBOX_STAT_DONE, F.CPT.MBOX_CPL_W]
/-- Every block field of the CPT page. -/
def fieldsCPT : List Fld := fieldsCPT0
/-- Counter CPT.LOG_RECORDS (R554). -/
def C.CPT.LOG_RECORDS : Ctr := ⟨.CPT, 0x800, 1, false⟩
/-- Counter CPT.LOG_LOST (R554). -/
def C.CPT.LOG_LOST : Ctr := ⟨.CPT, 0x808, 1, false⟩
/-- Counter CPT.MBOX_CMDS (R554). -/
def C.CPT.MBOX_CMDS : Ctr := ⟨.CPT, 0x810, 1, false⟩
/-- Counter CPT.MBOX_REJECT (R554). -/
def C.CPT.MBOX_REJECT : Ctr := ⟨.CPT, 0x818, 1, false⟩
/-- Counter CPT.TRAPS_RUN (R554). -/
def C.CPT.TRAPS_RUN : Ctr := ⟨.CPT, 0x820, 1, false⟩
/-- Counters of the CPT page, part 0. -/
def ctrsCPT0 : List Ctr := [C.CPT.LOG_RECORDS, C.CPT.LOG_LOST, C.CPT.MBOX_CMDS, C.CPT.MBOX_REJECT, C.CPT.TRAPS_RUN]
/-- Every counter of the CPT page. -/
def ctrsCPT : List Ctr := ctrsCPT0
/-- Error source CPT 0 PMBUS, reset code 1 (R555). -/
def E.CPT.PMBUS : Src := ⟨.CPT, 0, 1, false⟩
/-- Error source CPT 1 LOG_FLASH, reset code 1 (R555). -/
def E.CPT.LOG_FLASH : Src := ⟨.CPT, 1, 1, false⟩
/-- Error source CPT 2 DEBUG_AUTH, reset code 1 (R555). -/
def E.CPT.DEBUG_AUTH : Src := ⟨.CPT, 2, 1, false⟩
/-- Error source CPT 3 CPT_ECC, reset code 4 (R555). -/
def E.CPT.CPT_ECC : Src := ⟨.CPT, 3, 4, false⟩
/-- Every error source of the CPT page (R510). -/
def srcsCPT : List Src := [E.CPT.PMBUS, E.CPT.LOG_FLASH, E.CPT.DEBUG_AUTH, E.CPT.CPT_ECC]

/-! ## SBD page -/

/-- SBD.CFG.PERIOD [15:0] (R554). -/
def F.SBD.CFG_PERIOD : Fld := ⟨.SBD, 0x040, 1, 4, 0, 16, .rws, 0, [], false⟩
/-- SBD.RING_BASE_LO.A [31:0] (R554). -/
def F.SBD.RING_BASE_LO_A : Fld := ⟨.SBD, 0x044, 1, 4, 0, 32, .rws, 0, [], false⟩
/-- SBD.RING_BASE_HI.A [31:0] (R554). -/
def F.SBD.RING_BASE_HI_A : Fld := ⟨.SBD, 0x048, 1, 4, 0, 32, .rws, 0, [], false⟩
/-- SBD.RING_CFG.SIZE_LOG2 [4:0] (R554). -/
def F.SBD.RING_CFG_SIZE_LOG2 : Fld := ⟨.SBD, 0x04C, 1, 4, 0, 5, .rws, 0, [], false⟩
/-- SBD.RING_HEAD.H [31:0] (R554). -/
def F.SBD.RING_HEAD_H : Fld := ⟨.SBD, 0x050, 1, 4, 0, 32, .rw, 0, [], false⟩
/-- SBD.RING_TAIL.T [31:0] (R554). -/
def F.SBD.RING_TAIL_T : Fld := ⟨.SBD, 0x054, 1, 4, 0, 32, .ro, 0, [], false⟩
/-- SBD.STAT.BODY [23:0] (R554). -/
def F.SBD.STAT_BODY : Fld := ⟨.SBD, 0x058, 1, 4, 0, 24, .ro, 0, [], false⟩
/-- SBD.STAT.BUSY [31:31] (R554). -/
def F.SBD.STAT_BUSY : Fld := ⟨.SBD, 0x058, 1, 4, 31, 1, .ro, 0, [], false⟩
/-- SBD.LAST_SEQ.SEQ [31:0] (R554). -/
def F.SBD.LAST_SEQ_SEQ : Fld := ⟨.SBD, 0x05C, 1, 4, 0, 32, .ro, 0, [], false⟩
/-- Fields of the SBD page, part 0. -/
def fieldsSBD0 : List Fld := [F.SBD.CFG_PERIOD, F.SBD.RING_BASE_LO_A, F.SBD.RING_BASE_HI_A, F.SBD.RING_CFG_SIZE_LOG2, F.SBD.RING_HEAD_H, F.SBD.RING_TAIL_T, F.SBD.STAT_BODY, F.SBD.STAT_BUSY, F.SBD.LAST_SEQ_SEQ]
/-- Every block field of the SBD page. -/
def fieldsSBD : List Fld := fieldsSBD0
/-- Counter SBD.DUMPS (R554). -/
def C.SBD.DUMPS : Ctr := ⟨.SBD, 0x800, 1, false⟩
/-- Counter SBD.SKIPPED (R554). -/
def C.SBD.SKIPPED : Ctr := ⟨.SBD, 0x808, 1, false⟩
/-- Counters of the SBD page, part 0. -/
def ctrsSBD0 : List Ctr := [C.SBD.DUMPS, C.SBD.SKIPPED]
/-- Every counter of the SBD page. -/
def ctrsSBD : List Ctr := ctrsSBD0
/-- Error source SBD 0 RING_DMA, reset code 1 (R555). -/
def E.SBD.RING_DMA : Src := ⟨.SBD, 0, 1, false⟩
/-- Error source SBD 1 SHADOW_PARITY, reset code 1 (R555). -/
def E.SBD.SHADOW_PARITY : Src := ⟨.SBD, 1, 1, false⟩
/-- Every error source of the SBD page (R510). -/
def srcsSBD : List Src := [E.SBD.RING_DMA, E.SBD.SHADOW_PARITY]

/-! ## UPD page -/

/-- UPD.CFG.WIN [15:0] (R582). -/
def F.UPD.CFG_WIN : Fld := ⟨.UPD, 0x040, 1, 4, 0, 16, .rws, 600, [], false⟩
/-- UPD.CFG.REVERT_RESET [16:16] (R582). -/
def F.UPD.CFG_REVERT_RESET : Fld := ⟨.UPD, 0x040, 1, 4, 16, 1, .rws, 1, [], false⟩
/-- UPD.CFG.SYNC_BAND [17:17] (R582). -/
def F.UPD.CFG_SYNC_BAND : Fld := ⟨.UPD, 0x040, 1, 4, 17, 1, .rws, 0, [], false⟩
/-- UPD.STAT.RUN_BANK [0:0] (R582). -/
def F.UPD.STAT_RUN_BANK : Fld := ⟨.UPD, 0x044, 1, 4, 0, 1, .ro, 0, [], false⟩
/-- UPD.STAT.TRIAL [1:1] (R582). -/
def F.UPD.STAT_TRIAL : Fld := ⟨.UPD, 0x044, 1, 4, 1, 1, .ro, 0, [], false⟩
/-- UPD.STAT.SESSION [2:2] (R582). -/
def F.UPD.STAT_SESSION : Fld := ⟨.UPD, 0x044, 1, 4, 2, 1, .ro, 0, [], false⟩
/-- UPD.STAT.ACT_BUSY [3:3] (R582). -/
def F.UPD.STAT_ACT_BUSY : Fld := ⟨.UPD, 0x044, 1, 4, 3, 1, .ro, 0, [], false⟩
/-- UPD.STAT.NO_BOOTCOPY [4:4] (R582). -/
def F.UPD.STAT_NO_BOOTCOPY : Fld := ⟨.UPD, 0x044, 1, 4, 4, 1, .ro, 0, [], false⟩
/-- UPD.STAT.STATE_DISCARDED [5:5] (R582). -/
def F.UPD.STAT_STATE_DISCARDED : Fld := ⟨.UPD, 0x044, 1, 4, 5, 1, .ro, 0, [], false⟩
/-- UPD.STAT.REVERTED [6:6] (R582). -/
def F.UPD.STAT_REVERTED : Fld := ⟨.UPD, 0x044, 1, 4, 6, 1, .ro, 0, [], false⟩
/-- UPD.WIN_LEFT.SEC [15:0] (R582). -/
def F.UPD.WIN_LEFT_SEC : Fld := ⟨.UPD, 0x048, 1, 4, 0, 16, .ro, 0, [], false⟩
/-- UPD.BANK_STAT.STATE [2:0] (R582). -/
def F.UPD.BANK_STAT_STATE : Fld := ⟨.UPD, 0x04C, 2, 8, 0, 3, .ro, 0, [], false⟩
/-- UPD.BANK_STAT.REASON [11:8] (R582). -/
def F.UPD.BANK_STAT_REASON : Fld := ⟨.UPD, 0x04C, 2, 8, 8, 4, .ro, 0, [], false⟩
/-- UPD.BANK_GEN.GEN [31:0] (R582). -/
def F.UPD.BANK_GEN_GEN : Fld := ⟨.UPD, 0x050, 2, 8, 0, 32, .ro, 0, [], false⟩
/-- UPD.SET_VER.VER [31:0] (R582). -/
def F.UPD.SET_VER_VER : Fld := ⟨.UPD, 0x05C, 1, 4, 0, 32, .ro, 0, [], false⟩
/-- UPD.LAST_DETAIL.STEP [3:0] (R582). -/
def F.UPD.LAST_DETAIL_STEP : Fld := ⟨.UPD, 0x060, 1, 4, 0, 4, .ro, 0, [], false⟩
/-- UPD.LAST_DETAIL.DETAIL [15:8] (R582). -/
def F.UPD.LAST_DETAIL_DETAIL : Fld := ⟨.UPD, 0x060, 1, 4, 8, 8, .ro, 0, [], false⟩
/-- UPD.LAST_DETAIL.BANK [16:16] (R582). -/
def F.UPD.LAST_DETAIL_BANK : Fld := ⟨.UPD, 0x060, 1, 4, 16, 1, .ro, 0, [], false⟩
/-- UPD.SESSION_PAGES.N [13:0] (R582). -/
def F.UPD.SESSION_PAGES_N : Fld := ⟨.UPD, 0x064, 1, 4, 0, 14, .ro, 0, [], false⟩
/-- Fields of the UPD page, part 0. -/
def fieldsUPD0 : List Fld := [F.UPD.CFG_WIN, F.UPD.CFG_REVERT_RESET, F.UPD.CFG_SYNC_BAND, F.UPD.STAT_RUN_BANK, F.UPD.STAT_TRIAL, F.UPD.STAT_SESSION, F.UPD.STAT_ACT_BUSY, F.UPD.STAT_NO_BOOTCOPY, F.UPD.STAT_STATE_DISCARDED, F.UPD.STAT_REVERTED, F.UPD.WIN_LEFT_SEC, F.UPD.BANK_STAT_STATE, F.UPD.BANK_STAT_REASON, F.UPD.BANK_GEN_GEN, F.UPD.SET_VER_VER, F.UPD.LAST_DETAIL_STEP, F.UPD.LAST_DETAIL_DETAIL, F.UPD.LAST_DETAIL_BANK, F.UPD.SESSION_PAGES_N]
/-- Every block field of the UPD page. -/
def fieldsUPD : List Fld := fieldsUPD0
/-- Counter UPD.PAGES_WRITTEN (R582). -/
def C.UPD.PAGES_WRITTEN : Ctr := ⟨.UPD, 0x800, 1, false⟩
/-- Counter UPD.ACTIVATIONS (R582). -/
def C.UPD.ACTIVATIONS : Ctr := ⟨.UPD, 0x808, 1, false⟩
/-- Counter UPD.CONFIRMS (R582). -/
def C.UPD.CONFIRMS : Ctr := ⟨.UPD, 0x810, 1, false⟩
/-- Counter UPD.REVERTS (R582). -/
def C.UPD.REVERTS : Ctr := ⟨.UPD, 0x818, 1, false⟩
/-- Counter UPD.REJECTS (R582). -/
def C.UPD.REJECTS : Ctr := ⟨.UPD, 0x820, 1, false⟩
/-- Counter UPD.ACT_DROPS (R582). -/
def C.UPD.ACT_DROPS : Ctr := ⟨.UPD, 0x828, 1, false⟩
/-- Counter UPD.CFG_WRITES (R582). -/
def C.UPD.CFG_WRITES : Ctr := ⟨.UPD, 0x830, 1, false⟩
/-- Counters of the UPD page, part 0. -/
def ctrsUPD0 : List Ctr := [C.UPD.PAGES_WRITTEN, C.UPD.ACTIVATIONS, C.UPD.CONFIRMS, C.UPD.REVERTS, C.UPD.REJECTS, C.UPD.ACT_DROPS, C.UPD.CFG_WRITES]
/-- Every counter of the UPD page. -/
def ctrsUPD : List Ctr := ctrsUPD0
/-- Error source UPD 0 FLASH_PROG, reset code 1 (R583). -/
def E.UPD.FLASH_PROG : Src := ⟨.UPD, 0, 1, false⟩
/-- Error source UPD 1 BANK_GIVEN_UP, reset code 1 (R583). -/
def E.UPD.BANK_GIVEN_UP : Src := ⟨.UPD, 1, 1, false⟩
/-- Error source UPD 2 STATE_DISCARDED, reset code 1 (R583). -/
def E.UPD.STATE_DISCARDED : Src := ⟨.UPD, 2, 1, false⟩
/-- Error source UPD 3 NO_BOOTCOPY, reset code 1 (R583). -/
def E.UPD.NO_BOOTCOPY : Src := ⟨.UPD, 3, 1, false⟩
/-- Error source UPD 4 ENGINE_ECC, reset code 2 (R583). -/
def E.UPD.ENGINE_ECC : Src := ⟨.UPD, 4, 2, false⟩
/-- Every error source of the UPD page (R510). -/
def srcsUPD : List Src := [E.UPD.FLASH_PROG, E.UPD.BANK_GIVEN_UP, E.UPD.STATE_DISCARDED, E.UPD.NO_BOOTCOPY, E.UPD.ENGINE_ECC]

/-! ## CMP page -/

/-- CMP.IMG_BASE_LO.A [31:0] (R602). -/
def F.CMP.IMG_BASE_LO_A : Fld := ⟨.CMP, 0x040, 1, 4, 0, 32, .rws, 0, [], false⟩
/-- CMP.IMG_BASE_HI.A [31:0] (R602). -/
def F.CMP.IMG_BASE_HI_A : Fld := ⟨.CMP, 0x044, 1, 4, 0, 32, .rws, 0, [], false⟩
/-- CMP.WORK_BASE_LO.A [31:0] (R602). -/
def F.CMP.WORK_BASE_LO_A : Fld := ⟨.CMP, 0x048, 1, 4, 0, 32, .rws, 0, [], false⟩
/-- CMP.WORK_BASE_HI.A [31:0] (R602). -/
def F.CMP.WORK_BASE_HI_A : Fld := ⟨.CMP, 0x04C, 1, 4, 0, 32, .rws, 0, [], false⟩
/-- CMP.STAT.ACTIVE [0:0] (R602). -/
def F.CMP.STAT_ACTIVE : Fld := ⟨.CMP, 0x050, 1, 4, 0, 1, .ro, 0, [], false⟩
/-- CMP.STAT.ENGINE_LOST [1:1] (R602). -/
def F.CMP.STAT_ENGINE_LOST : Fld := ⟨.CMP, 0x050, 1, 4, 1, 1, .ro, 0, [], false⟩
/-- CMP.STAT.IMAGES [10:2] (R602). -/
def F.CMP.STAT_IMAGES : Fld := ⟨.CMP, 0x050, 1, 4, 2, 9, .ro, 0, [], false⟩
/-- CMP.STAT.CAMPAIGNS [16:11] (R602). -/
def F.CMP.STAT_CAMPAIGNS : Fld := ⟨.CMP, 0x050, 1, 4, 11, 6, .ro, 0, [], false⟩
/-- CMP.STAT.MEMBERS [31:17] (R602). -/
def F.CMP.STAT_MEMBERS : Fld := ⟨.CMP, 0x050, 1, 4, 17, 15, .ro, 0, [], false⟩
/-- CMP.CSTAT.STATE [3:0] (R602). -/
def F.CMP.CSTAT_STATE : Fld := ⟨.CMP, 0x060, 32, 4, 0, 4, .ro, 0, [], false⟩
/-- CMP.CSTAT.CAUSE [5:4] (R602). -/
def F.CMP.CSTAT_CAUSE : Fld := ⟨.CMP, 0x060, 32, 4, 4, 2, .ro, 0, [], false⟩
/-- CMP.CSTAT.ROUND [10:6] (R602). -/
def F.CMP.CSTAT_ROUND : Fld := ⟨.CMP, 0x060, 32, 4, 6, 5, .ro, 0, [], false⟩
/-- CMP.CSTAT.POINTER [29:16] (R602). -/
def F.CMP.CSTAT_POINTER : Fld := ⟨.CMP, 0x060, 32, 4, 16, 14, .ro, 0, [], false⟩
/-- Fields of the CMP page, part 0. -/
def fieldsCMP0 : List Fld := [F.CMP.IMG_BASE_LO_A, F.CMP.IMG_BASE_HI_A, F.CMP.WORK_BASE_LO_A, F.CMP.WORK_BASE_HI_A, F.CMP.STAT_ACTIVE, F.CMP.STAT_ENGINE_LOST, F.CMP.STAT_IMAGES, F.CMP.STAT_CAMPAIGNS, F.CMP.STAT_MEMBERS, F.CMP.CSTAT_STATE, F.CMP.CSTAT_CAUSE, F.CMP.CSTAT_ROUND, F.CMP.CSTAT_POINTER]
/-- Every block field of the CMP page. -/
def fieldsCMP : List Fld := fieldsCMP0
/-- Counter CMP.FRAMES_SENT (R602). -/
def C.CMP.FRAMES_SENT : Ctr := ⟨.CMP, 0x800, 1, false⟩
/-- Counter CMP.BLOCKS_SENT (R602). -/
def C.CMP.BLOCKS_SENT : Ctr := ⟨.CMP, 0x808, 1, false⟩
/-- Counter CMP.METER_HOLD (R602). -/
def C.CMP.METER_HOLD : Ctr := ⟨.CMP, 0x810, 1, false⟩
/-- Counter CMP.DUTY_HOLD (R602). -/
def C.CMP.DUTY_HOLD : Ctr := ⟨.CMP, 0x818, 1, false⟩
/-- Counter CMP.REPORTS (R602). -/
def C.CMP.REPORTS : Ctr := ⟨.CMP, 0x820, 1, false⟩
/-- Counter CMP.NOT_MEMBER (R602). -/
def C.CMP.NOT_MEMBER : Ctr := ⟨.CMP, 0x828, 1, false⟩
/-- Counter CMP.REPORT_BAD (R602). -/
def C.CMP.REPORT_BAD : Ctr := ⟨.CMP, 0x830, 1, false⟩
/-- Counters of the CMP page, part 0. -/
def ctrsCMP0 : List Ctr := [C.CMP.FRAMES_SENT, C.CMP.BLOCKS_SENT, C.CMP.METER_HOLD, C.CMP.DUTY_HOLD, C.CMP.REPORTS, C.CMP.NOT_MEMBER, C.CMP.REPORT_BAD]
/-- Every counter of the CMP page. -/
def ctrsCMP : List Ctr := ctrsCMP0
/-- Error source CMP 0 PACE, reset code 1 (R603). -/
def E.CMP.PACE : Src := ⟨.CMP, 0, 1, false⟩
/-- Error source CMP 1 STATE_ECC, reset code 1 (R603). -/
def E.CMP.STATE_ECC : Src := ⟨.CMP, 1, 1, false⟩
/-- Error source CMP 2 ENGINE_LOST, reset code 1 (R603). -/
def E.CMP.ENGINE_LOST : Src := ⟨.CMP, 2, 1, false⟩
/-- Every error source of the CMP page (R510). -/
def srcsCMP : List Src := [E.CMP.PACE, E.CMP.STATE_ECC, E.CMP.ENGINE_LOST]

/-- The block fields of a page kind (Tables of each chapter). -/
def fieldsOf : Tag → List Fld
  | .SNS => fieldsSNS
  | .TIM => fieldsTIM
  | .HST => fieldsHST
  | .BTL => fieldsBTL
  | .SYN => fieldsSYN
  | .RXF => fieldsRXF
  | .RSM => fieldsRSM
  | .LIM => fieldsLIM
  | .TXF => fieldsTXF
  | .CHZ => fieldsCHZ
  | .DEM => fieldsDEM
  | .CMB => fieldsCMB
  | .SIC => fieldsSIC
  | .DEC => fieldsDEC
  | .NSE => fieldsNSE
  | .TXB => fieldsTXB
  | .WUC => fieldsWUC
  | .AMC => fieldsAMC
  | .VLT => fieldsVLT
  | .CRY => fieldsCRY
  | .NTB => fieldsNTB
  | .FWD => fieldsFWD
  | .SRC => fieldsSRC
  | .ING => fieldsING
  | .PLY => fieldsPLY
  | .LAN => fieldsLAN
  | .SCH => fieldsSCH
  | .POL => fieldsPOL
  | .ETH => fieldsETH
  | .CAN => fieldsCAN
  | .GWY => fieldsGWY
  | .VXL => fieldsVXL
  | .HUD => fieldsHUD
  | .TWN => fieldsTWN
  | .FCL => fieldsFCL
  | .BEN => fieldsBEN
  | .MNT => fieldsMNT
  | .CPT => fieldsCPT
  | .SBD => fieldsSBD
  | .UPD => fieldsUPD
  | .CMP => fieldsCMP
  | .DRM => []
  | .FLS => []
/-- The counters of a page kind. -/
def ctrsOf : Tag → List Ctr
  | .SNS => ctrsSNS
  | .TIM => ctrsTIM
  | .HST => ctrsHST
  | .BTL => ctrsBTL
  | .SYN => ctrsSYN
  | .RXF => ctrsRXF
  | .RSM => ctrsRSM
  | .LIM => ctrsLIM
  | .TXF => ctrsTXF
  | .CHZ => ctrsCHZ
  | .DEM => ctrsDEM
  | .CMB => ctrsCMB
  | .SIC => ctrsSIC
  | .DEC => ctrsDEC
  | .NSE => ctrsNSE
  | .TXB => ctrsTXB
  | .WUC => ctrsWUC
  | .AMC => ctrsAMC
  | .VLT => ctrsVLT
  | .CRY => ctrsCRY
  | .NTB => ctrsNTB
  | .FWD => ctrsFWD
  | .SRC => ctrsSRC
  | .ING => ctrsING
  | .PLY => ctrsPLY
  | .LAN => ctrsLAN
  | .SCH => ctrsSCH
  | .POL => ctrsPOL
  | .ETH => ctrsETH
  | .CAN => ctrsCAN
  | .GWY => ctrsGWY
  | .VXL => ctrsVXL
  | .HUD => ctrsHUD
  | .TWN => ctrsTWN
  | .FCL => ctrsFCL
  | .BEN => ctrsBEN
  | .MNT => ctrsMNT
  | .CPT => ctrsCPT
  | .SBD => ctrsSBD
  | .UPD => ctrsUPD
  | .CMP => ctrsCMP
  | .DRM => []
  | .FLS => []
/-- The error sources of a page kind (R510). -/
def srcsOf : Tag → List Src
  | .SNS => srcsSNS
  | .TIM => srcsTIM
  | .HST => srcsHST
  | .BTL => srcsBTL
  | .SYN => srcsSYN
  | .RXF => srcsRXF
  | .RSM => srcsRSM
  | .LIM => srcsLIM
  | .TXF => srcsTXF
  | .CHZ => srcsCHZ
  | .DEM => srcsDEM
  | .CMB => srcsCMB
  | .SIC => srcsSIC
  | .DEC => srcsDEC
  | .NSE => srcsNSE
  | .TXB => srcsTXB
  | .WUC => srcsWUC
  | .AMC => srcsAMC
  | .VLT => srcsVLT
  | .CRY => srcsCRY
  | .NTB => srcsNTB
  | .FWD => srcsFWD
  | .SRC => srcsSRC
  | .ING => srcsING
  | .PLY => srcsPLY
  | .LAN => srcsLAN
  | .SCH => srcsSCH
  | .POL => srcsPOL
  | .ETH => srcsETH
  | .CAN => srcsCAN
  | .GWY => srcsGWY
  | .VXL => srcsVXL
  | .HUD => srcsHUD
  | .TWN => srcsTWN
  | .FCL => srcsFCL
  | .BEN => srcsBEN
  | .MNT => srcsMNT
  | .CPT => srcsCPT
  | .SBD => srcsSBD
  | .UPD => srcsUPD
  | .CMP => srcsCMP
  | .DRM => []
  | .FLS => []

end Sys2Proof.Machine
end

