-- ==== Sys2Proof/Machine/Pages.lean ====
section
/-! DEFINITION. The page index (Table 4-3), the BAR0 address (R75), the region of each page (R625, Table 1-3) and
its place in the collector words (Table 18-2). -/

namespace Sys2Proof.Machine
open Sys2Proof

/-- One row of Table 4-3: first page, how many pages, type code, dies. -/
structure PageRow where
  first : Nat
  count : Nat
  type  : Nat
  dies  : List Nat
  deriving DecidableEq, Repr

/-- The page index (R90, Table 4-3). -/
def pageRow : Tag → PageRow
  | .CPT => ⟨0x000, 1, 0x01, [0]⟩
  | .VLT => ⟨0x001, 1, 0x02, [0]⟩
  | .FCL => ⟨0x002, 1, 0x03, [0]⟩
  | .SBD => ⟨0x003, 1, 0x04, [0]⟩
  | .BTL => ⟨0x004, 1, 0x05, [0]⟩
  | .UPD => ⟨0x005, 1, 0x06, [0]⟩
  | .HST => ⟨0x006, 1, 0x07, [0]⟩
  | .GWY => ⟨0x007, 1, 0x0A, [0]⟩
  | .DRM => ⟨0x008, 1, 0x0C, [0]⟩
  | .FLS => ⟨0x009, 1, 0x0D, [0]⟩
  | .TIM => ⟨0x00A, 1, 0x0E, [0]⟩
  | .SNS => ⟨0x00B, 1, 0x0F, [0]⟩
  | .TWN => ⟨0x00C, 1, 0x10, [0]⟩
  | .BEN => ⟨0x00D, 1, 0x11, [0]⟩
  | .MNT => ⟨0x00E, 1, 0x12, [0]⟩
  | .HUD => ⟨0x00F, 1, 0x13, [0]⟩
  | .ETH => ⟨0x010, 16, 0x08, [0]⟩
  | .CAN => ⟨0x020, 32, 0x09, [0]⟩
  | .VXL => ⟨0x040, 8, 0x0B, [0]⟩
  | .ING => ⟨0x080, 1, 0x20, [1, 2]⟩
  | .FWD => ⟨0x081, 1, 0x23, [1, 2]⟩
  | .SCH => ⟨0x082, 1, 0x25, [1, 2]⟩
  | .POL => ⟨0x083, 1, 0x26, [1, 2]⟩
  | .SRC => ⟨0x084, 1, 0x28, [1, 2]⟩
  | .CMP => ⟨0x085, 1, 0x29, [1, 2]⟩
  | .NTB => ⟨0x088, 4, 0x22, [1, 2]⟩
  | .CRY => ⟨0x08C, 4, 0x24, [1, 2]⟩
  | .PLY => ⟨0x090, 16, 0x21, [1, 2]⟩
  | .LAN => ⟨0x0A0, 4, 0x27, [1, 2]⟩
  | .CHZ => ⟨0x100, 1, 0x40, [3, 4]⟩
  | .CMB => ⟨0x101, 1, 0x42, [3, 4]⟩
  | .NSE => ⟨0x102, 1, 0x45, [3, 4]⟩
  | .AMC => ⟨0x103, 1, 0x46, [3, 4]⟩
  | .TXB => ⟨0x104, 1, 0x47, [3, 4]⟩
  | .WUC => ⟨0x105, 1, 0x48, [3, 4]⟩
  | .DEC => ⟨0x108, 4, 0x44, [3, 4]⟩
  | .DEM => ⟨0x110, 16, 0x41, [3, 4]⟩
  | .SIC => ⟨0x120, 16, 0x43, [3, 4]⟩
  | .SYN => ⟨0x180, 1, 0x60, [5, 6]⟩
  | .RXF => ⟨0x181, 1, 0x61, [5, 6]⟩
  | .RSM => ⟨0x182, 1, 0x63, [5, 6]⟩
  | .LIM => ⟨0x183, 1, 0x64, [5, 6]⟩
  | .TXF => ⟨0x184, 4, 0x62, [5, 6]⟩

/-- Every page tag, in the order of Table 4-3. -/
def allTags : List Tag :=
  [.CPT, .VLT, .FCL, .SBD, .BTL, .UPD, .HST, .GWY, .DRM, .FLS, .TIM, .SNS, .TWN, .BEN, .MNT, .HUD,
   .ETH, .CAN, .VXL, .ING, .FWD, .SCH, .POL, .SRC, .CMP, .NTB, .CRY, .PLY, .LAN,
   .CHZ, .CMB, .NSE, .AMC, .TXB, .WUC, .DEC, .DEM, .SIC, .SYN, .RXF, .RSM, .LIM, .TXF]

/-- A page of a die: its tag, die and instance. -/
structure Page where
  tag  : Tag
  die  : Nat
  inst : Nat
  deriving DecidableEq, Repr

/-- The page number of a page (R76). -/
def Page.num (p : Page) : Nat := (pageRow p.tag).first + p.inst

/-- The BAR0 offset of a page's first register (R75). -/
def Page.base (p : Page) : Nat := p.die * 0x200000 + p.num * 0x1000

/-- The page a die has at a page number, if it implements it (R90). -/
def pageAt (die num : Nat) : Option Page :=
  (allTags.find? (fun t => (pageRow t).dies.contains die && (pageRow t).first ≤ num &&
      num < (pageRow t).first + (pageRow t).count)).map
    (fun t => ⟨t, die, num - (pageRow t).first⟩)

/-- The regions of a die in the numbering of REGION_EN (R122). -/
def dieRegions : Nat → List Nat
  | 0 => [0, 1, 2, 3]
  | 1 => [4, 5, 6, 7]
  | 2 => [8, 9, 10, 11]
  | 3 => [12, 13, 14, 15]
  | 4 => [16, 17, 18, 19]
  | 5 => [20, 21]
  | 6 => [22, 23]
  | _ => []

/-- The die of a region. -/
def regionDie (r : Nat) : Nat := if r < 20 then r / 4 else if r < 22 then 5 else 6

/-- The region of a block, none for a die-level block of a Route, Air or Band die (R625). -/
def Page.region (p : Page) : Option Nat :=
  match p.tag with
  | .HST | .DRM | .FLS | .UPD => some 0
  | .ETH | .VXL => some 1
  | .CAN | .GWY => some 2
  | .CPT | .VLT | .BTL | .TWN | .FCL | .SBD | .TIM | .SNS | .BEN | .MNT | .HUD => some 3
  | .NTB | .CRY | .LAN => some (4 * p.die + p.inst)
  | .PLY => some (4 * p.die + p.inst / 4)
  | .ING | .FWD | .SCH | .POL | .SRC | .CMP => none
  | .DEC => some (4 * p.die + p.inst)
  | .DEM | .SIC => some (4 * p.die + p.inst / 4)
  | .CHZ | .CMB | .NSE | .AMC | .TXB | .WUC => none
  | .SYN | .RXF => some (20 + 2 * (p.die - 5))
  | .LIM | .TXF => some (21 + 2 * (p.die - 5))
  | .RSM => none

/-- Whether a page is powered under a mask of powered regions (R625). -/
def Page.poweredBy (p : Page) (mask : Nat) : Bool :=
  match p.region with
  | some r => bitOf mask r
  | none => (dieRegions p.die).any (fun r => bitOf mask r)

/-- Where a block's error pin reports (R513, Table 18-2). -/
inductive Collect where
  | region (r bit : Nat)
  | die (bit : Nat)
  | package (bit : Nat)
  deriving DecidableEq, Repr

/-- The collector bit of a page (Table 18-2). -/
def Page.collect (p : Page) : Collect :=
  match p.tag with
  | .HST => .region 0 0
  | .DRM => .region 0 1
  | .FLS => .region 0 2
  | .ETH => .region 1 p.inst
  | .VXL => .region 1 (16 + p.inst)
  | .CAN => .region 2 p.inst
  | .FCL => .region 3 0
  | .SBD => .region 3 1
  | .TIM => .region 3 2
  | .SNS => .region 3 3
  | .BEN => .region 3 4
  | .MNT => .region 3 5
  | .HUD => .region 3 6
  | .GWY => .die 8
  | .CPT => .package 8
  | .VLT => .package 9
  | .BTL => .package 10
  | .UPD => .package 11
  | .TWN => .package 12
  | .NTB => .region (4 * p.die + p.inst) 0
  | .CRY => .region (4 * p.die + p.inst) 1
  | .PLY => .region (4 * p.die + p.inst / 4) (2 + p.inst % 4)
  | .LAN => .region (4 * p.die + p.inst) 6
  | .ING => .die 8
  | .FWD => .die 9
  | .SCH => .die 10
  | .POL => .die 11
  | .SRC => .die 12
  | .CMP => .die 13
  | .DEC => .region (4 * p.die + p.inst) 0
  | .DEM => .region (4 * p.die + p.inst / 4) (1 + p.inst % 4)
  | .SIC => .region (4 * p.die + p.inst / 4) (5 + p.inst % 4)
  | .CHZ => .die 8
  | .CMB => .die 9
  | .NSE => .die 10
  | .AMC => .die 11
  | .TXB => .die 12
  | .WUC => .die 13
  | .SYN => .region (20 + 2 * (p.die - 5)) 0
  | .RXF => .region (20 + 2 * (p.die - 5)) 1
  | .LIM => .region (21 + 2 * (p.die - 5)) 0
  | .TXF => .region (21 + 2 * (p.die - 5)) (1 + p.inst)
  | .RSM => .die 8

/-- The position of a region's bit in its die's word (R513). -/
def regionBitInDie (r : Nat) : Nat := if r < 20 then r % 4 else r % 2

/-- Every page of the device, in the order of Table 4-3. -/
def allPages : List Page :=
  allTags.flatMap (fun t => (pageRow t).dies.flatMap (fun d =>
    (List.range (pageRow t).count).map (fun i => ⟨t, d, i⟩)))

/-- The error source a page lists under a number (R510). -/
def srcAt (p : Page) (n : Nat) : Option Src :=
  (srcsOf p.tag).find? (fun s => s.num == n && (!s.only0 || p.inst == 0))

end Sys2Proof.Machine

namespace Sys2Proof
open Sys2Proof.Machine

/-- Whether a field exists on a page: some fields exist on instance 0 alone. -/
def Fld.on (f : Fld) (p : Page) : Bool := f.tag == p.tag && (!f.only0 || p.inst == 0)

/-- The key of instance `i` of a field of a page: its byte offset in BAR0 (R75) and its lowest bit. -/
def Fld.key (f : Fld) (p : Page) (i : Nat) : Nat := (p.base + f.off + f.stride * i) * 32 + f.lsb

/-- The key of instance `i` of a counter of a page: the BAR0 offset of its low half. -/
def Ctr.key (c : Ctr) (p : Page) (i : Nat) : Nat := p.base + c.off + 8 * i

/-- The largest value a field holds. -/
def Fld.cap (f : Fld) : Nat := 2 ^ f.width - 1

/-- The page of a field's own kind on a die. -/
def Fld.page (f : Fld) (die inst : Nat) : Page := ⟨f.tag, die, inst⟩

end Sys2Proof
end

