-- ==== Sys2Proof/Machine/Store.lean ====
section
/-! DEFINITION. Key and value lists in strictly rising key order: the form in which registers and counters are
held, and the same for octets of memory. Each write keeps the form. -/

namespace Sys2Proof.Machine
open Sys2Proof

/-- The value of a key, or a default where it is not listed. -/
def kvGet (dflt : Nat) : List (Nat × Nat) → Nat → Nat
  | [], _ => dflt
  | (k, v) :: l, key => if k == key then v else kvGet dflt l key

/-- The list with a key's entry replaced or inserted in order; an entry equal to the default is left out. -/
def kvSet (dflt : Nat) (l : List (Nat × Nat)) (key v : Nat) : List (Nat × Nat) :=
  l.filter (fun e => e.1 < key) ++ (if v == dflt then [] else [(key, v)]) ++ l.filter (fun e => key < e.1)

/-- The entries with keys in [lo, hi). -/
def kvIn (lo hi : Nat) (l : List (Nat × Nat)) : List (Nat × Nat) :=
  l.filter (fun e => lo ≤ e.1 && e.1 < hi)

/-- The entries with keys outside [lo, hi). -/
def kvOut (lo hi : Nat) (l : List (Nat × Nat)) : List (Nat × Nat) :=
  l.filter (fun e => !(lo ≤ e.1 && e.1 < hi))

/-- The list with every entry of [lo, hi) replaced by those of another list that lie there. -/
def kvSplice (lo hi : Nat) (l src : List (Nat × Nat)) : List (Nat × Nat) :=
  l.filter (fun e => e.1 < lo) ++ kvIn lo hi src ++ l.filter (fun e => hi ≤ e.1)

/-! ## Octets of memory -/

/-- The octet at an address; an unlisted address reads as 0 (assumption 4). -/
def memGet : List Host.Cell → Nat → Byte
  | [], _ => 0#8
  | (k, v) :: l, a => if k == a then v else memGet l a

/-- Memory with one octet written; writing 0 removes the entry, so that equal memories are equal lists. -/
def memSet : List Host.Cell → Nat → Byte → List Host.Cell
  | [], a, v => if v == 0#8 then [] else [(a, v)]
  | (k, w) :: l, a, v =>
    if k < a then (k, w) :: memSet l a v
    else if k == a then (if v == 0#8 then l else (a, v) :: l)
    else if v == 0#8 then (k, w) :: l else (a, v) :: (k, w) :: l

/-- `n` octets from an address. -/
def memRead (m : List Host.Cell) (a n : Nat) : List Byte := (List.range n).map (fun i => memGet m (a + i))

/-- Memory with octets written from an address upwards. -/
def memWrite : List Host.Cell → Nat → List Byte → List Host.Cell
  | m, _, [] => m
  | m, a, b :: bs => memWrite (memSet m a b) (a + 1) bs

/-- Memory after a list of writes, in order. -/
def memWrites (m : List Host.Cell) (ws : List (Nat × List Byte)) : List Host.Cell :=
  ws.foldl (fun m w => memWrite m w.1 w.2) m

/-- The canonical form above a bound: addresses strictly rising and no entry that holds 0. -/
def memOk : Option Nat → List Host.Cell → Bool
  | _, [] => true
  | none, (k, v) :: l => v != 0#8 && memOk (some k) l
  | some b, (k, v) :: l => decide (b < k) && v != 0#8 && memOk (some k) l

/-- The canonical form of a memory: what every write keeps. -/
def Memory.wf (m : List Host.Cell) : Bool := memOk none m

end Sys2Proof.Machine
end

