-- ==== Sys2Proof/Machine/Ops.lean ====
section
/-! DEFINITION. The shared operations: reads and writes of register fields and counters, free
values, MSI-X, the event log, failed accesses, soft reset of a page, and the chip and package resets. -/

namespace Sys2Proof.Machine
open Sys2Proof

/-! ## Register fields -/

/-- The value of a field's live copy (the only copy of a field that is not staged). -/
def RegFile.get (r : RegFile) (f : Fld) (p : Page) (i : Nat) : Nat :=
  match f.acc with
  | .rws => kvGet (f.reset i) r.live (f.key p i)
  | _ => kvGet (f.reset i) r.regs (f.key p i)

/-- The value of the copy that the host reads: the staged copy of an RWS field (R6). -/
def RegFile.getS (r : RegFile) (f : Fld) (p : Page) (i : Nat) : Nat :=
  match f.acc with
  | .rws => kvGet (f.reset i) r.staged (f.key p i)
  | _ => kvGet (f.reset i) r.regs (f.key p i)

/-- Write the live copy, cut to the field's width. -/
def RegFile.set (r : RegFile) (f : Fld) (p : Page) (i v : Nat) : RegFile :=
  match f.acc with
  | .rws => { r with live := kvSet (f.reset i) r.live (f.key p i) (trunc f.width v) }
  | _ => { r with regs := kvSet (f.reset i) r.regs (f.key p i) (trunc f.width v) }

/-- Write the staged copy of an RWS field, or the only copy of another. -/
def RegFile.setS (r : RegFile) (f : Fld) (p : Page) (i v : Nat) : RegFile :=
  match f.acc with
  | .rws => { r with staged := kvSet (f.reset i) r.staged (f.key p i) (trunc f.width v) }
  | _ => { r with regs := kvSet (f.reset i) r.regs (f.key p i) (trunc f.width v) }

/-- A field of a page, live copy. -/
def Dev.get (d : Dev) (f : Fld) (p : Page) (i : Nat := 0) : Nat := d.rf.get f p i

/-- A field of a page, the copy the host reads. -/
def Dev.getS (d : Dev) (f : Fld) (p : Page) (i : Nat := 0) : Nat := d.rf.getS f p i

/-- Write a field of a page, live copy. -/
def Dev.put (d : Dev) (f : Fld) (p : Page) (v : Nat) (i : Nat := 0) : Dev :=
  { d with rf := d.rf.set f p i v }

/-- Write a field of a page, the copy the host writes. -/
def Dev.putS (d : Dev) (f : Fld) (p : Page) (v : Nat) (i : Nat := 0) : Dev :=
  { d with rf := d.rf.setS f p i v }

/-- A field by die and instance, live copy. -/
def Dev.g (d : Dev) (f : Fld) (die : Nat := 0) (inst : Nat := 0) (i : Nat := 0) : Nat :=
  d.get f (f.page die inst) i

/-- Whether a one-bit field is 1. -/
def Dev.on (d : Dev) (f : Fld) (die : Nat := 0) (inst : Nat := 0) (i : Nat := 0) : Bool :=
  d.g f die inst i == 1

/-- Write a field by die and instance, live copy. -/
def Dev.w (d : Dev) (f : Fld) (v : Nat) (die : Nat := 0) (inst : Nat := 0) (i : Nat := 0) : Dev :=
  d.put f (f.page die inst) v i

/-- Write both copies of a field. -/
def Dev.wBoth (d : Dev) (f : Fld) (v : Nat) (die : Nat := 0) (inst : Nat := 0) (i : Nat := 0) : Dev :=
  (d.put f (f.page die inst) v i).putS f (f.page die inst) v i

/-- Set or clear one bit of a field. -/
def Dev.wBit (d : Dev) (f : Fld) (bit : Nat) (b : Bool) (die : Nat := 0) (inst : Nat := 0) (i : Nat := 0) : Dev :=
  d.w f (putBit (d.g f die inst i) bit b) die inst i

/-- Add to a field and stop at its largest value. -/
def Dev.wSat (d : Dev) (f : Fld) (n : Nat) (die : Nat := 0) (inst : Nat := 0) (i : Nat := 0) : Dev :=
  d.w f (satAdd f.cap (d.g f die inst i) n) die inst i

/-! ## Counters (R78, R546) -/

/-- The largest counter value: counters are 64 bits and saturate. -/
def ctrCap : Nat := 2 ^ 64 - 1

/-- A counter's value. -/
def Dev.ctr (d : Dev) (c : Ctr) (die : Nat := 0) (inst : Nat := 0) (i : Nat := 0) : Nat :=
  kvGet 0 d.rf.ctrs (c.key ⟨c.tag, die, inst⟩ i)

/-- Add to a counter; it saturates (R546). -/
def Dev.addc (d : Dev) (c : Ctr) (n : Nat) (die : Nat := 0) (inst : Nat := 0) (i : Nat := 0) : Dev :=
  { d with rf := { d.rf with
      ctrs := kvSet 0 d.rf.ctrs (c.key ⟨c.tag, die, inst⟩ i)
        (satAdd ctrCap (kvGet 0 d.rf.ctrs (c.key ⟨c.tag, die, inst⟩ i)) n) } }

/-- Count one event. -/
def Dev.inc (d : Dev) (c : Ctr) (die : Nat := 0) (inst : Nat := 0) (i : Nat := 0) : Dev :=
  d.addc c 1 die inst i

/-! ## Small helpers over the device -/

/-- A condition applied to a device function. -/
def Dev.when (d : Dev) (b : Bool) (f : Dev → Dev) : Dev := if b then f d else d

/-- A list folded over the device. -/
def Dev.each {α : Type} (d : Dev) (l : List α) (f : Dev → α → Dev) : Dev := l.foldl f d

/-- Put something on an interface. -/
def Dev.emit (d : Dev) (o : Out) : Dev := { d with out := o :: d.out }

/-- The next free number, and the device with its counter advanced (assumption 2). -/
def Dev.freshNat (d : Dev) : Nat × Dev := (Config.freeNat d.free, { d with free := d.free + 1 })

/-- The next free octets, cut or padded to a length, and the device with its counter advanced (assumption 2). -/
def Dev.freshBytes (d : Dev) (n : Nat) : List Byte × Dev :=
  (padTo n (Config.freeBytes d.free), { d with free := d.free + 1 })

/-! ## Modes -/

/-- Mode codes (Table 5-10). -/
def mRecover : Nat := 0
/-- Mode code. -/
def mBringup : Nat := 1
/-- Mode code. -/
def mService : Nat := 2
/-- Mode code. -/
def mShadow : Nat := 3
/-- Mode code. -/
def mDoze : Nat := 4
/-- Mode code. -/
def mQuiesce : Nat := 5

/-- The current mode (BTL.BOOT_STAT.MODE, R133). -/
def Dev.mode (d : Dev) : Nat := d.g F.BTL.BOOT_STAT_MODE

/-- The mode whose activity the device carries: a transition stops activity at its trigger and starts activity when TRANS returns to 0
(R125). The entry into DOZE holds traffic as the QUIESCE entry does. -/
def Dev.act (d : Dev) : Nat :=
  if !d.on F.BTL.BOOT_STAT_TRANS then d.mode
  else
    let t := d.g F.BTL.BOOT_STAT_TARGET
    if t == mDoze || t == mQuiesce then mQuiesce
    else if t == mShadow then mShadow
    else if t == mBringup && d.mode == mService then mBringup
    else d.mode

/-- Whether a takeover has not reached step 4 of Table 17-5, which enables the outputs. -/
def Dev.outsWait (d : Dev) : Bool := d.g F.TWN.STAT_STATE == 5 && d.tw.step < 4

/-- The mode that the bands and CAN controllers follow: from step 4 of a takeover on it is SERVICE (Table 17-5). -/
def Dev.outAct (d : Dev) : Nat := if d.g F.TWN.STAT_STATE == 5 && 4 ≤ d.tw.step then mService else d.act

/-- Whether boot has finished and the device is out of reset. -/
def Dev.booted (d : Dev) : Bool := d.on F.BTL.BOOT_STAT_DONE && !d.pwr.inReset

/-- Whether a region is powered (R13). -/
def Dev.regionOn (d : Dev) (r : Nat) : Bool := bitOf d.pwr.powered r

/-- Whether a die is halted by a die-level fault or its ingest sequencer held in block reset (Table 1-6, R79). -/
def Dev.dieHalted (d : Dev) (die : Nat) : Bool :=
  bitOf d.pwr.halted die ||
    ((die == 1 || die == 2) && d.get (pgRstBusy .ING) ⟨.ING, die, 0⟩ == 1)

/-- Whether a die can take work: powered and not halted. -/
def Dev.dieUp (d : Dev) (die : Nat) : Bool :=
  (dieRegions die).any (fun r => d.regionOn r) && !d.dieHalted die

/-! ## MSI-X (R94) -/

/-- Fire a vector: the message goes out when the vector is unmasked, else its pending bit is set. -/
def Dev.fireVec (d : Dev) (v : Nat) : Dev :=
  if bitOf d.hl.msixUnmask v then
    d.emit (.msix v (kvGet 0 d.hl.msixTbl (16 * v) + 2 ^ 32 * kvGet 0 d.hl.msixTbl (16 * v + 4))
      (kvGet 0 d.hl.msixTbl (16 * v + 8)))
  else { d with hl := { d.hl with msixPend := putBit d.hl.msixPend v true } }

/-! ## The event log (R542 to R545) -/

/-- Records the RAM front holds, and how many of them are kept for SEV 3 (R543). -/
def logRamCap : Nat := 8192
/-- Places kept for SEV 3 (R543). -/
def logRamKept : Nat := 256

/-- Put one record in the RAM front and show it in CPT.LOG_STAT and LOG_NEWEST (R542, R554). -/
def Dev.logPut (d : Dev) (code sev die : Nat) (data : List Byte) : Dev :=
  let n := (d.log.last + 1) % 2 ^ 32
  let r : LogRec :=
    { seq := n, time := d.time.lt, code := code, sev := sev, die := die, data := padTo 12 data,
      boot := d.g F.BTL.BOOT_SEQ_SEQ % 65536 }
  let d := { d with log := { d.log with ram := d.log.ram ++ [r], last := n } }
  let d := d.w F.CPT.LOG_STAT_UNFLUSHED d.log.ram.length
  let d := d.w F.CPT.LOG_NEWEST_SEQ n
  let d := d.when (d.g F.CPT.LOG_OLDEST_SEQ == 0) (fun d => d.w F.CPT.LOG_OLDEST_SEQ n)
  (d.inc C.CPT.LOG_RECORDS).when (d.g F.CPT.LOG_CFG_IRQ_SEV ≤ sev) (fun d => d.fireVec 9)

/-- Write a log record (R542): it is lost when no place is free for its severity; the first record after a loss
is code 0x0901 with the count (R543). -/
def Dev.logRec (d : Dev) (code sev die : Nat) (data : List Byte) : Dev :=
  let room := if sev < 3 then logRamCap - logRamKept else logRamCap
  let need := if d.log.lost == 0 then 1 else 2
  if d.log.ram.length + need ≤ room then
    let d := d.when (d.log.lost != 0) (fun d =>
      let d := d.logPut 0x0901 2 0 (toLE 4 d.log.lost)
      { d with log := { d.log with lost := 0 } })
    d.logPut code sev die data
  else { d with log := { d.log with lost := d.log.lost + 1 } }.inc C.CPT.LOG_LOST

/-! ## Failed accesses (R79) -/

/-- Record a failed access: the first one in HST.ACC_ERR, every one in ACC_ERR_CNT. -/
def Dev.failAcc (d : Dev) (addr bar cause : Nat) : Dev :=
  let d := d.wSat F.HST.ACC_ERR_CNT_CNT 1
  if d.g F.HST.ACC_ERR_CAUSE == 0 then
    ((d.w F.HST.ACC_ERR_OFFSET addr).w F.HST.ACC_ERR_BAR bar).w F.HST.ACC_ERR_CAUSE cause
  else d

/-- The pages an access to a die and page number reaches: die 7 reaches every die that implements the page (R77). -/
def targets (die page : Nat) : List Page :=
  if die == 7 then (List.range 7).filterMap (fun x => pageAt x page) else (pageAt die page).toList

/-- Why a write to a page fails before its register is looked at, if it does (R79): 3 unpowered region, 6 block
soft reset in progress. -/
def Dev.pageFault (d : Dev) (p : Page) : Option Nat :=
  if !p.poweredBy d.pwr.powered then some 3
  else if d.get (pgRstBusy p.tag) p == 1 then some 6
  else none

/-- Whether a page is locked, which PG_STAT.LOCKED shows as a copy (R89, Table 4-1). -/
def Dev.locked (d : Dev) (p : Page) : Bool := d.get (pgLock p.tag) p == 1

/-- Apply a write to every page that a die and page number reach. A page that cannot take it records a failed
access (R77, R79); `lockable` says whether a lock protects what is written (R89). For die 7 the offset recorded is
that of the die on which the write fails (DESIGN CHOICE, log 13). -/
def Dev.pageWrite (d : Dev) (die page off : Nat) (lockable : Bool) (f : Dev → Page → Dev) : Dev :=
  match targets die page with
  | [] => d.failAcc (die * 0x200000 + page * 0x1000 + off) 0 1
  | ps => d.each ps (fun d p =>
      match d.pageFault p with
      | some c => d.failAcc (p.base + off) 0 c
      | none => if lockable && d.locked p then d.failAcc (p.base + off) 0 5 else f d p)

/-! ## Block soft reset (R82) -/

/-- First key of a page and first key after it, over fields (32 keys for each byte offset). -/
def Page.lo (p : Page) : Nat := p.base * 32
/-- See `Page.lo`. -/
def Page.hi (p : Page) : Nat := (p.base + 0x1000) * 32

/-- The pages whose status fields stand for state that a soft reset of the page does not touch: boot and mode, tables, units, keys, fuses, the log. -/
def keepsStatus : Tag → Bool
  | .BTL | .UPD | .CPT | .PLY | .NTB | .FWD | .SCH | .POL | .SRC | .ING | .LAN | .VLT | .BEN | .MNT | .SNS | .LIM | .CMP => true
  | .FCL | .SBD | .HST | .GWY | .DRM | .FLS | .TIM | .TWN | .HUD | .ETH | .CAN | .VXL | .CRY | .CHZ | .CMB | .NSE | .AMC | .TXB | .WUC
  | .DEC | .DEM | .SIC | .SYN | .RXF | .RSM | .TXF => false

/-- Whether a key is that of a status field of a page. -/
def isStatusKey (p : Page) (k : Nat) : Bool :=
  (fieldsOf p.tag).any (fun f => f.acc == .ro && (List.range f.n).any (fun i => f.key p i == k))

/-- Every field of a page at its reset value, both copies, and every counter at 0, except PG_ACCESS and
PG_ERR_REACT (R82, R546) and the status of what the page only shows; with `keepSticky` PG_ERR_STICKY is kept as well (code 3 of Table 18-1). -/
def RegFile.softReset (r : RegFile) (p : Page) (keepSticky : Bool) : RegFile :=
  let kept := r.regs.filter (fun e => p.lo ≤ e.1 && e.1 < p.hi &&
    (((p.base + 0x018) * 32 ≤ e.1 && e.1 < (p.base + 0x020) * 32) ||
     ((p.base + 0x024) * 32 ≤ e.1 && e.1 < (p.base + 0x028) * 32) ||
     (keepSticky && (p.base + 0x010) * 32 ≤ e.1 && e.1 < (p.base + 0x014) * 32) ||
     (keepsStatus p.tag && isStatusKey p e.1)))
  { r with
    regs := kvSplice p.lo p.hi r.regs kept
    live := kvOut p.lo p.hi r.live
    staged := kvOut p.lo p.hi r.staged
    ctrs := kvOut p.base (p.base + 0x1000) r.ctrs
    ctrHi := kvOut p.base (p.base + 0x1000) r.ctrHi
    split := kvOut p.base (p.base + 0x1000) r.split }

/-- Start a block soft reset: the page's fields return to their reset values, a commit in progress is abandoned
and RST_BUSY is 1 until the block reports its reset state (R82). -/
def Dev.softReset (d : Dev) (p : Page) (keepSticky : Bool := false) : Dev :=
  let d := { d with
    rf := d.rf.softReset p keepSticky
    commits := d.commits.filter (fun c => !(c.tag == p.tag && c.die == p.die && c.inst == p.inst)) }
  d.put (pgRstBusy p.tag) p 1

/-! ## Package and chip resets (Table 5-1) -/

/-- Outputs in their Reset states (Table 2-9). -/
def Pins.atReset : Pins := {}

/-- The register copies that survive a chip reset: the TIM page without its lock (R107, R108), FIRST, LAST_RESET and
ERRN.LATCH, which retention memory of region A3 holds (R515, R516), the gateway's FRESH_LOST (R439), HUD.ID_LAST (R465), PT_OFS (R493), and the
tamper sources asserted, which the inputs themselves hold (R294). -/
def RegFile.afterChip (r : RegFile) : RegFile :=
  let tim : Page := ⟨.TIM, 0, 0⟩
  let fcl : Page := ⟨.FCL, 0, 0⟩
  let lock := (pgLock .TIM).key tim 0
  let ret : Nat → Bool := fun k =>
    (tim.lo ≤ k && k < tim.hi && k != lock) ||
    ((fcl.base + 0x0C0) * 32 ≤ k && k < (fcl.base + 0x0C4) * 32) ||
    k == F.HUD.ID_LAST_ID.key ⟨.HUD, 0, 0⟩ 0 || k == F.HUD.ID_LAST_VALID.key ⟨.HUD, 0, 0⟩ 0 ||
    k == F.TWN.PT_OFS_LO_O.key ⟨.TWN, 0, 0⟩ 0 || k == F.TWN.PT_OFS_HI_O.key ⟨.TWN, 0, 0⟩ 0 ||
    k == F.FCL.ERRN_LATCH.key fcl 0 || k == F.VLT.TAMPER_STAT_ASSERTED.key ⟨.VLT, 0, 0⟩ 0 || k == F.GWY.STAT_FRESH_LOST.key ⟨.GWY, 0, 0⟩ 0 ||
    ((fcl.base + 0x0D0) * 32 ≤ k && k < (fcl.base + 0x0D4) * 32)
  { regs := r.regs.filter (fun e => ret e.1)
    live := r.live.filter (fun e => tim.lo ≤ e.1 && e.1 < tim.hi)
    staged := r.staged.filter (fun e => tim.lo ≤ e.1 && e.1 < tim.hi)
    split := r.split.filter (fun e => tim.base ≤ e.1 && e.1 < tim.base + 0x1000) }

/-! ## The units of the bench (Tables 1-4, 18-3) -/

/-- The state of a unit at manufacture (Table 18-3). -/
def unitAtMake (type die index : Nat) : UnitState :=
  match type with
  | 0 => if index % 8 == 7 then .spare else .active
  | 1 => if index % 5 == 4 then .spare else .active
  | 2 => if 32 ≤ index % 34 then .spare else .active
  | 3 => if index % 5 == 4 then .spare else .active
  | 4 => if 256 ≤ index % 512 then .spare else .active
  | 5 => if index % 3 == 2 then .spare else .active
  | _ => if die == 2 then .spare else .active

/-- How many indexes a unit type has on a die, and on which dies (Table 18-3, Table 1-4). -/
def unitCount (type : Nat) : Nat :=
  match type with
  | 0 => 128
  | 1 => 20
  | 2 => 544
  | 3 => 80
  | 4 => 294912
  | 5 => 24
  | 6 => 1
  | _ => 0

/-- The dies that hold units of a type. -/
def unitDies (type : Nat) : List Nat :=
  match type with
  | 0 | 1 | 4 | 6 => [1, 2]
  | 2 | 3 => [3, 4]
  | 5 => [0]
  | _ => []

/-- Whether a type, die and index name a unit. -/
def unitExists (type die index : Nat) : Bool :=
  (unitDies type).contains die && index < unitCount type && (type != 4 || index % 512 < 258)

/-- What the bench manager knows of a unit. -/
def Dev.unit (d : Dev) (type die index : Nat) : BenchUnit :=
  (d.mt.units.find? (fun u => u.type == type && u.die == die && u.index == index)).getD
    { type := type, die := die, index := index, state := unitAtMake type die index }

end Sys2Proof.Machine
end

