-- ==== Sys2Proof/Machine/Reset.lean ====
section
/-! DEFINITION. The resets of Table 5-1 that reach more than one page: the chip reset (R108, R630) and the package
reset (R40, R107), written as the state right after reset with what each keeps put back. -/

namespace Sys2Proof.Machine
open Sys2Proof

/-- The log after a chip reset: the RAM front is retention memory and is flushed after restart (R543, Table 19-7). -/
def Log.afterChip (l : Log) : Log := { l with busy := 0, flushCmds := [] }

/-- The log after a package reset: unflushed records are lost, SEQ continues from flash (R542, R543). -/
def Log.afterPackage (l : Log) : Log :=
  { flash := l.flash, pageNo := l.pageNo, last := l.flash.flatten.foldl (fun m r => max m r.seq) 0 }

/-- What boot keeps in flash across every reset: ledger, pending LEDGER_CLR and blob. -/
def Boot.inFlash (b : Boot) : Boot :=
  { sec0 := b.sec0, sec1 := b.sec1, cur := b.cur, clearDue := b.clearDue, blob := b.blob }

/-- What a chip reset leaves of the update engine: the flash banks, and the saved state while the reset is that of an activation (R566, R572). -/
def Update.afterChip (u : Update) (cause : Nat) : Update :=
  if cause == 7 then { banks := u.banks, gaveUp := u.gaveUp, backMode := u.backMode, saved := u.saved }
  else { banks := u.banks, gaveUp := u.gaveUp }

/-- The fuses after a reset: programming that it interrupts stops, and the lock is incomplete (Table 2-10). -/
def Dev.fusesCut (d : Dev) : List BandFuses :=
  (d.fuses.zipIdx).map (fun (x : BandFuses × Nat) => if d.on F.LIM.LOCK_PROG_BUSY (x.2 + 5) then { x.1 with state := 1 } else x.1)

/-- The state of the device right after a chip reset takes hold (R108): every region of every die but the time
island is reset, DRAM is in self-refresh and keeps its contents, outputs are in their Reset states (Table 2-9), a PTP step that was
due is still due, boot is due 10 µs
later, and the last sampled BOOT_RECOVER still applies (R110). The retirement list (R523), the RAM front of the log
(R543) and the registers of `RegFile.afterChip` survive. The activities that held or waited for tokens are lost, an activation apart, whose restart this is; MNT.ABANDONED,
which the reset clears, counts them in the boot that follows (R530, R546, Table 18-8). -/
def Dev.chipReset (d : Dev) (cause : Nat) : Dev :=
  { rf := d.rf.afterChip
    out := d.out
    free := d.free
    pins := Pins.atReset
    pwr := { bootDue := true, recoverPin := d.pwr.recoverPin, cause := cause, powered := 0x00000F,
             dramUp := d.pwr.dramUp, dramMiB := d.pwr.dramMiB, dramSelfRefresh := d.pwr.dramUp, grade := d.pwr.grade,
             tapReset := d.pwr.tapReset, railsOff := d.pwr.railsOff }
    time := { d.time with ppsAllowed := false, stepFor := 0 }
    boot := d.boot.inFlash
    mt := { units := d.mt.units, lost := ((d.mt.held ++ d.mt.queue).filter (fun r => r.act != 7)).length }
    log := d.log.afterChip
    sb := { ring := d.sb.ring }
    cpt := { eui64 := d.cpt.eui64, csigFuse := d.cpt.csigFuse }
    fuses := d.fusesCut
    stored := d.stored
    blobs := d.blobs
    ledgers := d.ledgers
    gw := { freshRx := d.gw.freshRx, freshTx := d.gw.freshTx }
    cmp := { images := if d.pwr.dramUp then d.cmp.images else [] }
    upd := d.upd.afterChip cause }

/-- The state right after a package reset takes hold, PORST_N low or a monitor tripped (R40, R41, Table 5-1): all
but flash, fuses and the outside is lost; time restarts at 0. -/
def Dev.packageReset (d : Dev) (porst : Bool) (monLow : Nat) (cause mon : Nat) : Dev :=
  { out := d.out
    free := d.free
    pwr := { porstLow := porst, inReset := porst || monLow != 0, monLow := monLow, bootDue := false,
             recoverPin := d.pwr.recoverPin, cause := cause, causeMon := mon, powered := 0x00000F,
             grade := d.pwr.grade, tapReset := d.pwr.tapReset, railsOff := d.pwr.railsOff }
    boot := d.boot.inFlash
    log := d.log.afterPackage
    cpt := { eui64 := d.cpt.eui64, csigFuse := d.cpt.csigFuse }
    fuses := d.fusesCut
    stored := d.stored
    blobs := d.blobs
    upd := { banks := d.upd.banks, gaveUp := d.upd.gaveUp } }

end Sys2Proof.Machine
end

