-- ==== Sys2Proof/Machine/Flags.lean ====
section
/-! DEFINITION. The flags of the block: sticky bits, error pins, collector words, FIRST, ERR_N and the reactions of
error sources (R510 to R517). -/

namespace Sys2Proof.Machine
open Sys2Proof

/-- The live reaction code of a source of a page: its reset code is the one its chapter's table shows, 0 for a
source that the table does not list (R510). -/
def Dev.react (d : Dev) (p : Page) (n : Nat) : Nat :=
  d.get (pgReact p.tag n ((srcAt p n).elim 0 (·.code))) p

/-- Write a reaction code (R81: codes 6 and 7 are ignored). -/
def Dev.setReact (d : Dev) (p : Page) (n code : Nat) : Dev :=
  if code ≤ 5 then d.put (pgReact p.tag n ((srcAt p n).elim 0 (·.code))) p code else d

/-- Whether a block's error pin is asserted: a sticky bit whose live code is not 0 (R512). -/
def Dev.errPin (d : Dev) (p : Page) : Bool :=
  d.get (pgSticky p.tag) p != 0 &&
    (List.range 16).any (fun n => bitOf (d.get (pgSticky p.tag) p) n && d.react p n != 0)

/-- A region word (R513). -/
def Dev.regionWord (d : Dev) (r : Nat) : Nat := d.g F.FCL.REGION_WORD_D 0 0 r
/-- A die word (R513). -/
def Dev.dieWord (d : Dev) (x : Nat) : Nat := d.g F.FCL.DIE_WORD_D 0 0 x
/-- The package word (R513). -/
def Dev.pkgWord (d : Dev) : Nat := d.g F.FCL.PKG_WORD_D

/-- Set a die word's bit and with it the die's bit of the package word (R514). -/
def Dev.setDieBit (d : Dev) (x bit : Nat) : Dev :=
  (d.wBit F.FCL.DIE_WORD_D bit true 0 0 x).wBit F.FCL.PKG_WORD_D x true

/-- Climb the ladder of collector words from a block whose error pin is asserted (R514). -/
def Dev.collectUp (d : Dev) (p : Page) : Dev :=
  match p.collect with
  | .region r bit => (d.wBit F.FCL.REGION_WORD_D bit true 0 0 r).setDieBit p.die (regionBitInDie r)
  | .die bit => d.setDieBit p.die bit
  | .package bit => d.wBit F.FCL.PKG_WORD_D bit true

/-- Bring the collector words up to date with a block's error pin (R512, R514). -/
def Dev.pinUpdate (d : Dev) (p : Page) : Dev := if d.errPin p then d.collectUp p else d

/-- Drive ERR_N from the latch (R516). -/
def Dev.errNFollow (d : Dev) : Dev :=
  { d with pins := { d.pins with errNLow := d.on F.FCL.ERRN_LATCH || d.pwr.bootHeld } }.w F.FCL.ERRN_PIN
    (b2n (d.on F.FCL.ERRN_LATCH || d.pwr.bootHeld))

/-- The log data of code 0x0201 (Table 19-4). -/
def stickyData (p : Page) (n code : Nat) : List Byte :=
  toLE 1 p.die ++ toLE 2 p.num ++ toLE 1 n ++ toLE 1 code

/-- Record a source in a FIRST-shaped register of FCL: FIRST or LAST_RESET (R515, Table 18-1). -/
def Dev.fclRecord (d : Dev) (die page src valid : Fld) (p : Page) (n : Nat) : Dev :=
  (((d.w die p.die).w page p.num).w src n).w valid 1

/-- A chip reset that takes hold when the command's other effects are done (R511). -/
def Dev.resetSoon (d : Dev) (cause : Nat) : Dev := { d with pwr := { d.pwr with resetDue := some cause } }

/-- The reaction to a source whose sticky bit has just been set, by its live code (Table 18-1). -/
def Dev.reaction (d : Dev) (p : Page) (n code : Nat) : Dev :=
  let d := d.when (code != 0 && !d.on F.FCL.FIRST_VALID) (fun d =>
    d.fclRecord F.FCL.FIRST_DIE F.FCL.FIRST_PAGE F.FCL.FIRST_SRC F.FCL.FIRST_VALID p n)
  let d := d.pinUpdate p
  let d := d.when (2 ≤ code && code ≤ 5) (fun d =>
    d.logRec 0x0201 (if 4 ≤ code then 3 else 2) p.die (stickyData p n code))
  match code with
  | 1 => (d.inc C.FCL.INTS).fireVec (2 + p.die)
  | 2 => (d.inc C.FCL.TRAPS).inc C.CPT.TRAPS_RUN
  | 3 => (d.inc C.FCL.BLOCK_RESETS).softReset p true
  | 4 => (d.fclRecord F.FCL.LAST_RESET_DIE F.FCL.LAST_RESET_PAGE F.FCL.LAST_RESET_SRC
            F.FCL.LAST_RESET_VALID p n).resetSoon 4
  | 5 => ((d.inc C.FCL.ERRN_SETS).w F.FCL.ERRN_LATCH 1).errNFollow
  | _ => d

/-- A listed source fires: its sticky bit sets and it acts by its live code; while the bit is 1 it does not act again
(R510, R511). -/
def Dev.raiseAt (d : Dev) (p : Page) (n : Nat) : Dev :=
  match srcAt p n with
  | none => d
  | some _ =>
    if bitOf (d.get (pgSticky p.tag) p) n then d
    else
      let code := d.react p n
      (d.put (pgSticky p.tag) p (putBit (d.get (pgSticky p.tag) p) n true)).reaction p n code

/-- Fire a named source on a die and instance. -/
def Dev.raise (d : Dev) (e : Src) (die : Nat := 0) (inst : Nat := 0) : Dev := d.raiseAt ⟨e.tag, die, inst⟩ e.num

/-- Clear sticky bits; the error pin may fall (R512). -/
def Dev.stickyClear (d : Dev) (p : Page) (bits : Nat) : Dev :=
  let old := d.get (pgSticky p.tag) p
  d.put (pgSticky p.tag) p (ofBits ((bitList 16 old).filter (fun n => !bitOf bits n)))

/-- Force sources while injection is enabled (R517). -/
def Dev.force (d : Dev) (p : Page) (bits : Nat) : Dev :=
  if d.on F.FCL.INJ_EN then
    d.each ((bitList 16 bits).filter (fun n => (srcAt p n).isSome)) (fun d n => (d.inc C.FCL.FORCED).raiseAt p n)
  else d

/-- Write the reaction codes of a page's low or high register; the pin follows the live codes (R81, R512). -/
def Dev.reactWrite (d : Dev) (p : Page) (hi : Bool) (data : Nat) : Dev :=
  let base := if hi then 10 else 0
  let cnt := if hi then 6 else 10
  (d.each (List.range cnt) (fun d k => d.setReact p (base + k) (bitsOf data (3 * k) 3))).pinUpdate p

/-- Whether some sticky bit whose live code is 5 remains on a powered page (R516). -/
def Dev.code5Left (d : Dev) : Bool :=
  allPages.any (fun p => p.poweredBy d.pwr.powered && d.get (pgSticky p.tag) p != 0 &&
    (List.range 16).any (fun n => bitOf (d.get (pgSticky p.tag) p) n && d.react p n == 5))

/-- The pages whose error pin reports to a bit of a word, by where they report. -/
def Dev.anyPin (d : Dev) (c : Nat → Collect → Bool) : Bool :=
  allPages.any (fun p => c p.die p.collect && d.errPin p)

/-- Clear the bits of a region word whose block's pin is down (R514). -/
def Dev.clearRegion (d : Dev) (r bits : Nat) : Dev :=
  d.each ((bitList 32 bits).filter (fun b => !d.anyPin (fun _ c => c == .region r b)))
    (fun d b => d.wBit F.FCL.REGION_WORD_D b false 0 0 r)

/-- Clear the bits of a die word whose input is down: a region word with no bit, or a block's pin (R514). -/
def Dev.clearDie (d : Dev) (x bits : Nat) : Dev :=
  d.each ((bitList 32 bits).filter (fun b =>
      if b < 4 then (dieRegions x).all (fun r => regionBitInDie r != b || d.regionWord r == 0)
      else !d.anyPin (fun y c => y == x && c == .die b)))
    (fun d b => d.wBit F.FCL.DIE_WORD_D b false 0 0 x)

/-- Clear the bits of the package word whose input is down (R514). -/
def Dev.clearPkg (d : Dev) (bits : Nat) : Dev :=
  d.each ((bitList 32 bits).filter (fun b =>
      if b < 7 then d.dieWord b == 0 else !d.anyPin (fun _ c => c == .package b)))
    (fun d b => d.wBit F.FCL.PKG_WORD_D b false)

/-! ## How a meaning answers -/

/-- What every command ends with. While the package is held in reset, its outputs hold their Reset states and no other reset ends it (R40, R41, Table 2-9);
else a chip reset that has fallen due takes hold; otherwise nothing changes (R108, R511). -/
def Dev.settle (d : Dev) : Dev :=
  if d.pwr.inReset then { d with pins := Pins.atReset, pwr := { d.pwr with resetDue := none } }
  else match d.pwr.resetDue with
  | some c => d.chipReset c
  | none => d

/-- What every meaning answers. -/
abbrev Answer := Host.Outcome State Fault Refusal

/-- A command whose effect lies in the device alone. -/
def run (s : State) (f : Dev → Dev) : Answer := .next { s with dev := (f s.dev).settle }

/-- A command that may also write host memory: the device's new state and the writes, in order. -/
def runHost (s : State) (f : List Host.Cell → Dev → Dev × List (Nat × List Byte)) : Answer :=
  .next { s with dev := (f s.host s.dev).1.settle, host := memWrites s.host (f s.host s.dev).2 }

end Sys2Proof.Machine
end

