-- ==== Sys2Proof/Machine/Commit.lean ====
section
/-! DEFINITION. The two copies of RWS fields and how a snapshot goes live (R6, R83). -/

namespace Sys2Proof.Machine
open Sys2Proof

/-- The staged entries of a page: what a commit takes as its snapshot. -/
def Dev.stagedOf (d : Dev) (p : Page) : List (Nat × Nat) := kvIn p.lo p.hi d.rf.staged

/-- The live entries of a page. -/
def Dev.liveOf (d : Dev) (p : Page) : List (Nat × Nat) := kvIn p.lo p.hi d.rf.live

/-- A field's value in a snapshot. -/
def snapGet (snap : List (Nat × Nat)) (f : Fld) (p : Page) (i : Nat := 0) : Nat :=
  kvGet (f.reset i) snap (f.key p i)

/-- Whether a snapshot changes a field. -/
def Dev.changes (d : Dev) (snap : List (Nat × Nat)) (f : Fld) (p : Page) (i : Nat := 0) : Bool :=
  snapGet snap f p i != d.get f p i

/-- Every live copy of the page takes its snapshot value (R83). -/
def Dev.liveFrom (d : Dev) (p : Page) (snap : List (Nat × Nat)) : Dev :=
  { d with rf := { d.rf with live := kvSplice p.lo p.hi d.rf.live snap } }

/-- The page's pending commit. -/
def Dev.pendingCommit (d : Dev) (p : Page) : Option PendCommit :=
  d.commits.find? (fun c => c.tag == p.tag && c.die == p.die && c.inst == p.inst)

/-- Forget the page's pending commit. -/
def Dev.dropCommit (d : Dev) (p : Page) : Dev :=
  { d with commits := d.commits.filter (fun c => !(c.tag == p.tag && c.die == p.die && c.inst == p.inst)) }

/-- A commit ends applied: GEN counts, COMMIT_RES 1, COMMIT_BUSY 0 (R83). -/
def Dev.commitDone (d : Dev) (p : Page) : Dev :=
  ((((d.dropCommit p).put (pgGen p.tag) p (d.get (pgGen p.tag) p + 1)).put (pgCommitRes p.tag) p 1).put
    (pgCommitBusy p.tag) p 0)

/-- A commit ends refused: COMMIT_RES 2, REF_WORD the refused field's word, COMMIT_BUSY 0 (R83). -/
def Dev.commitRefused (d : Dev) (p : Page) (word : Nat) : Dev :=
  ((((d.dropCommit p).put (pgCommitRes p.tag) p 2).put (pgRefWord p.tag) p word).put (pgCommitBusy p.tag) p 0)

end Sys2Proof.Machine
end

