-- ==== Sys2Proof/Machine/Crc.lean ====
section
/-! DEFINITION. The cyclic redundancy checks of the spec. -/

namespace Sys2Proof.Machine
open Sys2Proof

/-- One bit of a reflected CRC register of any width. -/
def crcBitR (poly r : Nat) : Nat := if r % 2 == 1 then (r / 2) ^^^ poly else r / 2

/-- Eight bits of a reflected CRC register. -/
def crcByteR (poly r : Nat) (b : Byte) : Nat := forN 8 (r ^^^ b.toNat) (fun r _ => crcBitR poly r)

/-- CRC-32C with a given initial value (R122, R305): reflected polynomial 0x82F6_3B78, final complement. -/
def crc32c (init : Nat) (m : List Byte) : Nat := (m.foldl (crcByteR 0x82F63B78) init) ^^^ 0xFFFFFFFF

/-- The CRC-32C of R122, initial value 0xFFFF_FFFF. -/
def crc32cStd (m : List Byte) : Nat := crc32c 0xFFFFFFFF m

/-- The IEEE 802.3 FCS CRC-32 (R403): reflected polynomial 0xEDB8_8320. -/
def crc32eth (m : List Byte) : Nat := (m.foldl (crcByteR 0xEDB88320) 0xFFFFFFFF) ^^^ 0xFFFFFFFF

/-- One octet of a CRC register of `w` bits that shifts left. -/
def crcByteL (w poly r : Nat) (b : Byte) : Nat :=
  forN 8 (r ^^^ (b.toNat * 2 ^ (w - 8))) (fun r _ =>
    if r / 2 ^ (w - 1) % 2 == 1 then ((r * 2) % 2 ^ w) ^^^ poly else (r * 2) % 2 ^ w)

/-- The CRC-16 of HCRC and of log records (R459, R542): polynomial 0x1021, initial value 0xFFFF, not reflected. -/
def crc16h (m : List Byte) : Nat := m.foldl (crcByteL 16 0x1021) 0xFFFF

/-- The FCS of IEEE 802.15.4 (R194): polynomial 0x1021 reflected, initial value 0, sent low octet first. -/
def fcs16 (m : List Byte) : Nat := m.foldl (crcByteR 0x8408) 0

/-- The 4-octet FCS of IEEE 802.15.4 for legacy PHYs. -/
def fcs32 (m : List Byte) : Nat := crc32eth m

/-- The CRC-8 of the wake-up call (R222): polynomial x^8 + x^2 + x + 1, initial value 0. -/
def crc8 (m : List Byte) : Nat := m.foldl (crcByteL 8 0x07) 0

/-- One bit into the CRC-6 register of the SIG (R174, Table 7-4). -/
def crc6Bit (r : Nat) (b : Bool) : Nat :=
  let fb := (r / 32 % 2 == 1) != b
  let s := (r * 2) % 64
  if fb then s ^^^ 0x03 else s

/-- The CRC-6 of a list of bits in the order sent, initial value 0x3F. -/
def crc6 (bits : List Bool) : Nat := bits.foldl crc6Bit 0x3F

end Sys2Proof.Machine
end

