-- ==== Sys2Proof/Machine/Crypto.lean ====
section
/-! DEFINITION. The standard algorithms that the spec names: AES-128 (FIPS 197), AES-CMAC (RFC 4493), CCM* (IEEE
802.15.4), the AES key wrap of RFC 3394 and SHA-256 (FIPS 180-4). -/

namespace Sys2Proof.Machine
open Sys2Proof

/-! ## AES-128 -/

/-- The AES S-box, part 0. -/
def aesSbox0 : List Nat :=
  [0x63, 0x7C, 0x77, 0x7B, 0xF2, 0x6B, 0x6F, 0xC5, 0x30, 0x01, 0x67, 0x2B, 0xFE, 0xD7, 0xAB, 0x76,
   0xCA, 0x82, 0xC9, 0x7D, 0xFA, 0x59, 0x47, 0xF0, 0xAD, 0xD4, 0xA2, 0xAF, 0x9C, 0xA4, 0x72, 0xC0,
   0xB7, 0xFD, 0x93, 0x26, 0x36, 0x3F, 0xF7, 0xCC, 0x34, 0xA5, 0xE5, 0xF1, 0x71, 0xD8, 0x31, 0x15,
   0x04, 0xC7, 0x23, 0xC3, 0x18, 0x96, 0x05, 0x9A, 0x07, 0x12, 0x80, 0xE2, 0xEB, 0x27, 0xB2, 0x75]
/-- The AES S-box, part 1. -/
def aesSbox1 : List Nat :=
  [0x09, 0x83, 0x2C, 0x1A, 0x1B, 0x6E, 0x5A, 0xA0, 0x52, 0x3B, 0xD6, 0xB3, 0x29, 0xE3, 0x2F, 0x84,
   0x53, 0xD1, 0x00, 0xED, 0x20, 0xFC, 0xB1, 0x5B, 0x6A, 0xCB, 0xBE, 0x39, 0x4A, 0x4C, 0x58, 0xCF,
   0xD0, 0xEF, 0xAA, 0xFB, 0x43, 0x4D, 0x33, 0x85, 0x45, 0xF9, 0x02, 0x7F, 0x50, 0x3C, 0x9F, 0xA8,
   0x51, 0xA3, 0x40, 0x8F, 0x92, 0x9D, 0x38, 0xF5, 0xBC, 0xB6, 0xDA, 0x21, 0x10, 0xFF, 0xF3, 0xD2]
/-- The AES S-box, part 2. -/
def aesSbox2 : List Nat :=
  [0xCD, 0x0C, 0x13, 0xEC, 0x5F, 0x97, 0x44, 0x17, 0xC4, 0xA7, 0x7E, 0x3D, 0x64, 0x5D, 0x19, 0x73,
   0x60, 0x81, 0x4F, 0xDC, 0x22, 0x2A, 0x90, 0x88, 0x46, 0xEE, 0xB8, 0x14, 0xDE, 0x5E, 0x0B, 0xDB,
   0xE0, 0x32, 0x3A, 0x0A, 0x49, 0x06, 0x24, 0x5C, 0xC2, 0xD3, 0xAC, 0x62, 0x91, 0x95, 0xE4, 0x79,
   0xE7, 0xC8, 0x37, 0x6D, 0x8D, 0xD5, 0x4E, 0xA9, 0x6C, 0x56, 0xF4, 0xEA, 0x65, 0x7A, 0xAE, 0x08]
/-- The AES S-box, part 3. -/
def aesSbox3 : List Nat :=
  [0xBA, 0x78, 0x25, 0x2E, 0x1C, 0xA6, 0xB4, 0xC6, 0xE8, 0xDD, 0x74, 0x1F, 0x4B, 0xBD, 0x8B, 0x8A,
   0x70, 0x3E, 0xB5, 0x66, 0x48, 0x03, 0xF6, 0x0E, 0x61, 0x35, 0x57, 0xB9, 0x86, 0xC1, 0x1D, 0x9E,
   0xE1, 0xF8, 0x98, 0x11, 0x69, 0xD9, 0x8E, 0x94, 0x9B, 0x1E, 0x87, 0xE9, 0xCE, 0x55, 0x28, 0xDF,
   0x8C, 0xA1, 0x89, 0x0D, 0xBF, 0xE6, 0x42, 0x68, 0x41, 0x99, 0x2D, 0x0F, 0xB0, 0x54, 0xBB, 0x16]
/-- The AES S-box. -/
def aesSbox : List Nat := aesSbox0 ++ aesSbox1 ++ aesSbox2 ++ aesSbox3

/-- The S-box on an octet. -/
def subByte (b : Byte) : Byte := BitVec.ofNat 8 (aesSbox.getD b.toNat 0)

/-- The inverse S-box on an octet. -/
def invSubByte (b : Byte) : Byte := BitVec.ofNat 8 (aesSbox.idxOf b.toNat)

/-- Multiplication by x in the AES field. -/
def xtime (b : Byte) : Byte := if b.msb then (b <<< 1) ^^^ 0x1B#8 else b <<< 1

/-- Multiplication by a small constant in the AES field. -/
def gmul : Nat → Byte → Byte
  | 1, b => b
  | 2, b => xtime b
  | 3, b => xtime b ^^^ b
  | 9, b => xtime (xtime (xtime b)) ^^^ b
  | 11, b => xtime (xtime (xtime b)) ^^^ xtime b ^^^ b
  | 13, b => xtime (xtime (xtime b)) ^^^ xtime (xtime b) ^^^ b
  | 14, b => xtime (xtime (xtime b)) ^^^ xtime (xtime b) ^^^ xtime b
  | _, _ => 0#8

/-- Octet `i` of a list, zero where it ends. -/
def octet (l : List Byte) (i : Nat) : Byte := l.getD i 0#8

/-- ShiftRows on a block held column by column. -/
def shiftRows (s : List Byte) : List Byte := (List.range 16).map (fun i => octet s ((i + 4 * (i % 4)) % 16))

/-- Inverse ShiftRows. -/
def invShiftRows (s : List Byte) : List Byte := (List.range 16).map (fun i => octet s ((i + 16 - 4 * (i % 4)) % 16))

/-- One mixed column octet from the row coefficients. -/
def mixAt (s : List Byte) (cs : List Nat) (i : Nat) : Byte :=
  (List.range 4).foldl (fun a k => a ^^^ gmul (cs.getD ((k + 4 - i % 4) % 4) 0) (octet s (i / 4 * 4 + k))) 0#8

/-- MixColumns. -/
def mixColumns (s : List Byte) : List Byte := (List.range 16).map (mixAt s [2, 3, 1, 1])

/-- Inverse MixColumns. -/
def invMixColumns (s : List Byte) : List Byte := (List.range 16).map (mixAt s [14, 11, 13, 9])

/-- The next round key. -/
def nextRoundKey (k : List Byte) (rcon : Byte) : List Byte :=
  let t := [subByte (octet k 13) ^^^ rcon, subByte (octet k 14), subByte (octet k 15), subByte (octet k 12)]
  let w0 := xorB (k.take 4) t
  let w1 := xorB ((k.drop 4).take 4) w0
  let w2 := xorB ((k.drop 8).take 4) w1
  let w3 := xorB ((k.drop 12).take 4) w2
  w0 ++ w1 ++ w2 ++ w3

/-- Round keys from a key onwards. -/
def roundKeys : Nat → List Byte → Byte → List (List Byte)
  | 0, k, _ => [k]
  | n + 1, k, rc => k :: roundKeys n (nextRoundKey k rc) (xtime rc)

/-- The second half of the next pair of round keys of AES-256: its first word is mixed through the S-box alone. -/
def nextHalf256 (prev a : List Byte) : List Byte :=
  let w0 := xorB (prev.take 4) ((a.drop 12).map subByte)
  let w1 := xorB ((prev.drop 4).take 4) w0
  let w2 := xorB ((prev.drop 8).take 4) w1
  let w3 := xorB ((prev.drop 12).take 4) w2
  w0 ++ w1 ++ w2 ++ w3

/-- The first half of the next pair of round keys of AES-256. -/
def nextFirst256 (a b : List Byte) (rcon : Byte) : List Byte :=
  let t := [subByte (octet b 13) ^^^ rcon, subByte (octet b 14), subByte (octet b 15), subByte (octet b 12)]
  let w0 := xorB (a.take 4) t
  let w1 := xorB ((a.drop 4).take 4) w0
  let w2 := xorB ((a.drop 8).take 4) w1
  let w3 := xorB ((a.drop 12).take 4) w2
  w0 ++ w1 ++ w2 ++ w3

/-- Round keys of AES-256, pair by pair. -/
def roundKeys256 : Nat → List Byte → List Byte → Byte → List (List Byte)
  | 0, a, _, _ => [a]
  | n + 1, a, b, rc =>
    let a' := nextFirst256 a b rc
    a :: b :: roundKeys256 n a' (nextHalf256 b a') (xtime rc)

/-- The round keys: eleven for a key of up to 16 octets, fifteen for a longer one (AES-256). -/
def aesKeys (key : List Byte) : List (List Byte) :=
  if key.length ≤ 16 then roundKeys 10 (padTo 16 key) 1#8
  else roundKeys256 7 ((padTo 32 key).take 16) ((padTo 32 key).drop 16) 1#8

/-- The middle and final rounds of encryption. -/
def aesRounds : List (List Byte) → List Byte → List Byte
  | [], s => s
  | [k], s => xorB (shiftRows (s.map subByte)) k
  | k :: ks, s => aesRounds ks (xorB (mixColumns (shiftRows (s.map subByte))) k)

/-- AES encryption of one block, AES-256 under a key of more than 16 octets. -/
def aesEnc (key blk : List Byte) : List Byte :=
  match aesKeys key with
  | [] => blk
  | k0 :: ks => aesRounds ks (xorB (padTo 16 blk) k0)

/-- The rounds of decryption, with the round keys in reverse order. -/
def aesInvRounds : List (List Byte) → List Byte → List Byte
  | [], s => s
  | [k], s => xorB ((invShiftRows s).map invSubByte) k
  | k :: ks, s => aesInvRounds ks (invMixColumns (xorB ((invShiftRows s).map invSubByte) k))

/-- AES decryption of one block. -/
def aesDec (key blk : List Byte) : List Byte :=
  match (aesKeys key).reverse with
  | [] => blk
  | k0 :: ks => aesInvRounds ks (xorB (padTo 16 blk) k0)

/-! ## AES-CMAC -/

/-- Doubling of a block in the CMAC field. -/
def cmacDouble (b : List Byte) : List Byte :=
  let v := beNat b
  let w := v * 2 % 2 ^ 128
  toBE 16 (if v / 2 ^ 127 == 1 then w ^^^ 0x87 else w)

/-- The CBC part of CMAC with a fuel of blocks. -/
def cmacLoop (key : List Byte) : Nat → List Byte → List Byte → List Byte → List Byte → List Byte
  | 0, x, _, _, _ => x
  | n + 1, x, m, k1, k2 =>
    if m.length ≤ 16 then
      let last := if m.length == 16 then xorB m k1 else xorB (padTo 16 (m ++ [0x80#8])) k2
      aesEnc key (xorB x last)
    else cmacLoop key n (aesEnc key (xorB x (m.take 16))) (m.drop 16) k1 k2

/-- AES-CMAC of a message. -/
def aesCmac (key msg : List Byte) : List Byte :=
  let k1 := cmacDouble (aesEnc key (List.replicate 16 0#8))
  cmacLoop key (msg.length / 16 + 1) (List.replicate 16 0#8) msg k1 (cmacDouble k1)

/-! ## CCM* -/

/-- CBC-MAC over whole blocks. -/
def cbcMac (key : List Byte) : Nat → List Byte → List Byte → List Byte
  | 0, x, _ => x
  | n + 1, x, m => if m.isEmpty then x else cbcMac key n (aesEnc key (xorB x (padTo 16 m))) (m.drop 16)

/-- Zero padding to whole blocks. -/
def padBlocks (m : List Byte) : List Byte := m ++ List.replicate ((16 - m.length % 16) % 16) 0#8

/-- The authentication tag of CCM* before encryption: a 13-octet nonce, so a 2-octet length field. -/
def ccmTag (key nonce a m : List Byte) (micLen : Nat) : List Byte :=
  let fl := (if a.isEmpty then 0 else 64) + (if micLen == 0 then 0 else 8 * ((micLen - 2) / 2)) + 1
  let b0 := toLE 1 fl ++ padTo 13 nonce ++ toBE 2 m.length
  let aa := if a.isEmpty then [] else padBlocks (toBE 2 a.length ++ a)
  let all := b0 ++ aa ++ padBlocks m
  (cbcMac key (all.length / 16 + 1) (List.replicate 16 0#8) all).take micLen

/-- Block `i` of the CCM* key stream. -/
def ccmStream (key nonce : List Byte) (i : Nat) : List Byte := aesEnc key (1#8 :: padTo 13 nonce ++ toBE 2 i)

/-- Counter-mode encryption of a message, from key stream block 1. -/
def ccmCrypt (key nonce m : List Byte) : List Byte :=
  xorB m ((List.range ((m.length + 15) / 16)).flatMap (fun i => ccmStream key nonce (i + 1)))

/-- CCM* sealing: the cipher text (or the clear text without encryption) and the encrypted MIC. -/
def ccmSeal (key nonce a m : List Byte) (micLen : Nat) (enc : Bool) : List Byte × List Byte :=
  if enc then (ccmCrypt key nonce m, xorB (ccmTag key nonce a m micLen) (ccmStream key nonce 0))
  else (m, xorB (ccmTag key nonce (a ++ m) [] micLen) (ccmStream key nonce 0))

/-- CCM* opening: the clear text, when the MIC matches. -/
def ccmOpen (key nonce a c mic : List Byte) (enc : Bool) : Option (List Byte) :=
  let m := if enc then ccmCrypt key nonce c else c
  if (ccmSeal key nonce a m mic.length enc).2 == mic then some m else none

/-! ## AES key wrap (RFC 3394) -/

/-- Multiplication in GCM's field of 2^128 elements, whose bit 0 is the most significant (NIST SP 800-38D). -/
def gcmMul (x y : Nat) : Nat :=
  ((List.range 128).foldl (fun (a : Nat × Nat) i =>
    (if bitOf x (127 - i) then a.1 ^^^ a.2 else a.1, if a.2 % 2 == 1 then (a.2 / 2) ^^^ (0xE1 * 2 ^ 120) else a.2 / 2)) (0, y)).1

/-- GHASH of whole blocks under a hash key. -/
def ghash (h : Nat) : Nat → List Byte → Nat → Nat
  | 0, _, y => y
  | n + 1, m, y => ghash h n (m.drop 16) (gcmMul (y ^^^ beAt m 0 16) h)

/-- AES-GCM with an IV of 12 octets: the ciphertext and the 16-octet tag (NIST SP 800-38D). -/
def gcmSeal (key iv a m : List Byte) : List Byte × List Byte :=
  let blocks := fun (n : Nat) => (List.range ((n + 15) / 16)).flatMap (fun i => aesEnc key (padTo 12 iv ++ toBE 4 (i + 2)))
  let c := (m.zip (blocks m.length)).map (fun e => e.1 ^^^ e.2)
  let s := padBlocks a ++ padBlocks c ++ toBE 8 (8 * a.length) ++ toBE 8 (8 * c.length)
  let y := ghash (beAt (aesEnc key (List.replicate 16 0#8)) 0 16) (s.length / 16) s 0
  (c, ((toBE 16 y).zip (aesEnc key (padTo 12 iv ++ toBE 4 1))).map (fun e => e.1 ^^^ e.2))

/-- One unwrap step over the register A and the list of 64-bit blocks. -/
def unwrapStep (kek : List Byte) (n : Nat) (st : List Byte × List (List Byte)) (t : Nat) : List Byte × List (List Byte) :=
  let i := (t - 1) % n
  let b := aesDec kek (xorB st.1 (toBE 8 t) ++ st.2.getD i [])
  (b.take 8, st.2.set i (b.drop 8))

/-- RFC 3394 unwrap: the key data when the integrity value is the default one. -/
def keyUnwrap (kek wrapped : List Byte) : Option (List Byte) :=
  let n := wrapped.length / 8 - 1
  let blocks := (List.range n).map (fun i => sliceB wrapped (8 * (i + 1)) 8)
  let r := ((List.range (6 * n)).reverse.map (· + 1)).foldl (unwrapStep kek n) (wrapped.take 8, blocks)
  if r.1 == List.replicate 8 0xA6#8 then some r.2.flatten else none

/-- One wrap step. -/
def wrapStep (kek : List Byte) (n : Nat) (st : List Byte × List (List Byte)) (t : Nat) : List Byte × List (List Byte) :=
  let i := (t - 1) % n
  let b := aesEnc kek (st.1 ++ st.2.getD i [])
  (xorB (b.take 8) (toBE 8 t), st.2.set i (b.drop 8))

/-- RFC 3394 wrap. -/
def keyWrap (kek data : List Byte) : List Byte :=
  let n := data.length / 8
  let blocks := (List.range n).map (fun i => sliceB data (8 * i) 8)
  let r := ((List.range (6 * n)).map (· + 1)).foldl (wrapStep kek n) (List.replicate 8 0xA6#8, blocks)
  r.1 ++ r.2.flatten

/-! ## SHA-256 -/

/-- A 32-bit word of SHA-256. -/
abbrev ShaWord := BitVec 32

/-- The round constants of SHA-256, part 0. -/
def shaK0 : List Nat :=
  [0x428A2F98, 0x71374491, 0xB5C0FBCF, 0xE9B5DBA5, 0x3956C25B, 0x59F111F1, 0x923F82A4, 0xAB1C5ED5, 0xD807AA98, 0x12835B01, 0x243185BE, 0x550C7DC3, 0x72BE5D74, 0x80DEB1FE, 0x9BDC06A7, 0xC19BF174,
   0xE49B69C1, 0xEFBE4786, 0x0FC19DC6, 0x240CA1CC, 0x2DE92C6F, 0x4A7484AA, 0x5CB0A9DC, 0x76F988DA, 0x983E5152, 0xA831C66D, 0xB00327C8, 0xBF597FC7, 0xC6E00BF3, 0xD5A79147, 0x06CA6351, 0x14292967]
/-- The round constants of SHA-256, part 1. -/
def shaK1 : List Nat :=
  [0x27B70A85, 0x2E1B2138, 0x4D2C6DFC, 0x53380D13, 0x650A7354, 0x766A0ABB, 0x81C2C92E, 0x92722C85, 0xA2BFE8A1, 0xA81A664B, 0xC24B8B70, 0xC76C51A3, 0xD192E819, 0xD6990624, 0xF40E3585, 0x106AA070,
   0x19A4C116, 0x1E376C08, 0x2748774C, 0x34B0BCB5, 0x391C0CB3, 0x4ED8AA4A, 0x5B9CCA4F, 0x682E6FF3, 0x748F82EE, 0x78A5636F, 0x84C87814, 0x8CC70208, 0x90BEFFFA, 0xA4506CEB, 0xBEF9A3F7, 0xC67178F2]
/-- The round constants of SHA-256. -/
def shaK : List Nat := shaK0 ++ shaK1
/-- The initial hash value of SHA-256. -/
def shaH : List Nat := [0x6A09E667, 0xBB67AE85, 0x3C6EF372, 0xA54FF53A, 0x510E527F, 0x9B05688C, 0x1F83D9AB, 0x5BE0CD19]

/-- The message schedule, extended by `n` words; the list holds the newest word first. -/
def shaExtend : Nat → List ShaWord → List ShaWord
  | 0, w => w
  | n + 1, w =>
    let w2 := w.getD 1 0
    let w7 := w.getD 6 0
    let w15 := w.getD 14 0
    let w16 := w.getD 15 0
    let s0 := w15.rotateRight 7 ^^^ w15.rotateRight 18 ^^^ (w15 >>> 3)
    let s1 := w2.rotateRight 17 ^^^ w2.rotateRight 19 ^^^ (w2 >>> 10)
    shaExtend n ((w16 + s0 + w7 + s1) :: w)

/-- The eight working variables of SHA-256. -/
structure ShaVars where
  a : ShaWord
  b : ShaWord
  c : ShaWord
  d : ShaWord
  e : ShaWord
  f : ShaWord
  g : ShaWord
  h : ShaWord

/-- One round. -/
def shaRound (v : ShaVars) (kw : Nat × ShaWord) : ShaVars :=
  let s1 := v.e.rotateRight 6 ^^^ v.e.rotateRight 11 ^^^ v.e.rotateRight 25
  let ch := (v.e &&& v.f) ^^^ (~~~v.e &&& v.g)
  let t1 := v.h + s1 + ch + BitVec.ofNat 32 kw.1 + kw.2
  let s0 := v.a.rotateRight 2 ^^^ v.a.rotateRight 13 ^^^ v.a.rotateRight 22
  let mj := (v.a &&& v.b) ^^^ (v.a &&& v.c) ^^^ (v.b &&& v.c)
  { a := t1 + (s0 + mj), b := v.a, c := v.b, d := v.c, e := v.d + t1, f := v.e, g := v.f, h := v.g }

/-- The compression of one 64-octet block. -/
def shaBlock (h : List ShaWord) (blk : List Byte) : List ShaWord :=
  let w0 := (List.range 16).map (fun i => BitVec.ofNat 32 (beAt blk (4 * i) 4))
  let ws := (shaExtend 48 w0.reverse).reverse
  let g := fun i => h.getD i 0
  let v := (shaK.zip ws).foldl shaRound ⟨g 0, g 1, g 2, g 3, g 4, g 5, g 6, g 7⟩
  [g 0 + v.a, g 1 + v.b, g 2 + v.c, g 3 + v.d, g 4 + v.e, g 5 + v.f, g 6 + v.g, g 7 + v.h]

/-- The compression of a padded message, by blocks. -/
def shaLoop : Nat → List ShaWord → List Byte → List ShaWord
  | 0, h, _ => h
  | n + 1, h, m => if m.isEmpty then h else shaLoop n (shaBlock h (m.take 64)) (m.drop 64)

/-- The SHA-256 digest of a message. -/
def sha256 (m : List Byte) : List Byte :=
  let z := (119 - m.length % 64) % 64
  let p := m ++ [0x80#8] ++ List.replicate z 0#8 ++ toBE 8 (8 * m.length)
  (shaLoop (p.length / 64 + 1) (shaH.map (BitVec.ofNat 32)) p).flatMap (fun w => toBE 4 w.toNat)

end Sys2Proof.Machine
end

