-- ==== Sys2Proof/Machine/Operands.lean ====
section
/-! DEFINITION. The operand forms of host commands: the command record (Table 4-6), the checks of R102, the opcode
table with what each opcode accepts, unit results (R104), the completion record (Table 4-8), and the running of a
command in flight. -/

namespace Sys2Proof.Machine
open Sys2Proof

/-! ## The command record (Table 4-6) -/

/-- OPCODE. -/
def Cmd.op (c : Cmd) : Nat := leAt c.bytes 0 2
/-- TARGET. -/
def Cmd.target (c : Cmd) : Nat := leAt c.bytes 2 1
/-- FLAGS. -/
def Cmd.flags (c : Cmd) : Nat := leAt c.bytes 3 1
/-- TAG. -/
def Cmd.tag (c : Cmd) : Nat := leAt c.bytes 4 4
/-- LENGTH. -/
def Cmd.len (c : Cmd) : Nat := leAt c.bytes 8 4
/-- COUNT. -/
def Cmd.cnt (c : Cmd) : Nat := leAt c.bytes 12 4
/-- DATA_ADDR. -/
def Cmd.addr (c : Cmd) : Nat := leAt c.bytes 16 8
/-- A parameter of `n` octets at a byte of the record. -/
def Cmd.par (c : Cmd) (at_ n : Nat) : Nat := leAt c.bytes at_ n
/-- The data buffer, `n` octets. -/
def Cmd.buf (c : Cmd) (h : List Host.Cell) (n : Nat) : List Byte := memRead h c.addr n

/-! ## Status codes (Table 4-9) -/

/-- OK. -/
def stOk : Nat := 0x00
/-- PARTIAL. -/
def stPartial : Nat := 0x01
/-- ZERO_FIELD. -/
def stZero : Nat := 0x02
/-- RANGE. -/
def stRange : Nat := 0x03
/-- BAD_OPCODE. -/
def stBadOp : Nat := 0x04
/-- BAD_TARGET. -/
def stBadTarget : Nat := 0x05
/-- BUSY. -/
def stBusy : Nat := 0x06
/-- MODE. -/
def stMode : Nat := 0x07
/-- DMA_ERR. -/
def stDma : Nat := 0x08
/-- LOCKED. -/
def stLocked : Nat := 0x09
/-- RESERVED_NZ. -/
def stReserved : Nat := 0x0A
/-- UNIT_DOWN. -/
def stDown : Nat := 0x0B

/-! ## What each opcode accepts -/

/-- One opcode: the TARGET bits it accepts, whether it accepts exactly one of them, whether it uses LENGTH and
COUNT, whether its unit kind is bus rather than die, and the modes that accept it as a mask over mode codes. -/
structure OpSpec where
  op    : Nat
  targ  : Nat
  one   : Bool
  len   : Bool
  cnt   : Bool
  bus   : Bool
  modes : Nat
  deriving DecidableEq, Repr

/-- BRINGUP, SERVICE and QUIESCE: the default of R627. -/
def mdDefault : Nat := 0b100110
/-- The default and SHADOW (R496). -/
def mdShadow : Nat := 0b101110
/-- The default without QUIESCE, for commands that change a table (R332). -/
def mdTable : Nat := 0b000110
/-- The default, SHADOW and RECOVER (R577, R579). -/
def mdRecover : Nat := 0b101111

/-- The opcodes of Tables 4-7, 11-8, 13-4 and 10-5. -/
def opTable0 : List OpSpec :=
  [⟨0x0001, 7, false, false, false, false, mdRecover⟩,
   ⟨0x0101, 3, true, true, false, false, mdShadow⟩,
   ⟨0x0102, 3, true, true, false, false, mdTable⟩,
   ⟨0x0103, 3, true, false, false, false, mdTable⟩,
   ⟨0x0104, 3, true, false, false, false, mdTable⟩,
   ⟨0x0105, 3, true, true, true, false, mdShadow⟩,
   ⟨0x0106, 3, true, false, false, false, mdTable⟩,
   ⟨0x0107, 3, false, true, true, false, mdTable⟩,
   ⟨0x0108, 3, false, true, true, false, mdTable⟩,
   ⟨0x0109, 3, false, false, false, false, mdTable⟩,
   ⟨0x0201, 3, true, true, true, false, mdDefault⟩,
   ⟨0x0202, 3, true, true, true, false, mdShadow⟩,
   ⟨0x0203, 3, true, false, true, false, mdDefault⟩,
   ⟨0x0204, 3, false, true, true, false, mdDefault⟩,
   ⟨0x0205, 3, false, true, true, false, mdShadow⟩,
   ⟨0x0301, 4, false, true, true, false, mdDefault⟩,
   ⟨0x0302, 4, false, false, true, false, mdDefault⟩,
   ⟨0x0303, 4, false, true, true, false, mdShadow⟩,
   ⟨0x0304, 4, false, false, false, false, mdDefault⟩,
   ⟨0x0305, 4, false, false, false, false, mdDefault⟩,
   ⟨0x0306, 4, false, false, false, false, mdDefault⟩]

/-- The opcodes of Tables 9-7, 15-6, 16-5 and 17-7. -/
def opTable1 : List OpSpec :=
  [⟨0x0401, 3, true, false, false, false, mdDefault⟩,
   ⟨0x0402, 3, true, false, false, false, mdDefault⟩,
   ⟨0x0403, 3, true, true, false, false, mdShadow⟩,
   ⟨0x0404, 3, true, false, false, false, mdDefault⟩,
   ⟨0x0405, 3, true, false, false, false, mdDefault⟩,
   ⟨0x0501, 4, false, true, true, false, mdDefault⟩,
   ⟨0x0502, 4, false, true, true, false, mdShadow⟩,
   ⟨0x0503, 4, false, true, true, false, mdDefault⟩,
   ⟨0x0504, 4, false, true, true, false, mdShadow⟩,
   ⟨0x0505, 4, false, true, true, false, mdDefault⟩,
   ⟨0x0506, 4, false, false, false, true, mdDefault⟩,
   ⟨0x0601, 4, false, true, false, false, mdDefault⟩,
   ⟨0x0602, 4, false, false, false, false, mdDefault⟩,
   ⟨0x0603, 4, false, true, true, false, mdShadow⟩,
   ⟨0x0604, 3, false, true, true, false, mdDefault⟩,
   ⟨0x0605, 3, true, true, true, false, mdShadow⟩,
   ⟨0x0701, 4, false, false, false, false, mdDefault⟩,
   ⟨0x0702, 4, false, false, false, false, mdShadow⟩,
   ⟨0x0703, 4, false, false, false, false, mdDefault⟩]

/-- The opcodes of Tables 18-9, 19-1, 20-9 and 21-4. -/
def opTable2 : List OpSpec :=
  [⟨0x0801, 4, false, false, false, false, mdShadow⟩,
   ⟨0x0802, 4, false, true, true, false, mdShadow⟩,
   ⟨0x0803, 4, false, false, false, false, mdShadow⟩,
   ⟨0x0901, 4, false, true, false, false, mdShadow⟩,
   ⟨0x0902, 4, false, false, false, false, mdShadow⟩,
   ⟨0x0903, 4, false, true, true, false, mdShadow⟩,
   ⟨0x0904, 4, false, false, false, false, mdShadow⟩,
   ⟨0x0905, 4, false, false, false, false, mdShadow⟩,
   ⟨0x0906, 3, true, true, true, false, mdShadow⟩,
   ⟨0x0907, 4, false, true, false, false, mdShadow⟩,
   ⟨0x0908, 4, false, true, false, false, mdShadow⟩,
   ⟨0x0909, 4, false, true, false, false, mdShadow⟩,
   ⟨0x0A01, 4, false, false, false, false, mdRecover⟩,
   ⟨0x0A02, 4, false, true, false, false, mdRecover⟩,
   ⟨0x0A03, 4, false, false, false, false, mdRecover⟩,
   ⟨0x0A04, 4, false, false, false, false, mdRecover⟩,
   ⟨0x0A05, 4, false, false, false, false, mdShadow⟩,
   ⟨0x0A06, 4, false, false, false, false, mdShadow⟩,
   ⟨0x0A07, 4, false, true, false, false, mdRecover⟩,
   ⟨0x0A08, 4, false, true, false, false, mdRecover⟩,
   ⟨0x0B01, 4, false, true, false, false, mdDefault⟩,
   ⟨0x0B02, 4, false, true, false, false, mdShadow⟩,
   ⟨0x0B03, 4, false, true, false, false, mdDefault⟩,
   ⟨0x0B04, 4, false, true, true, false, mdDefault⟩,
   ⟨0x0B05, 4, false, false, false, false, mdDefault⟩,
   ⟨0x0B06, 4, false, true, false, false, mdShadow⟩,
   ⟨0x0B07, 4, false, true, true, false, mdShadow⟩]

/-- What an opcode accepts, none for an unknown one (R101, Table 4-7). -/
def opSpec (op : Nat) : Option OpSpec := (opTable0 ++ opTable1 ++ opTable2).find? (fun o => o.op == op)

/-- Checks 1 to 4 of R102: the status of the first that fails. A bus mask or a region mask of 0 is a zero count (R8, R445, R531). -/
def Cmd.early (c : Cmd) : Option Nat :=
  if c.target / 8 != 0 || c.flags / 8 != 0 then some stReserved
  else match opSpec c.op with
    | none => some stBadOp
    | some o =>
      let extra := (bitList 8 c.target).any (fun b => !bitOf o.targ b)
      if extra || (o.one && 2 ≤ popCount 8 c.target) then some stBadTarget
      else if c.target == 0 || (o.len && c.len == 0) || (o.cnt && c.cnt == 0) || (o.bus && c.par 24 4 == 0) ||
          (c.op == 0x0803 && c.par 24 4 % 2 ^ 24 == 0) then some stZero
      else none

/-- Check 6 of R102: whether the current mode accepts the opcode (R496, R577, R627). NOP is accepted everywhere but in
DOZE. -/
def Dev.modeAccepts (d : Dev) (op : Nat) : Bool :=
  match opSpec op with
  | none => false
  | some o => bitOf o.modes d.mode

/-- The dies on which a command is sequenced: bit 0 Route-0, bit 1 Route-1; the Anchor's commands go through Route-0
(R97), campaign commands through the die whose engine is active (R599). A command whose TARGET names no unit fails its checks and
still completes through a sequencer (R102): Route-0's (DESIGN CHOICE, log 16). -/
def Cmd.dies (c : Cmd) : Nat :=
  let t := c.target
  if t % 8 == 0 then 1
  else b2n (bitOf t 0 || (bitOf t 2 && !c.alt)) + 2 * b2n (bitOf t 1 || (bitOf t 2 && c.alt))

/-! ## In-flight commands -/

/-- How many commands in flight address a Route die (0 or 1) (R97). -/
def HostLink.onDie (h : HostLink) (r : Nat) : Nat := (h.inflight.filter (fun c => bitOf c.dies r)).length

/-- Show the in-flight counts in HST.INFLIGHT (Table 4-5). -/
def Dev.showInflight (d : Dev) : Dev :=
  ((d.w F.HST.INFLIGHT_R0 (d.hl.onDie 0)).w F.HST.INFLIGHT_R1 (d.hl.onDie 1)).w F.HST.INFLIGHT_TOTAL
    d.hl.inflight.length

/-- The command in flight with a number. -/
def Dev.cmd (d : Dev) (id : Nat) : Option Cmd := d.hl.inflight.find? (fun c => c.id == id)

/-- Change one command in flight. -/
def Dev.setCmd (d : Dev) (id : Nat) (f : Cmd → Cmd) : Dev :=
  { d with hl := { d.hl with inflight := mapIf (fun c => c.id == id) f d.hl.inflight } }

/-- What a command's effect reports: the units it tried, the units that succeeded, the status of the
lowest-numbered failing unit, and RESULT; `later` keeps it in flight, to finish by a later event. -/
structure Reply where
  tryM   : Nat
  okM    : Nat
  fail   : Nat := 0
  result : Nat := 0
  later  : Bool := false
  deriving DecidableEq, Repr

/-- The status of a spanning command (R104). A command that failed a check and addresses no unit reports that check's status. -/
def Reply.status (r : Reply) : Nat :=
  if r.okM == r.tryM && (r.tryM != 0 || r.fail == 0) then stOk else if r.okM != 0 then stPartial else r.fail

/-- The units that a command addresses, in the numbering of its opcode's unit kind: the bus mask (PARAM 24 to 27) for a bus-kind opcode, the TARGET bits
for the others (R104, Table 15-6). -/
def Cmd.units (c : Cmd) : Nat := if (opSpec c.op).any (fun o => o.bus) then c.par 24 4 else c.target

/-- Every addressed unit succeeded. -/
def Cmd.ok (c : Cmd) (result : Nat := 0) : Reply := { tryM := c.units, okM := c.units, result := (result) }

/-- No addressed unit succeeded. -/
def Cmd.bad (c : Cmd) (status : Nat) (result : Nat := 0) : Reply :=
  { tryM := c.units, okM := 0, fail := status, result := result }

/-- The command stays in flight. -/
def Cmd.later (c : Cmd) : Reply := { tryM := c.units, okM := 0, later := true }

/-- A command has its outcome and waits for its completion record (R99). An interim record that is still due stays due (R105). -/
def Dev.finish (d : Dev) (id : Nat) (r : Reply) : Dev :=
  d.setCmd id (fun c => { c with
    stage := .finished
    cpl := { status := r.status, unitOk := r.okM, unitTry := r.tryM, result := r.result % 2 ^ 32 } })

/-- Finish, or keep in flight. -/
def Dev.reply (d : Dev) (id : Nat) (r : Reply) : Dev := if r.later then d else d.finish id r

/-- Apply an effect to each addressed Route die in turn; a die that is down fails with UNIT_DOWN. The effect
answers the device and the status of a failure (0 for success). -/
def Dev.perDie (d : Dev) (c : Cmd) (f : Dev → Nat → Dev × Nat) : Dev × Reply :=
  (([1, 2] : List Nat).filter (fun die => bitOf c.target (die - 1))).foldl
    (fun (a : Dev × Reply) die =>
      let r := if a.1.dieUp die then f a.1 die else (a.1, stDown)
      (r.1, { a.2 with
        tryM := putBit a.2.tryM (die - 1) true
        okM := if r.2 == 0 then putBit a.2.okM (die - 1) true else a.2.okM
        fail := if a.2.fail == 0 then r.2 else a.2.fail }))
    (d, { tryM := 0, okM := 0 })

/-- Whether every unit that a command addresses is down (status UNIT_DOWN, Table 4-9): the Anchor serves every command it fetches, so only commands to
Route dies alone can meet it. -/
def Dev.targetDown (d : Dev) (c : Cmd) : Bool :=
  !bitOf c.target 2 && ([0, 1] : List Nat).all (fun r => !bitOf c.target r || !d.dieUp (r + 1))

/-- Whether a key command must wait: the vault runs key commands one at a time in their ingest order, and an earlier one has been sequenced and has not
run (R280). -/
def Dev.keyBehind (d : Dev) (c : Cmd) : Bool :=
  0x0301 ≤ c.op && c.op ≤ 0x0306 &&
    d.hl.inflight.any (fun e => 0x0301 ≤ e.op && e.op ≤ 0x0306 && e.id < c.id && e.stage == .sequenced)

/-- Run the effect of a command in flight that has been sequenced and whose turn it is: its range check (a RESULT for status RANGE),
the mode, the addressed units, a data buffer error, then the body (R102). A number that names no such command has no effect. -/
def Dev.runCmd (d : Dev) (op id : Nat) (dmaErr : Bool) (range : Dev → Cmd → Option Nat)
    (body : Dev → Cmd → Dev × Reply) : Dev :=
  match d.cmd id with
  | none => d
  | some c =>
    if c.op != op || c.stage != .sequenced || d.keyBehind c then d
    else match range d c with
      | some res => d.finish id (c.bad stRange res)
      | none =>
        if !d.modeAccepts op then d.finish id (c.bad stMode)
        else if d.targetDown c then d.finish id (c.bad stDown)
        else if dmaErr then d.finish id (c.bad stDma)
        else
          let r := body d c
          r.1.reply id r.2

/-- As `Dev.runCmd`, for a command that also writes its data buffer. -/
def Dev.runCmdH (d : Dev) (h : List Host.Cell) (op id : Nat) (dmaErr : Bool) (range : Dev → Cmd → Option Nat)
    (body : List Host.Cell → Dev → Cmd → Dev × Reply × List Byte) : Dev × List (Nat × List Byte) :=
  match d.cmd id with
  | none => (d, [])
  | some c =>
    if c.op != op || c.stage != .sequenced || d.keyBehind c then (d, [])
    else match range d c with
      | some res => (d.finish id (c.bad stRange res), [])
      | none =>
        if !d.modeAccepts op then (d.finish id (c.bad stMode), [])
        else if d.targetDown c then (d.finish id (c.bad stDown), [])
        else if dmaErr then (d.finish id (c.bad stDma), [])
        else
          let r := body h d c
          (r.1.reply id r.2.1, [(c.addr, r.2.2)])

/-- No range check. -/
def noRange (_ : Dev) (_ : Cmd) : Option Nat := none

/-- LENGTH must be a given number. -/
def lenIs (n : Nat) (_ : Dev) (c : Cmd) : Option Nat := if c.len == n then none else some 0

/-- The completion record of a command (Table 4-8). -/
def Cmd.record (c : Cmd) (status unitOk unitTry result : Nat) (interim phase : Bool) : List Byte :=
  toLE 4 c.tag ++ toLE 2 c.op ++ toLE 1 (c.ring % 4 + 64 * b2n interim + 128 * b2n phase) ++ toLE 1 status ++
    toLE 8 unitOk ++ toLE 8 unitTry ++ toLE 4 result ++ toLE 4 c.seq

end Sys2Proof.Machine
end

