-- ==== Sys2Proof/Machine/Signal.lean ====
section
/-! DEFINITION. The signals of the air, bit-exact: NB-OFDM frames (R170 to R177), the boost (R208), the shaping filters (R210, R211), the legacy PHYs
(R209, Table 7-4), wake-up calls (R220, R221) and the windows of the spectral-mask monitor (R212). -/

namespace Sys2Proof.Machine
open Sys2Proof

/-! ## The scrambler (R175 step 1) -/

/-- One step of the scrambler generator: the output is stage 4 xor stage 7 (bits 3 and 6), and a bit is shifted into stage 1. -/
def scrambleBit (reg : Nat) : Bool × Nat :=
  let o := bitOf reg 3 != bitOf reg 6
  (o, (reg * 2 + b2n o) % 128)

/-- `n` generator bits from a register, least significant first, as one octet, and the register after. -/
def scrambleOctet (reg : Nat) : Nat × Nat :=
  forN 8 (0, reg) (fun st i =>
    let r := scrambleBit st.2
    (st.1 + b2n r.1 * 2 ^ i, r.2))

/-- Scrambling of octets, which is its own inverse (R175 step 1). -/
def scramble : Nat → List Byte → List Byte
  | _, [] => []
  | reg, b :: bs =>
    let r := scrambleOctet reg
    (b ^^^ BitVec.ofNat 8 r.1) :: scramble r.2 bs

/-- The first outputs of the generator from a register. -/
def genBits : Nat → Nat → List Bool
  | 0, _ => []
  | n + 1, reg => (scrambleBit reg).1 :: genBits n (scrambleBit reg).2

/-! ## Subcarriers and preambles (R171 to R173) -/

/-- The non-null subcarriers, in ascending order (R171). -/
def nonNull : List Int := ((List.range 32).map (fun (i : Nat) => (i : Int) - 16)).filter (fun s => s != -16 && s != -15 && s != 0 && s != 15)

/-- The pilot subcarriers (R171). -/
def pilotSubs : List Int := [-12, -4, 4, 12]

/-- The data subcarriers, j = 0 to 23 (R171). -/
def dataSubs : List Int := nonNull.filter (fun s => !pilotSubs.contains s)

/-- The subcarriers of a P1 symbol: the even ones but 0 (R173). -/
def p1Subs : List Int := nonNull.filter (fun s => s % 2 == 0)

/-- The P1 word of a native family (Table 7-2). -/
def p1Word (family : Nat) : Nat :=
  match family with
  | 0 => 0x2B47
  | 1 => 0x1C95
  | 2 => 0x35A3
  | _ => 0x0E6D

/-- The native family that a P1 word identifies (R172). -/
def familyOf (word : Nat) : Option Nat := (List.range 4).find? (fun f => p1Word f == word)

/-- P1 symbols of a family (Table 7-2). -/
def p1Count (family : Nat) : Nat :=
  match family with
  | 1 => 4
  | 3 => 8
  | _ => 2

/-- P2 symbols of a family (Table 7-2). -/
def p2Count (family : Nat) : Nat := if family == 3 then 2 else 1

/-- Preamble symbols of a family (Table 7-2). -/
def preSymbols (family : Nat) : Nat := p1Count family + p2Count family

/-- The P2 word (R173). -/
def p2Word : Nat := 0x0A5CE3B1

/-- BPSK on subcarriers under the bit rule of R173, 0 gives +1 and 1 gives −1, with a squared scale. -/
def wordSymbol (subs : List Int) (word num : Nat) : List Sub :=
  subs.zipIdx.map (fun e => { s := e.1, i := if bitOf word e.2 then -1 else 1, q := 0, num := num, den := 1 })

/-- A P1 symbol: its amplitude is scaled by √2 (R173). -/
def p1Symbol (family : Nat) : List Sub := wordSymbol p1Subs (p1Word family) 2

/-- A P2 symbol (R173). -/
def p2Symbol : List Sub := wordSymbol nonNull p2Word 1

/-- The pilots of a symbol under polarity bit `b` and a squared scale (R176). -/
def pilots (b : Bool) (num den : Nat) : List Sub :=
  pilotSubs.map (fun s => { s := s, i := (if s == 12 then -1 else 1) * (if b then -1 else 1), q := 0, num := num, den := den })

/-! ## SIG (R174) -/

/-- The CHECK of 24 SIG bits as it stands in bits 29 to 24 (R174, Table 7-3). -/
def sigCheck (sig : Nat) : Nat :=
  let c := crc6 ((List.range 24).map (fun i => bitOf sig i))
  ofBits ((List.range 6).filter (fun k => bitOf c (5 - k)))

/-- A SIG field of a map, rate and length (Table 7-3). -/
def sigOf (map rate len : Nat) : Nat :=
  let v := map + 4096 * rate + 16384 * len
  v + 16777216 * sigCheck v

/-! ## Coding and filling (R175, R177) -/

/-- Whether a value has an odd number of set bits among its low seven. -/
def oddBits (v : Nat) : Bool := popCount 7 v % 2 == 1

/-- The convolutional code of constraint length 7 from an encoder state of six bits, the newest in bit 5: outputs A (133 octal) and B (171 octal) of each
input bit, the highest bit of a generator on the input (R175 step 3; PRESUMED reading of the octal numbers, log 26). -/
def convEnc : Nat → List Bool → List (Bool × Bool)
  | _, [] => []
  | st, b :: bs =>
    let v := 64 * b2n b + st
    (oddBits (v &&& 0o133), oddBits (v &&& 0o171)) :: convEnc (v / 2) bs

/-- Whether a rate's pattern keeps output A, and B, of input bit `i` (R175 step 4). -/
def keepAB (rate i : Nat) : Bool × Bool :=
  match rate with
  | 0 => (true, true)
  | 1 => (true, i % 2 == 0)
  | _ => (i % 3 != 2, i % 3 != 1)

/-- The coded bits that a rate sends (R175 steps 3 and 4). -/
def codeBits (rate : Nat) (bits : List Bool) : List Bool :=
  (convEnc 0 bits).zipIdx.flatMap (fun e =>
    (if (keepAB rate e.2).1 then [e.1.1] else []) ++ (if (keepAB rate e.2).2 then [e.1.2] else []))

/-- The coded bits of a modulation code (R177). -/
def modBits (m : Nat) : Nat :=
  match m with
  | 0 => 0
  | 1 => 1
  | 2 => 2
  | _ => 4

/-- Coded bits per symbol of a loading map (R177). -/
def mapCbps (w : Nat) : Nat := (List.range 24).foldl (fun n j => n + modBits (bitsOf w (2 * j) 2)) 0

/-- Whether a loading map is valid (R177). -/
def mapValid (w : Nat) : Bool := 24 ≤ mapCbps w

/-- The two bits of one axis of 16-QAM as its level: Gray-coded, as in the SUN OFDM PHY (PRESUMED, log 26). -/
def level16 (a b : Bool) : Int := (if a then 1 else -1) * (if b then 1 else 3)

/-- A data subcarrier's value for its bits: BPSK, QPSK over √2 and 16-QAM over √10, with the mappings of the SUN OFDM PHY (R175 step 5; PRESUMED,
log 26), and the squared boost. -/
def point (s : Int) (bits : List Bool) (num den : Nat) : Sub :=
  let one := fun (b : Bool) => (if b then 1 else -1 : Int)
  match bits with
  | [a] => { s := s, i := one a, q := 0, num := num, den := den }
  | [a, b] => { s := s, i := one a, q := one b, num := num, den := 2 * den }
  | [a, b, c, e] => { s := s, i := level16 a b, q := level16 c e, num := num, den := 10 * den }
  | _ => { s := s, i := 0, q := 0, num := 1, den := 1 }

/-- Fill data subcarriers from coded bits in ascending j; one marked off carries nothing and takes no bit (R175 step 5, R208). -/
def fillSubs (w num den : Nat) : List (Int × Nat) → List Bool → List Sub
  | [], _ => []
  | (s, j) :: rest, bits =>
    let k := modBits (bitsOf w (2 * j) 2)
    if k == 0 then fillSubs w num den rest bits
    else point s (bits.take k) num den :: fillSubs w num den rest (bits.drop k)

/-- The data subcarriers of `n` symbols under a map; the last symbol is filled with zero pad bits (R175 steps 5 and 6). -/
def fillSymbols (w num den : Nat) : Nat → List Bool → List (List Sub)
  | 0, _ => []
  | n + 1, bits =>
    let c := mapCbps w
    fillSubs w num den dataSubs.zipIdx (bits.take c ++ List.replicate (c - bits.length) false) :: fillSymbols w num den n (bits.drop c)

/-- Data symbols of a PSDU of `len` octets at a rate code under a map (R175). -/
def dataSymbols (len rate cbps : Nat) : Nat :=
  let n := 8 * len + 6
  let coded := match rate with
    | 0 => 2 * n
    | 1 => n + (n + 1) / 2
    | _ => n + (n + 2) / 3
  (coded + cbps - 1) / cbps

/-- The bits of octets, least significant bit of each octet first. -/
def lsbBits (p : List Byte) : List Bool := p.flatMap (fun b => (List.range 8).map (fun i => bitOf b.toNat i))

/-- N_act of a map: the pilots and the data subcarriers that are not off (R208). -/
def nAct (w : Nat) : Nat := 4 + ((List.range 24).filter (fun j => bitsOf w (2 * j) 2 != 0)).length

/-- The squared boost a² = min(28 / N_act, 2), 1 with BOOST 0 (R208). -/
def boost2 (boost : Bool) (w : Nat) : Nat × Nat := if !boost then (1, 1) else if 28 ≤ 2 * nAct w then (28, nAct w) else (2, 1)

/-- The map of the SIG symbols: BPSK on all 24 data subcarriers (R174). -/
def sigMap : Nat := 0x555555555555

/-- Every symbol of a native frame: P1, P2, SIG with its 36 bits coded at rate 1/2, and data, the pilots' polarity running on from the first SIG symbol
(R172 to R177, R207, R208). -/
def nativeFrame (family map mapWord rate : Nat) (psdu : List Byte) (boost : Bool) : List (List Sub) :=
  let a := boost2 boost mapWord
  let sig := sigOf map rate psdu.length
  let sigSyms := fillSymbols sigMap 1 1 3 (codeBits 0 ((List.range 36).map (fun i => bitOf sig i)))
  let n := dataSymbols psdu.length rate (mapCbps mapWord)
  let data := fillSymbols mapWord a.1 a.2 n (codeBits rate (lsbBits (scramble 0x5D psdu) ++ List.replicate 6 false))
  let pol := genBits (3 + n) 0x7F
  List.replicate (p1Count family) (p1Symbol family) ++ List.replicate (p2Count family) p2Symbol ++
    (sigSyms.zip pol).map (fun e => e.1 ++ pilots e.2 1 1) ++ (data.zip (pol.drop 3)).map (fun e => e.1 ++ pilots e.2 a.1 a.2)

/-! ## Air time of native frames (R170, R172, R175) -/

/-- A symbol's length in ticks on an Air die (Table 7-1): 288.0 µs or 230.4 µs. -/
def symTicks (air : Nat) : Nat := if air == 3 then 92160 else 73728

/-- Air time in ticks of a native frame (R172, R175). -/
def natTicks (air family len rate cbps : Nat) : Nat :=
  (preSymbols family + 3 + dataSymbols len rate cbps) * symTicks air

/-- The first sample of a native reception. -/
def Recep.startTick (air : Nat) (r : Recep) : Nat := r.tref - preSymbols r.family * symTicks air

/-- The symbols of a native reception, known once its SIG is. -/
def Recep.symbols (r : Recep) : Nat := preSymbols r.family + 3 + dataSymbols r.length r.rate (mapCbps r.mapWord)

/-- The end of a native reception, none before its SIG is decoded. -/
def Recep.endTick (air : Nat) (r : Recep) : Option Nat := if r.sig then some (r.startTick air + r.symbols * symTicks air) else none

/-- Whether a reception is still arriving at a moment: it waits for no recovery, or its symbols go on (R187, R191, Table 7-8). -/
def Recep.arriving (air now : Nat) (r : Recep) : Bool := r.ended.isNone || (r.endTick air).elim true (fun e => now < e)

/-- How many symbols of a native frame the given air times overlap: N_ov (R189, R190). -/
def Recep.overlapped (air : Nat) (r : Recep) (spans : List (Nat × Nat)) : Nat :=
  let t := symTicks air
  ((List.range r.symbols).filter (fun i =>
    spans.any (fun p => p.1 < r.startTick air + (i + 1) * t && r.startTick air + i * t < p.2))).length

/-- What a reception that ends now was on the air (R197). -/
def Recep.aired (air now : Nat) (r : Recep) : AirSpan :=
  { chain := 4, channel := r.channel, width := if r.family == 4 then 2 else if r.family == 5 then 16 else 1, start := r.startTick air, till := now }

/-! ## Legacy PHYs (R209, Table 7-4; the formats of IEEE 802.15.4-2020 are PRESUMED, log 26) -/

/-- The `w` bits of a value, most significant first. -/
def msbBits (w v : Nat) : List Bool := (List.range w).map (fun i => bitOf v (w - 1 - i))

/-- The whitening sequence PN9 (x^9 + x^5 + 1, seeded with ones). -/
def pn9 : Nat → Nat → List Bool
  | 0, _ => []
  | n + 1, reg =>
    let f := bitOf reg 0 != bitOf reg 5
    f :: pn9 n (reg / 2 + 256 * b2n f)

/-- The bits of a SUN-FSK frame: preamble octets, one of the two uncoded SFDs, the PHR with the FCS length and the whitening, and the PSDU, whitened when
asked (R209). -/
def fskBits (preOct : Nat) (sfdSel fcs4 whiten : Bool) (psdu : List Byte) : List Bool :=
  let body := lsbBits psdu
  (List.replicate preOct (msbBits 8 0x55)).flatten ++ msbBits 16 (if sfdSel then 0x7A0E else 0x904E) ++
    ([false, false, false, !fcs4, whiten] ++ msbBits 11 psdu.length) ++
    (if whiten then (body.zip (pn9 body.length 511)).map (fun e => e.1 != e.2) else body)

/-- The 32 chips of an O-QPSK symbol: symbols 1 to 7 rotate those of symbol 0 by four chips each, and 8 to 15 invert the odd chips. -/
def symChips (m : Nat) : List Bool :=
  let base := msbBits 32 0xD9C3522E
  let r := 4 * (m % 8)
  let c := base.drop (32 - r) ++ base.take (32 - r)
  c.zipIdx.map (fun e => if 8 ≤ m && e.2 % 2 == 1 then !e.1 else e.1)

/-- The chips of an O-QPSK frame: four octets of 0, the SFD, the PHR and the PSDU, the low four bits of an octet first; even chips go on I and odd ones on Q,
each a half sine (R209). -/
def oqpskChips (psdu : List Byte) : List Bool :=
  ([0, 0, 0, 0, 0xA7, psdu.length % 128] ++ psdu.map (fun b => b.toNat)).flatMap (fun o => symChips (o % 16) ++ symChips (o / 16))

/-! ## Wake-up calls (R220 to R222) -/

/-- The bits of one wake-up call: preamble, sync word, wake code and check, most significant bit first (R221). -/
def wakeBits (preBits sync code : Nat) : List Bool :=
  (List.range preBits).map (fun i => i % 2 == 0) ++ msbBits 16 sync ++ msbBits 16 code ++ msbBits 8 (crc8 (toBE 2 code))

/-- The chips of a bit string: a 1 is on then off, a 0 off then on (R220). -/
def wakeChips (bits : List Bool) : List Bool := bits.flatMap (fun b => [b, !b])

/-- A call sent `n` times, with eight off chips between the copies (R221). -/
def repeatCall (chips : List Bool) : Nat → List Bool
  | 0 => []
  | 1 => chips
  | n + 1 => chips ++ List.replicate 8 false ++ repeatCall chips n

/-- Whether each chip begins and ends with a raised-cosine edge: only an on chip does, and only beside an off chip or an end of the call (R220). -/
def chipEdges (chips : List Bool) : List (Bool × Bool) :=
  chips.zipIdx.map (fun e => (e.1 && !(e.2 != 0 && chips.getD (e.2 - 1) false), e.1 && !chips.getD (e.2 + 1) false))

/-! ## Shaping filters (R210, R211) -/

/-- The filter set of a modulation; wake-up calls bypass the filters (R210, Table 8-2). -/
def filterSet (mode fskRate : Nat) : Option Nat :=
  match mode with
  | 0 => some 0
  | 1 => some (1 + fskRate)
  | 2 => some 3
  | _ => none

/-- The cell width in Hz on an Air die (R167). -/
def cellHz (air : Nat) : Nat := if air == 3 then 125000 else 156250

/-- F_f in samples/s: eight samples a cell width over the cells occupied (R210). -/
def filterRate (air cells : Nat) : Nat := 8 * cellHz air * cells

/-- Σ c_k × x[n − k] over samples with the newest first. -/
def firTap (taps hist : List Int) : Int := (taps.zip hist).foldl (fun n e => n + e.1 * e.2) 0

/-- The filter's output from an input history: y[n] = Σ c_k × x[n − k], in units of 2^-15 (R210). -/
def firRun (taps : List Int) : List Int → List Int → List Int
  | _, [] => []
  | hist, x :: xs => firTap taps (x :: hist) :: firRun taps ((x :: hist).take 64) xs

/-- The samples of a wave at its filter's output, in units of 2^-15 of the input; a wave with no taps bypasses the filters (R210). -/
def filtered (taps : Option (List Int)) (x : List Int) : List Int :=
  match taps with
  | some t => firRun t [] x
  | none => x.map (fun v => 32768 * v)

/-- The frequency pulses of SUN-FSK bits at F_f, ±1 of the deviation, through the set's filter (R210, Table 8-2). -/
def fskPulses (perBit : Nat) (taps : Option (List Int)) (bits : List Bool) : List Int :=
  filtered taps (bits.flatMap (fun b => List.replicate perBit (if b then 1 else -1)))

/-- A tap of a set on a chain: the one the host has written, or the image's default (R211). -/
def TxChain.tap (k : TxChain) (set n : Nat) : Int :=
  let v := kvGet 65536 k.fir (64 * set + n)
  sext 16 (if v == 65536 then Config.firTap set n else v)

/-- The taps of the set that a transmission passes through (R210). -/
def TxChain.taps (k : TxChain) (set : Option Nat) : Option (List Int) := set.map (fun s => (List.range 64).map (fun n => k.tap s n))

/-! ## The mask monitor's windows (R212) -/

/-- The power in `n` cells from a cell, of a window's powers by cell. -/
def blockPower (w : List (Int × Nat)) (first : Int) (n : Nat) : Nat :=
  (w.filter (fun e => first ≤ e.1 && e.1 < first + n)).foldl (fun a e => a + e.2) 0

/-- P_in over the occupied cells, and the larger of P_lo and P_hi over the blocks of the same width beside them (R212). -/
def maskPowers (cells : Nat × Nat) (w : List (Int × Nat)) : Nat × Nat :=
  (blockPower w cells.1 cells.2,
    max (blockPower w ((cells.1 : Int) - cells.2) cells.2) (blockPower w (cells.1 + cells.2) cells.2))

/-- Whether a window's ratio exceeds −`lim` × 0.25 dB: both sides of max(P_lo, P_hi) / P_in > 10^(−lim / 40) to the 40th power (R212). -/
def maskViolates (lim : Nat) (p : Nat × Nat) : Bool := p.1 ^ 40 < p.2 ^ 40 * 10 ^ lim

/-- A window's ratio in −0.25 dB, rounded down and held in 8 bits (Table 8-7; the rounding is a DESIGN CHOICE, log 26). -/
def acrCode (p : Nat × Nat) : Nat := ((List.range 256).filter (fun n => !maskViolates n p)).length - 1

end Sys2Proof.Machine
end

