-- ==== Sys2Proof/Machine/Radio.lean ====
section
/-! DEFINITION. The radio state machine of the Band dies (R139 to R148), chain outputs (R142, R157, R631), the limit image
(R158, R159) and what a reception loses when its band leaves RECEIVE (Table 7-8). -/

namespace Sys2Proof.Machine
open Sys2Proof

/-- Ticks of local time in a microsecond (R57). -/
def tickUs : Nat := 320
/-- Ticks of local time in a second. -/
def tickSec : Nat := 320000000

/-- A Band die's state. -/
def Dev.band (d : Dev) (die : Nat) : BandDie := d.bands.getD (die - 5) {}
/-- Change a Band die's state. -/
def Dev.setBand (d : Dev) (die : Nat) (f : BandDie → BandDie) : Dev := { d with bands := modAt d.bands (die - 5) f }
/-- An Air die's state. -/
def Dev.airD (d : Dev) (die : Nat) : AirDie := d.air.getD (die - 3) {}
/-- Change an Air die's state. -/
def Dev.setAir (d : Dev) (die : Nat) (f : AirDie → AirDie) : Dev := { d with air := modAt d.air (die - 3) f }
/-- A transmit chain. -/
def Dev.chain (d : Dev) (die c : Nat) : TxChain := (d.band die).chains.getD c {}
/-- Change a transmit chain. -/
def Dev.setChain (d : Dev) (die c : Nat) (f : TxChain → TxChain) : Dev :=
  d.setBand die (fun b => { b with chains := modAt b.chains c f })

/-- Whether a number names a Band die, and an Air die. -/
def isBand (die : Nat) : Bool := die == 5 || die == 6
/-- See `isBand`. -/
def isAir (die : Nat) : Bool := die == 3 || die == 4

/-- The band state (Table 6-2). -/
def Dev.bandState (d : Dev) (die : Nat) : Nat := d.g F.RSM.BAND_STAT_STATE die
/-- A chain's state (Table 6-3). -/
def Dev.txState (d : Dev) (die c : Nat) : Nat := d.g F.RSM.TX_STAT_STATE die 0 c
/-- Set a chain's state. -/
def Dev.txTo (d : Dev) (die c st : Nat) : Dev := d.w F.RSM.TX_STAT_STATE st die 0 c

/-- The receive region of a Band die, and its transmit region (R122). -/
def rxRegion (die : Nat) : Nat := 20 + 2 * (die - 5)
/-- See `rxRegion`. -/
def txRegion (die : Nat) : Nat := 21 + 2 * (die - 5)

/-- A region's temperature as last published, in whole °C rounded down. -/
def Dev.tempC (d : Dev) (r : Nat) : Int := sext 12 (d.g F.SNS.TEMP_VALUE 0 0 r) / 8
/-- VDD_RFA as last published, in mV (Table 19-2). -/
def Dev.vddRfa (d : Dev) : Nat := d.g F.SNS.SUPPLY_MV 0 0 3
/-- VFUSE as last published, in mV (Table 19-2). -/
def Dev.vfuse (d : Dev) : Nat := d.g F.SNS.SUPPLY_MV 0 0 10

/-! ## Receptions that are lost -/

/-- Show receptions, collision jobs and decoder contexts (Tables 7-10, 7-12, 7-13). -/
def Dev.showRx (d : Dev) (die : Nat) : Dev :=
  let rs := (d.airD die).receps
  let d := d.each (List.range 16) (fun d q =>
    let mine := rs.filter (fun r => r.channel / 32 == q)
    let d := d.w F.DEM.BUSY_CH (ofBits (mine.map (fun r => r.channel % 32))) die q
    d.w F.SIC.STAT_ACTIVE (mine.filter (fun r => r.sic && r.role == 2)).length die q)
  d.each (List.range 4) (fun d k =>
    let n := fun c => min 64 (rs.filter (fun r => r.channel / 32 == 4 * k + c && r.family ≤ 3)).length
    (((d.w F.DEC.CTX_C0 (n 0) die k).w F.DEC.CTX_C1 (n 1) die k).w F.DEC.CTX_C2 (n 2) die k).w F.DEC.CTX_C3 (n 3) die k)

/-- Receptions in progress are abandoned and counted: in CAL_LOST when the band goes to RX_CAL, else in ABANDON. A collision job
whose buffer is complete, its frame no longer arriving, finishes (Table 7-8). -/
def Dev.abandonAll (d : Dev) (die : Nat) (cal : Bool) : Dev :=
  let now := d.time.lt
  let gone := (d.airD die).receps.filter (fun r => r.arriving die now)
  let d := d.each gone (fun d r => d.inc (if cal then C.DEM.CAL_LOST else C.DEM.ABANDON) die (r.channel / 32))
  (d.setAir die (fun a => { a with
    receps := a.receps.filter (fun r => !r.arriving die now), aired := a.aired ++ gone.map (fun r => r.aired die now) })).showRx die

/-! ## Band state -/

/-- Show the chains that deliver samples and those in use, and the healthy count (Tables 6-10, 7-9, 7-11). -/
def Dev.showChains (d : Dev) (die : Nat) : Dev :=
  let ok := ofBits ((bitList 8 (d.g F.RXF.CHAIN_EN_EN die)).filter (fun c => !bitOf (d.g F.RXF.CHAIN_STAT_FAILED die) c))
  let st := d.bandState die
  let live := if 3 ≤ st && st ≤ 5 then ok else 0
  let d := d.w F.RXF.CHAIN_STAT_HEALTHY (popCount 8 ok) die
  let d := d.w F.CHZ.STAT_CHAINS live (die - 2)
  d.w F.CMB.STAT_CHAINS_USED (live &&& d.g F.CMB.CFG_CHAIN_MASK (die - 2)) (die - 2)

/-- Set the band state; leaving RECEIVE ends the receptions in progress (Table 7-8), and entering FAULT raises RXLO_LOCK
(Table 6-14). -/
def Dev.bandTo (d : Dev) (die st : Nat) : Dev :=
  let old := d.bandState die
  let d := d.w F.RSM.BAND_STAT_STATE st die
  let d := d.when (old == 3 && st != 3) (fun d => d.abandonAll (die - 2) (st == 4))
  (d.showChains die).when (st == 6 && old != 6) (fun d => d.raise E.SYN.RXLO_LOCK die)

/-- The band state that the mode requires (Table 6-4), as a code of Table 6-2. -/
def Dev.bandWanted (d : Dev) (die : Nat) : Nat :=
  if d.outAct == mService then 3
  else if d.outAct == mShadow || d.outAct == mQuiesce then 5
  else if d.outAct == mBringup then d.g F.RSM.REQ_TARGET die
  else 0

/-- A receive calibration that is due starts from RECEIVE or HOLD (Table 6-2, R145); one of a temperature trigger waits for a slot boundary while the
superframe runs, and starts at once where there is none (DESIGN CHOICE, log 24). -/
def Dev.rxCalKick (d : Dev) (die : Nat) : Dev :=
  if ((d.band die).rxCal == 1 || ((d.band die).rxCal == 2 && d.outAct != mService)) && (d.bandState die == 3 || d.bandState die == 5) then
    (d.bandTo die 4).w F.SYN.CAL_STAT_RX_BUSY 1 die
  else d

/-- Move the band along Table 6-2 toward the state the mode requires; with no healthy chain it enters FAULT (R163). -/
def Dev.bandFollow (d : Dev) (die : Nat) : Dev :=
  let st := d.bandState die
  let want := d.bandWanted die
  let d :=
    if st == 1 && (want == 3 || want == 5) then d.bandTo die 2
    else if (st == 3 || st == 5) && d.g F.RXF.CHAIN_STAT_HEALTHY die == 0 then d.bandTo die 6
    else if (st == 3 && want == 5) || (st == 5 && want == 3) then d.bandTo die want
    else if (st == 2 || st == 3 || st == 5) && want == 1 then d.bandTo die 1
    else d
  d.rxCalKick die

/-- The coarse code learned for each chain's present gain index is applied (R151). -/
def Dev.showDco (d : Dev) (die : Nat) : Dev :=
  d.each (List.range 8) (fun d c =>
    let code := fun (q : Nat) => kvGet 0 (d.band die).dco (64 * c + 2 * d.g F.RXF.GAIN_IDX die 0 c + q)
    (d.w F.RXF.DCO_I (code 0) die 0 c).w F.RXF.DCO_Q (code 1) die 0 c)

/-- What a receive calibration learns: coarse codes and the sizes of their steps; counts of steps beyond the range start over (R151, R152). -/
def BandDie.learn (b : BandDie) (l : List DcoCode) : BandDie :=
  { b with
    dco := l.foldl (fun l e => kvSet 256 (kvSet 256 l (64 * e.chain + 2 * e.idx) (ofSigned 8 e.i)) (64 * e.chain + 2 * e.idx + 1) (ofSigned 8 e.q)) b.dco
    dcoSize := l.foldl (fun l e => kvSet 0 (kvSet 0 l (64 * e.chain + 2 * e.idx) e.stepI) (64 * e.chain + 2 * e.idx + 1) e.stepQ) b.dcoSize
    dcoOver := [] }

/-! ## Transmit chains -/

/-- The bit of a chain in the eight-bit pin masks. -/
def pinBit (die c : Nat) : Nat := 4 * (die - 5) + c

/-- The page of a transmit chain. -/
def txfPage (die c : Nat) : Page := ⟨.TXF, die, c⟩

/-- Whether a TXF snapshot writes a filter set: some field of the group FIR_SEL with FIR_COEF differs (R628). -/
def Dev.firChanged (d : Dev) (p : Page) (snap : List (Nat × Nat)) : Bool :=
  d.changes snap F.TXF.FIR_SEL_SET p ||
    (List.range 32).any (fun m => d.changes snap F.TXF.FIR_COEF_T0 p m || d.changes snap F.TXF.FIR_COEF_T1 p m)

/-- The 64 taps of a snapshot. -/
def firTaps (p : Page) (snap : List (Nat × Nat)) : List Nat :=
  (List.range 32).flatMap (fun m => [snapGet snap F.TXF.FIR_COEF_T0 p m, snapGet snap F.TXF.FIR_COEF_T1 p m])

/-- A TXF commit goes live when the chain enters TX_IDLE, and writes the filter set it names (R157, R211, R628). -/
def Dev.txfLive (d : Dev) (die c : Nat) : Dev :=
  let p := txfPage die c
  match d.pendingCommit p with
  | none => d
  | some pc =>
    if pc.deferred then d
    else
      let set := snapGet pc.snap F.TXF.FIR_SEL_SET p
      let d := d.when (d.firChanged p pc.snap) (fun d => d.setChain die c (fun k => { k with
        fir := ((firTaps p pc.snap).zipIdx).foldl (fun l t => kvSet 65536 l (64 * set + t.2) t.1) k.fir }))
      (d.liveFrom p pc.snap).commitDone p

/-- The centre cell of a channel or gang (Table 6-9). The centre of an even gang lies between two cells; the upper of them is taken (DESIGN CHOICE, log 24). -/
def centreCell (t : Nat × Nat) : Nat := t.1 + t.2 / 2

/-- A chain begins to tune (Table 6-3, TX_TUNE). -/
def Dev.tuneNow (d : Dev) (die c : Nat) (t : Nat × Nat) : Dev :=
  ((d.setChain die c (fun k => { k with tuned := some t, pend := none })).txTo die c 2).w F.SYN.TX_CELL_CELL
    (centreCell t) die 0 c

/-- Whether a start is handed over for a chain and due in the next 460 µs (R146). -/
def Dev.startSoon (d : Dev) (die c : Nat) : Bool :=
  (d.airD (die - 2)).handed.any (fun x => x.chain == c && x.start ≤ d.time.lt + 460 * tickUs)

/-- Whether a chain's due calibration may start now: commanded or past DEFER_MAX, from TX_IDLE; triggered by temperature, from
TX_IDLE with no start soon; a resume, from TX_FAIL (R146, Table 6-3). -/
def Dev.calReady (d : Dev) (die c : Nat) : Bool :=
  match (d.chain die c).cal with
  | 1 => d.txState die c == 1
  | 2 => d.txState die c == 1 && !d.startSoon die c
  | 3 => d.txState die c == 7
  | _ => false

/-- The chains of one request are calibrated in turn, chain 0 first (R144): the lowest-numbered due chain starts when it may and
no other calibrates. -/
def Dev.calKick (d : Dev) (die : Nat) : Dev :=
  if d.g F.SYN.CAL_STAT_TX_BUSY die != 0 then d
  else match ([0, 1, 2, 3] : List Nat).find? (fun c => (d.chain die c).cal != 0) with
    | none => d
    | some c =>
      if d.calReady die c then
        ((d.setChain die c (fun k => { k with cal := if k.cal == 3 then 1 else k.cal })).txTo die c 6).wBit F.SYN.CAL_STAT_TX_BUSY c true die
      else d

/-- Calibrations that may start now that a start was refused or taken back (R146). -/
def Dev.calWatch (d : Dev) : Dev := d.each ([5, 6] : List Nat) (fun d die => d.calKick die)

/-- A chain enters TX_IDLE: a TXF commit goes live, a due calibration starts, else a tune request that waited is applied
(Tables 6-3 and 6-6). -/
def Dev.txIdle (d : Dev) (die c : Nat) : Dev :=
  let d := ((d.txTo die c 1).txfLive die c).calKick die
  if d.txState die c != 1 then d
  else match (d.chain die c).pend with
    | some t => d.tuneNow die c t
    | none => d

/-- Outputs of steps 2 to 6 of Table 6-5, in order: T/R switch and blanking, PA bias, PA enable, power at the ball. -/
def Dev.outputsOn (d : Dev) (die c : Nat) : Dev :=
  let b := pinBit die c
  let pa := d.on F.TXF.PA_CFG_EN die c
  let bias := d.g F.TXF.PA_CFG_BIAS die c
  let d := { d with pins := { d.pins with
    trsw := putBit d.pins.trsw b true
    paBias := if pa then d.pins.paBias.set b bias else d.pins.paBias
    paEn := if pa then putBit d.pins.paEn b true else d.pins.paEn
    rfOut := putBit d.pins.rfOut b true } }
  let d := d.wBit F.RXF.CHAIN_STAT_BLANK c true die
  let t := d.time.lt
  d.each [(1, 0), (2, 1), (3, 2), (4, 6), (5, 12), (6, 16)] (fun d s => d.emit (.txStep die c s.1 (t + s.2 * tickUs)))

/-- Outputs of steps 7 to 10 of Table 6-5: ramp-down, PA release, T/R switch low, unblanking. -/
def Dev.outputsOff (d : Dev) (die c : Nat) : Dev :=
  let b := pinBit die c
  let t := d.time.lt
  let d := d.each [(7, 0), (8, 6), (9, 10), (10, 12)] (fun d s => d.emit (.txStep die c s.1 (t + s.2 * tickUs)))
  let d := { d with pins := { d.pins with
    rfOut := putBit d.pins.rfOut b false
    paEn := putBit d.pins.paEn b false
    paBias := d.pins.paBias.set b 0
    trsw := putBit d.pins.trsw b false } }
  d.wBit F.RXF.CHAIN_STAT_BLANK c false die

/-- A chain enters TX_FAIL (R164). -/
def Dev.txFail (d : Dev) (die c : Nat) : Dev :=
  ((d.setChain die c (fun k => { k with cal := 0 })).txTo die c 7).raise E.TXF.TX_FAIL die c

/-- The chain's frame is cut off: the ramp-down begins and the release of Table 6-5 follows (R142). -/
def Dev.cutOff (d : Dev) (die c : Nat) : Dev :=
  match (d.chain die c).air with
  | none => d
  | some x =>
    (((d.emit (.cutOff die c x.kind)).outputsOff die c).setChain die c (fun k => { k with air := none }))

/-- The radio power-up of boot step 9 and wake step 4: OFF to STANDBY, and TX_OFF to TX_TUNE for enabled chains; a chain enabled later leaves TX_OFF
then (Tables 6-2 and 6-3). -/
def Dev.bandPowerUp (d : Dev) (die : Nat) : Dev :=
  let d := d.when (d.regionOn (rxRegion die) && d.bandState die == 0) (fun d => d.bandTo die 1)
  d.when (d.regionOn (txRegion die)) (fun d =>
    d.each ((List.range 4).filter (fun c => d.txState die c == 0 && bitOf (d.g F.TXB.ASSIGN_CHAIN_EN (die - 2)) c))
      (fun d c => d.txTo die c 2))

/-- RFSW_EN_L and RFSW_EN_H follow the mode, or possession while TWN.CFG.EN is 1 (R631). -/
def Dev.rfswFollow (d : Dev) : Dev :=
  let modeOk := d.mode == mBringup || d.mode == mService || d.mode == mQuiesce
  let up := if d.on F.TWN.CFG_EN then d.on F.TWN.STAT_POSS_HELD && !d.outsWait else modeOk && d.boot.enteredMode
  { d with pins := { d.pins with
    rfsw := b2n (up && d.regionOn 20) + 2 * b2n (up && d.regionOn 22) } }

/-- Whether possession lets the device drive the outputs of Table 17-2 (R161 step 7, R480); a takeover enables them at its step 4 (Table 17-5). -/
def Dev.mayRadiate (d : Dev) : Bool := !d.on F.TWN.CFG_EN || (d.on F.TWN.STAT_POSS_HELD && !d.outsWait)

/-! ## The limit image (R158, R159) -/

/-- A word of a limit image. -/
def limWord (ws : List (Nat × Nat)) (i : Nat) : Nat := kvGet 0 ws i

/-- A sub-band of a limit image: number, first and last cell, power limit, duty in 0.1 %, window in s. -/
structure SubBand where
  k      : Nat
  first  : Nat
  last   : Nat
  pmax   : Nat
  duty   : Nat
  window : Nat
  deriving DecidableEq, Repr

/-- The sub-bands an image defines (Table 6-7). -/
def subBands (ws : List (Nat × Nat)) : List SubBand :=
  (List.range (min 8 (bitsOf (limWord ws 0) 8 4))).map (fun k =>
    { k := k, first := bitsOf (limWord ws (1 + 2 * k)) 0 16, last := bitsOf (limWord ws (1 + 2 * k)) 16 16,
      pmax := bitsOf (limWord ws (2 + 2 * k)) 0 8, duty := bitsOf (limWord ws (2 + 2 * k)) 8 10,
      window := bitsOf (limWord ws (2 + 2 * k)) 18 12 })

/-- The last cell of a die's band (R134). -/
def lastCell (die : Nat) : Nat := if die == 5 then 4399 else 511

/-- CHECK of an image (Table 6-7). -/
def limCheck (ws : List (Nat × Nat)) : Nat :=
  crc32cStd ((List.range 155).flatMap (fun i => toLE 4 (limWord ws i)))

/-- The first word that makes an image refused, if any (R159). -/
def limRefused (die : Nat) (ws : List (Nat × Nat)) : Option Nat :=
  let w0 := limWord ws 0
  let bandMax := bitsOf w0 0 8
  let n := bitsOf w0 8 4
  if bitsOf w0 12 1 != die - 5 || 184 < bandMax || 8 < n || bitsOf w0 13 19 != 0 then some 0
  else
    let sbs := subBands ws
    let badK := fun k =>
      let a := limWord ws (1 + 2 * k)
      let b := limWord ws (2 + 2 * k)
      if n ≤ k then (if a != 0 then some (1 + 2 * k) else if bitsOf b 30 2 != 0 then some (2 + 2 * k) else none)
      else
        let first := bitsOf a 0 16
        let last := bitsOf a 16 16
        if last < first || lastCell die < last ||
            sbs.any (fun s => s.k < k && s.first ≤ last && first ≤ s.last) then some (1 + 2 * k)
        else if bandMax < bitsOf b 0 8 || bitsOf b 8 10 == 0 || 1000 < bitsOf b 8 10 || bitsOf b 18 12 == 0 ||
            3600 < bitsOf b 18 12 || bitsOf b 30 2 != 0 then some (2 + 2 * k)
        else none
    let badJ := fun j =>
      let w := limWord ws (17 + j)
      if (List.range 32).any (fun b => lastCell die < 32 * j + b && bitOf w b) then some (17 + j) else none
    match ((List.range 8).filterMap badK ++ (List.range 138).filterMap badJ).head? with
    | some w => some w
    | none => if limWord ws 155 != limCheck ws then some 155 else none

/-- The programmed image of a Band die. -/
def Dev.fuse (d : Dev) (die : Nat) : BandFuses := d.fuses.getD (die - 5) {}
/-- Change a die's fuses. -/
def Dev.setFuse (d : Dev) (die : Nat) (f : BandFuses → BandFuses) : Dev := { d with fuses := modAt d.fuses (die - 5) f }

/-- Show the lock state, result and word in LIM.LOCK_STAT (Table 6-12). -/
def Dev.showLock (d : Dev) (die : Nat) : Dev :=
  let f := d.fuse die
  ((d.w F.LIM.LOCK_STAT_STATE f.state die).w F.LIM.LOCK_STAT_RESULT f.result die).w F.LIM.LOCK_STAT_WORD f.word die

/-- Show staging and fuse words at LOCK_IDX (Table 6-12). -/
def Dev.showLim (d : Dev) (die : Nat) : Dev :=
  let i := d.g F.LIM.LOCK_IDX_IDX die
  (d.w F.LIM.LOCK_DATA_WORD (limWord (d.band die).staged i) die).w F.LIM.FUSE_DATA_WORD (limWord (d.fuse die).words i) die

/-- The cells that a channel (or a gang of `n` channels) of a band occupies (R134, R135). -/
def Dev.cellsOf (d : Dev) (die channel n : Nat) : Nat × Nat :=
  (if die == 5 then d.g F.SYN.RXLO_CELL_C0 5 + channel else channel, n)

/-- The sub-band that holds every occupied cell, when the mask allows them all (R161 step 3). -/
def Dev.subBandOf (d : Dev) (die : Nat) (cells : Nat × Nat) : Option SubBand :=
  let ws := (d.fuse die).words
  if (List.range cells.2).all (fun i => bitOf (limWord ws (17 + (cells.1 + i) / 32)) ((cells.1 + i) % 32)) then
    (subBands ws).find? (fun s => s.first ≤ cells.1 && cells.1 + cells.2 ≤ s.last + 1)
  else none

end Sys2Proof.Machine
end

