-- ==== Sys2Proof/Machine/Huddle.lean ====
section
/-! DEFINITION. The huddle: fabric headers, HELLO and LSA messages, origination and flooding of LSAs, and device IDs (R459 to R467, R482). -/

namespace Sys2Proof.Machine
open Sys2Proof

/-- A fabric header with its check (Table 16-2). -/
def fabHeader (type cls : Nat) (flood : Bool) (dst src ttl len port fid seq : Nat) : List Byte :=
  let h := toBE 1 (type * 8 + cls) ++ toBE 1 (b2n flood * 128 + dst % 64) ++ toBE 1 (src % 64) ++ toBE 1 ttl ++ toBE 2 (len % 16384) ++
    toBE 2 (port % 32) ++ toBE 1 fid ++ toBE 1 0 ++ toBE 4 seq
  h ++ toBE 2 (crc16h h)

/-! ## Identities (R463, R482) -/

/-- The device's own EUI-64. -/
def Dev.devEui (d : Dev) : Nat := d.g F.HUD.EUI_HI_E * 2 ^ 32 + d.g F.HUD.EUI_LO_E

/-- The EUI-64 under which the device originates LSAs: PAIR_EUI while twin operation is enabled (R482). -/
def Dev.hudEui (d : Dev) : Nat := if d.on F.TWN.CFG_EN then d.g F.TWN.PAIR_EUI_HI_E * 2 ^ 32 + d.g F.TWN.PAIR_EUI_LO_E else d.devEui

/-- Whether a link is the twin link. -/
def Dev.twinLink (d : Dev) (l : Nat) : Bool := d.on F.TWN.CFG_EN && d.g F.TWN.CFG_LINK == l

/-- The EUI-64 that a link's HELLO carries (R482). -/
def Dev.helloEui (d : Dev) (l : Nat) : Nat := if d.twinLink l then d.devEui else d.hudEui

/-- A link's state (Table 16-1). -/
def Dev.vxlState (d : Dev) (l : Nat) : Nat := d.g F.VXL.STAT_STATE 0 l

/-- Links in UP that carry huddle messages: all but the twin link, and none without possession (R482, Table 17-2). -/
def Dev.hudLinks (d : Dev) : List Nat := if !d.mayRadiate then [] else (List.range 8).filter (fun l => d.vxlState l == 4 && !d.twinLink l)

/-! ## Messages -/

/-- Put a fabric frame on a link: the frame, its CRC-32C, and the counts (R453). -/
def Dev.vxlSend (d : Dev) (l : Nat) (f : List Byte) : Dev :=
  ((d.emit (.vxlFrame l (f ++ toBE 4 (crc32cStd f)))).inc C.VXL.TX_FRAMES 0 l).addc C.VXL.TX_OCTETS f.length 0 l

/-- Send a huddle message on a link: TTL 1, DST 0; the class and port that its header carries are not stated and free (R462). -/
def Dev.hudSend (d : Dev) (l : Nat) (m : List Byte) : Dev :=
  let f := d.freshNat
  let h := fabHeader 2 (f.1 % 8) false 0 (d.g F.HUD.STAT_ID) 1 m.length (f.1 / 8) (d.g F.HUD.CFG_FID) d.fabSeq
  { f.2 with fabSeq := (d.fabSeq + 1) % 2 ^ 32 }.vxlSend l (h ++ m)

/-- The device ID field of a message: 0xFF for none. -/
def Dev.hudId (d : Dev) : Nat := if d.hud.on then d.hud.id else 255

/-- A HELLO (Table 16-3). -/
def Dev.helloMsg (d : Dev) (l : Nat) : List Byte :=
  toBE 1 0 ++ toBE 1 l ++ toBE 1 d.hudId ++ toBE 1 (d.g F.HUD.CFG_FID) ++ toBE 8 (d.helloEui l) ++ toBE 4 (d.g F.HUD.SEQ_N)

/-- The cost that the device advertises for a link (R468). -/
def Dev.linkCost (d : Dev) (l : Nat) : Nat :=
  let c := d.g F.HUD.LINK_COST_C 0 0 l
  if c != 0 then c else if d.on F.VXL.STAT_DEGRADED 0 l then 20 else 10

/-- The device's own LSA (Table 16-3); the twin link is left out (R482). -/
def Dev.lsaMsg (d : Dev) : List Byte :=
  toBE 1 1 ++ toBE 1 d.hud.id ++ toBE 1 (d.g F.HUD.STAT_SETTLED) ++ toBE 1 0 ++ toBE 8 d.hudEui ++ toBE 4 (d.g F.HUD.SEQ_N) ++
    (List.range 8).flatMap (fun l =>
      let up := d.vxlState l == 4 && !d.twinLink l
      let id := d.g F.VXL.STAT_PEER_ID 0 l
      toBE 1 (b2n up * 128 + b2n (up && d.on F.VXL.STAT_DEGRADED 0 l) * 64 + l) ++ toBE 1 (if up && id != 0x3F then id else 255) ++
        toBE 2 (d.linkCost l))

/-- Claimed ID of an LSA. -/
def LsaRec.id (r : LsaRec) : Nat := leAt r.bytes 1 1
/-- SEQ of an LSA. -/
def LsaRec.seq (r : LsaRec) : Nat := beAt r.bytes 12 4
/-- Link `l` of an LSA: whether it is UP, the neighbour and the cost. -/
def LsaRec.link_ (r : LsaRec) (l : Nat) : Bool × Nat × Nat :=
  (128 ≤ leAt r.bytes (16 + 4 * l) 1, leAt r.bytes (17 + 4 * l) 1, beAt r.bytes (18 + 4 * l) 2)

/-- Keep an LSA in place of an older one of its originator, or take it in. -/
def Dev.keepLsa (d : Dev) (r : LsaRec) : Dev :=
  let l := d.hud.lsas.filter (fun x => x.eui < r.eui) ++ [r] ++ d.hud.lsas.filter (fun x => r.eui < x.eui)
  { d with hud := { d.hud with lsas := l } }.w F.HUD.STAT_DEVICES l.length

/-- Originate the device's LSA with SEQ incremented, on every link in UP (R464); a member without possession originates none (R482). -/
def Dev.originate (d : Dev) : Dev :=
  if !d.hud.on || !d.mayRadiate then d
  else
    let d := (d.w F.HUD.SEQ_N ((d.g F.HUD.SEQ_N + 1) % 2 ^ 32)).inc C.HUD.LSA_TX
    let m := d.lsaMsg
    (d.keepLsa { eui := d.hudEui, bytes := m, link := 255, since := d.time.lt }).each d.hudLinks (fun d l => d.hudSend l m)

/-! ## Device IDs (R465, R466) -/

/-- The held LSAs of other devices. -/
def Dev.others (d : Dev) : List LsaRec := d.hud.lsas.filter (fun r => r.eui != d.hudEui)

/-- The lowest ID that no held LSA of another device claims; 255 where there is none. -/
def Dev.freeId (d : Dev) : Nat := ((List.range 64).find? (fun i => !d.others.any (fun r => r.id == i))).getD 255

/-- SETTLED changes: it is logged, and the caller originates (R464, R477). -/
def Dev.setSettled (d : Dev) (b : Bool) : Dev :=
  if d.on F.HUD.STAT_SETTLED == b then d
  else
    let d := d.w F.HUD.STAT_SETTLED (b2n b)
    (d.logRec 0x0702 1 0 (toLE 1 (b2n b) ++ toLE 1 d.hud.lsas.length)).when b (fun d => { d with hud := { d.hud with settledOnce := true } })

/-- Take an ID: shown, kept in ID_LAST, and NO_ID raised for 255 (R465). -/
def Dev.takeId (d : Dev) (i : Nat) : Dev :=
  let d := { d with hud := { d.hud with id := i } }
  let d := (d.w F.HUD.STAT_ID (if i == 255 then 0 else i)).w F.HUD.STAT_NO_ID (b2n (i == 255))
  if i == 255 then (d.setSettled false).raise E.HUD.NO_ID
  else (d.w F.HUD.ID_LAST_ID i).w F.HUD.ID_LAST_VALID 1

/-- The ID changes: counted, logged, and its source raised once the huddle has settled (R465, R477). -/
def Dev.changeId (d : Dev) (i : Nat) : Dev :=
  let old := d.hud.id
  let d := ((d.takeId i).inc C.HUD.ID_CHANGES).logRec 0x0701 2 0 (toLE 1 old ++ toLE 1 i)
  (d.when d.hud.settledOnce (fun d => d.raise E.HUD.ID_CHANGE)).originate

/-- The tentative ID (R465): PREF_ID, then ID_LAST, then the lowest that no held LSA claims. -/
def Dev.tentative (d : Dev) : Nat :=
  if d.on F.HUD.CFG_PREF_EN then d.g F.HUD.CFG_PREF_ID
  else if d.on F.HUD.ID_LAST_VALID then d.g F.HUD.ID_LAST_ID else d.freeId

/-- A contest over the own ID with a lower EUI-64: the device takes the lowest free ID (R465). -/
def Dev.contest (d : Dev) : Dev :=
  if d.hud.id != 255 && d.others.any (fun r => r.id == d.hud.id && r.eui < d.hudEui) then
    ((d.setSettled false).inc C.HUD.CONTESTS).changeId d.freeId
  else d

/-- The huddle starts: the device takes its tentative ID and originates (R465, R466). -/
def Dev.startHuddle (d : Dev) : Dev :=
  let d := { d with hud := { d.hud with on := true, lsas := [] } }
  (d.takeId d.tentative).originate

/-- A re-huddle: every held LSA is discarded and the device originates again (R467). A device without an ID takes one. -/
def Dev.rehuddle (d : Dev) : Dev :=
  let d := ({ d with hud := { d.hud with lsas := [] } }.w F.HUD.STAT_DEVICES 0).setSettled false
  if !d.hud.on then d.startHuddle else if d.hud.id == 255 then d.changeId d.tentative else d.originate

/-- A received LSA (R464, R465): kept and flooded when it is newer or new, else counted stale; one of the device's own at or above its SEQ is
overtaken. -/
def Dev.lsaRx (d : Dev) (link : Nat) (m : List Byte) : Dev :=
  let r : LsaRec := { eui := beAt m 4 8, bytes := padTo 48 m, link := link, since := d.time.lt }
  let held := d.hud.lsas.find? (fun x => x.eui == r.eui)
  if r.eui == d.hudEui then
    if r.seq < d.g F.HUD.SEQ_N then d.inc C.HUD.LSA_STALE else (d.w F.HUD.SEQ_N r.seq).originate
  else if held.any (fun x => r.seq ≤ x.seq) then d.inc C.HUD.LSA_STALE
  else
    let d := (d.keepLsa r).inc C.HUD.LSA_RX
    let d := d.each (d.hudLinks.filter (fun l => l != link)) (fun d l => d.hudSend l r.bytes)
    let changed := held.all (fun x => x.id != r.id)
    let d := if changed && d.on F.HUD.STAT_SETTLED then (d.setSettled false).originate else d
    d.contest

end Sys2Proof.Machine
end

