-- ==== Sys2Proof/Machine/Tokens.lean ====
section
/-! DEFINITION. The maintenance tokens (R525 to R529): compatibility, requests, grants in queue order and releases. -/

namespace Sys2Proof.Machine
open Sys2Proof

/-- The compatibility matrix of Table 18-7, activity codes 1 to 7. -/
def compatible (a b : Nat) : Bool :=
  if a == 7 || b == 7 then false
  else if a == b then false
  else if a == 1 || b == 1 then true
  else if a == 6 || b == 6 then true
  else if a == 5 || b == 5 then a != 4 && b != 4
  else false

/-- Whether two masks of regions share one. -/
def overlap (a b : Nat) : Bool := a &&& b != 0

/-- All 24 regions. -/
def allRegions : Nat := 0xFFFFFF

/-- The mask of a die's regions. -/
def dieScope (die : Nat) : Nat := ofBits (dieRegions die)

/-- The scope that an activity takes (Table 18-6): `x` is a region for activities 1, 2 and 4, a die for 3, and
`100 + die` names every region of a die for activity 2. -/
def scopeOf (act x : Nat) : Nat :=
  match act with
  | 3 => dieScope x
  | 5 => 2 ^ 3
  | 6 => 2 ^ 1
  | 7 => allRegions
  | _ => if 100 ≤ x then dieScope (x - 100) else 2 ^ x

/-- Whether a request can be granted against the holders and the requests queued before it (R527). -/
def Maint.grantable (m : Maint) (earlier : List TokenReq) (r : TokenReq) : Bool :=
  (m.held ++ earlier).all (fun o => !overlap o.scope r.scope || compatible o.act r.act)

/-- Show tokens and queue in the MNT page (Table 18-13). -/
def Dev.showTokens (d : Dev) : Dev :=
  let d := d.each (List.range 24) (fun d i =>
    let h := ofBits ((d.mt.held.filter (fun r => bitOf r.scope i)).map (fun r => r.act - 1))
    let q := (d.mt.queue.filter (fun r => bitOf r.scope i)).length
    (d.w F.MNT.TOKEN_HELD h 0 0 i).w F.MNT.TOKEN_QUEUED q 0 0 i)
  let d := d.each [5, 6] (fun d die => d.w F.SYN.CAL_STAT_QUEUED
    (b2n (d.mt.queue.any (fun r => r.act == 1 && overlap r.scope (dieScope die)))) die)
  (d.w F.MNT.QUEUE_DEPTH d.mt.queue.length).w F.BEN.STAT_QUEUED (b2n (d.mt.queue.any (fun r => r.act == 2)))

/-- The regions of a page as a mask: its own region, or for a block of the whole die every region of the die (R625). -/
def Page.scope (p : Page) : Nat := p.region.elim (dieScope p.die) (fun r => 2 ^ r)

/-- The pages of the regions of a mask. -/
def pagesIn (mask : Nat) : List Page := allPages.filter (fun p => overlap p.scope mask)

/-- Show the activity that holds each page's region token, and whether a further request waits (Table 4-1). A block of the whole die has no one region: an
activity that holds all of the die's regions holds its token, and a request for any of them waits for it (DEDUCED, log 47). -/
def Dev.showMaint (d : Dev) (mask : Nat) : Dev :=
  d.each (pagesIn mask) (fun d p =>
    let a := (d.mt.held.find? (fun t => t.scope &&& p.scope == p.scope)).elim 0 (·.act)
    let q := d.mt.queue.any (fun t => overlap t.scope p.scope)
    (d.put (pgMaintAct p.tag) p a).put (pgMaintQueued p.tag) p (b2n q))

/-- The Route dies whose regions a scope names. -/
def scopeRoutes (scope : Nat) : List Nat := ([1, 2] : List Nat).filter (fun x => overlap scope (dieScope x))

/-- The page of a bench unit. -/
def unitPage (type die index : Nat) : Page :=
  match type with
  | 0 => ⟨.PLY, die, index / 8⟩
  | 1 => ⟨.CRY, die, index / 5⟩
  | 2 => ⟨.DEM, die, index / 34⟩
  | 3 => ⟨.DEC, die, index / 20⟩
  | 4 => ⟨.NTB, die, index / 512 / 144⟩
  | 5 => ⟨.VXL, 0, index / 3⟩
  | _ => ⟨.CMP, die, 0⟩

/-- The argument that names a unit and a cause in a token request. -/
def substArg (type die index cause : Nat) : Nat := ((type * 8 + die) * 4 + cause) * 2 ^ 20 + index

/-- The page of the unit that an argument of activity 2 names. -/
def argPage (arg : Nat) : Page := unitPage (arg / 2 ^ 25) (arg / 2 ^ 22 % 8) (arg % 2 ^ 20)

/-- A new mask for a generation, drawn from the on-die entropy source (R283). -/
def Dev.drawMask (d : Dev) (g : Nat) : Dev :=
  let m := d.freshBytes 32
  { m.2 with vault := { m.2.vault with masks := m.2.vault.masks.set g m.1 } }

/-- A re-mask sweep starts: a new mask for the generation not in use (R283). -/
def Dev.startSweep (d : Dev) : Dev :=
  let d := d.drawMask (1 - d.g F.VLT.MASK_STAT_GEN)
  { d with vault := { d.vault with sweep := true } }

/-- What starts when an activity's tokens are granted: its busy flags (Tables 6-5, 18-12, 18-13, 10-6) and, for a calibration, the
calibration itself. `arg` is for activity 1 the Band die × 8192, plus for receive 1 when a temperature triggered it, and for transmit 4096 and the masks of chains to
calibrate: those commanded, times 16 those by a temperature, times 256 those from TX_FAIL; for the others the activity's own. -/
def Dev.onGrant (d : Dev) (r : TokenReq) : Dev :=
  match r.act with
  | 1 =>
    let die := r.arg / 8192
    if !bitOf r.arg 12 then (d.setBand die (fun b => { b with rxCal := 1 + r.arg % 2 })).rxCalKick die
    else
      (d.each (List.range 4) (fun d c =>
        let kind :=
          if d.txState die c == 0 then 0
          else if d.txState die c == 7 then (if bitOf r.arg (8 + c) then 3 else 0)
          else if bitOf r.arg c then 1
          else if bitOf r.arg (4 + c) then 2
          else 0
        if kind == 0 then d else d.setChain die c (fun k => { k with cal := kind }))).calKick die
  | 2 => (d.w F.BEN.STAT_BUSY 1).put (pgMaintHeld (argPage r.arg).tag) (argPage r.arg) 1
  | 3 =>
    if r.arg == 1 then (d.w F.FWD.STAT_REHASH 1 (regionDie (r.scope.log2))).w F.FWD.STAT_REQ 0 (regionDie (r.scope.log2))
    else (d.w F.NTB.STAT_REHASH 1 (regionDie (r.scope.log2))).w F.NTB.STAT_REQ 0 (regionDie (r.scope.log2))
  | 4 => d.w F.MNT.SCRUB_STAT_ACTIVE 1
  | 6 => (d.w F.HUD.STAT_REHUDDLE 1).rehuddle
  | 5 => d.startSweep
  | 7 => d.w F.UPD.STAT_ACT_BUSY 1
  | _ => d

/-- Grant one request: it becomes a holder, on a Route die at a MAINT event (R525). -/
def Dev.grant (d : Dev) (r : TokenReq) : Dev :=
  let d := { d with mt := { d.mt with
    held := d.mt.held ++ [r]
    events := d.mt.events ++ (scopeRoutes r.scope).map (fun x => (x, r, true)) } }
  ((d.inc C.MNT.GRANTS).onGrant r).when r.cmd.isSome (fun d =>
    r.cmd.elim d (fun id => d.setCmd id (fun c => if c.stage == .waiting then { c with stage := .sequenced } else c)))

/-- How a request fares (R527). -/
inductive TokenAnswer where
  | granted | queued | merged | full
  deriving DecidableEq, Repr

/-- Whether the mode is one in which grants are made (R529). -/
def Dev.grantMode (d : Dev) : Bool := d.mode == mBringup || d.mode == mService || d.mode == mShadow || d.mode == mQuiesce

/-- Request tokens (R527, R529): granted at once, queued in order of arrival, merged with an equal internal request,
or turned away when all 64 places are taken (an internal trigger is never refused). -/
def Dev.requestToken (d : Dev) (r : TokenReq) : Dev × TokenAnswer :=
  if d.grantMode && d.mt.grantable d.mt.queue r then ((d.grant r).showTokens.showMaint r.scope, .granted)
  else if r.cmd.isNone && d.mt.queue.any (fun q => q.act == r.act && q.scope == r.scope && q.arg == r.arg &&
      q.cmd.isNone) then (d, .merged)
  else if r.cmd.isSome && 64 ≤ d.mt.queue.length then (d, .full)
  else
    let d := { d with mt := { d.mt with queue := d.mt.queue ++ [r] } }
    ((d.inc C.MNT.WAITED).showTokens.showMaint r.scope, .queued)

/-- Grant every queued request that can now be granted, in queue order. -/
def Dev.drainTokens (d : Dev) : Dev :=
  let q := d.mt.queue
  let d := { d with mt := { d.mt with queue := [] } }
  d.each q (fun d r =>
    if d.grantMode && d.mt.grantable d.mt.queue r then d.grant r
    else { d with mt := { d.mt with queue := d.mt.queue ++ [r] } })

/-- Grants are made again when a mode that allows them is entered (R529). -/
def Dev.grantsOpen (d : Dev) : Dev :=
  if d.mt.queue.isEmpty then d else d.drainTokens.showTokens.showMaint (d.mt.queue.foldl (fun m q => m ||| q.scope) 0)

/-- Release the tokens an activity holds over a scope, then grant queued requests (R527). -/
def Dev.releaseToken (d : Dev) (act scope : Nat) : Dev :=
  match d.mt.held.find? (fun r => r.act == act && r.scope == scope) with
  | none => d
  | some r =>
    let d := { d with mt := { d.mt with
      held := d.mt.held.erase r
      events := d.mt.events ++ (scopeRoutes scope).map (fun x => (x, r, false)) } }
    let freed := d.mt.queue.foldl (fun m q => m ||| q.scope) scope
    d.drainTokens.showTokens.showMaint freed

/-- Whether an activity holds the tokens of a scope. -/
def Dev.holds (d : Dev) (act scope : Nat) : Bool := d.mt.held.any (fun r => r.act == act && r.scope == scope)

/-- Whether a command in flight holds its tokens. -/
def Dev.cmdHolds (d : Dev) (id : Nat) : Bool := d.mt.held.any (fun r => r.cmd == some id)

/-- A host request for tokens from a command in flight: granted, queued with an interim BUSY record (R105), or
RANGE with cause 7 when the queue is full. -/
def Dev.cmdToken (d : Dev) (c : Cmd) (act scope arg : Nat) (go : Dev → Dev × Reply) : Dev × Reply :=
  if d.cmdHolds c.id then go d
  else
    let r := d.requestToken ⟨act, scope, some c.id, arg⟩
    match r.2 with
    | .granted => go r.1
    | .full => (r.1, c.bad stRange 7)
    | _ => (r.1.setCmd c.id (fun c => { c with stage := .waiting, interim := true }), c.later)

end Sys2Proof.Machine
end

