-- ==== Sys2Proof/Machine/Camp.lean ====
section
/-! DEFINITION. Node campaigns, the shared part: the record of Table 21-1, what the CMP page shows, and how a campaign ends (R586, R593 to R596, R602). -/

namespace Sys2Proof.Machine
open Sys2Proof

/-! ## The record (Table 21-1) -/

/-- TENANT. -/
def Camp.tenant (c : Camp) : Nat := leAt c.body 0 2 % 4096
/-- IMAGE. -/
def Camp.image (c : Camp) : Nat := leAt c.body 2 1
/-- FLAGS. -/
def Camp.flags (c : Camp) : Nat := leAt c.body 3 1
/-- The band: 0 low, 1 high. -/
def Camp.band (c : Camp) : Nat := bitsOf c.flags 0 1
/-- Octets of a block. -/
def Camp.bsize (c : Camp) : Nat :=
  match bitsOf c.flags 1 2 with
  | 0 => 64
  | 1 => 128
  | 2 => 192
  | _ => 240
/-- Blocks in a frame. -/
def Camp.bpf (c : Camp) : Nat := bitsOf c.flags 3 2 + 1
/-- RATE. -/
def Camp.rate (c : Camp) : Nat := bitsOf c.flags 5 2
/-- GROUP. -/
def Camp.group (c : Camp) : Nat := leAt c.body 4 4
/-- EPOCH. -/
def Camp.epoch (c : Camp) : Nat := leAt c.body 8 1
/-- MICL. -/
def Camp.micl (c : Camp) : Nat := leAt c.body 9 1
/-- MAP. -/
def Camp.map (c : Camp) : Nat := leAt c.body 10 2
/-- CHANNEL. -/
def Camp.channel (c : Camp) : Nat := leAt c.body 12 2
/-- SLOT. -/
def Camp.slot (c : Camp) : Nat := leAt c.body 14 2
/-- NSLOTS. -/
def Camp.nslots (c : Camp) : Nat := leAt c.body 16 1
/-- MAX_ROUNDS. -/
def Camp.maxRounds (c : Camp) : Nat := leAt c.body 17 1
/-- The period in superframes. -/
def Camp.period (c : Camp) : Nat := leAt c.body 18 2 + 1
/-- PHASE. -/
def Camp.phase (c : Camp) : Nat := leAt c.body 20 2
/-- WAIT. -/
def Camp.wait (c : Camp) : Nat := leAt c.body 22 2
/-- START_SF. -/
def Camp.startSf (c : Camp) : Nat := leAt c.body 24 4
/-- FCNT_START. -/
def Camp.fcntStart (c : Camp) : Nat := leAt c.body 28 4
/-- SHARE. -/
def Camp.share (c : Camp) : Nat := leAt c.body 32 1
/-- POWER. -/
def Camp.power (c : Camp) : Nat := leAt c.body 33 1

/-- Whether a campaign is armed, sending, waiting or paused. -/
def Camp.runs (c : Camp) : Bool := 2 ≤ c.state && c.state ≤ 5

/-- Whether a campaign is defined and not finished. -/
def Camp.defined (c : Camp) : Bool := 1 ≤ c.state && c.state ≤ 5

/-- Whether a member is final (R594). -/
def CampMember.final (m : CampMember) : Bool := 1 ≤ m.state

/-- How many members are final. -/
def Camp.finals (c : Camp) : Nat := (c.members.filter (fun m => m.final)).length

/-- Whether every member of a campaign with members is final. -/
def Camp.allFinal (c : Camp) : Bool := !c.members.isEmpty && c.members.all (fun m => m.final)

/-- Whether a slot is a campaign slot of a defined campaign on a band and channel (R587). -/
def Camps.occupies (e : Camps) (band s ch : Nat) : Bool :=
  e.list.any (fun c => c.defined && c.band == band && c.channel == ch && c.slot ≤ s && s < c.slot + c.nslots)

/-! ## Access -/

/-- A campaign that is not EMPTY. -/
def Dev.camp (d : Dev) (cid : Nat) : Option Camp := d.cmp.list.find? (fun c => c.cid == cid)

/-- Change a campaign. -/
def Dev.setCamp (d : Dev) (cid : Nat) (f : Camp → Camp) : Dev :=
  { d with cmp := { d.cmp with list := mapIf (fun c => c.cid == cid) f d.cmp.list } }

/-- A node image. -/
def Dev.img (d : Dev) (i : Nat) : Option NodeImg := d.cmp.images.find? (fun x => x.idx == i)

/-- NB, the block count of a campaign (R586). -/
def Dev.campBlocks (d : Dev) (c : Camp) : Nat := (d.img c.image).elim 0 (fun x => (x.data.length + c.bsize - 1) / c.bsize)

/-- Show engine and campaigns on the page of the engine's die (Table 21-6). -/
def Dev.showCmp (d : Dev) : Dev :=
  let e := d.cmp.engine
  let d := (d.w F.CMP.STAT_ACTIVE (b2n (!d.cmp.lost)) e).w F.CMP.STAT_ENGINE_LOST (b2n d.cmp.lost) e
  let d := (d.w F.CMP.STAT_IMAGES d.cmp.images.length e).w F.CMP.STAT_CAMPAIGNS d.cmp.list.length e
  let d := d.w F.CMP.STAT_MEMBERS (d.cmp.list.foldl (fun n c => n + c.members.length) 0 / 1000) e
  d.each (List.range 32) (fun d i =>
    let c := (d.camp i).getD { cid := i, body := [], state := 0 }
    (((d.w F.CMP.CSTAT_STATE c.state e 0 i).w F.CMP.CSTAT_CAUSE c.cause e 0 i).w F.CMP.CSTAT_ROUND c.round e 0 i).w F.CMP.CSTAT_POINTER c.ptr e 0 i)

/-- A campaign halts with a cause (Table 21-3). -/
def Dev.haltCamp (d : Dev) (cid cause : Nat) : Dev :=
  ((d.setCamp cid (fun c => { c with state := 9, cause := cause })).logRec 0x0C04 2 d.cmp.engine (toLE 1 cid ++ toLE 1 cause)).showCmp

/-- A campaign enters DONE (6) or EXHAUSTED (7) (R593, R594, R601). -/
def Dev.endCamp (d : Dev) (cid state : Nat) : Dev :=
  let d := d.setCamp cid (fun c => { c with state := state })
  match d.camp cid with
  | none => d
  | some c => (d.logRec 0x0C03 1 d.cmp.engine (toLE 1 cid ++ toLE 1 state ++ toLE 1 c.round ++ toLE 4 c.finals)).showCmp

/-- The active engine has failed and no spare remains (R596). -/
def Dev.engineLost (d : Dev) : Dev :=
  let run := (d.cmp.list.filter (fun c => c.runs)).map (fun c => c.cid)
  let d := { d with cmp := { d.cmp with lost := true } }
  ((d.each run (fun d i => d.haltCamp i 3)).showCmp).raise E.CMP.ENGINE_LOST d.cmp.engine

end Sys2Proof.Machine
end

