-- ==== Sys2Proof/Machine/Bench.lean ====
section
/-! DEFINITION. The bench (R518 to R524): unit identity, spares, pace ratios and wear, substitution. -/

namespace Sys2Proof.Machine
open Sys2Proof

/-- Record what the bench manager knows of a unit. -/
def Dev.setUnit (d : Dev) (u : BenchUnit) : Dev :=
  { d with mt := { d.mt with
    units := u :: d.mt.units.filter (fun v => !(v.type == u.type && v.die == u.die && v.index == u.index)) } }

/-- The size of the group of units that share spares (Table 1-4). -/
def groupSize (type : Nat) : Nat :=
  match type with
  | 0 => 8
  | 1 => 5
  | 2 => 34
  | 3 => 5
  | 4 => 512
  | 5 => 3
  | _ => 1

/-- The spares that may replace a unit, lowest index first; the campaign engine's spare is Route-1's (R19). -/
def Dev.sparesFor (d : Dev) (type die index : Nat) : List Nat :=
  if type == 6 then (if die == 1 && (d.unit 6 2 0).state == .spare then [0] else [])
  else
    let g := index / groupSize type * groupSize type
    (List.range (if type == 4 then 258 else groupSize type)).filterMap (fun k =>
      if (d.unit type die (g + k)).state == .spare then some (g + k) else none)

/-- The mask of the units from an index on that satisfy a test of their state. -/
def Dev.unitMask (d : Dev) (type die first n : Nat) (p : UnitState → Bool) : Nat :=
  (List.range n).foldl (fun m k => putBit m k (p (d.unit type die (first + k)).state)) 0

/-- How many bench positions of a bank range or cluster are still spare. -/
def Dev.spareLeft (d : Dev) (type die first n built : Nat) : Nat :=
  built - (d.mt.units.filter (fun u => u.type == type && u.die == die && first ≤ u.index && u.index < first + n &&
    unitAtMake type die u.index == .spare && u.state != .spare)).length

/-- The status fields that show the units of a page: PLY.STAT.ACTIVE and SPARE, CRY.STAT, DEM.SPARE, DEC.STAT and NTB.ROW_SPARE, one bit for each
physical position where the field is a mask (Tables 7-8, 10-4, 11-9 and 12-8, R203, R297, R335, R365). -/
def Dev.showUnit (d : Dev) (type die index : Nat) : Dev :=
  match type with
  | 0 =>
    let c := index / 8
    let spare := d.unitMask 0 die (8 * c) 8 (· == .spare) != 0
    (d.w F.PLY.STAT_ACTIVE (d.unitMask 0 die (8 * c) 8 (· == .active)) die c).w F.PLY.STAT_SPARE (if spare then 1 else 0) die c
  | 1 =>
    let r := index / 5
    (d.w F.CRY.STAT_ACTIVE (d.unitMask 1 die (5 * r) 5 (· == .active)) die r).w F.CRY.STAT_FAILED
      (d.unitMask 1 die (5 * r) 5 (· == .failed)) die r
  | 2 => d.w F.DEM.SPARE_FREE (d.spareLeft 2 die (index / 34 * 34) 34 2) die (index / 34)
  | 3 => d.w F.DEC.STAT_ACTIVE (d.unitMask 3 die (index / 20 * 20) 20 (· == .active)) die (index / 20)
  | 4 => d.w F.NTB.ROW_SPARE_FREE (d.spareLeft 4 die (index / 73728 * 73728) 73728 288) die (index / 73728)
  | _ => d

/-- Every page's unit fields, in the regions that are powered. -/
def Dev.showUnits (d : Dev) : Dev :=
  let d := d.each [1, 2] (fun d die => d.each (List.range 4) (fun d r =>
    d.when (d.regionOn (4 * die + r)) (fun d =>
      (d.each (List.range 4) (fun d c => d.showUnit 0 die (8 * (4 * r + c)))).showUnit 1 die (5 * r) |>.showUnit 4 die (73728 * r))))
  d.each [3, 4] (fun d die => d.each (List.range 4) (fun d r =>
    d.when (d.regionOn (4 * die + r)) (fun d =>
      (d.each (List.range 4) (fun d c => d.showUnit 2 die (34 * (4 * r + c)))).showUnit 3 die (20 * r))))

/-- A unit that was retired without replacement: it failed, and no active unit does its work (R524). -/
def Dev.unserved (d : Dev) (u : BenchUnit) : Bool :=
  u.state == .failed && unitAtMake u.type u.die u.serves == .active &&
    !d.mt.units.any (fun v => v.type == u.type && (v.die == u.die || u.type == 6) && v.serves == u.serves && v.state == .active)

/-- BEN.DEGRADED once the retirement list is applied: the types with a unit retired without replacement (R523, R524). -/
def Dev.showDegraded (d : Dev) : Dev :=
  d.w F.BEN.DEGRADED_TYPES (ofBits ((List.range 7).filter (fun t => d.mt.units.any (fun u => u.type == t && d.unserved u))))

/-- The scope of the tokens a substitution takes (Table 18-6). -/
def substScope (type die index : Nat) : Nat :=
  match type with
  | 0 => 2 ^ (4 * die + index / 32)
  | 1 => 2 ^ (4 * die + index / 5)
  | 2 => 2 ^ (4 * die + index / 136)
  | 3 => 2 ^ (4 * die + index / 20)
  | 4 => 2 ^ (4 * die + index / 512 / 144)
  | 5 => 2 ^ 1
  | _ => dieScope die

/-- The log data of code 0x0601 (Table 19-4). -/
def substData (type die old new cause : Nat) : List Byte :=
  toLE 1 type ++ toLE 1 die ++ toLE 4 old ++ toLE 4 new ++ toLE 1 cause

/-- A failed or worn unit with no spare (R524, Table 18-5): a failed engine, crypto engine, channel unit, decoder or
campaign engine is retired; a table row, a lane and a worn unit stay in service. -/
def Dev.noSpare (d : Dev) (type die index cause : Nat) : Dev :=
  let u := d.unit type die index
  let retire := cause == 0 && (type ≤ 3 || type == 6)
  let d := d.setUnit { u with state := if retire then .failed else u.state }
  let d := d.w F.BEN.DEGRADED_TYPES (putBit (d.g F.BEN.DEGRADED_TYPES) type true)
  let d := d.when (retire && type != 6) (fun d => d.showUnit type die index)
  let d := d.when (retire && type == 6) (fun d => d.engineLost)
  let d := d.inc C.BEN.NO_SPARE
  (d.logRec 0x0601 2 die (substData type die index 0xFFFFFFFF cause)).raise E.BEN.NO_SPARE

/-- Ask for the substitution of a unit for failure (0) or wear (1), by the policy of BEN.CFG.MODE; failed Voxnen lanes are handled by the link itself (R521,
R522). -/
def Dev.wantSubst (d : Dev) (type die index cause : Nat) : Dev :=
  let mode := d.g F.BEN.CFG_MODE
  let allowed := mode == 2 || (mode == 1 && cause == 0)
  if !allowed || (type == 5 && cause == 0) || (d.unit type die index).state != .active then d
  else if (d.sparesFor type die index).isEmpty then d.noSpare type die index cause
  else (d.requestToken ⟨2, substScope type die index, none, substArg type die index cause⟩).1

/-- A unit is judged failed (R520). -/
def Dev.unitFailed (d : Dev) (type die index : Nat) : Dev :=
  d.wantSubst type die index 0

/-- The number of the BEN.CORR_CFG.WIN window of local time that runs (R519). -/
def Dev.corrWindow (d : Dev) : Nat := d.time.lt / (max 1 (d.g F.BEN.CORR_CFG_WIN) * 1000000 * tickUs)

/-- A unit's corrected errors in the window that runs (R519, Table 18-10). -/
def Dev.corrOf (d : Dev) (u : BenchUnit) : Nat := if u.corrWin == d.corrWindow then u.corr else 0

/-- A unit's corrected errors rise; it is worn when the count within the window reaches the limit (R519). Table rows count in NTB.ECC_CORR as well.
A lane of type 7, index 32 × region + lane, is one of the lanes of R346: at the limit it raises LANE_WEAR and is reported (R520). A worn Voxnen lane is substituted as
any other unit (R456). -/
def Dev.unitCorrected (d : Dev) (type die index n : Nat) : Dev :=
  let u := d.unit type die index
  let old := d.corrOf u
  let d := d.setUnit { u with corr := old + n, corrWin := d.corrWindow }
  let d := d.when (type == 4) (fun d => d.addc C.NTB.ECC_CORR n die (index / 73728))
  let lim := if type == 4 then d.g F.BEN.ROW_CFG_ROW_LIM else d.g F.BEN.CORR_CFG_CORR_LIM
  if lim != 0 && old < lim && lim ≤ old + n then
    match type with
    | 7 => (d.inc C.BEN.LANE_WEAR).raise E.BEN.LANE_WEAR
    | _ => d.wantSubst type die index 1
  else d

/-- The corrected errors that a pace reading reports of its unit. -/
def Dev.corrStep (d : Dev) (r : PaceReading) : Dev := if r.corr == 0 then d else d.unitCorrected r.type r.die r.index r.corr

/-- The lower median of a list. -/
def lowerMedian (l : List Nat) : Nat :=
  let s := l.mergeSort (· ≤ ·)
  s.getD ((s.length - 1) / 2) 0

/-- The pace ratio of a unit: 256 × pace / median, rounded down (R519). -/
def paceRatio (pace median : Nat) : Nat := if median == 0 then 0 else 256 * pace / median

/-- One unit's pace ratio, drop and wear at a pace-monitor interval (R519). -/
def Dev.wearStep (d : Dev) (r : PaceReading) (pace median : Nat) : Dev :=
  let u := d.unit r.type r.die r.index
  let ratio := paceRatio pace median
  let drop := d.g F.BEN.WEAR_CFG_PACE_DROP
  let hit := drop != 0 && u.state == .active && drop ≤ u.birth - ratio
  let low := if hit then u.low + 1 else 0
  let worn := hit && d.g F.BEN.WEAR_CFG_CONFIRM ≤ low
  let d := d.setUnit { u with pace := pace, ratio := ratio, low := low, worn := worn }
  if worn && !u.worn then d.wantSubst r.type r.die r.index 1 else d

/-- The counter of a completed substitution by cause. -/
def substCtr (cause : Nat) : Ctr :=
  match cause with
  | 0 => C.BEN.SUBST_FAIL
  | 1 => C.BEN.SUBST_WEAR
  | _ => C.BEN.SUBST_HOST

/-- The switch-over of a unit that is still active: rejected spares are marked, the first that passes takes over, the old unit is retired, the
tokens are released; with every spare rejected the unit has no spare (R522, Table 18-4). -/
def Dev.switchActive (d : Dev) (type die old cause : Nat) (cmd : Option Nat) (sparesOk : List Bool) : Dev :=
  let sp := (d.sparesFor type die old).zip (sparesOk ++ List.replicate 4 true)
  let newDie := if type == 6 then 2 else die
  let failed := (sp.takeWhile (fun x => !x.2)).map (·.1)
  let d := d.each failed (fun d i =>
    ((d.setUnit { d.unit type newDie i with state := .rejected }).inc C.BEN.SPARE_REJECT).raise E.BEN.SPARE_REJECT)
  let d := d.put (pgMaintHeld (unitPage type die old).tag) (unitPage type die old) 0
  let d := d.w F.BEN.STAT_BUSY 0
  match (sp.find? (·.2)) with
  | some (i, _) =>
    let d := d.setUnit { d.unit type newDie i with state := .active, serves := (d.unit type die old).serves }
    let d := d.setUnit { d.unit type die old with state := if cause == 1 then .worn else .failed }
    let d := ((d.showUnit type die old).inc (substCtr cause)).logRec 0x0601 1 die (substData type die old i cause)
    let d := (d.fireVec 14).releaseToken 2 (substScope type die old)
    cmd.elim d (fun id => d.finish id { tryM := 4, okM := 4, result := i * 65536 })
  | none =>
    let d := ((d.showUnit type die old).noSpare type die old cause).releaseToken 2 (substScope type die old)
    cmd.elim d (fun id => d.finish id { tryM := 4, okM := 0, fail := stRange, result := 3 })

/-- The switch-over: a unit that an earlier substitution has already retired is not replaced again, so that a position has one active unit (Table 1-4); its
tokens are released, and a command ends with RANGE, cause 1 (R531). -/
def Dev.switchOver (d : Dev) (type die old cause : Nat) (cmd : Option Nat) (sparesOk : List Bool) : Dev :=
  if (d.unit type die old).state == .active then d.switchActive type die old cause cmd sparesOk
  else
    let d := (d.put (pgMaintHeld (unitPage type die old).tag) (unitPage type die old) 0).w F.BEN.STAT_BUSY 0
    let d := d.releaseToken 2 (substScope type die old)
    cmd.elim d (fun id => d.finish id { tryM := 4, okM := 0, fail := stRange, result := 1 })

/-! ## Meanings of the fault, bench and maintenance family -/

/-- STICKY_CLEAR: writing 1 to a sticky bit clears it (R512). PG_ERR_STICKY stays writable on a locked page (R89). -/
def execStickyClear (die page bits : Nat) (s : State) : Answer :=
  run s (fun d => d.pageWrite die page 0x010 false (fun d p => d.stickyClear p bits))

/-- ERROR_FORCE: while injection is enabled, a force bit fires its source (R517). -/
def execErrorForce (die page bits : Nat) (s : State) : Answer :=
  run s (fun d => d.pageWrite die page 0x014 true (fun d p => d.force p bits))

/-- REACT_CODE_WRITE: reaction codes are written; 6 and 7 are ignored (R81, R512). -/
def execReactCodeWrite (die page : Nat) (hi : Bool) (data : Nat) (s : State) : Answer :=
  run s (fun d => d.pageWrite die page (if hi then 0x01C else 0x018) true (fun d p => d.reactWrite p hi data))

/-- COLLECTOR_CLEAR: writing 1 to a collector bit clears it when its input is no longer asserted (R514). -/
def execCollectorClear (off data : Nat) (s : State) : Answer :=
  run s (fun d => d.pageWrite 0 0x002 off false (fun d _ =>
    if off == 0x040 then d.clearPkg data
    else if 0x044 ≤ off && off < 0x060 && off % 4 == 0 then d.clearDie ((off - 0x044) / 4) data
    else if 0x060 ≤ off && off < 0x0C0 && off % 4 == 0 then d.clearRegion ((off - 0x060) / 4) data
    else d))

/-- FIRST_CLEAR: writing FCL.FIRST_CLR clears FIRST (R515). -/
def execFirstClear (data : Nat) (s : State) : Answer :=
  run s (fun d => d.pageWrite 0 0x002 0x0C4 true (fun d _ =>
    d.when (bitOf data 0) (fun d =>
      (((d.w F.FCL.FIRST_DIE 0).w F.FCL.FIRST_PAGE 0).w F.FCL.FIRST_SRC 0).w F.FCL.FIRST_VALID 0)))

/-- ERRN_LATCH_CLEAR: writing 1 to ERRN.LATCH clears it when no code-5 sticky bit remains (R516). -/
def execErrnLatchClear (data : Nat) (s : State) : Answer :=
  run s (fun d => d.pageWrite 0 0x002 0x0C8 true (fun d _ =>
    d.when (bitOf data 0 && !d.code5Left) (fun d => (d.w F.FCL.ERRN_LATCH 0).errNFollow)))

/-- TOKEN_REQUEST: an activity requests its maintenance tokens; it is granted or queued (R527). -/
def execTokenRequest (act scope arg : Nat) (s : State) : Answer :=
  run s (fun d => if 1 ≤ act && act ≤ 7 && scope != 0 then (d.requestToken ⟨act, scope, none, arg⟩).1 else d)

/-- TOKEN_RELEASE: an activity releases its tokens and queued requests are granted in order (R525, R527). -/
def execTokenRelease (act scope : Nat) (s : State) : Answer := run s (fun d => d.releaseToken act scope)

/-- BEN_SUBST, command 0x0801: substitutes a named active unit (R522, R531). -/
def execBenSubst (id : Nat) (s : State) : Answer :=
  run s (fun d => d.runCmd 0x0801 id false
    (fun d c => if d.cmdHolds c.id then none else if unitExists (c.par 24 1) (c.par 25 1) (c.par 28 4) &&
        (d.unit (c.par 24 1) (c.par 25 1) (c.par 28 4)).state == .active then
          (if (d.sparesFor (c.par 24 1) (c.par 25 1) (c.par 28 4)).isEmpty then some 2 else none)
        else some 1)
    (fun d c =>
      let t := c.par 24 1
      let x := c.par 25 1
      let i := c.par 28 4
      d.cmdToken c 2 (substScope t x i) (substArg t x i 2) (fun d => (d, c.later))))

/-- The code of a unit's state (Table 18-10). -/
def UnitState.code : UnitState → Nat
  | .active => 0
  | .spare => 1
  | .worn => 2
  | .failed => 3
  | .rejected => 4

/-- A bench record (Table 18-10). -/
def Dev.benchRecord (d : Dev) (u : BenchUnit) : List Byte :=
  let noPace := u.type == 4 || u.type == 5
  toLE 1 u.type ++ toLE 1 u.die ++ toLE 1 u.state.code ++ [0#8] ++ toLE 4 u.index ++
    toLE 2 (if noPace then 0 else min u.birth 1023) ++ toLE 2 (if noPace then 0 else min u.ratio 1023) ++
    toLE 2 (min (d.corrOf u) 65535) ++ toLE 2 0

/-- BEN_READ, command 0x0802: writes bench records (R531). -/
def execBenRead (id : Nat) (dmaErr : Bool) (s : State) : Answer :=
  runHost s (fun h d => d.runCmdH h 0x0802 id dmaErr
    (fun _ c => if 4096 < c.cnt || c.len != 16 * c.cnt then some 0
      else if (unitDies (c.par 24 1)).contains (c.par 25 1) && c.par 28 4 + c.cnt ≤ unitCount (c.par 24 1) then none else some 1)
    (fun _ d c => (d, c.ok,
      (List.range c.cnt).flatMap (fun k => d.benchRecord (d.unit (c.par 24 1) (c.par 25 1) (c.par 28 4 + k))))))

/-- Start the next slice of a scrub pass, under the token of its region (R528). -/
def Dev.scrubNext (d : Dev) : Dev :=
  match d.mt.scrubTodo with
  | [] => d.w F.MNT.SCRUB_STAT_ACTIVE 0
  | r :: _ => (d.requestToken ⟨4, 2 ^ r.1, none, r.1⟩).1.w F.MNT.SCRUB_STAT_NEXT r.1

/-- The regions of scrubs added behind those that are still to be visited. -/
def Dev.scrubAdd (d : Dev) (l : List (Nat × Option Nat)) : Dev := { d with mt := { d.mt with scrubTodo := d.mt.scrubTodo ++ l } }

/-- SCRUB_PASS_START: every PERIOD minutes a pass over regions 0 to 23 starts, behind the scrubs that hosts asked for; one pass runs at a time (R528). -/
def execScrubPassStart (s : State) : Answer :=
  run s (fun d =>
    if d.g F.MNT.SCRUB_CFG_PERIOD == 0 || d.mt.scrubTodo.any (fun e => e.2.isNone) then d
    else
      let pass := ((List.range 24).filter (fun r => d.regionOn r)).map (fun r => (r, (none : Option Nat)))
      if d.mt.scrubTodo.isEmpty then (d.scrubAdd pass).scrubNext else d.scrubAdd pass)

/-- SCRUB_SLICE_DONE: a slice ends, its region's token is released and the next region follows; the command whose last region it was completes (R528). -/
def execScrubSliceDone (corrected : Nat) (s : State) : Answer :=
  run s (fun d =>
    match d.mt.scrubTodo with
    | [] => d
    | r :: rest =>
      if !d.holds 4 (2 ^ r.1) then d
      else
        let d := { d with mt := { d.mt with scrubTodo := rest } }.addc C.MNT.SCRUB_CORR corrected
        let d := (d.releaseToken 4 (2 ^ r.1)).scrubNext
        if rest.any (fun e => e.2 == r.2) then d
        else r.2.elim d (fun id => d.finish id { tryM := 4, okM := 4 }))

/-- A host's scrub of regions: its first slice asks for its token at once, or it waits behind the scrubs under way; one that is not granted at once writes
its interim record, and a full queue refuses it (R527, R528). -/
def Dev.scrubHost (d : Dev) (c : Cmd) (mask : Nat) : Dev × Reply :=
  let mine := (bitList 24 mask).map (fun r => (r, some c.id))
  let wait := fun (d : Dev) => d.setCmd c.id (fun c => { c with stage := .waiting, interim := true })
  if d.mt.scrubTodo.any (fun e => e.2 == some c.id) then (d, c.later)
  else if !d.mt.scrubTodo.isEmpty then (wait (d.scrubAdd mine), c.later)
  else
    let r := (bitList 24 mask).headD 0
    let a := d.requestToken ⟨4, 2 ^ r, some c.id, r⟩
    match a.2 with
    | .full => (a.1, c.bad stRange 7)
    | .granted => ((a.1.scrubAdd mine).w F.MNT.SCRUB_STAT_NEXT r, c.later)
    | _ => (wait ((a.1.scrubAdd mine).w F.MNT.SCRUB_STAT_NEXT r), c.later)

/-- MNT_SCRUB, command 0x0803: scrubs each region in the mask once (R528, R531). -/
def execMntScrub (id : Nat) (s : State) : Answer :=
  run s (fun d => d.runCmd 0x0803 id false noRange
    (fun d c => d.scrubHost c (c.par 24 4 % 2 ^ 24)))

/-- MAINT: a token grant or release takes its place as a MAINT event in a Route die's order (R525, Table 12-1). -/
def Dev.maintEvent (d : Dev) (die : Nat) : Option (TokenReq × Bool) :=
  (d.mt.events.find? (fun e => e.1 == die)).map (·.2)

end Sys2Proof.Machine
end

