-- ==== Sys2Proof/Machine/Node.lean ====
section
/-! DEFINITION. Node table, cold store, cede records and forwarding table: keys and hashes, records in their octet form, lookup,
insertion with relocation, creation and removal (R299 to R325, R471). -/

namespace Sys2Proof.Machine
open Sys2Proof

/-! ## Route dies -/

/-- A Route die's state. -/
def Dev.route (d : Dev) (die : Nat) : Route := d.routes.getD (die - 1) {}
/-- Change a Route die's state. -/
def Dev.setRoute (d : Dev) (die : Nat) (f : Route → Route) : Dev := { d with routes := modAt d.routes (die - 1) f }
/-- Whether a number names a Route die. -/
def isRoute (die : Nat) : Bool := die == 1 || die == 2
/-- The other Route die. -/
def otherRoute (die : Nat) : Nat := 3 - die

/-! ## Keys and hashes (R299 to R301, R305, R315, R319, R471) -/

/-- The six octets K6 of a node key (R299). -/
def NodeKey.k6 (k : NodeKey) : List Byte := toBE 4 k.tag ++ toBE 2 (k.tenant % 4096)

/-- The Route die that owns a node (R300). -/
def NodeKey.owner (k : NodeKey) : Nat := 1 + crc32cStd k.k6 % 2

/-- The two buckets of a key among `n` under a seed (R305, R319). -/
def hashBuckets (n seed : Nat) (bs : List Byte) : Nat × Nat :=
  let b1 := crc32c seed bs * n / 2 ^ 32
  let b2 := crc32c (seed ^^^ 0x9E3779B9) bs * n / 2 ^ 32
  (b1, if b2 == b1 then (b1 + 1) % n else b2)

/-- Buckets of a node table (R305), and of a forwarding table (R319). -/
def ntbBuckets : Nat := 147456
/-- See `ntbBuckets`. -/
def fwdBuckets : Nat := 16384

/-- A node key's cold buckets among 2^lg (R315). -/
def coldBuckets (lg : Nat) (k : NodeKey) : Nat × Nat :=
  let c1 := crc32cStd k.k6 / 2 ^ (32 - lg)
  let c2 := crc32c 0x9E3779B9 k.k6 / 2 ^ (32 - lg)
  (c1, if c2 == c1 then (c1 + 1) % 2 ^ lg else c2)

/-- The bucket of a cede record (R471). -/
def cedeBucket (k : NodeKey) : Nat := crc32c 0x5BD1E995 k.k6 / 2 ^ 19

/-- The RPL prefix as a 64-bit number (Table 11-12). -/
def Dev.prefix64 (d : Dev) (die : Nat) : Nat := d.g F.SRC.PREFIX_HI_P die * 2 ^ 32 + d.g F.SRC.PREFIX_LO_P die

/-- A node's IPv6 address as a number (R301). -/
def Dev.nodeAddr (d : Dev) (die : Nat) (k : NodeKey) : Nat :=
  d.prefix64 die * 2 ^ 64 + (k.tenant % 4096) * 2 ^ 32 + k.tag

/-- Dravina's own address in the instance, the DODAGID (R301, R326). -/
def Dev.ownAddr (d : Dev) (die : Nat) : Nat := d.prefix64 die * 2 ^ 64 + 2 ^ 48

/-- The node that an interface identifier names (R301). -/
def iidNode (iid : Nat) : Option NodeKey :=
  if iid / 2 ^ 48 != 0 || 0x0FFF < iid / 2 ^ 32 % 2 ^ 16 then none else some ⟨iid % 2 ^ 32, iid / 2 ^ 32 % 2 ^ 16⟩

/-- The node that an address inside the prefix names (R301). -/
def Dev.addrNode (d : Dev) (die addr : Nat) : Option NodeKey :=
  if addr / 2 ^ 64 != d.prefix64 die || addr == d.ownAddr die then none else iidNode (addr % 2 ^ 64)

/-! ## Records as octets (Tables 11-2 to 11-4) -/

/-- Put a flag at a bit of a number. -/
def flag (b : Bool) (i : Nat) : Nat := if b then 2 ^ i else 0

/-- A slot's 16 octets; DETAIL is 0 in a cold record, OVF is 0 in a resident one (R314). -/
def NodeEnt.slotBytes (e : NodeEnt) (cold : Bool) : List Byte :=
  toLE 16 (e.key.tag + (e.key.tenant % 4096) * 2 ^ 32 + 2 ^ 44 + flag e.ver 45 + flag e.pin 46 + flag e.leg 47 +
    (e.epoch % 256) * 2 ^ 48 + (if cold then 0 else e.detail * 2 ^ 56) + flag e.rpv 76 + flag (cold && e.ovf) 77 +
    (e.ulFcnt % 2 ^ 32) * 2 ^ 80 + (e.age % 65536) * 2 ^ 112)

/-- A detail record's 64 octets (Table 11-3). -/
def Detail.bytes (t : Detail) : List Byte :=
  padTo 64 (toLE 4 t.dlFcnt ++
    toLE 2 (t.map % 4096 + flag t.mpin 12 + flag t.mapNew 13 + flag t.classP 14 + flag t.classW 15) ++
    toLE 1 (t.wakeIdx % 8 + flag t.desync 3 + (t.unack % 4) * 16 + flag t.ref 6) ++
    toLE 1 (t.lastBand % 2 + flag t.assigned 1 + (t.aBand % 2) * 4 + flag t.listen 3 + flag t.apin 4) ++
    toLE 2 t.wakeCode ++ toLE 2 (t.lastCh % 512) ++ toLE 2 (t.aSlot % 4096) ++ toLE 2 (t.aCh % 512) ++
    toLE 2 t.aPeriod ++ toLE 2 t.aPhase ++ toLE 2 (ofSigned 16 t.drift) ++ toLE 2 (ofSigned 16 t.oLast) ++
    toLE 8 t.tLast ++ toLE 4 t.rxFrames ++ toLE 4 t.txFrames ++ toLE 1 (ofSigned 8 t.lastSnr))

/-- A route record's 16 octets (Table 11-4). -/
def RouteRec.bytes (r : RouteRec) : List Byte :=
  padTo 16 (toLE 4 r.parent.tag ++ toLE 2 (r.parent.tenant % 4096 + flag r.pvalid 12 + flag r.proot 13) ++
    toLE 1 r.pseq ++ toLE 1 0 ++ toLE 4 r.pexp)

/-- The 96 octets of a node's three parts (Table 11-8). -/
def NodeEnt.bytes (e : NodeEnt) (cold : Bool) : List Byte := e.slotBytes cold ++ e.det.bytes ++ e.rt.bytes

/-- A cold record's 128 octets (R314). -/
def NodeEnt.coldBytes (e : NodeEnt) : List Byte := padTo 128 (e.bytes true ++ toLE 4 e.coldTime)

/-- A detail record from its octets. -/
def Detail.ofBytes (b : List Byte) : Detail :=
  let w := leAt b 4 2
  let x := leAt b 6 1
  let y := leAt b 7 1
  { dlFcnt := leAt b 0 4, map := bitsOf w 0 12, mpin := bitOf w 12, mapNew := bitOf w 13, classP := bitOf w 14,
    classW := bitOf w 15, wakeIdx := bitsOf x 0 3, desync := bitOf x 3, unack := bitsOf x 4 2, ref := bitOf x 6,
    lastBand := bitsOf y 0 1, assigned := bitOf y 1, aBand := bitsOf y 2 1, listen := bitOf y 3, apin := bitOf y 4,
    wakeCode := leAt b 8 2, lastCh := bitsOf (leAt b 10 2) 0 9, aSlot := bitsOf (leAt b 12 2) 0 12,
    aCh := bitsOf (leAt b 14 2) 0 9, aPeriod := leAt b 16 2, aPhase := leAt b 18 2, drift := sext 16 (leAt b 20 2),
    oLast := sext 16 (leAt b 22 2), tLast := leAt b 24 8, rxFrames := leAt b 32 4, txFrames := leAt b 36 4,
    lastSnr := sext 8 (leAt b 40 1) }

/-- A route record from its octets. -/
def RouteRec.ofBytes (b : List Byte) : RouteRec :=
  let w := leAt b 4 2
  { parent := ⟨leAt b 0 4, bitsOf w 0 12⟩, pvalid := bitOf w 12, proot := bitOf w 13, pseq := leAt b 6 1, pexp := leAt b 8 4 }

/-- A slot's key. -/
def slotKey (b : List Byte) : NodeKey := ⟨leAt b 0 4, bitsOf (leAt b 4 2) 0 12⟩

/-- An entry from 96 octets; DETAIL and VER are ignored (Table 11-8). -/
def NodeEnt.ofBytes (b : List Byte) : NodeEnt :=
  let s := leAt b 0 16
  { pos := 0, key := slotKey b, pin := bitOf s 46, leg := bitOf s 47, epoch := bitsOf s 48 8, rpv := bitOf s 76,
    ulFcnt := bitsOf s 80 32, age := bitsOf s 112 16, det := Detail.ofBytes (sliceB b 16 64),
    rt := RouteRec.ofBytes (sliceB b 80 16) }

/-- A forwarding entry's 32 octets (Table 11-6). -/
def FwdEnt.bytes (e : FwdEnt) : List Byte :=
  let key := if e.kind == 2 then e.key * 2 ^ 32 else (e.key % 2 ^ 48) * 2 ^ 32
  toLE 32 (e.kind % 4 + 4 + flag e.ver 3 + flag e.static 4 + (e.plen % 256) * 2 ^ 8 + (e.vlan % 4096) * 2 ^ 16 + key +
    (e.age % 65536) * 2 ^ 160 + (e.port % 32) * 2 ^ 176 + (e.dest % 4) * 2 ^ 181 + (e.action % 4) * 2 ^ 183 +
    (e.dev % 64) * 2 ^ 185 + (e.sub % 4096) * 2 ^ 192 + (e.cls % 8) * 2 ^ 204 + flag e.clsEn 207 + (e.nhMac % 2 ^ 48) * 2 ^ 208)

/-- A prefix with the bits beyond its length cleared. -/
def maskPfx (plen key : Nat) : Nat := key / 2 ^ (128 - plen) * 2 ^ (128 - plen)

/-- A forwarding entry from its octets. -/
def FwdEnt.ofBytes (b : List Byte) : FwdEnt :=
  let w := leAt b 0 32
  let kind := bitsOf w 0 2
  let plen := if kind == 2 then bitsOf w 8 8 else 0
  { pos := 0, kind := kind, ver := bitOf w 3, static := bitOf w 4, plen := plen,
    vlan := if kind == 0 then bitsOf w 16 12 else 0,
    key := if kind == 2 then maskPfx plen (bitsOf w 32 128) else if kind == 1 then bitsOf w 32 6 else bitsOf w 32 48,
    age := bitsOf w 160 16, port := bitsOf w 176 5, dest := bitsOf w 181 2, action := bitsOf w 183 2, dev := bitsOf w 185 6,
    sub := bitsOf w 192 12, cls := bitsOf w 204 3, clsEn := bitOf w 207, nhMac := bitsOf w 208 48 }

/-- The key octets K_F of a forwarding entry (R319). The order of the VLAN octets is most significant first, as for K6. -/
def FwdEnt.kf (e : FwdEnt) : List Byte :=
  match e.kind with
  | 0 => toBE 1 0 ++ toBE 2 e.vlan ++ toBE 6 e.key
  | 1 => toBE 1 1 ++ toBE 1 e.key
  | _ => toBE 1 2 ++ toBE 1 e.plen ++ (toBE 16 e.key).take ((e.plen + 7) / 8)

/-- Whether two forwarding entries have one key. -/
def FwdEnt.same (a b : FwdEnt) : Bool := a.kind == b.kind && a.vlan == b.vlan && a.plen == b.plen && a.key == b.key

/-! ## Placement (R308) -/

/-- The lowest free place of a bucket of four. -/
def freeIn (used : List Nat) (b : Nat) : Option Nat := ([4 * b, 4 * b + 1, 4 * b + 2, 4 * b + 3] : List Nat).find? (fun p => !used.contains p)

/-- The relocation path of R308: `alt` gives the other bucket of the entry at a place. Answers RELOC_PTR and the path, each place with the
bucket its entry moves to. -/
def relocPath (alt : Nat → Nat) (used : List Nat) : Nat → Nat → Nat → List (Nat × Nat) → Nat × Option (List (Nat × Nat))
  | 0, _, ptr, _ => (ptr, none)
  | n + 1, b, ptr, path =>
    match (([0, 1, 2, 3] : List Nat).map (fun i => 4 * b + (ptr + i) % 4)).find? (fun p => !path.any (fun e => e.1 == p)) with
    | none => (ptr + 1, none)
    | some p =>
      let a := alt p
      if (freeIn used a).isSome then (ptr + 1, some (path ++ [(p, a)]))
      else relocPath alt used n a (ptr + 1) (path ++ [(p, a)])

/-- The moves of a path, last first: each old place with its new one. -/
def pathMoves (used : List Nat) (path : List (Nat × Nat)) : List (Nat × Nat) :=
  (path.reverse.foldl (fun (a : List Nat × List (Nat × Nat)) e =>
    match freeIn a.1 e.2 with
    | some q => ((q :: a.1).filter (fun p => p != e.1), a.2 ++ [(e.1, q)])
    | none => a) (used, [])).2

/-- The bucket of a key that is not `b`, under the first of the seeds that places it in `b`. -/
def altBucket (n : Nat) (seeds : List Nat) (bs : List Byte) (b : Nat) : Nat :=
  match (seeds.map (fun s => hashBuckets n s bs)).find? (fun x => x.1 == b || x.2 == b) with
  | some x => if x.1 == b then x.2 else x.1
  | none => b

/-! ## The migration in progress (R318) -/

/-- The migration of a table, if one runs. -/
def Dev.migOf (d : Dev) (die table : Nat) : Option Migration := (d.route die).mig.find? (fun m => m.table == table)

/-- The seeds in use, the one that new insertions use first (R318). -/
def Dev.seeds (d : Dev) (die table : Nat) : List Nat :=
  let old := if table == 0 then d.g F.NTB.SEED die else d.g F.FWD.SEED die
  match d.migOf die table with
  | some m => [m.seed, old]
  | none => [old]

/-- An MSI-X message that an event of a Route die sends: on a PRIMARY that journals it goes out once the event's record is acknowledged (R490). -/
def Dev.fireEv (d : Dev) (die vec : Nat) : Dev :=
  if d.on F.ING.JOURNAL_EN die && d.g F.TWN.STAT_STATE == 2 then
    { d with tw := { d.tw with vecs := d.tw.vecs ++ [(die, (d.route die).seq - 1, vec)] } }
  else d.fireVec vec

/-- What waits for no acknowledgement any more goes out: the messages of events below `seq` of a die (R490). -/
def Dev.freeVecs (d : Dev) (f : Nat × Nat × Nat → Bool) : Dev :=
  let d' := { d with tw := { d.tw with vecs := d.tw.vecs.filter (fun x => !f x) } }
  d'.each (d.tw.vecs.filter f) (fun d x => d.fireVec x.2.2)

/-- Whether an event's record on a PRIMARY waits for its acknowledgement (R490). -/
def Dev.recordWaits (d : Dev) (die seq : Nat) : Bool :=
  d.g F.TWN.STAT_STATE == 2 && d.on F.ING.JOURNAL_EN die && (d.route die).acked ≤ seq

/-- A rehash request: STAT.REQ, its cause, and vector 15 (R309, R317). -/
def Dev.rehashReq (d : Dev) (die table cause : Nat) : Dev :=
  let d := if table == 0 then (d.w F.NTB.STAT_REQ 1 die).w F.NTB.REQ_CAUSE_CAUSE cause die else d.w F.FWD.STAT_REQ 1 die
  d.fireEv die 15

/-! ## Views of the tables in registers (Tables 11-10 to 11-12) -/

/-- Show the population count on both dies (R310). -/
def Dev.showPop (d : Dev) : Dev := (d.w F.NTB.POP_N d.pop 1).w F.NTB.POP_N d.pop 2

/-- Show resident, cold and route counts and the slots used in each region. -/
def Dev.showNodes (d : Dev) (die : Nat) : Dev :=
  let r := d.route die
  let d := ((d.w F.NTB.STAT_RESIDENT r.nodes.length die).w F.NTB.COLD_STAT_COLD r.cold.length die).w F.NTB.COLD_STAT_OVF
    (min 1023 (r.cold.filter (fun e => e.ovf)).length) die
  let d := d.w F.SRC.STAT_PVALID_N (r.nodes.filter (fun e => e.rt.pvalid)).length die
  (d.each (List.range 4) (fun d q => d.w F.NTB.BANK_STAT_USED (r.nodes.filter (fun e => e.pos / 4 % 4 == q)).length die q)).showPop

/-- The distinct prefix lengths of a forwarding table, longest first (R321). -/
def plens (l : List FwdEnt) : List Nat :=
  ((List.range 129).reverse).filter (fun n => l.any (fun e => e.kind == 2 && e.plen == n))

/-- Show the forwarding table's use and prefix lengths. -/
def Dev.showFwd (d : Dev) (die : Nat) : Dev :=
  let l := (d.route die).fwd
  let ps := plens l
  (d.w F.FWD.STAT_USED l.length die).each (List.range 8) (fun d i =>
    (d.w F.FWD.PLEN_LIST_LEN (ps.getD i 0) die 0 i).w F.FWD.PLEN_LIST_VALID (b2n (i < ps.length)) die 0 i)

/-! ## Nodes -/

/-- The resident entry of a key. -/
def Dev.resident (d : Dev) (k : NodeKey) : Option NodeEnt := (d.route k.owner).nodes.find? (fun e => e.key == k)
/-- The cold record of a key. -/
def Dev.coldRec (d : Dev) (k : NodeKey) : Option NodeEnt := (d.route k.owner).cold.find? (fun e => e.key == k)
/-- The entry of a key, resident or cold. -/
def Dev.nodeOf (d : Dev) (k : NodeKey) : Option NodeEnt :=
  match d.resident k with
  | some e => some e
  | none => d.coldRec k

/-- Change a node's entry where it stands. -/
def Dev.setNode (d : Dev) (k : NodeKey) (f : NodeEnt → NodeEnt) : Dev :=
  d.setRoute k.owner (fun r =>
    if r.nodes.any (fun e => e.key == k) then { r with nodes := mapIf (fun e => e.key == k) f r.nodes }
    else { r with cold := mapIf (fun e => e.key == k) f r.cold })

/-- A lookup by a play and its counts (R306). -/
def Dev.lookup (d : Dev) (k : NodeKey) : Dev × Option NodeEnt :=
  let e := d.resident k
  ((d.inc C.NTB.LOOKUPS k.owner).when e.isSome (fun d => d.inc C.NTB.HITS k.owner), e)

/-- A place of the population count is returned (R310). -/
def Dev.popBack (d : Dev) : Dev := { d with pop := d.pop - 1 }.showPop

/-- The most resident nodes (R29, Table 1-9). -/
def Dev.popMax (d : Dev) : Nat := if d.boot.popRunning == 0 then 262144 else 1048576

/-- The lowest free detail index (R302). -/
def freeDetail (l : List NodeEnt) : Nat :=
  (List.range (l.length + 1)).find? (fun i => !l.any (fun e => e.detail == i)) |>.getD 0

/-- The cold store's bucket count exponent; 0 when disabled (R314). -/
def Dev.coldLg (d : Dev) (die : Nat) : Nat := d.g F.NTB.COLD_CFG_SIZE_LOG2 die

/-- Write a record into the cold store (R315): the lowest free record of c1, then of c2, else the oldest non-OVF record is evicted;
none when the store is disabled or both buckets hold only OVF records. -/
def Dev.coldPut (d : Dev) (die : Nat) (e : NodeEnt) : Option Dev :=
  let lg := d.coldLg die
  if lg == 0 then none
  else
    let r := d.route die
    let b := coldBuckets lg e.key
    let places := (List.range 8).map (fun i => 8 * b.1 + i) ++ (List.range 8).map (fun i => 8 * b.2 + i)
    let put := fun (d : Dev) (p : Nat) => d.setRoute die (fun r =>
      { r with cold := r.cold.filter (fun x => x.pos != p) ++ [{ e with pos := p, detail := 0, coldTime := d.g F.NTB.AGE_NOW_N die }] })
    match places.find? (fun p => !r.cold.any (fun x => x.pos == p)) with
    | some p => some ((put d p).showNodes die)
    | none =>
      let olds := (r.cold.filter (fun x => places.contains x.pos && !x.ovf))
      match olds.foldl (fun (m : Option NodeEnt) x => match m with
          | none => some x
          | some y => if x.coldTime < y.coldTime || (x.coldTime == y.coldTime && x.pos < y.pos) then some x else some y) none with
      | none => none
      | some v => some (((put d v.pos).inc C.NTB.COLD_EVICT die).showNodes die)

/-- The seeds' octets of an entry's other bucket. -/
def nodeAlt (l : List NodeEnt) (seeds : List Nat) (p : Nat) : Nat :=
  match l.find? (fun e => e.pos == p) with
  | some e => altBucket ntbBuckets seeds e.key.k6 (p / 4)
  | none => p / 4

/-- Insert an entry into the resident table (R308): a new detail index, the lowest free place of b1 or b2, or a relocation path. None
when the relocation limit is reached; RELOC_PTR has then moved all the same. -/
def Dev.insertNode (d : Dev) (die : Nat) (e : NodeEnt) (keepDetail : Bool := false) : Dev × Bool :=
  let r := d.route die
  let used := r.nodes.map (fun x => x.pos)
  let seeds := d.seeds die 0
  let b := hashBuckets ntbBuckets (seeds.headD 0) e.key.k6
  let e : NodeEnt := { e with detail := if keepDetail then e.detail else freeDetail r.nodes, ovf := false, coldTime := 0 }
  let at_ := fun (d : Dev) (p : Nat) =>
    ((d.setRoute die (fun r => { r with nodes := r.nodes ++ [{ e with pos := p }] })).inc C.NTB.INSERTS die).showNodes die
  match (freeIn used b.1).orElse (fun _ => freeIn used b.2) with
  | some p => (at_ d p, true)
  | none =>
    let s := relocPath (nodeAlt r.nodes seeds) used 32 b.1 r.relocPtr []
    let d := d.setRoute die (fun r => { r with relocPtr := s.1 })
    match s.2 with
    | none => (d, false)
    | some path =>
      let d := d.each (pathMoves used path) (fun d m =>
        ((d.setRoute die (fun r => { r with nodes := mapIf (fun x => x.pos == m.1) (fun x => { x with pos := m.2, ver := !x.ver }) r.nodes })).inc C.NTB.RELOCS die).w F.NTB.RELOC_GEN_GEN (d.g F.NTB.RELOC_GEN_GEN die + 2) die)
      (at_ d ((path.headD (0, 0)).1), true)

/-- An insertion has failed (R309): the entry goes to the cold store as an OVF record; if that cannot take it, its place is returned and
COLD_FULL counts. A rehash is requested either way. Answers whether the record is kept. -/
def Dev.insertFail (d : Dev) (die : Nat) (e : NodeEnt) : Dev × Bool :=
  let d := (d.inc C.NTB.INSERT_FAIL die).rehashReq die 0 1
  match d.coldPut die { e with ovf := true } with
  | some d => (d, true)
  | none => ((d.inc C.NTB.COLD_FULL die).popBack, false)

/-- Create an entry whose place in the population count is granted: 1 resident, 2 OVF record, 0 kept nowhere (R309, R310). -/
def Dev.createNode (d : Dev) (die : Nat) (e : NodeEnt) : Dev × Nat :=
  let i := d.insertNode die e
  if i.2 then (i.1, 1)
  else
    let f := i.1.insertFail die e
    (f.1, if f.2 then 2 else 0)

/-- The air MAC and the meters forget a node whose resident entry is gone (R245, Table 13-5). -/
def Dev.forget (d : Dev) (die : Nat) (e : NodeEnt) : Dev :=
  d.setRoute die (fun r => { r with buckets := r.buckets.filter (fun b => b.1 != 3 * 2 ^ 20 + e.detail) })

/-- Remove a resident entry; the count falls by one (R310). -/
def Dev.removeResident (d : Dev) (die : Nat) (e : NodeEnt) : Dev :=
  (((d.setRoute die (fun r => { r with nodes := r.nodes.filter (fun x => x.key != e.key) })).forget die e).popBack).showNodes die

/-- Delete a node's resident and cold entries (R276, R310, Table 11-8). -/
def Dev.deleteNode (d : Dev) (k : NodeKey) : Dev :=
  let die := k.owner
  let d := match d.resident k with
    | some e => d.removeResident die e
    | none => d
  match d.coldRec k with
  | some e => ((d.setRoute die (fun r => { r with cold := r.cold.filter (fun x => x.key != k) })).when e.ovf (fun d => d.popBack)).showNodes die
  | none => d

/-- The low 16 bits of AGE_NOW (R312). -/
def Dev.ageLow (d : Dev) (die : Nat) : Nat := d.g F.NTB.AGE_NOW_N die % 65536

/-- The cede record of a key (R472). -/
def Dev.cede (d : Dev) (k : NodeKey) : Option Cede := (d.route k.owner).cedes.find? (fun c => c.key == k)
/-- Change a cede record. -/
def Dev.setCede (d : Dev) (k : NodeKey) (f : Cede → Cede) : Dev :=
  d.setRoute k.owner (fun r => { r with cedes := mapIf (fun c => c.key == k) f r.cedes })

/-! ## Forwarding entries -/

/-- A forwarding lookup and its counts. -/
def Dev.fwdFind (d : Dev) (die : Nat) (p : FwdEnt → Bool) : Dev × Option FwdEnt :=
  let e := (d.route die).fwd.find? p
  ((d.inc C.FWD.LOOKUPS die).when e.isSome (fun d => d.inc C.FWD.HITS die), e)

/-- The MAC lookup of Table 11-7. -/
def Dev.macFind (d : Dev) (die vlan mac : Nat) : Dev × Option FwdEnt :=
  d.fwdFind die (fun e => e.kind == 0 && e.vlan == vlan && e.key == mac)

/-- The DEV lookup of Table 11-7. -/
def Dev.devFind (d : Dev) (die dev : Nat) : Dev × Option FwdEnt := d.fwdFind die (fun e => e.kind == 1 && e.key == dev)

/-- The PFX6 lookup of R320: the lengths present, longest first; the first hit wins. -/
def Dev.pfxFind (d : Dev) (die addr : Nat) : Dev × Option FwdEnt :=
  let l := (d.route die).fwd
  let e := (plens l).findSome? (fun n => l.find? (fun e => e.kind == 2 && e.plen == n && e.key == maskPfx n addr))
  ((d.inc C.FWD.LOOKUPS die).when e.isSome (fun d => d.inc C.FWD.HITS die), e)

/-- The other bucket of the forwarding entry at a place. -/
def fwdAlt (l : List FwdEnt) (seeds : List Nat) (p : Nat) : Nat :=
  match l.find? (fun e => e.pos == p) with
  | some e => altBucket fwdBuckets seeds e.kf (p / 4)
  | none => p / 4

/-- Insert a forwarding entry, replacing one with the same key in place (R319, Table 11-8). -/
def Dev.insertFwd (d : Dev) (die : Nat) (e : FwdEnt) : Dev × Bool :=
  let r := d.route die
  if r.fwd.any (fun x => x.same e) then
    ((d.setRoute die (fun r => { r with fwd := r.fwd.map (fun x => if x.same e then { e with pos := x.pos, ver := x.ver } else x) })).showFwd die, true)
  else
    let used := r.fwd.map (fun x => x.pos)
    let seeds := d.seeds die 1
    let b := hashBuckets fwdBuckets (seeds.headD 0) e.kf
    let at_ := fun (d : Dev) (p : Nat) => (d.setRoute die (fun r => { r with fwd := r.fwd ++ [{ e with pos := p }] })).showFwd die
    match (freeIn used b.1).orElse (fun _ => freeIn used b.2) with
    | some p => (at_ d p, true)
    | none =>
      let s := relocPath (fwdAlt r.fwd seeds) used 32 b.1 r.fwdReloc []
      let d := d.setRoute die (fun r => { r with fwdReloc := s.1 })
      match s.2 with
      | none => (d, false)
      | some path =>
        let d := d.each (pathMoves used path) (fun d m => d.setRoute die (fun r =>
          { r with fwd := mapIf (fun x => x.pos == m.1) (fun x => { x with pos := m.2, ver := !x.ver }) r.fwd }))
        (at_ d ((path.headD (0, 0)).1), true)

/-- Delete the forwarding entries that satisfy a test. -/
def Dev.deleteFwd (d : Dev) (die : Nat) (p : FwdEnt → Bool) : Dev :=
  (d.setRoute die (fun r => { r with fwd := r.fwd.filter (fun e => !p e) })).showFwd die

/-- The low 16 bits of FWD.AGE_NOW (R324). -/
def Dev.fwdAgeLow (d : Dev) (die : Nat) : Nat := d.g F.FWD.AGE_NOW_N die % 65536

end Sys2Proof.Machine
end

