-- ==== Sys2Proof/Machine/TimePace.lean ====
section
/-! DEFINITION. Pace, the adaptive-voltage loop, sensors and the time island (chapters 3 and 19). -/

namespace Sys2Proof.Machine
open Sys2Proof

/-! ## Worst-case pace (R48, R49) -/

/-- The worst-case pace at a VCORE in mV: the row of Table 3-1 at or below it; the lowest row below 600 mV
(assumption 5). -/
def worstPace (mv : Nat) : Nat := if 850 ≤ mv then 1350 else if 750 ≤ mv then 1100 else 650

/-- The VCORE last commanded, in mV (SNS.VCORE_SET.MV). -/
def Dev.vcore (d : Dev) : Nat := d.g F.SNS.VCORE_SET_MV

/-- The page kinds that list a pace error source. -/
def paceTags : List Tag :=
  [.DEM, .SIC, .DEC, .TXB, .WUC, .AMC, .CRY, .NTB, .FWD, .SRC, .ING, .PLY, .SCH, .POL, .ETH, .CAN, .GWY, .VXL, .CMP]

/-- The pace error source of a page, if it lists one (R51): source 1 of TXB, source 0 elsewhere. -/
def paceSrc (p : Page) : Option Nat :=
  if paceTags.contains p.tag then some (if p.tag == .TXB then 1 else 0) else none

/-- A unit reports a pace below the worst case for the VCORE then commanded (R51). -/
def Dev.paceLow (d : Dev) (p : Page) : Dev := (paceSrc p).elim d (fun n => d.raiseAt p n)

/-- The die pace figure: the lowest pace of any active unit on the die (R15). -/
def lowestPace (l : List Nat) : Option Nat := l.min?

/-! ## The adaptive-voltage loop (R52, R54, R55) -/

/-- Loop states of AVL_STAT.STATE. -/
def Dev.avlShow (d : Dev) : Dev :=
  d.w F.SNS.AVL_STAT_STATE
    (if d.avl.halted then 3 else if !d.on F.SNS.AVL_CTRL_EN || d.g F.SNS.AVL_CTRL_PERIOD == 0 then 0
     else if d.avl.pauseMask != 0 then 2 else 1)

/-- Issue a VOUT_COMMAND: `kind` 1 raise, 2 lower, 3 host, 4 to CEIL. -/
def Dev.vout (d : Dev) (mv kind : Nat) : Dev :=
  let d := { d with avl := { d.avl with busy := kind } }
  (d.w F.SNS.VCORE_SET_MV mv).emit (.pmbus mv)

/-- A loop value held between FLOOR and CEIL (R52). -/
def Dev.avlClamp (d : Dev) (mv : Nat) : Nat := clampN (d.g F.SNS.AVL_LIMITS_FLOOR) (d.g F.SNS.AVL_LIMITS_CEIL) mv

/-- The lowest die pace figure of the Route and Air dies (R52). -/
def Dev.lowPace (d : Dev) : Nat :=
  (lowestPace ([1, 2, 3, 4].map (fun x => d.g F.SNS.DIE_PACE_PACE 0 0 x))).getD 0

/-- Whether the loop runs: enabled, not halted, not paused (R52, Table 3-2). -/
def Dev.loopRuns (d : Dev) : Bool :=
  d.on F.SNS.AVL_CTRL_EN && d.g F.SNS.AVL_CTRL_PERIOD != 0 && !d.avl.halted && d.avl.pauseMask == 0

/-- A pace figure below target while a lowering command is in progress: a raise of 25 mV is due at its completion (Table 3-2). -/
def Dev.paceWatch (d : Dev) : Dev :=
  if d.loopRuns && d.avl.busy == 2 && d.lowPace < d.g F.SNS.AVL_TARGET_PACE then { d with avl := { d.avl with bigRaise := true } } else d

/-- The pace that a monitor reports: its step count divided by the window's length in µs, rounded down (DESIGN CHOICE, log 23) (R50). -/
def Dev.paceOf (d : Dev) (steps : Nat) : Nat := steps * tickUs / d.g F.SNS.PACE_CFG_WIN

/-- A unit whose pace is below the worst case raises its PACE source and is failed (R51, R520): an active one asks for a substitution, a spare is no
longer one. -/
def Dev.paceFail (d : Dev) (r : PaceReading) : Dev :=
  let d := d.paceLow (unitPage r.type r.die r.index)
  let u := d.unit r.type r.die r.index
  if u.state == .spare then (d.setUnit { u with state := .failed }).showUnit r.type r.die r.index else d.unitFailed r.type r.die r.index

/-- PACE_INTERVAL: the monitors of active and spare units report what they counted in the window, and each unit the errors corrected since the last
interval; the die figures are refreshed from the active units, and wear is judged (R15, R50, R51, R519). Table rows and Voxnen lanes have no pace (Table 18-10). A
figure below target while the loop lowers VCORE makes a raise of 25 mV due (Table 3-2). -/
def execPaceInterval (readings : List PaceReading) (blocks : List (Nat × Nat × Nat)) (s : State) : Answer :=
  run s (fun d =>
    if d.g F.SNS.PACE_CFG_WIN == 0 || d.g F.SNS.PACE_CFG_INT == 0 then d
    else
      let paced := readings.filter (fun r => r.type != 4 && r.type != 5)
      let isA := fun (r : PaceReading) => (d.unit r.type r.die r.index).state == .active
      let act := paced.filter isA
      let watched := paced.filter (fun r => isA r || (d.unit r.type r.die r.index).state == .spare)
      let pace := d.paceOf
      let d := d.each (List.range 7) (fun d x =>
        match lowestPace ((act.filter (fun r => r.die == x)).map (fun r => pace r.steps) ++
            (blocks.filter (fun b => b.1 == x)).map (fun b => pace b.2.2)) with
        | some p => d.w F.SNS.DIE_PACE_PACE p 0 0 x
        | none => d)
      let lim := worstPace d.vcore
      let d := d.each (watched.filter (fun r => pace r.steps < lim)) (fun d r => d.paceFail r)
      let d := d.each (blocks.filter (fun b => pace b.2.2 < lim)) (fun d b =>
        (pageAt b.1 b.2.1).elim d (fun p => d.paceLow p))
      let d := d.each paced (fun d r =>
        d.wearStep r (pace r.steps) (lowerMedian ((act.filter (fun q => q.type == r.type && q.die == r.die)).map (fun q => pace q.steps))))
      (d.each readings (fun d r => d.corrStep r)).paceWatch)

/-- Whether the pace exceeds the target by more than HYST, in units of 0.1 % of the target (R52). -/
def aboveHyst (pace target hyst : Nat) : Bool := target * 1000 + target * hyst < pace * 1000

/-- AVL_PERIOD: the loop compares the lowest die pace with the target and steps VCORE by 5 mV (R52). A figure below
target while a lowering command is in progress makes a raise of 25 mV due at its completion (Table 3-2). The VCORE at which the regulator starts is
not stated (R37): before the first command the model takes VCORE_SET.MV, 0, for it, so that the first step of either kind commands FLOOR (DESIGN
CHOICE, log 23). -/
def execAvlPeriod (s : State) : Answer :=
  run s (fun d =>
    if !d.loopRuns then d
    else
      let low := d.lowPace < d.g F.SNS.AVL_TARGET_PACE
      if d.avl.busy == 2 then d.paceWatch
      else if d.avl.busy != 0 then d
      else if low then
        let mv := d.avlClamp (d.vcore + 5)
        if mv == d.vcore then d else d.vout mv 1
      else if aboveHyst d.lowPace (d.g F.SNS.AVL_TARGET_PACE) (d.g F.SNS.AVL_CTRL_HYST) then
        let mv := d.avlClamp (d.vcore - 5)
        if mv == d.vcore then d else d.vout mv 2
      else d)

/-- VCORE_COMMAND_DONE: the regulator reports a command complete (R52, Table 3-2): a host command that waits follows,
then CEIL when it is due, then a raise of 25 mV when it is due and the loop still runs. -/
def execVcoreCommandDone (s : State) : Answer :=
  run s (fun d =>
    if d.avl.busy == 0 then d
    else
      let d := { d with avl := { d.avl with busy := 0 } }
      match d.avl.hostNext with
      | some mv => { d with avl := { d.avl with hostNext := none, bigRaise := false } }.vout mv 3
      | none =>
        if d.avl.ceilDue then
          { d with avl := { d.avl with ceilDue := false, bigRaise := false } }.vout (d.g F.SNS.AVL_LIMITS_CEIL) 4
        else if d.avl.bigRaise then
          let d := { d with avl := { d.avl with bigRaise := false } }
          if d.loopRuns then d.vout (d.avlClamp (d.vcore + 25)) 1 else d
        else d)

/-- PMBUS_NO_ACK: after three retries the loop halts, holds the last setting, raises PMBUS and logs it (R55); a host command that waited follows (Table
3-2 row 5). What ends the halted state is not stated: in the model only a reset does (DESIGN CHOICE, log 23). -/
def execPmbusNoAck (s : State) : Answer :=
  run s (fun d =>
    let next := d.avl.hostNext
    let d := { d with avl := { d.avl with busy := 0, halted := true, bigRaise := false, ceilDue := false } }
    let d := (d.avlShow.logRec 0x0301 3 0 (toLE 2 d.vcore)).raise E.CPT.PMBUS
    match next with
    | some mv => { d with avl := { d.avl with hostNext := none } }.vout mv 3
    | none => d)

/-- PMB_ALERT: the captain logs STATUS_WORD and pauses the loop (R55). -/
def execPmbAlert (statusWord : Nat) (s : State) : Answer :=
  run s (fun d =>
    { d with avl := { d.avl with pauseMask := putBit d.avl.pauseMask 0 true } }.avlShow.logRec 0x0302 2 0
      (toLE 2 statusWord))

/-- PMB_ALERT_RELEASE: the paused loop resumes (R55). -/
def execPmbAlertRelease (s : State) : Answer :=
  run s (fun d => { d with avl := { d.avl with pauseMask := putBit d.avl.pauseMask 0 false } }.avlShow)

/-- VCORE_SET, command 0x0902: commands VCORE and disables the loop; a locked SNS page gives LOCKED (R54, R536). -/
def execVcoreSet (id : Nat) (s : State) : Answer :=
  run s (fun d => d.runCmd 0x0902 id false
    (fun _ c => if 600 ≤ c.par 24 2 && c.par 24 2 ≤ 850 then none else some 0)
    (fun d c =>
      if d.locked ⟨.SNS, 0, 0⟩ then (d, c.bad stLocked)
      else
        let mv := c.par 24 2
        let d := ((d.wBoth F.SNS.AVL_CTRL_EN 0).w F.SNS.AVL_STAT_HOST_OVR 1).avlShow
        (if d.avl.busy != 0 then { d with avl := { d.avl with hostNext := some mv, bigRaise := false } }
         else d.vout mv 3, c.ok)))

/-! ## Sensors (R539, R540) -/

/-- The grade's Tj maximum in 0.125 °C (Table 0-1). -/
def Dev.tjMax (d : Dev) : Int := if d.pwr.grade == 1 then 920 else 840

/-- The nominal of a supply monitor in mV (Table 19-2, Table 2-7); monitors 0 and 11 compare with the VCORE last
commanded. -/
def Dev.supplyNominal (d : Dev) (k : Nat) : Nat :=
  match k with
  | 0 => d.vcore
  | 1 => 3300
  | 2 => 1800
  | 3 => 1200
  | 4 => 800
  | 5 => 850
  | 6 => 1200
  | 7 => 1050
  | 8 => 500
  | 9 => 1800
  | 10 => 1800
  | _ => d.vcore

/-- Whether a supply reading lies within TOL % of its nominal; monitor 10 compares with 0 V or 1.80 V, with the
tolerance of 1.80 V around both (assumption 5). -/
def Dev.supplyOk (d : Dev) (k mv : Nat) : Bool :=
  let tol := d.g F.SNS.SUP_CFG_TOL
  let within := fun n w => n * 100 ≤ mv * 100 + w * tol && mv * 100 ≤ n * 100 + w * tol
  tol == 0 || within (d.supplyNominal k) (d.supplyNominal k) || (k == 10 && within 0 1800)

/-- The regions whose sensors are read. -/
def Dev.sensed (d : Dev) : List Nat := (List.range 24).filter (fun i => d.regionOn i)

/-- The captain publishes the readings: the temperature of every powered region, the others no longer valid, and the twelve supplies (R539, R540). -/
def Dev.showSensors (d : Dev) (temps : List Int) (mv : List Nat) : Dev :=
  let d := d.each (List.range 24) (fun d i =>
    if d.regionOn i then
      (d.w F.SNS.TEMP_VALUE (ofSigned 12 (temps.getD i 0)) 0 0 i).w F.SNS.TEMP_VALID 1 0 0 i
    else d.w F.SNS.TEMP_VALID 0 0 0 i)
  d.each (List.range 12) (fun d k => (d.w F.SNS.SUPPLY_MV (mv.getD k 0) 0 0 k).w F.SNS.SUPPLY_VALID 1 0 0 k)

/-- Each temperature above HIGH and each supply outside TOL is counted and raises its source (R539, R540). -/
def Dev.sensorLimits (d : Dev) (temps : List Int) (mv : List Nat) : Dev :=
  let high := d.sensed.filter (fun i => sext 12 (d.g F.SNS.TEMP_CFG_HIGH) < temps.getD i 0)
  let d := d.each high (fun d _ => (d.inc C.SNS.TEMP_HIGH_CNT).raise E.SNS.TEMP_HIGH)
  let bad := (List.range 12).filter (fun k => !d.supplyOk k (mv.getD k 0))
  d.each bad (fun d _ => (d.inc C.SNS.SUP_RANGE_CNT).raise E.SNS.SUPPLY_RANGE)

/-- A region above the grade maximum makes the captain command CEIL and pause the loop until every sensor is 5 °C below it (R55); Table 3-2 names no condition on the loop,
so CEIL is commanded whatever EN and STATE say (DEDUCED, log 23). -/
def Dev.heatWatch (d : Dev) (temps : List Int) : Dev :=
  match d.sensed.find? (fun i => d.tjMax < temps.getD i 0) with
  | some i =>
    if d.cpt.overTemp then d
    else
      let d := d.logRec 0x0303 3 (regionDie i) (toLE 1 i ++ toLE 2 (ofSigned 12 (temps.getD i 0) + 32768))
      let d := { d with cpt := { d.cpt with overTemp := true },
                        avl := { d.avl with pauseMask := putBit d.avl.pauseMask 1 true } }
      let d := d.avlShow
      if d.avl.busy != 0 then { d with avl := { d.avl with ceilDue := true } }
      else d.vout (d.g F.SNS.AVL_LIMITS_CEIL) 4
  | none =>
    if d.cpt.overTemp && d.sensed.all (fun i => temps.getD i 0 ≤ d.tjMax - 40) then
      { d with cpt := { d.cpt with overTemp := false },
               avl := { d.avl with pauseMask := putBit d.avl.pauseMask 1 false } }.avlShow
    else d

/-- SENSOR_PUBLISH: temperatures and supplies are published, their limits checked, and the grade maximum watched (R539, R540, R55). -/
def execSensorPublish (temps : List Int) (mv : List Nat) (s : State) : Answer :=
  run s (fun d => ((d.showSensors temps mv).sensorLimits temps mv).heatWatch temps)

/-! ## The time island -/

/-- One tick: 3.125 ns in units of 2^-32 ns. -/
def tickUnits : Int := 13421772800

/-- PTP time moved by a signed number of seconds, nanoseconds and 2^-32 ns, with 48-bit seconds (R58). -/
def Time.shift (t : Time) (sec ns frac : Int) : Time :=
  let f : Int := t.ptpFrac + frac
  let n : Int := t.ptpNs + ns + f / 4294967296
  let q : Int := t.ptpSec + sec + n / 1000000000
  { t with ptpFrac := (f % 4294967296).toNat
           ptpNs := (n % 1000000000).toNat
           ptpSec := (q % (2 ^ 48 : Int)).toNat }

/-- Whether local time runs: out of package reset, from the start of boot step 1 (R57). -/
def Dev.clockRuns (d : Dev) : Bool := !d.pwr.inReset && !(d.pwr.bootDue && d.pwr.cause ≤ 2)

/-- One tick of the time island (R57, R58): local time rises by 1, PTP time by 3.125 ns and the rate adjustment. -/
def Dev.tick (d : Dev) : Dev :=
  if d.clockRuns then
    { d with time := { d.time.shift 0 0 (tickUnits + sext 25 (d.g F.TIM.PTP_RATE_ADJ)) with
        lt := (d.time.lt + 1) % 2 ^ 64 } }
  else d

/-- Discipline states (Table 3-4). -/
def Dev.disc (d : Dev) : Nat := d.g F.TIM.DISC_STAT_STATE

/-- Enter a discipline state; a change fires vector 11 (Table 3-4, Table 4-4). The run of good seconds starts over, and the 3 s of LOCKED run from here. -/
def Dev.discTo (d : Dev) (st : Nat) : Dev :=
  if d.disc == st then d
  else { (d.w F.TIM.DISC_STAT_STATE st).fireVec 11 with time := { d.time with okRun := 0, okSec := 0, updAt := d.time.lt } }

/-- An offset of PTP second `sec` is known (R62): one below 1 µs adds its second to the run, or starts one when a second was missed; one of 1 µs or more
ends the run, and its second does not count. -/
def Time.sample (t : Time) (sec : Nat) (good : Bool) : Time :=
  if !good then { t with okRun := 0, okSec := sec }
  else if sec == t.okSec then { t with okRun := max t.okRun (b2n (t.okSec == 0)) }
  else { t with okRun := if sec == t.okSec + 1 then t.okRun + 1 else 1, okSec := sec }

/-- An applied commit that carries a PTP_RATE update under SRC 1: its HOST_OFS is the offset of the current second, and the host has updated the rate
(R62). -/
def Dev.hostRate (d : Dev) : Dev :=
  let good := (sext 32 (d.g F.TIM.HOST_OFS)).natAbs < 1000
  { d with time := { d.time.sample d.time.ptpSec good with updAt := d.time.lt } }

/-- The captain's servo at an accepted edge under PPS_IN (R60): an offset above STEP_LIMIT µs is stepped at the next tick, any other is slewed by a
rate of the servo's own, a free value (assumption 2). -/
def Dev.ppsServo (d : Dev) : Dev :=
  if d.g F.TIM.DISC_CTRL_SRC != 2 then d
  else
    let ns : Int := d.time.ptpNs
    let off : Int := if 2 * ns < 1000000000 then ns else ns - 1000000000
    let lim := d.g F.TIM.DISC_CTRL_STEP_LIMIT
    if lim != 0 && 1000 * lim < off.natAbs then
      { d with time := { d.time with stepDue := true, stepNs := -off, stepSec := 0 } }.wBoth F.TIM.PTP_STEP_NS_STEP (ofSigned 31 (-off))
    else
      let f := d.freshNat
      f.2.wBoth F.TIM.PTP_RATE_ADJ f.1

/-- An accepted edge of PPS_IN: local time is captured, under PPS_IN its distance from the expected second is the offset that R62 tests, and the servo
acts on it (R60 to R62). -/
def Dev.ppsAccept (d : Dev) : Dev :=
  let late := 2 * d.time.ptpNs < 1000000000
  let off := if late then d.time.ptpNs else 1000000000 - d.time.ptpNs
  let sec := if late then d.time.ptpSec else d.time.ptpSec + 1
  let t := { d.time with ppsCap := d.time.lt }
  let t := if d.g F.TIM.DISC_CTRL_SRC == 2 then { t.sample sec (off < 1000) with updAt := t.lt } else t
  { d with time := t }.ppsServo

/-- PPS_IN_EDGE: in ACQUIRE every edge is accepted, in LOCKED one within ±PPS_WIN × 10 ns of the second; an accepted
edge latches local time and feeds the servo, and in HOLDOVER returns to ACQUIRE; a rejected edge is counted (R60 to R62). In FREE the spec says nothing of an
edge: it is ignored (DESIGN CHOICE, log 22). -/
def execPpsInEdge (s : State) : Answer :=
  run s (fun d =>
    let ns := d.time.ptpNs
    let off := min ns (1000000000 - ns)
    match d.disc with
    | 1 => d.ppsAccept
    | 2 => if off ≤ d.g F.TIM.DISC_CTRL_PPS_WIN * 10 then d.ppsAccept else d.wSat F.TIM.DISC_STAT_REJ 1
    | 3 => d.ppsAccept.when (d.g F.TIM.DISC_CTRL_SRC == 2) (fun d => d.discTo 1)
    | _ => d)

/-- DISC_LOCK: ACQUIRE moves to LOCKED once 8 consecutive seconds have each had an offset below 1 µs and none above, the last of them this second or the one
before (R62). -/
def execDiscLock (s : State) : Answer :=
  run s (fun d => if d.disc == 1 && 8 ≤ d.time.okRun && d.time.ptpSec ≤ d.time.okSec + 1 then d.discTo 2 else d)

/-- DISC_HOLDOVER: after 3 seconds without an accepted pulse or host rate update, LOCKED moves to HOLDOVER (R62). -/
def execDiscHoldover (s : State) : Answer :=
  run s (fun d => if d.disc == 2 && d.time.updAt + 3000000 * tickUs ≤ d.time.lt then d.discTo 3 else d)

/-- Whether the mode lets PPS_OUT pulse (R63). -/
def ppsMode (m : Nat) : Bool := m == mBringup || m == mService || m == mShadow || m == mQuiesce

/-- PPS_OUT_PULSE: PPS_OUT rises at a PTP second boundary (R63). -/
def execPpsOutPulse (s : State) : Answer :=
  run s (fun d =>
    if d.time.ppsAllowed && ppsMode d.mode && d.g F.TIM.PPS_OUT_CFG_WIDTH != 0 then
      { d with pins := { d.pins with ppsOut := true } }
    else d)

/-- PPS_OUT_END: PPS_OUT falls after WIDTH ms (R63). -/
def execPpsOutEnd (s : State) : Answer := run s (fun d => { d with pins := { d.pins with ppsOut := false } })

end Sys2Proof.Machine
end

