-- ==== Sys2Proof/Machine/Start.lean ====
section
/-! DEFINITION. Resets (Tables 5-1, 2-8, 2-9, 2-10): everything but the boot steps themselves. -/

namespace Sys2Proof.Machine
open Sys2Proof

/-- PORST_N_ASSERT: PORST_N goes low and holds the whole package in reset (R107, R41). -/
def execPorstNAssert (s : State) : Answer := run s (fun d => d.packageReset true d.pwr.monLow 1 0)

/-- Release from package reset, with every rail within tolerance: boot step 1 follows 10 µs later (Table 2-8). -/
def Dev.porstRelease (d : Dev) : Dev := { d with pwr := { d.pwr with inReset := false, bootDue := true, railsOff := 0 }, time := {} }

/-- PORST_N_RELEASE: BOOT_RECOVER is sampled; reset ends unless a monitor still holds it (R110, Table 2-8). -/
def execPorstNRelease (recover : Bool) (s : State) : Answer :=
  run s (fun d =>
    if !d.pwr.porstLow then d
    else
      let d := { d with pwr := { d.pwr with porstLow := false, recoverPin := recover } }
      if d.pwr.monLow == 0 then d.porstRelease else d)

/-- The rails that the DRAM and its interface need: VDD_DDR, VDDQ_DDR and the DRAM's own (R45). -/
def dramRails : List Nat := [4, 5, 10]

/-- A DRAM rail is lost: DRAM contents do not survive (R45, R598). Cold records, campaign records, images and the scoreboard ring are gone, and the DRAM is not used again
before the next boot (DESIGN CHOICE, log 17). -/
def Dev.dramLost (d : Dev) : Dev :=
  let ovf := d.routes.flatMap (fun (r : Route) => r.cold.filter (fun e => e.ovf))
  let d := { d with
    pwr := { d.pwr with dramUp := false, dramSelfRefresh := false }
    sb := { d.sb with ring := [] }
    cmp := { d.cmp with images := [], list := [] }
    routes := d.routes.map (fun (r : Route) => { r with cold := [] }) }
  (d.each ovf (fun d _ => d.popBack)).showCmp

/-- Rails go off: the outputs they feed become high-impedance, and without a DRAM rail the DRAM's contents are lost (R41, R45). -/
def Dev.railsGo (d : Dev) (rails : Nat) : Dev :=
  { d with pwr := { d.pwr with railsOff := rails } }.when (dramRails.any (fun b => bitOf rails b)) (fun d => d.dramLost)

/-- SUPPLY_MONITOR_TRIP: a monitored rail falls below its trip point: internal reset within 2 µs (R40). Further rails may be off by then (R41, R45); the
loss of a rail that no monitor watches resets nothing. -/
def execSupplyMonitorTrip (trip : RailTrip) (s : State) : Answer :=
  run s (fun d =>
    let mon := trip.mon
    let e := d.railsGo trip.rails
    if 5 ≤ mon then e
    else if d.pwr.porstLow || d.pwr.monLow != 0 then
      { e with pwr := { e.pwr with monLow := putBit d.pwr.monLow mon true, inReset := true } }
    else (e.packageReset false (2 ^ mon) 2 mon).railsGo trip.rails)

/-- SUPPLY_MONITOR_RETURN: the last monitored rail returns; release follows Table 2-8 from step 7 (R40). -/
def execSupplyMonitorReturn (mon : Nat) (s : State) : Answer :=
  run s (fun d =>
    if !bitOf d.pwr.monLow mon then d
    else
      let d := { d with pwr := { d.pwr with monLow := putBit d.pwr.monLow mon false } }
      if d.pwr.monLow == 0 && !d.pwr.porstLow then d.porstRelease else d)

/-- WARM_RST_N: held low for 1 µs it causes a chip reset with cause 3 (R107). -/
def execWarmRstN (s : State) : Answer := run s (fun d => if d.pwr.inReset then d else d.chipReset 3)

/-- CAPTAIN_WATCHDOG: the watchdog expires after 1.0 s and causes a chip reset with cause 5 (R109). It runs from boot
step 4 onward. -/
def execCaptainWatchdog (s : State) : Answer :=
  run s (fun d => if d.pwr.inReset || d.pwr.bootDue || d.pwr.bootHeld then d else d.chipReset 5)

/-- RESET_REQ: writing 0xD1A6 to BTL.RESET_REQ causes a chip reset with cause 6; any other value is ignored (R110). -/
def execResetReq (code : Nat) (s : State) : Answer :=
  run s (fun d => d.pageWrite 0 0x004 0x098 true (fun d _ => if code % 65536 == 0xD1A6 then d.resetSoon 6 else d))

/-- LEDGER_CLR: every step's failure count is 0 in the record written at the next boot (R118). -/
def execLedgerClr (data : Nat) (s : State) : Answer :=
  run s (fun d => d.pageWrite 0 0x004 0x09C true (fun d _ =>
    if bitOf data 0 then { d with boot := { d.boot with clearDue := true } } else d))

/-- A host link reset (R93): live WEIGHTs 0, indexes clear, vectors masked, records of commands in flight discarded. R93 speaks of the rings; a mailbox
command in flight keeps its record, which appears in MBOX_CPL (DESIGN CHOICE, log 15). -/
def Dev.hostLinkReset (d : Dev) : Dev :=
  let d := d.each (List.range 4) (fun d r =>
    ((d.w F.HST.CR_CFG_WEIGHT 0 0 0 r).w F.HST.CR_TAIL_IDX 0 0 0 r).w F.HST.CR_HEAD_IDX 0 0 0 r)
  let d := (d.w F.HST.CQ_HEAD_CNT 0).w F.HST.CQ_TAIL_CNT 0
  { d with hl := { d.hl with
      msixUnmask := 0
      unsignalled := 0
      visitLeft := 0
      inflight := d.hl.inflight.map (fun c => if c.ring == 4 then c else { c with discard := true }) } }

/-- HOST_LINK_RESET: PERST_N or a Function Level Reset resets the host link only (R93, R107). -/
def execHostLinkReset (perst : Bool) (s : State) : Answer :=
  run s (fun d =>
    let d := d.hostLinkReset
    if perst then d.emit (.linkTrain false) else d)

/-- TAP_RESET: TRST_N low resets the JTAG TAP only (R107). -/
def execTapReset (s : State) : Answer := run s (fun d => { d with pwr := { d.pwr with tapReset := true } })

end Sys2Proof.Machine
end

