-- ==== Sys2Proof/Machine/HostRings.lean ====
section
/-! DEFINITION. Command and completion rings and the mailbox (R95 to R106, R535, R626). -/

namespace Sys2Proof.Machine
open Sys2Proof

/-- A ring's live weight (R96). -/
def Dev.weight (d : Dev) (r : Nat) : Nat := d.g F.HST.CR_CFG_WEIGHT 0 0 r

/-- The address of the entry at a ring's CR_HEAD: 64 octets each, 256 in a ring (R95). -/
def Dev.headAddr (d : Dev) (r : Nat) : Nat :=
  d.g F.HST.CR_BASE_LO_BASE 0 0 r / 4096 * 4096 + 2 ^ 32 * d.g F.HST.CR_BASE_HI_BASE 0 0 r +
    64 * (d.g F.HST.CR_HEAD_IDX 0 0 r % 256)

/-- Whether a ring has a pending command (R95). -/
def Dev.ringPending (d : Dev) (r : Nat) : Bool := d.g F.HST.CR_HEAD_IDX 0 0 r != d.g F.HST.CR_TAIL_IDX 0 0 r

/-- Whether the captain fetches commands at all: not in RECOVER, not in DOZE and not from the commit that starts DOZE
entry (R129, R535, R627). -/
def Dev.fetching (d : Dev) : Bool :=
  d.booted && d.mode != mRecover && d.mode != mDoze &&
    !(d.on F.BTL.BOOT_STAT_TRANS && d.g F.BTL.BOOT_STAT_TARGET == mDoze) && d.ms.dozeStep == 0

/-- Commands of the captain's lane on a Route die that are fetched and not yet sequenced; the lane holds 64 (Table 12-2). -/
def Dev.laneUsed (d : Dev) (r : Nat) : Nat :=
  (d.hl.inflight.filter (fun c => c.stage == .fetched && bitOf c.toSeq r)).length

/-- The lowest-numbered Route die (0 or 1) that has no room for a command: 192 in flight, or its captain lane full (R97,
R98). -/
def Dev.fullDie (d : Dev) (c : Cmd) : Option Nat :=
  ([0, 1] : List Nat).find? (fun r => bitOf c.dies r && (192 ≤ d.hl.onDie r || 64 ≤ d.laneUsed r))

/-- A campaign command goes through the die whose engine is active (R599). -/
def Dev.viaEngine (d : Dev) (c : Cmd) : Cmd := { c with alt := 0x0B01 ≤ c.op && c.op ≤ 0x0B07 && d.cmp.engine == 2 }

/-- The command at a ring's head, as read from host memory. -/
def Dev.headCmd (d : Dev) (h : List Host.Cell) (r : Nat) : Cmd :=
  let c : Cmd :=
    { id := d.hl.nextId, ring := r, bytes := memRead h (d.headAddr r) 64, stage := .fetched, toSeq := 0, seq := 0,
      discard := false, interim := false, cpl := ⟨0, 0, 0, 0⟩ }
  d.viaEngine c

/-- Whether a command waits behind the fence: it has FENCE set and an earlier command of its ring has not had its final
completion (R98). -/
def Dev.behindFence (d : Dev) (c : Cmd) : Bool := bitOf c.flags 0 && d.hl.inflight.any (fun e => e.ring == c.ring)

/-- Whether a ring could give a command now: enabled, not halted, not empty. -/
def Dev.ringReady (d : Dev) (r : Nat) : Bool :=
  d.weight r != 0 && !d.on F.HST.CR_STAT_HALT 0 0 r && d.ringPending r

/-- Whether a ring's next command can be fetched now (R97, R98). -/
def Dev.canFetch (d : Dev) (h : List Host.Cell) (r : Nat) : Bool :=
  d.ringReady r && (d.fullDie (d.headCmd h r)).isNone && !d.behindFence (d.headCmd h r)

/-- The ring the captain takes a command from next: the ring visited while its visit has fetches left, else the next
in the order 0, 1, 2, 3 that can give one (R96). -/
def Dev.nextRing (d : Dev) (h : List Host.Cell) : Option Nat :=
  if d.hl.visitLeft != 0 && d.canFetch h d.hl.visit then some d.hl.visit
  else ([1, 2, 3, 4].map (fun k => (d.hl.visit + k) % 4)).find? (fun r => d.canFetch h r)

/-- Place a fetched command in flight (R97). -/
def Dev.dispatch (d : Dev) (c : Cmd) : Dev :=
  { d with hl := { d.hl with
      inflight := d.hl.inflight ++ [{ c with toSeq := c.dies }]
      nextId := d.hl.nextId + 1 } }.showInflight

/-- COMMAND_FETCH: the captain fetches a pending command once limits and lane room allow and dispatches it whole;
otherwise the ring stalls and CR_STAT names the full die; a read error halts the ring (R96, R98, R100). -/
def execCommandFetch (ring : Nat) (readErr : Bool) (s : State) : Answer :=
  runHost s (fun h d =>
    if !d.fetching || 4 ≤ ring || !d.ringReady ring then (d, [])
    else if readErr then
      (((d.w F.HST.CR_STAT_HALT 1 0 0 ring).w F.HST.CR_STAT_CAUSE 1 0 0 ring).fireVec 1, [])
    else
      let c := d.headCmd h ring
      match d.fullDie c with
      | some die => (d.w F.HST.CR_STAT_STALL_DIE (die + 1) 0 0 ring, [])
      | none =>
        if d.nextRing h != some ring then (d, [])
        else
          let left := if d.hl.visit == ring && d.hl.visitLeft != 0 then d.hl.visitLeft else d.weight ring
          let d := { d with hl := { d.hl with visit := ring, visitLeft := left - 1 } }
          let d := (d.w F.HST.CR_STAT_STALL_DIE 0 0 0 ring).w F.HST.CR_HEAD_IDX (d.g F.HST.CR_HEAD_IDX 0 0 ring + 1) 0 0 ring
          (d.dispatch c, []))

/-- DOORBELL: the host advances CR_TAIL and makes the new entries pending (R95). -/
def execDoorbell (ring idx : Nat) (s : State) : Answer :=
  run s (fun d => d.pageWrite 0 0x006 (0x04C + 0x20 * ring) true (fun d _ =>
    if ring < 4 then d.w F.HST.CR_TAIL_IDX idx 0 0 ring else d))

/-- RING_RESUME: writing CR_RESUME clears HALT and refetches at CR_HEAD (R100). -/
def execRingResume (ring : Nat) (s : State) : Answer :=
  run s (fun d => d.pageWrite 0 0x006 (0x058 + 0x20 * ring) true (fun d _ =>
    if ring < 4 then d.w F.HST.CR_STAT_HALT 0 0 0 ring else d))

/-- CQ_HEAD_WRITE: the host advances CQ_HEAD and frees room in the completion ring (R99). -/
def execCqHeadWrite (cnt : Nat) (s : State) : Answer :=
  run s (fun d => d.pageWrite 0 0x006 0x0CC true (fun d _ => d.w F.HST.CQ_HEAD_CNT cnt))

/-- The number of records the completion ring holds (R99). -/
def Dev.cqSize (d : Dev) : Nat := 2 ^ d.g F.HST.CQ_CFG_SIZE_LOG2

/-- Records written and not consumed: CQ_TAIL − CQ_HEAD modulo 65,536 (R99). -/
def Dev.cqUsed (d : Dev) : Nat := (d.g F.HST.CQ_TAIL_CNT + 65536 - d.g F.HST.CQ_HEAD_CNT) % 65536

/-- Whether the completion ring has room (R99). -/
def Dev.cqRoom (d : Dev) : Bool := d.cqUsed < d.cqSize

/-- The address of the next completion record. -/
def Dev.cqAddr (d : Dev) : Nat :=
  d.g F.HST.CQ_BASE_LO_BASE / 4096 * 4096 + 2 ^ 32 * d.g F.HST.CQ_BASE_HI_BASE +
    32 * (d.g F.HST.CQ_TAIL_CNT % d.cqSize)

/-- The PHASE bit of the next record: 1 on the first pass, alternating on each later one (R99). -/
def Dev.cqPhase (d : Dev) : Bool := d.g F.HST.CQ_TAIL_CNT / d.cqSize % 2 == 0

/-- Vector 0 fires and signals every record written before it (R626). -/
def Dev.fireVec0 (d : Dev) : Dev := { d with hl := { d.hl with unsignalled := 0 } }.fireVec 0

/-- One record written: CQ_TAIL advances; the COUNT tally or the command's IRQ flag fires vector 0 (R99, R626). -/
def Dev.recordWritten (d : Dev) (irq : Bool) : Dev :=
  let d := d.w F.HST.CQ_TAIL_CNT (d.g F.HST.CQ_TAIL_CNT + 1)
  let d := { d with hl := { d.hl with unsignalled := d.hl.unsignalled + 1 } }
  let cnt := d.g F.HST.CQ_IRQ_COUNT
  if irq || (cnt != 0 && cnt ≤ d.hl.unsignalled) then d.fireVec0 else d

/-- The mailbox command that waits goes into flight once every die it addresses has room (R97, R98, R535). -/
def Dev.mboxTry (d : Dev) : Dev :=
  match d.hl.mboxWait with
  | none => d
  | some c =>
    if (d.fullDie c).isSome then d
    else { d with hl := { d.hl with mboxWait := none } }.dispatch { c with id := d.hl.nextId }

/-- Release a command's in-flight slot (R99). -/
def Dev.releaseSlot (d : Dev) (id : Nat) : Dev :=
  ({ d with hl := { d.hl with inflight := d.hl.inflight.filter (fun c => c.id != id) } }.showInflight).mboxTry

/-- The mailbox's completion: the record appears in MBOX_CPL, BUSY clears, DONE sets and vector 9 fires (R535). -/
def Dev.mailboxDone (d : Dev) (c : Cmd) : Dev :=
  let rec32 := c.record c.cpl.status c.cpl.unitOk c.cpl.unitTry c.cpl.result false false
  let rec32 := rec32.set 6 0#8
  let d := d.each (List.range 8) (fun d w => d.w F.CPT.MBOX_CPL_W (leAt rec32 (4 * w) 4) 0 0 w)
  ((d.w F.CPT.MBOX_STAT_BUSY 0).w F.CPT.MBOX_STAT_DONE 1).fireVec 9

/-- Whether an earlier command of the same ring to the same single Route die still waits for its record (R106). -/
def Dev.orderedBehind (d : Dev) (c : Cmd) : Bool :=
  (c.target == 1 || c.target == 2) &&
    d.hl.inflight.any (fun e => e.ring == c.ring && e.target == c.target && e.id < c.id)

/-- COMPLETION_WRITE: the interim BUSY record that a command owes is written first and keeps its slot (R105); then a finished command's record is written
once the ring has room, and its slot is released; NO_CPL suppresses the record on OK; a write error loses the record and raises HOST_LINK (R99,
R100, R626). The IRQ flag fires vector 0 for the command's final record: with NO_CPL and status OK there is no record, and nothing fires; an
interim record never fires it (DESIGN CHOICE, log 15). On a PRIMARY a record waits until its events' journal records are acknowledged (R490). -/
def execCompletionWrite (id : Nat) (writeErr : Bool) (s : State) : Answer :=
  runHost s (fun _ d =>
    match d.cmd id with
    | none => (d, [])
    | some c =>
      if c.evs.any (fun e => d.recordWaits e.1 e.2) then (d, [])
      else if c.interim then
        if c.ring == 4 || c.discard then (d.setCmd id (fun c => { c with interim := false }), [])
        else if !d.cqRoom then (d, [])
        else
          let w := (d.cqAddr, c.record stBusy 0 c.units 0 true d.cqPhase)
          let d := d.setCmd id (fun c => { c with interim := false })
          if writeErr then (d.raise E.FCL.HOST_LINK, []) else (d.recordWritten false, [w])
      else if c.stage != .finished then (d, [])
      else if c.ring == 4 then ((d.mailboxDone c).releaseSlot id, [])
      else if c.discard then (d.releaseSlot id, [])
      else if bitOf c.flags 1 && c.cpl.status == stOk then (d.releaseSlot id, [])
      else if !d.cqRoom || d.orderedBehind c then (d, [])
      else if writeErr then ((d.releaseSlot id).raise E.FCL.HOST_LINK, [])
      else
        let w := (d.cqAddr, c.record c.cpl.status c.cpl.unitOk c.cpl.unitTry c.cpl.result false d.cqPhase)
        ((d.releaseSlot id).recordWritten (bitOf c.flags 2), [w]))

/-- CQ_IRQ_TIME: TIME µs after the first unsignalled record, vector 0 fires; TIME 0 disables it (R626). -/
def execCqIrqTime (s : State) : Answer :=
  run s (fun d => if d.g F.HST.CQ_IRQ_TIME != 0 && d.hl.unsignalled != 0 then d.fireVec0 else d)

/-- CQ_STALL_TIMEOUT: the completion ring has been full for CQ_STALL ms and vector 1 fires; 0 disables it (R99). -/
def execCqStallTimeout (s : State) : Answer :=
  run s (fun d => if d.g F.HST.CQ_STALL_MS != 0 && !d.cqRoom then d.fireVec 1 else d)

/-- NOP, command 0x0001: passes through each addressed sequencer and changes nothing (R632). -/
def execNop (id : Nat) (s : State) : Answer :=
  run s (fun d => d.runCmd 0x0001 id false noRange (fun d c =>
    let up := ofBits ((bitList 3 c.target).filter (fun b => if b == 2 then true else d.dieUp (b + 1)))
    (d, { tryM := c.target, okM := up, fail := stDown })))

/-- MBOX_GO: the captain takes the mailbox's record while BUSY is 0; a write while BUSY is 1 is counted (R535). The command goes into flight at once, or once
the dies it addresses have room (R97, R98). In RECOVER the boot ROM serves it and nothing is sequenced (R577). -/
def execMboxGo (data : Nat) (s : State) : Answer :=
  run s (fun d => d.pageWrite 0 0x000 0x140 true (fun d _ =>
    if !bitOf data 0 then d
    else if d.on F.CPT.MBOX_STAT_BUSY then d.inc C.CPT.MBOX_REJECT
    else if !d.booted || (d.mode != mRecover && !d.fetching) then d
    else
      let bytes := (List.range 16).flatMap (fun w => toLE 4 (d.g F.CPT.MBOX_CMD_W 0 0 w))
      let c : Cmd :=
        { id := d.hl.nextId, ring := 4, bytes := bytes, stage := .fetched, toSeq := 0, seq := 0,
          discard := false, interim := false, cpl := ⟨0, 0, 0, 0⟩ }
      let c := d.viaEngine c
      let d := ((d.w F.CPT.MBOX_STAT_BUSY 1).w F.CPT.MBOX_STAT_DONE 0).inc C.CPT.MBOX_CMDS
      if d.mode == mRecover then
        let d := (d.dispatch c).setCmd c.id (fun c => { c with stage := .sequenced, toSeq := 0 })
        match c.early with
        | some st => d.finish c.id (c.bad (if st == stBadOp then stMode else st))
        | none => if d.modeAccepts c.op then d else d.finish c.id (c.bad stMode)
      else { d with hl := { d.hl with mboxWait := some c } }.mboxTry))

end Sys2Proof.Machine
end

