-- ==== Sys2Proof/Machine/Queue.lean ====
section
/-! DEFINITION. Packet buffers, queues, shapers, fair queueing, lineups and meters of a Route die (R362, R363, R367 to R393). -/

namespace Sys2Proof.Machine
open Sys2Proof

/-! ## Ports and buffers -/

/-- The Route die that owns a scheduler port (Table 1-5); 0 for a reserved port. -/
def portOwner (p : Nat) : Nat :=
  if p ≤ 7 then 1 else if p ≤ 15 then 2 else if p ≤ 19 then 1 else if p ≤ 23 then 2
  else if p == 25 then 2 else if p ≤ 27 then 1 else 0

/-- The scheduler port of a band's downlink (Table 1-5). -/
def airPort (band : Nat) : Nat := 24 + band

/-- The cells of a packet of `n` octets (R362). -/
def cellsFor (n : Nat) : Nat := (n + 32 + 255) / 256

/-- Cells that a group's packets take. -/
def Route.used (r : Route) (g : Nat) : Nat := (r.bufs.filter (fun b => b.group == g)).foldl (fun n b => n + b.cells) 0

/-- Cells in use, with every reservation counted whole: what the shared remainder leaves (R362). -/
def Dev.cellsHeld (d : Dev) (die g extra : Nat) : Nat :=
  (List.range 5).foldl (fun n k =>
    n + max (d.g F.ING.BUF_RSV_CELLS die 0 k) ((d.route die).used k + if k == g then extra else 0)) 0

/-- Show the free cells (Table 12-9). -/
def Dev.showBufs (d : Dev) (die : Nat) : Dev :=
  d.w F.ING.BUF_STAT_FREE (32768 - (d.route die).bufs.foldl (fun n b => n + b.cells) 0) die

/-- Allocate cells for a packet of `n` octets in a group: first from its reservation, then from the shared remainder (R362). -/
def Dev.alloc (d : Dev) (die g n : Nat) : Option (Dev × Nat) :=
  let c := cellsFor n
  if (d.route die).used g + c ≤ d.g F.ING.BUF_RSV_CELLS die 0 g || d.cellsHeld die g c ≤ 32768 then
    let id := (d.route die).next
    some ((d.setRoute die (fun r => { r with bufs := r.bufs ++ [⟨id, g, c, 1⟩], next := r.next + 1 })).showBufs die, id)
  else none

/-- An outcome decided after sequencing goes into the record of the event that runs (R341). -/
def Dev.note (d : Dev) (die flag : Nat) : Dev :=
  d.setRoute die (fun r => { r with jrn := mapIf (fun (x : JRec) => x.seq + 1 == r.seq) (fun x => { x with flags := putBit x.flags flag true }) r.jrn })

/-- Whether an outcome that depends on timing happens: as a journal record says it did, else by the die's own decision (R341). -/
def Dev.befalls (d : Dev) (die flag : Nat) (own : Bool) : Bool := (d.route die).forced.elim own (fun f => bitOf f flag)

/-- Cells of group 4 for a packet that the die itself builds: one that finds none is dropped with outcome flag BUF (R341, R362). -/
def Dev.allocInt (d : Dev) (die n : Nat) : Dev × Option Nat :=
  match (if d.befalls die 4 false then none else d.alloc die 4 n) with
  | none => (d.note die 4, none)
  | some (d, b) => (d, some b)

/-- One copy of a packet releases its cells; the last one frees them (R363). -/
def Dev.release (d : Dev) (die id : Nat) : Dev :=
  (d.setRoute die (fun r => { r with
    bufs := (mapIf (fun b => b.id == id) (fun b => { b with refs := b.refs - 1 }) r.bufs).filter (fun b => b.refs != 0) })).showBufs die

/-- A further copy holds a packet's cells (R363). -/
def Dev.hold (d : Dev) (die id : Nat) : Dev :=
  d.setRoute die (fun r => { r with bufs := mapIf (fun b => b.id == id) (fun b => { b with refs := b.refs + 1 }) r.bufs })

/-! ## Queues -/

/-- A queue of a die. -/
def Dev.queue (d : Dev) (die n : Nat) : Queue := ((d.route die).queues.find? (fun q => q.num == n)).getD { num := n }

/-- Change a queue of a die. -/
def Dev.setQueue (d : Dev) (die n : Nat) (f : Queue → Queue) : Dev :=
  d.setRoute die (fun r =>
    if r.queues.any (fun q => q.num == n) then { r with queues := mapIf (fun q => q.num == n) f r.queues }
    else { r with queues := r.queues ++ [f { num := n }] })

/-- A scheduler port of a die. -/
def Dev.portSt (d : Dev) (die p : Nat) : PortSt := ((d.route die).ports.find? (fun x => x.num == p)).getD { num := p }

/-- Change a scheduler port of a die. -/
def Dev.setPort (d : Dev) (die p : Nat) (f : PortSt → PortSt) : Dev :=
  d.setRoute die (fun r =>
    if r.ports.any (fun x => x.num == p) then { r with ports := mapIf (fun x => x.num == p) f r.ports }
    else { r with ports := r.ports ++ [f { num := p }] })

/-- The number of a fixed queue (R375). -/
def fixedQ (p f : Nat) : Nat := 16384 + 16 * p + f

/-- The fixed queue of a class and subscriber (R375). -/
def fixedOf (cls sub : Nat) : Nat := if 4 ≤ cls then 7 - cls else 4 + 3 * (3 - cls) + sub % 3

/-- A queue's depth in cells. -/
def Queue.depth (q : Queue) : Nat := q.pkts.foldl (fun n p => n + p.cells) 0

/-- A packet's length for charging (R377): the padded Ethernet frame with its FCS, the fabric frame with its CRC, the PSDU, or the frame as
delivered. -/
def pktLen (port : Nat) (p : Pkt) : Nat :=
  if port ≤ 15 then max 64 (p.data.length + 4)
  else if port ≤ 23 then p.data.length + 4
  else if port ≤ 25 then p.dl.elim p.data.length (fun x => x.psdu.length)
  else p.data.length

/-- A packet's charge in bytes (R377). -/
def Dev.pktCharge (d : Dev) (die port : Nat) (p : Pkt) : Int := (pktLen port p : Int) + sext 8 (d.g F.SCH.PORT_CFG_OVH die 0 port)

/-- Whether a class of a port is strict (R372). -/
def Dev.strictCls (d : Dev) (die port c : Nat) : Bool := 8 ≤ c + d.g F.SCH.PORT_CFG_STRICT die 0 port

/-- The weight of a class (Table 13-6). -/
def Dev.clsWeight (d : Dev) (die port c : Nat) : Nat := max 1 (bitsOf (d.g F.SCH.CLASS_W_W die 0 port) (4 * c) 4)

/-- The packets of one class of a port. -/
def Dev.clsHolds (d : Dev) (die port c : Nat) : Bool :=
  (d.route die).queues.any (fun q => q.num < 16384 && q.port == port && q.cls == c && !q.pkts.isEmpty)

/-- The tag f of a packet that reaches a queue's head (R373). -/
def Dev.headTag (d : Dev) (die : Nat) (q : Queue) (p : Pkt) : Nat :=
  let st := d.portSt die q.port
  let v := if q.num < 16384 then kvGet 0 st.vSub q.cls else st.vFix
  let w := if q.num < 16384 then max 1 q.weight else 1
  max v q.fLast + (d.pktCharge die q.port p).toNat * 65536 / w

/-- A class whose head packet is new takes its start tag (R373). -/
def Dev.clsHead (d : Dev) (die port c : Nat) : Dev :=
  d.setPort die port (fun st => { st with clsStart := kvSet 0 st.clsStart c (max st.vCls (kvGet 0 st.clsLast c)) })

/-- Drop a packet that a queue refuses (R371). -/
def Dev.tailDrop (d : Dev) (die port n : Nat) (yellow : Bool) (buf : Nat) : Dev :=
  let d := d.setQueue die n (fun q => if yellow then { q with yel := satAdd 0xFFFFFFFF q.yel 1 } else { q with tail := satAdd 0xFFFFFFFF q.tail 1 })
  (d.inc C.SCH.DROP die 0 port).release die buf

/-- Enqueue a packet on a port of the die at its event's commit (R343, R370, R371, R375). -/
def Dev.enqueue (d : Dev) (die port cls sub : Nat) (yellow : Bool) (p : Pkt) : Dev :=
  let put := fun (d : Dev) (n : Nat) =>
    let q := d.queue die n
    let d := d.when (n < 16384 && !d.clsHolds die port cls) (fun d => d.clsHead die port cls)
    let f := d.headTag die { q with port := port, cls := cls } p
    d.setQueue die n (fun q => { q with
      port := port, cls := cls, pkts := q.pkts ++ [p], headF := if q.pkts.isEmpty then f else q.headF })
  if (d.route die).fixed then
    let n := fixedQ port (fixedOf cls sub)
    if (d.queue die n).depth + p.cells ≤ d.g F.SCH.FIX_QLIM_CELLS die then put d n else d.tailDrop die port n yellow p.buf
  else
    let cnt := d.g F.SCH.QMAP_N die 0 (8 * port + cls)
    if cnt == 0 then (d.inc C.SCH.NO_QUEUE die).release die p.buf
    else
      let n := d.g F.SCH.QMAP_BASE die 0 (8 * port + cls) + sub % cnt
      let q := d.queue die n
      if !q.en then (d.inc C.SCH.NO_QUEUE die).release die p.buf
      else if q.depth + p.cells ≤ (if yellow then q.ylim else q.qlim) then put d n
      else d.tailDrop die port n yellow p.buf

/-- Empty a queue, its packets counted nowhere and released; answers how many there were. -/
def Dev.emptyQueue (d : Dev) (die n : Nat) : Dev × Nat :=
  let q := d.queue die n
  if q.pkts.isEmpty then (d, 0)
  else ((d.setQueue die n (fun q => { q with pkts := [], headF := 0, gateHeld := false })).each q.pkts
    (fun d p => d.release die p.buf), q.pkts.length)

/-- A group of queues that holds no packets has its virtual time and every tag at 0, and so have a port's weighted classes (R373). -/
def Dev.regroup (d : Dev) (die port cls : Nat) (fixed : Bool) : Dev :=
  let mine := fun (x : Queue) =>
    if fixed then fixedQ port 4 ≤ x.num && x.num ≤ fixedQ port 15 else x.num < 16384 && x.port == port && x.cls == cls
  let d := d.when ((d.route die).queues.all (fun q => !mine q || q.pkts.isEmpty)) (fun d =>
    (d.setRoute die (fun r => { r with queues := r.queues.map (fun q => if mine q then { q with fLast := 0 } else q) })).setPort die port
      (fun st => if fixed then { st with vFix := 0 } else { st with vSub := kvSet 0 st.vSub cls 0 }))
  d.when (!fixed && (List.range 8).all (fun c => d.strictCls die port c || !d.clsHolds die port c)) (fun d =>
    d.setPort die port (fun st => { st with vCls := 0, clsLast := [], clsStart := [] }))

/-- Flush a queue: every packet is dropped and counted in SCH.DROP of its port (R373, Table 13-4). -/
def Dev.flushQueue (d : Dev) (die n : Nat) : Dev :=
  let e := d.emptyQueue die n
  let q := d.queue die n
  (e.1.addc C.SCH.DROP e.2 die 0 q.port).when (e.2 != 0) (fun d => d.regroup die q.port q.cls (16384 ≤ n))

/-- Take downlinks out of a queue of a die before they are sent: their packets are dropped, and a new head gets its tag (R373). -/
def Dev.pullFrom (d : Dev) (die : Nat) (ids : List Nat) (n : Nat) : Dev :=
  let q := d.queue die n
  let mine := fun (p : Pkt) => p.dl.any (fun f => ids.contains f.id)
  let gone := q.pkts.filter mine
  let keep := q.pkts.filter (fun p => !mine p)
  if gone.isEmpty then d
  else
    let head := if keep.head? == q.pkts.head? then q.headF else keep.head?.elim 0 (fun p => d.headTag die q p)
    ((d.setQueue die n (fun q => { q with pkts := keep, headF := head })).each gone (fun d p => d.release die p.buf)).regroup die q.port q.cls
      (16384 ≤ n)

/-- Take downlinks out of a die's queues; answers how many there were. -/
def Dev.pullFrames (d : Dev) (die : Nat) (ids : List Nat) : Dev × Nat :=
  let n := (d.route die).queues.foldl (fun n q => n + (q.pkts.filter (fun p => p.dl.any (fun f => ids.contains f.id))).length) 0
  if n == 0 then (d, 0) else (d.each ((d.route die).queues.map (fun q => q.num)) (fun d m => d.pullFrom die ids m), n)

/-- Flush every queue of a port (R469). -/
def Dev.flushPort (d : Dev) (die port : Nat) : Dev :=
  d.each ((d.route die).queues.filter (fun q => q.port == port)) (fun d q => d.flushQueue die q.num)

/-! ## Lineups (R388 to R392) -/

/-- PTP time in ns. -/
def Dev.ptpNow (d : Dev) : Nat := d.time.ptpSec * 1000000000 + d.time.ptpNs

/-- A port's lineup. -/
def Dev.lineup (d : Dev) (die p : Nat) : Lineup := ((d.route die).lineups.find? (fun l => l.port == p)).getD { port := p }

/-- Change a port's lineup. -/
def Dev.setLineup (d : Dev) (die p : Nat) (f : Lineup → Lineup) : Dev :=
  d.setRoute die (fun r =>
    if r.lineups.any (fun l => l.port == p) then { r with lineups := mapIf (fun l => l.port == p) f r.lineups }
    else { r with lineups := r.lineups ++ [f { port := p }] })

/-- The intervals of a bank's cycle: from, to and gates of each entry; the list is cut at the cycle's end and the last entry lasts to it
(R389). -/
def Bank.spans (b : Bank) : List (Nat × Nat × Nat) :=
  let l := (b.entries.foldl (fun (a : Nat × List (Nat × Nat × Nat)) e =>
    (a.1 + e.2, if a.1 < b.cycle then a.2 ++ [(a.1, min b.cycle (a.1 + e.2), e.1)] else a.2)) (0, [])).2
  match l.getLast? with
  | some x => l.dropLast ++ [(x.1, b.cycle, x.2.2)]
  | none => []

/-- The place in the cycle at a PTP time. -/
def Bank.phase (b : Bank) (start now : Nat) : Nat := (now - start) % max 1 b.cycle

/-- The entry in force at a PTP time and its gates; every gate is open in an empty bank (R389). -/
def Bank.at (b : Bank) (start now : Nat) : Nat × Nat :=
  let t := b.phase start now
  match b.spans.zipIdx.find? (fun x => x.1.1 ≤ t && t < x.1.2.1) with
  | some x => (x.2, x.1.2.2)
  | none => (0, 255)

/-- How long from a PTP time gate `c` stays open, none when it never closes (R391). -/
def Bank.openFor (b : Bank) (start now c : Nat) : Option Nat :=
  let t := b.phase start now
  let two := b.spans ++ b.spans.map (fun x => (x.1 + b.cycle, x.2.1 + b.cycle, x.2.2))
  match (two.filter (fun x => t < x.2.1)).find? (fun x => !bitOf x.2.2 c) with
  | some x => some (x.1 - t)
  | none => none

/-- An Ethernet port's line rate in Mbit/s (Table 14-1). -/
def Dev.lineRate (d : Dev) (p : Nat) : Nat :=
  match d.g F.ETH.MODE_PCS 0 p with
  | 1 => 25000
  | 2 => 25000
  | 3 => 10000
  | 4 => 1000
  | 5 => 2500
  | _ => 0

/-- Whether the gates let a head packet of a class start on an Ethernet port now (R391). -/
def Dev.gateFits (d : Dev) (die port cls : Nat) (charge : Int) : Bool :=
  if 15 < port then true
  else
    let l := d.lineup die port
    match l.active with
    | none =>
      match l.pending with
      | none => true
      | some x => d.lineRate port == 0 || charge.toNat * 8000 ≤ (x.2 - d.ptpNow) * d.lineRate port
    | some b =>
      let room := match b.openFor l.start d.ptpNow cls, l.pending with
        | none, none => none
        | some a, none => some a
        | none, some x => some (x.2 - d.ptpNow)
        | some a, some x => some (min a (x.2 - d.ptpNow))
      bitOf l.gates cls && (match room with
        | none => true
        | some n => charge.toNat * 8000 ≤ n * d.lineRate port)

/-- Whether a class of an air port may be sent at a local time: its gate is open at the PTP time of that moment, in the bank that runs
then (R390, R392). -/
def Dev.airGate (d : Dev) (band cls start : Nat) : Bool :=
  let die := portOwner (airPort band)
  let l := d.lineup die (airPort band)
  let t := d.ptpNow + (start - d.time.lt) * 25 / 8
  match l.pending.filter (fun x => x.2 ≤ t), l.active with
  | some x, _ => bitOf (x.1.at x.2 t).2 cls
  | none, some b => bitOf (b.at l.start t).2 cls
  | none, none => true

/-- The classes of a wired port that flow control holds (R409, R458). -/
def Dev.classHeld (d : Dev) (port cls : Nat) : Bool :=
  if port ≤ 15 then bitOf (d.g F.ETH.STAT_PAUSED 0 port) cls
  else if port ≤ 23 then bitOf (d.g F.VXL.STAT_HELD_RX 0 (port - 16)) cls
  else false

/-! ## The scheduler (R372 to R375) -/

/-- Whether a queue is eligible; flow control and gates are those of its port (R372). -/
def Dev.eligible (d : Dev) (die : Nat) (q : Queue) : Bool :=
  match q.pkts.head? with
  | none => false
  | some p => (!q.liveShp || 16384 ≤ q.num || 0 ≤ q.credit) && !d.classHeld q.port p.cls &&
      d.gateFits die q.port p.cls (d.pktCharge die q.port p)

/-- The queue with the least tag among some, the lowest number on a tie (R373). -/
def leastTag (l : List Queue) : Option Queue :=
  l.foldl (fun (m : Option Queue) q => match m with
    | none => some q
    | some y => if q.headF < y.headF || (q.headF == y.headF && q.num < y.num) then some q else some y) none

/-- The choice of a port in the hierarchy (R372). -/
def Dev.chooseHier (d : Dev) (die port : Nat) : Option Queue :=
  let ok := (d.route die).queues.filter (fun q => q.num < 16384 && q.en && q.port == port && d.eligible die q)
  let best := fun c => leastTag (ok.filter (fun q => q.cls == c))
  match ((List.range 8).reverse.filter (fun c => d.strictCls die port c)).findSome? best with
  | some q => some q
  | none =>
    let st := d.portSt die port
    ((((List.range 8).filter (fun c => !d.strictCls die port c)).filterMap (fun c => (best c).map (fun q =>
      (kvGet 0 st.clsStart c + (q.pkts.head?.elim 0 (fun p => (d.pktCharge die port p).toNat)) * 65536 / d.clsWeight die port c, q)))).foldl
      (fun (m : Option (Nat × Queue)) x => match m with
        | none => some x
        | some y => if x.1 < y.1 then some x else some y) none).map (fun x => x.2)

/-- The choice of a port in the fixed mixture (R375). -/
def Dev.chooseFixed (d : Dev) (die port : Nat) : Option Queue :=
  let ok := (d.route die).queues.filter (fun q => fixedQ port 0 ≤ q.num && q.num ≤ fixedQ port 15 && d.eligible die q)
  match ([0, 1, 2, 3] : List Nat).findSome? (fun f => ok.find? (fun q => q.num == fixedQ port f)) with
  | some q => some q
  | none => leastTag ok

/-- The queue a port would serve next; the port shaper must hold credit at or above zero (R372, R379). -/
def Dev.choose (d : Dev) (die port : Nat) : Option Queue :=
  let st := d.portSt die port
  if st.shp && st.credit < 0 then none
  else if (d.route die).fixed then d.chooseFixed die port else d.chooseHier die port

/-- Count the head packets that a gate holds, each once (Table 13-6, GATE_WAIT). -/
def Dev.countGated (d : Dev) (die port : Nat) : Dev :=
  d.each ((d.route die).queues.filter (fun q => q.port == port)) (fun d q =>
    match q.pkts.head? with
    | none => d
    | some p =>
      if q.gateHeld || d.gateFits die port p.cls (d.pktCharge die port p) then d
      else (d.setQueue die q.num (fun q => { q with gateHeld := true })).inc C.SCH.GATE_WAIT die)

/-- Show a port's credit in signed bytes (Table 13-6). -/
def Dev.showCredit (d : Dev) (die port : Nat) : Dev :=
  d.w F.SCH.PORT_CREDIT_C (ofSigned 32 ((d.portSt die port).credit.fdiv 256)) die 0 port

/-- The effect of an EGRESS_DONE event: virtual times, charges and removal (R373, R374, R377). -/
def Dev.egressDone (d : Dev) (die port n : Nat) : Dev :=
  let q := d.queue die n
  let d := d.setPort die port (fun st => { st with taking := false })
  match q.pkts with
  | [] => d
  | p :: rest =>
    let ch := d.pktCharge die port p
    let fixed := 16384 ≤ n
    let weighted := !fixed && !d.strictCls die port q.cls
    let cf := kvGet 0 (d.portSt die port).clsStart q.cls + ch.toNat * 65536 / d.clsWeight die port q.cls
    let d := d.setPort die port (fun st => { st with
      vSub := if fixed then st.vSub else kvSet 0 st.vSub q.cls q.headF
      vFix := if fixed && fixedQ port 4 ≤ n then q.headF else st.vFix
      vCls := if weighted then cf else st.vCls
      clsLast := if weighted then kvSet 0 st.clsLast q.cls cf else st.clsLast
      credit := if st.shp then st.credit - 256 * ch else st.credit })
    let d := d.setQueue die n (fun q => { q with
      pkts := rest
      fLast := q.headF
      gateHeld := false
      credit := if q.liveShp && !fixed then q.credit - 256 * ch else q.credit })
    let d := match rest with
      | [] => d
      | x :: _ => d.setQueue die n (fun q => { q with headF := d.headTag die q x })
    let d := (d.when (weighted && d.clsHolds die port q.cls) (fun d => d.clsHead die port q.cls)).regroup die port q.cls fixed
    (((d.inc C.SCH.TX_PKTS die 0 port).addc C.SCH.TX_CHARGE ch.toNat die 0 port).release die p.buf).showCredit die port

/-- SCH.STAT.QUEUES_EN: how many queues of the host's are enabled (R397). -/
def Dev.showSch (d : Dev) (die : Nat) : Dev :=
  d.w F.SCH.STAT_QUEUES_EN (((d.route die).queues.filter (fun q => q.num < 16384 && q.en)).length) die

/-! ## Shapers (R378, R380) -/

/-- One refill of a credit in 1/256 byte. -/
def refillCredit (credit : Int) (mant exp burst : Nat) : Int := min (credit + (mant * 2 ^ exp : Nat)) ((burst * 64 * 256 : Nat) : Int)

/-- One refill of a queue's shaper: the record's values go live, a shaper newly enabled starts at 0 (R378, R380). -/
def Queue.refill (q : Queue) : Queue :=
  let c := if q.shp && !q.liveShp then 0 else q.credit
  { q with
    liveShp := q.shp
    credit := if q.shp then refillCredit c q.mant q.exp q.burst else q.credit }

/-- One refill of a port's shaper (R378, R380). -/
def Dev.refillPort (d : Dev) (die port : Nat) : Dev :=
  let en := d.g F.SCH.PORT_RATE_EN die 0 port == 1
  let mant := d.g F.SCH.PORT_RATE_MANT die 0 port
  let exp := d.g F.SCH.PORT_RATE_EXP die 0 port
  let burst := d.g F.SCH.PORT_BURST_B die 0 port
  if !en && !(d.portSt die port).shp then d
  else (d.setPort die port (fun st => { st with
    shp := en, mant := mant, exp := exp, burst := burst
    credit := if en then refillCredit (if st.shp then st.credit else 0) mant exp burst else st.credit })).showCredit die port

/-! ## Meters (R381 to R386) -/

/-- A meter's record. -/
def Dev.meter (d : Dev) (die kind i : Nat) : Meter := ((d.route die).meters.find? (fun m => m.1 == kind * 2 ^ 20 + i)).elim {} (fun m => m.2)

/-- Set a meter's record. -/
def Dev.setMeter (d : Dev) (die kind i : Nat) (m : Meter) : Dev :=
  d.setRoute die (fun r => { r with meters := r.meters.filter (fun x => x.1 != kind * 2 ^ 20 + i) ++ [(kind * 2 ^ 20 + i, m)] })

/-- A meter's token counts; full where none are listed (R383). -/
def Dev.bucket (d : Dev) (die kind i : Nat) (m : Meter) : Bucket :=
  ((d.route die).buckets.find? (fun b => b.1 == kind * 2 ^ 20 + i)).elim ⟨m.cbs * 65536, m.pbs * 65536, 0⟩ (fun b => b.2)

/-- Set a meter's token counts. -/
def Dev.setBucket (d : Dev) (die kind i : Nat) (b : Bucket) : Dev :=
  d.setRoute die (fun r => { r with buckets := r.buckets.filter (fun x => x.1 != kind * 2 ^ 20 + i) ++ [(kind * 2 ^ 20 + i, b)] })

/-- A colour: 0 green, 1 yellow, 2 red. -/
abbrev Colour := Nat

/-- The tokens a bucket holds at an event time (R383). -/
def Bucket.grown (b : Bucket) (m : Meter) (t : Nat) : Bucket :=
  let dt := t - b.last
  ⟨min (m.cbs * 65536) (b.tc + m.cir * dt * 65536 / tickSec), min (m.pbs * 65536) (b.tp + m.pir * dt * 65536 / tickSec), max b.last t⟩

/-- One two-rate three-colour metering (R383). -/
def meter3 (m : Meter) (b : Bucket) (len t : Nat) (aware : Bool) (c : Colour) : Bucket × Colour :=
  let b := b.grown m t
  let l := len * 65536
  if (aware && c == 2) || b.tp < l then (b, 2)
  else if (aware && c == 1) || b.tc < l then ({ b with tp := b.tp - l }, 1)
  else ({ b with tp := b.tp - l, tc := b.tc - l }, 0)

/-- One meter of a stage acts on a frame (R381). `stage` numbers POL.RED_BY_KIND. Answers the worst colour so far. A frame meets its first
stage green, where colour-aware and colour-blind metering agree. -/
def Dev.meterStage (d : Dev) (die stage kind i : Nat) (m : Meter) (len t : Nat) (c : Colour) : Dev × Colour :=
  if !m.en || c == 2 then (d, c)
  else
    let r := meter3 m (d.bucket die kind i m) len t m.aware c
    let d := d.setBucket die kind i r.1
    if r.2 == 2 then ((d.inc C.POL.RED die).inc C.POL.RED_BY_KIND die 0 stage, 2) else (d, max c r.2)

/-- Count the colour in which a frame leaves the last stage (Table 13-7). -/
def Dev.colourOut (d : Dev) (die : Nat) (c : Colour) : Dev :=
  if c == 0 then d.inc C.POL.GREEN die else if c == 1 then d.inc C.POL.YELLOW die else d

/-- The node stage (R384): a three-colour meter in the metered configuration, a single-rate meter in the full one. -/
def Dev.nodeStage (d : Dev) (die tenant : Nat) (detail : Option Nat) (len t : Nat) (c : Colour) : Dev × Colour :=
  let pr := kvGet 0 (d.route die).profiles tenant
  match detail with
  | none => (d, c)
  | some i =>
    if !bitOf pr 6 || c == 2 then (d, c)
    else
      let m := d.meter die 3 (pr % 64)
      if d.boot.popRunning == 0 then d.meterStage die 1 3 i m len t c
      else if !m.en then (d, c)
      else
        let b := (d.bucket die 3 i m).grown m t
        if len * 65536 ≤ b.tc then (d.setBucket die 3 i { b with tc := b.tc - len * 65536 }, c)
        else ((d.setBucket die 3 i b).inc C.POL.NODE_DROP die, 2)

/-- The stages of an uplink: node, then tenant (Table 13-2). -/
def Dev.meterUp (d : Dev) (die tenant : Nat) (detail : Option Nat) (len t : Nat) : Dev × Colour :=
  let a := d.nodeStage die tenant detail len t 0
  let b := a.1.meterStage die 2 1 tenant (a.1.meter die 1 tenant) len t a.2
  (b.1.colourOut die b.2, b.2)

/-- The stage of a downlink (Table 13-2); `c` is the colour its flow meter gave. -/
def Dev.meterDn (d : Dev) (die tenant len t : Nat) (c : Colour) : Dev × Colour :=
  let b := d.meterStage die 3 2 tenant (d.meter die 2 tenant) len t c
  (b.1.colourOut die b.2, b.2)

/-- The flow stage of a wired, host or gateway frame (Table 13-2). -/
def Dev.meterFlow (d : Dev) (die port cls len t : Nat) : Dev × Colour :=
  d.meterStage die 0 0 (8 * port + cls) (d.meter die 0 (8 * port + cls)) len t 0

end Sys2Proof.Machine
end

