-- ==== Sys2Proof/Machine/Vault.lean ====
section
/-! DEFINITION. The key vault: key commands, re-masking, the persistent blob and tamper (R264 to R298). -/

namespace Sys2Proof.Machine
open Sys2Proof

/-! ## Keys -/

/-- The slots of a key class (Table 10-1). -/
def classSlots : Nat → Nat
  | 0 => 4096
  | 1 => 64
  | 2 => 16
  | _ => 0

/-- The octets of a key of a class (Table 10-1). -/
def classLen (c : Nat) : Nat := if c == 2 then 32 else 16

/-- Whether HOLD is set (R294). -/
def Dev.vaultHold (d : Dev) : Bool := d.on F.VLT.TAMPER_STAT_HOLD

/-- A value under a mask, and the value again: an entry is held as key ⊕ mask, with the mask as wide as the entry (R283). -/
def masked (mask v : List Byte) : List Byte := v.zipIdx.map (fun e => e.1 ^^^ mask.getD e.2 0#8)

/-- The mask of a generation. -/
def Vault.mask (v : Vault) (g : Nat) : List Byte := v.masks.getD g []

/-- The key that an entry holds. -/
def Vault.plain (v : Vault) (k : VKey) : List Byte := masked (v.mask k.gen) k.val

/-- An entry that holds a key under a generation's mask. -/
def Vault.entry (v : Vault) (place g : Nat) (key : List Byte) : VKey := ⟨place, g, masked (v.mask g) key⟩

/-- A key of the vault. -/
def Dev.key (d : Dev) (c slot : Nat) : Option (List Byte) := (d.vault.keys.find? (fun k => k.place == c * 65536 + slot)).map d.vault.plain

/-- A tenant's root: none while HOLD is 1 (R275 step 1, R294). -/
def Dev.root (d : Dev) (tenant : Nat) : Option (List Byte) := if d.vaultHold then none else d.key 0 tenant

/-- Show the counts of keys in VLT.STAT (Table 10-11). -/
def Dev.showVault (d : Dev) : Dev :=
  let n := fun c => (d.vault.keys.filter (fun k => k.place / 65536 == c)).length
  ((d.w F.VLT.STAT_ROOTS (n 0)).w F.VLT.STAT_GW (n 1)).w F.VLT.STAT_SVC (n 2)

/-- Write or clear a vault entry; a key written during a sweep goes into the new generation (R283). A unit of the gateway engine that holds
the key loads it again at its next use (R273). -/
def Dev.setKey (d : Dev) (c slot : Nat) (v : Option (List Byte)) : Dev :=
  let p := c * 65536 + slot
  let g := if d.vault.sweep then 1 - d.g F.VLT.MASK_STAT_GEN else d.g F.VLT.MASK_STAT_GEN
  let rest := d.vault.keys.filter (fun k => k.place != p)
  let keys : List VKey := match v with
    | none => rest
    | some v => rest.filter (fun k => k.place < p) ++ [d.vault.entry p g v] ++ rest.filter (fun k => p < k.place)
  let units := if c == 1 then d.gw.units.filter (fun u => u.1 != slot) else d.gw.units
  { d with vault := { d.vault with keys := keys }, gw := { d.gw with units := units } }.showVault

/-- Clear every vault entry. -/
def Dev.clearVault (d : Dev) : Dev :=
  { d with vault := { d.vault with keys := [] }, gw := { d.gw with units := [] } }.showVault

/-- A key's check value: the first three octets of the encryption of a zero block (R282). -/
def kcvOf (k : List Byte) : List Byte := (aesEnc k (List.replicate 16 0#8)).take 3

/-- Range check of a key command: class, slots and count (R280). -/
def keyRange (most : Nat) (_ : Dev) (c : Cmd) : Option Nat :=
  if 2 < c.par 24 1 || c.cnt == 0 || most < c.cnt || classSlots (c.par 24 1) < c.par 26 2 + c.cnt then some 0 else none

/-- KEY_IMPORT's range check (Table 10-5, R281). -/
def importRange (d : Dev) (c : Cmd) : Option Nat :=
  let cls := c.par 24 1
  let wrap := c.par 25 1
  match keyRange 256 d c with
  | some r => some r
  | none =>
    if wrap == 0xFF then
      if c.len != c.cnt * classLen cls || cls != 2 || 4 < c.par 26 2 + c.cnt then some 0 else none
    else if 3 < wrap || c.len != c.cnt * (classLen cls + 8) then some 0
    else if !d.vaultHold && (d.key 2 wrap).isNone then some 0
    else none

/-- The keys of an import in slot order: each is checked, then written; the first that fails stops it (R281). Answers the count loaded and
whether a check failed. -/
def Dev.importKeys (d : Dev) (cls first : Nat) (kek : Option (List Byte)) : List (List Byte) → Nat → Dev × Nat × Bool
  | [], n => (d, n, false)
  | b :: bs, n =>
    let v := match kek with
      | none => if (d.key cls first).isSome then none else some b
      | some k => keyUnwrap k b
    match v with
    | none => (d.when kek.isSome (fun d => d.inc C.VLT.UNWRAP_FAIL), n, true)
    | some v => Dev.importKeys ((d.setKey cls first (some v)).inc C.VLT.IMPORTS) cls (first + 1) kek bs (n + 1)

/-- KEY_IMPORT, command 0x0301: keys, wrapped or clear, into consecutive slots (R281). -/
def execKeyImport (id : Nat) (dmaErr : Bool) (stopAt : Option Nat) (s : State) : Answer :=
  runHost s (fun h d => (d.runCmd 0x0301 id dmaErr importRange (fun d c =>
    let cls := c.par 24 1
    let wrap := c.par 25 1
    if d.vaultHold then (d, c.bad stDown)
    else if wrap == 0xFF && d.mode != mBringup then (d, c.bad stMode)
    else if wrap == 0xFF && d.locked ⟨.VLT, 0, 0⟩ then (d, c.bad stLocked)
    else
      let w := if wrap == 0xFF then classLen cls else classLen cls + 8
      let n := stopAt.elim c.cnt (fun k => min k c.cnt)
      let parts := (List.range n).map (fun i => memRead h (c.addr + w * i) w)
      let kek := if wrap == 0xFF then none else d.key 2 wrap
      let r := Dev.importKeys d cls (c.par 26 2) kek parts 0
      if r.2.2 then (r.1, c.bad stRange r.2.1)
      else if r.2.1 < c.cnt then (r.1, c.bad stDown r.2.1)
      else (r.1, c.ok)), []))

/-- KEY_ERASE, command 0x0302: zeroises slots (Table 10-5). -/
def execKeyErase (id : Nat) (s : State) : Answer :=
  run s (fun d => d.runCmd 0x0302 id false (keyRange 4096) (fun d c =>
    if d.vaultHold then (d, c.bad stDown)
    else (d.each (List.range c.cnt) (fun d i => d.setKey (c.par 24 1) (c.par 26 2 + i) none), c.ok)))

/-- KEY_KCV's range check: LENGTH is four octets a slot (Table 10-5). -/
def kcvRange (d : Dev) (c : Cmd) : Option Nat :=
  match keyRange 256 d c with
  | some r => some r
  | none => if c.len == 4 * c.cnt then none else some 0

/-- KEY_KCV, command 0x0303: check values and presence (R282). -/
def execKeyKcv (id : Nat) (dmaErr : Bool) (s : State) : Answer :=
  runHost s (fun h d => d.runCmdH h 0x0303 id dmaErr
    kcvRange
    (fun _ d c => (d, c.ok, (List.range c.cnt).flatMap (fun i =>
      match d.key (c.par 24 1) (c.par 26 2 + i) with
      | none => [0#8, 0#8, 0#8, 0#8]
      | some k => kcvOf k ++ [1#8]))))

/-! ## The persistent key blob (R285 to R288) -/

/-- A blob slot. -/
def Dev.blob (d : Dev) (i : Nat) : BlobSlot := d.blobs.getD i {}
/-- Show the slots in BLOB_STAT. -/
def Dev.showBlobs (d : Dev) : Dev :=
  let st := fun i => match (d.blob i).state with
    | 0 => 0
    | 2 => 2
    | _ => 1
  (d.w F.VLT.BLOB_STAT_SLOT0 (st 0)).w F.VLT.BLOB_STAT_SLOT1 (st 1)
/-- Write a blob slot. -/
def Dev.setBlob (d : Dev) (i : Nat) (b : BlobSlot) : Dev := { d with blobs := d.blobs.set i b }.showBlobs

/-- The keys of the vault as a blob carries them (R285, R286). -/
def Dev.snapshot (d : Dev) : List VKey := d.vault.keys.map (fun (k : VKey) => ⟨k.place, 0, d.vault.plain k⟩)

/-- The bits of a map of octets, least significant first. -/
def mapOctets (n : Nat) (l : List Nat) : List Byte := (List.range n).flatMap (fun i => toLE 1 (ofBits ((l.filter (fun p => p / 8 == i)).map (fun p => p % 8))))

/-- A blob's length (R285). -/
def blobLength (ks : List VKey) : Nat :=
  592 + 16 * (ks.filter (fun k => k.place < 2 * 65536)).length + 32 * (ks.filter (fun k => 2 * 65536 ≤ k.place)).length

/-- The octets of a valid blob under the device-unique key: the header, the present keys encrypted in slot order, and the tag (Table 10-6). -/
def BlobSlot.octets (b : BlobSlot) (unique : List Byte) : List Byte :=
  let cls := fun (c : Nat) => (b.keys.filter (fun k => k.place / 65536 == c)).map (fun k => k.place % 65536)
  let iv := toLE 4 b.seq ++ padTo 8 b.iv
  let head := toLE 4 0x4B424C42 ++ toLE 4 b.seq ++ toLE 4 (blobLength b.keys) ++ toLE 2 (cls 0).length ++ toLE 1 (cls 1).length ++
    toLE 1 (cls 2).length ++ iv ++ mapOctets 8 (cls 1) ++ mapOctets 2 (cls 2) ++ List.replicate 26 0#8 ++ mapOctets 512 (cls 0)
  let s := gcmSeal unique iv head (b.keys.flatMap (fun k => k.val))
  head ++ s.1 ++ s.2

/-- The slot that KEY_PERSIST writes (R286 step 1): one that is invalid, slot 0 when both are, else the valid slot with the lower SEQ. -/
def Dev.persistSlot (d : Dev) : Nat :=
  let ok := fun i => (d.blob i).state == 1 || (d.blob i).state == 3
  if !ok 0 then 0 else if !ok 1 then 1 else if (d.blob 1).seq < (d.blob 0).seq then 1 else 0

/-- KEY_PERSIST's range check: the blob fits its slot (R285). -/
def persistRange (d : Dev) (_ : Cmd) : Option Nat := if !d.vaultHold && 65536 < blobLength d.vault.keys then some 0 else none

/-- KEY_PERSIST, command 0x0304: the vault's snapshot is written to the chosen slot and becomes the loaded blob (R286); the fates of Tables
10-7 and 10-10 leave the slot invalid. -/
def execKeyPersist (id : Nat) (fate : PersistEnd) (s : State) : Answer :=
  run s (fun d => d.runCmd 0x0304 id false
    persistRange
    (fun d c =>
      if d.vaultHold then (d, c.bad stDown)
      else
        let i := d.persistSlot
        let seq := d.g F.VLT.BLOB_SEQ_SEQ + 1
        let iv := d.freshBytes 8
        let good : BlobSlot := ⟨1, seq, d.snapshot, iv.1⟩
        let d := iv.2
        let bad : BlobSlot := ⟨2, 0, [], []⟩
        let fin := fun (d : Dev) => (((d.setBlob i good).w F.VLT.BLOB_SEQ_SEQ seq).w F.VLT.BLOB_STAT_LOADED (i + 1)).inc C.VLT.PERSISTS
        match fate with
        | .done => (fin d, c.ok seq)
        | .readFail => (d.setBlob i bad, c.bad stDma)
        | .tamper => (d.setBlob i bad, c.bad stDown)
        | .powerLost step => if 5 < step then (fin d, c.ok seq) else ((d.setBlob i bad).w F.VLT.BLOB_STAT_PERSIST_BUSY 1, c.later)))

/-- The blob slots in the order a load tries them: the valid one with the higher SEQ first (R287). -/
def Dev.blobOrder (d : Dev) : List Nat :=
  let v := ([0, 1] : List Nat).filter (fun i => (d.blob i).state == 1 || (d.blob i).state == 3)
  if v.length == 2 && (d.blob 0).seq < (d.blob 1).seq then [1, 0] else v

/-- Load the newest valid blob into the empty vault; a slot that fails to decrypt raises BLOB_INVALID and the other is loaded; with none the
vault is empty (R287). Answers the SEQ loaded, 0 for none. -/
def Dev.loadBlob (d : Dev) : Dev × Nat :=
  let d := (d.clearVault.w F.VLT.BLOB_SEQ_SEQ 0).w F.VLT.BLOB_STAT_LOADED 0
  let bad := d.blobOrder.head?.elim false (fun i => (d.blob i).state == 3)
  let d := d.when bad (fun d => d.raise E.VLT.BLOB_INVALID)
  match d.blobOrder.find? (fun i => (d.blob i).state == 1) with
  | none => (d, 0)
  | some i =>
    let g := d.g F.VLT.MASK_STAT_GEN
    let d := { d with vault := { d.vault with keys := (d.blob i).keys.map (fun (k : VKey) => d.vault.entry k.place g k.val) } }.showVault
    ((d.w F.VLT.BLOB_SEQ_SEQ (d.blob i).seq).w F.VLT.BLOB_STAT_LOADED (i + 1), (d.blob i).seq)

/-- VAULT_RELOAD, command 0x0305: clears the vault and loads the newest valid blob (Table 10-5). -/
def execVaultReload (id : Nat) (s : State) : Answer :=
  run s (fun d => d.runCmd 0x0305 id false noRange (fun d c =>
    if d.vaultHold then (d, c.bad stDown)
    else
      let r := d.loadBlob
      (r.1, c.ok r.2)))

/-! ## Working key registers (R272, R273) -/

/-- A counted key is loaded into an engine's working key register for `n` uses; with none it is cleared to zero. -/
def Dev.wkLoad (d : Dev) (die r e n : Nat) : Dev :=
  ((d.w F.CRY.WK_LOADED (b2n (n != 0)) die r e).w F.CRY.WK_ATTR 0 die r e).w F.CRY.WK_COUNT n die r e

/-- One use of an engine's register: its count falls by one, and at 0 it is cleared in the same step; none for an unusable register. -/
def Dev.wkUse (d : Dev) (die r e : Nat) : Option Dev :=
  if d.on F.CRY.WK_LOADED die r e then some (d.wkLoad die r e (d.g F.CRY.WK_COUNT die r e - 1)) else none

/-- A downlink's job: its key is loaded for one use and used. -/
def Dev.wkOnce (d : Dev) (die r e : Nat) : Dev := ((d.wkLoad die r e 1).wkUse die r e).getD d

/-- The crypto job that verified a node's latest frame, while it holds its reservation. -/
def Dev.jobOf (d : Dev) (die : Nat) (k : NodeKey) : Option Job := ((d.route die).jobs.reverse).find? (fun j => j.key == some k)

/-- The use of a working key that builds a reply (R273): that of the uplink's job, which an abort may have made unusable, or a key of its own once that
job's reservation has been released. None counts in COUNT_EXHAUSTED and drops the reply. -/
def Dev.replyKey (d : Dev) (die : Nat) (job : Option Nat) : Dev × Bool :=
  match job.bind (fun id => (d.route die).jobs.find? (fun j => j.id == id)) with
  | none => (d, true)
  | some j => ((d.wkUse die j.region j.engine).map (fun d => (d, true))).getD (d.inc C.CRY.COUNT_EXHAUSTED die j.region, false)

/-- What is left in the register of a job is cleared (R273). -/
def Dev.wkEnd (d : Dev) (die : Nat) (job : Option Nat) : Dev :=
  (job.bind (fun id => (d.route die).jobs.find? (fun j => j.id == id))).elim d (fun j => d.wkLoad die j.region j.engine 0)

/-! ## Tamper (R292 to R296) -/

/-- TAMPER_ACK, command 0x0306: clears HOLD when no enabled source of level 2 or 3 is asserted, else UNIT_DOWN (Table 10-5). -/
def execTamperAck (id : Nat) (s : State) : Answer :=
  run s (fun d => d.runCmd 0x0306 id false noRange (fun d c =>
    if (List.range 7).any (fun i => bitOf (d.g F.VLT.TAMPER_STAT_ASSERTED) i && d.on F.VLT.TAMPER_CFG_EN 0 0 i &&
        2 ≤ d.g F.VLT.TAMPER_CFG_LEVEL 0 0 i) then (d, c.bad stDown)
    else (d.w F.VLT.TAMPER_STAT_HOLD 0, c.ok)))

/-- Level 1 (Table 10-9): every working key register is cleared, and the jobs in progress are aborted: the downlinks that one has built and that still wait
are dropped and counted (Table 10-4). An uplink's job that the reaction aborts is one whose event carries that fate. -/
def Dev.tamperJobs (d : Dev) : Dev :=
  { d with gw := { d.gw with units := [] } }.each [1, 2] (fun d die =>
    let d := d.each (d.route die).jobs (fun d j =>
      let r := d.pullFrames die j.frames
      r.1.when (r.2 != 0) (fun d => d.addc C.CRY.TAMPER_ABORT r.2 die j.region))
    d.each (List.range 4) (fun d r => d.each (List.range 5) (fun d e => d.wkLoad die r e 0)))

/-- Level 3 (Table 10-9): MAGIC of both slots is zeroed and both erases start; in DOZE region A0 is powered for as long as they take (R28). -/
def Dev.tamperErase (d : Dev) : Dev :=
  let d := ((d.setBlob 0 ⟨2, 0, [], []⟩).setBlob 1 ⟨2, 0, [], []⟩).w F.VLT.BLOB_STAT_ERASE_BUSY 1
  d.when (d.ms.dozeStep == 6) (fun d => { d with pwr := { d.pwr with powered := putBit d.pwr.powered 0 true } })

/-- A source acts at its level, each level with every lower one (R293, Table 10-9). -/
def Dev.tamperAct (d : Dev) (i : Nat) : Dev :=
  let lv := d.g F.VLT.TAMPER_CFG_LEVEL 0 0 i
  let t := d.time.lt
  let d := (d.inc C.VLT.TAMPER_EVENTS).wBit F.VLT.TAMPER_LATCH_SRC i true
  let d := (d.w F.VLT.TAMPER_TIME_LO_T t).w F.VLT.TAMPER_TIME_HI_T (t / 2 ^ 32)
  let d := (d.w F.VLT.TAMPER_STAT_LAST_SRC i).w F.VLT.TAMPER_STAT_LAST_LEVEL lv
  let d := d.logRec 0x0501 3 0 (toLE 1 i ++ toLE 1 lv)
  let d := d.raise E.VLT.TAMPER
  let d := d.when (1 ≤ lv) (fun d => d.tamperJobs)
  let d := d.when (2 ≤ lv) (fun d =>
    let d := (d.clearVault.w F.VLT.TAMPER_STAT_HOLD 1)
    let d := { d with vault := { d.vault with
      sweep := false, masks := [[], []], uniqueKey := masked (d.vault.mask (d.g F.VLT.MASK_STAT_GEN)) d.vault.uniqueKey } }
    d.releaseToken 5 (2 ^ 3))
  d.when (lv == 3) (fun d => d.tamperErase)

/-- TAMPER_REARM: the condition has been absent for FILTER µs (R292). -/
def execTamperRearm (source : Nat) (s : State) : Answer :=
  run s (fun d => if source < 7 then d.wBit F.VLT.TAMPER_STAT_ASSERTED source false else d)

/-- TAMPER_ERASE_DONE: both key blob slots are erased (Table 10-9); in DOZE region A0 is gated again (R28). -/
def execTamperEraseDone (s : State) : Answer :=
  run s (fun d => if !d.on F.VLT.BLOB_STAT_ERASE_BUSY then d
    else (((d.setBlob 0 {}).setBlob 1 {}).w F.VLT.BLOB_STAT_ERASE_BUSY 0).when (d.ms.dozeStep == 6) (fun d =>
      { d with pwr := { d.pwr with powered := putBit d.pwr.powered 0 false } }))

/-! ## Re-masking (R283, R284) -/

/-- Milliseconds since the last completed sweep, saturating (Table 10-11). -/
def Dev.showMaskAge (d : Dev) : Dev := d.w F.VLT.MASK_STAT_AGE (min 65535 ((d.time.lt - d.vault.sweptAt) / 320000))

/-- REMASK_START: PERIOD × 100 ms after the last sweep a sweep is requested under the token of region A3; PERIOD 0 disables it
(R284). -/
def execRemaskStart (s : State) : Answer :=
  run s (fun d => if d.g F.VLT.MASK_CFG_PERIOD == 0 || d.vault.sweep || d.holds 5 (2 ^ 3) || !d.booted then d
    else (d.requestToken ⟨5, 2 ^ 3, none, 0⟩).1)

/-- REMASK_DONE: the sweep has rewritten every entry into the new generation; the old mask is discarded and the token released
(R283). -/
def execRemaskDone (s : State) : Answer :=
  run s (fun d => if !d.holds 5 (2 ^ 3) then d
    else
      let old := d.g F.VLT.MASK_STAT_GEN
      let g := 1 - old
      let d := { d with vault := { d.vault with
        keys := d.vault.keys.map (fun (k : VKey) => d.vault.entry k.place g (d.vault.plain k))
        uniqueKey := masked (d.vault.mask g) (masked (d.vault.mask old) d.vault.uniqueKey)
        masks := d.vault.masks.set old [], sweep := false, sweptAt := d.time.lt } }
      (((d.w F.VLT.MASK_STAT_GEN g).showMaskAge).inc C.VLT.REMASKS).releaseToken 5 (2 ^ 3))

/-- REMASK_LATE: AGE exceeds twice the period and MASK_LATE is raised (R284). -/
def execRemaskLate (s : State) : Answer :=
  run s (fun d =>
    let d := d.showMaskAge
    if d.g F.VLT.MASK_CFG_PERIOD != 0 && 200 * d.g F.VLT.MASK_CFG_PERIOD < d.g F.VLT.MASK_STAT_AGE then d.raise E.VLT.MASK_LATE
    else d)

end Sys2Proof.Machine
end

