-- ==== Sys2Proof/Machine/Captain.lean ====
section
/-! DEFINITION. Captain commands, the event log, scoreboards and precise sampling (chapter 19). -/

namespace Sys2Proof.Machine
open Sys2Proof

/-! ## Captain commands -/

/-- CPT_INFO, command 0x0901: the captain information block (R536, Table 19-1). -/
def execCptInfo (id : Nat) (dmaErr : Bool) (s : State) : Answer :=
  runHost s (fun h d => d.runCmdH h 0x0901 id dmaErr (lenIs 64) (fun _ d c =>
    (d, c.ok, padTo 64 (toLE 4 (d.g F.CPT.FW_VER_VER) ++ toLE 1 (d.g F.BTL.BOOT_BANK_BANK) ++
      toLE 4 (d.g F.BTL.BOOT_SEQ_SEQ) ++ toLE 8 d.cpt.eui64 ++ toLE 8 d.time.lt ++ toLE 1 d.mode ++
      toLE 1 (d.g F.TWN.STAT_STATE)))))

/-- A 4-octet register word of the SNS page. -/
def Dev.snsWord (d : Dev) (v : Fld) (valid : Option Fld) (i : Nat) : List Byte :=
  toLE 4 (d.g v 0 0 i + valid.elim 0 (fun f => 32768 * d.g f 0 0 i))

/-- SENSOR_READ, command 0x0907: sensor and pace readings (R536, Table 19-1). -/
def execSensorRead (id : Nat) (dmaErr : Bool) (s : State) : Answer :=
  runHost s (fun h d => d.runCmdH h 0x0907 id dmaErr (lenIs 184) (fun _ d c =>
    (d, c.ok, padTo 184 (
      (List.range 24).flatMap (fun i => d.snsWord F.SNS.TEMP_VALUE (some F.SNS.TEMP_VALID) i) ++
      (List.range 12).flatMap (fun i => d.snsWord F.SNS.SUPPLY_MV (some F.SNS.SUPPLY_VALID) i) ++
      (List.range 7).flatMap (fun i => d.snsWord F.SNS.DIE_PACE_PACE none i)))))

/-- DEBUG_CHAL, command 0x0908: draws and writes a 16-byte challenge (R538); its octets are free. -/
def execDebugChal (id : Nat) (dmaErr : Bool) (s : State) : Answer :=
  runHost s (fun h d => d.runCmdH h 0x0908 id dmaErr (lenIs 16) (fun _ d c =>
    let r := d.freshBytes 16
    ({ r.2 with cpt := { r.2.cpt with challenge := some r.1 } }, c.ok, r.1)))

/-- What a debug response is the AES-CMAC of (R538). -/
def Dev.debugText (d : Dev) (chal : List Byte) (scope : Nat) : List Byte := toLE 1 0x44 ++ chal ++ toLE 8 d.cpt.eui64 ++ toLE 1 scope

/-- Whether a response opens the scope: there is a challenge, a management key in the slot, and they agree. -/
def Dev.debugGood (d : Dev) (slot scope : Nat) (resp : List Byte) : Bool :=
  match d.cpt.challenge, d.key 2 slot with
  | some ch, some k => (aesCmac k (d.debugText ch scope)).take 16 == resp
  | _, _ => false

/-- DEBUG_UNLOCK, command 0x0909: the response is checked against the challenge, which serves this one attempt, and opens the debug UART and the private
JTAG instructions that SCOPE names; a failed attempt raises DEBUG_AUTH and blocks further attempts (R538). -/
def execDebugUnlock (id : Nat) (dmaErr : Bool) (s : State) : Answer :=
  run s (fun d => d.runCmd 0x0909 id dmaErr
    (fun d c => if c.len != 16 || c.par 24 1 < 4 || 7 < c.par 24 1 || 3 < c.par 25 1 || d.cpt.blocked then some 0 else none) (fun d c =>
    let slot := c.par 24 1
    let scope := c.par 25 1
    let good := d.debugGood slot scope (c.buf s.host 16)
    let d := { d with cpt := { d.cpt with challenge := none } }.logRec 0x0A01 2 0 (toLE 1 slot ++ toLE 1 scope ++ toLE 1 (b2n good))
    if good then
      ((d.w F.CPT.STAT_DEBUG_UART (b2n (d.on F.CPT.STAT_DEBUG_UART || bitOf scope 0))).w F.CPT.STAT_DEBUG_JTAG
        (b2n (d.on F.CPT.STAT_DEBUG_JTAG || bitOf scope 1)), c.ok)
    else ({ d.raise E.CPT.DEBUG_AUTH with cpt := { d.cpt with blocked := true } }, c.bad stRange)))

/-- DEBUG_BLOCK_EXPIRY: 10 s after a failed unlock attempt, attempts are accepted again (R538). -/
def execDebugBlockExpiry (s : State) : Answer := run s (fun d => { d with cpt := { d.cpt with blocked := false } })

/-! ## The event log -/

/-- A log record's 32 octets (Table 19-3). -/
def LogRec.bytes (r : LogRec) : List Byte :=
  let b := toLE 4 r.seq ++ toLE 8 r.time ++ toLE 2 r.code ++ toLE 1 (r.sev % 4 + 16 * (r.die % 8)) ++ [0#8] ++
    padTo 12 r.data ++ toLE 2 r.boot
  b ++ toLE 2 (crc16h b)

/-- Every log record held, oldest first. -/
def Dev.logAll (d : Dev) : List LogRec := d.log.flash.flatten ++ d.log.ram

/-- LOG_READ, command 0x0903: log records from a SEQ onward (R536, Table 19-1). -/
def execLogRead (id : Nat) (dmaErr : Bool) (s : State) : Answer :=
  runHost s (fun h d => d.runCmdH h 0x0903 id dmaErr
    (fun _ c => if c.cnt ≤ 8192 && 32 * c.cnt ≤ c.len then none else some 0)
    (fun _ d c =>
      let l := (d.logAll.filter (fun r => c.par 28 4 ≤ r.seq)).take c.cnt
      (d, c.ok (l.head?.elim 0 (·.seq)), l.flatMap LogRec.bytes)))

/-- Start programming a page of at most 128 records, unless one is in programming or a key blob write goes first (R544). -/
def Dev.logStart (d : Dev) : Dev :=
  if d.log.busy != 0 || d.log.ram.isEmpty || d.on F.VLT.BLOB_STAT_PERSIST_BUSY then d
  else { d with log := { d.log with busy := min 128 d.log.ram.length } }

/-- LOG_FLUSH, command 0x0904: programs every unflushed record; completes when they are programmed (R536, R544). -/
def execLogFlush (id : Nat) (s : State) : Answer :=
  run s (fun d => d.runCmd 0x0904 id false noRange (fun d c =>
    if d.log.ram.isEmpty then (d, c.ok)
    else ({ d with log := { d.log with flushCmds := d.log.flushCmds ++ [(id, d.log.last)] } }.logStart, c.later)))

/-- LOG_FLUSH_TIMER: FLUSH ms after the oldest unflushed record, or at 128 records, the log is flushed; a FLUSH of 0 flushes
only at 128 records (R544). -/
def execLogFlushTimer (s : State) : Answer :=
  run s (fun d => if d.g F.CPT.LOG_CFG_FLUSH == 0 && d.log.ram.length < 128 then d else d.logStart)

/-- The pages of the flash ring, and of one sector (R544: 4 MiB in 64 sectors, 4 KiB pages). -/
def logPages : Nat := 1024
/-- See `logPages`. -/
def logSectorPages : Nat := 16

/-- The ring with a page programmed at its place; entering a sector erases it, discarding its oldest records (R544). -/
def Log.program (l : Log) (page : List LogRec) : Log :=
  let fl := if l.pageNo % logSectorPages == 0 && logPages - logSectorPages < l.flash.length
    then l.flash.drop logSectorPages else l.flash
  { l with flash := fl ++ [page], pageNo := l.pageNo + 1 }

/-- Skip to the next sector, leaving the rest of this one empty (Table 19-12). -/
def Log.nextSector (l : Log) : Log :=
  forN ((logSectorPages - l.pageNo % logSectorPages) % logSectorPages) l (fun l _ => l.program [])

/-- Complete the LOG_FLUSH commands whose records are programmed. -/
def Dev.flushDone (d : Dev) : Dev :=
  let done := d.log.flushCmds.filter (fun f => d.log.ram.all (fun r => f.2 < r.seq))
  let d := { d with log := { d.log with flushCmds := d.log.flushCmds.filter (fun f => !done.contains f) } }
  d.each done (fun d f => d.finish f.1 { tryM := 4, okM := 4 })

/-- LOG_PAGE_PROGRAMMED: a page finishes programming; on a failure LOG_FLASH is raised and the captain moves to the next
sector, the records staying in RAM (R544, Table 19-12). -/
def execLogPageProgrammed (ok : Bool) (s : State) : Answer :=
  run s (fun d =>
    if d.log.busy == 0 then d
    else if ok then
      let l := d.log.program (d.log.ram.take d.log.busy)
      let d := { d with log := { l with ram := d.log.ram.drop d.log.busy, busy := 0 } }
      let d := d.w F.CPT.LOG_STAT_UNFLUSHED d.log.ram.length
      let d := d.w F.CPT.LOG_OLDEST_SEQ ((d.logAll.head?).elim 0 (·.seq))
      let d := d.flushDone
      if d.log.flushCmds.isEmpty then d else d.logStart
    else ({ d with log := { d.log.nextSector with busy := 0 } }.raise E.CPT.LOG_FLASH).logStart)

/-! ## Scoreboards -/

/-- The octets of a page's counters in a dump: from offset 0x800 to its highest counter (R549). -/
def pageBody (p : Page) : Nat :=
  ((ctrsOf p.tag).filter (fun c => !c.only0 || p.inst == 0)).foldl (fun m c => max m (c.off - 0x800 + 8 * c.n)) 0

/-- The pages with counters in dump order: by die, then by page number (R549). -/
def bodyPages : List Page :=
  (List.range 7).flatMap (fun x => allPages.filter (fun p => p.die == x && pageBody p != 0))

/-- The body size (SBD.STAT.BODY, R549). -/
def bodySize : Nat := bodyPages.foldl (fun n p => n + pageBody p) 0

/-- The length of a dump: header and body, padded to a multiple of 4 KiB (R549). -/
def dumpLength : Nat := (64 + bodySize + 4095) / 4096 * 4096

/-- A dump's body: every counter of every powered page at the capture tick (R548, R549). -/
def Dev.dumpBody (d : Dev) : List Byte :=
  bodyPages.flatMap (fun p => (List.range (pageBody p / 8)).flatMap (fun k =>
    toLE 8 (if p.poweredBy d.pwr.powered then kvGet 0 d.rf.ctrs (p.base + 0x800 + 8 * k) else 0)))

/-- A dump's header (Table 19-5). -/
def Dev.dumpHeader (d : Dev) : List Byte :=
  let b := toLE 4 0x53424F44 ++ toLE 4 (d.g F.SBD.LAST_SEQ_SEQ + 1) ++ toLE 4 dumpLength ++ toLE 4 bodySize ++
    toLE 8 d.time.lt ++ toLE 6 d.time.ptpSec ++ toLE 2 0 ++ toLE 4 d.time.ptpNs ++ toLE 4 d.sb.missed ++
    toLE 4 d.pwr.powered ++ toLE 1 d.mode ++ toLE 1 d.disc ++ toLE 14 0
  b ++ toLE 4 (crc32cStd b)

/-- A change of the ring takes hold: SEQ, TAIL and HEAD start over (Table 19-10). -/
def Dev.ringRenew (d : Dev) : Dev :=
  (({ d with sb := { d.sb with renew := false } }.w F.SBD.LAST_SEQ_SEQ 0).w F.SBD.RING_TAIL_T 0).w F.SBD.RING_HEAD_H 0

/-- SCOREBOARD_CAPTURE: at a capture tick every counter copies into its shadow; a capture that finds no room, or falls while
a dump is being written, is skipped and counted (R547 to R550). None is made in DOZE, and the first after the wake counts those missed (Table 19-7). -/
def execScoreboardCapture (s : State) : Answer :=
  run s (fun d =>
    let lg := d.g F.SBD.RING_CFG_SIZE_LOG2
    if lg == 0 || (d.g F.SBD.CFG_PERIOD == 0 && !d.sb.nowDue) then d
    else if d.mode == mDoze then { d with sb := { d.sb with dozed := d.sb.dozed + 1 } }
    else
      let d := d.when (d.sb.dozed != 0) (fun d => d.addc C.SBD.SKIPPED d.sb.dozed)
      let d := { d with sb := { d.sb with nowDue := false, missed := d.sb.missed + d.sb.dozed, dozed := 0 } }
      let used := (d.g F.SBD.RING_TAIL_T + 2 ^ 32 - d.g F.SBD.RING_HEAD_H) % 2 ^ 32
      if d.on F.SBD.STAT_BUSY || 2 ^ lg < used + dumpLength then
        { d with sb := { d.sb with missed := d.sb.missed + 1 } }.inc C.SBD.SKIPPED
      else
        let d := { d with sb := { d.sb with
          header := d.dumpHeader
          body := d.dumpBody
          base := d.g F.SBD.RING_BASE_LO_A / 4096 * 4096 + 2 ^ 32 * d.g F.SBD.RING_BASE_HI_A
          sizeLog2 := lg
          missed := 0 } }
        (d.w F.SBD.STAT_BODY bodySize).w F.SBD.STAT_BUSY 1)

/-- Octets written into a ring of 2^lg octets from a count onward (R550). -/
def ringWrite (m : List Host.Cell) (base lg pos : Nat) (bs : List Byte) : List Host.Cell :=
  let a := pos % 2 ^ lg
  let first := 2 ^ lg - a
  memWrite (memWrite m (base + a) (bs.take first)) base (bs.drop first)

/-- SCOREBOARD_DUMP_WRITTEN: the dump is written, RING_TAIL advances and vector 10 fires; on a DRAM write error RING_DMA is
raised and the dump is not published (R550, Table 19-12). -/
def execScoreboardDumpWritten (dmaErr : Bool) (s : State) : Answer :=
  run s (fun d =>
    if !d.on F.SBD.STAT_BUSY then d
    else
      let d := d.w F.SBD.STAT_BUSY 0
      if dmaErr then
        ({ d with sb := { d.sb with missed := d.sb.missed + 1, header := [], body := [] } }.when d.sb.renew (fun d => d.ringRenew)).raise E.SBD.RING_DMA
      else
        let t := d.g F.SBD.RING_TAIL_T
        let d := { d with sb := { d.sb with
          ring := ringWrite d.sb.ring d.sb.base d.sb.sizeLog2 t (padTo dumpLength (d.sb.header ++ d.sb.body))
          header := []
          body := [] } }
        let d := (d.w F.SBD.RING_TAIL_T (t + dumpLength)).w F.SBD.LAST_SEQ_SEQ (d.g F.SBD.LAST_SEQ_SEQ + 1)
        ((d.inc C.SBD.DUMPS).when d.sb.renew (fun d => d.ringRenew)).fireVec 10)

/-- SB_NOW, command 0x0905: adds one capture at the next tick; RANGE when dumping is disabled (R536, R547). -/
def execSbNow (id : Nat) (s : State) : Answer :=
  run s (fun d => d.runCmd 0x0905 id false
    (fun d _ => if d.g F.SBD.RING_CFG_SIZE_LOG2 == 0 then some 0 else none)
    (fun d c => ({ d with sb := { d.sb with nowDue := true } }, c.ok)))

/-! ## Precise sampling (R551, R552) -/

/-- The sampling buffer of a Route die. -/
def Dev.samples (d : Dev) (die : Nat) : List SampRec := if die == 1 then d.cpt.samp0 else d.cpt.samp1

/-- Replace the sampling buffer of a Route die and show its count. -/
def Dev.setSamples (d : Dev) (die : Nat) (l : List SampRec) : Dev :=
  let d := if die == 1 then { d with cpt := { d.cpt with samp0 := l } } else { d with cpt := { d.cpt with samp1 := l } }
  d.w F.PLY.PS_STAT_COUNT l.length die

/-- Whether an instruction is one to record: the engine's count at it is a multiple of 2^N (R551). -/
def Dev.sampled (d : Dev) (die : Nat) (x : Sampled) : Bool := d.on F.PLY.PS_CFG_EN die && x.count % 2 ^ d.g F.PLY.PS_CFG_N die == 0

/-- Take one sampling record: one that meets the buffer busy is lost; with WRAP 0 a full buffer stops recording and later records are lost; with WRAP 1 the newest
replaces the oldest (R552). -/
def Dev.sample (d : Dev) (die : Nat) (busy : Bool) (r : SampRec) : Dev :=
  if busy then d.inc C.PLY.PS_LOST die
  else if (d.samples die).length < 4096 then
    let d := (d.setSamples die (d.samples die ++ [r])).inc C.PLY.PS_RECORDS die
    d.when ((d.samples die).length == 4096 && !d.on F.PLY.PS_CFG_WRAP die) (fun d => d.w F.PLY.PS_STAT_FULL 1 die)
  else if d.on F.PLY.PS_CFG_WRAP die then
    (d.setSamples die ((d.samples die).drop 1 ++ [r])).inc C.PLY.PS_RECORDS die
  else d.inc C.PLY.PS_LOST die

/-- A sampling record's 16 octets (Table 19-6). -/
def SampRec.bytes (r : SampRec) : List Byte :=
  toLE 4 (r.pbAddr % 2 ^ 20 + 2 ^ 20 * (r.engine % 128)) ++ toLE 4 (r.handle % 2 ^ 15 + 2 ^ 16 * (r.kind % 16)) ++
    toLE 4 r.latency ++ toLE 4 r.seq

/-- PS_READ, command 0x0906: drains sampling records, oldest first, from the addressed Route die (R536, R552). -/
def execPsRead (id : Nat) (dmaErr : Bool) (s : State) : Answer :=
  runHost s (fun h d => d.runCmdH h 0x0906 id dmaErr
    (fun _ c => if c.cnt ≤ 4096 && c.len == 16 * c.cnt then none else some 0)
    (fun _ d c =>
      let die := if c.target == 1 then 1 else 2
      let l := (d.samples die).take c.cnt
      ((d.setSamples die ((d.samples die).drop c.cnt)).w F.PLY.PS_STAT_FULL 0 die, c.ok l.length,
        l.flatMap SampRec.bytes)))

end Sys2Proof.Machine
end

