-- ==== Sys2Proof/Machine/Lowpan.lean ====
section
/-! DEFINITION. IPv6, 6LoWPAN header compression under RFC 6282 with RFC 4944 fragments, RPL messages under RFC 6550 and the RFC 6554
header (R326 to R329, R357 to R361). -/

namespace Sys2Proof.Machine
open Sys2Proof

/-! ## IPv6 -/

/-- The fixed header of an IPv6 packet. -/
structure Ip6 where
  tc   : Nat
  flow : Nat
  nh   : Nat
  hlim : Nat
  src  : Nat
  dst  : Nat
  body : List Byte
  deriving DecidableEq, Repr

/-- A packet's octets. -/
def Ip6.bytes (p : Ip6) : List Byte :=
  toBE 4 (6 * 2 ^ 28 + (p.tc % 256) * 2 ^ 20 + p.flow % 2 ^ 20) ++ toBE 2 p.body.length ++ toBE 1 p.nh ++ toBE 1 p.hlim ++
    toBE 16 p.src ++ toBE 16 p.dst ++ p.body

/-- Read a packet; none when it is no whole IPv6 packet. -/
def Ip6.ofBytes (b : List Byte) : Option Ip6 :=
  if b.length < 40 || beAt b 0 1 / 16 != 6 || b.length < 40 + beAt b 4 2 then none
  else some { tc := beAt b 0 4 / 2 ^ 20 % 256, flow := beAt b 0 4 % 2 ^ 20, nh := beAt b 6 1, hlim := beAt b 7 1,
              src := beAt b 8 16, dst := beAt b 24 16, body := (b.drop 40).take (beAt b 4 2) }

/-- The 16-bit words of a list of octets, summed with end-around carry. -/
def onesSum : List Byte → Nat → Nat
  | a :: b :: l, n => onesSum l (let s := n + a.toNat * 256 + b.toNat; s % 65536 + s / 65536)
  | [a], n => let s := n + a.toNat * 256; s % 65536 + s / 65536
  | [], n => n

/-- The checksum of an upper-layer message over its pseudo-header. -/
def ip6Sum (src dst nh : Nat) (msg : List Byte) : Nat :=
  65535 - onesSum (toBE 16 src ++ toBE 16 dst ++ toBE 4 msg.length ++ toBE 4 nh ++ msg) 0

/-- A UDP message with its checksum computed. -/
def udpMsg (src dst sp dp : Nat) (data : List Byte) : List Byte :=
  let h := toBE 2 sp ++ toBE 2 dp ++ toBE 2 (8 + data.length)
  let c := ip6Sum src dst 17 (h ++ toBE 2 0 ++ data)
  h ++ toBE 2 (if c == 0 then 65535 else c) ++ data

/-! ## Decompression (R357, R358) -/

/-- The link-local prefix as the high 64 bits of an address. -/
def llPfx : Nat := 0xFE80 * 2 ^ 48

/-- What the decompressor is given: the prefix of context 0 and the interface identifiers that the air header yields for the source and the
destination (R358). -/
structure IphcEnv where
  pfx : Nat
  src : Nat
  dst : Nat
  deriving DecidableEq, Repr

/-- An address of mode 00 to 11 under a prefix: the address and the octets it takes. -/
def iphcAddr (mode pfx iid : Nat) (b : List Byte) : Nat × Nat :=
  match mode with
  | 0 => (beAt b 0 16, 16)
  | 1 => (pfx * 2 ^ 64 + beAt b 0 8, 8)
  | 2 => (pfx * 2 ^ 64 + 0x000000FFFE000000 + beAt b 0 2, 2)
  | _ => (pfx * 2 ^ 64 + iid, 0)

/-- A multicast destination under M = 1, DAC = 0. -/
def iphcMcast (mode : Nat) (b : List Byte) : Nat × Nat :=
  match mode with
  | 0 => (beAt b 0 16, 16)
  | 1 => (0xFF * 2 ^ 120 + beAt b 0 1 * 2 ^ 112 + beAt b 1 5, 6)
  | 2 => (0xFF * 2 ^ 120 + beAt b 0 1 * 2 ^ 112 + beAt b 1 3, 4)
  | _ => (0xFF02 * 2 ^ 112 + beAt b 0 1, 1)

/-- The options of a Hop-by-Hop header padded to a multiple of 8 octets with its first two. -/
def padHbh (o : List Byte) : List Byte :=
  match (8 - (o.length + 2) % 8) % 8 with
  | 0 => o
  | 1 => o ++ [0#8]
  | n => o ++ [1#8, BitVec.ofNat 8 (n - 2)] ++ List.replicate (n - 2) 0#8

/-- A compressed next header and what follows it: the next-header value and the uncompressed octets. Only UDP and the Hop-by-Hop extension
header are accepted (R357). -/
def nhcOpen : Nat → Nat → Nat → List Byte → Option (Nat × List Byte)
  | 0, _, _, _ => none
  | n + 1, src, dst, b =>
    let c := beAt b 0 1
    if b.isEmpty then none
    else if c / 8 == 0b11110 then
      let el := bitOf c 2
      let need := match c % 4 with
        | 0 => 4
        | 3 => 1
        | _ => 3
      let r := b.drop 1
      if r.length < need + (if el then 0 else 2) then none
      else
        let ports := match c % 4 with
          | 0 => (beAt r 0 2, beAt r 2 2)
          | 1 => (beAt r 0 2, 0xF000 + beAt r 2 1)
          | 2 => (0xF000 + beAt r 0 1, beAt r 1 2)
          | _ => (0xF0B0 + beAt r 0 1 / 16, 0xF0B0 + beAt r 0 1 % 16)
        let rest := r.drop need
        if el then some (17, udpMsg src dst ports.1 ports.2 rest)
        else some (17, toBE 2 ports.1 ++ toBE 2 ports.2 ++ toBE 2 (8 + (rest.length - 2)) ++ rest)
    else if c / 2 == 0b1110000 then
      let comp := bitOf c 0
      let r := b.drop 1
      let nh := beAt r 0 1
      let r := if comp then r else r.drop 1
      let len := beAt r 0 1
      if r.length < 1 + len then none
      else
        let o := padHbh ((r.drop 1).take len)
        let rest := r.drop (1 + len)
        let next := if comp then nhcOpen n src dst rest else some (nh, rest)
        next.map (fun x => (0, toBE 1 x.1 ++ toBE 1 ((o.length + 2) / 8 - 1) ++ o ++ x.2))
    else none

/-- Decompress an IPHC packet; none for a form that R357 does not accept or that ends short. -/
def iphcOpen (e : IphcEnv) (b : List Byte) : Option Ip6 :=
  let a := beAt b 0 1
  let c := beAt b 1 1
  if b.length < 2 || a / 32 != 3 then none
  else
    let cid := bitOf c 7
    let mcast := bitOf c 3
    let dac := bitOf c 2
    if (cid && beAt b 2 1 != 0) || (mcast && dac) || (!mcast && dac && bitsOf c 0 2 == 0) then none
    else
      let r := b.drop (if cid then 3 else 2)
      let tf := match bitsOf a 3 2 with
        | 0 => (beAt r 0 1, beAt r 1 3 % 2 ^ 20, 4)
        | 1 => (beAt r 0 1 / 64 * 64, beAt r 0 3 % 2 ^ 20, 3)
        | 2 => (beAt r 0 1, 0, 1)
        | _ => (0, 0, 0)
      let tc := tf.1 % 64 * 4 + tf.1 / 64
      let r := r.drop tf.2.2
      let nhc := bitOf a 2
      let nh := beAt r 0 1
      let r := if nhc then r else r.drop 1
      let hl := match bitsOf a 0 2 with
        | 0 => (beAt r 0 1, 1)
        | 1 => (1, 0)
        | 2 => (64, 0)
        | _ => (255, 0)
      let r := r.drop hl.2
      let src := if bitOf c 6 && bitsOf c 4 2 == 0 then (0, 0)
        else iphcAddr (bitsOf c 4 2) (if bitOf c 6 then e.pfx else llPfx) e.src r
      if r.length < src.2 then none
      else
        let r := r.drop src.2
        let dst := if mcast then iphcMcast (bitsOf c 0 2) r
          else iphcAddr (bitsOf c 0 2) (if dac then e.pfx else llPfx) e.dst r
        if r.length < dst.2 then none
        else
          let r := r.drop dst.2
          let up := if nhc then nhcOpen 8 src.1 dst.1 r else some (nh, r)
          up.map (fun u => { tc := tc, flow := tf.2.1, nh := u.1, hlim := hl.1, src := src.1, dst := dst.1, body := u.2 })

/-! ## Compression (R359) -/

/-- The shortest form of a unicast address: its context bit, its mode and its octets in line. -/
def iphcForm (pfx iid addr : Nat) : Nat × Nat × List Byte :=
  let hi := addr / 2 ^ 64
  let lo := addr % 2 ^ 64
  if hi == pfx || hi == llPfx then
    let ctx := b2n (hi == pfx)
    if lo == iid then (ctx, 3, [])
    else if lo / 65536 == 0x000000FFFE00 then (ctx, 2, toBE 2 (lo % 65536))
    else (ctx, 1, toBE 8 lo)
  else (0, 0, toBE 16 addr)

/-- A packet compressed for the air (R359): the compressed headers, how many octets they stand for, and the rest. With a routing header
(`plain`) the upper layer stays in line. -/
def iphcClose (e : IphcEnv) (p : Ip6) : List Byte × Nat × List Byte :=
  let t := p.tc % 4 * 64 + p.tc / 4
  let tf := if p.flow == 0 && t == 0 then (3, [])
    else if p.flow == 0 then (2, toBE 1 t)
    else if p.tc / 4 == 0 then (1, toBE 3 (p.tc % 4 * 2 ^ 22 + p.flow))
    else (0, toBE 1 t ++ toBE 3 p.flow)
  let hl : Nat × List Byte := if p.hlim == 1 then (1, []) else if p.hlim == 64 then (2, []) else if p.hlim == 255 then (3, [])
    else (0, toBE 1 p.hlim)
  let udp := p.nh == 17 && 8 ≤ p.body.length && beAt p.body 4 2 == p.body.length
  let src := if p.src == 0 then (1, 0, []) else iphcForm e.pfx e.src p.src
  let dst := iphcForm e.pfx e.dst p.dst
  let sp := beAt p.body 0 2
  let dp := beAt p.body 2 2
  let ports : Nat × List Byte :=
    if sp / 16 == 0xF0B && dp / 16 == 0xF0B then (3, toBE 1 (sp % 16 * 16 + dp % 16))
    else if dp / 256 == 0xF0 then (1, toBE 2 sp ++ toBE 1 dp)
    else if sp / 256 == 0xF0 then (2, toBE 1 sp ++ toBE 2 dp)
    else (0, toBE 2 sp ++ toBE 2 dp)
  let up := if udp then toBE 1 (0b11110000 + ports.1) ++ ports.2 ++ (p.body.drop 6).take 2 else []
  (toBE 1 (0x60 + tf.1 * 8 + b2n udp * 4 + hl.1) ++ toBE 1 (src.1 * 64 + src.2.1 * 16 + dst.1 * 4 + dst.2.1) ++ tf.2 ++
    (if udp then [] else toBE 1 p.nh) ++ hl.2 ++ src.2.2 ++ dst.2.2 ++ up,
   if udp then 48 else 40, if udp then p.body.drop 8 else p.body)

/-- The payloads of a downlink's frames (R360): one when it fits in `room` octets, else RFC 4944 fragments under a datagram tag. None when
the compressed headers leave no room for a fragment. -/
def fragments (room tag size : Nat) (hd : List Byte) (hu : Nat) (rest : List Byte) : Option (List (List Byte)) :=
  if hd.length + rest.length ≤ room then some [hd ++ rest]
  else if room < 4 + hd.length + (8 - hu % 8) % 8 || room < 13 then none
  else
    let n1 := (hu + (room - 4 - hd.length)) / 8 * 8 - hu
    let step := (room - 5) / 8 * 8
    let cnt := (rest.length - n1 + step - 1) / step
    some ((toBE 2 (0b11000 * 2 ^ 11 + size % 2048) ++ toBE 2 tag ++ hd ++ rest.take n1) ::
      (List.range cnt).map (fun i =>
        toBE 2 (0b11100 * 2 ^ 11 + size % 2048) ++ toBE 2 tag ++ toBE 1 ((hu + n1 + i * step) / 8) ++ (rest.drop (n1 + i * step)).take step))

/-- Whether a Hop-by-Hop header's options are the RPL Option and padding alone (R361). -/
def onlyRpl : Nat → Bool → List Byte → Bool
  | 0, _, _ => false
  | _ + 1, seen, [] => seen
  | n + 1, seen, 0#8 :: l => onlyRpl n seen l
  | n + 1, seen, t :: l =>
    let len := beAt l 0 1
    if l.isEmpty || l.length < 1 + len then false
    else if t == 1#8 then onlyRpl n seen (l.drop (1 + len))
    else if t == 0x63#8 || t == 0x23#8 then onlyRpl n true (l.drop (1 + len))
    else false

/-- A packet as it leaves the instance: a Hop-by-Hop header that carries only an RPL Option is removed (R361). -/
def Ip6.leave (p : Ip6) : Ip6 :=
  let len := 8 * (beAt p.body 1 1 + 1)
  if p.nh == 0 && len ≤ p.body.length && onlyRpl 300 false ((p.body.take len).drop 2) then
    { p with nh := beAt p.body 0 1, body := p.body.drop len }
  else p

/-! ## RPL (R326 to R329) -/

/-- The RFC 6554 header before an upper layer, its addresses given as nodes (R329). -/
def srcRoute (nh : Nat) (l : List NodeKey) (rest : List Byte) : List Byte :=
  let n := l.length
  let pad := (8 - 6 * n % 8) % 8
  toBE 1 nh ++ toBE 1 ((8 + 6 * n + pad) / 8 - 1) ++ toBE 1 3 ++ toBE 1 n ++ toBE 1 (10 * 16 + 10) ++ toBE 1 (pad * 16) ++ toBE 2 0 ++
    l.flatMap (fun k => toBE 2 (k.tenant % 4096) ++ toBE 4 k.tag) ++ List.replicate pad 0#8 ++ rest

/-- An ICMPv6 message of type 155 with its checksum. -/
def rplMsg (src dst code : Nat) (body : List Byte) : List Byte :=
  toBE 1 155 ++ toBE 1 code ++ toBE 2 (ip6Sum src dst 58 (toBE 1 155 ++ toBE 1 code ++ toBE 2 0 ++ body)) ++ body

/-- The hop limit of the messages that Dravina originates. PRESUMED: the spec gives none; the default of IPv6. -/
def ownHopLimit : Nat := 64

/-- The DIO of R326; `open_` supplies the six octets of the DODAG Configuration option that the spec does not state. -/
def Dev.dioBody (d : Dev) (die : Nat) (open_ : List Byte) : List Byte :=
  toBE 1 (d.g F.SRC.RPL_CFG_INST die) ++ toBE 1 (d.g F.SRC.RPL_CFG_VERSION die) ++ toBE 2 (d.g F.SRC.RANK_MIN_HOP_RANK die) ++
    toBE 1 (128 + 1 * 8) ++ toBE 1 (d.g F.SRC.RPL_CFG_DTSN die) ++ toBE 2 0 ++ toBE 16 (d.ownAddr die) ++
    toBE 1 4 ++ toBE 1 14 ++ padTo 6 open_ ++ toBE 2 (d.g F.SRC.RANK_MIN_HOP_RANK die) ++ toBE 2 0 ++ toBE 1 0 ++ toBE 1 0xFF ++
    toBE 2 (d.g F.SRC.RPL_CFG_LUNIT die) ++
    toBE 1 8 ++ toBE 1 30 ++ toBE 1 64 ++ toBE 1 0x40 ++ toBE 4 0xFFFFFFFF ++ toBE 4 0xFFFFFFFF ++ toBE 4 0 ++
    toBE 8 (d.prefix64 die) ++ toBE 8 0

/-- The options of an RPL message: type and value. -/
def rplOptions : Nat → List Byte → List (Nat × List Byte)
  | 0, _ => []
  | _ + 1, [] => []
  | n + 1, 0#8 :: l => rplOptions n l
  | n + 1, t :: l =>
    let len := beAt l 0 1
    if l.length < 1 + len then [] else (t.toNat, (l.drop 1).take len) :: rplOptions n (l.drop (1 + len))

/-- One target of a DAO with its Transit Information: the prefix length and address, path sequence, lifetime, and the parent's address if it
has one. -/
structure DaoItem where
  plen   : Nat
  target : Nat
  pseq   : Nat
  life   : Nat
  parent : Option Nat
  deriving DecidableEq, Repr

/-- Each RPL Target option with the first Transit Information option after it (R327). -/
def daoItems : List (Nat × List Byte) → List DaoItem
  | [] => []
  | (5, v) :: l =>
    match l.find? (fun o => o.1 == 6) with
    | some (_, t) =>
      { plen := beAt v 1 1, target := beNat (padTo 16 (v.drop 2)), pseq := beAt t 2 1, life := beAt t 3 1,
        parent := if 20 ≤ t.length then some (beAt t 4 16) else none } :: daoItems l
    | none => daoItems l
  | _ :: l => daoItems l

/-- Whether a path sequence is newer than another under the lollipop comparison of RFC 6550, window 16; values that do not compare are not
newer. -/
def lollipopNewer (a b : Nat) : Bool :=
  if 128 ≤ a && b < 128 then !(256 + b - a ≤ 16)
  else if a < 128 && 128 ≤ b then 256 + a - b ≤ 16
  else b < a && a - b ≤ 16

end Sys2Proof.Machine
end

