-- ==== Sys2Proof/Machine/Band.lean ====
section
/-! DEFINITION. Meanings of the Band-die family: band states, tuning, calibration, gain and offset control, failed chains and
the limit lock (chapter 6). -/

namespace Sys2Proof.Machine
open Sys2Proof

/-- The RSM page number. -/
def rsmPage : Nat := 0x182
/-- The LIM page number. -/
def limPage : Nat := 0x183

/-! ## Band states (Table 6-2) -/

/-- BAND_LO_LOCKED: LO_SETTLE moves to the state the mode requires (R139). -/
def execBandLoLocked (die : Nat) (s : State) : Answer :=
  run s (fun d =>
    if !isBand die || d.bandState die != 2 then d
    else
      let d := d.setBand die (fun b => { b with autoTry := false })
      let want := d.bandWanted die
      if want == 3 || want == 5 then (d.bandTo die want).bandFollow die
      else if want == 1 then d.bandTo die 1
      else d)

/-- Automatic retries within the last 10 s (Table 6-2). -/
def Dev.recentRetries (d : Dev) (die : Nat) : List Nat :=
  (d.band die).retries.filter (fun t => d.time.lt < t + 10 * tickSec)

/-- BAND_LO_LOCK_LOST: the LO loses lock, or fails to lock within 120 µs, and the band enters FAULT; after the third automatic
retry fails, RELOCK_EXHAUSTED is raised (R139, Table 6-14). -/
def execBandLoLockLost (die : Nat) (s : State) : Answer :=
  run s (fun d =>
    let st := d.bandState die
    if !isBand die || !(2 ≤ st && st ≤ 5) then d
    else
      let third := st == 2 && (d.band die).autoTry && 3 ≤ (d.recentRetries die).length
      let d := d.setBand die (fun b => { b with autoTry := false })
      let d := d.when (st != 2) (fun d => d.inc C.RSM.LO_LOSS_CNT die)
      let d := (d.w F.SYN.CAL_STAT_RX_BUSY 0 die).bandTo die 6
      d.when third (fun d => d.raise E.RSM.RELOCK_EXHAUSTED die))

/-- BAND_FAULT_RETRY: 1 ms after FAULT entry an automatic retry moves the band to LO_SETTLE, at most 3 times in 10 s (R139). -/
def execBandFaultRetry (die : Nat) (s : State) : Answer :=
  run s (fun d =>
    let rs := d.recentRetries die
    if !isBand die || d.bandState die != 6 || 3 ≤ rs.length then d
    else
      let d := d.setBand die (fun b => { b with retries := rs ++ [d.time.lt], autoTry := true })
      (d.w F.RSM.BAND_STAT_RETRIES (rs.length + 1) die).bandTo die 2)

/-- RSM.RESUME.BAND: a band in FAULT moves to LO_SETTLE (R139). -/
def Dev.resumeBand (d : Dev) (p : Page) : Dev :=
  if d.bandState p.die == 6 then (d.setBand p.die (fun b => { b with autoTry := false })).bandTo p.die 2 else d

/-- RSM_RESUME_BAND: writing RSM.RESUME.BAND moves the band from FAULT to LO_SETTLE (R139). -/
def execRsmResumeBand (die : Nat) (s : State) : Answer :=
  run s (fun d => d.pageWrite die rsmPage 0x05C true (fun d p => d.resumeBand p))

/-! ## Tuning (Table 6-3) -/

/-- TX_TUNE_REQUEST: a chain tunes to another channel at once from TX_IDLE or TX_TUNE, and at the next TX_IDLE from other working
states (R141, Table 6-6). The cells lie within the receive span (R137). -/
def execTxTuneRequest (die chain channel : Nat) (gang : Bool) (s : State) : Answer :=
  run s (fun d =>
    let n := if gang then (if die == 5 then 2 else 16) else 1
    if !isBand die || 4 ≤ chain || 512 < channel + n then d
    else
      let t := d.cellsOf die channel n
      match d.txState die chain with
      | 0 | 7 => d
      | 1 => if (d.chain die chain).tuned == some t then d else d.tuneNow die chain t
      | 2 => d.tuneNow die chain t
      | _ => d.setChain die chain (fun k => { k with pend := some t }))

/-- TX_SYNTH_LOCKED: TX_TUNE moves to TX_IDLE (R139). -/
def execTxSynthLocked (die chain : Nat) (s : State) : Answer :=
  run s (fun d => if isBand die && chain < 4 && d.txState die chain == 2 then d.txIdle die chain else d)

/-- Every calibration of a request has ended: its tokens are released (R144). -/
def Dev.calSettle (d : Dev) (die : Nat) : Dev :=
  let scope := 2 ^ txRegion die
  if d.holds 1 scope && d.g F.SYN.CAL_STAT_TX_BUSY die == 0 && (d.band die).chains.all (fun k => k.cal == 0) then
    d.releaseToken 1 scope
  else d

/-! ## Calibration (R143 to R147) -/

/-- The argument of a calibration's token request: kind 0 receive (`mask` 1 by a temperature), 1 transmit commanded, 2 by a temperature, 3 from
TX_FAIL. -/
def calArg (die kind mask : Nat) : Nat :=
  die * 8192 + match kind with
    | 0 => mask
    | 1 => 4096 + mask
    | 2 => 4096 + 16 * mask
    | _ => 4096 + 256 * mask

/-- A request for calibration tokens; one of a temperature trigger merges into a queued request of its region, which then names its chains as well
(Table 6-6). A commanded request queues on its own. -/
def Dev.calRequest (d : Dev) (die scope kind mask : Nat) : Dev :=
  let temp := kind == 2 || (kind == 0 && mask == 1)
  match d.mt.queue.find? (fun r => temp && r.act == 1 && r.scope == scope && r.cmd.isNone) with
  | some q =>
    if kind == 0 then d
    else
      let merged := { q with arg := q.arg ||| 16 * mask }
      { d with mt := { d.mt with queue := d.mt.queue.map (fun r => if r == q then merged else r) } }
  | none => ((d.requestToken ⟨1, scope, none, calArg die kind mask⟩).1).calSettle die

/-- RSM.CAL_REQ.RX: a receive calibration is requested (R144). -/
def Dev.calReqRx (d : Dev) (p : Page) : Dev := d.calRequest p.die (2 ^ rxRegion p.die) 0 0

/-- RSM.CAL_REQ.TX: a transmit calibration of the named chains is requested (R144). -/
def Dev.calReqTx (d : Dev) (p : Page) (chains : Nat) : Dev :=
  if chains % 16 == 0 then d else d.calRequest p.die (2 ^ txRegion p.die) 1 (chains % 16)

/-- CAL_REQ_RX: writing RSM.CAL_REQ.RX requests a receive calibration under the maintenance token (R144, R145). -/
def execCalReqRx (die : Nat) (s : State) : Answer :=
  run s (fun d => d.pageWrite die rsmPage 0x058 true (fun d p => d.calReqRx p))

/-- CAL_REQ_TX: writing RSM.CAL_REQ.TX requests a transmit calibration of the named chains (R144, R146). -/
def execCalReqTx (die chains : Nat) (s : State) : Answer :=
  run s (fun d => d.pageWrite die rsmPage 0x058 true (fun d p => d.calReqTx p chains))

/-- Whether a temperature has moved by THRESH °C from a recorded one (R143); a THRESH of 0 disables the trigger. -/
def Dev.tempMoved (d : Dev) (die : Nat) (now : Int) (cal : Nat) : Bool :=
  let th : Int := d.g F.SYN.CAL_CFG_THRESH die
  th != 0 && (th ≤ now - sext 8 cal || th ≤ sext 8 cal - now)

/-- CAL_TEMP_TRIGGER: a region sensor has moved by THRESH °C from the last calibration of a synthesiser of its region; a transmit
trigger names all four chains (R143, R144, R146). -/
def execCalTempTrigger (die : Nat) (tx : Bool) (s : State) : Answer :=
  run s (fun d =>
    if !isBand die || !d.regionOn (if tx then txRegion die else rxRegion die) then d
    else if tx then
      if (List.range 4).any (fun c => d.tempMoved die (d.tempC (txRegion die)) (d.g F.SYN.TX_TCAL_T die 0 c)) then
        let kind := if d.g F.SYN.CAL_CFG_DEFER_MAX die == 0 then 1 else 2
        d.calRequest die (2 ^ txRegion die) kind 15
      else d
    else if d.tempMoved die (d.tempC (rxRegion die)) (d.g F.SYN.RX_TCAL_T die) then
      d.calRequest die (2 ^ rxRegion die) 0 1
    else d)

/-- A temperature request that still waits for its token, past DEFER_MAX: it counts as commanded (R146). -/
def TokenReq.pastDefer (r : TokenReq) (die : Nat) : TokenReq :=
  if r.act == 1 && r.cmd.isNone && r.arg / 8192 == die && bitOf r.arg 12 then
    { r with arg := r.arg - r.arg / 16 % 16 * 16 ||| r.arg / 16 % 16 }
  else r

/-- CAL_DEFER_EXPIRY: DEFER_MAX ms pass without a free moment, and the calibration starts at the next TX_IDLE, also one whose request still waits for its
token (R146). -/
def execCalDeferExpiry (die : Nat) (s : State) : Answer :=
  run s (fun d =>
    if !isBand die then d
    else
      let d := { d with mt := { d.mt with queue := d.mt.queue.map (fun (r : TokenReq) => r.pastDefer die) } }
      (d.setBand die (fun b => { b with
        chains := b.chains.map (fun k => if k.cal == 2 then { k with cal := 1 } else k) })).calKick die)

/-- A receive chain fails with a cause (R163): its bit sets, CHAIN_FAIL is raised, frames in progress lose the chain, and a band
with no healthy chain enters FAULT. -/
def Dev.rxChainFail (d : Dev) (die c cause : Nat) : Dev :=
  if 8 ≤ c then d
  else
    let was := bitOf (d.g F.RXF.CHAIN_STAT_FAILED die) c
    let d := (d.wBit F.RXF.CHAIN_STAT_FAILED c true die).w F.RXF.FAIL_CAUSE_CAUSE cause die 0 c
    let n := ((d.airD (die - 2)).receps.filter (fun r => bitOf r.chains c)).length
    let d := d.when (!was) (fun d =>
      (d.addc C.CMB.CHAIN_DROP n (die - 2)).setAir (die - 2) (fun a => { a with
        receps := a.receps.map (fun r => { r with chains := putBit r.chains c false }) }))
    let d := (d.showChains die).raise E.RXF.CHAIN_FAIL die
    if d.g F.RXF.CHAIN_STAT_HEALTHY die == 0 && 2 ≤ d.bandState die && d.bandState die ≤ 5 then d.bandTo die 6 else d

/-- RX_CAL_DONE: a receive calibration ends; its results are recorded, failing chains fail, passing ones rejoin, and the band goes
to the state its mode requires (R139, R163). -/
def execRxCalDone (die : Nat) (relocked : Bool) (failed : Nat) (codes : List DcoCode) (s : State) : Answer :=
  run s (fun d =>
    if !isBand die || d.bandState die != 4 then d
    else
      let d := d.w F.SYN.CAL_STAT_RX_BUSY 0 die
      let d := (d.setBand die (fun b => { b.learn codes with rxCal := 0 })).showDco die
      let d := (d.w F.SYN.RX_TCAL_T (ofSigned 8 (d.tempC (rxRegion die))) die).inc C.SYN.RX_CAL_CNT die
      let en := d.g F.RXF.CHAIN_EN_EN die
      let bad := (bitList 8 en).filter (fun c => bitOf failed c)
      let good := (bitList 8 en).filter (fun c => !bitOf failed c)
      let d := d.each good (fun d c => (d.wBit F.RXF.CHAIN_STAT_FAILED c false die).w F.RXF.FAIL_CAUSE_CAUSE 0 die 0 c)
      let d := d.each bad (fun d c => d.rxChainFail die c 2)
      let d := d.when (!relocked || !bad.isEmpty) (fun d => (d.w F.SYN.CAL_STAT_LAST_FAIL 1 die).raise E.SYN.CAL_FAIL die)
      let d := d.showChains die
      let d :=
        if !relocked || d.g F.RXF.CHAIN_STAT_HEALTHY die == 0 then d.bandTo die 6
        else
          let want := d.bandWanted die
          d.bandTo die (if want == 3 || want == 5 then want else 1)
      d.releaseToken 1 (2 ^ rxRegion die))

/-- TX_CAL_DONE: a transmit calibration ends; on success T_cal and V_cal are recorded, a hold of R214 ends and the chain returns to
TX_IDLE on its channel; on failure it enters TX_FAIL (R139, R164, R214). The next chain of the request follows (R144). -/
def execTxCalDone (die chain : Nat) (ok : Bool) (s : State) : Answer :=
  run s (fun d =>
    if !isBand die || 4 ≤ chain || d.txState die chain != 6 then d
    else
      let d := (d.wBit F.SYN.CAL_STAT_TX_BUSY chain false die).setChain die chain (fun k => { k with cal := 0 })
      let d :=
        if ok then
          let d := d.w F.SYN.TX_TCAL_T (ofSigned 8 (d.tempC (txRegion die))) die 0 chain
          let d := (d.w F.SYN.TX_TCAL_V d.vddRfa die 0 chain).inc C.SYN.TX_CAL_CNT die 0 chain
          let d := (d.wBit F.TXB.HELD_CHAINS chain false (die - 2)).setChain die chain (fun k => { k with cuts := [] })
          (d.w F.TXF.MASK_STAT_CUTS_10S 0 die chain).txIdle die chain
        else ((d.w F.SYN.CAL_STAT_LAST_FAIL 2 die).raise E.SYN.CAL_FAIL die).txFail die chain
      (d.calKick die).calSettle die)

/-- RSM.RESUME.TX: the named chains that are in TX_FAIL ask to leave it through TX_CAL (R139, R144). -/
def Dev.resumeTx (d : Dev) (p : Page) (chains : Nat) : Dev :=
  let m := ofBits ((bitList 4 chains).filter (fun c => d.txState p.die c == 7))
  if m == 0 then d else d.calRequest p.die (2 ^ txRegion p.die) 3 m

/-- RSM_RESUME_TX: writing RSM.RESUME.TX moves a chain from TX_FAIL to TX_CAL, under the maintenance token (R139, R144). -/
def execRsmResumeTx (die chains : Nat) (s : State) : Answer :=
  run s (fun d => d.pageWrite die rsmPage 0x05C true (fun d p => d.resumeTx p chains))

/-! ## Gain and offset control (R149 to R152) -/

/-- The number of the converter sample at the present local time, at 80 or 100 MS/s (R150); samples are counted from local time 0 (DESIGN CHOICE,
log 24). -/
def Dev.sampleNo (d : Dev) (die : Nat) : Nat := if die == 5 then d.time.lt / 4 else d.time.lt * 5 / 16

/-- Set a chain's gain index: the coarse code learned for it is applied, and the change is reported to the channelizer with its sample number (R150,
R151). -/
def Dev.setGain (d : Dev) (die c idx : Nat) : Dev :=
  if d.g F.RXF.GAIN_IDX die 0 c == idx then d
  else
    let code := fun (q : Nat) => kvGet 0 (d.band die).dco (64 * c + 2 * idx + q)
    let d := (d.w F.RXF.GAIN_IDX idx die 0 c).w F.RXF.DCO_I (code 0) die 0 c
    ((d.w F.RXF.DCO_Q (code 1) die 0 c).inc C.CHZ.GAIN_CHG_CNT (die - 2)).emit (.gainChange die c idx (d.sampleNo die))

/-- AGC_PERIOD: more than 2 dB above TARGET lowers the gain index by 1, more than 2 dB below raises it; a PERIOD of 0 holds it at
AGC_FIX (R149). -/
def execAgcPeriod (die chain : Nat) (level : Int) (s : State) : Answer :=
  run s (fun d =>
    if !isBand die || 8 ≤ chain then d
    else if d.g F.RXF.AGC_CFG_PERIOD die == 0 then d.setGain die chain (d.g F.RXF.AGC_FIX_IDX die)
    else
      let target : Int := -10 * (d.g F.RXF.AGC_CFG_TARGET die : Int)
      let idx := d.g F.RXF.GAIN_IDX die 0 chain
      if target + 20 < level then d.setGain die chain (idx - 1)
      else if level < target - 20 then d.setGain die chain (min 20 (idx + 1))
      else d)

/-- AGC_CLIP: at least CLIP_LIM samples clip within 1 µs and the index falls by 2 at once; a CLIP_LIM of 0 disables it (R149). -/
def execAgcClip (die chain count : Nat) (s : State) : Answer :=
  run s (fun d =>
    let lim := d.g F.RXF.AGC_CFG_CLIP_LIM die
    if !isBand die || 8 ≤ chain || d.g F.RXF.AGC_CFG_PERIOD die == 0 || lim == 0 || count < lim then d
    else d.setGain die chain (d.g F.RXF.GAIN_IDX die 0 chain - 2))

/-- The fine tracker over the samples of a period: a first-order running mean with time constant 2^FINE_SHIFT samples, in 2^-20 converter LSB
(R151; the resolution is a DESIGN CHOICE, log 24). -/
def fineTrack (shift : Nat) (m : Int) (xs : List Int) : Int := xs.foldl (fun m x => m + (2 ^ 20 * x - m) / (2 ^ shift : Nat)) m

/-- A chain's fine estimate of I (`q` 0) or Q (`q` 1) after a period's samples. -/
def Dev.fineOf (d : Dev) (die c q : Nat) (xs : List Int) : Int :=
  fineTrack (d.g F.RXF.DCO_CFG_FINE_SHIFT die) ((d.band die).fine.getD (2 * c + q) 0) xs

/-- Set a fine estimate, by chain × 2 + (I or Q). -/
def BandDie.setFine (b : BandDie) (key : Nat) (v : Int) : BandDie :=
  { b with fine := (List.range 16).map (fun k => if k == key then v else b.fine.getD k 0) }

/-- One coarse step of I (`q` 0) or Q (`q` 1) toward cancellation, or a step called for beyond the range, the third of which in
succession fails the chain; the fine estimate is corrected by the step's learned size (R151, R152). A period without such a step, and a gain change, leave the count of successive steps as it is (DESIGN CHOICE,
log 24). -/
def Dev.dcoStep (d : Dev) (die c q : Nat) (fine : Int) : Dev :=
  let th : Int := 2 ^ 20 * d.g F.RXF.DCO_CFG_COARSE_THRESH die
  let idx := d.g F.RXF.GAIN_IDX die 0 c
  let f := if q == 0 then F.RXF.DCO_I else F.RXF.DCO_Q
  let code := sext 8 (d.g f die 0 c)
  let key := 2 * c + q
  let d := d.setBand die (fun b => b.setFine key fine)
  if fine ≤ th && -th ≤ fine then d
  else
    let next := if 0 < fine then code - 1 else code + 1
    if next < -128 || 127 < next then
      let n := kvGet 0 (d.band die).dcoOver key + 1
      let d := d.setBand die (fun b => { b with dcoOver := kvSet 0 b.dcoOver key n })
      if 3 ≤ n then d.rxChainFail die c 1 else d
    else
      let size : Int := 2 ^ 20 * kvGet 0 (d.band die).dcoSize (64 * c + 2 * idx + q)
      (d.setBand die (fun b => { b.setFine key (if 0 < fine then fine - size else fine + size) with
        dcoOver := kvSet 0 b.dcoOver key 0
        dco := kvSet 256 b.dco (64 * c + 2 * idx + q) (ofSigned 8 next) })).w f (ofSigned 8 next) die 0 c

/-- DCO_COARSE_PERIOD: the fine tracker has followed the period's samples; when an estimate exceeds COARSE_THRESH, the coarse code of the current gain index steps by 1 toward
cancellation; a COARSE_PERIOD of 0 stops it (R151). -/
def execDcoCoarsePeriod (die chain : Nat) (samplesI samplesQ : List Int) (s : State) : Answer :=
  run s (fun d =>
    if !isBand die || 8 ≤ chain || d.g F.RXF.DCO_CFG_COARSE_PERIOD die == 0 then d
    else (d.dcoStep die chain 0 (d.fineOf die chain 0 samplesI)).dcoStep die chain 1 (d.fineOf die chain 1 samplesQ))

/-- CONVERTER_STUCK: a converter output holds one code for 1 ms and its receive chain fails (R163). -/
def execConverterStuck (die chain : Nat) (s : State) : Answer :=
  run s (fun d => if isBand die then d.rxChainFail die chain 3 else d)

/-! ## The limit lock (R160, Table 6-8) -/

/-- LOCK_DATA_WRITE: a write stages the word at LOCK_IDX and increments LOCK_IDX, to 156 at most (R160). -/
def execLockDataWrite (die word : Nat) (s : State) : Answer :=
  run s (fun d => d.pageWrite die limPage 0x048 true (fun d p =>
    let i := d.g F.LIM.LOCK_IDX_IDX p.die
    let d := d.setBand p.die (fun b => { b with staged := kvSet 0 b.staged i (word % 2 ^ 32) })
    (d.w F.LIM.LOCK_IDX_IDX (min 156 (i + 1)) p.die).showLim p.die))

/-- A lock attempt ends with a result and the word it names. -/
def Dev.lockResult (d : Dev) (die result word : Nat) : Dev :=
  (d.setFuse die (fun f => { f with result := result, word := word })).showLock die

/-- The first staged word that would need a programmed bit cleared (Table 6-8, CONFLICT). -/
def lockConflict (staged fuses : List (Nat × Nat)) : Option Nat :=
  (List.range 156).find? (fun i => limWord fuses i &&& limWord staged i != limWord fuses i)

/-- LOCK_GO: writing 0x4C4B checks the mode, VFUSE, the lock state, the image and the bits already programmed, and starts fuse
programming (R160). -/
def execLockGo (die code : Nat) (s : State) : Answer :=
  run s (fun d => d.pageWrite die limPage 0x050 true (fun d p =>
    let f := d.fuse p.die
    let staged := (d.band p.die).staged
    if code % 65536 != 0x4C4B || d.on F.LIM.LOCK_PROG_BUSY p.die then d
    else if d.mode != mBringup then d.lockResult p.die 2 0
    else if d.vfuse < 1700 then d.lockResult p.die 3 0
    else if 2 ≤ f.state then d.lockResult p.die 4 0
    else match limRefused p.die staged with
      | some w => d.lockResult p.die 5 w
      | none =>
        match (if f.state == 1 then lockConflict staged f.words else none) with
        | some w => d.lockResult p.die 6 w
        | none =>
          ((d.setBand p.die (fun b => { b with progAt := d.time.lt })).w F.LIM.LOCK_PROG_BUSY 1 p.die).w F.LIM.LOCK_PROG_WORDS 0 p.die))

/-- Program the first `n` staged words into the fuses. -/
def Dev.programWords (d : Dev) (die n : Nat) : Dev :=
  let staged := (d.band die).staged
  (d.setFuse die (fun f => { f with
    words := (List.range n).foldl (fun l i => kvSet 0 l i (limWord l i ||| limWord staged i)) f.words })).w
      F.LIM.LOCK_PROG_WORDS n die

/-- Programming goes on as time passes, one word a millisecond (R160 says at most that long; DESIGN CHOICE, log 24). -/
def Dev.progTick (d : Dev) (die : Nat) : Dev :=
  let n := min 156 ((d.time.lt - (d.band die).progAt) / (1000 * tickUs))
  if d.on F.LIM.LOCK_PROG_BUSY die && d.g F.LIM.LOCK_PROG_WORDS die < n then (d.programWords die n).showLim die else d

/-- Automatic retries older than 10 s are no longer counted (Table 6-11). -/
def Dev.retryTick (d : Dev) (die : Nat) : Dev :=
  let rs := d.recentRetries die
  if rs.length < (d.band die).retries.length then (d.setBand die (fun b => { b with retries := rs })).w F.RSM.BAND_STAT_RETRIES rs.length die else d

/-- Show the budgets of the sub-bands on the Air die (Table 8-5): B = DUTY × WINDOW × 1,000 µs (R218). -/
def Dev.showBudget (d : Dev) (die : Nat) : Dev :=
  d.each (List.range 8) (fun d k =>
    let b := ((subBands (d.fuse die).words).find? (fun s => s.k == k)).elim 0 (fun s => s.duty * s.window * 1000)
    d.w F.TXB.DUTY_BUDGET_B b (die - 2) 0 k)

/-- LOCK_PROGRAM_DONE: programming and DONE complete and the die is LOCKED, or a word fails verify after one re-program and the die
is SPOILED (R160). -/
def execLockProgramDone (die : Nat) (badWord : Option Nat) (s : State) : Answer :=
  run s (fun d =>
    if !isBand die || !d.on F.LIM.LOCK_PROG_BUSY die then d
    else
      let d := d.w F.LIM.LOCK_PROG_BUSY 0 die
      match badWord with
      | some w =>
        let d := (d.programWords die (min w 156)).setFuse die (fun f => { f with state := 3 })
        (((d.lockResult die 7 w).showLim die).raise E.LIM.LOCK_SPOILED die)
      | none =>
        let d := (d.programWords die 156).setFuse die (fun f => { f with
          words := kvSet 0 f.words 156 0x4C4F434B
          state := 2 })
        ((d.lockResult die 1 0).showLim die).showBudget die)

/-- LOCK_VFUSE_LOSS: VFUSE falls below 1.70 V during programming; the lock stops with INTERRUPTED and the die is PARTIAL (R160). -/
def execLockVfuseLoss (die words : Nat) (s : State) : Answer :=
  run s (fun d =>
    if !isBand die || !d.on F.LIM.LOCK_PROG_BUSY die then d
    else
      let n := max (d.g F.LIM.LOCK_PROG_WORDS die) (min words 156)
      let d := ((d.w F.LIM.LOCK_PROG_BUSY 0 die).programWords die n).setFuse die (fun f => { f with state := 1 })
      (d.lockResult die 8 0).showLim die)

end Sys2Proof.Machine
end

