-- ==== Sys2Proof/Machine/Transmit.lean ====
section
/-! DEFINITION. Meanings of the transmit family: descriptors, chain assignment, start checks, power, duty ledgers, the end of a
frame and its cut-offs (chapters 6 and 8). -/

namespace Sys2Proof.Machine
open Sys2Proof

/-! ## Air time (R178, R209, R221) -/

/-- The channels a transmission occupies (R209). -/
def Tx.width (x : Tx) : Nat :=
  match x.mode with
  | 1 => 2
  | 2 => 16
  | _ => 1

/-- Whether a transmission's gang runs at 100 kbit/s (Table 7-4). -/
def Dev.fskRate (d : Dev) (air : Nat) (x : Tx) : Nat := d.g F.DEM.CH_CFG_FSK_RATE air (x.channel / 32) (x.channel % 32)

/-- Air time of a transmission in ticks: symbols of NB-OFDM, octets of the legacy PHYs, bits of a wake-up call. -/
def Dev.airTicks (d : Dev) (air : Nat) (x : Tx) : Nat :=
  match x.mode with
  | 0 => natTicks air 2 x.psdu.length x.rate (mapCbps x.mapWord)
  | 1 =>
    let octets := d.g F.TXB.LEG_CFG_PRE_OCT air + 4 + x.psdu.length
    octets * (if d.fskRate air x == 1 then 25600 else 51200)
  | 2 => (6 + x.psdu.length) * 32 * tickUs
  | _ =>
    let r := d.g F.WUC.CFG_REPEAT air
    (r * (d.g F.WUC.CFG_PRE_BITS air + 40) * 125 + (r - 1) * 500) * tickUs

/-- What a transmission puts on the air: the symbols of a native frame, always of family F2 (R207), the bits or chips of a legacy frame shifted by the
leader's FOFS (R209), or the chips of a wake-up call with the edges that shape them (R220, R221). -/
def Dev.wave (d : Dev) (air c : Nat) (x : Tx) : Wave :=
  let taps := (d.chain (air + 2) c).taps (filterSet x.mode (d.fskRate air x))
  let fofs := sext 18 (d.g F.DEM.CH_CFG_FOFS air (x.channel / 32) (x.channel % 32))
  match x.mode with
  | 0 => .ofdm (nativeFrame 2 x.map x.mapWord x.rate x.psdu (d.on F.TXB.OFDM_CFG_BOOST air)) taps
  | 1 =>
    let bits := fskBits (d.g F.TXB.LEG_CFG_PRE_OCT air) (d.on F.TXB.LEG_CFG_SFD_SEL air) (d.on F.TXB.LEG_CFG_FCS4 air)
      (d.on F.TXB.LEG_CFG_WHITEN air) x.psdu
    .fsk bits (fskPulses (40 / (1 + d.fskRate air x)) taps bits) fofs
  | 2 => .oqpsk (oqpskChips x.psdu) fofs taps
  | _ =>
    let chips := repeatCall (wakeChips (wakeBits (d.g F.WUC.CFG_PRE_BITS air) (d.g F.WUC.SYNC air) x.wakeCode)) (d.g F.WUC.CFG_REPEAT air)
    .ook chips (chipEdges chips) (d.g F.WUC.CFG_EDGE air)

/-! ## What becomes of a transmission -/

/-- Change a pending downlink. -/
def Dev.setDl (d : Dev) (air id : Nat) (f : DlFrame → DlFrame) : Dev :=
  d.setAir air (fun a => { a with dl := mapIf (fun x => x.id == id) f a.dl })

/-- A beacon that is not sent (Table 9-9): counted; two in a row on one entry raise BCN_MISS. -/
def Dev.beaconMissed (d : Dev) (air k : Nat) : Dev :=
  let n := kvGet 0 (d.airD air).bcnRun k + 1
  let d := (d.inc C.AMC.BCN_MISS air).setAir air (fun a => { a with bcnRun := kvSet 0 a.bcnRun k n })
  d.when (2 ≤ n) (fun d => d.raise E.AMC.BCN_MISS air)

/-- A transmission that does not go now: a beacon is missed, a downlink stays pending, a call waits, all others are given up
(Tables 6-6, 8-4, 9-9). -/
def Dev.txWaits (d : Dev) (air : Nat) (x : Tx) : Dev :=
  match x.who with
  | .beacon k => d.beaconMissed air k
  | .downlink id | .reply id _ _ => d.setDl air id (fun f => { f with onAir := false, endAt := 0 })
  | .wake tag tenant => d.setAir air (fun a => { a with
      calls := a.calls.map (fun c => if c.tag == tag && c.tenant == tenant then { c with sent := false } else c) })
  | .legFrame id => d.setAir air (fun a => { a with held := a.held.map (fun h => if h.id == id then { h with onAir := false } else h) })
  | _ => d

/-- A transmission that is dropped: a downlink leaves the store; a call that is dropped counts as one of its calls, and the next follows its schedule
(Tables 6-6, 8-4). -/
def Dev.txDropped (d : Dev) (air : Nat) (x : Tx) : Dev :=
  match x.who with
  | .beacon k => d.beaconMissed air k
  | .downlink id | .reply id _ _ => d.setAir air (fun a => { a with dl := a.dl.filter (fun f => f.id != id) })
  | .wake tag tenant => d.setAir air (fun a => { a with
      calls := a.calls.map (fun c => if c.tag == tag && c.tenant == tenant then { c with calls := c.calls + 1 } else c) })
  | .legFrame id => d.setAir air (fun a => { a with held := a.held.filter (fun h => h.id != id) })
  | _ => d

/-- A transmission whose last sample has left (Tables 8-5, 9-10). -/
def Dev.txSent (d : Dev) (air : Nat) (x : Tx) : Dev :=
  let d := d.when (x.kind < 5) (fun d => d.inc C.TXB.SENT air 0 x.kind)
  match x.who with
  | .beacon k =>
    let clash := (d.airD air).nbrs.any (fun n => n.chans.contains x.channel)
    ((d.inc C.AMC.BCN_SENT air).when clash (fun d => d.inc C.AMC.BCN_CLASH air)).setAir air (fun a => { a with
      bcnRun := kvSet 0 a.bcnRun k 0 })
  | .ack _ _ => d.inc C.AMC.REPLY_SENT air
  | .downlink id => (d.inc C.AMC.DL_SENT air).setDl air id (fun f => { f with sends := f.sends + 1, endAt := d.time.lt })
  | .reply id _ _ => (d.inc C.AMC.REPLY_SENT air).setDl air id (fun f => { f with sends := f.sends + 1, endAt := d.time.lt })
  | .wake tag tenant => (d.inc C.WUC.CALLS_SENT air).setAir air (fun a => { a with
      calls := a.calls.map (fun c => if c.tag == tag && c.tenant == tenant then { c with calls := c.calls + 1 } else c) })
  | .group k =>
    if d.dieUp d.cmp.engine then
      d.setRoute d.cmp.engine (fun r => { r with int := r.int ++ [.airOut (.camp (k % 32) (k / 32))] })
    else d
  | _ => d

/-! ## Chain assignment (R215, R216) -/

/-- The last tick of a transmission that starts at its START. -/
def Dev.txEnd (d : Dev) (air : Nat) (x : Tx) : Nat := x.start + d.airTicks air x

/-- The busy interval of a transmission (R215). -/
def Dev.busyOf (d : Dev) (air : Nat) (x : Tx) : Nat × Nat :=
  (x.start - (if x.retune then 100 else 16) * tickUs, d.txEnd air x + 12 * tickUs)

/-- Whether a chain is free over an interval: neither a transmission handed over nor the frame on air overlaps it. -/
def Dev.chainFree (d : Dev) (air c : Nat) (iv : Nat × Nat) (except : Nat) : Bool :=
  ((d.airD air).handed.filter (fun y => y.chain == c && y.id != except)).all (fun y =>
      (d.busyOf air y).2 ≤ iv.1 || iv.2 ≤ (d.busyOf air y).1) &&
    ((d.chain (air + 2) c).air.isNone || (d.chain (air + 2) c).airEnd + 12 * tickUs ≤ iv.1)

/-- Whether a request for a chain's calibration waits for its token: it stands in one of the request's three masks. -/
def Dev.calQueued (d : Dev) (band c : Nat) : Bool :=
  d.mt.queue.any (fun r => r.act == 1 && r.scope == 2 ^ txRegion band && r.cmd.isNone && bitOf r.arg 12 &&
    (bitOf r.arg c || bitOf r.arg (4 + c) || bitOf r.arg (8 + c)))

/-- Whether a chain may be assigned at all: enabled, not failed, not held, no calibration pending (R214, R215). -/
def Dev.chainUsable (d : Dev) (air c : Nat) : Bool :=
  bitOf (d.g F.TXB.ASSIGN_CHAIN_EN air) c && d.txState (air + 2) c != 7 && !bitOf (d.g F.TXB.HELD_CHAINS air) c &&
    (d.chain (air + 2) c).cal == 0 && !d.calQueued (air + 2) c

/-- Whether another transmission with overlapping cells would run at the same time on the band (R216). -/
def Dev.cellsBusy (d : Dev) (air : Nat) (x : Tx) : Bool :=
  let meets := fun (y : Tx) => x.channel < y.channel + y.width && y.channel < x.channel + x.width
  (d.airD air).handed.any (fun y => y.id != x.id && meets y && y.start < d.txEnd air x && x.start < d.txEnd air y) ||
    (List.range 4).any (fun c => match (d.chain (air + 2) c).air with
      | some y => meets y && x.start < (d.chain (air + 2) c).airEnd
      | none => false)

/-- A transmission's priority, 0 the highest (Table 8-3): a reply counts as an acknowledgement (Table 9-9). -/
def Tx.prio (x : Tx) : Nat :=
  match x.who with
  | .reply _ _ _ => 1
  | _ => x.kind

/-- The chain the air MAC assigns and whether it must be retuned: for an acknowledgement the one that its slot assigned, where it serves (R215, R216). -/
def Dev.assignChain (d : Dev) (air : Nat) (x : Tx) : Option (Nat × Bool) :=
  let band := air + 2
  let cells := d.cellsOf band x.channel x.width
  let iv := fun lead => (x.start - lead * tickUs, d.txEnd air x + 12 * tickUs)
  let fits := fun (c : Nat) => d.chainUsable air c && (d.chain band c).tuned == some cells && (d.chain band c).pend.isNone &&
    d.chainFree air c (iv 16) x.id
  let mine := fun (c : Nat) => x.prio == 1 && (d.airD air).ackChain.contains (x.channel, c)
  if d.cellsBusy air x then none
  else match ([0, 1, 2, 3] : List Nat).find? (fun c => mine c && fits c), ([0, 1, 2, 3] : List Nat).find? fits with
    | some c, _ => some (c, false)
    | none, some c => some (c, false)
    | none, none =>
      (([0, 1, 2, 3] : List Nat).find? (fun c => d.chainUsable air c && d.chainFree air c (iv 100) x.id)).map (fun c => (c, true))

/-- The chains of the acknowledgements of a slot, assigned when it begins: for each channel on which a node may send, one tuned to it, else the lowest chain
that is free and has none yet (R216). More channels than chains are served in the order given (DESIGN CHOICE, log 26). -/
def Dev.assignAcks (d : Dev) (air : Nat) (chans : List Nat) : List (Nat × Nat) :=
  chans.foldl (fun l ch =>
    let ok := fun (c : Nat) => d.chainUsable air c && !l.any (fun e => e.2 == c) && ((d.chain (air + 2) c).air.isNone) &&
      !(d.airD air).handed.any (fun x => x.chain == c)
    let here := fun (c : Nat) => (d.chain (air + 2) c).tuned == some (d.cellsOf (air + 2) ch 1)
    match ([0, 1, 2, 3] : List Nat).find? (fun c => ok c && here c), ([0, 1, 2, 3] : List Nat).find? ok with
    | some c, _ => l ++ [(ch, c)]
    | none, some c => l ++ [(ch, c)]
    | none, none => l) []

/-- The live map word of an index on an Air die: map 0 is fixed, an unwritten map reads 0 (R177, R199). -/
def Dev.mapWord (d : Dev) (air idx : Nat) : Nat := if idx == 0 then 0xAAAAAAAAAAAA else kvGet 0 (d.airD air).maps idx

/-- TX_DESCRIPTOR: a descriptor is taken with its map read from the die's own table, a wake-up call is checked, and a chain is
assigned (R205, R207, R215, R222). -/
def Dev.takeDescriptor (d : Dev) (air : Nat) (x : Tx) : Dev :=
  let x := { x with mapWord := if x.mode == 0 then d.mapWord air x.map else 0 }
  let k := x.wakeIdx % 8
  let x := if x.mode == 3 then { x with channel := d.g F.WUC.CHAN_CH air 0 k } else x
  if x.mode == 0 && !mapValid x.mapWord then (d.inc C.TXB.MAP_INVALID air).txDropped air x
  else if x.mode == 3 && (x.wakeCode == 0xFFFF || !d.on F.WUC.CHAN_EN air 0 k || d.g F.WUC.CFG_REPEAT air == 0) then
    (d.inc C.WUC.CALLS_REFUSED air).txDropped air x
  else match d.assignChain air x with
    | none => (d.inc C.TXB.NO_CHAIN air).txWaits air x
    | some (c, retune) => d.setAir air (fun a => { a with handed := a.handed ++ [{ x with chain := c, retune := retune }] })

/-- Whether the air MAC considers one transmission before another: by priority, and within one by START (R215). -/
def Tx.before (x y : Tx) : Bool := x.prio < y.prio || (x.prio == y.prio && x.start < y.start)

/-- Whether a planned transmission has its turn: none that is considered before it overlaps it in time (R215, Table 8-3). -/
def Dev.turnOf (d : Dev) (air : Nat) (x : Tx) : Bool :=
  (d.airD air).planned.all (fun y => !(y.before x && y.start < d.txEnd air x + 112 * tickUs && x.start < d.txEnd air y + 112 * tickUs))

/-! ## Channel access on legacy gangs (Table 9-8) -/

/-- A start after one random back-off of unslotted CSMA-CA (Table 9-8): a free number of back-off periods below 2^BE, with BE from macMinBe 3, one more after
each busy channel, to macMaxBe 5. A back-off period is 20 symbols (PRESUMED from IEEE 802.15.4, log 29). -/
def Dev.csmaStart (d : Dev) (air nb : Nat) : Dev × Nat :=
  let r := d.freshNat
  (r.2, d.time.lt + 100 * tickUs + (r.1 % 2 ^ min (3 + nb) 5) * (if air == 3 then 400 else 320) * tickUs)

/-- Whether the gang of a channel has a reception in progress: the busy test of CSMA-CA (Table 9-8). -/
def Dev.gangBusy (d : Dev) (air channel : Nat) : Bool := (d.airD air).receps.any (fun r => r.channel == channel && r.arriving air d.time.lt)

/-- Whether a transmission takes its channel by unslotted CSMA-CA: legacy frames and beacons, not Imm-Acks (Table 9-8). -/
def Tx.csma (x : Tx) : Bool :=
  match x.who with
  | .legFrame _ | .legBeacon => true
  | _ => false

/-- The busy test after a back-off fails: another back-off with a longer exponent, and after macMaxCsmaBackoffs 4 of them the frame is given up (Table 9-8). -/
def Dev.backOff (d : Dev) (air : Nat) (x : Tx) : Dev :=
  if 4 ≤ x.nb then d.txWaits air x
  else
    let c := d.csmaStart air (x.nb + 1)
    c.1.setAir air (fun a => { a with planned := a.planned ++ [{ x with nb := x.nb + 1, start := c.2 }] })

/-- TX_DESCRIPTOR: the air MAC hands over a planned transmission whose turn it is, or test control gives one (R205, R215). A legacy frame whose gang is busy
backs off again (Table 9-8). -/
def execTxDescriptor (die : Nat) (sel : DescSel) (s : State) : Answer :=
  run s (fun d =>
    if !isAir die || !d.dieUp die then d
    else match sel with
      | .planned id =>
        match (d.airD die).planned.find? (fun x => x.id == id) with
        | none => d
        | some x =>
          if !d.turnOf die x then d
          else
            let d := d.setAir die (fun a => { a with planned := a.planned.filter (fun y => y.id != id) })
            if x.csma && d.gangBusy die x.channel then d.backOff die x else d.takeDescriptor die x
      | .test t =>
        let x : Tx :=
          { id := (d.airD die).next, kind := t.kind, channel := t.channel, mode := t.mode, map := t.map, mapWord := 0,
            rate := t.rate, psdu := t.psdu, wakeCode := t.wakeCode, wakeIdx := t.wakeIdx, power := t.power,
            start := d.time.lt + t.startUs * tickUs, chain := 0, retune := false, cls := 0, who := .test }
        (d.setAir die (fun a => { a with next := a.next + 1 })).takeDescriptor die x)

/-- A wake channel is disabled while calls on it wait: they are dropped and counted (Table 8-4). -/
def Dev.wakeDisabled (d : Dev) (air : Nat) : Dev :=
  let off := fun (x : Tx) => x.mode == 3 && !d.on F.WUC.CHAN_EN air 0 (x.wakeIdx % 8)
  let gone := ((d.airD air).planned ++ (d.airD air).handed).filter off
  let d := d.setAir air (fun a => { a with
    planned := a.planned.filter (fun x => !off x), handed := a.handed.filter (fun x => !off x) })
  (d.each gone (fun d x => (d.inc C.WUC.CALLS_REFUSED air).txDropped air x)).calKick (air + 2)

/-! ## Duty ledgers (R217 to R219) -/

/-- The ledger of an Air die. -/
def Dev.ledger (d : Dev) (air : Nat) : Ledger := d.ledgers.getD (air - 3) {}

/-- The length of a bin in ticks: WINDOW × 1,000,000 / 64 µs (R218). -/
def binTicks (window : Nat) : Nat := window * 5000000

/-- The current bin of a sub-band, counted so that the 64 bins before it always have a number. -/
def Dev.binNow (d : Dev) (s : SubBand) : Nat := d.time.lt / binTicks s.window + 64

/-- The key of a bin of a sub-band. -/
def binKey (k bin : Nat) : Nat := k * 2 ^ 48 + bin

/-- U in ticks: the charges in the current bin and in the 64 before it (R218). -/
def Dev.dutyUsed (d : Dev) (air : Nat) (s : SubBand) : Nat :=
  let now := d.binNow s
  ((d.ledger air).bins.filter (fun e => binKey s.k (now - 64) ≤ e.1 && e.1 ≤ binKey s.k now)).foldl (fun n e => n + e.2) 0

/-- B in ticks (R218). -/
def dutyBudget (s : SubBand) : Nat := s.duty * s.window * 1000 * tickUs

/-- The charge of a transmission in ticks: its air time plus 8 µs (R217). -/
def Dev.charge (d : Dev) (air : Nat) (x : Tx) : Nat := d.airTicks air x + 8 * tickUs

/-- Whether the budget covers a charge: 0 yes, 1 refused on the full budget, 2 refused on the reserve alone (R218). -/
def Dev.dutyTest (d : Dev) (air : Nat) (s : SubBand) (x : Tx) : Nat :=
  let u := d.dutyUsed air s + d.charge air x
  if dutyBudget s < u then 1
  else if (x.kind == 2 || x.kind == 3 || x.kind == 4) &&
      dutyBudget s * (100 - d.g F.TXB.DUTY_CFG_RSV air) < u * 100 then 2
  else 0

/-- Charge a sub-band's current bin and show U (R217, Table 8-5). -/
def Dev.chargeDuty (d : Dev) (air : Nat) (s : SubBand) (ticks : Nat) : Dev :=
  let key := binKey s.k (d.binNow s)
  let d := { d with ledgers := modAt d.ledgers (air - 3) (fun l => { l with
    bins := kvSet 0 l.bins key (kvGet 0 l.bins key + ticks) }) }
  d.w F.TXB.DUTY_USED_U (d.dutyUsed air s / tickUs) air 0 s.k

/-- Show U of every sub-band as the ledger bins stand now (Table 8-5). -/
def Dev.showDuty (d : Dev) (air : Nat) : Dev :=
  d.each (subBands (d.fuse (air + 2)).words) (fun d s => d.w F.TXB.DUTY_USED_U (d.dutyUsed air s / tickUs) air 0 s.k)

/-- Initialise the ledgers of an Air die with the live COLD (R219). -/
def Dev.ledgerInit (d : Dev) (air : Nat) : Dev :=
  if (d.ledger air).initialised then d
  else
    let sbs := subBands (d.fuse (air + 2)).words
    let full := fun (s : SubBand) => (List.range 64).map (fun i => (binKey s.k (d.binNow s - 64 + i), dutyBudget s / 64))
    let bins := if d.on F.TXB.DUTY_CFG_COLD air then sbs.flatMap full else []
    let d := { d with ledgers := modAt d.ledgers (air - 3) (fun _ => { bins := bins, initialised := true }) }
    d.showDuty air

/-! ## Starts (R153, R154, R161) -/

/-- The requested code of a transmission (R153). -/
def Dev.reqCode (d : Dev) (band c : Nat) (x : Tx) : Nat := x.power.getD (d.g F.TXF.PWR_DEF_CODE band c)

/-- The ball power code B (R153). -/
def Dev.ballCode (d : Dev) (band c v : Nat) : Int :=
  if d.on F.TXF.PA_CFG_EN band c then (v : Int) - d.g F.TXF.PA_CFG_GAIN band c else v

/-- A quotient rounded half away from zero (R154). -/
def roundDiv (a : Int) (b : Nat) : Int :=
  if 0 ≤ a then (2 * a + b) / (2 * b : Nat) else -((2 * -a + b) / (2 * b : Nat))

/-- The gain word before limiting: B + round(4 × Δ) (R154). -/
def Dev.gainWord (d : Dev) (band c v : Nat) : Int :=
  let dt := d.tempC (txRegion band) - sext 8 (d.g F.SYN.TX_TCAL_T band 0 c)
  let dv := (d.g F.SYN.TX_TCAL_V band 0 c : Int) - d.vddRfa
  let num := sext 16 (d.g F.TXF.COMP_TCOEF band c) * dt + sext 16 (d.g F.TXF.COMP_VCOEF band c) * dv
  d.ballCode band c v + roundDiv (4 * num) 1024

/-- Whether the TX chain's state refuses a start for the cells named, with the cause of Table 6-11 (R161 step 1). -/
def Dev.chainRefuses (d : Dev) (band c : Nat) (cells : Nat × Nat) : Option Nat :=
  match d.txState band c with
  | 1 => if (d.chain band c).tuned == some cells then none else some 1
  | 2 => some 1
  | 6 => some 2
  | 3 | 4 | 5 => some 3
  | _ => some 4

/-- The cause that refuses a start, in the order of R161. -/
def Dev.startCause (d : Dev) (band c : Nat) (x : Tx) : Option Nat :=
  let air := band - 2
  let cells := d.cellsOf band x.channel x.width
  let v := d.reqCode band c x
  let b := d.ballCode band c v
  if d.act != mService && d.act != mBringup then some 11
  else match d.chainRefuses band c cells with
    | some k => some k
    | none =>
      if (d.fuse band).state != 2 then some 5
      else match d.subBandOf band cells with
        | none => some 6
        | some s =>
          if min (bitsOf (limWord (d.fuse band).words 0) 0 8) s.pmax < v then some 7
          else if b < 0 || 120 < b then some 8
          else if d.dutyTest air s x != 0 then some 9
          else if !d.mayRadiate then some 10
          else none

/-- Count a refused start (Table 6-11, R218). -/
def Dev.countRefusal (d : Dev) (band c : Nat) (x : Tx) (cause : Nat) : Dev :=
  let d := d.w F.RSM.TX_STAT_LAST_REFUSAL cause band 0 c
  let d := if cause == 11 then d.inc C.RSM.REFUSE_CNT11 band else d.inc C.RSM.REFUSE_CNT band 0 (cause - 1)
  if cause != 9 then d
  else
    let t := (d.subBandOf band (d.cellsOf band x.channel x.width)).elim 1 (fun s => d.dutyTest (band - 2) s x)
    if t == 2 then d.inc C.TXB.RSV_REFUSED (band - 2) else d.inc C.TXB.DUTY_REFUSED (band - 2)

/-- A start refused with CALIBRATING moves to another chain in TX_IDLE, tuned to the same channel and free, or waits (Table 8-4). -/
def Dev.moveStart (d : Dev) (air c : Nat) (x : Tx) : Dev :=
  let band := air + 2
  let cells := d.cellsOf band x.channel x.width
  match ([0, 1, 2, 3] : List Nat).find? (fun e => e != c && d.chainUsable air e && d.txState band e == 1 &&
      (d.chain band e).tuned == some cells && d.chainFree air e (d.busyOf air { x with retune := false }) x.id) with
  | some e => (d.inc C.TXB.MOVED air).setAir air (fun a => { a with
      handed := a.handed ++ [{ x with chain := e, retune := false }] })
  | none => d.txWaits air x

/-- The next start of a chain: the handed-over transmission with the earliest START. -/
def Dev.nextStart (d : Dev) (air c : Nat) : Option Tx :=
  ((d.airD air).handed.filter (fun x => x.chain == c)).foldl
    (fun (b : Option Tx) x => match b with
      | none => some x
      | some y => if x.start < y.start then some x else some y) none

/-- An accepted start: G is set for the frame, the sub-band is charged, and Table 6-5 runs from step 1 (R142, R154, R217). -/
def Dev.startFrame (d : Dev) (band c : Nat) (x : Tx) : Dev :=
  let air := band - 2
  let v := d.reqCode band c x
  let g := d.gainWord band c v
  let lim := clampI 0 120 g
  let d := ((d.w F.TXF.PWR_STAT_G lim.toNat band c).w F.TXF.PWR_STAT_V v band c).w F.TXF.PWR_STAT_COMP_SAT (b2n (g != lim)) band c
  let d := d.when (g != lim) (fun d => d.raise E.TXF.COMP_SAT band c)
  let d := (d.subBandOf band (d.cellsOf band x.channel x.width)).elim d (fun s => d.chargeDuty air s (d.charge air x))
  let d := (d.setChain band c (fun k => { k with air := some x, airEnd := d.time.lt + 16 * tickUs + d.airTicks air x })).outputsOn band c
  (d.txTo band c 4).inc C.TXF.FRAMES_CNT band c

/-- TX_START: a start reaches a chain; it is checked in the order of R161; an accepted one runs and is charged, a refused one
waits, moves or is dropped (Tables 6-6, 8-4). -/
def execTxStart (die chain : Nat) (s : State) : Answer :=
  run s (fun d =>
    if !isBand die || 4 ≤ chain then d
    else match d.nextStart (die - 2) chain with
      | none => d
      | some x =>
        let d := d.setAir (die - 2) (fun a => { a with handed := a.handed.filter (fun y => y.id != x.id) })
        match d.startCause die chain x with
        | none => d.startFrame die chain x
        | some cause =>
          let d := d.countRefusal die chain x cause
          let d :=
            if cause == 2 then d.moveStart (die - 2) chain x
            else if 5 ≤ cause && cause ≤ 9 then d.txDropped (die - 2) x
            else d.txWaits (die - 2) x
          d.calKick die)

/-- A transmission has been on the air of its chain until now (R197): from its first sample, 16 µs after its start was accepted. -/
def Dev.airedTx (d : Dev) (die c : Nat) (x : Tx) : Dev :=
  let span : AirSpan :=
    { chain := c, channel := x.channel, width := x.width, start := (d.chain die c).airEnd - d.airTicks (die - 2) x, till := d.time.lt }
  d.setAir (die - 2) (fun a => { a with aired := a.aired ++ [span] })

/-- TX_FRAME_END: the last sample leaves; ramp-down, PA release and unblanking follow, and the chain returns to TX_IDLE (R142). -/
def execTxFrameEnd (die chain : Nat) (s : State) : Answer :=
  run s (fun d =>
    if !isBand die || 4 ≤ chain then d
    else match (d.chain die chain).air with
      | none => d
      | some x =>
        let d := ((d.emit (.radiated die chain x.kind x.channel x.psdu (d.wave (die - 2) chain x))).airedTx die chain x).txSent (die - 2) x
        let d := (d.outputsOff die chain).setChain die chain (fun k => { k with air := none })
        (d.txIdle die chain).calSettle die)

/-- A cut-off that drops the frame and brings the chain back to TX_IDLE (R142). -/
def Dev.cutAndDrop (d : Dev) (die c : Nat) : Dev :=
  match (d.chain die c).air with
  | none => d
  | some x => ((((d.airedTx die c x).cutOff die c).txDropped (die - 2) x).txIdle die c).calSettle die

/-- TX_UNDERRUN: a chain's sample FIFO empties during a frame; the frame is cut off, counted and reported (R206). -/
def execTxUnderrun (die chain : Nat) (s : State) : Answer :=
  run s (fun d =>
    if !isBand die || 4 ≤ chain || (d.chain die chain).air.isNone then d
    else ((d.inc C.TXB.UNDERRUN (die - 2)).cutAndDrop die chain).raise E.TXB.TX_UNDERRUN (die - 2))

/-- The mask limit of a transmission in 0.25 dB: ACP_LEG for legacy ones, ACP_NAT for the others (R212). -/
def Dev.maskLimit (d : Dev) (die chain : Nat) (x : Tx) : Nat :=
  if x.mode == 1 || x.mode == 2 then d.g F.TXF.MASK_CFG_ACP_LEG die chain else d.g F.TXF.MASK_CFG_ACP_NAT die chain

/-- The powers of the last CNT windows of a frame, when there are so many and each violates the mask (R212, R213). -/
def Dev.maskTrip (d : Dev) (die chain : Nat) (windows : List (List (Int × Nat))) (x : Tx) : Bool :=
  let n := d.g F.TXF.MASK_CFG_CNT die chain
  let p := windows.map (fun w => maskPowers (d.cellsOf die x.channel x.width) w)
  n != 0 && n ≤ p.length && (p.drop (p.length - n)).all (fun w => maskViolates (d.maskLimit die chain x) w)

/-- The ratio of the last window of a frame (Table 8-7). -/
def Dev.maskRatio (d : Dev) (die : Nat) (windows : List (List (Int × Nat))) (x : Tx) : Nat :=
  acrCode (maskPowers (d.cellsOf die x.channel x.width) (windows.getLast?.getD []))

/-- MASK_CUT: CNT consecutive windows violate the spectral mask; the frame is cut off and dropped, and after MAX cut-offs in
10 s the chain is held and its calibration requested (R212 to R214). A CNT of 0 disables the monitor. -/
def execMaskCut (die chain : Nat) (windows : List (List (Int × Nat))) (s : State) : Answer :=
  run s (fun d => if !isBand die || 4 ≤ chain then d else (d.chain die chain).air.elim d (fun x =>
    let acr := d.maskRatio die windows x
    if d.g F.TXF.MASK_CFG_CNT die chain == 0 then d
    else if !d.maskTrip die chain windows x then d.w F.TXF.MASK_STAT_ACR acr die chain
    else
      let cuts := (d.chain die chain).cuts.filter (fun t => d.time.lt < t + 10 * tickSec) ++ [d.time.lt]
      let d := d.setChain die chain (fun k => { k with cuts := cuts })
      let d := (d.w F.TXF.MASK_STAT_ACR acr die chain).w F.TXF.MASK_STAT_CUTS_10S (min 15 cuts.length) die chain
      let d := ((d.inc C.TXF.MASK_CUT_CNT die chain).cutAndDrop die chain).raise E.TXF.MASK_CUT die chain
      let max := d.g F.TXB.MASK_TRIP_MAX (die - 2)
      if max == 0 || cuts.length < max || bitOf (d.g F.TXB.HELD_CHAINS (die - 2)) chain then d
      else (d.wBit F.TXB.HELD_CHAINS chain true (die - 2)).calRequest die (2 ^ txRegion die) 1 (2 ^ chain)))

/-- Cut-offs older than 10 s no longer count (Table 8-7). -/
def Dev.cutTick (d : Dev) (die : Nat) : Dev :=
  d.each ([0, 1, 2, 3] : List Nat) (fun d c =>
    let old := (d.chain die c).cuts
    let cuts := old.filter (fun t => d.time.lt < t + 10 * tickSec)
    if cuts.length < old.length then (d.setChain die c (fun k => { k with cuts := cuts })).w F.TXF.MASK_STAT_CUTS_10S (min 15 cuts.length) die c else d)

/-- TX_SYNTH_LOCK_LOST: a transmit synthesiser loses lock; a frame on air is cut off and the chain retunes, also one in TX_FAIL; a second loss within
1 s gives TX_FAIL. A calibration that it interrupts is done at the next TX_IDLE (R139, Tables 6-3 and 6-6). -/
def execTxSynthLockLost (die chain : Nat) (s : State) : Answer :=
  run s (fun d =>
    if !isBand die || 4 ≤ chain || d.txState die chain == 0 then d
    else
      let twice := (d.chain die chain).lossAt.elim false (fun t => d.time.lt < t + tickSec)
      let air := (d.chain die chain).air
      let d := (d.cutOff die chain).setChain die chain (fun k => { k with lossAt := some d.time.lt, cal := if k.cal == 3 then 1 else k.cal })
      let d := air.elim d (fun x => (d.airedTx die chain x).txDropped (die - 2) x)
      let d := (d.wBit F.SYN.CAL_STAT_TX_BUSY chain false die).raise E.SYN.TXSYN_LOCK die
      if !twice then d.txTo die chain 2
      else if d.txState die chain == 7 then d
      else (d.txFail die chain).calSettle die)

end Sys2Proof.Machine
end

