-- ==== Sys2Proof/Machine/Receive.lean ====
section
/-! DEFINITION. Meanings of the receive family: acquisition, SIG, decoding, collision recovery, delivery, noise and loading maps
(chapter 7). -/

namespace Sys2Proof.Machine
open Sys2Proof

/-- The cluster and the position in it of a channel (Table 7-10). -/
def clusterOf (ch : Nat) : Nat := ch / 32

/-- A channel's live MODE: 0 native, 1 SUN-FSK leader, 2 O-QPSK leader, 3 member (Table 7-10). -/
def Dev.chMode (d : Dev) (air ch : Nat) : Nat := d.g F.DEM.CH_CFG_MODE air (ch / 32) (ch % 32)

/-- A reception of an Air die. -/
def Dev.recep (d : Dev) (air id : Nat) : Option Recep := (d.airD air).receps.find? (fun r => r.id == id)

/-- Change a reception. -/
def Dev.setRecep (d : Dev) (air id : Nat) (f : Recep → Recep) : Dev :=
  d.setAir air (fun a => { a with receps := mapIf (fun r => r.id == id) f a.receps })

/-- A reception ends and its unit and context are free. -/
def Dev.dropRecep (d : Dev) (air id : Nat) : Dev :=
  (d.setAir air (fun a => { a with
    receps := a.receps.filter (fun r => r.id != id)
    aired := a.aired ++ (a.receps.filter (fun r => r.id == id)).map (fun r => r.aired air d.time.lt) })).showRx air

/-- SAMPLE_FIFO_OVERFLOW: a channelizer sample FIFO overflows (R27). -/
def execSampleFifoOverflow (die chain : Nat) (s : State) : Answer :=
  run s (fun d =>
    if !isAir die then d
    else
      (((d.w F.CHZ.OVF_STAT_CHAIN chain die).w F.CHZ.OVF_STAT_OVF 1 die).inc C.CHZ.OVF_CNT die).raise E.CHZ.SAMPLE_OVF die)

/-- The gang of a leader under settings: how many channels it takes. -/
def gangSize (mode : Nat) : Nat :=
  match mode with
  | 1 => 2
  | 2 => 16
  | _ => 1

/-- The channels tied to a channel of a cluster by a gang under a setting of modes (R179): its own and, in a gang, the leader's
and every member's. -/
def gangOf (modeAt : Nat → Nat) (j : Nat) : List Nat :=
  match (List.range (j + 1)).reverse.find? (fun l => j < l + gangSize (modeAt l) && (modeAt l == 1 || modeAt l == 2)) with
  | some l => (List.range (gangSize (modeAt l))).map (fun i => l + i)
  | none => [j]

/-- Whether a channel has lost its channel unit: the unit that served it failed and no spare took it over (R524, Table 18-5). -/
def Dev.unitLost (d : Dev) (air ch : Nat) : Bool :=
  let mine := d.mt.units.filter (fun u => u.type == 2 && u.die == air && u.serves == 34 * (ch / 32) + ch % 32)
  mine.any (fun u => u.state == .failed) && !mine.any (fun u => u.state == .active)

/-- Whether a channel unit searches for a family (R180, R181): native families by PFAM, legacy ones by the leader's mode. A channel whose
unit is lost, or a gang that holds one, receives nothing (R524, Table 18-5). -/
def Dev.searches (d : Dev) (air ch family : Nat) : Bool :=
  let q := ch / 32
  let j := ch % 32
  d.on F.DEM.CH_CFG_EN air q j && (gangOf (fun i => d.chMode air (32 * q + i)) j).all (fun i => !d.unitLost air (32 * q + i)) &&
    (match family with
    | 4 => d.chMode air ch == 1
    | 5 => d.chMode air ch == 2
    | f => d.chMode air ch == 0 && f < 4 && bitOf (d.g F.DEM.CH_CFG_PFAM air q j) f)

/-- Whether a native frame finds a decoder context: 16 for each decoder in service in its cluster, one held by each native frame
(R193, R524, Table 18-5). -/
def Dev.ctxFree (d : Dev) (air ch : Nat) : Bool :=
  let q := ch / 32
  let n := ((List.range 5).filter (fun k => (d.unit 3 air (5 * q + k)).state == .active)).length
  ((d.airD air).receps.filter (fun r => r.channel / 32 == q && r.family < 4)).length < 16 * n

/-- Whether a channel unit has a reception in progress on the channel it serves, or on a gang that holds it (Table 7-8). -/
def Dev.unitBusy (d : Dev) (air unit : Nat) : Bool :=
  let u := (d.unit 2 air unit).serves
  let ch := 32 * (u / 34) + u % 34
  (d.airD air).receps.any (fun r => r.channel ≤ ch && ch < r.channel + gangSize (d.chMode air r.channel) && r.arriving air d.time.lt)

/-- Whether two reference instants belong to one frame: they lie less than a symbol apart (DESIGN CHOICE, log 25). -/
def sameTiming (air a b : Nat) : Bool := a < b + symTicks air && b < a + symTicks air

/-- Whether a detection on a channel with a reference instant is a native frame that this die is transmitting (R183). -/
def Dev.ownFrame (d : Dev) (air ch tref : Nat) : Bool :=
  (List.range 4).any (fun c => (d.chain (air + 2) c).air.elim false (fun x => x.channel == ch && x.mode == 0 &&
    sameTiming air tref ((d.chain (air + 2) c).airEnd - d.airTicks air x + preSymbols 2 * symTicks air)))

/-- The centre of a channel's cell in Hz (R134, R135). -/
def Dev.centreHz (d : Dev) (air ch : Nat) : Nat :=
  (if air == 3 then 410000000 else 2401750000) + cellHz air * (d.cellsOf (air + 2) ch 1).1 + cellHz air / 2

/-- An estimated carrier in 10^-8 Hz, from an offset in 0.01 ppm of the channel's centre frequency. -/
def Dev.carrier (d : Dev) (air ch : Nat) (cfo : Int) : Int := d.centreHz air ch * (10 ^ 8 + cfo)

/-- The reception that detects the same frame on an adjacent channel: the carriers lie within one subcarrier spacing (R183). -/
def Dev.twinOf (d : Dev) (air ch family tref : Nat) (cfo : Int) : Option Recep :=
  (d.airD air).receps.find? (fun o => family < 4 && o.family == family && (o.channel == ch + 1 || o.channel + 1 == ch) &&
    sameTiming air o.tref tref && 32 * (d.carrier air ch cfo - d.carrier air o.channel o.cfo).natAbs ≤ 10 ^ 8 * cellHz air)

/-- Whether the unit of an earlier reception has the smaller absolute offset, or the same (DESIGN CHOICE, log 25), and so keeps the frame (R183). -/
def Dev.keepsFrame (d : Dev) (air ch : Nat) (cfo : Int) (o : Recep) : Bool :=
  d.centreHz air o.channel * o.cfo.natAbs ≤ d.centreHz air ch * cfo.natAbs

/-! ## The three stages (R181) -/

/-- The native family that stage 2 names: the enabled one whose P1 word correlates best, the lowest among equals, when it reaches THR2. -/
def Dev.stageTwo (d : Dev) (air ch : Nat) (corr : List Nat) : Option Nat :=
  let best := ((List.range 4).filter (fun f => d.searches air ch f)).foldl (fun (b : Option Nat) f => match b with
    | none => some f
    | some g => if corr.getD g 0 < corr.getD f 0 then some f else b) none
  best.filter (fun f => d.g F.DEM.DET_CFG_THR2 air (ch / 32) ≤ corr.getD f 0)

/-- The family that a channel's unit or gang detects: stages 1 and 2 for a native channel, the SHR for a leader (R181). -/
def Dev.detects (d : Dev) (air ch : Nat) (p : Preamble) : Option Nat :=
  match d.chMode air ch with
  | 0 => if p.shr || p.m1 < d.g F.DEM.DET_CFG_THR1 air (ch / 32) then none else d.stageTwo air ch p.corr
  | 1 => if p.shr && d.searches air ch 4 then some 4 else none
  | 2 => if p.shr && d.searches air ch 5 then some 5 else none
  | _ => none

/-- The chains included in combining (R186): enabled, in the mask, not failed, not blanked. -/
def Dev.included (d : Dev) (air : Nat) : Nat :=
  ofBits ((bitList 8 (d.g F.CMB.STAT_CHAINS_USED air)).filter (fun c => !bitOf (d.g F.RXF.CHAIN_STAT_BLANK (air + 2)) c))

/-- The chains combined and their SNR: every included chain, or with MODE 1 the one with the highest P2 SNR (R186). -/
def Dev.combined (d : Dev) (air : Nat) (p : Preamble) : Nat × Int :=
  let all := d.included air
  let best := (bitList 8 all).foldl (fun (b : Option Nat) c => match b with
    | none => some c
    | some e => if p.chSnr.getD e 0 < p.chSnr.getD c 0 then some c else b) none
  match d.on F.CMB.CFG_MODE air, best with
  | true, some c => (2 ^ c, p.chSnr.getD c 0)
  | _, _ => (all, p.snr)

/-- The stronger frame of a collision is over: each weaker frame that waits for it notes the outcome and the stronger's air time, and its job may run, with
cancellation when the stronger passed (R188, R189). A stronger frame whose SIG failed counts as on the air until now (DESIGN CHOICE, log 25). -/
def Dev.strongOver (d : Dev) (air : Nat) (r : Recep) (ok : Bool) : Dev :=
  let span := (r.startTick air, (r.endTick air).getD d.time.lt)
  d.setAir air (fun a => { a with
    receps := mapIf (fun w => w.sic && w.role == 2 && w.partner == r.id && w.ended.isNone)
      (fun w => { w with ended := some ok, spans := w.spans ++ [span] }) a.receps })

/-- A reception starts on a channel where none, or one, is in progress; a second one starts a collision, unless the cluster's engine is off (R187). A frame
that waits as the weaker of an earlier collision stays a weaker one. -/
def Dev.acquire (d : Dev) (air : Nat) (r : Recep) (other : Option Recep) : Dev :=
  let q := clusterOf r.channel
  let start := fun (d : Dev) (r : Recep) =>
    ((d.setAir air (fun a => { a with receps := a.receps ++ [r], next := a.next + 1 })).inc C.DEM.DET_CNT air q r.family).showRx air
  match other with
  | none => start d r
  | some o =>
    let d := d.inc C.SIC.COLL_DET air q
    if !d.on F.SIC.CFG_EN air q then start d r
    else
      let newStrong := o.snr < r.snr
      let resid := d.on F.SIC.CFG_RESID air q
      let c := d.setRecep air o.id (fun o => { o with
        role := if newStrong || o.role == 2 then 2 else 1
        ended := if newStrong then none else o.ended
        sic := true
        partner := if newStrong then r.id else o.partner
        resid := resid })
      start c { r with role := if newStrong then 1 else 2, sic := true, partner := o.id, resid := resid }

/-- A preamble passes the three stages on a channel unit and a reception starts; a second one on a native channel
starts a collision; a third, any on a busy gang, and one that finds no decoder context are not acquired (R181 to R184, R187, R191, R524). -/
def Dev.preamble (d : Dev) (die channel : Nat) (pre : Preamble) : Dev :=
  let q := clusterOf channel
  let cfoMax : Int := 100 * d.g F.DEM.DET_CFG_CFO_MAX die q
  let tref := d.time.lt - pre.ago
  let here := (d.airD die).receps.filter (fun r => r.channel == channel && r.arriving die d.time.lt)
  let mix := d.combined die pre
  if !isAir die || 512 ≤ channel || d.bandState (die + 2) != 3 || !d.dieUp die then d
  else match d.detects die channel pre with
    | none => d
    | some family =>
      let twin := d.twinOf die channel family tref pre.cfo
      if (d.airD die).demWait.contains channel then d.inc C.DEM.ABANDON die q
      else if pre.cfo < -cfoMax || cfoMax < pre.cfo then d.inc C.DEM.CFO_REJECT die q
      else if mix.2 < sext 8 (d.g F.DEM.DET_CFG_SNR_MIN die q) then d
      else if family == 2 && d.ownFrame die channel tref then d.inc C.CMB.SELF die
      else if twin.any (fun o => d.keepsFrame die channel pre.cfo o) then d.inc C.CMB.DUP die
      else if family < 4 && here.length < 2 && !d.ctxFree die channel then d.inc C.DEM.ABANDON die q
      else if 4 ≤ family && !here.isEmpty then d.inc C.SIC.LEGACY_COLL die q
      else if 2 ≤ here.length then d.inc C.DEM.COLL3 die q
      else
        let d := twin.elim d (fun o => ((d.inc C.CMB.DUP die).strongOver die o false).dropRecep die o.id)
        d.acquire die
          { id := (d.airD die).next, channel := channel, family := family, tref := tref, snr := mix.2, cfo := pre.cfo,
            chains := mix.1, role := 0, sic := false, partner := 0, ended := none, sig := family ≥ 4,
            map := if family < 4 then 0 else 0xFFF, mapWord := 0, rate := 0, length := 0, maxSym := d.g F.CMB.CFG_MAX_SYM die, heard := mix.1 }
          here.head?

/-- PREAMBLE_ACCEPT: a channel unit measures a preamble (R181), and accepts it or not (`Dev.preamble`). -/
def execPreambleAccept (die channel : Nat) (p1 : P1Seen) (snr : Int) (chSnr : List Int) (cfo : Int) (ago : Nat) (s : State) : Answer :=
  run s (fun d => d.preamble die channel { p1 with snr := snr, chSnr := chSnr, cfo := cfo, ago := ago })

/-- The map of a ladder's rung, 0xFFF for none: rung 0 resets to map 0, the others to none (Table 7-14). -/
def Dev.rung (d : Dev) (air ladder k : Nat) : Nat :=
  kvGet (if k == 0 then 0 else 0xFFF) (d.airD air).ladders (8 * ladder + k)

/-- Why a decoded SIG drops its frame, as the counter it is counted in, or none (R185). -/
def Dev.sigFault (d : Dev) (air maxSym sig : Nat) : Option Ctr :=
  let rate := bitsOf sig 12 2
  let len := bitsOf sig 14 10
  let w := d.mapWord air (bitsOf sig 0 12)
  if sigCheck sig != bitsOf sig 24 6 || rate == 3 || len == 0 then some C.DEM.SIG_FAIL
  else if !mapValid w then some C.DEM.MAP_INVALID
  else if maxSym < dataSymbols len rate (mapCbps w) then some C.DEM.TOO_LONG
  else none

/-- A reception with the fields of its SIG, and the thresholds and the ladder as they stand at its SIG (R199, R201). -/
def Dev.withSig (d : Dev) (air sig : Nat) (r : Recep) : Recep :=
  { r with
    sig := true
    map := bitsOf sig 0 12
    mapWord := d.mapWord air (bitsOf sig 0 12)
    rate := bitsOf sig 12 2
    length := bitsOf sig 14 10
    thr := [d.g F.NSE.THR_T_BPSK air, d.g F.NSE.THR_T_QPSK air, d.g F.NSE.THR_T_16QAM air]
    rungs := (List.range 8).map (fun k => d.rung air (kvGet 0 (d.airD air).chLad r.channel) k) }

/-- SIG_DECODE: a frame's SIG is decoded and checked; a bad SIG, map or length drops the frame (R174, R185). With a stronger frame
dropped so, nothing is cancelled from the weaker one. -/
def execSigDecode (die id sig : Nat) (s : State) : Answer :=
  run s (fun d =>
    match d.recep die id with
    | none => d
    | some r =>
      if !isAir die || r.sig then d
      else
        let q := clusterOf r.channel
        let d := d.inc C.DEC.SIG_DECODED die (q / 4)
        match d.sigFault die r.maxSym sig with
        | some c => ((d.inc c die q).strongOver die r false).dropRecep die id
        | none => d.setRecep die id (fun r => d.withSig die sig r))

/-! ## The FCS (R194) -/

/-- Whether a PSDU's FCS matches: the last two octets, low octet first, or the last four of a legacy frame (R194). -/
def fcsOk (psdu : List Byte) (fcs4 : Bool) : Bool :=
  let n := if fcs4 then 4 else 2
  n ≤ psdu.length &&
    leNat (psdu.drop (psdu.length - n)) == (if fcs4 then fcs32 else fcs16) (psdu.take (psdu.length - n))

/-! ## Map recommendation (R198) -/

/-- The subcarrier of data index j (R171), and its position among the 28 non-null subcarriers in ascending order. -/
def dataPos (j : Nat) : Nat := ([0, 1, 3, 4, 5, 6, 7, 8, 9, 11, 12, 13, 14, 15, 16, 18, 19, 20, 21, 22, 23, 24, 26, 27] : List Nat).getD j 0

/-- The published noise code of a position of a channel (R197). -/
def Dev.noiseCode (d : Dev) (air ch pos : Nat) : Nat := kvGet 0 (d.airD air).noise (32 * ch + pos)

/-- The proposal code of an SNR in 0.25 dB under the three thresholds (R198). -/
def proposal (thr : List Nat) (snr : Int) : Nat :=
  if (thr.getD 2 0 : Int) ≤ snr then 3
  else if (thr.getD 1 0 : Int) ≤ snr then 2
  else if (thr.getD 0 0 : Int) ≤ snr then 1
  else 0

/-- Whether a map is covered by a proposal (R198). -/
def covered (w : Nat) (prop : List Nat) : Bool := (List.range 24).all (fun j => bitsOf w (2 * j) 2 ≤ prop.getD j 0)

/-- The recommended map and NO_FIT of a native frame: the highest covered rung of its ladder, or rung 0 with NO_FIT, by the thresholds and
the ladder that stood at its SIG (R198, R201). -/
def Dev.recommend (d : Dev) (air : Nat) (r : Recep) (power : List Nat) : Nat × Bool :=
  let prop := (List.range 24).map (fun j =>
    proposal r.thr ((power.getD j 0 : Int) - 2 * d.noiseCode air r.channel (dataPos j)))
  match r.rungs.reverse.find? (fun m => m != 0xFFF && covered (d.mapWord air m) prop) with
  | some m => (m, false)
  | none => (r.rungs.getD 0 0xFFF, true)

/-- The delivery queue's depth (R195). -/
def delivCap : Nat := 2048

/-- A frame enters the delivery queue, or is dropped when it is full (R195). -/
def Dev.enqueueRx (d : Dev) (air : Nat) (f : RxFrame) : Dev :=
  if delivCap ≤ (d.airD air).deliv.length then (d.inc C.CMB.OUT_DROP air).raise E.CMB.OUT_OVF air
  else d.setAir air (fun a => { a with deliv := a.deliv ++ [f] })

/-- A signed quantity held in `w` bits, saturating (Table 7-5). -/
def satS (w : Nat) (x : Int) : Int := clampI (-(2 ^ (w - 1) : Nat)) ((2 ^ (w - 1) : Nat) - 1) x

/-- The delivered frame of a reception whose FCS passed, with its descriptor (R196, Table 7-5). -/
def Dev.deliverRx (d : Dev) (air : Nat) (r : Recep) (psdu : List Byte) (role nov : Nat) (power : List Nat)
    (fcs : Nat := 2) : Dev :=
  let nat := r.family < 4
  let rec_ := if nat then d.recommend air r power else (0xFFF, false)
  let d := (d.inc C.DEC.FRAMES_OK air (r.channel / 128)).addc C.DEC.BITS_OUT (8 * psdu.length) air (r.channel / 128)
  let d := d.when (nat && rec_.2) (fun d => d.inc C.NSE.NO_FIT air)
  d.enqueueRx air
    { band := air - 3, channel := r.channel, family := r.family, role := role, nov := nov, map := r.map, rate := r.rate,
      tref := r.tref, snr := satS 8 r.snr, cfo := satS 16 r.cfo, chains := r.heard, recMap := rec_.1, noFit := rec_.2, psdu := psdu, fcs := fcs, mapWord := r.mapWord }

/-- The PSDU a decoder delivers: descrambled for a native frame (R194). -/
def psduOf (r : Recep) (e : DecodeEnv) : List Byte :=
  if r.family < 4 then scramble 0x5D (padTo r.length e.bits) else e.bits

/-- Whether a legacy frame is within the PHY subset of Table 7-4. -/
def legacyPhyOk (r : Recep) (e : DecodeEnv) : Bool :=
  !e.unsup && (if r.family == 5 then e.bits.length ≤ 127 && !e.fcs4 else e.bits.length ≤ 2047)

/-- FRAME_DECODED: decoding ends; the PSDU is descrambled, its FCS checked and its descriptor built. The stronger frame of a collision
decides whether anything is cancelled; a weaker frame of a collision job waits for its recovery (R188, R194, R196). -/
def execFrameDecoded (die id : Nat) (env : DecodeEnv) (s : State) : Answer :=
  run s (fun d =>
    match d.recep die id with
    | none => d
    | some r =>
      if !isAir die || !r.sig || (r.role == 2 && r.sic) then d
      else
        let q := clusterOf r.channel
        let psdu := psduOf r env
        let ok := fcsOk psdu (4 ≤ r.family && env.fcs4)
        if 4 ≤ r.family && !legacyPhyOk r env then (d.inc C.DEM.LEGACY_UNSUP die q).dropRecep die id
        else
          let d := (d.strongOver die r ok).when (r.role == 1 && !ok) (fun d => d.inc C.SIC.STRONG_FAIL die q)
          let d := d.dropRecep die id
          if ok then d.deliverRx die r psdu (if r.role == 1 then 1 else 0) 0 env.power (if 4 ≤ r.family && env.fcs4 then 4 else 2)
          else d.inc C.DEC.FCS_FAIL die (q / 4))

/-- FRAME_DELIVERY: a decoded frame leaves the delivery queue for the air MAC (R195). -/
def execFrameDelivery (die : Nat) (s : State) : Answer :=
  run s (fun d =>
    match (d.airD die).deliv with
    | [] => d
    | f :: l =>
      if !isAir die then d
      else (d.setAir die (fun a => { a with deliv := l, macIn := a.macIn ++ [f] })).inc C.CMB.FRAMES_OUT die)

/-- A weaker frame's recovery ends: it is delivered with its role and N_ov, or counted as failed (R188, Table 7-12). -/
def Dev.weakDone (d : Dev) (air : Nat) (r : Recep) (role nov : Nat) (env : DecodeEnv) : Dev :=
  let q := clusterOf r.channel
  let psdu := psduOf r env
  let d := d.strongOver air r (fcsOk psdu false)
  if fcsOk psdu false then (d.inc C.SIC.WEAK_OK air q).deliverRx air r psdu role nov env.power
  else (d.inc C.SIC.WEAK_FAIL air q).inc C.DEC.FCS_FAIL air (q / 4)

/-- The frame that the residual search finds, as a reception (R190). -/
def Dev.foundFrame (d : Dev) (air : Nat) (r : Recep) (f : ResidFrame) : Recep :=
  d.withSig air f.sig { r with family := f.family, tref := d.time.lt - f.ago, snr := f.snr, cfo := f.cfo, role := 3, id := 0 }

/-- Whether a frame's preamble lies on the buffered span of a cancelled frame, on a family that the channel searches (R190). -/
def Dev.onSpan (d : Dev) (air : Nat) (r : Recep) (f : ResidFrame) (span : Nat × Nat) : Bool :=
  let x := d.foundFrame air r f
  d.searches air r.channel f.family && f.family < 4 && span.1 ≤ x.startTick air && x.tref ≤ span.2

/-- The frame that the residual search finds on the span of a cancelled frame: its SIG is decoded and checked and it is decoded as a
weaker frame, with N_ov its symbols inside the span (R189, R190). -/
def Dev.residual (d : Dev) (air : Nat) (r : Recep) (f : ResidFrame) (span : Nat × Nat) : Dev :=
  let q := clusterOf r.channel
  let d := (d.inc C.SIC.RESID_FOUND air q).inc C.DEC.SIG_DECODED air (q / 4)
  match d.sigFault air r.maxSym f.sig with
  | some c => d.inc c air q
  | none =>
    let x := d.foundFrame air r f
    let nov := x.overlapped air [span]
    if 128 < nov then d.inc C.SIC.LONG air q else d.weakDone air x 3 nov f.env

/-- SIC_RECOVERY: after the stronger frame ends, the weaker frame is decoded from the residual, or from the buffer as received when
the stronger frame failed; above 128 overlapped symbols no recovery is attempted and it is dropped; after a cancellation the residual
may hold one further frame (R188 to R190). -/
def execSicRecovery (die id : Nat) (bits : List Byte) (power : List Nat) (resid : Option ResidFrame) (s : State) : Answer :=
  run s (fun d =>
    match d.recep die id with
    | none => d
    | some r =>
      match r.ended with
      | none => d
      | some cancelled =>
        if !isAir die || !r.sig || r.role != 2 then d
        else
          let q := clusterOf r.channel
          let nov := r.overlapped die r.spans
          let d := d.dropRecep die id
          if 128 < nov then (d.strongOver die r false).inc C.SIC.LONG die q
          else
            let d := d.weakDone die r 2 nov { bits := bits, power := power }
            match resid, r.spans.getLast? with
            | some f, some span => if cancelled && r.resid && d.onSpan die r f span then d.residual die r f span else d
            | _, _ => d)

/-! ## Noise (R197) -/

/-- A channel's published set: with at least MIN_OBS observations its codes are replaced, else it stays and is stale; 16
superframes in a row raise STALE (R197, Table 7-15). -/
def Dev.publishNoise (d : Dev) (air ch obs : Nat) (codes : List Nat) : Dev :=
  if d.g F.NSE.OBS_CFG_MIN_OBS air ≤ obs then
    d.setAir air (fun a => { a with
      noise := (codes.zipIdx).foldl (fun l e => if e.2 < 28 then kvSet 0 l (32 * ch + e.2) (e.1 % 256) else l) a.noise
      staleRun := kvSet 0 a.staleRun ch 0
      staleNow := kvSet 0 a.staleNow ch 0 })
  else
    let n := kvGet 0 (d.airD air).staleRun ch + 1
    let d := (d.setAir air (fun a => { a with
      staleRun := kvSet 0 a.staleRun ch n
      staleNow := kvSet 0 a.staleNow ch 1 })).inc C.NSE.STALE_CH air
    d.when (16 ≤ n) (fun d => d.raise E.NSE.STALE air)

/-- What was on the air of a band since the last publication, the receptions and transmissions in progress included; a chain is blanked from 16 µs before its
first sample to 12 µs after its last (R142, R197). -/
def Dev.onAir (d : Dev) (air : Nat) : List AirSpan :=
  let wide := fun (s : AirSpan) => if s.chain == 4 then s else { s with start := s.start - 16 * tickUs, till := s.till + 12 * tickUs }
  let now := d.time.lt + symTicks air
  let sent := ([0, 1, 2, 3] : List Nat).filterMap (fun c => (d.chain (air + 2) c).air.map (fun x =>
    ({ chain := c, channel := x.channel, width := x.width, start := (d.chain (air + 2) c).airEnd - d.airTicks air x, till := now } : AirSpan)))
  ((d.airD air).aired ++ (d.airD air).receps.map (fun r => r.aired air now) ++ sent).map wide

/-- Whether an FFT output may be used: during its interval nothing was received on its channel or a neighbour, nothing was sent on them, and its chain is
included and not blanked (R197). -/
def obsUsable (air now included : Nat) (spans : List AirSpan) (o : NoiseObs) : Bool :=
  let a := now - o.ago
  bitOf included o.chain && spans.all (fun s => s.till ≤ a || a + symTicks air ≤ s.start ||
    ((o.ch + 1 < s.channel || s.channel + s.width < o.ch) && s.chain != o.chain))

/-- The mean of a list, rounded down. -/
def meanN (l : List Nat) : Nat := l.foldl (fun n x => n + x) 0 / max 1 l.length

/-- The code n of a power, −160 + 0.5 × n dBm, to the nearest code (the rounding is a DESIGN CHOICE, log 25): 20 log₁₀ of the power over 10^-16 mW. -/
def noiseCodeOf (p : Nat) : Nat := ((List.range 255).filter (fun k => 10 ^ (2 * k + 121) ≤ p ^ 40)).length

/-- The codes of a channel from its FFT outputs: for each subcarrier the mean over the chains of each chain's mean over its intervals (R197). -/
def noiseCodes (obs : List NoiseObs) : List Nat :=
  let chains := (List.range 8).filter (fun c => obs.any (fun o => o.chain == c))
  (List.range 28).map (fun k => noiseCodeOf (meanN (chains.map (fun c =>
    meanN ((obs.filter (fun o => o.chain == c)).map (fun o => o.powers.getD k 0))))))

/-- NOISE_PUBLISH: at each superframe boundary the noise unit publishes its codes for every native channel; a MIN_OBS of 0 holds them all (R197). -/
def execNoisePublish (die : Nat) (obs : List NoiseObs) (s : State) : Answer :=
  run s (fun d =>
    if !isAir die then d
    else
      let used := obs.filter (fun o => obsUsable die d.time.lt (d.g F.CMB.STAT_CHAINS_USED die) (d.onAir die) o)
      let d := d.setAir die (fun a => { a with aired := [] })
      if d.g F.NSE.OBS_CFG_MIN_OBS die == 0 then d
      else
        let d := d.each ((List.range 512).filter (fun ch => d.chMode die ch == 0)) (fun d ch =>
          let mine := used.filter (fun o => o.ch == ch)
          d.publishNoise die ch mine.length (if mine.isEmpty then [] else noiseCodes mine))
        (d.inc C.NSE.SF_MEASURED die).setAir die (fun a => { a with sfNoise := d.g F.AMC.SF_NUM_NUM die }))

/-- A write of NF_SEL latches that channel's published set (Table 7-14). -/
def Dev.latchNoise (d : Dev) (air ch : Nat) : Dev :=
  let d := (d.w F.NSE.NF_SEL_CH ch air).w F.NSE.NF_STAT_STALE (kvGet 0 (d.airD air).staleNow ch) air
  let d := d.w F.NSE.NF_STAT_SF ((d.airD air).sfNoise % 65536) air
  d.each (List.range 7) (fun d k =>
    d.w F.NSE.NF_DATA_CODES (leNat ((List.range 4).map (fun i => BitVec.ofNat 8 (d.noiseCode air ch (4 * k + i))))) air 0 k)

/-! ## DEM commits (R201) -/

/-- The fields of CH_CFG. -/
def chCfgFields : List Fld :=
  [F.DEM.CH_CFG_EN, F.DEM.CH_CFG_MODE, F.DEM.CH_CFG_PFAM, F.DEM.CH_CFG_FSK_RATE, F.DEM.CH_CFG_SFD_SEL, F.DEM.CH_CFG_FOFS]

/-- The fields of DET_CFG. -/
def detCfgFields : List Fld :=
  [F.DEM.DET_CFG_THR1, F.DEM.DET_CFG_THR2, F.DEM.DET_CFG_SNR_MIN, F.DEM.DET_CFG_CFO_MAX]

/-- A DEM commit is applied: DET_CFG is live, and each changed channel waits for its moment (R201). -/
def Dev.demApply (d : Dev) (p : Page) (snap : List (Nat × Nat)) : Dev :=
  let det := detCfgFields.any (fun f => d.changes snap f p)
  let chg := (List.range 32).filter (fun j => det || chCfgFields.any (fun f => d.changes snap f p j))
  let d := d.each detCfgFields (fun d f => d.put f p (snapGet snap f p))
  if chg.isEmpty then (d.liveFrom p snap).commitDone p
  else
    let pc : PendCommit := { tag := p.tag, die := p.die, inst := p.inst, snap := snap, deferred := false }
    let d := { d with commits := (d.dropCommit p).commits ++ [pc] }
    d.setAir p.die (fun a => { a with demWait := a.demWait ++ chg.map (fun j => 32 * p.inst + j) })

/-- DEM_COMMIT_LIVE: a changed channel's new settings go live once it and every channel of its old and new gangs have no reception
in progress; COMMIT_BUSY clears when every changed channel is live (R201). -/
def execDemCommitLive (die channel : Nat) (s : State) : Answer :=
  run s (fun d =>
    let p : Page := ⟨.DEM, die, channel / 32⟩
    let j := channel % 32
    match d.pendingCommit p with
    | none => d
    | some pc =>
      if !isAir die || !(d.airD die).demWait.contains channel then d
      else
        let tied := gangOf (fun i => d.chMode die (32 * p.inst + i)) j ++ gangOf (fun i => snapGet pc.snap F.DEM.CH_CFG_MODE p i) j
        if (d.airD die).receps.any (fun r => r.channel / 32 == p.inst && tied.contains (r.channel % 32)) then d
        else
          let d := d.each chCfgFields (fun d f => d.put f p (snapGet pc.snap f p j) j)
          let d := d.setAir die (fun a => { a with demWait := a.demWait.filter (fun c => c != channel) })
          if (d.airD die).demWait.any (fun c => c / 32 == p.inst) then d else (d.liveFrom p pc.snap).commitDone p)

end Sys2Proof.Machine
end

