-- ==== Sys2Proof/Machine/AirBase.lean ====
section
/-! DEFINITION. Air access, the shared part: superframe geometry and time, native frame headers and their protection, planning of
transmissions, drift, the slot planner and replies (R226 to R250, R266 to R271). -/

namespace Sys2Proof.Machine
open Sys2Proof

/-! ## Superframes and slots (R226 to R232) -/

/-- The slot length in µs of a code (R226). -/
def slotUs (code : Nat) : Nat :=
  match code with
  | 0 => 2500
  | 1 => 5000
  | 2 => 10000
  | 3 => 20000
  | _ => 40000

/-- L in ticks. -/
def Dev.slotLen (d : Dev) (air : Nat) : Nat := slotUs (d.g F.AMC.SF_CFG_SLOT air) * tickUs
/-- N, the slots of a superframe. -/
def Dev.sfSlots (d : Dev) (air : Nat) : Nat := d.g F.AMC.SF_CFG_LEN air + 1
/-- T_sf in ticks. -/
def Dev.sfLen (d : Dev) (air : Nat) : Nat := d.sfSlots air * d.slotLen air

/-- T_bcn in ticks (R231): 3,744.0 µs and 2,995.2 µs. -/
def bcnTicks (air : Nat) : Nat := if air == 3 then 1198080 else 958464

/-- The enabled beacon entries, in ascending order. -/
def Dev.bcnOn (d : Dev) (air : Nat) : List Nat := (List.range 8).filter (fun k => d.on F.AMC.BCN_CH_EN air 0 k)

/-- The rounds and beacon slots of `e` beacons on `c` chains with slots of `l` ticks (R231). -/
def bcnGeom (air e c l : Nat) : Nat × Nat :=
  if e == 0 then (0, 0)
  else
    let n := (e + max 1 c - 1) / max 1 c
    (n, (1000 * tickUs + n * bcnTicks air + (n - 1) * 200 * tickUs + l - 1) / l)

/-- B of the live settings. -/
def Dev.bcnSlots (d : Dev) (air : Nat) : Nat := d.g F.AMC.BCN_STAT_B air

/-- Whether a slot is a contention slot (R232). -/
def Dev.contSlot (d : Dev) (air s : Nat) : Bool :=
  d.g F.AMC.CONT_CFG_FIRST air ≤ s && s < d.g F.AMC.CONT_CFG_FIRST air + d.g F.AMC.CONT_CFG_COUNT air

/-- Whether a channel is one of the enabled beacon channels. -/
def Dev.bcnChan (d : Dev) (air c : Nat) : Bool := (d.bcnOn air).any (fun k => d.g F.AMC.BCN_CH_CH air 0 k == c)

/-- The slew of the present superframe in ticks: what is left, up to SLEW µs, lengthens its last slot or shortens it (R257). -/
def Dev.slewStep (d : Dev) (air : Nat) : Int :=
  let m : Int := d.g F.AMC.NBR_CFG_SLEW air * tickUs
  clampI (-m) m (d.airD air).slew

/-- The end of a slot of a superframe, the present one or the one before it (R226, R257). -/
def Dev.slotEnd (d : Dev) (air sf slot : Nat) : Nat :=
  let a := d.airD air
  let now := sf == d.g F.AMC.SF_NUM_NUM air
  let start := if now then a.sfStart else a.past.start
  let adj := if now && slot + 1 == d.sfSlots air then d.slewStep air else if !now && slot + 1 == a.past.slots then a.past.adj else 0
  (((start + (slot + 1) * d.slotLen air : Nat) : Int) + adj).toNat

/-- The latest end of a transmission in a slot (R229). -/
def Dev.limitOf (d : Dev) (air sf slot : Nat) : Nat := d.slotEnd air sf slot - 500 * tickUs

/-- The latest end of a transmission in the present slot (R229). -/
def Dev.slotLimit (d : Dev) (air : Nat) : Nat := d.limitOf air (d.g F.AMC.SF_NUM_NUM air) (d.airD air).slot

/-- The slot boundary at which the present superframe ends before a re-phased boundary, counted in slots (R258 step 1). -/
def Dev.lastSlots (d : Dev) (air next : Nat) : Nat :=
  min (d.sfSlots air) ((next - 1 - (d.airD air).sfStart) / max 1 (d.slotLen air))

/-! ## Neighbours' reservations (R255) -/

/-- A neighbour's superframe in ticks. -/
def Nbr.period (n : Nbr) : Nat := (n.len + 1) * slotUs n.slotCode * tickUs

/-- Whether a neighbour's reservation of a channel overlaps an interval. -/
def Nbr.holds (n : Nbr) (ch a b : Nat) : Bool :=
  let t := n.period
  let w := (n.bslots + 1) * slotUs n.slotCode * tickUs
  let p := (((a : Int) - n.start) % ((max 1 t : Nat) : Int)).toNat
  n.chans.contains ch && (p < w || t < p + (b - a))

/-- Whether any neighbour reserves a channel during an interval. -/
def Dev.reserved (d : Dev) (air ch a b : Nat) : Bool := (d.airD air).nbrs.any (fun n => n.holds ch a b)

/-- Whether any neighbour reserves a channel during some of the intervals that repeat one every `step` ticks: taken modulo a common divisor of both
periods, the intervals meet one reservation (R255). -/
def Dev.reservedEver (d : Dev) (air ch a b step : Nat) : Bool :=
  (d.airD air).nbrs.any (fun n =>
    let g := Nat.gcd (max 1 step) (max 1 n.period)
    let w := (n.bslots + 1) * slotUs n.slotCode * tickUs
    let p := (((a : Int) - n.start) % ((max 1 g : Nat) : Int)).toNat
    n.chans.contains ch && (p < w || g < p + (b - a)))

/-! ## Native frames (R235 to R239, R266 to R270) -/

/-- The MIC's octets of a MICL code. -/
def micLen (c : Nat) : Nat :=
  match c with
  | 0 => 4
  | 1 => 8
  | _ => 16

/-- A node frame's header (Tables 9-3 and 9-4). -/
structure NodeHdr where
  type   : Nat
  micl   : Nat
  enc    : Bool
  listen : Bool
  ackReq : Bool
  ver    : Nat
  resync : Bool
  retx   : Bool
  rsv    : Nat
  key    : NodeKey
  nh     : Nat
  epoch  : Nat
  fcnt   : Nat
  ackCtr : Nat
  deriving DecidableEq, Repr

/-- Read a node frame's header. -/
def nodeHdr (p : List Byte) : NodeHdr :=
  let a := leAt p 0 1
  let b := leAt p 1 1
  let t := leAt p 6 2
  { type := bitsOf a 0 3, micl := bitsOf a 3 2, enc := bitOf a 5, listen := bitOf a 6, ackReq := bitOf a 7,
    ver := bitsOf b 0 2, resync := bitOf b 2, retx := bitOf b 3, rsv := bitsOf b 4 4,
    key := ⟨leAt p 2 4, bitsOf t 0 12⟩, nh := bitsOf t 12 4, epoch := leAt p 8 1, fcnt := leAt p 9 4, ackCtr := leAt p 13 2 }

/-- The octets of a node frame's header. -/
def NodeHdr.len (h : NodeHdr) : Nat := if h.type == 5 then 15 else 13

/-- Whether a node frame passes the format rules of R238; `p` is the PSDU without its FCS. -/
def nodeFmtOk (family : Nat) (p : List Byte) : Bool :=
  let h := nodeHdr p
  let least := h.len + micLen h.micl
  family != 2 && (h.type == 1 || h.type == 2 || h.type == 5) && h.ver == 0 && h.micl != 3 &&
    (h.nh == 0 || h.nh == 1 || h.nh == 15) && h.rsv == 0 && least ≤ p.length && (h.type == 1 || p.length == least)

/-- The KDF input of a native frame (Table 10-2). -/
def kdfInput (tag epoch : Nat) : List Byte :=
  [0x01#8, 0x4C#8, 0x4D#8, 0x56#8, 0x4E#8, 0x46#8, 0x4B#8, 0x45#8, 0x59#8, 0x00#8] ++ toBE 4 tag ++ toBE 1 epoch ++ toBE 2 0x0080

/-- The frame key K (R266). -/
def frameKey (root : List Byte) (tag epoch : Nat) : List Byte := aesCmac root (kdfInput tag epoch)

/-- A legacy frame's key (R267). -/
def legKey (root : List Byte) (ext idx : Nat) : List Byte :=
  aesCmac root ([0x01#8, 0x4C#8, 0x4D#8, 0x56#8, 0x4E#8, 0x4C#8, 0x4B#8, 0x45#8, 0x59#8, 0x00#8] ++ toBE 8 ext ++ toBE 1 idx ++
    toBE 2 0x0080)

/-- The native nonce (Table 10-3). -/
def natNonce (tag : Nat) (down : Bool) (tenant epoch fcnt level : Nat) : List Byte :=
  toBE 4 tag ++ toBE 2 (b2n down * 32768 + tenant % 4096) ++ toBE 1 epoch ++ toBE 1 0 ++ toBE 4 fcnt ++ toBE 1 level

/-- The security level octet (R269). -/
def secLevel (micl : Nat) (enc : Bool) : Nat := micl + if enc then 5 else 1

/-- Verify and decrypt a node frame under a root: its payload, or none (R269, R275 step 3). -/
def openNode (root p : List Byte) : Option (List Byte) :=
  let h := nodeHdr p
  let m := micLen h.micl
  let n := natNonce h.key.tag false h.key.tenant h.epoch h.fcnt (secLevel h.micl h.enc)
  let body := (p.drop h.len).take (p.length - h.len - m)
  ccmOpen (frameKey root h.key.tag h.epoch) n (p.take h.len) body (p.drop (p.length - m)) h.enc

/-- A frame of type 3 or 4: its parts (Table 9-5). -/
structure DownHdr where
  type   : Nat
  micl   : Nat
  enc    : Bool
  more   : Bool
  ackReq : Bool
  group  : Bool
  dst    : Nat
  tenant : Nat
  nh     : Nat
  epoch  : Nat
  fcnt   : Nat
  map    : Option Nat
  acked  : Option Nat
  deriving DecidableEq, Repr

/-- The 17 octets of the header. -/
def DownHdr.bytes (h : DownHdr) : List Byte :=
  toLE 1 (h.type + h.micl * 8 + flag h.enc 5 + flag h.more 6 + flag h.ackReq 7) ++ toLE 1 (flag h.group 3) ++ toLE 4 h.dst ++
    toLE 2 (h.tenant % 4096 + h.nh * 4096) ++ toLE 1 h.epoch ++ toLE 4 h.fcnt ++
    toLE 2 (h.map.getD 0 % 4096 + flag h.acked.isSome 12 + flag h.map.isSome 13) ++ toLE 2 (h.acked.getD 0)

/-- A frame of type 3 or 4 protected under a root, with its FCS (R194, R269). -/
def DownHdr.seal (h : DownHdr) (root payload : List Byte) : List Byte :=
  let n := natNonce h.dst true h.tenant h.epoch h.fcnt (secLevel h.micl h.enc)
  let c := ccmSeal (frameKey root h.dst h.epoch) n h.bytes payload (micLen h.micl) h.enc
  let p := h.bytes ++ c.1 ++ c.2
  p ++ toLE 2 (fcs16 p)

/-- The elements of a control payload: ID and value (R239). -/
def elements : Nat → List Byte → List (Nat × List Byte)
  | 0, _ => []
  | n + 1, b =>
    if b.length < 2 then []
    else
      let len := leAt b 1 1
      if b.length < 2 + len then [] else (leAt b 0 1, (b.drop 2).take len) :: elements n (b.drop (2 + len))

/-- The ASSIGN element (Table 9-6). -/
def assignElem (t : Detail) : List Byte :=
  toLE 1 0x02 ++ toLE 1 9 ++ toLE 2 (t.aSlot % 4096) ++ toLE 2 (t.aCh % 512) ++ toLE 2 t.aPeriod ++ toLE 2 t.aPhase ++ toLE 1 (b2n t.listen)

/-- The RELEASE element. -/
def releaseElem : List Byte := toLE 1 0x03 ++ toLE 1 0

/-! ## Transmissions of the air MAC -/

/-- Whether the air MAC may send: SERVICE with possession, not in the gap before a re-phased boundary (R258, R259). -/
def Dev.airSends (d : Dev) (air start : Nat) : Bool :=
  d.act == mService && d.mayRadiate && d.dieUp air && (d.airD air).rephase.elim true (fun r =>
    r.1 ≤ start || start < (d.airD air).sfStart + d.lastSlots air r.1 * d.slotLen air)

/-- A transmission of the air MAC before its number and chain are known. -/
def Tx.of (kind channel map rate start power : Nat) (psdu : List Byte) (cls : Nat) (who : TxWho) : Tx :=
  { id := 0, kind := kind, channel := channel, mode := 0, map := map, mapWord := 0, rate := rate, psdu := psdu, wakeCode := 0,
    wakeIdx := 0, power := some power, start := start, chain := 0, retune := false, cls := cls, who := who }

/-- Plan a transmission: not outside SERVICE (R259), not while the Band die is halted, which is counted (Table 1-6, log 26), not past the end of its slot
(R229), not into a neighbour's reservation (R255). Answers whether it is planned. -/
def Dev.planTx (d : Dev) (air : Nat) (x : Tx) (limit : Option Nat) (own : Bool := false) : Dev × Bool :=
  let x : Tx := { x with mapWord := if x.mode == 0 then d.mapWord air x.map else 0 }
  let e := d.txEnd air x
  if !d.airSends air x.start then (d, false)
  else if !d.dieUp (air + 2) then (d.inc C.TXB.NO_CHAIN air, false)
  else if limit.elim false (fun l => l < e) then (d.inc C.AMC.NO_ROOM air, false)
  else if !own && (List.range x.width).any (fun i => d.reserved air (x.channel + i) x.start e) then (d, false)
  else (d.setAir air (fun a => { a with planned := a.planned ++ [{ x with id := a.next }], next := a.next + 1 }), true)

/-! ## Drift (R248, R249) -/

/-- The drift update of an accepted frame with offset `o` in µs that arrived at a local time (R248). -/
def Dev.driftUpdate (d : Dev) (air : Nat) (t : Detail) (resync : Bool) (o : Int) (at_ : Nat) : Detail :=
  let dt := at_ - t.tLast
  let dr := if t.ref && !resync && d.g F.AMC.DRIFT_CFG_MIN_DT air * tickSec ≤ dt && 0 < dt then
      clampI (-32767) 32767 (roundDiv (3 * t.drift * dt + (o - t.oLast) * 100000000 * tickUs) (4 * dt))
    else t.drift
  { t with drift := dr, oLast := o, tLast := at_, ref := true, unack := 0, desync := false }

/-- Whether the predicted clock error at a local time lies beyond GUARD (R248). -/
def Dev.driftBeyond (d : Dev) (air : Nat) (t : Detail) (due : Nat) : Bool :=
  let e : Int := t.oLast * 100000000 * tickUs + t.drift * ((due : Int) - t.tLast)
  (d.g F.AMC.DRIFT_CFG_GUARD air : Int) * 100000000 * tickUs < e.natAbs

/-- A node becomes DESYNC (R249). -/
def Dev.desync (d : Dev) (air : Nat) (k : NodeKey) : Dev :=
  (d.setNode k (fun e => { e with det := { e.det with desync := true } })).inc C.AMC.DESYNC_SET air

/-- The Air die of a band. -/
def bandAir (band : Nat) : Nat := 3 + band

/-- One more unacknowledged downlink of a node: the second in a row makes it DESYNC (R249). -/
def Dev.unacked (d : Dev) (k : NodeKey) : Dev :=
  match d.nodeOf k with
  | none => d
  | some e =>
    let n := min 3 (e.det.unack + 1)
    let d := d.setNode k (fun e => { e with det := { e.det with unack := n } })
    if 2 ≤ n && !e.det.desync then d.desync (bandAir e.det.lastBand) k else d

/-! ## The slot planner (R244, R245) -/

/-- The nodes assigned on a band, on both Route dies. -/
def Dev.assignedOn (d : Dev) (band : Nat) : List NodeEnt :=
  ((d.route 1).nodes ++ (d.route 2).nodes).filter (fun e => e.det.assigned && e.det.aBand == band)

/-- Show how many nodes are assigned on each band (Table 9-10). -/
def Dev.showPlan (d : Dev) : Dev :=
  (d.w F.AMC.PLAN_STAT_N (d.assignedOn 0).length 3).w F.AMC.PLAN_STAT_N (d.assignedOn 1).length 4

/-- The load that an assignment of a period adds (R244). -/
def planUnit (period : Nat) : Nat := (65536 + period - 1) / period

/-- The load of a pair of slot and channel (R244). -/
def pairLoad (l : List NodeEnt) (s c : Nat) : Nat :=
  (l.filter (fun e => e.det.aCh == c && (e.det.aSlot == s || (e.det.listen && e.det.aSlot + 1 == s)))).foldl
    (fun n e => n + planUnit (e.det.aPeriod + 1)) 0

/-- Whether a slot may be assigned (R244). -/
def Dev.slotFree (d : Dev) (air s : Nat) (listen : Bool) : Bool :=
  d.bcnSlots air ≤ s && s < d.sfSlots air && !d.contSlot air s && !(listen && s + 1 == d.sfSlots air)

/-- A period and phase as the planner takes them (R244), with whether the slot after the assigned one is a listen slot. -/
structure SlotUse where
  period : Nat
  phase  : Nat
  listen : Bool
  deriving DecidableEq, Repr

/-- Whether a channel may be assigned in a slot (R244): an enabled native channel, no beacon channel, outside every gang, not
reserved during the slot or its listen slot in any superframe in which the assignment is due (R255), and not taken by a campaign (R587). -/
def Dev.chanFree (d : Dev) (air s c : Nat) (u : SlotUse) : Bool :=
  let ahead := (u.phase + u.period - d.g F.AMC.SF_NUM_NUM air % max 1 u.period) % max 1 u.period
  let a := (d.airD air).sfStart + ahead * d.sfLen air + s * d.slotLen air
  c < 512 && d.on F.DEM.CH_CFG_EN air (c / 32) (c % 32) && d.chMode air c == 0 &&
    (gangOf (fun i => d.chMode air (32 * (c / 32) + i)) (c % 32)).length == 1 && !d.bcnChan air c &&
    !d.reservedEver air c a (a + (if u.listen then 2 else 1) * d.slotLen air) (u.period * d.sfLen air) && !d.cmp.occupies (air - 3) s c

/-- The pair with the lowest load, lowest slot and then channel among equals (R244). -/
def Dev.bestPair (d : Dev) (air : Nat) (l : List NodeEnt) (u : SlotUse) : Option (Nat × Nat × Nat) :=
  (((List.range (d.sfSlots air)).filter (fun s => d.slotFree air s u.listen)).flatMap (fun s =>
    ((List.range 512).filter (fun c => d.chanFree air s c u)).map (fun c => (pairLoad l s c, s, c)))).foldl
    (fun (m : Option (Nat × Nat × Nat)) x => match m with
      | none => some x
      | some y => if x.1 < y.1 then some x else some y) none

/-- What the planner decides for a node (R244): its old assignment is left out of the load; a pinned one stands. -/
def Dev.plan (d : Dev) (air : Nat) (e : NodeEnt) (period sf : Nat) (listen : Bool) : Option Detail :=
  if e.det.apin && e.det.assigned then some e.det
  else if (d.bcnOn air).isEmpty then none
  else match d.bestPair air ((d.assignedOn (air - 3)).filter (fun x => x.key != e.key)) ⟨period, (sf + 1) % period, listen⟩ with
    | none => none
    | some (load, s, c) =>
      if load + planUnit period ≤ 256 * d.g F.AMC.PLAN_CFG_FILL air then
        some { e.det with
          assigned := true, aBand := air - 3, listen := listen, apin := false, aSlot := s, aCh := c,
          aPeriod := period - 1, aPhase := (sf + 1) % period }
      else none

/-- A node's detail without an assignment (R245). -/
def Detail.unassign (t : Detail) : Detail :=
  { t with assigned := false, aBand := 0, listen := false, apin := false, aSlot := 0, aCh := 0, aPeriod := 0, aPhase := 0 }

/-- Whether a node is due in a slot of a superframe. -/
def Detail.due (t : Detail) (sf : Nat) : Bool := sf % (t.aPeriod + 1) == t.aPhase

/-- Whether the planner's state excludes an assigned or contention slot under new beacon slots (Table 9-9). -/
def Dev.planClash (d : Dev) (air b first count : Nat) : Bool :=
  (count != 0 && first < b) || (d.assignedOn (air - 3)).any (fun e => e.det.aSlot < b)

/-! ## Downlinks in the air MAC and replies (R240 to R243) -/

/-- The pending downlinks of a node. -/
def Dev.dlOf (d : Dev) (air : Nat) (k : NodeKey) : List DlFrame :=
  (d.airD air).dl.filter (fun f => f.tag == k.tag && f.tenant == k.tenant)

/-- The MIC code of Dravina's frames to a tenant (DEDUCED: the tenant's minimum). -/
def Dev.tenMic (d : Dev) (die tenant : Nat) : Nat := (((d.route die).tenants.find? (fun t => t.1 == tenant)).elim {} (fun t => t.2)).miclMin

/-- Whether the entry's map goes with a frame, and the entry with MAP_NEW cleared once it has (R304). -/
def NodeEnt.mapOut (e : NodeEnt) : Option Nat := if e.det.mapNew then some e.det.map else none

/-- Take the next downlink counter of a node; none when it has wrapped (R278). -/
def Dev.nextFcnt (d : Dev) (k : NodeKey) : Option (Dev × Nat) :=
  match d.nodeOf k with
  | none => none
  | some e =>
    if e.det.dlFcnt == 0xFFFFFFFF then none
    else some (d.setNode k (fun e => { e with det := { e.det with dlFcnt := e.det.dlFcnt + 1, mapNew := false } }), e.det.dlFcnt + 1)

/-- Send a pending downlink as the reply of a window: sealed again with ACK_INFO completed, its counter kept (R240). -/
def Dev.replyWith (d : Dev) (air : Nat) (e : NodeEnt) (root : List Byte) (w : Win) (f : DlFrame) : Dev :=
  let more := 1 < (d.dlOf air e.key).length
  let h : DownHdr :=
  { type := 3, micl := f.micl, enc := f.enc, more := more, ackReq := true, group := false, dst := e.key.tag,
    tenant := e.key.tenant, nh := f.nh, epoch := e.epoch, fcnt := f.fcnt, map := e.mapOut, acked := some (w.ctr % 65536) }
  let p := h.seal root f.payload
  let u := d.replyKey e.key.owner w.job
  if !u.2 then u.1
  else
  let d := u.1
  let r := d.planTx air (Tx.of 3 w.channel w.map w.rate w.start (d.g F.AMC.PWR_DL air) p f.cls (.reply f.id e.key.tag e.key.tenant))
    (some w.limit)
  if !r.2 then r.1
  else
    let d := r.1.setDl air f.id (fun x => { x with onAir := true, endAt := 0, psdu := p })
    (d.inc C.CRY.ENCRYPTED e.key.owner).setNode e.key (fun e => { e with det := { e.det with mapNew := false } })

/-- Send an acknowledgement in a reply window under a new downlink counter (R236, R240, R278). -/
def Dev.replyAck (d : Dev) (air : Nat) (e : NodeEnt) (root : List Byte) (w : Win) : Dev :=
  match d.nextFcnt e.key with
  | none => d.inc C.CRY.DL_WRAP e.key.owner
  | some (d, n) =>
    let h : DownHdr :=
    { type := 4, micl := d.tenMic e.key.owner e.key.tenant, enc := true, more := !(d.dlOf air e.key).isEmpty,
      ackReq := false, group := false, dst := e.key.tag, tenant := e.key.tenant, nh := 0, epoch := e.epoch, fcnt := n,
      map := e.mapOut, acked := some (w.ctr % 65536) }
    let u := d.replyKey e.key.owner w.job
    if !u.2 then u.1
    else
    let r := u.1.planTx air (Tx.of 1 w.channel w.map w.rate w.start (d.g F.AMC.PWR_DL air) (h.seal root []) 0 (.ack e.key.tag e.key.tenant))
      (some w.limit)
    r.1.when r.2 (fun d => d.inc C.CRY.ENCRYPTED e.key.owner)

/-- The ACK play (R240): a reply that would be late is not sent, its owner's late-acknowledgement counter counts it and its event's outcome flag says it (R71, R341), and
the working key is cleared (R273); else a downlink that is ready 100 µs before the window and whose
gate is open (R72, R392) goes, or an acknowledgement. -/
def Dev.ackPlay (d : Dev) (air : Nat) (k : NodeKey) (w : Win) : Dev :=
  match d.nodeOf k, d.root k.tenant with
  | some e, some root =>
    if d.befalls e.key.owner 3 (w.start < d.time.lt + 16 * tickUs) then ((d.note e.key.owner 3).setRoute e.key.owner (fun r => { r with lateAck := r.lateAck + 1 })).wkEnd e.key.owner w.job
    else match (d.dlOf air k).find? (fun f => !f.onAir && f.readyAt + 100 * tickUs ≤ w.start && d.airGate (air - 3) f.cls w.start) with
      | some f => d.replyWith air e root w f
      | none => d.replyAck air e root w
  | _, _ => d

/-- An outcome of the air MAC enters the internal lane of the node's owner (kind 12 of Table 12-1). -/
def Dev.outcome (d : Dev) (k : NodeKey) (o : AirOut) : Dev :=
  d.setRoute k.owner (fun r => { r with int := r.int ++ [.airOut o] })

end Sys2Proof.Machine
end

