-- ==== Sys2Proof/Machine/Legacy.lean ====
section
/-! DEFINITION. Legacy MAC frames of the subset of Table 9-8: headers, security and the frames that Dravina sends (R251 to R254, R267, R271). -/

namespace Sys2Proof.Machine
open Sys2Proof

/-- A legacy MAC header with its auxiliary security header (Table 9-8, R271). Addresses are absent in mode 0, short in 2, extended in 3. -/
structure LegHdr where
  type   : Nat
  sec    : Bool
  ackReq : Bool
  seq    : Nat
  dMode  : Nat
  dPan   : Nat
  dst    : Nat
  sMode  : Nat
  sPan   : Nat
  src    : Nat
  level  : Nat
  kim    : Nat
  fcnt   : Nat
  idx    : Nat
  len    : Nat
  deriving DecidableEq, Repr

/-- The octets of an address in a mode. -/
def legAddrLen (m : Nat) : Nat :=
  match m with
  | 2 => 2
  | 3 => 8
  | _ => 0

/-- Read a legacy header from a MAC frame without FCS; none for a frame outside the versions, types and forms of Table 9-8. -/
def legHdr (p : List Byte) : Option LegHdr :=
  let fc := leAt p 0 2
  let ty := bitsOf fc 0 3
  let dm := bitsOf fc 10 2
  let sm := bitsOf fc 14 2
  let sec := bitOf fc 3
  if p.length < 3 || 2 ≤ bitsOf fc 12 2 || dm == 1 || sm == 1 || bitOf fc 7 || bitOf fc 8 || bitOf fc 9 then none
  else
    let o1 := 3 + (if dm == 0 then 0 else 2) + legAddrLen dm
    let sp := sm != 0 && !bitOf fc 6
    let o2 := o1 + (if sp then 2 else 0) + legAddrLen sm
    let sc := leAt p o2 1
    let kim := if sec then bitsOf sc 3 2 else 0
    let o3 := o2 + (if sec then 5 + (if kim == 1 then 1 else 0) else 0)
    let dPan := if dm == 0 then 0 else leAt p 3 2
    if p.length < o3 then none
    else some
      { type := ty, sec := sec, ackReq := bitOf fc 5, seq := leAt p 2 1, dMode := dm, dPan := dPan,
        dst := leAt p 5 (legAddrLen dm), sMode := sm, sPan := if sp then leAt p o1 2 else dPan,
        src := leAt p (o1 + if sp then 2 else 0) (legAddrLen sm), level := if sec then bitsOf sc 0 3 else 0, kim := kim,
        fcnt := if sec then leAt p (o2 + 1) 4 else 0, idx := if sec && kim == 1 then leAt p (o2 + 5) 1 else 0, len := o3 }

/-- Whether a frame carries a security form of R271. -/
def LegHdr.secOk (h : LegHdr) : Bool := h.sec && 5 ≤ h.level && h.kim == 1

/-- The MIC code of a security level. -/
def legMicl (level : Nat) : Nat := (level % 4) - 1

/-- The nonce of a legacy frame, with the sender's extended address (R271). -/
def legNonce (ext fcnt level : Nat) : List Byte := toBE 8 ext ++ toBE 4 fcnt ++ toBE 1 level

/-- The open octets of a frame: a command's identifier is not encrypted. PRESUMED from IEEE 802.15.4. -/
def LegHdr.open_ (h : LegHdr) : Nat := if h.type == 3 then h.len + 1 else h.len

/-- Verify and decrypt a legacy frame: the MAC payload without a command's identifier, or none. -/
def LegHdr.openWith (h : LegHdr) (root : List Byte) (ext : Nat) (p : List Byte) : Option (List Byte) :=
  let m := micLen (legMicl h.level)
  if p.length < h.open_ + m then none
  else ccmOpen (legKey root ext h.idx) (legNonce ext h.fcnt h.level) (p.take h.open_)
    ((p.drop h.open_).take (p.length - h.open_ - m)) (p.drop (p.length - m)) true

/-- The PAN entry that serves a gang with a PAN identifier (R251). -/
def Dev.legPan (d : Dev) (air leader pan : Nat) : Option Nat :=
  (List.range 8).find? (fun k => d.on F.AMC.LEG_PAN_EN air 0 k && d.g F.AMC.LEG_GANG_LEADER air 0 k == leader &&
    d.g F.AMC.LEG_PAN_PAN_ID air 0 k == pan)

/-- The association of a source address. -/
def Dev.legOf (d : Dev) (air : Nat) (h : LegHdr) : Option LegNode :=
  (d.airD air).leg.find? (fun n => if h.sMode == 3 then n.ext == h.src else h.sMode == 2 && n.short == h.src)

/-- The PAN entry that a frame addresses (Table 9-8): its destination is absent or is Dravina's extended address. -/
def Dev.legAddressed (d : Dev) (air leader : Nat) (h : LegHdr) : Option Nat :=
  if h.dMode == 0 && h.sMode != 0 then d.legPan air leader h.sPan
  else if h.dMode == 3 && h.dst == d.cpt.eui64 then d.legPan air leader h.dPan
  else none

/-- The node key of an association (R253). -/
def Dev.legKeyOf (d : Dev) (air : Nat) (n : LegNode) : NodeKey := ⟨0xFFFF0000 + n.short, d.g F.AMC.LEG_PAN_TENANT air 0 n.pan⟩

/-- A MAC frame with the FCS of its PHY: two octets, or four on SUN-FSK where TXB.LEG_CFG.FCS4 asks for them (R209). -/
def Dev.legFcs (d : Dev) (air : Nat) (p : List Byte) : List Byte :=
  if air == 3 && d.on F.TXB.LEG_CFG_FCS4 air then p ++ toLE 4 (fcs32 p) else p ++ toLE 2 (fcs16 p)

/-- The header of a frame from Dravina to a node, source its EUI-64 (Table 9-8). -/
def legHead (eui type seq pan dMode dst : Nat) (sec pend ackReq : Bool) : List Byte :=
  toLE 2 (type + flag sec 3 + flag pend 4 + flag ackReq 5 + 64 + dMode * 2 ^ 10 + (if sec then 4096 else 0) + 3 * 2 ^ 14) ++ toLE 1 seq ++
    toLE 2 pan ++ toLE (legAddrLen dMode) dst ++ toLE 8 eui

/-- The key index of the frames that Dravina sends. DESIGN CHOICE: the spec gives none. -/
def legOwnIdx : Nat := 1

/-- A secured data frame from Dravina to a legacy node (R267, R271). -/
def Dev.legData (d : Dev) (air : Nat) (root : List Byte) (pan short ext seq fcnt micl : Nat) (payload : List Byte) : List Byte :=
  let level := micl + 5
  let h := legHead d.cpt.eui64 1 seq pan 2 short true false true ++ toLE 1 (level + 8) ++ toLE 4 fcnt ++ toLE 1 legOwnIdx
  let c := ccmSeal (legKey root ext legOwnIdx) (legNonce d.cpt.eui64 fcnt level) h payload (micLen micl) true
  d.legFcs air (h ++ c.1 ++ c.2)

/-- The turnaround time of a legacy PHY in ticks (Table 9-8). -/
def turnTicks (air : Nat) : Nat := (if air == 3 then 1000 else 192) * tickUs

/-- The end of a received legacy frame: its reference instant is the end of the SFD, and the PHY header of two octets (SUN-FSK) or one
follows it. -/
def Dev.legEnd (d : Dev) (air : Nat) (f : RxFrame) : Nat :=
  if air == 3 then f.tref + (2 + f.psdu.length) * (if d.g F.DEM.CH_CFG_FSK_RATE air (f.channel / 32) (f.channel % 32) == 1 then 25600 else 51200)
  else f.tref + (1 + f.psdu.length) * 32 * tickUs

/-- A legacy transmission of the air MAC. -/
def legTx (air channel start kind power : Nat) (psdu : List Byte) (who : TxWho) : Tx :=
  { Tx.of kind channel 0 0 start power psdu 0 who with mode := if air == 3 then 1 else 2 }

/-- An Imm-Ack a turnaround after a frame (R252). -/
def Dev.immAck (d : Dev) (air : Nat) (f : RxFrame) (seq : Nat) (pend : Bool) : Dev :=
  (d.planTx air (legTx air f.channel (d.legEnd air f + turnTicks air) 1 (d.g F.AMC.PWR_DL air)
    (d.legFcs air (toLE 2 (2 + flag pend 4) ++ toLE 1 seq)) .legAck) none).1

/-- Show the short addresses in use (Table 9-10). -/
def Dev.showLeg (d : Dev) (air : Nat) : Dev := d.w F.AMC.LEG_STAT_N (d.airD air).leg.length air

/-- Free a short address and delete its node (R253). -/
def Dev.legFree (d : Dev) (air : Nat) (n : LegNode) : Dev :=
  let k := d.legKeyOf air n
  (((d.setAir air (fun a => { a with
    leg := a.leg.filter (fun x => x.short != n.short), held := a.held.filter (fun h => h.short != n.short) })).deleteNode k).showPlan).showLeg air

/-- Put a legacy frame into the indirect store (R252). -/
def Dev.legHold (d : Dev) (air kind short ext seq : Nat) (frame : List Byte) (dl : Option DlFrame) : Dev :=
  d.setAir air (fun a => { a with
    held := a.held ++ [{ id := a.next, short := short, ext := ext, kind := kind, frame := frame, dl := dl, since := d.time.lt, seq := seq }]
    next := a.next + 1 })

/-- A MAC sequence number of Dravina: the spec states none, so it is a free value. -/
def Dev.legSeq (d : Dev) : Nat × Dev := (d.freshNat.1 % 256, d.freshNat.2)

/-- The lowest free short address of a band (R253). -/
def Dev.legAlloc (d : Dev) (air : Nat) : Option Nat :=
  let base := if air == 3 then 0 else 0x7FFF
  ((List.range ((d.airD air).leg.length + 1)).map (fun i => base + i)).find? (fun a =>
    a < base + 0x7FFF && !(d.airD air).leg.any (fun n => n.short == a))

/-- The identifier of a MAC command. PRESUMED from IEEE 802.15.4: 1 Association Request, 3 Disassociation Notification, 4 Data Request,
7 Beacon Request. -/
def legCmd (p : List Byte) : Option Nat := (legHdr p).bind (fun h => if h.type == 3 && h.len < p.length then some (leAt p h.len 1) else none)

/-- Answer an accepted Association Request (R253): the node's old address or the lowest free one, or a refusal that is counted, in a response that is held. -/
def Dev.legAssociate (d : Dev) (air ext pan : Nat) : Dev :=
  let old := (d.airD air).leg.find? (fun n => n.ext == ext)
  let grant := (old.map (fun n => n.short)).orElse (fun _ => d.legAlloc air)
  let r : Nat × Nat := if d.on F.AMC.LEG_CFG_CLOSED air then (0xFFFF, 2) else match grant with
    | some a => (a, 0)
    | none => (0xFFFF, 1)
  let d := d.when (r.2 != 0) (fun d => d.inc C.AMC.LEG_REFUSED air)
  let d := d.when (r.2 == 0 && old.isNone) (fun d =>
    (d.setAir air (fun a => { a with leg := a.leg ++ [⟨r.1, ext, pan, 0⟩] })).showLeg air)
  let q := d.legSeq
  let frame := d.legFcs air (legHead d.cpt.eui64 3 q.1 (d.g F.AMC.LEG_PAN_PAN_ID air 0 pan) 3 ext false false true ++
    toLE 1 2 ++ toLE 2 r.1 ++ toLE 1 r.2)
  q.2.legHold air 1 r.1 ext q.1 frame none

/-- Whether a held frame is for the sender of a Data Request. -/
def LegHeld.isFor (h : LegHeld) (n : Option LegNode) (src : LegHdr) : Bool :=
  n.elim false (fun n => h.short == n.short) || (src.sMode == 3 && h.ext == src.src)

/-- The oldest held frame for the sender of a Data Request (R252). -/
def Dev.legHeldFor (d : Dev) (air : Nat) (h : LegHdr) : Option LegHeld := (d.airD air).held.find? (fun x => x.isFor (d.legOf air h) h)

/-- An accepted Data Request fetches the oldest held frame of its node, which is sent after CSMA-CA (R252, Table 9-8). -/
def Dev.legFetch (d : Dev) (air ch : Nat) (h : LegHdr) : Dev :=
  match d.legHeldFor air h with
  | none => d
  | some x =>
    let c := d.csmaStart air 0
    let r := c.1.planTx air (legTx air ch c.2 3 (d.g F.AMC.PWR_DL air) x.frame (.legFrame x.id)) none
    r.1.when r.2 (fun d => d.setAir air (fun a => { a with held := mapIf (fun y => y.id == x.id) (fun y => { y with onAir := true }) a.held }))

end Sys2Proof.Machine
end

