-- ==== Sys2Proof/Machine/Plays.lean ====
section
/-! DEFINITION. Plays of the Route dies: sequencing, crypto reservations, delivery to ports, the source-route builder, downlinks, forwarding
(R320 to R331, R337 to R363). -/

namespace Sys2Proof.Machine
open Sys2Proof

/-! ## Pair time (R493) -/

/-- What is added to local time for the Route dies, the air MACs and the gateway engine while TWN.CFG.EN is 1. -/
def Dev.ptOfs (d : Dev) : Nat :=
  if d.on F.TWN.CFG_EN then d.g F.TWN.PT_OFS_LO_O + 2 ^ 32 * d.g F.TWN.PT_OFS_HI_O else 0

/-- The time that events carry: pair time in a pair, else local time; after a takeover never below the latest event time executed from the journal
plus one tick (R494). -/
def Dev.evTime (d : Dev) : Nat :=
  let t := (d.time.lt + d.ptOfs) % 2 ^ 64
  if d.on F.TWN.CFG_EN then max t d.tw.minTime else t

/-- A moment of event time as local time. -/
def Dev.toLocal (d : Dev) (t : Nat) : Nat := (t + 2 ^ 64 - d.ptOfs) % 2 ^ 64

/-! ## Lanes (R344 to R347) -/

/-- A word with its check bits (R344). -/
def laneWord (data : Nat) : Nat := data % 2 ^ 64 + 2 ^ 64 * (Config.secded (data % 2 ^ 64) % 256)

/-- The words that a lane holds, from 0 to 512. -/
def Lane.used (l : Lane) : Nat := (l.wr + 1024 - l.rd) % 1024

/-- A lane is full when the words are equal and the wrap bits differ (R344). -/
def Lane.full (l : Lane) : Bool := l.wr % 512 == l.rd % 512 && l.wr / 512 != l.rd / 512

/-- A whole packet is in: the visible write pointer moves behind its last word (R345). -/
def Lane.put (l : Lane) (ws : List Nat) : Lane :=
  { l with
    mem := ws.zipIdx.foldl (fun m e => kvSet 0 m ((l.wr + e.2) % 512) (laneWord e.1)) l.mem
    wr := (l.wr + ws.length) % 1024 }

/-- A writer whose packet does not fit waits, behind those that wait already (R347). -/
def Lane.write (l : Lane) (ws : List Nat) : Lane :=
  if !l.wait.isEmpty || 512 < l.used + ws.length then { l with wait := l.wait ++ [ws] } else l.put ws

/-- The writers that wait go on while there is room. -/
def Lane.takeIn (l : Lane) : List (List Nat) → Lane
  | [] => { l with wait := [] }
  | ws :: rest => if 512 < l.used + ws.length then { l with wait := ws :: rest } else (l.put ws).takeIn rest

/-- The reader takes the packet at the read pointer, whose header gives its length in words (R344, R345). -/
def Lane.read (l : Lane) : Lane :=
  if l.wr == l.rd then l
  else
    let l : Lane := { l with rd := (l.rd + max 1 (kvGet 0 l.mem (l.rd % 512) % 512)) % 1024 }
    l.takeIn l.wait

/-- An uncorrectable error in a header word drains the lane and clears it (R346). -/
def Lane.drain (l : Lane) : Lane := Lane.takeIn {} l.wait

/-- The words of an event's packet: the header with its length and the low bits of the sequence number, then the 32-octet descriptor of R362 (DESIGN
CHOICE, log 35: the spec gives a packet no other form; the descriptor's content is a free value). -/
def lanePacket (seq free : Nat) : List Nat := [5 + seq % 65536 * 65536, free, free / 2 ^ 64, free / 2 ^ 128, free / 2 ^ 192]

/-- A lane of a Route die. -/
def Dev.laneOf (d : Dev) (die n : Nat) : Lane := ((d.route die).lanes.find? (fun e => e.1 == n)).elim {} (fun e => e.2)

/-- Show which lanes of a region hold a packet and which are full (Table 12-11). -/
def Dev.showLan (d : Dev) (die r : Nat) : Dev :=
  let mask := fun (f : Lane → Bool) => ofBits ((List.range 32).filter (fun i => f (d.laneOf die (32 * r + i))))
  (d.w F.LAN.NONEMPTY_LANES (mask (fun l => l.wr != l.rd)) die r).w F.LAN.FULL_LANES (mask Lane.full) die r

/-- Change a lane. -/
def Dev.setLane (d : Dev) (die n : Nat) (f : Lane → Lane) : Dev :=
  let l := f (d.laneOf die n)
  (d.setRoute die (fun r => { r with
    lanes := r.lanes.filter (fun e => e.1 < n) ++ [(n, l)] ++ r.lanes.filter (fun e => n < e.1) })).showLan die (n / 32)

/-- The lane of a cluster by its use m: 0 dispatch, 1 crypto request, 2 crypto return, 3 table request, 4 table return, 5 scheduler enqueue, 6 slow-path
out, 7 cross-die out. -/
def laneNo (c m : Nat) : Nat := 32 * (c / 4) + 8 * (c % 4) + m

/-- A packet of an event goes through a lane of a cluster: its writer puts it in, and the reader, which keeps up, takes the oldest out (DESIGN CHOICE, log
35: nothing states when a reader reads). -/
def Dev.viaLane (d : Dev) (die c m seq : Nat) : Dev :=
  let f := d.freshNat
  f.2.setLane die (laneNo c m) (fun l => (l.write (lanePacket seq f.1)).read)

/-! ## Crypto reservations (R355, R356) -/

/-- The cluster an event goes to: with no other event in progress, the lowest that has an engine in service (R348) and whose playbooks the
captain is not reloading (Table 12-12). -/
def Dev.clusterFor (d : Dev) (die : Nat) : Option Nat :=
  (List.range 16).find? (fun c => !(d.route die).reload.contains c && (List.range 8).any (fun e => (d.unit 0 die (8 * c + e)).state == .active))

/-- The cluster that runs the present event. -/
def Dev.cluster (d : Dev) (die : Nat) : Nat := (d.clusterFor die).getD 0

/-- The engines in service of a region. -/
def Dev.enginesIn (d : Dev) (die r : Nat) : List Nat :=
  (List.range 5).filter (fun e => (d.unit 1 die (5 * r + e)).state == .active)

/-- The idle engine that a play dispatches to: the lowest of its cluster's region, else the lowest of the die (R356). -/
def Dev.idleEngine (d : Dev) (die : Nat) : Option (Nat × Nat) :=
  [d.cluster die / 4, 0, 1, 2, 3].findSome? (fun r =>
    ((d.enginesIn die r).find? (fun e => !(d.route die).jobs.any (fun j => j.region == r && j.engine == e))).map (fun e => (r, e)))

/-- Show reservations (Table 12-9). -/
def Dev.showCry (d : Dev) (die : Nat) : Dev :=
  let total := (List.range 4).foldl (fun n r => n + (d.enginesIn die r).length) 0
  (d.w F.ING.CRY_RSV_TOTAL total die).w F.ING.CRY_RSV_FREE (total - (d.route die).jobs.length) die

/-- Whether a reservation is free. -/
def Dev.cryFree (d : Dev) (die : Nat) : Bool := (d.idleEngine die).isSome

/-- Release the newest reservation: its event dispatched no job. -/
def Dev.dropJob (d : Dev) (die : Nat) : Dev := (d.setRoute die (fun r => { r with jobs := r.jobs.dropLast })).showCry die

/-- An event that needs a reservation waits at its input while none is free (R355). -/
def Dev.orWait (d new : Dev) : Dev :=
  if ([1, 2] : List Nat).any (fun die => (new.route die).jobs.any (fun j => j.engine == 5)) then d else new

/-! ## Sequencing (R338, R339, R348) -/

/-- The sequence number of the event that runs. -/
def Dev.seqNow (d : Dev) (die : Nat) : Nat := (d.route die).seq - 1

/-- Take a reservation and its engine; answers the engine's region. An event that finds none has engine 5 recorded, and waits. -/
def Dev.takeJob (d : Dev) (die : Nat) : Dev × Nat :=
  let d := d.viaLane die (d.cluster die) 1 (d.seqNow die)
  let e := (d.idleEngine die).getD (0, 5)
  ((d.setRoute die (fun r => { r with jobs := r.jobs ++ [{ id := r.next, region := e.1, engine := e.2 }], next := r.next + 1 })).showCry die, e.1)

/-- A table lookup of the present event: its request and its answer go through the cluster's lanes. -/
def Dev.tableLanes (d : Dev) (die : Nat) : Dev := (d.viaLane die (d.cluster die) 3 (d.seqNow die)).viaLane die (d.cluster die) 4 (d.seqNow die)

/-- Journal an event while the pair journals (R341, R488). -/
def Dev.journal (d : Dev) (die kind flags time : Nat) (body : JBody) : Dev :=
  if d.on F.ING.JOURNAL_EN die && d.g F.TWN.STAT_STATE == 2 then
    let sn := d.seqNow die
    ((d.setRoute die (fun r => { r with jrn := r.jrn ++ [⟨r.seq - 1, kind, flags, time, body⟩] })).inc C.TWN.JRN_SENT).emit (.jrnSend die sn)
  else d

/-- Give an event its sequence number, count it and its engine's steps (R338, R348, Tables 12-9 and 12-10). -/
def Dev.sequence (d : Dev) (die kind : Nat) : Dev :=
  let n := ((d.route die).seq + 1) % 2 ^ 64
  let d := d.setRoute die (fun r => { r with seq := n })
  let d := (d.w F.ING.SEQ_LO_SEQ (n % 2 ^ 32) die).w F.ING.SEQ_HI_SEQ (n / 2 ^ 32) die
  let c := d.cluster die
  let d := d.viaLane die c 0 (n + 2 ^ 64 - 1)
  let f := d.freshNat
  (((f.2).inc C.ING.EVENTS die 0 kind).inc C.PLY.EVENTS die c).addc C.PLY.STEPS f.1 die c

/-- The waiting events of the five shared sources, in the order AIR, WIRED, HOST, XFER, INTERNAL. -/
def Dev.waiting (d : Dev) (die : Nat) : List Bool :=
  let r := d.route die
  [!r.air.isEmpty, !r.wired.isEmpty, d.hl.inflight.any (fun c => bitOf c.toSeq (die - 1)), !r.xfer.isEmpty, !r.int.isEmpty]

/-- Show which input lanes hold events, in the order of Table 12-2. -/
def Dev.showLanes (d : Dev) (die : Nat) : Dev :=
  let w := d.waiting die
  d.w F.ING.IN_STAT_LANES (ofBits ((List.range 5).filter (fun i => w.getD i false))) die

/-- The weight of a source. -/
def Dev.arb (d : Dev) (die src : Nat) : Nat :=
  match src with
  | 0 => d.g F.ING.ARB_AIR die
  | 1 => d.g F.ING.ARB_WIRED die
  | 2 => d.g F.ING.ARB_HOST die
  | 3 => d.g F.ING.ARB_XFER die
  | _ => d.g F.ING.ARB_INTERNAL die

/-- Whether a COMMIT, MODE or MAINT event waits that no earlier command holds back (R339 rule 3). -/
def Dev.aheadWaits (d : Dev) (die : Nat) : Bool :=
  let free := fun (after : Nat) => !d.hl.inflight.any (fun c => c.id < after && bitOf c.toSeq (die - 1))
  d.commits.any (fun c => c.die == die && !c.deferred && free c.after) || (d.route die).modeEv.any (fun m => free m.2) ||
    d.mt.events.any (fun e => e.1 == die)

/-- The source whose turn it is (R339 rule 4): the one being visited while it has places left, else the next with waiting events. -/
def Dev.turn (d : Dev) (die : Nat) : Option Nat :=
  let r := d.route die
  let w := d.waiting die
  if 0 < r.left && w.getD r.visit false then some r.visit
  else (([1, 2, 3, 4, 5] : List Nat).map (fun i => (r.visit + i) % 5)).find? (fun s => w.getD s false)

/-- Whether the journal of a PRIMARY takes a further record: it holds less than 2 MiB and the partner's lag is within bounds (R491). -/
def Dev.journalRoom (d : Dev) (die : Nat) : Bool :=
  d.g F.TWN.STAT_STATE != 2 ||
    ((d.route die).jrn.length * 1024 < 2097152 && d.g F.TWN.LAG_US ≤ 1000 * d.g F.TWN.JCFG_LAG_MAX)

/-- Whether a Route die's sequencer can place an event of the device's own inputs now (R337, R348, R495). -/
def Dev.seqOpen (d : Dev) (die : Nat) : Bool :=
  isRoute die && d.dieUp die && d.act != mShadow && !d.tw.handover && d.journalRoom die && (d.clusterFor die).isSome

/-- Whether the next event of a source may be placed now. -/
def Dev.mayPlace (d : Dev) (die src : Nat) : Bool := d.seqOpen die && !d.aheadWaits die && d.turn die == some src

/-- An event that may not be placed waits; one whose turn it is and that the journal alone holds back is counted (R491). -/
def Dev.turned (d : Dev) (die src : Nat) : Dev :=
  d.when (isRoute die && d.dieUp die && d.act != mShadow && !d.journalRoom die && !d.aheadWaits die && d.turn die == some src) (fun d =>
    d.inc C.TWN.JRN_WAIT)

/-- Place an event of a source: the visit goes on or moves, and the event takes its number (R338, R339). -/
def Dev.place (d : Dev) (die src kind : Nat) : Dev :=
  let r := d.route die
  let d := d.setRoute die (fun x => if r.visit == src && 0 < r.left then { x with left := r.left - 1 }
    else { x with visit := src, left := d.arb die src - 1 })
  d.sequence die kind

/-- Sampling records that the plays of an event leave (R551), and the words that its lane readers corrected (R346, R520). -/
def Dev.sampleAll (d : Dev) (die : Nat) (env : PlayEnv) : Dev :=
  let sn := d.seqNow die
  let d := d.each (env.corr.filter (· < 128)) (fun d l => (d.inc C.LAN.CORR die (l / 32) (l % 32)).unitCorrected 7 die l 1)
  d.each (env.samples.filter (d.sampled die)) (fun d x => d.sample die (x.gap < 20)
    { pbAddr := x.pbAddr, engine := x.engine, handle := x.handle, kind := x.kind, latency := x.latency, seq := sn })

/-- Record an aborted event in its cluster's page (Table 12-10): cause 1 watchdog, 2 lane error, 3 buffer error, 4 microcode parity. The lanes of the
cluster into which it was writing a packet take their pointers back (R345); which they are is not stated, a free value. -/
def Dev.aborted (d : Dev) (die play cause : Nat) : Dev :=
  let c := d.cluster die
  let w := d.freshNat
  let d := w.2.each ((List.range 8).filter (fun m => bitOf w.1 m)) (fun d m => d.inc C.LAN.REWIND die (c / 4) (8 * (c % 4) + m))
  let f := d.freshNat
  ((((f.2.inc C.PLY.ABORTS die c).w F.PLY.ABORT_LAST_ENGINE f.1 die c).w F.PLY.ABORT_LAST_PLAY play die c).w F.PLY.ABORT_LAST_CAUSE cause die c)

/-- An uncorrectable lane error ends an event without commit; one in a header word drains the lane (R346, Table 12-8). -/
def Dev.laneLost (d : Dev) (die play : Nat) (env : PlayEnv) : Dev :=
  let r := env.laneNo / 32
  let d := d.when (env.lane == 2 && env.laneNo < 128) (fun d => d.setLane die env.laneNo Lane.drain)
  ((d.inc C.LAN.UNCORR die r (env.laneNo % 32)).aborted die play 2).raise E.LAN.LANE_ECC die r

/-! ## Crossing and ports (R21, R363, R369) -/

/-- Cross to the other Route die; a halted die or a full lane drops the transfer at the sender (Tables 1-6, 12-2). -/
def Dev.cross (d : Dev) (die : Nat) (x : XferIn) : Dev :=
  let o := otherRoute die
  let d := d.viaLane die (d.cluster die) 7 (d.seqNow die)
  if !d.dieUp o || 512 ≤ (d.route o).xfer.length then d.inc C.ING.DROP_XFER die
  else (d.setRoute o (fun r => { r with xfer := r.xfer ++ [x] })).showLanes o

/-- Send a packet to a scheduler port: enqueue it, or cross to the port's owner. `buf` holds its cells. -/
def Dev.toPort (d : Dev) (die port cls sub : Nat) (yellow : Bool) (data : List Byte) (dl : Option DlFrame) (time buf : Nat) : Dev :=
  let own := portOwner port
  if own == 0 then d.inc C.SCH.NO_QUEUE die
  else if own == die then
    ((d.viaLane die (d.cluster die) 5 (d.seqNow die)).hold die buf).enqueue die port cls sub yellow
      { buf := buf, data := data, time := time, seq := d.seqNow die, cls := cls, cells := cellsFor data.length, dl := dl }
  else d.cross die (.enq port cls sub yellow data dl time)

/-- Send a packet that the die itself builds: its cells come from group 4 (R362). -/
def Dev.toPortInt (d : Dev) (die port cls sub : Nat) (yellow : Bool) (data : List Byte) (dl : Option DlFrame) (time : Nat) : Dev :=
  match d.allocInt die data.length with
  | (d, none) => d
  | (d, some b) => (d.toPort die port cls sub yellow data dl time b).release die b

/-- The delivery prefix (Table 12-5). -/
def hostPrefix (seq src port tenant : Nat) (retx mirror decomp : Bool) (tag len : Nat) : List Byte :=
  toLE 4 seq ++ toLE 1 src ++ toLE 1 port ++ toLE 2 (tenant % 4096 + flag retx 12 + flag mirror 13 + flag decomp 14) ++ toLE 4 tag ++
    toLE 2 len ++ toLE 2 0

/-- What a frame to the host says of its origin. -/
structure HostTag where
  src    : Nat
  port   : Nat
  tenant : Nat := 0
  retx   : Bool := false
  decomp : Bool := false
  tag    : Nat := 0
  deriving DecidableEq, Repr

/-- Deliver a frame to host port 26 (R352). -/
def Dev.toHost (d : Dev) (die : Nat) (h : HostTag) (mirror : Bool) (data : List Byte) (cls sub : Nat) (yellow : Bool) (time buf : Nat) : Dev :=
  d.toPort die 26 cls sub yellow
    (hostPrefix (d.seqNow die) h.src h.port h.tenant h.retx mirror h.decomp h.tag data.length ++ data) none time buf

/-! ## Tenants and claims (R351, R472) -/

/-- A tenant's entry; every entry resets to EN 1, others 0 (Table 12-9). -/
def Dev.tenant (d : Dev) (die t : Nat) : Tenant := ((d.route die).tenants.find? (fun x => x.1 == t)).elim {} (fun x => x.2)

/-- The band on which a downlink for a node goes: that of its assignment, else the one it was last heard on. -/
def Detail.band (t : Detail) : Nat := if t.assigned then t.aBand else t.lastBand

/-! ## The slow path (R316) -/

/-- An event enters the slow-path lane of 1,024, or is dropped with its buffer and an outcome flag (R341). -/
def Dev.toSlow (d : Dev) (die : Nat) (o : SlowOp) (buf : Nat) : Dev :=
  let d := d.viaLane die (d.cluster die) 6 (d.seqNow die)
  if d.befalls die 0 (1024 ≤ (d.route die).slow.length) then ((d.note die 0).inc C.NTB.SLOW_DROP die).release die buf
  else d.setRoute die (fun r => { r with slow := r.slow ++ [o] })

/-! ## The source-route builder (R328, R331) -/

/-- How a walk ends. -/
inductive Walk where
  | ok (first : NodeKey) (list : List NodeKey)
  | miss (n : NodeKey)
  | noRoute
  | tooDeep
  deriving DecidableEq, Repr

/-- The walk from a node toward the root (R328); a hop whose Route die is down reads as missing. After its slow path a build runs on the cold
record of a hop that the cold store holds because its insertion failed (R309, Table 11-5). -/
def Dev.walk (d : Dev) (die : Nat) (slow : Bool) : Nat → NodeKey → Nat → List NodeKey → Walk
  | 0, _, _, _ => .tooDeep
  | m + 1, n, h, l =>
    match (if d.dieUp n.owner then (d.resident n).orElse (fun _ => if slow then (d.coldRec n).filter (fun e => e.ovf) else none) else none) with
    | none => .miss n
    | some e =>
      if !e.rt.pvalid || (e.rt.pexp != 0xFFFFFFFF && e.rt.pexp ≤ d.g F.NTB.AGE_NOW_N n.owner) then .noRoute
      else if d.g F.SRC.BLD_CFG_MAX_H die < h + 1 then .tooDeep
      else if e.rt.proot then .ok n l
      else d.walk die slow m e.rt.parent (h + 1) (n :: l)

/-- The IPv6 packet with the routing header of a walk (R329). -/
def Dev.routed (d : Dev) (die : Nat) (p : Ip6) (first : NodeKey) (l : List NodeKey) : Ip6 :=
  if l.isEmpty then p
  else { p with dst := d.nodeAddr die first, nh := 43, body := srcRoute p.nh l p.body }

/-! ## Downlinks (R278, R330, R359, R360) -/

/-- The payloads of a downlink's frames: 6LoWPAN with fragments for an IPv6 packet, the octets themselves otherwise. -/
def Dev.dnPayloads (d : Dev) (die : Nat) (x : DownIn) (hop : NodeKey) (mic : Nat) : Option (List (List Byte)) :=
  let most := d.g F.ING.LOWPAN_CFG_DL_MAX die - (19 + mic)
  if x.nh == 1 then
    match Ip6.ofBytes x.data with
    | none => none
    | some p =>
      let c := iphcClose ⟨d.prefix64 die, 2 ^ 48, d.nodeAddr die hop % 2 ^ 64⟩ p
      fragments most (d.route die).dgTag x.data.length c.1 c.2.1 c.2.2
  else some [x.data]

/-- A job has built a downlink. -/
def Dev.jobBuilt (d : Dev) (die job id : Nat) : Dev :=
  d.setRoute die (fun r => { r with jobs := mapIf (fun j => j.id == job) (fun j => { j with frames := j.frames ++ [id] }) r.jobs })

/-- Build one native downlink frame for a node and queue it on its air port (R242, R278, R330). -/
def Dev.sendNative (d : Dev) (die : Nat) (e : NodeEnt) (root : List Byte) (x : DownIn) (mic cls sub : Nat) (yellow : Bool) (job : Job)
    (payload : List Byte) : Dev :=
  match d.nextFcnt e.key with
  | none => d.inc C.CRY.DL_WRAP die
  | some (d, n) =>
    let h : DownHdr :=
      { type := 3, micl := mic, enc := true, more := false, ackReq := true, group := false, dst := e.key.tag, tenant := e.key.tenant,
        nh := x.nh, epoch := e.epoch, fcnt := n, map := e.mapOut, acked := none }
    let p := h.seal root payload
    let f : DlFrame :=
      { id := (d.route die).next * 2 + (die - 1), tag := e.key.tag, tenant := e.key.tenant, epoch := e.epoch, fcnt := n, micl := mic,
        enc := true, nh := x.nh, payload := payload, psdu := p, cls := cls, cells := cellsFor p.length, sends := 0, onAir := false }
    let d := ((d.setRoute die (fun r => { r with next := r.next + 1 })).inc C.CRY.DERIVED die job.region).inc C.CRY.ENCRYPTED die job.region
    let d := (d.wkOnce die job.region job.engine).jobBuilt die job.id f.id
    d.toPortInt die (airPort e.det.band) cls sub yellow p (some f) x.time

/-- Build one legacy data frame for a node and queue it on its air port (R254, R271). -/
def Dev.sendLegacy (d : Dev) (die : Nat) (e : NodeEnt) (x : DownIn) (mic cls sub : Nat) (yellow : Bool) (job : Job)
    (payload : List Byte) : Dev :=
  match d.nextFcnt e.key with
  | none => d.inc C.CRY.DL_WRAP die
  | some (d, n) =>
    let f : DlFrame :=
      { id := (d.route die).next * 2 + (die - 1), tag := e.key.tag, tenant := e.key.tenant, epoch := 0, fcnt := n, micl := mic,
        enc := true, nh := x.nh, payload := payload, psdu := payload, cls := cls, cells := cellsFor payload.length, sends := 0,
        onAir := false, leg := true }
    let d := ((d.setRoute die (fun r => { r with next := r.next + 1 })).inc C.CRY.DERIVED die job.region).inc C.CRY.ENCRYPTED die job.region
    let d := (d.wkOnce die job.region job.engine).jobBuilt die job.id f.id
    d.toPortInt die (airPort e.det.band) cls sub yellow payload (some f) x.time

/-- The downlink play once its first hop is known, on the hop's owner (R330, R351, R472). -/
def Dev.buildDown (d : Dev) (die : Nat) (x : DownIn) (hop : NodeKey) : Dev :=
  let t := d.tenant die hop.tenant
  let drop := fun (d : Dev) => d.release die x.buf
  if !t.en then drop (d.inc C.ING.TEN_DROP die)
  else if (d.cede hop).isSome then drop (d.setCede hop (fun c => { c with dlDrop := min 65535 (c.dlDrop + 1) }))
  else match (d.resident hop).orElse (fun _ => (d.coldRec hop).filter (fun e => e.ovf)) with
    | none => if x.tries == 0 && d.coldLg die != 0 then d.toSlow die (.hop { x with hop := some hop } hop) x.buf
        else drop (d.inc C.SRC.NO_NODE die)
    | some e =>
      let mic := t.miclMin
      match d.root hop.tenant, d.dnPayloads die x hop (micLen mic) with
      | none, _ => drop (d.inc C.CRY.NO_ROOT die)
      | some _, none => drop (d.inc C.ING.LOWPAN_BAD die)
      | some root, some l =>
        let c := d.meterDn die hop.tenant (17 + x.data.length + micLen mic + 2) x.time x.col
        if c.2 == 2 then drop c.1
        else
          let cls := x.cls.getD t.cls
          let sub := x.sub.getD t.sub
          let j := c.1.takeJob die
          let job := ((j.1.route die).jobs.getLast?).getD { id := 0, region := 0, engine := 5 }
          let d := j.1.when (1 < l.length) (fun d => (d.addc C.ING.FRAG_TX l.length die).setRoute die (fun r =>
            { r with dgTag := (r.dgTag + 1) % 65536 }))
          drop (d.each l (fun d p =>
            match d.nodeOf hop with
            | none => d
            | some e' => if e.leg then d.sendLegacy die e' x mic cls sub (c.2 == 1) job p
                else d.sendNative die e' root x mic cls sub (c.2 == 1) job p))

/-- The downlink play (R328 to R331): the walk, the crossing to the first hop's owner, then the frame. Control payloads go to the node
itself. -/
def Dev.nodeDown (d : Dev) (die : Nat) (x : DownIn) : Dev :=
  let go := fun (d : Dev) (x : DownIn) (hop : NodeKey) =>
    if hop.owner == die then d.buildDown die x hop
    else (d.cross die (.down { x with hop := some hop, buf := 0 })).release die x.buf
  match x.hop with
  | some h => go d x h
  | none =>
    match d.walk die (x.tries != 0) 16 x.dest 0 [] with
    | .ok f l =>
      match Ip6.ofBytes x.data with
      | none => d.release die x.buf
      | some p => go (d.inc C.SRC.BUILT die) { x with data := (d.routed die p f l).bytes } f
    | .noRoute => (d.inc C.SRC.NO_ROUTE die).release die x.buf
    | .tooDeep => (d.inc C.SRC.TOO_DEEP die).release die x.buf
    | .miss n =>
      if x.tries == 0 && d.dieUp n.owner && d.coldLg n.owner != 0 then
        if n.owner == die then d.toSlow die (.hop x n) x.buf
        else (d.cross die (.down { x with buf := 0 })).release die x.buf
      else (if n == x.dest && d.dieUp n.owner then d.inc C.SRC.NO_NODE die else d.inc C.SRC.PARENT_MISS die).release die x.buf

/-- Queue a packet or control payload that Dravina itself addresses to a node (R245, R326, R327). -/
def Dev.sendOwn (d : Dev) (die : Nat) (k : NodeKey) (nh : Nat) (data : List Byte) : Dev :=
  match d.allocInt die data.length with
  | (d, none) => d
  | (d, some b) =>
    d.nodeDown die { dest := k, hop := some k, nh := nh, data := data, cls := none, sub := none, time := d.evTime, buf := b }

/-! ## Ethernet and fabric frames (R320 to R323, R459 to R461) -/

/-- An Ethernet frame's parts: destination, source, tag control of one 802.1Q tag, EtherType and payload (R402). -/
structure EthFrame where
  dst   : Nat
  src   : Nat
  tci   : Option Nat
  etype : Nat
  body  : List Byte
  deriving DecidableEq, Repr

/-- Read an Ethernet frame without FCS. -/
def EthFrame.ofBytes (b : List Byte) : EthFrame :=
  if beAt b 12 2 == 0x8100 then
    { dst := beAt b 0 6, src := beAt b 6 6, tci := some (beAt b 14 2), etype := beAt b 16 2, body := b.drop 18 }
  else { dst := beAt b 0 6, src := beAt b 6 6, tci := none, etype := beAt b 12 2, body := b.drop 14 }

/-- The VLAN of a frame: 0 for untagged (Table 11-6). -/
def EthFrame.vlan (f : EthFrame) : Nat := f.tci.elim 0 (fun t => t % 4096)

/-- Originate a fabric frame on a Voxnen scheduler port (R459, R460). -/
def Dev.sendFab (d : Dev) (die port type cls sub : Nat) (yellow flood : Bool) (dst inPort : Nat) (inner : List Byte) (time buf : Nat) : Dev :=
  let h := fabHeader type cls flood dst (d.g F.HUD.STAT_ID) (d.g F.HUD.CFG_TTL) inner.length inPort (d.g F.HUD.CFG_FID) d.fabSeq
  { d with fabSeq := (d.fabSeq + 1) % 2 ^ 32 }.toPort die port cls sub yellow (h ++ inner) none time buf

/-- What a forwarding decision acts on: the frame as received or a bare packet, where it came from, and its class, subscriber and
colour. `node` holds for a packet that comes from the RPL instance. -/
structure FwdJob where
  tag   : HostTag
  data  : List Byte
  isIp  : Bool
  node  : Bool
  cls   : Nat
  sub   : Nat
  col   : Nat
  time  : Nat
  buf   : Nat
  deriving DecidableEq, Repr

/-- The IPv6 packet of a job, as octets. -/
def FwdJob.packet (j : FwdJob) : Option (List Byte) :=
  if j.isIp then (Ip6.ofBytes j.data).map (fun _ => j.data)
  else
    let e := EthFrame.ofBytes j.data
    if e.etype == 0x86DD then (Ip6.ofBytes e.body).map (fun _ => e.body) else none

/-- A packet as it crosses between the instance and another port: its Hop Limit falls by one, none when it reaches 0 (R361). -/
def hopDown (b : List Byte) : Option (List Byte) :=
  match Ip6.ofBytes b with
  | none => none
  | some p => if p.hlim ≤ 1 then none else some { p with hlim := p.hlim - 1 }.bytes

/-- A packet from the instance as another port sees it (R361). -/
def leaveInstance (b : List Byte) : Option (List Byte) :=
  match Ip6.ofBytes b with
  | none => none
  | some p => if p.hlim ≤ 1 then none else some ({ p with hlim := p.hlim - 1 } : Ip6).leave.bytes

/-- Send a job's packet to the node that its address names (DEST 2 of Table 11-6). -/
def Dev.fwdNode (d : Dev) (die : Nat) (j : FwdJob) (cls : Option Nat) (sub : Option Nat) : Dev :=
  match j.packet with
  | none => d.inc C.SRC.NO_NODE die
  | some b =>
    match d.addrNode die (beAt b 24 16), (if j.node then some b else hopDown b) with
    | none, _ => d.inc C.SRC.NO_NODE die
    | some _, none => d.inc C.ING.HOP_LIMIT die
    | some k, some b =>
      (d.hold die j.buf).nodeDown die
        { dest := k, hop := none, nh := 1, data := b, cls := cls, sub := sub, time := j.time, buf := j.buf, col := j.col }

/-- Forward a job by an entry (Tables 11-6 and 11-7); `raw` says that a MAC entry matched, so that an Ethernet frame goes out unchanged. -/
def Dev.fwdEntry (d : Dev) (die : Nat) (j : FwdJob) (e : FwdEnt) (raw : Bool) : Dev :=
  let cls := if e.clsEn then e.cls else j.cls
  let y := j.col == 1
  if e.action == 2 then d
  else
    let d := d.when (e.action == 1) (fun d => d.toHost die j.tag false j.data cls e.sub y j.time j.buf)
    let isNode := e.dest == 2 || (e.dest == 0 && (e.port == 24 || e.port == 25))
    if isNode then d.fwdNode die j (if e.clsEn then some e.cls else if j.node then none else some j.cls) (some e.sub)
    else
      let data := if j.node then leaveInstance j.data else some j.data
      match data with
      | none => d.inc C.ING.HOP_LIMIT die
      | some data =>
        let ip := j.isIp || !raw
        let inner := if ip && !j.isIp then (EthFrame.ofBytes data).body else data
        match e.dest with
        | 0 =>
          if e.port ≤ 15 then
            let out := if raw && !j.isIp then data
              else toBE 6 e.nhMac ++ toBE 6 (d.g F.ETH.UC_HI_A 0 e.port 0 * 2 ^ 32 + d.g F.ETH.UC_LO_A 0 e.port 0) ++ toBE 2 0x86DD ++ inner
            d.toPort die e.port cls e.sub y out none j.time j.buf
          else if e.port ≤ 23 then
            d.sendFab die e.port (b2n ip) cls e.sub y false (d.g F.VXL.STAT_PEER_ID 0 (e.port - 16)) j.tag.port inner j.time j.buf
          else if e.port == 26 then d.toHost die j.tag false data cls e.sub y j.time j.buf
          else d.toPort die e.port cls e.sub y data none j.time j.buf
        | 1 =>
          let r := d.devFind die e.dev
          match r.2 with
          | none => r.1.inc C.FWD.DEV_MISS die
          | some g => r.1.sendFab die g.port (b2n ip) cls e.sub y false e.dev j.tag.port inner j.time j.buf
        | _ => d.toHost die j.tag false data cls e.sub y j.time j.buf

/-- A PFX6 miss: to the host while MISS_HOST is 1, else dropped; counted either way (Table 11-7). -/
def Dev.fwdMiss (d : Dev) (die : Nat) (j : FwdJob) : Dev :=
  if !d.on F.FWD.CFG_MISS_HOST die then d.inc C.FWD.MISS_DROP die
  else
    let d := d.inc C.FWD.MISS_HOST die
    match (if j.node then leaveInstance j.data else some j.data) with
    | none => d.inc C.ING.HOP_LIMIT die
    | some b => d.toHost die j.tag false b j.cls j.sub (j.col == 1) j.time j.buf

/-- Forward a packet by its destination address (R320). -/
def Dev.fwdIp (d : Dev) (die : Nat) (j : FwdJob) : Dev :=
  match j.packet with
  | none => d.fwdMiss die j
  | some b =>
    let r := d.pfxFind die (beAt b 24 16)
    match r.2 with
    | some e => r.1.fwdEntry die j e false
    | none => r.1.fwdMiss die j

/-- The ports of the flood mask that a die owns. -/
def Dev.floodPorts (d : Dev) (die except : Nat) : List Nat :=
  (List.range 24).filter (fun p => bitOf (d.g F.FWD.FLOOD_MASK_PORTS die) p && portOwner p == die && p != except)

/-- Flood a frame (R323, R461): to the die's own masked ports but its ingress, and, unless it has crossed, once to the other die. -/
def Dev.fwdFlood (d : Dev) (die : Nat) (j : FwdJob) (f : FwdIn) : Dev :=
  let d := d.when (!f.flood) (fun d => d.inc C.FWD.FLOODED die)
  let y := j.col == 1
  let d := d.each (d.floodPorts die f.port) (fun d p =>
    if p ≤ 15 then d.toPort die p j.cls j.sub y f.data none j.time j.buf
    else match f.dev with
      | none => d.sendFab die p 0 j.cls j.sub y true 0 f.port f.data j.time j.buf
      | some _ =>
        if f.hdr.isEmpty then d else d.toPort die p j.cls j.sub y (f.hdr ++ f.data) none j.time j.buf)
  let other := otherRoute die
  let there := (List.range 24).any (fun p => bitOf (d.g F.FWD.FLOOD_MASK_PORTS die) p && portOwner p == other)
  if f.flood || !there then d else d.cross die (.flood { f with flood := true, cls := some j.cls, buf := 0 })

/-- A LEARN event for a frame's source (R322). -/
def Dev.learnFrom (d : Dev) (die : Nat) (f : FwdIn) (e : EthFrame) : Dev :=
  let can := match f.dev with
    | some _ => !f.ip
    | none => f.port ≤ 15 && bitOf (d.g F.FWD.LEARN_MASK_PORTS die) f.port && !f.ip
  if !can || bitOf (e.src / 2 ^ 40) 0 then d
  else
    let l : FwdEnt :=
      { pos := 0, kind := 0, ver := false, static := false, plen := 0, vlan := e.vlan, key := e.src, age := 0,
        port := if f.dev.isSome then 0 else f.port, dest := if f.dev.isSome then 1 else 0, action := 0, dev := f.dev.getD 0, sub := 0,
        cls := 0, clsEn := false, nhMac := 0 }
    d.setRoute die (fun r => { r with int := r.int ++ [.learn l] })

/-- The class of a wired frame before a forwarding entry is known (R369 rules 2, 4, 5 and 6). -/
def Dev.wiredClass (d : Dev) (die : Nat) (f : FwdIn) (e : EthFrame) : Nat :=
  if d.on F.ING.PLAY_TBL_CLS_EN die 0 f.port then d.g F.ING.PLAY_TBL_CLASS die 0 f.port
  else match f.cls, (if f.ip then none else e.tci) with
    | some c, _ => c
    | none, some t => bitsOf (d.g F.SCH.PCP_MAP_MAP die) (3 * (t / 8192)) 3
    | none, none => d.g F.SCH.PORT_CFG_DEF_CLASS die 0 f.port

/-- The forwarding play (R320, R323, R350, R381). -/
def Dev.fwdPlay (d : Dev) (die : Nat) (f : FwdIn) : Dev :=
  let e := EthFrame.ofBytes f.data
  let d := (d.tableLanes die).learnFrom die f e
  let cls := d.wiredClass die f e
  let m := if f.flood then (d, 0) else d.meterFlow die f.port cls (f.data.length + 4) f.time
  let job : FwdJob :=
    { tag := { src := 1, port := f.port }, data := f.data, isIp := f.ip, node := false, cls := cls, sub := f.sub.getD 0, col := m.2,
      time := f.time, buf := f.buf }
  if m.2 == 2 then m.1
  else
    let d := m.1.when (!f.flood) (fun d => d.colourOut die m.2)
    if f.flood then d.fwdFlood die job f
    else
      let play := d.g F.ING.PLAY_TBL_PLAY die 0 f.port
      let d := d.when (d.on F.ING.PLAY_TBL_MIRROR die 0 f.port && play != 2) (fun d =>
        d.toHost die job.tag true f.data cls 0 (m.2 == 1) f.time f.buf)
      if play == 2 then d.toHost die job.tag false f.data cls 0 (m.2 == 1) f.time f.buf
      else if play != 1 then d
      else if f.ip || f.own then d.fwdIp die job
      else
        let r := d.macFind die e.vlan e.dst
        match r.2 with
        | some x => r.1.fwdEntry die job x true
        | none => r.1.fwdFlood die job f

end Sys2Proof.Machine
end

