-- ==== Sys2Proof/Machine/Campaign.lean ====
section
/-! DEFINITION. What the node campaign engine does at its events: superframe boundaries, campaign slots, outcomes and reports (R588 to R597). -/

namespace Sys2Proof.Machine
open Sys2Proof

/-! ## Elements (Table 21-2) -/

/-- CAMP_ANNOUNCE. -/
def Dev.announceElem (d : Dev) (c : Camp) : List Byte :=
  let size := (d.img c.image).elim 0 (fun x => x.data.length)
  let hash := (d.img c.image).elim [] (fun x => x.hash)
  toLE 1 0x10 ++ toLE 1 56 ++ toLE 1 c.cid ++ toLE 4 c.group ++ toLE 1 c.epoch ++ toLE 4 size ++ toLE 1 c.bsize ++
    toLE 2 (c.channel % 512 + 32768 * c.band) ++ toLE 2 c.slot ++ toLE 1 c.nslots ++ toLE 2 (c.period - 1) ++ toLE 2 c.phase ++ toLE 4 c.startSf ++
    padTo 32 hash

/-- CAMP_BLOCK: one block, padded with 0x00. -/
def Dev.blockElem (d : Dev) (c : Camp) (last : Bool) (b : Nat) : List Byte :=
  let data := (d.img c.image).elim [] (fun x => (x.data.drop (b * c.bsize)).take c.bsize)
  toLE 1 0x11 ++ toLE 1 (4 + c.bsize) ++ toLE 1 c.cid ++ toLE 1 (c.round % 32 + flag last 7) ++ toLE 2 b ++ padTo c.bsize data

/-- Queue CAMP_ANNOUNCE to the members that a test accepts, as a pending downlink on each one's owning die (Table 21-3, R597): on the engine's own die at once,
on the other through a transfer (R21). -/
def Dev.announce (d : Dev) (c : Camp) (ok : CampMember → Bool) : Dev :=
  let e := d.announceElem c
  d.each (c.members.filter ok) (fun d m =>
    let k : NodeKey := ⟨m.tag, m.tenant⟩
    let own := d.cmp.engine
    if !d.dieUp own then d
    else if k.owner == own then d.sendOwn own k 15 e
    else d.cross own (.down { dest := k, hop := some k, nh := 15, data := e, cls := none, sub := none, time := d.evTime, buf := 0 }))

/-! ## Rounds (R593) -/

/-- A round begins to send. -/
def Dev.sendRound (d : Dev) (cid : Nat) (blocks : List Nat) : Dev :=
  (d.setCamp cid (fun c => { c with state := 3, ptr := 0, send := blocks, repair := [], flight := [] })).showCmp

/-- Whether START_SF has come (R591). -/
def Camp.started (c : Camp) (sf : Nat) : Bool := (sf + 2 ^ 32 - c.startSf) % 2 ^ 32 < 2 ^ 31

/-- A superframe of a band begins: an ARMED campaign whose START_SF has come enters SENDING, and a WAITING one has one superframe less to wait; in
QUIESCE neither advances (R593, R595, R598). -/
def Dev.campBoundary (d : Dev) (air sf : Nat) : Dev :=
  if d.act != mService then d
  else
    d.each (d.cmp.list.filter (fun c => c.band == air - 3)) (fun d c =>
      if c.state == 2 && c.started sf then d.sendRound c.cid (List.range (d.campBlocks c))
      else if c.state == 4 then d.setCamp c.cid (fun c => { c with waitLeft := c.waitLeft - 1 })
      else d)

/-- The superframe-boundary kind of TIMER event on both Route dies (R339 rule 2), with the engine's work on its own die. -/
def Dev.sfEvent (d : Dev) (air : Nat) : Dev :=
  let n := d.g F.AMC.SF_NUM_NUM air
  d.each (([1, 2] : List Nat).filter (fun die => d.seqOpen die)) (fun d die =>
    let d := (d.sequence die 5).journal die 5 0 d.evTime (.sf air n)
    if die == d.cmp.engine && !d.cmp.lost then d.campBoundary air n else d)

/-- The report wait ends (R593 steps 3 to 6). -/
def Dev.waitEnd (d : Dev) (c : Camp) : Dev :=
  let d := d.logRec 0x0C02 0 d.cmp.engine (toLE 1 c.cid ++ toLE 1 c.round ++ toLE 4 c.repair.length)
  let d := d.setCamp c.cid (fun c => { c with round := c.round + 1 })
  if c.allFinal then d.endCamp c.cid 6
  else if c.maxRounds ≤ c.round + 1 then d.endCamp c.cid 7
  else if c.repair.isEmpty then (d.setCamp c.cid (fun c => { c with waitLeft := c.wait })).showCmp
  else d.sendRound c.cid c.repair

/-- CAMPAIGN_WAIT_END: WAIT superframes have passed; the round count rises and the next round, DONE or EXHAUSTED follows (R593). -/
def execCampaignWaitEnd (cid : Nat) (s : State) : Answer :=
  run s (fun d =>
    match d.camp cid with
    | none => d
    | some c => if c.state == 4 && c.waitLeft == 0 && !d.cmp.lost && d.mode != mShadow then d.waitEnd c else d)

/-! ## Block frames (R589, R591, R592) -/

/-- The blocks of a campaign's next frame. -/
def Camp.nextBlocks (c : Camp) : List Nat := (c.send.filter (fun b => c.ptr ≤ b)).take c.bpf

/-- The PSDU of a block frame under the group key (R589). -/
def Dev.blockPsdu (d : Dev) (c : Camp) (root : List Byte) : List Byte :=
  let h : DownHdr :=
    { type := 3, micl := c.micl, enc := true, more := false, ackReq := false, group := true, dst := c.group, tenant := c.tenant, nh := 15,
      epoch := c.epoch, fcnt := c.fcnt, map := none, acked := none }
  h.seal root (c.nextBlocks.flatMap (fun b => d.blockElem c (c.send.getLast? == some b) b))

/-- A block frame as the engine hands it to the air MAC: KIND 4 with START at t_s + DL_OFS (R591). -/
def Dev.blockTx (d : Dev) (c : Camp) (psdu : List Byte) : Tx :=
  let air := bandAir c.band
  let start := (d.airD air).slotStart + d.g F.AMC.SLOT_TIME_DL_OFS air * tickUs
  { Tx.of 4 c.channel c.map c.rate start c.power psdu 0 (.group (c.cid + 32 * c.fcnt)) with mapWord := d.mapWord air c.map }

/-- A frame has been built: the group counter advances and its blocks await their outcome. -/
def Dev.frameBuilt (d : Dev) (c : Camp) : Dev :=
  (d.inc C.CRY.ENCRYPTED d.cmp.engine).setCamp c.cid (fun x => { x with fcnt := x.fcnt + 1, flight := x.flight ++ [(x.fcnt, c.nextBlocks)] })

/-- Why a slot passes unused (R592): 0 it does not, 1 the tenant downlink meter, 2 the duty share. -/
def Dev.campHold (d : Dev) (c : Camp) (x : Tx) : Nat :=
  let air := bandAir c.band
  if (d.meterDn d.cmp.engine c.tenant x.psdu.length d.evTime 0).2 == 2 then 1
  else match d.subBandOf (air + 2) (d.cellsOf (air + 2) x.channel x.width) with
    | none => 0
    | some s => if dutyBudget s * c.share < 100 * (d.dutyUsed air s + d.charge air x) then 2 else 0

/-- What a campaign slot does to the engine's records, by the outcome that its event carries: 0 built, 1 held by the meter, 2 held by the duty share. -/
def Dev.campSlotWork (d : Dev) (c : Camp) (flag len : Nat) : Dev :=
  let e := d.cmp.engine
  match flag with
  | 1 => d.inc C.CMP.METER_HOLD e
  | 2 => d.inc C.CMP.DUTY_HOLD e
  | _ => (d.meterDn e c.tenant len d.evTime 0).1.frameBuilt c

/-- Whether a slot is one of a campaign's slots (R591). -/
def Dev.inCampSlot (d : Dev) (c : Camp) : Bool :=
  let air := bandAir c.band
  let sf := d.g F.AMC.SF_NUM_NUM air
  let s := (d.airD air).slot
  (d.airD air).running && c.slot ≤ s && s < c.slot + c.nslots && c.started sf && sf % c.period == c.phase

/-- Whether a frame of a campaign waits in the air MAC or is on air. -/
def Dev.campHeld (d : Dev) (p : Nat → Bool) : Bool :=
  let is := fun (x : Tx) => match x.who with
    | .group k => p (k % 32)
    | _ => false
  ([3, 4] : List Nat).any (fun air => ((d.airD air).planned ++ (d.airD air).handed).any is ||
    (List.range 4).any (fun c => (d.chain (air + 2) c).air.elim false is))

/-- CAMPAIGN_SLOT: in a campaign slot of a campaign in SENDING the engine builds a block frame and hands it to the air MAC, or lets the slot pass; its
decision is a TIMER event of its die (R591, R592). -/
def execCampaignSlot (cid : Nat) (s : State) : Answer :=
  run s (fun d =>
    match d.camp cid with
    | none => d
    | some c =>
      let e := d.cmp.engine
      if c.state != 3 || d.cmp.lost || !d.seqOpen e || d.act != mService || !d.inCampSlot c || c.nextBlocks.isEmpty || d.campHeld (fun k => k == cid) then d
      else if c.fcnt == 0xFFFFFFFF then d.haltCamp cid 1
      else match d.root c.tenant with
        | none => d.inc C.CRY.NO_ROOT e
        | some root =>
          let x := d.blockTx c (d.blockPsdu c root)
          let air := bandAir c.band
          let flag := d.campHold c x
          let r := d.planTx air x (some (d.slotLimit air))
          if flag == 0 && !r.2 then r.1
          else
            let d := ((if flag == 0 then r.1 else d).sequence e 5).journal e 5 flag d.evTime (.camp cid flag)
            (d.campSlotWork c flag x.psdu.length).showCmp)

/-- The air MAC reports a block frame sent: it is counted and the pointer passes its blocks, also where the campaign was paused, stopped or ended
meanwhile; after LAST a sending campaign waits (R591, R593, R600). -/
def Dev.campSent (d : Dev) (cid fcnt : Nat) : Dev :=
  match d.camp cid with
  | none => d
  | some c =>
    match c.flight.find? (fun f => f.1 == fcnt) with
    | some f =>
      let e := d.cmp.engine
      let top := f.2.foldl max 0
      let done := c.send.getLast? == some top
      let d := (d.inc C.CMP.FRAMES_SENT e).addc C.CMP.BLOCKS_SENT f.2.length e
      (d.setCamp cid (fun c => { c with
        ptr := top + 1, frames := c.frames + 1, flight := c.flight.filter (fun g => g.1 != fcnt)
        state := if done && c.state == 3 then 4 else c.state
        resume := if done && c.state == 5 && c.resume == 3 then 4 else c.resume
        waitLeft := if done then c.wait else c.waitLeft })).showCmp
    | none => d

/-! ## Reports (R594) -/

/-- The blocks that a CAMP_STATUS element names as missing. -/
def reportBlocks (v : List Byte) : List Nat :=
  let bits := v.drop 8
  (List.range (8 * bits.length)).filterMap (fun i => if bitOf (leAt bits (i / 8) 1) (i % 8) then some (leAt v 6 2 + i) else none)

/-- Two ascending lists of blocks joined. -/
def joinBlocks (n : Nat) (a b : List Nat) : List Nat := (List.range n).filter (fun i => a.contains i || b.contains i)

/-- A report acts on its campaign (R594). -/
def Dev.campReport (d : Dev) (k : NodeKey) (sf : Nat) (v : List Byte) : Dev :=
  let e := d.cmp.engine
  let bad := d.inc C.CMP.REPORT_BAD e
  if v.length < 8 then bad
  else match d.camp (leAt v 0 1) with
    | none => bad
    | some c =>
      let blocks := reportBlocks v
      if !(2 ≤ c.state && c.state ≤ 4) || leAt v 1 4 != c.group || k.tenant != c.tenant || 3 < leAt v 5 1 ||
          blocks.any (fun b => d.campBlocks c ≤ b) then bad
      else
        let is := fun (m : CampMember) => m.tag == k.tag && m.tenant == k.tenant
        if !c.members.isEmpty && !c.members.any is then d.inc C.CMP.NOT_MEMBER e
        else
          let d := (d.inc C.CMP.REPORTS e).setCamp c.cid (fun c => { c with
            repair := joinBlocks (d.campBlocks c) c.repair blocks
            members := mapIf is (fun m => { m with state := leAt v 5 1, round := c.round, sf := sf, missing := blocks.length, heard := true }) c.members })
          match d.camp c.cid with
          | some x => if x.allFinal then d.endCamp c.cid 6 else d.showCmp
          | none => d

/-- CAMPAIGN_REPORT: the next report that NODE_UP has consumed, or that has crossed to the engine's die, acts (R594). -/
def execCampaignReport (s : State) : Answer :=
  run s (fun d =>
    match d.cmpIn with
    | [] => d
    | r :: rest => { d with cmpIn := rest }.campReport r.1 r.2.1 r.2.2)

/-- A report on its way: at once on the engine's die, else across to it (R594). -/
def Dev.reportIn (d : Dev) (k : NodeKey) (sf : Nat) (v : List Byte) : Dev :=
  if k.owner == d.cmp.engine then { d with cmpIn := d.cmpIn ++ [(k, sf, v)] } else d.cross k.owner (.report k sf v)

/-! ## Switch-over (R596) -/

/-- CAMPAIGN_ENGINE_SWITCHOVER: once the spare has taken the unit's place, and at a superframe boundary with no campaign frame held in an air MAC,
Route-1's engine continues every campaign from its record (R19, R596). -/
def execCampaignEngineSwitchover (s : State) : Answer :=
  run s (fun d =>
    if d.cmp.engine != 1 || (d.unit 6 2 0).state != .active || d.campHeld (fun _ => true) then d
    else { (d.w F.CMP.STAT_ACTIVE 0 1) with cmp := { d.cmp with engine := 2 } }.showCmp)

end Sys2Proof.Machine
end

