-- ==== Sys2Proof/Machine/Uplink.lean ====
section
/-! DEFINITION. Uplink plays of the Route dies: replay checks, verification, the commit of an accepted frame, control elements, RPL,
reassembly, creation and promotion of node entries (R239, R275, R276, R304, R310 to R316, R326, R327, R350, R360). -/

namespace Sys2Proof.Machine
open Sys2Proof

/-! ## Uplinks -/

/-- What a verified node frame says: its epoch, counter, type and flags, the acknowledged counter of a node ack, and its payload. `nh` is 2
for legacy data and 3 for a legacy MAC command. -/
structure Up where
  epoch   : Nat
  fcnt    : Nat
  type    : Nat
  nh      : Nat
  ackCtr  : Nat
  listen  : Bool
  ackReq  : Bool
  resync  : Bool
  retx    : Bool
  payload : List Byte
  deriving DecidableEq, Repr

/-- The epoch and frame counter of a frame; a legacy frame has epoch 0. -/
def AirIn.ctr (a : AirIn) : Nat × Nat :=
  if a.leg then (0, (legHdr a.psdu).elim 0 (fun h => h.fcnt))
  else ((nodeHdr a.psdu).epoch, (nodeHdr a.psdu).fcnt)

/-- The MIC code of a frame. -/
def AirIn.micl (a : AirIn) : Nat :=
  if a.leg then (legHdr a.psdu).elim 0 (fun h => legMicl h.level) else (nodeHdr a.psdu).micl

/-- A frame's header fields with its decrypted payload. -/
def AirIn.up (a : AirIn) (p : List Byte) : Up :=
  if a.leg then
    { epoch := 0, fcnt := a.ctr.2, type := 1, nh := if (legCmd a.psdu).isSome then 3 else 2, ackCtr := 0, listen := false, ackReq := false, resync := false, retx := false,
      payload := p }
  else
    let h := nodeHdr a.psdu
    { epoch := h.epoch, fcnt := h.fcnt, type := h.type, nh := h.nh, ackCtr := h.ackCtr, listen := h.listen, ackReq := h.ackReq,
      resync := h.resync, retx := h.retx, payload := p }

/-- Verify and decrypt a frame under a root. -/
def AirIn.open_ (a : AirIn) (root : List Byte) : Option Up :=
  (if a.leg then (legHdr a.psdu).bind (fun h => h.openWith root a.ext a.psdu) else openNode root a.psdu).map a.up

/-- The replay check of R275 steps 2 and 4 against an entry: 0 pass, 1 EPOCH_REJECT, 2 REPLAY. -/
def Dev.replay (d : Dev) (e : NodeEnt) (epoch fcnt : Nat) : Nat :=
  let x := (epoch + 256 - e.epoch) % 256
  if !e.rpv then 0
  else if d.g F.VLT.EPOCH_CFG_AHEAD < x then 1
  else if x == 0 && fcnt ≤ e.ulFcnt then 2
  else 0

/-- Count a replay drop in a CRY page. -/
def Dev.replayCount (d : Dev) (die reg code : Nat) : Dev :=
  if code == 1 then d.inc C.CRY.EPOCH_REJECT die reg else if code == 2 then d.inc C.CRY.REPLAY die reg else d

/-- The drops before any key is derived (R271, R275 steps 1 and 2, R351, R472); counted in CRY0. Answers whether the frame goes on. -/
def Dev.upPre (d : Dev) (die : Nat) (a : AirIn) (e : Option NodeEnt) : Dev × Bool :=
  let t := d.tenant die a.key.tenant
  let c := a.ctr
  if a.secBad then (d.inc C.CRY.SEC_DROP die, false)
  else if !t.en || a.micl < t.miclMin then (d.inc C.ING.TEN_DROP die, false)
  else if (d.cede a.key).isSome then
    (d.setCede a.key (fun c => { c with heard := satAdd 0xFFFFFFFF c.heard 1, snr := a.snr, tLast := a.tref }), false)
  else if (d.root a.key.tenant).isNone then (d.inc C.CRY.NO_ROOT die, false)
  else
    let code := e.elim 0 (fun e => d.replay e c.1 c.2)
    (d.replayCount die 0 code, code == 0)

/-- Whether the reply window of a frame is the node's to open: none of its frames has passed in the slot before (R240, Table 9-9). -/
def Dev.firstIn (d : Dev) (die : Nat) (a : AirIn) : Bool := !(d.route die).windows.contains (a.key, a.band, a.sf, a.slot)

/-- The uses for which an uplink's key is loaded: 2 when the frame opens a reply window, 1 otherwise (R273). -/
def Dev.upUses (d : Dev) (die : Nat) (a : AirIn) : Nat := if !a.leg && (nodeHdr a.psdu).listen && d.firstIn die a then 2 else 1

/-- The key of a frame is loaded into the register of its job's engine, and one use verifies the frame (R273). -/
def Dev.upKey (d : Dev) (die : Nat) (a : AirIn) : Dev :=
  match (d.route die).jobs.getLast? with
  | none => d
  | some j =>
    let d := d.setRoute die (fun r => { r with jobs := mapIf (fun x => x.id == j.id) (fun x => { x with key := some a.key }) r.jobs })
    ((d.wkLoad die j.region j.engine (d.upUses die a)).wkUse die j.region j.engine).getD d

/-- The job of a frame of a node ends with no further use of its key (R273). -/
def Dev.upEnd (d : Dev) (die : Nat) (k : NodeKey) : Dev := d.wkEnd die ((d.jobOf die k).map (fun j => j.id))

/-- Derive, verify and decrypt on an engine of a region (R273, R275 step 3). A tamper reaction during the job aborts it (Table 10-4); a parity error in the
working key register clears it and fails the job, and one on the root's transfer drops the frame (Table 10-13). -/
def Dev.upVerify (d : Dev) (die reg : Nat) (a : AirIn) (env : PlayEnv) : Dev × Option Up :=
  let d := d.inc C.CRY.DERIVED die reg
  if env.tampered then (d.inc C.CRY.TAMPER_ABORT die reg, none)
  else if env.keyErr == 1 then (d.raise E.CRY.WK_PARITY die reg, none)
  else if env.keyErr == 2 then (d.raise E.CRY.ROOT_PATH die reg, none)
  else match (d.root a.key.tenant).bind a.open_ with
    | none => (((d.upKey die a).upEnd die a.key).inc C.CRY.MIC_FAIL die reg, none)
    | some u => ((d.upKey die a).inc C.CRY.VERIFY_OK die reg, some u)

/-! ## Payloads -/

/-- Deliver a node's payload to the host (R350, R352). -/
def Dev.upHost (d : Dev) (die kind : Nat) (a : AirIn) (u : Up) (decomp mirror : Bool) (data : List Byte) (cls sub : Nat) (yellow : Bool) : Dev :=
  d.toHost die { src := kind, port := airPort a.band, tenant := a.key.tenant, retx := u.retx, decomp := decomp, tag := a.key.tag }
    mirror data cls sub yellow a.tref a.buf

/-- The service class of node traffic before a forwarding entry is known (R369 rules 2 and 3). -/
def Dev.upClass (d : Dev) (die k tenant : Nat) : Nat :=
  if d.on F.ING.PLAY_TBL_CLS_EN die 0 k then d.g F.ING.PLAY_TBL_CLASS die 0 k else (d.tenant die tenant).cls

/-- A payload with NH 0 or of the legacy side (plays 32 and 34, Table 12-4); a mirror copy is made unless the play delivers already. -/
def Dev.upOpaque (d : Dev) (die kind : Nat) (a : AirIn) (u : Up) (yellow : Bool) : Dev :=
  let k := if a.leg then 34 else 32
  let cls := d.upClass die k a.key.tenant
  let sub := (d.tenant die a.key.tenant).sub
  if d.g F.ING.PLAY_TBL_PLAY die 0 k == 1 then d.upHost die kind a u false false u.payload cls sub yellow
  else if d.on F.ING.PLAY_TBL_MIRROR die 0 k then d.upHost die kind a u false true u.payload cls sub yellow
  else d

/-! ## RPL (R326, R327) -/

/-- Apply one target of a DAO on the die that owns it. -/
def Dev.daoRecord (d : Dev) (die : Nat) (e : NodeEnt) (parent : Option NodeKey) (root : Bool) (pseq life : Nat) : Dev :=
  let d := d.setNode e.key (fun e => { e with age := d.ageLow die })
  if e.rt.pvalid && !lollipopNewer pseq e.rt.pseq then d.inc C.SRC.DAO_STALE die
  else
    let tick := d.g F.NTB.AGE_CFG_TICK die
    let n := life * d.g F.SRC.RPL_CFG_LUNIT die * 1000
    let exp := if life == 0xFF || tick == 0 then 0xFFFFFFFF else (d.g F.NTB.AGE_NOW_N die + (n + tick - 1) / tick) % 2 ^ 32
    let d := d.setNode e.key (fun e =>
      if life == 0 then { e with rt := { e.rt with pvalid := false } }
      else { e with rt := { parent := parent.getD ⟨0, 0⟩, pvalid := true, proot := root, pseq := pseq, pexp := exp } })
    (d.inc C.SRC.DAO_RX die).showNodes die

/-- Ask for the creation of an entry, or join the creation that waits for its key (R310, R311). Answers whether a place was found. -/
def Dev.askCreate (d : Dev) (die : Nat) (k : NodeKey) (h : Held) : Dev × Bool :=
  let r := d.route die
  if r.creations.any (fun c => c.key == k) then
    (d.setRoute die (fun r => { r with creations := mapIf (fun c => c.key == k) (fun c => { c with held := c.held ++ [h] }) r.creations }), true)
  else if 256 ≤ r.creations.length then (d.inc C.NTB.PEND_FULL die, false)
  else
    let d := d.setRoute die (fun r => { r with creations := r.creations ++ [⟨k, true, [h]⟩] })
    ({ d with popQ := d.popQ ++ [(die, k)] }, true)

/-- A DAO's target on its owner: applied, or held behind a creation (R311, R327). -/
def Dev.applyDao (d : Dev) (die : Nat) (k : NodeKey) (parent : Option NodeKey) (root : Bool) (pseq life : Nat) : Dev :=
  if (d.route die).creations.any (fun c => c.key == k) then (d.askCreate die k (.dao parent root pseq life)).1
  else match d.nodeOf k with
    | some e => d.daoRecord die e parent root pseq life
    | none => (d.askCreate die k (.dao parent root pseq life)).1

/-- One item of a DAO as the receiving die handles it: checked, then applied here or sent to the target's owner (R327). -/
def Dev.daoItem (d : Dev) (die : Nat) (x : DaoItem) : Dev :=
  let target := if x.plen == 128 then d.addrNode die x.target else none
  let root := x.parent == some (d.ownAddr die)
  let parent := x.parent.bind (d.addrNode die)
  let badParent := if root then false else match x.parent with
    | none => x.life != 0
    | some _ => parent.isNone || parent == target
  match target with
  | none => d.inc C.SRC.DAO_BAD die
  | some k =>
    if badParent then d.inc C.SRC.DAO_BAD die
    else
      let p := if root then none else parent
      if k.owner == die then d.applyDao die k p root x.pseq x.life else d.cross die (.dao k p root x.pseq x.life)

/-- A DAO (R327): its items, then a DAO-ACK of status 0 to its source when K is set. -/
def Dev.daoRx (d : Dev) (die : Nat) (p : Ip6) : Dev :=
  let m := p.body
  let fl := beAt m 5 1
  let o := 8 + if bitOf fl 6 then 16 else 0
  let d := if p.dst == d.ownAddr die then d.each (daoItems (rplOptions m.length (m.drop o))) (fun d x => d.daoItem die x) else d
  if !bitOf fl 7 then d
  else match d.addrNode die p.src with
    | none => d
    | some k =>
      let msg := rplMsg (d.ownAddr die) p.src 3 (toBE 1 (d.g F.SRC.RPL_CFG_INST die) ++ toBE 1 0 ++ toBE 1 (beAt m 7 1) ++ toBE 1 0)
      let pkt : Ip6 := { tc := 0, flow := 0, nh := 58, hlim := ownHopLimit, src := d.ownAddr die, dst := p.src, body := msg }
      match d.allocInt die pkt.bytes.length with
      | (d, none) => d
      | (d, some b) => (d.inc C.SRC.DAO_ACK_TX die).nodeDown die
          { dest := k, hop := none, nh := 1, data := pkt.bytes, cls := none, sub := none, time := d.evTime, buf := b }

/-- A DIS is answered with a DIO to its sender (R326). -/
def Dev.disRx (d : Dev) (die : Nat) (k : NodeKey) (p : Ip6) : Dev :=
  let f := d.freshBytes 6
  let d := f.2.inc C.SRC.DIS_RX die
  let dst := if p.src == 0 then d.nodeAddr die k else p.src
  let pkt : Ip6 := { tc := 0, flow := 0, nh := 58, hlim := ownHopLimit, src := d.ownAddr die, dst := dst,
                     body := rplMsg (d.ownAddr die) dst 1 (d.dioBody die f.1) }
  (d.inc C.SRC.DIO_TX die).sendOwn die k 1 pkt.bytes

/-- Whether a packet is an RPL control message, and its code. -/
def rplCode (p : Ip6) : Option Nat := if p.nh == 58 && beAt p.body 0 1 == 155 && 8 ≤ p.body.length then some (beAt p.body 1 1) else none

/-- A decompressed packet from a node: RPL messages are consumed, others go by play 33 (R327, R350, R361). -/
def Dev.upPacket (d : Dev) (die kind : Nat) (a : AirIn) (u : Up) (p : Ip6) (yellow : Bool) : Dev :=
  match rplCode p.leave with
  | some 0 => d.disRx die a.key p.leave
  | some 2 => d.daoRx die p.leave
  | some _ => d
  | none =>
    let cls := d.upClass die 33 a.key.tenant
    let sub := (d.tenant die a.key.tenant).sub
    let play := d.g F.ING.PLAY_TBL_PLAY die 0 33
    if play == 1 then d.upHost die kind a u true false p.bytes cls sub yellow
    else
      let d := d.when (d.on F.ING.PLAY_TBL_MIRROR die 0 33) (fun d => d.upHost die kind a u true true p.bytes cls sub yellow)
      if play != 2 then d
      else d.fwdIp die
        { tag := { src := kind, port := airPort a.band, tenant := a.key.tenant, retx := u.retx, decomp := true, tag := a.key.tag },
          data := p.bytes, isIp := true, node := true, cls := cls, sub := sub, col := b2n yellow, time := a.tref, buf := a.buf }

/-! ## 6LoWPAN (R357, R358, R360) -/

/-- The environment of a frame from a node. -/
def Dev.upEnv (d : Dev) (die : Nat) (k : NodeKey) : IphcEnv := ⟨d.prefix64 die, d.nodeAddr die k % 2 ^ 64, 2 ^ 48⟩

/-- Show the contexts in use. -/
def Dev.showReasm (d : Dev) (die : Nat) : Dev := d.w F.ING.LOWPAN_STAT_N (d.route die).reasm.length die

/-- The pieces after the first in order of their offset, while they follow on from `at_` without a gap: the octets and the end. -/
def joinParts : Nat → Nat → List (Nat × List Byte) → List Byte × Nat
  | 0, at_, _ => ([], at_)
  | n + 1, at_, l =>
    match l.find? (fun x => x.1 == at_ && !x.2.isEmpty) with
    | none => ([], at_)
    | some x =>
      let r := joinParts n (at_ + x.2.length) l
      (x.2 ++ r.1, r.2)

/-- The whole datagram of a context, once every octet is present: the first piece's compressed form with all the rest behind it. -/
def Reasm.whole (r : Reasm) (e : IphcEnv) : Option (List Byte) :=
  match r.parts.find? (fun x => x.1 == 0) with
  | none => none
  | some x =>
    match iphcOpen e x.2 with
    | none => some x.2
    | some p =>
      let j := joinParts r.parts.length p.bytes.length r.parts
      if j.2 == r.size then some (x.2 ++ j.1) else none

/-- Free a context. -/
def Dev.dropReasm (d : Dev) (die : Nat) (c : Reasm) : Dev :=
  ((d.setRoute die (fun r => { r with reasm := r.reasm.filter (fun x => !(x.key == c.key && x.tag == c.tag)) })).release die c.buf).showReasm die

/-- A fragment (R360): its context is found or opened, the piece joins it, and a complete datagram goes on. -/
def Dev.upFragment (d : Dev) (die kind : Nat) (a : AirIn) (u : Up) (yellow : Bool) : Dev :=
  let b := u.payload
  let first := beAt b 0 1 / 8 == 0b11000
  let size := beAt b 0 2 % 2048
  let tag := beAt b 2 2
  let piece := if first then (0, b.drop 4) else (8 * beAt b 4 1, b.drop 5)
  if d.g F.ING.LOWPAN_CFG_REASM die == 0 || b.length < (if first then 5 else 6) || (!first && piece.1 == 0) then d.inc C.ING.LOWPAN_BAD die
  else
    let old := (d.route die).reasm.find? (fun c => c.key == a.key && c.tag == tag)
    let opened : Option (Dev × Reasm) := match old with
      | some c => some (d, c)
      | none =>
        if 512 ≤ (d.route die).reasm.length then none
        else match d.allocInt die size with
          | (_, none) => none
          | (d, some id) =>
            let c : Reasm := { key := a.key, tag := tag, size := size, parts := [], first := a.fin, buf := id }
            some (d.setRoute die (fun r => { r with reasm := r.reasm ++ [c] }), c)
    match opened with
    | none => if 512 ≤ (d.route die).reasm.length then d.inc C.ING.REASM_FULL die else d.note die 4
    | some (d, c) =>
      let c : Reasm := { c with parts := c.parts.filter (fun x => x.1 != piece.1) ++ [piece] }
      match c.whole (d.upEnv die a.key) with
      | none => (d.setRoute die (fun r => { r with reasm := mapIf (fun x => x.key == c.key && x.tag == c.tag) (fun _ => c) r.reasm })).showReasm die
      | some pkt =>
        let d := d.dropReasm die c
        match iphcOpen (d.upEnv die a.key) pkt with
        | none => d.inc C.ING.LOWPAN_BAD die
        | some p => d.upPacket die kind a u p yellow

/-- A payload with NH 1. -/
def Dev.upLowpan (d : Dev) (die kind : Nat) (a : AirIn) (u : Up) (yellow : Bool) : Dev :=
  let t := beAt u.payload 0 1 / 8
  if !u.payload.isEmpty && (t == 0b11000 || t == 0b11100) then d.upFragment die kind a u yellow
  else match iphcOpen (d.upEnv die a.key) u.payload with
    | none => d.inc C.ING.LOWPAN_BAD die
    | some p => d.upPacket die kind a u p yellow

/-! ## Control elements (R239, R244, R246) -/

/-- The elements that Dravina consumes: a SCHED_REQ sets the class and goes to the planner, with the window it may be answered in;
CAMP_STATUS goes to the campaign engine. Answers whether a SCHED_REQ was there. -/
def Dev.upElements (d : Dev) (a : AirIn) (u : Up) (w : Option Win) : Dev × Bool :=
  (elements u.payload.length u.payload).foldl (fun (x : Dev × Bool) el =>
    if el.1 == 0x01 && el.2.length == 5 then
      let fl := leAt el.2 2 1
      let d := x.1.setNode a.key (fun e => { e with det := { e.det with
        classP := bitOf fl 1, classW := bitOf fl 2, wakeIdx := bitsOf fl 3 3, wakeCode := leAt el.2 3 2 } })
      (d.setAir (bandAir a.band) (fun r => { r with reqs := r.reqs ++ [
        { tag := a.key.tag, tenant := a.key.tenant, period := leAt el.2 0 2 + 1, listen := bitOf fl 0, sf := a.sf,
          win := if x.2 then none else w }] }), true)
    else if el.1 == 0x12 then (x.1.reportIn a.key a.sf el.2, x.2)
    else x) (d, false)

/-! ## The commit of an accepted frame (R240, R248, R275 step 4, R304) -/

/-- Whether a frame is off plan (R245, Table 9-9): outside its node's assigned slot, whose listen slot is a node ack's own as well (DEDUCED, log 33), or from a
node without an assignment outside the contention slots. -/
def Dev.offPlan (d : Dev) (air slot sf : Nat) (ack : Bool) (t : Detail) : Bool :=
  if t.assigned && t.aBand == air - 3 then !((t.aSlot == slot || (ack && t.listen && t.aSlot + 1 == slot)) && t.due sf) else !d.contSlot air slot

/-- The reply window that a frame opens (R240): it listens, and is the node's first in its slot to pass. -/
def Dev.window (d : Dev) (die : Nat) (a : AirIn) (u : Up) : Option Win :=
  let air := bandAir a.band
  if a.leg || !u.listen || !d.firstIn die a then none
  else some { start := d.toLocal a.fin + d.g F.AMC.REPLY_CFG_ACK_DELAY air * tickUs, limit := d.limitOf air a.sf a.slot,
              channel := a.ch, map := a.map, rate := a.rate, ctr := u.fcnt, job := (d.jobOf die a.key).map (fun j => j.id) }

/-- A detail record after an accepted frame. -/
def Dev.heard (d : Dev) (a : AirIn) (u : Up) (newEpoch : Bool) (t : Detail) : Detail :=
  let setMap := !a.leg && !t.mpin && !a.noFit && t.map != a.recMap
  let t := { t with
    dlFcnt := if newEpoch then 0 else t.dlFcnt
    map := if setMap then a.recMap else t.map
    mapNew := t.mapNew || setMap
    lastBand := a.band
    lastCh := a.ch
    lastSnr := a.snr
    rxFrames := (t.rxFrames + 1) % 2 ^ 32 }
  if a.leg then t else d.driftUpdate (bandAir a.band) t u.resync (clampI (-32768) 32767 a.offs) a.tref

/-- The pending downlink that a node ack acknowledges leaves the store (R242). -/
def Dev.nodeAck (d : Dev) (a : AirIn) (u : Up) : Dev :=
  let air := bandAir a.band
  match (d.dlOf air a.key).find? (fun f => f.endAt != 0 && f.fcnt % 65536 == u.ackCtr) with
  | none => d
  | some f => (d.setAir air (fun r => { r with dl := r.dl.filter (fun x => x.id != f.id) })).outcome a.key (.acked f.id a.key.tag a.key.tenant)

/-- A frame with LISTEN answers the node's wake-up calls, and cancels one that waits (R247, Table 9-9). -/
def Dev.answerCalls (d : Dev) (k : NodeKey) : Dev :=
  (d.each [3, 4] (fun d air => d.setAir air (fun r => { r with
    calls := r.calls.filter (fun c => !(c.tag == k.tag && c.tenant == k.tenant))
    planned := r.planned.filter (fun x => x.who != .wake k.tag k.tenant)
    handed := r.handed.filter (fun x => x.who != .wake k.tag k.tenant) }))).calWatch

/-- The work of an accepted legacy MAC command on its owner (R24, R252, R253): an Association Request of an associated node gets its existing address, a
Disassociation Notification frees the address, and a Data Request fetches a held frame. -/
def Dev.legCmdPlay (d : Dev) (a : AirIn) : Dev :=
  let air := bandAir a.band
  match legHdr a.psdu, legCmd a.psdu, (d.airD air).leg.find? (fun n => n.ext == a.ext) with
  | some _, some 1, some n => d.legAssociate air n.ext n.pan
  | some _, some 3, some n => d.legFree air n
  | some h, some 4, some _ => d.legFetch air a.ch h
  | _, _, _ => d

/-- The work of an accepted frame once its entry is known (R275 step 4 and what follows): replay state, map, drift, acknowledgement,
metering, reply and payload. Releases the frame's cells. -/
def Dev.upAccept (d : Dev) (die kind : Nat) (a : AirIn) (u : Up) : Dev :=
  let done := fun (d : Dev) => d.release die a.buf
  match d.nodeOf a.key with
  | none => done d
  | some e =>
    let code := d.replay e u.epoch u.fcnt
    if code != 0 then done ((d.upEnd die a.key).replayCount die 0 code)
    else
      let air := bandAir a.band
      let w := d.window die a u
      let next := d.heard a u (e.rpv && e.epoch != u.epoch) e.det
      let d := d.setNode a.key (fun e => { e with rpv := true, epoch := u.epoch, ulFcnt := u.fcnt, age := d.ageLow die, det := next })
      let d := d.when (!a.leg && d.offPlan air a.slot a.sf (u.type == 5) e.det) (fun d => d.inc C.AMC.OFF_PLAN air)
      let d := d.when (!a.leg && d.firstIn die a) (fun d => d.setRoute die (fun r => { r with
        windows := r.windows.filter (fun x => x.2.1 != a.band || a.sf ≤ x.2.2.1 + 1) ++ [(a.key, a.band, a.sf, a.slot)] }))
      let d := d.when u.listen (fun d => d.answerCalls a.key)
      let d := d.when (u.ackReq && !u.listen) (fun d => d.inc C.AMC.ACK_NO_LISTEN air)
      let d := d.when (u.type == 5) (fun d => d.nodeAck a u)
      let m := d.meterUp die a.key.tenant (if (d.resident a.key).isSome then some e.detail else none)
        (a.psdu.length + if a.leg then (if a.fcs4 then 4 else 2) else 2) a.tref
      let d := m.1
      let el := if u.type == 1 && u.nh == 15 && m.2 != 2 then d.upElements a u w else (d, false)
      let d := if el.2 then el.1 else (w.elim el.1 (fun w => el.1.ackPlay air a.key w)).upEnd die a.key
      let y := m.2 == 1
      done (if m.2 == 2 || u.type != 1 || u.nh == 15 then d
        else if u.nh == 3 then d.legCmdPlay a
        else if u.nh == 1 then d.upLowpan die kind a u y
        else d.upOpaque die kind a u y)

/-! ## Creation and promotion (R309 to R311, R316) -/

/-- A frame that found neither a resident nor a cold entry and has verified: creation (R276, R310, R311). -/
def Dev.upNew (d : Dev) (die : Nat) (a : AirIn) (u : Up) : Dev :=
  let r := d.askCreate die a.key (.frame a u.payload true)
  if r.2 then r.1 else r.1.release die a.buf

/-- Promote a cold record whose place is granted: the insertion, then the cold record goes; a failed insertion leaves it as an OVF record
(Table 11-5). -/
def Dev.promote (d : Dev) (die : Nat) (e : NodeEnt) : Dev :=
  let i := d.insertNode die e
  if i.2 then (((i.1.setRoute die (fun r => { r with cold := r.cold.filter (fun x => x.key != e.key) })).inc C.NTB.PROMOTE die).showNodes die)
  else ((((i.1.setRoute die (fun r => { r with cold := mapIf (fun x => x.key == e.key) (fun x => { x with ovf := true }) r.cold })).inc
    C.NTB.INSERT_FAIL die).rehashReq die 0 1).showNodes die)

/-- A frame goes through verification, then to its entry or to a creation; `cold` gives the place that a promotion has been granted. -/
def Dev.upGo (d : Dev) (die reg kind : Nat) (a : AirIn) (env : PlayEnv) (promote : Option NodeEnt) : Dev :=
  let v := d.upVerify die reg a env
  match v.2 with
  | none => (v.1.when promote.isSome (fun d => d.popBack)).release die a.buf
  | some u =>
    match promote with
    | some c => (v.1.promote die c).upAccept die kind a u
    | none =>
      if (v.1.nodeOf a.key).isSome then v.1.upAccept die kind a u
      else if u.nh == 3 then (v.1.legCmdPlay a).release die a.buf
      else v.1.upNew die a u

/-- The node play of an AIR_FRAME event that holds a reservation (R275, R306, R316, R349). -/
def Dev.playAir (d : Dev) (die reg : Nat) (a : AirIn) (env : PlayEnv) : Dev :=
  if env.lane != 0 then ((d.laneLost die (if a.leg then 1 else 0) env).dropJob die).release die a.buf
  else
    let l := (d.tableLanes die).lookup a.key
    let pre := l.1.upPre die a l.2
    if !pre.2 then (pre.1.dropJob die).release die a.buf
    else if l.2.isNone && d.coldLg die != 0 then (pre.1.dropJob die).toSlow die (.frame a) a.buf
    else pre.1.upGo die reg 0 a env none

/-- Log the device's first population-limit drop of an age tick (R30). -/
def Dev.popLog (d : Dev) (die : Nat) (k : NodeKey) : Dev :=
  if d.popLogged then d
  else { d with popLogged := true }.logRec 0x0401 2 die (toLE 1 die ++ toLE 4 k.tag ++ toLE 2 k.tenant)

/-- Give up what waits behind a creation that failed: status cause of a NODE_WRITE, and whether each is counted in POP_LIMIT. -/
def Dev.dropHeld (d : Dev) (die : Nat) (k : NodeKey) (cause : Nat) (l : List Held) : Dev :=
  d.each l (fun d h =>
    let d := d.when (cause == 2) (fun d => (d.inc C.NTB.POP_LIMIT die).popLog die k)
    match h with
    | .frame a _ _ => d.release die a.buf
    | .dao _ _ _ _ => d
    | .write id _ => (d.cmd id).elim d (fun c => d.finish id (c.bad stRange cause)))

end Sys2Proof.Machine
end

