-- ==== Sys2Proof/Machine/Pipeline.lean ====
section
/-! DEFINITION. Events of the Route dies: frames from the air, transfers, internal events, timer work, creations, the slow path and
migrations (R310 to R318, R322, R324, R337 to R363, R378, R387 to R393). -/

namespace Sys2Proof.Machine
open Sys2Proof

/-! ## Air frames, transfers, watchdog, jobs -/

/-- The event at the head of a die's air lane: it is placed while a reservation is free and runs its play; with none free it is dropped before sequencing
(R24, R275, R339, R355). -/
def Dev.airEvent (d : Dev) (die : Nat) (env : PlayEnv) : Dev :=
  match (d.route die).air with
  | [] => d
  | a :: rest =>
    if !d.mayPlace die 0 then d.turned die 0
    else if !d.cryFree die then
      (((d.setRoute die (fun r => { r with air := rest })).inc C.ING.CRY_FULL die).release die a.buf).showLanes die
    else
      let d := (d.setRoute die (fun r => { r with air := rest })).place die 0 0
      let d := d.journal die 0 (if env.lane != 0 then 2 else 0) a.tref (.air a)
      let j := d.takeJob die
      ((j.1.playAir die j.2 a env).sampleAll die env).showLanes die

/-- AIR_FRAME: the frame at the head of the air lane is sequenced and runs its play (R24, R275, R339, R355). -/
def execAirFrame (die : Nat) (env : PlayEnv) (s : State) : Answer := run s (fun d => d.airEvent die env)

/-- The work of a transfer at its place in the receiving die's order (R21). Cells come from group 3. -/
def Dev.playXfer (d : Dev) (die buf : Nat) (x : XferIn) : Dev :=
  match x with
  | .enq port cls sub yellow data dl time => (d.toPort die port cls sub yellow data dl time buf).release die buf
  | .flood f => (d.fwdPlay die { f with buf := buf }).release die buf
  | .down y => d.nodeDown die { y with buf := buf }
  | .dao k parent root pseq life => (d.applyDao die k parent root pseq life).release die buf
  | .report k sf v => { d with cmpIn := d.cmpIn ++ [(k, sf, v)] }.release die buf

/-- The play that a transferred packet requires (Table 12-1, Table 12-3). -/
def XferIn.play (x : XferIn) : Nat :=
  match x with
  | .down _ => 4
  | .dao _ _ _ _ _ => 2
  | _ => 5

/-- The octets that a transfer brings. -/
def XferIn.size (x : XferIn) : Nat :=
  match x with
  | .enq _ _ _ _ data _ _ => data.length
  | .flood f => f.data.length
  | .down y => y.data.length
  | .dao _ _ _ _ _ => 0
  | .report _ _ v => v.length

/-- XFER: a transfer from the other Route die enters the sequencer as a new input event (R21, R339, R362). -/
def execXfer (die : Nat) (env : PlayEnv) (s : State) : Answer :=
  run s (fun d =>
    match (d.route die).xfer with
    | [] => d
    | x :: rest =>
      if !d.mayPlace die 3 then d.turned die 3
      else
        let old := d
        let d := d.setRoute die (fun r => { r with xfer := rest })
        match d.alloc die 3 x.size with
        | none => (d.inc C.ING.BUF_DROP die 0 3).showLanes die
        | some (d, b) =>
          let d := d.place die 3 6
          let d := d.journal die 6 (if env.lane != 0 then 2 else 0) d.evTime (.xfer x)
          let d := if env.lane != 0 then (d.laneLost die x.play env).release die b else d.playXfer die b x
          old.orWait ((d.sampleAll die env).showLanes die))

/-- Take the first internal event that a selection accepts, with what is left. -/
def takeInt {α : Type} (f : IntEv → Option α) : List IntEv → Option (α × List IntEv)
  | [] => none
  | e :: l =>
    match f e with
    | some x => some (x, l)
    | none => (takeInt f l).map (fun r => (r.1, e :: r.2))

/-- A slow-path result: its operation, and whether a place of the population count was granted with it. -/
def slowEv (e : IntEv) : Option (SlowOp × Bool) :=
  match e with
  | .slow o g _ => some (o, g)
  | _ => none

/-- The play of a slow-path result (Table 12-4). -/
def SlowOp.play : SlowOp → Nat
  | .frame a => if a.leg then 1 else 0
  | .hop _ _ => 4

/-- The buffer that a slow-path operation holds. -/
def SlowOp.buf : SlowOp → Nat
  | .frame a => a.buf
  | .hop x _ => x.buf

/-- The kind and play of the event at the head of a source that the watchdog can abort (R349), with its buffer. -/
def Dev.headPlay (d : Dev) (die src : Nat) : Option (Nat × Nat × Nat) :=
  let r := d.route die
  match src with
  | 0 => r.air.head?.map (fun a => (0, if a.leg then 1 else 0, a.buf))
  | 1 => r.wired.head?.map (fun w => match w with
    | .eth f => (1, 5, f.buf)
    | .fab _ _ _ b => (1, 5, b)
    | .can _ => (2, 6, 0))
  | 3 => r.xfer.head?.map (fun x => (6, x.play, 0))
  | 4 => (takeInt slowEv r.int).map (fun x => (10, x.1.1.play, x.1.1.buf))
  | _ => none

/-- The journal body of the event at the head of a source that the watchdog can abort. -/
def Dev.headBody (d : Dev) (die src : Nat) : Option (JBody) :=
  let r := d.route die
  match src with
  | 0 => r.air.head?.map JBody.air
  | 1 => r.wired.head?.map JBody.wired
  | 3 => r.xfer.head?.map JBody.xfer
  | 4 => (r.int.find? (fun e => (slowEv e).isSome)).map JBody.int
  | _ => none

/-- PLAY_WATCHDOG: the play of a source's next event reaches WD.LIMIT steps and is aborted without commit: the event keeps its number, its
packet is dropped, and WATCHDOG is raised (R349). A place granted with a slow-path result is returned (R310). -/
def execPlayWatchdog (die src : Nat) (s : State) : Answer :=
  run s (fun d =>
    match d.headPlay die src with
    | none => d
    | some (kind, play, buf) =>
      if !d.mayPlace die src then d.turned die src
      else
        let body := d.headBody die src
        let granted := src == 4 && (takeInt slowEv (d.route die).int).elim false (fun x => x.1.2)
        let d := d.place die src kind
        let d := (body.elim d (fun b => d.journal die kind 4 d.evTime b)).setRoute die (fun r =>
          match src with
          | 0 => { r with air := r.air.tail }
          | 1 => { r with wired := r.wired.tail }
          | 3 => { r with xfer := r.xfer.tail }
          | _ => { r with int := (takeInt slowEv r.int).elim r.int (fun x => x.2) })
        let d := d.when granted (fun d => d.popBack)
        let c := d.cluster die
        (((((d.aborted die play 1).inc C.PLY.WD_EXPIRED die c).release die buf).raise E.PLY.WATCHDOG die c)).showLanes die)

/-- CRYPTO_JOB_DONE: an engine returns a job's result, what is left in its working key register is cleared, also that of an engine which a substitution has
replaced (R273, Table 10-4), and the reservation is released (R355, R356). -/
def execCryptoJobDone (die job : Nat) (s : State) : Answer :=
  run s (fun d =>
    let j := (d.route die).jobs.find? (fun j => j.id == job)
    let d := j.elim d (fun j => d.viaLane die (4 * j.region) 2 j.id)
    ((d.wkEnd die (some job)).setRoute die (fun r => { r with jobs := r.jobs.filter (fun j => j.id != job) })).showCry die)

/-! ## Events of internal sources -/

/-- Run the first internal event of a kind, once it may be placed (R337, R339); `flags` are its outcome flags (R341). -/
def Dev.intEventF {α : Type} (flags : Nat) (d : Dev) (die kind : Nat) (f : IntEv → Option α) (body : Dev → α → Dev) : Dev :=
  match takeInt f (d.route die).int with
  | none => d
  | some (x, rest) =>
    if !d.mayPlace die 4 then d.turned die 4
    else
      let ev := ((d.route die).int.find? (fun e => (f e).isSome)).getD (.egress 0 0)
      let d := (d.setRoute die (fun r => { r with int := rest })).place die 4 kind
      (body (d.journal die kind flags d.evTime (.int ev)) x).showLanes die

/-- An internal event that runs its play (R337, R339). -/
def Dev.intEvent {α : Type} (d : Dev) (die kind : Nat) (f : IntEv → Option α) (body : Dev → α → Dev) : Dev := d.intEventF 0 die kind f body

/-- The effect of an AIR_OUTCOME event (R242, R247, R249, R591). -/
def Dev.airOutcome (d : Dev) (o : AirOut) : Dev :=
  let sent := fun (d : Dev) (k : NodeKey) =>
    d.setNode k (fun e => { e with det := { e.det with txFrames := (e.det.txFrames + 1) % 2 ^ 32 } })
  match o with
  | .acked _ tag tenant => sent d ⟨tag, tenant⟩
  | .unacked _ tag tenant => (sent d ⟨tag, tenant⟩).unacked ⟨tag, tenant⟩
  | .expired _ tag tenant => (sent d ⟨tag, tenant⟩).unacked ⟨tag, tenant⟩
  | .noCall tag tenant => d.unacked ⟨tag, tenant⟩
  | .camp cid fcnt => d.campSent cid fcnt

/-- AIR_OUTCOME: the air MAC's report on a downlink or a call takes effect (R242, R247, R249, R337). -/
def execAirOutcome (die : Nat) (s : State) : Answer :=
  run s (fun d => d.intEvent die 12 (fun e => match e with
    | .airOut o => some o
    | _ => none) (fun d o => d.airOutcome o))

/-- EGRESS_DONE: a transmitter has taken a packet; its selection, charges and removal take effect (R373, R374). -/
def execEgressDone (die : Nat) (s : State) : Answer :=
  run s (fun d => d.intEvent die 13 (fun e => match e with
    | .egress p q => some (p, q)
    | _ => none) (fun d x => d.egressDone die x.1 x.2))

/-- Learning: a new entry, a refresh, or an update of a learned one (R322). -/
def Dev.learn (d : Dev) (die : Nat) (l : FwdEnt) : Dev :=
  match (d.route die).fwd.find? (fun e => e.same l) with
  | some e =>
    if e.static then d
    else
      let moved := e.port != l.port || e.dest != l.dest || e.dev != l.dev
      let d := d.setRoute die (fun r => { r with fwd := r.fwd.map (fun x => if x.same l then
        { x with port := l.port, dest := l.dest, dev := l.dev, age := d.fwdAgeLow die } else x) })
      d.when moved (fun d => d.inc C.FWD.MOVES die)
  | none =>
    let i := d.insertFwd die { l with age := d.fwdAgeLow die }
    if i.2 then i.1.inc C.FWD.LEARNED die else (i.1.inc C.FWD.LEARN_FAIL die).rehashReq die 1 1

/-- LEARN: a LEARN event inserts or updates a learned forwarding entry (R322). -/
def execLearn (die : Nat) (s : State) : Answer :=
  run s (fun d => d.intEvent die 11 (fun e => match e with
    | .learn l => some l
    | _ => none) (fun d l => d.learn die l))

/-- An aged slot at its place in the order: unchanged, it goes to the cold store, or is deleted without one; otherwise nothing changes (R313
to R315). Its assignment is released (R245). -/
def Dev.ageCas (d : Dev) (die pos : Nat) (key : NodeKey) (age : Nat) (ver : Bool) : Dev :=
  match (d.route die).nodes.find? (fun e => e.pos == pos) with
  | none => d.inc C.NTB.AGE_CAS_LOST die
  | some e =>
    if e.key != key || e.age != age || e.ver != ver then d.inc C.NTB.AGE_CAS_LOST die
    else if d.coldLg die == 0 then ((d.removeResident die e).inc C.NTB.AGED_OUT die).showPlan
    else match d.coldPut die { e with det := e.det.unassign } with
      | none => d.inc C.NTB.COLD_FULL die
      | some d => ((d.removeResident die e).inc C.NTB.AGED_OUT die).showPlan

/-- An aged learned forwarding entry at its place in the order (R324). -/
def Dev.fwdAgeCas (d : Dev) (die : Nat) (e : FwdEnt) : Dev :=
  if (d.route die).fwd.any (fun x => x.same e && x.age == e.age && x.ver == e.ver && !x.static) then
    (d.deleteFwd die (fun x => x.same e)).inc C.FWD.AGED die
  else d

/-- AGE_CAS: an aged entry is moved or deleted if it has not changed since the ager read it (R313, R324). -/
def execAgeCas (die : Nat) (s : State) : Answer :=
  run s (fun d => d.intEvent die 8 (fun e => match e with
    | .ageCas _ _ _ _ | .ageFwd _ => some e
    | _ => none) (fun d e => match e with
    | .ageCas pos key age ver => d.ageCas die pos key age ver
    | .ageFwd f => d.fwdAgeCas die f
    | _ => d))

/-! ## Creation (R310, R311) -/

/-- POP_REQUEST: the population counter takes the oldest creation request of both dies and answers GRANT, counting it at once, or FULL
(R310). A die that is down takes no answer. -/
def execPopRequest (s : State) : Answer :=
  run s (fun d =>
    match d.popQ with
    | [] => d
    | (die, k) :: rest =>
      let d := { d with popQ := rest }
      if !d.dieUp die then d
      else
        let ok := decide (d.pop < d.popMax)
        let d := if ok then { d with pop := d.pop + 1 }.showPop else d
        (d.setRoute die (fun r => { r with int := r.int ++ [.pop k ok] })).showLanes die)

/-- Write the 96 octets of NODE_WRITE over an entry where it stands (Table 11-8); DETAIL and VER are ignored and AGE is refreshed (R312). -/
def Dev.writeNode (d : Dev) (die : Nat) (k : NodeKey) (data : List Byte) : Dev :=
  let n := NodeEnt.ofBytes data
  ((d.setNode k (fun e => { n with pos := e.pos, key := e.key, ver := e.ver, detail := e.detail, ovf := e.ovf, coldTime := e.coldTime,
                                   age := d.ageLow die })).showNodes die).showPlan

/-- RESULT of a NODE_WRITE: bits [9:8] are 1 for a resident entry and 2 for a cold one. -/
def Dev.nodePlace (d : Dev) (k : NodeKey) : Nat := if (d.resident k).isSome then 256 else if (d.coldRec k).isSome then 512 else 0

/-- What was held behind a creation runs against the new entry, in order (R311). -/
def Dev.runHeld (d : Dev) (die : Nat) (k : NodeKey) (l : List Held) : Dev :=
  d.each l (fun d h => match h with
    | .frame a p _ => d.upAccept die 7 a (a.up p)
    | .dao parent root pseq life => (d.nodeOf k).elim d (fun e => d.daoRecord die e parent root pseq life)
    | .write id data =>
      let d := d.writeNode die k data
      (d.cmd id).elim d (fun c => d.finish id (c.ok (d.nodePlace k))))

/-- The effect of a POP_ANSWER event: the creation and what waited behind it, or the drops of R30 (R308 to R311). -/
def Dev.popAnswer (d : Dev) (die : Nat) (k : NodeKey) (ok : Bool) : Dev :=
  match (d.route die).creations.find? (fun c => c.key == k) with
  | none => d.when ok (fun d => d.popBack)
  | some c =>
    let d := d.setRoute die (fun r => { r with creations := r.creations.filter (fun c => c.key != k) })
    if !ok then d.dropHeld die k 2 c.held
    else if (d.nodeOf k).isSome then (d.popBack).runHeld die k c.held
    else
      let leg := match c.held.head? with
        | some (.frame a _ _) => a.leg
        | _ => false
      let n := d.createNode die { pos := 0, key := k, leg := leg, age := d.ageLow die }
      if n.2 == 0 then n.1.dropHeld die k 3 c.held else n.1.runHeld die k c.held

/-- POP_ANSWER: the counter's answer is sequenced; the creation takes effect, or the held frames are dropped (R310, R311). -/
def execPopAnswer (die : Nat) (env : PlayEnv) (s : State) : Answer :=
  run s (fun d => (d.intEvent die 7 (fun e => match e with
    | .pop k ok => some (k, ok)
    | _ => none) (fun d x => d.popAnswer die x.1 x.2)).sampleAll die env)

/-! ## The slow path (R316) -/

/-- The key that a slow-path operation looks up. -/
def SlowOp.key : SlowOp → NodeKey
  | .frame a => a.key
  | .hop _ n => n

/-- SLOW_PATH_OP: the operation at the head of the lane reads the cold store and asks for the promotion's grant; its result goes back to the
sequencer (R310, R316, Table 11-5). The counter takes requests in order of arrival, so a promotion waits while a creation's request waits there. A SHADOW takes
its results from the journal (R495). -/
def execSlowPathOp (die : Nat) (s : State) : Answer :=
  run s (fun d0 =>
    let d := d0
    match (d.route die).slow with
    | [] => d
    | o :: rest =>
      if !d.dieUp die || d.mode == mShadow then d
      else
        let d := d.setRoute die (fun r => { r with slow := rest })
        let back := fun (d : Dev) (granted found : Bool) =>
          (d.setRoute die (fun r => { r with int := r.int ++ [.slow o granted found] })).showLanes die
        match d.coldRec o.key with
        | none => back (d.inc C.NTB.COLD_MISS die) false false
        | some e =>
          let d := d.inc C.NTB.COLD_HITS die
          if e.ovf then back d false true
          else if !d.popQ.isEmpty then d0
          else if d.pop < d.popMax then back { d with pop := d.pop + 1 }.showPop true true
          else back d false true)

/-- A waiting frame goes on with its slow-path result: its pre-check, then verification, promotion and commit (R275, R310, R316). -/
def Dev.slowFrame (d : Dev) (die reg : Nat) (a : AirIn) (env : PlayEnv) (granted found : Bool) : Dev :=
  let back := fun (d : Dev) => d.when granted (fun d => d.popBack)
  let pre := d.upPre die a (d.nodeOf a.key)
  if !pre.2 then ((back pre.1).dropJob die).release die a.buf
  else if (pre.1.resident a.key).isSome then (back pre.1).upGo die reg 10 a env none
  else match pre.1.coldRec a.key with
    | none => (back pre.1).upGo die reg 10 a env none
    | some e =>
      if e.ovf then (back pre.1).upGo die reg 10 a env none
      else if granted then pre.1.upGo die reg 10 a env (some e)
      else if found then ((((pre.1.inc C.NTB.POP_LIMIT die).popLog die a.key).dropJob die).release die a.buf)
      else pre.1.upGo die reg 10 a env none

/-- The effect of a SLOW_RESULT event. -/
def Dev.slowResult (d : Dev) (die : Nat) (env : PlayEnv) (o : SlowOp) (granted found : Bool) : Dev :=
  match o with
  | .frame a =>
    let j := d.takeJob die
    j.1.slowFrame die j.2 a env granted found
  | .hop x n =>
    let d := match d.coldRec n with
      | some e => if granted && (d.resident n).isNone then d.promote die e else d.when granted (fun d => d.popBack)
      | none => d.when granted (fun d => d.popBack)
    d.nodeDown die { x with tries := 1 }

/-- A slow-path result's event ends without commit: what waited is dropped, and a place granted with the result is returned (R310, R346). -/
def Dev.slowDrop (d : Dev) (die : Nat) (o : SlowOp) (granted : Bool) : Dev := (d.when granted (fun d => d.popBack)).release die o.buf

/-- SLOW_RESULT: a slow-path result re-enters the sequencer and the waiting event continues (R316); a frame or a downlink waits for a
crypto reservation (R355). An uncorrectable lane error ends the event without commit (R346). -/
def execSlowResult (die : Nat) (env : PlayEnv) (s : State) : Answer :=
  run s (fun d =>
    if env.lane != 0 then
      (d.intEventF 2 die 10 slowEv (fun d x => (d.laneLost die x.1.play env).slowDrop die x.1 x.2)).sampleAll die env
    else d.orWait ((d.intEvent die 10 (fun e => match e with
    | .slow o g f => some (o, g, f)
    | _ => none) (fun d x => d.slowResult die env x.1 x.2.1 x.2.2)).sampleAll die env))

/-! ## Rehash (R318) -/

/-- Reinsert one resident entry under the new seed unless the bucket it stands in is one of its buckets under that seed; a failure makes it an OVF
record or loses it. -/
def Dev.migrateNode (d : Dev) (die seed : Nat) (e : NodeEnt) : Dev :=
  let b := hashBuckets ntbBuckets seed e.key.k6
  if b.1 == e.pos / 4 || b.2 == e.pos / 4 then d
  else
    let i := d.insertNode die e true
    if i.2 then
      (i.1.setRoute die (fun r => { r with
        nodes := r.nodes.dropLast.filter (fun x => x.key != e.key) ++ r.nodes.getLast?.toList })).showNodes die
    else
      let d := (i.1.inc C.NTB.INSERT_FAIL die).setRoute die (fun r => { r with nodes := r.nodes.filter (fun x => x.key != e.key) })
      let d := d.forget die e
      match d.coldPut die { e with ovf := true, det := e.det.unassign } with
      | some d => (d.showNodes die).showPlan
      | none => ((((d.inc C.NTB.COLD_FULL die).popBack).setRoute die (fun r => { r with
          mig := mapIf (fun m => m.table == 0) (fun m => { m with lost := true }) r.mig })).showNodes die).showPlan

/-- Reinsert one OVF record under the new seed; a failure leaves it where it is. -/
def Dev.migrateOvf (d : Dev) (die : Nat) (e : NodeEnt) : Dev :=
  let i := d.insertNode die e
  if i.2 then (i.1.setRoute die (fun r => { r with cold := r.cold.filter (fun x => x.key != e.key) })).showNodes die
  else i.1.inc C.NTB.INSERT_FAIL die

/-- Reinsert one forwarding entry under the new seed; one that does not place is dropped, and counted when it was learned. -/
def Dev.migrateFwd (d : Dev) (die seed : Nat) (e : FwdEnt) : Dev :=
  let b := hashBuckets fwdBuckets seed e.kf
  if b.1 == e.pos / 4 || b.2 == e.pos / 4 then d
  else
    let d := d.setRoute die (fun r => { r with fwd := r.fwd.filter (fun x => !(x.same e && x.pos == e.pos)) })
    let i := d.insertFwd die e
    if i.2 then i.1
    else (i.1.setRoute die (fun r => { r with
      mig := mapIf (fun m => m.table == 1) (fun m => { m with bad := m.bad + b2n (!e.static) }) r.mig })).showFwd die

/-- Completion of a migration: SEED, REHASH, RESULT and the token (R318, R525). -/
def Dev.migrateEnd (d : Dev) (die : Nat) (m : Migration) : Dev :=
  let node := m.table == 0
  let d := d.when node (fun d => d.each ((d.route die).cold.filter (fun e => e.ovf)) (fun d e => d.migrateOvf die e))
  let m := (d.migOf die m.table).getD m
  let res := if node then ((d.route die).cold.filter (fun e => e.ovf)).length else m.bad
  let d := d.setRoute die (fun r => { r with mig := r.mig.filter (fun x => x.table != m.table) })
  let d := if node then (d.w F.NTB.SEED m.seed die).w F.NTB.STAT_REHASH 0 die else (d.w F.FWD.SEED m.seed die).w F.FWD.STAT_REHASH 0 die
  let d := d.when (node && m.lost) (fun d => d.rehashReq die 0 2)
  let d := (d.cmd m.cmd).elim d (fun c => d.finish m.cmd (c.ok res))
  d.releaseToken 3 (dieScope die)

/-- MIGRATE: one bucket's entries are reinserted under the new seed; after the last bucket the OVF records follow and the migration ends
(R318). -/
def execMigrate (die : Nat) (s : State) : Answer :=
  run s (fun d => d.intEvent die 9 (fun e => match e with
    | .migrate t b => some (t, b)
    | _ => none) (fun d x =>
      match d.migOf die x.1 with
      | none => d
      | some m =>
        let r := d.route die
        let d := if m.table == 0 then d.each (r.nodes.filter (fun e => e.pos / 4 == m.pos)) (fun d e => d.migrateNode die m.seed e)
          else d.each (r.fwd.filter (fun e => e.pos / 4 == m.pos)) (fun d e => d.migrateFwd die m.seed e)
        let next := m.pos + 1
        let d := d.setRoute die (fun r => { r with mig := mapIf (fun y => y.table == m.table) (fun y => { y with pos := next }) r.mig })
        let d := d.when (m.table == 0) (fun d => d.w F.NTB.REHASH_POS_POS next die)
        if next < (if m.table == 0 then ntbBuckets else fwdBuckets) then
          d.setRoute die (fun r => { r with int := r.int ++ [.migrate m.table next] })
        else d.migrateEnd die m))

/-! ## Timer work -/

/-- Whether age ticks are raised (R312). -/
def Dev.ageRuns (d : Dev) : Bool := d.mode == mBringup || d.mode == mService

/-- A node age tick: AGE_NOW advances and the ager visits every bucket (R312, R313); ageing is suspended during a migration (R318). The age tick that R30 speaks
of for the device is Route-0's, and Route-1's while Route-0 is down (DESIGN CHOICE, log 32). -/
def Dev.ageTick (d : Dev) (die : Nat) : Dev :=
  if d.g F.NTB.AGE_CFG_TICK die == 0 then d
  else
    let d := (d.w F.NTB.AGE_NOW_N (d.g F.NTB.AGE_NOW_N die + 1) die).when (die == 1 || !d.dieUp 1) (fun d => { d with popLogged := false })
    let lim := d.g F.NTB.AGE_CFG_LIMIT die
    if lim == 0 || (d.migOf die 0).isSome then d
    else
      let now := d.ageLow die
      let old := (d.route die).nodes.filter (fun e => !e.pin && lim ≤ (now + 65536 - e.age) % 65536)
      d.setRoute die (fun r => { r with int := r.int ++ (old.map (fun e => IntEv.ageCas e.pos e.key e.age e.ver)).filter (fun x => !r.int.contains x) })

/-- A forwarding age tick (R324). -/
def Dev.fwdAgeTick (d : Dev) (die : Nat) : Dev :=
  if d.g F.FWD.AGE_CFG_TICK die == 0 then d
  else
    let d := d.w F.FWD.AGE_NOW_N (d.g F.FWD.AGE_NOW_N die + 1) die
    let lim := d.g F.FWD.AGE_CFG_LIMIT die
    if lim == 0 || (d.migOf die 1).isSome then d
    else
      let now := d.fwdAgeLow die
      let old := (d.route die).fwd.filter (fun e => e.kind == 0 && !e.static && lim ≤ (now + 65536 - e.age) % 65536)
      d.setRoute die (fun r => { r with int := r.int ++ (old.map IntEv.ageFwd).filter (fun x => !r.int.contains x) })

/-- Reassembly expiry: contexts open longer than REASM ms are freed (R360). -/
def Dev.reasmTick (d : Dev) (die : Nat) : Dev :=
  let now := d.evTime
  d.each ((d.route die).reasm.filter (fun c => c.first + d.g F.ING.LOWPAN_CFG_REASM die * 1000 * tickUs < now)) (fun d c =>
    (d.dropReasm die c).inc C.ING.REASM_TIMEOUT die)

/-- Show the samples of the queue selected by SMP_SEL (Table 13-6). -/
def Dev.showSmp (d : Dev) (die : Nat) : Dev :=
  let n := if d.on F.SCH.SMP_SEL_FIXED die then fixedQ (d.g F.SCH.SMP_SEL_PORT die) (d.g F.SCH.SMP_SEL_Q die % 16) else d.g F.SCH.SMP_SEL_Q die
  let q := d.queue die n
  (d.w F.SCH.SMP_DEPTH_D q.smpDepth die).w F.SCH.SMP_SOJ_S q.smpSoj die

/-- Queue sampling (R387). -/
def Dev.sampleQueues (d : Dev) (die : Nat) : Dev :=
  if d.g F.SCH.SAMPLE_CFG_PERIOD die == 0 then d
  else
    let now := d.evTime
    (d.setRoute die (fun r => { r with queues := r.queues.map (fun q =>
      if !q.en && q.num < 16384 then q
      else { q with smpDepth := q.depth, smpSoj := q.pkts.head?.elim 0 (fun p => min 0xFFFFFFFF ((now - p.time) / tickUs)) }) })).showSmp die

/-- Show the lineup of the port named in LUP_SEL (Table 13-6). -/
def Dev.showLup (d : Dev) (die : Nat) : Dev :=
  let l := d.lineup die (d.g F.SCH.LUP_SEL_PORT die)
  ((((d.w F.SCH.LUP_STAT_ACTIVE (b2n l.active.isSome) die).w F.SCH.LUP_STAT_PENDING (b2n l.pending.isSome) die).w F.SCH.LUP_STAT_LATE
    (b2n l.late) die).w F.SCH.LUP_STAT_ENTRY l.entry die).w F.SCH.LUP_STAT_COUNT (l.active.elim 0 (fun b => b.entries.length)) die

/-- The gates of a port's lineup at the present PTP time (R389). -/
def Dev.gateNow (d : Dev) (die port : Nat) : Dev :=
  (d.setLineup die port (fun l => match l.active with
    | none => { l with gates := 255, entry := 0 }
    | some b => { l with entry := (b.at l.start d.ptpNow).1, gates := (b.at l.start d.ptpNow).2 })).showLup die

/-- A pending bank takes over: the active entry ends and the new bank's entry 0 begins (R390). -/
def Dev.takeover (d : Dev) (die port : Nat) : Dev :=
  match (d.lineup die port).pending with
  | none => d
  | some (b, t) => (d.setLineup die port (fun l => { l with active := some b, start := t, pending := none })).gateNow die port

/-- The takeover time of a bank from a PTP time: its kickoff if that lies ahead, else the first later boundary at least 1 µs ahead; and
whether it is late (R390). -/
def Bank.takeAt (b : Bank) (now : Nat) : Nat × Bool :=
  if now < b.kick then (b.kick, false)
  else
    let c := max 1 b.cycle
    (b.kick + (now + 1000 - b.kick + c - 1) / c * c, true)

/-- The lineup gates of a die's ports: a pending bank whose time has come takes over, then each active bank's gates follow (R389, R390). -/
def Dev.gateTick (d : Dev) (die : Nat) : Dev :=
  if d.act == mQuiesce then d else d.each (d.route die).lineups (fun d l =>
    let d := if l.pending.elim false (fun x => x.2 ≤ d.ptpNow) then d.takeover die l.port else d
    d.gateNow die l.port)

/-- TIME_STEP at a Route die: every lineup recomputes its position, and a pending bank whose kickoff now lies behind takes the late rule
(R393). -/
def Dev.lineupStep (d : Dev) (die : Nat) : Dev :=
  d.each (d.route die).lineups (fun d l =>
    let d := match l.pending with
      | none => d
      | some (b, _) =>
        let t := b.takeAt d.ptpNow
        (d.setLineup die l.port (fun l => { l with pending := some (b, t.1), late := l.late || t.2 })).when (t.2 && !l.late) (fun d => d.inc C.SCH.LUP_LATE die)
    d.gateNow die l.port)

/-- The work of one kind of a TIMER event (R339, R629). -/
def Dev.timerWork (d : Dev) (die kind : Nat) : Dev :=
  match kind with
  | 0 => d.each ((List.range 28).filter (fun p => portOwner p == die)) (fun d p => d.refillPort die p)
  | 1 => d.setRoute die (fun r => { r with queues := r.queues.map (fun q => if q.num < 16384 then q.refill else q) })
  | 2 => if d.ageRuns then d.ageTick die else d
  | 3 => if d.ageRuns then d.fwdAgeTick die else d
  | 4 => d.gateTick die
  | 5 => d.sampleQueues die
  | 6 => d.reasmTick die
  | 8 => d.lineupStep die
  | _ => d

/-- The kinds that a TIMER event of a die serves: those that are due, and a TIME_STEP that has waited for the order to open (R59, R339). -/
def Dev.dueKinds (d : Dev) (die : Nat) (kinds : List (Nat × Nat)) : List (Nat × Nat) :=
  if bitOf d.time.stepFor (die - 1) then (8, 1) :: kinds else kinds

/-- A TIMER event: every kind that is due does its work as often as its count says (R339 rule 2). -/
def Dev.timerEvent (d : Dev) (die : Nat) (kinds : List (Nat × Nat)) : Dev :=
  if !d.seqOpen die then d
  else
    let kinds := d.dueKinds die kinds
    let d := { d with time := { d.time with stepFor := putBit d.time.stepFor (die - 1) false } }
    let d := d.sequence die 5
    let d := d.journal die 5 0 d.evTime (.timer kinds)
    d.each kinds (fun d k => forN k.2 d (fun d _ => d.timerWork die k.1))

/-- TIMER: a TIMER event with its due mask runs each due kind's work (R339, R629). -/
def execTimer (die : Nat) (kinds : List (Nat × Nat)) (s : State) : Answer := run s (fun d => d.timerEvent die kinds)
/-- SHAPER_REFILL: a TIMER event of the shaper-refill kind alone (R378). -/
def execShaperRefill (die : Nat) (queues : Bool) (s : State) : Answer := run s (fun d => d.timerEvent die [(b2n queues, 1)])
/-- AGE_TICK: a TIMER event of the node age tick alone (R312, R313). -/
def execAgeTick (die : Nat) (s : State) : Answer := run s (fun d => d.timerEvent die [(2, 1)])
/-- FWD_AGE_TICK: a TIMER event of the forwarding age tick alone (R324). -/
def execFwdAgeTick (die : Nat) (s : State) : Answer := run s (fun d => d.timerEvent die [(3, 1)])
/-- QUEUE_SAMPLE: a TIMER event of the queue-sampling kind alone (R387). -/
def execQueueSample (die : Nat) (s : State) : Answer := run s (fun d => d.timerEvent die [(5, 1)])
/-- REASSEMBLY_EXPIRY: a TIMER event of the reassembly-expiry kind alone (R360). -/
def execReassemblyExpiry (die : Nat) (s : State) : Answer := run s (fun d => d.timerEvent die [(6, 1)])

/-- LINEUP_GATE: an entry's time has come on one port and its gates take force, as a TIMER event (R389); in QUIESCE lineups hold still (R127). -/
def execLineupGate (die port : Nat) (s : State) : Answer :=
  run s (fun d =>
    if !d.seqOpen die || d.act == mQuiesce || portOwner port != die then d
    else ((d.sequence die 5).journal die 5 0 d.evTime (.gate port false)).gateNow die port)

/-- LINEUP_TAKEOVER: the pending bank of a port takes over, as a TIMER event (R390). -/
def execLineupTakeover (die port : Nat) (s : State) : Answer :=
  run s (fun d =>
    if !d.seqOpen die || d.act == mQuiesce || portOwner port != die || (d.lineup die port).pending.isNone then d
    else ((d.sequence die 5).journal die 5 0 d.evTime (.gate port true)).takeover die port)

/-! ## Mode and maintenance events, host commands -/

/-- A MODE event's effect: a change between the hierarchy and the fixed mixture drops what the regime left holds (R376). -/
def Dev.regime (d : Dev) (die mode : Nat) : Dev :=
  let fixed := if mode == mBringup then true else if mode == mService || mode == mShadow then false else (d.route die).fixed
  if fixed == (d.route die).fixed then d
  else
    let d := d.each ((d.route die).queues.filter (fun q => (q.num < 16384) == fixed)) (fun d q =>
      let e := d.emptyQueue die q.num
      e.1.addc C.SCH.REGIME_FLUSH e.2 die)
    (d.setRoute die (fun r => { r with fixed := fixed })).w F.SCH.STAT_REGIME (b2n fixed) die

/-- MODE_EVENT: a mode transition takes its place in a Route die's order, ahead of other sources but behind earlier commands (R337, R339). -/
def execModeEvent (die : Nat) (s : State) : Answer :=
  run s (fun d =>
    match (d.route die).modeEv with
    | [] => d
    | (m, after) :: rest =>
      if !d.dieUp die || d.hl.inflight.any (fun c => c.id < after && bitOf c.toSeq (die - 1)) then d
      else
        let d := d.setRoute die (fun r => { r with modeEv := rest })
        let d := if d.mode == mShadow then d else d.sequence die 14
        (d.journal die 14 0 d.evTime (.mode m)).regime die m)

/-- MAINT: a token grant or release, or a bench switch-over, takes its place in a Route die's order; it is local to the device (R488, R525). -/
def execMaint (die : Nat) (s : State) : Answer :=
  run s (fun d =>
    match d.maintEvent die with
    | none => d
    | some e =>
      if !d.dieUp die then d
      else
        let d := { d with mt := { d.mt with events := d.mt.events.erase (die, e.1, e.2) } }
        if d.mode == mShadow then d else d.sequence die 15)

/-- The data buffer that a command's journal record carries (R488): nothing for an opcode that does not use LENGTH, and no more than the 1 MiB that
the largest data buffer of a journalled command takes. -/
def Cmd.journalData (c : Cmd) (h : List Host.Cell) : List Byte :=
  if (opSpec c.op).any (fun o => o.len) && c.len ≤ 1048576 then c.buf h c.len else []

/-- Whether a command is the next of the captain's lane on a Route die: fetched, not yet sequenced there, and the first in the die's order (R97). -/
def Dev.hostNext (d : Dev) (id die : Nat) (c : Cmd) : Bool :=
  isRoute die && c.stage == .fetched && bitOf c.toSeq (die - 1) && !d.hl.inflight.any (fun e => e.id < id && bitOf e.toSeq (die - 1))

/-- Once every addressed die has a command, it counts as sequenced, and the early checks of R102 may finish it. -/
def Dev.hostChecked (d : Dev) (id : Nat) : Dev :=
  match d.cmd id with
  | none => d
  | some c =>
    if c.toSeq != 0 then d
    else
      let d := d.setCmd id (fun c => { c with stage := .sequenced })
      c.early.elim d (fun st => d.finish id (c.bad st))

/-- A command takes its place on a Route die: a die that is up numbers and journals it, a die that is down only passes it by, and a SHADOW gives no
number, but SEQ shows its LAST_SEQ (R97, R339, R496). -/
def Dev.hostTake (d : Dev) (h : List Host.Cell) (id die : Nat) (c : Cmd) : Dev :=
  let bit := die - 1
  let shadow := d.mode == mShadow
  let place := d.dieUp die && !shadow
  let d := if place then d.place die 2 3 else d
  let seq := if place then d.seqNow die % 2 ^ 32 else if shadow then d.g F.TWN.LAST_SEQ_LO_S 0 0 bit else 0
  let low := (([0, 1] : List Nat).find? (fun b => bitOf c.dies b)).getD 0
  let d := d.when place (fun d => d.journal die 3 0 d.evTime (.host c.ring c.bytes (c.journalData h)))
  let ev := d.seqNow die
  let d := d.setCmd id (fun c => { c with
    toSeq := putBit c.toSeq bit false
    seq := if bit == low then seq else c.seq
    evs := if place then c.evs ++ [(die, ev)] else c.evs })
  ((d.showLanes die).mboxTry).hostChecked id

/-- HOST_CMD: a fetched command is sequenced on a Route die in its ring's order; once every addressed die has it, the checks of R102 run
(R97, R339). -/
def execHostCmd (id die : Nat) (s : State) : Answer :=
  run s (fun d =>
    match d.cmd id with
    | none => d
    | some c =>
      if !d.hostNext id die c then d
      else if d.dieUp die && !(d.mode == mShadow) && !d.mayPlace die 2 then d.turned die 2
      else d.hostTake s.host id die c)

end Sys2Proof.Machine
end

