-- ==== Sys2Proof/Machine/TableCmd.lean ====
section
/-! DEFINITION. The table commands of Table 11-8 and the scheduling commands of Table 13-4 (R332, R333, R368, R385, R386, R395). -/

namespace Sys2Proof.Machine
open Sys2Proof

/-! ## Node commands -/

/-- The key a node command names (R332). -/
def Cmd.nodeKey (c : Cmd) : NodeKey := ⟨c.par 24 4, c.par 28 2⟩
/-- The Route die a command of one TARGET bit names. -/
def Cmd.die1 (c : Cmd) : Nat := if bitOf c.target 0 then 1 else 2

/-- A node command's range check: the tenant, and the owner's TARGET bit (R332). -/
def nodeRange (_ : Dev) (c : Cmd) : Option Nat :=
  if 0x0FFF < c.par 28 2 || c.nodeKey.owner != c.die1 then some 0 else none

/-- As `nodeRange`, with LENGTH 96. -/
def nodeRange96 (d : Dev) (c : Cmd) : Option Nat := if c.len != 96 then some 0 else nodeRange d c

/-- NODE_READ: slot, detail record and route record (Table 11-8). -/
def execNodeRead (id : Nat) (dmaErr : Bool) (s : State) : Answer :=
  runHost s (fun h d => d.runCmdH h 0x0101 id dmaErr nodeRange96 (fun _ d c =>
    match d.resident c.nodeKey, d.coldRec c.nodeKey with
    | some e, _ => (d, c.ok 256, e.bytes false)
    | none, some e => (d, c.ok 512, e.bytes true)
    | none, none => (d, c.bad stRange 1, [])))

/-- A NODE_WRITE of a node without an entry asks for a creation; the command waits for it (R310, R311). -/
def Dev.writeNew (d : Dev) (c : Cmd) (data : List Byte) : Dev × Reply :=
  let die := c.die1
  if (d.route die).creations.any (fun x => x.key == c.nodeKey) then (d, c.bad stRange 5)
  else
    let a := d.askCreate die c.nodeKey (.write c.id data)
    if a.2 then (a.1, c.later) else (a.1, c.bad stRange 5)

/-- NODE_WRITE: overwrites the node's entry where it stands, or creates it (Table 11-8). -/
def execNodeWrite (id : Nat) (dmaErr : Bool) (s : State) : Answer :=
  run s (fun d => d.runCmd 0x0102 id dmaErr nodeRange96 (fun d c =>
    let data := c.buf s.host 96
    if !bitOf (leAt data 0 16) 44 || slotKey data != c.nodeKey then (d, c.bad stRange)
    else if (d.nodeOf c.nodeKey).isSome then
      let d := d.writeNode c.die1 c.nodeKey data
      (d, c.ok (d.nodePlace c.nodeKey))
    else d.writeNew c data))

/-- NODE_DELETE: deletes the resident and cold entries (Table 11-8). -/
def execNodeDelete (id : Nat) (s : State) : Answer :=
  run s (fun d => d.runCmd 0x0103 id false nodeRange (fun d c =>
    if (d.nodeOf c.nodeKey).isNone then (d, c.bad stRange 1)
    else ((d.deleteNode c.nodeKey).showPlan, c.ok)))

/-- NODE_PIN: PIN, MPIN, and with SET_MAP the map with MAP_NEW (Table 11-8). -/
def execNodePin (id : Nat) (s : State) : Answer :=
  run s (fun d => d.runCmd 0x0104 id false nodeRange (fun d c =>
    if (d.nodeOf c.nodeKey).isNone then (d, c.bad stRange 1)
    else
      let f := c.par 30 1
      (d.setNode c.nodeKey (fun e => { e with
        pin := bitOf f 0
        det := { e.det with
          mpin := bitOf f 1
          map := if bitOf f 2 then c.par 32 2 % 4096 else e.det.map
          mapNew := bitOf f 2 || e.det.mapNew } }), c.ok)))

/-! ## Whole tables -/

/-- The records of a table with their buckets, in bucket order, each record in its octets. -/
def Route.dump (r : Route) (table : Nat) : List (Nat × List Byte) :=
  let l : List (Nat × List Byte) := match table with
    | 0 => r.nodes.map (fun (e : NodeEnt) => (e.pos, e.bytes false))
    | 1 => r.cold.map (fun (e : NodeEnt) => (e.pos, e.coldBytes))
    | _ => r.fwd.map (fun (e : FwdEnt) => (e.pos, e.bytes))
  (l.foldl (fun (a : List (Nat × List Byte)) x => a.takeWhile (fun y => y.1 < x.1) ++ [x] ++ a.dropWhile (fun y => y.1 < x.1)) []).map
    (fun x => (x.1 / (if table == 1 then 8 else 4), x.2))

/-- Whole buckets from a cursor as far as `cnt` records allow: the octets and the next cursor. -/
def takeBuckets (cnt : Nat) (l : List (Nat × List Byte)) : List Byte × Nat :=
  let taken := l.take cnt
  match l.drop cnt with
  | [] => (taken.flatMap (fun x => x.2), 0xFFFFFFFF)
  | x :: _ => ((taken.filter (fun y => y.1 != x.1)).flatMap (fun y => y.2), x.1)

/-- TABLE_DUMP's record sizes. -/
def dumpSize : Nat → Nat
  | 0 => 96
  | 1 => 128
  | _ => 32

/-- TABLE_DUMP: records from a bucket cursor onward, a consistent view in one event (Table 11-8, R333). -/
def execTableDump (id : Nat) (dmaErr : Bool) (s : State) : Answer :=
  runHost s (fun h d => d.runCmdH h 0x0105 id dmaErr (fun _ c =>
      if 2 < c.par 24 1 || c.len < c.cnt * dumpSize (c.par 24 1) then some 0 else none) (fun _ d c =>
    let t := takeBuckets c.cnt (((d.route c.die1).dump (c.par 24 1)).filter (fun x => c.par 28 4 ≤ x.1))
    (d, c.ok t.2, t.1)))

/-- TABLE_REHASH: the table rehash activity with its maintenance token; the migration's first bucket is due (R318, R525). -/
def execTableRehash (id : Nat) (s : State) : Answer :=
  run s (fun d => d.runCmd 0x0106 id false (fun _ c => if 1 < c.par 24 1 then some 0 else none) (fun d c =>
    let die := c.die1
    let t := c.par 24 1
    let seed := c.par 28 4
    d.cmdToken c 3 (dieScope die) t (fun d =>
      let d := if t == 0 then (d.w F.NTB.SEED_NEW_SEED seed die).w F.NTB.REHASH_POS_POS 0 die else d.w F.FWD.SEED_NEW_SEED seed die
      ((d.setRoute die (fun r => { r with
        mig := r.mig ++ [⟨t, seed, 0, c.id, 0, false⟩], int := r.int ++ [.migrate t 0] })).showLanes die, c.later))))

/-! ## Forwarding commands -/

/-- Whether a ninth distinct prefix length would result: the length list holds eight (R321). -/
def lensFull (l : List FwdEnt) (e : FwdEnt) : Bool :=
  e.kind == 2 && !(plens l).contains e.plen && 8 ≤ (plens l).length

/-- Add entries in order on one die, stopping at the first failure: how many were added and the cause. -/
def Dev.fwdAdd (d : Dev) (die : Nat) : List (List Byte) → Nat → Dev × Nat × Nat × Bool
  | [], n => (d, n, 0, true)
  | b :: bs, n =>
    let e : FwdEnt := { FwdEnt.ofBytes b with static := true, age := d.fwdAgeLow die }
    if 2 < e.kind || e.kind == 1 || 128 < e.plen then (d, n, 0, false)
    else if lensFull (d.route die).fwd e then (d, n, 4, false)
    else
      let i := d.insertFwd die e
      if i.2 then i.1.fwdAdd die bs (n + 1) else (i.1.rehashReq die 1 1, n, 3, false)

/-- FWD_ADD on one addressed Route die, with the reply so far: UNIT_DOWN for a die that is down (Table 11-8). -/
def Dev.fwdAddOn (recs : List (List Byte)) (a : Dev × Reply) (die : Nat) : Dev × Reply :=
  if !a.1.dieUp die then (a.1, { a.2 with tryM := putBit a.2.tryM (die - 1) true, fail := if a.2.fail == 0 then stDown else a.2.fail })
  else
    let r := a.1.fwdAdd die recs 0
    (r.1, { a.2 with
      tryM := putBit a.2.tryM (die - 1) true
      okM := if r.2.2.2 then putBit a.2.okM (die - 1) true else a.2.okM
      fail := if a.2.fail == 0 && !r.2.2.2 then stRange else a.2.fail
      result := if r.2.2.2 && a.2.fail != 0 then a.2.result else r.2.1 * 65536 + r.2.2.1 })

/-- FWD_ADD: inserts static entries (Table 11-8, R321). -/
def execFwdAdd (id : Nat) (dmaErr : Bool) (s : State) : Answer :=
  run s (fun d => d.runCmd 0x0107 id dmaErr (fun _ c => if c.len != 32 * c.cnt then some 0 else none) (fun d c =>
    let recs := (List.range c.cnt).map (fun i => sliceB (c.buf s.host c.len) (32 * i) 32)
    (([1, 2] : List Nat).filter (fun die => bitOf c.target (die - 1))).foldl (Dev.fwdAddOn recs) (d, { tryM := 0, okM := 0 })))

/-- FWD_DELETE: deletes the entries whose keys match the records (Table 11-8); DEV entries are the captain's alone (R325). -/
def execFwdDelete (id : Nat) (dmaErr : Bool) (s : State) : Answer :=
  run s (fun d => d.runCmd 0x0108 id dmaErr (fun _ c => if c.len != 32 * c.cnt then some 0 else none) (fun d c =>
    let recs := (List.range c.cnt).map (fun i => FwdEnt.ofBytes (sliceB (c.buf s.host c.len) (32 * i) 32))
    d.perDie c (fun d die => (d.deleteFwd die (fun e => e.kind != 1 && recs.any (fun r => r.same e)), 0))))

/-- FWD_FLUSH: deletes learned entries, all or those on a port (Table 11-8). -/
def execFwdFlush (id : Nat) (s : State) : Answer :=
  run s (fun d => d.runCmd 0x0109 id false (fun _ c => if 1 < c.par 24 1 || (c.par 24 1 == 1 && 31 < c.par 25 1) then some 0 else none)
    (fun d c => d.perDie c (fun d die =>
      (d.deleteFwd die (fun e => e.kind == 0 && !e.static && (c.par 24 1 == 0 || (e.dest == 0 && e.port == c.par 25 1))), 0))))

/-! ## Queues -/

/-- A queue record's fields (Table 13-1) over a queue's own state. -/
def Queue.ofRec (q : Queue) (b : List Byte) : Queue :=
  let w := leAt b 0 2
  let r := leAt b 4 4
  { q with
    port := bitsOf w 0 5, cls := bitsOf w 5 3, en := bitOf w 8, shp := bitOf w 9, weight := leAt b 2 2,
    mant := bitsOf r 0 12, exp := bitsOf r 12 5, burst := leAt b 8 2, qlim := leAt b 10 2, ylim := leAt b 12 2 }

/-- A queue's record in octets. -/
def Queue.record (q : Queue) : List Byte :=
  toLE 2 (q.port % 32 + q.cls % 8 * 32 + flag q.en 8 + flag q.shp 9) ++ toLE 2 q.weight ++ toLE 4 (q.mant % 4096 + q.exp % 32 * 4096) ++
    toLE 2 q.burst ++ toLE 2 q.qlim ++ toLE 2 q.ylim ++ toLE 2 0

/-- Whether the queue map names a queue (R370). -/
def Dev.mapped (d : Dev) (die n : Nat) : Bool :=
  (List.range 256).any (fun i =>
    d.g F.SCH.QMAP_BASE die 0 i ≤ n && n < d.g F.SCH.QMAP_BASE die 0 i + d.g F.SCH.QMAP_N die 0 i)

/-- Whether a queue record is refused (R368). -/
def Dev.queueBad (d : Dev) (die n : Nat) (b : List Byte) : Bool :=
  let old := d.queue die n
  let q := old.ofRec b
  let fmt := leAt b 0 2 / 1024 != 0 || leAt b 4 4 / 131072 != 0 || leAt b 14 2 != 0 || 20 < q.exp || 1023 < q.weight
  let use := d.mapped die n
  fmt || (q.en && (q.weight == 0 || q.qlim == 0 || q.qlim < q.ylim || portOwner q.port != die || (q.shp && (q.mant == 0 || q.burst == 0)))) ||
    ((q.port != old.port || q.cls != old.cls) && (use || !old.pkts.isEmpty)) || (!q.en && use)

/-- Apply records from a first index, stopping at the first refused: how many were applied (R9, R395). -/
def applyRecs (ok : Dev → Nat → List Byte → Option Dev) : List (List Byte) → Nat → Dev → Nat → Dev × Nat × Bool
  | [], _, d, n => (d, n, true)
  | b :: bs, i, d, n =>
    match ok d i b with
    | some d => applyRecs ok bs (i + 1) d (n + 1)
    | none => (d, n, false)

/-- The 16-octet records of a command's buffer. -/
def Cmd.recs (c : Cmd) (h : List Host.Cell) (size : Nat) : List (List Byte) :=
  (List.range c.cnt).map (fun i => sliceB (c.buf h c.len) (size * i) size)

/-- The range check of a command over queues: records of `size` octets for COUNT queues from FIRST. -/
def queueRange (size : Nat) (_ : Dev) (c : Cmd) : Option Nat :=
  if 16384 < c.par 24 2 + c.cnt || (size != 0 && c.len != size * c.cnt) then some 0 else none

/-- Apply one queue record; a queue whose EN becomes 0 holds nothing. Shaper fields go live at the next refill (R368, R380). -/
def Dev.queueSet (d : Dev) (die n : Nat) (b : List Byte) : Option Dev :=
  if d.queueBad die n b then none
  else
    let d := (d.setQueue die n (fun q => q.ofRec b)).showSch die
    some (if (d.queue die n).en then d else d.flushQueue die n)

/-- QUEUE_SET: applies queue records (Table 13-4). -/
def execQueueSet (id : Nat) (dmaErr : Bool) (s : State) : Answer :=
  run s (fun d => d.runCmd 0x0201 id dmaErr (queueRange 16) (fun d c =>
    let r := applyRecs (fun d n b => d.queueSet c.die1 n b) (c.recs s.host 16) (c.par 24 2) d 0
    (r.1, if r.2.2 then c.ok r.2.1 else c.bad stRange r.2.1)))

/-- QUEUE_READ's 32 octets of a queue. -/
def Queue.read (q : Queue) : List Byte :=
  q.record ++ toLE 2 q.depth ++ toLE 4 (ofSigned 32 (q.credit.fdiv 256)) ++ toLE 4 q.tail ++ toLE 4 q.yel ++ toLE 2 0

/-- QUEUE_READ: the live record, depth, credit and drops of each queue (Table 13-4). -/
def execQueueRead (id : Nat) (dmaErr : Bool) (s : State) : Answer :=
  runHost s (fun h d => d.runCmdH h 0x0202 id dmaErr (queueRange 32) (fun _ d c =>
    (d, c.ok, (List.range c.cnt).flatMap (fun i => (d.queue c.die1 (c.par 24 2 + i)).read))))

/-- QUEUE_FLUSH: drops every packet in the queues (Table 13-4). -/
def execQueueFlush (id : Nat) (s : State) : Answer :=
  run s (fun d => d.runCmd 0x0203 id false (queueRange 0) (fun d c =>
    (d.each ((d.route c.die1).queues.filter (fun q => q.num < 16384 && c.par 24 2 ≤ q.num && q.num < c.par 24 2 + c.cnt))
      (fun d q => d.flushQueue c.die1 q.num), c.ok)))

/-! ## Meters -/

/-- A meter record from its octets (Table 13-3). -/
def Meter.ofRec (b : List Byte) : Meter :=
  { en := bitOf (leAt b 11 1) 0, aware := bitOf (leAt b 11 1) 1, cir := leAt b 0 4, pir := leAt b 4 4, cbs := leAt b 8 3, pbs := leAt b 12 3 }

/-- The size of a POLICER_SET kind's index range (Tables 13-2 and 13-4). -/
def meterCount : Nat → Nat
  | 0 => 256
  | 1 => 4096
  | 2 => 4096
  | 3 => 64
  | 4 => 4096
  | _ => 0

/-- Whether a meter record is refused (R385); `full` is the full population configuration. -/
def meterBad (kind : Nat) (full : Bool) (b : List Byte) : Bool :=
  let m := Meter.ofRec b
  let two := !(kind == 3 && full)
  4 ≤ leAt b 11 1 || leAt b 15 1 != 0 ||
    (m.en && (m.cbs < 2048 || (two && (m.pir == 0 || m.pir < m.cir || m.pbs < 2048))))

/-- Token counts carry over, clamped to the new bursts; a disabled meter keeps no state (R385, R386). -/
def Dev.clampBuckets (d : Dev) (die kind i : Nat) (m : Meter) : Dev :=
  let mine := fun (k : Nat) =>
    if kind == 3 then k / 2 ^ 20 == 3 && (d.route die).nodes.any (fun e => e.detail == k % 2 ^ 20 &&
      bitOf (kvGet 0 (d.route die).profiles e.key.tenant) 6 && kvGet 0 (d.route die).profiles e.key.tenant % 64 == i)
    else k == kind * 2 ^ 20 + i
  d.setRoute die (fun r => { r with
    buckets := if m.en then mapIf (fun x => mine x.1) (fun x => (x.1, { x.2 with tc := min x.2.tc (m.cbs * 65536), tp := min x.2.tp (m.pbs * 65536) })) r.buckets
      else r.buckets.filter (fun x => !mine x.1) })

/-- Meters that are full are written down with their full counts before a record changes what full means (R383, R386). -/
def Dev.pinFull (d : Dev) (die : Nat) (ks : List Nat) (m : Meter) : Dev :=
  if !m.en then d
  else d.setRoute die (fun r => { r with
    buckets := r.buckets ++ (ks.filter (fun k => !r.buckets.any (fun b => b.1 == k))).map (fun k => (k, ⟨m.cbs * 65536, m.pbs * 65536, d.evTime⟩)) })

/-- The node meters of the tenants that satisfy a test, by their keys. -/
def Dev.nodeMeters (d : Dev) (die : Nat) (f : Nat → Bool) : List Nat :=
  ((d.route die).nodes.filter (fun e => f e.key.tenant)).map (fun e => 3 * 2 ^ 20 + e.detail)

/-- Apply one POLICER_SET record (Table 13-4, R385, R386). -/
def Dev.meterSet (d : Dev) (die kind i : Nat) (b : List Byte) : Option Dev :=
  if kind == 4 then
    if 64 ≤ leAt b 0 1 || 2 ≤ leAt b 1 1 || leAt b 2 14 != 0 then none
    else
      let pr := kvGet 0 (d.route die).profiles i
      let d := if bitOf pr 6 then d.pinFull die (d.nodeMeters die (fun t => t == i)) (d.meter die 3 (pr % 64)) else d
      some (d.setRoute die (fun r => { r with profiles := kvSet 0 r.profiles i (leAt b 0 1 + 64 * leAt b 1 1) }))
  else if meterBad kind (d.boot.popRunning != 0) b then none
  else
    let ks := if kind == 3 then d.nodeMeters die (fun t => bitOf (kvGet 0 (d.route die).profiles t) 6 && kvGet 0 (d.route die).profiles t % 64 == i)
      else [kind * 2 ^ 20 + i]
    some (((d.pinFull die ks (d.meter die kind i)).setMeter die kind i (Meter.ofRec b)).clampBuckets die kind i (Meter.ofRec b))

/-- POLICER_SET on one addressed Route die, with the reply so far (Table 13-4). -/
def Dev.policerSetOn (host : List Host.Cell) (c : Cmd) (a : Dev × Reply) (die : Nat) : Dev × Reply :=
  if !a.1.dieUp die then (a.1, { a.2 with tryM := putBit a.2.tryM (die - 1) true, fail := if a.2.fail == 0 then stDown else a.2.fail })
  else
    let r := applyRecs (fun d i b => d.meterSet die (c.par 24 1) i b) (c.recs host 16) (c.par 26 2) a.1 0
    (r.1, { a.2 with
      tryM := putBit a.2.tryM (die - 1) true
      okM := if r.2.2 then putBit a.2.okM (die - 1) true else a.2.okM
      fail := if a.2.fail == 0 && !r.2.2 then stRange else a.2.fail
      result := if r.2.2 && a.2.fail != 0 then a.2.result else r.2.1 })

/-- POLICER_SET: applies meter records on each addressed die, stopping at the first refused (Table 13-4). -/
def execPolicerSet (id : Nat) (dmaErr : Bool) (s : State) : Answer :=
  run s (fun d => d.runCmd 0x0204 id dmaErr (fun _ c =>
      if 4 < c.par 24 1 || meterCount (c.par 24 1) < c.par 26 2 + c.cnt || c.len != 16 * c.cnt then some 0 else none) (fun d c =>
    (([1, 2] : List Nat).filter (fun die => bitOf c.target (die - 1))).foldl (Dev.policerSetOn s.host c) (d, { tryM := 0, okM := 0 })))

/-- SAMPLE_READ: the last samples of each queue (Table 13-4). With both dies addressed one buffer takes both dies' octets, and which die's
stand is a free value. -/
def execSampleRead (id : Nat) (dmaErr : Bool) (s : State) : Answer :=
  runHost s (fun h d => d.runCmdH h 0x0205 id dmaErr (queueRange 8) (fun _ d c =>
    let dies := ([1, 2] : List Nat).filter (fun die => bitOf c.target (die - 1) && d.dieUp die)
    let r := d.perDie c (fun d _ => (d, 0))
    let pick := d.freshNat
    let die := dies.getD (pick.1 % dies.length) 1
    (if dies.length == 2 then pick.2 else d, r.2, if dies.isEmpty then [] else (List.range c.cnt).flatMap (fun i =>
      let q := d.queue die (c.par 24 2 + i)
      toLE 4 q.smpDepth ++ toLE 4 q.smpSoj))))

/-! ## Lineup loads -/

/-- The staged list of a lineup, by entry number (R388). -/
def Route.stagedList (r : Route) (n : Nat) : List (Nat × Nat) :=
  (List.range n).map (fun i => (bitsOf (kvGet 0 r.lupStage i) 0 8, bitsOf (kvGet 0 r.lupStage i) 16 32))

end Sys2Proof.Machine
end

