-- ==== Sys2Proof/Machine/AirAccess.lean ====
section
/-! DEFINITION. Meanings of the air access family: superframes, slots, beacons, node frames, listen slots, wake-up calls, the slot planner,
legacy association and neighbours (R226 to R261). -/

namespace Sys2Proof.Machine
open Sys2Proof

/-! ## Boundaries and re-phasing (R226 to R228, R257, R258) -/

/-- The chains in use for beacons: C of the last commit less the enabled chains that have failed, at least 1 (R231, Table 9-9). -/
def Dev.bcnChains (d : Dev) (air : Nat) : Nat :=
  max 1 ((d.airD air).chainsC - ((List.range 4).filter (fun c => bitOf (d.g F.TXB.ASSIGN_CHAIN_EN air) c && d.txState (air + 2) c == 7)).length)

/-- T_sf in ns. -/
def Dev.sfNs (d : Dev) (air : Nat) : Nat := d.sfSlots air * slotUs (d.g F.AMC.SF_CFG_SLOT air) * 1000

/-- The number of the superframe whose PTP start is nearest to now, with ALIGN 1 (R228). -/
def Dev.ptpSf (d : Dev) (air : Nat) : Nat :=
  let t := max 1 (d.sfNs air)
  (d.ptpNow + t / 2 - d.g F.AMC.SF_PHASE_US air * 1000) / t % 2 ^ 32

/-- A boundary error: at most 1 ms is slewed; a larger one makes the air MAC fall silent until the new boundary, which starts the superframe
with the number given (R257, R258). While a re-phase waits for its boundary, a later error moves that boundary and is no further re-phase. -/
def Dev.realign (d : Dev) (air : Nat) (err : Int) (next num : Nat) : Dev :=
  if err.natAbs ≤ 1000 * tickUs then d.setAir air (fun a => { a with slew := err, rephase := none })
  else
    let again := (d.airD air).rephase.isSome
    let d := d.setAir air (fun a => { a with rephase := some (next, num), slew := 0 })
    if again then d else (d.inc C.AMC.REPHASE air).raise E.AMC.REPHASE air

/-- A TIME_STEP at an air MAC with ALIGN 1: the error between the running boundaries and those of the new PTP time (R258). -/
def Dev.stepAlign (d : Dev) (air : Nat) : Dev :=
  if d.g F.AMC.SF_CFG_ALIGN air != 1 || !(d.airD air).running then d
  else
    let t := max 1 (d.sfNs air)
    let ph := d.g F.AMC.SF_PHASE_US air * 1000
    let x := (d.ptpNow + t - ph % t) % t
    let y := (d.time.lt - (d.airD air).sfStart) * 25 / 8 % t
    let e : Int := (y : Int) - x
    let e := if (t : Int) < 2 * e then e - t else if 2 * e < -(t : Int) then e + t else e
    let toNext := (t - x) * 8 / 25
    d.realign air (e * 8 / 25) (d.time.lt + toNext) (((d.ptpNow - ph) / t + 1) % 2 ^ 32)

/-- An AMC commit goes live, with the beacon geometry of its settings (R227, R231). -/
def Dev.amcLive (d : Dev) (air : Nat) : Dev :=
  let p : Page := ⟨.AMC, air, 0⟩
  match d.pendingCommit p with
  | none => d
  | some pc =>
    let d := ((d.liveFrom p pc.snap).commitDone p).setAir air (fun a => { a with chainsC := a.chainsN })
    let g := bcnGeom air (d.bcnOn air).length (d.airD air).chainsC (d.slotLen air)
    (d.w F.AMC.BCN_STAT_ROUNDS g.1 air).w F.AMC.BCN_STAT_B g.2 air

/-- The selected neighbour entry in registers (Table 9-10). -/
def Dev.showNbr (d : Dev) (air : Nat) : Dev :=
  let a := d.airD air
  let none_ : Nbr := ⟨0, 0, false, 0, 0, 0, 0, 0, [], 0, 0⟩
  let n := a.nbrs.getD (d.g F.AMC.NBR_SEL_IDX air) none_
  let t : Int := max 1 (d.sfLen air)
  let o := ((n.start : Int) - a.sfStart) % t
  let o := (if t < 2 * o then o - t else o) / 320
  let d := ((((d.w F.AMC.NBR_TAG_TAG n.tag air).w F.AMC.NBR_INFO_STATE n.state air).w F.AMC.NBR_INFO_ALIGNED (b2n n.aligned) air).w
    F.AMC.NBR_INFO_MISSED (min 15 n.missed) air).w F.AMC.NBR_INFO_SNR (ofSigned 8 n.snr) air
  let d := ((d.w F.AMC.NBR_GEOM_SLOT n.slotCode air).w F.AMC.NBR_GEOM_LEN n.len air).w F.AMC.NBR_GEOM_BSLOTS n.bslots air
  let d := d.w F.AMC.NBR_OFS_OFS (if n.state == 0 then 0 else ofSigned 32 o) air
  d.each (List.range 8) (fun d m => (d.w F.AMC.NBR_CH_CH (n.chans.getD m 0) air 0 m).w F.AMC.NBR_CH_VALID (b2n (m < n.chans.length)) air 0 m)

/-! ## Beacons (R231, R233, Table 9-2) -/

/-- A beacon's PSDU for entry `k`, with its first sample `ofs` µs after the superframe start. -/
def Dev.bcnPsdu (d : Dev) (air k ofs : Nat) : List Byte :=
  let st := d.g F.TIM.DISC_STAT_STATE
  let ali := d.g F.AMC.SF_CFG_ALIGN air == 1 && (st == 2 || st == 3)
  let leg := (List.range 8).any (fun i => d.on F.AMC.LEG_PAN_EN air 0 i)
  let p := toLE 1 0 ++ toLE 1 (flag ali 2 + flag leg 3) ++ toLE 4 (d.g F.AMC.BR_TAG_TAG air) ++
    toLE 2 (d.g F.AMC.SF_NUM_NUM air % 65536) ++ toLE 2 ofs ++
    toLE 2 (d.g F.AMC.SF_CFG_SLOT air + d.g F.AMC.SF_CFG_LEN air * 8) ++
    toLE 2 (d.g F.AMC.CONT_CFG_FIRST air + (d.bcnSlots air - 1) % 16 * 4096) ++
    toLE 2 (d.g F.AMC.CONT_CFG_COUNT air + k * 4096 + (air - 3) * 32768)
  p ++ toLE 2 (fcs16 p)

/-- Plan a superframe's beacons in their rounds; one whose round does not fit the beacon slots is missed (R231, R233, Table 9-9). -/
def Dev.planBeacons (d : Dev) (air : Nat) : Dev :=
  if d.mode != mService then d
  else
    let t0 := (d.airD air).sfStart
    let c := d.bcnChains air
    d.each (d.bcnOn air).zipIdx (fun d e =>
      let o := 500 * tickUs + (e.2 / c) * (bcnTicks air + 200 * tickUs)
      if d.bcnSlots air * d.slotLen air < o + bcnTicks air + 500 * tickUs then d.beaconMissed air e.1
      else (d.planTx air (Tx.of 0 (d.g F.AMC.BCN_CH_CH air 0 e.1) 0 0 (t0 + o) (d.g F.AMC.PWR_BCN air) (d.bcnPsdu air e.1 (o / tickUs)) 0
        (.beacon e.1)) none true).1)

/-! ## Wake-up calls (R247) -/

/-- Schedule the calls that wait in a non-beacon slot. -/
def Dev.planCalls (d : Dev) (air : Nat) : Dev :=
  let a := d.airD air
  if a.slot < d.bcnSlots air then d
  else d.each (a.calls.filter (fun c => !c.sent)) (fun d c =>
    match d.nodeOf ⟨c.tag, c.tenant⟩ with
    | none => d
    | some e =>
      let x : Tx := { Tx.of 2 (d.g F.WUC.CHAN_CH air 0 e.det.wakeIdx) 0 0 (a.slotStart + d.g F.AMC.SLOT_TIME_UL_OFS air * tickUs)
          (d.g F.AMC.PWR_WUC air) [] 0 (.wake c.tag c.tenant) with mode := 3, wakeCode := e.det.wakeCode, wakeIdx := e.det.wakeIdx }
      let r := d.planTx air x (some (d.slotLimit air))
      if r.2 then r.1.setAir air (fun a => { a with
        calls := mapIf (fun y => y.tag == c.tag && y.tenant == c.tenant) (fun y => { y with sent := true }) a.calls })
      else r.1)

/-! ## Superframes and slots -/

/-- The number of the superframe that begins; it counts the superframes of a silence as well (R226, R228, R258, R259). -/
def Dev.nextSf (d : Dev) (air : Nat) : Nat :=
  let a := d.airD air
  match a.rephase with
  | some (_, n) => n
  | none =>
    if d.g F.AMC.SF_CFG_ALIGN air == 1 then d.ptpSf air
    else if a.running then (d.g F.AMC.SF_NUM_NUM air + max 1 ((d.time.lt - a.sfStart) / max 1 (d.sfLen air))) % 2 ^ 32 else 0

/-- Neighbours at a superframe boundary: missed superframes, and hold-off that counts down and ends (R256). -/
def Dev.nbrTick (d : Dev) (air : Nat) : Dev :=
  let now := d.time.lt
  (d.setAir air (fun a => { a with
    nbrs := (a.nbrs.map (fun n => { n with
      missed := (now - n.start) / max 1 n.period - 1
      hold := if n.state == 2 then n.hold - 1 else n.hold })).filter (fun n => !(n.state == 2 && n.hold == 0)) })).showNbr air

/-- The channels on which a node may send in the present slot: those of the assignments that are due in it (R216, R244). -/
def Dev.slotChans (d : Dev) (air : Nat) : List Nat :=
  let due := (d.assignedOn (air - 3)).filter (fun e => e.det.aSlot == (d.airD air).slot && e.det.due (d.g F.AMC.SF_NUM_NUM air))
  (List.range 512).filter (fun c => due.any (fun e => e.det.aCh == c))

/-- The beacon slots of the band named by UPD.CFG.SYNC_BAND end: t_q of a restart that holds its tokens (R571). -/
def Dev.beaconsEnd (d : Dev) (air : Nat) : Dev :=
  if d.on F.UPD.STAT_ACT_BUSY && air == 3 + d.g F.UPD.CFG_SYNC_BAND && (d.airD air).slot == d.bcnSlots air then
    { d with upd := { d.upd with atQ := true } }
  else d

/-- A slot begins: the chains of its acknowledgements are assigned (R216), a receive calibration that a temperature asked for starts (R145), and waiting
calls are scheduled (R247). -/
def Dev.slotBegin (d : Dev) (air : Nat) : Dev :=
  let acks := d.assignAcks air (d.slotChans air)
  let d := d.setAir air (fun a => { a with ackChain := acks })
  let d := d.setBand (air + 2) (fun b => { b with rxCal := if b.rxCal == 2 then 1 else b.rxCal })
  ((d.rxCalKick (air + 2)).planCalls air).beaconsEnd air

/-- SUPERFRAME_BOUNDARY: a superframe begins, AMC commits go live, the beacon rounds are planned, and a slew step is taken;
the duty figures move on with their bins (R226 to R233, R257, R258). Superframe 0 starts at entry into SERVICE (R228). -/
def execSuperframeBoundary (die : Nat) (s : State) : Answer :=
  run s (fun d =>
    if !isAir die || !d.dieUp die || !((d.airD die).running || d.mode == mService || d.mode == mShadow) then d
    else
      let n := d.nextSf die
      let step := d.slewStep die
      let past : SfPast :=
        { start := (d.airD die).sfStart, num := d.g F.AMC.SF_NUM_NUM die, adj := step,
          slots := if (d.airD die).running then (d.airD die).rephase.elim (d.sfSlots die) (fun r => d.lastSlots die r.1) else 0 }
      let d := d.amcLive die
      let d := (d.setAir die (fun a => { a with
        sfStart := d.time.lt, slot := 0, slotStart := d.time.lt, running := true, rephase := none, slew := a.slew - step, past := past })).w
        F.AMC.SF_NUM_NUM n die
      ((((d.nbrTick die).sfEvent die).planBeacons die).slotBegin die).showDuty die)

/-- SLOT_START: a slot begins and its planned transmissions are scheduled (R229, R247); none begins once the superframe has ended for a re-phase (R258
step 1). -/
def execSlotStart (die : Nat) (s : State) : Answer :=
  run s (fun d =>
    let a := d.airD die
    let last := a.rephase.elim (d.sfSlots die) (fun r => d.lastSlots die r.1)
    if !isAir die || !d.dieUp die || !a.running || last ≤ a.slot + 1 then d
    else (d.setAir die (fun a => { a with slot := a.slot + 1, slotStart := d.time.lt })).slotBegin die)

/-! ## Node frames (R230, R238) -/

/-- The family's first sample of a frame before its reference instant, and its end after it (R230). -/
def Dev.natStart (air : Nat) (f : RxFrame) : Nat := f.tref - preSymbols f.family * symTicks air

/-- E of a native frame (R230). -/
def Dev.natEnd (air : Nat) (f : RxFrame) : Nat :=
  f.tref + (3 + dataSymbols f.psdu.length f.rate (mapCbps f.mapWord)) * symTicks air

/-- Of `n` slots of `l` ticks from a base, the one whose start is nearest to `x`, the earlier on a tie: that start and its number. -/
def nearSlot (base l n : Nat) (x : Int) : Int × Nat :=
  let t : Int := max 1 l
  let k := (clampI 0 (n - 1 : Nat) (-((t - 2 * (x - base)) / (2 * t)))).toNat
  (base + k * t, k)

/-- The slot, superframe and arrival offset in µs of a start (R230): the nearest nominal uplink start, the earlier slot on a tie, among the slots of the
superframe before the present one, of the present one, and slot 0 of the next. -/
def Dev.attribute (d : Dev) (air start : Nat) : Nat × Nat × Int :=
  let a := d.airD air
  let l := d.slotLen air
  let n := d.sfSlots air
  let sf := d.g F.AMC.SF_NUM_NUM air
  let x : Int := (start : Int) - d.g F.AMC.SLOT_TIME_UL_OFS air * tickUs
  let now := nearSlot a.sfStart l n x
  let far := fun (p : Int × Nat × Nat) => (x - p.1).natAbs
  let before := nearSlot a.past.start l a.past.slots x
  let best : Int × Nat × Nat :=
    if a.past.slots != 0 && far (before.1, 0, 0) ≤ far (now.1, 0, 0) then (before.1, before.2, a.past.num) else (now.1, now.2, sf)
  let next : Int × Nat × Nat := (d.slotEnd air sf (n - 1), 0, (sf + 1) % 2 ^ 32)
  let r := if far next < far best then next else best
  (r.2.1, r.2.2, roundDiv (x - r.1) tickUs)

/-- Hand a frame to the air lane of its owning Route die: cells of group 0, or a drop (Tables 1-6, 12-2, R362). -/
def Dev.toAirLane (d : Dev) (air : Nat) (a : AirIn) : Dev :=
  let die := a.key.owner
  if !d.dieUp die then d.inc C.AMC.OWNER_DOWN air
  else if 512 ≤ (d.route die).air.length then d.inc C.ING.DROP_AIR die
  else match d.alloc die 0 a.psdu.length with
    | none => d.inc C.ING.BUF_DROP die 0 0
    | some (d, b) => (d.setRoute die (fun r => { r with air := r.air ++ [{ a with buf := b }] })).showLanes die

/-- The frame with its receive descriptor, for a node, in event time. -/
def Dev.airIn (d : Dev) (f : RxFrame) (p : List Byte) (key : NodeKey) (fin : Nat) : AirIn :=
  { band := f.band, ch := f.channel, psdu := p, tref := (f.tref + d.ptOfs) % 2 ^ 64, fin := (fin + d.ptOfs) % 2 ^ 64, snr := f.snr,
    map := f.map, rate := f.rate, recMap := f.recMap, noFit := f.noFit, slot := 0, sf := 0, offs := 0, leg := false, key := key, ext := 0,
    secBad := false, buf := 0, fcs4 := f.fcs == 4 }

/-- A native frame that is no F2 frame: the format check, attribution and the owner's lane (R230, R238). -/
def Dev.rxNative (d : Dev) (air : Nat) (f : RxFrame) : Dev :=
  let p := f.psdu.take (f.psdu.length - 2)
  if !nodeFmtOk f.family p then d.inc C.AMC.FMT_DROP air
  else
    let h := nodeHdr p
    let st := Dev.natStart air f
    let at_ := d.attribute air st
    let due := if h.type == 5 then
        ((d.dlOf air h.key).find? (fun x => x.endAt != 0 && x.fcnt % 65536 == h.ackCtr)).map (fun x =>
          x.endAt + d.g F.AMC.REPLY_CFG_ACK_DELAY air * tickUs)
      else none
    let offs := due.elim at_.2.2 (fun t => roundDiv ((st : Int) - t) tickUs)
    let d := d.inc C.AMC.UL_RX air
    let d := d.when (d.contSlot air at_.1) (fun d => d.inc C.AMC.CONT_RX air)
    d.toAirLane air { d.airIn f p h.key (Dev.natEnd air f) with slot := at_.1, sf := at_.2.1, offs := offs }

/-! ## Legacy frames (R251 to R254) -/

/-- A frame's MAC part without its FCS. -/
def RxFrame.mac (f : RxFrame) : List Byte := f.psdu.take (f.psdu.length - f.fcs)

/-- A held frame has been acknowledged: a response completes the association, a notification frees the address, and data reports its
outcome (R242, R253). -/
def Dev.legAcked (d : Dev) (air : Nat) (h : LegHeld) : Dev :=
  let d := d.setAir air (fun a => { a with held := a.held.filter (fun x => x.id != h.id) })
  match h.kind with
  | 0 => h.dl.elim d (fun f => d.outcome ⟨f.tag, f.tenant⟩ (.acked f.id f.tag f.tenant))
  | 1 =>
    if (d.airD air).leg.any (fun n => n.short == h.short && n.state == 0) then
      (d.setAir air (fun a => { a with leg := mapIf (fun n => n.short == h.short) (fun n => { n with state := 1 }) a.leg })).inc C.AMC.LEG_ASSOC air
    else d
  | _ => ((d.airD air).leg.find? (fun n => n.short == h.short)).elim d (fun n => d.legFree air n)

/-- A legacy frame that is no MAC command: an Imm-Ack completes the held frame it acknowledges; data goes to its node's owner; all else is
outside the subset (R251, R252). -/
def Dev.rxLegacy (d : Dev) (air : Nat) (f : RxFrame) : Dev :=
  let p := f.mac
  match legHdr p with
  | none => d.inc C.AMC.FMT_DROP air
  | some h =>
    if h.type == 2 then
      match (d.airD air).held.find? (fun x => x.onAir && x.seq == h.seq) with
      | some x => d.legAcked air x
      | none => d
    else match h.type == 1, d.legAddressed air f.channel h, d.legOf air h with
      | true, some _, some n =>
        let d := d.when h.ackReq (fun d => d.immAck air f h.seq false)
        d.toAirLane air { d.airIn f p (d.legKeyOf air n) (d.legEnd air f) with leg := true, ext := n.ext, secBad := !h.secOk }
      | _, _, _ => d.inc C.AMC.FMT_DROP air

/-- Whether a frame is an F2 beacon of another border router. -/
def Dev.isNbrBeacon (d : Dev) (air : Nat) (f : RxFrame) : Bool :=
  f.family == 2 && leAt f.psdu 0 1 % 8 == 0 && f.psdu.length == 18 && leAt f.psdu 2 4 != d.g F.AMC.BR_TAG_TAG air

/-- Whether the frame at the head of the air MAC's queue is for a row of its own. -/
def Dev.rxOther (d : Dev) (air : Nat) (f : RxFrame) : Bool :=
  d.isNbrBeacon air f || (4 ≤ f.family && ([1, 3, 4, 7] : List Nat).any (fun c => legCmd f.mac == some c))

/-- Take the frame at the head of the air MAC's queue when a test accepts it. -/
def Dev.takeRx (d : Dev) (air : Nat) (ok : RxFrame → Bool) (body : Dev → RxFrame → Dev) : Dev :=
  match (d.airD air).macIn with
  | [] => d
  | f :: rest => if isAir air && d.dieUp air && ok f then body (d.setAir air (fun a => { a with macIn := rest })) f else d

/-- AIR_MAC_RX: the air MAC reads a decoded frame's header, checks its format and passes it to the owning Route die (R230, R238, R251). -/
def execAirMacRx (die : Nat) (s : State) : Answer :=
  run s (fun d => d.takeRx die (fun f => !d.rxOther die f) (fun d f =>
    if 4 ≤ f.family then d.rxLegacy die f
    else if f.family == 2 then
      match leAt f.psdu 0 1 % 8 with
      | 0 => if f.psdu.length == 18 then d else d.inc C.AMC.FOREIGN die
      | 1 | 2 | 5 => d.inc C.AMC.FMT_DROP die
      | _ => d.inc C.AMC.FOREIGN die
    else d.rxNative die f))

/-- Deliver a MAC command of a node that holds a short address to its owner's sequencer, where it runs next when nothing stands before it (R24); one that
R271 does not allow is dropped there. -/
def Dev.legDeliver (d : Dev) (air : Nat) (f : RxFrame) (h : LegHdr) (n : LegNode) : Dev :=
  let k := d.legKeyOf air n
  let first := (d.route k.owner).air.isEmpty
  let d := d.toAirLane air { d.airIn f f.mac k (d.legEnd air f) with leg := true, ext := n.ext, secBad := !h.secOk }
  if first && (d.route k.owner).air.length == 1 && d.mayPlace k.owner 0 then d.airEvent k.owner {} else d

/-- LEG_ASSOC_REQUEST: the request is acknowledged, the lowest free short address is allocated and the response is held (R253). A node whose association
is complete sends it secured, and its owner verifies it (R24, R271); of one that is not, a secured request is verified under the PAN's tenant. -/
def execLegAssocRequest (die : Nat) (s : State) : Answer :=
  run s (fun d => d.takeRx die (fun f => 4 ≤ f.family && legCmd f.mac == some 1) (fun d f =>
    match legHdr f.mac with
    | none => d
    | some h =>
      match d.legAddressed die f.channel h with
      | none => d.inc C.AMC.FMT_DROP die
      | some k =>
        if h.sMode != 3 then d.inc C.AMC.FMT_DROP die
        else match (d.airD die).leg.find? (fun n => n.ext == h.src && n.state == 1) with
          | some n => (d.immAck die f h.seq false).legDeliver die f h n
          | none =>
            if h.sec && !h.secOk then d.inc C.CRY.SEC_DROP 1
            else if h.sec && ((d.root (d.g F.AMC.LEG_PAN_TENANT die 0 k)).bind (fun r => h.openWith r h.src f.mac)).isNone then d.inc C.CRY.MIC_FAIL 1
            else (d.immAck die f h.seq false).legAssociate die h.src k))

/-- LEG_DATA_REQUEST: the Imm-Ack says whether a frame is held; the oldest held frame of the node is sent after CSMA-CA (R251, R252). A secured request, and
any of a node whose association is complete, goes to the node's owner, which verifies it first (R24, R271). -/
def execLegDataRequest (die : Nat) (s : State) : Answer :=
  run s (fun d => d.takeRx die (fun f => 4 ≤ f.family && legCmd f.mac == some 4) (fun d f =>
    match legHdr f.mac with
    | none => d
    | some h =>
      if (d.legAddressed die f.channel h).isNone then d.inc C.AMC.FMT_DROP die
      else
        let a := d.immAck die f h.seq (d.legHeldFor die h).isSome
        match d.legOf die h with
        | some n => if h.sec || n.state == 1 then a.legDeliver die f h n else a.legFetch die f.channel h
        | none => if h.sec then d.inc C.CRY.SEC_DROP 1 else a.legFetch die f.channel h))

/-- LEG_DISASSOC_NOTIFY: a notification goes to the node's owner; verified there, it frees the address and deletes the node's entries (R24, R253, R271). -/
def execLegDisassocNotify (die : Nat) (s : State) : Answer :=
  run s (fun d => d.takeRx die (fun f => 4 ≤ f.family && legCmd f.mac == some 3) (fun d f =>
    match legHdr f.mac with
    | none => d
    | some h =>
      match d.legAddressed die f.channel h, d.legOf die h with
      | some _, some n => (d.when h.ackReq (fun d => d.immAck die f h.seq false)).legDeliver die f h n
      | _, _ => d.inc C.AMC.FMT_DROP die))

/-- A legacy beacon of a PAN entry (Table 9-8). -/
def Dev.legBeacon (d : Dev) (air k seq : Nat) : List Byte :=
  d.legFcs air (toLE 2 (3 * 2 ^ 14) ++ toLE 1 seq ++ toLE 2 (d.g F.AMC.LEG_PAN_PAN_ID air 0 k) ++ toLE 8 d.cpt.eui64 ++
    toLE 2 (0x4FFF + flag (!d.on F.AMC.LEG_CFG_CLOSED air) 15) ++ toLE 1 0 ++ toLE 1 0)

/-- LEG_BEACON_REQUEST: each enabled PAN of the gang answers with a beacon after CSMA-CA (R251). -/
def execLegBeaconRequest (die : Nat) (s : State) : Answer :=
  run s (fun d => d.takeRx die (fun f => 4 ≤ f.family && legCmd f.mac == some 7) (fun d f =>
    d.each ((List.range 8).filter (fun k => d.on F.AMC.LEG_PAN_EN die 0 k && d.g F.AMC.LEG_GANG_LEADER die 0 k == f.channel)) (fun d k =>
      let q := d.legSeq
      let c := q.2.csmaStart die 0
      (c.1.planTx die (legTx die f.channel c.2 0 (d.g F.AMC.PWR_BCN die) (d.legBeacon die k q.1) .legBeacon) none).1)))

/-- LEG_PERSIST_EXPIRY: a held frame that nothing fetched is dropped (R254); an unfetched response gives its address back, and a notification that
was not fetched frees the address all the same. -/
def execLegPersistExpiry (die id : Nat) (s : State) : Answer :=
  run s (fun d =>
    match (d.airD die).held.find? (fun h => h.id == id) with
    | none => d
    | some h =>
      let d := (d.setAir die (fun a => { a with held := a.held.filter (fun x => x.id != id) })).inc C.AMC.LEG_EXPIRED die
      match h.kind, (d.airD die).leg.find? (fun n => n.short == h.short) with
      | 1, some n => if n.state == 0 then d.legFree die n else d
      | 2, some n => d.legFree die n
      | _, _ => d)

/-! ## Neighbours (R255 to R257) -/

/-- The neighbour that ALIGN 2 follows (R257). -/
def leader (l : List Nbr) : Option Nbr :=
  let heard := l.filter (fun n => n.state == 1)
  let pool := if heard.any (fun n => n.aligned) then heard.filter (fun n => n.aligned) else heard
  pool.foldl (fun (m : Option Nbr) n => match m with
    | none => some n
    | some y => if n.tag < y.tag then some n else some y) none

/-- Follow a neighbour's boundaries: the smaller correction, slewed or re-phased (R257, R258). `num` is its superframe's number. -/
def Dev.followNbr (d : Dev) (air : Nat) (n : Nbr) (num : Nat) : Dev :=
  let a := d.airD air
  if d.g F.AMC.SF_CFG_ALIGN air != 2 || !a.running || !(leader a.nbrs).elim false (fun x => x.tag == n.tag) then d
  else
    let t : Int := max 1 n.period
    let e := ((n.start : Int) - a.sfStart) % t
    let e := if t < 2 * e then e - t else e
    let k := (d.time.lt - n.start) / max 1 n.period + 1
    d.realign air e (n.start + k * n.period)
      (d.g F.AMC.SF_NUM_NUM air / 65536 * 65536 + (num + k) % 65536)

/-- NEIGHBOUR_BEACON: a foreign F2 beacon creates or refreshes a neighbour entry and with it the reservations (R255 to R257). -/
def execNeighbourBeacon (die : Nat) (s : State) : Answer :=
  run s (fun d => d.takeRx die (d.isNbrBeacon die) (fun d f =>
    let p := f.psdu
    let tag := leAt p 2 4
    let old := (d.airD die).nbrs.find? (fun n => n.tag == tag)
    let chans := (old.elim [] (fun n => n.chans))
    let n : Nbr :=
      { tag := tag, state := 1, aligned := bitOf (leAt p 1 1) 2, snr := f.snr, slotCode := bitsOf (leAt p 10 2) 0 3,
        len := bitsOf (leAt p 10 2) 3 12, bslots := bitsOf (leAt p 12 2) 12 4, start := Dev.natStart die f - leAt p 8 2 * tickUs,
        chans := if chans.contains f.channel || 8 ≤ chans.length then chans else chans ++ [f.channel], missed := 0, hold := 0 }
    if old.isNone && 32 ≤ (d.airD die).nbrs.length then (d.inc C.AMC.NBR_FULL die).raise E.AMC.NBR_FULL die
    else
      let d := d.setAir die (fun a => { a with
        nbrs := if old.isSome then mapIf (fun x => x.tag == tag) (fun _ => n) a.nbrs else a.nbrs ++ [n] })
      (d.followNbr die n (leAt p 6 2)).showNbr die))

/-- NEIGHBOUR_LOST: a neighbour not heard for three of its superframes is marked lost and its hold-off begins (R256). -/
def execNeighbourLost (die tag : Nat) (s : State) : Answer :=
  run s (fun d =>
    if !isAir die || !(d.airD die).nbrs.any (fun n => n.tag == tag && n.state == 1) then d
    else ((d.setAir die (fun a => { a with
      nbrs := mapIf (fun n => n.tag == tag) (fun n => { n with state := 2, hold := d.g F.AMC.NBR_CFG_HOLDOFF die }) a.nbrs })).inc
      C.AMC.NBR_LOST die).showNbr die)

/-- NEIGHBOUR_HOLDOFF_EXPIRY: a lost neighbour's reservations and entry are released (R256). -/
def execNeighbourHoldoffExpiry (die tag : Nat) (s : State) : Answer :=
  run s (fun d =>
    if !isAir die then d
    else (d.setAir die (fun a => { a with nbrs := a.nbrs.filter (fun n => !(n.tag == tag && n.state == 2)) })).showNbr die)

/-! ## Downlinks (R241, R242) -/

/-- LISTEN_SLOT_DOWNLINK: a ready downlink is sent at DL_OFS of the node's listen slot, unless the node is DESYNC or the drift check withholds it
(R241, R248, R249, R392). -/
def execListenSlotDownlink (die id : Nat) (s : State) : Answer :=
  run s (fun d =>
    let a := d.airD die
    let start := a.slotStart + d.g F.AMC.SLOT_TIME_DL_OFS die * tickUs
    match a.dl.find? (fun f => f.id == id) with
    | none => d
    | some f =>
      match d.nodeOf ⟨f.tag, f.tenant⟩ with
      | none => d
      | some e =>
        let t := e.det
        let here := t.assigned && t.aBand == die - 3 && t.listen && t.aSlot + 1 == a.slot && t.due (d.g F.AMC.SF_NUM_NUM die)
        if !isAir die || f.leg || f.onAir || !here || t.desync || start < f.readyAt + 100 * tickUs || !d.airGate (die - 3) f.cls start then d
        else if d.driftBeyond die t (start + d.ptOfs) then d.desync die ⟨f.tag, f.tenant⟩
        else
          let r := d.planTx die (Tx.of 3 t.aCh 0 0 start (d.g F.AMC.PWR_DL die) f.psdu f.cls (.downlink id)) (some (d.slotLimit die))
          if r.2 then r.1.setDl die id (fun f => { f with onAir := true, endAt := 0 }) else r.1)

/-- NODE_ACK_MISSING: a unicast downlink gets no node ack; it stays pending, or is dropped after RETRY sends (R242, R249). -/
def execNodeAckMissing (die id : Nat) (s : State) : Answer :=
  run s (fun d =>
    match (d.airD die).dl.find? (fun f => f.id == id && f.endAt != 0) with
    | none => d
    | some f =>
      let k : NodeKey := ⟨f.tag, f.tenant⟩
      let d := d.inc C.AMC.DL_UNACK die
      if d.g F.AMC.REPLY_CFG_RETRY die ≤ f.sends then
        ((d.setAir die (fun a => { a with dl := a.dl.filter (fun x => x.id != id) })).inc C.AMC.DL_EXPIRED die).outcome k (.expired id f.tag f.tenant)
      else (d.setDl die id (fun f => { f with onAir := false, endAt := 0 })).outcome k (.unacked id f.tag f.tenant))

/-! ## The planner (R244, R245) -/

/-- Answer a request with a control element in its reply window: the element is a unicast downlink that stays pending until it is acknowledged
(R240, R242, R245). -/
def Dev.answerIn (d : Dev) (air : Nat) (e : NodeEnt) (root : List Byte) (w : Win) (el : List Byte) : Dev :=
  match d.nextFcnt e.key with
  | none => d.inc C.CRY.DL_WRAP e.key.owner
  | some (d, n) =>
    let die := e.key.owner
    let mic := d.tenMic die e.key.tenant
    let h : DownHdr :=
      { type := 3, micl := mic, enc := true, more := false, ackReq := true, group := false, dst := e.key.tag, tenant := e.key.tenant,
        nh := 15, epoch := e.epoch, fcnt := n, map := e.mapOut, acked := none }
    let p := h.seal root el
    let f : DlFrame :=
      { id := (d.route die).next * 2 + (die - 1), tag := e.key.tag, tenant := e.key.tenant, epoch := e.epoch, fcnt := n, micl := mic, enc := true,
        nh := 15, payload := el, psdu := p, cls := 0, cells := cellsFor p.length, sends := 0, onAir := false,
        readyAt := d.time.lt }
    let d := (d.setRoute die (fun r => { r with next := r.next + 1 })).setAir air (fun a => { a with dl := a.dl ++ [f] })
    if w.start < d.time.lt + 16 * tickUs then d.wkEnd die w.job else d.replyWith air e root w f

/-- Record the planner's decision for a node and send ASSIGN or RELEASE (R244, R245). -/
def Dev.planFor (d : Dev) (air : Nat) (e : NodeEnt) (r : SchedReq) : Dev :=
  let p := d.plan air e r.period r.sf r.listen
  let det := p.getD e.det.unassign
  let d := d.when p.isNone (fun d => d.inc C.AMC.PLAN_FULL air)
  let d := (d.setNode e.key (fun x => { x with det := { x.det with
    assigned := det.assigned, aBand := det.aBand, listen := det.listen, apin := det.apin, aSlot := det.aSlot, aCh := det.aCh,
    aPeriod := det.aPeriod, aPhase := det.aPhase } })).showPlan
  let el := if p.isSome then assignElem det else releaseElem
  match r.win, d.root e.key.tenant, d.nodeOf e.key with
  | some w, some root, some e => d.answerIn air e root w el
  | _, _, _ => d.sendOwn e.key.owner e.key 15 el

/-- SCHED_REQ: the planner chooses a slot and a channel for the request at the head of its queue, or answers RELEASE; in QUIESCE the planner is paused
(R127, R244, R245). While the load map is rebuilt the request waits (Table 9-11). -/
def execSchedReq (die : Nat) (s : State) : Answer :=
  run s (fun d =>
    match (d.airD die).reqs with
    | [] => d
    | r :: rest =>
      if !isAir die || !d.dieUp die || d.act == mQuiesce || (d.airD die).planBlocked then d
      else
        let d := d.setAir die (fun a => { a with reqs := rest })
        match d.nodeOf ⟨r.tag, r.tenant⟩ with
        | none => d
        | some e => d.planFor die e r)

/-! ## Wake-up calls (R247) -/

/-- WAKE_CALL_SCHEDULE: a downlink that is pending for a class W node gets a wake-up call in the next non-beacon slot (R247). A CALLS of 0 disables
calls. -/
def execWakeCallSchedule (die tag tenant : Nat) (s : State) : Answer :=
  run s (fun d =>
    let k : NodeKey := ⟨tag, tenant⟩
    let a := d.airD die
    if !isAir die || d.g F.AMC.WAKE_CFG_CALLS die == 0 || !(d.nodeOf k).elim false (fun e => e.det.classW) ||
        !(d.dlOf die k).any (fun f => !f.called && !f.leg) || a.calls.any (fun c => c.tag == tag && c.tenant == tenant) then d
    else d.setAir die (fun a => { a with
      calls := a.calls ++ [{ tag := tag, tenant := tenant, calls := 0, sent := false }]
      dl := mapIf (fun f => f.tag == tag && f.tenant == tenant) (fun f => { f with called := true }) a.dl }))

/-- WAKE_CALL_NO_ANSWER: RESP slots have passed; the call is sent again, or after the last call the downlink counts as unacknowledged
(R247, R249). -/
def execWakeCallNoAnswer (die tag tenant : Nat) (s : State) : Answer :=
  run s (fun d =>
    match (d.airD die).calls.find? (fun c => c.tag == tag && c.tenant == tenant && c.sent && c.calls != 0) with
    | none => d
    | some c =>
      if c.calls < d.g F.AMC.WAKE_CFG_CALLS die then d.setAir die (fun a => { a with
        calls := mapIf (fun x => x.tag == tag && x.tenant == tenant) (fun x => { x with sent := false }) a.calls })
      else ((d.setAir die (fun a => { a with calls := a.calls.filter (fun x => !(x.tag == tag && x.tenant == tenant)) })).inc
        C.AMC.WAKE_NORESP die).outcome ⟨tag, tenant⟩ (.noCall tag tenant))

/-! ## Commands of Table 9-7 -/

/-- A plan command names a node that is resident on the addressed die. -/
def planRange (d : Dev) (c : Cmd) : Option Nat :=
  match nodeRange d c with
  | some r => some r
  | none => if (d.resident c.nodeKey).isNone then some 0 else none

/-- PLAN_SET's range check: resident, a pair that R244 allows, PHASE below PERIOD (Table 9-7). -/
def planSetRange (d : Dev) (c : Cmd) : Option Nat :=
  match planRange d c with
  | some r => some r
  | none =>
    let ch := c.par 32 2
    let air := bandAir (ch / 32768)
    let listen := bitOf (c.par 38 1) 0
    if 0x0FFF < c.par 30 2 || !d.slotFree air (c.par 30 2) listen || bitsOf ch 9 6 != 0 || !d.chanFree air (c.par 30 2) (ch % 512) ⟨c.par 34 2 + 1, c.par 36 2, listen⟩ ||
        c.par 34 2 < c.par 36 2 then some 0 else none

/-- PLAN_SET: sets the assignment and sends ASSIGN (Table 9-7). While the load map of its band is rebuilt it waits (Table 9-11). -/
def execPlanSet (id : Nat) (s : State) : Answer :=
  run s (fun d => d.runCmd 0x0401 id false planSetRange (fun d c =>
    let f := c.par 38 1
    let ch := c.par 32 2
    let set := fun (t : Detail) => { t with
      assigned := true, aBand := ch / 32768, listen := bitOf f 0, apin := bitOf f 1, aSlot := c.par 30 2, aCh := ch % 512,
      aPeriod := c.par 34 2, aPhase := c.par 36 2 }
    if (d.airD (bandAir (ch / 32768))).planBlocked then (d, c.later)
    else
    let d := (d.setNode c.nodeKey (fun e => { e with det := set e.det })).showPlan
    match d.resident c.nodeKey with
    | some e => (d.sendOwn c.die1 c.nodeKey 15 (assignElem e.det), c.ok)
    | none => (d, c.ok)))

/-- PLAN_CLEAR: releases the assignment and sends RELEASE (Table 9-7). -/
def execPlanClear (id : Nat) (s : State) : Answer :=
  run s (fun d => d.runCmd 0x0402 id false planRange (fun d c =>
    let d := (d.setNode c.nodeKey (fun e => { e with det := e.det.unassign })).showPlan
    (d.sendOwn c.die1 c.nodeKey 15 releaseElem, c.ok)))

/-- PLAN_GET: the node's assignment and state in 16 octets (Table 9-7). -/
def execPlanGet (id : Nat) (dmaErr : Bool) (s : State) : Answer :=
  runHost s (fun h d => d.runCmdH h 0x0403 id dmaErr (fun d c => if c.len != 16 then some 0 else planRange d c) (fun _ d c =>
    match d.resident c.nodeKey with
    | none => (d, c.bad stRange, [])
    | some e =>
      let t := e.det
      (d, c.ok, padTo 16 (toLE 2 t.aSlot ++ toLE 2 (t.aCh + t.aBand * 32768) ++ toLE 2 t.aPeriod ++ toLE 2 t.aPhase ++
        toLE 1 (flag t.listen 0 + flag t.apin 1) ++ toLE 1 (flag t.classP 0 + flag t.classW 1) ++ toLE 1 t.unack ++ toLE 1 (b2n t.desync)))))

/-- DESYNC_CLEAR: clears DESYNC and the unacknowledged count; o_last becomes 0 and t_last the present (Table 9-7). -/
def execDesyncClear (id : Nat) (s : State) : Answer :=
  run s (fun d => d.runCmd 0x0404 id false planRange (fun d c =>
    (d.setNode c.nodeKey (fun e => { e with det := { e.det with desync := false, unack := 0, oLast := 0, tLast := d.evTime } }), c.ok)))

/-- The association that LEG_RELEASE names, with its Air die: the address's range gives the band (R253). -/
def Dev.legShort (d : Dev) (short : Nat) : Option (Nat × LegNode) :=
  let air := if short < 0x7FFF then 3 else 4
  ((d.airD air).leg.find? (fun n => n.short == short)).map (fun n => (air, n))

/-- LEG_RELEASE's range check: an associated address whose node the addressed die owns. -/
def legReleaseRange (d : Dev) (c : Cmd) : Option Nat :=
  match d.legShort (c.par 24 2) with
  | none => some 0
  | some (air, n) => if (d.legKeyOf air n).owner == c.die1 then none else some 0

/-- LEG_RELEASE: a Disassociation Notification with reason 1 is held for the node; the address is freed once it has been fetched or has
expired (R253, Table 9-7). A node with no entry yet has no downlink counter, so its notification takes the first; none can be built once the counter has run
out (R278), nor without the tenant's root, and the address is then freed at once (log 29). -/
def execLegRelease (id : Nat) (s : State) : Answer :=
  run s (fun d => d.runCmd 0x0405 id false legReleaseRange (fun d c =>
    match d.legShort (c.par 24 2) with
    | none => (d, c.bad stRange)
    | some (air, n) =>
      let k := d.legKeyOf air n
      let ctr := if (d.nodeOf k).isSome then d.nextFcnt k else some (d, 1)
      match d.root k.tenant, ctr with
      | none, _ => (d.legFree air n, c.ok)
      | some _, none => ((d.inc C.CRY.DL_WRAP k.owner).legFree air n, c.ok)
      | some root, some (d, fc) =>
        let q := d.legSeq
        let level := d.tenMic k.owner k.tenant + 5
        let h := legHead d.cpt.eui64 3 q.1 (d.g F.AMC.LEG_PAN_PAN_ID air 0 n.pan) 2 n.short true false true ++ toLE 1 (level + 8) ++
          toLE 4 fc ++ toLE 1 legOwnIdx ++ toLE 1 3
        let s := ccmSeal (legKey root n.ext legOwnIdx) (legNonce d.cpt.eui64 fc level) h [0x01#8] (micLen (legMicl level)) true
        (q.2.legHold air 2 n.short n.ext q.1 (d.legFcs air (h ++ s.1 ++ s.2)) none, c.ok)))

end Sys2Proof.Machine
end

