-- ==== Sys2Proof/Machine/Ledger.lean ====
section
/-! DEFINITION. The boot ledger in flash (R115 to R118, Table 5-3) and what LEDGER_SEL shows of it. -/

namespace Sys2Proof.Machine
open Sys2Proof

/-- Records that a ledger sector holds (R115). -/
def sectorRecords : Nat := 512

/-- Bytes 0 to 11 of a record. -/
def LedgerRec.head (r : LedgerRec) : List Byte := toLE 4 0x4C444752 ++ toLE 4 r.seq ++ toLE 1 r.cause ++ toLE 1 r.bank ++ toLE 2 0xFFFF

/-- A ledger record's 128 octets (Table 5-3); FLAGS is stored inverted. -/
def LedgerRec.bytes (r : LedgerRec) : List Byte :=
  r.head ++ toLE 4 (crc32cStd r.head) ++ (List.range 12).flatMap (fun i => toLE 4 (r.steps.getD i 0xFFFFFFFF)) ++ toLE 4 (2 ^ 32 - 1 - r.flags) ++
    toLE 1 r.mode ++ List.replicate 59 0xFF#8

/-- Every record in flash, newest first. -/
def Boot.records (b : Boot) : List LedgerRec := if b.cur == 0 then b.sec0 ++ b.sec1 else b.sec1 ++ b.sec0

/-- The newest valid record: the valid one with the highest SEQ (R115). -/
def Boot.newest (b : Boot) : Option LedgerRec :=
  (b.records.filter (fun r => r.valid)).foldl (fun m r => match m with
    | none => some r
    | some x => if x.seq < r.seq then some r else m) none

/-- Append a record; a full sector makes the other one erased and used (R115). -/
def Boot.append (b : Boot) (r : LedgerRec) : Boot :=
  if b.cur == 0 then
    if b.sec0.length < sectorRecords then { b with sec0 := r :: b.sec0 } else { b with sec1 := [r], cur := 1 }
  else
    if b.sec1.length < sectorRecords then { b with sec1 := r :: b.sec1 } else { b with sec0 := [r], cur := 0 }

/-- The sector that the next record begins is erased, where the one in use is full (R115). -/
def Boot.eraseNext (b : Boot) : Boot :=
  if b.cur == 0 && sectorRecords ≤ b.sec0.length then { b with sec1 := [] }
  else if b.cur != 0 && sectorRecords ≤ b.sec1.length then { b with sec0 := [] }
  else b

/-- Change the record being written, the newest of the sector in use. -/
def Boot.amend (b : Boot) (f : LedgerRec → LedgerRec) : Boot :=
  if b.cur == 0 then { b with sec0 := modAt b.sec0 0 f } else { b with sec1 := modAt b.sec1 0 f }

/-- Show the record that LEDGER_SEL selects; an invalid or absent one reads 0 (Table 5-10). -/
def Dev.showLedger (d : Dev) : Dev :=
  let b := match d.boot.records[d.g F.BTL.LEDGER_SEL_IDX]? with
    | some r => if r.valid then r.bytes else []
    | none => []
  d.each (List.range 32) (fun d k => d.w F.BTL.LEDGER_DATA_D (leAt b (4 * k) 4) 0 0 k)

end Sys2Proof.Machine
end

