-- ==== Sys2Proof/Machine/Eth.lean ====
section
/-! DEFINITION. Meanings of the Ethernet family: receive checks and filter, transmit, link, flow control, timestamps and MDIO
(R399 to R416). -/

namespace Sys2Proof.Machine
open Sys2Proof

/-- A MAC's own state. -/
def Dev.ethP (d : Dev) (n : Nat) : EthPort := d.eth.getD n {}
/-- Change a MAC's own state. -/
def Dev.setEth (d : Dev) (n : Nat) (f : EthPort → EthPort) : Dev := { d with eth := modAt d.eth n f }

/-- Whether a MAC works: its number, its region, no block soft reset in progress. -/
def Dev.ethUp (d : Dev) (n : Nat) : Bool := n < 16 && (d.pageFault ⟨.ETH, 0, n⟩).isNone

/-! ## Link (R401) -/

/-- The local time at which the last octet of a frame that starts now leaves, its preamble of 8 octets counted. -/
def Dev.wireTime (d : Dev) (n octets : Nat) : Nat := d.time.lt + (octets + 8) * 8 * tickUs / max 1 (d.lineRate n)

/-- The frame that a MAC is sending: the last one started, until its last octet has left. -/
def Dev.onWire (d : Dev) (n : Nat) : Option (List Byte) := if d.time.lt < (d.ethP n).wireEnd then (d.ethP n).wire else none

/-- The frame being sent is cut off (R401, Table 17-2): it does not count as sent, and its cells were released when it left the queue. -/
def Dev.ethAbort (d : Dev) (n : Nat) : Dev :=
  match d.onWire n with
  | none => d
  | some f =>
    let d := (d.setEth n (fun e => { e with wire := none })).emit (.ethCut n)
    let p : Page := ⟨.ETH, 0, n⟩
    let less := fun (d : Dev) (c : Ctr) (k : Nat) => { d with rf := { d.rf with ctrs := kvSet 0 d.rf.ctrs (c.key p 0) (d.ctr c 0 n - k) } }
    (less (less d C.ETH.TX_FRAMES 1) C.ETH.TX_OCTETS f.length).inc C.ETH.TX_ABORT 0 n

/-- LINK falls: counted and reported once, and a frame being sent is cut off (R401, R416). -/
def Dev.ethDown (d : Dev) (n : Nat) : Dev :=
  let was := d.on F.ETH.STAT_LINK 0 n
  let d := (d.ethAbort n).w F.ETH.STAT_LINK 0 0 n
  (d.when was (fun d => d.inc C.ETH.LINK_DOWN 0 n)).when (was && d.g F.ETH.MODE_PCS 0 n != 0) (fun d => d.raise E.ETH.LINK_DOWN 0 n)

/-- Show the current step in STAT. -/
def Dev.showStep (d : Dev) (n : Nat) : Dev := d.w F.ETH.STAT_STEP (d.g F.ETH.TX_STEP_STEP 0 n) 0 n

/-- ETH_LINK_UP: lock or synchronisation with no fault; LINK rises unless the port is disabled or in standby (R399, R401, R444). -/
def execEthLinkUp (port : Nat) (s : State) : Answer :=
  run s (fun d =>
    if !d.ethUp port || d.g F.ETH.MODE_PCS 0 port == 0 || bitOf (d.g F.GWY.STANDBY_ETH_PORT) port then d
    else
      let d := ((d.w F.ETH.STAT_LOCK 1 0 port).w F.ETH.STAT_LOCAL_FAULT 0 0 port).w F.ETH.STAT_REMOTE_FAULT 0 0 port
      ((d.w F.ETH.STAT_AN_DONE (b2n (d.g F.ETH.MODE_PCS 0 port == 4)) 0 port).w F.ETH.STAT_LINK 1 0 port).showStep port)

/-- ETH_LINK_DOWN: lock is lost or a fault is signalled; LINK falls and a frame being sent is cut off (R401). -/
def execEthLinkDown (port : Nat) (lock localFault remoteFault : Bool) (s : State) : Answer :=
  run s (fun d =>
    if !d.ethUp port then d
    else
      let d := ((d.w F.ETH.STAT_LOCK (b2n lock) 0 port).w F.ETH.STAT_LOCAL_FAULT (b2n localFault) 0 port).w F.ETH.STAT_REMOTE_FAULT
        (b2n remoteFault) 0 port
      (d.when (!lock) (fun d => d.w F.ETH.STAT_AN_DONE 0 0 port)).ethDown port)

/-! ## Timestamps (R411, R412) -/

/-- The PTP event message in a frame without FCS, if it carries one that a port recognises: its fields as TS_INFO holds them. -/
def Dev.ptpInfo (d : Dev) (n : Nat) (b : List Byte) : Option Nat :=
  let f := EthFrame.ofBytes b
  let msg := fun (p : List Byte) =>
    let t := leAt p 0 1 % 16
    if t ≤ 3 && 34 ≤ p.length then some (t + beAt p 4 1 * 256 + beAt p 30 2 * 65536) else none
  if f.etype == 0x88F7 then (if d.on F.ETH.PTP_CFG_L2 0 n then msg f.body else none)
  else if f.etype == 0x0800 && d.on F.ETH.PTP_CFG_UDP4 0 n then
    let h := 4 * (leAt f.body 0 1 % 16)
    if beAt f.body 9 1 == 17 && beAt f.body (h + 2) 2 == 319 then msg (f.body.drop (h + 8)) else none
  else if f.etype == 0x86DD && d.on F.ETH.PTP_CFG_UDP6 0 n then
    if beAt f.body 6 1 == 17 && beAt f.body 42 2 == 319 then msg (f.body.drop 48) else none
  else none

/-- Show the heads and counts of a port's timestamp FIFOs (Table 14-4). -/
def Dev.showTs (d : Dev) (n : Nat) : Dev :=
  let e := d.ethP n
  let z : TsEnt := ⟨0, 0, 0⟩
  let t := e.txTs.headD z
  let r := e.rxTs.headD z
  let d := (d.w F.ETH.TS_STAT_TX_CNT e.txTs.length 0 n).w F.ETH.TS_STAT_RX_CNT e.rxTs.length 0 n
  let d := ((d.w F.ETH.TX_TS_INFO_MSGTYPE (bitsOf t.info 0 4) 0 n).w F.ETH.TX_TS_INFO_DOMAIN (bitsOf t.info 8 8) 0 n).w F.ETH.TX_TS_INFO_SEQID
    (bitsOf t.info 16 16) 0 n
  let d := ((d.w F.ETH.TX_TS_SEC_LO_S (t.sec % 2 ^ 32) 0 n).w F.ETH.TX_TS_SEC_HI_S (t.sec / 2 ^ 32) 0 n).w F.ETH.TX_TS_NS_NS t.ns 0 n
  let d := ((d.w F.ETH.RX_TS_INFO_MSGTYPE (bitsOf r.info 0 4) 0 n).w F.ETH.RX_TS_INFO_DOMAIN (bitsOf r.info 8 8) 0 n).w F.ETH.RX_TS_INFO_SEQID
    (bitsOf r.info 16 16) 0 n
  ((d.w F.ETH.RX_TS_SEC_LO_S (r.sec % 2 ^ 32) 0 n).w F.ETH.RX_TS_SEC_HI_S (r.sec / 2 ^ 32) 0 n).w F.ETH.RX_TS_NS_NS r.ns 0 n

/-- PTP time adjusted by a signed number of ns: seconds and nanoseconds. -/
def Dev.ptpAdj (d : Dev) (ns : Int) : Nat × Nat :=
  let t := ((d.ptpNow : Int) + ns).toNat
  (t / 1000000000, t % 1000000000)

/-- Take a timestamp into the receive or the transmit FIFO; a full FIFO discards it. A transmit FIFO that becomes non-empty fires its vector
(R411, R412). -/
def Dev.stamp (d : Dev) (n info : Nat) (tx : Bool) : Dev :=
  let e := d.ethP n
  let l := if tx then e.txTs else e.rxTs
  if 16 ≤ l.length then (d.inc C.ETH.TS_OVF 0 n).raise E.ETH.TS_OVF 0 n
  else
    let t := d.ptpAdj (sext 16 (if tx then d.g F.ETH.PTP_LAT_EGR 0 n else d.g F.ETH.PTP_LAT_ING 0 n))
    let x : TsEnt := ⟨info, t.1, t.2⟩
    let d := (d.setEth n (fun e => if tx then { e with txTs := e.txTs ++ [x] } else { e with rxTs := e.rxTs ++ [x] })).showTs n
    d.when (tx && l.isEmpty) (fun d => d.fireVec (48 + n))

/-- TS_POP: the named FIFOs lose their head entries (R412). -/
def execTsPop (port data : Nat) (s : State) : Answer :=
  run s (fun d => d.pageWrite 0 (0x010 + port) 0x0CC true (fun d p =>
    if p.tag != .ETH then d
    else (d.setEth p.inst (fun e => { e with
      txTs := if bitOf data 0 then e.txTs.drop 1 else e.txTs
      rxTs := if bitOf data 1 then e.rxTs.drop 1 else e.rxTs })).showTs p.inst))

/-! ## Flow control (R408 to R410) -/

/-- A MAC Control frame that has been received (R408): PAUSE in MODE 1 or PFC in MODE 2; anything else is dropped. -/
def Dev.macControl (d : Dev) (n opcode enables : Nat) (times : List Nat) : Dev :=
  let mode := d.g F.ETH.FC_CFG_MODE 0 n
  let old := d.g F.ETH.STAT_PAUSED 0 n
  if !d.on F.ETH.FC_CFG_RX_EN 0 n then d.inc C.ETH.RX_CTRL_DROP 0 n
  else if mode == 1 && opcode == 0x0001 then
    (d.w F.ETH.STAT_PAUSED (if times.headD 0 == 0 then 0 else 0xFF) 0 n).inc C.ETH.RX_PAUSE 0 n
  else if mode == 2 && opcode == 0x0101 then
    let next := (bitList 8 enables).foldl (fun m c => putBit m c (times.getD c 0 != 0)) old
    (d.w F.ETH.STAT_PAUSED next 0 n).inc C.ETH.RX_PAUSE 0 n
  else d.inc C.ETH.RX_CTRL_DROP 0 n

/-- ETH_PAUSE_RX: a PAUSE or PFC frame pauses classes for its time in quanta, or ends their pause (R408). -/
def execEthPauseRx (port opcode enables : Nat) (times : List Nat) (s : State) : Answer :=
  run s (fun d => if !d.ethUp port || !d.on F.ETH.STAT_LINK 0 port then d else d.macControl port opcode enables times)

/-- ETH_PAUSE_EXPIRY: a class's pause has elapsed (R408). -/
def execEthPauseExpiry (port cls : Nat) (s : State) : Answer :=
  run s (fun d => if !d.ethUp port || 8 ≤ cls then d else d.wBit F.ETH.STAT_PAUSED cls false 0 port)

/-- The events in the wired input lane of a port's owning die. -/
def Dev.wiredLane (d : Dev) (port : Nat) : Nat := (d.route (portOwner port)).wired.length

/-- Whether a port sends flow control at all (R410, Table 17-2). -/
def Dev.fcMay (d : Dev) (n : Nat) : Bool :=
  d.ethUp n && d.on F.ETH.STAT_LINK 0 n && d.on F.ETH.FC_CFG_TX_EN 0 n && d.g F.ETH.FC_CFG_MODE 0 n != 0 && d.act != mQuiesce &&
    d.mayRadiate

/-- A port's own unicast address: entry 0. -/
def Dev.ethAddr (d : Dev) (n : Nat) : Nat := d.g F.ETH.UC_HI_A 0 n * 2 ^ 32 + d.g F.ETH.UC_LO_A 0 n

/-- Send a flow-control frame with a pause time (R410). -/
def Dev.sendFc (d : Dev) (n time : Nat) : Dev :=
  let pfc := d.g F.ETH.FC_CFG_MODE 0 n == 2
  let body := if pfc then toBE 2 0x0101 ++ toBE 2 0x00FF ++ (List.range 8).flatMap (fun _ => toBE 2 time) else toBE 2 0x0001 ++ toBE 2 time
  let f := padTo 60 (toBE 6 0x0180C2000001 ++ toBE 6 (d.ethAddr n) ++ toBE 2 0x8808 ++ body)
  (d.emit (.ethFrame n (f ++ toLE 4 (crc32eth f)))).inc C.ETH.TX_PAUSE 0 n

/-- ETH_FC_XOFF: the wired lane has reached XOFF and the MAC sends flow control (R410). -/
def execEthFcXoff (port : Nat) (s : State) : Answer :=
  run s (fun d =>
    if !d.fcMay port || (d.ethP port).xoff || d.wiredLane port < d.g F.ETH.FC_THR_XOFF 0 port then d
    else (d.setEth port (fun e => { e with xoff := true })).sendFc port (d.g F.ETH.FC_CFG_QUANTA 0 port))

/-- ETH_FC_REPEAT: half of QUANTA has elapsed with the lane above XON (R410). -/
def execEthFcRepeat (port : Nat) (s : State) : Answer :=
  run s (fun d =>
    if !d.fcMay port || !(d.ethP port).xoff || d.wiredLane port ≤ d.g F.ETH.FC_THR_XON 0 port then d
    else d.sendFc port (d.g F.ETH.FC_CFG_QUANTA 0 port))

/-- ETH_FC_XON: the lane has fallen to XON; one frame with time 0 goes out (R410). -/
def execEthFcXon (port : Nat) (s : State) : Answer :=
  run s (fun d =>
    if !d.fcMay port || !(d.ethP port).xoff || d.g F.ETH.FC_THR_XON 0 port < d.wiredLane port then d
    else (d.setEth port (fun e => { e with xoff := false })).sendFc port 0)

/-! ## Receive (R402 to R404) -/

/-- Put an event into the wired lane of a Route die, with its cells from a group (Table 12-2, R341, R362). -/
def Dev.toWired (d : Dev) (die group len : Nat) (mk : Nat → WiredIn) : Dev :=
  if !d.dieUp die then d
  else if 1024 ≤ (d.route die).wired.length then d.inc C.ING.DROP_WIRED die
  else match d.alloc die group len with
    | none => d.inc C.ING.BUF_DROP die 0 group
    | some (d, b) => (d.setRoute die (fun r => { r with wired := r.wired ++ [mk b] })).showLanes die

/-- How the address filter takes a destination (R403): 0 drop, 1 to the port's own MAC, 2 to the MAC lookup. -/
def Dev.ethFilter (d : Dev) (n dst : Nat) : Nat :=
  let group := dst / 2 ^ 40 % 2 == 1
  let bridge := d.on F.ETH.MAC_CFG_BRIDGE 0 n
  if !group then
    if (List.range 8).any (fun i => d.on F.ETH.UC_HI_EN 0 n i && d.g F.ETH.UC_HI_A 0 n i * 2 ^ 32 + d.g F.ETH.UC_LO_A 0 n i == dst) then 1
    else if bridge then 2 else 0
  else
    let b := crc32eth (toBE 6 dst) % 256
    let ok := if dst == 2 ^ 48 - 1 then d.on F.ETH.MAC_CFG_BCAST 0 n else bitOf (d.g F.ETH.MC_HASH_B 0 n (b / 32)) (b % 32)
    if !ok then 0 else if bridge then 2 else 1

/-- A frame that has passed the checks of code, FCS and length: MAC Control is acted on and discarded; the filter decides the rest. -/
def Dev.ethAccept (d : Dev) (n : Nat) (frame : List Byte) : Dev :=
  let b := frame.take (frame.length - 4)
  let f := EthFrame.ofBytes b
  if f.etype == 0x8808 then
    let op := beAt f.body 0 2
    d.macControl n op (beAt f.body 2 2) (if op == 1 then [beAt f.body 2 2] else (List.range 8).map (fun i => beAt f.body (4 + 2 * i) 2))
  else
    let k := d.ethFilter n f.dst
    if k == 0 then d.inc C.ETH.RX_FILTERED 0 n
    else if d.act == mQuiesce || d.act == mShadow then d.inc C.ETH.RX_QUIESCE 0 n
    else
      let d := (d.inc C.ETH.RX_FRAMES 0 n).addc C.ETH.RX_OCTETS frame.length 0 n
      let d := if d.on F.ETH.PTP_CFG_RX_EN 0 n then (d.ptpInfo n b).elim d (fun i => d.stamp n i false) else d
      d.toWired (portOwner n) 1 b.length (fun buf => .eth
        { port := n, dev := none, data := b, ip := false, own := k == 1, flood := false, time := d.evTime, cls := none, sub := none, buf := buf })

/-- ETH_FRAME_RX: a received frame is checked in the order of R402, filtered, timestamped, and enters the owning die's wired lane
(R402 to R404, R411). -/
def execEthFrameRx (port : Nat) (frame : List Byte) (codeErr : Bool) (s : State) : Answer :=
  run s (fun d =>
    if !d.ethUp port || !d.on F.ETH.STAT_LINK 0 port then d
    else
      let n := frame.length
      if codeErr then d.inc C.ETH.RX_CODE_ERR 0 port
      else if n < 4 || leAt frame (n - 4) 4 != crc32eth (frame.take (n - 4)) then d.inc C.ETH.RX_FCS_ERR 0 port
      else if n < 64 then d.inc C.ETH.RX_RUNT 0 port
      else if d.g F.ETH.MAC_CFG_MAXLEN 0 port < n then d.inc C.ETH.RX_OVERSIZE 0 port
      else d.ethAccept port frame)

/-! ## Transmit (R405 to R407) -/

/-- ETH_TX_START: the waiting frame starts once its threshold has reached the FIFO and its class is not paused; it is padded, timestamped and
counted (R405, R406, R409, R411). -/
def execEthTxStart (port : Nat) (s : State) : Answer :=
  run s (fun d =>
    match (d.ethP port).tx with
    | none => d
    | some p =>
      if !d.ethUp port || !d.on F.ETH.STAT_LINK 0 port || !d.mayRadiate || d.act == mQuiesce || bitOf (d.g F.ETH.STAT_PAUSED 0 port) p.cls then d
      else
        let short := p.data.length < 60
        let b := if short then padTo 60 p.data else p.data
        let frame := b ++ toLE 4 (crc32eth b)
        let d := (d.setEth port (fun e => { e with tx := none, wire := some frame, wireEnd := d.wireTime port frame.length })).emit (.ethFrame port frame)
        let d := ((d.when short (fun d => d.inc C.ETH.TX_PADDED 0 port)).inc C.ETH.TX_FRAMES 0 port).addc C.ETH.TX_OCTETS frame.length 0 port
        if d.on F.ETH.PTP_CFG_TX_EN 0 port then (d.ptpInfo port b).elim d (fun i => d.stamp port i true) else d)

/-- ETH_TX_UNDERRUN: the FIFO empties before the frame's last octet; the frame ends with the complement of its FCS and the step rises below 7
(R407). At step 7 none occurs. -/
def execEthTxUnderrun (port : Nat) (s : State) : Answer :=
  run s (fun d =>
    let step := d.g F.ETH.TX_STEP_STEP 0 port
    if !d.ethUp port || (d.onWire port).isNone || step == 7 then d
    else
      let d := ((d.setEth port (fun e => { e with wire := none })).emit (.ethUnderrun port)).inc C.ETH.TX_UNDERRUN 0 port
      ((d.w F.ETH.TX_STEP_STEP (step + 1) 0 port).showStep port).raise E.ETH.TX_UNDERRUN 0 port)

/-! ## Management interface (R413) -/

/-- MDIO_CMD: a write with GO runs one transaction and sets BUSY; while BUSY is 1 it is ignored. With CL45 0, OP 0 and 3 are refused (R413). -/
def execMdioCmd (data : Nat) (s : State) : Answer :=
  run s (fun d => d.pageWrite 0 0x010 0x0F4 true (fun d _ =>
    let op := bitsOf data 26 2
    if d.on F.ETH.MDIO_CMD_BUSY || (!bitOf data 28 && (op == 0 || op == 3)) then d
    else
      let d := ((d.w F.ETH.MDIO_CMD_DATA (bitsOf data 0 16)).w F.ETH.MDIO_CMD_REG (bitsOf data 16 5)).w F.ETH.MDIO_CMD_PHYAD (bitsOf data 21 5)
      let d := ((d.w F.ETH.MDIO_CMD_OP op).w F.ETH.MDIO_CMD_CL45 (bitsOf data 28 1)).w F.ETH.MDIO_CMD_GO (bitsOf data 30 1)
      if !bitOf data 30 then d
      else (d.w F.ETH.MDIO_CMD_BUSY 1).emit (.mdio (bitOf data 28) op (bitsOf data 21 5) (bitsOf data 16 5) (d.g F.ETH.MDIO_DEVAD_D)
        (bitsOf data 0 16))))

/-- MDIO_DONE: the transaction completes; a read leaves its data, and BUSY clears (R413). -/
def execMdioDone (data : Nat) (s : State) : Answer :=
  run s (fun d =>
    if !d.on F.ETH.MDIO_CMD_BUSY then d
    else
      let d := (d.w F.ETH.MDIO_CMD_BUSY 0).w F.ETH.MDIO_CMD_GO 0
      d.when (2 ≤ d.g F.ETH.MDIO_CMD_OP) (fun d => d.w F.ETH.MDIO_CMD_DATA data))

end Sys2Proof.Machine
end

