-- ==== Sys2Proof/Machine/Can.lean ====
section
/-! DEFINITION. Meanings of the CAN controllers: filters and receive, the transmit queue, attempts, error confinement, sleep and wake
(R417 to R433). -/

namespace Sys2Proof.Machine
open Sys2Proof

/-! ## Controllers -/

/-- A controller's own state. -/
def Dev.canC (d : Dev) (n : Nat) : CanCtl := d.can.getD n {}
/-- Change a controller's own state. -/
def Dev.setCan (d : Dev) (n : Nat) (f : CanCtl → CanCtl) : Dev := { d with can := modAt d.can n f }

/-- Whether a controller's page works: its number, its region, no block soft reset in progress. -/
def Dev.canUp (d : Dev) (n : Nat) : Bool := n < 32 && (d.pageFault ⟨.CAN, 0, n⟩).isNone

/-- Whether a bus is in standby (R444). -/
def Dev.canStandby (d : Dev) (n : Nat) : Bool := bitOf (d.g F.GWY.STANDBY_CAN_BUS) n

/-- Whether a controller is off, asleep or in standby, as the gateway engine sees it (R437). -/
def Dev.canDown (d : Dev) (n : Nat) : Bool :=
  !d.canUp n || (d.canC n).op == 0 || d.g F.CAN.STAT_ASLEEP 0 n != 0 || d.canStandby n

/-- The operation a controller runs: OPMODE, where mode 1 is mode 2 in QUIESCE (R127, R418) and every mode is bus monitoring in SHADOW (R495); 0
while it sleeps or stands by. -/
def Dev.canMode (d : Dev) (n : Nat) : Nat :=
  if d.canDown n then 0 else if d.outAct == mShadow then 3 else if (d.canC n).op == 1 && d.act == mQuiesce then 2 else (d.canC n).op

/-- Drive STB: high while the controller is off, sleeps with wake on edge or stands by (R433, R444). -/
def Dev.showStb (d : Dev) (n : Nat) : Dev :=
  let asleep := d.g F.CAN.STAT_ASLEEP 0 n
  let high := asleep == 1 || d.canStandby n || (asleep == 0 && (d.canC n).op == 0)
  { d with pins := { d.pins with canStb := putBit d.pins.canStb n high } }.w F.CAN.STAT_STB (b2n high) 0 n

/-! ## Transmit entries -/

/-- An entry; one that is not listed is FREE with octets of zero. -/
def CanCtl.ent (c : CanCtl) (i : Nat) : CanTx := (c.tx.find? (fun x => x.idx == i)).getD { idx := i }

/-- Change an entry. -/
def CanCtl.setEnt (c : CanCtl) (i : Nat) (f : CanTx → CanTx) : CanCtl :=
  { c with tx := c.tx.filter (fun x => x.idx < i) ++ [f (c.ent i)] ++ c.tx.filter (fun x => i < x.idx) }

/-- The identifier, IDE and RTR of an entry. -/
def CanTx.id (x : CanTx) : Nat := leAt x.bytes 0 4 % 2 ^ 29
/-- IDE of an entry. -/
def CanTx.ide (x : CanTx) : Bool := bitOf (leAt x.bytes 0 4) 29
/-- RTR of an entry. -/
def CanTx.rtr (x : CanTx) : Bool := bitOf (leAt x.bytes 0 4) 30
/-- FLAGS of an entry. -/
def CanTx.flags (x : CanTx) : Nat := leAt x.bytes 4 2
/-- FDF of an entry. -/
def CanTx.fdf (x : CanTx) : Bool := bitOf x.flags 4
/-- BRS of an entry. -/
def CanTx.brs (x : CanTx) : Bool := bitOf x.flags 5
/-- ONE_SHOT of an entry. -/
def CanTx.oneShot (x : CanTx) : Bool := bitOf x.flags 8
/-- HP of an entry. -/
def CanTx.hp (x : CanTx) : Bool := bitOf x.flags 9
/-- TAT of an entry. -/
def CanTx.tat (x : CanTx) : Bool := bitOf x.flags 10
/-- LAUNCH of an entry. -/
def CanTx.launch (x : CanTx) : Nat := leAt x.bytes 8 8

/-- The order of ISO 11898-1 arbitration as a number of the bits from the identifier to RTR: the lower goes first (R426). -/
def CanTx.arb (x : CanTx) : Nat :=
  if x.ide then x.id / 2 ^ 18 * 2 ^ 21 + 2 ^ 20 + 2 ^ 19 + x.id % 2 ^ 18 * 2 + b2n x.rtr
  else x.id % 2 ^ 11 * 2 ^ 21 + b2n x.rtr * 2 ^ 20

/-- Whether an index belongs to the gateway engine (R424). -/
def Dev.gwIndex (d : Dev) (n i : Nat) : Bool := i < d.g F.CAN.TX_CFG_GW_SLOTS 0 n

/-- Show an entry's state in TX_STATE, and the window's entry in TX_WIN (R425, Table 15-9). -/
def Dev.showTxEnt (d : Dev) (n i : Nat) : Dev :=
  let c := d.canC n
  let k := i / 8
  let word := (List.range 8).foldl (fun w j => w + (c.ent (8 * k + j)).st * 16 ^ j) 0
  let d := d.w F.CAN.TX_STATE_S word 0 n k
  let d := d.w F.CAN.STAT_TX_ACTIVE (b2n (c.tx.any (fun x => x.st == 2))) 0 n
  if d.g F.CAN.TX_SEL_IDX 0 n == i then
    d.each (List.range 20) (fun d w => d.w F.CAN.TX_WIN_W (leAt (c.ent i).bytes (4 * w) 4) 0 n w)
  else d

/-- Show the entry that TX_SEL names. -/
def Dev.showTxWin (d : Dev) (n : Nat) : Dev := d.showTxEnt n (d.g F.CAN.TX_SEL_IDX 0 n)

/-- Whether some entry that a rule holds is PENDING (R438). -/
def Dev.heldPending (d : Dev) (rule : Nat) : Bool := d.can.any (fun c => c.tx.any (fun x => x.rule == some rule && x.st == 1))

/-- A rule's held flag clears once none of the held frame's entries is PENDING; in PRIMARY the clearing is journalled (R438, R488). In SHADOW
the flag clears by the journal alone. -/
def Dev.heldCheck (d : Dev) : Dev :=
  if d.mode == mShadow then d
  else d.each (d.gw.held.filter (fun r => !d.heldPending r)) (fun d r =>
    { d with gw := { d.gw with held := d.gw.held.filter (fun x => x != r) } }.journal 1 2 0 d.evTime (.heldClear r))

/-- An entry takes a state. A final state counts where its table says so; a software entry then raises TXQ_EVENT, and a gateway entry
returns to FREE (R425, R428, R429). -/
def Dev.canState (d : Dev) (n i st : Nat) : Dev :=
  let final := st != 0 && st != 1 && st != 2 && st != 8
  let gw := d.gwIndex n i
  let d := d.setCan n (fun c => c.setEnt i (fun x => { x with st := if final && gw then 0 else st }))
  let d := d.when (st == 3) (fun d => d.inc C.CAN.TX_FRAMES 0 n)
  let d := d.when (st == 6) (fun d => d.inc C.CAN.TAT_LATE 0 n)
  ((d.showTxEnt n i).heldCheck).when (final && !gw) (fun d => d.raise E.CAN.TXQ_EVENT 0 n)

/-- The refusals of a push (Table 15-4, INVALID). -/
def Dev.txInvalid (d : Dev) (n : Nat) (x : CanTx) : Bool :=
  (x.fdf && !d.on F.CAN.CTRL_FD_EN 0 n) || (x.brs && !x.fdf) || (x.rtr && x.fdf)

/-- Queue a written entry: INVALID, LATE where its window has closed, else PENDING (R425, R429). -/
def Dev.canPush (d : Dev) (n i : Nat) (rule : Option Nat) : Dev :=
  let x := (d.canC n).ent i
  let close := x.launch + d.g F.CAN.TX_CFG_TAT_WIN 0 n * 320
  let d := d.setCan n (fun c =>
    { c.setEnt i (fun x => { x with order := c.pushes, ready := !x.tat || x.launch ≤ d.time.lt, abort := false, closed := false, rule := rule })
      with pushes := c.pushes + 1 })
  d.canState n i (if d.txInvalid n x then 10 else if x.tat && close ≤ d.time.lt then 6 else 1)

/-- Whether a window or push access names an entry that software may write (R424). -/
def Dev.txWritable (d : Dev) (n i : Nat) : Bool := !d.gwIndex n i && ((d.canC n).ent i).st == 0

/-- CAN_TX_WIN_WRITE: a write through TX_WIN fills a free software entry, or is dropped and counted (R424). -/
def execCanTxWinWrite (bus word data : Nat) (s : State) : Answer :=
  run s (fun d => d.pageWrite 0 (0x020 + bus) (0x680 + 4 * word) true (fun d p =>
    if p.tag != .CAN || 20 ≤ word then d
    else
      let n := p.inst
      let i := d.g F.CAN.TX_SEL_IDX 0 n
      if !d.txWritable n i then d.inc C.CAN.TX_PUSH_ERR 0 n
      else (d.setCan n (fun c => c.setEnt i (fun x => { x with
        bytes := (padTo 80 x.bytes).take (4 * word) ++ toLE 4 data ++ (padTo 80 x.bytes).drop (4 * word + 4) }))).showTxEnt n i))

/-- CAN_TX_PUSH: a written index makes the entry PENDING, INVALID or LATE, or is dropped and counted (R424, R425, R429). -/
def execCanTxPush (bus data : Nat) (s : State) : Answer :=
  run s (fun d => d.pageWrite 0 (0x020 + bus) 0x070 true (fun d p =>
    if p.tag != .CAN then d
    else if !d.txWritable p.inst (data % 64) then d.inc C.CAN.TX_PUSH_ERR 0 p.inst
    else d.canPush p.inst (data % 64) none))

/-- CAN_TX_ACK: a software entry in a final state returns to FREE (R425). -/
def execCanTxAck (bus data : Nat) (s : State) : Answer :=
  run s (fun d => d.pageWrite 0 (0x020 + bus) 0x074 true (fun d p =>
    if p.tag != .CAN then d
    else
      let st := ((d.canC p.inst).ent (data % 64)).st
      if st == 0 || st == 1 || st == 2 || st == 8 then d else d.canState p.inst (data % 64) 0))

/-- CAN_TX_ABORT: a PENDING or HELD entry becomes ABORTED; an ACTIVE one finishes its attempt (R428). -/
def execCanTxAbort (bus data : Nat) (s : State) : Answer :=
  run s (fun d => d.pageWrite 0 (0x020 + bus) 0x078 true (fun d p =>
    if p.tag != .CAN then d
    else
      let i := data % 64
      let st := ((d.canC p.inst).ent i).st
      if st == 1 || st == 8 then d.canState p.inst i 9
      else if st == 2 then d.setCan p.inst (fun c => c.setEnt i (fun x => { x with abort := true }))
      else d))

/-! ## Receive (R421 to R423) -/

/-- Where a frame goes: to the high-priority buffer or by an ACT code, and the FILTER and HPF octet. -/
def Dev.canFilter (d : Dev) (n : Nat) (f : CanRx) : Option Nat × Nat × Nat :=
  let hit := fun (id mask : Nat) => f.id &&& mask == id &&& mask
  match (List.range 8).find? (fun i => d.on F.CAN.HFILT_ID_EN 0 n i && d.on F.CAN.HFILT_ID_IDE 0 n i == f.ide &&
      hit (d.g F.CAN.HFILT_ID_ID 0 n i) (d.g F.CAN.HFILT_MASK_M 0 n i)) with
  | some i => (some i, if d.on F.CAN.HFILT_ID_GW 0 n i then 2 else 0, i + 128)
  | none =>
    let std := fun (_ : Unit) => (List.range 128).find? (fun i => d.g F.CAN.SFILT_ACT 0 n i != 0 &&
      hit (d.g F.CAN.SFILT_ID 0 n i) (d.g F.CAN.SFILT_MASK 0 n i))
    let ext := fun (_ : Unit) => (List.range 64).find? (fun i => d.g F.CAN.XFILT_ID_ACT 0 n i != 0 &&
      hit (d.g F.CAN.XFILT_ID_ID 0 n i) (d.g F.CAN.XFILT_MASK_M 0 n i))
    match (if f.ide then ext () else std ()) with
    | some i => (none, if f.ide then d.g F.CAN.XFILT_ID_ACT 0 n i else d.g F.CAN.SFILT_ACT 0 n i, i)
    | none => (none, d.g F.CAN.CTRL_NOMATCH 0 n, 0x7F)

/-- A frame in the layout of Table 15-2, with `len` data octets. -/
def CanFrame.entry (f : CanFrame) (time : Nat) (len : Nat) : List Byte :=
  toLE 4 (f.id % 2 ^ 29 + b2n f.ide * 2 ^ 29 + b2n f.rtr * 2 ^ 30) ++
    toLE 2 (f.dlc % 16 + b2n f.fd * 16 + b2n f.brs * 32 + b2n f.esi * 64 + f.filt % 256 * 256) ++ toLE 2 f.data.length ++ toLE 8 time ++
    padTo len f.data

/-- Show a controller's queues: counts, head place and head entries (Table 15-9). -/
def Dev.showCanRx (d : Dev) (n : Nat) : Dev :=
  let c := d.canC n
  let d := ((d.w F.CAN.RX_STAT_COUNT c.rxq.length 0 n).w F.CAN.RX_STAT_HEAD c.rxHead 0 n).w F.CAN.RX_STAT_HP_COUNT c.hp.length 0 n
  d.each (List.range 20) (fun d w =>
    (d.w F.CAN.RX_WIN_W (leAt (c.rxq.headD []) (4 * w) 4) 0 n w).w F.CAN.HP_WIN_W (leAt (c.hp.headD []) (4 * w) 4) 0 n w)

/-- Write a frame to the receive queue (R422, R423). -/
def Dev.toRxq (d : Dev) (n : Nat) (e : List Byte) : Dev :=
  if 64 ≤ (d.canC n).rxq.length then d.inc C.CAN.RX_OVF 0 n
  else
    let first := (d.canC n).rxq.isEmpty
    ((d.setCan n (fun c => { c with rxq := c.rxq ++ [e] })).showCanRx n).when first (fun d => d.raise E.CAN.RXQ_EVENT 0 n)

/-- Write a frame to the high-priority buffer (R422, R423). -/
def Dev.toHp (d : Dev) (n : Nat) (e : List Byte) : Dev :=
  if 4 ≤ (d.canC n).hp.length then (d.inc C.CAN.HP_OVF 0 n).raise E.CAN.HP_OVF 0 n
  else ((d.setCan n (fun c => { c with hp := c.hp ++ [e] })).showCanRx n).fireVec (16 + n)

/-- A frame for the gateway enters Route-0's wired lane; a full lane drops it (R434). Until the mode before DOZE is entered it is dropped and
counted (R444). -/
def Dev.toGateway (d : Dev) (f : CanFrame) : Dev :=
  if d.mode == mDoze then d.inc C.GWY.WAKE_DROP
  else if !d.dieUp 1 then d
  else if 1024 ≤ (d.route 1).wired.length then d.inc C.ING.DROP_WIRED 1
  else (d.setRoute 1 (fun r => { r with wired := r.wired ++ [.can f] })).showLanes 1

/-- The error state that the counters give (R430): 0 active, 1 passive. -/
def errState (tec rec : Nat) : Nat := if 127 < tec || 127 < rec then 1 else 0

/-- Set the error counters of a controller that is not in bus-off, and its error state; a change to error-passive raises its source (R430). -/
def Dev.canCounts (d : Dev) (n tec rec : Nat) : Dev :=
  let was := d.g F.CAN.STAT_STATE 0 n
  let now := errState tec rec
  let d := ((d.w F.CAN.ERRCNT_TEC (min 511 tec) 0 n).w F.CAN.ERRCNT_REC (min 255 rec) 0 n).w F.CAN.STAT_STATE now 0 n
  d.when (was == 0 && now == 1) (fun d => d.raise E.CAN.ERR_PASSIVE 0 n)

/-- A valid reception lowers the receive counter: by 1, and from above 127 to a value between 119 and 127 (ISO 11898-1). -/
def Dev.canGood (d : Dev) (n : Nat) : Dev :=
  let r := d.g F.CAN.ERRCNT_REC 0 n
  let f := d.freshNat
  if r == 0 then d
  else if 127 < r then f.2.canCounts n (d.g F.CAN.ERRCNT_TEC 0 n) (119 + f.1 % 9)
  else d.canCounts n (d.g F.CAN.ERRCNT_TEC 0 n) (r - 1)

/-- Whether a controller decodes frames for reception. -/
def Dev.canHears (d : Dev) (n : Nat) : Bool := d.canMode n != 0 && d.g F.CAN.STAT_STATE 0 n < 2

/-- CAN_FRAME_RX: a valid frame is matched against the filters and queued, sent to the gateway, or both; in QUIESCE it is dropped and counted.
A protocol exception on the res bit, and an FD frame with FD_EN 0, count PXE (R417, R418, R421 to R423, R434). -/
def execCanFrameRx (bus : Nat) (f : CanRx) (resRecessive : Bool) (s : State) : Answer :=
  run s (fun d =>
    if !d.canHears bus then d
    else if f.fdf && (resRecessive || !d.on F.CAN.CTRL_FD_EN 0 bus) then d.inc C.CAN.PXE 0 bus
    else
      let d := (d.inc C.CAN.RX_FRAMES 0 bus).canGood bus
      if d.act == mQuiesce then d.inc C.CAN.RX_QUIESCE 0 bus
      else
        let g := d.canFilter bus f
        let data := f.data.take 64
        let x : CanFrame :=
          { id := f.id, ide := f.ide, fd := f.fdf, brs := f.brs, rtr := f.rtr, data := data, src := bus, time := d.evTime, esi := f.esi, dlc := f.dlc,
            filt := g.2.2 }
        let e := x.entry d.time.lt 64
        let gate := fun (d : Dev) => d.when (d.canMode bus == 1) (fun d => d.toGateway x)
        match g.1 with
        | some _ => (d.toHp bus e).when (g.2.1 == 2) gate
        | none =>
          if g.2.1 == 0 then d.inc C.CAN.RX_FILTERED 0 bus
          else (d.when (g.2.1 % 2 == 1) (fun d => d.toRxq bus e)).when (2 ≤ g.2.1) gate)

/-- CAN_RX_ACK: the head entry of the receive queue or of the high-priority buffer is freed (R422). -/
def execCanRxAck (bus data : Nat) (s : State) : Answer :=
  run s (fun d => d.pageWrite 0 (0x020 + bus) 0x0A4 true (fun d p =>
    if p.tag != .CAN then d
    else (d.setCan p.inst (fun c =>
      let c := if bitOf data 0 && !c.rxq.isEmpty then { c with rxq := c.rxq.tail, rxHead := (c.rxHead + 1) % 64 } else c
      if bitOf data 1 then { c with hp := c.hp.tail } else c)).showCanRx p.inst))

/-! ## Error confinement (R430 to R432) -/

/-- Recovery from bus-off begins (R432). -/
def Dev.canRecover (d : Dev) (n : Nat) : Dev := if d.g F.CAN.STAT_STATE 0 n == 2 then d.w F.CAN.STAT_STATE 3 0 n else d

/-- Bus-off (R431): waiting entries are aborted, freed or held, and recovery begins at once with AUTO_REC. An entry whose abort was asked for
ends ABORTED. -/
def Dev.canBusOff (d : Dev) (n : Nat) : Dev :=
  let d := ((d.w F.CAN.STAT_STATE 2 0 n).inc C.CAN.BUSOFF_CNT 0 n).raise E.CAN.BUS_OFF 0 n
  let d := d.each ((d.canC n).tx.filter (fun x => x.st == 1 || x.st == 2)) (fun d x =>
    if x.st == 2 && x.abort then d.canState n x.idx 9
    else if x.hp then (d.canState n x.idx 8).raise E.CAN.HP_HELD 0 n
    else if d.gwIndex n x.idx then (d.canState n x.idx 7).inc C.CAN.GW_BUSOFF_DROP 0 n
    else d.canState n x.idx 7)
  d.when (d.on F.CAN.CTRL_AUTO_REC 0 n) (fun d => d.canRecover n)

/-- Raise the error counters by what ISO 11898-1 adds; a transmit counter above 255 is bus-off (R430, R431). -/
def Dev.canErr (d : Dev) (n tecUp recUp : Nat) : Dev :=
  let tec := d.g F.CAN.ERRCNT_TEC 0 n + tecUp
  if 255 < tec then (d.w F.CAN.ERRCNT_TEC (min 511 tec) 0 n).canBusOff n
  else d.canCounts n tec (d.g F.CAN.ERRCNT_REC 0 n + recUp)

/-- CAN_RECEIVE_ERROR: a bus error while receiving raises the counters and may change the error state; a protocol exception is counted and
the controller integrates (R417, R430). Restricted operation and bus monitoring leave the counters as they are. -/
def execCanReceiveError (bus lec recUp tecUp : Nat) (pxe : Bool) (s : State) : Answer :=
  run s (fun d =>
    if !d.canHears bus then d
    else if pxe then d.inc C.CAN.PXE 0 bus
    else
      let d := d.w F.CAN.STAT_LEC lec 0 bus
      if d.canMode bus == 1 then d.canErr bus tecUp recUp else d)

/-- CAN_RECOVER_WRITE: recovery from bus-off begins (R432). -/
def execCanRecoverWrite (bus data : Nat) (s : State) : Answer :=
  run s (fun d => d.pageWrite 0 (0x020 + bus) 0x048 true (fun d p =>
    if p.tag == .CAN && bitOf data 0 then d.canRecover p.inst else d))

/-- CAN_RECOVERY_DONE: the controller is error-active with its counters at 0, and HELD entries become PENDING (R431, R432). -/
def execCanRecoveryDone (bus : Nat) (s : State) : Answer :=
  run s (fun d =>
    if !d.canUp bus || d.g F.CAN.STAT_STATE 0 bus != 3 then d
    else
      let d := ((d.w F.CAN.STAT_STATE 0 0 bus).w F.CAN.ERRCNT_TEC 0 0 bus).w F.CAN.ERRCNT_REC 0 0 bus
      d.each ((d.canC bus).tx.filter (fun x => x.st == 8)) (fun d x => d.canState bus x.idx 1))

/-! ## Attempts (R425 to R430) -/

/-- The entries that may contend: PENDING, at or after LAUNCH, and of high priority where EP_HOLD holds the rest (R429, R430). -/
def Dev.contenders (d : Dev) (n : Nat) : List CanTx :=
  let holdLow := d.g F.CAN.STAT_STATE 0 n == 1 && d.on F.CAN.CTRL_EP_HOLD 0 n
  (d.canC n).tx.filter (fun x => x.st == 1 && x.ready && (x.hp || !holdLow))

/-- Whether an entry goes before another (R426). -/
def CanTx.before (x y : CanTx) : Bool :=
  if x.hp != y.hp then x.hp else if x.arb != y.arb then x.arb < y.arb else x.order < y.order

/-- Start the attempt of the first contender, if the controller may send: normal operation, no attempt in progress, possession held where it is
required (R418, R426, Table 17-2). -/
def Dev.canArbitrate (d : Dev) (n : Nat) : Dev :=
  if d.canMode n != 1 || 2 ≤ d.g F.CAN.STAT_STATE 0 n || !d.mayRadiate || (d.canC n).tx.any (fun x => x.st == 2) then d
  else
    match (d.contenders n).foldl (fun (b : Option CanTx) x => some (b.elim x (fun y => if x.before y then x else y))) none with
    | none => d
    | some x => d.canState n x.idx 2

/-- CAN_ARBITRATION: the bus is idle and the first contending entry starts an attempt (R426). -/
def execCanArbitration (bus : Nat) (s : State) : Answer := run s (fun d => d.canArbitrate bus)

/-- The entry on the bus. -/
def Dev.canActive (d : Dev) (n : Nat) : Option CanTx := (d.canC n).tx.find? (fun x => x.st == 2)

/-- A sleep request takes effect (R433): the entries stay PENDING. -/
def Dev.canSleep (d : Dev) (n kind : Nat) : Dev :=
  ((d.setCan n (fun c => { c with sleepPend := 0 })).w F.CAN.STAT_ASLEEP kind 0 n).showStb n

/-- A sleep request: at once, or at the end of the attempt in progress (R433). -/
def Dev.canSleepReq (d : Dev) (n kind : Nat) : Dev :=
  if (d.canActive n).isSome then d.setCan n (fun c => { c with sleepPend := kind }) else d.canSleep n kind

/-- A wake: the controller returns to its live OPMODE, WAKE is raised and counted (R433). -/
def Dev.canWake (d : Dev) (n : Nat) : Dev :=
  let d := d.setCan n (fun c => { c with sleepPend := 0 })
  if d.g F.CAN.STAT_ASLEEP 0 n == 0 then d
  else ((((d.w F.CAN.STAT_ASLEEP 0 0 n).setCan n (fun c => { c with op := d.g F.CAN.CTRL_OPMODE 0 n })).showStb n).inc C.CAN.WAKE_CNT 0 n).raise
    E.CAN.WAKE 0 n

/-- The state of an entry whose attempt failed (R427 to R429): an abort asked for, then one-shot, then a closed window decide. -/
def Dev.failedState (d : Dev) (n : Nat) (x : CanTx) (oneShot : Nat) : Nat :=
  if x.abort then 9 else if x.oneShot || d.on F.CAN.CTRL_ONE_SHOT 0 n then oneShot else if x.closed then 6 else 1

/-- CAN_TX_ATTEMPT_END: the attempt ends sent, lost or in error; the entry's state and the error counters move, and a sleep request that waited
takes effect (R420, R425, R427 to R431, R433). -/
def execCanTxAttemptEnd (bus : Nat) (how : AttemptEnd) (tdcv : Nat) (s : State) : Answer :=
  run s (fun d =>
    match d.canActive bus with
    | none => d
    | some x =>
      let d := d.when (x.brs && d.on F.CAN.TDC_CFG_EN 0 bus && d.g F.CAN.TDC_CFG_TDCF 0 bus ≤ tdcv) (fun d => d.w F.CAN.STAT_TDCV tdcv 0 bus)
      let d := match how with
        | .sent =>
          let d := (d.emit (.canFrame bus x.bytes)).w F.CAN.STAT_LEC 0 0 bus
          (d.canCounts bus (d.g F.CAN.ERRCNT_TEC 0 bus - 1) (d.g F.CAN.ERRCNT_REC 0 bus)).canState bus x.idx 3
        | .lost => d.canState bus x.idx (d.failedState bus x 4)
        | .error lec counts =>
          let d := d.w F.CAN.STAT_LEC lec 0 bus
          let d := if counts then d.canErr bus 8 0 else d
          d.when ((d.canActive bus).isSome) (fun d => d.canState bus x.idx (d.failedState bus x 5))
      d.when ((d.canC bus).sleepPend != 0) (fun d => d.canSleep bus (d.canC bus).sleepPend))

/-- CAN_TAT_WINDOW_CLOSE: the window of an entry closes at LAUNCH + TAT_WIN; an entry that waits becomes LATE, one whose attempt runs becomes
LATE if the attempt fails (R429, Table 15-8). -/
def execCanTatWindowClose (bus idx : Nat) (s : State) : Answer :=
  run s (fun d =>
    let x := (d.canC bus).ent idx
    if !d.canUp bus || !x.tat then d
    else if x.st == 1 || x.st == 8 then d.canState bus idx 6
    else if x.st == 2 then d.setCan bus (fun c => c.setEnt idx (fun x => { x with closed := true }))
    else d)

/-- CAN_TAT_LAUNCH: an entry's LAUNCH arrives and it may contend, at once on an idle bus (R426, R429). -/
def execCanTatLaunch (bus idx : Nat) (idle : Bool) (s : State) : Answer :=
  run s (fun d =>
    let x := (d.canC bus).ent idx
    if !d.canUp bus || !x.tat || x.st != 1 || x.ready then d
    else (d.setCan bus (fun c => c.setEnt idx (fun x => { x with ready := true }))).when idle (fun d => d.canArbitrate bus))

/-! ## OPMODE, sleep and wake (R418, R433) -/

/-- CAN_OPMODE_CHANGE: the frame in progress has ended and the live OPMODE takes effect (R418). -/
def execCanOpmodeChange (bus : Nat) (s : State) : Answer :=
  run s (fun d =>
    if !d.canUp bus || (d.canActive bus).isSome then d
    else (d.setCan bus (fun c => { c with op := d.g F.CAN.CTRL_OPMODE 0 bus })).showStb bus)

/-- Write CTRL_SLEEP.REQ on a page. -/
def Dev.sleepWrite (d : Dev) (bus req : Nat) (go : Dev → Nat → Dev) : Dev :=
  d.pageWrite 0 (0x020 + bus) 0x044 true (fun d p =>
    if p.tag != .CAN then d else go (d.w F.CAN.CTRL_SLEEP_REQ req 0 p.inst) p.inst)

/-- CAN_SLEEP_EDGE: REQ 1, sleep with wake on edge at frame end (R433). -/
def execCanSleepEdge (bus : Nat) (s : State) : Answer := run s (fun d => d.sleepWrite bus 1 (fun d n => d.canSleepReq n 1))

/-- CAN_SLEEP_FRAME: REQ 2, sleep with wake on frame at frame end (R433). -/
def execCanSleepFrame (bus : Nat) (s : State) : Answer := run s (fun d => d.sleepWrite bus 2 (fun d n => d.canSleepReq n 2))

/-- CAN_WAKE_REQ: REQ 0 wakes the controller at once (R433). -/
def execCanWakeReq (bus : Nat) (s : State) : Answer := run s (fun d => d.sleepWrite bus 0 (fun d n => d.canWake n))

/-- Whether a frame matches an enabled wake pattern of a bus (R433). -/
def Dev.wakeHit (d : Dev) (n p : Nat) (f : CanRx) : Bool :=
  let m := d.g F.CAN.WP_MASK_M 0 n p
  let lo := d.g F.CAN.WP_DMASK_LO_D 0 n p
  let hi := d.g F.CAN.WP_DMASK_HI_D 0 n p
  d.on F.CAN.WP_ID_EN 0 n p && d.on F.CAN.WP_ID_IDE 0 n p == f.ide && f.id &&& m == d.g F.CAN.WP_ID_ID 0 n p &&& m &&
    leAt f.data 0 4 &&& lo == d.g F.CAN.WP_DATA_LO_D 0 n p &&& lo && leAt f.data 4 4 &&& hi == d.g F.CAN.WP_DATA_HI_D 0 n p &&& hi

/-- Whether an event wakes a sleeping controller: a dominant level in sleep with wake on edge, a frame that matches a pattern in sleep with wake
on frame (R433). -/
def Dev.wakesCan (d : Dev) (n : Nat) (frame : Option CanRx) : Bool :=
  d.canUp n && match d.g F.CAN.STAT_ASLEEP 0 n, frame with
    | 1, none => true
    | 2, some f => (List.range 4).any (fun p => d.wakeHit n p f)
    | _, _ => false

/-- STANDBY_RELEASE: writing 1 to a STANDBY bit releases a bus or a port (R444). -/
def execStandbyRelease (eth : Bool) (data : Nat) (s : State) : Answer :=
  run s (fun d => d.pageWrite 0 0x007 (if eth then 0x04C else 0x048) true (fun d _ =>
    if eth then d.each (bitList 16 data) (fun d n => d.wBit F.GWY.STANDBY_ETH_PORT n false)
    else d.each (bitList 32 data) (fun d n => (d.wBit F.GWY.STANDBY_CAN_BUS n false).showStb n)))

end Sys2Proof.Machine
end

