-- ==== Sys2Proof/Machine/Gateway.lean ====
section
/-! DEFINITION. Meanings of the gateway engine: rules, rate limits, authentication, dispatch, IEEE 1722 streams and the gateway commands
(R289 to R291, R434 to R445). -/

namespace Sys2Proof.Machine
open Sys2Proof

/-! ## Rules (Table 15-5) -/

/-- A rule's record; one that is not listed reads as zeros. -/
def Gateway.rule (g : Gateway) (i : Nat) : List Byte := padTo 48 ((g.rules.find? (fun r => r.1 == i)).elim [] (fun r => r.2))

/-- EN of a rule record. -/
def ruleEn (r : List Byte) : Bool := bitOf (leAt r 0 4) 31
/-- DST_CAN. -/
def ruleCan (r : List Byte) : Nat := leAt r 20 4
/-- DST_STREAM. -/
def ruleStream (r : List Byte) : Nat := leAt r 24 2
/-- HOST. -/
def ruleHost (r : List Byte) : Bool := bitOf (leAt r 13 1) 2
/-- RL_MODE. -/
def ruleRl (r : List Byte) : Nat := bitsOf (leAt r 13 1) 3 2
/-- OUT: 0 none, 1 append, 2 strip, 3 strip then append. -/
def ruleOut (r : List Byte) : Nat := bitsOf (leAt r 10 1) 1 2

/-- Whether an enabled record is refused (R435). -/
def Dev.ruleBad (d : Dev) (r : List Byte) : Bool :=
  let ing := leAt r 8 1
  let dir := fun (s : Nat) => d.g F.GWY.ST_CFG_DIR 0 0 s
  let rl := ruleRl r
  ruleEn r && (
    48 < ing || (32 ≤ ing && ing < 48 && dir (ing - 32) % 2 == 0) ||
    (bitList 16 (ruleStream r)).any (fun s => dir s < 2) ||
    ((rl == 1 || rl == 2) && (leAt r 14 2 == 0 || leAt r 16 4 == 0)) || rl == 3 ||
    (rl == 2 && (ruleHost r || ruleStream r != 0)) ||
    (ruleOut r % 2 == 1 && leAt r 13 1 % 4 == 1) ||
    bitOf (leAt r 0 4) 30 || leAt r 4 4 / 2 ^ 29 != 0 || leAt r 9 1 / 32 != 0 || leAt r 10 1 / 32 != 0 || leAt r 11 1 / 64 != 0 ||
    leAt r 12 1 / 64 != 0 || leAt r 13 1 / 64 != 0 || leAt r 26 2 != 0 || leAt r 28 4 / 2 ^ 29 != 0 || leAt r 32 4 / 2 ^ 29 != 0 ||
    leAt r 36 6 != 0 || leAt r 42 6 != 0)

/-- Show how many rules are enabled. -/
def Dev.showRules (d : Dev) : Dev := d.w F.GWY.STAT_RULES (d.gw.rules.filter (fun r => ruleEn r.2)).length

/-- Replace a rule's record; its limiter restarts and its freshness values stay (R438, R439, Table 15-8). Entries it holds stay. -/
def Dev.setRule (d : Dev) (i : Nat) (b : List Byte) : Dev :=
  { d with
    gw := { d.gw with
      rules := d.gw.rules.filter (fun r => r.1 < i) ++ [(i, b)] ++ d.gw.rules.filter (fun r => i < r.1)
      tat := kvSet 0 d.gw.tat i 0
      held := d.gw.held.filter (fun x => x != i) }
    can := d.can.map (fun (c : CanCtl) => { c with tx := c.tx.map (fun (x : CanTx) => if x.rule == some i then { x with rule := none } else x) }) }

/-- The lowest-numbered enabled rule that matches an event (R435). -/
def Dev.gwMatch (d : Dev) (e : GwEv) : Option (Nat × List Byte) :=
  d.gw.rules.find? (fun r =>
    let id := leAt r.2 0 4
    let m := leAt r.2 4 4 % 2 ^ 29
    ruleEn r.2 && leAt r.2 8 1 == e.ing && (e.ing < 32 || 48 ≤ e.ing || leAt r.2 9 1 == e.bus) &&
      bitOf id 29 == e.frame.ide && e.frame.id &&& m == id % 2 ^ 29 &&& m)

/-! ## Lengths of ISO 11898-1 -/

/-- The data lengths of a CAN FD frame by DLC. -/
def fdLens : List Nat := [0, 1, 2, 3, 4, 5, 6, 7, 8, 12, 16, 20, 24, 32, 48, 64]

/-- The smallest CAN FD length of at least n, 64 at most. -/
def fdLen (n : Nat) : Nat := (fdLens.find? (fun l => n ≤ l)).getD 64

/-- The DLC of a data length. -/
def dlcOf (n : Nat) : Nat := (fdLens.findIdx? (fun l => n ≤ l)).getD 15

/-- The data length of a DLC (ISO 11898-1). -/
def dlcLen (fd rtr : Bool) (dlc : Nat) : Nat := if rtr then 0 else if fd then fdLens.getD dlc 64 else min 8 dlc

/-- The frame with new data and the DLC of its length. -/
def CanFrame.withData (f : CanFrame) (x : List Byte) : CanFrame := { f with data := x, dlc := dlcOf x.length }

/-! ## Authentication (R273, R289 to R291, R436, R439) -/

/-- The key of a gateway slot: from the unit that holds it, else loaded into the least recently used one; none where the slot is empty or HOLD
keeps the vault closed. -/
def Dev.gwKey (d : Dev) (slot : Nat) : Dev × Option (List Byte) :=
  let held := d.gw.units.find? (fun u => u.1 == slot)
  match held.elim (if d.vaultHold then none else d.key 1 slot) (fun u => some u.2) with
  | none => (d, none)
  | some k => ({ d with gw := { d.gw with units := ((slot, k) :: d.gw.units.filter (fun u => u.1 != slot)).take 4 } }, some k)

/-- M of R290, up to FRESH. -/
def authMsg (f : CanFrame) (plen fresh : Nat) (data : List Byte) : List Byte :=
  [0x47#8] ++ toBE 4 (f.id % 2 ^ (if f.ide then 29 else 11) + b2n f.ide * 2 ^ 31) ++ toBE 1 plen ++ data ++ toBE 4 fresh

/-- A failed action: the counter, and the source of AUTH_FAIL. -/
def Dev.authLost (d : Dev) (c : Ctr) : Dev := (d.inc c).when (c == C.GWY.AUTH_FAIL) (fun d => d.raise E.GWY.AUTH_FAIL)

/-- Whether freshness values can be used (R439). -/
def Dev.freshOk (d : Dev) : Bool := !d.on F.GWY.STAT_FRESH_LOST || d.on F.GWY.CFG_FRESH_ZERO_OK

/-- Verify (R291): the device, and whether the frame goes on. -/
def Dev.gwVerify (d : Dev) (i : Nat) (r : List Byte) (f : CanFrame) : Dev × Bool :=
  if !d.freshOk then (d.authLost C.GWY.AUTH_NOFRESH, false)
  else
    match d.gwKey (leAt r 11 1) with
    | (d, none) => (d.authLost C.GWY.AUTH_NOKEY, false)
    | (d, some k) =>
      let m := if bitOf (leAt r 10 1) 3 then 8 else 4
      let n := f.data.length
      let o := n - (m + 5)
      let plen := leAt f.data o 1
      let fresh := beAt f.data (o + 1) 4
      let pass := f.fd && m + 5 ≤ n && plen ≤ o && ((f.data.take o).drop plen).all (fun b => b == 0#8) &&
        (aesCmac k (authMsg f plen fresh (f.data.take plen))).take m == f.data.drop (o + 5) && kvGet 0 d.gw.freshRx i < fresh
      if pass then ({ d with gw := { d.gw with freshRx := kvSet 0 d.gw.freshRx i fresh } }.inc C.GWY.AUTH_OK, true)
      else (d.authLost C.GWY.AUTH_FAIL, false)

/-- Strip (R291): the trailer and the pad go, and the length becomes the smallest CAN FD length of at least PLEN. A frame with no room for a
trailer has none to strip. -/
def gwStrip (r : List Byte) (f : CanFrame) : CanFrame :=
  let t := if bitOf (leAt r 10 1) 3 then 13 else 9
  let n := f.data.length
  if !f.fd || n < t then f
  else
    let plen := leAt f.data (n - t) 1
    f.withData (padTo (fdLen plen) (f.data.take (min plen (n - t))))

/-- Rewrite (R436 step 4): the ID and the format; none where more than 8 octets would be classical. -/
def gwRewrite (r : List Byte) (f : CanFrame) : Option CanFrame :=
  let xm := leAt r 32 4 % 2 ^ 29
  let xid := leAt r 28 4 % 2 ^ 29
  let id := ofBits ((List.range 29).filter (fun i => if bitOf xm i then bitOf xid i else bitOf f.id i))
  let f := { f with id := if f.ide then id else id % 2 ^ 11 }
  match leAt r 13 1 % 4 with
  | 0 => some f
  | 1 => if 8 < f.data.length then none else some { f with fd := false, brs := false, esi := false }
  | 2 => some { f with fd := true, brs := false, dlc := dlcOf f.data.length }
  | _ => some { f with fd := true, brs := true, dlc := dlcOf f.data.length }

/-- Append (R289 to R291, R436 step 5): the device, and the frame with its authenticator where it goes on. A payload too long for 64 octets
with its trailer is dropped as a format that does not fit. -/
def Dev.gwAppend (d : Dev) (i : Nat) (r : List Byte) (f : CanFrame) : Dev × Option CanFrame :=
  let m := if bitOf (leAt r 10 1) 4 then 8 else 4
  let plen := f.data.length
  if !f.fd || 64 < plen + m + 5 then (d.inc C.GWY.FMT_DROP, none)
  else if !d.freshOk then (d.authLost C.GWY.AUTH_NOFRESH, none)
  else
    match d.gwKey (leAt r 12 1) with
    | (d, none) => (d.authLost C.GWY.AUTH_NOKEY, none)
    | (d, some k) =>
      let old := kvGet 0 d.gw.freshTx i
      if old == 0xFFFFFFFF then (d.inc C.GWY.FRESH_WRAP, none)
      else
        let fresh := old + 1
        let mac := (aesCmac k (authMsg f plen fresh f.data)).take m
        let n := fdLen (plen + m + 5)
        let data := padTo (n - (m + 5)) f.data ++ toBE 1 plen ++ toBE 4 fresh ++ mac
        ({ d with gw := { d.gw with freshTx := kvSet 0 d.gw.freshTx i fresh } }.inc C.GWY.AUTH_OK, some (f.withData data))

/-! ## Rate limits (R438) -/

/-- The limiter's verdict on a frame of event time t: none where it is dropped, else the LAUNCH of a held frame or none. -/
def Dev.gwLimit (d : Dev) (i : Nat) (r : List Byte) (t : Nat) : Dev × Option (Option Nat) :=
  let p := leAt r 16 4 * 320
  let tat := kvGet 0 d.gw.tat i
  let thr : Int := (tat : Int) - (((leAt r 14 2 : Nat) : Int) - 1) * (p : Int)
  let setTat := fun (v : Nat) => { d with gw := { d.gw with tat := kvSet 0 d.gw.tat i v } }
  if ruleRl r == 0 then (d, some none)
  else if thr ≤ (t : Int) then (setTat (max tat t + p), some none)
  else if ruleRl r == 1 || d.gw.held.contains i then (d.inc C.GWY.RL_DROP, none)
  else ((setTat (tat + p)).inc C.GWY.RL_HELD, some (some thr.toNat))

/-! ## Dispatch (R437, R440, R442) -/

/-- The transmit entry of a frame (Table 15-3). -/
def CanFrame.txEntry (f : CanFrame) (hp : Bool) (launch : Option Nat) : List Byte :=
  toLE 4 (f.id % 2 ^ 29 + b2n f.ide * 2 ^ 29 + b2n f.rtr * 2 ^ 30) ++
    toLE 2 (f.dlc % 16 + b2n f.fd * 16 + b2n f.brs * 32 + b2n hp * 2 ^ 9 + b2n launch.isSome * 2 ^ 10) ++ toLE 2 0 ++ toLE 8 (launch.getD 0) ++
    padTo 64 f.data

/-- Write a gateway entry into a controller's transmit queue (R437). -/
def Dev.gwToCan (d : Dev) (n : Nat) (f : CanFrame) (hp : Bool) (launch rule : Option Nat) : Dev :=
  if d.canDown n then d.inc C.CAN.GW_BUS_DOWN 0 n
  else match (List.range (d.g F.CAN.TX_CFG_GW_SLOTS 0 n)).find? (fun i => ((d.canC n).ent i).st == 0) with
    | none => d.inc C.CAN.GW_TXQ_FULL 0 n
    | some i => (d.setCan n (fun c => c.setEnt i (fun x => { x with bytes := f.txEntry hp launch }))).canPush n i rule

/-- The work of a gateway event runs under the Route-0 sequence number of its event. -/
def Dev.underSeq (d : Dev) (n : Nat) (f : Dev → Dev) : Dev :=
  let now := (d.route 1).seq
  (f (d.setRoute 1 (fun r => { r with seq := n + 1 }))).setRoute 1 (fun r => { r with seq := now })

/-- A frame that the engine passes to Route-0 takes cells of group 2 and the flow meter of port 27, and is queued (R362, R381, R437). -/
def Dev.gwQueue (d : Dev) (cls len time : Nat) (send : Dev → Nat → Bool → Dev) : Dev :=
  if !d.dieUp 1 then d
  else match d.alloc 1 2 len with
    | none => d.inc C.ING.BUF_DROP 1 0 2
    | some (d, b) =>
      let m := d.meterFlow 1 27 cls len time
      let d := m.1.colourOut 1 m.2
      (if m.2 == 2 then d else send d b (m.2 == 1)).release 1 b

/-- A frame to the host: the layout of Table 15-2 with LEN data octets under HOST_CLASS (R442). -/
def Dev.gwToHost (d : Dev) (f : CanFrame) : Dev :=
  let e := f.entry f.time f.data.length
  let cls := d.g F.GWY.CFG_HOST_CLASS
  d.gwQueue cls e.length f.time (fun d b y => d.toHost 1 { src := 2, port := 27 } false e cls 0 y f.time b)

/-- An ACF CAN message (R440): the header of IEEE 1722-2016 with the message's timestamp, identifier and payload padded to a quadlet. -/
def acfCan (f : CanFrame) (bus stamp : Nat) : List Byte :=
  let n := f.data.length
  let pad := (4 - n % 4) % 4
  toBE 2 (0x01 * 2 ^ 9 + (16 + n + pad) / 4) ++
    toBE 1 (pad * 64 + 32 + b2n f.rtr * 16 + b2n f.ide * 8 + b2n f.brs * 4 + b2n f.fd * 2 + b2n f.esi) ++ toBE 1 (bus % 32) ++ toBE 8 stamp ++
    toBE 4 (f.id % 2 ^ 29) ++ padTo (n + pad) f.data

/-- An NTSCF AVTPDU (R440): subtype 0x82, sv 1, version 0. -/
def ntscf (seq sid : Nat) (body : List Byte) : List Byte :=
  toBE 1 0x82 ++ toBE 2 (0x8000 + body.length % 2048) ++ toBE 1 seq ++ toBE 8 sid ++ body

/-- PTP time in ns of a moment of event time, from PTP time at the conversion (Table 15-8). -/
def Dev.ptpOf (d : Dev) (t : Nat) : Nat := d.ptpNow - (d.evTime - t) * 25 / 8

/-- One PDU on an egress stream (R440). -/
def Dev.gwToStream (d : Dev) (s ing : Nat) (f : CanFrame) : Dev :=
  let g := fun (x : Fld) => d.g x 0 0 s
  let port := g F.GWY.ST_CFG_PORT
  let seq := kvGet 0 d.gw.seqs s
  let vid := g F.GWY.ST_CFG_VID
  let tag := if vid == 0 then [] else toBE 2 0x8100 ++ toBE 2 (g F.GWY.ST_CFG_PCP * 2 ^ 13 + vid)
  let pdu := ntscf seq (g F.GWY.ST_SID_HI_S * 2 ^ 32 + g F.GWY.ST_SID_LO_S) (acfCan f (if ing < 32 then ing else 0) (d.ptpOf f.time))
  let frame := toBE 6 (g F.GWY.ST_DMAC_HI_A * 2 ^ 32 + g F.GWY.ST_DMAC_LO_A) ++ toBE 6 (d.ethAddr port) ++ tag ++ toBE 2 0x22F0 ++ pdu
  let d := { d with gw := { d.gw with seqs := kvSet 0 d.gw.seqs s ((seq + 1) % 256) } }.inc C.GWY.ENC_TX
  let cls := g F.GWY.ST_CFG_CLASS
  d.gwQueue cls frame.length f.time (fun d b y => d.toPort 1 port cls (g F.GWY.ST_SUB_SUB) y frame none f.time b)

/-- Dispatch to every destination of a rule; each succeeds or fails by itself (R437). A held frame's rule is held while one of its entries is
PENDING (R438). In SHADOW no entry is written and the flag waits for the journal. -/
def Dev.gwDispatch (d : Dev) (i : Nat) (r : List Byte) (e : GwEv) (f : CanFrame) (launch : Option Nat) : Dev :=
  let hold := launch.isSome
  let local_ := launch.map (fun t => d.toLocal t)
  let d := d.when (d.act != mShadow) (fun d => d.each (bitList 32 (ruleCan r)) (fun d n =>
    d.gwToCan n f (bitOf (leAt r 13 1) 5) local_ (if hold then some i else none)))
  let d := d.when hold (fun d => { d with gw := { d.gw with held := i :: d.gw.held } })
  let d := d.each (bitList 16 (ruleStream r)) (fun d s => d.gwToStream s e.ing f)
  (d.when (ruleHost r) (fun d => d.gwToHost f)).heldCheck

/-- What the engine does with one event (R435, R436). -/
def Dev.gwRun (d : Dev) (e : GwEv) : Dev :=
  let d := d.inc C.GWY.EVENTS
  match d.gwMatch e with
  | none => if d.on F.GWY.CFG_DEFAULT then d.gwToHost e.frame else d.inc C.GWY.NO_RULE
  | some (i, r) =>
    if ruleCan r == 0 && ruleStream r == 0 && !ruleHost r then d.inc C.GWY.RULE_DROP
    else match d.gwLimit i r e.frame.time with
      | (d, none) => d
      | (d, some launch) =>
        let v := if bitOf (leAt r 10 1) 0 then d.gwVerify i r e.frame else (d, true)
        if !v.2 then v.1
        else
          let f := if 2 ≤ ruleOut r then gwStrip r e.frame else e.frame
          match gwRewrite r f with
          | none => v.1.inc C.GWY.FMT_DROP
          | some f =>
            match (if ruleOut r % 2 == 1 then v.1.gwAppend i r f else (v.1, some f)) with
            | (d, none) => d
            | (d, some f) => d.gwDispatch i r e f launch

/-- An event joins the engine's queue in the order of Route-0 sequence numbers (R434). -/
def Dev.gwPut (d : Dev) (e : GwEv) : Dev :=
  { d with gw := { d.gw with inq := d.gw.inq.filter (fun x => x.seq ≤ e.seq) ++ [e] ++ d.gw.inq.filter (fun x => e.seq < x.seq) } }

/-- Whether the engine works. -/
def Dev.gwUp (d : Dev) : Bool := (d.pageFault ⟨.GWY, 0, 0⟩).isNone && d.mode != mDoze

/-- CAN_FRAME_EVENT: the CAN frame at the head of Route-0's wired lane takes its number and returns to the gateway engine (R434). -/
def execCanFrameEvent (s : State) : Answer :=
  run s (fun d =>
    match (d.route 1).wired with
    | .can f :: rest =>
      if !d.mayPlace 1 1 then d.turned 1 1
      else
        let d := (d.setRoute 1 (fun r => { r with wired := rest })).place 1 1 2
        let d := d.journal 1 2 0 f.time (.wired (.can f))
        (d.gwPut { seq := d.seqNow 1, ing := f.src, bus := 0, frame := f }).showLanes 1
    | _ => d)

/-- GATEWAY_EVENT: the engine handles its next event: limit, verify, strip, rewrite, append and dispatch (R434 to R440). On a PRIMARY the event waits until its
record is acknowledged, so that no entry of it is in a transmit queue before (R490). -/
def execGatewayEvent (s : State) : Answer :=
  run s (fun d =>
    match d.gw.inq with
    | e :: rest =>
      if !d.gwUp || d.recordWaits 1 e.seq then d else { d with gw := { d.gw with inq := rest } }.underSeq e.seq (fun d => d.gwRun e)
    | [] => d)

/-! ## PDUs from streams (R441) -/

/-- The ACF messages of a PDU's body: the CAN messages as can_bus_id and frame, and how many others were skipped; none where a length
disagrees. -/
def acfParse : Nat → List Byte → Option (List (Nat × CanFrame) × Nat)
  | _, [] => some ([], 0)
  | 0, _ => none
  | k + 1, b =>
    let h := beAt b 0 2
    let len := 4 * (h % 512)
    let type := h / 512
    let fl := leAt b 2 1
    let brief := type == 2
    let hdr := if brief then 8 else 16
    if len == 0 || b.length < len then none
    else match acfParse k (b.drop len) with
      | none => none
      | some (l, sk) =>
        if type != 1 && type != 2 then some (l, sk + 1)
        else
          let n := len - hdr - fl / 64
          let fd := bitOf fl 1
          if len < hdr + fl / 64 || !(if fd then fdLens.contains n else n ≤ 8) then none
          else
            let f : CanFrame :=
              { id := beAt b (hdr - 4) 4 % 2 ^ 29, ide := bitOf fl 3, fd := fd, brs := bitOf fl 2, rtr := bitOf fl 4, data := sliceB b hdr n, src := 32,
                time := 0, esi := bitOf fl 0, dlc := dlcOf n }
            some ((leAt b 3 1 % 32, f) :: l, sk)

/-- A frame that reaches the engine through port 27 (R441): its stream, its messages and how many were skipped; none where it is dropped. -/
def Dev.acfPdu (d : Dev) (b : List Byte) : Option (Nat × List (Nat × CanFrame) × Nat) :=
  let f := EthFrame.ofBytes b
  let len := beAt f.body 1 2 % 2048
  let sid := beAt f.body 4 8
  if f.etype != 0x22F0 || leAt f.body 0 1 != 0x82 || f.body.length < 12 + len then none
  else
    match (List.range 16).find? (fun s => d.g F.GWY.ST_CFG_DIR 0 0 s % 2 == 1 &&
        d.g F.GWY.ST_SID_HI_S 0 0 s * 2 ^ 32 + d.g F.GWY.ST_SID_LO_S 0 0 s == sid) with
    | none => none
    | some s => (acfParse len ((f.body.drop 12).take len)).map (fun m => (s, m.1, m.2))

/-- ACF_PDU_RX: the next PDU from port 27 is split into gateway events, in its order, or dropped and counted (R434, R441). -/
def execAcfPduRx (s : State) : Answer :=
  run s (fun d =>
    match d.gw.pdus with
    | [] => d
    | p :: rest =>
      if !d.gwUp then d
      else
        let d := { d with gw := { d.gw with pdus := rest } }
        match d.acfPdu p.data with
        | none => d.inc C.GWY.ACF_BAD
        | some (st, l, sk) =>
          (d.addc C.GWY.ACF_SKIP sk).each l (fun d m =>
            d.gwPut { seq := p.seq, ing := 32 + st, bus := m.1, frame := { m.2 with src := 32 + st, time := p.time } }))

/-! ## Commands (Table 15-6) -/

/-- The range check of a rule command: `size` octets for each rule, and rules below 4,096. -/
def gwRange (size : Nat) (_ : Dev) (c : Cmd) : Option Nat :=
  if c.len != size * c.cnt || 4096 < c.par 24 2 + c.cnt then some 0 else none

/-- GW_RULE_SET: applies rule records from FIRST and restarts their limiters; it stops at a refused record (R9, R435, R445). -/
def execGwRuleSet (id : Nat) (dmaErr : Bool) (s : State) : Answer :=
  run s (fun d => d.runCmd 0x0501 id dmaErr (gwRange 48) (fun d c =>
    let r := applyRecs (fun d n b => if d.ruleBad b then none else some (d.setRule n b)) (c.recs s.host 48) (c.par 24 2) d 0
    (r.1.showRules, if r.2.2 then c.ok r.2.1 else c.bad stRange r.2.1)))

/-- GW_RULE_READ: writes 48 octets per rule (R445). -/
def execGwRuleRead (id : Nat) (dmaErr : Bool) (s : State) : Answer :=
  runHost s (fun h d => d.runCmdH h 0x0502 id dmaErr (gwRange 48) (fun _ d c =>
    (d, c.ok, (List.range c.cnt).flatMap (fun i => d.gw.rule (c.par 24 2 + i)))))

/-- GW_FRESH_SET: writes the receive and the transmit value of each rule, and with CLR_LOST clears FRESH_LOST (R439, R445). -/
def execGwFreshSet (id : Nat) (dmaErr : Bool) (s : State) : Answer :=
  run s (fun d => d.runCmd 0x0503 id dmaErr (gwRange 8) (fun d c =>
    let r := applyRecs (fun d n b => some { d with gw := { d.gw with
      freshRx := kvSet 0 d.gw.freshRx n (leAt b 0 4), freshTx := kvSet 0 d.gw.freshTx n (leAt b 4 4) } }) (c.recs s.host 8) (c.par 24 2) d 0
    (r.1.when (bitOf (c.par 26 1) 0) (fun d => d.w F.GWY.STAT_FRESH_LOST 0), c.ok r.2.1)))

/-- GW_FRESH_READ: reads the same form (R445). -/
def execGwFreshRead (id : Nat) (dmaErr : Bool) (s : State) : Answer :=
  runHost s (fun h d => d.runCmdH h 0x0504 id dmaErr (gwRange 8) (fun _ d c =>
    (d, c.ok, (List.range c.cnt).flatMap (fun i =>
      toLE 4 (kvGet 0 d.gw.freshRx (c.par 24 2 + i)) ++ toLE 4 (kvGet 0 d.gw.freshTx (c.par 24 2 + i))))))

/-- A transmit entry of the host as a frame (Table 15-3). -/
def injected (b : List Byte) (time : Nat) : CanFrame :=
  let x : CanTx := { idx := 0, bytes := b }
  let dlc := x.flags % 16
  { id := x.id, ide := x.ide, fd := x.fdf, brs := x.brs, rtr := x.rtr, data := sliceB b 16 (dlcLen x.fdf x.rtr dlc), src := 48, time := time, dlc := dlc }

/-- GW_INJECT: the host's frames become gateway events with ingress 48 (R442, R445). -/
def execGwInject (id : Nat) (dmaErr : Bool) (s : State) : Answer :=
  run s (fun d => d.runCmd 0x0505 id dmaErr
    (fun _ c => if c.len != 80 * c.cnt || 256 < c.cnt then some 0 else none) (fun d c =>
    let d := d.each (c.recs s.host 80) (fun d b => d.gwPut { seq := c.seq, ing := 48, bus := 0, frame := injected b d.evTime })
    (d, c.ok c.cnt)))

/-- The range check of BUS_MODE (Table 15-6). -/
def busRange (_ : Dev) (c : Cmd) : Option Nat := if 3 < c.par 28 1 then some 0 else none

/-- Whether a bus takes a BUS_MODE command of OP `op`: its controller works, is not off and not in standby, and is in bus-off for OP 3 (R445). -/
def Dev.busReady (d : Dev) (op n : Nat) : Bool :=
  d.canUp n && d.g F.CAN.CTRL_OPMODE 0 n != 0 && !d.canStandby n && (op != 3 || d.g F.CAN.STAT_STATE 0 n == 2)

/-- A BUS_MODE command of one OP: acts on each bus in the mask; a bus whose controller is off, or not in bus-off for OP 3, fails (R445). -/
def Dev.busMode (d : Dev) (id op : Nat) (go : Dev → Nat → Dev) : Dev :=
  if !(d.cmd id).any (fun c => c.par 28 1 == op || 3 < c.par 28 1) then d
  else d.runCmd 0x0506 id false busRange (fun d c =>
    let mask := c.par 24 4
    let good := (bitList 32 mask).filter (d.busReady op)
    (d.each good go, { tryM := mask, okM := ofBits good, fail := stDown, result := 0 }))

/-- BUS_WAKE: OP 0 wakes each bus in the mask (R433, R445). -/
def execBusWake (id : Nat) (s : State) : Answer := run s (fun d => d.busMode id 0 (fun d n => d.canWake n))

/-- BUS_SLEEP_EDGE: OP 1 puts each bus in the mask to sleep with wake on edge (R433, R445). -/
def execBusSleepEdge (id : Nat) (s : State) : Answer := run s (fun d => d.busMode id 1 (fun d n => d.canSleepReq n 1))

/-- BUS_SLEEP_FRAME: OP 2 puts each bus in the mask to sleep with wake on frame (R433, R445). -/
def execBusSleepFrame (id : Nat) (s : State) : Answer := run s (fun d => d.busMode id 2 (fun d n => d.canSleepReq n 2))

/-- BUS_RECOVER: OP 3 starts bus-off recovery on each bus in the mask (R432, R445). -/
def execBusRecover (id : Nat) (s : State) : Answer := run s (fun d => d.busMode id 3 (fun d n => d.canRecover n))

end Sys2Proof.Machine
end

