-- ==== Sys2Proof/Machine/Fabric.lean ====
section
/-! DEFINITION. Meanings of the fabric family: Voxnen links, fabric frames, the huddle, the shortest-path table, cede records and their commands
(R451 to R475), with the wired events of the Route dies and the egress of their ports (R337, R372, R374). -/

namespace Sys2Proof.Machine
open Sys2Proof

/-! ## Links (R455 to R458) -/

/-- A link's own state. -/
def Dev.vxlL (d : Dev) (l : Nat) : VxlLink := d.vxl.getD l {}
/-- Change a link's own state. -/
def Dev.setVxl (d : Dev) (l : Nat) (f : VxlLink → VxlLink) : Dev := { d with vxl := modAt d.vxl l f }

/-- Whether a link's page works and is enabled. -/
def Dev.vxlUp (d : Dev) (l : Nat) : Bool := l < 8 && (d.pageFault ⟨.VXL, 0, l⟩).isNone && d.on F.VXL.CFG_EN 0 l

/-- Show that TWN.CFG.LINK is in UP. -/
def Dev.showTwinLink (d : Dev) : Dev := d.w F.TWN.STAT_LINK_UP (b2n (d.on F.TWN.CFG_EN && d.vxlState (d.g F.TWN.CFG_LINK) == 4))

/-- Give a link the state `st`; lanes, peer and held classes return to their values of a link that is not in UP. Leaving UP counts, is reported
while CFG.EN is 1, and changes the LSA, as entering UP does (R455, R464, R477). -/
def Dev.vxlTo (d : Dev) (l st : Nat) : Dev :=
  let was := d.vxlState l
  let d := d.w F.VXL.STAT_STATE st 0 l
  let d := d.when (st < 2) (fun d =>
    let d := ((d.w F.VXL.LANE_STAT_LOCK 0 0 l).w F.VXL.LANE_STAT_FAILED 0 0 l).w F.VXL.LANE_STAT_MAP0 0 0 l
    ((d.w F.VXL.LANE_STAT_MAP1 0 0 l).w F.VXL.STAT_DEGRADED 0 0 l).setVxl l (fun _ => {}))
  let d := d.when (st != 4) (fun d => (d.w F.VXL.STAT_HELD_RX 0 0 l).w F.VXL.STAT_PEER_ID 0x3F 0 l)
  let d := d.when (st != 5) (fun d => d.w F.VXL.STAT_FAULT_CAUSE 0 0 l)
  let d := d.when (was == 4 && st != 4) (fun d =>
    (d.inc C.VXL.LINK_DOWN 0 l).when (d.on F.VXL.CFG_EN 0 l) (fun d => d.raise E.VXL.LINK_DOWN 0 l))
  (d.when ((was == 4) != (st == 4) && !d.twinLink l) (fun d => d.originate)).showTwinLink

/-- A link in FAULT with its cause (Table 16-1). -/
def Dev.vxlFault (d : Dev) (l cause : Nat) : Dev := (d.vxlTo l 5).w F.VXL.STAT_FAULT_CAUSE cause 0 l

/-- VXL_SIGNAL_DETECT: signal on both data lanes; DETECT to LOCK (R455). -/
def execVxlSignalDetect (link : Nat) (s : State) : Answer :=
  run s (fun d => if d.vxlUp link && d.vxlState link == 1 then d.vxlTo link 2 else d)

/-- VXL_BLOCK_LOCK: block lock and deskew on both data lanes; LOCK to HELLO (R455). -/
def execVxlBlockLock (link : Nat) (s : State) : Answer :=
  run s (fun d => if d.vxlUp link && d.vxlState link == 2 then
      (((d.w F.VXL.LANE_STAT_LOCK 3 0 link).w F.VXL.LANE_STAT_MAP0 0 0 link).w F.VXL.LANE_STAT_MAP1 1 0 link).vxlTo link 3
    else d)

/-- VXL_HELLO_TX: a link in HELLO sends a HELLO (R455). -/
def execVxlHelloTx (link : Nat) (s : State) : Answer :=
  run s (fun d => if d.vxlUp link && d.vxlState link == 3 then d.hudSend link (d.helloMsg link) else d)

/-- A received HELLO (Table 16-1): UP for a matching FID and a foreign EUI-64, FAULT otherwise; a link in UP takes the peer's ID from it. -/
def Dev.helloRx (d : Dev) (l : Nat) (m : List Byte) : Dev :=
  let st := d.vxlState l
  let fid := leAt m 3 1
  let eui := beAt m 4 8
  let id := leAt m 2 1
  let peer := fun (d : Dev) => (((d.w F.VXL.STAT_PEER_ID (if id == 255 then 0x3F else id) 0 l).w F.VXL.PEER_EUI_LO_E eui 0 l).w F.VXL.PEER_EUI_HI_E
    (eui / 2 ^ 32) 0 l)
  if st == 2 || st == 3 then
    if fid != d.g F.HUD.CFG_FID then d.vxlFault l 2
    else if eui == d.helloEui l then d.vxlFault l 3
    else if st == 3 then (peer d).vxlTo l 4 else d
  else if st == 4 && fid == d.g F.HUD.CFG_FID then peer d
  else d

/-- VXL_HELLO_RX: a received HELLO moves the link to UP, or to FAULT for a wrong FID or a loop (R455). -/
def execVxlHelloRx (link : Nat) (msg : List Byte) (s : State) : Answer :=
  run s (fun d => if d.vxlUp link then d.helloRx link msg else d)

/-- VXL_LOCK_TIMEOUT: not in UP within 10 ms of LOCK; FAULT with cause TIMEOUT (R455). -/
def execVxlLockTimeout (link : Nat) (s : State) : Answer :=
  run s (fun d => if d.vxlUp link && (d.vxlState link == 2 || d.vxlState link == 3) then d.vxlFault link 1 else d)

/-- VXL_FAULT_RETRY: 100 ms after FAULT entry the link returns to DETECT (R455). -/
def execVxlFaultRetry (link : Nat) (s : State) : Answer :=
  run s (fun d => if d.vxlUp link && d.vxlState link == 5 then d.vxlTo link 1 else d)

/-- VXL_LOSS_OF_LOCK: no data lane is left; UP to DETECT (R455). -/
def execVxlLossOfLock (link : Nat) (s : State) : Answer :=
  run s (fun d => if d.vxlUp link && d.vxlState link == 4 then d.vxlTo link 1 else d)

/-- The link goes on with every block on the one lane that remains (R457). -/
def Dev.vxlDegrade (d : Dev) (l lane : Nat) : Dev :=
  let d := (d.w F.VXL.STAT_DEGRADED 1 0 l).raise E.VXL.DEGRADED 0 l
  let stay := if d.g F.VXL.LANE_STAT_MAP0 0 l == lane then d.g F.VXL.LANE_STAT_MAP1 0 l else d.g F.VXL.LANE_STAT_MAP0 0 l
  let d := (d.w F.VXL.LANE_STAT_MAP0 stay 0 l).w F.VXL.LANE_STAT_MAP1 stay 0 l
  (d.noSpare 5 0 (3 * l + lane) 0).when (!d.twinLink l) (fun d => d.originate)

/-- The substitution under way of a link's lane, if there is one (R522). -/
def Dev.laneSubst (d : Dev) (l lane : Nat) : Option TokenReq :=
  d.mt.held.find? (fun r => r.act == 2 && r.arg / 2 ^ 22 == 40 && r.arg % 2 ^ 20 == 3 * l + lane)

/-- Carry the logical lane of a physical lane on lane 2 (R456). A substitution of the lane that is under way switches over here; a lane that failed is
recorded by the bench manager (R521, R522). -/
def Dev.laneSwap (d : Dev) (l lane : Nat) : Dev :=
  let d := d.setVxl l (fun x => { x with swap := none })
  let d := if d.g F.VXL.LANE_STAT_MAP0 0 l == lane then d.w F.VXL.LANE_STAT_MAP0 2 0 l
    else if d.g F.VXL.LANE_STAT_MAP1 0 l == lane then d.w F.VXL.LANE_STAT_MAP1 2 0 l else d
  let d := d.wBit F.VXL.LANE_STAT_LOCK 2 true 0 l
  let d := match d.laneSubst l lane with
    | some r => d.switchOver 5 0 (3 * l + lane) (r.arg / 2 ^ 20 % 4) r.cmd []
    | none =>
      let d := (d.wBit F.VXL.LANE_STAT_FAILED lane true 0 l).wBit F.VXL.LANE_STAT_LOCK lane false 0 l
      let d := (d.setUnit { d.unit 5 0 (3 * l + lane) with state := .failed }).setUnit
        { d.unit 5 0 (3 * l + 2) with state := .active }
      (d.inc C.BEN.SUBST_FAIL).logRec 0x0601 1 0 (substData 5 0 (3 * l + lane) (3 * l + 2) 0)
  (d.inc C.VXL.LANE_SWAP 0 l).raise E.VXL.LANE_SWAP 0 l

/-- Whether physical lane 2 is free to take a failed lane's place. -/
def Dev.benchFree (d : Dev) (l : Nat) : Bool :=
  d.g F.VXL.LANE_STAT_MAP0 0 l != 2 && d.g F.VXL.LANE_STAT_MAP1 0 l != 2 && !bitOf (d.g F.VXL.LANE_STAT_FAILED 0 l) 2

/-- Whether a physical lane carries data of a link in UP and lane 2 is free to take its place. -/
def Dev.laneServes (d : Dev) (l lane : Nat) : Bool :=
  d.vxlUp l && d.vxlState l == 4 && (d.g F.VXL.LANE_STAT_MAP0 0 l == lane || d.g F.VXL.LANE_STAT_MAP1 0 l == lane) && d.benchFree l

/-- The ordered set that names a lane goes out, and the swap waits for the peer's (R456). -/
def Dev.laneSet (d : Dev) (l lane : Nat) : Dev := (d.setVxl l (fun x => { x with swap := some lane })).emit (.vxlSet l 0xB lane)

/-- Whether a lane counts as failed: a loss of block lock, or more than LANE_ERR invalid sync headers in 1 ms, which an LANE_ERR of 0 does not test (R456). -/
def Dev.laneBad (d : Dev) (l : Nat) (bad : Option Nat) : Bool :=
  bad.elim true (fun n => d.g F.VXL.CFG_LANE_ERR 0 l != 0 && d.g F.VXL.CFG_LANE_ERR 0 l < n)

/-- VXL_LANE_FAIL: a data lane fails; the ordered set that names it goes out on the good lanes until the peer answers (R456). With the bench lane
in use or failed the link degrades (R457). A failed bench lane that carries nothing is recorded. -/
def execVxlLaneFail (link : Nat) (lane : LaneFail) (s : State) : Answer :=
  run s (fun d =>
    let bad := lane.bad
    let lane := lane.lane
    if !d.vxlUp link || d.vxlState link != 4 || 3 ≤ lane || !d.laneBad link bad || bitOf (d.g F.VXL.LANE_STAT_FAILED 0 link) lane then d
    else
      let used := d.g F.VXL.LANE_STAT_MAP0 0 link == lane || d.g F.VXL.LANE_STAT_MAP1 0 link == lane
      let free := d.benchFree link
      let d := (d.wBit F.VXL.LANE_STAT_FAILED lane true 0 link).wBit F.VXL.LANE_STAT_LOCK lane false 0 link
      if !used then d.setUnit { d.unit 5 0 (3 * link + lane) with state := .failed }
      else if free then d.laneSet link lane
      else d.vxlDegrade link lane)

/-! ## Link flow control (R458) -/

/-- VXL_FC_SET_RX: an ordered set holds classes, or releases them (R458). -/
def execVxlFcSetRx (link mask : Nat) (s : State) : Answer :=
  run s (fun d => if d.vxlUp link && d.vxlState link == 4 then d.w F.VXL.STAT_HELD_RX mask 0 link else d)

/-- VXL_FC_EXPIRY: 1 ms after the last set that held it a class is released (R458). -/
def execVxlFcExpiry (link cls : Nat) (s : State) : Answer :=
  run s (fun d => if d.vxlUp link && cls < 8 then d.wBit F.VXL.STAT_HELD_RX cls false 0 link else d)

/-- Whether a link sends flow control: in UP with FC_EN, with the right to send on it (Table 17-2), not in QUIESCE. -/
def Dev.vxlFcMay (d : Dev) (l : Nat) : Bool :=
  d.vxlUp l && d.vxlState l == 4 && d.on F.VXL.CFG_FC_EN 0 l && d.mayRadiate && d.act != mQuiesce

/-- Send a flow-control set; which classes a hold set names is not stated and free. -/
def Dev.vxlFc (d : Dev) (l : Nat) (hold : Bool) : Dev :=
  let f := d.freshNat
  ((if hold then f.2 else d).emit (.vxlSet l 0xA (if hold then 1 + f.1 % 255 else 0))).inc C.VXL.FC_TX 0 l

/-- VXL_FC_XOFF: the wired lane reaches XOFF and the link sends a hold set (R458). -/
def execVxlFcXoff (link : Nat) (s : State) : Answer :=
  run s (fun d =>
    if !d.vxlFcMay link || (d.vxlL link).xoff || d.wiredLane (16 + link) < d.g F.VXL.FC_THR_XOFF 0 link then d
    else (d.setVxl link (fun x => { x with xoff := true })).vxlFc link true)

/-- VXL_FC_REPEAT: the hold set is repeated while the lane holds more than XON (R458). -/
def execVxlFcRepeat (link : Nat) (s : State) : Answer :=
  run s (fun d =>
    if !d.vxlFcMay link || !(d.vxlL link).xoff || d.wiredLane (16 + link) ≤ d.g F.VXL.FC_THR_XON 0 link then d else d.vxlFc link true)

/-- VXL_FC_XON: the lane falls to XON and the link sends one set with mask 0 (R458). -/
def execVxlFcXon (link : Nat) (s : State) : Answer :=
  run s (fun d =>
    if !d.vxlFcMay link || !(d.vxlL link).xoff || d.g F.VXL.FC_THR_XON 0 link < d.wiredLane (16 + link) then d
    else (d.setVxl link (fun x => { x with xoff := false })).vxlFc link false)

/-! ## Frames from a link (R454, R460, R462, R482) -/

/-- TYPE of a fabric frame. -/
def fabType (f : List Byte) : Nat := leAt f 0 1 / 8 % 8

/-- Whether the device has an ID (R465). -/
def Dev.hasId (d : Dev) : Bool := d.hudId != 255

/-- The check that fails first, as its counter (R454, R482); `f` is the frame with its CRC-32C. -/
def Dev.fabCheck (d : Dev) (l : Nat) (f : List Byte) (codeErr : Bool) : Option Ctr :=
  let ty := fabType f
  let hello := ty == 2 && leAt f 16 1 == 0
  if codeErr || f.length < 20 then some C.VXL.RX_CODE_ERR
  else if beAt f 14 2 != crc16h (f.take 14) then some C.VXL.RX_HCRC_ERR
  else if 64 ≤ leAt f 0 1 || 5 ≤ ty || (ty == 3) != (d.twinLink l && !hello) then some C.VXL.RX_HDR_ERR
  else if !hello && leAt f 8 1 != d.g F.HUD.CFG_FID then some C.VXL.RX_FID_DROP
  else if beAt f 4 2 % 16384 == 0 || 9216 < beAt f 4 2 % 16384 || beAt f 4 2 % 16384 != f.length - 20 then some C.VXL.RX_LEN_ERR
  else if beAt f (f.length - 4) 4 != crc32cStd (f.take (f.length - 4)) then some C.VXL.RX_CRC_ERR
  else none

/-- VXL_FRAME_RX: a fabric frame is checked; HUDDLE frames go to the captain, data frames of a link in UP to the wired lane of the owning die, and
TWIN frames are the twin link's own (R454, R460, R462, Table 16-6, R495). -/
def execVxlFrameRx (link : Nat) (frame : List Byte) (codeErr : Bool) (s : State) : Answer :=
  run s (fun d =>
    if !d.vxlUp link || d.vxlState link < 2 || d.vxlState link == 5 then d
    else match d.fabCheck link frame codeErr with
      | some c => d.inc c 0 link
      | none =>
        let body := frame.take (frame.length - 4)
        let msg := body.drop 16
        let took := fun (d : Dev) => (d.inc C.VXL.RX_FRAMES 0 link).addc C.VXL.RX_OCTETS body.length 0 link
        let ty := fabType frame
        if ty == 2 then
          if leAt msg 0 1 == 0 then (took d).helloRx link msg
          else if d.vxlState link == 4 && leAt msg 0 1 == 1 && d.hud.on then (took d).lsaRx link msg else d
        else if d.vxlState link != 4 then d
        else if ty == 3 then took d
        else if d.act == mQuiesce || d.act == mShadow then d.inc C.VXL.RX_QUIESCE 0 link
        else if !d.hasId then d
        else (took d).toWired (portOwner (16 + link)) 1 body.length (fun b => .fab link body d.evTime b))

/-- LSA_RX: a received LSA is kept and flooded, or counted stale; ID contests are decided (R464, R465). -/
def execLsaRx (link : Nat) (msg : List Byte) (s : State) : Answer :=
  run s (fun d => if d.vxlUp link && d.vxlState link == 4 && d.hud.on && leAt msg 0 1 == 1 then d.lsaRx link msg else d)

/-- LSA_REFRESH: REFRESH ms pass and the device originates its LSA again (R464). -/
def execLsaRefresh (s : State) : Answer := run s (fun d => d.originate)

/-- LSA_EXPIRY: an LSA not renewed within 3 × REFRESH ms is removed (R464). -/
def execLsaExpiry (eui : Nat) (s : State) : Answer :=
  run s (fun d =>
    if eui == d.hudEui || !d.hud.lsas.any (fun r => r.eui == eui) then d
    else
      let l := d.hud.lsas.filter (fun r => r.eui != eui)
      let d := { d with hud := { d.hud with lsas := l } }.w F.HUD.STAT_DEVICES l.length
      if d.on F.HUD.STAT_SETTLED then (d.setSettled false).originate else d)

/-- HUDDLE_SETTLE: the held LSAs have not changed for SETTLE ms; with an ID that no held LSA contests the huddle settles, and a re-huddle ends
(R466, R467). -/
def execHuddleSettle (s : State) : Answer :=
  run s (fun d =>
    if !d.hud.on || d.hud.id == 255 || d.others.any (fun r => r.id == d.hud.id) || d.on F.HUD.STAT_SETTLED then d
    else
      let d := (d.setSettled true).originate
      match d.mt.held.find? (fun r => r.act == 6) with
      | none => d
      | some r =>
        let d := (d.w F.HUD.STAT_REHUDDLE 0).releaseToken 6 r.scope
        r.cmd.elim d (fun id => (d.cmd id).elim d (fun c => d.finish id c.ok)))

/-! ## The shortest-path table (R468, R469) -/

/-- A path found so far: its cost, hops and first link. -/
abbrev Path := Nat × Nat × Nat

/-- Whether a path goes before another (R468). -/
def pathLt (a b : Path) : Bool := if a.1 != b.1 then a.1 < b.1 else if a.2.1 != b.2.1 then a.2.1 < b.2.1 else a.2.2 < b.2.2

/-- The links between devices that count: from, to, cost and link (R468). -/
def hudEdges (l : List LsaRec) : List (Nat × Nat × Nat × Nat) :=
  l.flatMap (fun r => (List.range 8).filterMap (fun k =>
    let x := r.link_ k
    if x.1 && r.id < 64 && l.any (fun o => o.id == x.2.1 && (List.range 8).any (fun j => (o.link_ j).1 && (o.link_ j).2.1 == r.id)) then
      some (r.id, x.2.1, x.2.2, k)
    else none))

/-- One round of relaxation over every edge. -/
def relax (self : Nat) (es : List (Nat × Nat × Nat × Nat)) (t : List (Option Path)) : List (Option Path) :=
  es.foldl (fun t e =>
    match (if e.1 == self then some (0, 0, e.2.2.2) else (t.getD e.1 none)) with
    | none => t
    | some p =>
      let n : Path := (p.1 + e.2.2.1, p.2.1 + 1, p.2.2)
      if e.2.1 == self || 64 ≤ e.2.1 then t
      else if (t.getD e.2.1 none).elim true (fun o => pathLt n o) then t.set e.2.1 (some n) else t) t

/-- The best path to each device (R468). -/
def sptPaths (self : Nat) (l : List LsaRec) : List (Option Path) :=
  let es := hudEdges l
  forN 63 (List.replicate 64 none) (fun t _ => relax self es t)

/-- Write the DEV entries of one Route die: a HOST_CMD event of the captain's own (R469). -/
def Dev.writeDevs (d : Dev) (die : Nat) (want : List (Nat × Nat)) : Dev :=
  let d := d.deleteFwd die (fun e => e.kind == 1 && !want.any (fun w => w.1 == e.key))
  d.each want (fun d w => (d.insertFwd die
    { pos := 0, kind := 1, ver := false, static := false, plen := 0, vlan := 0, key := w.1, age := d.fwdAgeLow die, port := w.2, dest := 0, action := 0,
      dev := 0, sub := 0, cls := 0, clsEn := false, nhMac := 0 }).1)

/-- The Voxnen ports that DEV entries of a die name. -/
def Dev.devPorts (d : Dev) (die : Nat) : List Nat := ((d.route die).fwd.filter (fun e => e.kind == 1)).map (fun e => e.port)

/-- The ports whose last DEV entry has gone while their link is not in UP are flushed (R469). -/
def Dev.flushGone (d : Dev) (die : Nat) (before : List Nat) : Dev :=
  d.each (((List.range 8).map (fun l => 16 + l)).filter (fun p =>
      portOwner p == die && before.contains p && !([1, 2] : List Nat).any (fun x => (d.devPorts x).contains p) && d.vxlState (p - 16) != 4))
    (fun d p => d.flushPort die p)

/-- The DEV entries that SPT asks for. -/
def Dev.sptDevs (d : Dev) : List (Nat × Nat) :=
  ((List.range 64).filter (fun i => d.on F.HUD.SPT_VALID 0 0 i)).map (fun i => (i, 16 + d.g F.HUD.SPT_LINK 0 0 i))

/-- The captain's HOST_CMD events that write DEV entries run on each Route die whose order takes an event; another die's event waits (R339, R469). -/
def Dev.devEvents (d : Dev) : Dev :=
  let before := d.devPorts 1 ++ d.devPorts 2
  let ready := d.hud.devWait.filter (fun die => d.seqOpen die)
  if ready.isEmpty then d
  else
    let want := d.sptDevs
    let d := { d with hud := { d.hud with devWait := d.hud.devWait.filter (fun die => !ready.contains die) } }
    let d := d.each ready (fun d die => ((d.sequence die 3).journal die 3 0 d.evTime (.dev want)).writeDevs die want)
    (d.flushGone 1 before).flushGone 2 before

/-- SPT_RECOMPUTE: the captain recomputes the shortest-path table and rewrites the DEV entries of both Route dies (R468, R469). -/
def execSptRecompute (s : State) : Answer :=
  run s (fun d =>
    if !d.on F.HUD.STAT_SETTLED || !d.hasId then d
    else
      let t := sptPaths d.hud.id d.hud.lsas
      let d := d.each (List.range 64) (fun d i =>
        let p := t.getD i none
        let v : Path := p.getD (0, 0, 0)
        (((d.w F.HUD.SPT_VALID (b2n p.isSome) 0 0 i).w F.HUD.SPT_LINK v.2.2 0 0 i).w F.HUD.SPT_HOPS (min 63 v.2.1) 0 0 i).w F.HUD.SPT_COST
          (min 65535 v.1) 0 0 i)
      let d := d.inc C.HUD.SPT_RUNS
      { d with hud := { d.hud with devWait := ([1, 2] : List Nat).filter (fun die => d.dieUp die && d.act != mShadow) } }.devEvents)

/-! ## Wired events (R320 to R323, R460, R461) -/

/-- The header of a fabric frame one hop on: TTL less one and HCRC recomputed; none where TTL would reach 0 (R460). -/
def fabOnward (f : List Byte) : Option (List Byte) :=
  let ttl := leAt f 3 1
  if ttl ≤ 1 then none
  else
    let h := f.take 3 ++ toBE 1 (ttl - 1) ++ (f.drop 4).take 10
    some (h ++ toBE 2 (crc16h h))

/-- A fabric frame at its place in a die's order (R460, R461). -/
def Dev.fabPlay (d : Dev) (die link : Nat) (f : List Byte) (time buf : Nat) : Dev :=
  let port := 16 + link
  let ty := fabType f
  let flood := 128 ≤ leAt f 1 1
  let dst := leAt f 1 1 % 64
  let src := leAt f 2 1 % 64
  let inPort := beAt f 6 2 % 32
  let inner := f.drop 16
  let own := inPort ≤ 15 && (List.range 8).any (fun i => d.on F.ETH.UC_HI_EN 0 inPort i &&
    d.g F.ETH.UC_HI_A 0 inPort i * 2 ^ 32 + d.g F.ETH.UC_LO_A 0 inPort i == beAt inner 0 6)
  let x : FwdIn :=
    { port := port, dev := some src, data := inner, ip := ty == 1, own := ty == 0 && own, flood := false, time := time, cls := some (leAt f 0 1 % 8),
      sub := none, buf := buf }
  let toHost := fun (d : Dev) => d.toHost die { src := 1, port := port } false inner (leAt f 0 1 % 8) 0 false time buf
  if flood then
    if !(d.on F.HUD.SPT_VALID 0 0 src && d.g F.HUD.SPT_LINK 0 0 src == link) then d.inc C.VXL.RPF_DROP 0 link
    else if ty == 4 then toHost d
    else if ty == 1 then d.fwdPlay die x
    else
      let on := fabOnward f
      let d := d.when on.isNone (fun d => d.inc C.VXL.TTL_DROP 0 link)
      let e := EthFrame.ofBytes inner
      let d := d.learnFrom die x e
      let cls := d.wiredClass die x e
      let m := d.meterFlow die port cls (inner.length + 4) time
      let d := m.1.colourOut die m.2
      if m.2 == 2 then d
      else d.fwdFlood die { tag := { src := 1, port := port }, data := inner, isIp := false, node := false, cls := cls, sub := 0, col := m.2,
                            time := time, buf := buf } { x with hdr := on.getD [] }
  else if d.hasId && dst == d.hud.id then (if ty == 4 then toHost d else d.fwdPlay die x)
  else
    let r := d.devFind die dst
    match r.2, fabOnward f with
    | none, _ => r.1.inc C.FWD.DEV_MISS die
    | some _, none => r.1.inc C.VXL.TTL_DROP 0 link
    | some g, some h =>
      let cls := r.1.wiredClass die x (EthFrame.ofBytes inner)
      let m := r.1.meterFlow die port cls (inner.length + 4) time
      let d := m.1.colourOut die m.2
      if m.2 == 2 then d else d.toPort die g.port cls 0 (m.2 == 1) (h ++ inner) none time buf

/-- WIRED_FRAME: the Ethernet or fabric frame at the head of the wired lane is placed and runs its play; a downlink that needs a crypto reservation
waits while none is free (R23, R320, R337, R339, R355). -/
def execWiredFrame (die : Nat) (env : PlayEnv) (s : State) : Answer :=
  run s (fun d =>
    match (d.route die).wired with
    | [] => d
    | w :: rest =>
      if !d.mayPlace die 1 then d.turned die 1
      else
        let old := d
        let go := fun (time buf : Nat) (play : Dev → Dev) =>
          let d := (d.setRoute die (fun r => { r with wired := rest })).place die 1 1
          let d := d.journal die 1 (if env.lane != 0 then 2 else 0) time (.wired w)
          let d := if env.lane != 0 then d.laneLost die 5 env else play d
          old.orWait (((d.release die buf).sampleAll die env).showLanes die)
        match w with
        | .can _ => d
        | .eth f => go f.time f.buf (fun d => d.fwdPlay die f)
        | .fab l f t b => go t b (fun d => d.fabPlay die l f t b))

/-! ## Egress (R242, R352, R372, R374, R405, R453) -/

/-- A packet reaches an air MAC's store of pending downlinks: a native frame as it is, a legacy data frame secured and held for indirect
transmission (R242, R252, R271). -/
def Dev.toAirStore (d : Dev) (air : Nat) (f : DlFrame) : Dev :=
  if !f.leg then d.setAir air (fun a => { a with dl := a.dl ++ [{ f with readyAt := d.time.lt }] })
  else
    match (d.airD air).leg.find? (fun n => d.legKeyOf air n == ⟨f.tag, f.tenant⟩), d.root f.tenant with
    | some n, some root =>
      let q := d.legSeq
      let pan := d.g F.AMC.LEG_PAN_PAN_ID air 0 n.pan
      q.2.legHold air 0 n.short n.ext q.1 (d.legData air root pan n.short n.ext q.1 f.fcnt f.micl f.payload) (some f)
    | _, _ => d

/-- Whether a band carries traffic: its Air die and its Band die are up (Table 1-6). -/
def Dev.bandRuns (d : Dev) (air : Nat) : Bool := d.dieUp air && d.dieUp (air + 2)

/-- Whether a port's transmitter can take a packet now. -/
def Dev.portTakes (d : Dev) (port : Nat) (env : EgressEnv) : Bool :=
  if port ≤ 15 then d.ethUp port && d.on F.ETH.STAT_LINK 0 port && d.mayRadiate && (d.ethP port).tx.isNone
  else if port ≤ 23 then d.vxlUp (port - 16) && d.vxlState (port - 16) == 4 && !d.twinLink (port - 16) && d.mayRadiate && d.hasId
  else if port ≤ 25 then d.bandRuns (port - 21) && !env.storeFull
  else if port == 26 then d.booted
  else port == 27 && d.gwUp

/-- What a port's transmitter does with a packet that it takes. -/
def Dev.egress (d : Dev) (port : Nat) (p : Pkt) (env : EgressEnv) : Dev :=
  if port ≤ 15 then
    if d.g F.ETH.MAC_CFG_MAXLEN 0 port < p.data.length + 4 then d.inc C.ETH.TX_TOO_LONG 0 port
    else d.setEth port (fun e => { e with tx := some p })
  else if port ≤ 23 then d.vxlSend (port - 16) p.data
  else if port ≤ 25 then p.dl.elim d (fun f => d.toAirStore (port - 21) f)
  else if port == 26 then (if env.dmaErr then d.raise E.FCL.HOST_LINK else d.emit (.hostFrame p.data))
  else { d with gw := { d.gw with pdus := d.gw.pdus ++ [p] } }

/-- PORT_DEQUEUE: a port's transmitter takes the packet that its scheduler chooses; the choice's effects follow at its EGRESS_DONE event. In QUIESCE
and SHADOW none is taken; in PRIMARY a packet waits for its event's acknowledgement; a packet with an uncorrectable cell is dropped
(R127, R366, R372, R374, R490). Downlink to a halted band stays in its queue and is counted, in the band's TXB.NO_CHAIN since the spec names no counter for it
(Table 1-6; DESIGN CHOICE, log 26). -/
def execPortDequeue (die port : Nat) (env : EgressEnv) (s : State) : Answer :=
  run s (fun d =>
    if portOwner port != die || !d.dieUp die || !(d.act == mService || d.act == mBringup) || (d.portSt die port).taking then d
    else if !d.portTakes port env then
      d.when ((port == 24 || port == 25) && !d.bandRuns (port - 21) && (d.choose die port).any (fun q => !q.pkts.isEmpty)) (fun d => d.inc C.TXB.NO_CHAIN (port - 21))
    else
      let d := d.countGated die port
      match d.choose die port with
      | none => d
      | some q =>
        match q.pkts.head? with
        | none => d
        | some p =>
          if d.recordWaits die p.seq then d
          else
            let d := if env.bufErr then d.raise E.ING.BUF_ECC die else d.egress port p env
            let d := d.setPort die port (fun st => { st with taking := true })
            (d.setRoute die (fun r => { r with int := r.int ++ [.egress port q.num] })).showLanes die)

/-! ## Commands (Table 16-5) -/

/-- FAB_SEND: sends a HOSTMSG frame toward a device with a DEV entry, through the flow meter of port 26 (R381, R460, R474). -/
def execFabSend (id : Nat) (dmaErr : Bool) (s : State) : Answer :=
  run s (fun d => d.runCmd 0x0601 id dmaErr (fun d c =>
      if c.len == 0 || 9216 < c.len || !(d.route 1).fwd.any (fun e => e.kind == 1 && e.key == c.par 24 1 % 64) then some 0 else none) (fun d c =>
    let dst := c.par 24 1 % 64
    let cls := c.par 25 1 % 8
    match (d.devFind 1 dst).2, d.alloc 1 2 c.len with
    | none, _ => (d, c.bad stRange)
    | some _, none => (d.inc C.ING.BUF_DROP 1 0 2, c.ok)
    | some g, some (d, b) =>
      let m := d.meterFlow 1 26 cls c.len d.evTime
      let d := m.1.colourOut 1 m.2
      let d := if m.2 == 2 then d else d.sendFab 1 g.port 4 cls 0 (m.2 == 1) false dst 26 (c.buf s.host c.len) d.evTime b
      (d.release 1 b, c.ok)))

/-- HUD_REHUDDLE: the fabric re-huddle under the token of region 1; the command ends when the huddle settles (R467). -/
def execHudRehuddle (id : Nat) (s : State) : Answer :=
  run s (fun d => d.runCmd 0x0602 id false noRange (fun d c => d.cmdToken c 6 (2 ^ 1) 0 (fun d => (d, c.later))))

/-- LSDB_READ: the held LSAs, 64 octets each (R474). -/
def execLsdbRead (id : Nat) (dmaErr : Bool) (s : State) : Answer :=
  runHost s (fun h d => d.runCmdH h 0x0603 id dmaErr (fun _ c => if 64 < c.cnt || c.len != 64 * c.cnt then some 0 else none) (fun _ d c =>
    let l := d.hud.lsas.take c.cnt
    (d, c.ok l.length, l.flatMap (fun r => r.bytes ++ toLE 1 r.link ++ toLE 7 0 ++ toLE 8 ((d.time.lt - r.since) / 320000)))))

/-- A cede record in its octets (Table 16-4). -/
def Cede.bytes (c : Cede) : List Byte :=
  toLE 4 c.key.tag ++ toLE 2 (c.key.tenant % 4096 + 0x8000) ++ toLE 1 c.claimer ++ toLE 1 (ofSigned 8 c.snr) ++ toLE 4 c.heard ++
    toLE 2 c.dlDrop ++ toLE 2 0 ++ toLE 8 c.tLast ++ toLE 8 0

/-- Apply one claim record on a die (R471, R472, R474): a record for a key of the other die is skipped; none where the bucket is full. -/
def Dev.claimSet (d : Dev) (die : Nat) (b : List Byte) : Option Dev :=
  let k : NodeKey := ⟨leAt b 0 4, leAt b 4 2 % 4096⟩
  if k.owner != die then some d
  else
    let r := d.route die
    let rest := r.cedes.filter (fun c => c.key != k)
    if leAt b 4 2 < 0x8000 then some (d.setRoute die (fun r => { r with cedes := rest }))
    else
      let old := r.cedes.find? (fun c => c.key == k)
      let base := 4 * cedeBucket k
      let pos := (old.map (fun c => c.pos)).orElse (fun _ => ((List.range 4).map (fun i => base + i)).find? (fun p => !r.cedes.any (fun c => c.pos == p)))
      pos.map (fun p =>
        let n : Cede :=
          { pos := p, key := k, claimer := leAt b 6 1 % 64, snr := sext 8 (leAt b 7 1), heard := leAt b 8 4, dlDrop := leAt b 12 2, tLast := leAt b 16 8 }
        ((d.setRoute die (fun r => { r with cedes := rest.filter (fun c => c.pos < p) ++ [n] ++ rest.filter (fun c => p < c.pos) })).deleteNode k).showPlan)

/-- CLAIM_SET: sets or removes cede records on each die that owns their keys; a full bucket stops the command with cause 6 (R472, R474). -/
def execClaimSet (id : Nat) (dmaErr : Bool) (s : State) : Answer :=
  run s (fun d => d.runCmd 0x0604 id dmaErr (fun _ c => if 4096 < c.cnt || c.len != 32 * c.cnt then some 0 else none) (fun d c =>
    let r := d.perDie c (fun d die =>
      let a := applyRecs (fun d _ b => d.claimSet die b) (c.recs s.host 32) 0 d 0
      (a.1, if a.2.2 then 0 else stRange))
    (r.1, { r.2 with result := if r.2.fail == stRange then 6 else 0 })))

/-- CLAIM_READ: valid cede records from a bucket onward, with the next cursor (R474). -/
def execClaimRead (id : Nat) (dmaErr : Bool) (s : State) : Answer :=
  runHost s (fun h d => d.runCmdH h 0x0605 id dmaErr (fun _ c => if c.len < 32 * c.cnt then some 0 else none) (fun _ d c =>
    let l := (d.route c.die1).cedes.filter (fun x => c.par 28 4 ≤ x.pos / 4)
    let t := takeBuckets c.cnt (l.map (fun x => (x.pos / 4, x.bytes)))
    (d, c.ok t.2, t.1)))

end Sys2Proof.Machine
end

