-- ==== Sys2Proof/Machine/Modes.lean ====
section
/-! DEFINITION. Possession and the outputs it gates (R478 to R482), mode transitions and their completion (R125 to R128), and DOZE entry and
wake (R129 to R131, R443, R444). -/

namespace Sys2Proof.Machine
open Sys2Proof

/-! ## Twin state and possession -/

/-- The twin state (Table 17-1). -/
def Dev.twin (d : Dev) : Nat := d.g F.TWN.STAT_STATE

/-- Enter a twin state: a change is logged and fires vector 13 (R508, Table 19-4). -/
def Dev.twinTo (d : Dev) (st : Nat) : Dev :=
  if d.twin == st then d
  else ((d.logRec 0x0801 1 0 (toLE 1 d.twin ++ toLE 1 st)).w F.TWN.STAT_STATE st).fireVec 13

/-- The outputs of Table 17-2 take their states without possession: frames on air, on Ethernet and on CAN buses end at once, and the RF
switches go low. -/
def Dev.gateOutputs (d : Dev) : Dev :=
  let d := d.each ([5, 6] : List Nat) (fun d die => d.each (List.range 4) (fun d c => d.cutAndDrop die c))
  let d := d.each (List.range 16) (fun d n => d.ethAbort n)
  let d := d.each (List.range 32) (fun d n =>
    match d.canActive n with
    | none => d
    | some x => d.canState n x.idx (d.failedState n x 5))
  d.rfswFollow

/-- Possession is released with the outputs it gates (R480). -/
def Dev.releasePoss (d : Dev) : Dev :=
  if d.on F.TWN.STAT_POSS_HELD then
    ({ d with pins := { d.pins with possLow := false } }.w F.TWN.STAT_POSS_HELD 0).gateOutputs
  else d

/-- The member leaves the pair for another twin state: the journal is forgotten on both sides, and outputs that it held are released (R489, Table 17-6). -/
def Dev.leavePair (d : Dev) (st : Nat) : Dev :=
  let d := d.each ([1, 2] : List Nat) (fun d die => d.setRoute die (fun r => { r with jrn := [], acked := 0 }))
  ({ d with tw := { d.tw with intake := [], handover := false, stalled := false, step := 0 } }.twinTo st).freeVecs (fun _ => true)

/-! ## Transitions (R125) -/

/-- The air MAC gives up what it has planned: beacons are not sent, downlinks and calls wait (R125, R259, Table 6-6). -/
def Dev.airStops (d : Dev) : Dev :=
  (d.each ([3, 4] : List Nat) (fun d air =>
    let xs := (d.airD air).planned ++ (d.airD air).handed
    let d := d.setAir air (fun a => { a with planned := [], handed := [] })
    d.each xs (fun d x => match x.who with
      | .beacon _ => d
      | _ => d.txWaits air x))).calWatch

/-- A transition starts: TRANS and TARGET show it, and what the new mode does not carry stops (R125). A transmission in progress ends at its frame end, so a
holder keeps possession until it has left SERVICE or BRINGUP (R127, R480); one that goes to SHADOW gives it up at once (R502). -/
def Dev.startTrans (d : Dev) (dest trigger : Nat) : Dev :=
  let d := { d with ms := { d.ms with trigger := trigger } }
  let d := (d.w F.BTL.BOOT_STAT_TRANS 1).w F.BTL.BOOT_STAT_TARGET dest
  let d := if dest == mShadow then d.releasePoss else d
  let d := if d.act == d.mode then d else d.airStops
  d.each ([5, 6] : List Nat) (fun d die => d.bandFollow die)

/-- A mode transition is issued to each Route die that runs as a MODE event (R125, R337). -/
def Dev.modeEvents (d : Dev) (dest : Nat) : Dev :=
  d.each (([1, 2] : List Nat).filter (fun die => d.dieUp die)) (fun d die =>
    d.setRoute die (fun r => { r with modeEv := r.modeEv ++ [(dest, d.hl.nextId)] }))

/-- A mode's activity starts: TRANS returns to 0 and MODE shows it. Entry into SERVICE applies the population configuration (R29, R125); a member that has
left SERVICE and BRINGUP releases possession (R480). -/
def Dev.enterNow (d : Dev) (dest : Nat) : Dev :=
  let d := (d.w F.BTL.BOOT_STAT_TRANS 0).w F.BTL.BOOT_STAT_MODE dest
  let d := if dest == mService || dest == mBringup then d else d.releasePoss
  let d := d.when (dest == mService) (fun d =>
    ({ d with boot := { d.boot with popRunning := d.boot.population } }.w F.POL.STAT_FULL d.boot.population 1).w F.POL.STAT_FULL
      d.boot.population 2)
  let d := { d with boot := { d.boot with enteredMode := true } }.modeEvents dest
  (d.each ([5, 6] : List Nat) (fun d die => d.bandFollow die)).rfswFollow.grantsOpen

/-- A mode is entered by a transition, which is logged (R125, Table 19-4). -/
def Dev.enterMode (d : Dev) (dest : Nat) : Dev := (d.logRec 0x0102 1 0 (toLE 1 d.mode ++ toLE 1 dest ++ toLE 1 d.ms.trigger)).enterNow dest

/-- QUIESCE_MAX_EXPIRY: QUIESCE has lasted QUIESCE_MAX seconds with no activation pending and no formation under way, and Dravina returns to
SERVICE (R128, Table 17-6). -/
def execQuiesceMaxExpiry (s : State) : Answer :=
  run s (fun d =>
    if d.mode != mQuiesce || d.on F.BTL.BOOT_STAT_TRANS || d.g F.BTL.QUIESCE_MAX_SEC == 0 || d.on F.UPD.STAT_ACT_BUSY || d.twin == 6 then d
    else (d.logRec 0x0402 1 0 (toLE 4 (d.g F.BTL.QUIESCE_MAX_SEC))).startTrans mService 1)

/-! ## Calibration in full and stored (R147) -/

/-- A receive calibration in full of a band in STANDBY: its results are recorded, failing chains fail and passing ones rejoin. -/
def Dev.rxFull (d : Dev) (die : Nat) (env : CalEnv) : Dev :=
  let codes := env.codes.filter (fun e => e.1 == die)
  let d := (d.setBand die (fun b => b.learn (codes.map (·.2)))).showDco die
  let d := (d.w F.SYN.RX_TCAL_T (ofSigned 8 (d.tempC (rxRegion die))) die).inc C.SYN.RX_CAL_CNT die
  let en := bitList 8 (d.g F.RXF.CHAIN_EN_EN die)
  let bad := en.filter (fun c => bitOf env.rxBad (8 * (die - 5) + c))
  let d := d.each (en.filter (fun c => !bad.contains c)) (fun d c =>
    (d.wBit F.RXF.CHAIN_STAT_FAILED c false die).w F.RXF.FAIL_CAUSE_CAUSE 0 die 0 c)
  let d := d.each bad (fun d c => d.rxChainFail die c 2)
  (d.when (!bad.isEmpty) (fun d => (d.w F.SYN.CAL_STAT_LAST_FAIL 1 die).raise E.SYN.CAL_FAIL die)).showChains die

/-- A transmit calibration in full of a chain: T_cal and V_cal are recorded, or the chain enters TX_FAIL (R164). -/
def Dev.txFull (d : Dev) (die c : Nat) (env : CalEnv) : Dev :=
  if bitOf env.txBad (4 * (die - 5) + c) then ((d.w F.SYN.CAL_STAT_LAST_FAIL 2 die).raise E.SYN.CAL_FAIL die).txFail die c
  else
    ((d.w F.SYN.TX_TCAL_T (ofSigned 8 (d.tempC (txRegion die))) die 0 c).w F.SYN.TX_TCAL_V d.vddRfa die 0 c).inc C.SYN.TX_CAL_CNT die 0 c

/-- The stored calibration of a Band die. -/
def Dev.storedOf (d : Dev) (die : Nat) : StoredCal := d.stored.getD (die - 5) {}

/-- The stored receive results are loaded with the T_cal recorded when they were measured. -/
def Dev.rxStored (d : Dev) (die : Nat) : Dev :=
  let st := d.storedOf die
  ((d.setBand die (fun b => { b with dco := st.dco, dcoSize := st.dcoSize, dcoOver := [] })).showDco die).w F.SYN.RX_TCAL_T st.rxT die

/-- The stored results of a transmit synthesiser are loaded with their T_cal and V_cal. -/
def Dev.txStored (d : Dev) (die c : Nat) : Dev :=
  let t := (d.storedOf die).txT.getD c (0, 0)
  (d.w F.SYN.TX_TCAL_T t.1 die 0 c).w F.SYN.TX_TCAL_V t.2 die 0 c

/-- The results of a successful receive calibration are written to the stored calibration range of flash (R147). -/
def Dev.storeRx (d : Dev) (die : Nat) : Dev :=
  { d with stored := modAt d.stored (die - 5) (fun c => { c with
      valid := true, rxT := d.g F.SYN.RX_TCAL_T die, dco := (d.band die).dco, dcoSize := (d.band die).dcoSize }) }

/-- The results of a chain's successful transmit calibration are written there (R147). -/
def Dev.storeTx (d : Dev) (die c : Nat) : Dev :=
  { d with stored := modAt d.stored (die - 5) (fun x => { x with
      valid := true
      txT := (List.range 4).map (fun k => if k == c then (d.g F.SYN.TX_TCAL_T die 0 c, d.g F.SYN.TX_TCAL_V die 0 c) else x.txT.getD k (0, 0)) }) }

/-- Boot step 10 for the receive LO: calibrated in full, and the results stored unless a chain failed (R147). -/
def Dev.rxBoot (d : Dev) (die : Nat) (env : CalEnv) : Dev :=
  (d.rxFull die env).when ((bitList 8 (d.g F.RXF.CHAIN_EN_EN die)).all (fun c => !bitOf env.rxBad (8 * (die - 5) + c))) (fun d => d.storeRx die)

/-- Boot step 10 for a transmit synthesiser: calibrated in full, and the results stored unless that failed (R147). -/
def Dev.txBoot (d : Dev) (die c : Nat) (env : CalEnv) : Dev :=
  (d.txFull die c env).when (!bitOf env.txBad (4 * (die - 5) + c)) (fun d => d.storeTx die c)

/-- Wake step 7: each synthesiser whose sensor has moved by THRESH °C from the T_cal of its stored results is calibrated in full, and the others
load their stored results (R131). -/
def Dev.wakeCal (d : Dev) (env : CalEnv) : Dev :=
  d.each ([5, 6] : List Nat) (fun d die =>
    let st := d.storedOf die
    let d := d.when (d.regionOn (rxRegion die)) (fun d =>
      if d.tempMoved die (d.tempC (rxRegion die)) st.rxT then d.rxFull die env else d.rxStored die)
    d.when (d.regionOn (txRegion die)) (fun d =>
      d.each ((List.range 4).filter (fun c => d.txState die c != 0)) (fun d c =>
        if d.tempMoved die (d.tempC (txRegion die)) (st.txT.getD c (0, 0)).1 then d.txFull die c env else d.txStored die c)))

/-! ## DOZE entry (R129, Table 5-7) -/

/-- The kind of wake that the wake map arms a bus for: 1 edge, 2 frame; an entry whose pattern is disabled does not arm (R443). -/
def Dev.armKind (d : Dev) (n : Nat) : Option Nat :=
  ((List.range 64).find? (fun k =>
    let kind := d.g F.GWY.WMAP_TRIG_KIND 0 0 k
    d.g F.GWY.WMAP_TRIG_BUS 0 0 k == n &&
      (kind == 1 || (kind == 2 && d.on F.CAN.WP_ID_EN 0 n (d.g F.GWY.WMAP_TRIG_PAT 0 0 k))))).map
    (fun k => d.g F.GWY.WMAP_TRIG_KIND 0 0 k)

/-- DOZE entry step 4: buses that the wake map names sleep, every other bus is off with STB high; PENDING and HELD entries become ABORTED and
gateway entries are freed; gateway routing stops. A standby left from an earlier wake ends: the wake map alone decides each bus's STB (R44, R443). -/
def Dev.wakeArm (d : Dev) : Dev :=
  let d := d.w F.GWY.STANDBY_CAN_BUS 0
  let d := { d with ms := { d.ms with canBefore := (List.range 32).map (fun n => (d.g F.CAN.STAT_ASLEEP 0 n, (d.canC n).op)) } }
  let d := d.each (List.range 32) (fun d n =>
    let d := d.each ((d.canC n).tx.filter (fun x => x.st == 1 || x.st == 8)) (fun d x => d.canState n x.idx 9)
    match d.armKind n with
    | some kind => (d.w F.CAN.STAT_ASLEEP kind 0 n).showStb n
    | none => ((d.w F.CAN.STAT_ASLEEP 0 0 n).setCan n (fun c => { c with op := 0 })).showStb n)
  { d with gw := { d.gw with inq := [], pdus := [] } }

/-- DOZE entry begins at the applied commit: beacons, receive and new frames have stopped with the transition, and a transmission in progress goes on
to its end. -/
def Dev.dozeEntry (d : Dev) : Dev := { d with ms := { d.ms with dozeFrom := d.mode, dozeStep := 0, dozeAt := d.time.lt } }

/-- Whether DOZE entry is under way, before its step 6. -/
def Dev.dozeEntering (d : Dev) : Bool := d.on F.BTL.BOOT_STAT_TRANS && d.g F.BTL.BOOT_STAT_TARGET == mDoze && d.ms.dozeStep ≤ 5

/-- A step of DOZE entry before the sixth is done (Table 5-7): 1, possession goes and the RF switches go low; 2, commands still in flight are
abandoned; 3, what the model keeps in State is saved; 4, the wake map is armed; 5, the DRAM goes to self-refresh. -/
def Dev.dozeDo (d : Dev) (n : Nat) : Dev :=
  let d := match n with
    | 1 => { d.releasePoss with pins := { d.releasePoss.pins with rfsw := 0 } }
    | 2 => { d with hl := { d.hl with
        inflight := d.hl.inflight.filter (fun (c : Cmd) => c.stage == CmdStage.finished)
        mboxWait := none } }.showInflight
    | 4 => d.wakeArm
    | 5 => { d with pwr := { d.pwr with dramSelfRefresh := d.pwr.dramUp } }
    | _ => d
  { d with ms := { d.ms with dozeStep := n } }

/-- DOZE entry goes on to a step. -/
def Dev.dozeTo (d : Dev) (n : Nat) : Dev := d.each (([1, 2, 3, 4, 5] : List Nat).filter (fun k => d.ms.dozeStep < k && k ≤ n)) (fun d k => d.dozeDo k)

/-- The ends of DOZE entry steps 1 to 5 after the commit, in ms (Table 5-7). -/
def dozeTimes : List Nat := [40, 45, 65, 70, 72]

/-- What falls due in DOZE entry as time goes on. -/
def Dev.dozeTick (d : Dev) : Dev :=
  if d.dozeEntering then d.dozeTo (dozeTimes.filter (fun t => d.ms.dozeAt + 1000 * t * tickUs ≤ d.time.lt)).length else d

/-- A band and its chains are gated: OFF and TX_OFF, and what was on air or being received is lost (Tables 6-2, 6-3). -/
def Dev.bandOff (d : Dev) (die : Nat) : Dev :=
  let d := d.each (List.range 4) (fun d c => (d.cutAndDrop die c).txTo die c 0)
  let d := (d.bandTo die 0).setBand die (fun b => { b with rxCal := 0, chains := b.chains.map (fun k => { k with cal := 0, pend := none, tuned := none }) })
  (d.setAir (die - 2) (fun a => { a with receps := [], deliv := [], macIn := [], planned := [], handed := [] })).showRx (die - 2)

/-- The HST page returns to its reset values as by PERST_N (R129). -/
def Dev.hostGone (d : Dev) : Dev :=
  let p : Page := ⟨.HST, 0, 0⟩
  { d.hostLinkReset with rf := d.hostLinkReset.rf.softReset p false, hl := { nextId := d.hl.nextId } }

/-- DOZE entry step 6: every region but A2 and A3 is gated, and A0 while a level-3 tamper erases flash; the outputs take their DOZE states and the PCIe link
goes down (R28, R129). -/
def Dev.dozeGate (d : Dev) : Dev :=
  let d := d.each ([5, 6] : List Nat) (fun d die => d.bandOff die)
  let d := d.each (List.range 16) (fun d n => (d.ethDown n).setEth n (fun _ => {}))
  let d := d.each (List.range 8) (fun d l => d.vxlTo l 0)
  let d := d.hostGone
  { d with
    ms := { d.ms with dozeStep := 6, cfgSeen := false }
    pwr := { d.pwr with powered := if d.on F.VLT.BLOB_STAT_ERASE_BUSY then 0xD else 0xC }
    pins := { d.pins with
      rfOut := 0, trsw := 0, paEn := 0, paBias := Pins.atReset.paBias, rfsw := 0, linksIdle := true, phyRstLow := true,
      flRstLow := false, ppsOut := false } }.emit (.linkTrain false)

/-! ## Wake (R130, R131, R444, Table 5-8) -/

/-- The first cause of a wake is latched. -/
def Dev.wakeCause (d : Dev) (frame edge timer gpio perst : Bool) (bus gpioNum : Nat) : Dev :=
  let d := ((d.w F.BTL.WAKE_CAUSE_CAN_FRAME (b2n frame)).w F.BTL.WAKE_CAUSE_CAN_EDGE (b2n edge)).w F.BTL.WAKE_CAUSE_TIMER (b2n timer)
  let d := (d.w F.BTL.WAKE_CAUSE_GPIO (b2n gpio)).w F.BTL.WAKE_CAUSE_PERST (b2n perst)
  (d.w F.BTL.WAKE_CAUSE_BUS bus).w F.BTL.WAKE_CAUSE_GPIO_NUM gpioNum

/-- The wake-map entry that an event on a bus matches, the lowest-numbered enabled one. -/
def Dev.wakeEntry (d : Dev) (n : Nat) (frame : Option CanRx) : Option Nat :=
  (List.range 64).find? (fun k =>
    d.g F.GWY.WMAP_TRIG_BUS 0 0 k == n &&
      match d.g F.GWY.WMAP_TRIG_KIND 0 0 k, frame with
      | 1, none => true
      | 2, some f => d.wakeHit n (d.g F.GWY.WMAP_TRIG_PAT 0 0 k) f
      | _, _ => false)

/-- GWY.WAKE_FRAME records the waking entry, the bus and the frame. -/
def Dev.wakeFrame (d : Dev) (k n : Nat) (frame : Option CanRx) : Dev :=
  let f := frame.getD { id := 0, ide := false, dlc := 0, data := [] }
  let d := (d.w F.GWY.WAKE_FRAME_INFO_ENTRY k).w F.GWY.WAKE_FRAME_INFO_BUS n
  let d := (d.w F.GWY.WAKE_FRAME_INFO_KIND (d.g F.GWY.WMAP_TRIG_KIND 0 0 k)).w F.GWY.WAKE_FRAME_INFO_DLC f.dlc
  let d := (d.w F.GWY.WAKE_FRAME_ID_ID f.id).w F.GWY.WAKE_FRAME_ID_IDE (b2n f.ide)
  (d.w F.GWY.WAKE_FRAME_LO_D (leAt f.data 0 4)).w F.GWY.WAKE_FRAME_HI_D (leAt f.data 4 4)

/-- The buses and ports that the waking entry names wake; all others are in standby until the host enables them (R131, R444). -/
def Dev.standby (d : Dev) (entry : Option Nat) : Dev :=
  let buses := entry.elim 0 (fun k => d.g F.GWY.WMAP_CAN_BUS 0 0 k)
  let ports := entry.elim 0 (fun k => d.g F.GWY.WMAP_ETH_PORT 0 0 k)
  let d := (d.w F.GWY.STANDBY_CAN_BUS (0xFFFFFFFF - buses)).w F.GWY.STANDBY_ETH_PORT (0xFFFF - ports)
  d.each (List.range 32) (fun d n =>
    let d := if bitOf buses n then d.canWake n else d
    ((d.w F.CAN.STAT_ASLEEP 0 0 n).setCan n (fun c => { c with op := d.g F.CAN.CTRL_OPMODE 0 n, sleepPend := 0 })).showStb n)

/-- Wake steps 1 to 7: WAKE_N, power, DRAM, restored state, calibration; the transition back has begun. -/
def Dev.wakeUp (d : Dev) (entry : Option Nat) (env : CalEnv) : Dev :=
  let d := { d with
    pins := { d.pins with wakeNLow := true, linksIdle := false, phyRstLow := d.on F.ETH.PHY_RST_ASSERT }
    pwr := { d.pwr with powered := d.boot.regionEn, dramSelfRefresh := false }
    ms := { d.ms with dozeStep := 7, trigger := 3 } }
  let d := (d.emit (.linkTrain true)).standby entry
  let d := d.each ((List.range 8).filter (fun l => d.on F.VXL.CFG_EN 0 l)) (fun d l => d.vxlTo l 1)
  let d := d.each ([5, 6] : List Nat) (fun d die => d.bandPowerUp die)
  ((d.wakeCal env).w F.BTL.BOOT_STAT_TRANS 1).w F.BTL.BOOT_STAT_TARGET d.ms.dozeFrom

/-- A wake source fires before DOZE entry step 6: the steps done are undone in reverse order and the previous mode goes on (Table 5-9). -/
def Dev.dozeUndo (d : Dev) : Dev :=
  let d := d.each (if d.ms.dozeStep < 4 then [] else d.ms.canBefore.zipIdx) (fun d x =>
    ((d.w F.CAN.STAT_ASLEEP x.1.1 0 x.2).setCan x.2 (fun c => { c with op := x.1.2 })).showStb x.2)
  let d := { d with
    pwr := { d.pwr with dramSelfRefresh := false }
    ms := { d.ms with dozeStep := 0 } }.w F.BTL.BOOT_STAT_TRANS 0
  (d.each ([5, 6] : List Nat) (fun d die => d.bandFollow die)).rfswFollow

/-- A wake source fires: during DOZE entry, in DOZE, or without effect in any other state (R130, Table 5-9). -/
def Dev.dozeWake (d : Dev) (latch : Dev → Dev) (entry : Option Nat) (env : CalEnv) : Dev :=
  if d.dozeEntering then (latch d).dozeUndo
  else if d.ms.dozeStep == 6 then (latch d).wakeUp entry env
  else d

/-- A wake event on a bus in DOZE: it wakes the device when an enabled entry of the wake map matches (R130, R444). -/
def Dev.canDozeWake (d : Dev) (n : Nat) (frame : Option CanRx) (env : CalEnv) : Dev :=
  if d.ms.dozeStep != 6 && d.ms.dozeStep < 4 || !d.wakesCan n frame then d
  else match d.wakeEntry n frame with
    | none => d
    | some k => d.dozeWake (fun d => (d.wakeCause frame.isSome frame.isNone false false false n 0).wakeFrame k n frame) (some k) env

/-- DOZE_WAKE: a wake source fires in DOZE or during its entry; a GPIO does at the polarity of DOZE_GPIO.POL (R130, R131, Table 5-9). -/
def execDozeWake (src : WakeSrc) (cal : CalEnv) (s : State) : Answer :=
  run s (fun d => match src with
    | .can bus frame => d.canDozeWake bus frame cal
    | .gpio n high =>
      if bitOf (d.g F.BTL.DOZE_GPIO_EN) n && bitOf (d.g F.BTL.DOZE_GPIO_POL) n == high then d.dozeWake (fun d => d.wakeCause false false false true false 0 n) none cal else d
    | .perst => d.dozeWake (fun d => d.wakeCause false false false false true 0 0) none cal)

/-- DOZE_TIMER_EXPIRY: DOZE_TIMER seconds after entry step 6 the device wakes (R130). -/
def execDozeTimerExpiry (cal : CalEnv) (s : State) : Answer :=
  run s (fun d =>
    if d.ms.dozeStep == 6 && d.g F.BTL.DOZE_TIMER_SEC != 0 then d.dozeWake (fun d => d.wakeCause false false true false false 0 0) none cal
    else d)

/-- WAKE_N_RELEASE: the endpoint receives its first configuration request after the link has trained; WAKE_N is released once the previous mode
is entered (R131, Table 5-8 step 8). -/
def execWakeNRelease (s : State) : Answer :=
  run s (fun d =>
    let d := { d with ms := { d.ms with cfgSeen := true } }
    if d.pins.wakeNLow && d.ms.dozeStep == 0 then { d with pins := { d.pins with wakeNLow := false } } else d)

/-- CAN_BUS_WAKE: a dominant level or a matching wake pattern wakes a sleeping controller, and in DOZE the device (R433, R444). -/
def execCanBusWake (bus : Nat) (frame : Option CanRx) (cal : CalEnv) (s : State) : Answer :=
  run s (fun d =>
    if (d.dozeEntering && 4 ≤ d.ms.dozeStep) || d.ms.dozeStep == 6 then d.canDozeWake bus frame cal
    else if d.wakesCan bus frame then d.canWake bus
    else d)

/-- A transition completes: DOZE entry step 6, wake step 8, or the entry into the target mode (R125). -/
def Dev.completeTrans (d : Dev) : Dev :=
  let dest := d.g F.BTL.BOOT_STAT_TARGET
  if dest == mDoze then (d.dozeTo 5).dozeGate.enterMode mDoze
  else if d.ms.dozeStep == 7 then
    let d := { d with ms := { d.ms with dozeStep := 0 } }.enterMode dest
    if d.ms.cfgSeen then { d with pins := { d.pins with wakeNLow := false } } else d
  else d.enterMode dest

end Sys2Proof.Machine
end

