-- ==== Sys2Proof/Machine/Checks.lean ====
section
/-! DEFINITION. The checks of a commit: each field's range and every agreement rule that the block's chapter states (R83). A check is the byte
offset of its field in the page and whether the snapshot is refused there. -/

namespace Sys2Proof.Machine
open Sys2Proof

/-- A snapshot under check: the device, the page and the staged values. -/
structure Snap where
  d    : Dev
  p    : Page
  snap : List (Nat × Nat)
  deriving DecidableEq, Repr

/-- A field's new value. -/
def Snap.v (s : Snap) (f : Fld) (i : Nat := 0) : Nat := snapGet s.snap f s.p i

/-- Whether a one-bit field becomes 1. -/
def Snap.on (s : Snap) (f : Fld) (i : Nat := 0) : Bool := s.v f i == 1

/-- Whether the commit changes a field. -/
def Snap.ch (s : Snap) (f : Fld) (i : Nat := 0) : Bool := s.d.changes s.snap f s.p i

/-- Whether the device is outside BRINGUP. -/
def Snap.outside (s : Snap) : Bool := s.d.mode != mBringup

/-- A check of one field. -/
def Snap.no (s : Snap) (f : Fld) (bad : Nat → Bool) (i : Nat := 0) : Nat × Bool := (f.off + f.stride * i, bad (s.v f i))

/-- A check of every instance of a field. -/
def Snap.each (_s : Snap) (f : Fld) (bad : Nat → Bool) : List (Nat × Bool) :=
  (List.range f.n).map (fun i => (f.off + f.stride * i, bad i))

/-- A value outside a range. -/
def outOf (lo hi v : Nat) : Bool := v < lo || hi < v

/-! ## The Anchor die -/

/-- SNS (Table 3-3): an interval shorter than the window is refused. -/
def Snap.sns (s : Snap) : List (Nat × Bool) :=
  let win := s.v F.SNS.PACE_CFG_WIN
  let int := s.v F.SNS.PACE_CFG_INT
  [(0x200, win != 0 && win < 3200), (0x200, int != 0 && int * 32000 < win),
   (0x20C, s.v F.SNS.AVL_LIMITS_FLOOR < 600),
   (0x20C, 850 < s.v F.SNS.AVL_LIMITS_CEIL || s.v F.SNS.AVL_LIMITS_CEIL < s.v F.SNS.AVL_LIMITS_FLOOR)]

/-- TIM (Table 3-5, R60, R63): under PPS_IN the servo owns PTP_RATE and PTP_STEP. -/
def Snap.tim (s : Snap) : List (Nat × Bool) :=
  let pps := s.d.g F.TIM.DISC_CTRL_SRC == 2
  [(0x054, pps && s.ch F.TIM.PTP_RATE_ADJ), (0x058, pps && s.v F.TIM.PTP_STEP_NS_STEP != 0),
   (0x05C, pps && s.v F.TIM.PTP_STEP_SEC_STEP != 0), s.no F.TIM.DISC_CTRL_SRC (· == 3),
   (0x060, s.v F.TIM.DISC_CTRL_SRC == 2 && s.v F.TIM.DISC_CTRL_PPS_WIN == 0), s.no F.TIM.PPS_OUT_CFG_WIDTH (1000 ≤ ·)]

/-- HST (Table 4-5, R96). -/
def Snap.hst (s : Snap) : List (Nat × Bool) :=
  let live := fun (i : Nat) => s.d.g F.HST.CR_CFG_WEIGHT 0 0 i != 0
  s.each F.HST.CR_BASE_LO_BASE (fun i => s.v F.HST.CR_BASE_LO_BASE i % 4096 != 0 || (live i && s.ch F.HST.CR_BASE_LO_BASE i)) ++
  s.each F.HST.CR_BASE_HI_BASE (fun i => live i && s.ch F.HST.CR_BASE_HI_BASE i) ++
  [s.no F.HST.CQ_BASE_LO_BASE (· % 4096 != 0), s.no F.HST.CQ_CFG_SIZE_LOG2 (outOf 9 12)]

/-- Whether a row of Table 5-6 leads from the current mode to a target by host request, with its condition met (R126, R129, R479, Table 18-8,
Table 20-10). -/
def Dev.modeReqOk (d : Dev) (t : Nat) : Bool :=
  let m := d.mode
  if d.on F.BTL.BOOT_STAT_TRANS then false
  else if t == mService then
    (m == mBringup && !d.on F.BTL.BOOT_FLAGS_NO_DRAM && !d.on F.BTL.BOOT_FLAGS_REGION_FAIL) || m == mQuiesce
  else if t == mBringup then m == mService || m == mQuiesce || m == mShadow
  else if t == mQuiesce then m == mService
  else if t == mDoze then
    (m == mService || m == mBringup) && d.twin ≤ 1 && d.mt.held.isEmpty && d.mt.queue.isEmpty &&
      !d.on F.UPD.STAT_NO_BOOTCOPY && !d.on F.UPD.STAT_TRIAL
  else false

/-- BTL (Table 5-9, R126). -/
def Snap.btl (s : Snap) : List (Nat × Bool) := [s.no F.BTL.MODE_REQ_TARGET (fun t => t != 7 && !s.d.modeReqOk t)]

/-- VLT (Table 10-9, R295). -/
def Snap.vlt (s : Snap) : List (Nat × Bool) :=
  s.no F.VLT.EPOCH_CFG_AHEAD (· == 0) :: s.each F.VLT.TAMPER_CFG_EN (fun i =>
    s.v F.VLT.TAMPER_CFG_FILTER i == 0 || (s.outside &&
      (s.v F.VLT.TAMPER_CFG_LEVEL i < s.d.g F.VLT.TAMPER_CFG_LEVEL 0 0 i || s.v F.VLT.TAMPER_CFG_EN i < s.d.g F.VLT.TAMPER_CFG_EN 0 0 i)))

/-- The modes a port allows (Table 14-1). -/
def pcsOk (port pcs : Nat) : Bool := pcs == 0 || (port < 4 && pcs ≤ 3) || (4 ≤ port && (pcs == 4 || pcs == 5))

/-- The thresholds of a MAC or link (Tables 14-4 and 16-6). -/
def thrBad (xoff xon : Nat) : Bool := outOf 1 1024 xoff || xoff ≤ xon

/-- ETH (Table 14-4). -/
def Snap.eth (s : Snap) : List (Nat × Bool) :=
  [s.no F.ETH.MODE_PCS (fun m => !pcsOk s.p.inst m), s.no F.ETH.MAC_CFG_MAXLEN (outOf 64 9216), s.no F.ETH.FC_CFG_MODE (· == 3),
   (0x0B0, s.on F.ETH.FC_CFG_TX_EN && s.v F.ETH.FC_CFG_QUANTA == 0), (0x0B4, thrBad (s.v F.ETH.FC_THR_XOFF) (s.v F.ETH.FC_THR_XON)),
   (0x0F0, s.p.inst == 0 && s.v F.ETH.MDIO_CFG_DIV == 0)] ++
  s.each F.ETH.UC_HI_EN (fun i => s.on F.ETH.UC_HI_EN i && bitOf (s.v F.ETH.UC_HI_A i) 8)

/-- CAN (Table 15-9, R419). -/
def Snap.can (s : Snap) : List (Nat × Bool) :=
  let nb := 1 + s.v F.CAN.NBT0_TSEG1 + s.v F.CAN.NBT1_TSEG2
  let nc := nb * s.v F.CAN.NBT0_BRP
  let dc := (1 + s.v F.CAN.DBT0_TSEG1 + s.v F.CAN.DBT1_TSEG2) * s.v F.CAN.DBT0_BRP
  let fd := s.on F.CAN.CTRL_FD_EN
  let live := s.d.g F.CAN.CTRL_OPMODE 0 s.p.inst != 0
  let any := fun (l : List Fld) => live && l.any (fun f => s.ch f)
  [(0x040, any [F.CAN.CTRL_FD_EN]),
   (0x04C, any [F.CAN.NBT0_BRP, F.CAN.NBT0_TSEG1]), s.no F.CAN.NBT0_BRP (outOf 1 256), s.no F.CAN.NBT0_TSEG1 (outOf 2 256),
   (0x04C, nb < 8 || nc < 80),
   (0x050, any [F.CAN.NBT1_TSEG2, F.CAN.NBT1_SJW]), s.no F.CAN.NBT1_TSEG2 (outOf 1 128), s.no F.CAN.NBT1_SJW (outOf 1 128),
   (0x050, s.v F.CAN.NBT0_TSEG1 < s.v F.CAN.NBT1_SJW || s.v F.CAN.NBT1_TSEG2 < s.v F.CAN.NBT1_SJW),
   (0x054, any [F.CAN.DBT0_BRP, F.CAN.DBT0_TSEG1]), s.no F.CAN.DBT0_BRP (outOf 1 256), s.no F.CAN.DBT0_TSEG1 (outOf 1 32),
   (0x054, fd && (dc < 10 || nc < dc)),
   (0x058, any [F.CAN.DBT1_TSEG2, F.CAN.DBT1_SJW]), s.no F.CAN.DBT1_TSEG2 (outOf 1 16), s.no F.CAN.DBT1_SJW (outOf 1 16),
   (0x058, s.v F.CAN.DBT0_TSEG1 < s.v F.CAN.DBT1_SJW || s.v F.CAN.DBT1_TSEG2 < s.v F.CAN.DBT1_SJW),
   (0x05C, any [F.CAN.TDC_CFG_EN, F.CAN.TDC_CFG_TDCO, F.CAN.TDC_CFG_TDCF]),
   (0x05C, s.on F.CAN.TDC_CFG_EN && s.v F.CAN.TDC_CFG_TDCO == 0), s.no F.CAN.TX_CFG_TAT_WIN (· == 0)]

/-- GWY (Table 15-10, R443): an ingress stream_id named twice, KIND 3, or one bus with both kinds. -/
def Snap.gwy (s : Snap) : List (Nat × Bool) :=
  let sid := fun (i : Nat) => (s.v F.GWY.ST_SID_HI_S i, s.v F.GWY.ST_SID_LO_S i)
  let ing := fun (i : Nat) => s.v F.GWY.ST_CFG_DIR i == 1 || s.v F.GWY.ST_CFG_DIR i == 3
  let kind := fun (k : Nat) => s.v F.GWY.WMAP_TRIG_KIND k
  s.each F.GWY.ST_CFG_DIR (fun i => ing i && (List.range 16).any (fun j => j < i && ing j && sid j == sid i)) ++
  s.each F.GWY.WMAP_TRIG_KIND (fun k => kind k == 3 || (kind k != 0 && (List.range 64).any (fun j =>
    j < k && kind j != 0 && kind j != kind k && s.v F.GWY.WMAP_TRIG_BUS j == s.v F.GWY.WMAP_TRIG_BUS k)))

/-- HUD (Table 16-7). -/
def Snap.hud (s : Snap) : List (Nat × Bool) :=
  [s.no F.HUD.CFG_TTL (outOf 1 63), s.no F.HUD.TIMING_REFRESH (outOf 100 60000), s.no F.HUD.TIMING_SETTLE (outOf 10 1000)]

/-- TWN (Table 17-8, R508). -/
def Snap.twn (s : Snap) : List (Nat × Bool) :=
  let free := s.d.twin == 0 || (s.d.twin == 1 && s.d.mode == mBringup) || s.d.twin == 4
  [(0x040, !free && (s.ch F.TWN.CFG_EN || s.ch F.TWN.CFG_LINK)), s.no F.TWN.CFG_GO_FILT (outOf 10 1000),
   s.no F.TWN.JCFG_ACK_INT (outOf 1 20), s.no F.TWN.JCFG_JTIMEOUT (outOf 1 10), s.no F.TWN.JCFG_LAG_MAX (outOf 1 20)]

/-- BEN, CPT, SBD and UPD (Tables 18-11, 19-8, 19-9 and 20-11). -/
def Snap.service (s : Snap) : List (Nat × Bool) :=
  match s.p.tag with
  | .BEN => [s.no F.BEN.CFG_MODE (· == 3), s.no F.BEN.WEAR_CFG_CONFIRM (· == 0), s.no F.BEN.CORR_CFG_WIN (· == 0)]
  | .CPT => [s.no F.CPT.LOG_CFG_IRQ_SEV (4 < ·)]
  | .SBD => [s.no F.SBD.RING_BASE_LO_A (· % 4096 != 0), s.no F.SBD.RING_CFG_SIZE_LOG2 (fun n => n != 0 && outOf 20 26 n)]
  | .UPD => [s.no F.UPD.CFG_WIN (· < 10)]
  | _ => []

/-! ## Band dies (Tables 6-8 to 6-13) -/

/-- SYN, RXF, RSM and TXF. -/
def Snap.band (s : Snap) : List (Nat × Bool) :=
  match s.p.tag with
  | .SYN =>
    let c := s.v F.SYN.RXLO_CELL_C0
    [(0x040, s.ch F.SYN.RXLO_CELL_C0 && s.outside), (0x040, 3888 < c || (s.p.die == 6 && c != 0)), s.no F.SYN.CAL_CFG_THRESH (40 < ·)]
  | .RXF => [s.no F.RXF.CHAIN_EN_EN (· == 0), s.no F.RXF.AGC_CFG_TARGET (outOf 6 30), s.no F.RXF.AGC_FIX_IDX (20 < ·),
      s.no F.RXF.DCO_CFG_FINE_SHIFT (outOf 10 20)]
  | .RSM => [s.no F.RSM.REQ_TARGET (fun t => s.outside || !(t == 1 || t == 3 || t == 5))]
  | .TXF =>
    let sum := (List.range 32).foldl (fun n m =>
      n + (sext 16 (s.v F.TXF.FIR_COEF_T0 m)).natAbs + (sext 16 (s.v F.TXF.FIR_COEF_T1 m)).natAbs) 0
    [s.no F.TXF.PWR_DEF_CODE (184 < ·), s.no F.TXF.PA_CFG_GAIN (160 < ·), (0x104, s.d.firChanged s.p s.snap && 65536 < sum),
     s.no F.TXF.MASK_CFG_CNT (8 < ·)]
  | _ => []

/-! ## Air dies (Tables 7-10 to 7-14, 8-5, 8-6 and 9-10) -/

/-- Whether a channel of a cluster lies in a gang under new settings: its leader is the nearest leader at or below it. -/
def Snap.ganged (s : Snap) (j : Nat) : Bool :=
  (List.range (j + 1)).any (fun l =>
    let m := s.v F.DEM.CH_CFG_MODE l
    (m == 1 || m == 2) && j < l + gangSize m)

/-- DEM (Table 7-10): the six reasons for refusal. -/
def Snap.dem (s : Snap) : List (Nat × Bool) :=
  let mode := fun (j : Nat) => s.v F.DEM.CH_CFG_MODE j
  let lim : Int := if s.p.die == 3 then 62500 else 78125
  let bad := fun (j : Nat) =>
    let m := mode j
    let fofs := sext 18 (s.v F.DEM.CH_CFG_FOFS j)
    if fofs < -lim || lim < fofs then true
    else if m == 0 then s.on F.DEM.CH_CFG_EN j && s.v F.DEM.CH_CFG_PFAM j == 0
    else if m == 3 then !s.ganged j
    else m != s.p.die - 2 || 32 < j + gangSize m ||
      (List.range (gangSize m - 1)).any (fun k => mode (j + 1 + k) != 3)
  s.each F.DEM.CH_CFG_MODE bad ++ [s.no F.DEM.DET_CFG_CFO_MAX (outOf 1 40)]

/-- Whether a commit writes through one of the NSE groups (R628). -/
def Snap.any (s : Snap) (l : List Fld) : Bool := l.any (fun f => s.ch f)

/-- The fields of the group that writes a map. -/
def mapGroup : List Fld := [F.NSE.MAP_IDX_IDX, F.NSE.MAP_LO_W, F.NSE.MAP_HI_W]
/-- The fields of the group that writes a ladder rung. -/
def ladGroup : List Fld := [F.NSE.LAD_IDX_LADDER, F.NSE.LAD_IDX_RUNG, F.NSE.LAD_MAP_MAP]
/-- The fields of the group that writes a channel's ladder. -/
def chLadGroup : List Fld := [F.NSE.CH_LAD_IDX_CH, F.NSE.CH_LAD_LADDER]
/-- The fields of the group that writes a tenant entry. -/
def tenGroup : List Fld := [F.ING.TEN_IDX_IDX, F.ING.TEN_DATA_EN, F.ING.TEN_DATA_MICL_MIN, F.ING.TEN_DATA_CLASS, F.ING.TEN_DATA_SUB]

/-- CMB, NSE, TXB and WUC. -/
def Snap.airUnits (s : Snap) : List (Nat × Bool) :=
  match s.p.tag with
  | .CMB => [s.no F.CMB.CFG_CHAIN_MASK (· == 0), s.no F.CMB.CFG_MAX_SYM (outOf 32 1024)]
  | .NSE =>
    let w := s.v F.NSE.MAP_LO_W + 2 ^ 32 * s.v F.NSE.MAP_HI_W
    [(0x040, s.v F.NSE.THR_T_QPSK ≤ s.v F.NSE.THR_T_BPSK || s.v F.NSE.THR_T_16QAM ≤ s.v F.NSE.THR_T_QPSK),
     (0x048, s.any mapGroup && s.v F.NSE.MAP_IDX_IDX == 0), (0x04C, s.any mapGroup && !mapValid w),
     (0x064, s.any ladGroup && s.v F.NSE.LAD_IDX_RUNG == 0 && s.v F.NSE.LAD_MAP_MAP == 0xFFF)]
  | .TXB => [s.no F.TXB.LEG_CFG_PRE_OCT (outOf 4 1000), s.no F.TXB.DUTY_CFG_RSV (50 < ·)]
  | .WUC =>
    [s.no F.WUC.CFG_PRE_BITS (outOf 8 64), s.no F.WUC.CFG_EDGE (outOf 2 16)] ++
    s.each F.WUC.CHAN_CH (fun k => s.on F.WUC.CHAN_EN k && s.d.chMode s.p.die (s.v F.WUC.CHAN_CH k) != 0)
  | _ => []

/-- AMC (Table 9-10, R227, R232, Table 9-9). -/
def Snap.amc (s : Snap) : List (Nat × Bool) :=
  let air := s.p.die
  let slot := s.v F.AMC.SF_CFG_SLOT
  let len := s.v F.AMC.SF_CFG_LEN
  let l := slotUs slot
  let bcn := (List.range 8).filter (fun k => s.on F.AMC.BCN_CH_EN k)
  let b := (bcnGeom air bcn.length (popCount 4 (s.d.g F.TXB.ASSIGN_CHAIN_EN air)) (l * tickUs)).2
  let first := s.v F.AMC.CONT_CFG_FIRST
  let cnt := s.v F.AMC.CONT_CFG_COUNT
  let lead := fun (k : Nat) => s.v F.AMC.LEG_GANG_LEADER k
  let pan := fun (k : Nat) => s.on F.AMC.LEG_PAN_EN k
  let ofsBad := fun (o : Nat) => o < 500 || l < o + 501
  [s.no F.AMC.SF_CFG_SLOT (outOf 0 4), (0x040, len < 7), s.no F.AMC.SF_CFG_ALIGN (· == 3),
   (0x040, s.outside && (s.ch F.AMC.SF_CFG_SLOT || s.ch F.AMC.SF_CFG_LEN)), s.no F.AMC.SF_PHASE_US (l * (len + 1) ≤ ·),
   s.no F.AMC.SLOT_TIME_UL_OFS ofsBad, s.no F.AMC.SLOT_TIME_DL_OFS ofsBad, s.no F.AMC.REPLY_CFG_ACK_DELAY (outOf 200 5000),
   s.no F.AMC.REPLY_CFG_RETRY (outOf 1 15), (0x058, cnt != 0 && (first < b || len + 1 < first + cnt)),
   (0x060, (s.d.assignedOn (air - 3)).any (fun e => e.det.aSlot < b)),
   s.no F.AMC.DRIFT_CFG_GUARD (· == 0), s.no F.AMC.DRIFT_CFG_MIN_DT (· == 0), s.no F.AMC.WAKE_CFG_RESP (· == 0),
   s.no F.AMC.WAKE_CFG_CALLS (8 < ·), s.no F.AMC.NBR_CFG_SLEW (outOf 1 100), s.no F.AMC.PLAN_CFG_FILL (outOf 1 1024),
   s.no F.AMC.LEG_CFG_PERSIST (· == 0)] ++
  s.each F.AMC.BCN_CH_CH (fun k => bcn.contains k && (s.d.chMode air (s.v F.AMC.BCN_CH_CH k) != 0 ||
    bcn.any (fun j => j < k && s.v F.AMC.BCN_CH_CH j == s.v F.AMC.BCN_CH_CH k))) ++
  s.each F.AMC.LEG_PAN_PAN_ID (fun k => s.v F.AMC.LEG_PAN_PAN_ID k == 0xFFFF) ++
  s.each F.AMC.LEG_GANG_LEADER (fun k => pan k && (s.d.chMode air (lead k) != air - 2 ||
    (List.range 8).any (fun j => j < k && pan j && lead j == lead k)))

/-! ## Route dies (Tables 11-10 to 11-12, 12-9, 12-10, 13-6 and 21-6) -/

/-- NTB, FWD, SRC and PLY. -/
def Snap.routeUnits (s : Snap) : List (Nat × Bool) :=
  match s.p.tag with
  | .NTB => if s.p.inst != 0 then [] else
    [s.no F.NTB.AGE_CFG_TICK (fun t => t != 0 && t < 100), s.no F.NTB.COLD_BASE_LO_A (· % 0x100000 != 0),
     s.no F.NTB.COLD_CFG_SIZE_LOG2 (fun n => n != 0 && outOf 10 18 n), (0x058, s.outside && s.ch F.NTB.COLD_CFG_SIZE_LOG2),
     s.no F.NTB.DETAIL_BASE_LO_A (· % 0x100000 != 0), (0x05C, s.outside && s.ch F.NTB.DETAIL_BASE_LO_A)]
  | .SRC => [s.no F.SRC.RPL_CFG_INST (127 < ·), s.no F.SRC.RPL_CFG_LUNIT (· == 0), s.no F.SRC.RANK_MIN_HOP_RANK (· == 0),
      s.no F.SRC.BLD_CFG_MAX_H (outOf 1 12)]
  | .PLY => [s.no F.PLY.WD_LIMIT (· < 4500), s.no F.PLY.PS_CFG_N (outOf 4 20)]
  | _ => []

/-- ING (Tables 12-4 and 12-9). -/
def Snap.ing (s : Snap) : List (Nat × Bool) :=
  let play := fun (k : Nat) => s.v F.ING.PLAY_TBL_PLAY k
  let none_ := fun (k : Nat) => play k == 0 && s.v F.ING.PLAY_TBL_CLASS k == 0 && s.v F.ING.PLAY_TBL_CLS_EN k == 0 &&
    s.v F.ING.PLAY_TBL_MIRROR k == 0
  [s.no F.ING.ARB_AIR (· == 0), s.no F.ING.ARB_WIRED (· == 0), s.no F.ING.ARB_HOST (· == 0), s.no F.ING.ARB_XFER (· == 0),
   s.no F.ING.ARB_INTERNAL (· == 0),
   (0x060, 32768 < (List.range 5).foldl (fun n g => n + s.v F.ING.BUF_RSV_CELLS g) 0), s.no F.ING.LOWPAN_CFG_DL_MAX (outOf 64 1023)] ++
  s.each F.ING.PLAY_TBL_PLAY (fun k => play k == 3 || ((k == 32 || k == 34) && play k == 2) ||
    ((k == 28 || k == 29 || k == 30 || k == 31 || 35 ≤ k) && !none_ k)) ++
  [(0x184, s.any tenGroup && s.v F.ING.TEN_DATA_MICL_MIN == 3)]

/-- SCH (Table 13-6, R370, R373, R388, R397). -/
def Snap.sch (s : Snap) : List (Nat × Bool) :=
  let die := s.p.die
  let own := fun (p : Nat) => portOwner p == die
  let load := s.on F.SCH.LUP_CTRL_LOAD
  let lp := s.v F.SCH.LUP_SEL_PORT
  let en := fun (p : Nat) => s.on F.SCH.PORT_RATE_EN p
  let strict := fun (p : Nat) => s.v F.SCH.PORT_CFG_STRICT p
  [s.no F.SCH.CFG_REFILL_PORT (outOf 1 1000), s.no F.SCH.CFG_REFILL_Q (outOf 8 65535), s.no F.SCH.FIX_QLIM_CELLS (· == 0),
   (0x060, load && !(own lp && (lp < 16 || lp == 24 || lp == 25))), s.no F.SCH.LUP_COUNT_N (256 < ·),
   (0x078, 0 < s.v F.SCH.LUP_COUNT_N && outOf 1000 4000000000 (s.v F.SCH.LUP_CYCLE_NS)), s.no F.SCH.LUP_KICK_NS_NS (1000000000 ≤ ·)] ++
  s.each F.SCH.PORT_CFG_STRICT (fun p => 8 < strict p || (!own p &&
    (s.ch F.SCH.PORT_CFG_STRICT p || s.ch F.SCH.PORT_CFG_DEF_CLASS p || s.ch F.SCH.PORT_CFG_OVH p))) ++
  s.each F.SCH.PORT_RATE_MANT (fun p => (en p && s.v F.SCH.PORT_RATE_MANT p == 0) || (!own p &&
    (s.ch F.SCH.PORT_RATE_MANT p || s.ch F.SCH.PORT_RATE_EXP p || s.ch F.SCH.PORT_RATE_EN p))) ++
  s.each F.SCH.PORT_BURST_B (fun p => (en p && s.v F.SCH.PORT_BURST_B p == 0) || (!own p && s.ch F.SCH.PORT_BURST_B p)) ++
  s.each F.SCH.CLASS_W_W (fun p => (!own p && s.ch F.SCH.CLASS_W_W p) ||
    (own p && (List.range (8 - strict p)).any (fun c => bitsOf (s.v F.SCH.CLASS_W_W p) (4 * c) 4 == 0))) ++
  s.each F.SCH.QMAP_N (fun k =>
    let p := k / 8
    let base := s.v F.SCH.QMAP_BASE k
    let n := s.v F.SCH.QMAP_N k
    (!own p && (s.ch F.SCH.QMAP_BASE k || s.ch F.SCH.QMAP_N k)) || (n != 0 && (!own p || 4096 < n || 16384 < base + n ||
      (List.range n).any (fun i =>
        let q := s.d.queue die (base + i)
        !(q.en && q.port == p && q.cls == k % 8)))))

/-- CMP (Table 21-6, R584): the two areas overlap, lie beyond the DRAM, or reach into its boot area.
-/
def Snap.cmp (s : Snap) : List (Nat × Bool) :=
  let a := s.v F.CMP.IMG_BASE_LO_A + 2 ^ 32 * s.v F.CMP.IMG_BASE_HI_A
  let w := s.v F.CMP.WORK_BASE_LO_A + 2 ^ 32 * s.v F.CMP.WORK_BASE_HI_A
  let top := (s.d.pwr.dramMiB - 128) * 0x100000
  [s.no F.CMP.IMG_BASE_LO_A (· % 0x100000 != 0), (0x040, top < a + 0x10000000 || (a < w + 0x800000 && w < a + 0x10000000)),
   s.no F.CMP.WORK_BASE_LO_A (· % 0x100000 != 0), (0x048, top < w + 0x800000)]

/-- Every check of a page's chapter. -/
def Snap.checks (s : Snap) : List (Nat × Bool) :=
  match s.p.tag with
  | .SNS => s.sns
  | .TIM => s.tim
  | .HST => s.hst
  | .BTL => s.btl
  | .VLT => s.vlt
  | .ETH => s.eth
  | .CAN => s.can
  | .GWY => s.gwy
  | .VXL => [(0x054, thrBad (s.v F.VXL.FC_THR_XOFF) (s.v F.VXL.FC_THR_XON))]
  | .HUD => s.hud
  | .TWN => s.twn
  | .BEN | .CPT | .SBD | .UPD => s.service
  | .SYN | .RXF | .RSM | .TXF => s.band
  | .DEM => s.dem
  | .CMB | .NSE | .TXB | .WUC => s.airUnits
  | .AMC => s.amc
  | .NTB | .SRC | .PLY => s.routeUnits
  | .ING => s.ing
  | .SCH => s.sch
  | .CMP => s.cmp
  | .FCL | .DRM | .FLS | .MNT | .FWD | .POL | .CRY | .LAN | .CHZ | .DEC | .SIC | .LIM => []

/-- The word offset of the lowest-addressed refused field, if the snapshot is refused (R83). In STANDBY a Route die's commits are all refused
(R495); no field is at fault, and REF_WORD is 0. -/
def Snap.refusal (s : Snap) : Option Nat :=
  if (s.p.die == 1 || s.p.die == 2) && s.d.mode == mShadow && s.d.twin == 3 then some 0
  else (((s.checks.filter (fun c => c.2)).map (fun c => c.1 / 4)).min?)

end Sys2Proof.Machine
end

