-- ==== Sys2Proof/Machine/PageCommit.lean ====
section
/-! DEFINITION. Commits of a page's staged fields (R83 to R87, Table 4-2, R628): the write of PG_COMMIT.GO, the check, and what each block does when
a snapshot goes live; COMMIT events of the Route dies (R85); mode and band requests; the PTP step (R59). -/

namespace Sys2Proof.Machine
open Sys2Proof

/-- Whether a field's live copy differs between two devices. -/
def Dev.moved (old new : Dev) (f : Fld) (p : Page) (i : Nat := 0) : Bool := old.get f p i != new.get f p i

/-- Whether any field of a group differs. -/
def Dev.movedAny (old new : Dev) (l : List Fld) (p : Page) : Bool := l.any (fun f => old.moved new f p)

/-! ## What a block does when its snapshot goes live -/

/-- A TIM commit (R59 to R63): a step waits for the next tick and ends the run of good seconds, a change of SRC restarts discipline, and under PTP a commit
for which the host has staged PTP_RATE is a rate update: its HOST_OFS counts, and in HOLDOVER it returns to ACQUIRE (R62; that a write of PTP_RATE since the
last commit makes the commit a PTP_RATE commit is DEDUCED, log 6). WIDTH 0 ends the pulse. -/
def Dev.timLive (old d : Dev) (p : Page) : Dev :=
  let ns := d.get F.TIM.PTP_STEP_NS_STEP p
  let sec := d.get F.TIM.PTP_STEP_SEC_STEP p
  let rate := d.time.rateStaged
  let d := { d with time := { d.time with rateStaged := false } }
  let d := if ns == 0 && sec == 0 then d
    else { d with time := { d.time with stepDue := true, stepNs := sext 31 ns, stepSec := sext 32 sec, okRun := 0, okSec := 0 } }
  let src := d.get F.TIM.DISC_CTRL_SRC p
  let d := if old.moved d F.TIM.DISC_CTRL_SRC p then d.discTo (if src == 0 then 0 else 1)
    else if src == 1 && rate && d.disc == 3 then d.discTo 1
    else d
  let d := d.when (src == 1 && rate && ns == 0 && sec == 0) (fun d => d.hostRate)
  if d.get F.TIM.PPS_OUT_CFG_WIDTH p == 0 then { d with pins := { d.pins with ppsOut := false } } else d

/-- A BTL commit (R126): a mode code starts the transition, and TARGET returns to 7. -/
def Dev.btlLive (d : Dev) (p : Page) : Dev :=
  let t := d.get F.BTL.MODE_REQ_TARGET p
  if t == 7 then d
  else
    let d := (d.put F.BTL.MODE_REQ_TARGET p 7).putS F.BTL.MODE_REQ_TARGET p 7
    let d := d.startTrans t 0
    if t == mDoze then d.dozeEntry else d

/-- An HST commit: a ring that is enabled starts with its indexes at 0 (R96). -/
def Dev.hstLive (old d : Dev) (p : Page) : Dev :=
  d.each (List.range 4) (fun d r =>
    if old.get F.HST.CR_CFG_WEIGHT p r == 0 && d.get F.HST.CR_CFG_WEIGHT p r != 0 then
      (d.put F.HST.CR_HEAD_IDX p 0 r).put F.HST.CR_TAIL_IDX p 0 r
    else d)

/-- An SBD commit: a change of SIZE_LOG2 resets SEQ, TAIL and HEAD (Table 19-8). -/
def Dev.sbdLive (old d : Dev) (p : Page) : Dev :=
  if old.moved d F.SBD.RING_CFG_SIZE_LOG2 p then
    { d with sb := { d.sb with renew := true } }.when (!d.on F.SBD.STAT_BUSY) (fun d => d.ringRenew)
  else d

/-- Umpire duty starts afresh when its enable changes (R483): no grant, no code, no block. -/
def Dev.umpireRestart (d : Dev) : Dev :=
  let p : Page := ⟨.TWN, 0, 0⟩
  let d := d.each [F.TWN.UMP_STAT_CODE_A, F.TWN.UMP_STAT_CODE_B, F.TWN.UMP_STAT_GO_A, F.TWN.UMP_STAT_GO_B, F.TWN.UMP_STAT_BLOCK_A,
    F.TWN.UMP_STAT_BLOCK_B] (fun d f => d.put f p 0)
  { d with
    pins := { d.pins with umpGoOut := 0, porstOut := 0 }
    tw := { d.tw with ump := [{}, {}], leaving := none } }

/-- A TWN commit (R478, Table 17-1): EN rises into SOLO, in SHADOW into DETACHED, once boot is done, with outputs gated until possession is held; EN falls to OFF;
umpire duty restarts. -/
def Dev.twnLive (old d : Dev) (p : Page) : Dev :=
  let en := d.get F.TWN.CFG_EN p
  let d := if !old.moved d F.TWN.CFG_EN p then d
    else if en == 1 then (d.when (d.on F.BTL.BOOT_STAT_DONE) (fun d => d.twinTo (if d.mode == mShadow then 4 else 1))).gateOutputs
    else
      let d := { d with
        pins := { d.pins with possLow := false }
        tw := { ump := d.tw.ump, leaving := d.tw.leaving } }
      (((d.put F.TWN.STAT_POSS_HELD p 0).twinTo 0).each ([1, 2] : List Nat) (fun d die => d.setRoute die (fun r => { r with jrn := [] }))).rfswFollow
  let d := d.when (old.moved d F.TWN.UMP_CFG_EN p) (fun d => d.umpireRestart)
  d.showTwinLink

/-- An ETH commit: an applied change of mode takes the link down (R399). -/
def Dev.ethLive (old d : Dev) (p : Page) : Dev := if old.moved d F.ETH.MODE_PCS p then d.ethDown p.inst else d

/-- A VXL commit: EN rises into DETECT and falls to OFF (Table 16-1). -/
def Dev.vxlLive (old d : Dev) (p : Page) : Dev :=
  if !old.moved d F.VXL.CFG_EN p then d
  else if d.get F.VXL.CFG_EN p == 1 then (if d.regionOn 1 then d.vxlTo p.inst 1 else d)
  else d.vxlTo p.inst 0

/-- The entries that NSE's groups write (R628), and the map that MAP_RD_IDX selects (Table 7-9). -/
def Dev.nseLive (old d : Dev) (p : Page) : Dev :=
  let d := d.when (old.movedAny d mapGroup p) (fun d =>
    d.setAir p.die (fun a => { a with
      maps := kvSet 0 a.maps (d.get F.NSE.MAP_IDX_IDX p) (d.get F.NSE.MAP_LO_W p + 2 ^ 32 * d.get F.NSE.MAP_HI_W p) }))
  let d := d.when (old.movedAny d ladGroup p) (fun d =>
    let k := 8 * d.get F.NSE.LAD_IDX_LADDER p + d.get F.NSE.LAD_IDX_RUNG p
    d.setAir p.die (fun a => { a with
      ladders := kvSet (if k % 8 == 0 then 0 else 0xFFF) a.ladders k (d.get F.NSE.LAD_MAP_MAP p) }))
  d.when (old.movedAny d chLadGroup p) (fun d =>
    d.setAir p.die (fun a => { a with chLad := kvSet 0 a.chLad (d.get F.NSE.CH_LAD_IDX_CH p) (d.get F.NSE.CH_LAD_LADDER p) }))

/-- Show the map that MAP_RD_IDX selects. -/
def Dev.showMap (d : Dev) (air : Nat) : Dev :=
  let w := d.mapWord air (d.g F.NSE.MAP_RD_IDX_IDX air)
  (d.w F.NSE.MAP_RD_LO_W (w % 2 ^ 32) air).w F.NSE.MAP_RD_HI_W (w / 2 ^ 32) air

/-- Show the tenant entry that TEN_RD_IDX selects (Table 12-9). -/
def Dev.showTen (d : Dev) (die : Nat) : Dev :=
  let t := d.tenant die (d.g F.ING.TEN_RD_IDX_IDX die)
  d.w F.ING.TEN_RD_D (b2n t.en + 2 * t.miclMin + 16 * t.cls + 65536 * t.sub) die

/-- The entry that ING's tenant group writes (R351, R628). -/
def Dev.ingLive (old d : Dev) (p : Page) : Dev :=
  let d := d.when (old.movedAny d tenGroup p) (fun d =>
    let n := d.get F.ING.TEN_IDX_IDX p
    let t : Tenant :=
      { en := d.get F.ING.TEN_DATA_EN p == 1, miclMin := d.get F.ING.TEN_DATA_MICL_MIN p, cls := d.get F.ING.TEN_DATA_CLASS p,
        sub := d.get F.ING.TEN_DATA_SUB p }
    d.setRoute p.die (fun r => { r with tenants := (n, t) :: r.tenants.filter (fun x => x.1 != n) }))
  d.showTen p.die

/-- A lineup load (R390): the staged list becomes the pending bank of the port in LUP_SEL, with its takeover time; LOAD returns to 0. -/
def Dev.loadLineup (d : Dev) (p : Page) : Dev :=
  let port := d.get F.SCH.LUP_SEL_PORT p
  let b : Bank :=
    { entries := (d.route p.die).stagedList (d.get F.SCH.LUP_COUNT_N p)
      cycle := d.get F.SCH.LUP_CYCLE_NS p
      kick := (d.get F.SCH.LUP_KICK_SEC_LO_S p + 2 ^ 32 * d.get F.SCH.LUP_KICK_SEC_HI_S p) * 1000000000 + d.get F.SCH.LUP_KICK_NS_NS p }
  let t := b.takeAt d.ptpNow
  let d := (d.setLineup p.die port (fun l => { l with pending := some (b, t.1), late := t.2 })).when t.2 (fun d => d.inc C.SCH.LUP_LATE p.die)
  (d.put F.SCH.LUP_CTRL_LOAD p 0).putS F.SCH.LUP_CTRL_LOAD p 0

/-- An SCH commit: a load, then the status of the port in LUP_SEL. -/
def Dev.schLive (d : Dev) (p : Page) : Dev := (d.when (d.get F.SCH.LUP_CTRL_LOAD p == 1) (fun d => d.loadLineup p)).showLup p.die

/-- An NTB commit: a change of the cold store's place or size discards every cold record, and each OVF record returns its place (R314). -/
def Dev.ntbLive (old d : Dev) (p : Page) : Dev :=
  if p.inst == 0 && old.movedAny d [F.NTB.COLD_BASE_LO_A, F.NTB.COLD_BASE_HI_A, F.NTB.COLD_CFG_SIZE_LOG2] p then
    let ovf := (d.route p.die).cold.filter (fun e => e.ovf)
    ((d.setRoute p.die (fun r => { r with cold := [] })).each ovf (fun d _ => d.popBack)).showNodes p.die
  else d

/-- Band-die commits: a new receive cell retunes through LO_SETTLE (R136), a new target or chain enable is followed (R139, R149). -/
def Dev.bandLive (old d : Dev) (p : Page) : Dev :=
  match p.tag with
  | .SYN =>
    if old.moved d F.SYN.RXLO_CELL_C0 p && (d.bandState p.die == 3 || d.bandState p.die == 5) then d.bandTo p.die 2 else d
  | .RXF =>
    let d := d.when (d.get F.RXF.AGC_CFG_PERIOD p == 0) (fun d => d.each (List.range 8) (fun d c => d.setGain p.die c (d.get F.RXF.AGC_FIX_IDX p)))
    (d.showChains p.die).bandFollow p.die
  | _ => d.bandFollow p.die

/-- What a block does once a snapshot is live. -/
def Dev.onLive (old d : Dev) (p : Page) : Dev :=
  match p.tag with
  | .TIM => old.timLive d p
  | .BTL => d.btlLive p
  | .HST => old.hstLive d p
  | .SBD => old.sbdLive d p
  | .TWN => old.twnLive d p
  | .ETH => old.ethLive d p
  | .VXL => old.vxlLive d p
  | .NSE => (old.nseLive d p).showMap p.die
  | .ING => old.ingLive d p
  | .SCH => d.schLive p
  | .NTB => old.ntbLive d p
  | .SYN | .RXF | .RSM => old.bandLive d p
  | .CMB => d.showChains (p.die + 2)
  | .TXB => d.bandPowerUp (p.die + 2)
  | .WUC => d.wakeDisabled p.die
  | .SNS => d.avlShow
  | .CPT | .VLT | .FCL | .UPD | .GWY | .DRM | .FLS | .BEN | .MNT | .HUD | .CAN | .FWD | .POL | .SRC | .CMP | .CRY | .PLY | .LAN
  | .CHZ | .AMC | .DEC | .DEM | .SIC | .LIM | .TXF => d

/-! ## Check and application (R83, R84) -/

/-- Hold a checked snapshot until its block's moment comes. -/
def Dev.holdSnap (d : Dev) (p : Page) (snap : List (Nat × Nat)) : Dev :=
  let pc : PendCommit := { tag := p.tag, die := p.die, inst := p.inst, snap := snap, deferred := false }
  { d with commits := (d.dropCommit p).commits ++ [pc] }

/-- A snapshot that passed its checks goes live: at once, or at the block's own moment for TXF (R157), AMC (R227) and DEM (R201). -/
def Dev.applyCommit (d : Dev) (p : Page) (snap : List (Nat × Nat)) : Dev :=
  match p.tag with
  | .TXF =>
    let d := d.holdSnap p snap
    if d.txState p.die p.inst == 1 then d.txfLive p.die p.inst else d
  | .AMC =>
    let d := (d.holdSnap p snap).setAir p.die (fun a => { a with chainsN := popCount 4 (d.g F.TXB.ASSIGN_CHAIN_EN p.die) })
    if (d.airD p.die).running then d else d.amcLive p.die
  | .DEM => d.demApply p snap
  | _ =>
    let new := (d.liveFrom p snap).commitDone p
    d.onLive new p

/-- The check of a snapshot and its result (R83). -/
def Dev.tryCommit (d : Dev) (p : Page) (snap : List (Nat × Nat)) : Dev :=
  match (Snap.mk d p snap).refusal with
  | some w => d.commitRefused p w
  | none => d.applyCommit p snap

/-- A commit takes its place among the events of its Route die, before any command made visible later (R85); during boot it is applied at once. -/
def Dev.queueCommit (d : Dev) (p : Page) (snap : List (Nat × Nat)) : Dev :=
  let pc : PendCommit := { tag := p.tag, die := p.die, inst := p.inst, snap := snap, deferred := false, after := d.hl.nextId }
  { d with commits := (d.dropCommit p).commits ++ [pc] }

/-- A snapshot whose turn has come: a COMMIT event for a page of a Route die, else the check at once. A STANDBY refuses its own Route dies' commits
at once (R495). -/
def Dev.startCommit (d : Dev) (p : Page) (snap : List (Nat × Nat)) : Dev :=
  if isRoute p.die && d.on F.BTL.BOOT_STAT_DONE && !(d.mode == mShadow && d.twin == 3) then d.queueCommit p snap
  else d.tryCommit p snap

/-- The write of PG_COMMIT.GO on one page (R83, R79, Table 4-2): the snapshot is taken and COMMIT_BUSY set. -/
def Dev.commitGo (d : Dev) (p : Page) : Dev :=
  if d.get (pgCommitBusy p.tag) p == 1 then d.failAcc (p.base + 0x020) 0 7
  else if isRoute p.die && d.dieHalted p.die then d.failAcc (p.base + 0x020) 0 9
  else
    let snap := d.stagedOf p
    let d := d.put (pgCommitBusy p.tag) p 1
    if d.get (pgMaintHeld p.tag) p == 1 then
      let pc : PendCommit := { tag := p.tag, die := p.die, inst := p.inst, snap := snap, deferred := true }
      ({ d with commits := d.commits ++ [pc] }).put (pgCommitRes p.tag) p 3
    else d.startCommit p snap

/-- An activity has released a block: a commit that it deferred is checked (Table 4-2). -/
def Dev.checkDeferred (d : Dev) (p : Page) : Dev :=
  match d.pendingCommit p with
  | none => d
  | some pc => if pc.deferred then (d.dropCommit p).startCommit p pc.snap else d

/-- Writes of PG_COMMIT to a die (7 for all) and page. -/
def Dev.pgCommit (d : Dev) (die page : Nat) : Dev := d.pageWrite die page 0x020 true (fun d p => d.commitGo p)

/-- PG_COMMIT: writing GO snapshots, checks and applies or refuses the page's staged fields (R83 to R87). -/
def execPgCommit (die page : Nat) (s : State) : Answer := run s (fun d => d.pgCommit die page)

/-! ## COMMIT events (R85, R337) -/

/-- The commit of a Route die whose turn it is: the oldest that is not deferred and that no earlier command holds back. -/
def Dev.nextCommit (d : Dev) (die : Nat) : Option PendCommit :=
  d.commits.find? (fun c => c.die == die && !c.deferred && !d.hl.inflight.any (fun e => e.id < c.after && bitOf e.toSeq (die - 1)))

/-- A COMMIT event: it takes its number, is journalled, and the snapshot is checked at that place (R85, R341). -/
def Dev.commitEvent (d : Dev) (die : Nat) (pc : PendCommit) : Dev :=
  let p : Page := ⟨pc.tag, pc.die, pc.inst⟩
  let d := if d.mode == mShadow then d
    else (d.sequence die 4).journal die 4 0 d.evTime (.commit p.num pc.snap)
  (d.dropCommit p).tryCommit p pc.snap

/-- Whether a COMMIT event may be placed on a die now. -/
def Dev.commitOpen (d : Dev) (die : Nat) : Bool := isRoute die && (if d.mode == mShadow then d.dieUp die else d.seqOpen die)

/-- COMMIT_EVENT: a commit on a Route-die page takes effect at its place in the die's order (R85). -/
def execCommitEvent (die : Nat) (s : State) : Answer :=
  run s (fun d => if !d.commitOpen die then d else (d.nextCommit die).elim d (fun pc => d.commitEvent die pc))

/-- LINEUP_LOAD: the COMMIT event of an SCH commit with LOAD 1 copies the staged list into the named port's pending bank (R390). -/
def execLineupLoad (die : Nat) (s : State) : Answer :=
  run s (fun d =>
    if !d.commitOpen die then d
    else match d.nextCommit die with
      | none => d
      | some pc =>
        if pc.tag == .SCH && snapGet pc.snap F.SCH.LUP_CTRL_LOAD ⟨.SCH, die, 0⟩ == 1 then d.commitEvent die pc else d)

/-! ## Mode and band requests -/

/-- A mode is requested: TARGET is staged and the BTL page committed (R126). -/
def Dev.modeReq (d : Dev) (t : Nat) : Dev :=
  d.pageWrite 0 0x004 0x020 true (fun d p => (d.putS F.BTL.MODE_REQ_TARGET p t).commitGo p)

/-- MODE_REQ_SERVICE (R126). -/
def execModeReqService (s : State) : Answer := run s (fun d => d.modeReq mService)

/-- MODE_REQ_BRINGUP (R126). -/
def execModeReqBringup (s : State) : Answer := run s (fun d => d.modeReq mBringup)

/-- MODE_REQ_QUIESCE (R127). -/
def execModeReqQuiesce (s : State) : Answer := run s (fun d => d.modeReq mQuiesce)

/-- MODE_REQ_DOZE: the commit starts the entry of Table 5-7 (R129). -/
def execModeReqDoze (s : State) : Answer := run s (fun d => d.modeReq mDoze)

/-- A band state is requested: TARGET is staged and the RSM page committed (R139). -/
def Dev.bandReq (d : Dev) (die t : Nat) : Dev :=
  d.pageWrite die 0x182 0x020 true (fun d p => if p.tag != .RSM then d else (d.putS F.RSM.REQ_TARGET p t).commitGo p)

/-- BAND_REQ_STANDBY (R139). -/
def execBandReqStandby (die : Nat) (s : State) : Answer := run s (fun d => d.bandReq die 1)

/-- BAND_REQ_RECEIVE (R139). -/
def execBandReqReceive (die : Nat) (s : State) : Answer := run s (fun d => d.bandReq die 3)

/-- BAND_REQ_HOLD (R139). -/
def execBandReqHold (die : Nat) (s : State) : Answer := run s (fun d => d.bandReq die 5)

/-! ## Switch-over of a bench unit -/

/-- SUBSTITUTION_SWITCHOVER: at the unit's switch-over point the spare takes over and the old unit is isolated; the block is released, and a commit
that waited for it is checked (R522, Table 4-2). A lane that carries data of a link in UP is announced to the peer first, and the switch-over follows when the
peer answers (R456). A channel unit switches at the first sample with no reception in progress on its channel (Table 7-8). -/
def execSubstitutionSwitchover (type die old : Nat) (sparesOk : List Bool) (s : State) : Answer :=
  run s (fun d =>
    match d.mt.held.find? (fun r => r.act == 2 && r.arg / 2 ^ 22 == type * 8 + die && r.arg % 2 ^ 20 == old) with
    | none => d
    | some r =>
      if type == 2 && d.unitBusy die old then d
      else if type == 5 && d.laneServes (old / 3) (old % 3) && (d.unit 5 die old).state == .active && sparesOk.headD true then d.laneSet (old / 3) (old % 3)
      else (d.switchOver type die old (r.arg / 2 ^ 20 % 4) r.cmd sparesOk).checkDeferred (unitPage type die old))

/-- VXL_LANE_SWAP_RX: the peer's ordered set arrives; an end that has sent none answers, and both carry the lane on lane 2 (R456). A commit that a
substitution of the lane held back is checked (Table 4-2). -/
def execVxlLaneSwapRx (link lane : Nat) (s : State) : Answer :=
  run s (fun d =>
    if !d.vxlUp link || d.vxlState link != 4 || 2 ≤ lane then d
    else if (d.vxlL link).swap == some lane then (d.laneSwap link lane).checkDeferred ⟨.VXL, 0, link⟩
    else if bitOf (d.g F.VXL.LANE_STAT_FAILED 0 link) lane then d
    else
      let d := d.emit (.vxlSet link 0xB lane)
      if d.benchFree link then (d.laneSwap link lane).checkDeferred ⟨.VXL, 0, link⟩
      else (d.wBit F.VXL.LANE_STAT_FAILED lane true 0 link).vxlDegrade link lane)

/-! ## The PTP step (R59) -/

/-- The step that waits is applied at the tick: PTP time moves, both step registers return to 0, and TIME_STEP goes to both Route sequencers and both
air MACs. A Route die whose order is not open takes it with its next TIMER event. -/
def Dev.ptpStep (d : Dev) : Dev :=
  if !d.time.stepDue then d
  else
    let p : Page := ⟨.TIM, 0, 0⟩
    let old := d.time
    let d := { d with time := { d.time.shift d.time.stepSec d.time.stepNs 0 with stepDue := false, stepNs := 0, stepSec := 0 } }
    let d := ((d.put F.TIM.PTP_STEP_NS_STEP p 0).putS F.TIM.PTP_STEP_NS_STEP p 0).put F.TIM.PTP_STEP_SEC_STEP p 0
    let d := (d.putS F.TIM.PTP_STEP_SEC_STEP p 0).fireVec 11
    let d := d.each ([1, 2, 3, 4] : List Nat) (fun d x => d.emit (.timeStep x old.ptpSec old.ptpNs d.time.ptpSec d.time.ptpNs))
    let d := d.each ([1, 2] : List Nat) (fun d die =>
      if d.seqOpen die then d.timerEvent die [(8, 1)] else { d with time := { d.time with stepFor := putBit d.time.stepFor (die - 1) true } })
    d.each ([3, 4] : List Nat) (fun d air => d.stepAlign air)

/-- PTP_STEP: an applied TIM commit with a non-zero step adds the offset at the next tick and clears both step registers (R59). -/
def execPtpStep (s : State) : Answer := run s (fun d => d.ptpStep)

end Sys2Proof.Machine
end

