-- ==== Sys2Proof/Machine/Update.lean ====
section
/-! DEFINITION. Device update (chapter 20): banks and manifests, the VERIFY checks, downloads, activation, trial and confirmation, the configuration blob. -/

namespace Sys2Proof.Machine
open Sys2Proof

/-! ## Banks (R556 to R558) -/

/-- TRIAL's marker (Table 20-2). -/
def markTrial : Nat := 0x5452494C
/-- TRIED's marker. -/
def markTried : Nat := 0x54524944
/-- GOOD's marker. -/
def markGood : Nat := 0x474F4F44
/-- DEAD's marker. -/
def markDead : Nat := 0x44454144
/-- An erased word. -/
def erasedWord : Nat := 0xFFFFFFFF

/-- A bank's state (R558): 0 EMPTY, 1 UNTRIED, 2 TRIED, 3 GOOD, 4 DEAD. -/
def ImgBank.state (b : ImgBank) : Nat :=
  if b.dead == markDead then 4
  else if b.trial != markTrial then 0
  else if b.good == markGood then 3
  else if b.tried == markTried then 2
  else 1

/-- The state sector's 24 octets (Table 20-2). -/
def ImgBank.words (b : ImgBank) : List Byte :=
  toLE 4 b.gen ++ toLE 4 b.trial ++ toLE 4 b.tried ++ toLE 4 b.good ++ toLE 1 b.reason ++ toLE 3 0xFFFFFF ++ toLE 4 b.dead

/-- An octet of the image area; of the set of manufacture it is a free value (assumption 6). -/
def ImgBank.octet (b : ImgBank) (a : Nat) : Byte :=
  if b.factory && !b.erased.contains (a / 65536) then Config.factoryOctet a else ~~~ memGet b.cells a

/-- `n` octets of the image area from an offset. -/
def ImgBank.read (b : ImgBank) (a n : Nat) : List Byte := (List.range n).map (fun i => b.octet (a + i))

/-- Whether the bank still holds the whole set of manufacture. -/
def ImgBank.pristine (b : ImgBank) : Bool := b.factory && b.erased.isEmpty

/-- The bank with a 64 KiB sector erased. -/
def ImgBank.erase (b : ImgBank) (sector : Nat) : ImgBank :=
  { b with cells := b.cells.filter (fun (c : Host.Cell) => c.1 / 65536 != sector), erased := if b.factory then sector :: b.erased else [] }

/-- The bank with octets programmed from the erased state. -/
def ImgBank.program (b : ImgBank) (a : Nat) (bs : List Byte) : ImgBank := { b with cells := memWrite b.cells a (bs.map (fun x => ~~~ x)) }

/-- A bank: 0 A, 1 B. -/
def Dev.imgBank (d : Dev) (i : Nat) : ImgBank := d.upd.banks.getD i {}

/-- The running bank (R556). -/
def Dev.runBank (d : Dev) : Nat := d.g F.BTL.BOOT_BANK_BANK

/-- The staging bank: the other one; in RECOVER the bank that the session named (R577). -/
def Dev.staging (d : Dev) : Nat := if d.mode == mRecover then d.upd.session.getD (1 - d.runBank) else 1 - d.runBank

/-- Show both banks (Table 20-12). -/
def Dev.showBanks (d : Dev) : Dev :=
  d.each ([0, 1] : List Nat) (fun d i =>
    let b := d.imgBank i
    let d := (d.w F.UPD.BANK_STAT_STATE b.state 0 0 i).w F.UPD.BANK_STAT_REASON (if b.state == 4 then b.reason else 0) 0 0 i
    d.w F.UPD.BANK_GEN_GEN (if b.gen == erasedWord then 0 else b.gen) 0 0 i)

/-- Change a bank. -/
def Dev.setImgBank (d : Dev) (i : Nat) (f : ImgBank → ImgBank) : Dev := { d with upd := { d.upd with banks := modAt d.upd.banks i f } }.showBanks

/-- A bank is given up: REASON, then DEAD (R557, Table 20-3). -/
def Dev.giveUp (d : Dev) (i reason step detail : Nat) : Dev :=
  let d := d.setImgBank i (fun b => { b with reason := reason, dead := markDead })
  let d := { d with upd := { d.upd with gaveUp := true } }
  let d := if reason ≤ 3 then d.inc C.UPD.REJECTS else d.inc C.UPD.REVERTS
  (d.logRec 0x0B04 2 0 (toLE 1 i ++ toLE 1 reason ++ toLE 1 step ++ toLE 1 detail)).raise E.UPD.BANK_GIVEN_UP

/-- A failed check shows in LAST_DETAIL. -/
def Dev.lastDetail (d : Dev) (step detail bank : Nat) : Dev :=
  ((d.w F.UPD.LAST_DETAIL_STEP step).w F.UPD.LAST_DETAIL_DETAIL detail).w F.UPD.LAST_DETAIL_BANK bank

/-- What a word cut off by power loss or a failed read-back holds: a free value that is not its marker (R557). -/
def Dev.cutWord (d : Dev) (mark : Nat) : Nat × Dev :=
  let f := d.freshNat
  (if f.1 % 2 ^ 32 == mark then erasedWord else f.1 % 2 ^ 32, f.2)

/-- Power is lost: what flash holds survives (R576). -/
def Dev.powerGone (d : Dev) : Dev := d.packageReset false 1 2 0

/-! ## The manifest (R560 to R563) -/

/-- A little-endian manifest field. -/
def ImgBank.field (b : ImgBank) (a n : Nat) : Nat := leNat (b.read a n)
/-- SET_VER. -/
def ImgBank.setVer (b : ImgBank) : Nat := b.field 8 4
/-- PART_COUNT. -/
def ImgBank.parts (b : ImgBank) : Nat := b.field 12 2
/-- HKEY. -/
def ImgBank.hkey (b : ImgBank) : Nat := b.field 14 1
/-- CSIG. -/
def ImgBank.csig (b : ImgBank) : Bool := bitOf (b.field 15 1) 0
/-- SCHEMA. -/
def ImgBank.schema (b : ImgBank) : Nat := b.field 16 2
/-- STATE_FMT. -/
def ImgBank.stateFmt (b : ImgBank) : Nat := b.field 20 2
/-- SET_SIZE. -/
def ImgBank.size (b : ImgBank) : Nat := b.field 28 4

/-- A part entry (Table 20-5). -/
structure Part where
  type : Nat
  wrap : Nat
  zero : Nat
  off  : Nat
  len  : Nat
  iv   : Nat
  hash : List Byte
  deriving DecidableEq, Repr

/-- The part entry with a number. -/
def ImgBank.part (b : ImgBank) (i : Nat) : Part :=
  let e := b.read (64 + 64 * i) 64
  { type := leAt e 0 1, wrap := leAt e 1 1, zero := leAt e 2 2, off := leAt e 4 4, len := leAt e 8 4, iv := leAt e 16 16, hash := sliceB e 32 32 }

/-- Every part entry. -/
def ImgBank.partList (b : ImgBank) : List Part := (List.range b.parts).map (fun i => b.part i)

/-- Check 0x01 (Table 20-6). -/
def ImgBank.headOk (b : ImgBank) : Bool :=
  let n := b.parts
  b.field 0 4 == 0x54464E4D && 5 ≤ n && n ≤ 32 && b.field 4 4 == 128 + 64 * n + (if b.csig then 128 else 0) && b.field 24 2 == 0x0D24 &&
    b.field 15 1 ≤ 1 && b.field 26 2 == 0 && b.field 32 32 == 0

/-- Check 0x02: HSIG under Haleri key HKEY (R562). -/
def ImgBank.hsigOk (b : ImgBank) : Bool :=
  let n := 64 + 64 * b.parts
  b.hkey ≤ 3 && Config.ecdsaP256Valid (Config.haleriKey b.hkey) (sha256 (b.read 0 n)) (b.read n 64)

/-- CKEY. -/
def ImgBank.ckey (b : ImgBank) : List Byte := b.read (128 + 64 * b.parts) 64

/-- Check 0x05: CSIG under CKEY (R562). -/
def ImgBank.csigOk (b : ImgBank) : Bool :=
  Config.ecdsaP256Valid b.ckey (sha256 (b.read 0 (128 + 64 * b.parts))) (b.read (192 + 64 * b.parts) 64)

/-- Check 0x06: types, ranges, alignment and overlap of the parts (R561). -/
def ImgBank.partsOk (b : ImgBank) : Bool :=
  let l := b.partList
  8192 ≤ b.size && b.size ≤ 46137344 &&
    l.all (fun p => 1 ≤ p.type && p.type ≤ 5 && p.zero == 0 && p.off % 4096 == 0 && 0x2000 ≤ p.off && 1 ≤ p.len && p.off + p.len ≤ b.size &&
      (p.wrap != 0xFF || p.iv == 0)) &&
    ([1, 2, 3, 4, 5] : List Nat).all (fun t => l.any (fun p => p.type == t)) &&
    (List.range l.length).all (fun i => (List.range i).all (fun j =>
      (b.part i).off + (b.part i).len ≤ (b.part j).off || (b.part j).off + (b.part j).len ≤ (b.part i).off))

/-- The service keys 8 to 15 that the update engine reads from the key blob; none while a tamper source of level 2 or 3 is latched (R568). -/
def Dev.updKeys (d : Dev) : List VKey :=
  let latched := (List.range 7).any (fun i =>
    (d.vault.latched.contains i || bitOf (d.g F.VLT.TAMPER_LATCH_SRC) i) && 2 ≤ d.g F.VLT.TAMPER_CFG_LEVEL 0 0 i)
  if latched then []
  else match d.blobOrder.find? (fun i => (d.blob i).state == 1) with
    | none => []
    | some i => (d.blob i).keys.filter (fun k => 2 * 65536 + 8 ≤ k.place && k.place < 2 * 65536 + 16)

/-- A service key of a slot. -/
def svcKey (l : List VKey) (slot : Nat) : Option (List Byte) := (l.find? (fun k => k.place == 2 * 65536 + slot)).map (fun k => k.val)

/-- The VERIFY checks of Table 20-6 in order: the DETAIL of the first that fails. The set of manufacture is a GOOD set (R558), so it passes.
With `recover` checks 0x03 to 0x05 are left out (R577). -/
def Dev.verify (d : Dev) (b : ImgBank) (recover : Bool) : Option Nat :=
  let keys := d.updKeys
  let ckeyOk := ([12, 13, 14, 15] : List Nat).any (fun s => svcKey keys s == some (sha256 b.ckey))
  if b.pristine then none
  else if !b.headOk then some 0x01
  else if !b.hsigOk then some 0x02
  else if !recover && d.cpt.csigFuse && !b.csig then some 0x03
  else if !recover && b.csig && !ckeyOk then some 0x04
  else if !recover && b.csig && !b.csigOk then some 0x05
  else if !b.partsOk then some 0x06
  else if b.partList.any (fun p => p.wrap != 0xFF && (p.wrap < 8 || 11 < p.wrap || (svcKey keys p.wrap).isNone)) then some 0x07
  else ((List.range b.parts).find? (fun i => sha256 (b.read (b.part i).off (b.part i).len) != (b.part i).hash)).map (fun i => 0x40 + i)

/-- Whether the manifest area is erased. -/
def ImgBank.noManifest (b : ImgBank) : Bool := !b.pristine && (List.range 8192).all (fun i => b.octet i == 0xFF#8)

/-- UPD_CHECK's outcome on the staging bank: cause 8, or cause 4 with DETAIL, as RESULT (R567, R579). -/
def Dev.checkResult (d : Dev) : Option Nat :=
  let b := d.imgBank d.staging
  if b.noManifest then some 8 else (d.verify b (d.mode == mRecover)).map (fun x => 4 + 256 * x)

/-! ## Downloads (R564 to R566) -/

/-- The session ends (R566). -/
def Dev.endSession (d : Dev) : Dev :=
  ({ d with upd := { d.upd with session := none, pages := [] } }.w F.UPD.STAT_SESSION 0).w F.UPD.SESSION_PAGES_N 0

/-- The bank that UPD_OPEN opens: 0xFF the staging bank; a number in RECOVER only (Table 20-9). -/
def Dev.openBank (d : Dev) (c : Cmd) : Option Nat :=
  let b := c.par 24 1
  if b == 0xFF then some (1 - d.runBank) else if d.mode == mRecover && b ≤ 1 then some b else none

/-- UPD_OPEN's range check: the bank, and no open trial (Table 20-9). -/
def openRange (d : Dev) (c : Cmd) : Option Nat :=
  if d.upd.due != 0 then none
  else if (d.openBank c).isNone then some 0
  else if d.mode != mRecover && (d.imgBank d.runBank).state == 2 then some 1
  else none

/-- UPD_OPEN, command 0x0A01: begins a download session; the staging bank becomes EMPTY (R564). -/
def execUpdOpen (id : Nat) (fate : FlashEnd) (s : State) : Answer :=
  run s (fun d => d.runCmd 0x0A01 id false
    openRange
    (fun d c =>
      if d.upd.due != 0 then (d, c.bad stMode)
      else
        let i := (d.openBank c).getD 0
        let erased := fun (d : Dev) => d.setImgBank i (fun b => { factory := b.factory, erased := b.erased, cells := b.cells })
        let f := d.freshNat
        let either := if f.1 % 2 == 0 then erased f.2 else f.2
        match fate with
        | .done =>
          let d := (erased d).endSession
          ({ d with upd := { d.upd with session := some i } }.w F.UPD.STAT_SESSION 1, c.ok)
        | .readFail => (either.endSession.raise E.UPD.FLASH_PROG, c.bad stRange 7)
        | .powerLost _ => (either.powerGone, c.later)))

/-- The 4 KiB pages that a write touches. -/
def writePages (off len : Nat) : List Nat := (List.range ((len + 4095) / 4096)).map (fun i => off / 4096 + i)

/-- UPD_WRITE's range check: a session, whole pages of the image area, none of them programmed before (R565, Table 20-9). -/
def writeRange (d : Dev) (c : Cmd) : Option Nat :=
  let off := c.par 24 4
  if d.upd.due != 0 then none
  else if d.upd.session.isNone then some 2
  else if 65536 < c.len || off % 4096 != 0 || 0x02C00000 < off + c.len then some 3
  else if (writePages off c.len).any (fun p => d.upd.pages.contains p) then some 3
  else none

/-- UPD_WRITE, command 0x0A02: programs LENGTH octets of the staging bank; a 64 KiB sector is erased at the session's first touch (R565). -/
def execUpdWrite (id : Nat) (dmaErr : Bool) (fate : FlashEnd) (s : State) : Answer :=
  run s (fun d => d.runCmd 0x0A02 id dmaErr
    writeRange
    (fun d c =>
      if d.upd.due != 0 then (d, c.bad stMode)
      else
        let off := c.par 24 4
        let i := d.upd.session.getD 0
        let pages := writePages off c.len
        let sectors := ((pages.map (fun p => p / 16)).eraseDups).filter (fun x => !d.upd.pages.any (fun p => p / 16 == x))
        let f := d.freshBytes c.len
        let data := if fate == .done then c.buf s.host c.len else f.1
        let d := f.2.setImgBank i (fun b => (sectors.foldl (fun (b : ImgBank) x => b.erase x) b).program off data)
        let d := { d with upd := { d.upd with pages := d.upd.pages ++ pages } }
        let d := (d.w F.UPD.SESSION_PAGES_N d.upd.pages.length).addc C.UPD.PAGES_WRITTEN pages.length
        match fate with
        | .done => (d, c.ok)
        | .readFail => (d.raise E.UPD.FLASH_PROG, c.bad stRange 7)
        | .powerLost _ => (d.powerGone, c.later)))

/-! ## Checking and activation (R567, R570 to R573) -/

/-- UPD_CHECK, command 0x0A03: the checks of step 5 on the staging bank; in RECOVER RESULT [16] is set (R567, R577). -/
def execUpdCheck (id : Nat) (s : State) : Answer :=
  run s (fun d => d.runCmd 0x0A03 id false noRange (fun d c =>
    let rec16 := if d.mode == mRecover then 65536 else 0
    match d.checkResult with
    | none => (d, c.ok rec16)
    | some r => (d.when (r % 256 == 4) (fun d => d.lastDetail 5 (r / 256) d.staging), c.bad stRange (r + rec16))))

/-- GEN is one above the higher GEN of the two banks (Table 20-7). -/
def Dev.nextGen (d : Dev) : Nat := (d.upd.banks.foldl (fun m b => if b.gen == erasedWord then m else max m b.gen) 0) + 1

/-- GEN, then TRIAL, are programmed in a bank (Table 20-7 step 4); a cut-off word does not count (R557, Table 20-8). -/
def Dev.programTrial (d : Dev) (i : Nat) (fate : FlashEnd) : Dev :=
  let n := d.nextGen
  let cut := fun (step : Nat) (d : Dev) =>
    if step ≤ 1 then
      let w := d.cutWord erasedWord
      w.2.setImgBank i (fun b => { b with gen := w.1 })
    else
      let w := d.cutWord markTrial
      w.2.setImgBank i (fun b => { b with gen := n, trial := w.1 })
  match fate with
  | .done => d.setImgBank i (fun b => { b with gen := n, trial := markTrial })
  | .readFail => (cut 2 d).raise E.UPD.FLASH_PROG
  | .powerLost step => (cut step d).powerGone

/-- UPD_ACTIVATE's refusals (R570, R573, Table 20-9). -/
def activateRange (d : Dev) (c : Cmd) : Option Nat :=
  if d.cmdHolds c.id then none
  else if d.upd.pages.isEmpty then some 8
  else if bitOf (c.par 24 1) 0 then (d.checkResult).map (fun r => if r % 256 == 8 then 8 else r)
  else none

/-- UPD_ACTIVATE, command 0x0A04: takes the activation token of all regions; the restart follows the completion (R570). In RECOVER it programs GEN and
TRIAL, and restarts unless BOOT_RECOVER led there (R577). A STANDBY breaks the pair first (R505). -/
def execUpdActivate (id : Nat) (s : State) : Answer :=
  run s (fun d => d.runCmd 0x0A04 id false activateRange (fun d c =>
    if d.mode == mRecover then
      let d := (d.programTrial d.staging .done).endSession
      (if d.pwr.recoverPin then d else { d with upd := { d.upd with due := 1 } }, c.ok)
    else if d.twin == 2 then (d, c.bad stMode)
    else if d.cmdHolds c.id then (d, c.ok)
    else
      let accept := fun (d : Dev) =>
        let d := if d.twin == 3 then (d.emit (.twinMsg 3 [])).leavePair 4 else d
        { d.endSession with upd := { d.endSession.upd with due := 1 } }
      let r := d.cmdToken c 7 allRegions 0 (fun d => (accept d, c.ok))
      (if r.2.later then accept r.1 else r.1, r.2)))

/-- The page tags whose status registers belong to the tables and the scheduler. -/
def savedTags : List Tag := [.NTB, .FWD, .SCH, .POL]

/-- The status registers of the table and scheduler pages of both Route dies. -/
def Dev.savedRegs (d : Dev) : List (Nat × Nat) :=
  let ps := allPages.filter (fun p => savedTags.contains p.tag)
  d.rf.regs.filter (fun e => ps.any (fun p => p.lo ≤ e.1 && e.1 < p.hi &&
    (fieldsOf p.tag).any (fun f => f.acc == .ro && 0x040 ≤ f.off && (List.range f.n).any (fun i => f.key p i == e.1))))

/-- IMG_BASE and WORK_BASE of both campaign engines. -/
def Dev.campBases (d : Dev) : List Nat :=
  ([1, 2] : List Nat).flatMap (fun die => [F.CMP.IMG_BASE_LO_A, F.CMP.IMG_BASE_HI_A, F.CMP.WORK_BASE_LO_A, F.CMP.WORK_BASE_HI_A].map (fun f => d.g f die))

/-- COLD_CFG of both Route dies. -/
def Dev.coldCfgs (d : Dev) : List Nat := ([1, 2] : List Nat).map (fun die => d.g F.NTB.COLD_CFG_SIZE_LOG2 die)

/-- A Route die's saved part: node and forwarding tables and scheduler state, its queues empty (Table 5-7 step 3, R570). -/
def Route.saved (r : Route) : Route :=
  { nodes := r.nodes, cold := r.cold, cedes := r.cedes, fwd := r.fwd, relocPtr := r.relocPtr, fwdReloc := r.fwdReloc,
    queues := r.queues.map (fun (q : Queue) => { q with pkts := [], gateHeld := false }), ports := r.ports.map (fun (p : PortSt) => { p with taking := false }),
    fixed := r.fixed, lineups := r.lineups, meters := r.meters, buckets := r.buckets, profiles := r.profiles }

/-- The state that an activation saves to the DRAM boot area (R570). -/
def Dev.toSave (d : Dev) : Saved :=
  { fmt := (d.imgBank d.runBank).stateFmt, population := d.boot.popRunning, coldCfg := d.coldCfgs, routes := d.routes.map (fun r => r.saved), pop := d.pop,
    regs := d.savedRegs, ctrs := d.rf.ctrs, camps := d.cmp, bases := d.campBases }

/-- The packets that wait in queues. -/
def Dev.queued (d : Dev) : Nat := d.routes.foldl (fun n r => r.queues.foldl (fun n q => n + q.pkts.length) n) 0

/-- Every unflushed record is programmed (Table 20-7 step 3). -/
def Dev.flushAll (d : Dev) : Dev :=
  let l := forN 64 d.log (fun l _ =>
    if l.ram.isEmpty then l
    else
      let l' := l.program (l.ram.take 128)
      { l' with ram := l.ram.drop 128, busy := 0 })
  let d := { d with log := l }
  ((d.w F.CPT.LOG_STAT_UNFLUSHED d.log.ram.length).w F.CPT.LOG_OLDEST_SEQ ((d.logAll.head?).elim 0 (·.seq))).flushDone

/-- Whether the command that asked for the restart still waits for its completion record. -/
def Dev.restartWaits (d : Dev) : Bool := d.hl.inflight.any (fun c => c.op == 0x0A04 || c.op == 0x0A06)

/-- The record that an activation begins: bank, generation and version (Table 20-7 step 1). -/
def Dev.noteActivation (d : Dev) (i : Nat) : Dev :=
  (d.inc C.UPD.ACTIVATIONS).logRec 0x0B01 1 0 (toLE 1 i ++ toLE 4 d.nextGen ++ toLE 4 (d.imgBank i).setVer)

/-- The state is saved in DRAM, where there is DRAM (R570, R572). -/
def Dev.saveAll (d : Dev) : Dev :=
  { d with upd := { d.upd with saved := if d.pwr.dramUp then some d.toSave else none } }

/-- Step 1 of Table 20-7: the record that an activation begins, and the mode held before it (R573); a revert begins likewise (R574). -/
def Dev.restartBegins (d : Dev) : Dev :=
  let d := d.when (d.upd.due == 1) (fun d => d.noteActivation d.staging)
  { d with upd := { d.upd with backMode := some d.mode } }

/-- Whether a restart waits for t_q: the band of SYNC_BAND sends beacons, and their slots have not ended since the grant (R571). -/
def Dev.beforeQ (d : Dev) : Bool :=
  let air := 3 + d.g F.UPD.CFG_SYNC_BAND
  d.upd.backMode.isNone && !d.upd.atQ && d.mode == mService && d.dieUp air && (d.airD air).running && !(d.bcnOn air).isEmpty

/-- ACTIVATION_BEGIN: at t_q (R571) QUIESCE entry begins from SERVICE, and the row takes effect again once QUIESCE is held; from BRINGUP and SHADOW the same hold
applies without a transition. Then the state is saved and the log flushed, GEN and TRIAL are programmed in the staging bank (an activation only, R574), and
a chip reset with cause 7 follows (Table 20-7). -/
def execActivationBegin (fate : FlashEnd) (s : State) : Answer :=
  run s (fun d =>
    if d.upd.due == 0 || d.restartWaits then d
    else if d.mode == mRecover then d.chipReset 7
    else if !d.on F.UPD.STAT_ACT_BUSY then d
    else if d.on F.BTL.BOOT_STAT_TRANS || d.beforeQ then d
    else if d.mode == mService then (d.when d.upd.backMode.isNone (fun d => d.restartBegins)).startTrans mQuiesce 1
    else
      let act := d.upd.due == 1
      let i := d.staging
      let d := d.when d.upd.backMode.isNone (fun d => d.restartBegins)
      let d := ((d.addc C.UPD.ACT_DROPS d.queued).flushAll).saveAll
      let d := if act then d.programTrial i fate else d
      if d.pwr.inReset then d else d.chipReset 7)

/-! ## Trial and confirmation (R574, R575) -/

/-- The trial is over. -/
def Dev.trialOver (d : Dev) : Dev := (d.w F.UPD.STAT_TRIAL 0).w F.UPD.WIN_LEFT_SEC 0

/-- WIN_LEFT shows the seconds that are left of the trial's window (R574, Table 20-12). -/
def Dev.trialTick (d : Dev) : Dev :=
  if d.on F.UPD.STAT_TRIAL then d.w F.UPD.WIN_LEFT_SEC ((d.upd.trialEnd - d.time.lt + 1000000 * tickUs - 1) / (1000000 * tickUs)) else d

/-- Range of the trial commands: cause 5 with no trial running. -/
def trialRange (d : Dev) (_ : Cmd) : Option Nat := if d.on F.UPD.STAT_TRIAL then none else some 5

/-- UPD_CONFIRM, command 0x0A05: programs GOOD on the running bank and ends the trial (R574). -/
def execUpdConfirm (id : Nat) (fate : FlashEnd) (s : State) : Answer :=
  run s (fun d => d.runCmd 0x0A05 id false trialRange (fun d c =>
    let i := d.runBank
    match fate with
    | .done =>
      let d := (d.setImgBank i (fun b => { b with good := markGood })).trialOver
      ((d.inc C.UPD.CONFIRMS).logRec 0x0B03 1 0 (toLE 1 i ++ toLE 4 (d.imgBank i).gen), c.ok)
    | .readFail =>
      let w := d.cutWord markGood
      ((w.2.setImgBank i (fun b => { b with good := w.1 })).raise E.UPD.FLASH_PROG, c.bad stRange 7)
    | .powerLost _ =>
      let w := d.cutWord markGood
      ((w.2.setImgBank i (fun b => { b with good := w.1 })).powerGone, c.later)))

/-- A restart into the other bank is due: the activation tokens are asked for (R574). -/
def Dev.revertDue (d : Dev) : Dev := ({ d with upd := { d.upd with due := 2 } }.requestToken ⟨7, allRegions, none, 0⟩).1

/-- UPD_REVERT, command 0x0A06: the trial bank is given up with REASON 5 and the device restarts into the other (R575). -/
def execUpdRevert (id : Nat) (s : State) : Answer :=
  run s (fun d => d.runCmd 0x0A06 id false trialRange (fun d c => (((d.giveUp d.runBank 5 0 0).trialOver).revertDue, c.ok)))

/-- TRIAL_WARNING: 60 s before expiry vector 12 fires (R574). -/
def execTrialWarning (s : State) : Answer :=
  run s (fun d => if d.on F.UPD.STAT_TRIAL then (d.w F.UPD.WIN_LEFT_SEC 60).fireVec 12 else d)

/-- TRIAL_EXPIRY: the window ends unconfirmed: REASON 4 and DEAD, vector 12, and with REVERT_RESET 1 a restart into the other bank (R574). -/
def execTrialExpiry (s : State) : Answer :=
  run s (fun d =>
    if !d.on F.UPD.STAT_TRIAL then d
    else
      let d := ((d.giveUp d.runBank 4 0 0).trialOver).fireVec 12
      if d.on F.UPD.CFG_REVERT_RESET then d.revertDue else d)

/-- UPD_INFO, command 0x0A07: both banks' state words and manifest headers (Table 20-9). -/
def execUpdInfo (id : Nat) (dmaErr : Bool) (s : State) : Answer :=
  runHost s (fun h d => d.runCmdH h 0x0A07 id dmaErr (lenIs 192) (fun _ d c =>
    let a := d.imgBank 0
    let b := d.imgBank 1
    (d, c.ok, a.words ++ b.words ++ a.read 0 64 ++ b.read 0 64 ++ List.replicate 16 0#8)))

/-! ## The configuration blob (R122, R123, R578) -/

/-- A blob's LENGTH field. -/
def blobLen (b : List Byte) : Nat := leAt b 4 4
/-- A blob's ENTRY_COUNT. -/
def blobCount (b : List Byte) : Nat := leAt b 24 4
/-- A blob's entry: BAR0 offset with [31:24], and value. -/
def blobEntry (b : List Byte) (k : Nat) : Nat × Nat := (leAt b (32 + 8 * k) 4, leAt b (36 + 8 * k) 4)

/-- The first failed check of a blob in the codes of BTL.CFG_STAT.FAIL, 0 for none (R122, R123). -/
def blobFail (b : List Byte) (schema : Nat) : Nat :=
  let n := blobLen b
  let c := blobCount b
  if leAt b 0 4 != 0x43474C42 then 1
  else if n != 36 + 8 * c || 131067 < c then 2
  else if leAt b 8 2 != schema || leAt b 10 6 != 0 || leAt b 18 2 != 0 || leAt b 28 4 != 0 || leAt b 16 1 == 0 || 3 < leAt b 16 1 || 1 < leAt b 17 1 ||
      leAt b 20 4 % 16 != 15 || 2 ^ 24 ≤ leAt b 20 4 || (List.range c).any (fun k => 2 ^ 24 ≤ (blobEntry b k).1) then 3
  else if leAt b (n - 4) 4 != crc32cStd (b.take (n - 4)) then 4
  else 0

/-- `n` octets of flash from the blob's place: what is not written reads erased. -/
def Dev.blobFlash (d : Dev) (n : Nat) : List Byte := (d.boot.blob ++ List.replicate (n - d.boot.blob.length) 0xFF#8).take n

/-- CFG_WRITE's range check (Table 20-9). -/
def cfgRange (_ : Dev) (c : Cmd) : Option Nat :=
  if c.len < 36 || 1048576 < c.len then some (6 + 256 * 2) else if 1 < c.par 24 1 then some 6 else none

/-- CFG_WRITE, command 0x0A08: checks and writes a configuration blob, which applies at the next start (R578); power lost meanwhile leaves one that fails
its CHECK (Table 20-8). -/
def execCfgWrite (id : Nat) (dmaErr : Bool) (fate : FlashEnd) (s : State) : Answer :=
  run s (fun d => d.runCmd 0x0A08 id dmaErr
    cfgRange
    (fun d c =>
      let sel := c.par 24 1
      if d.mode == mRecover && sel == 0 then (d, c.bad stMode)
      else
        let b := c.buf s.host c.len
        let fail := if blobLen b != c.len && leAt b 0 4 == 0x43474C42 then 2 else blobFail b (d.imgBank (if sel == 0 then d.runBank else d.staging)).schema
        let f := d.freshBytes c.len
        if fail != 0 then (d, c.bad stRange (6 + 256 * fail))
        else match fate with
          | .done =>
            ((({ d with boot := { d.boot with blob := b } }).inc C.UPD.CFG_WRITES).logRec 0x0B06 1 0 (toLE 4 c.len ++ toLE 2 (leAt b 8 2)), c.ok)
          | .readFail => ({ f.2 with boot := { f.2.boot with blob := f.1 } }.raise E.UPD.FLASH_PROG, c.bad stRange 7)
          | .powerLost _ =>
            let cut := b.take (c.len - 4) ++ (b.drop (c.len - 4)).map (fun x => ~~~ x)
            ({ d with boot := { d.boot with blob := cut } }.powerGone, c.later)))

end Sys2Proof.Machine
end

