-- ==== Sys2Proof/Machine/RegAccess.lean ====
section
/-! DEFINITION. Accesses to the register space (R5 to R7, R75 to R79, R88, R89, R94): writes of registers, reads that clear, BAR2 and page locks. A write
to a register that has a command of its own has that command's effect. One read of BAR0, `Dev.regRead`, serves every row that reads. -/

namespace Sys2Proof.Machine
open Sys2Proof

/-! ## Addresses and values -/

/-- The die of a BAR0 offset (R75). -/
def addrDie (a : Nat) : Nat := a / 0x200000 % 8
/-- The page number of a BAR0 offset. -/
def addrPage (a : Nat) : Nat := a / 0x1000 % 512
/-- The offset within the page. -/
def addrOff (a : Nat) : Nat := a % 0x1000

/-- The size of BAR0 and of BAR2 (R92). -/
def barBytes : Nat := 2 ^ 24

/-- A base address register as the root complex sizes it (R92): 64-bit and 16 MiB, BAR0 with BAR1 and prefetchable BAR2 with BAR3; BAR4 and BAR5 are not
implemented. The value is that after all ones were written, in the layout of the PCI header (PRESUMED, log 53). -/
def barSized (n : Nat) : Nat :=
  match n with
  | 0 => 2 ^ 32 - barBytes + 4
  | 2 => 2 ^ 32 - barBytes + 0xC
  | 1 | 3 => 2 ^ 32 - 1
  | _ => 0

/-- What the endpoint reports of itself (R91): vendor, device, class code, the payload sizes, link widths and rate it supports, and its capabilities. -/
structure PcieEndpoint where
  vendor   : Nat := 0x1EF0
  device   : Nat := 0x0D24
  classCode : Nat := 0x028000
  payloads : List Nat := [128, 256, 512]
  widths   : List Nat := [8, 4, 2, 1]
  gtps     : Nat := 16
  tags10   : Bool := true
  aer      : Bool := true
  aspmL1   : Bool := true
  flr      : Bool := true
  aspmL0s  : Bool := false
  intx     : Bool := false
  msi      : Bool := false
  sriov    : Bool := false
  functions : Nat := 1
  deriving DecidableEq, Repr

/-- Dravina's endpoint (R91). -/
def pcieEndpoint : PcieEndpoint := {}

/-- The fields of a page that lie at an offset, each with its instance. -/
def fieldsAt (p : Page) (off : Nat) : List (Fld × Nat) :=
  (fieldsOf p.tag).flatMap (fun f =>
    if !f.on p || off < f.off || (off - f.off) % f.stride != 0 || f.n ≤ (off - f.off) / f.stride then [] else [(f, (off - f.off) / f.stride)])

/-- PG_ID of a page (Table 4-1). -/
def Page.id (p : Page) : Nat := p.inst + 256 * (pageRow p.tag).type + 65536 * p.die

/-- The word that a read of a page's own register returns: the host's copy of every readable field (R6, R7). While a block soft reset is in progress
every field reads its reset value, the status of what the page only shows among them (R82, log 12). -/
def Dev.word (d : Dev) (p : Page) (off : Nat) : Nat :=
  let busy := d.get (pgRstBusy p.tag) p == 1
  (fieldsAt p off).foldl (fun n x =>
    if x.1.acc == .wo then n
    else n + (if busy && x.1.acc == .ro then x.1.reset x.2 else d.getS x.1 p x.2) * 2 ^ x.1.lsb) 0

/-- Whether the size and alignment of an access are right (R78): 4 octets below 0x800; 4, or 8 for a whole counter, above. -/
def accessOk (off size : Nat) : Bool := (size == 4 && off % 4 == 0) || (size == 8 && off % 8 == 0 && 0x800 ≤ off)

/-- What a command leaves of the device. -/
def Dev.via (d : Dev) (f : State → Answer) : Dev :=
  match f { dev := d } with
  | .next s => s.dev
  | .fault _ => d
  | .refused _ => d

/-! ## Writes by access type (R5) -/

/-- Write one field by its access type: RW and RWS take the value, W1C loses the bits written 1, the others ignore it (R5, R7). -/
def Dev.writeField (d : Dev) (p : Page) (data : Nat) (x : Fld × Nat) : Dev :=
  let v := bitsOf data x.1.lsb x.1.width
  match x.1.acc with
  | .rw => d.put x.1 p v x.2
  | .rws => d.putS x.1 p v x.2
  | .w1c => d.put x.1 p (ofBits ((bitList x.1.width (d.get x.1 p x.2)).filter (fun b => !bitOf v b))) x.2
  | .ro | .rc | .wo => d

/-- Whether a lock protects the register at an offset (R89). -/
def lockedAt (p : Page) (off : Nat) : Bool :=
  off == 0x024 || (fieldsAt p off).any (fun x => x.1.acc == .rw || x.1.acc == .rws || x.1.acc == .wo)

/-- An entry of the staged lineup list is written; a write of the high word advances the index (R388). -/
def Dev.stageEntry (d : Dev) (p : Page) (hi : Bool) (data : Nat) : Dev :=
  let i := d.get F.SCH.LUP_IDX_IDX p
  let d := d.setRoute p.die (fun r =>
    let old := kvGet 0 r.lupStage i
    { r with lupStage := kvSet 0 r.lupStage i (if hi then old % 2 ^ 32 + 2 ^ 32 * (data % 2 ^ 32) else old / 2 ^ 32 * 2 ^ 32 + data % 2 ^ 32) })
  if hi then d.put F.SCH.LUP_IDX_IDX p (i + 1) else d

/-- What a write of a plain register moves with it: windows and selectors show what they select, and ETH0's PHY reset follows its bit. -/
def Dev.afterWrite (d : Dev) (p : Page) (off data : Nat) : Dev :=
  match p.tag with
  | .BTL => if off == 0x0A0 then d.showLedger else d
  | .NSE => if off == F.NSE.MAP_RD_IDX_IDX.off then d.showMap p.die
      else if off == F.NSE.NF_SEL_CH.off then d.latchNoise p.die (d.get F.NSE.NF_SEL_CH p) else d
  | .AMC => if off == F.AMC.NBR_SEL_IDX.off then d.showNbr p.die else d
  | .ING => if off == F.ING.TEN_RD_IDX_IDX.off then d.showTen p.die else d
  | .SCH => if off == F.SCH.SMP_SEL_Q.off then d.showSmp p.die
      else if off == F.SCH.LUP_ENT_LO_W.off then d.stageEntry p false data
      else if off == F.SCH.LUP_ENT_HI_W.off then d.stageEntry p true data else d
  | .LIM => if off == F.LIM.LOCK_IDX_IDX.off then d.showLim p.die else d
  | .ETH => if off == F.ETH.TX_STEP_STEP.off then d.showStep p.inst
      else if off == F.ETH.PHY_RST_ASSERT.off && p.inst == 0 then { d with pins := { d.pins with phyRstLow := d.on F.ETH.PHY_RST_ASSERT } } else d
  | .CAN => if off == F.CAN.TX_SEL_IDX.off then d.showTxWin p.inst else d
  | .TIM => if off == F.TIM.PTP_RATE_ADJ.off then { d with time := { d.time with rateStaged := true } } else d
  | .CPT | .VLT | .FCL | .SBD | .UPD | .HST | .GWY | .DRM | .FLS | .SNS | .TWN | .BEN | .MNT | .HUD | .VXL | .FWD | .POL | .SRC | .CMP
  | .NTB | .CRY | .PLY | .LAN | .CHZ | .CMB | .TXB | .WUC | .DEC | .DEM | .SIC | .SYN | .RXF | .RSM | .TXF => d

/-- A write to a register without a command of its own: every field at the offset takes it by its access type. LIM.LOCK_IDX above 156 is a failed access
(R79, Table 6-9). -/
def Dev.plainWrite (d : Dev) (die page off data : Nat) : Dev :=
  let lk := (targets die page).any (fun p => lockedAt p off)
  d.pageWrite die page off lk (fun d p =>
    if p.tag == .LIM && off == F.LIM.LOCK_IDX_IDX.off && 156 < data % 256 then d.failAcc (p.base + off) 0 8
    else ((fieldsAt p off).foldl (fun d x => d.writeField p data x) d).afterWrite p off data)

/-- PG_CTRL: EN is held, PG_STAT.RUN follows it, and SRST starts a block soft reset (R80, R82). -/
def Dev.ctrlWrite (d : Dev) (die page data : Nat) : Dev :=
  d.pageWrite die page 0x008 true (fun d p =>
    let d := (d.put (pgEn p.tag) p (data % 2)).put (pgRun p.tag) p (data % 2)
    if bitOf data 1 then d.softReset p else d)

/-- PG_ACCESS: UREAD is held, and LOCK, once 1, stays (R88, R89). -/
def Dev.accessWrite (d : Dev) (die page data : Nat) : Dev :=
  d.pageWrite die page 0x024 true (fun d p =>
    let d := d.put (pgUread p.tag) p (data % 2)
    if bitOf data 1 then d.put (pgLock p.tag) p 1 else d)

/-- The registers of the common page part (Table 4-1). -/
def Dev.commonWrite (d : Dev) (die page off data : Nat) : Dev :=
  match off with
  | 0x008 => d.ctrlWrite die page data
  | 0x010 => d.via (execStickyClear die page (data % 65536))
  | 0x014 => d.via (execErrorForce die page (data % 65536))
  | 0x018 => d.via (execReactCodeWrite die page false data)
  | 0x01C => d.via (execReactCodeWrite die page true data)
  | 0x020 => if bitOf data 0 then d.pgCommit die page else d.pageWrite die page 0x020 true (fun d _ => d)
  | 0x024 => d.accessWrite die page data
  | _ => d.pageWrite die page off false (fun d _ => d)

/-- RSM.CAL_REQ and RSM.RESUME: bit 0 asks for the receive side or the band, bits 1 to 4 for the transmit chains; one write, one check (Table 6-8, R79). -/
def Dev.rsmWrite (d : Dev) (die off data : Nat) : Dev :=
  d.pageWrite die rsmPage off true (fun d p =>
    let tx := bitsOf data 1 4
    if off == 0x058 then (d.when (bitOf data 0) (fun d => d.calReqRx p)).calReqTx p tx
    else (d.when (bitOf data 0) (fun d => d.resumeBand p)).resumeTx p tx)

/-- The command whose effect a write to a register has, if the register has one. -/
def regCommand (die page off data : Nat) : Option (State → Answer) :=
  let anchor := die == 0 || die == 7
  let lim := page == limPage
  if anchor && page == 0x000 && off == 0x140 then some (execMboxGo data)
  else if anchor && page == 0x002 && off ≤ 0x0BC && 0x040 ≤ off then some (execCollectorClear off data)
  else if anchor && page == 0x002 && off == 0x0C4 then some (execFirstClear data)
  else if anchor && page == 0x002 && off == 0x0C8 then some (execErrnLatchClear data)
  else if anchor && page == 0x004 && off == 0x098 then some (execResetReq data)
  else if anchor && page == 0x004 && off == 0x09C then some (execLedgerClr data)
  else if anchor && page == 0x006 && 0x040 ≤ off && off < 0x0C0 && off % 0x20 == 0x0C then some (execDoorbell ((off - 0x040) / 0x20) data)
  else if anchor && page == 0x006 && 0x040 ≤ off && off < 0x0C0 && off % 0x20 == 0x18 && bitOf data 0 then some (execRingResume ((off - 0x040) / 0x20))
  else if anchor && page == 0x006 && off == 0x0CC then some (execCqHeadWrite data)
  else if anchor && page == 0x007 && off == F.GWY.STANDBY_CAN_BUS.off then some (execStandbyRelease false data)
  else if anchor && page == 0x007 && off == F.GWY.STANDBY_ETH_PORT.off then some (execStandbyRelease true data)
  else if anchor && 0x010 ≤ page && page < 0x020 && off == 0x0CC then some (execTsPop (page - 0x010) data)
  else if anchor && page == 0x010 && off == 0x0F4 then some (execMdioCmd data)
  else if anchor && 0x020 ≤ page && page < 0x040 then
    let n := page - 0x020
    match off with
    | 0x044 => match data % 4 with
      | 0 => some (execCanWakeReq n)
      | 1 => some (execCanSleepEdge n)
      | 2 => some (execCanSleepFrame n)
      | _ => none
    | 0x048 => some (execCanRecoverWrite n data)
    | 0x070 => some (execCanTxPush n data)
    | 0x074 => some (execCanTxAck n data)
    | 0x078 => some (execCanTxAbort n data)
    | 0x0A4 => some (execCanRxAck n data)
    | _ => if 0x680 ≤ off && off < 0x6D0 then some (execCanTxWinWrite n ((off - 0x680) / 4) data) else none
  else if lim && off == 0x048 then some (execLockDataWrite die data)
  else if lim && off == 0x050 then some (execLockGo die data)
  else none

/-- Writes of the MSI-X page (R94): table words are held; unmasking a pending vector sends it. -/
def Dev.msixWrite (d : Dev) (addr data size : Nat) : Dev :=
  let off := addrOff addr
  let v := off / 16
  if !d.regionOn 0 then d.failAcc addr 0 3
  else if !accessOk off size then d.failAcc addr 0 4
  else if 0x400 ≤ off then d
  else if off % 16 != 12 then { d with hl := { d.hl with msixTbl := kvSet 0 d.hl.msixTbl off (data % 2 ^ 32) } }
  else
    let open_ := !bitOf data 0
    let due := open_ && bitOf d.hl.msixPend v
    let d := { d with hl := { d.hl with msixUnmask := putBit d.hl.msixUnmask v open_ } }
    if due then { d with hl := { d.hl with msixPend := putBit d.hl.msixPend v false } }.fireVec v else d

/-- A write through BAR0 (R75 to R79). -/
def Dev.regWrite (d : Dev) (addr data size : Nat) : Dev :=
  let die := addrDie addr
  let page := addrPage addr
  let off := addrOff addr
  if page == 0x1FF && (die == 0 || die == 7) then d.msixWrite addr data size
  else if (targets die page).isEmpty then d.failAcc addr 0 1
  else if !accessOk off size then d.failAcc addr 0 4
  else if off < 0x040 then d.commonWrite die page off (data % 2 ^ 32)
  else if page == rsmPage && (off == 0x058 || off == 0x05C) then d.rsmWrite die off data
  else match regCommand die page off (data % 2 ^ 32) with
    | some f => d.via f
    | none => d.plainWrite die page off (data % 2 ^ 32)

/-- REGISTER_WRITE: a write to a register takes effect by its access type; a failed access is recorded and dropped (R5, R79). -/
def execRegisterWrite (addr data size : Nat) (s : State) : Answer := run s (fun d => d.regWrite (addr % 2 ^ 24) data size)

/-- BLOCK_SOFT_RESET: writing PG_CTRL.SRST starts a block soft reset of the page (R82). -/
def execBlockSoftReset (die page : Nat) (s : State) : Answer := run s (fun d => d.pageWrite die page 0x008 true (fun d p => d.softReset p))

/-- PAGE_LOCK: writing 1 to PG_ACCESS.LOCK locks the page until the next package or chip reset (R89). -/
def execPageLock (die page : Nat) (s : State) : Answer :=
  run s (fun d => d.pageWrite die page 0x024 true (fun d p => d.put (pgLock p.tag) p 1))

/-! ## Reads through BAR0 (R75 to R79) -/

/-- The low and high halves that a read of a split register returns and latches (R57, R58, R61, Tables 12-10, 17-8):
offset and value of the low half, and offset and value of each high half. -/
def Dev.splitAt (d : Dev) (addr : Nat) : Option (Nat × List (Nat × Nat)) :=
  let t := d.time
  let tim := (⟨.TIM, 0, 0⟩ : Page).base
  if addr == tim + 0x040 then some (t.lt % 2 ^ 32, [(tim + 0x044, t.lt / 2 ^ 32)])
  else if addr == tim + 0x048 then some (t.ptpSec % 2 ^ 32, [(tim + 0x04C, t.ptpSec / 2 ^ 32), (tim + 0x050, t.ptpNs)])
  else if addr == tim + 0x068 then some (t.ppsCap % 2 ^ 32, [(tim + 0x06C, t.ppsCap / 2 ^ 32)])
  else if addr == (⟨.ING, 1, 0⟩ : Page).base + 0x040 then
    some (d.g F.ING.SEQ_LO_SEQ 1, [(addr + 4, d.g F.ING.SEQ_HI_SEQ 1)])
  else if addr == (⟨.ING, 2, 0⟩ : Page).base + 0x040 then
    some (d.g F.ING.SEQ_LO_SEQ 2, [(addr + 4, d.g F.ING.SEQ_HI_SEQ 2)])
  else if addr == (⟨.TWN, 0, 0⟩ : Page).base + 0x060 then
    some (d.g F.TWN.LAST_SEQ_LO_S, [(addr + 4, d.g F.TWN.LAST_SEQ_HI_S)])
  else if addr == (⟨.TWN, 0, 0⟩ : Page).base + 0x068 then
    some (d.g F.TWN.LAST_SEQ_LO_S 0 0 1, [(addr + 4, d.g F.TWN.LAST_SEQ_HI_S 0 0 1)])
  else none

/-- The low halves of the split registers. -/
def splitLows : List Nat :=
  [(⟨.TIM, 0, 0⟩ : Page).base + 0x040, (⟨.TIM, 0, 0⟩ : Page).base + 0x048, (⟨.TIM, 0, 0⟩ : Page).base + 0x068, (⟨.ING, 1, 0⟩ : Page).base + 0x040,
   (⟨.ING, 2, 0⟩ : Page).base + 0x040, (⟨.TWN, 0, 0⟩ : Page).base + 0x060, (⟨.TWN, 0, 0⟩ : Page).base + 0x068]

/-- Whether a register is the high half of a split register. -/
def Dev.splitHigh (d : Dev) (addr : Nat) : Bool :=
  splitLows.any (fun l => (d.splitAt l).any (fun x => x.2.any (fun h => h.1 == addr)))

/-- The word of a register of the common page part (Table 4-1). PG_REV reads major 1, minor 0; the write-only registers read 0. -/
def Dev.commonWord (d : Dev) (p : Page) (off : Nat) : Nat :=
  let codes := fun (first n : Nat) => (List.range n).foldl (fun w k => w + d.react p (first + k) * 2 ^ (3 * k)) 0
  match off with
  | 0x000 => p.id
  | 0x004 => 0x0100
  | 0x008 => d.get (pgEn p.tag) p
  | 0x00C =>
    d.get (pgRun p.tag) p + 2 * d.get (pgRstBusy p.tag) p + 4 * d.get (pgCommitBusy p.tag) p + 8 * d.get (pgCommitRes p.tag) p +
      32 * d.get (pgLock p.tag) p + 64 * d.get (pgRefWord p.tag) p
  | 0x010 => d.get (pgSticky p.tag) p
  | 0x018 => codes 0 10
  | 0x01C => codes 10 6
  | 0x020 => 65536 * d.get (pgGen p.tag) p
  | 0x024 => d.get (pgUread p.tag) p + 2 * d.get (pgLock p.tag) p
  | 0x028 => d.get (pgMaintAct p.tag) p + 8 * d.get (pgMaintHeld p.tag) p + 16 * d.get (pgMaintQueued p.tag) p
  | _ => 0

/-- A failed read returns 0 and is recorded (R79). -/
def Dev.failRead (d : Dev) (addr cause : Nat) : Dev := (d.failAcc addr 0 cause).emit (.readData addr 0)

/-- A word of the MSI-X page (R94): the table below 0x400, with the mask bit of each vector in bit 0 of its fourth word, the pending bits at 0x800, 0
elsewhere. -/
def Dev.msixWord (d : Dev) (off size : Nat) : Nat :=
  if off < 0x400 then
    if off % 16 == 12 then b2n (!bitOf d.hl.msixUnmask (off / 16)) else kvGet 0 d.hl.msixTbl off
  else if off == 0x800 then (if size == 8 then d.hl.msixPend else d.hl.msixPend % 2 ^ 32)
  else if off == 0x804 then d.hl.msixPend / 2 ^ 32
  else 0

/-- A read of a 64-bit counter: 8 octets return both halves from one instant; 4 octets of the low half latch the high half, and the next read of the
high half returns it. With nothing latched the high half is the counter's own (DESIGN CHOICE, log 13) (R78). -/
def Dev.ctrRead (d : Dev) (addr size : Nat) : Dev :=
  let k := addr / 8 * 8
  let v := kvGet 0 d.rf.ctrs k
  let latch := fun (d : Dev) (h : Nat) => { d with rf := { d.rf with ctrHi := kvSet (2 ^ 32) d.rf.ctrHi k h } }
  if size == 8 then d.emit (.readData addr v)
  else if addr % 8 == 0 then (latch d (v / 2 ^ 32)).emit (.readData addr (v % 2 ^ 32))
  else
    let h := kvGet (2 ^ 32) d.rf.ctrHi k
    (latch d (2 ^ 32)).emit (.readData addr (if h == 2 ^ 32 then v / 2 ^ 32 else h))

/-- A read of a block register: the low half of a split register latches its high halves, a high half returns what was latched, and an RC field is
cleared by the read (R5, R57). -/
def Dev.blockRead (d : Dev) (p : Page) (addr : Nat) : Dev :=
  match d.splitAt addr with
  | some (lo, his) =>
    (d.each his (fun d h => { d with rf := { d.rf with split := kvSet 0 d.rf.split h.1 h.2 } })).emit (.readData addr lo)
  | none =>
    if d.splitHigh addr then d.emit (.readData addr (kvGet 0 d.rf.split addr))
    else
      let off := addrOff addr
      ((fieldsAt p off).filter (fun x => x.1.acc == .rc)).foldl (fun d x => d.put x.1 p 0 x.2) (d.emit (.readData addr (d.word p off)))

/-- A read through BAR0 (R75 to R79, R94). -/
def Dev.regRead (d : Dev) (addr size : Nat) : Dev :=
  let off := addrOff addr
  if addrDie addr == 7 then d.failRead addr 2
  else if addrDie addr == 0 && addrPage addr == 0x1FF then
    if !d.regionOn 0 then d.failRead addr 3
    else if !accessOk off size then d.failRead addr 4
    else d.emit (.readData addr (d.msixWord off size))
  else match pageAt (addrDie addr) (addrPage addr) with
    | none => d.failRead addr 1
    | some p =>
      if !p.poweredBy d.pwr.powered then d.failRead addr 3
      else if !accessOk off size then d.failRead addr 4
      else if 0x800 ≤ off then d.ctrRead addr size
      else if off < 0x040 then d.emit (.readData addr (d.commonWord p off))
      else d.blockRead p addr

/-- READ_CLEAR: a read of a register through BAR0 of a given size. An RC register returns its value and is cleared (R5); a failed read returns 0 (R79). -/
def execReadClear (a : BarRead) (s : State) : Answer := run s (fun d => d.regRead (a.addr % 2 ^ 24) a.size)

/-- LATCHING_READ: a read of the low half of a split register latches its high half (R57). -/
def execLatchingRead (addr : Nat) (s : State) : Answer := run s (fun d => d.regRead (addr % 2 ^ 24) 4)

/-- COUNTER_HALF_READ: a 4-byte read of a counter's low half latches its high half, and the next read of the high half
returns what was latched (R78). -/
def execCounterHalfRead (addr : Nat) (s : State) : Answer := run s (fun d => d.regRead (addr % 2 ^ 24) 4)

/-- BAR2_ACCESS: PG_ID and counters of pages that permit it are returned without side effects; everything else is denied and counted (R88). An access
that R79 names failed is recorded with BAR 1 as well. -/
def execBar2Access (write : Bool) (addr size : Nat) (s : State) : Answer :=
  run s (fun d =>
    let a := addr % barBytes
    let off := addrOff a
    let deny := fun (d : Dev) => (d.wSat F.HST.UREAD_DENY_CNT 1).when (!write) (fun d => d.emit (.readData a 0))
    if addrDie a == 7 then deny (if write then d else d.failAcc a 1 2)
    else match pageAt (addrDie a) (addrPage a) with
      | none => deny (d.failAcc a 1 1)
      | some p =>
        if !p.poweredBy d.pwr.powered then deny (d.failAcc a 1 3)
        else if !accessOk off size then deny (d.failAcc a 1 4)
        else if write || d.get (pgUread p.tag) p == 0 then deny d
        else if off == 0 then d.emit (.readData a p.id)
        else if off < 0x800 then deny d
        else
          let v := kvGet 0 d.rf.ctrs (p.base + off / 8 * 8)
          d.emit (.readData a (if size == 8 then v else if off % 8 == 0 then v % 2 ^ 32 else v / 2 ^ 32)))

end Sys2Proof.Machine
end

