-- ==== Sys2Proof/Machine/SoftReset.lean ====
section
/-! DEFINITION. The end of a block soft reset (R82): what each block drops as it reaches its reset state. -/

namespace Sys2Proof.Machine
open Sys2Proof

/-- A receive or transmit path on an Air die starts over: what the air MAC plans, holds and has learned is dropped. -/
def Dev.amcFresh (d : Dev) (air : Nat) : Dev :=
  (d.setAir air (fun a => { a with
    macIn := [], planned := [], handed := [], dl := [], calls := [], nbrs := [], leg := [], held := [], bcnRun := [], reqs := [], rephase := none, slew := 0, ackChain := [],
    planBlocked := false })).showNbr air

/-- Receptions of one cluster of channels are dropped. -/
def Dev.demFresh (d : Dev) (air q : Nat) : Dev :=
  (d.setAir air (fun a => { a with
    receps := a.receps.filter (fun (r : Recep) => r.channel / 32 != q), demWait := a.demWait.filter (fun c => c / 32 != q) })).showRx air |>.showUnit 2 air (34 * q)

/-- The maps, ladders and noise sets of an Air die return to their reset values (R199, R630). -/
def Dev.nseFresh (d : Dev) (air : Nat) : Dev :=
  (d.setAir air (fun a => { a with maps := [], ladders := [], chLad := [], noise := [], staleRun := [], staleNow := [] })).showMap air

/-- A Band die's state machine starts over as at power-up (Tables 6-2, 6-3). -/
def Dev.rsmFresh (d : Dev) (die : Nat) : Dev :=
  let d := d.each (List.range 4) (fun d c => d.cutAndDrop die c)
  let d := d.setBand die (fun b => { b with
    retries := [], autoTry := false, rxCal := 0, chains := b.chains.map (fun (k : TxChain) => { k with tuned := none, pend := none, cal := 0 }) })
  let d := d.each (List.range 4) (fun d c => d.txTo die c 0)
  (((d.bandTo die 0).bandPowerUp die).bandFollow die).showLock die

/-- Jobs of a region's engines are dropped with their reservations. -/
def Dev.cryFresh (d : Dev) (die r : Nat) : Dev :=
  (d.setRoute die (fun x => { x with jobs := x.jobs.filter (fun (j : Job) => j.region != r) })).showCry die |>.showUnit 1 die (5 * r)

/-- The sequencer drops the events that it has not numbered (Table 12-8); their buffers are released. -/
def Dev.ingFresh (d : Dev) (die : Nat) : Dev :=
  let bufs := (d.route die).air.map (fun a => a.buf) ++ (d.route die).wired.filterMap (fun w => match w with
    | .eth f => some f.buf
    | .fab _ _ _ b => some b
    | .can _ => none)
  let d := d.each bufs (fun d b => d.release die b)
  ((d.setRoute die (fun r => { r with air := [], wired := [], xfer := [], int := [], modeEv := [], visit := 4, left := 0, tenants := [] })).showLanes
    die).showTen die

/-- The twin page returns to OFF: possession is released, and umpire duty ends (Table 17-1). -/
def Dev.twnFresh (d : Dev) : Dev :=
  let d := { d with pins := { d.pins with possLow := false }, tw := {} }
  let d := d.each ([1, 2] : List Nat) (fun d die => d.setRoute die (fun r => { r with jrn := [], acked := 0 }))
  d.umpireRestart.rfswFollow

/-- What a block drops when its page has been soft reset. -/
def Dev.blockFresh (d : Dev) (p : Page) : Dev :=
  match p.tag with
  | .ETH =>
    let d := d.when (d.onWire p.inst).isSome (fun d => d.emit (.ethCut p.inst))
    let d := (d.setEth p.inst (fun _ => {})).showStep p.inst
    d.when (p.inst == 0) (fun d => { d with pins := { d.pins with phyRstLow := true } })
  | .CAN => (((d.setCan p.inst (fun _ => {})).showStb p.inst).showTxWin p.inst).heldCheck
  | .VXL => ((d.setVxl p.inst (fun _ => {})).showTwinLink).originate
  | .GWY => { d with gw := { d.gw with inq := [], pdus := [], units := [] } }
  | .HST => { d with hl := { d.hl with
      unsignalled := 0, visitLeft := 0
      inflight := d.hl.inflight.map (fun (c : Cmd) => if c.ring == 4 then c else { c with discard := true }) } }.showInflight
  | .CPT =>
    ({ d with hl := { d.hl with inflight := d.hl.inflight.filter (fun (c : Cmd) => c.ring != 4), mboxWait := none } }.w F.CPT.MBOX_STAT_BUSY 0).w F.CPT.MBOX_STAT_DONE 0
  | .HUD =>
    let on := d.hud.on
    { d with hud := {} }.when on (fun d => d.startHuddle)
  | .TWN => d.twnFresh
  | .FCL => d.errNFollow
  | .TIM => { d with time := { d.time with stepDue := false, stepNs := 0, stepSec := 0 }, pins := { d.pins with ppsOut := false } }
  | .ING => d.ingFresh p.die
  | .SCH => (d.setRoute p.die (fun r => { r with lupStage := [] })).showLup p.die
  | .CRY => d.cryFresh p.die p.inst
  | .AMC => d.amcFresh p.die
  | .NSE => d.nseFresh p.die
  | .DEC => d.showUnit 3 p.die (20 * p.inst)
  | .DEM | .SIC => d.demFresh p.die p.inst
  | .CHZ | .CMB => d.showChains (p.die + 2)
  | .TXB => d.bandPowerUp (p.die + 2)
  | .RXF => (d.setBand p.die (fun b => { b with dco := [], dcoOver := [], dcoSize := [], fine := [] })).showChains p.die
  | .RSM => d.rsmFresh p.die
  | .TXF => (d.cutAndDrop p.die p.inst).setChain p.die p.inst (fun k => { k with fir := [] })
  | .LIM => ((d.setBand p.die (fun b => { b with staged := [] })).showLim p.die).showLock p.die
  | .VLT | .SBD | .BTL | .UPD | .DRM | .FLS | .SNS | .BEN | .MNT | .FWD | .POL | .SRC | .CMP | .NTB | .PLY | .WUC | .SYN => d
  | .LAN => d.setRoute p.die (fun r => { r with lanes := r.lanes.filter (fun e => e.1 / 32 != p.inst) })

/-- SOFT_RESET_DONE: the block has reached its reset state and RST_BUSY clears (R82). -/
def execSoftResetDone (die page : Nat) (s : State) : Answer :=
  run s (fun d => (pageAt die page).elim d (fun p =>
    if d.get (pgRstBusy p.tag) p != 1 then d else (d.put (pgRstBusy p.tag) p 0).blockFresh p))

end Sys2Proof.Machine
end

