-- ==== Sys2Proof/Machine/Boot.lean ====
section
/-! DEFINITION. The twelve boot steps (R107 to R124), the choice of the bank (R559, R567 to R569), the restore of saved state (R572) and the entry into
a mode (R114). One command runs a whole boot, up to its mode or to the reset that ends it. -/

namespace Sys2Proof.Machine
open Sys2Proof

/-! ## The record being written (R116, R117) -/

/-- What the outside supplies to a step. -/
def stepOf (e : BootEnv) (n : Nat) : StepEnv := e.steps.getD (n - 1) {}

/-- A STEP word (Table 5-3). -/
def stepWord (outcome fails time detail : Nat) : Nat := outcome % 16 + 16 * (fails % 16) + 256 * (time % 65536) + 2 ^ 24 * (detail % 256)

/-- A step's FAILS in the current record. -/
def Dev.fails (d : Dev) (n : Nat) : Nat := d.g F.BTL.STEP_RES_FAILS 0 0 (n - 1)

/-- A step's outcome, time and detail go to the record, with the flags of the moment, and to STEP_RES. -/
def Dev.stepPut (d : Dev) (n outcome time detail : Nat) : Dev :=
  let d := ((d.w F.BTL.STEP_RES_OUTCOME outcome 0 0 (n - 1)).w F.BTL.STEP_RES_TIME time 0 0 (n - 1)).w F.BTL.STEP_RES_DETAIL detail 0 0 (n - 1)
  let w := stepWord outcome (d.fails n) time detail
  let flags := d.word ⟨.BTL, 0, 0⟩ 0x048
  { d with boot := d.boot.amend (fun (r : LedgerRec) => { r with steps := r.steps.set (n - 1) w, flags := flags }) }

/-- A step starts: BOOT_STAT.STEP names it and its outcome reads 0xE (R117). -/
def Dev.stepStart (d : Dev) (n : Nat) : Dev := (d.w F.BTL.BOOT_STAT_STEP n).stepPut n 0xE 0xFFFF 0xFF

/-- A boot flag is set. -/
def Dev.bootFlag (d : Dev) (f : Fld) : Dev := d.w f 1

/-- What cuts a step short resets the device: the watchdog, from step 4 on, WARM_RST_N, PORST_N or a monitor (R109, R117, Table 5-9). A step that
nothing cuts goes on. -/
def Dev.unlessCut (d : Dev) (e : StepEnv) (n : Nat) (next : Dev → Dev) : Dev :=
  match e.cut with
  | .none => next d
  | .hang => if 4 ≤ n then d.chipReset 5 else next d
  | .warm => d.chipReset 3
  | .porst => d.packageReset true 0 1 0
  | .monitor m => d.packageReset false (2 ^ m) 2 m

/-- A step from 4 on that Table 5-2 does not settle in place: what cuts it leaves its outcome 0xE (R117), a failure is recorded and resets with cause 8
(R112), success goes on with the step's work, unless that itself resets the device. -/
def Dev.runStep (d : Dev) (e : StepEnv) (n : Nat) (alt : Bool) (fail : Option Nat) (work next : Dev → Dev) : Dev :=
  (d.stepStart n).unlessCut e n (fun d =>
    match fail with
    | some detail => (d.stepPut n (if alt then 0xA else 0x8) e.ms detail).chipReset 8
    | none =>
      let d := work d
      if d.pwr.bootDue then d else next (d.stepPut n (if alt then 0x2 else 0x0) e.ms 0))

/-! ## Step 12 (R114, R125, R572, R574) -/

/-- Registers and counters of the saved state return; counters go on from their saved values (Table 5-7 step 3). -/
def RegFile.restore (r : RegFile) (regs ctrs : List (Nat × Nat)) : RegFile :=
  { r with
    regs := regs.foldl (fun l e => kvSet (2 ^ 65) l e.1 e.2) r.regs
    ctrs := ctrs.foldl (fun l e => kvSet 0 l e.1 (satAdd ctrCap (kvGet 0 l e.1) e.2)) r.ctrs }

/-- Whether saved state is restored: the restart was an activation, STATE_FMT, POPULATION and COLD_CFG are as they were, and power was kept (R572). -/
def Dev.mayRestore (d : Dev) (s : Saved) : Bool :=
  d.pwr.cause == 7 && d.pwr.dramUp && s.fmt == (d.imgBank d.runBank).stateFmt && s.population == d.boot.population && s.coldCfg == d.coldCfgs

/-- Saved state goes back into the Route dies; campaigns go on when their areas are where they were, else every record is EMPTY (R572). -/
def Dev.restoreState (d : Dev) (s : Saved) : Dev :=
  let rs := (d.routes.zip s.routes).map (fun (x : Route × Route) => { x.2 with tenants := x.1.tenants, modeEv := x.1.modeEv, lupStage := x.1.lupStage })
  let d := { d with
    rf := d.rf.restore s.regs s.ctrs
    routes := rs
    pop := s.pop
    cmp := if s.bases == d.campBases then { s.camps with images := d.cmp.images } else d.cmp }
  (d.each ([1, 2] : List Nat) (fun d die => (((d.showNodes die).showFwd die).showLup die).showSch die)).showCmp

/-- Restore or discard of the saved state (R572): a trial bank that starts without it starts with empty tables as well (Table 20-8). -/
def Dev.savedState (d : Dev) : Dev :=
  let drop := fun (d : Dev) (fmt : Nat) =>
    ((d.w F.UPD.STAT_STATE_DISCARDED 1).logRec 0x0B05 2 0 (toLE 2 fmt ++ toLE 2 (d.imgBank d.runBank).stateFmt)).raise E.UPD.STATE_DISCARDED
  let d := match d.upd.saved with
    | some s => if d.mayRestore s then d.restoreState s else drop d s.fmt
    | none => if (d.imgBank d.runBank).state == 1 then drop d 0 else d
  { d with upd := { d.upd with saved := none } }

/-- Whether a flag keeps boot from SERVICE and SHADOW (R114). -/
def Dev.blockedBoot (d : Dev) : Bool :=
  [F.BTL.BOOT_FLAGS_CFG_DEFAULT, F.BTL.BOOT_FLAGS_CFG_REFUSED, F.BTL.BOOT_FLAGS_NO_DRAM, F.BTL.BOOT_FLAGS_REGION_FAIL].any (fun f => d.on f)

/-- The mode that step 12 enters outside RECOVER (R114, R573): after an activation the mode held before. -/
def Dev.bootMode (d : Dev) (blobMode : Nat) : Nat :=
  if d.blockedBoot || blobMode == mBringup then mBringup
  else match d.upd.backMode with
    | some m => if m == mService || m == mShadow || m == mBringup then m else blobMode
    | none => blobMode

/-- The twin state at the end of step 12 (R478). -/
def Dev.twinStart (d : Dev) : Dev :=
  if !d.on F.TWN.CFG_EN then d
  else if d.mode == mShadow then d.twinTo 4
  else if d.mode == mService || d.mode == mBringup then d.twinTo 1
  else d

/-- A mode is first entered from an UNTRIED bank: TRIED is programmed and the trial starts (R557, R574). -/
def Dev.trialStart (d : Dev) : Dev :=
  let i := d.runBank
  if (d.imgBank i).state != 1 then d
  else
    let w := d.g F.UPD.CFG_WIN
    let d := d.setImgBank i (fun b => { b with tried := markTried })
    let d := ({ d with upd := { d.upd with trialEnd := d.time.lt + w * 1000000 * tickUs } }.w F.UPD.STAT_TRIAL 1).w F.UPD.WIN_LEFT_SEC w
    let d := d.fireVec 12
    d.logRec 0x0B02 1 0 (toLE 1 i ++ toLE 4 (d.imgBank i).setVer ++ toLE 2 w)

/-- The outputs as boot leaves them: links train, the flash and the DRAM are out of reset, and ETH0's PHY reset follows its bit (Table 2-9). -/
def Dev.bootPins (d : Dev) : Dev :=
  ({ d with pins := { d.pins with linksIdle := false, flRstLow := false, phyRstLow := d.on F.ETH.PHY_RST_ASSERT } }.emit (.linkTrain true))

/-- Step 12 ends: the mode is entered, its record completed and the restart logged (R114, R116, Table 19-4). -/
def Dev.bootEnd (d : Dev) (e : StepEnv) (m : Nat) : Dev :=
  (d.bootPins.stepStart 12).unlessCut e 12 (fun d =>
    let d := d.stepPut 12 0 e.ms 0
    let d := { d with boot := d.boot.amend (fun (r : LedgerRec) => { r with mode := m }) }
    let d := ((d.w F.BTL.BOOT_STAT_DONE 1).w F.UPD.STAT_RUN_BANK d.runBank).w F.UPD.STAT_REVERTED (b2n d.upd.gaveUp)
    let d := { d with
      upd := { d.upd with gaveUp := false, backMode := none }
      time := { d.time with ppsAllowed := true } }
    let d := d.logRec 0x0103 2 0 (toLE 1 d.pwr.cause ++ toLE 4 (d.word ⟨.FCL, 0, 0⟩ 0x0D0))
    let d := d.logRec 0x0101 1 0 (toLE 1 m ++ toLE 4 (d.word ⟨.BTL, 0, 0⟩ 0x048) ++ toLE 4 (d.word ⟨.BTL, 0, 0⟩ 0x044))
    let d := d.enterNow m
    let d := d.when (m != mRecover) (fun d =>
      let d := (d.w F.CPT.STAT_RUNNING 1).each ([3, 4] : List Nat) (fun d air => d.ledgerInit air)
      let d := d.twinStart.trialStart
      d.when (d.on F.BTL.BOOT_FLAGS_HUDDLE_DEFERRED) (fun d => (d.requestToken ⟨6, scopeOf 6 0, none, 0⟩).1))
    d.showLedger)

/-! ## RECOVER without steps 5 to 11 (R114) -/

/-- Tamper sources latched or still asserted act, in the order of latching (R294, Table 10-10). -/
def Dev.bootTamper (d : Dev) : Dev :=
  let l := d.vault.latched ++ (bitList 7 (d.g F.VLT.TAMPER_STAT_ASSERTED)).filter (fun i => !d.vault.latched.contains i)
  ({ d with vault := { d.vault with latched := [] } }).each (l.filter (fun i => d.on F.VLT.TAMPER_CFG_EN 0 0 i)) (fun d i => d.tamperAct i)

/-- Steps 5 to 11 are recorded as SKIPPED, with TIME and DETAIL 0, and step 12 enters RECOVER (R114; the values are a DESIGN CHOICE, log 18). -/
def Dev.toRecover (d : Dev) (e : StepEnv) : Dev :=
  ((d.each ([5, 6, 7, 8, 9, 10, 11] : List Nat) (fun d n => d.stepPut n 4 0 0)).bootTamper).bootEnd e mRecover

/-! ## Steps 8 to 11 -/

/-- Step 11: the huddle starts, or is deferred to a maintenance activity after step 12 (R466, Table 5-2). -/
def Dev.boot11 (d : Dev) (e : BootEnv) (blobMode : Nat) : Dev :=
  let alt := 2 ≤ d.fails 11
  let begin := fun (d : Dev) => if alt then d.bootFlag F.BTL.BOOT_FLAGS_HUDDLE_DEFERRED else d.startHuddle
  d.runStep (stepOf e 11) 11 alt (if !alt && !(stepOf e 11).pass then some (stepOf e 11).detail else none) begin (fun d =>
    let d := d.savedState
    d.bootEnd (stepOf e 12) (d.bootMode blobMode))

/-- Step 10: both Band dies are calibrated in full and the results stored, or the stored ones are loaded (R147). -/
def Dev.boot10 (d : Dev) (e : BootEnv) (blobMode : Nat) : Dev :=
  let alt := 2 ≤ d.fails 10
  let ok := (stepOf e 10).pass
  let live := fun (d : Dev) (die : Nat) => (List.range 4).filter (fun c => d.txState die c != 0)
  let work := fun (d : Dev) => d.each ([5, 6] : List Nat) (fun d die =>
    let d := d.when (d.regionOn (rxRegion die)) (fun d => if alt then d.rxStored die else d.rxBoot die e.cal)
    d.when (d.regionOn (txRegion die)) (fun d => d.each (live d die) (fun d c => if alt then d.txStored die c else d.txBoot die c e.cal)))
  let d := d.when alt (fun d => d.bootFlag F.BTL.BOOT_FLAGS_STORED_CAL)
  d.runStep (stepOf e 10) 10 alt (if ok then none else some (stepOf e 10).detail) work (fun d => d.boot11 e blobMode)

/-- One blob entry, as a BAR0 write; answers whether it was refused: a failed access or a refused commit (R124). -/
def Dev.blobWrite (d : Dev) (a v : Nat) : Dev × Bool :=
  let n := d.g F.HST.ACC_ERR_CNT_CNT
  let d' := d.regWrite a v 4
  let commit := addrOff a == 0x020 && bitOf v 0
  (d', d'.g F.HST.ACC_ERR_CNT_CNT != n ||
    (commit && (targets (addrDie a) (addrPage a)).any (fun p => d'.get (pgCommitRes p.tag) p == 2 && d'.get (pgCommitBusy p.tag) p == 0)))

/-- Whether an entry is applied at step 8: its page is a die-0 page, named with die 0 or 7 (R124). -/
def dieZero (a : Nat) : Bool := (addrDie a == 0 || addrDie a == 7) && (addrPage a == 0x1FF || (pageAt 0 (addrPage a)).isSome)

/-- Entries applied in order; the lowest index refused is recorded with CFG_REFUSED and FAIL 5 (R124). An entry that resets the chip ends the boot. -/
def Dev.applyEntries (d : Dev) (b : List Byte) (ks : List Nat) : Dev :=
  d.each ks (fun d k =>
    let w := d.blobWrite (blobEntry b k).1 (blobEntry b k).2
    if d.pwr.bootDue then d
    else if w.1.pwr.bootDue || !w.2 then w.1
    else
      let first := !w.1.on F.BTL.BOOT_FLAGS_CFG_REFUSED
      let d := (w.1.bootFlag F.BTL.BOOT_FLAGS_CFG_REFUSED).w F.BTL.CFG_STAT_FAIL 5
      if first || k < d.g F.BTL.CFG_STAT_ENTRY then d.w F.BTL.CFG_STAT_ENTRY k else d)

/-- The retirement list applied to the campaign engines: the engine of a retired unit does not run again, and with both retired no engine is left (R19, R523,
R596). -/
def Dev.engineRetired (d : Dev) : Dev :=
  if (d.unit 6 1 0).state == .active then d
  else if (d.unit 6 2 0).state == .active then { d with cmp := { d.cmp with engine := 2 } }.showCmp
  else d.engineLost

/-- Step 9's work: regions, the sources that step 2 found, held entries, and the radio's power-up (R124, R162). -/
def Dev.powerUp (d : Dev) (e : BootEnv) (b : List Byte) (mask : Nat) : Dev :=
  let d := { d with
    pwr := { d.pwr with powered := mask }
    boot := { d.boot with regionEn := mask } }
  let d := d.each (([5, 6] : List Nat).filter (fun die => d.regionOn (txRegion die))) (fun d die =>
    let d := (((d.showLock die).showBudget die).showDuty (die - 2)).when ((d.fuse die).state == 3) (fun d => d.raise E.LIM.LOCK_SPOILED die)
    d.when (bitOf e.parity (die - 5)) (fun d => d.raise E.LIM.FUSE_PARITY die))
  let d := d.applyEntries b ((List.range (blobCount b)).filter (fun k => !dieZero (blobEntry b k).1))
  if d.pwr.bootDue then d
  else
  let d := { d.addc C.MNT.ABANDONED d.mt.lost with mt := { d.mt with lost := 0 } }
  let d := d.engineRetired.showUnits.showDegraded.each ([1, 2] : List Nat) (fun d die => (d.showCry die).showNodes die)
  d.each ([5, 6] : List Nat) (fun d die => d.bandPowerUp die)

/-- Step 9: a region that fails resets the device in the normal form and stays unpowered in the other (Table 5-2). -/
def Dev.boot9 (d : Dev) (e : BootEnv) (b : List Byte) (regions blobMode : Nat) : Dev :=
  let alt := 2 ≤ d.fails 9
  let bad := 4 ≤ e.badRegion && bitOf regions e.badRegion
  let fail := !alt && (bad || !(stepOf e 9).pass)
  let mask := if bad then putBit regions e.badRegion false else regions
  let work := fun (d : Dev) => (d.when bad (fun d => d.bootFlag F.BTL.BOOT_FLAGS_REGION_FAIL)).powerUp e b mask
  d.runStep (stepOf e 9) 9 alt (if fail then some (stepOf e 9).detail else none) work (fun d => d.boot10 e blobMode)

/-- An empty blob: the factory defaults have no entries (R123). -/
def noEntries : List Byte := List.replicate 36 0#8

/-- Step 8: the blob is checked; a failed check applies the factory defaults; tamper acts, and the key blob is loaded (R123, R124, R287). -/
def Dev.boot8 (d : Dev) (e : BootEnv) : Dev :=
  let n := blobLen (d.blobFlash 32)
  let b := if 36 ≤ n && n ≤ 1048576 then d.blobFlash n else d.blobFlash 36
  let fail := blobFail b (d.imgBank d.runBank).schema
  let good := fail == 0
  (d.stepStart 8).unlessCut (stepOf e 8) 8 (fun d =>
    let d := if good then { d with boot := { d.boot with population := leAt b 17 1 } }
      else ((d.bootFlag F.BTL.BOOT_FLAGS_CFG_DEFAULT).w F.BTL.CFG_STAT_FAIL fail)
    let d := d.when good (fun d => d.applyEntries b ((List.range (blobCount b)).filter (fun k => dieZero (blobEntry b k).1)))
    let d := d.when (!d.pwr.bootDue) (fun d =>
      let d := d.bootTamper
      (if d.vaultHold then d.showBlobs else d.loadBlob.1.showBlobs).stepPut 8 (if good then 0 else 6) (stepOf e 8).ms 0)
    if d.pwr.bootDue then d
    else if good then d.boot9 e b (leAt b 20 4) (leAt b 16 1) else d.boot9 e noEntries allRegions mBringup)

/-! ## Steps 5 to 7 -/

/-- The copy into the DRAM boot area (R569). -/
def Dev.bootCopy (d : Dev) (ok : Bool) : Dev := if ok then d else (d.w F.UPD.STAT_NO_BOOTCOPY 1).raise E.UPD.NO_BOOTCOPY

/-- Without DRAM nothing that it held is left (R121, R572). -/
def Dev.noDram (d : Dev) : Dev :=
  { (d.bootFlag F.BTL.BOOT_FLAGS_NO_DRAM).bootCopy false with
    pwr := { d.pwr with dramUp := false, dramMiB := 0, dramSelfRefresh := false }
    cmp := {} }

/-- Step 7: the DRAM is trained at full or reduced rate; from FAILS 4 boot goes on without it (R121, Table 5-2). -/
def Dev.boot7 (d : Dev) (e : BootEnv) : Dev :=
  let alt := 2 ≤ d.fails 7
  if 4 ≤ d.fails 7 then (d.stepStart 7).unlessCut (stepOf e 7) 7 (fun d => (d.noDram.stepPut 7 0xA 0 0).boot8 e)
  else
    let ok := (stepOf e 7).pass && 2048 ≤ e.dramMiB
    let d := d.when alt (fun d => d.bootFlag F.BTL.BOOT_FLAGS_DRAM_ALT_RATE)
    d.runStep (stepOf e 7) 7 alt (if ok then none else some (stepOf e 7).detail) (fun d =>
      { d with
        pwr := { d.pwr with dramUp := true, dramMiB := e.dramMiB, dramSelfRefresh := false }
        pins := { d.pins with ddrRstLow := false } }.bootCopy e.copyOk) (fun d => d.boot8 e)

/-- VERSION of the first captain firmware part (Table 20-5, Table 19-7). -/
def ImgBank.fwVer (b : ImgBank) : Nat :=
  ((List.range b.parts).find? (fun i => (b.part i).type == 1)).elim 0 (fun i => b.field (64 + 64 * i + 12) 4)

/-- Step 6: the parts are copied; the set's versions show (R569). -/
def Dev.boot6 (d : Dev) (e : BootEnv) : Dev :=
  let x := stepOf e 6
  let b := d.imgBank d.runBank
  let d := d.when (!x.pass && x.cut == StepCut.none) (fun d => d.lastDetail 6 x.detail d.runBank)
  d.runStep x 6 (3 ≤ d.fails 6) (if x.pass then none else some x.detail) (fun d =>
    (d.w F.UPD.SET_VER_VER b.setVer).w F.CPT.FW_VER_VER b.fwVer) (fun d => d.boot7 e)

/-- Step 5: the chosen bank is verified; an UNTRIED bank that fails is given up at once with REASON 1 (R567). A trial bank runs in normal form. -/
def Dev.boot5 (d : Dev) (e : BootEnv) : Dev :=
  let x := stepOf e 5
  let i := d.runBank
  let b := d.imgBank i
  let alt := b.state != 1 && 2 ≤ d.fails 5
  let fail := if x.pass then d.verify b false else some x.detail
  let d := match fail with
    | some c => if x.cut != StepCut.none then d else (d.lastDetail 5 c i).when (b.state == 1) (fun d => d.giveUp i 1 5 c)
    | none => d
  d.runStep x 5 alt fail id (fun d => d.boot6 e)

/-! ## Step 4: ledger, forms and bank (R113, R115 to R118, R559) -/

/-- A step's FAILS in the new record, from the newest valid one (R113, R117, R118). -/
def nextFails (prev : Option LedgerRec) (clear : Bool) (n : Nat) : Nat :=
  match prev with
  | none => 0
  | some r =>
    let w := r.steps.getD (n - 1) 0xFFFFFFFF
    let o := w % 16
    let f := w / 16 % 16
    if clear || o == 0 then 0
    else if o == 0xE || o == 0x8 || o == 0xA || (n ≤ 3 && o == 2) then min 15 (f + 1)
    else f

/-- The outcome of a step in a record. -/
def LedgerRec.outcome (r : LedgerRec) (n : Nat) : Nat := r.steps.getD (n - 1) 0xFFFFFFFF % 16
/-- The DETAIL of a step in a record. -/
def LedgerRec.detail (r : LedgerRec) (n : Nat) : Nat := r.steps.getD (n - 1) 0xFFFFFFFF / 2 ^ 24

/-- The bank in a given state with the higher GEN. -/
def Dev.bankIn (d : Dev) (st : Nat) : Option Nat :=
  match (d.imgBank 0).state == st, (d.imgBank 1).state == st with
  | true, true => some (if (d.imgBank 0).gen < (d.imgBank 1).gen then 1 else 0)
  | true, false => some 0
  | false, true => some 1
  | false, false => none

/-- Banks given up at step 4: TRIED banks, an UNTRIED bank whose VERIFY was interrupted twice, and a bank whose COPY failed a third time (Table 20-3). -/
def Dev.giveUpBanks (d : Dev) (prev : Option LedgerRec) (f5 f6 : Nat) : Dev :=
  let d := d.each (([0, 1] : List Nat).filter (fun i => (d.imgBank i).state == 2)) (fun d i => d.giveUp i 4 4 0)
  match prev with
  | none => d
  | some r =>
    let st := (d.imgBank r.bank).state
    if 2 ≤ f5 && r.outcome 5 == 0xE && st == 1 then d.giveUp r.bank 2 5 0
    else if 3 ≤ f6 && (r.outcome 6 == 0xE || r.outcome 6 == 0x8 || r.outcome 6 == 0xA) && (st == 1 || st == 3) then
      d.giveUp r.bank 3 6 (if r.outcome 6 == 0xE then 0 else r.detail 6)
    else d

/-- The bank to boot (R559): none leads to RECOVER. Fallback to the other GOOD bank is taken at FAILS 2 and 3 of VERIFY. -/
def Dev.chooseBank (d : Dev) (f5 : Nat) : Option Nat × Bool :=
  match d.bankIn 1 with
  | some i => (some i, false)
  | none =>
    match d.bankIn 3 with
    | none => (none, false)
    | some i =>
      if 4 ≤ f5 then (none, false)
      else if 2 ≤ f5 && (d.imgBank (1 - i)).state == 3 then (some (1 - i), true)
      else (some i, false)

/-- The new record and what STEP_RES, BOOT_SEQ and BOOT_BANK show of it; `whole` is false where a loss of power cuts its header off, which leaves an invalid
record (R116). -/
def Dev.newRecord (d : Dev) (prev : Option LedgerRec) (bank : Nat) (early : List Nat) (fs : List Nat) (whole : Bool) : Dev :=
  let seq := prev.elim 1 (fun r => r.seq + 1)
  let words := (List.range 12).map (fun i => if i < 3 then early.getD i 0 + 16 * fs.getD i 0 else stepWord 0xF (fs.getD i 0) 0xFFFF 0xFF)
  let r : LedgerRec :=
    { seq := seq, cause := d.pwr.cause + 16 * d.pwr.causeMon, bank := bank, steps := words, flags := d.word ⟨.BTL, 0, 0⟩ 0x048, mode := 0xFF, valid := whole }
  let d := { d with boot := { d.boot.append r with clearDue := false } }
  let d := (d.w F.BTL.BOOT_SEQ_SEQ seq).w F.BTL.BOOT_BANK_BANK bank
  d.each (List.range 12) (fun d i =>
    let w := words.getD i 0
    let d := (d.w F.BTL.STEP_RES_OUTCOME w 0 0 i).w F.BTL.STEP_RES_FAILS (w / 16) 0 0 i
    (d.w F.BTL.STEP_RES_TIME (w / 256) 0 0 i).w F.BTL.STEP_RES_DETAIL (w / 2 ^ 24) 0 0 i)

/-- What the newest record says of a failed check or copy (Table 20-12). -/
def Dev.showDetail (d : Dev) (prev : Option LedgerRec) : Dev :=
  match prev with
  | none => d
  | some r =>
    let bad := fun n => r.outcome n == 0x8 || r.outcome n == 0xA
    if bad 6 then d.lastDetail 6 (r.detail 6) r.bank else if bad 5 then d.lastDetail 5 (r.detail 5) r.bank else d

/-- The new record is written and step 4 ends. Where power is lost before its header is whole, an invalid record is left, or, before the header, nothing but
an erased sector if the record was to begin one (R115, R116, Table 5-9). -/
def Dev.writeRecord (d : Dev) (e : BootEnv) (prev : Option LedgerRec) (bank : Nat) (early fs : List Nat) (next : Dev → Dev) : Dev :=
  let x := stepOf e 4
  let lost := match x.cut with
    | .porst | .monitor _ => e.ledgerCut
    | _ => 0
  if lost == 2 then { d with boot := d.boot.eraseNext }.unlessCut x 4 id
  else if lost == 1 then (d.newRecord prev bank early fs false).unlessCut x 4 id
  else (d.newRecord prev bank early fs true).runStep x 4 false none id next

/-- Step 4, then the rest of boot. A ledger with both sectors unreadable is erased and begun again, and the step's OUTCOME is then 0x0 (R113 names none:
DESIGN CHOICE, log 18). `early` holds the STEP words of steps 1 to 3 without FAILS. -/
def Dev.boot4 (d : Dev) (e : BootEnv) (early : List Nat) (noFuses : Bool) : Dev :=
  let d := (d.w F.BTL.BOOT_STAT_STEP 4).when (!e.ledgerOk) (fun d => { d with boot := { d.boot with sec0 := [], sec1 := [], cur := 0 } })
  let prev := d.boot.newest
  let d := d.when prev.isNone (fun d => d.bootFlag F.BTL.BOOT_FLAGS_LEDGER_NEW)
  let d := d.when d.pwr.recoverPin (fun d => d.bootFlag F.BTL.BOOT_FLAGS_RECOVER_PIN)
  let clear := d.boot.clearDue
  let fs := (List.range 12).map (fun i => nextFails prev clear (i + 1))
  let f5 := fs.getD 4 0
  let f6 := fs.getD 5 0
  let d := d.showBanks.showDetail prev
  if d.pwr.recoverPin || noFuses then
    d.writeRecord e prev (prev.elim 0 (fun r => r.bank)) early fs (fun d => d.toRecover (stepOf e 12))
  else
    let d := (d.giveUpBanks prev f5 f6).when (3 ≤ f6) (fun d => d.bootFlag F.BTL.BOOT_FLAGS_IMAGE_ABANDONED)
    let c := d.chooseBank f5
    let d := d.when c.2 (fun d => d.bootFlag F.BTL.BOOT_FLAGS_BANK_FALLBACK)
    d.writeRecord e prev (c.1.getD (prev.elim 0 (fun r => r.bank))) early fs (fun d =>
      if c.1.isSome then d.boot5 e else d.toRecover (stepOf e 12))

/-! ## Steps 1 to 3 (R112) -/

/-- A step retried once in place: none when both attempts fail, else its STEP word without FAILS. -/
def earlyStep (x : StepEnv) : Option Nat :=
  if x.pass then some (stepWord 0 0 x.ms 0) else if x.again then some (stepWord 2 0 x.ms 1) else none

/-- The package is held with ERR_N low and outputs in their Reset states (Table 5-2). -/
def Dev.holdBoot (d : Dev) : Dev := { d with pwr := { d.pwr with bootHeld := true } }.errNFollow

/-- A limit image as read: one with DONE that fails a check of R159 is SPOILED (R162). -/
def BandFuses.reread (f : BandFuses) (die : Nat) (read : List (Nat × Nat × Nat)) : BandFuses :=
  let ws := (read.filter (fun x => x.1 == die)).foldl (fun l x => kvSet 0 l (x.2.1 % 157) (x.2.2 % 2 ^ 32)) f.words
  { f with words := ws, state := if limWord ws 156 == 0x4C4F434B && (limRefused die ws).isSome then 3 else f.state }

/-- What step 2 reads: the device-unique key into the vault, the EUI-64, the countersignature fuse and the limit images, of which a locked one may be
SPOILED (R111, R162). BR_TAG resets to
the low half of the EUI-64 (Table 9-14). -/
def Dev.readFuses (d : Dev) (e : BootEnv) : Dev :=
  let d := { d with
    cpt := { d.cpt with eui64 := e.eui64 % 2 ^ 64, csigFuse := e.csigFuse }
    fuses := (d.fuses.zipIdx).map (fun (x : BandFuses × Nat) => x.1.reread (x.2 + 5) e.fuseRead) }
  let d := d.drawMask 0
  let d := { d with vault := { d.vault with uniqueKey := masked (d.vault.mask 0) (padTo 32 (e.uniqueKey.take 32)) } }
  let d := (d.w F.HUD.EUI_LO_E e.eui64).w F.HUD.EUI_HI_E (e.eui64 / 2 ^ 32)
  d.each ([3, 4] : List Nat) (fun d air => d.wBoth F.AMC.BR_TAG_TAG e.eui64 air)

/-- Step 3, then step 4: a second failure holds the package; the retry runs in the slower form (R119). -/
def Dev.boot3 (d : Dev) (e : BootEnv) (w1 w2 : Nat) (noFuses : Bool) : Dev :=
  (d.w F.BTL.BOOT_STAT_STEP 3).unlessCut (stepOf e 3) 3 (fun d =>
  match earlyStep (stepOf e 3) with
  | none => d.holdBoot
  | some w3 => (d.when (w3 % 16 == 2) (fun d => d.bootFlag F.BTL.BOOT_FLAGS_FLASH_SINGLE)).boot4 e [w1, w2, w3] noFuses)

/-- The boot from step 1. -/
def Dev.bootRun (d : Dev) (e : BootEnv) : Dev :=
  let d := { d with pwr := { d.pwr with bootDue := false } }
  let d := ((d.w F.BTL.RESET_CAUSE_CODE d.pwr.cause).w F.BTL.RESET_CAUSE_MON d.pwr.causeMon).w F.BTL.BOOT_STAT_STEP 1
  d.unlessCut (stepOf e 1) 1 (fun d =>
    match earlyStep (stepOf e 1) with
    | none => d.holdBoot
    | some w1 =>
      (d.errNFollow.w F.BTL.BOOT_STAT_STEP 2).unlessCut (stepOf e 2) 2 (fun d =>
        match earlyStep (stepOf e 2) with
        | none => d.boot3 e w1 (stepWord 8 0 (stepOf e 2).ms 1) true
        | some w2 => (d.readFuses e).boot3 e w1 w2 false))

/-- BOOT_START: 10 µs after a reset is released or taken hold, boot runs its steps, up to a mode, a hold or a further reset (R111). -/
def execBootStart (env : BootEnv) (s : State) : Answer := run s (fun d => if !d.pwr.bootDue || d.pwr.inReset then d else d.bootRun env)

end Sys2Proof.Machine
end

