-- ==== Sys2Proof/Machine/CampaignCmd.lean ====
section
/-! DEFINITION. The campaign commands (R584 to R587, R599, Table 21-4). -/

namespace Sys2Proof.Machine
open Sys2Proof

/-- The range check of a campaign command that needs an engine: cause 1 where none is left (R599), else its own. Commands that only read need none (R596). -/
def campRange (own : Dev → Cmd → Option Nat) (d : Dev) (c : Cmd) : Option Nat := if d.cmp.lost then some 1 else own d c

/-- The campaign number of a command. -/
def Cmd.cid (c : Cmd) : Nat := c.par 24 1

/-- The state of a campaign, 0 where it is EMPTY. -/
def Dev.campState (d : Dev) (cid : Nat) : Nat := (d.camp cid).elim 0 (fun c => c.state)

/-! ## Images (R585) -/

/-- Whether a running campaign names an image. -/
def Dev.imgBusy (d : Dev) (i : Nat) : Bool := d.cmp.list.any (fun c => c.image == i && c.runs)

/-- CMP_IMG_LOAD's range check: LENGTH, and an image that no running campaign names (R585, Table 21-3). -/
def imgLoadRange : Dev → Cmd → Option Nat := campRange (fun d c =>
  if 1048576 < c.len then some 3 else if d.imgBusy (c.par 24 1) then some 2 else none)

/-- CMP_IMG_LOAD: copies LENGTH octets into an image and hashes them; refused with cause 2 while a running campaign names the image, and with cause 3
for a LENGTH above 1,048,576. Without DRAM there is no store (R585). -/
def execCmpImgLoad (id : Nat) (dmaErr : Bool) (s : State) : Answer :=
  run s (fun d => d.runCmd 0x0B01 id dmaErr
    imgLoadRange
    (fun d c =>
      if !d.pwr.dramUp then (d, c.bad stDown)
      else
        let i := c.par 24 1
        let data := c.buf s.host c.len
        let img : NodeImg := { idx := i, data := data, hash := sha256 data }
        ({ d with cmp := { d.cmp with images := d.cmp.images.filter (fun (x : NodeImg) => x.idx != i) ++ [img] } }.showCmp, c.ok)))

/-- CMP_IMG_INFO: writes an image's size and SHA-256 (Table 21-4). -/
def execCmpImgInfo (id : Nat) (dmaErr : Bool) (s : State) : Answer :=
  runHost s (fun h d => d.runCmdH h 0x0B02 id dmaErr (lenIs 40) (fun _ d c =>
    let x := d.img (c.par 24 1)
    (d, c.ok, toLE 4 (x.elim 0 (fun x => x.data.length)) ++ toLE 4 0 ++ padTo 32 (x.elim [] (fun x => x.hash)))))

/-! ## Records (R586, R587) -/

/-- Whether a field of a record lies outside its range, or a field marked 0 is not 0. -/
def Camp.malformed (c : Camp) : Bool :=
  bitsOf (leAt c.body 0 2) 12 4 != 0 || bitOf c.flags 7 || c.rate == 3 || 3 ≤ c.micl || 0x1000 ≤ c.map || 512 ≤ c.channel || 0x1000 ≤ c.slot ||
    c.nslots == 0 || 64 < c.nslots || c.maxRounds == 0 || 32 < c.maxRounds || c.period ≤ c.phase || c.wait == 0 || c.share == 0 || 100 < c.share ||
    (c.body.drop 34).any (fun b => b != 0#8)

/-- Air time in ticks of the frame that carries BPF blocks. -/
def Dev.campTicks (d : Dev) (c : Camp) : Nat :=
  let air := bandAir c.band
  natTicks air 2 (17 + c.bpf * (6 + c.bsize) + micLen c.micl + 2) c.rate (mapCbps (d.mapWord air c.map))

/-- Whether a record is refused (R587). -/
def Dev.campRefused (d : Dev) (c : Camp) : Bool :=
  let air := bandAir c.band
  let j := c.channel % 32
  let q := c.channel / 32
  let slots := (List.range c.nslots).map (fun i => c.slot + i)
  (d.img c.image).isNone || c.malformed || !mapValid (d.mapWord air c.map) ||
    !d.on F.DEM.CH_CFG_EN air q j || d.chMode air c.channel != 0 || d.bcnChan air c.channel ||
    (gangOf (fun i => d.chMode air (32 * q + i)) j).length != 1 ||
    slots.any (fun s => s < d.bcnSlots air || d.contSlot air s || d.sfSlots air ≤ s) ||
    d.cmp.list.any (fun o => o.cid != c.cid && o.defined && o.band == c.band && o.channel == c.channel && slots.any (fun s => o.slot ≤ s && s < o.slot + o.nslots)) ||
    d.slotLen air < (d.g F.AMC.SLOT_TIME_DL_OFS air + 500) * tickUs + d.campTicks c

/-- CMP_SET's range check: LENGTH, the number, and a campaign that does not run (R586, Table 21-3). -/
def cmpSetRange : Dev → Cmd → Option Nat := campRange (fun d c =>
  if c.len != 64 || 32 ≤ c.cid || (2 ≤ d.campState c.cid && d.campState c.cid ≤ 5) then some 3 else none)

/-- CMP_SET: writes a campaign record, clears the members and puts the campaign in DEFINED, or completes with RANGE, cause 3 (R586, R587). -/
def execCmpSet (id : Nat) (dmaErr : Bool) (s : State) : Answer :=
  run s (fun d => d.runCmd 0x0B03 id dmaErr
    cmpSetRange
    (fun d c =>
      let x : Camp := { cid := c.cid, body := c.buf s.host 64 }
      if d.campRefused x then (d, c.bad stRange 3)
      else
        let x := { x with fcnt := x.fcntStart }
        ({ d with cmp := { d.cmp with list := d.cmp.list.filter (fun (o : Camp) => o.cid != c.cid) ++ [x] } }.showCmp, c.ok)))

/-! ## Members (Table 21-4) -/

/-- Members of all campaigns. -/
def Dev.campMembers (d : Dev) : Nat := d.cmp.list.foldl (fun n c => n + c.members.length) 0

/-- Add member records in order, up to the first that is refused: the device, how many were applied, and the cause that stopped them. -/
def addMembers (cid : Nat) : List (List Byte) → Dev → Nat → Dev × Nat × Nat
  | [], d, n => (d, n, 0)
  | r :: l, d, n =>
    let x : CampMember := { tag := leAt r 0 4, tenant := leAt r 4 2 }
    match d.camp cid with
    | none => (d, n, 4)
    | some c =>
      if 0x1000 ≤ x.tenant || leAt r 6 2 != 0 then (d, n, 3)
      else if c.members.any (fun m => m.tag == x.tag && m.tenant == x.tenant) then addMembers cid l d (n + 1)
      else if 65536 ≤ c.members.length || 262144 ≤ d.campMembers then (d, n, 5)
      else addMembers cid l (d.setCamp cid (fun c => { c with members := c.members ++ [x] })) (n + 1)

/-- CMP_MEMBERS's range check: LENGTH, COUNT, and a campaign in DEFINED (Table 21-3). -/
def cmpMembersRange : Dev → Cmd → Option Nat := campRange (fun d c =>
  if c.len != 8 * c.cnt || 4096 < c.cnt then some 3 else if d.campState c.cid != 1 then some 4 else none)

/-- CMP_MEMBERS: adds members to a DEFINED campaign; a refused record leaves the earlier ones applied, with their count in RESULT (R599). -/
def execCmpMembers (id : Nat) (dmaErr : Bool) (s : State) : Answer :=
  run s (fun d => d.runCmd 0x0B04 id dmaErr
    cmpMembersRange
    (fun d c =>
      let r := addMembers c.cid (c.recs s.host 8) d 0
      (r.1.showCmp, if r.2.2 == 0 then c.ok r.2.1 else c.bad stRange (r.2.2 + 65536 * r.2.1))))

/-! ## CMP_CTRL (Table 21-3) -/

/-- The range check of CMP_CTRL: OP, and a state that the operation starts from (Table 21-3). -/
def ctrlRange (from_ : Nat → Bool) : Dev → Cmd → Option Nat := campRange (fun d c =>
  if 4 < c.par 25 1 || !from_ (d.campState c.cid) then some 4 else none)

/-- A CMP_CTRL command of one OP: from an allowed state it acts, else cause 4. An OP above 4 has no row of its own and is cause 4 as well. -/
def Dev.campCtrl (d : Dev) (id op : Nat) (from_ : Nat → Bool) (go : Dev → Camp → Dev) : Dev :=
  if !(d.cmd id).any (fun c => c.par 25 1 == op || 4 < c.par 25 1) then d
  else d.runCmd 0x0B05 id false (ctrlRange from_) (fun d c =>
    match d.camp c.cid with
    | none => (d, c.bad stRange 4)
    | some x => ((go d x).showCmp, c.ok))

/-- CMP_START: DEFINED to ARMED, with CAMP_ANNOUNCE queued to every member (R595, R601). -/
def execCmpStart (id : Nat) (s : State) : Answer :=
  run s (fun d => d.campCtrl id 0 (fun st => st == 1) (fun d c =>
    let d := d.setCamp c.cid (fun c => { c with state := 2 })
    let d := d.logRec 0x0C01 1 d.cmp.engine (toLE 1 c.cid ++ toLE 2 c.tenant ++ toLE 1 c.image ++ toLE 2 (d.campBlocks c))
    d.announce c (fun _ => true)))

/-- CMP_PAUSE: from ARMED, SENDING or WAITING (R595). -/
def execCmpPause (id : Nat) (s : State) : Answer :=
  run s (fun d => d.campCtrl id 1 (fun st => 2 ≤ st && st ≤ 4) (fun d c => d.setCamp c.cid (fun c => { c with state := 5, resume := c.state })))

/-- CMP_RESUME: to the state that the pause left (R595). -/
def execCmpResume (id : Nat) (s : State) : Answer :=
  run s (fun d => d.campCtrl id 2 (fun st => st == 5) (fun d c => d.setCamp c.cid (fun c => { c with state := c.resume })))

/-- CMP_STOP: from ARMED, SENDING, WAITING or PAUSED (R595). -/
def execCmpStop (id : Nat) (s : State) : Answer :=
  run s (fun d => d.campCtrl id 3 (fun st => 2 ≤ st && st ≤ 5) (fun d c => d.setCamp c.cid (fun c => { c with state := 8 })))

/-- CMP_CLEAR: a finished campaign returns to EMPTY (R595). -/
def execCmpClear (id : Nat) (s : State) : Answer :=
  run s (fun d => d.campCtrl id 4 (fun st => 6 ≤ st) (fun d c =>
    { d with cmp := { d.cmp with list := d.cmp.list.filter (fun (o : Camp) => o.cid != c.cid) } }))

/-! ## Reading (Table 21-4) -/

/-- CMP_STATUS's range check (Table 21-3). -/
def cmpStatusRange (_ : Dev) (c : Cmd) : Option Nat := if c.len != 32 || 32 ≤ c.cid then some 3 else none

/-- CMP_STATUS: writes 32 octets of a campaign's status. -/
def execCmpStatus (id : Nat) (dmaErr : Bool) (s : State) : Answer :=
  runHost s (fun h d => d.runCmdH h 0x0B06 id dmaErr cmpStatusRange (fun _ d c =>
    let x := (d.camp c.cid).getD { cid := c.cid, body := [], state := 0 }
    let nb := if x.state == 0 then 0 else d.campBlocks x
    (d, c.ok, toLE 1 x.state ++ toLE 1 x.cause ++ toLE 1 x.round ++ toLE 1 0 ++ toLE 2 x.ptr ++ toLE 2 nb ++ toLE 4 x.fcnt ++
      toLE 4 x.members.length ++ toLE 4 x.finals ++ toLE 4 x.repair.length ++ toLE 4 x.frames ++ toLE 4 0)))

/-- A member record of 16 octets. -/
def CampMember.bytes (m : CampMember) : List Byte :=
  toLE 4 m.tag ++ toLE 2 m.tenant ++ toLE 1 m.state ++ toLE 1 m.round ++ toLE 4 m.sf ++ toLE 2 m.missing ++ toLE 2 0

/-- CMP_MEMBER_READ's range check (Table 21-3). -/
def cmpReadRange (_ : Dev) (c : Cmd) : Option Nat := if c.len != 16 * c.cnt || 32 ≤ c.cid then some 3 else none

/-- CMP_MEMBER_READ: writes COUNT member records from index FIRST; a record past the last member reads 0. -/
def execCmpMemberRead (id : Nat) (dmaErr : Bool) (s : State) : Answer :=
  runHost s (fun h d => d.runCmdH h 0x0B07 id dmaErr cmpReadRange (fun _ d c =>
    let l := (d.camp c.cid).elim [] (fun x => x.members)
    (d, c.ok, (List.range c.cnt).flatMap (fun i => (l[c.par 28 4 + i]?).elim (List.replicate 16 0#8) (fun m => m.bytes)))))

end Sys2Proof.Machine
end

