-- ==== Sys2Proof/Machine/Twin.lean ====
section
/-! DEFINITION. Twin operation: heartbeat, possession, the umpire, pair time, formation and the messages of the twin link (R478 to R507). -/

namespace Sys2Proof.Machine
open Sys2Proof

/-! ## Heartbeat (R483, Table 17-3) -/

/-- Whether a twin member takes part at all: EN is 1, boot has finished, and the device is not in DOZE. -/
def Dev.twinRuns (d : Dev) : Bool := d.on F.TWN.CFG_EN && d.booted && d.mode != mDoze

/-- Whether the member reports REPLACE: a reaction code 5 is latched, a Route die is halted, the journal is stalled, a handover has drained the
journal, or a PRIMARY's vault no longer matches its partner's (Tables 17-3 and 17-6, R504). -/
def Dev.mustReplace (d : Dev) : Bool :=
  d.on F.FCL.ERRN_LATCH || bitOf d.pwr.halted 1 || bitOf d.pwr.halted 2 || d.tw.stalled ||
    (d.tw.handover && (d.route 1).jrn.isEmpty && (d.route 2).jrn.isEmpty) || (d.twin == 2 && d.vaultHold)

/-- The heartbeat code (Table 17-3). -/
def Dev.hbCode (d : Dev) : Nat :=
  if d.mustReplace then 3
  else if d.on F.TWN.STAT_POSS_HELD then 0
  else if d.twin == 3 && d.on F.TWN.STAT_LINK_UP && d.g F.TWN.LAG_US ≤ 1000 * d.g F.TWN.JCFG_LAG_MAX then 1
  else 2

/-- HEARTBEAT_PULSE: UMP_HB rises and stays high for the width of the member's code (R483). -/
def execHeartbeatPulse (s : State) : Answer :=
  run s (fun d =>
    if !d.twinRuns then d
    else
      let c := d.hbCode
      (d.w F.TWN.STAT_HB_CODE c).emit (.umpPulse (200 + 200 * c)))

/-! ## Possession (R480, R481, R500, R502) -/

/-- UMP_GO_RISE: UMP_GO has been high for GO_FILT. A STANDBY that sends READY accepts the verdict: its intake of the journal closes and the takeover
begins; during a formation the verdict ends it; any other state ignores it (R500, Table 17-5 step 1, Table 17-6). -/
def execUmpGoRise (lost : Nat) (s : State) : Answer :=
  run s (fun d =>
    if !d.twinRuns || d.on F.TWN.STAT_GO then d
    else
      let d := d.w F.TWN.STAT_GO 1
      if d.twin == 3 && d.g F.TWN.STAT_HB_CODE == 1 && d.mode == mShadow then
        let d := (d.addc C.TWN.LOST_REC lost).twinTo 5
        { d with tw := { d.tw with step := 1 } }.startTrans mService 2
      else if d.twin == 6 && d.mode == mShadow then (d.leavePair 4).emit (.twinMsg 3 [])
      else d)

/-- POSSESSION_TAKE: with UMP_GO high for GO_FILT, POSS high for 50 µs and the mode permitting, the member drives POSS low; in a takeover this is step
2 of Table 17-5 (R480). After a conflict it waits until UMP_GO has been low (Table 17-6). -/
def execPossessionTake (s : State) : Answer :=
  run s (fun d =>
    let taking := d.twin == 5 && d.tw.step == 1
    let modeOk := (d.mode == mService || d.mode == mBringup) && (d.act == mService || d.act == mBringup)
    if !d.twinRuns || !d.on F.TWN.STAT_GO || d.tw.blocked || d.on F.TWN.STAT_POSS_HELD || !(taking || modeOk) then d
    else
      let d := { d with pins := { d.pins with possLow := true } }
      let d := (d.w F.TWN.STAT_POSS_HELD 1).w F.TWN.STAT_POSS_LINE 0
      if taking then { d with tw := { d.tw with step := 3 } } else (d.rfswFollow).originate)

/-- A member in SERVICE loses its possession for good: it enters SHADOW in DETACHED (R502). -/
def Dev.demote (d : Dev) : Dev := (((d.raise E.TWN.POSS_LOST).inc C.TWN.DEMOTIONS).leavePair 4).startTrans mShadow 2

/-- UMP_GO_FALL: UMP_GO has been low for GO_FILT: the holder releases POSS and the gated outputs, and a holder in SERVICE is demoted, as is the issuer
of a formation; a takeover that loses its verdict ends in DETACHED (R480, R502, Table 17-6). -/
def execUmpGoFall (s : State) : Answer :=
  run s (fun d =>
    if !d.twinRuns then d
    else
      let held := d.on F.TWN.STAT_POSS_HELD
      let d := { d.w F.TWN.STAT_GO 0 with tw := { d.tw with blocked := false } }.releasePoss
      if d.twin == 5 then (d.leavePair 4).w F.BTL.BOOT_STAT_TRANS 0
      else if (held && d.mode == mService) || (d.twin == 6 && d.mode != mShadow) then d.demote
      else d)

/-- POSS_LINE_HIGH: a holder reads POSS high for 10 µs: it releases the gated outputs, raises POSS_FAULT and so reports REPLACE; without possession
the register shows the line (R481). -/
def execPossLineHigh (s : State) : Answer :=
  run s (fun d =>
    let held := d.on F.TWN.STAT_POSS_HELD
    let d := d.w F.TWN.STAT_POSS_LINE 1
    if held then d.releasePoss.raise E.TWN.POSS_FAULT else d)

/-- TAKEOVER_POSS_TIMEOUT: POSS has not been released 20 ms after step 1 of Table 17-5: the takeover is abandoned (Table 17-6). -/
def execTakeoverPossTimeout (s : State) : Answer :=
  run s (fun d =>
    if d.twin != 5 || d.on F.TWN.STAT_POSS_HELD then d
    else ((d.leavePair 4).w F.BTL.BOOT_STAT_TRANS 0).raise E.TWN.TAKEOVER_FAIL)

/-! ## The messages of the twin link (R489, R493, R501, Table 17-6) -/

/-- JOURNAL_ACK_RX: an acknowledgement of one die's records reaches the PRIMARY: they leave its buffer, and what they hold back goes (R489, R490). -/
def execJournalAckRx (die seq lagUs : Nat) (s : State) : Answer :=
  run s (fun d =>
    if !isRoute die || d.twin != 2 then d
    else
      let d := d.setRoute die (fun r => { r with jrn := r.jrn.filter (fun x => seq ≤ x.seq), acked := max r.acked seq })
      (d.w F.TWN.LAG_US lagUs).freeVecs (fun x => x.1 == die && x.2.1 < seq))

/-- JOURNAL_RESEND: 20 µs after their last send the unacknowledged records of a die are sent again (R489). -/
def execJournalResend (die : Nat) (s : State) : Answer :=
  run s (fun d =>
    if !isRoute die || d.twin != 2 then d
    else d.each (d.route die).jrn (fun d r => (d.inc C.TWN.JRN_RESEND).emit (.jrnSend die r.seq)))

/-- Whether journal records of a die are outstanding. -/
def Dev.jrnOut (d : Dev) : Bool := !(d.route 1).jrn.isEmpty || !(d.route 2).jrn.isEmpty

/-- JOURNAL_STALL: no acknowledgement has advanced for JTIMEOUT ms while records are outstanding: the journal is stalled (R489). -/
def execJournalStall (s : State) : Answer :=
  run s (fun d => if d.twin == 2 && d.jrnOut then { d with tw := { d.tw with stalled := true } } else d)

/-- JOURNAL_STALL_BREAK: the stall has lasted 20 ms and the member still holds possession: it breaks the pair and enters SOLO (R489). -/
def execJournalStallBreak (s : State) : Answer :=
  run s (fun d =>
    if d.twin == 2 && d.tw.stalled && d.on F.TWN.STAT_POSS_HELD then ((d.leavePair 1).raise E.TWN.TWIN_BROKEN).emit (.twinMsg 3 []) else d)

/-- PAIR_TIME_MEASURE: a joining member sets PT_OFS to the measured offset (R493). -/
def execPairTimeMeasure (ofs : Nat) (s : State) : Answer :=
  run s (fun d =>
    if !d.twinRuns || d.mode != mShadow || !(d.twin == 3 || d.twin == 6) then d
    else ((d.w F.TWN.PT_OFS_LO_O (ofs % 2 ^ 32)).w F.TWN.PT_OFS_HI_O (ofs / 2 ^ 32 % 2 ^ 32)).emit (.twinMsg 4 []))

/-- The sub-bands of an Air die's band. -/
def Dev.airBands (d : Dev) (air : Nat) : List SubBand := subBands (d.fuse (air + 2)).words

/-- The key of a sub-band in a usage report. -/
def usageKey (air k : Nat) : Nat := 8 * (air - 3) + k

/-- The usage in µs of every sub-band of both Air dies. -/
def Dev.usage (d : Dev) : List (Nat × Nat) :=
  ([3, 4] : List Nat).flatMap (fun air => (d.airBands air).map (fun s => (usageKey air s.k, d.dutyUsed air s / tickUs)))

/-- DUTY_USAGE_REPORT: the holder reports the duty usage of its sub-bands, or the STANDBY notes the holder's report (R501). -/
def execDutyUsageReport (rx : Option (List (Nat × Nat))) (s : State) : Answer :=
  run s (fun d => match rx with
    | none => if d.twin == 2 then d.emit (.twinMsg 2 (d.usage.flatMap (fun u => toLE 1 u.1 ++ toLE 8 u.2))) else d
    | some l => if d.twin == 3 then { d with tw := { d.tw with duty := l, dutyAt := d.time.lt } } else d)

/-- LAG_ALARM: LAG has exceeded LAG_MAX for 10 ms (R491, R509). -/
def execLagAlarm (s : State) : Answer :=
  run s (fun d => if (d.twin == 2 || d.twin == 3) && 1000 * d.g F.TWN.JCFG_LAG_MAX < d.g F.TWN.LAG_US then d.raise E.TWN.LAG else d)

/-! ## Forming and leaving a pair (R498, R507, Table 17-6) -/

/-- The first BAR0 offset of Route-0 and the first after Route-1 (R75). -/
def routeLo : Nat := 0x200000
/-- See `routeLo`. -/
def routeHi : Nat := 0x600000

/-- The slow-path operations that wait on a Route die, in the lane or with their results. -/
def Route.slowOps (r : Route) : List SlowOp :=
  r.int.filterMap (fun e => match e with
    | .slow o _ _ => some o
    | _ => none) ++ r.slow

/-- A Route die as the copy carries it: input lanes empty and no journal; the internal events that its own tables raise again stay. -/
def Route.copied (r : Route) : Route :=
  { r with
    air := [], wired := [], modeEv := [], jobs := [], jrn := [], acked := 0, slow := r.slowOps, reload := [], lanes := []
    int := r.int.filter (fun e => match e with
      | .migrate _ _ | .ageCas _ _ _ _ | .ageFwd _ | .learn _ => true
      | _ => false)
    ports := r.ports.map (fun p => { p with taking := false }) }

/-- The copy that step 4 of R498 sends. Input lanes are each die's own: what waits in them is not copied, and its cells are not in use. -/
def Dev.takeCopy (d : Dev) : TwinCopy :=
  let e := d.each ([1, 2] : List Nat) (fun d die => d.each ((d.route die).air.map (fun a => a.buf) ++ (d.route die).wired.filterMap (fun w => match w with
    | .eth f => some f.buf
    | .fab _ _ _ b => some b
    | .can _ => none)) (fun d b => d.release die b))
  { routes := e.routes.map Route.copied
    gw := { d.gw with inq := [], pdus := [], units := [] }
    cmp := { d.cmp with images := [] }
    pop := d.pop
    regs := kvIn (32 * routeLo) (32 * routeHi) d.rf.regs
    live := kvIn (32 * routeLo) (32 * routeHi) d.rf.live
    staged := kvIn (32 * routeLo) (32 * routeHi) d.rf.staged
    ctrs := kvIn routeLo routeHi d.rf.ctrs }

/-- What the registers of a Route die show of its own lanes, jobs and buffers. -/
def Dev.showRoute (d : Dev) (die : Nat) : Dev := ((((d.showLanes die).showCry die).showBufs die).showNodes die).showFwd die

/-- The journal's place: LAST_SEQ shows the number of the last event applied (Table 17-8). -/
def Dev.showLastSeq (d : Dev) (die : Nat) : Dev :=
  let n := d.seqNow die
  (d.w F.TWN.LAST_SEQ_LO_S (n % 2 ^ 32) 0 0 (die - 1)).w F.TWN.LAST_SEQ_HI_S (n / 2 ^ 32) 0 0 (die - 1)

/-- The partner takes the copy in (R498 step 4). -/
def Dev.putCopy (d : Dev) (c : TwinCopy) : Dev :=
  let rf := { d.rf with
    regs := kvSplice (32 * routeLo) (32 * routeHi) d.rf.regs c.regs
    live := kvSplice (32 * routeLo) (32 * routeHi) d.rf.live c.live
    staged := kvSplice (32 * routeLo) (32 * routeHi) d.rf.staged c.staged
    ctrs := kvSplice routeLo routeHi d.rf.ctrs c.ctrs }
  let d := { d with
    rf := rf, routes := (c.routes.zip d.routes).map (fun (x : Route × Route) => { x.1 with lanes := x.2.lanes }), pop := c.pop, popQ := [], commits := d.commits.filter (fun x => !isRoute x.die)
    gw := { c.gw with units := d.gw.units }
    cmp := { c.cmp with images := d.cmp.images }
    tw := { d.tw with intake := [], minTime := 0, partnerMode := mService } }
  (d.each ([1, 2] : List Nat) (fun d die => (d.showRoute die).showLastSeq die)).showPop.showCmp.showUnits

/-- The formation succeeds: the copy goes to the partner, the issuer becomes PRIMARY and returns to SERVICE (R498 steps 4 and 5). -/
def Dev.formDone (d : Dev) : Dev :=
  let d := (d.emit (.twinCopy d.takeCopy)).each ([1, 2] : List Nat) (fun d die => d.setRoute die (fun r => { r with jrn := [], acked := r.seq }))
  let d := { d with tw := { d.tw with form := none, stalled := false, handover := false } }
  ((d.inc C.TWN.FORMS).twinTo 2).startTrans mService 1

/-- The issuer's formation is abandoned: it goes back to SERVICE in SOLO (Table 17-6). -/
def Dev.formFails (d : Dev) : Dev := (d.leavePair 1).startTrans mService 1

/-- The cause for which TWN_FORM cannot begin (R498 step 1): 1 the issuer's state, 2 the link, 3 the partner's state, 4 to 6 what both members
show together, 0 none. -/
def Dev.formCause (d : Dev) (cause : Nat) : Nat :=
  if d.twin != 1 || d.mode != mService || d.act != mService || !d.on F.TWN.STAT_POSS_HELD then 1
  else if !d.on F.TWN.STAT_LINK_UP then 2
  else if d.g F.TWN.STAT_PARTNER != 4 then 3
  else if 4 ≤ cause && cause ≤ 6 then cause else 0

/-- TWN_FORM, command 0x0701: its checks, then both members are in FORMING while the issuer enters QUIESCE; once there, the copy goes over and the
issuer becomes PRIMARY and returns to SERVICE (R498). `cause` 7 or 8 is a failure of pair time or of the copy. -/
def execTwnForm (id cause : Nat) (s : State) : Answer :=
  run s (fun d => d.runCmd 0x0701 id false noRange (fun d c =>
    if d.tw.form != some id then
      match d.formCause cause with
      | 0 => (({ d with tw := { d.tw with form := some id } }.twinTo 6).startTrans mQuiesce 1, c.later)
      | k => (d, c.bad stRange k)
    else if d.twin != 6 then ({ d with tw := { d.tw with form := none } }, c.bad stRange 1)
    else if d.mode != mQuiesce || d.on F.BTL.BOOT_STAT_TRANS then (d, c.later)
    else if cause == 7 || cause == 8 then ({ d.formFails with tw := { d.formFails.tw with form := none } }, c.bad stRange cause)
    else (d.formDone, c.ok)))

/-- TWN_BREAK, command 0x0702: leaves the pair, and the partner learns of it over the twin link: the member in SERVICE enters SOLO, the other
DETACHED (R507, Table 17-6). -/
def execTwnBreak (id : Nat) (s : State) : Answer :=
  run s (fun d => d.runCmd 0x0702 id false noRange (fun d c =>
    if d.twin == 2 then ((d.leavePair 1).emit (.twinMsg 3 []), c.ok)
    else if d.twin == 3 || d.twin == 4 then ((d.leavePair 4).emit (.twinMsg 3 []), c.ok)
    else (d, c.bad stRange 1)))

/-- TWN_HANDOVER, command 0x0703: the PRIMARY stops placing new events, and sends REPLACE once its journal is acknowledged in full (R504, R507). -/
def execTwnHandover (id : Nat) (s : State) : Answer :=
  run s (fun d => d.runCmd 0x0703 id false noRange (fun d c =>
    if d.twin != 2 then (d, c.bad stRange 1)
    else if d.g F.TWN.STAT_PARTNER != 3 || !d.on F.TWN.STAT_LINK_UP || 1000 * d.g F.TWN.JCFG_LAG_MAX < d.g F.TWN.LAG_US then (d, c.bad stRange 3)
    else ({ d with tw := { d.tw with handover := true } }, c.ok)))

/-- TWIN_PEER_NOTICE: a message over the twin link reports what the partner does, and the member reacts (Table 17-6, R498). -/
def execTwinPeerNotice (msg : PeerMsg) (s : State) : Answer :=
  run s (fun d =>
    if !d.twinRuns then d
    else match msg with
      | .holds =>
        if d.on F.TWN.STAT_POSS_HELD then { d.releasePoss with tw := { d.tw with blocked := true } }.raise E.TWN.POSS_CONFLICT else d
      | .broke =>
        if d.twin == 2 then d.leavePair 1
        else if d.twin == 6 && d.mode != mShadow then d.formFails
        else if d.twin == 3 || d.twin == 6 then d.leavePair 4
        else d
      | .state n => d.w F.TWN.STAT_PARTNER n
      | .forming => if d.twin == 4 && d.mode == mShadow then d.twinTo 6 else d
      | .formed c => if d.twin == 6 && d.mode == mShadow then (d.putCopy c).twinTo 3 else d)

/-! ## The end of a transition -/

/-- Twin states that a transition's end changes: a takeover ends in SOLO (Table 17-5 step 5); a member of a pair that enters BRINGUP is in SOLO, and
one that enters SHADOW in DETACHED (R478, R479). -/
def Dev.twinEntered (d : Dev) (dest : Nat) : Dev :=
  let st := d.twin
  if !d.on F.TWN.CFG_EN then d
  else if dest == mService && st == 5 then { (d.twinTo 1).inc C.TWN.TAKEOVERS with tw := { d.tw with step := 0, intake := [] } }
  else if dest == mBringup && (st == 2 || st == 3 || st == 4 || st == 6) then
    (d.leavePair 1).when (st == 2 || st == 3) (fun d => d.emit (.twinMsg 3 []))
  else if dest == mShadow && st != 4 then d.leavePair 4
  else d

/-- MODE_ENTERED: a transition completes: TRANS returns to 0 and the new mode's activity starts (R125). The entry into DOZE ends with its step 6, and
a takeover's only after its step 4 (Tables 5-7, 17-5). -/
def execModeEntered (s : State) : Answer :=
  run s (fun d =>
    let dest := d.g F.BTL.BOOT_STAT_TARGET
    if !d.booted || !d.on F.BTL.BOOT_STAT_TRANS || (dest == mDoze && !d.dozeEntering) || (d.twin == 5 && d.tw.step != 4) then d
    else d.completeTrans.twinEntered dest)

/-! ## Tamper in a pair -/

/-- TAMPER_FIRE: a source whose condition has held for FILTER µs fires, once per assertion, and acts at its level; with EN 0 it shows as
asserted only; during boot it is latched until its step (R292, R293, Table 10-10). At level 2 or 3 a STANDBY becomes DETACHED, since its vault no longer matches
(Table 17-6). -/
def execTamperFire (source : Nat) (s : State) : Answer :=
  run s (fun d =>
    if 7 ≤ source || bitOf (d.g F.VLT.TAMPER_STAT_ASSERTED) source || d.pwr.inReset then d
    else
      let d := d.wBit F.VLT.TAMPER_STAT_ASSERTED source true
      if !d.on F.VLT.TAMPER_CFG_EN 0 0 source then d
      else if !d.booted then { d with vault := { d.vault with latched := d.vault.latched ++ [source] } }
      else
        let d := d.tamperAct source
        if d.twin == 3 && 2 ≤ d.g F.VLT.TAMPER_CFG_LEVEL 0 0 source then (d.leavePair 4).emit (.twinMsg 3 []) else d)

/-! ## Umpire duty (R484 to R487, Table 17-4) -/

/-- Whether umpire duty is on (R487). -/
def Dev.umpireRuns (d : Dev) : Bool := d.on F.TWN.UMP_CFG_EN && d.booted && d.mode != mRecover && d.mode != mDoze

/-- What the umpire knows of a member. -/
def Dev.umpOf (d : Dev) (m : Nat) : UmpMember := d.tw.ump.getD m {}

/-- Change what the umpire knows of a member. -/
def Dev.setUmp (d : Dev) (m : Nat) (f : UmpMember → UmpMember) : Dev := { d with tw := { d.tw with ump := modAt d.tw.ump m f } }

/-- The member that has UMP_GO. -/
def Dev.goHolder (d : Dev) : Option Nat :=
  if d.on F.TWN.UMP_STAT_GO_A then some 0 else if d.on F.TWN.UMP_STAT_GO_B then some 1 else none

/-- Raise UMP_GO on one member and lower it on the other, in the register and on the pins. -/
def Dev.goTo (d : Dev) (m : Nat) : Dev :=
  let d := (d.w F.TWN.UMP_STAT_GO_A (b2n (m == 0))).w F.TWN.UMP_STAT_GO_B (b2n (m == 1))
  { d with pins := { d.pins with umpGoOut := 2 ^ m } }

/-- Show a member's last code. -/
def Dev.showCode (d : Dev) (m c : Nat) : Dev := if m == 0 then d.w F.TWN.UMP_STAT_CODE_A c else d.w F.TWN.UMP_STAT_CODE_B c

/-- Whether a member counts as not ready after its partner has left the pair (R486). -/
def Dev.umpBlocked (d : Dev) (m : Nat) : Bool := if m == 0 then d.on F.TWN.UMP_STAT_BLOCK_A else d.on F.TWN.UMP_STAT_BLOCK_B

/-- Set or clear a member's block. -/
def Dev.setBlock (d : Dev) (m : Nat) (b : Bool) : Dev :=
  if m == 0 then d.w F.TWN.UMP_STAT_BLOCK_A (b2n b) else d.w F.TWN.UMP_STAT_BLOCK_B (b2n b)

/-- The code of a pulse by the nearest width (R483, Table 17-3); a width half-way between two is the narrower one. -/
def pulseCode (us : Nat) : Nat := if us ≤ 300 then 0 else if us ≤ 500 then 1 else if us ≤ 700 then 2 else 3

/-- The first grant: to the member that PREF names when it sends heartbeats, otherwise to the other (R487). -/
def Dev.firstGrant (d : Dev) : Dev :=
  let p := d.g F.TWN.UMP_CFG_PREF
  let sends := fun m => !(d.umpOf m).codes.isEmpty && !(d.umpOf m).lost
  if d.goHolder.isSome then d
  else if sends p then d.goTo p
  else if (d.umpOf p).lost && sends (1 - p) then d.goTo (1 - p)
  else d

/-- Whether the holder's own signals allow a verdict (R484): its heartbeat is lost, three or more REPLACE pulses within 8 ms of the first, or its
ERR_N. -/
def Dev.holderFails (d : Dev) (h : Nat) (errN : Bool) : Bool :=
  (d.umpOf h).lost || (3 ≤ (d.umpOf h).replRun && d.time.lt ≤ (d.umpOf h).replAt + 8000 * tickUs) || errN

/-- The verdict for takeover, where R484 allows it: the holder's UMP_GO falls and the other member's rises. -/
def Dev.verdict (d : Dev) (errN : Bool) : Dev :=
  match d.goHolder with
  | none => d
  | some h =>
    let o := 1 - h
    if (d.umpOf o).codes != [1, 1, 1] || (d.umpOf o).lost || d.umpBlocked o || !d.holderFails h errN then d
    else
      let d := ((d.goTo o).inc C.TWN.VERDICTS).raise E.TWN.UMP_VERDICT
      { d with tw := { d.tw with leaving := some h } }

/-- UMPIRE_PULSE_RX: a member's pulse is classified; it may bring the first grant, a verdict, or a block of the other member (R484, R486, R487). -/
def execUmpirePulseRx (member widthUs : Nat) (s : State) : Answer :=
  run s (fun d =>
    if !d.umpireRuns || 1 < member then d
    else
      let c := pulseCode widthUs
      let was := d.umpOf member
      let left := d.goHolder == some member && 3 ≤ was.replRun && c == 0
      let d := (d.setUmp member (fun m => { m with
        codes := (c :: m.codes).take 3
        replRun := if c == 3 then m.replRun + 1 else 0
        replAt := if c == 3 && m.replRun == 0 then d.time.lt else m.replAt
        lost := false })).showCode member c
      let d := if d.umpBlocked member && c == 2 then d.setBlock member false else d
      let d := if left then d.setBlock (1 - member) true else d
      d.firstGrant.verdict false)

/-- UMPIRE_HB_LOST: 3 ms without a rising edge: the heartbeat is lost (R483, R484). -/
def execUmpireHbLost (member : Nat) (s : State) : Answer :=
  run s (fun d =>
    if !d.umpireRuns || 1 < member then d
    else (d.setUmp member (fun m => { m with lost := true, codes := [], replRun := 0 })).firstGrant.verdict false)

/-- UMPIRE_ERR_N_LOW: the holder's ERR_N has been low for 1 ms and is watched (R484). -/
def execUmpireErrNLow (member : Nat) (s : State) : Answer :=
  run s (fun d => if d.umpireRuns && d.on F.TWN.UMP_CFG_ERR_EN && d.goHolder == some member then d.verdict true else d)

/-- UMPIRE_RELEASE_TIMEOUT: the old holder has not released POSS within 1 ms: its PORST_N is held low (R485, Table 17-4). -/
def execUmpireReleaseTimeout (s : State) : Answer :=
  run s (fun d =>
    match d.tw.leaving with
    | none => d
    | some m =>
      if !d.umpireRuns then d
      else
        let d := { d with tw := { d.tw with leaving := none } }
        d.when (d.on F.TWN.UMP_CFG_RST_EN) (fun d => { d with pins := { d.pins with porstOut := putBit d.pins.porstOut m true } }))

/-- UMPIRE_RESET_RELEASE: after at least 10 ms the member's PORST_N is released, and it has to send heartbeats again (R485). -/
def execUmpireResetRelease (member : Nat) (s : State) : Answer :=
  run s (fun d =>
    if !bitOf d.pins.porstOut member then d
    else { d with pins := { d.pins with porstOut := putBit d.pins.porstOut member false } }.setUmp member (fun _ => { lost := true }))

end Sys2Proof.Machine
end

