-- ==== Sys2Proof/Machine/Journal.lean ====
section
/-! DEFINITION. The journal in a SHADOW: records are placed in sequence-number order and executed as the events they carry (R488 to R503). -/

namespace Sys2Proof.Machine
open Sys2Proof

/-! ## The device as a record finds it -/

/-- A register file with a range of BAR0 offsets taken from another. -/
def RegFile.keep (new old : RegFile) (lo hi : Nat) : RegFile :=
  { new with
    regs := kvSplice (32 * lo) (32 * hi) new.regs old.regs
    live := kvSplice (32 * lo) (32 * hi) new.live old.live
    staged := kvSplice (32 * lo) (32 * hi) new.staged old.staged
    ctrs := kvSplice lo hi new.ctrs old.ctrs }

/-- The BAR0 range of a page kind on the Anchor die. -/
def tagRange (t : Tag) : Nat × Nat := (0x1000 * (pageRow t).first, 0x1000 * ((pageRow t).first + (pageRow t).count))

/-- The registers that stay the SHADOW's own while a record runs: mode, host link, ports, controllers and links, and every Air and Band die. -/
def ownRanges : List (Nat × Nat) :=
  [tagRange .BTL, tagRange .HST, tagRange .ETH, tagRange .CAN, tagRange .VXL, tagRange .MNT, (0x600000, 0x1000000)]

/-- The device as a record's event runs on it: in the partner's mode, at the record's event time, with nothing else waiting (R488, R493). -/
def Dev.asPartner (d : Dev) (time : Nat) : Dev :=
  let lt := d.toLocal time
  let d := (d.w F.BTL.BOOT_STAT_MODE d.tw.partnerMode).w F.BTL.BOOT_STAT_TRANS 0
  let d := { d with
    commits := [], hl := {}, mt := { units := d.mt.units }, popQ := []
    time := { d.time with lt := lt }
    tw := { d.tw with minTime := 0, handover := false } }
  d.each ([1, 2] : List Nat) (fun d die => d.setRoute die (fun r => { r with air := [], wired := [], xfer := [], int := [], modeEv := [] }))

/-- Whether an internal event is one that a Route die's own tables raise; on a SHADOW it waits for its record, and after a takeover for its turn. -/
def IntEv.ofTable : IntEv → Bool
  | .migrate _ _ => true
  | .ageCas _ _ _ _ => true
  | .ageFwd _ => true
  | .learn _ => true
  | _ => false

/-- After a record: the event's effects on Route dies, gateway and campaigns stand, and everything else is as it was (R488, R497). -/
def Dev.backFrom (new old : Dev) : Dev :=
  let rf := ownRanges.foldl (fun r x => RegFile.keep r old.rf x.1 x.2) new.rf
  let d := { new with
    rf := rf, commits := old.commits, hl := old.hl, mt := old.mt, popQ := old.popQ, time := old.time, tw := old.tw, air := old.air, bands := old.bands
    eth := old.eth, can := old.can, vxl := old.vxl, ledgers := old.ledgers, pins := old.pins }
  d.each ([1, 2] : List Nat) (fun d die =>
    let o := old.route die
    d.setRoute die (fun r => { r with
      forced := none
      air := o.air, wired := o.wired, modeEv := o.modeEv, xfer := o.xfer ++ r.xfer, int := o.int ++ r.int.filter IntEv.ofTable }))

/-! ## One record's event -/

/-- A row run on the device alone. -/
def Dev.row (d : Dev) (host : List Host.Cell) (f : State → Answer) : Dev :=
  match f { pending := [], host := host, dev := d } with
  | .next s => s.dev
  | .fault _ => d
  | .refused _ => d

/-- Place a frame's cells; with no room the event waits for room. -/
def Dev.withCells (d : Dev) (die group len : Nat) (f : Dev → Nat → Dev) : Option Dev := (d.alloc die group len).map (fun r => f r.1 r.2)

/-- The rows of the journalled commands (R496, R503): opcode and meaning. -/
def hostRows (id : Nat) : List (Nat × (State → Answer)) :=
  [(0x0102, execNodeWrite id false), (0x0103, execNodeDelete id), (0x0104, execNodePin id), (0x0106, execTableRehash id), (0x0107, execFwdAdd id false),
   (0x0108, execFwdDelete id false), (0x0109, execFwdFlush id), (0x0201, execQueueSet id false), (0x0203, execQueueFlush id),
   (0x0204, execPolicerSet id false), (0x0401, execPlanSet id), (0x0402, execPlanClear id), (0x0404, execDesyncClear id), (0x0405, execLegRelease id),
   (0x0501, execGwRuleSet id false), (0x0503, execGwFreshSet id false), (0x0505, execGwInject id false), (0x0601, execFabSend id false),
   (0x0604, execClaimSet id false)] ++
  [(0x0B01, execCmpImgLoad id false), (0x0B03, execCmpSet id false), (0x0B04, execCmpMembers id false), (0x0B05, execCmpStart id),
   (0x0B05, execCmpPause id), (0x0B05, execCmpResume id), (0x0B05, execCmpStop id), (0x0B05, execCmpClear id)]

/-- The number that a journalled command has while its record runs: no command of this member's own ever has it. -/
def partnerCmd : Nat := 2 ^ 64

/-- A journalled command at its place in one die's order: its TARGET is cut to this die, and LAST_TAG and LAST_RING show it (R488, R503). -/
def Dev.hostRecord (d : Dev) (die ring : Nat) (bytes data : List Byte) : Dev :=
  let targ := leAt bytes 2 1
  let c : Cmd :=
    { id := partnerCmd, ring := ring, bytes := bytes.set 2 (BitVec.ofNat 8 (if targ < 4 then targ &&& 2 ^ (die - 1) else targ)), stage := .sequenced, toSeq := 0,
      seq := 0, discard := false, interim := false, cpl := ⟨0, 0, 0, 0⟩, alt := die == 2 }
  let d := (d.place die 2 3).w F.TWN.LAST_TAG_T c.tag 0 0 (die - 1)
  let d := d.w F.TWN.LAST_RING_R ring 0 0 (die - 1)
  let d := { d with hl := { inflight := [c] } }
  if c.early.isSome then d
  else d.each ((hostRows partnerCmd).filter (fun r => r.1 == c.op)) (fun d r => d.row (memWrite [] c.addr data) r.2)

/-- The gateway engine of a SHADOW handles what its events have given it (R488). -/
def Dev.gwDrain (d : Dev) : Dev :=
  let d := forN d.gw.pdus.length d (fun d _ => d.row [] execAcfPduRx)
  forN d.gw.inq.length d (fun d _ => d.row [] execGatewayEvent)

/-- The planner answers the requests of a frame that a record has brought, so that assignments stay as the partner's (R245, R488). -/
def Dev.planDrain (d : Dev) : Dev :=
  d.each ([3, 4] : List Nat) (fun d air => forN (d.airD air).reqs.length d (fun d _ => d.row [] (execSchedReq air)))

/-- Reports that a record has brought act on the campaign records (R594, R597). -/
def Dev.reportDrain (d : Dev) : Dev := forN d.cmpIn.length d (fun d _ => d.row [] execCampaignReport)

/-- An internal event's record (kinds 7 to 13). A creation's grant and a promotion's are counted as the partner counted them; a slow-path result
finds the operation that waits here; the packet of port 27 goes to the gateway engine. -/
def Dev.intRecord (d : Dev) (die : Nat) (e : IntEv) : Dev :=
  let put := fun (d : Dev) (e : IntEv) => d.setRoute die (fun r => { r with int := [e] })
  match e with
  | .pop _ granted => (put (if granted then { d with pop := d.pop + 1 } else d) e).row [] (execPopAnswer die {})
  | .slow o granted found =>
    let mine := ((d.route die).slow.find? (fun x => x.key == o.key)).getD o
    let d := d.setRoute die (fun r => { r with slow := r.slow.erase mine })
    (put (if granted then { d with pop := d.pop + 1 } else d) (.slow mine granted found)).row [] (execSlowResult die {})
  | .migrate _ _ => (put d e).row [] (execMigrate die)
  | .learn _ => (put d e).row [] (execLearn die)
  | .airOut _ => (put d e).row [] (execAirOutcome die)
  | .ageCas _ _ _ _ => (put d e).row [] (execAgeCas die)
  | .ageFwd _ => (put d e).row [] (execAgeCas die)
  | .egress port q =>
    let d := if port == 27 then { d with gw := { d.gw with pdus := (d.queue die q).pkts.take 1 } } else d
    (put d e).row [] (execEgressDone die)

/-- The event of a record on a device made ready for it; none while it has to wait for cells. -/
def Dev.bodyRecord (d : Dev) (die : Nat) (x : JRec) : Option Dev :=
  let dead := bitOf x.flags 1 || bitOf x.flags 2
  let lost := fun (d : Dev) (src : Nat) (play : Nat) => some ((d.place die src x.kind).aborted die play (if bitOf x.flags 2 then 1 else 2))
  match x.body with
  | .air a =>
    if dead then lost d 0 (if a.leg then 1 else 0)
    else if !d.cryFree die then none
    else d.withCells die 0 a.psdu.length (fun d b => (d.setRoute die (fun r => { r with air := [{ a with buf := b }] })).row [] (execAirFrame die {}))
  | .wired (.eth f) =>
    if dead then lost d 1 5
    else d.withCells die 1 f.data.length (fun d b => (d.setRoute die (fun r => { r with wired := [.eth { f with buf := b }] })).row [] (execWiredFrame die {}))
  | .wired (.fab l f t _) =>
    if dead then lost d 1 5
    else d.withCells die 1 f.length (fun d b => (d.setRoute die (fun r => { r with wired := [.fab l f t b] })).row [] (execWiredFrame die {}))
  | .wired (.can f) =>
    if dead then lost d 1 6
    else some ((d.setRoute 1 (fun r => { r with wired := [.can f] })).row [] execCanFrameEvent)
  | .xfer f =>
    if dead then lost d 3 f.play
    else some ((d.setRoute die (fun r => { r with xfer := [f] })).row [] (execXfer die {}))
  | .int (.slow o g f) =>
    if !dead then some (d.intRecord die (.slow o g f))
    else
      let mine := ((d.route die).slow.find? (fun y => y.key == o.key)).getD o
      (lost (d.setRoute die (fun r => { r with slow := r.slow.erase mine })) 4 o.play).map (fun d => d.slowDrop die mine false)
  | .int e => some (d.intRecord die e)
  | .host ring bytes data => some (d.hostRecord die ring bytes data)
  | .commit page snap =>
    let d := d.sequence die 4
    some ((pageAt die page).elim d (fun p => d.tryCommit p snap))
  | .timer kinds => some (d.row [] (execTimer die kinds))
  | .gate port take => some (d.row [] (if take then execLineupTakeover die port else execLineupGate die port))
  | .mode m =>
    some ((d.sequence die 14).regime die m)
  | .heldClear rule => some { d with gw := { d.gw with held := d.gw.held.filter (fun x => x != rule) } }
  | .dev want => some ((d.sequence die 3).writeDevs die want)
  | .sf air num =>
    let d := d.sequence die 5
    some (if die == d.cmp.engine && !d.cmp.lost then
      let d := d.campBoundary air num
      d.each (d.cmp.list.filter (fun c => c.state == 4 && c.waitLeft == 0 && c.band == air - 3)) (fun d c => d.waitEnd c)
    else d)
  | .camp cid flag =>
    let d := d.sequence die 5
    some ((d.camp cid).elim d (fun c => (d.campSlotWork c flag ((d.root c.tenant).elim 0 (fun k => (d.blockPsdu c k).length))).showCmp))

/-- What waits here for a record's event and is done by it: the transfer at the head of the lane, or the table event. -/
def Dev.consume (d : Dev) (die : Nat) (b : JBody) : Dev :=
  match b with
  | .xfer _ => d.setRoute die (fun r => { r with xfer := r.xfer.tail })
  | .int e => d.setRoute die (fun r => { r with int := r.int.erase e })
  | _ => d

/-- Whether a record's turn has come on its die: it carries the next number, or it is a clearing placed behind the last one (R488). -/
def Dev.isNext (d : Dev) (x : Nat × JRec) : Bool :=
  match x.2.body with
  | .heldClear _ => x.2.seq + 1 == (d.route x.1).seq
  | _ => x.2.seq == (d.route x.1).seq

/-- Execute one record: its event runs as it ran on the partner, under the number it carries and
with the outcomes it records (R338, R341, R488); while it has to wait, nothing changes. -/
def Dev.runRecord (d : Dev) (x : Nat × JRec) : Dev :=
  let die := x.1
  let old := d.consume die x.2.body
  let camp := match x.2.body with
    | .camp _ _ => true
    | _ => false
  let ready := (old.asPartner x.2.time).setRoute die (fun r => { r with forced := if camp then none else some x.2.flags })
  match (ready.bodyRecord die x.2).map (fun n => ((n.gwDrain).planDrain).reportDrain) with
  | none => d
  | some n =>
    let clear := match x.2.body with
      | .heldClear _ => true
      | _ => false
    let m := match x.2.body with
      | .mode m => m
      | _ => old.tw.partnerMode
    if !clear && (n.route die).seq == x.2.seq then d
    else
      let n := n.backFrom old
      { n with tw := { n.tw with
          intake := n.tw.intake.filter (fun y => y != x)
          minTime := max n.tw.minTime (x.2.time + 1)
          partnerMode := m } }.showLastSeq die

/-- Execute every record whose turn has come, as often as records wait. -/
def Dev.runJournal (d : Dev) : Dev :=
  forN d.tw.intake.length d (fun d _ => (d.tw.intake.find? (fun x => d.isNext x)).elim d (fun x => d.runRecord x))

/-- LAG: the age in pair time of the oldest record that has not been executed (R491). -/
def Dev.showLag (d : Dev) : Dev :=
  let now := (d.time.lt + d.ptOfs) % 2 ^ 64
  let ages := d.tw.intake.map (fun x => now - x.2.time)
  d.w F.TWN.LAG_US (min 0xFFFFFFFF (ages.foldl max 0 / tickUs))

/-! ## The journal's rows -/

/-- JOURNAL_RECORD_RX: a STANDBY places a record in sequence-number order and executes what has its turn; records it holds or has executed are ignored
(R488). The first records may come while the formation's copy is still under way, and after the verdict none is taken in (Table 17-5). -/
def execJournalRecordRx (die : Nat) (record : JRec) (s : State) : Answer :=
  run s (fun d =>
    let x := (die, record)
    if !isRoute die || !d.twinRuns || d.twin != 3 || d.tw.intake.contains x || (record.seq < (d.route die).seq && !d.isNext x) then d
    else { d with tw := { d.tw with intake := d.tw.intake ++ [x] } }.runJournal.showLag)

/-- JOURNAL_ACK_TIMER: the STANDBY acknowledges the highest record that it has received in full, in order, and goes on with records that waited (R489). -/
def execJournalAckTimer (s : State) : Answer :=
  run s (fun d =>
    if !d.twinRuns || d.twin != 3 then d
    else
      let d := d.runJournal.showLag
      let got := fun (d : Dev) (die : Nat) =>
        forN d.tw.intake.length (d.route die).seq (fun n _ => if d.tw.intake.any (fun x => x.1 == die && x.2.seq == n) then n + 1 else n)
      d.emit (.twinMsg 1 (toLE 8 (got d 1) ++ toLE 8 (got d 2) ++ toLE 4 (d.g F.TWN.LAG_US))))

/-! ## The end of a takeover (Table 17-5) -/

/-- Each sub-band's duty usage becomes the last usage reported plus 4 × Δt µs charged to the current bin (R501). How a reported usage lies over
the bins is not reported: all of it is put into the current bin. -/
def Dev.dutyTaken (d : Dev) : Dev :=
  let dt := (d.time.lt - d.tw.dutyAt) / tickUs
  d.each ([3, 4] : List Nat) (fun d air => d.each (d.airBands air) (fun d s =>
    let u := kvGet 0 d.tw.duty (usageKey air s.k) + 4 * dt
    let key := binKey s.k (d.binNow s)
    let d := { d with ledgers := modAt d.ledgers (air - 3) (fun l => { l with
      bins := kvSet 0 (l.bins.filter (fun e => !(binKey s.k 0 ≤ e.1 && e.1 < binKey (s.k + 1) 0))) key (u * tickUs) }) }
    d.w F.TXB.DUTY_USED_U (d.dutyUsed air s / tickUs) air 0 s.k))

/-- What does not pass to the new SERVICE starts fresh: neighbours, CAN error counters and transmit entries; creations that wait ask again (R501). -/
def Dev.takeoverFresh (d : Dev) : Dev :=
  let d := d.each ([3, 4] : List Nat) (fun d air => (d.setAir air (fun a => { a with nbrs := [], dl := [], calls := [], planBlocked := true })).showNbr air)
  let d := d.each (List.range 32) (fun d n => ((d.setCan n (fun c => { c with tx := [] })).showTxWin n).canCounts n 0 0)
  { d with popQ := ([1, 2] : List Nat).flatMap (fun die => (d.route die).creations.map (fun c => (die, c.key))) }

/-- The campaign engine goes on: the blocks of lost frames are sent again, and members that have not reported are announced to again (R597). -/
def Dev.takeoverCamps (d : Dev) : Dev :=
  let d := { d with cmp := { d.cmp with list := d.cmp.list.map (fun (c : Camp) => { c with flight := [] }) } }
  d.each (d.cmp.list.filter (fun c => 2 ≤ c.state && c.state ≤ 5)) (fun d c => d.announce c (fun m => !m.heard))

/-- TAKEOVER_BACKLOG_DONE: every received record is executed; those behind a gap are lost and counted. The new holder sets its duty ledgers, moves its
bands to RECEIVE, raises the RF switches, lets its CAN controllers and Ethernet ports send, and originates its LSA (R500, R501, Table 17-5 steps 3
and 4). -/
def execTakeoverBacklogDone (s : State) : Answer :=
  run s (fun d =>
    if d.twin != 5 || d.tw.step != 3 then d
    else
      let d := d.runJournal
      if d.tw.intake.any (fun x => d.isNext x) then d
      else
        let d := d.addc C.TWN.LOST_REC d.tw.intake.length
        let d := { d with tw := { d.tw with intake := [], step := 4 } }.showLag
        let d := (d.dutyTaken.takeoverFresh).takeoverCamps
        ((d.each ([5, 6] : List Nat) (fun d die => d.bandFollow die)).rfswFollow).originate)

end Sys2Proof.Machine
end

