-- ==== Sys2Proof/Machine/Faults.lean ====
section
/-! DEFINITION. The firing of an error source with the side action that its chapter names (R510, R511; Tables 6-14, 7-15, 8-8, 9-11, 10-13, 11-13,
12-12, 13-8, 14-5, 15-11, 16-9, 18-14, 20-13 and 21-7). -/

namespace Sys2Proof.Machine
open Sys2Proof

/-- An error in a node slot, a detail record or a cold record clears it (Tables 11-9 and 11-13). -/
def Dev.tableHit (d : Dev) (die kind pos : Nat) : Dev :=
  let r := d.route die
  match kind with
  | 0 => (r.nodes.find? (fun e => e.pos == pos)).elim d (fun e => (d.removeResident die e).showPlan)
  | 1 => ((d.setRoute die (fun r => { r with nodes := mapIf (fun e => e.pos == pos) (fun e => { e with det := {} }) r.nodes })).showNodes die).showPlan
  | _ => (r.cold.find? (fun e => e.pos == pos)).elim d (fun e =>
      ((d.setRoute die (fun r => { r with cold := r.cold.filter (fun x => x.pos != pos) })).when e.ovf (fun d => d.popBack)).showNodes die)

/-- An error in a queue's state: the queue is flushed, its tags and credit are 0 (Table 13-8). -/
def Dev.queueHit (d : Dev) (die n : Nat) : Dev :=
  if (d.route die).queues.any (fun q => q.num == n) then
    (d.flushQueue die n).setQueue die n (fun q => { q with headF := 0, fLast := 0, credit := 0 })
  else d

/-- An error in a CAN queue entry: a transmit entry becomes TX_ERROR; a received one is dropped and counted in RX_OVF (Table 15-11). -/
def Dev.canHit (d : Dev) (n kind i : Nat) : Dev :=
  let c := d.canC n
  match kind with
  | 0 => if c.tx.any (fun x => x.idx == i) then d.canState n i 5 else d
  | 1 => if i < c.rxq.length then ((d.setCan n (fun c => { c with rxq := c.rxq.eraseIdx i })).showCanRx n).inc C.CAN.RX_OVF 0 n else d
  | _ => if i < c.hp.length then ((d.setCan n (fun c => { c with hp := c.hp.eraseIdx i })).showCanRx n).inc C.CAN.RX_OVF 0 n else d

/-- An error in a duty ledger: it is set full for one window (Table 8-8). -/
def Dev.ledgerHit (d : Dev) (air k : Nat) : Dev :=
  match (d.airBands air).find? (fun s => s.k == k) with
  | none => d
  | some s =>
    let d := { d with ledgers := modAt d.ledgers (air - 3) (fun l => { l with
      bins := kvSet 0 (l.bins.filter (fun e => !(binKey s.k 0 ≤ e.1 && e.1 < binKey (s.k + 1) 0))) (binKey s.k (d.binNow s)) (dutyBudget s) }) }
    d.w F.TXB.DUTY_USED_U (d.dutyUsed air s / tickUs) air 0 s.k

/-- An error in a MAC FIFO drops the frame concerned: the one being sent (kind 0), or the one that waits for the line (Table 14-5). -/
def Dev.ethHit (d : Dev) (n kind : Nat) : Dev := if kind == 0 then d.ethAbort n else d.setEth n (fun e => { e with tx := none })

/-- A collector word is rebuilt from its inputs: bits whose input is down fall (Table 18-14). -/
def Dev.wordHit (d : Dev) (kind i : Nat) : Dev :=
  match kind with
  | 0 => d.clearRegion i 0xFFFFFFFF
  | 1 => d.clearDie i 0xFFFFFFFF
  | _ => d.clearPkg 0xFFFFFFFF

/-- A frame in reception is lost; a weaker frame that waits for it may go on without cancellation (R188, Table 7-15). -/
def Dev.recepLost (d : Dev) (air id : Nat) : Dev :=
  (d.recep air id).elim d (fun r => (d.strongOver air r false).dropRecep air id)

/-- A parity error in a counter shadow: the dump being written is not published, and SKIPPED counts it (Table 19-12). -/
def Dev.dumpLost (d : Dev) : Dev :=
  if !d.on F.SBD.STAT_BUSY then d
  else
    (({ d with sb := { d.sb with missed := d.sb.missed + 1, header := [], body := [] } }.w F.SBD.STAT_BUSY 0).when d.sb.renew (fun d => d.ringRenew)).inc
      C.SBD.SKIPPED

/-- The side action of a source: what the error hit, by page, source, kind and place. A source with no side action in its table has none here, and a
source that another row raises has its effect in that row. -/
def Dev.errorHits (d : Dev) (p : Page) (src kind place : Nat) : Dev :=
  let die := p.die
  match p.tag, src with
  | .DEM, 1 => d.recepLost die place
  | .SIC, 1 => d.recepLost die place
  | .DEC, 1 => d.recepLost die place
  | .NSE, 0 =>
    if kind == 0 then d.setAir die (fun a => { a with maps := kvSet 0 a.maps place 0 })
    else d.setAir die (fun a => { a with ladders := kvSet 0 a.ladders place 0 })
  | .TXB, 2 => d.ledgerHit die place
  | .AMC, 1 => d.setAir die (fun a => { a with planBlocked := true })
  | .VLT, 3 => { d with vault := { d.vault with keys := d.vault.keys.filter (fun k => k.place != place) } }.showVault
  | .PLY, 2 => d.setRoute die (fun r => { r with reload := p.inst :: r.reload })
  | .NTB, 1 => (d.inc C.NTB.ECC_UNCORR die p.inst).tableHit die 0 place
  | .NTB, 2 => d.tableHit die (1 + kind) place
  | .FWD, 1 => d.deleteFwd die (fun e => e.pos == place)
  | .SRC, 1 => (d.setRoute die (fun r => { r with
      nodes := mapIf (fun e => e.pos == place) (fun e => { e with rt := { e.rt with pvalid := false } }) r.nodes })).showNodes die
  | .SCH, 1 => d.queueHit die place
  | .SCH, 2 => (d.setLineup die place (fun l => { l with active := none, entry := 0, gates := 255 })).showLup die
  | .POL, 1 => d.setRoute die (fun r => { r with buckets := r.buckets.filter (fun b => b.1 != kind * 2 ^ 20 + place) })
  | .ETH, 3 => d.ethHit p.inst kind
  | .CAN, 8 => d.canHit p.inst kind place
  | .GWY, 1 =>
    let b := d.gw.rule place
    if ruleEn b then (d.setRule place (toLE 4 (leAt b 0 4 - 2 ^ 31) ++ b.drop 4)).showRules else d
  | .GWY, 4 => (d.w F.GWY.STAT_FRESH_LOST 1).raise E.GWY.FRESH_LOST
  | .HUD, 2 =>
    let l := d.hud.lsas.filter (fun r => r.eui != place)
    (({ d with hud := { d.hud with lsas := l } }.w F.HUD.STAT_DEVICES l.length).setSettled false).originate
  | .FCL, 1 => d.wordHit kind place
  | .UPD, 4 => (d.cmd place).elim d (fun c =>
      if 0x0A01 ≤ c.op && c.op ≤ 0x0A08 && c.stage != .finished then d.finish place (c.bad stRange 7) else d)
  | .SBD, 1 => d.dumpLost
  | .CMP, 1 => if (d.camp place).isSome then d.haltCamp place 2 else d
  | _, _ => d

/-- The bench unit type whose own memory a source of a page reports on (R520, Table 18-3): a channel unit's sample history, a decoder's survivor
memory, an engine's playbook memory, a table row. -/
def memUnit (p : Page) (src : Nat) : Option Nat :=
  match p.tag, src with
  | .DEM, 1 => some 2
  | .DEC, 1 => some 3
  | .PLY, 2 => some 0
  | .NTB, 1 | .FWD, 1 | .SRC, 1 => some 4
  | _, _ => none

/-- A unit in whose own memory an uncorrectable error occurred is failed (R520); an error in a row of a region's table banks is counted there. -/
def Dev.memHit (d : Dev) (p : Page) (src : Nat) (unit : Option Nat) : Dev :=
  match memUnit p src, unit with
  | some t, some i =>
    if !unitExists t p.die i || (t != 4 && unitPage t p.die i != p) || (p.tag == .NTB && unitPage t p.die i != p) then d
    else (d.when (t == 4 && p.tag != .NTB) (fun d => d.inc C.NTB.ECC_UNCORR p.die (i / 73728))).unitFailed t p.die i
  | _, _ => d

/-- ERROR_SOURCE_FIRE: an error source of a powered page sets its sticky bit and acts by its reaction code, and the side action that its chapter names
is taken (R510, R511). A bench unit in whose memory the error occurred is failed (R520). A source number that the page does not list never fires. -/
def execErrorSourceFire (die page src kind place : Nat) (unit : Option Nat) (s : State) : Answer :=
  run s (fun d => (pageAt die page).elim d (fun p =>
    if p.poweredBy d.pwr.powered && (srcAt p src).isSome then
      ((d.errorHits p src kind place).raiseAt p src).memHit p src unit
    else d))

/-- What a tick changes in the figures of a band: fuse programming goes on, retries and cut-offs leave their 10 s windows, and charges leave the duty
figures (R160, R218, Tables 6-11 and 8-7). -/
def Dev.bandTick (d : Dev) (die : Nat) : Dev :=
  let d := ((d.progTick die).retryTick die).cutTick die
  d.when (d.regionOn (txRegion die)) (fun d => d.showDuty (die - 2))

/-- What happens at a tick with no command: the time island counts (R57, R58), DOZE entry goes on (Table 5-7), the window of a trial shortens (R574), the figures of the bands follow the time, the captain
writes the DEV entries that have waited (R469), and finishes the rebuild of a planner's load map (R263) and the reload of a cluster's playbooks (R366). -/
def Dev.idle (d : Dev) : Dev :=
  let d := { d with routes := d.routes.map (fun (r : Route) => { r with reload := [] }) }
  let d := ((d.tick.dozeTick.trialTick.bandTick 5).bandTick 6).devEvents
  (d.each ([3, 4] : List Nat) (fun d air => if (d.airD air).planBlocked then d.setAir air (fun a => { a with planBlocked := false }) else d)).settle

end Sys2Proof.Machine
end

