-- ==== Sys2Proof/Machine/Dispatch.lean ====
section
/-! DEFINITION. The effect of every command on everything but the queue: one arm for each constructor. -/

namespace Sys2Proof.Machine
open Sys2Proof

def exec (i : Instr) (s : State) : Host.Outcome State Fault Refusal :=
  match i with
  | .porstNAssert => Sys2Proof.Machine.execPorstNAssert s
  | .porstNRelease recover => Sys2Proof.Machine.execPorstNRelease recover s
  | .supplyMonitorTrip trip => Sys2Proof.Machine.execSupplyMonitorTrip trip s
  | .supplyMonitorReturn mon => Sys2Proof.Machine.execSupplyMonitorReturn mon s
  | .warmRstN => Sys2Proof.Machine.execWarmRstN s
  | .bootStart env => Sys2Proof.Machine.execBootStart env s
  | .captainWatchdog => Sys2Proof.Machine.execCaptainWatchdog s
  | .resetReq code => Sys2Proof.Machine.execResetReq code s
  | .ledgerClr data => Sys2Proof.Machine.execLedgerClr data s
  | .hostLinkReset perst => Sys2Proof.Machine.execHostLinkReset perst s
  | .tapReset => Sys2Proof.Machine.execTapReset s
  | .tamperFire source => Sys2Proof.Machine.execTamperFire source s
  | .tamperRearm source => Sys2Proof.Machine.execTamperRearm source s
  | .tamperEraseDone => Sys2Proof.Machine.execTamperEraseDone s
  | .paceInterval readings blocks => Sys2Proof.Machine.execPaceInterval readings blocks s
  | .avlPeriod => Sys2Proof.Machine.execAvlPeriod s
  | .vcoreCommandDone => Sys2Proof.Machine.execVcoreCommandDone s
  | .pmbusNoAck => Sys2Proof.Machine.execPmbusNoAck s
  | .pmbAlert statusWord => Sys2Proof.Machine.execPmbAlert statusWord s
  | .pmbAlertRelease => Sys2Proof.Machine.execPmbAlertRelease s
  | .sensorPublish temps mv => Sys2Proof.Machine.execSensorPublish temps mv s
  | .latchingRead addr => Sys2Proof.Machine.execLatchingRead addr s
  | .counterHalfRead addr => Sys2Proof.Machine.execCounterHalfRead addr s
  | .ptpStep => Sys2Proof.Machine.execPtpStep s
  | .ppsInEdge => Sys2Proof.Machine.execPpsInEdge s
  | .discLock => Sys2Proof.Machine.execDiscLock s
  | .discHoldover => Sys2Proof.Machine.execDiscHoldover s
  | .ppsOutPulse => Sys2Proof.Machine.execPpsOutPulse s
  | .ppsOutEnd => Sys2Proof.Machine.execPpsOutEnd s
  | .registerWrite addr data size => Sys2Proof.Machine.execRegisterWrite addr data size s
  | .readClear a => Sys2Proof.Machine.execReadClear a s
  | .bar2Access write addr size => Sys2Proof.Machine.execBar2Access write addr size s
  | .blockSoftReset die page => Sys2Proof.Machine.execBlockSoftReset die page s
  | .softResetDone die page => Sys2Proof.Machine.execSoftResetDone die page s
  | .pgCommit die page => Sys2Proof.Machine.execPgCommit die page s
  | .pageLock die page => Sys2Proof.Machine.execPageLock die page s
  | .stickyClear die page bits => Sys2Proof.Machine.execStickyClear die page bits s
  | .errorForce die page bits => Sys2Proof.Machine.execErrorForce die page bits s
  | .reactCodeWrite die page hi data => Sys2Proof.Machine.execReactCodeWrite die page hi data s
  | .doorbell ring idx => Sys2Proof.Machine.execDoorbell ring idx s
  | .ringResume ring => Sys2Proof.Machine.execRingResume ring s
  | .cqHeadWrite cnt => Sys2Proof.Machine.execCqHeadWrite cnt s
  | .commandFetch ring readErr => Sys2Proof.Machine.execCommandFetch ring readErr s
  | .completionWrite id writeErr => Sys2Proof.Machine.execCompletionWrite id writeErr s
  | .cqIrqTime => Sys2Proof.Machine.execCqIrqTime s
  | .cqStallTimeout => Sys2Proof.Machine.execCqStallTimeout s
  | .nop id => Sys2Proof.Machine.execNop id s
  | .modeReqService => Sys2Proof.Machine.execModeReqService s
  | .modeReqBringup => Sys2Proof.Machine.execModeReqBringup s
  | .modeReqQuiesce => Sys2Proof.Machine.execModeReqQuiesce s
  | .modeReqDoze => Sys2Proof.Machine.execModeReqDoze s
  | .modeEntered => Sys2Proof.Machine.execModeEntered s
  | .quiesceMaxExpiry => Sys2Proof.Machine.execQuiesceMaxExpiry s
  | .dozeWake src cal => Sys2Proof.Machine.execDozeWake src cal s
  | .dozeTimerExpiry cal => Sys2Proof.Machine.execDozeTimerExpiry cal s
  | .wakeNRelease => Sys2Proof.Machine.execWakeNRelease s
  | .bandLoLocked die => Sys2Proof.Machine.execBandLoLocked die s
  | .bandLoLockLost die => Sys2Proof.Machine.execBandLoLockLost die s
  | .bandFaultRetry die => Sys2Proof.Machine.execBandFaultRetry die s
  | .rsmResumeBand die => Sys2Proof.Machine.execRsmResumeBand die s
  | .bandReqStandby die => Sys2Proof.Machine.execBandReqStandby die s
  | .bandReqReceive die => Sys2Proof.Machine.execBandReqReceive die s
  | .bandReqHold die => Sys2Proof.Machine.execBandReqHold die s
  | .txTuneRequest die chain channel gang => Sys2Proof.Machine.execTxTuneRequest die chain channel gang s
  | .txSynthLocked die chain => Sys2Proof.Machine.execTxSynthLocked die chain s
  | .txSynthLockLost die chain => Sys2Proof.Machine.execTxSynthLockLost die chain s
  | .txStart die chain => Sys2Proof.Machine.execTxStart die chain s
  | .txFrameEnd die chain => Sys2Proof.Machine.execTxFrameEnd die chain s
  | .txUnderrun die chain => Sys2Proof.Machine.execTxUnderrun die chain s
  | .maskCut die chain windows => Sys2Proof.Machine.execMaskCut die chain windows s
  | .rsmResumeTx die chains => Sys2Proof.Machine.execRsmResumeTx die chains s
  | .calReqRx die => Sys2Proof.Machine.execCalReqRx die s
  | .calReqTx die chains => Sys2Proof.Machine.execCalReqTx die chains s
  | .calTempTrigger die tx => Sys2Proof.Machine.execCalTempTrigger die tx s
  | .calDeferExpiry die => Sys2Proof.Machine.execCalDeferExpiry die s
  | .rxCalDone die relocked failed codes => Sys2Proof.Machine.execRxCalDone die relocked failed codes s
  | .txCalDone die chain ok => Sys2Proof.Machine.execTxCalDone die chain ok s
  | .agcPeriod die chain level => Sys2Proof.Machine.execAgcPeriod die chain level s
  | .agcClip die chain count => Sys2Proof.Machine.execAgcClip die chain count s
  | .dcoCoarsePeriod die chain samplesI samplesQ => Sys2Proof.Machine.execDcoCoarsePeriod die chain samplesI samplesQ s
  | .converterStuck die chain => Sys2Proof.Machine.execConverterStuck die chain s
  | .lockDataWrite die word => Sys2Proof.Machine.execLockDataWrite die word s
  | .lockGo die code => Sys2Proof.Machine.execLockGo die code s
  | .lockProgramDone die badWord => Sys2Proof.Machine.execLockProgramDone die badWord s
  | .lockVfuseLoss die words => Sys2Proof.Machine.execLockVfuseLoss die words s
  | .sampleFifoOverflow die chain => Sys2Proof.Machine.execSampleFifoOverflow die chain s
  | .preambleAccept die channel p1 snr chSnr cfo ago => Sys2Proof.Machine.execPreambleAccept die channel p1 snr chSnr cfo ago s
  | .sigDecode die id sig => Sys2Proof.Machine.execSigDecode die id sig s
  | .frameDecoded die id env => Sys2Proof.Machine.execFrameDecoded die id env s
  | .frameDelivery die => Sys2Proof.Machine.execFrameDelivery die s
  | .sicRecovery die id bits power resid => Sys2Proof.Machine.execSicRecovery die id bits power resid s
  | .noisePublish die obs => Sys2Proof.Machine.execNoisePublish die obs s
  | .demCommitLive die channel => Sys2Proof.Machine.execDemCommitLive die channel s
  | .txDescriptor die sel => Sys2Proof.Machine.execTxDescriptor die sel s
  | .superframeBoundary die => Sys2Proof.Machine.execSuperframeBoundary die s
  | .slotStart die => Sys2Proof.Machine.execSlotStart die s
  | .airMacRx die => Sys2Proof.Machine.execAirMacRx die s
  | .listenSlotDownlink die id => Sys2Proof.Machine.execListenSlotDownlink die id s
  | .nodeAckMissing die id => Sys2Proof.Machine.execNodeAckMissing die id s
  | .schedReq die => Sys2Proof.Machine.execSchedReq die s
  | .wakeCallSchedule die tag tenant => Sys2Proof.Machine.execWakeCallSchedule die tag tenant s
  | .wakeCallNoAnswer die tag tenant => Sys2Proof.Machine.execWakeCallNoAnswer die tag tenant s
  | .legAssocRequest die => Sys2Proof.Machine.execLegAssocRequest die s
  | .legDataRequest die => Sys2Proof.Machine.execLegDataRequest die s
  | .legDisassocNotify die => Sys2Proof.Machine.execLegDisassocNotify die s
  | .legBeaconRequest die => Sys2Proof.Machine.execLegBeaconRequest die s
  | .legPersistExpiry die id => Sys2Proof.Machine.execLegPersistExpiry die id s
  | .neighbourBeacon die => Sys2Proof.Machine.execNeighbourBeacon die s
  | .neighbourLost die tag => Sys2Proof.Machine.execNeighbourLost die tag s
  | .neighbourHoldoffExpiry die tag => Sys2Proof.Machine.execNeighbourHoldoffExpiry die tag s
  | .planSet id => Sys2Proof.Machine.execPlanSet id s
  | .planClear id => Sys2Proof.Machine.execPlanClear id s
  | .planGet id dmaErr => Sys2Proof.Machine.execPlanGet id dmaErr s
  | .desyncClear id => Sys2Proof.Machine.execDesyncClear id s
  | .legRelease id => Sys2Proof.Machine.execLegRelease id s
  | .keyImport id dmaErr stopAt => Sys2Proof.Machine.execKeyImport id dmaErr stopAt s
  | .keyErase id => Sys2Proof.Machine.execKeyErase id s
  | .keyKcv id dmaErr => Sys2Proof.Machine.execKeyKcv id dmaErr s
  | .keyPersist id fate => Sys2Proof.Machine.execKeyPersist id fate s
  | .vaultReload id => Sys2Proof.Machine.execVaultReload id s
  | .tamperAck id => Sys2Proof.Machine.execTamperAck id s
  | .remaskStart => Sys2Proof.Machine.execRemaskStart s
  | .remaskDone => Sys2Proof.Machine.execRemaskDone s
  | .airFrame die env => Sys2Proof.Machine.execAirFrame die env s
  | .wiredFrame die env => Sys2Proof.Machine.execWiredFrame die env s
  | .hostCmd id die => Sys2Proof.Machine.execHostCmd id die s
  | .commitEvent die => Sys2Proof.Machine.execCommitEvent die s
  | .timer die kinds => Sys2Proof.Machine.execTimer die kinds s
  | .xfer die env => Sys2Proof.Machine.execXfer die env s
  | .airOutcome die => Sys2Proof.Machine.execAirOutcome die s
  | .egressDone die => Sys2Proof.Machine.execEgressDone die s
  | .modeEvent die => Sys2Proof.Machine.execModeEvent die s
  | .maint die => Sys2Proof.Machine.execMaint die s
  | .playWatchdog die src => Sys2Proof.Machine.execPlayWatchdog die src s
  | .cryptoJobDone die job => Sys2Proof.Machine.execCryptoJobDone die job s
  | .reassemblyExpiry die => Sys2Proof.Machine.execReassemblyExpiry die s
  | .ageTick die => Sys2Proof.Machine.execAgeTick die s
  | .fwdAgeTick die => Sys2Proof.Machine.execFwdAgeTick die s
  | .ageCas die => Sys2Proof.Machine.execAgeCas die s
  | .popRequest => Sys2Proof.Machine.execPopRequest s
  | .popAnswer die env => Sys2Proof.Machine.execPopAnswer die env s
  | .slowPathOp die => Sys2Proof.Machine.execSlowPathOp die s
  | .slowResult die env => Sys2Proof.Machine.execSlowResult die env s
  | .migrate die => Sys2Proof.Machine.execMigrate die s
  | .learn die => Sys2Proof.Machine.execLearn die s
  | .nodeRead id dmaErr => Sys2Proof.Machine.execNodeRead id dmaErr s
  | .nodeWrite id dmaErr => Sys2Proof.Machine.execNodeWrite id dmaErr s
  | .nodeDelete id => Sys2Proof.Machine.execNodeDelete id s
  | .nodePin id => Sys2Proof.Machine.execNodePin id s
  | .tableDump id dmaErr => Sys2Proof.Machine.execTableDump id dmaErr s
  | .tableRehash id => Sys2Proof.Machine.execTableRehash id s
  | .fwdAdd id dmaErr => Sys2Proof.Machine.execFwdAdd id dmaErr s
  | .fwdDelete id dmaErr => Sys2Proof.Machine.execFwdDelete id dmaErr s
  | .fwdFlush id => Sys2Proof.Machine.execFwdFlush id s
  | .shaperRefill die queues => Sys2Proof.Machine.execShaperRefill die queues s
  | .queueSample die => Sys2Proof.Machine.execQueueSample die s
  | .lineupGate die port => Sys2Proof.Machine.execLineupGate die port s
  | .lineupLoad die => Sys2Proof.Machine.execLineupLoad die s
  | .lineupTakeover die port => Sys2Proof.Machine.execLineupTakeover die port s
  | .portDequeue die port env => Sys2Proof.Machine.execPortDequeue die port env s
  | .queueSet id dmaErr => Sys2Proof.Machine.execQueueSet id dmaErr s
  | .queueRead id dmaErr => Sys2Proof.Machine.execQueueRead id dmaErr s
  | .queueFlush id => Sys2Proof.Machine.execQueueFlush id s
  | .policerSet id dmaErr => Sys2Proof.Machine.execPolicerSet id dmaErr s
  | .sampleRead id dmaErr => Sys2Proof.Machine.execSampleRead id dmaErr s
  | .ethFrameRx port frame codeErr => Sys2Proof.Machine.execEthFrameRx port frame codeErr s
  | .ethTxStart port => Sys2Proof.Machine.execEthTxStart port s
  | .ethTxUnderrun port => Sys2Proof.Machine.execEthTxUnderrun port s
  | .ethLinkUp port => Sys2Proof.Machine.execEthLinkUp port s
  | .ethLinkDown port lock localFault remoteFault => Sys2Proof.Machine.execEthLinkDown port lock localFault remoteFault s
  | .ethPauseRx port opcode enables times => Sys2Proof.Machine.execEthPauseRx port opcode enables times s
  | .ethPauseExpiry port cls => Sys2Proof.Machine.execEthPauseExpiry port cls s
  | .ethFcXoff port => Sys2Proof.Machine.execEthFcXoff port s
  | .ethFcRepeat port => Sys2Proof.Machine.execEthFcRepeat port s
  | .ethFcXon port => Sys2Proof.Machine.execEthFcXon port s
  | .tsPop port data => Sys2Proof.Machine.execTsPop port data s
  | .mdioCmd data => Sys2Proof.Machine.execMdioCmd data s
  | .mdioDone data => Sys2Proof.Machine.execMdioDone data s
  | .canFrameRx bus f resRecessive => Sys2Proof.Machine.execCanFrameRx bus f resRecessive s
  | .canFrameEvent => Sys2Proof.Machine.execCanFrameEvent s
  | .gatewayEvent => Sys2Proof.Machine.execGatewayEvent s
  | .acfPduRx => Sys2Proof.Machine.execAcfPduRx s
  | .canRxAck bus data => Sys2Proof.Machine.execCanRxAck bus data s
  | .canTxWinWrite bus word data => Sys2Proof.Machine.execCanTxWinWrite bus word data s
  | .canTxPush bus data => Sys2Proof.Machine.execCanTxPush bus data s
  | .canTxAck bus data => Sys2Proof.Machine.execCanTxAck bus data s
  | .canTxAbort bus data => Sys2Proof.Machine.execCanTxAbort bus data s
  | .canRecoverWrite bus data => Sys2Proof.Machine.execCanRecoverWrite bus data s
  | .canSleepEdge bus => Sys2Proof.Machine.execCanSleepEdge bus s
  | .canSleepFrame bus => Sys2Proof.Machine.execCanSleepFrame bus s
  | .canWakeReq bus => Sys2Proof.Machine.execCanWakeReq bus s
  | .canOpmodeChange bus => Sys2Proof.Machine.execCanOpmodeChange bus s
  | .canArbitration bus => Sys2Proof.Machine.execCanArbitration bus s
  | .canTxAttemptEnd bus how tdcv => Sys2Proof.Machine.execCanTxAttemptEnd bus how tdcv s
  | .canTatWindowClose bus idx => Sys2Proof.Machine.execCanTatWindowClose bus idx s
  | .canRecoveryDone bus => Sys2Proof.Machine.execCanRecoveryDone bus s
  | .canBusWake bus frame cal => Sys2Proof.Machine.execCanBusWake bus frame cal s
  | .standbyRelease eth data => Sys2Proof.Machine.execStandbyRelease eth data s
  | .gwRuleSet id dmaErr => Sys2Proof.Machine.execGwRuleSet id dmaErr s
  | .gwRuleRead id dmaErr => Sys2Proof.Machine.execGwRuleRead id dmaErr s
  | .gwFreshSet id dmaErr => Sys2Proof.Machine.execGwFreshSet id dmaErr s
  | .gwFreshRead id dmaErr => Sys2Proof.Machine.execGwFreshRead id dmaErr s
  | .gwInject id dmaErr => Sys2Proof.Machine.execGwInject id dmaErr s
  | .busWake id => Sys2Proof.Machine.execBusWake id s
  | .busSleepEdge id => Sys2Proof.Machine.execBusSleepEdge id s
  | .busSleepFrame id => Sys2Proof.Machine.execBusSleepFrame id s
  | .busRecover id => Sys2Proof.Machine.execBusRecover id s
  | .vxlSignalDetect link => Sys2Proof.Machine.execVxlSignalDetect link s
  | .vxlBlockLock link => Sys2Proof.Machine.execVxlBlockLock link s
  | .vxlHelloTx link => Sys2Proof.Machine.execVxlHelloTx link s
  | .vxlHelloRx link msg => Sys2Proof.Machine.execVxlHelloRx link msg s
  | .vxlLockTimeout link => Sys2Proof.Machine.execVxlLockTimeout link s
  | .vxlFaultRetry link => Sys2Proof.Machine.execVxlFaultRetry link s
  | .vxlLossOfLock link => Sys2Proof.Machine.execVxlLossOfLock link s
  | .vxlLaneFail link lane => Sys2Proof.Machine.execVxlLaneFail link lane s
  | .vxlLaneSwapRx link lane => Sys2Proof.Machine.execVxlLaneSwapRx link lane s
  | .vxlFrameRx link frame codeErr => Sys2Proof.Machine.execVxlFrameRx link frame codeErr s
  | .vxlFcSetRx link mask => Sys2Proof.Machine.execVxlFcSetRx link mask s
  | .vxlFcExpiry link cls => Sys2Proof.Machine.execVxlFcExpiry link cls s
  | .vxlFcXoff link => Sys2Proof.Machine.execVxlFcXoff link s
  | .vxlFcRepeat link => Sys2Proof.Machine.execVxlFcRepeat link s
  | .vxlFcXon link => Sys2Proof.Machine.execVxlFcXon link s
  | .lsaRx link msg => Sys2Proof.Machine.execLsaRx link msg s
  | .lsaRefresh => Sys2Proof.Machine.execLsaRefresh s
  | .lsaExpiry eui => Sys2Proof.Machine.execLsaExpiry eui s
  | .huddleSettle => Sys2Proof.Machine.execHuddleSettle s
  | .sptRecompute => Sys2Proof.Machine.execSptRecompute s
  | .fabSend id dmaErr => Sys2Proof.Machine.execFabSend id dmaErr s
  | .hudRehuddle id => Sys2Proof.Machine.execHudRehuddle id s
  | .lsdbRead id dmaErr => Sys2Proof.Machine.execLsdbRead id dmaErr s
  | .claimSet id dmaErr => Sys2Proof.Machine.execClaimSet id dmaErr s
  | .claimRead id dmaErr => Sys2Proof.Machine.execClaimRead id dmaErr s
  | .heartbeatPulse => Sys2Proof.Machine.execHeartbeatPulse s
  | .umpGoRise lost => Sys2Proof.Machine.execUmpGoRise lost s
  | .umpGoFall => Sys2Proof.Machine.execUmpGoFall s
  | .possLineHigh => Sys2Proof.Machine.execPossLineHigh s
  | .takeoverBacklogDone => Sys2Proof.Machine.execTakeoverBacklogDone s
  | .takeoverPossTimeout => Sys2Proof.Machine.execTakeoverPossTimeout s
  | .umpirePulseRx member widthUs => Sys2Proof.Machine.execUmpirePulseRx member widthUs s
  | .umpireHbLost member => Sys2Proof.Machine.execUmpireHbLost member s
  | .umpireReleaseTimeout => Sys2Proof.Machine.execUmpireReleaseTimeout s
  | .journalRecordRx die record => Sys2Proof.Machine.execJournalRecordRx die record s
  | .journalAckTimer => Sys2Proof.Machine.execJournalAckTimer s
  | .journalAckRx die seq lagUs => Sys2Proof.Machine.execJournalAckRx die seq lagUs s
  | .journalResend die => Sys2Proof.Machine.execJournalResend die s
  | .journalStall => Sys2Proof.Machine.execJournalStall s
  | .journalStallBreak => Sys2Proof.Machine.execJournalStallBreak s
  | .pairTimeMeasure ofs => Sys2Proof.Machine.execPairTimeMeasure ofs s
  | .dutyUsageReport rx => Sys2Proof.Machine.execDutyUsageReport rx s
  | .lagAlarm => Sys2Proof.Machine.execLagAlarm s
  | .twinPeerNotice msg => Sys2Proof.Machine.execTwinPeerNotice msg s
  | .twnForm id cause => Sys2Proof.Machine.execTwnForm id cause s
  | .twnBreak id => Sys2Proof.Machine.execTwnBreak id s
  | .twnHandover id => Sys2Proof.Machine.execTwnHandover id s
  | .errorSourceFire die page src kind place unit => Sys2Proof.Machine.execErrorSourceFire die page src kind place unit s
  | .collectorClear off data => Sys2Proof.Machine.execCollectorClear off data s
  | .firstClear data => Sys2Proof.Machine.execFirstClear data s
  | .errnLatchClear data => Sys2Proof.Machine.execErrnLatchClear data s
  | .tokenRequest act scope arg => Sys2Proof.Machine.execTokenRequest act scope arg s
  | .tokenRelease act scope => Sys2Proof.Machine.execTokenRelease act scope s
  | .substitutionSwitchover type die old sparesOk => Sys2Proof.Machine.execSubstitutionSwitchover type die old sparesOk s
  | .scrubPassStart => Sys2Proof.Machine.execScrubPassStart s
  | .scrubSliceDone corrected => Sys2Proof.Machine.execScrubSliceDone corrected s
  | .benSubst id => Sys2Proof.Machine.execBenSubst id s
  | .benRead id dmaErr => Sys2Proof.Machine.execBenRead id dmaErr s
  | .mntScrub id => Sys2Proof.Machine.execMntScrub id s
  | .mboxGo data => Sys2Proof.Machine.execMboxGo data s
  | .cptInfo id dmaErr => Sys2Proof.Machine.execCptInfo id dmaErr s
  | .vcoreSet id => Sys2Proof.Machine.execVcoreSet id s
  | .logRead id dmaErr => Sys2Proof.Machine.execLogRead id dmaErr s
  | .logFlush id => Sys2Proof.Machine.execLogFlush id s
  | .sbNow id => Sys2Proof.Machine.execSbNow id s
  | .psRead id dmaErr => Sys2Proof.Machine.execPsRead id dmaErr s
  | .sensorRead id dmaErr => Sys2Proof.Machine.execSensorRead id dmaErr s
  | .debugChal id dmaErr => Sys2Proof.Machine.execDebugChal id dmaErr s
  | .debugUnlock id dmaErr => Sys2Proof.Machine.execDebugUnlock id dmaErr s
  | .debugBlockExpiry => Sys2Proof.Machine.execDebugBlockExpiry s
  | .logFlushTimer => Sys2Proof.Machine.execLogFlushTimer s
  | .logPageProgrammed ok => Sys2Proof.Machine.execLogPageProgrammed ok s
  | .scoreboardCapture => Sys2Proof.Machine.execScoreboardCapture s
  | .scoreboardDumpWritten dmaErr => Sys2Proof.Machine.execScoreboardDumpWritten dmaErr s
  | .updOpen id fate => Sys2Proof.Machine.execUpdOpen id fate s
  | .updWrite id dmaErr fate => Sys2Proof.Machine.execUpdWrite id dmaErr fate s
  | .updCheck id => Sys2Proof.Machine.execUpdCheck id s
  | .updActivate id => Sys2Proof.Machine.execUpdActivate id s
  | .activationBegin fate => Sys2Proof.Machine.execActivationBegin fate s
  | .updConfirm id fate => Sys2Proof.Machine.execUpdConfirm id fate s
  | .updRevert id => Sys2Proof.Machine.execUpdRevert id s
  | .updInfo id dmaErr => Sys2Proof.Machine.execUpdInfo id dmaErr s
  | .cfgWrite id dmaErr fate => Sys2Proof.Machine.execCfgWrite id dmaErr fate s
  | .trialWarning => Sys2Proof.Machine.execTrialWarning s
  | .trialExpiry => Sys2Proof.Machine.execTrialExpiry s
  | .cmpImgLoad id dmaErr => Sys2Proof.Machine.execCmpImgLoad id dmaErr s
  | .cmpImgInfo id dmaErr => Sys2Proof.Machine.execCmpImgInfo id dmaErr s
  | .cmpSet id dmaErr => Sys2Proof.Machine.execCmpSet id dmaErr s
  | .cmpMembers id dmaErr => Sys2Proof.Machine.execCmpMembers id dmaErr s
  | .cmpStart id => Sys2Proof.Machine.execCmpStart id s
  | .cmpPause id => Sys2Proof.Machine.execCmpPause id s
  | .cmpResume id => Sys2Proof.Machine.execCmpResume id s
  | .cmpStop id => Sys2Proof.Machine.execCmpStop id s
  | .cmpClear id => Sys2Proof.Machine.execCmpClear id s
  | .cmpStatus id dmaErr => Sys2Proof.Machine.execCmpStatus id dmaErr s
  | .cmpMemberRead id dmaErr => Sys2Proof.Machine.execCmpMemberRead id dmaErr s
  | .campaignSlot cid => Sys2Proof.Machine.execCampaignSlot cid s
  | .campaignWaitEnd cid => Sys2Proof.Machine.execCampaignWaitEnd cid s
  | .campaignReport => Sys2Proof.Machine.execCampaignReport s
  | .campaignEngineSwitchover => Sys2Proof.Machine.execCampaignEngineSwitchover s
  | .possessionTake => Sys2Proof.Machine.execPossessionTake s
  | .umpireErrNLow member => Sys2Proof.Machine.execUmpireErrNLow member s
  | .umpireResetRelease member => Sys2Proof.Machine.execUmpireResetRelease member s
  | .remaskLate => Sys2Proof.Machine.execRemaskLate s
  | .canReceiveError bus lec recUp tecUp pxe => Sys2Proof.Machine.execCanReceiveError bus lec recUp tecUp pxe s
  | .canTatLaunch bus idx idle => Sys2Proof.Machine.execCanTatLaunch bus idx idle s

end Sys2Proof.Machine
end

