-- ==== Sys2Proof/WellFormed.lean ====
section
/-! DEFINITION. Which commands are well formed: every operand lies in the range that the spec gives the thing it names (dies and pages of R75, ports,
buses and links of chapters 14 to 16, rings of R95, offsets and values of the host link). Every meaning is total: an ill-formed command changes nothing
or is a failed access, and no statement rests on one. -/

namespace Sys2Proof

/-- The Route dies (Table 4-4). -/
def isRouteDie (die : Nat) : Bool := die == 1 || die == 2
/-- The Air dies. -/
def isAirDie (die : Nat) : Bool := die == 3 || die == 4
/-- The Band dies. -/
def isBandDie (die : Nat) : Bool := die == 5 || die == 6

/-- A journal record has a kind of Table 12-1 and an event time of 64 bits. -/
def Machine.JRec.wf (r : Machine.JRec) : Bool := r.kind < 16 && r.time < 2 ^ 64 && r.seq < 2 ^ 64

/-- The check of a command's operands. -/
def Instr.wf : Instr → Bool
  | .porstNAssert => true
  | .porstNRelease _ => true
  | .supplyMonitorTrip trip => trip.mon ≤ 5
  | .supplyMonitorReturn mon => mon ≤ 5
  | .warmRstN => true
  | .bootStart _ => true
  | .captainWatchdog => true
  | .resetReq code => code < 2 ^ 32
  | .ledgerClr data => data < 2 ^ 32
  | .hostLinkReset _ => true
  | .tapReset => true
  | .tamperFire source => source < 7
  | .tamperRearm source => source < 7
  | .tamperEraseDone => true
  | .paceInterval _ _ => true
  | .avlPeriod => true
  | .vcoreCommandDone => true
  | .pmbusNoAck => true
  | .pmbAlert statusWord => statusWord < 2 ^ 16
  | .pmbAlertRelease => true
  | .sensorPublish temps mv => temps.length == 24 && mv.length == 12
  | .latchingRead addr => addr < 2 ^ 24
  | .counterHalfRead addr => addr < 2 ^ 24
  | .ptpStep => true
  | .ppsInEdge => true
  | .discLock => true
  | .discHoldover => true
  | .ppsOutPulse => true
  | .ppsOutEnd => true
  | .registerWrite addr data size => addr < 2 ^ 24 && data < 2 ^ 64 && (size == 4 || size == 8)
  | .readClear a => a.addr < 2 ^ 24 && (a.size == 4 || a.size == 8)
  | .bar2Access _ addr size => addr < 2 ^ 24 && (size == 4 || size == 8)
  | .blockSoftReset die page => (die ≤ 6 || die == 7) && page < 512
  | .softResetDone die page => die ≤ 6 && page < 512
  | .pgCommit die page => (die ≤ 6 || die == 7) && page < 512
  | .pageLock die page => (die ≤ 6 || die == 7) && page < 512
  | .stickyClear die page bits => (die ≤ 6 || die == 7) && page < 512 && bits < 2 ^ 32
  | .errorForce die page bits => (die ≤ 6 || die == 7) && page < 512 && bits < 2 ^ 32
  | .reactCodeWrite die page _ data => (die ≤ 6 || die == 7) && page < 512 && data < 2 ^ 32
  | .doorbell ring idx => ring < 4 && idx < 2 ^ 32
  | .ringResume ring => ring < 4
  | .cqHeadWrite cnt => cnt < 2 ^ 32
  | .commandFetch ring _ => ring < 4
  | .completionWrite _ _ => true
  | .cqIrqTime => true
  | .cqStallTimeout => true
  | .nop _ => true
  | .modeReqService => true
  | .modeReqBringup => true
  | .modeReqQuiesce => true
  | .modeReqDoze => true
  | .modeEntered => true
  | .quiesceMaxExpiry => true
  | .dozeWake _ _ => true
  | .dozeTimerExpiry _ => true
  | .wakeNRelease => true
  | .bandLoLocked die => isBandDie die
  | .bandLoLockLost die => isBandDie die
  | .bandFaultRetry die => isBandDie die
  | .rsmResumeBand die => (isBandDie die || die == 7)
  | .bandReqStandby die => (isBandDie die || die == 7)
  | .bandReqReceive die => (isBandDie die || die == 7)
  | .bandReqHold die => (isBandDie die || die == 7)
  | .txTuneRequest die chain channel _ => isBandDie die && chain < 4 && channel < 512
  | .txSynthLocked die chain => isBandDie die && chain < 4
  | .txSynthLockLost die chain => isBandDie die && chain < 4
  | .txStart die chain => isBandDie die && chain < 4
  | .txFrameEnd die chain => isBandDie die && chain < 4
  | .txUnderrun die chain => isBandDie die && chain < 4
  | .maskCut die chain _ => isBandDie die && chain < 4
  | .rsmResumeTx die chains => (isBandDie die || die == 7) && chains < 16
  | .calReqRx die => (isBandDie die || die == 7)
  | .calReqTx die chains => (isBandDie die || die == 7) && chains < 16
  | .calTempTrigger die _ => isBandDie die
  | .calDeferExpiry die => isBandDie die
  | .rxCalDone die _ _ _ => isBandDie die
  | .txCalDone die chain _ => isBandDie die && chain < 4
  | .agcPeriod die chain _ => isBandDie die && chain < 4
  | .agcClip die chain _ => isBandDie die && chain < 4
  | .dcoCoarsePeriod die chain _ _ => isBandDie die && chain < 4
  | .converterStuck die chain => isBandDie die && chain < 4
  | .lockDataWrite die word => (isBandDie die || die == 7) && word < 2 ^ 32
  | .lockGo die code => (isBandDie die || die == 7) && code < 2 ^ 32
  | .lockProgramDone die badWord => isBandDie die && badWord.all (fun w => w < 157)
  | .lockVfuseLoss die words => isBandDie die && words ≤ 157
  | .sampleFifoOverflow die chain => isAirDie die && chain < 8
  | .preambleAccept die channel _ _ _ _ _ => isAirDie die && channel < 512
  | .sigDecode die _ sig => isAirDie die && sig < 2 ^ 36
  | .frameDecoded die _ _ => isAirDie die
  | .frameDelivery die => isAirDie die
  | .sicRecovery die _ _ _ _ => isAirDie die
  | .noisePublish die _ => isAirDie die
  | .demCommitLive die channel => isAirDie die && channel < 512
  | .txDescriptor die _ => isAirDie die
  | .superframeBoundary die => isAirDie die
  | .slotStart die => isAirDie die
  | .airMacRx die => isAirDie die
  | .listenSlotDownlink die _ => isAirDie die
  | .nodeAckMissing die _ => isAirDie die
  | .schedReq die => isAirDie die
  | .wakeCallSchedule die tag tenant => isAirDie die && tag < 2 ^ 32 && tenant < 2 ^ 12
  | .wakeCallNoAnswer die tag tenant => isAirDie die && tag < 2 ^ 32 && tenant < 2 ^ 12
  | .legAssocRequest die => isAirDie die
  | .legDataRequest die => isAirDie die
  | .legDisassocNotify die => isAirDie die
  | .legBeaconRequest die => isAirDie die
  | .legPersistExpiry die _ => isAirDie die
  | .neighbourBeacon die => isAirDie die
  | .neighbourLost die tag => isAirDie die && tag < 2 ^ 32
  | .neighbourHoldoffExpiry die tag => isAirDie die && tag < 2 ^ 32
  | .planSet _ => true
  | .planClear _ => true
  | .planGet _ _ => true
  | .desyncClear _ => true
  | .legRelease _ => true
  | .keyImport _ _ _ => true
  | .keyErase _ => true
  | .keyKcv _ _ => true
  | .keyPersist _ _ => true
  | .vaultReload _ => true
  | .tamperAck _ => true
  | .remaskStart => true
  | .remaskDone => true
  | .airFrame die env => isRouteDie die && env.lane ≤ 2
  | .wiredFrame die env => isRouteDie die && env.lane ≤ 2
  | .hostCmd _ die => isRouteDie die
  | .commitEvent die => isRouteDie die
  | .timer die kinds => isRouteDie die && kinds.all (fun k => k.1 ≤ 8)
  | .xfer die env => isRouteDie die && env.lane ≤ 2
  | .airOutcome die => isRouteDie die
  | .egressDone die => isRouteDie die
  | .modeEvent die => isRouteDie die
  | .maint die => isRouteDie die
  | .playWatchdog die src => isRouteDie die && src < 5
  | .cryptoJobDone die _ => isRouteDie die
  | .reassemblyExpiry die => isRouteDie die
  | .ageTick die => isRouteDie die
  | .fwdAgeTick die => isRouteDie die
  | .ageCas die => isRouteDie die
  | .popRequest => true
  | .popAnswer die env => isRouteDie die && env.lane ≤ 2
  | .slowPathOp die => isRouteDie die
  | .slowResult die env => isRouteDie die && env.lane ≤ 2
  | .migrate die => isRouteDie die
  | .learn die => isRouteDie die
  | .nodeRead _ _ => true
  | .nodeWrite _ _ => true
  | .nodeDelete _ => true
  | .nodePin _ => true
  | .tableDump _ _ => true
  | .tableRehash _ => true
  | .fwdAdd _ _ => true
  | .fwdDelete _ _ => true
  | .fwdFlush _ => true
  | .shaperRefill die _ => isRouteDie die
  | .queueSample die => isRouteDie die
  | .lineupGate die port => isRouteDie die && port < 28
  | .lineupLoad die => isRouteDie die
  | .lineupTakeover die port => isRouteDie die && port < 28
  | .portDequeue die port _ => isRouteDie die && port < 28
  | .queueSet _ _ => true
  | .queueRead _ _ => true
  | .queueFlush _ => true
  | .policerSet _ _ => true
  | .sampleRead _ _ => true
  | .ethFrameRx port _ _ => port < 16
  | .ethTxStart port => port < 16
  | .ethTxUnderrun port => port < 16
  | .ethLinkUp port => port < 16
  | .ethLinkDown port _ _ _ => port < 16
  | .ethPauseRx port opcode _ _ => port < 16 && opcode < 2 ^ 16
  | .ethPauseExpiry port cls => port < 16 && cls < 8
  | .ethFcXoff port => port < 16
  | .ethFcRepeat port => port < 16
  | .ethFcXon port => port < 16
  | .tsPop port data => port < 16 && data < 2 ^ 32
  | .mdioCmd data => data < 2 ^ 32
  | .mdioDone data => data < 2 ^ 32
  | .canFrameRx bus f _ => bus < 32 && f.data.length ≤ 64
  | .canFrameEvent => true
  | .gatewayEvent => true
  | .acfPduRx => true
  | .canRxAck bus data => bus < 32 && data < 2 ^ 32
  | .canTxWinWrite bus word data => bus < 32 && word < 20 && data < 2 ^ 32
  | .canTxPush bus data => bus < 32 && data < 2 ^ 32
  | .canTxAck bus data => bus < 32 && data < 2 ^ 32
  | .canTxAbort bus data => bus < 32 && data < 2 ^ 32
  | .canRecoverWrite bus data => bus < 32 && data < 2 ^ 32
  | .canSleepEdge bus => bus < 32
  | .canSleepFrame bus => bus < 32
  | .canWakeReq bus => bus < 32
  | .canOpmodeChange bus => bus < 32
  | .canArbitration bus => bus < 32
  | .canTxAttemptEnd bus _ _ => bus < 32
  | .canTatWindowClose bus idx => bus < 32 && idx < 64
  | .canRecoveryDone bus => bus < 32
  | .canBusWake bus _ _ => bus < 32
  | .standbyRelease _ data => data < 2 ^ 32
  | .gwRuleSet _ _ => true
  | .gwRuleRead _ _ => true
  | .gwFreshSet _ _ => true
  | .gwFreshRead _ _ => true
  | .gwInject _ _ => true
  | .busWake _ => true
  | .busSleepEdge _ => true
  | .busSleepFrame _ => true
  | .busRecover _ => true
  | .vxlSignalDetect link => link < 8
  | .vxlBlockLock link => link < 8
  | .vxlHelloTx link => link < 8
  | .vxlHelloRx link msg => link < 8 && msg.length == 16
  | .vxlLockTimeout link => link < 8
  | .vxlFaultRetry link => link < 8
  | .vxlLossOfLock link => link < 8
  | .vxlLaneFail link lane => link < 8 && lane.lane < 3
  | .vxlLaneSwapRx link lane => link < 8 && lane < 3
  | .vxlFrameRx link _ _ => link < 8
  | .vxlFcSetRx link mask => link < 8 && mask < 256
  | .vxlFcExpiry link cls => link < 8 && cls < 8
  | .vxlFcXoff link => link < 8
  | .vxlFcRepeat link => link < 8
  | .vxlFcXon link => link < 8
  | .lsaRx link msg => link < 8 && msg.length == 48
  | .lsaRefresh => true
  | .lsaExpiry eui => eui < 2 ^ 64
  | .huddleSettle => true
  | .sptRecompute => true
  | .fabSend _ _ => true
  | .hudRehuddle _ => true
  | .lsdbRead _ _ => true
  | .claimSet _ _ => true
  | .claimRead _ _ => true
  | .heartbeatPulse => true
  | .umpGoRise _ => true
  | .umpGoFall => true
  | .possLineHigh => true
  | .takeoverBacklogDone => true
  | .takeoverPossTimeout => true
  | .umpirePulseRx member _ => member < 2
  | .umpireHbLost member => member < 2
  | .umpireReleaseTimeout => true
  | .journalRecordRx die record => isRouteDie die && record.wf
  | .journalAckTimer => true
  | .journalAckRx die _ _ => isRouteDie die
  | .journalResend die => isRouteDie die
  | .journalStall => true
  | .journalStallBreak => true
  | .pairTimeMeasure ofs => ofs < 2 ^ 64
  | .dutyUsageReport _ => true
  | .lagAlarm => true
  | .twinPeerNotice _ => true
  | .twnForm _ cause => cause ≤ 8
  | .twnBreak _ => true
  | .twnHandover _ => true
  | .errorSourceFire die page src _ _ _ => die ≤ 6 && page < 512 && src < 16
  | .collectorClear off data => off < 4096 && data < 2 ^ 32
  | .firstClear data => data < 2 ^ 32
  | .errnLatchClear data => data < 2 ^ 32
  | .tokenRequest act scope _ => 1 ≤ act && act ≤ 7 && scope < 2 ^ 32
  | .tokenRelease act _ => 1 ≤ act && act ≤ 7
  | .substitutionSwitchover type die _ _ => type ≤ 6 && die ≤ 6
  | .scrubPassStart => true
  | .scrubSliceDone _ => true
  | .benSubst _ => true
  | .benRead _ _ => true
  | .mntScrub _ => true
  | .mboxGo data => data < 2 ^ 32
  | .cptInfo _ _ => true
  | .vcoreSet _ => true
  | .logRead _ _ => true
  | .logFlush _ => true
  | .sbNow _ => true
  | .psRead _ _ => true
  | .sensorRead _ _ => true
  | .debugChal _ _ => true
  | .debugUnlock _ _ => true
  | .debugBlockExpiry => true
  | .logFlushTimer => true
  | .logPageProgrammed _ => true
  | .scoreboardCapture => true
  | .scoreboardDumpWritten _ => true
  | .updOpen _ _ => true
  | .updWrite _ _ _ => true
  | .updCheck _ => true
  | .updActivate _ => true
  | .activationBegin _ => true
  | .updConfirm _ _ => true
  | .updRevert _ => true
  | .updInfo _ _ => true
  | .cfgWrite _ _ _ => true
  | .trialWarning => true
  | .trialExpiry => true
  | .cmpImgLoad _ _ => true
  | .cmpImgInfo _ _ => true
  | .cmpSet _ _ => true
  | .cmpMembers _ _ => true
  | .cmpStart _ => true
  | .cmpPause _ => true
  | .cmpResume _ => true
  | .cmpStop _ => true
  | .cmpClear _ => true
  | .cmpStatus _ _ => true
  | .cmpMemberRead _ _ => true
  | .campaignSlot cid => cid < 32
  | .campaignWaitEnd cid => cid < 32
  | .campaignReport => true
  | .campaignEngineSwitchover => true
  | .possessionTake => true
  | .umpireErrNLow member => member < 2
  | .umpireResetRelease member => member < 2
  | .remaskLate => true
  | .canReceiveError bus _ _ _ _ => bus < 32
  | .canTatLaunch bus idx _ => bus < 32 && idx < 64

end Sys2Proof
end

