-- ==== Sys2Proof/Safety.lean ====
section
/-! DEFINITION. The terms in which statements about the block are made: that a command completes and how, what a state that a run can reach always
has, and what a command in flight or a page must be for a command over it to have its own effect. -/

namespace Sys2Proof.Safety
open Sys2Proof Sys2Proof.Machine

/-- A command answers a next state for which `P` holds. -/
abbrev Completes (i : Instr) (s : State) (P : State → Prop) : Prop := ∃ t, exec i s = .next t ∧ P t

/-- A command answers the state that differs in the device alone: the device is `d`, on which a chip reset that fell due has taken hold. -/
def Becomes (i : Instr) (s : State) (d : Dev) : Prop := exec i s = .next { s with dev := d.settle }

/-- A command answers the state whose device is `d`, on which a chip reset that fell due has taken hold, and whose host memory has taken the writes
`ws`, each an address with octets. -/
def BecomesWith (i : Instr) (s : State) (d : Dev) (ws : List (Nat × List Byte)) : Prop :=
  exec i s = .next { s with dev := d.settle, host := memWrites s.host ws }

/-- A command has no effect. -/
def NoEffect (i : Instr) (s : State) : Prop := Becomes i s s.dev

/-- The invariant of every state that a run reaches: host memory is in its canonical form. -/
abbrev Inv (s : State) : Prop := Memory.wf s.host = true

/-- No chip reset has fallen due in the middle of a command: what every command leaves (R108, R511). -/
abbrev Settled (s : State) : Prop := s.dev.pwr.resetDue = none

/-- The same, and the package is not held in reset (R40). -/
abbrev Working (s : State) : Prop := s.dev.pwr.inReset = false ∧ Settled s

/-- The command `c` is in flight under the number `id`, its opcode is `op`, every addressed sequencer has it, its range check passes, and the device's
mode accepts it, a unit that it addresses is up, and no earlier key command waits where it is one itself (R97, R102, R104, R280, R627). -/
abbrev Ready (d : Dev) (op id : Nat) (c : Cmd) (range : Dev → Cmd → Option Nat) : Prop :=
  d.cmd id = some c ∧ c.op = op ∧ c.stage = .sequenced ∧ d.keyBehind c = false ∧ range d c = none ∧ d.modeAccepts op = true ∧ d.targetDown c = false

/-- A die and page number reach the page `p` alone, its region is powered and no block soft reset of it is in progress (R77, R79, R82). -/
abbrev Reaches (d : Dev) (die page : Nat) (p : Page) : Prop := targets die page = [p] ∧ d.pageFault p = none

/-- The page is also not locked (R89). -/
abbrev Writable (d : Dev) (die page : Nat) (p : Page) : Prop := Reaches d die page p ∧ d.locked p = false

/-- A read through BAR0 of `size` octets at `addr` reaches the page `p`, which is powered, with a size and alignment that the register takes (R75 to R79). -/
abbrev Readable (d : Dev) (addr size : Nat) (p : Page) : Prop :=
  addr < 2 ^ 24 ∧ addrDie addr ≠ 7 ∧ pageAt (addrDie addr) (addrPage addr) = some p ∧ p.poweredBy d.pwr.powered = true ∧ accessOk (addrOff addr) size = true

/-- The internal event `e` is the first of a Route die's, `rest` follows it, and it may take its place in the order now (R338, R339). -/
abbrev Heads (d : Dev) (die : Nat) (e : IntEv) (rest : List IntEv) : Prop := (d.route die).int = e :: rest ∧ d.mayPlace die 4 = true

/-- The device once that event, of kind `kind`, has taken its place: it has left the input, is numbered and journalled (R338, R488). -/
def placed (d : Dev) (die kind : Nat) (e : IntEv) (rest : List IntEv) : Dev :=
  let d := (d.setRoute die (fun r => { r with int := rest })).place die 4 kind
  d.journal die kind 0 d.evTime (.int e)

/-- The device once a TIMER event with the due kinds `kinds` has taken its place (R338, R339): a time step that waited for the die is among them (R59). -/
def timed (d : Dev) (die : Nat) (kinds : List (Nat × Nat)) : Dev :=
  let kinds := d.dueKinds die kinds
  let d := { d with time := { d.time with stepFor := putBit d.time.stepFor (die - 1) false } }
  let d := d.sequence die 5
  d.journal die 5 0 d.evTime (.timer kinds)

/-- The device once a sleep request that waited for the end of an attempt on the bus has taken effect (R433). -/
def slept (d : Dev) (bus : Nat) : Dev := if (d.canC bus).sleepPend = 0 then d else d.canSleep bus (d.canC bus).sleepPend

/-- `HostRow op id i`: `i` is the row that runs the host command of opcode `op` in flight under the number `id`. The five rows of CMP_CTRL, which share
an opcode, are left out. -/
inductive HostRow : Nat → Nat → Instr → Prop where
  | nop (id : Nat) : HostRow 0x0001 id (.nop id)
  | planSet (id : Nat) : HostRow 0x0401 id (.planSet id)
  | planClear (id : Nat) : HostRow 0x0402 id (.planClear id)
  | desyncClear (id : Nat) : HostRow 0x0404 id (.desyncClear id)
  | legRelease (id : Nat) : HostRow 0x0405 id (.legRelease id)
  | keyErase (id : Nat) : HostRow 0x0302 id (.keyErase id)
  | vaultReload (id : Nat) : HostRow 0x0305 id (.vaultReload id)
  | tamperAck (id : Nat) : HostRow 0x0306 id (.tamperAck id)
  | nodeDelete (id : Nat) : HostRow 0x0103 id (.nodeDelete id)
  | nodePin (id : Nat) : HostRow 0x0104 id (.nodePin id)
  | tableRehash (id : Nat) : HostRow 0x0106 id (.tableRehash id)
  | fwdFlush (id : Nat) : HostRow 0x0109 id (.fwdFlush id)
  | queueFlush (id : Nat) : HostRow 0x0203 id (.queueFlush id)
  | hudRehuddle (id : Nat) : HostRow 0x0602 id (.hudRehuddle id)
  | twnBreak (id : Nat) : HostRow 0x0702 id (.twnBreak id)
  | twnHandover (id : Nat) : HostRow 0x0703 id (.twnHandover id)
  | benSubst (id : Nat) : HostRow 0x0801 id (.benSubst id)
  | mntScrub (id : Nat) : HostRow 0x0803 id (.mntScrub id)
  | vcoreSet (id : Nat) : HostRow 0x0902 id (.vcoreSet id)
  | logFlush (id : Nat) : HostRow 0x0904 id (.logFlush id)
  | sbNow (id : Nat) : HostRow 0x0905 id (.sbNow id)
  | updCheck (id : Nat) : HostRow 0x0A03 id (.updCheck id)
  | updActivate (id : Nat) : HostRow 0x0A04 id (.updActivate id)
  | updRevert (id : Nat) : HostRow 0x0A06 id (.updRevert id)
  | planGet (id : Nat) (dmaErr : Bool) : HostRow 0x0403 id (.planGet id dmaErr)
  | keyKcv (id : Nat) (dmaErr : Bool) : HostRow 0x0303 id (.keyKcv id dmaErr)
  | nodeRead (id : Nat) (dmaErr : Bool) : HostRow 0x0101 id (.nodeRead id dmaErr)
  | nodeWrite (id : Nat) (dmaErr : Bool) : HostRow 0x0102 id (.nodeWrite id dmaErr)
  | tableDump (id : Nat) (dmaErr : Bool) : HostRow 0x0105 id (.tableDump id dmaErr)
  | fwdAdd (id : Nat) (dmaErr : Bool) : HostRow 0x0107 id (.fwdAdd id dmaErr)
  | fwdDelete (id : Nat) (dmaErr : Bool) : HostRow 0x0108 id (.fwdDelete id dmaErr)
  | queueSet (id : Nat) (dmaErr : Bool) : HostRow 0x0201 id (.queueSet id dmaErr)
  | queueRead (id : Nat) (dmaErr : Bool) : HostRow 0x0202 id (.queueRead id dmaErr)
  | policerSet (id : Nat) (dmaErr : Bool) : HostRow 0x0204 id (.policerSet id dmaErr)
  | sampleRead (id : Nat) (dmaErr : Bool) : HostRow 0x0205 id (.sampleRead id dmaErr)
  | gwRuleSet (id : Nat) (dmaErr : Bool) : HostRow 0x0501 id (.gwRuleSet id dmaErr)
  | gwRuleRead (id : Nat) (dmaErr : Bool) : HostRow 0x0502 id (.gwRuleRead id dmaErr)
  | gwFreshSet (id : Nat) (dmaErr : Bool) : HostRow 0x0503 id (.gwFreshSet id dmaErr)
  | gwFreshRead (id : Nat) (dmaErr : Bool) : HostRow 0x0504 id (.gwFreshRead id dmaErr)
  | gwInject (id : Nat) (dmaErr : Bool) : HostRow 0x0505 id (.gwInject id dmaErr)
  | fabSend (id : Nat) (dmaErr : Bool) : HostRow 0x0601 id (.fabSend id dmaErr)
  | lsdbRead (id : Nat) (dmaErr : Bool) : HostRow 0x0603 id (.lsdbRead id dmaErr)
  | claimSet (id : Nat) (dmaErr : Bool) : HostRow 0x0604 id (.claimSet id dmaErr)
  | claimRead (id : Nat) (dmaErr : Bool) : HostRow 0x0605 id (.claimRead id dmaErr)
  | benRead (id : Nat) (dmaErr : Bool) : HostRow 0x0802 id (.benRead id dmaErr)
  | cptInfo (id : Nat) (dmaErr : Bool) : HostRow 0x0901 id (.cptInfo id dmaErr)
  | logRead (id : Nat) (dmaErr : Bool) : HostRow 0x0903 id (.logRead id dmaErr)
  | psRead (id : Nat) (dmaErr : Bool) : HostRow 0x0906 id (.psRead id dmaErr)
  | sensorRead (id : Nat) (dmaErr : Bool) : HostRow 0x0907 id (.sensorRead id dmaErr)
  | debugChal (id : Nat) (dmaErr : Bool) : HostRow 0x0908 id (.debugChal id dmaErr)
  | debugUnlock (id : Nat) (dmaErr : Bool) : HostRow 0x0909 id (.debugUnlock id dmaErr)
  | updInfo (id : Nat) (dmaErr : Bool) : HostRow 0x0A07 id (.updInfo id dmaErr)
  | cmpImgLoad (id : Nat) (dmaErr : Bool) : HostRow 0x0B01 id (.cmpImgLoad id dmaErr)
  | cmpImgInfo (id : Nat) (dmaErr : Bool) : HostRow 0x0B02 id (.cmpImgInfo id dmaErr)
  | cmpSet (id : Nat) (dmaErr : Bool) : HostRow 0x0B03 id (.cmpSet id dmaErr)
  | cmpMembers (id : Nat) (dmaErr : Bool) : HostRow 0x0B04 id (.cmpMembers id dmaErr)
  | cmpStatus (id : Nat) (dmaErr : Bool) : HostRow 0x0B06 id (.cmpStatus id dmaErr)
  | cmpMemberRead (id : Nat) (dmaErr : Bool) : HostRow 0x0B07 id (.cmpMemberRead id dmaErr)
  | keyImport (id : Nat) (dmaErr : Bool) (stopAt : Option Nat) : HostRow 0x0301 id (.keyImport id dmaErr stopAt)
  | keyPersist (id : Nat) (fate : PersistEnd) : HostRow 0x0304 id (.keyPersist id fate)
  | twnForm (id cause : Nat) : HostRow 0x0701 id (.twnForm id cause)
  | updOpen (id : Nat) (fate : FlashEnd) : HostRow 0x0A01 id (.updOpen id fate)
  | updWrite (id : Nat) (dmaErr : Bool) (fate : FlashEnd) : HostRow 0x0A02 id (.updWrite id dmaErr fate)
  | updConfirm (id : Nat) (fate : FlashEnd) : HostRow 0x0A05 id (.updConfirm id fate)
  | cfgWrite (id : Nat) (dmaErr : Bool) (fate : FlashEnd) : HostRow 0x0A08 id (.cfgWrite id dmaErr fate)

/-- The rows that may write host memory: the reads that fill a data buffer, and the completion ring. -/
def writesHost : Instr → Bool
  | .completionWrite _ _ | .planGet _ _ | .keyKcv _ _ | .nodeRead _ _ | .tableDump _ _ | .queueRead _ _ | .sampleRead _ _ | .gwRuleRead _ _
  | .gwFreshRead _ _ | .lsdbRead _ _ | .claimRead _ _ | .benRead _ _ | .cptInfo _ _ | .logRead _ _ | .psRead _ _ | .sensorRead _ _
  | .debugChal _ _ | .updInfo _ _ | .cmpImgInfo _ _ | .cmpStatus _ _ | .cmpMemberRead _ _ => true
  | _ => false

/-- `n` steps one after another; a stop ends them. -/
def steps : Nat → State → Answer
  | 0, s => .next s
  | n + 1, s =>
    match step s with
    | .next t => steps n t
    | o => o

/-- Commands run one after another on a state whose queue each leaves alone; a stop ends them. -/
def runAll : List Instr → State → Answer
  | [], s => .next s
  | c :: cs, s =>
    match exec c s with
    | .next t => runAll cs t
    | o => o

/-- No two holders of one region's token are incompatible (R526, Table 18-7). -/
def TokensOk (d : Dev) : Prop := d.mt.held.Pairwise (fun a b => overlap a.scope b.scope = true → compatible a.act b.act = true)

end Sys2Proof.Safety
end

