-- ==== Sys2Proof/Certificates/Slice0/Obligations.lean ====
section
/-! DEFINITION. The statements for the provers, each a named proposition. -/

open Sys2Proof Sys2Proof.Machine Sys2Proof.Safety

/-- What PORST_N, the supply monitors, WARM_RST_N, the captain's watchdog and TRST_N do

PORST_N_ASSERT answers the package reset with cause 1 and PORST_N low. PORST_N_RELEASE of a low PORST_N samples BOOT_RECOVER, and where no monitor holds reset it also ends the reset, makes the boot due and restarts time at 0; of a high PORST_N it has no effect. SUPPLY_MONITOR_TRIP of one of the five monitored rails, with neither PORST_N low nor a monitor tripped, answers the package reset with cause 2 that names the monitor, with the given rails off; otherwise it adds the monitor to those that hold reset; of a rail that no monitor watches it only puts the given rails off. SUPPLY_MONITOR_RETURN of the last tripped monitor with PORST_N high ends the reset, makes the boot due and restarts time at 0; of another tripped monitor, or with PORST_N low, it only takes the monitor from those that hold reset; of a monitor that has not tripped it has no effect. WARM_RST_N answers the chip reset with cause 3, and has no effect while the package is in reset. CAPTAIN_WATCHDOG answers the chip reset with cause 5 once the boot has started, and before that it has no effect. TAP_RESET records that the TAP was reset. (R40, R41, R107, R109, R110, Table 2-8, Table 5-1) -/
def Obligations.ResetPins : Prop :=
  (∀ (s : State), Becomes (.porstNAssert) s (s.dev.packageReset true s.dev.pwr.monLow 1 0)) ∧
  (∀ (s : State) (recover : Bool), 
    s.dev.pwr.porstLow = true → s.dev.pwr.monLow = 0 → 
    Becomes (.porstNRelease recover) s ({ s.dev with pwr := { s.dev.pwr with porstLow := false, recoverPin := recover, inReset := false, bootDue := true, railsOff := 0 }, time := {} })) ∧
  (∀ (s : State) (recover : Bool), 
    s.dev.pwr.porstLow = true → s.dev.pwr.monLow ≠ 0 → 
    Becomes (.porstNRelease recover) s ({ s.dev with pwr := { s.dev.pwr with porstLow := false, recoverPin := recover } })) ∧
  (∀ (s : State) (recover : Bool), s.dev.pwr.porstLow = false → NoEffect (.porstNRelease recover) s) ∧
  (∀ (s : State) (mon rails : Nat), 
    mon < 5 → s.dev.pwr.porstLow = false → s.dev.pwr.monLow = 0 → 
    Becomes (.supplyMonitorTrip ⟨mon, rails⟩) s (((s.dev.railsGo rails).packageReset false (2 ^ mon) 2 mon).railsGo rails)) ∧
  (∀ (s : State) (mon rails : Nat), 
    mon < 5 → ((s.dev.pwr.porstLow = true ∨ s.dev.pwr.monLow ≠ 0)) → 
    Becomes (.supplyMonitorTrip ⟨mon, rails⟩) s ({ s.dev.railsGo rails with pwr := { (s.dev.railsGo rails).pwr with monLow := putBit s.dev.pwr.monLow mon true, inReset := true } })) ∧
  (∀ (s : State) (mon rails : Nat), 5 ≤ mon → Becomes (.supplyMonitorTrip ⟨mon, rails⟩) s (s.dev.railsGo rails)) ∧
  (∀ (s : State) (mon : Nat), 
    bitOf s.dev.pwr.monLow mon = true → putBit s.dev.pwr.monLow mon false = 0 → s.dev.pwr.porstLow = false → 
    Becomes (.supplyMonitorReturn mon) s ({ s.dev with pwr := { s.dev.pwr with monLow := 0, inReset := false, bootDue := true, railsOff := 0 }, time := {} })) ∧
  (∀ (s : State) (mon : Nat), 
    bitOf s.dev.pwr.monLow mon = true → ((putBit s.dev.pwr.monLow mon false ≠ 0 ∨ s.dev.pwr.porstLow = true)) → 
    Becomes (.supplyMonitorReturn mon) s ({ s.dev with pwr := { s.dev.pwr with monLow := putBit s.dev.pwr.monLow mon false } })) ∧
  (∀ (s : State) (mon : Nat), bitOf s.dev.pwr.monLow mon = false → NoEffect (.supplyMonitorReturn mon) s) ∧
  (∀ (s : State), s.dev.pwr.inReset = false → Becomes (.warmRstN) s (s.dev.chipReset 3)) ∧
  (∀ (s : State), s.dev.pwr.inReset = true → NoEffect (.warmRstN) s) ∧
  (∀ (s : State), 
    s.dev.pwr.inReset = false → s.dev.pwr.bootDue = false → s.dev.pwr.bootHeld = false → 
    Becomes (.captainWatchdog) s (s.dev.chipReset 5)) ∧
  (∀ (s : State), (s.dev.pwr.inReset = true ∨ s.dev.pwr.bootDue = true ∨ s.dev.pwr.bootHeld = true) → NoEffect (.captainWatchdog) s) ∧
  (∀ (s : State), Becomes (.tapReset) s ({ s.dev with pwr := { s.dev.pwr with tapReset := true } }))

/-- What RESET_REQ, LEDGER_CLR and HOST_LINK_RESET do

Where the page BTL can be written, RESET_REQ of 0xD1A6 (low 16 bits) answers the device on which a chip reset with cause 6 has fallen due, and of another value has no effect; that device answers with the chip reset of cause 6 when no other reset was due and the package is not in reset. LEDGER_CLR with bit 0 makes the clearing of the failure counts due, and without it has no effect. HOST_LINK_RESET answers the device after a host link reset, and for PERST_N the link also goes down. After a host link reset the live WEIGHT of every command ring is 0, both indexes of every ring and both counts of the completion ring are 0, every vector is masked, no interrupt waits for its completions, the ring visit in progress ends, and every command in flight from a ring, and none from the mailbox, is marked so that its record is discarded; the rest of the host link's state is unchanged. (R93, R110, R118, R107) -/
def Obligations.RequestedResets : Prop :=
  (∀ (s : State) (code : Nat), Writable s.dev 0 0x004 ⟨.BTL, 0, 0⟩ → code % 65536 = 0xD1A6 → Becomes (.resetReq code) s (s.dev.resetSoon 6)) ∧
  (∀ (s : State) (code : Nat), 
    Writable s.dev 0 0x004 ⟨.BTL, 0, 0⟩ → code % 65536 = 0xD1A6 → s.dev.pwr.resetDue = none → s.dev.pwr.inReset = false → 
    exec (.resetReq code) s = .next { s with dev := s.dev.chipReset 6 }) ∧
  (∀ (s : State) (code : Nat), Writable s.dev 0 0x004 ⟨.BTL, 0, 0⟩ → code % 65536 ≠ 0xD1A6 → NoEffect (.resetReq code) s) ∧
  (∀ (s : State) (data : Nat), 
    Writable s.dev 0 0x004 ⟨.BTL, 0, 0⟩ → bitOf data 0 = true → 
    Becomes (.ledgerClr data) s ({ s.dev with boot := { s.dev.boot with clearDue := true } })) ∧
  (∀ (s : State) (data : Nat), Writable s.dev 0 0x004 ⟨.BTL, 0, 0⟩ → bitOf data 0 = false → NoEffect (.ledgerClr data) s) ∧
  (∀ (s : State), Becomes (.hostLinkReset false) s (s.dev.hostLinkReset)) ∧
  (∀ (s : State), Becomes (.hostLinkReset true) s (s.dev.hostLinkReset.emit (.linkTrain false))) ∧
  (∀ (d : Dev), 
    d.hostLinkReset.hl = { d.hl with msixUnmask := 0, unsignalled := 0, visitLeft := 0, inflight := d.hl.inflight.map (fun c => if c.ring == 4 then c else { c with discard := true }) }) ∧
  (∀ (d : Dev) (r : Nat), 
    r < 4 → 
    d.hostLinkReset.g F.HST.CR_CFG_WEIGHT 0 0 r = 0 ∧ d.hostLinkReset.g F.HST.CR_TAIL_IDX 0 0 r = 0 ∧ d.hostLinkReset.g F.HST.CR_HEAD_IDX 0 0 r = 0) ∧
  (∀ (d : Dev), d.hostLinkReset.g F.HST.CQ_HEAD_CNT = 0 ∧ d.hostLinkReset.g F.HST.CQ_TAIL_CNT = 0)

/-- What TAMPER_FIRE, TAMPER_REARM, TAMPER_ERASE_DONE and TAMPER_ACK do

TAMPER_FIRE outside a package reset, of a source below 7 that is not asserted, marks it asserted. Where the source is not enabled that is all; before boot has finished the source also waits for boot step 12; otherwise the source acts at its level, and where the member is then a STANDBY and the level is 2 or above it also leaves the pair as DETACHED and says so to its partner. TAMPER_FIRE in a package reset, of another source number, or of a source that is asserted already has no effect. TAMPER_REARM of a source below 7 marks it not asserted; of another number it has no effect. While the erase runs, TAMPER_ERASE_DONE leaves both key blob slots erased and ERASE_BUSY 0, and in DOZE gates region A0 again; otherwise it has no effect. TAMPER_ACK, when its command is ready, clears HOLD and ends with OK where no enabled source of level 2 or above is asserted, and ends with UNIT_DOWN, HOLD unchanged, where one is. (R28, R292, R293, R294, Table 10-5, Table 10-9, Table 10-10, Table 17-6) -/
def Obligations.TamperRows : Prop :=
  (∀ (s : State) (source : Nat), 
    source < 7 → bitOf (s.dev.g F.VLT.TAMPER_STAT_ASSERTED) source = false → s.dev.pwr.inReset = false → (s.dev.wBit F.VLT.TAMPER_STAT_ASSERTED source true).on F.VLT.TAMPER_CFG_EN 0 0 source = true → (s.dev.wBit F.VLT.TAMPER_STAT_ASSERTED source true).booted = true → (¬(((s.dev.wBit F.VLT.TAMPER_STAT_ASSERTED source true).tamperAct source).twin = 3 ∧ 2 ≤ ((s.dev.wBit F.VLT.TAMPER_STAT_ASSERTED source true).tamperAct source).g F.VLT.TAMPER_CFG_LEVEL 0 0 source)) → 
    Becomes (.tamperFire source) s ((s.dev.wBit F.VLT.TAMPER_STAT_ASSERTED source true).tamperAct source)) ∧
  (∀ (s : State) (source : Nat), 
    source < 7 → bitOf (s.dev.g F.VLT.TAMPER_STAT_ASSERTED) source = false → s.dev.pwr.inReset = false → (s.dev.wBit F.VLT.TAMPER_STAT_ASSERTED source true).on F.VLT.TAMPER_CFG_EN 0 0 source = true → (s.dev.wBit F.VLT.TAMPER_STAT_ASSERTED source true).booted = true → ((s.dev.wBit F.VLT.TAMPER_STAT_ASSERTED source true).tamperAct source).twin = 3 → 2 ≤ ((s.dev.wBit F.VLT.TAMPER_STAT_ASSERTED source true).tamperAct source).g F.VLT.TAMPER_CFG_LEVEL 0 0 source → 
    Becomes (.tamperFire source) s ((((s.dev.wBit F.VLT.TAMPER_STAT_ASSERTED source true).tamperAct source).leavePair 4).emit (.twinMsg 3 []))) ∧
  (∀ (s : State) (source : Nat), 
    source < 7 → bitOf (s.dev.g F.VLT.TAMPER_STAT_ASSERTED) source = false → s.dev.pwr.inReset = false → (s.dev.wBit F.VLT.TAMPER_STAT_ASSERTED source true).on F.VLT.TAMPER_CFG_EN 0 0 source = false → 
    Becomes (.tamperFire source) s (s.dev.wBit F.VLT.TAMPER_STAT_ASSERTED source true)) ∧
  (∀ (s : State) (source : Nat), 
    source < 7 → bitOf (s.dev.g F.VLT.TAMPER_STAT_ASSERTED) source = false → s.dev.pwr.inReset = false → (s.dev.wBit F.VLT.TAMPER_STAT_ASSERTED source true).on F.VLT.TAMPER_CFG_EN 0 0 source = true → (s.dev.wBit F.VLT.TAMPER_STAT_ASSERTED source true).booted = false → 
    Becomes (.tamperFire source) s ({ s.dev.wBit F.VLT.TAMPER_STAT_ASSERTED source true with vault := { s.dev.vault with latched := s.dev.vault.latched ++ [source] } })) ∧
  (∀ (s : State) (source : Nat), 
    (7 ≤ source ∨ bitOf (s.dev.g F.VLT.TAMPER_STAT_ASSERTED) source = true ∨ s.dev.pwr.inReset = true) → 
    NoEffect (.tamperFire source) s) ∧
  (∀ (s : State) (source : Nat), source < 7 → Becomes (.tamperRearm source) s (s.dev.wBit F.VLT.TAMPER_STAT_ASSERTED source false)) ∧
  (∀ (s : State) (source : Nat), 7 ≤ source → NoEffect (.tamperRearm source) s) ∧
  (∀ (s : State), 
    s.dev.on F.VLT.BLOB_STAT_ERASE_BUSY = true → s.dev.ms.dozeStep ≠ 6 → 
    Becomes (.tamperEraseDone) s (((s.dev.setBlob 0 {}).setBlob 1 {}).w F.VLT.BLOB_STAT_ERASE_BUSY 0)) ∧
  (∀ (s : State) (d1 : Dev), 
    s.dev.on F.VLT.BLOB_STAT_ERASE_BUSY = true → d1 = ((s.dev.setBlob 0 {}).setBlob 1 {}).w F.VLT.BLOB_STAT_ERASE_BUSY 0 → s.dev.ms.dozeStep = 6 → 
    Becomes (.tamperEraseDone) s ({ d1 with pwr := { d1.pwr with powered := putBit d1.pwr.powered 0 false } })) ∧
  (∀ (s : State), s.dev.on F.VLT.BLOB_STAT_ERASE_BUSY = false → NoEffect (.tamperEraseDone) s) ∧
  (∀ (s : State) (id : Nat) (c : Cmd), 
    Ready s.dev 0x0306 id c noRange → (List.range 7).any (fun i => bitOf (s.dev.g F.VLT.TAMPER_STAT_ASSERTED) i&&s.dev.on F.VLT.TAMPER_CFG_EN 0 0 i&&decide (2 ≤ s.dev.g F.VLT.TAMPER_CFG_LEVEL 0 0 i)) = false → 
    Becomes (.tamperAck id) s ((s.dev.w F.VLT.TAMPER_STAT_HOLD 0).finish id c.ok)) ∧
  (∀ (s : State) (id : Nat) (c : Cmd), 
    Ready s.dev 0x0306 id c noRange → (List.range 7).any (fun i => bitOf (s.dev.g F.VLT.TAMPER_STAT_ASSERTED) i&&s.dev.on F.VLT.TAMPER_CFG_EN 0 0 i&&decide (2 ≤ s.dev.g F.VLT.TAMPER_CFG_LEVEL 0 0 i)) = true → 
    Becomes (.tamperAck id) s (s.dev.finish id (c.bad stDown)))

/-- What AVL_PERIOD, VCORE_COMMAND_DONE, PMBUS_NO_ACK, PMB_ALERT, PMB_ALERT_RELEASE and VCORE_SET do

While the loop runs and no command is in progress AVL_PERIOD commands VCORE + 5 mV where the lowest pace is below TARGET and VCORE - 5 mV where it exceeds TARGET by more than HYST, each held between FLOOR and CEIL and only where that differs from VCORE; in every other such case it has no effect. While the loop does not run it has no effect; while a lowering command is in progress it makes a raise of 25 mV due where the lowest pace is below TARGET; while another command is in progress it has no effect. VCORE_COMMAND_DONE ends the command in progress, and then sends a host value that waits, else CEIL where it is due, else a raise of 25 mV where it is due and the loop runs, else nothing; with none in progress it has no effect. PMBUS_NO_ACK ends the command in progress, halts the loop, logs code 0x0301 with VCORE and raises PMBUS, and then sends a host value that waits. PMB_ALERT pauses the loop and logs code 0x0302 with STATUS_WORD; PMB_ALERT_RELEASE ends that pause. VCORE_SET, when its command is ready, ends with LOCKED where the page SNS is locked; else it clears both copies of EN, sets HOST_OVR and ends with OK, and sends its value where no command is in progress, and otherwise keeps it for the end of that command. (R52, R54, R55, Table 3-2) -/
def Obligations.VoltageLoop : Prop :=
  (∀ (s : State) (mv : Nat), 
    s.dev.loopRuns = true → s.dev.avl.busy = 0 → s.dev.lowPace < s.dev.g F.SNS.AVL_TARGET_PACE → mv = s.dev.avlClamp (s.dev.vcore + 5) → mv ≠ s.dev.vcore → 
    Becomes (.avlPeriod) s ({ ((s.dev.w F.SNS.VCORE_SET_MV mv).emit (.pmbus mv)) with avl := { s.dev.avl with busy := 1 } })) ∧
  (∀ (s : State) (mv : Nat), 
    s.dev.loopRuns = true → s.dev.avl.busy = 0 → ¬ s.dev.lowPace < s.dev.g F.SNS.AVL_TARGET_PACE → aboveHyst s.dev.lowPace (s.dev.g F.SNS.AVL_TARGET_PACE) (s.dev.g F.SNS.AVL_CTRL_HYST) = true → mv = s.dev.avlClamp (s.dev.vcore - 5) → mv ≠ s.dev.vcore → 
    Becomes (.avlPeriod) s ({ ((s.dev.w F.SNS.VCORE_SET_MV mv).emit (.pmbus mv)) with avl := { s.dev.avl with busy := 2 } })) ∧
  (∀ (s : State), 
    s.dev.loopRuns = true → s.dev.avl.busy = 0 → ((s.dev.lowPace < s.dev.g F.SNS.AVL_TARGET_PACE → s.dev.avlClamp (s.dev.vcore + 5) = s.dev.vcore)) → ((¬ s.dev.lowPace < s.dev.g F.SNS.AVL_TARGET_PACE → aboveHyst s.dev.lowPace (s.dev.g F.SNS.AVL_TARGET_PACE) (s.dev.g F.SNS.AVL_CTRL_HYST) = true → s.dev.avlClamp (s.dev.vcore - 5) = s.dev.vcore)) → 
    NoEffect (.avlPeriod) s) ∧
  (∀ (s : State), 
    s.dev.loopRuns = true → s.dev.avl.busy = 2 → s.dev.lowPace < s.dev.g F.SNS.AVL_TARGET_PACE → 
    Becomes (.avlPeriod) s ({ s.dev with avl := { s.dev.avl with bigRaise := true } })) ∧
  (∀ (s : State), 
    (s.dev.loopRuns = false ∨ (s.dev.avl.busy ≠ 0 ∧ s.dev.avl.busy ≠ 2) ∨ (s.dev.avl.busy = 2 ∧ ¬ s.dev.lowPace < s.dev.g F.SNS.AVL_TARGET_PACE)) → 
    NoEffect (.avlPeriod) s) ∧
  (∀ (s : State), 
    s.dev.avl.busy ≠ 0 → s.dev.avl.hostNext = none → s.dev.avl.ceilDue = false → s.dev.avl.bigRaise = false → 
    Becomes (.vcoreCommandDone) s ({ s.dev with avl := { s.dev.avl with busy := 0 } })) ∧
  (∀ (s : State) (d1 : Dev), 
    s.dev.avl.busy ≠ 0 → s.dev.avl.hostNext = none → s.dev.avl.ceilDue = false → s.dev.avl.bigRaise = true → d1 = { s.dev with avl := { s.dev.avl with busy := 0, bigRaise := false } } → d1.loopRuns = false → 
    Becomes (.vcoreCommandDone) s (d1)) ∧
  (∀ (s : State) (mv : Nat), 
    s.dev.avl.busy ≠ 0 → s.dev.avl.hostNext = some mv → 
    Becomes (.vcoreCommandDone) s (({ s.dev with avl := { s.dev.avl with busy := 0, hostNext := none, bigRaise := false } } : Dev).vout mv 3)) ∧
  (∀ (s : State), 
    s.dev.avl.busy ≠ 0 → s.dev.avl.hostNext = none → s.dev.avl.ceilDue = true → 
    Becomes (.vcoreCommandDone) s (({ s.dev with avl := { s.dev.avl with busy := 0, ceilDue := false, bigRaise := false } } : Dev).vout (s.dev.g F.SNS.AVL_LIMITS_CEIL) 4)) ∧
  (∀ (s : State) (d1 : Dev), 
    s.dev.avl.busy ≠ 0 → s.dev.avl.hostNext = none → s.dev.avl.ceilDue = false → s.dev.avl.bigRaise = true → d1 = { s.dev with avl := { s.dev.avl with busy := 0, bigRaise := false } } → d1.loopRuns = true → 
    Becomes (.vcoreCommandDone) s (d1.vout (d1.avlClamp (d1.vcore + 25)) 1)) ∧
  (∀ (s : State), s.dev.avl.busy = 0 → NoEffect (.vcoreCommandDone) s) ∧
  (∀ (s : State) (d1 : Dev), 
    d1 = (({ s.dev with avl := { s.dev.avl with busy := 0, halted := true, bigRaise := false, ceilDue := false } } : Dev).avlShow.logRec 0x0301 3 0 (toLE 2 s.dev.vcore)).raise E.CPT.PMBUS → s.dev.avl.hostNext = none → 
    Becomes (.pmbusNoAck) s (d1)) ∧
  (∀ (s : State) (d1 : Dev) (mv : Nat), 
    d1 = (({ s.dev with avl := { s.dev.avl with busy := 0, halted := true, bigRaise := false, ceilDue := false } } : Dev).avlShow.logRec 0x0301 3 0 (toLE 2 s.dev.vcore)).raise E.CPT.PMBUS → s.dev.avl.hostNext = some mv → 
    Becomes (.pmbusNoAck) s (({ d1 with avl := { d1.avl with hostNext := none } } : Dev).vout mv 3)) ∧
  (∀ (s : State) (statusWord : Nat), 
    Becomes (.pmbAlert statusWord) s (({ s.dev with avl := { s.dev.avl with pauseMask := putBit s.dev.avl.pauseMask 0 true } } : Dev).avlShow.logRec 0x0302 2 0 (toLE 2 statusWord))) ∧
  (∀ (s : State), 
    Becomes (.pmbAlertRelease) s (({ s.dev with avl := { s.dev.avl with pauseMask := putBit s.dev.avl.pauseMask 0 false } } : Dev).avlShow)) ∧
  (∀ (s : State) (id : Nat) (c : Cmd), 
    Ready s.dev 0x0902 id c (fun _ c => if 600 ≤ c.par 24 2&&c.par 24 2 ≤ 850 then none else some 0) → s.dev.locked ⟨.SNS, 0, 0⟩ = false → s.dev.avl.busy = 0 → 
    Becomes (.vcoreSet id) s (((((s.dev.wBoth F.SNS.AVL_CTRL_EN 0).w F.SNS.AVL_STAT_HOST_OVR 1).avlShow).vout (c.par 24 2) 3).finish id c.ok)) ∧
  (∀ (s : State) (id : Nat) (c : Cmd) (d1 : Dev), 
    Ready s.dev 0x0902 id c (fun _ c => if 600 ≤ c.par 24 2&&c.par 24 2 ≤ 850 then none else some 0) → s.dev.locked ⟨.SNS, 0, 0⟩ = false → s.dev.avl.busy ≠ 0 → d1 = ((s.dev.wBoth F.SNS.AVL_CTRL_EN 0).w F.SNS.AVL_STAT_HOST_OVR 1).avlShow → 
    Becomes (.vcoreSet id) s (({ d1 with avl := { s.dev.avl with hostNext := some (c.par 24 2), bigRaise := false } } : Dev).finish id c.ok)) ∧
  (∀ (s : State) (id : Nat) (c : Cmd), 
    Ready s.dev 0x0902 id c (fun _ c => if 600 ≤ c.par 24 2&&c.par 24 2 ≤ 850 then none else some 0) → s.dev.locked ⟨.SNS, 0, 0⟩ = true → 
    Becomes (.vcoreSet id) s (s.dev.finish id (c.bad stLocked)))

/-- What PACE_INTERVAL does with one reading and with measurement off, and what SENSOR_PUBLISH does

With pace measurement on and one reading, of an active unit of a judged type on a die below 7 whose pace is not below the worst pace that VCORE allows, PACE_INTERVAL shows that pace as the die's figure, judges the unit's wear against the median, which is the reading's own pace, counts its corrected errors, and looks whether the voltage loop owes a raise; with no reading and no block it only looks whether the voltage loop owes a raise. With pace measurement off, WIN 0 or INT 0, it has no effect. SENSOR_PUBLISH shows the readings, checks their limits and watches the grade maximum, in that order. Where no powered region is above the high limit or above the grade's maximum, no supply is out of range and the part was not too hot, it shows every powered region's temperature as valid, marks the others not valid and shows the twelve supplies, and does nothing else. (R15, R50, R51, R519, R539, R540, R55) -/
def Obligations.PaceAndSensors : Prop :=
  (∀ (s : State) (r : PaceReading) (pace : Nat), 
    s.dev.g F.SNS.PACE_CFG_WIN ≠ 0 → s.dev.g F.SNS.PACE_CFG_INT ≠ 0 → pace = s.dev.paceOf r.steps → r.die < 7 → (s.dev.unit r.type r.die r.index).state = .active → worstPace (s.dev.w F.SNS.DIE_PACE_PACE pace 0 0 r.die).vcore ≤ pace → r.type ≠ 4 → r.type ≠ 5 → 
    Becomes (.paceInterval [r] []) s ((((s.dev.w F.SNS.DIE_PACE_PACE pace 0 0 r.die).wearStep r pace pace).corrStep r).paceWatch)) ∧
  (∀ (s : State), s.dev.g F.SNS.PACE_CFG_WIN ≠ 0 → s.dev.g F.SNS.PACE_CFG_INT ≠ 0 → Becomes (.paceInterval [] []) s (s.dev.paceWatch)) ∧
  (∀ (s : State) (readings : (List PaceReading)) (blocks : (List (Nat×Nat×Nat))), 
    (s.dev.g F.SNS.PACE_CFG_INT = 0 ∨ s.dev.g F.SNS.PACE_CFG_WIN = 0) → 
    NoEffect (.paceInterval readings blocks) s) ∧
  (∀ (s : State) (temps : (List Int)) (mv : (List Nat)), 
    Becomes (.sensorPublish temps mv) s (((s.dev.showSensors temps mv).sensorLimits temps mv).heatWatch temps)) ∧
  (∀ (s : State) (temps : (List Int)) (mv : (List Nat)) (d1 : Dev), 
    d1 = s.dev.showSensors temps mv → d1.sensed.all (fun i => decide (temps.getD i 0 ≤ sext 12 (d1.g F.SNS.TEMP_CFG_HIGH))&&decide (temps.getD i 0 ≤ d1.tjMax)) = true → d1.cpt.overTemp = false → (List.range 12).all (fun k => d1.supplyOk k (mv.getD k 0)) = true → 
    Becomes (.sensorPublish temps mv) s (d1)) ∧
  (∀ (d : Dev) (temps : (List Int)) (mv : (List Nat)), 
    d.showSensors temps mv = (d.each (List.range 24) (fun d i => if d.regionOn i then (d.w F.SNS.TEMP_VALUE (ofSigned 12 (temps.getD i 0)) 0 0 i).w F.SNS.TEMP_VALID 1 0 0 i else d.w F.SNS.TEMP_VALID 0 0 0 i)).each (List.range 12) (fun d k => (d.w F.SNS.SUPPLY_MV (mv.getD k 0) 0 0 k).w F.SNS.SUPPLY_VALID 1 0 0 k))

/-- What PTP_STEP, PPS_IN_EDGE, DISC_LOCK, DISC_HOLDOVER, PPS_OUT_PULSE and PPS_OUT_END do

PTP_STEP applies a step that is due, and with none due it has no effect. PPS_IN_EDGE is accepted in ACQUIRE, and in LOCKED within the window; in HOLDOVER it is accepted and under PPS_IN the discipline then goes to ACQUIRE; in LOCKED outside the window it only counts in REJ; in FREE it has no effect, which is the model's choice (log 22). An accepted edge latches local time; under PPS_IN it also records whether the edge lies less than 1 us from the nearest second, and the servo acts. DISC_LOCK in ACQUIRE, where 8 consecutive seconds have each had an offset below 1 us and the last of them is this second or the one before, enters LOCKED; otherwise it has no effect. DISC_HOLDOVER in LOCKED, 3 s or more after the last accepted edge or host rate update, enters HOLDOVER; otherwise it has no effect. Entering another state writes it, fires vector 11 and starts the runs of seconds over. PPS_OUT_PULSE raises PPS_OUT where pulses may start, the mode drives them and WIDTH is not 0; otherwise it has no effect. PPS_OUT_END lowers PPS_OUT. (R59, R60, R61, R62, R63, Table 3-4) -/
def Obligations.TimeIsland : Prop :=
  (∀ (s : State), s.dev.time.stepDue = true → Becomes (.ptpStep) s (s.dev.ptpStep)) ∧
  (∀ (s : State), s.dev.time.stepDue = false → NoEffect (.ptpStep) s) ∧
  (∀ (s : State), s.dev.disc = 1 → Becomes (.ppsInEdge) s (s.dev.ppsAccept)) ∧
  (∀ (s : State), 
    s.dev.disc = 2 → min s.dev.time.ptpNs (1000000000 - s.dev.time.ptpNs) ≤ s.dev.g F.TIM.DISC_CTRL_PPS_WIN * 10 → 
    Becomes (.ppsInEdge) s (s.dev.ppsAccept)) ∧
  (∀ (s : State), 
    s.dev.disc = 2 → s.dev.g F.TIM.DISC_CTRL_PPS_WIN * 10 < min s.dev.time.ptpNs (1000000000 - s.dev.time.ptpNs) → 
    Becomes (.ppsInEdge) s (s.dev.wSat F.TIM.DISC_STAT_REJ 1)) ∧
  (∀ (s : State), s.dev.disc = 3 → s.dev.g F.TIM.DISC_CTRL_SRC = 2 → Becomes (.ppsInEdge) s (s.dev.ppsAccept.discTo 1)) ∧
  (∀ (s : State), s.dev.disc = 3 → s.dev.g F.TIM.DISC_CTRL_SRC ≠ 2 → Becomes (.ppsInEdge) s (s.dev.ppsAccept)) ∧
  (∀ (s : State), s.dev.disc = 0 → NoEffect (.ppsInEdge) s) ∧
  (∀ (d : Dev), d.g F.TIM.DISC_CTRL_SRC ≠ 2 → d.ppsAccept = { d with time := { d.time with ppsCap := d.time.lt } }) ∧
  (∀ (d : Dev) (off sec : Nat), 
    d.g F.TIM.DISC_CTRL_SRC = 2 → off = (if 2 * d.time.ptpNs < 1000000000 then d.time.ptpNs else 1000000000 - d.time.ptpNs) → sec = (if 2 * d.time.ptpNs < 1000000000 then d.time.ptpSec else d.time.ptpSec + 1) → 
    d.ppsAccept = ({ d with time := { ({ d.time with ppsCap := d.time.lt } : Time).sample sec (off < 1000) with updAt := d.time.lt } } : Dev).ppsServo) ∧
  (∀ (s : State), 
    s.dev.disc = 1 → 8 ≤ s.dev.time.okRun → s.dev.time.ptpSec ≤ s.dev.time.okSec + 1 → 
    Becomes (.discLock) s ({ (s.dev.w F.TIM.DISC_STAT_STATE 2).fireVec 11 with time := { s.dev.time with okRun := 0, okSec := 0, updAt := s.dev.time.lt } })) ∧
  (∀ (s : State), (s.dev.disc ≠ 1 ∨ s.dev.time.okRun < 8 ∨ s.dev.time.okSec + 1 < s.dev.time.ptpSec) → NoEffect (.discLock) s) ∧
  (∀ (s : State), 
    s.dev.disc = 2 → s.dev.time.updAt + 960000000 ≤ s.dev.time.lt → 
    Becomes (.discHoldover) s ({ (s.dev.w F.TIM.DISC_STAT_STATE 3).fireVec 11 with time := { s.dev.time with okRun := 0, okSec := 0, updAt := s.dev.time.lt } })) ∧
  (∀ (s : State), (s.dev.disc ≠ 2 ∨ s.dev.time.lt < s.dev.time.updAt + 960000000) → NoEffect (.discHoldover) s) ∧
  (∀ (s : State), 
    s.dev.time.ppsAllowed = true → ppsMode s.dev.mode = true → s.dev.g F.TIM.PPS_OUT_CFG_WIDTH ≠ 0 → 
    Becomes (.ppsOutPulse) s ({ s.dev with pins := { s.dev.pins with ppsOut := true } })) ∧
  (∀ (s : State), 
    (s.dev.time.ppsAllowed = false ∨ ppsMode s.dev.mode = false ∨ s.dev.g F.TIM.PPS_OUT_CFG_WIDTH = 0) → 
    NoEffect (.ppsOutPulse) s) ∧
  (∀ (s : State), Becomes (.ppsOutEnd) s ({ s.dev with pins := { s.dev.pins with ppsOut := false } }))

/-- What READ_CLEAR, LATCHING_READ, COUNTER_HALF_READ and BAR2_ACCESS do

For a read through BAR0 that reaches a powered page with a size and alignment it takes: READ_CLEAR of a block register that is no split register returns the register's word and sets its RC fields to 0, of a register of the common part returns its word, of a whole counter in 8 octets returns the counter; LATCHING_READ of the low half of a split register returns it and holds its other words, and READ_CLEAR of such a word returns what is held; COUNTER_HALF_READ of a low half returns it and holds the high half, of a high half returns what is held and holds nothing after that, and with nothing held returns the counter's own high half, which is the model's choice (log 13). READ_CLEAR of the page 0x1FF of die 0 returns the word of the MSI-X table or of the pending bits. A read of die 7, of a page that no die has, of an unpowered page or of a wrong size or alignment returns 0 and is recorded as the failed access of cause 2, 1, 3 or 4. A BAR2_ACCESS that reads PG_ID or a counter, in 4 or 8 octets, of a powered page whose UREAD is 1 returns it; a read of another register, a read of a page whose UREAD is 0, which also returns 0, and a write to a powered page with a right size are counted in UREAD_DENY_CNT. (R5, R57, R78, R79, R82, R88, R94, Table 4-1) -/
def Obligations.RegisterReads : Prop :=
  (∀ (s : State) (addr : Nat) (p : Page), 
    Readable s.dev addr 4 p → 0x040 ≤ addrOff addr → addrOff addr < 0x800 → s.dev.splitAt addr = none → s.dev.splitHigh addr = false → 
    Becomes (.readClear ⟨addr, 4⟩) s (((fieldsAt p (addrOff addr)).filter (fun x => x.1.acc == .rc)).foldl (fun d x => d.put x.1 p 0 x.2) (s.dev.emit (.readData addr (s.dev.word p (addrOff addr)))))) ∧
  (∀ (s : State) (addr : Nat) (p : Page), 
    Readable s.dev addr 4 p → addrOff addr < 0x040 → 
    Becomes (.readClear ⟨addr, 4⟩) s (s.dev.emit (.readData addr (s.dev.commonWord p (addrOff addr))))) ∧
  (∀ (s : State) (addr : Nat) (p : Page), 
    Readable s.dev addr 8 p → 0x800 ≤ addrOff addr → 
    Becomes (.readClear ⟨addr, 8⟩) s (s.dev.emit (.readData addr (kvGet 0 s.dev.rf.ctrs (addr / 8 * 8))))) ∧
  (∀ (s : State) (addr : Nat) (p : Page) (v : Nat) (his : (List (Nat×Nat))), 
    Readable s.dev addr 4 p → 0x040 ≤ addrOff addr → addrOff addr < 0x800 → s.dev.splitAt addr = some (v, his) → 
    Becomes (.latchingRead addr) s ((s.dev.each his (fun d h => { d with rf := { d.rf with split := kvSet 0 d.rf.split h.1 h.2 } })).emit (.readData addr v))) ∧
  (∀ (s : State) (addr : Nat) (p : Page), 
    Readable s.dev addr 4 p → 0x040 ≤ addrOff addr → addrOff addr < 0x800 → s.dev.splitAt addr = none → s.dev.splitHigh addr = true → 
    Becomes (.readClear ⟨addr, 4⟩) s (s.dev.emit (.readData addr (kvGet 0 s.dev.rf.split addr)))) ∧
  (∀ (s : State) (addr : Nat) (p : Page) (k : Nat), 
    Readable s.dev addr 4 p → 0x800 ≤ addrOff addr → addr % 8 = 0 → k = addr / 8 * 8 → 
    Becomes (.counterHalfRead addr) s (({ s.dev with rf := { s.dev.rf with ctrHi := kvSet (2 ^ 32) s.dev.rf.ctrHi k (kvGet 0 s.dev.rf.ctrs k / 2 ^ 32) } } : Dev).emit (.readData addr (kvGet 0 s.dev.rf.ctrs k % 2 ^ 32)))) ∧
  (∀ (s : State) (addr : Nat) (p : Page) (k : Nat), 
    Readable s.dev addr 4 p → 0x800 ≤ addrOff addr → addr % 8 ≠ 0 → k = addr / 8 * 8 → kvGet (2 ^ 32) s.dev.rf.ctrHi k ≠ 2 ^ 32 → 
    Becomes (.counterHalfRead addr) s (({ s.dev with rf := { s.dev.rf with ctrHi := kvSet (2 ^ 32) s.dev.rf.ctrHi k (2 ^ 32) } } : Dev).emit (.readData addr (kvGet (2 ^ 32) s.dev.rf.ctrHi k)))) ∧
  (∀ (s : State) (addr : Nat) (p : Page) (k : Nat), 
    Readable s.dev addr 4 p → 0x800 ≤ addrOff addr → addr % 8 ≠ 0 → k = addr / 8 * 8 → kvGet (2 ^ 32) s.dev.rf.ctrHi k = 2 ^ 32 → 
    Becomes (.counterHalfRead addr) s (({ s.dev with rf := { s.dev.rf with ctrHi := kvSet (2 ^ 32) s.dev.rf.ctrHi k (2 ^ 32) } } : Dev).emit (.readData addr (kvGet 0 s.dev.rf.ctrs k / 2 ^ 32)))) ∧
  (∀ (s : State) (addr size : Nat), 
    addr < 2 ^ 24 → addrDie addr = 0 → addrPage addr = 0x1FF → s.dev.regionOn 0 = true → accessOk (addrOff addr) size = true → 
    Becomes (.readClear ⟨addr, size⟩) s (s.dev.emit (.readData addr (s.dev.msixWord (addrOff addr) size)))) ∧
  (∀ (s : State) (addr size : Nat), 
    addr < 2 ^ 24 → addrDie addr = 7 → 
    Becomes (.readClear ⟨addr, size⟩) s ((s.dev.failAcc addr 0 2).emit (.readData addr 0))) ∧
  (∀ (s : State) (addr size : Nat), 
    addr < 2 ^ 24 → addrDie addr ≠ 7 → (¬(addrDie addr = 0 ∧ addrPage addr = 0x1FF)) → pageAt (addrDie addr) (addrPage addr) = none → 
    Becomes (.readClear ⟨addr, size⟩) s ((s.dev.failAcc addr 0 1).emit (.readData addr 0))) ∧
  (∀ (s : State) (addr size : Nat) (p : Page), 
    addr < 2 ^ 24 → addrDie addr ≠ 7 → (¬(addrDie addr = 0 ∧ addrPage addr = 0x1FF)) → pageAt (addrDie addr) (addrPage addr) = some p → p.poweredBy s.dev.pwr.powered = false → 
    Becomes (.readClear ⟨addr, size⟩) s ((s.dev.failAcc addr 0 3).emit (.readData addr 0))) ∧
  (∀ (s : State) (addr size : Nat) (p : Page), 
    addr < 2 ^ 24 → addrDie addr ≠ 7 → (¬(addrDie addr = 0 ∧ addrPage addr = 0x1FF)) → pageAt (addrDie addr) (addrPage addr) = some p → p.poweredBy s.dev.pwr.powered = true → accessOk (addrOff addr) size = false → 
    Becomes (.readClear ⟨addr, size⟩) s ((s.dev.failAcc addr 0 4).emit (.readData addr 0))) ∧
  (∀ (s : State) (addr : Nat) (p : Page), 
    Readable s.dev addr 4 p → s.dev.get (pgUread p.tag) p = 1 → addrOff addr = 0 → 
    Becomes (.bar2Access false addr 4) s (s.dev.emit (.readData addr p.id))) ∧
  (∀ (s : State) (addr size : Nat) (p : Page) (v : Nat), 
    Readable s.dev addr size p → s.dev.get (pgUread p.tag) p = 1 → 0x800 ≤ addrOff addr → v = kvGet 0 s.dev.rf.ctrs (p.base + addrOff addr / 8 * 8) → 
    Becomes (.bar2Access false addr size) s (s.dev.emit (.readData addr (if size == 8 then v else if addrOff addr % 8 == 0 then v % 2 ^ 32 else v / 2 ^ 32)))) ∧
  (∀ (s : State) (addr size : Nat) (p : Page), 
    Readable s.dev addr size p → ((s.dev.get (pgUread p.tag) p = 0 ∨ (0 < addrOff addr ∧ addrOff addr < 0x800))) → 
    Becomes (.bar2Access false addr size) s ((s.dev.wSat F.HST.UREAD_DENY_CNT 1).emit (.readData addr 0))) ∧
  (∀ (s : State) (addr size : Nat) (p : Page), 
    Readable s.dev addr size p → 
    Becomes (.bar2Access true addr size) s (s.dev.wSat F.HST.UREAD_DENY_CNT 1))

/-- What REGISTER_WRITE, BLOCK_SOFT_RESET, SOFT_RESET_DONE, PAGE_LOCK and PG_COMMIT do

REGISTER_WRITE to the page 0x1FF of die 0 or 7 is the MSI-X write; to a page that no addressed die has, or of a wrong size or alignment, is the failed access of cause 1 or 4; below offset 0x040 has the effect of the register of the common part; to RSM.CAL_REQ or RSM.RESUME asks for what its bits say; of another register with a command of its own has that command's effect; of any other register is the plain write. A plain write to one page that takes it writes every field at the offset by its access type and then moves what follows the register, but for LIM.LOCK_IDX above 156, which is the failed access of cause 8. Where the page can be written, BLOCK_SOFT_RESET starts the page's soft reset, PAGE_LOCK sets its LOCK, and PG_COMMIT starts its commit; a commit of a page whose commit is in progress is the failed access of cause 7, and one of a page of a halted Route die of cause 9. SOFT_RESET_DONE, where a soft reset of the page is in progress, ends RST_BUSY and drops what the block held, and otherwise has no effect. (R5, R6, R79, R80, R82, R83, R89, R94, Table 4-2, Table 6-8) -/
def Obligations.RegisterWrites : Prop :=
  (∀ (s : State) (addr data size : Nat), 
    addr < 2 ^ 24 → addrPage addr = 0x1FF → ((addrDie addr = 0 ∨ addrDie addr = 7)) → 
    Becomes (.registerWrite addr data size) s (s.dev.msixWrite addr data size)) ∧
  (∀ (s : State) (addr data size : Nat), 
    addr < 2 ^ 24 → addrPage addr ≠ 0x1FF → targets (addrDie addr) (addrPage addr) = [] → 
    Becomes (.registerWrite addr data size) s (s.dev.failAcc addr 0 1)) ∧
  (∀ (s : State) (addr data size : Nat), 
    addr < 2 ^ 24 → addrPage addr ≠ 0x1FF → targets (addrDie addr) (addrPage addr) ≠ [] → accessOk (addrOff addr) size = false → 
    Becomes (.registerWrite addr data size) s (s.dev.failAcc addr 0 4)) ∧
  (∀ (s : State) (addr data size : Nat), 
    addr < 2 ^ 24 → addrPage addr ≠ 0x1FF → targets (addrDie addr) (addrPage addr) ≠ [] → accessOk (addrOff addr) size = true → addrOff addr < 0x040 → 
    Becomes (.registerWrite addr data size) s (s.dev.commonWrite (addrDie addr) (addrPage addr) (addrOff addr) (data % 2 ^ 32))) ∧
  (∀ (s : State) (addr data : Nat), 
    addr < 2 ^ 24 → addrPage addr = rsmPage → targets (addrDie addr) (addrPage addr) ≠ [] → ((addrOff addr = 0x058 ∨ addrOff addr = 0x05C)) → 
    Becomes (.registerWrite addr data 4) s (s.dev.rsmWrite (addrDie addr) (addrOff addr) data)) ∧
  (∀ (s : State) (addr data size : Nat) (f : (State→Answer)), 
    addr < 2 ^ 24 → addrPage addr ≠ 0x1FF → targets (addrDie addr) (addrPage addr) ≠ [] → accessOk (addrOff addr) size = true → 0x040 ≤ addrOff addr → (¬(addrPage addr = rsmPage ∧ (addrOff addr = 0x058 ∨ addrOff addr = 0x05C))) → regCommand (addrDie addr) (addrPage addr) (addrOff addr) (data % 2 ^ 32) = some f → 
    Becomes (.registerWrite addr data size) s (s.dev.via f)) ∧
  (∀ (s : State) (addr data size : Nat), 
    addr < 2 ^ 24 → addrPage addr ≠ 0x1FF → targets (addrDie addr) (addrPage addr) ≠ [] → accessOk (addrOff addr) size = true → 0x040 ≤ addrOff addr → (¬(addrPage addr = rsmPage ∧ (addrOff addr = 0x058 ∨ addrOff addr = 0x05C))) → (regCommand (addrDie addr) (addrPage addr) (addrOff addr) (data % 2 ^ 32)).isNone = true → 
    Becomes (.registerWrite addr data size) s (s.dev.plainWrite (addrDie addr) (addrPage addr) (addrOff addr) (data % 2 ^ 32))) ∧
  (∀ (d : Dev) (die page off data : Nat) (p : Page), 
    Writable d die page p → (¬(p.tag = .LIM ∧ off = F.LIM.LOCK_IDX_IDX.off ∧ 156 < data % 256)) → 
    d.plainWrite die page off data = ((fieldsAt p off).foldl (fun d x => d.writeField p data x) d).afterWrite p off data) ∧
  (∀ (d : Dev) (die page data : Nat) (p : Page), 
    Writable d die page p → p.tag = .LIM → 156 < data % 256 → 
    d.plainWrite die page F.LIM.LOCK_IDX_IDX.off data = d.failAcc (p.base + F.LIM.LOCK_IDX_IDX.off) 0 8) ∧
  (∀ (s : State) (die page : Nat) (p : Page), Writable s.dev die page p → Becomes (.blockSoftReset die page) s (s.dev.softReset p)) ∧
  (∀ (s : State) (die page : Nat) (p : Page), 
    pageAt die page = some p → s.dev.get (pgRstBusy p.tag) p = 1 → 
    Becomes (.softResetDone die page) s ((s.dev.put (pgRstBusy p.tag) p 0).blockFresh p)) ∧
  (∀ (s : State) (die page : Nat), ((∀ p, pageAt die page = some p → s.dev.get (pgRstBusy p.tag) p ≠ 1)) → NoEffect (.softResetDone die page) s) ∧
  (∀ (s : State) (die page : Nat) (p : Page), Writable s.dev die page p → Becomes (.pageLock die page) s (s.dev.put (pgLock p.tag) p 1)) ∧
  (∀ (s : State) (die page : Nat) (p : Page), Writable s.dev die page p → Becomes (.pgCommit die page) s (s.dev.commitGo p)) ∧
  (∀ (d : Dev) (p : Page), d.get (pgCommitBusy p.tag) p = 1 → d.commitGo p = d.failAcc (p.base + 0x020) 0 7) ∧
  (∀ (d : Dev) (p : Page), 
    d.get (pgCommitBusy p.tag) p ≠ 1 → isRoute p.die = true → d.dieHalted p.die = true → 
    d.commitGo p = d.failAcc (p.base + 0x020) 0 9)

/-- What BLOCK_SOFT_RESET, PAGE_LOCK, PG_COMMIT, ERROR_FORCE, REACT_CODE_WRITE and STICKY_CLEAR do where a page cannot take the write

For BLOCK_SOFT_RESET, PAGE_LOCK, PG_COMMIT, ERROR_FORCE, REACT_CODE_WRITE and STICKY_CLEAR: a write to a die and page number that no die implements is the failed access of cause 1. A write to one page that is unpowered or in block soft reset is the failed access of the cause that the page gives, and a write to one locked page that can be reached is the failed access of cause 5, but for STICKY_CLEAR, which clears its bits in a locked page. A failed access changes no field but ACC_ERR's and ACC_ERR_CNT's, and nothing beside the registers. (R75, R77, R79, R82, R89) -/
def Obligations.RegisterWriteFails : Prop :=
  (∀ (s : State) (die page bits data : Nat) (hi : Bool), targets die page = [] →
      Becomes (.blockSoftReset die page) s (s.dev.failAcc (die * 0x200000 + page * 0x1000 + 0x008) 0 1) ∧
      Becomes (.pageLock die page) s (s.dev.failAcc (die * 0x200000 + page * 0x1000 + 0x024) 0 1) ∧
      Becomes (.pgCommit die page) s (s.dev.failAcc (die * 0x200000 + page * 0x1000 + 0x020) 0 1) ∧
      Becomes (.stickyClear die page bits) s (s.dev.failAcc (die * 0x200000 + page * 0x1000 + 0x010) 0 1) ∧
      Becomes (.errorForce die page bits) s (s.dev.failAcc (die * 0x200000 + page * 0x1000 + 0x014) 0 1) ∧
      Becomes (.reactCodeWrite die page hi data) s (s.dev.failAcc (die * 0x200000 + page * 0x1000 + (if hi then 0x01C else 0x018)) 0 1)) ∧
  (∀ (s : State) (die page bits data c : Nat) (hi : Bool) (p : Page), targets die page = [p] → s.dev.pageFault p = some c →
      Becomes (.blockSoftReset die page) s (s.dev.failAcc (p.base + 0x008) 0 c) ∧ Becomes (.pageLock die page) s (s.dev.failAcc (p.base + 0x024) 0 c) ∧
      Becomes (.pgCommit die page) s (s.dev.failAcc (p.base + 0x020) 0 c) ∧ Becomes (.stickyClear die page bits) s (s.dev.failAcc (p.base + 0x010) 0 c) ∧
      Becomes (.errorForce die page bits) s (s.dev.failAcc (p.base + 0x014) 0 c) ∧
      Becomes (.reactCodeWrite die page hi data) s (s.dev.failAcc (p.base + (if hi then 0x01C else 0x018)) 0 c)) ∧
  (∀ (s : State) (die page bits data : Nat) (hi : Bool) (p : Page), Reaches s.dev die page p → s.dev.locked p = true →
      Becomes (.blockSoftReset die page) s (s.dev.failAcc (p.base + 0x008) 0 5) ∧ Becomes (.pageLock die page) s (s.dev.failAcc (p.base + 0x024) 0 5) ∧
      Becomes (.pgCommit die page) s (s.dev.failAcc (p.base + 0x020) 0 5) ∧ Becomes (.errorForce die page bits) s (s.dev.failAcc (p.base + 0x014) 0 5) ∧
      Becomes (.reactCodeWrite die page hi data) s (s.dev.failAcc (p.base + (if hi then 0x01C else 0x018)) 0 5) ∧
      Becomes (.stickyClear die page bits) s (s.dev.stickyClear p bits)) ∧
  (∀ (d : Dev) (addr bar cause : Nat) (f : Fld) (p : Page) (i : Nat),
      (∀ g ∈ [F.HST.ACC_ERR_CNT_CNT, F.HST.ACC_ERR_OFFSET, F.HST.ACC_ERR_BAR, F.HST.ACC_ERR_CAUSE], f.key p i ≠ g.key ⟨.HST, 0, 0⟩ 0) →
      (d.failAcc addr bar cause).get f p i = d.get f p i ∧ { d.failAcc addr bar cause with rf := d.rf } = d)

/-- What ERROR_SOURCE_FIRE, STICKY_CLEAR, ERROR_FORCE, REACT_CODE_WRITE, COLLECTOR_CLEAR, FIRST_CLEAR and ERRN_LATCH_CLEAR do

ERROR_SOURCE_FIRE of a source that a powered page lists takes the source's side action, raises it, and judges the bench unit in whose memory the error occurred; of a source that the page does not list, of an unpowered page or of no page it has no effect. STICKY_CLEAR clears the sticky bits written 1 of a page that can be reached. Of a page that can be written: ERROR_FORCE with injection on counts and raises each listed source named, and with injection off has no effect; REACT_CODE_WRITE sets the codes of one half of the page's sources. Of a reachable FCL page COLLECTOR_CLEAR of the package word, a die word or a region word clears that word's bits as the word's own rule says, and of another offset has no effect. Of an FCL page that can be written: FIRST_CLEAR with bit 0 empties FIRST, and without it has no effect; ERRN_LATCH_CLEAR with bit 0 and no sticky bit of code 5 left clears the latch and the pin follows, and otherwise has no effect. (R81, R510, R511, R512, R513, R514, R515, R516, R517, R520) -/
def Obligations.ErrorRows : Prop :=
  (∀ (s : State) (die page src kind place unit : Nat) (p : Page), 
    pageAt die page = some p → p.poweredBy s.dev.pwr.powered = true → (srcAt p src).isSome = true → 
    Becomes (.errorSourceFire die page src kind place unit) s (((s.dev.errorHits p src kind place).raiseAt p src).memHit p src unit)) ∧
  (∀ (s : State) (die page src kind place unit : Nat), 
    ((∀ p, pageAt die page = some p → (p.poweredBy s.dev.pwr.powered&&(srcAt p src).isSome) = false)) → 
    NoEffect (.errorSourceFire die page src kind place unit) s) ∧
  (∀ (s : State) (die page bits : Nat) (p : Page), Reaches s.dev die page p → Becomes (.stickyClear die page bits) s (s.dev.stickyClear p bits)) ∧
  (∀ (s : State) (die page bits : Nat) (p : Page), 
    Writable s.dev die page p → s.dev.on F.FCL.INJ_EN = true → 
    Becomes (.errorForce die page bits) s (s.dev.each ((bitList 16 bits).filter (fun n => (srcAt p n).isSome)) (fun d n => (d.inc C.FCL.FORCED).raiseAt p n))) ∧
  (∀ (s : State) (die page bits : Nat) (p : Page), 
    Writable s.dev die page p → s.dev.on F.FCL.INJ_EN = false → 
    NoEffect (.errorForce die page bits) s) ∧
  (∀ (s : State) (die page data : Nat) (hi : Bool) (p : Page), 
    Writable s.dev die page p → 
    Becomes (.reactCodeWrite die page hi data) s (s.dev.reactWrite p hi data)) ∧
  (∀ (s : State) (data : Nat), Reaches s.dev 0 0x002 ⟨.FCL, 0, 0⟩ → Becomes (.collectorClear 0x040 data) s (s.dev.clearPkg data)) ∧
  (∀ (s : State) (x data : Nat), 
    Reaches s.dev 0 0x002 ⟨.FCL, 0, 0⟩ → x < 7 → 
    Becomes (.collectorClear (0x044 + 4 * x) data) s (s.dev.clearDie x data)) ∧
  (∀ (s : State) (r data : Nat), 
    Reaches s.dev 0 0x002 ⟨.FCL, 0, 0⟩ → r < 24 → 
    Becomes (.collectorClear (0x060 + 4 * r) data) s (s.dev.clearRegion r data)) ∧
  (∀ (s : State) (off data : Nat), 
    Reaches s.dev 0 0x002 ⟨.FCL, 0, 0⟩ → ((off < 0x040 ∨ 0x0C0 ≤ off ∨ off % 4 ≠ 0)) → 
    NoEffect (.collectorClear off data) s) ∧
  (∀ (s : State) (data : Nat), 
    Writable s.dev 0 0x002 ⟨.FCL, 0, 0⟩ → bitOf data 0 = true → 
    Becomes (.firstClear data) s ((((s.dev.w F.FCL.FIRST_DIE 0).w F.FCL.FIRST_PAGE 0).w F.FCL.FIRST_SRC 0).w F.FCL.FIRST_VALID 0)) ∧
  (∀ (s : State) (data : Nat), Writable s.dev 0 0x002 ⟨.FCL, 0, 0⟩ → bitOf data 0 = false → NoEffect (.firstClear data) s) ∧
  (∀ (s : State) (data : Nat), 
    Writable s.dev 0 0x002 ⟨.FCL, 0, 0⟩ → bitOf data 0 = true → s.dev.code5Left = false → 
    Becomes (.errnLatchClear data) s ((s.dev.w F.FCL.ERRN_LATCH 0).errNFollow)) ∧
  (∀ (s : State) (data : Nat), 
    Writable s.dev 0 0x002 ⟨.FCL, 0, 0⟩ → (bitOf data 0&&!s.dev.code5Left) = false → 
    NoEffect (.errnLatchClear data) s)

/-- What TOKEN_REQUEST, TOKEN_RELEASE, SCRUB_PASS_START, SCRUB_SLICE_DONE and MNT_SCRUB do

TOKEN_REQUEST of an activity 1 to 7 over some region answers the device after the request, and of another activity or of no region has no effect. A request that the mode permits and that is compatible with the holders and the queue is granted and the token registers show it. An internal request that is not granted and that waits in the queue already changes nothing; one that does not wait yet joins the end of the queue and is counted in WAITED. TOKEN_RELEASE answers the device after the release, which changes nothing where the activity does not hold the scope. SCRUB_PASS_START with PERIOD 0 or with a pass under way has no effect; otherwise it adds every powered region to what is to be scrubbed and, where nothing was, goes on to the first. SCRUB_SLICE_DONE of a slice whose token is held counts the corrections, takes the slice off, releases its token and goes on to the next, and then, where a command asked for it and none of its regions is left, finishes that command with OK; with nothing to scrub, or the token not held, it has no effect. MNT_SCRUB, when its command is ready, adds the regions that it names; with a pass under way, or its token not granted, the command waits and owes an interim record, and where the queue is full it ends with RANGE, cause 7. (R525, R526, R527, R528, R529, R531, Table 18-6, Table 18-7) -/
def Obligations.TokenRows : Prop :=
  (∀ (s : State) (act scope arg : Nat), 
    1 ≤ act → act ≤ 7 → scope ≠ 0 → 
    Becomes (.tokenRequest act scope arg) s ((s.dev.requestToken ⟨act, scope, none, arg⟩).1)) ∧
  (∀ (s : State) (act scope arg : Nat), (act = 0 ∨ 7 < act ∨ scope = 0) → NoEffect (.tokenRequest act scope arg) s) ∧
  (∀ (d : Dev) (r : TokenReq), 
    d.grantMode = true → d.mt.grantable d.mt.queue r = true → 
    d.requestToken r = (((d.grant r).showTokens).showMaint r.scope, .granted)) ∧
  (∀ (d : Dev) (act scope arg : Nat), 
    (d.grantMode&&d.mt.grantable d.mt.queue ⟨act, scope, none, arg⟩) = false → d.mt.queue.any (fun q => q.act == act&&q.scope == scope&&q.arg == arg&&q.cmd.isNone) = true → 
    d.requestToken ⟨act, scope, none, arg⟩ = (d, .merged)) ∧
  (∀ (d : Dev) (act scope arg : Nat), 
    (d.grantMode&&d.mt.grantable d.mt.queue ⟨act, scope, none, arg⟩) = false → d.mt.queue.any (fun q => q.act == act&&q.scope == scope&&q.arg == arg&&q.cmd.isNone) = false → 
    d.requestToken ⟨act, scope, none, arg⟩ = (((({ d with mt := { d.mt with queue := d.mt.queue ++ [⟨act, scope, none, arg⟩] } } : Dev).inc C.MNT.WAITED).showTokens).showMaint scope, .queued)) ∧
  (∀ (s : State) (act scope : Nat), Becomes (.tokenRelease act scope) s (s.dev.releaseToken act scope)) ∧
  (∀ (d : Dev) (act scope : Nat), d.holds act scope = false → d.releaseToken act scope = d) ∧
  (∀ (s : State), (s.dev.g F.MNT.SCRUB_CFG_PERIOD = 0 ∨ s.dev.mt.scrubTodo.any (fun e => e.2.isNone) = true) → NoEffect (.scrubPassStart) s) ∧
  (∀ (s : State) (pass : (List (Nat×(Option Nat)))), 
    s.dev.g F.MNT.SCRUB_CFG_PERIOD ≠ 0 → s.dev.mt.scrubTodo = [] → pass = ((List.range 24).filter (fun r => s.dev.regionOn r)).map (fun r => (r, none)) → 
    Becomes (.scrubPassStart) s (({ s.dev with mt := { s.dev.mt with scrubTodo := pass } } : Dev).scrubNext)) ∧
  (∀ (s : State) (pass : (List (Nat×(Option Nat)))), 
    s.dev.g F.MNT.SCRUB_CFG_PERIOD ≠ 0 → s.dev.mt.scrubTodo ≠ [] → s.dev.mt.scrubTodo.any (fun e => e.2.isNone) = false → pass = ((List.range 24).filter (fun r => s.dev.regionOn r)).map (fun r => (r, none)) → 
    Becomes (.scrubPassStart) s ({ s.dev with mt := { s.dev.mt with scrubTodo := s.dev.mt.scrubTodo ++ pass } })) ∧
  (∀ (s : State) (corrected r : Nat) (rest : (List (Nat×(Option Nat)))), 
    s.dev.mt.scrubTodo = (r, none) :: rest → s.dev.holds 4 (2 ^ r) = true → 
    Becomes (.scrubSliceDone corrected) s (((({ s.dev with mt := { s.dev.mt with scrubTodo := rest } } : Dev).addc C.MNT.SCRUB_CORR corrected).releaseToken 4 (2 ^ r)).scrubNext)) ∧
  (∀ (s : State) (corrected r id : Nat) (rest : (List (Nat×(Option Nat)))), 
    s.dev.mt.scrubTodo = (r, some id) :: rest → s.dev.holds 4 (2 ^ r) = true → rest.any (fun e => e.2 == some id) = true → 
    Becomes (.scrubSliceDone corrected) s (((({ s.dev with mt := { s.dev.mt with scrubTodo := rest } } : Dev).addc C.MNT.SCRUB_CORR corrected).releaseToken 4 (2 ^ r)).scrubNext)) ∧
  (∀ (s : State) (corrected r id : Nat) (rest : (List (Nat×(Option Nat)))), 
    s.dev.mt.scrubTodo = (r, some id) :: rest → s.dev.holds 4 (2 ^ r) = true → rest.any (fun e => e.2 == some id) = false → 
    Becomes (.scrubSliceDone corrected) s ((((({ s.dev with mt := { s.dev.mt with scrubTodo := rest } } : Dev).addc C.MNT.SCRUB_CORR corrected).releaseToken 4 (2 ^ r)).scrubNext).finish id { tryM := 4, okM := 4 })) ∧
  (∀ (s : State) (corrected : Nat), 
    ((∀ r ∈ s.dev.mt.scrubTodo.head?, s.dev.holds 4 (2 ^ r.1) = false)) → 
    NoEffect (.scrubSliceDone corrected) s) ∧
  (∀ (s : State) (id : Nat) (c : Cmd), 
    Ready s.dev 0x0803 id c noRange → 
    Becomes (.mntScrub id) s ((s.dev.scrubHost c (c.par 24 4 % 2 ^ 24)).1.reply id (s.dev.scrubHost c (c.par 24 4 % 2 ^ 24)).2)) ∧
  (∀ (d : Dev) (c : Cmd) (mask : Nat) (mine : (List (Nat×(Option Nat)))), 
    mine = (bitList 24 mask).map (fun y => (y, some c.id)) → d.mt.scrubTodo ≠ [] → d.mt.scrubTodo.any (fun e => e.2 == some c.id) = false → 
    d.scrubHost c mask = ((({ d with mt := { d.mt with scrubTodo := d.mt.scrubTodo ++ mine } } : Dev).setCmd c.id (fun c => { c with stage := .waiting, interim := true })), c.later)) ∧
  (∀ (d : Dev) (c : Cmd) (mask r : Nat) (mine : (List (Nat×(Option Nat)))), 
    mine = (bitList 24 mask).map (fun y => (y, some c.id)) → d.mt.scrubTodo = [] → r = (bitList 24 mask).headD 0 → (d.requestToken ⟨4, 2 ^ r, some c.id, r⟩).2 = .granted → 
    d.scrubHost c mask = (((d.requestToken ⟨4, 2 ^ r, some c.id, r⟩).1.scrubAdd mine).w F.MNT.SCRUB_STAT_NEXT r, c.later)) ∧
  (∀ (d : Dev) (c : Cmd) (mask r : Nat) (mine : (List (Nat×(Option Nat)))), 
    mine = (bitList 24 mask).map (fun y => (y, some c.id)) → d.mt.scrubTodo = [] → r = (bitList 24 mask).headD 0 → (d.requestToken ⟨4, 2 ^ r, some c.id, r⟩).2 = .queued → 
    d.scrubHost c mask = ((((d.requestToken ⟨4, 2 ^ r, some c.id, r⟩).1.scrubAdd mine).w F.MNT.SCRUB_STAT_NEXT r).setCmd c.id (fun c => { c with stage := .waiting, interim := true }), c.later)) ∧
  (∀ (d : Dev) (c : Cmd) (mask r : Nat), 
    d.mt.scrubTodo = [] → r = (bitList 24 mask).headD 0 → (d.requestToken ⟨4, 2 ^ r, some c.id, r⟩).2 = .full → 
    d.scrubHost c mask = ((d.requestToken ⟨4, 2 ^ r, some c.id, r⟩).1, c.bad stRange 7))

/-- What BEN_SUBST, SUBSTITUTION_SWITCHOVER and BEN_READ do

BEN_SUBST, when its command is ready (an active unit with a spare, or its tokens granted already), asks for the substitution's tokens: where they are granted the device after the grant is answered and the command stays in flight. SUBSTITUTION_SWITCHOVER of a unit whose substitution holds its tokens answers the device after the switch-over, and a commit of the block that was held back is checked; but of a channel unit that is receiving it has no effect, and of a lane that serves an open link, with its first spare good, it starts the lane's swap; of a unit whose substitution holds no token it has no effect. The switch-over of a unit that is not active any more clears HELD and BUSY, releases the tokens, and ends a command that asked for it with RANGE, cause 1. BEN_READ, when its command is ready, writes one record of 16 octets for each unit named to the data buffer and ends with OK. (R456, R521, R522, R523, R531, Table 18-4, Table 18-10) -/
def Obligations.BenchRows : Prop :=
  (∀ (s : State) (id : Nat) (c : Cmd) (t x i : Nat), 
    Ready s.dev 0x0801 id c (fun d c => if d.cmdHolds c.id then none else if unitExists (c.par 24 1) (c.par 25 1) (c.par 28 4)&&(d.unit (c.par 24 1) (c.par 25 1) (c.par 28 4)).state == .active then (if (d.sparesFor (c.par 24 1) (c.par 25 1) (c.par 28 4)).isEmpty then some 2 else none) else some 1) → t = c.par 24 1 → x = c.par 25 1 → i = c.par 28 4 → 
    Becomes (.benSubst id) s ((s.dev.cmdToken c 2 (substScope t x i) (substArg t x i 2) (fun d => (d, c.later))).1.reply id (s.dev.cmdToken c 2 (substScope t x i) (substArg t x i 2) (fun d => (d, c.later))).2)) ∧
  (∀ (s : State) (id : Nat) (c : Cmd) (r : TokenReq), 
    Ready s.dev 0x0801 id c (fun d c => if d.cmdHolds c.id then none else if unitExists (c.par 24 1) (c.par 25 1) (c.par 28 4)&&(d.unit (c.par 24 1) (c.par 25 1) (c.par 28 4)).state == .active then (if (d.sparesFor (c.par 24 1) (c.par 25 1) (c.par 28 4)).isEmpty then some 2 else none) else some 1) → s.dev.cmdHolds c.id = false → r = ⟨2, substScope (c.par 24 1) (c.par 25 1) (c.par 28 4), some c.id, substArg (c.par 24 1) (c.par 25 1) (c.par 28 4) 2⟩ → s.dev.grantMode = true → s.dev.mt.grantable s.dev.mt.queue r = true → 
    Becomes (.benSubst id) s (((s.dev.grant r).showTokens).showMaint r.scope)) ∧
  (∀ (s : State) (type die old : Nat) (sparesOk : (List Bool)) (r : TokenReq), 
    s.dev.mt.held.find? (fun r => r.act == 2&&r.arg / 2 ^ 22 == type * 8 + die&&r.arg % 2 ^ 20 == old) = some r → ((type = 2 → s.dev.unitBusy die old = false)) → ((type = 5 → (s.dev.laneServes (old / 3) (old % 3)&&(s.dev.unit 5 die old).state == .active&&sparesOk.headD true) = false)) → 
    Becomes (.substitutionSwitchover type die old sparesOk) s ((s.dev.switchOver type die old (r.arg / 2 ^ 20 % 4) r.cmd sparesOk).checkDeferred (unitPage type die old))) ∧
  (∀ (s : State) (die old : Nat) (sparesOk : (List Bool)) (r : TokenReq), 
    s.dev.mt.held.find? (fun r => r.act == 2&&r.arg / 2 ^ 22 == 2 * 8 + die&&r.arg % 2 ^ 20 == old) = some r → s.dev.unitBusy die old = true → 
    NoEffect (.substitutionSwitchover 2 die old sparesOk) s) ∧
  (∀ (s : State) (die old : Nat) (sparesOk : (List Bool)) (r : TokenReq), 
    s.dev.mt.held.find? (fun r => r.act == 2&&r.arg / 2 ^ 22 == 5 * 8 + die&&r.arg % 2 ^ 20 == old) = some r → (s.dev.laneServes (old / 3) (old % 3)&&(s.dev.unit 5 die old).state == .active&&sparesOk.headD true) = true → 
    Becomes (.substitutionSwitchover 5 die old sparesOk) s (s.dev.laneSet (old / 3) (old % 3))) ∧
  (∀ (s : State) (type die old : Nat) (sparesOk : (List Bool)), 
    s.dev.mt.held.find? (fun r => r.act == 2&&r.arg / 2 ^ 22 == type * 8 + die&&r.arg % 2 ^ 20 == old) = none → 
    NoEffect (.substitutionSwitchover type die old sparesOk) s) ∧
  (∀ (d : Dev) (type die old cause : Nat) (cmd : (Option Nat)) (sparesOk : (List Bool)), 
    (d.unit type die old).state ≠ .active → 
    d.switchOver type die old cause cmd sparesOk = cmd.elim (((d.put (pgMaintHeld (unitPage type die old).tag) (unitPage type die old) 0).w F.BEN.STAT_BUSY 0).releaseToken 2 (substScope type die old)) (fun id => (((d.put (pgMaintHeld (unitPage type die old).tag) (unitPage type die old) 0).w F.BEN.STAT_BUSY 0).releaseToken 2 (substScope type die old)).finish id { tryM := 4, okM := 0, fail := stRange, result := 1 })) ∧
  (∀ (d : Dev) (type die old cause : Nat) (cmd : (Option Nat)) (sparesOk : (List Bool)), 
    (d.unit type die old).state = .active → 
    d.switchOver type die old cause cmd sparesOk = d.switchActive type die old cause cmd sparesOk) ∧
  (∀ (s : State) (id : Nat) (c : Cmd), 
    Ready s.dev 0x0802 id c (fun _ c => if 4096 < c.cnt||c.len != 16 * c.cnt then some 0 else if (unitDies (c.par 24 1)).contains (c.par 25 1)&&c.par 28 4 + c.cnt ≤ unitCount (c.par 24 1) then none else some 1) → 
    BecomesWith (.benRead id false) s (s.dev.finish id c.ok)
      ([(c.addr, (List.range c.cnt).flatMap (fun k => s.dev.benchRecord (s.dev.unit (c.par 24 1) (c.par 25 1) (c.par 28 4 + k))))]))

/-- What DOORBELL, RING_RESUME, CQ_HEAD_WRITE, COMMAND_FETCH, COMPLETION_WRITE, CQ_IRQ_TIME and CQ_STALL_TIMEOUT do

Where the page HST can be written, DOORBELL sets a ring's CR_TAIL, RING_RESUME clears its HALT, for a ring below 4, and CQ_HEAD_WRITE sets CQ_HEAD. COMMAND_FETCH with no fetching, no such ring, or a ring that gives nothing has no effect; of a ring that is ready: a read error halts it, shows cause 1 and fires vector 1; where an addressed die has no room CR_STAT names it; where another ring's turn it is, it has no effect; else the visit is counted, CR_HEAD advances and the command is in flight. COMPLETION_WRITE has no effect with no such command, while its events' journal records wait, or where neither an interim nor a final record is due; an interim record is written where the ring has room, and is dropped for a mailbox command and after a host link reset; a finished command's slot is released, its record written at the ring's tail where the ring has room and none of its order waits, to MBOX_CPL for the mailbox, and not at all after a host link reset or with NO_CPL on OK, which the IRQ flag does not change (model's choice, log 15); a write error loses the record and raises HOST_LINK. CQ_IRQ_TIME with TIME on and records unsignalled fires vector 0, CQ_STALL_TIMEOUT with CQ_STALL on and the ring full fires vector 1; otherwise they have no effect. (R95, R96, R97, R98, R99, R100, R105, R106, R490, R626) -/
def Obligations.RingRows : Prop :=
  (∀ (s : State) (ring idx : Nat), 
    Writable s.dev 0 0x006 ⟨.HST, 0, 0⟩ → ring < 4 → 
    Becomes (.doorbell ring idx) s (s.dev.w F.HST.CR_TAIL_IDX idx 0 0 ring)) ∧
  (∀ (s : State) (ring : Nat), 
    Writable s.dev 0 0x006 ⟨.HST, 0, 0⟩ → ring < 4 → 
    Becomes (.ringResume ring) s (s.dev.w F.HST.CR_STAT_HALT 0 0 0 ring)) ∧
  (∀ (s : State) (cnt : Nat), Writable s.dev 0 0x006 ⟨.HST, 0, 0⟩ → Becomes (.cqHeadWrite cnt) s (s.dev.w F.HST.CQ_HEAD_CNT cnt)) ∧
  (∀ (s : State) (ring : Nat) (er : Bool), 
    (s.dev.fetching = false ∨ 4 ≤ ring ∨ s.dev.ringReady ring = false) → 
    NoEffect (.commandFetch ring er) s) ∧
  (∀ (s : State) (ring : Nat), 
    s.dev.fetching = true → ring < 4 → s.dev.ringReady ring = true → 
    Becomes (.commandFetch ring true) s (((s.dev.w F.HST.CR_STAT_HALT 1 0 0 ring).w F.HST.CR_STAT_CAUSE 1 0 0 ring).fireVec 1)) ∧
  (∀ (s : State) (ring die : Nat), 
    s.dev.fetching = true → ring < 4 → s.dev.ringReady ring = true → s.dev.fullDie (s.dev.headCmd s.host ring) = some die → 
    Becomes (.commandFetch ring false) s (s.dev.w F.HST.CR_STAT_STALL_DIE (die + 1) 0 0 ring)) ∧
  (∀ (s : State) (ring : Nat), 
    s.dev.fetching = true → ring < 4 → s.dev.ringReady ring = true → s.dev.fullDie (s.dev.headCmd s.host ring) = none → s.dev.nextRing s.host ≠ some ring → 
    NoEffect (.commandFetch ring false) s) ∧
  (∀ (s : State) (ring left : Nat), 
    s.dev.fetching = true → ring < 4 → s.dev.ringReady ring = true → s.dev.fullDie (s.dev.headCmd s.host ring) = none → s.dev.nextRing s.host = some ring → left = (if s.dev.hl.visit == ring&&s.dev.hl.visitLeft != 0 then s.dev.hl.visitLeft else s.dev.weight ring) → 
    Becomes (.commandFetch ring false) s ((((({ s.dev with hl := { s.dev.hl with visit := ring, visitLeft := left - 1 } } : Dev).w F.HST.CR_STAT_STALL_DIE 0 0 0 ring).w F.HST.CR_HEAD_IDX (s.dev.g F.HST.CR_HEAD_IDX 0 0 ring + 1) 0 0 ring).dispatch (s.dev.headCmd s.host ring)))) ∧
  (∀ (s : State) (id : Nat) (er : Bool), s.dev.cmd id = none → NoEffect (.completionWrite id er) s) ∧
  (∀ (s : State) (id : Nat) (er : Bool) (c : Cmd), 
    s.dev.cmd id = some c → ((c.evs.any (fun e => s.dev.recordWaits e.1 e.2) = true ∨ (c.interim = false ∧ c.stage ≠ .finished) ∨ (c.interim = true ∧ c.ring ≠ 4 ∧ c.discard = false ∧ s.dev.cqRoom = false))) → 
    NoEffect (.completionWrite id er) s) ∧
  (∀ (s : State) (id : Nat) (er : Bool) (c : Cmd), 
    s.dev.cmd id = some c → c.evs.any (fun e => s.dev.recordWaits e.1 e.2) = false → c.interim = true → ((c.ring = 4 ∨ c.discard = true)) → 
    Becomes (.completionWrite id er) s (s.dev.setCmd id (fun c => { c with interim := false }))) ∧
  (∀ (s : State) (id : Nat) (c : Cmd), 
    s.dev.cmd id = some c → c.evs.any (fun e => s.dev.recordWaits e.1 e.2) = false → c.interim = true → c.ring ≠ 4 → c.discard = false → s.dev.cqRoom = true → 
    BecomesWith (.completionWrite id false) s ((s.dev.setCmd id (fun c => { c with interim := false })).recordWritten false)
      ([(s.dev.cqAddr, c.record stBusy 0 c.units 0 true s.dev.cqPhase)])) ∧
  (∀ (s : State) (id : Nat) (c : Cmd), 
    s.dev.cmd id = some c → c.evs.any (fun e => s.dev.recordWaits e.1 e.2) = false → c.interim = true → c.ring ≠ 4 → c.discard = false → s.dev.cqRoom = true → 
    Becomes (.completionWrite id true) s ((s.dev.setCmd id (fun c => { c with interim := false })).raise E.FCL.HOST_LINK)) ∧
  (∀ (s : State) (id : Nat) (c : Cmd) (er : Bool), 
    s.dev.cmd id = some c → c.evs.any (fun e => s.dev.recordWaits e.1 e.2) = false → c.interim = false → c.stage = .finished → c.ring = 4 → 
    Becomes (.completionWrite id er) s ((s.dev.mailboxDone c).releaseSlot id)) ∧
  (∀ (s : State) (id : Nat) (c : Cmd) (er : Bool), 
    s.dev.cmd id = some c → c.evs.any (fun e => s.dev.recordWaits e.1 e.2) = false → c.interim = false → c.stage = .finished → c.ring ≠ 4 → ((c.discard = true ∨ (bitOf c.flags 1&&c.cpl.status == stOk) = true)) → 
    Becomes (.completionWrite id er) s (s.dev.releaseSlot id)) ∧
  (∀ (s : State) (id : Nat) (c : Cmd) (er : Bool), 
    s.dev.cmd id = some c → c.evs.any (fun e => s.dev.recordWaits e.1 e.2) = false → c.interim = false → c.stage = .finished → c.ring ≠ 4 → c.discard = false → (bitOf c.flags 1&&c.cpl.status == stOk) = false → ((s.dev.cqRoom = false ∨ s.dev.orderedBehind c = true)) → 
    NoEffect (.completionWrite id er) s) ∧
  (∀ (s : State) (id : Nat) (c : Cmd), 
    s.dev.cmd id = some c → c.evs.any (fun e => s.dev.recordWaits e.1 e.2) = false → c.interim = false → c.stage = .finished → c.ring ≠ 4 → c.discard = false → (bitOf c.flags 1&&c.cpl.status == stOk) = false → s.dev.cqRoom = true → s.dev.orderedBehind c = false → 
    BecomesWith (.completionWrite id false) s ((s.dev.releaseSlot id).recordWritten (bitOf c.flags 2))
      ([(s.dev.cqAddr, c.record c.cpl.status c.cpl.unitOk c.cpl.unitTry c.cpl.result false s.dev.cqPhase)])) ∧
  (∀ (s : State) (id : Nat) (c : Cmd), 
    s.dev.cmd id = some c → c.evs.any (fun e => s.dev.recordWaits e.1 e.2) = false → c.interim = false → c.stage = .finished → c.ring ≠ 4 → c.discard = false → (bitOf c.flags 1&&c.cpl.status == stOk) = false → s.dev.cqRoom = true → s.dev.orderedBehind c = false → 
    Becomes (.completionWrite id true) s ((s.dev.releaseSlot id).raise E.FCL.HOST_LINK)) ∧
  (∀ (s : State), 
    s.dev.g F.HST.CQ_IRQ_TIME ≠ 0 → s.dev.hl.unsignalled ≠ 0 → 
    Becomes (.cqIrqTime) s (({ s.dev with hl := { s.dev.hl with unsignalled := 0 } } : Dev).fireVec 0)) ∧
  (∀ (s : State), (s.dev.g F.HST.CQ_IRQ_TIME = 0 ∨ s.dev.hl.unsignalled = 0) → NoEffect (.cqIrqTime) s) ∧
  (∀ (s : State), s.dev.g F.HST.CQ_STALL_MS ≠ 0 → s.dev.cqRoom = false → Becomes (.cqStallTimeout) s (s.dev.fireVec 1)) ∧
  (∀ (s : State), (s.dev.g F.HST.CQ_STALL_MS = 0 ∨ s.dev.cqRoom = true) → NoEffect (.cqStallTimeout) s)

/-- What HOST_CMD, NOP and MBOX_GO do

HOST_CMD with no such command, or of one that is not the next of the captain's lane on the die, has no effect; where the die is up, the member no SHADOW and the command may not take its place now, it waits, and where the journal alone holds it back that is counted; otherwise the command takes its place on the die. In SERVICE, of the only command in flight, addressed to one Route die that is up, with no early check that fails and nothing waiting in the mailbox, the command is then sequenced with the die's number in its SEQ, and the maintenance state, the log, host memory and the queue are unchanged. NOP, when its command is ready, ends with the addressed units, of which those that are up succeed and the others fail with UNIT_DOWN. Where the page CPT can be written, MBOX_GO without bit 0 has no effect; with BUSY set it counts a rejection; before boot has finished, or outside RECOVER with no fetching, it has no effect; on a fetching device outside RECOVER it sets BUSY, clears DONE, counts, and the sixteen words wait as a command, which goes into flight where every die that it addresses has room. (R97, R98, R101, R102, R339, R488, R491, R496, R535, R577, R632) -/
def Obligations.CommandRows : Prop :=
  (∀ (s : State) (id die : Nat), s.dev.cmd id = none → NoEffect (.hostCmd id die) s) ∧
  (∀ (s : State) (id die : Nat) (c : Cmd), s.dev.cmd id = some c → s.dev.hostNext id die c = false → NoEffect (.hostCmd id die) s) ∧
  (∀ (s : State) (id die : Nat) (c : Cmd), 
    s.dev.cmd id = some c → s.dev.hostNext id die c = true → s.dev.dieUp die = true → s.dev.mode ≠ mShadow → s.dev.mayPlace die 2 = false → 
    Becomes (.hostCmd id die) s (s.dev.turned die 2)) ∧
  (∀ (s : State) (id die : Nat) (c : Cmd), 
    s.dev.cmd id = some c → s.dev.hostNext id die c = true → ((s.dev.dieUp die = true → s.dev.mode ≠ mShadow → s.dev.mayPlace die 2 = true)) → 
    Becomes (.hostCmd id die) s (s.dev.hostTake s.host id die c)) ∧
  (∀ (s : State) (id die : Nat) (c : Cmd), 
    Working s → s.dev.hl.inflight = [c] → s.dev.hl.mboxWait = none → c.id = id → isRoute die = true → c.stage = .fetched → c.toSeq = 2 ^ (die - 1) → c.dies = 2 ^ (die - 1) → c.early = none → c.evs = [] → s.dev.dieUp die = true → s.dev.mode = mService → s.dev.mayPlace die 2 = true → 
    Completes (.hostCmd id die) s (fun t => t.dev.hl.inflight = [{ c with toSeq := 0, stage := .sequenced, seq := (s.dev.place die 2 3).seqNow die % 2 ^ 32, evs := [(die, (s.dev.place die 2 3).seqNow die)] }] ∧ t.dev.mt = s.dev.mt ∧ t.dev.log = s.dev.log ∧ t.host = s.host ∧ t.pending = s.pending)) ∧
  (∀ (s : State) (id : Nat) (c : Cmd), 
    Ready s.dev 0x0001 id c noRange → 
    Becomes (.nop id) s (s.dev.finish id { tryM := c.target, okM := ofBits ((bitList 3 c.target).filter (fun b => if b == 2 then true else s.dev.dieUp (b + 1))), fail := stDown })) ∧
  (∀ (s : State) (data : Nat), Writable s.dev 0 0x000 ⟨.CPT, 0, 0⟩ → bitOf data 0 = false → NoEffect (.mboxGo data) s) ∧
  (∀ (s : State) (data : Nat), 
    Writable s.dev 0 0x000 ⟨.CPT, 0, 0⟩ → bitOf data 0 = true → s.dev.on F.CPT.MBOX_STAT_BUSY = true → 
    Becomes (.mboxGo data) s (s.dev.inc C.CPT.MBOX_REJECT)) ∧
  (∀ (s : State) (data : Nat), 
    Writable s.dev 0 0x000 ⟨.CPT, 0, 0⟩ → bitOf data 0 = true → s.dev.on F.CPT.MBOX_STAT_BUSY = false → ((s.dev.booted = false ∨ (s.dev.mode ≠ mRecover ∧ s.dev.fetching = false))) → 
    NoEffect (.mboxGo data) s) ∧
  (∀ (s : State) (data : Nat) (c : Cmd) (d1 : Dev), 
    Writable s.dev 0 0x000 ⟨.CPT, 0, 0⟩ → bitOf data 0 = true → s.dev.on F.CPT.MBOX_STAT_BUSY = false → s.dev.booted = true → s.dev.mode ≠ mRecover → s.dev.fetching = true → c = s.dev.viaEngine { id := s.dev.hl.nextId, ring := 4, bytes := (List.range 16).flatMap (fun w => toLE 4 (s.dev.g F.CPT.MBOX_CMD_W 0 0 w)), stage := .fetched, toSeq := 0, seq := 0, discard := false, interim := false, cpl := ⟨0, 0, 0, 0⟩ } → d1 = ((s.dev.w F.CPT.MBOX_STAT_BUSY 1).w F.CPT.MBOX_STAT_DONE 0).inc C.CPT.MBOX_CMDS → 
    Becomes (.mboxGo data) s (({ d1 with hl := { d1.hl with mboxWait := some c } } : Dev).mboxTry)) ∧
  (∀ (d : Dev) (c : Cmd), 
    d.hl.mboxWait = some c → d.fullDie c = none → 
    d.mboxTry = ({ d with hl := { d.hl with mboxWait := none } } : Dev).dispatch { c with id := d.hl.nextId }) ∧
  (∀ (d : Dev) (c : Cmd), d.hl.mboxWait = some c → (d.fullDie c).isSome = true → d.mboxTry = d)

/-- What MODE_REQ_SERVICE, MODE_REQ_BRINGUP, MODE_REQ_QUIESCE, MODE_REQ_DOZE, MODE_ENTERED and QUIESCE_MAX_EXPIRY do

Where the page BTL can be written, MODE_REQ_SERVICE, BRINGUP, QUIESCE and DOZE stage their mode as TARGET and start the page's commit. MODE_ENTERED of a booted device in a transition, one to DOZE only while its entry is under way, completes the transition and then does what the twin state asks for; before boot has finished, with no transition, or in a takeover that has not reached its fourth step, it has no effect. To complete a transition to DOZE is to end the steps of DOZE entry, gate the regions and enter DOZE; one that ends a wake enters the mode, and WAKE_N is released where a configuration request has come; any other enters the mode. To enter a mode logs it with the mode before and the trigger and then starts the mode. QUIESCE_MAX_EXPIRY in QUIESCE with a limit, no transition, no activation and no formation logs the expiry and starts the transition to SERVICE, and otherwise has no effect. (R83, R125, R126, R127, R128, R129, R131, Table 5-6, Table 17-6) -/
def Obligations.ModeRequests : Prop :=
  (∀ (s : State), 
    Writable s.dev 0 0x004 ⟨.BTL, 0, 0⟩ → 
    Becomes (.modeReqService) s ((s.dev.putS F.BTL.MODE_REQ_TARGET ⟨.BTL, 0, 0⟩ 2).commitGo ⟨.BTL, 0, 0⟩)) ∧
  (∀ (s : State), 
    Writable s.dev 0 0x004 ⟨.BTL, 0, 0⟩ → 
    Becomes (.modeReqBringup) s ((s.dev.putS F.BTL.MODE_REQ_TARGET ⟨.BTL, 0, 0⟩ 1).commitGo ⟨.BTL, 0, 0⟩)) ∧
  (∀ (s : State), 
    Writable s.dev 0 0x004 ⟨.BTL, 0, 0⟩ → 
    Becomes (.modeReqQuiesce) s ((s.dev.putS F.BTL.MODE_REQ_TARGET ⟨.BTL, 0, 0⟩ 5).commitGo ⟨.BTL, 0, 0⟩)) ∧
  (∀ (s : State), 
    Writable s.dev 0 0x004 ⟨.BTL, 0, 0⟩ → 
    Becomes (.modeReqDoze) s ((s.dev.putS F.BTL.MODE_REQ_TARGET ⟨.BTL, 0, 0⟩ 4).commitGo ⟨.BTL, 0, 0⟩)) ∧
  (∀ (s : State) (m : Nat), 
    m = s.dev.g F.BTL.BOOT_STAT_TARGET → s.dev.booted = true → s.dev.on F.BTL.BOOT_STAT_TRANS = true → ((m = mDoze → s.dev.dozeEntering = true)) → ((s.dev.twin = 5 → s.dev.tw.step = 4)) → 
    Becomes (.modeEntered) s (s.dev.completeTrans.twinEntered m)) ∧
  (∀ (s : State), 
    (s.dev.booted = false ∨ s.dev.on F.BTL.BOOT_STAT_TRANS = false ∨ (s.dev.twin = 5 ∧ s.dev.tw.step ≠ 4) ∨ (s.dev.g F.BTL.BOOT_STAT_TARGET = mDoze ∧ s.dev.dozeEntering = false)) → 
    NoEffect (.modeEntered) s) ∧
  (∀ (d : Dev), d.g F.BTL.BOOT_STAT_TARGET = mDoze → d.completeTrans = (d.dozeTo 5).dozeGate.enterMode mDoze) ∧
  (∀ (d : Dev) (m : Nat), m = d.g F.BTL.BOOT_STAT_TARGET → m ≠ mDoze → d.ms.dozeStep ≠ 7 → d.completeTrans = d.enterMode m) ∧
  (∀ (d : Dev) (m : Nat) (d1 : Dev), 
    m = d.g F.BTL.BOOT_STAT_TARGET → m ≠ mDoze → d.ms.dozeStep = 7 → d1 = ({ d with ms := { d.ms with dozeStep := 0 } } : Dev).enterMode m → 
    d.completeTrans = if d1.ms.cfgSeen = true then { d1 with pins := { d1.pins with wakeNLow := false } } else d1) ∧
  (∀ (d : Dev) (m : Nat), d.enterMode m = (d.logRec 0x0102 1 0 (toLE 1 d.mode ++ toLE 1 m ++ toLE 1 d.ms.trigger)).enterNow m) ∧
  (∀ (s : State), 
    s.dev.mode = mQuiesce → s.dev.on F.BTL.BOOT_STAT_TRANS = false → s.dev.g F.BTL.QUIESCE_MAX_SEC ≠ 0 → s.dev.on F.UPD.STAT_ACT_BUSY = false → s.dev.twin ≠ 6 → 
    Becomes (.quiesceMaxExpiry) s ((s.dev.logRec 0x0402 1 0 (toLE 4 (s.dev.g F.BTL.QUIESCE_MAX_SEC))).startTrans mService 1)) ∧
  (∀ (s : State), 
    (s.dev.mode ≠ mQuiesce ∨ s.dev.on F.BTL.BOOT_STAT_TRANS = true ∨ s.dev.g F.BTL.QUIESCE_MAX_SEC = 0 ∨ s.dev.on F.UPD.STAT_ACT_BUSY = true ∨ s.dev.twin = 6) → 
    NoEffect (.quiesceMaxExpiry) s)

/-- What DOZE_WAKE, DOZE_TIMER_EXPIRY, CAN_BUS_WAKE and WAKE_N_RELEASE do

In DOZE, DOZE_WAKE of a GPIO that DOZE_GPIO enables, at the level that POL names, and of PERST_N, and DOZE_TIMER_EXPIRY with a time set latch their source in WAKE_CAUSE and wake the device. While DOZE entry is under way the GPIO and PERST_N latch their source and undo the entry, and in any other state they have no effect; a GPIO that is not enabled or at the other level never has an effect, nor has the timer outside DOZE or with no time set. Of a bus, DOZE_WAKE in DOZE and from DOZE entry step 4 on, of an event that the bus is armed for and that an entry of the wake map matches, latches the bus, records the entry and frame, and wakes the device or undoes the entry; otherwise it has no effect. CAN_BUS_WAKE acts as DOZE_WAKE of that bus in DOZE and from DOZE entry step 4 on; otherwise it wakes a controller that is armed for the event, and has no effect on another. WAKE_N_RELEASE notes that a configuration request has come, and also releases WAKE_N where it is low and the previous mode has been entered. (R130, R131, R433, R443, R444, Table 5-7, Table 5-8, Table 5-9) -/
def Obligations.WakeRows : Prop :=
  (∀ (s : State) (n : Nat) (high : Bool) (cal : CalEnv), 
    s.dev.ms.dozeStep = 6 → bitOf (s.dev.g F.BTL.DOZE_GPIO_EN) n = true → bitOf (s.dev.g F.BTL.DOZE_GPIO_POL) n = high → 
    Becomes (.dozeWake (.gpio n high) cal) s ((s.dev.wakeCause false false false true false 0 n).wakeUp none cal)) ∧
  (∀ (s : State) (n : Nat) (high : Bool) (cal : CalEnv), 
    s.dev.dozeEntering = true → bitOf (s.dev.g F.BTL.DOZE_GPIO_EN) n = true → bitOf (s.dev.g F.BTL.DOZE_GPIO_POL) n = high → 
    Becomes (.dozeWake (.gpio n high) cal) s ((s.dev.wakeCause false false false true false 0 n).dozeUndo)) ∧
  (∀ (s : State) (n : Nat) (high : Bool) (cal : CalEnv), 
    ((bitOf (s.dev.g F.BTL.DOZE_GPIO_EN) n = false ∨ bitOf (s.dev.g F.BTL.DOZE_GPIO_POL) n ≠ high)) → 
    NoEffect (.dozeWake (.gpio n high) cal) s) ∧
  (∀ (s : State) (cal : CalEnv), 
    s.dev.ms.dozeStep = 6 → 
    Becomes (.dozeWake .perst cal) s ((s.dev.wakeCause false false false false true 0 0).wakeUp none cal)) ∧
  (∀ (s : State) (cal : CalEnv), 
    s.dev.dozeEntering = true → 
    Becomes (.dozeWake .perst cal) s ((s.dev.wakeCause false false false false true 0 0).dozeUndo)) ∧
  (∀ (s : State) (n : Nat) (high : Bool) (cal : CalEnv), 
    s.dev.dozeEntering = false → s.dev.ms.dozeStep ≠ 6 → 
    NoEffect (.dozeWake (.gpio n high) cal) s ∧ NoEffect (.dozeWake .perst cal) s) ∧
  (∀ (s : State) (cal : CalEnv), 
    s.dev.ms.dozeStep = 6 → s.dev.g F.BTL.DOZE_TIMER_SEC ≠ 0 → 
    Becomes (.dozeTimerExpiry cal) s ((s.dev.wakeCause false false true false false 0 0).wakeUp none cal)) ∧
  (∀ (s : State) (cal : CalEnv), (s.dev.ms.dozeStep ≠ 6 ∨ s.dev.g F.BTL.DOZE_TIMER_SEC = 0) → NoEffect (.dozeTimerExpiry cal) s) ∧
  (∀ (s : State) (bus : Nat) (frame : (Option CanRx)) (cal : CalEnv) (k : Nat) (d1 : Dev), 
    s.dev.ms.dozeStep = 6 → s.dev.wakesCan bus frame = true → s.dev.wakeEntry bus frame = some k → d1 = (s.dev.wakeCause frame.isSome frame.isNone false false false bus 0).wakeFrame k bus frame → 
    Becomes (.dozeWake (.can bus frame) cal) s (d1.wakeUp (some k) cal)) ∧
  (∀ (s : State) (bus : Nat) (frame : (Option CanRx)) (cal : CalEnv) (k : Nat) (d1 : Dev), 
    s.dev.dozeEntering = true → 4 ≤ s.dev.ms.dozeStep → s.dev.wakesCan bus frame = true → s.dev.wakeEntry bus frame = some k → d1 = (s.dev.wakeCause frame.isSome frame.isNone false false false bus 0).wakeFrame k bus frame → 
    Becomes (.dozeWake (.can bus frame) cal) s (d1.dozeUndo)) ∧
  (∀ (s : State) (bus : Nat) (frame : (Option CanRx)) (cal : CalEnv), 
    ((s.dev.ms.dozeStep < 4 ∨ s.dev.wakesCan bus frame = false ∨ s.dev.wakeEntry bus frame = none ∨ (s.dev.dozeEntering = false ∧ s.dev.ms.dozeStep ≠ 6))) → 
    NoEffect (.dozeWake (.can bus frame) cal) s) ∧
  (∀ (s : State) (bus : Nat) (frame : (Option CanRx)) (cal : CalEnv), 
    (s.dev.dozeEntering&&decide (4 ≤ s.dev.ms.dozeStep)) = false → s.dev.ms.dozeStep ≠ 6 → s.dev.wakesCan bus frame = true → 
    Becomes (.canBusWake bus frame cal) s (s.dev.canWake bus)) ∧
  (∀ (s : State) (bus : Nat) (frame : (Option CanRx)) (cal : CalEnv), 
    (s.dev.dozeEntering&&decide (4 ≤ s.dev.ms.dozeStep)) = false → s.dev.ms.dozeStep ≠ 6 → s.dev.wakesCan bus frame = false → 
    NoEffect (.canBusWake bus frame cal) s) ∧
  (∀ (s : State) (bus : Nat) (frame : (Option CanRx)) (cal : CalEnv), 
    ((s.dev.dozeEntering&&decide (4 ≤ s.dev.ms.dozeStep)) = true ∨ s.dev.ms.dozeStep = 6) → 
    exec (.canBusWake bus frame cal) s = exec (.dozeWake (.can bus frame) cal) s) ∧
  (∀ (s : State), 
    s.dev.pins.wakeNLow = true → s.dev.ms.dozeStep = 0 → 
    Becomes (.wakeNRelease) s ({ s.dev with ms := { s.dev.ms with cfgSeen := true }, pins := { s.dev.pins with wakeNLow := false } })) ∧
  (∀ (s : State), 
    (s.dev.pins.wakeNLow = false ∨ s.dev.ms.dozeStep ≠ 0) → 
    Becomes (.wakeNRelease) s ({ s.dev with ms := { s.dev.ms with cfgSeen := true } }))

/-- What BOOT_START, CPT_INFO, DEBUG_CHAL, DEBUG_UNLOCK, DEBUG_BLOCK_EXPIRY and SENSOR_READ do

BOOT_START with a boot due on a device out of reset answers the device after the boot, and otherwise has no effect. When their commands are ready: CPT_INFO writes 64 octets of version, bank, boot SEQ, EUI-64, local time, mode and twin state to the data buffer and ends with OK; DEBUG_CHAL draws a fresh challenge of sixteen octets, keeps it, writes it and ends with OK; DEBUG_UNLOCK with the right answer uses up the challenge, is logged with result 1, opens the debug ports of its scope beside those that are open, and ends with OK; with a wrong answer it uses up the challenge, is logged with result 0, raises DEBUG_AUTH, blocks further attempts and ends with RANGE; SENSOR_READ writes 184 octets of temperatures, supplies and die pace figures and ends with OK. DEBUG_BLOCK_EXPIRY ends the block of attempts. (R107, R111, R122, R534, R536, R537, R538, Table 19-1) -/
def Obligations.BootAndCaptain : Prop :=
  (∀ (s : State) (env : BootEnv), s.dev.pwr.bootDue = true → s.dev.pwr.inReset = false → Becomes (.bootStart env) s (s.dev.bootRun env)) ∧
  (∀ (s : State) (env : BootEnv), (s.dev.pwr.bootDue = false ∨ s.dev.pwr.inReset = true) → NoEffect (.bootStart env) s) ∧
  (∀ (s : State) (id : Nat) (c : Cmd), 
    Ready s.dev 0x0901 id c (lenIs 64) → 
    BecomesWith (.cptInfo id false) s (s.dev.finish id c.ok)
      ([(c.addr, padTo 64 (toLE 4 (s.dev.g F.CPT.FW_VER_VER) ++ toLE 1 (s.dev.g F.BTL.BOOT_BANK_BANK) ++ toLE 4 (s.dev.g F.BTL.BOOT_SEQ_SEQ) ++ toLE 8 s.dev.cpt.eui64 ++ toLE 8 s.dev.time.lt ++ toLE 1 s.dev.mode ++ toLE 1 (s.dev.g F.TWN.STAT_STATE)))])) ∧
  (∀ (s : State) (id : Nat) (c : Cmd), 
    Ready s.dev 0x0908 id c (lenIs 16) → 
    BecomesWith (.debugChal id false) s (({ s.dev with free := s.dev.free + 1, cpt := { s.dev.cpt with challenge := some (padTo 16 (Config.freeBytes s.dev.free)) } } : Dev).finish id c.ok)
      ([(c.addr, padTo 16 (Config.freeBytes s.dev.free))])) ∧
  (∀ (s : State) (id : Nat) (c : Cmd) (slot scope : Nat) (d1 : Dev), 
    Ready s.dev 0x0909 id c (fun d c => if c.len != 16||decide (c.par 24 1 < 4)||decide (7 < c.par 24 1)||decide (3 < c.par 25 1)||d.cpt.blocked then some 0 else none) → slot = c.par 24 1 → scope = c.par 25 1 → s.dev.debugGood slot scope (c.buf s.host 16) = true → d1 = ({ s.dev with cpt := { s.dev.cpt with challenge := none } } : Dev).logRec 0x0A01 2 0 (toLE 1 slot ++ toLE 1 scope ++ toLE 1 1) → 
    Becomes (.debugUnlock id false) s (((d1.w F.CPT.STAT_DEBUG_UART (b2n (d1.on F.CPT.STAT_DEBUG_UART||bitOf scope 0))).w F.CPT.STAT_DEBUG_JTAG (b2n (d1.on F.CPT.STAT_DEBUG_JTAG||bitOf scope 1))).finish id c.ok)) ∧
  (∀ (s : State) (id : Nat) (c : Cmd) (slot scope : Nat), 
    Ready s.dev 0x0909 id c (fun d c => if c.len != 16||decide (c.par 24 1 < 4)||decide (7 < c.par 24 1)||decide (3 < c.par 25 1)||d.cpt.blocked then some 0 else none) → slot = c.par 24 1 → scope = c.par 25 1 → s.dev.debugGood slot scope (c.buf s.host 16) = false → 
    Becomes (.debugUnlock id false) s (({ (({ s.dev with cpt := { s.dev.cpt with challenge := none } } : Dev).logRec 0x0A01 2 0 (toLE 1 slot ++ toLE 1 scope ++ toLE 1 0)).raise E.CPT.DEBUG_AUTH with cpt := { (({ s.dev with cpt := { s.dev.cpt with challenge := none } } : Dev).logRec 0x0A01 2 0 (toLE 1 slot ++ toLE 1 scope ++ toLE 1 0)).cpt with blocked := true } } : Dev).finish id (c.bad stRange))) ∧
  (∀ (s : State), Becomes (.debugBlockExpiry) s ({ s.dev with cpt := { s.dev.cpt with blocked := false } })) ∧
  (∀ (s : State) (id : Nat) (c : Cmd), 
    Ready s.dev 0x0907 id c (lenIs 184) → 
    BecomesWith (.sensorRead id false) s (s.dev.finish id c.ok)
      ([(c.addr, padTo 184 ((List.range 24).flatMap (fun i => s.dev.snsWord F.SNS.TEMP_VALUE (some F.SNS.TEMP_VALID) i) ++ (List.range 12).flatMap (fun i => s.dev.snsWord F.SNS.SUPPLY_MV (some F.SNS.SUPPLY_VALID) i) ++ (List.range 7).flatMap (fun i => s.dev.snsWord F.SNS.DIE_PACE_PACE none i)))]))

/-- What the BAND_LO rows, BAND_FAULT_RETRY, RSM_RESUME_BAND and the BAND_REQ rows do

BAND_LO_LOCKED of a Band die in LO_SETTLE clears the mark of an automatic retry and moves the band to the state that is wanted: to RECEIVE or HOLD, from where it follows what is wanted, or to STANDBY; in another band state it has no effect. BAND_LO_LOCK_LOST of a Band die in LO_SETTLE, RECEIVE, CAL or HOLD clears that mark, ends a receive calibration and moves the band to FAULT; from a state past LO_SETTLE it also counts the loss, and in LO_SETTLE, after an automatic retry and with three recent ones, it also raises RELOCK_EXHAUSTED; in another state it has no effect. BAND_FAULT_RETRY of a Band die in FAULT with fewer than three recent retries records and shows one more, marks it and moves the band to LO_SETTLE; otherwise it has no effect. RSM_RESUME_BAND where the page can be written moves a band in FAULT to LO_SETTLE with that mark cleared, and leaves another as it is. The BAND_REQ rows of STANDBY, RECEIVE and HOLD stage TARGET 1, 3 and 5 there and start the page's commit. On a die that is no Band die, the rows that are no writes have no effect. (R79, R82, R83, R139, R140, Table 6-2) -/
def Obligations.BandReceivers : Prop :=
  (∀ (s : State) (die : Nat) (d0 : Dev), 
    isBand die = true → s.dev.bandState die = 2 → d0 = s.dev.setBand die (fun b => { b with autoTry := false }) → ((d0.bandWanted die = 3 ∨ d0.bandWanted die = 5)) → 
    Becomes (.bandLoLocked die) s ((d0.bandTo die (d0.bandWanted die)).bandFollow die)) ∧
  (∀ (s : State) (die : Nat) (d0 : Dev), 
    isBand die = true → s.dev.bandState die = 2 → d0 = s.dev.setBand die (fun b => { b with autoTry := false }) → d0.bandWanted die = 1 → 
    Becomes (.bandLoLocked die) s (d0.bandTo die 1)) ∧
  (∀ (s : State) (die : Nat), (isBand die = false ∨ s.dev.bandState die ≠ 2) → NoEffect (.bandLoLocked die) s) ∧
  (∀ (s : State) (die : Nat) (d0 : Dev), 
    isBand die = true → 3 ≤ s.dev.bandState die → s.dev.bandState die ≤ 5 → d0 = s.dev.setBand die (fun b => { b with autoTry := false }) → 
    Becomes (.bandLoLockLost die) s (((d0.inc C.RSM.LO_LOSS_CNT die).w F.SYN.CAL_STAT_RX_BUSY 0 die).bandTo die 6)) ∧
  (∀ (s : State) (die : Nat) (d0 d1 : Dev), 
    isBand die = true → s.dev.bandState die = 2 → d0 = s.dev.setBand die (fun b => { b with autoTry := false }) → d1 = (d0.w F.SYN.CAL_STAT_RX_BUSY 0 die).bandTo die 6 → 
    Becomes (.bandLoLockLost die) s (if (s.dev.band die).autoTry = true ∧ 3 ≤ (s.dev.recentRetries die).length then d1.raise E.RSM.RELOCK_EXHAUSTED die else d1)) ∧
  (∀ (s : State) (die : Nat), (isBand die = false ∨ s.dev.bandState die < 2 ∨ 5 < s.dev.bandState die) → NoEffect (.bandLoLockLost die) s) ∧
  (∀ (s : State) (die n : Nat), 
    isBand die = true → s.dev.bandState die = 6 → n = (s.dev.recentRetries die).length → n < 3 → 
    Becomes (.bandFaultRetry die) s (((s.dev.setBand die (fun b => { b with retries := s.dev.recentRetries die ++ [s.dev.time.lt], autoTry := true })).w F.RSM.BAND_STAT_RETRIES (n + 1) die).bandTo die 2)) ∧
  (∀ (s : State) (die : Nat), 
    (isBand die = false ∨ s.dev.bandState die ≠ 6 ∨ 3 ≤ (s.dev.recentRetries die).length) → 
    NoEffect (.bandFaultRetry die) s) ∧
  (∀ (s : State) (die : Nat) (p : Page), 
    Writable s.dev die rsmPage p → s.dev.bandState p.die = 6 → 
    Becomes (.rsmResumeBand die) s ((s.dev.setBand p.die (fun b => { b with autoTry := false })).bandTo p.die 2)) ∧
  (∀ (s : State) (die : Nat) (p : Page), Writable s.dev die rsmPage p → s.dev.bandState p.die ≠ 6 → NoEffect (.rsmResumeBand die) s) ∧
  (∀ (s : State) (die : Nat) (p : Page), 
    Writable s.dev die 0x182 p → p.tag = .RSM → 
    Becomes (.bandReqStandby die) s ((s.dev.putS F.RSM.REQ_TARGET p 1).commitGo p)) ∧
  (∀ (s : State) (die : Nat) (p : Page), 
    Writable s.dev die 0x182 p → p.tag = .RSM → 
    Becomes (.bandReqReceive die) s ((s.dev.putS F.RSM.REQ_TARGET p 3).commitGo p)) ∧
  (∀ (s : State) (die : Nat) (p : Page), 
    Writable s.dev die 0x182 p → p.tag = .RSM → 
    Becomes (.bandReqHold die) s ((s.dev.putS F.RSM.REQ_TARGET p 5).commitGo p))

/-- What TX_TUNE_REQUEST, TX_SYNTH_LOCKED, TX_SYNTH_LOCK_LOST and RSM_RESUME_TX do

A channel is one cell and a gang is 2 cells on die 5 and 16 on another Band die. TX_TUNE_REQUEST of one of the four chains of a Band die, for cells within the 512 channels, tunes a chain in TX_TUNE at once, and one in TX_IDLE too unless it is tuned there already, in which case it has no effect; in TX_RAMP, TX_ON, TX_DOWN and TX_CAL it keeps the cells for the next TX_IDLE, and in TX_OFF and TX_FAIL it has no effect. TX_SYNTH_LOCKED leads a chain in TX_TUNE to TX_IDLE and has no effect in another state. TX_SYNTH_LOCK_LOST of a chain that is not in TX_OFF cuts off its outputs, notes the time of the loss, drops the frame on air as one that radiated until now, ends the chain's calibration and raises TXSYN_LOCK; the chain then tunes, or fails where the loss before came less than a second earlier and it has not failed yet. It has no effect in TX_OFF. RSM_RESUME_TX where the page can be written asks for the calibration of the named chains that are in TX_FAIL, and leaves the device where none is. (R79, R82, R137, R139, R141, R144, Table 6-3, Table 6-6) -/
def Obligations.TransmitChains : Prop :=
  (∀ (s : State) (die chain channel : Nat) (gang : Bool) (n : Nat) (t : (Nat×Nat)), 
    isBand die = true → chain < 4 → n = (if gang = true then if die = 5 then 2 else 16 else 1) → channel + n ≤ 512 → t = s.dev.cellsOf die channel n → ((s.dev.txState die chain = 2 ∨ (s.dev.txState die chain = 1 ∧ (s.dev.chain die chain).tuned ≠ some t))) → 
    Becomes (.txTuneRequest die chain channel gang) s (s.dev.tuneNow die chain t)) ∧
  (∀ (s : State) (die chain channel : Nat) (gang : Bool) (n : Nat), 
    n = (if gang = true then if die = 5 then 2 else 16 else 1) → ((isBand die = false ∨ 4 ≤ chain ∨ 512 < channel + n ∨ s.dev.txState die chain = 0 ∨ s.dev.txState die chain = 7 ∨ (s.dev.txState die chain = 1 ∧ (s.dev.chain die chain).tuned = some (s.dev.cellsOf die channel n)))) → 
    NoEffect (.txTuneRequest die chain channel gang) s) ∧
  (∀ (s : State) (die chain channel : Nat) (gang : Bool) (n : Nat), 
    isBand die = true → chain < 4 → n = (if gang = true then if die = 5 then 2 else 16 else 1) → channel + n ≤ 512 → 3 ≤ s.dev.txState die chain → s.dev.txState die chain ≤ 6 → 
    Becomes (.txTuneRequest die chain channel gang) s (s.dev.setChain die chain (fun k => { k with pend := some (s.dev.cellsOf die channel n) }))) ∧
  (∀ (s : State) (die chain : Nat), 
    isBand die = true → chain < 4 → s.dev.txState die chain = 2 → 
    Becomes (.txSynthLocked die chain) s (s.dev.txIdle die chain)) ∧
  (∀ (s : State) (die chain : Nat), (isBand die = false ∨ 4 ≤ chain ∨ s.dev.txState die chain ≠ 2) → NoEffect (.txSynthLocked die chain) s) ∧
  (∀ (s : State) (die chain : Nat) (d1 d2 d3 : Dev), 
    isBand die = true → chain < 4 → s.dev.txState die chain ≠ 0 → d1 = (s.dev.cutOff die chain).setChain die chain (fun k => { k with lossAt := some s.dev.time.lt, cal := if k.cal == 3 then 1 else k.cal }) → d2 = (s.dev.chain die chain).air.elim d1 (fun x => (d1.airedTx die chain x).txDropped (die - 2) x) → d3 = (d2.wBit F.SYN.CAL_STAT_TX_BUSY chain false die).raise E.SYN.TXSYN_LOCK die → 
    Becomes (.txSynthLockLost die chain) s (if (s.dev.chain die chain).lossAt.elim false (fun t => decide (s.dev.time.lt < t + tickSec)) = false then d3.txTo die chain 2 else if d3.txState die chain = 7 then d3 else (d3.txFail die chain).calSettle die)) ∧
  (∀ (s : State) (die chain : Nat), (isBand die = false ∨ 4 ≤ chain ∨ s.dev.txState die chain = 0) → NoEffect (.txSynthLockLost die chain) s) ∧
  (∀ (s : State) (die chains : Nat) (p : Page) (m : Nat), 
    Writable s.dev die rsmPage p → m = ofBits ((bitList 4 chains).filter (fun c => s.dev.txState p.die c == 7)) → m ≠ 0 → 
    Becomes (.rsmResumeTx die chains) s (s.dev.calRequest p.die (2 ^ txRegion p.die) 3 m)) ∧
  (∀ (s : State) (die chains : Nat) (p : Page), 
    Writable s.dev die rsmPage p → ofBits ((bitList 4 chains).filter (fun c => s.dev.txState p.die c == 7)) = 0 → 
    NoEffect (.rsmResumeTx die chains) s)

/-- What CAL_REQ_RX, CAL_REQ_TX, CAL_TEMP_TRIGGER, CAL_DEFER_EXPIRY, RX_CAL_DONE and TX_CAL_DONE do

Where the page can be written, CAL_REQ_RX requests the receiver's calibration, and CAL_REQ_TX that of the chains named among the four, with none of them leaving the device. CAL_TEMP_TRIGGER of a Band die's region that is powered and whose sensor has moved by the threshold from a recorded T_cal requests the receiver's calibration as a deferrable one, or that of all four chains, deferrable unless DEFER_MAX is 0; otherwise it has no effect. CAL_DEFER_EXPIRY makes the die's deferred requests and transmit calibrations due as commanded ones and then starts what may start. RX_CAL_DONE of a band in CAL records the codes learned, T_cal and the count, lets the enabled chains that passed rejoin and fails the others with cause 2; a relock or a chain that failed is recorded and raises CAL_FAIL; the band then goes to FAULT, where it did not relock or has no healthy chain, else to RECEIVE or HOLD as wanted, else to STANDBY, and the token is released. TX_CAL_DONE of a chain in TX_CAL clears its busy bit and its calibration. On success it records T_cal, V_cal and the count, ends a hold of the spectrum monitor and its count, and leads to TX_IDLE; on failure it records the failure, raises CAL_FAIL and fails the chain; then the next calibration starts, or the token is released. Outside CAL, or TX_CAL, the last two have no effect. (R79, R82, R139, R143, R144, R146, R151, R163, R164, R214, Table 6-6) -/
def Obligations.Calibration : Prop :=
  (∀ (s : State) (die : Nat) (p : Page), 
    Writable s.dev die rsmPage p → 
    Becomes (.calReqRx die) s (s.dev.calRequest p.die (2 ^ rxRegion p.die) 0 0)) ∧
  (∀ (s : State) (die chains : Nat) (p : Page), 
    Writable s.dev die rsmPage p → chains % 16 ≠ 0 → 
    Becomes (.calReqTx die chains) s (s.dev.calRequest p.die (2 ^ txRegion p.die) 1 (chains % 16))) ∧
  (∀ (s : State) (die chains : Nat) (p : Page), Writable s.dev die rsmPage p → chains % 16 = 0 → NoEffect (.calReqTx die chains) s) ∧
  (∀ (s : State) (die : Nat), 
    isBand die = true → s.dev.regionOn (rxRegion die) = true → s.dev.tempMoved die (s.dev.tempC (rxRegion die)) (s.dev.g F.SYN.RX_TCAL_T die) = true → 
    Becomes (.calTempTrigger die false) s (s.dev.calRequest die (2 ^ rxRegion die) 0 1)) ∧
  (∀ (s : State) (die : Nat), 
    (isBand die = false ∨ s.dev.regionOn (rxRegion die) = false ∨ s.dev.tempMoved die (s.dev.tempC (rxRegion die)) (s.dev.g F.SYN.RX_TCAL_T die) = false) → 
    NoEffect (.calTempTrigger die false) s) ∧
  (∀ (s : State) (die : Nat), 
    isBand die = true → s.dev.regionOn (txRegion die) = true → (List.range 4).any (fun c => s.dev.tempMoved die (s.dev.tempC (txRegion die)) (s.dev.g F.SYN.TX_TCAL_T die 0 c)) = true → 
    Becomes (.calTempTrigger die true) s (s.dev.calRequest die (2 ^ txRegion die) (if s.dev.g F.SYN.CAL_CFG_DEFER_MAX die = 0 then 1 else 2) 15)) ∧
  (∀ (s : State) (die : Nat), 
    (isBand die = false ∨ s.dev.regionOn (txRegion die) = false ∨ (List.range 4).any (fun c => s.dev.tempMoved die (s.dev.tempC (txRegion die)) (s.dev.g F.SYN.TX_TCAL_T die 0 c)) = false) → 
    NoEffect (.calTempTrigger die true) s) ∧
  (∀ (s : State) (die : Nat) (d1 : Dev), 
    isBand die = true → d1 = { s.dev with mt := { s.dev.mt with queue := s.dev.mt.queue.map (fun (r : TokenReq) => r.pastDefer die) } } → 
    Becomes (.calDeferExpiry die) s ((d1.setBand die (fun b => { b with chains := b.chains.map (fun k => if k.cal == 2 then { k with cal := 1 } else k) })).calKick die)) ∧
  (∀ (s : State) (die : Nat) (relocked : Bool) (failed : Nat) (codes : (List DcoCode)) (d1 d2 : Dev) (bad good : (List Nat)) (d3 d4 d5 d6 : Dev), 
    isBand die = true → s.dev.bandState die = 4 → d1 = ((s.dev.w F.SYN.CAL_STAT_RX_BUSY 0 die).setBand die (fun b => { b.learn codes with rxCal := 0 })).showDco die → d2 = (d1.w F.SYN.RX_TCAL_T (ofSigned 8 (d1.tempC (rxRegion die))) die).inc C.SYN.RX_CAL_CNT die → bad = (bitList 8 (d2.g F.RXF.CHAIN_EN_EN die)).filter (fun c => bitOf failed c) → good = (bitList 8 (d2.g F.RXF.CHAIN_EN_EN die)).filter (fun c => !bitOf failed c) → d3 = d2.each good (fun d c => (d.wBit F.RXF.CHAIN_STAT_FAILED c false die).w F.RXF.FAIL_CAUSE_CAUSE 0 die 0 c) → d4 = d3.each bad (fun d c => d.rxChainFail die c 2) → (d5 = (if relocked = false ∨ bad ≠ [] then ((d4.w F.SYN.CAL_STAT_LAST_FAIL 1 die).raise E.SYN.CAL_FAIL die).showChains die else d4.showChains die)) → (d6 = (if relocked = false ∨ d5.g F.RXF.CHAIN_STAT_HEALTHY die = 0 then d5.bandTo die 6 else d5.bandTo die (if d5.bandWanted die = 3 ∨ d5.bandWanted die = 5 then d5.bandWanted die else 1))) → 
    Becomes (.rxCalDone die relocked failed codes) s (d6.releaseToken 1 (2 ^ rxRegion die))) ∧
  (∀ (s : State) (die : Nat) (relocked : Bool) (failed : Nat) (codes : (List DcoCode)), 
    (isBand die = false ∨ s.dev.bandState die ≠ 4) → 
    NoEffect (.rxCalDone die relocked failed codes) s) ∧
  (∀ (s : State) (die chain : Nat) (d1 : Dev), 
    isBand die = true → chain < 4 → s.dev.txState die chain = 6 → d1 = (s.dev.wBit F.SYN.CAL_STAT_TX_BUSY chain false die).setChain die chain (fun k => { k with cal := 0 }) → 
    Becomes (.txCalDone die chain false) s (((((d1.w F.SYN.CAL_STAT_LAST_FAIL 2 die).raise E.SYN.CAL_FAIL die).txFail die chain).calKick die).calSettle die)) ∧
  (∀ (s : State) (die chain : Nat) (d1 d2 d3 d4 : Dev), 
    isBand die = true → chain < 4 → s.dev.txState die chain = 6 → d1 = (s.dev.wBit F.SYN.CAL_STAT_TX_BUSY chain false die).setChain die chain (fun k => { k with cal := 0 }) → d2 = d1.w F.SYN.TX_TCAL_T (ofSigned 8 (d1.tempC (txRegion die))) die 0 chain → d3 = (d2.w F.SYN.TX_TCAL_V d2.vddRfa die 0 chain).inc C.SYN.TX_CAL_CNT die 0 chain → d4 = ((d3.wBit F.TXB.HELD_CHAINS chain false (die - 2)).setChain die chain (fun k => { k with cuts := [] })).w F.TXF.MASK_STAT_CUTS_10S 0 die chain → 
    Becomes (.txCalDone die chain true) s (((d4.txIdle die chain).calKick die).calSettle die)) ∧
  (∀ (s : State) (die chain : Nat) (ok : Bool), 
    (isBand die = false ∨ 4 ≤ chain ∨ s.dev.txState die chain ≠ 6) → 
    NoEffect (.txCalDone die chain ok) s)

/-- What AGC_PERIOD, AGC_CLIP, DCO_COARSE_PERIOD and CONVERTER_STUCK do

On a Band die's receive chain, one of eight: with automatic gain on, AGC_PERIOD moves the gain index one down where the level is more than 2 dB above the target, one up to at most 20 where it is more than 2 dB below, and has no effect otherwise; with automatic gain off it sets the fixed index. AGC_CLIP with automatic gain on, a clip limit and as many clips as it moves the index two down, to 0 at least, and otherwise has no effect. DCO_COARSE_PERIOD with its period on steps I and then Q, each by the fine estimate that the period's samples give; with the period at 0 it has no effect. A step stores the fine estimate and does nothing else where it is within the threshold; beyond it, the code moves by one toward cancellation, the estimate is corrected by the step's learned size and the count of steps beyond the range starts over; and where the code would leave its range that count rises, and the third fails the chain with cause 1. CONVERTER_STUCK fails the chain with cause 3. On a die that is no Band die none has an effect. (R149, R150, R151, R152, R163) -/
def Obligations.GainAndOffset : Prop :=
  (∀ (s : State) (die chain : Nat) (level : Int), 
    isBand die = true → chain < 8 → s.dev.g F.RXF.AGC_CFG_PERIOD die ≠ 0 → -10 * (s.dev.g F.RXF.AGC_CFG_TARGET die : Int) + 20 < level → 
    Becomes (.agcPeriod die chain level) s (s.dev.setGain die chain (s.dev.g F.RXF.GAIN_IDX die 0 chain - 1))) ∧
  (∀ (s : State) (die chain : Nat) (level : Int), 
    isBand die = true → chain < 8 → s.dev.g F.RXF.AGC_CFG_PERIOD die ≠ 0 → level < -10 * (s.dev.g F.RXF.AGC_CFG_TARGET die : Int) - 20 → 
    Becomes (.agcPeriod die chain level) s (s.dev.setGain die chain (min 20 (s.dev.g F.RXF.GAIN_IDX die 0 chain + 1)))) ∧
  (∀ (s : State) (die chain : Nat) (level : Int), 
    isBand die = true → chain < 8 → s.dev.g F.RXF.AGC_CFG_PERIOD die ≠ 0 → ¬ (-10 * (s.dev.g F.RXF.AGC_CFG_TARGET die : Int) + 20 < level) → ¬ (level < -10 * (s.dev.g F.RXF.AGC_CFG_TARGET die : Int) - 20) → 
    NoEffect (.agcPeriod die chain level) s) ∧
  (∀ (s : State) (die chain : Nat) (level : Int), 
    isBand die = true → chain < 8 → s.dev.g F.RXF.AGC_CFG_PERIOD die = 0 → 
    Becomes (.agcPeriod die chain level) s (s.dev.setGain die chain (s.dev.g F.RXF.AGC_FIX_IDX die))) ∧
  (∀ (s : State) (die chain count : Nat), 
    isBand die = true → chain < 8 → s.dev.g F.RXF.AGC_CFG_PERIOD die ≠ 0 → s.dev.g F.RXF.AGC_CFG_CLIP_LIM die ≠ 0 → s.dev.g F.RXF.AGC_CFG_CLIP_LIM die ≤ count → 
    Becomes (.agcClip die chain count) s (s.dev.setGain die chain (s.dev.g F.RXF.GAIN_IDX die 0 chain - 2))) ∧
  (∀ (s : State) (die chain count : Nat), 
    (isBand die = false ∨ 8 ≤ chain ∨ s.dev.g F.RXF.AGC_CFG_PERIOD die = 0 ∨ s.dev.g F.RXF.AGC_CFG_CLIP_LIM die = 0 ∨ count < s.dev.g F.RXF.AGC_CFG_CLIP_LIM die) → 
    NoEffect (.agcClip die chain count) s) ∧
  (∀ (s : State) (die chain : Nat) (samplesI samplesQ : (List Int)), 
    isBand die = true → chain < 8 → s.dev.g F.RXF.DCO_CFG_COARSE_PERIOD die ≠ 0 → 
    Becomes (.dcoCoarsePeriod die chain samplesI samplesQ) s ((s.dev.dcoStep die chain 0 (s.dev.fineOf die chain 0 samplesI)).dcoStep die chain 1 (s.dev.fineOf die chain 1 samplesQ))) ∧
  (∀ (s : State) (die chain : Nat) (samplesI samplesQ : (List Int)), 
    (isBand die = false ∨ 8 ≤ chain ∨ s.dev.g F.RXF.DCO_CFG_COARSE_PERIOD die = 0) → 
    NoEffect (.dcoCoarsePeriod die chain samplesI samplesQ) s) ∧
  (∀ (d : Dev) (die chain q : Nat) (fine th : Int), 
    th = 2 ^ 20 * (d.g F.RXF.DCO_CFG_COARSE_THRESH die : Int) → fine ≤ th → -th ≤ fine → 
    d.dcoStep die chain q fine = d.setBand die (fun b => b.setFine (2 * chain + q) fine)) ∧
  (∀ (d : Dev) (die chain q : Nat) (fine th : Int) (f : Fld) (next : Int) (d1 : Dev) (k : Nat) (size : Int), 
    th = 2 ^ 20 * (d.g F.RXF.DCO_CFG_COARSE_THRESH die : Int) → ((th < fine ∨ fine < -th)) → f = (if q = 0 then F.RXF.DCO_I else F.RXF.DCO_Q) → next = (if 0 < fine then sext 8 (d.g f die 0 chain) - 1 else sext 8 (d.g f die 0 chain) + 1) → -128 ≤ next → next ≤ 127 → d1 = d.setBand die (fun b => b.setFine (2 * chain + q) fine) → k = 64 * chain + 2 * d.g F.RXF.GAIN_IDX die 0 chain + q → size = 2 ^ 20 * (kvGet 0 (d1.band die).dcoSize k : Int) → 
    d.dcoStep die chain q fine = (d1.setBand die (fun b => { b.setFine (2 * chain + q) (if 0 < fine then fine - size else fine + size) with dcoOver := kvSet 0 b.dcoOver (2 * chain + q) 0, dco := kvSet 256 b.dco k (ofSigned 8 next) })).w f (ofSigned 8 next) die 0 chain) ∧
  (∀ (d : Dev) (die chain q : Nat) (fine th : Int) (f : Fld) (d1 : Dev) (n : Nat) (d2 : Dev), 
    th = 2 ^ 20 * (d.g F.RXF.DCO_CFG_COARSE_THRESH die : Int) → ((th < fine ∨ fine < -th)) → f = (if q = 0 then F.RXF.DCO_I else F.RXF.DCO_Q) → (if 0 < fine then sext 8 (d.g f die 0 chain) = -128 else sext 8 (d.g f die 0 chain) = 127) → d1 = d.setBand die (fun b => b.setFine (2 * chain + q) fine) → n = kvGet 0 (d1.band die).dcoOver (2 * chain + q) + 1 → d2 = d1.setBand die (fun b => { b with dcoOver := kvSet 0 b.dcoOver (2 * chain + q) n }) → 
    d.dcoStep die chain q fine = if 3 ≤ n then d2.rxChainFail die chain 1 else d2) ∧
  (∀ (s : State) (die chain : Nat), isBand die = true → Becomes (.converterStuck die chain) s (s.dev.rxChainFail die chain 3)) ∧
  (∀ (s : State) (die chain : Nat) (level : Int), 
    isBand die = false → 
    NoEffect (.converterStuck die chain) s ∧ NoEffect (.agcPeriod die chain level) s)

/-- What LOCK_DATA_WRITE, LOCK_GO, LOCK_PROGRAM_DONE and LOCK_VFUSE_LOSS do

Where the page can be written, LOCK_DATA_WRITE stages the word at LOCK_IDX and advances LOCK_IDX, to at most 156. LOCK_GO there has no effect with another code than 0x4C4B or while programming is under way. Otherwise it ends with result 2 out of BRINGUP, else with 3 where VFUSE is below 1.70 V, else with 4 where the die is LOCKED or SPOILED, else with 5 and the word that the image is refused for, else, on a PARTIAL die, with 6 and the first word that would need a programmed bit cleared; where none of these holds, programming starts at word 0. While programming is under way on a Band die, LOCK_PROGRAM_DONE without a bad word leaves all words and the lock word programmed and the die LOCKED, with result 1, and shows the budgets; with a bad word it leaves the words before it programmed and the die SPOILED, with result 7 and that word, and raises LOCK_SPOILED. LOCK_VFUSE_LOSS leaves the words done, by its own count or by LOCK_PROG whichever is more, programmed and the die PARTIAL, with result 8. With no programming under way these two have no effect. (R79, R82, R158, R159, R160, R218, Table 6-8) -/
def Obligations.LimitImage : Prop :=
  (∀ (s : State) (die word : Nat) (p : Page) (i : Nat), 
    Writable s.dev die limPage p → i = s.dev.g F.LIM.LOCK_IDX_IDX p.die → 
    Becomes (.lockDataWrite die word) s (((s.dev.setBand p.die (fun b => { b with staged := kvSet 0 b.staged i (word % 2 ^ 32) })).w F.LIM.LOCK_IDX_IDX (min 156 (i + 1)) p.die).showLim p.die)) ∧
  (∀ (s : State) (die code : Nat) (p : Page) (staged : (List (Nat×Nat))) (f : BandFuses), 
    Writable s.dev die limPage p → code % 65536 = 0x4C4B → s.dev.on F.LIM.LOCK_PROG_BUSY p.die = false → staged = (s.dev.band p.die).staged → f = s.dev.fuse p.die → 
    Becomes (.lockGo die code) s (if s.dev.mode ≠ mBringup then s.dev.lockResult p.die 2 0 else if s.dev.vfuse < 1700 then s.dev.lockResult p.die 3 0 else if 2 ≤ f.state then s.dev.lockResult p.die 4 0 else match limRefused p.die staged with | some w => s.dev.lockResult p.die 5 w | none => match (if f.state = 1 then lockConflict staged f.words else none) with | some w => s.dev.lockResult p.die 6 w | none => ((s.dev.setBand p.die (fun b => { b with progAt := s.dev.time.lt })).w F.LIM.LOCK_PROG_BUSY 1 p.die).w F.LIM.LOCK_PROG_WORDS 0 p.die)) ∧
  (∀ (s : State) (die code : Nat) (p : Page), 
    Writable s.dev die limPage p → ((code % 65536 ≠ 0x4C4B ∨ s.dev.on F.LIM.LOCK_PROG_BUSY p.die = true)) → 
    NoEffect (.lockGo die code) s) ∧
  (∀ (s : State) (die : Nat), 
    isBand die = true → s.dev.on F.LIM.LOCK_PROG_BUSY die = true → 
    Becomes (.lockProgramDone die none) s ((((((s.dev.w F.LIM.LOCK_PROG_BUSY 0 die).programWords die 156).setFuse die (fun f => { f with words := kvSet 0 f.words 156 0x4C4F434B, state := 2 })).lockResult die 1 0).showLim die).showBudget die)) ∧
  (∀ (s : State) (die w : Nat), 
    isBand die = true → s.dev.on F.LIM.LOCK_PROG_BUSY die = true → 
    Becomes (.lockProgramDone die (some w)) s ((((((s.dev.w F.LIM.LOCK_PROG_BUSY 0 die).programWords die (min w 156)).setFuse die (fun f => { f with state := 3 })).lockResult die 7 w).showLim die).raise E.LIM.LOCK_SPOILED die)) ∧
  (∀ (s : State) (die words : Nat), 
    isBand die = true → s.dev.on F.LIM.LOCK_PROG_BUSY die = true → 
    Becomes (.lockVfuseLoss die words) s (((((s.dev.w F.LIM.LOCK_PROG_BUSY 0 die).programWords die (max (s.dev.g F.LIM.LOCK_PROG_WORDS die) (min words 156))).setFuse die (fun f => { f with state := 1 })).lockResult die 8 0).showLim die)) ∧
  (∀ (s : State) (die words : Nat) (bad : (Option Nat)), 
    (isBand die = false ∨ s.dev.on F.LIM.LOCK_PROG_BUSY die = false) → 
    NoEffect (.lockProgramDone die bad) s ∧ NoEffect (.lockVfuseLoss die words) s)

/-- What TX_DESCRIPTOR, TX_START, TX_FRAME_END, TX_UNDERRUN and MASK_CUT do

TX_DESCRIPTOR of a planned transmission whose turn it is, on an Air die that is up, takes it off the plan; a contended legacy frame whose gang is busy backs off again, and any other is handed to the baseband. A test transmission takes the next number and is handed over. Otherwise the row has no effect. TX_START of a Band die's chain with a transmission handed over takes the next one off those handed over. Where no cause refuses it, its frame starts. A refused one is counted with its cause; where the chain calibrates it moves to another chain or waits, where causes 5 to 9 refuse it it is dropped, and otherwise it waits; then a calibration starts that may. With nothing handed over the row has no effect. TX_FRAME_END puts the frame with its waveform on the air output, notes when it was on air, tells its origin, switches the outputs off, idles the chain and releases the calibration token if nothing holds it. TX_UNDERRUN counts, cuts the frame off and drops it, and raises TX_UNDERRUN. MASK_CUT with the monitor off has no effect. With it on it records the ratio of the last window, and where the last CNT windows do not each violate the mask, nothing more. Where they do, it also records the cut-offs of the last 10 s, counts, cuts the frame off and drops it, and raises MASK_CUT; and a chain that has reached MAX cut-offs and is not held yet is held and its calibration requested. These three have no effect on a chain with nothing on air. (R142, R161, R197, R205, R206, R212, R213, R214, R215, R218, Table 8-4, Table 9-8) -/
def Obligations.TransmitFrames : Prop :=
  (∀ (s : State) (die id : Nat) (x : Tx) (d1 : Dev), 
    isAir die = true → s.dev.dieUp die = true → (s.dev.airD die).planned.find? (fun x => x.id == id) = some x → s.dev.turnOf die x = true → d1 = s.dev.setAir die (fun a => { a with planned := a.planned.filter (fun y => y.id != id) }) → 
    Becomes (.txDescriptor die (.planned id)) s (if x.csma = true ∧ d1.gangBusy die x.channel = true then d1.backOff die x else d1.takeDescriptor die x)) ∧
  (∀ (s : State) (die : Nat) (t : TxSpec) (x : Tx), 
    isAir die = true → s.dev.dieUp die = true → x = { id := (s.dev.airD die).next, kind := t.kind, channel := t.channel, mode := t.mode, map := t.map, mapWord := 0, rate := t.rate, psdu := t.psdu, wakeCode := t.wakeCode, wakeIdx := t.wakeIdx, power := t.power, start := s.dev.time.lt + t.startUs * tickUs, chain := 0, retune := false, cls := 0, who := .test } → 
    Becomes (.txDescriptor die (.test t)) s ((s.dev.setAir die (fun a => { a with next := a.next + 1 })).takeDescriptor die x)) ∧
  (∀ (s : State) (die id : Nat) (sel : DescSel), 
    (isAir die = false ∨ s.dev.dieUp die = false ∨ (sel = .planned id ∧ (s.dev.airD die).planned.find? (fun x => x.id == id) = none)) → 
    NoEffect (.txDescriptor die sel) s) ∧
  (∀ (s : State) (die id : Nat) (x : Tx), 
    (s.dev.airD die).planned.find? (fun x => x.id == id) = some x → s.dev.turnOf die x = false → 
    NoEffect (.txDescriptor die (.planned id)) s) ∧
  (∀ (s : State) (die chain : Nat) (x : Tx) (d1 : Dev), 
    isBand die = true → chain < 4 → s.dev.nextStart (die - 2) chain = some x → d1 = s.dev.setAir (die - 2) (fun a => { a with handed := a.handed.filter (fun y => y.id != x.id) }) → d1.startCause die chain x = none → 
    Becomes (.txStart die chain) s (d1.startFrame die chain x)) ∧
  (∀ (s : State) (die chain : Nat) (x : Tx) (cause : Nat) (d1 d2 : Dev), 
    isBand die = true → chain < 4 → s.dev.nextStart (die - 2) chain = some x → d1 = s.dev.setAir (die - 2) (fun a => { a with handed := a.handed.filter (fun y => y.id != x.id) }) → d1.startCause die chain x = some cause → d2 = d1.countRefusal die chain x cause → 
    Becomes (.txStart die chain) s ((if cause = 2 then d2.moveStart (die - 2) chain x else if 5 ≤ cause ∧ cause ≤ 9 then d2.txDropped (die - 2) x else d2.txWaits (die - 2) x).calKick die)) ∧
  (∀ (s : State) (die chain : Nat), (isBand die = false ∨ 4 ≤ chain ∨ s.dev.nextStart (die - 2) chain = none) → NoEffect (.txStart die chain) s) ∧
  (∀ (s : State) (die chain : Nat) (x : Tx) (d1 d2 : Dev), 
    isBand die = true → chain < 4 → (s.dev.chain die chain).air = some x → d1 = ((s.dev.emit (.radiated die chain x.kind x.channel x.psdu (s.dev.wave (die - 2) chain x))).airedTx die chain x).txSent (die - 2) x → d2 = (d1.outputsOff die chain).setChain die chain (fun k => { k with air := none }) → 
    Becomes (.txFrameEnd die chain) s ((d2.txIdle die chain).calSettle die)) ∧
  (∀ (s : State) (die chain : Nat) (x : Tx), 
    isBand die = true → chain < 4 → (s.dev.chain die chain).air = some x → 
    Becomes (.txUnderrun die chain) s (((s.dev.inc C.TXB.UNDERRUN (die - 2)).cutAndDrop die chain).raise E.TXB.TX_UNDERRUN (die - 2))) ∧
  (∀ (s : State) (die chain : Nat) (windows : (List (List (Int×Nat)))), 
    (isBand die = false ∨ 4 ≤ chain ∨ (s.dev.chain die chain).air = none) → 
    NoEffect (.txFrameEnd die chain) s ∧ NoEffect (.txUnderrun die chain) s ∧ NoEffect (.maskCut die chain windows) s) ∧
  (∀ (s : State) (die chain : Nat) (windows : (List (List (Int×Nat)))), 
    s.dev.g F.TXF.MASK_CFG_CNT die chain = 0 → 
    NoEffect (.maskCut die chain windows) s) ∧
  (∀ (s : State) (die chain : Nat) (windows : (List (List (Int×Nat)))) (x : Tx), 
    isBand die = true → chain < 4 → (s.dev.chain die chain).air = some x → s.dev.g F.TXF.MASK_CFG_CNT die chain ≠ 0 → s.dev.maskTrip die chain windows x = false → 
    Becomes (.maskCut die chain windows) s (s.dev.w F.TXF.MASK_STAT_ACR (s.dev.maskRatio die windows x) die chain)) ∧
  (∀ (s : State) (die chain : Nat) (windows : (List (List (Int×Nat)))) (x : Tx) (cuts : (List Nat)) (max : Nat) (d1 d2 d3 : Dev), 
    isBand die = true → chain < 4 → (s.dev.chain die chain).air = some x → s.dev.g F.TXF.MASK_CFG_CNT die chain ≠ 0 → s.dev.maskTrip die chain windows x = true → cuts = (s.dev.chain die chain).cuts.filter (fun t => decide (s.dev.time.lt < t + 10 * tickSec)) ++ [s.dev.time.lt] → d1 = s.dev.setChain die chain (fun k => { k with cuts := cuts }) → d2 = (d1.w F.TXF.MASK_STAT_ACR (s.dev.maskRatio die windows x) die chain).w F.TXF.MASK_STAT_CUTS_10S (min 15 cuts.length) die chain → d3 = ((d2.inc C.TXF.MASK_CUT_CNT die chain).cutAndDrop die chain).raise E.TXF.MASK_CUT die chain → max = d3.g F.TXB.MASK_TRIP_MAX (die - 2) → 
    Becomes (.maskCut die chain windows) s (if max = 0 ∨ cuts.length < max ∨ bitOf (d3.g F.TXB.HELD_CHAINS (die - 2)) chain = true then d3 else (d3.wBit F.TXB.HELD_CHAINS chain true (die - 2)).calRequest die (2 ^ txRegion die) 1 (2 ^ chain)))

/-- What SAMPLE_FIFO_OVERFLOW, PREAMBLE_ACCEPT, SIG_DECODE, FRAME_DECODED, FRAME_DELIVERY and SIC_RECOVERY do

SAMPLE_FIFO_OVERFLOW of an Air die shows the chain, counts and raises SAMPLE_OVF. PREAMBLE_ACCEPT on an Air die that is up, in RECEIVE, that detects a family on the channel, with no commit waiting for it, the offset and SNR of the combined chains within their limits, not its own frame, not detected on an adjacent channel, a decoder context for a native family, and at most one reception arriving, none for a legacy family, starts a reception, as a collision with that one if any; with nothing detected it has no effect, a waiting commit counts it in ABANDON, and an offset beyond the limit in CFO_REJECT. SIG_DECODE of a reception without its SIG counts; a good SIG fills in the reception, and a bad one counts its cause and ends the reception, with nothing cancelled from a weaker one. FRAME_DECODED of a reception with its SIG that is no weaker frame of a collision job, and for a legacy one within the PHY subset, ends it, tells a weaker one that waits for it, counts a stronger frame that failed, and delivers a good FCS or counts a bad one; out of the subset it only counts it and ends. FRAME_DELIVERY passes the oldest frame to the air MAC, with none having no effect. SIC_RECOVERY of a weaker frame with its SIG whose stronger one has ended ends it; with more than 128 symbols overlapped it counts it in LONG, and else it is delivered or counted, and where it was cancelled with residual search on, a frame found on its span follows. Rows that name no reception have no effect. (R27, R174, R181, R183, R185, R187, R188, R189, R191, R194, R195, R196) -/
def Obligations.Receptions : Prop :=
  (∀ (s : State) (die chain : Nat), 
    isAir die = true → 
    Becomes (.sampleFifoOverflow die chain) s ((((s.dev.w F.CHZ.OVF_STAT_CHAIN chain die).w F.CHZ.OVF_STAT_OVF 1 die).inc C.CHZ.OVF_CNT die).raise E.CHZ.SAMPLE_OVF die)) ∧
  (∀ (s : State) (die channel : Nat) (pre : Preamble) (family q tref : Nat) (mix : (Nat×Int)) (here : (List Recep)), 
    q = clusterOf channel → isAir die = true → channel < 512 → s.dev.bandState (die + 2) = 3 → s.dev.dieUp die = true → s.dev.detects die channel pre = some family → tref = s.dev.time.lt - pre.ago → mix = s.dev.combined die pre → here = (s.dev.airD die).receps.filter (fun r => r.channel == channel&&r.arriving die s.dev.time.lt) → (s.dev.airD die).demWait.contains channel = false → -(100 * (s.dev.g F.DEM.DET_CFG_CFO_MAX die q : Int)) ≤ pre.cfo → pre.cfo ≤ 100 * (s.dev.g F.DEM.DET_CFG_CFO_MAX die q : Int) → sext 8 (s.dev.g F.DEM.DET_CFG_SNR_MIN die q) ≤ mix.2 → ((family ≠ 2 ∨ s.dev.ownFrame die channel tref = false)) → s.dev.twinOf die channel family tref pre.cfo = none → ((4 ≤ family ∨ s.dev.ctxFree die channel = true)) → here.length < 2 → ((family < 4 ∨ here = [])) → 
    Becomes (.preambleAccept die channel pre.toP1Seen pre.snr pre.chSnr pre.cfo pre.ago) s (s.dev.acquire die { id := (s.dev.airD die).next, channel := channel, family := family, tref := tref, snr := mix.2, cfo := pre.cfo, chains := mix.1, role := 0, sic := false, partner := 0, ended := none, sig := decide (family ≥ 4), map := if family < 4 then 0 else 0xFFF, mapWord := 0, rate := 0, length := 0, maxSym := s.dev.g F.CMB.CFG_MAX_SYM die, heard := mix.1 } here.head?)) ∧
  (∀ (s : State) (die channel : Nat) (pre : Preamble), 
    (isAir die = false ∨ 512 ≤ channel ∨ s.dev.bandState (die + 2) ≠ 3 ∨ s.dev.dieUp die = false ∨ s.dev.detects die channel pre = none) → 
    NoEffect (.preambleAccept die channel pre.toP1Seen pre.snr pre.chSnr pre.cfo pre.ago) s) ∧
  (∀ (s : State) (die channel : Nat) (pre : Preamble) (family q : Nat), 
    q = clusterOf channel → isAir die = true → channel < 512 → s.dev.bandState (die + 2) = 3 → s.dev.dieUp die = true → s.dev.detects die channel pre = some family → (s.dev.airD die).demWait.contains channel = true → 
    Becomes (.preambleAccept die channel pre.toP1Seen pre.snr pre.chSnr pre.cfo pre.ago) s (s.dev.inc C.DEM.ABANDON die q)) ∧
  (∀ (s : State) (die channel : Nat) (pre : Preamble) (family q : Nat), 
    q = clusterOf channel → isAir die = true → channel < 512 → s.dev.bandState (die + 2) = 3 → s.dev.dieUp die = true → s.dev.detects die channel pre = some family → (s.dev.airD die).demWait.contains channel = false → ((pre.cfo < -(100 * (s.dev.g F.DEM.DET_CFG_CFO_MAX die q : Int)) ∨ 100 * (s.dev.g F.DEM.DET_CFG_CFO_MAX die q : Int) < pre.cfo)) → 
    Becomes (.preambleAccept die channel pre.toP1Seen pre.snr pre.chSnr pre.cfo pre.ago) s (s.dev.inc C.DEM.CFO_REJECT die q)) ∧
  (∀ (s : State) (die id sig : Nat) (r : Recep) (d1 : Dev), 
    s.dev.recep die id = some r → isAir die = true → r.sig = false → d1 = s.dev.inc C.DEC.SIG_DECODED die (clusterOf r.channel / 4) → d1.sigFault die r.maxSym sig = none → 
    Becomes (.sigDecode die id sig) s (d1.setRecep die id (fun r => d1.withSig die sig r))) ∧
  (∀ (s : State) (die id sig : Nat) (r : Recep) (d1 : Dev) (c : Ctr), 
    s.dev.recep die id = some r → isAir die = true → r.sig = false → d1 = s.dev.inc C.DEC.SIG_DECODED die (clusterOf r.channel / 4) → d1.sigFault die r.maxSym sig = some c → 
    Becomes (.sigDecode die id sig) s (((d1.inc c die (clusterOf r.channel)).strongOver die r false).dropRecep die id)) ∧
  (∀ (s : State) (die id : Nat) (env : DecodeEnv) (r : Recep) (psdu : (List Byte)) (fcs4 ok : Bool) (d1 d2 : Dev), 
    s.dev.recep die id = some r → isAir die = true → r.sig = true → ((r.role ≠ 2 ∨ r.sic = false)) → ((r.family < 4 ∨ legacyPhyOk r env = true)) → psdu = psduOf r env → fcs4 = (decide (4 ≤ r.family)&&env.fcs4) → ok = fcsOk psdu fcs4 → d1 = s.dev.strongOver die r ok → (d2 = (if r.role = 1 ∧ ok = false then d1.inc C.SIC.STRONG_FAIL die (clusterOf r.channel) else d1).dropRecep die id) → 
    Becomes (.frameDecoded die id env) s (if ok = true then d2.deliverRx die r psdu (if r.role = 1 then 1 else 0) 0 env.power (if fcs4 = true then 4 else 2) else d2.inc C.DEC.FCS_FAIL die (clusterOf r.channel / 4))) ∧
  (∀ (s : State) (die id : Nat) (env : DecodeEnv) (r : Recep), 
    s.dev.recep die id = some r → isAir die = true → r.sig = true → ((r.role ≠ 2 ∨ r.sic = false)) → 4 ≤ r.family → legacyPhyOk r env = false → 
    Becomes (.frameDecoded die id env) s ((s.dev.inc C.DEM.LEGACY_UNSUP die (clusterOf r.channel)).dropRecep die id)) ∧
  (∀ (s : State) (die : Nat) (f : RxFrame) (l : (List RxFrame)), 
    isAir die = true → (s.dev.airD die).deliv = f :: l → 
    Becomes (.frameDelivery die) s ((s.dev.setAir die (fun a => { a with deliv := l, macIn := a.macIn ++ [f] })).inc C.CMB.FRAMES_OUT die)) ∧
  (∀ (s : State) (die : Nat), (s.dev.airD die).deliv = [] → NoEffect (.frameDelivery die) s) ∧
  (∀ (s : State) (die id : Nat) (bits : (List Byte)) (power : (List Nat)) (r : Recep) (b : Bool) (fr : (Option ResidFrame)) (nov : Nat) (d1 : Dev), 
    s.dev.recep die id = some r → r.ended = some b → isAir die = true → r.sig = true → r.role = 2 → nov = r.overlapped die r.spans → 128 < nov → d1 = s.dev.dropRecep die id → 
    Becomes (.sicRecovery die id bits power fr) s ((d1.strongOver die r false).inc C.SIC.LONG die (clusterOf r.channel))) ∧
  (∀ (s : State) (die id : Nat) (bits : (List Byte)) (power : (List Nat)) (r : Recep) (b : Bool) (nov : Nat) (d1 : Dev) (fr : (Option ResidFrame)), 
    s.dev.recep die id = some r → r.ended = some b → isAir die = true → r.sig = true → r.role = 2 → nov = r.overlapped die r.spans → nov ≤ 128 → d1 = (s.dev.dropRecep die id).weakDone die r 2 nov (DecodeEnv.mk bits power false false) → 
    Becomes (.sicRecovery die id bits power fr) s (match fr, r.spans.getLast? with | some f, some span => if b = true ∧ r.resid = true ∧ d1.onSpan die r f span = true then d1.residual die r f span else d1 | _, _ => d1)) ∧
  (∀ (s : State) (die id sig : Nat) (env : DecodeEnv) (bits : (List Byte)) (power : (List Nat)) (fr : (Option ResidFrame)), 
    s.dev.recep die id = none → 
    NoEffect (.sigDecode die id sig) s ∧ NoEffect (.frameDecoded die id env) s ∧ NoEffect (.sicRecovery die id bits power fr) s)

/-- What NOISE_PUBLISH and DEM_COMMIT_LIVE do

NOISE_PUBLISH on an Air die empties the record of what was on the air; with a MIN_OBS it also publishes, for every native channel, the codes of the observations of that channel that may be used, or none where there is none, counts a superframe measured and notes its number. On another die it has no effect. DEM_COMMIT_LIVE of a channel of an Air die that waits for a commit of its page, with no reception in progress on a channel of its old or new gang, puts the channel's settings live and takes it off the wait list; when no channel of the page waits any longer the page's commit is live and done. With a reception in progress, or on a channel that waits for no commit, it has no effect. (R197, R201) -/
def Obligations.NoiseAndDemodulators : Prop :=
  (∀ (s : State) (die : Nat) (obs used : (List NoiseObs)) (d0 d1 : Dev), 
    isAir die = true → s.dev.g F.NSE.OBS_CFG_MIN_OBS die ≠ 0 → used = obs.filter (fun o => obsUsable die s.dev.time.lt (s.dev.g F.CMB.STAT_CHAINS_USED die) (s.dev.onAir die) o) → d0 = s.dev.setAir die (fun a => { a with aired := [] }) → d1 = (d0.each ((List.range 512).filter (fun ch => d0.chMode die ch == 0)) (fun d ch => d.publishNoise die ch (used.filter (fun o => o.ch == ch)).length (if (used.filter (fun o => o.ch == ch)).isEmpty then [] else noiseCodes (used.filter (fun o => o.ch == ch))))).inc C.NSE.SF_MEASURED die → 
    Becomes (.noisePublish die obs) s (d1.setAir die (fun a => { a with sfNoise := d1.g F.AMC.SF_NUM_NUM die }))) ∧
  (∀ (s : State) (die : Nat) (obs : (List NoiseObs)), 
    isAir die = true → s.dev.g F.NSE.OBS_CFG_MIN_OBS die = 0 → 
    Becomes (.noisePublish die obs) s (s.dev.setAir die (fun a => { a with aired := [] }))) ∧
  (∀ (s : State) (die : Nat) (obs : (List NoiseObs)), isAir die = false → NoEffect (.noisePublish die obs) s) ∧
  (∀ (s : State) (die channel : Nat) (p : Page) (j : Nat) (pc : PendCommit) (tied : (List Nat)) (d1 : Dev), 
    p = (⟨.DEM, die, channel / 32⟩ : Page) → j = channel % 32 → s.dev.pendingCommit p = some pc → isAir die = true → (s.dev.airD die).demWait.contains channel = true → tied = gangOf (fun i => s.dev.chMode die (32 * p.inst + i)) j ++ gangOf (fun i => snapGet pc.snap F.DEM.CH_CFG_MODE p i) j → (s.dev.airD die).receps.any (fun r => r.channel / 32 == p.inst&&tied.contains (r.channel % 32)) = false → d1 = (s.dev.each chCfgFields (fun d f => d.put f p (snapGet pc.snap f p j) j)).setAir die (fun a => { a with demWait := a.demWait.filter (fun c => c != channel) }) → 
    Becomes (.demCommitLive die channel) s (if (d1.airD die).demWait.any (fun c => c / 32 == p.inst) = true then d1 else (d1.liveFrom p pc.snap).commitDone p)) ∧
  (∀ (s : State) (die channel : Nat) (p : Page) (j : Nat) (pc : PendCommit) (tied : (List Nat)), 
    p = (⟨.DEM, die, channel / 32⟩ : Page) → j = channel % 32 → s.dev.pendingCommit p = some pc → tied = gangOf (fun i => s.dev.chMode die (32 * p.inst + i)) j ++ gangOf (fun i => snapGet pc.snap F.DEM.CH_CFG_MODE p i) j → (s.dev.airD die).receps.any (fun r => r.channel / 32 == p.inst&&tied.contains (r.channel % 32)) = true → 
    NoEffect (.demCommitLive die channel) s) ∧
  (∀ (s : State) (die channel : Nat), 
    (isAir die = false ∨ s.dev.pendingCommit ⟨.DEM, die, channel / 32⟩ = none ∨ (s.dev.airD die).demWait.contains channel = false) → 
    NoEffect (.demCommitLive die channel) s)

/-- What SUPERFRAME_BOUNDARY, SLOT_START, AIR_MAC_RX, LISTEN_SLOT_DOWNLINK, NODE_ACK_MISSING, SCHED_REQ, WAKE_CALL_SCHEDULE and WAKE_CALL_NO_ANSWER do

SUPERFRAME_BOUNDARY of an Air die that is up, whose superframe runs or in SERVICE or SHADOW, keeps what the past superframe was, makes a waiting commit live, starts slot 0 with its number and a slew step less, ages the neighbours, tells the superframe event, plans the beacons, begins the slot and shows the duty used. SLOT_START, when the superframe runs and is not in its last slot, starts the next slot: its acknowledgements' chains are assigned, a receive calibration that a temperature asked for starts, and waiting calls are planned. AIR_MAC_RX of an Air die that is up takes the oldest frame that no other row takes: a legacy frame and a native one of a family but F2 are passed on, an F2 node frame is counted in FMT_DROP, another in FOREIGN, and a beacon of its own has no further effect. LISTEN_SLOT_DOWNLINK of a downlink that is not on the air, for a node in sync whose listen slot this is, when ready and past the air gate, plans it and marks it on the air where it finds a chain, or makes the node desynchronised where the drift may be too large. NODE_ACK_MISSING of a downlink that has been sent counts and with the sends used up expires and reports it, and else it waits again and is reported unacknowledged. SCHED_REQ, out of QUIESCE and outside a rebuild of the plan, takes the oldest request, which the planner answers where the device knows the node. WAKE_CALL_SCHEDULE of a class W node with a downlink not called for and no call notes a call; WAKE_CALL_NO_ANSWER of a call that went out repeats it below its limit and else ends it, counts and reports. Each has no effect where it names none of these. (R145, R216, R226, R229, R238, R241, R242, R244, R247, R249, R258, Table 9-11) -/
def Obligations.AirMac : Prop :=
  (∀ (s : State) (die n : Nat) (step : Int) (sp : SfPast) (d1 d2 : Dev), 
    isAir die = true → s.dev.dieUp die = true → (((s.dev.airD die).running = true ∨ s.dev.mode = mService ∨ s.dev.mode = mShadow)) → n = s.dev.nextSf die → step = s.dev.slewStep die → sp = { start := (s.dev.airD die).sfStart, num := s.dev.g F.AMC.SF_NUM_NUM die, adj := step, slots := if (s.dev.airD die).running = true then (s.dev.airD die).rephase.elim (s.dev.sfSlots die) (fun r => s.dev.lastSlots die r.1) else 0 } → d1 = s.dev.amcLive die → d2 = (d1.setAir die (fun a => { a with sfStart := d1.time.lt, slot := 0, slotStart := d1.time.lt, running := true, rephase := none, slew := a.slew - step, past := sp })).w F.AMC.SF_NUM_NUM n die → 
    Becomes (.superframeBoundary die) s (((((d2.nbrTick die).sfEvent die).planBeacons die).slotBegin die).showDuty die)) ∧
  (∀ (s : State) (die : Nat), 
    (isAir die = false ∨ s.dev.dieUp die = false ∨ ((s.dev.airD die).running = false ∧ s.dev.mode ≠ mService ∧ s.dev.mode ≠ mShadow)) → 
    NoEffect (.superframeBoundary die) s) ∧
  (∀ (s : State) (die last : Nat), 
    last = (s.dev.airD die).rephase.elim (s.dev.sfSlots die) (fun r => s.dev.lastSlots die r.1) → isAir die = true → s.dev.dieUp die = true → (s.dev.airD die).running = true → (s.dev.airD die).slot + 1 < last → 
    Becomes (.slotStart die) s ((s.dev.setAir die (fun a => { a with slot := a.slot + 1, slotStart := s.dev.time.lt })).slotBegin die)) ∧
  (∀ (s : State) (die last : Nat), 
    last = (s.dev.airD die).rephase.elim (s.dev.sfSlots die) (fun r => s.dev.lastSlots die r.1) → ((isAir die = false ∨ s.dev.dieUp die = false ∨ (s.dev.airD die).running = false ∨ last ≤ (s.dev.airD die).slot + 1)) → 
    NoEffect (.slotStart die) s) ∧
  (∀ (s : State) (die : Nat) (f : RxFrame) (rest : (List RxFrame)) (d1 : Dev), 
    isAir die = true → s.dev.dieUp die = true → (s.dev.airD die).macIn = f :: rest → s.dev.rxOther die f = false → d1 = s.dev.setAir die (fun a => { a with macIn := rest }) → 
    Becomes (.airMacRx die) s (if 4 ≤ f.family then d1.rxLegacy die f else if f.family = 2 then (if leAt f.psdu 0 1 % 8 = 0 ∧ f.psdu.length = 18 then d1 else if leAt f.psdu 0 1 % 8 = 1 ∨ leAt f.psdu 0 1 % 8 = 2 ∨ leAt f.psdu 0 1 % 8 = 5 then d1.inc C.AMC.FMT_DROP die else d1.inc C.AMC.FOREIGN die) else d1.rxNative die f)) ∧
  (∀ (s : State) (die : Nat), 
    (isAir die = false ∨ s.dev.dieUp die = false ∨ (s.dev.airD die).macIn = [] ∨ (s.dev.airD die).macIn.head?.any (fun f => s.dev.rxOther die f) = true) → 
    NoEffect (.airMacRx die) s) ∧
  (∀ (s : State) (die id : Nat) (f : DlFrame) (e : NodeEnt) (start : Nat) (r : (Dev×Bool)), 
    isAir die = true → start = (s.dev.airD die).slotStart + s.dev.g F.AMC.SLOT_TIME_DL_OFS die * tickUs → (s.dev.airD die).dl.find? (fun f => f.id == id) = some f → s.dev.nodeOf ⟨f.tag, f.tenant⟩ = some e → f.leg = false → f.onAir = false → (e.det.assigned&&e.det.aBand == die - 3&&e.det.listen&&e.det.aSlot + 1 == (s.dev.airD die).slot&&e.det.due (s.dev.g F.AMC.SF_NUM_NUM die)) = true → e.det.desync = false → f.readyAt + 100 * tickUs ≤ start → s.dev.airGate (die - 3) f.cls start = true → r = s.dev.planTx die (Tx.of 3 e.det.aCh 0 0 start (s.dev.g F.AMC.PWR_DL die) f.psdu f.cls (.downlink id)) (some (s.dev.slotLimit die)) → 
    Becomes (.listenSlotDownlink die id) s (if s.dev.driftBeyond die e.det (start + s.dev.ptOfs) = true then s.dev.desync die ⟨f.tag, f.tenant⟩ else if r.2 = true then r.1.setDl die id (fun f => { f with onAir := true, endAt := 0 }) else r.1)) ∧
  (∀ (s : State) (die id : Nat), (s.dev.airD die).dl.find? (fun f => f.id == id) = none → NoEffect (.listenSlotDownlink die id) s) ∧
  (∀ (s : State) (die id : Nat) (f : DlFrame) (e : NodeEnt) (start : Nat), 
    start = (s.dev.airD die).slotStart + s.dev.g F.AMC.SLOT_TIME_DL_OFS die * tickUs → (s.dev.airD die).dl.find? (fun f => f.id == id) = some f → s.dev.nodeOf ⟨f.tag, f.tenant⟩ = some e → ((f.leg = true ∨ f.onAir = true ∨ (e.det.assigned&&e.det.aBand == die - 3&&e.det.listen&&e.det.aSlot + 1 == (s.dev.airD die).slot&&e.det.due (s.dev.g F.AMC.SF_NUM_NUM die)) = false ∨ e.det.desync = true ∨ start < f.readyAt + 100 * tickUs ∨ s.dev.airGate (die - 3) f.cls start = false)) → 
    NoEffect (.listenSlotDownlink die id) s) ∧
  (∀ (s : State) (die id : Nat) (f : DlFrame), 
    (s.dev.airD die).dl.find? (fun f => f.id == id&&f.endAt != 0) = some f → (s.dev.inc C.AMC.DL_UNACK die).g F.AMC.REPLY_CFG_RETRY die ≤ f.sends → 
    Becomes (.nodeAckMissing die id) s ((((s.dev.inc C.AMC.DL_UNACK die).setAir die (fun a => { a with dl := a.dl.filter (fun x => x.id != id) })).inc C.AMC.DL_EXPIRED die).outcome ⟨f.tag, f.tenant⟩ (.expired id f.tag f.tenant))) ∧
  (∀ (s : State) (die id : Nat) (f : DlFrame), 
    (s.dev.airD die).dl.find? (fun f => f.id == id&&f.endAt != 0) = some f → f.sends < (s.dev.inc C.AMC.DL_UNACK die).g F.AMC.REPLY_CFG_RETRY die → 
    Becomes (.nodeAckMissing die id) s (((s.dev.inc C.AMC.DL_UNACK die).setDl die id (fun f => { f with onAir := false, endAt := 0 })).outcome ⟨f.tag, f.tenant⟩ (.unacked id f.tag f.tenant))) ∧
  (∀ (s : State) (die id : Nat), (s.dev.airD die).dl.find? (fun f => f.id == id&&f.endAt != 0) = none → NoEffect (.nodeAckMissing die id) s) ∧
  (∀ (s : State) (die : Nat) (r : SchedReq) (rest : (List SchedReq)) (d1 : Dev), 
    isAir die = true → s.dev.dieUp die = true → s.dev.act ≠ mQuiesce → (s.dev.airD die).planBlocked = false → (s.dev.airD die).reqs = r :: rest → d1 = s.dev.setAir die (fun a => { a with reqs := rest }) → 
    Becomes (.schedReq die) s ((d1.nodeOf ⟨r.tag, r.tenant⟩).elim d1 (fun e => d1.planFor die e r))) ∧
  (∀ (s : State) (die : Nat), 
    ((s.dev.airD die).reqs = [] ∨ isAir die = false ∨ s.dev.dieUp die = false ∨ s.dev.act = mQuiesce ∨ (s.dev.airD die).planBlocked = true) → 
    NoEffect (.schedReq die) s) ∧
  (∀ (s : State) (die tag tenant : Nat), 
    isAir die = true → s.dev.g F.AMC.WAKE_CFG_CALLS die ≠ 0 → (s.dev.nodeOf ⟨tag, tenant⟩).elim false (fun e => e.det.classW) = true → (s.dev.dlOf die ⟨tag, tenant⟩).any (fun f => !f.called&&!f.leg) = true → (s.dev.airD die).calls.any (fun c => c.tag == tag&&c.tenant == tenant) = false → 
    Becomes (.wakeCallSchedule die tag tenant) s (s.dev.setAir die (fun a => { a with calls := a.calls ++ [{ tag := tag, tenant := tenant, calls := 0, sent := false }], dl := mapIf (fun f => f.tag == tag&&f.tenant == tenant) (fun f => { f with called := true }) a.dl }))) ∧
  (∀ (s : State) (die tag tenant : Nat), 
    (isAir die = false ∨ s.dev.g F.AMC.WAKE_CFG_CALLS die = 0 ∨ (s.dev.nodeOf ⟨tag, tenant⟩).elim false (fun e => e.det.classW) = false ∨ (s.dev.dlOf die ⟨tag, tenant⟩).any (fun f => !f.called&&!f.leg) = false ∨ (s.dev.airD die).calls.any (fun c => c.tag == tag&&c.tenant == tenant) = true) → 
    NoEffect (.wakeCallSchedule die tag tenant) s) ∧
  (∀ (s : State) (die tag tenant : Nat) (c : WakeCall), 
    (s.dev.airD die).calls.find? (fun c => c.tag == tag&&c.tenant == tenant&&c.sent&&c.calls != 0) = some c → c.calls < s.dev.g F.AMC.WAKE_CFG_CALLS die → 
    Becomes (.wakeCallNoAnswer die tag tenant) s (s.dev.setAir die (fun a => { a with calls := mapIf (fun x => x.tag == tag&&x.tenant == tenant) (fun x => { x with sent := false }) a.calls }))) ∧
  (∀ (s : State) (die tag tenant : Nat) (c : WakeCall), 
    (s.dev.airD die).calls.find? (fun c => c.tag == tag&&c.tenant == tenant&&c.sent&&c.calls != 0) = some c → s.dev.g F.AMC.WAKE_CFG_CALLS die ≤ c.calls → 
    Becomes (.wakeCallNoAnswer die tag tenant) s (((s.dev.setAir die (fun a => { a with calls := a.calls.filter (fun x => !(x.tag == tag&&x.tenant == tenant)) })).inc C.AMC.WAKE_NORESP die).outcome ⟨tag, tenant⟩ (.noCall tag tenant))) ∧
  (∀ (s : State) (die tag tenant : Nat), 
    (s.dev.airD die).calls.find? (fun c => c.tag == tag&&c.tenant == tenant&&c.sent&&c.calls != 0) = none → 
    NoEffect (.wakeCallNoAnswer die tag tenant) s)

/-- What the LEG_ rows do: association, data request, disassociation, beacon request, expiry and release

Each request row takes the oldest frame off the queue of an Air die that is up when it is a legacy command of its kind, and otherwise has no effect. An association request that addresses no PAN, or not from an extended address, is counted in FMT_DROP; of an associated node it is acknowledged and delivered to its owner; of another, a secured one in a form not allowed, or that does not verify under the PAN's tenant, is counted in SEC_DROP or MIC_FAIL, and else it is acknowledged and answered. A data request that addresses no PAN is counted in FMT_DROP; else it is acknowledged, saying whether a frame is held, and delivered to the owner where it is secured or the node is associated, or else fetches the oldest frame held; a secured one of no node is counted in SEC_DROP. A disassociation notification of a known node to a PAN is acknowledged if it asks and delivered to the owner, and else counted in FMT_DROP. A beacon request makes every enabled PAN of the gang plan a beacon after its back-off. LEG_PERSIST_EXPIRY of a held frame drops and counts it; an unfetched response gives its address back, and a notification frees the address; of no held frame it has no effect. When the command is ready, LEG_RELEASE of a node without a root frees the address at once, of one whose downlink counter has run out counts and frees it, and of another holds a secured notification with the next counter, the first for a node with no entry; each ends with OK. (R24, R251, R252, R253, R254, R271, R278, Table 9-7, Table 9-8) -/
def Obligations.LegacyRows : Prop :=
  (∀ (s : State) (die : Nat) (f : RxFrame) (rest : (List RxFrame)) (h : LegHdr) (d1 : Dev), 
    isAir die = true → s.dev.dieUp die = true → (s.dev.airD die).macIn = f :: rest → 4 ≤ f.family → legCmd f.mac = some 1 → legHdr f.mac = some h → d1 = s.dev.setAir die (fun a => { a with macIn := rest }) → 
    Becomes (.legAssocRequest die) s (match d1.legAddressed die f.channel h with | none => d1.inc C.AMC.FMT_DROP die | some k => if h.sMode ≠ 3 then d1.inc C.AMC.FMT_DROP die else match (d1.airD die).leg.find? (fun n => n.ext == h.src&&n.state == 1) with | some n => (d1.immAck die f h.seq false).legDeliver die f h n | none => if h.sec = true ∧ h.secOk = false then d1.inc C.CRY.SEC_DROP 1 else if h.sec = true ∧ (d1.root (d1.g F.AMC.LEG_PAN_TENANT die 0 k)).bind (fun r => h.openWith r h.src f.mac) = none then d1.inc C.CRY.MIC_FAIL 1 else (d1.immAck die f h.seq false).legAssociate die h.src k)) ∧
  (∀ (s : State) (die : Nat) (f : RxFrame) (rest : (List RxFrame)) (h : LegHdr) (d1 a : Dev), 
    isAir die = true → s.dev.dieUp die = true → (s.dev.airD die).macIn = f :: rest → 4 ≤ f.family → legCmd f.mac = some 4 → legHdr f.mac = some h → d1 = s.dev.setAir die (fun a => { a with macIn := rest }) → a = d1.immAck die f h.seq (d1.legHeldFor die h).isSome → 
    Becomes (.legDataRequest die) s (if d1.legAddressed die f.channel h = none then d1.inc C.AMC.FMT_DROP die else match d1.legOf die h with | some n => if h.sec = true ∨ n.state = 1 then a.legDeliver die f h n else a.legFetch die f.channel h | none => if h.sec = true then d1.inc C.CRY.SEC_DROP 1 else a.legFetch die f.channel h)) ∧
  (∀ (s : State) (die : Nat) (f : RxFrame) (rest : (List RxFrame)) (h : LegHdr) (d1 : Dev), 
    isAir die = true → s.dev.dieUp die = true → (s.dev.airD die).macIn = f :: rest → 4 ≤ f.family → legCmd f.mac = some 3 → legHdr f.mac = some h → d1 = s.dev.setAir die (fun a => { a with macIn := rest }) → 
    Becomes (.legDisassocNotify die) s (match d1.legAddressed die f.channel h, d1.legOf die h with | some _, some n => (if h.ackReq = true then d1.immAck die f h.seq false else d1).legDeliver die f h n | _, _ => d1.inc C.AMC.FMT_DROP die)) ∧
  (∀ (s : State) (die : Nat) (f : RxFrame) (rest : (List RxFrame)) (d1 : Dev), 
    isAir die = true → s.dev.dieUp die = true → (s.dev.airD die).macIn = f :: rest → 4 ≤ f.family → legCmd f.mac = some 7 → d1 = s.dev.setAir die (fun a => { a with macIn := rest }) → 
    Becomes (.legBeaconRequest die) s (d1.each ((List.range 8).filter (fun k => d1.on F.AMC.LEG_PAN_EN die 0 k&&d1.g F.AMC.LEG_GANG_LEADER die 0 k == f.channel)) (fun d k => ((d.legSeq.2.csmaStart die 0).1.planTx die (legTx die f.channel (d.legSeq.2.csmaStart die 0).2 0 (d.g F.AMC.PWR_BCN die) (d.legBeacon die k d.legSeq.1) .legBeacon) none).1))) ∧
  (∀ (s : State) (die n : Nat), 
    ((n = 1 ∨ n = 3 ∨ n = 4 ∨ n = 7)) → ((isAir die = false ∨ s.dev.dieUp die = false ∨ (s.dev.airD die).macIn = [] ∨ (s.dev.airD die).macIn.head?.all (fun f => decide (4 ≤ f.family)&&legCmd f.mac == some n) = false)) → 
    NoEffect (if n = 1 then .legAssocRequest die else if n = 3 then .legDisassocNotify die else if n = 4 then .legDataRequest die else .legBeaconRequest die) s) ∧
  (∀ (s : State) (die id : Nat) (hx : LegHeld) (d1 : Dev), 
    (s.dev.airD die).held.find? (fun h => h.id == id) = some hx → d1 = (s.dev.setAir die (fun a => { a with held := a.held.filter (fun x => x.id != id) })).inc C.AMC.LEG_EXPIRED die → 
    Becomes (.legPersistExpiry die id) s (match hx.kind, (d1.airD die).leg.find? (fun n => n.short == hx.short) with | 1, some n => if n.state = 0 then d1.legFree die n else d1 | 2, some n => d1.legFree die n | _, _ => d1)) ∧
  (∀ (s : State) (die id : Nat), (s.dev.airD die).held.find? (fun h => h.id == id) = none → NoEffect (.legPersistExpiry die id) s) ∧
  (∀ (s : State) (id : Nat) (c : Cmd) (air : Nat) (n : LegNode), 
    Ready s.dev 0x0405 id c legReleaseRange → s.dev.legShort (c.par 24 2) = some (air, n) → s.dev.root (s.dev.legKeyOf air n).tenant = none → 
    Becomes (.legRelease id) s ((s.dev.legFree air n).finish id c.ok)) ∧
  (∀ (s : State) (id : Nat) (c : Cmd) (air : Nat) (n : LegNode) (k : NodeKey) (root : (List Byte)), 
    Ready s.dev 0x0405 id c legReleaseRange → s.dev.legShort (c.par 24 2) = some (air, n) → k = s.dev.legKeyOf air n → s.dev.root k.tenant = some root → (s.dev.nodeOf k).isSome = true → s.dev.nextFcnt k = none → 
    Becomes (.legRelease id) s (((s.dev.inc C.CRY.DL_WRAP k.owner).legFree air n).finish id c.ok)) ∧
  (∀ (s : State) (id : Nat) (c : Cmd) (air : Nat) (n : LegNode) (k : NodeKey) (root : (List Byte)) (d1 : Dev) (fc : Nat) (d2 : Dev) (level : Nat) (hd : (List Byte)) (sl : (List Byte×List Byte)), 
    Ready s.dev 0x0405 id c legReleaseRange → s.dev.legShort (c.par 24 2) = some (air, n) → k = s.dev.legKeyOf air n → s.dev.root k.tenant = some root → (if (s.dev.nodeOf k).isSome = true then s.dev.nextFcnt k else some (s.dev, 1)) = some (d1, fc) → d2 = d1.legSeq.2 → level = d1.tenMic k.owner k.tenant + 5 → hd = legHead d1.cpt.eui64 3 d1.legSeq.1 (d1.g F.AMC.LEG_PAN_PAN_ID air 0 n.pan) 2 n.short true false true ++ toLE 1 (level + 8) ++ toLE 4 fc ++ toLE 1 legOwnIdx ++ toLE 1 3 → sl = ccmSeal (legKey root n.ext legOwnIdx) (legNonce d1.cpt.eui64 fc level) hd [0x01#8] (micLen (legMicl level)) true → 
    Becomes (.legRelease id) s ((d2.legHold air 2 n.short n.ext d1.legSeq.1 (d1.legFcs air (hd ++ sl.1 ++ sl.2)) none).finish id c.ok))

/-- What NEIGHBOUR_BEACON, NEIGHBOUR_LOST, NEIGHBOUR_HOLDOFF_EXPIRY, PLAN_SET, PLAN_CLEAR, PLAN_GET and DESYNC_CLEAR do

NEIGHBOUR_BEACON of an Air die that is up takes the oldest frame off its queue when it is a beacon of another border router. Where the neighbour is known, its entry becomes what the beacon says with its channels kept and this one added, to eight at most; where it is not and the list holds fewer than 32, it is added; both follow it; with the list full the beacon is counted and raises NBR_FULL. Of another frame, or none, the row has no effect. NEIGHBOUR_LOST of a heard neighbour marks it lost, starts its hold-off and counts, and of another has no effect. NEIGHBOUR_HOLDOFF_EXPIRY forgets the neighbour if it is lost. When their commands are ready: PLAN_SET waits while the load map of its band is rebuilt, and else gives the resident node its assignment, sends it and ends with OK; PLAN_CLEAR withdraws it, sends the release and ends with OK; PLAN_GET writes sixteen octets of it to the data buffer and ends with OK; DESYNC_CLEAR clears the node's desynchronised mark and its unacknowledged count, starts its drift record anew and ends with OK. (R102, R244, R245, R249, R255, R256, R257, R263, Table 9-7, Table 9-11) -/
def Obligations.NeighbourAndPlan : Prop :=
  (∀ (s : State) (die : Nat) (f : RxFrame) (rest : (List RxFrame)) (d1 : Dev) (nt : Nat) (old : (Option Nbr)) (cs : (List Nat)) (n : Nbr), 
    isAir die = true → s.dev.dieUp die = true → (s.dev.airD die).macIn = f :: rest → d1 = s.dev.setAir die (fun a => { a with macIn := rest }) → s.dev.isNbrBeacon die f = true → nt = leAt f.psdu 2 4 → old = (d1.airD die).nbrs.find? (fun n => n.tag == nt) → cs = old.elim [] (fun n => n.chans) → n = { tag := nt, state := 1, aligned := bitOf (leAt f.psdu 1 1) 2, snr := f.snr, slotCode := bitsOf (leAt f.psdu 10 2) 0 3, len := bitsOf (leAt f.psdu 10 2) 3 12, bslots := bitsOf (leAt f.psdu 12 2) 12 4, start := Dev.natStart die f - leAt f.psdu 8 2 * tickUs, chans := if cs.contains f.channel||decide (8 ≤ cs.length) then cs else cs ++ [f.channel], missed := 0, hold := 0 } → 
    Becomes (.neighbourBeacon die) s (if old = none ∧ 32 ≤ (d1.airD die).nbrs.length then (d1.inc C.AMC.NBR_FULL die).raise E.AMC.NBR_FULL die else ((d1.setAir die (fun a => { a with nbrs := if old.isSome then mapIf (fun x => x.tag == nt) (fun _ => n) a.nbrs else a.nbrs ++ [n] })).followNbr die n (leAt f.psdu 6 2)).showNbr die)) ∧
  (∀ (s : State) (die : Nat), 
    (isAir die = false ∨ s.dev.dieUp die = false ∨ (s.dev.airD die).macIn = [] ∨ (s.dev.airD die).macIn.head?.all (fun f => s.dev.isNbrBeacon die f) = false) → 
    NoEffect (.neighbourBeacon die) s) ∧
  (∀ (s : State) (die tag : Nat), 
    isAir die = true → (s.dev.airD die).nbrs.any (fun n => n.tag == tag&&n.state == 1) = true → 
    Becomes (.neighbourLost die tag) s (((s.dev.setAir die (fun a => { a with nbrs := mapIf (fun n => n.tag == tag) (fun n => { n with state := 2, hold := s.dev.g F.AMC.NBR_CFG_HOLDOFF die }) a.nbrs })).inc C.AMC.NBR_LOST die).showNbr die)) ∧
  (∀ (s : State) (die tag : Nat), 
    (isAir die = false ∨ (s.dev.airD die).nbrs.any (fun n => n.tag == tag&&n.state == 1) = false) → 
    NoEffect (.neighbourLost die tag) s) ∧
  (∀ (s : State) (die tag : Nat), 
    isAir die = true → 
    Becomes (.neighbourHoldoffExpiry die tag) s ((s.dev.setAir die (fun a => { a with nbrs := a.nbrs.filter (fun n => !(n.tag == tag&&n.state == 2)) })).showNbr die)) ∧
  (∀ (s : State) (id : Nat) (c : Cmd) (d1 : Dev) (e : NodeEnt), 
    Ready s.dev 0x0401 id c planSetRange → (s.dev.airD (bandAir (c.par 32 2 / 32768))).planBlocked = false → d1 = (s.dev.setNode c.nodeKey (fun e => { e with det := { e.det with assigned := true, aBand := c.par 32 2 / 32768, listen := bitOf (c.par 38 1) 0, apin := bitOf (c.par 38 1) 1, aSlot := c.par 30 2, aCh := c.par 32 2 % 512, aPeriod := c.par 34 2, aPhase := c.par 36 2 } })).showPlan → d1.resident c.nodeKey = some e → 
    Becomes (.planSet id) s ((d1.sendOwn c.die1 c.nodeKey 15 (assignElem e.det)).finish id c.ok)) ∧
  (∀ (s : State) (id : Nat) (c : Cmd), 
    Ready s.dev 0x0401 id c planSetRange → (s.dev.airD (bandAir (c.par 32 2 / 32768))).planBlocked = true → 
    NoEffect (.planSet id) s) ∧
  (∀ (s : State) (id : Nat) (c : Cmd), 
    Ready s.dev 0x0402 id c planRange → 
    Becomes (.planClear id) s ((((s.dev.setNode c.nodeKey (fun e => { e with det := e.det.unassign })).showPlan).sendOwn c.die1 c.nodeKey 15 releaseElem).finish id c.ok)) ∧
  (∀ (s : State) (id : Nat) (c : Cmd) (e : NodeEnt), 
    Ready s.dev 0x0403 id c (fun d c => if c.len != 16 then some 0 else planRange d c) → s.dev.resident c.nodeKey = some e → 
    BecomesWith (.planGet id false) s (s.dev.finish id c.ok)
      ([(c.addr, padTo 16 (toLE 2 e.det.aSlot ++ toLE 2 (e.det.aCh + e.det.aBand * 32768) ++ toLE 2 e.det.aPeriod ++ toLE 2 e.det.aPhase ++ toLE 1 (flag e.det.listen 0 + flag e.det.apin 1) ++ toLE 1 (flag e.det.classP 0 + flag e.det.classW 1) ++ toLE 1 e.det.unack ++ toLE 1 (b2n e.det.desync)))])) ∧
  (∀ (s : State) (id : Nat) (c : Cmd), 
    Ready s.dev 0x0404 id c planRange → 
    Becomes (.desyncClear id) s ((s.dev.setNode c.nodeKey (fun e => { e with det := { e.det with desync := false, unack := 0, oLast := 0, tLast := s.dev.evTime } })).finish id c.ok))

/-- What KEY_IMPORT, KEY_ERASE, KEY_KCV, KEY_PERSIST, VAULT_RELOAD, REMASK_START, REMASK_DONE and REMASK_LATE do

When their commands are ready: KEY_KCV writes for each slot the check value and a 1, or four zeros for an empty slot, and ends with OK. While HOLD is set KEY_IMPORT, KEY_ERASE, KEY_PERSIST and VAULT_RELOAD end with UNIT_DOWN and do nothing. With no HOLD: KEY_IMPORT of clear keys ends with MODE out of BRINGUP and with LOCKED on a locked vault; else it writes keys into consecutive slots until one fails, which ends it with RANGE, or it is stopped, which ends it with UNIT_DOWN, each with the count loaded, or all are loaded and it ends with OK. KEY_ERASE empties its slots and ends with OK. KEY_PERSIST that ends well, or loses power after step 5, writes a snapshot with a fresh IV to the chosen slot as a valid blob with the next sequence number, shows it loaded, counts, and answers the number; with a failed read-back, or a tamper, it leaves the slot invalid and ends with DMA_ERROR, or UNIT_DOWN; with power lost before that the slot is invalid and the command goes on. VAULT_RELOAD loads the newest valid blob and answers its number. REMASK_START asks for the vault's token when re-masking is on, no sweep runs, the token is not held and boot has ended; REMASK_DONE of a granted sweep puts every key under the other generation's mask, forgets the old mask, counts and returns the token; each otherwise has no effect. REMASK_LATE shows the age and raises MASK_LATE when it passes twice a period that is not 0. (R280, R281, R282, R283, R284, R285, R286, R287, R294, Table 10-5, Table 10-7, Table 10-10) -/
def Obligations.VaultRows : Prop :=
  (∀ (s : State) (id : Nat) (c : Cmd) (w n : Nat) (r : (Dev×Nat×Bool)) (stopAt : (Option Nat)), 
    Ready s.dev 0x0301 id c importRange → s.dev.vaultHold = false → ((c.par 25 1 = 0xFF → s.dev.mode = mBringup ∧ s.dev.locked ⟨.VLT, 0, 0⟩ = false)) → w = (if c.par 25 1 = 0xFF then classLen (c.par 24 1) else classLen (c.par 24 1) + 8) → n = stopAt.elim c.cnt (fun k => min k c.cnt) → r = Dev.importKeys s.dev (c.par 24 1) (c.par 26 2) (if c.par 25 1 = 0xFF then none else s.dev.key 2 (c.par 25 1)) ((List.range n).map (fun i => memRead s.host (c.addr + w * i) w)) 0 → 
    Becomes (.keyImport id false stopAt) s (r.1.finish id (if r.2.2 = true then c.bad stRange r.2.1 else if r.2.1 < c.cnt then c.bad stDown r.2.1 else c.ok))) ∧
  (∀ (s : State) (id : Nat) (c : Cmd) (stopAt : (Option Nat)), 
    Ready s.dev 0x0301 id c importRange → s.dev.vaultHold = false → c.par 25 1 = 0xFF → ((s.dev.mode ≠ mBringup ∨ s.dev.locked ⟨.VLT, 0, 0⟩ = true)) → 
    Becomes (.keyImport id false stopAt) s (s.dev.finish id (c.bad (if s.dev.mode ≠ mBringup then stMode else stLocked)))) ∧
  (∀ (s : State) (id : Nat) (c : Cmd) (fate : PersistEnd) (stopAt : (Option Nat)), 
    s.dev.vaultHold = true → 
    (Ready s.dev 0x0301 id c importRange → Becomes (.keyImport id false stopAt) s (s.dev.finish id (c.bad stDown))) ∧ (Ready s.dev 0x0302 id c (keyRange 4096) → Becomes (.keyErase id) s (s.dev.finish id (c.bad stDown))) ∧ (Ready s.dev 0x0304 id c persistRange → Becomes (.keyPersist id fate) s (s.dev.finish id (c.bad stDown))) ∧ (Ready s.dev 0x0305 id c noRange → Becomes (.vaultReload id) s (s.dev.finish id (c.bad stDown)))) ∧
  (∀ (s : State) (id : Nat) (c : Cmd), 
    Ready s.dev 0x0302 id c (keyRange 4096) → s.dev.vaultHold = false → 
    Becomes (.keyErase id) s ((s.dev.each (List.range c.cnt) (fun d i => d.setKey (c.par 24 1) (c.par 26 2 + i) none)).finish id c.ok)) ∧
  (∀ (s : State) (id : Nat) (c : Cmd), 
    Ready s.dev 0x0303 id c kcvRange → 
    BecomesWith (.keyKcv id false) s (s.dev.finish id c.ok)
      ([(c.addr, (List.range c.cnt).flatMap (fun i => (s.dev.key (c.par 24 1) (c.par 26 2 + i)).elim [0#8, 0#8, 0#8, 0#8] (fun k => kcvOf k ++ [1#8])))])) ∧
  (∀ (s : State) (id : Nat) (c : Cmd) (fate : PersistEnd) (i seq : Nat) (good : BlobSlot) (d1 fin lost : Dev), 
    Ready s.dev 0x0304 id c persistRange → s.dev.vaultHold = false → i = s.dev.persistSlot → seq = s.dev.g F.VLT.BLOB_SEQ_SEQ + 1 → good = ⟨1, seq, s.dev.snapshot, (s.dev.freshBytes 8).1⟩ → d1 = (s.dev.freshBytes 8).2 → fin = (((d1.setBlob i good).w F.VLT.BLOB_SEQ_SEQ seq).w F.VLT.BLOB_STAT_LOADED (i + 1)).inc C.VLT.PERSISTS → lost = d1.setBlob i ⟨2, 0, [], []⟩ → 
    Becomes (.keyPersist id fate) s (match fate with | .done => fin.finish id (c.ok seq) | .readFail => lost.finish id (c.bad stDma) | .tamper => lost.finish id (c.bad stDown) | .powerLost step => if 5 < step then fin.finish id (c.ok seq) else lost.w F.VLT.BLOB_STAT_PERSIST_BUSY 1)) ∧
  (∀ (s : State) (id : Nat) (c : Cmd), 
    Ready s.dev 0x0305 id c noRange → s.dev.vaultHold = false → 
    Becomes (.vaultReload id) s (s.dev.loadBlob.1.finish id (c.ok s.dev.loadBlob.2))) ∧
  (∀ (s : State), 
    s.dev.g F.VLT.MASK_CFG_PERIOD ≠ 0 → s.dev.vault.sweep = false → s.dev.holds 5 (2 ^ 3) = false → s.dev.booted = true → 
    Becomes (.remaskStart) s ((s.dev.requestToken ⟨5, 2 ^ 3, none, 0⟩).1)) ∧
  (∀ (s : State), 
    (s.dev.g F.VLT.MASK_CFG_PERIOD = 0 ∨ s.dev.vault.sweep = true ∨ s.dev.holds 5 (2 ^ 3) = true ∨ s.dev.booted = false) → 
    NoEffect (.remaskStart) s) ∧
  (∀ (s : State) (old g : Nat) (d1 : Dev), 
    s.dev.holds 5 (2 ^ 3) = true → old = s.dev.g F.VLT.MASK_STAT_GEN → g = 1 - old → d1 = { s.dev with vault := { s.dev.vault with keys := s.dev.vault.keys.map (fun (k : VKey) => s.dev.vault.entry k.place g (s.dev.vault.plain k)), uniqueKey := masked (s.dev.vault.mask g) (masked (s.dev.vault.mask old) s.dev.vault.uniqueKey), masks := s.dev.vault.masks.set old [], sweep := false, sweptAt := s.dev.time.lt } } → 
    Becomes (.remaskDone) s ((((d1.w F.VLT.MASK_STAT_GEN g).showMaskAge).inc C.VLT.REMASKS).releaseToken 5 (2 ^ 3))) ∧
  (∀ (s : State), s.dev.holds 5 (2 ^ 3) = false → NoEffect (.remaskDone) s) ∧
  (∀ (s : State), 
    s.dev.showMaskAge.g F.VLT.MASK_CFG_PERIOD ≠ 0 → 200 * s.dev.showMaskAge.g F.VLT.MASK_CFG_PERIOD < s.dev.showMaskAge.g F.VLT.MASK_STAT_AGE → 
    Becomes (.remaskLate) s (s.dev.showMaskAge.raise E.VLT.MASK_LATE)) ∧
  (∀ (s : State), 
    (s.dev.showMaskAge.g F.VLT.MASK_CFG_PERIOD = 0 ∨ s.dev.showMaskAge.g F.VLT.MASK_STAT_AGE ≤ 200 * s.dev.showMaskAge.g F.VLT.MASK_CFG_PERIOD) → 
    Becomes (.remaskLate) s (s.dev.showMaskAge))

/-- What AIR_FRAME, WIRED_FRAME, COMMIT_EVENT, TIMER, XFER, MODE_EVENT, MAINT, PLAY_WATCHDOG and CRYPTO_JOB_DONE do

AIR_FRAME with a frame waiting: where it may be placed and a crypto reservation is free it is taken, numbered and journalled, takes a reservation and runs its play; with none free it is dropped and counted, its cells are released and no number is taken; where it may not be placed, the turn passes. WIRED_FRAME of an Ethernet frame that may be placed, with no lane error, takes it, is numbered and journalled and is forwarded. COMMIT_EVENT of an open order runs its next commit. TIMER of an open order runs each due kind, with a time step that waited first, and otherwise has no effect. XFER that may be placed and finds cells, with no lane error, takes its number and its effect. MODE_EVENT of a die that is up, with no earlier command in flight, takes the next mode, its number unless the device is a SHADOW, and its effect. MAINT of a die that is up takes the next token event and its number, in SHADOW none. PLAY_WATCHDOG of a frame of the air lane that may be placed takes its number, drops the packet, records the abort, counts and raises WATCHDOG. CRYPTO_JOB_DONE passes the result of a job held through its region's lane, clears the job's working key and frees its reservation. With nothing waiting AIR_FRAME, WIRED_FRAME, XFER, MODE_EVENT and MAINT have no effect. (R24, R59, R85, R273, R275, R338, R339, R344, R346, R349, R355, R525) -/
def Obligations.SequencedEvents : Prop :=
  (∀ (s : State) (die : Nat) (env : PlayEnv) (a : AirIn) (rest : (List AirIn)) (d1 d2 : Dev), 
    (s.dev.route die).air = a :: rest → s.dev.mayPlace die 0 = true → s.dev.cryFree die = true → d1 = (s.dev.setRoute die (fun r => { r with air := rest })).place die 0 0 → d2 = d1.journal die 0 (if env.lane = 0 then 0 else 2) a.tref (.air a) → 
    Becomes (.airFrame die env) s ((((d2.takeJob die).1.playAir die (d2.takeJob die).2 a env).sampleAll die env).showLanes die)) ∧
  (∀ (s : State) (die : Nat) (env : PlayEnv) (a : AirIn) (rest : (List AirIn)), 
    (s.dev.route die).air = a :: rest → s.dev.mayPlace die 0 = true → s.dev.cryFree die = false → 
    Becomes (.airFrame die env) s ((((s.dev.setRoute die (fun r => { r with air := rest })).inc C.ING.CRY_FULL die).release die a.buf).showLanes die)) ∧
  (∀ (s : State) (die : Nat) (env : PlayEnv) (a : AirIn) (rest : (List AirIn)), 
    (s.dev.route die).air = a :: rest → s.dev.mayPlace die 0 = false → 
    Becomes (.airFrame die env) s (s.dev.turned die 0)) ∧
  (∀ (s : State) (die : Nat) (env : PlayEnv) (f : FwdIn) (rest : (List WiredIn)) (d1 : Dev), 
    (s.dev.route die).wired = .eth f :: rest → s.dev.mayPlace die 1 = true → env.lane = 0 → d1 = ((s.dev.setRoute die (fun r => { r with wired := rest })).place die 1 1).journal die 1 0 f.time (.wired (.eth f)) → 
    Becomes (.wiredFrame die env) s (s.dev.orWait ((((d1.fwdPlay die f).release die f.buf).sampleAll die env).showLanes die))) ∧
  (∀ (s : State) (die : Nat) (env : PlayEnv), 
    (s.dev.route die).air = [] → (s.dev.route die).wired = [] → (s.dev.route die).xfer = [] → (s.dev.route die).modeEv = [] → s.dev.maintEvent die = none → 
    NoEffect (.airFrame die env) s ∧ NoEffect (.wiredFrame die env) s ∧ NoEffect (.xfer die env) s ∧ NoEffect (.modeEvent die) s ∧ NoEffect (.maint die) s) ∧
  (∀ (s : State) (die : Nat) (pc : PendCommit), 
    s.dev.commitOpen die = true → s.dev.nextCommit die = some pc → 
    Becomes (.commitEvent die) s (s.dev.commitEvent die pc)) ∧
  (∀ (s : State) (die : Nat) (kinds : (List (Nat×Nat))), 
    s.dev.seqOpen die = true → 
    Becomes (.timer die kinds) s ((timed s.dev die kinds).each (s.dev.dueKinds die kinds) (fun d k => forN k.2 d (fun d _ => d.timerWork die k.1)))) ∧
  (∀ (s : State) (die : Nat) (kinds : (List (Nat×Nat))), s.dev.seqOpen die = false → NoEffect (.timer die kinds) s) ∧
  (∀ (s : State) (die : Nat) (env : PlayEnv) (x : XferIn) (rest : (List XferIn)) (d1 : Dev) (b : Nat) (d2 : Dev), 
    (s.dev.route die).xfer = x :: rest → s.dev.mayPlace die 3 = true → env.lane = 0 → (s.dev.setRoute die (fun r => { r with xfer := rest })).alloc die 3 x.size = some (d1, b) → d2 = d1.place die 3 6 → 
    Becomes (.xfer die env) s (s.dev.orWait ((((d2.journal die 6 0 d2.evTime (.xfer x)).playXfer die b x).sampleAll die env).showLanes die))) ∧
  (∀ (s : State) (die m after : Nat) (rest : (List (Nat×Nat))) (d0 d1 : Dev), 
    (s.dev.route die).modeEv = (m, after) :: rest → s.dev.dieUp die = true → s.dev.hl.inflight.any (fun c => decide (c.id < after)&&bitOf c.toSeq (die - 1)) = false → d0 = s.dev.setRoute die (fun r => { r with modeEv := rest }) → d1 = (if d0.mode = mShadow then d0 else d0.sequence die 14) → 
    Becomes (.modeEvent die) s ((d1.journal die 14 0 d1.evTime (.mode m)).regime die m)) ∧
  (∀ (s : State) (die m after : Nat) (rest : (List (Nat×Nat))), 
    (s.dev.route die).modeEv = (m, after) :: rest → ((s.dev.dieUp die = false ∨ s.dev.hl.inflight.any (fun c => decide (c.id < after)&&bitOf c.toSeq (die - 1)) = true)) → 
    NoEffect (.modeEvent die) s) ∧
  (∀ (s : State) (die : Nat) (e : (TokenReq×Bool)) (d1 : Dev), 
    s.dev.maintEvent die = some e → s.dev.dieUp die = true → d1 = { s.dev with mt := { s.dev.mt with events := s.dev.mt.events.erase (die, e.1, e.2) } } → 
    Becomes (.maint die) s (if d1.mode = mShadow then d1 else d1.sequence die 15)) ∧
  (∀ (s : State) (die kind play buf : Nat) (rest : (List AirIn)) (a : AirIn) (d1 : Dev), 
    (s.dev.route die).air = a :: rest → s.dev.headPlay die 0 = some (kind, play, buf) → s.dev.mayPlace die 0 = true → d1 = ((s.dev.place die 0 kind).journal die kind 4 (s.dev.place die 0 kind).evTime (.air a)).setRoute die (fun r => { r with air := r.air.tail }) → 
    Becomes (.playWatchdog die 0) s ((((((d1.aborted die play 1).inc C.PLY.WD_EXPIRED die (d1.cluster die)).release die buf).raise E.PLY.WATCHDOG die (d1.cluster die))).showLanes die)) ∧
  (∀ (s : State) (die src : Nat), s.dev.headPlay die src = none → NoEffect (.playWatchdog die src) s) ∧
  (∀ (s : State) (die job : Nat) (d1 : Dev), 
    d1 = ((s.dev.route die).jobs.find? (fun j => j.id == job)).elim s.dev (fun j => s.dev.viaLane die (4 * j.region) 2 j.id) → 
    Becomes (.cryptoJobDone die job) s (((d1.wkEnd die (some job)).setRoute die (fun r => { r with jobs := r.jobs.filter (fun j => j.id != job) })).showCry die))

/-- What the TIMER rows for age and reassembly, the internal events, POP_REQUEST and SLOW_PATH_OP do

REASSEMBLY_EXPIRY, AGE_TICK and FWD_AGE_TICK of an open order, with no time step waiting, run the TIMER work of kind 6, 2 and 3, and of a closed order have no effect. Of the internal event that heads a Route die's input and may be placed: AGE_CAS ages out the node or the forwarding entry if it has not changed; POP_ANSWER gives the creation its answer; SLOW_RESULT without a lane error resumes what waits for the slow path's result; MIGRATE moves the entries of its bucket and asks for the next bucket, or ends the rehash after the last; LEARN learns the address; AIR_OUTCOME takes the report's effect; EGRESS_DONE completes the taking of a packet. With no internal event waiting these seven have no effect. POP_REQUEST takes the oldest request; for a die that is up it counts the node and answers that it may be made while the population is below its limit, and at the limit answers that it may not; for a die that is down, or with none, it does nothing more. SLOW_PATH_OP of a die that is up, out of SHADOW, takes the oldest operation: with no cold record it counts a miss and answers so; with a record it counts a hit, and answers a grant that is counted at once below the limit, and none at the limit or of a record that did not fit; while a request waits for the population counter the operation waits too. (R242, R310, R312, R313, R316, R318, R322, R324, R337, R339, R360, R374) -/
def Obligations.InternalEvents : Prop :=
  (∀ (s : State) (die : Nat), 
    s.dev.seqOpen die = true → bitOf s.dev.time.stepFor (die - 1) = false → 
    Becomes (.reassemblyExpiry die) s ((timed s.dev die [(6, 1)]).timerWork die 6)) ∧
  (∀ (s : State) (die : Nat), 
    s.dev.seqOpen die = true → bitOf s.dev.time.stepFor (die - 1) = false → 
    Becomes (.ageTick die) s ((timed s.dev die [(2, 1)]).timerWork die 2)) ∧
  (∀ (s : State) (die : Nat), 
    s.dev.seqOpen die = true → bitOf s.dev.time.stepFor (die - 1) = false → 
    Becomes (.fwdAgeTick die) s ((timed s.dev die [(3, 1)]).timerWork die 3)) ∧
  (∀ (s : State) (die : Nat), 
    s.dev.seqOpen die = false → 
    NoEffect (.reassemblyExpiry die) s ∧ NoEffect (.ageTick die) s ∧ NoEffect (.fwdAgeTick die) s) ∧
  (∀ (s : State) (die : Nat), 
    (s.dev.route die).int = [] → 
    NoEffect (.ageCas die) s ∧ NoEffect (.migrate die) s ∧ NoEffect (.learn die) s ∧ NoEffect (.airOutcome die) s ∧ NoEffect (.egressDone die) s) ∧
  (∀ (s : State) (die pos : Nat) (key : NodeKey) (age : Nat) (ver : Bool) (rest : (List IntEv)), 
    Heads s.dev die (.ageCas pos key age ver) rest → 
    Becomes (.ageCas die) s (((placed s.dev die 8 (.ageCas pos key age ver) rest).ageCas die pos key age ver).showLanes die)) ∧
  (∀ (s : State) (die : Nat) (f : FwdEnt) (rest : (List IntEv)), 
    Heads s.dev die (.ageFwd f) rest → 
    Becomes (.ageCas die) s (((placed s.dev die 8 (.ageFwd f) rest).fwdAgeCas die f).showLanes die)) ∧
  (∀ (s : State) (die : Nat) (k : NodeKey) (rest : (List (Nat×NodeKey))) (d1 : Dev) (ok : Bool) (d2 : Dev), 
    s.dev.popQ = (die, k) :: rest → d1 = { s.dev with popQ := rest } → d1.dieUp die = true → ok = decide (d1.pop < d1.popMax) → d2 = (if ok = true then { d1 with pop := d1.pop + 1 }.showPop else d1) → 
    Becomes (.popRequest) s ((d2.setRoute die (fun r => { r with int := r.int ++ [IntEv.pop k ok] })).showLanes die)) ∧
  (∀ (s : State) (die : Nat) (k : NodeKey) (rest : (List (Nat×NodeKey))) (d1 : Dev), 
    s.dev.popQ = (die, k) :: rest → d1 = { s.dev with popQ := rest } → d1.dieUp die = false → 
    Becomes (.popRequest) s (d1)) ∧
  (∀ (s : State), s.dev.popQ = [] → NoEffect (.popRequest) s) ∧
  (∀ (s : State) (die : Nat) (env : PlayEnv) (k : NodeKey) (ok : Bool) (rest : (List IntEv)), 
    Heads s.dev die (.pop k ok) rest → 
    Becomes (.popAnswer die env) s ((((placed s.dev die 7 (.pop k ok) rest).popAnswer die k ok).showLanes die).sampleAll die env)) ∧
  (∀ (s : State) (die : Nat) (o : SlowOp) (rest : (List SlowOp)) (d1 : Dev), 
    (s.dev.route die).slow = o :: rest → s.dev.dieUp die = true → s.dev.mode ≠ mShadow → d1 = s.dev.setRoute die (fun r => { r with slow := rest }) → d1.coldRec o.key = none → 
    Becomes (.slowPathOp die) s (((d1.inc C.NTB.COLD_MISS die).setRoute die (fun r => { r with int := r.int ++ [.slow o false false] })).showLanes die)) ∧
  (∀ (s : State) (die : Nat) (o : SlowOp) (rest : (List SlowOp)) (d1 : Dev) (e : NodeEnt) (d2 : Dev) (grant : Bool), 
    (s.dev.route die).slow = o :: rest → s.dev.dieUp die = true → s.dev.mode ≠ mShadow → d1 = (s.dev.setRoute die (fun r => { r with slow := rest })).inc C.NTB.COLD_HITS die → (s.dev.setRoute die (fun r => { r with slow := rest })).coldRec o.key = some e → ((e.ovf = true ∨ s.dev.popQ = [])) → grant = (!e.ovf&&decide (d1.pop < d1.popMax)) → d2 = (if grant = true then { d1 with pop := d1.pop + 1 }.showPop else d1) → 
    Becomes (.slowPathOp die) s ((d2.setRoute die (fun r => { r with int := r.int ++ [.slow o grant true] })).showLanes die)) ∧
  (∀ (s : State) (die : Nat) (o : SlowOp) (rest : (List SlowOp)) (e : NodeEnt), 
    (s.dev.route die).slow = o :: rest → (s.dev.setRoute die (fun r => { r with slow := rest })).coldRec o.key = some e → e.ovf = false → s.dev.popQ ≠ [] → 
    NoEffect (.slowPathOp die) s) ∧
  (∀ (s : State) (die : Nat), ((s.dev.route die).slow = [] ∨ s.dev.dieUp die = false ∨ s.dev.mode = mShadow) → NoEffect (.slowPathOp die) s) ∧
  (∀ (s : State) (die : Nat) (env : PlayEnv) (o : SlowOp) (g f : Bool) (rest : (List IntEv)), 
    Heads s.dev die (.slow o g f) rest → env.lane = 0 → 
    Becomes (.slowResult die env) s (s.dev.orWait ((((placed s.dev die 10 (.slow o g f) rest).slowResult die env o g f).showLanes die).sampleAll die env))) ∧
  (∀ (s : State) (die t b : Nat) (rest : (List IntEv)) (m : Migration) (d1 d2 d3 d4 : Dev), 
    Heads s.dev die (.migrate t b) rest → d1 = placed s.dev die 9 (.migrate t b) rest → d1.migOf die t = some m → d2 = (if m.table = 0 then d1.each ((d1.route die).nodes.filter (fun e => e.pos / 4 == m.pos)) (fun d e => d.migrateNode die m.seed e) else d1.each ((d1.route die).fwd.filter (fun e => e.pos / 4 == m.pos)) (fun d e => d.migrateFwd die m.seed e)) → d3 = d2.setRoute die (fun r => { r with mig := mapIf (fun y => y.table == m.table) (fun y => { y with pos := m.pos + 1 }) r.mig }) → d4 = (if m.table = 0 then d3.w F.NTB.REHASH_POS_POS (m.pos + 1) die else d3) → 
    Becomes (.migrate die) s ((if m.pos + 1 < (if m.table = 0 then ntbBuckets else fwdBuckets) then d4.setRoute die (fun r => { r with int := r.int ++ [.migrate m.table (m.pos + 1)] }) else d4.migrateEnd die m).showLanes die)) ∧
  (∀ (s : State) (die : Nat) (l : FwdEnt) (rest : (List IntEv)), 
    Heads s.dev die (.learn l) rest → 
    Becomes (.learn die) s (((placed s.dev die 11 (.learn l) rest).learn die l).showLanes die)) ∧
  (∀ (s : State) (die : Nat) (o : AirOut) (rest : (List IntEv)), 
    Heads s.dev die (.airOut o) rest → 
    Becomes (.airOutcome die) s (((placed s.dev die 12 (.airOut o) rest).airOutcome o).showLanes die)) ∧
  (∀ (s : State) (die port q : Nat) (rest : (List IntEv)), 
    Heads s.dev die (.egress port q) rest → 
    Becomes (.egressDone die) s (((placed s.dev die 13 (.egress port q) rest).egressDone die port q).showLanes die))

/-- What the commands over node tables and forwarding tables do

When their commands are ready: NODE_READ of a node with a resident entry writes its 96 octets to the data buffer and answers 0x100; with a cold record alone it writes that and answers 0x200; with neither it ends with RANGE and cause 1. NODE_WRITE of a record that is not valid or is of another key ends with RANGE; of a node that exists it overwrites the entry and answers its place; of one that does not it asks for the creation and stays in flight, or ends with RANGE and cause 5 where the creation is already asked for or cannot be asked for. NODE_DELETE and NODE_PIN of a node without an entry end with RANGE and cause 1; else NODE_DELETE deletes the node's entries, and NODE_PIN sets the pins and, with SET_MAP, the map. TABLE_DUMP writes whole buckets from the cursor on and answers the next cursor. TABLE_REHASH that is granted its token loads the new seed, starts the migration at bucket 0 and stays in flight; with the queue of requests full it ends with RANGE and cause 7; queued, it waits with an interim record due. FWD_ADD adds its records on each addressed die in turn, FWD_DELETE deletes the entries with its records' keys that name no device, and FWD_FLUSH the learned ones, all or those of a port. (R310, R311, R317, R318, R321, R332, R333, Table 11-8) -/
def Obligations.TableRows : Prop :=
  (∀ (s : State) (id : Nat) (c : Cmd) (e : NodeEnt), 
    Ready s.dev 0x0101 id c nodeRange96 → s.dev.resident c.nodeKey = some e → 
    BecomesWith (.nodeRead id false) s (s.dev.finish id (c.ok 256))
      ([(c.addr, e.bytes false)])) ∧
  (∀ (s : State) (id : Nat) (c : Cmd) (e : NodeEnt), 
    Ready s.dev 0x0101 id c nodeRange96 → s.dev.resident c.nodeKey = none → s.dev.coldRec c.nodeKey = some e → 
    BecomesWith (.nodeRead id false) s (s.dev.finish id (c.ok 512))
      ([(c.addr, e.bytes true)])) ∧
  (∀ (s : State) (id : Nat) (c : Cmd), 
    Ready s.dev 0x0101 id c nodeRange96 → s.dev.resident c.nodeKey = none → s.dev.coldRec c.nodeKey = none → 
    Becomes (.nodeRead id false) s (s.dev.finish id (c.bad stRange 1))) ∧
  (∀ (s : State) (id : Nat) (c : Cmd), 
    Ready s.dev 0x0102 id c nodeRange96 → ((bitOf (leAt (c.buf s.host 96) 0 16) 44 = false ∨ slotKey (c.buf s.host 96) ≠ c.nodeKey)) → 
    Becomes (.nodeWrite id false) s (s.dev.finish id (c.bad stRange))) ∧
  (∀ (s : State) (id : Nat) (c : Cmd), 
    Ready s.dev 0x0102 id c nodeRange96 → bitOf (leAt (c.buf s.host 96) 0 16) 44 = true → slotKey (c.buf s.host 96) = c.nodeKey → (s.dev.nodeOf c.nodeKey).isSome = true → 
    Becomes (.nodeWrite id false) s ((s.dev.writeNode c.die1 c.nodeKey (c.buf s.host 96)).finish id (c.ok ((s.dev.writeNode c.die1 c.nodeKey (c.buf s.host 96)).nodePlace c.nodeKey)))) ∧
  (∀ (s : State) (id : Nat) (c : Cmd) (d1 : Dev), 
    Ready s.dev 0x0102 id c nodeRange96 → bitOf (leAt (c.buf s.host 96) 0 16) 44 = true → slotKey (c.buf s.host 96) = c.nodeKey → s.dev.nodeOf c.nodeKey = none → (s.dev.route c.die1).creations.any (fun x => x.key == c.nodeKey) = false → s.dev.askCreate c.die1 c.nodeKey (.write c.id (c.buf s.host 96)) = (d1, true) → 
    Becomes (.nodeWrite id false) s (d1)) ∧
  (∀ (s : State) (id : Nat) (c : Cmd) (d1 : Dev), 
    Ready s.dev 0x0102 id c nodeRange96 → bitOf (leAt (c.buf s.host 96) 0 16) 44 = true → slotKey (c.buf s.host 96) = c.nodeKey → s.dev.nodeOf c.nodeKey = none → d1 = (if (s.dev.route c.die1).creations.any (fun x => x.key == c.nodeKey) = true then s.dev else (s.dev.askCreate c.die1 c.nodeKey (.write c.id (c.buf s.host 96))).1) → (((s.dev.route c.die1).creations.any (fun x => x.key == c.nodeKey) = true ∨ (s.dev.askCreate c.die1 c.nodeKey (.write c.id (c.buf s.host 96))).2 = false)) → 
    Becomes (.nodeWrite id false) s (d1.finish id (c.bad stRange 5))) ∧
  (∀ (s : State) (id : Nat) (c : Cmd), 
    s.dev.nodeOf c.nodeKey = none → 
    (Ready s.dev 0x0103 id c nodeRange → Becomes (.nodeDelete id) s (s.dev.finish id (c.bad stRange 1))) ∧ (Ready s.dev 0x0104 id c nodeRange → Becomes (.nodePin id) s (s.dev.finish id (c.bad stRange 1)))) ∧
  (∀ (s : State) (id : Nat) (c : Cmd), 
    Ready s.dev 0x0103 id c nodeRange → (s.dev.nodeOf c.nodeKey).isSome = true → 
    Becomes (.nodeDelete id) s (((s.dev.deleteNode c.nodeKey).showPlan).finish id c.ok)) ∧
  (∀ (s : State) (id : Nat) (c : Cmd), 
    Ready s.dev 0x0104 id c nodeRange → (s.dev.nodeOf c.nodeKey).isSome = true → 
    Becomes (.nodePin id) s ((s.dev.setNode c.nodeKey (fun e => { e with pin := bitOf (c.par 30 1) 0, det := { e.det with mpin := bitOf (c.par 30 1) 1, map := if bitOf (c.par 30 1) 2 then c.par 32 2 % 4096 else e.det.map, mapNew := bitOf (c.par 30 1) 2 || e.det.mapNew } })).finish id c.ok)) ∧
  (∀ (s : State) (id : Nat) (c : Cmd) (t : ((List Byte)×Nat)), 
    Ready s.dev 0x0105 id c (fun _ c => if 2 < c.par 24 1 || c.len < c.cnt * dumpSize (c.par 24 1) then some 0 else none) → t = takeBuckets c.cnt (((s.dev.route c.die1).dump (c.par 24 1)).filter (fun x => c.par 28 4 ≤ x.1)) → 
    BecomesWith (.tableDump id false) s (s.dev.finish id (c.ok t.2))
      ([(c.addr, t.1)])) ∧
  (∀ (s : State) (id : Nat) (c : Cmd) (d1 : Dev), 
    Ready s.dev 0x0106 id c (fun _ c => if 1 < c.par 24 1 then some 0 else none) → c.par 24 1 = 0 → s.dev.cmdHolds c.id = false → d1 = (s.dev.requestToken ⟨3, dieScope c.die1, some c.id, 0⟩).1 → (s.dev.requestToken ⟨3, dieScope c.die1, some c.id, 0⟩).2 = .granted → 
    Becomes (.tableRehash id) s (((((d1.w F.NTB.SEED_NEW_SEED (c.par 28 4) c.die1).w F.NTB.REHASH_POS_POS 0 c.die1).setRoute c.die1 (fun r => { r with mig := r.mig ++ [⟨0, c.par 28 4, 0, c.id, 0, false⟩], int := r.int ++ [.migrate 0 0] })).showLanes c.die1))) ∧
  (∀ (s : State) (id : Nat) (c : Cmd) (d1 : Dev), 
    Ready s.dev 0x0106 id c (fun _ c => if 1 < c.par 24 1 then some 0 else none) → c.par 24 1 = 1 → s.dev.cmdHolds c.id = false → d1 = (s.dev.requestToken ⟨3, dieScope c.die1, some c.id, 1⟩).1 → (s.dev.requestToken ⟨3, dieScope c.die1, some c.id, 1⟩).2 = .granted → 
    Becomes (.tableRehash id) s ((((d1.w F.FWD.SEED_NEW_SEED (c.par 28 4) c.die1).setRoute c.die1 (fun r => { r with mig := r.mig ++ [⟨1, c.par 28 4, 0, c.id, 0, false⟩], int := r.int ++ [.migrate 1 0] })).showLanes c.die1))) ∧
  (∀ (s : State) (id : Nat) (c : Cmd) (r : (Dev×TokenAnswer)), 
    Ready s.dev 0x0106 id c (fun _ c => if 1 < c.par 24 1 then some 0 else none) → s.dev.cmdHolds c.id = false → r = s.dev.requestToken ⟨3, dieScope c.die1, some c.id, c.par 24 1⟩ → r.2 ≠ .granted → 
    Becomes (.tableRehash id) s (if r.2 = .full then r.1.finish id (c.bad stRange 7) else r.1.setCmd c.id (fun c => { c with stage := .waiting, interim := true }))) ∧
  (∀ (s : State) (id : Nat) (c : Cmd) (r : (Dev×Reply)), 
    Ready s.dev 0x0107 id c (fun _ c => if c.len != 32 * c.cnt then some 0 else none) → r = (([1, 2] : List Nat).filter (fun die => bitOf c.target (die - 1))).foldl (Dev.fwdAddOn ((List.range c.cnt).map (fun i => sliceB (c.buf s.host c.len) (32 * i) 32))) (s.dev, { tryM := 0, okM := 0 }) → 
    Becomes (.fwdAdd id false) s (r.1.reply id r.2)) ∧
  (∀ (s : State) (id : Nat) (c : Cmd) (r : (Dev×Reply)), 
    Ready s.dev 0x0108 id c (fun _ c => if c.len != 32 * c.cnt then some 0 else none) → r = s.dev.perDie c (fun d die => (d.deleteFwd die (fun e => e.kind != 1&&((List.range c.cnt).map (fun i => FwdEnt.ofBytes (sliceB (c.buf s.host c.len) (32 * i) 32))).any (fun r => r.same e)), 0)) → 
    Becomes (.fwdDelete id false) s (r.1.reply id r.2)) ∧
  (∀ (s : State) (id : Nat) (c : Cmd) (r : (Dev×Reply)), 
    Ready s.dev 0x0109 id c (fun _ c => if 1 < c.par 24 1 || (c.par 24 1 == 1&&31 < c.par 25 1) then some 0 else none) → r = s.dev.perDie c (fun d die => (d.deleteFwd die (fun e => e.kind == 0&&!e.static&&(c.par 24 1 == 0||(e.dest == 0&&e.port == c.par 25 1))), 0)) → 
    Becomes (.fwdFlush id) s (r.1.reply id r.2))

/-- What the queue and meter commands, the refills and samples, the lineup rows and PORT_DEQUEUE do

When their commands are ready: QUEUE_SET applies its records up to the first that is refused; with all taken it ends with OK and their number, else with RANGE and the number taken. QUEUE_READ writes 32 octets for each queue. QUEUE_FLUSH empties its queues. POLICER_SET applies its records on each addressed die in turn. SAMPLE_READ with one addressed die that is up writes depth and sojourn of each queue of it. SHAPER_REFILL and QUEUE_SAMPLE of an open order, with no time step waiting, run the TIMER work of the shapers and of the sampler; of a closed order they have no effect. LINEUP_GATE, and LINEUP_TAKEOVER with a pending bank, of a port of the die, with the order open and outside QUIESCE, are numbered and journalled and step the port's gates, or make the pending bank active; otherwise they have no effect. LINEUP_LOAD runs the next commit when it is an SCH commit with LOAD 1 and the order is open, and otherwise has no effect. PORT_DEQUEUE of a port of a die that is up, in SERVICE or BRINGUP, whose transmitter is idle and takes packets: it counts the packets that gates hold, and the head of the queue that the scheduler chooses, if its record need not wait, goes to the transmitter, or is dropped with BUF_ECC raised when its cells are bad, and an EGRESS_DONE is due; with no such queue or a record that waits only the count takes place. Of a port that takes none, and of any other die, mode or busy port, it has no effect, but that a packet for a halted band is counted. (R368, R372, R373, R378, R380, R385, R389, R390, R391, Table 13-4) -/
def Obligations.SchedulingRows : Prop :=
  (∀ (s : State) (id : Nat) (c : Cmd) (r : (Dev×Nat×Bool)), 
    Ready s.dev 0x0201 id c (queueRange 16) → r = applyRecs (fun d n b => d.queueSet c.die1 n b) (c.recs s.host 16) (c.par 24 2) s.dev 0 → r.2.2 = true → 
    Becomes (.queueSet id false) s (r.1.finish id (c.ok r.2.1))) ∧
  (∀ (s : State) (id : Nat) (c : Cmd) (r : (Dev×Nat×Bool)), 
    Ready s.dev 0x0201 id c (queueRange 16) → r = applyRecs (fun d n b => d.queueSet c.die1 n b) (c.recs s.host 16) (c.par 24 2) s.dev 0 → r.2.2 = false → 
    Becomes (.queueSet id false) s (r.1.finish id (c.bad stRange r.2.1))) ∧
  (∀ (s : State) (id : Nat) (c : Cmd), 
    Ready s.dev 0x0202 id c (queueRange 32) → 
    BecomesWith (.queueRead id false) s (s.dev.finish id c.ok)
      ([(c.addr, (List.range c.cnt).flatMap (fun i => (s.dev.queue c.die1 (c.par 24 2 + i)).read))])) ∧
  (∀ (s : State) (id : Nat) (c : Cmd), 
    Ready s.dev 0x0203 id c (queueRange 0) → 
    Becomes (.queueFlush id) s ((s.dev.each ((s.dev.route c.die1).queues.filter (fun q => q.num < 16384&&c.par 24 2 ≤ q.num&&q.num < c.par 24 2 + c.cnt)) (fun d q => d.flushQueue c.die1 q.num)).finish id c.ok)) ∧
  (∀ (s : State) (id : Nat) (c : Cmd) (r : (Dev×Reply)), 
    Ready s.dev 0x0204 id c (fun _ c => if 4 < c.par 24 1 || meterCount (c.par 24 1) < c.par 26 2 + c.cnt || c.len != 16 * c.cnt then some 0 else none) → r = (([1, 2] : List Nat).filter (fun die => bitOf c.target (die - 1))).foldl (Dev.policerSetOn s.host c) (s.dev, { tryM := 0, okM := 0 }) → 
    Becomes (.policerSet id false) s (r.1.reply id r.2)) ∧
  (∀ (s : State) (id : Nat) (c : Cmd) (die : Nat), 
    Ready s.dev 0x0205 id c (queueRange 8) → ([1, 2] : List Nat).filter (fun die => bitOf c.target (die - 1)&&s.dev.dieUp die) = [die] → 
    BecomesWith (.sampleRead id false) s (s.dev.reply id (s.dev.perDie c (fun d _ => (d, 0))).2)
      ([(c.addr, (List.range c.cnt).flatMap (fun i => toLE 4 (s.dev.queue die (c.par 24 2 + i)).smpDepth ++ toLE 4 (s.dev.queue die (c.par 24 2 + i)).smpSoj))])) ∧
  (∀ (s : State) (die : Nat) (queues : Bool), 
    s.dev.seqOpen die = true → bitOf s.dev.time.stepFor (die - 1) = false → 
    Becomes (.shaperRefill die queues) s ((timed s.dev die [(b2n queues, 1)]).timerWork die (b2n queues))) ∧
  (∀ (s : State) (die : Nat), 
    s.dev.seqOpen die = true → bitOf s.dev.time.stepFor (die - 1) = false → 
    Becomes (.queueSample die) s ((timed s.dev die [(5, 1)]).sampleQueues die)) ∧
  (∀ (s : State) (die port : Nat) (queues : Bool), 
    s.dev.seqOpen die = false → 
    NoEffect (.shaperRefill die queues) s ∧ NoEffect (.queueSample die) s ∧ NoEffect (.lineupGate die port) s ∧ NoEffect (.lineupTakeover die port) s) ∧
  (∀ (s : State) (die port : Nat), 
    (s.dev.act = mQuiesce ∨ portOwner port ≠ die) → 
    NoEffect (.lineupGate die port) s ∧ NoEffect (.lineupTakeover die port) s) ∧
  (∀ (s : State) (die port : Nat), (s.dev.lineup die port).pending = none → NoEffect (.lineupTakeover die port) s) ∧
  (∀ (s : State) (die : Nat), 
    (s.dev.commitOpen die = false ∨ s.dev.nextCommit die = none ∨ (∃ pc, s.dev.nextCommit die = some pc ∧ (pc.tag ≠ .SCH ∨ snapGet pc.snap F.SCH.LUP_CTRL_LOAD ⟨.SCH, die, 0⟩ ≠ 1))) → 
    NoEffect (.lineupLoad die) s) ∧
  (∀ (s : State) (die port : Nat) (d1 : Dev), 
    s.dev.seqOpen die = true → s.dev.act ≠ mQuiesce → portOwner port = die → d1 = s.dev.sequence die 5 → 
    Becomes (.lineupGate die port) s ((d1.journal die 5 0 s.dev.evTime (.gate port false)).gateNow die port)) ∧
  (∀ (s : State) (die : Nat) (pc : PendCommit), 
    s.dev.commitOpen die = true → s.dev.nextCommit die = some pc → pc.tag = .SCH → snapGet pc.snap F.SCH.LUP_CTRL_LOAD ⟨.SCH, die, 0⟩ = 1 → 
    Becomes (.lineupLoad die) s (s.dev.commitEvent die pc)) ∧
  (∀ (s : State) (die port : Nat) (d1 : Dev), 
    s.dev.seqOpen die = true → s.dev.act ≠ mQuiesce → portOwner port = die → (s.dev.lineup die port).pending.isSome = true → d1 = s.dev.sequence die 5 → 
    Becomes (.lineupTakeover die port) s ((d1.journal die 5 0 s.dev.evTime (.gate port true)).takeover die port)) ∧
  (∀ (s : State) (die port : Nat) (eg : EgressEnv) (d1 : Dev) (q : Queue) (p : Pkt) (rest : (List Pkt)), 
    portOwner port = die → s.dev.dieUp die = true → ((s.dev.act = mService ∨ s.dev.act = mBringup)) → (s.dev.portSt die port).taking = false → s.dev.portTakes port eg = true → d1 = s.dev.countGated die port → d1.choose die port = some q → q.pkts = p :: rest → d1.recordWaits die p.seq = false → 
    Becomes (.portDequeue die port eg) s ((((if eg.bufErr = true then d1.raise E.ING.BUF_ECC die else d1.egress port p eg).setPort die port (fun st => { st with taking := true })).setRoute die (fun r => { r with int := r.int ++ [.egress port q.num] })).showLanes die)) ∧
  (∀ (s : State) (die port : Nat) (eg : EgressEnv) (d1 : Dev), 
    portOwner port = die → s.dev.dieUp die = true → ((s.dev.act = mService ∨ s.dev.act = mBringup)) → (s.dev.portSt die port).taking = false → s.dev.portTakes port eg = true → d1 = s.dev.countGated die port → (d1.choose die port).all (fun q => q.pkts.head?.all (fun p => d1.recordWaits die p.seq)) = true → 
    Becomes (.portDequeue die port eg) s (d1)) ∧
  (∀ (s : State) (die port : Nat) (eg : EgressEnv), 
    (portOwner port ≠ die ∨ s.dev.dieUp die = false ∨ (s.dev.act ≠ mService ∧ s.dev.act ≠ mBringup) ∨ (s.dev.portSt die port).taking = true) → 
    NoEffect (.portDequeue die port eg) s) ∧
  (∀ (s : State) (die port : Nat) (eg : EgressEnv), 
    portOwner port = die → s.dev.dieUp die = true → ((s.dev.act = mService ∨ s.dev.act = mBringup)) → (s.dev.portSt die port).taking = false → s.dev.portTakes port eg = false → 
    Becomes (.portDequeue die port eg) s (if (port = 24 ∨ port = 25) ∧ s.dev.bandRuns (port - 21) = false ∧ (s.dev.choose die port).any (fun q => !q.pkts.isEmpty) = true then s.dev.inc C.TXB.NO_CHAIN (port - 21) else s.dev))

/-- What the Ethernet rows, TS_POP, MDIO_CMD and MDIO_DONE do

ETH_FRAME_RX at a MAC that is up with LINK 1 tests code, FCS, length below 64 and length above MAXLEN in this order: the first that fails is counted, and a frame that passes is accepted. ETH_TX_START of a packet held, outside QUIESCE, with the link up, possession held where it must be and its class not paused, sends it padded to 60 octets with its FCS, counts it and, with TX_EN, stamps the time of a recognised message. ETH_TX_UNDERRUN of a frame that is being sent below step 7 ends it, counts, moves STEP up and raises TX_UNDERRUN. ETH_LINK_UP of an enabled port that does not stand by shows lock, no fault, the negotiation and LINK 1. ETH_LINK_DOWN shows lock and faults and lets LINK fall. ETH_PAUSE_RX of a MAC with LINK 1 is acted on; ETH_PAUSE_EXPIRY lets its class go. ETH_FC_XOFF at the XOFF fill and not yet off, ETH_FC_REPEAT while off and above XON, and ETH_FC_XON while off and at most XON send their frame, of a port that may send flow control. TS_POP drops the oldest stamps that it names. MDIO_CMD with GO 1 on an idle interface, with an OP that its clause has, keeps its fields, sets BUSY and starts the operation, with GO 0 it keeps its fields; while BUSY, or with OP 0 or 3 of clause 22, it has no effect. MDIO_DONE while BUSY clears BUSY and GO, and of a read keeps the data. Of a MAC that is down all but the last three rows, and with BUSY 0 MDIO_DONE, have no effect; nor have ETH_FRAME_RX and ETH_PAUSE_RX with LINK 0, ETH_TX_START with no packet, with LINK 0, in QUIESCE, without possession or with its class paused, ETH_TX_UNDERRUN at step 7 or with no frame being sent, ETH_LINK_UP of a disabled port or one that stands by, ETH_PAUSE_EXPIRY of no class, and the three flow control rows otherwise. (R399, R401, R402, R405, R406, R407, R408, R409, R410, R411, R413, Table 14-3) -/
def Obligations.EthernetRows : Prop :=
  (∀ (s : State) (port : Nat) (frame : (List Byte)) (n : Nat), 
    s.dev.ethUp port = true → s.dev.on F.ETH.STAT_LINK 0 port = true → n = frame.length → 64 ≤ n → n ≤ s.dev.g F.ETH.MAC_CFG_MAXLEN 0 port → leAt frame (n - 4) 4 = crc32eth (frame.take (n - 4)) → 
    Becomes (.ethFrameRx port frame false) s (s.dev.ethAccept port frame)) ∧
  (∀ (s : State) (port : Nat) (frame : (List Byte)) (codeErr : Bool) (n : Nat) (fcs : Bool), 
    s.dev.ethUp port = true → s.dev.on F.ETH.STAT_LINK 0 port = true → n = frame.length → fcs = (decide (4 ≤ n)&&leAt frame (n - 4) 4 == crc32eth (frame.take (n - 4))) → ((codeErr = true ∨ fcs = false ∨ n < 64 ∨ s.dev.g F.ETH.MAC_CFG_MAXLEN 0 port < n)) → 
    Becomes (.ethFrameRx port frame codeErr) s (s.dev.inc (if codeErr = true then C.ETH.RX_CODE_ERR else if fcs = false then C.ETH.RX_FCS_ERR else if n < 64 then C.ETH.RX_RUNT else C.ETH.RX_OVERSIZE) 0 port)) ∧
  (∀ (s : State) (port : Nat) (p : Pkt) (b : (List Byte)) (d1 : Dev), 
    (s.dev.ethP port).tx = some p → s.dev.ethUp port = true → s.dev.on F.ETH.STAT_LINK 0 port = true → s.dev.mayRadiate = true → s.dev.act ≠ mQuiesce → bitOf (s.dev.g F.ETH.STAT_PAUSED 0 port) p.cls = false → b = (if p.data.length < 60 then padTo 60 p.data else p.data) → d1 = ((((s.dev.setEth port (fun e => { e with tx := none, wire := some (b ++ toLE 4 (crc32eth b)), wireEnd := s.dev.wireTime port (b ++ toLE 4 (crc32eth b)).length })).emit (.ethFrame port (b ++ toLE 4 (crc32eth b)))).when (decide (p.data.length < 60)) (fun d => d.inc C.ETH.TX_PADDED 0 port)).inc C.ETH.TX_FRAMES 0 port).addc C.ETH.TX_OCTETS (b ++ toLE 4 (crc32eth b)).length 0 port → 
    Becomes (.ethTxStart port) s (if d1.on F.ETH.PTP_CFG_TX_EN 0 port then (d1.ptpInfo port b).elim d1 (fun i => d1.stamp port i true) else d1)) ∧
  (∀ (s : State) (port step : Nat), 
    step = s.dev.g F.ETH.TX_STEP_STEP 0 port → s.dev.ethUp port = true → s.dev.onWire port ≠ none → step ≠ 7 → 
    Becomes (.ethTxUnderrun port) s (((((((s.dev.setEth port (fun e => { e with wire := none })).emit (.ethUnderrun port)).inc C.ETH.TX_UNDERRUN 0 port)).w F.ETH.TX_STEP_STEP (step + 1) 0 port).showStep port).raise E.ETH.TX_UNDERRUN 0 port)) ∧
  (∀ (s : State) (port : Nat), 
    s.dev.ethUp port = true → s.dev.g F.ETH.MODE_PCS 0 port ≠ 0 → bitOf (s.dev.g F.GWY.STANDBY_ETH_PORT) port = false → 
    Becomes (.ethLinkUp port) s ((((((s.dev.w F.ETH.STAT_LOCK 1 0 port).w F.ETH.STAT_LOCAL_FAULT 0 0 port).w F.ETH.STAT_REMOTE_FAULT 0 0 port).w F.ETH.STAT_AN_DONE (b2n ((((s.dev.w F.ETH.STAT_LOCK 1 0 port).w F.ETH.STAT_LOCAL_FAULT 0 0 port).w F.ETH.STAT_REMOTE_FAULT 0 0 port).g F.ETH.MODE_PCS 0 port == 4)) 0 port).w F.ETH.STAT_LINK 1 0 port).showStep port)) ∧
  (∀ (s : State) (port : Nat) (lock localFault remoteFault : Bool), 
    s.dev.ethUp port = true → 
    Becomes (.ethLinkDown port lock localFault remoteFault) s ((((((s.dev.w F.ETH.STAT_LOCK (b2n lock) 0 port).w F.ETH.STAT_LOCAL_FAULT (b2n localFault) 0 port).w F.ETH.STAT_REMOTE_FAULT (b2n remoteFault) 0 port)).when (!lock) (fun d => d.w F.ETH.STAT_AN_DONE 0 0 port)).ethDown port)) ∧
  (∀ (s : State) (port opcode enables : Nat) (times : (List Nat)), 
    s.dev.ethUp port = true → s.dev.on F.ETH.STAT_LINK 0 port = true → 
    Becomes (.ethPauseRx port opcode enables times) s (s.dev.macControl port opcode enables times)) ∧
  (∀ (s : State) (port cls : Nat), 
    s.dev.ethUp port = true → cls < 8 → 
    Becomes (.ethPauseExpiry port cls) s (s.dev.wBit F.ETH.STAT_PAUSED cls false 0 port)) ∧
  (∀ (s : State) (port : Nat), 
    s.dev.fcMay port = true → (s.dev.ethP port).xoff = false → s.dev.g F.ETH.FC_THR_XOFF 0 port ≤ s.dev.wiredLane port → 
    Becomes (.ethFcXoff port) s ((s.dev.setEth port (fun e => { e with xoff := true })).sendFc port (s.dev.g F.ETH.FC_CFG_QUANTA 0 port))) ∧
  (∀ (s : State) (port : Nat), 
    s.dev.fcMay port = true → (s.dev.ethP port).xoff = true → s.dev.g F.ETH.FC_THR_XON 0 port < s.dev.wiredLane port → 
    Becomes (.ethFcRepeat port) s (s.dev.sendFc port (s.dev.g F.ETH.FC_CFG_QUANTA 0 port))) ∧
  (∀ (s : State) (port : Nat), 
    s.dev.fcMay port = true → (s.dev.ethP port).xoff = true → s.dev.wiredLane port ≤ s.dev.g F.ETH.FC_THR_XON 0 port → 
    Becomes (.ethFcXon port) s ((s.dev.setEth port (fun e => { e with xoff := false })).sendFc port 0)) ∧
  (∀ (s : State) (port : Nat) (frame : (List Byte)) (codeErr : Bool) (opcode enables : Nat) (times : (List Nat)) (lock localFault remoteFault : Bool) (cls : Nat), 
    s.dev.ethUp port = false → 
    NoEffect (.ethFrameRx port frame codeErr) s ∧ NoEffect (.ethTxStart port) s ∧ NoEffect (.ethTxUnderrun port) s ∧ NoEffect (.ethLinkUp port) s ∧ NoEffect (.ethLinkDown port lock localFault remoteFault) s ∧ NoEffect (.ethPauseRx port opcode enables times) s ∧ NoEffect (.ethPauseExpiry port cls) s) ∧
  (∀ (s : State) (port : Nat) (frame : (List Byte)) (codeErr : Bool) (opcode enables : Nat) (times : (List Nat)), 
    s.dev.on F.ETH.STAT_LINK 0 port = false → 
    NoEffect (.ethFrameRx port frame codeErr) s ∧ NoEffect (.ethTxStart port) s ∧ NoEffect (.ethPauseRx port opcode enables times) s) ∧
  (∀ (s : State) (port : Nat), 
    (s.dev.ethP port).tx.all (fun p => !s.dev.mayRadiate || s.dev.act == mQuiesce || bitOf (s.dev.g F.ETH.STAT_PAUSED 0 port) p.cls) = true → 
    NoEffect (.ethTxStart port) s) ∧
  (∀ (s : State) (port : Nat), (s.dev.onWire port = none ∨ s.dev.g F.ETH.TX_STEP_STEP 0 port = 7) → NoEffect (.ethTxUnderrun port) s) ∧
  (∀ (s : State) (port : Nat), 
    (s.dev.g F.ETH.MODE_PCS 0 port = 0 ∨ bitOf (s.dev.g F.GWY.STANDBY_ETH_PORT) port = true) → 
    NoEffect (.ethLinkUp port) s) ∧
  (∀ (s : State) (port cls : Nat), 8 ≤ cls → NoEffect (.ethPauseExpiry port cls) s) ∧
  (∀ (s : State) (port : Nat), 
    (s.dev.fcMay port = false ∨ (s.dev.ethP port).xoff = true ∨ s.dev.wiredLane port < s.dev.g F.ETH.FC_THR_XOFF 0 port) → 
    NoEffect (.ethFcXoff port) s) ∧
  (∀ (s : State) (port : Nat), 
    (s.dev.fcMay port = false ∨ (s.dev.ethP port).xoff = false) → 
    NoEffect (.ethFcRepeat port) s ∧ NoEffect (.ethFcXon port) s) ∧
  (∀ (s : State) (port : Nat), 
    (s.dev.wiredLane port ≤ s.dev.g F.ETH.FC_THR_XON 0 port → NoEffect (.ethFcRepeat port) s) ∧ (s.dev.g F.ETH.FC_THR_XON 0 port < s.dev.wiredLane port → NoEffect (.ethFcXon port) s)) ∧
  (∀ (s : State) (port data : Nat) (p : Page), 
    Writable s.dev 0 (0x010 + port) p → p.tag = .ETH → 
    Becomes (.tsPop port data) s ((s.dev.setEth p.inst (fun e => { e with txTs := if bitOf data 0 then e.txTs.drop 1 else e.txTs, rxTs := if bitOf data 1 then e.rxTs.drop 1 else e.rxTs })).showTs p.inst)) ∧
  (∀ (s : State) (data : Nat) (p : Page), 
    Writable s.dev 0 0x010 p → s.dev.on F.ETH.MDIO_CMD_BUSY = false → ((bitOf data 28 = true ∨ bitsOf data 26 2 = 1 ∨ bitsOf data 26 2 = 2)) → bitOf data 30 = true → 
    Becomes (.mdioCmd data) s (((((((((s.dev.w F.ETH.MDIO_CMD_DATA (bitsOf data 0 16)).w F.ETH.MDIO_CMD_REG (bitsOf data 16 5)).w F.ETH.MDIO_CMD_PHYAD (bitsOf data 21 5)).w F.ETH.MDIO_CMD_OP (bitsOf data 26 2)).w F.ETH.MDIO_CMD_CL45 (bitsOf data 28 1)).w F.ETH.MDIO_CMD_GO (bitsOf data 30 1)).w F.ETH.MDIO_CMD_BUSY 1)).emit (.mdio (bitOf data 28) (bitsOf data 26 2) (bitsOf data 21 5) (bitsOf data 16 5) ((((((s.dev.w F.ETH.MDIO_CMD_DATA (bitsOf data 0 16)).w F.ETH.MDIO_CMD_REG (bitsOf data 16 5)).w F.ETH.MDIO_CMD_PHYAD (bitsOf data 21 5)).w F.ETH.MDIO_CMD_OP (bitsOf data 26 2)).w F.ETH.MDIO_CMD_CL45 (bitsOf data 28 1)).w F.ETH.MDIO_CMD_GO (bitsOf data 30 1) |>.g F.ETH.MDIO_DEVAD_D) (bitsOf data 0 16)))) ∧
  (∀ (s : State) (data : Nat) (p : Page), 
    Writable s.dev 0 0x010 p → s.dev.on F.ETH.MDIO_CMD_BUSY = false → ((bitOf data 28 = true ∨ bitsOf data 26 2 = 1 ∨ bitsOf data 26 2 = 2)) → bitOf data 30 = false → 
    Becomes (.mdioCmd data) s ((((((s.dev.w F.ETH.MDIO_CMD_DATA (bitsOf data 0 16)).w F.ETH.MDIO_CMD_REG (bitsOf data 16 5)).w F.ETH.MDIO_CMD_PHYAD (bitsOf data 21 5)).w F.ETH.MDIO_CMD_OP (bitsOf data 26 2)).w F.ETH.MDIO_CMD_CL45 (bitsOf data 28 1)).w F.ETH.MDIO_CMD_GO (bitsOf data 30 1))) ∧
  (∀ (s : State) (data : Nat) (p : Page), 
    Writable s.dev 0 0x010 p → ((s.dev.on F.ETH.MDIO_CMD_BUSY = true ∨ (bitOf data 28 = false ∧ (bitsOf data 26 2 = 0 ∨ bitsOf data 26 2 = 3)))) → 
    NoEffect (.mdioCmd data) s) ∧
  (∀ (s : State) (data : Nat), s.dev.on F.ETH.MDIO_CMD_BUSY = false → NoEffect (.mdioDone data) s) ∧
  (∀ (s : State) (data : Nat), 
    s.dev.on F.ETH.MDIO_CMD_BUSY = true → 
    Becomes (.mdioDone data) s (((s.dev.w F.ETH.MDIO_CMD_BUSY 0).w F.ETH.MDIO_CMD_GO 0).when (decide (2 ≤ ((s.dev.w F.ETH.MDIO_CMD_BUSY 0).w F.ETH.MDIO_CMD_GO 0).g F.ETH.MDIO_CMD_OP)) (fun d => d.w F.ETH.MDIO_CMD_DATA data)))

/-- What CAN_FRAME_RX, CAN_FRAME_EVENT, CAN_RX_ACK, the CAN transmit entry rows and STANDBY_RELEASE do

CAN_FRAME_RX on a bus that is not heard has no effect; of an FD frame with FD_EN 0 or a recessive res bit it counts PXE; of any other frame it counts and the receive error count falls, and then: in QUIESCE the frame is dropped and counted; one that a high-priority filter takes goes to the high-priority buffer; one that no such filter takes goes by its action to the receive queue, to the gateway or to both, with action 0 to neither, counted; in normal operation frames whose action has the gateway's bit go to the gateway. CAN_FRAME_EVENT of a frame that heads the wired lane and may be placed takes it, is numbered and journalled and gives it to the gateway; with another head or none it has no effect. CAN_RX_ACK drops the heads that it names. A write through TX_WIN to a software entry that is free fills its word, and a push of such an entry queues it; of any other entry each counts TX_PUSH_ERR. CAN_TX_ACK frees an entry in a final state and of any other has no effect. CAN_TX_ABORT ends a pending or held entry, marks one on the bus, and of any other has no effect. STANDBY_RELEASE ends the standby of the ports or buses that it names. The last six rows are of a CAN page, or the gateway page, that can be written. (R417, R421, R422, R423, R424, R425, R431, R434, R437, R444) -/
def Obligations.CanFramesAndQueues : Prop :=
  (∀ (s : State) (bus : Nat) (f : CanRx) (res : Bool), s.dev.canHears bus = false → NoEffect (.canFrameRx bus f res) s) ∧
  (∀ (s : State) (bus : Nat) (f : CanRx) (res : Bool), 
    s.dev.canHears bus = true → f.fdf = true → ((res = true ∨ s.dev.on F.CAN.CTRL_FD_EN 0 bus = false)) → 
    Becomes (.canFrameRx bus f res) s (s.dev.inc C.CAN.PXE 0 bus)) ∧
  (∀ (s : State) (bus : Nat) (f : CanRx) (res : Bool) (i a n : Nat) (d1 : Dev) (x : CanFrame) (d2 : Dev), 
    s.dev.canHears bus = true → ((f.fdf = false ∨ (res = false ∧ s.dev.on F.CAN.CTRL_FD_EN 0 bus = true))) → d1 = (s.dev.inc C.CAN.RX_FRAMES 0 bus).canGood bus → d1.act ≠ mQuiesce → d1.canFilter bus f = (some i, a, n) → x = { id := f.id, ide := f.ide, fd := f.fdf, brs := f.brs, rtr := f.rtr, data := f.data.take 64, src := bus, time := d1.evTime, esi := f.esi, dlc := f.dlc, filt := n } → d2 = d1.toHp bus (x.entry d1.time.lt 64) → 
    Becomes (.canFrameRx bus f res) s (if a = 2 ∧ d2.canMode bus = 1 then d2.toGateway x else d2)) ∧
  (∀ (s : State) (bus : Nat) (f : CanRx) (res : Bool) (a n : Nat) (d1 : Dev) (x : CanFrame) (d2 : Dev), 
    s.dev.canHears bus = true → ((f.fdf = false ∨ (res = false ∧ s.dev.on F.CAN.CTRL_FD_EN 0 bus = true))) → d1 = (s.dev.inc C.CAN.RX_FRAMES 0 bus).canGood bus → d1.act ≠ mQuiesce → d1.canFilter bus f = (none, a, n) → x = { id := f.id, ide := f.ide, fd := f.fdf, brs := f.brs, rtr := f.rtr, data := f.data.take 64, src := bus, time := d1.evTime, esi := f.esi, dlc := f.dlc, filt := n } → d2 = (if a % 2 = 1 then d1.toRxq bus (x.entry d1.time.lt 64) else d1) → 
    Becomes (.canFrameRx bus f res) s (if a = 0 then d1.inc C.CAN.RX_FILTERED 0 bus else if 2 ≤ a ∧ d2.canMode bus = 1 then d2.toGateway x else d2)) ∧
  (∀ (s : State) (bus : Nat) (f : CanRx) (res : Bool) (d1 : Dev), 
    s.dev.canHears bus = true → ((f.fdf = false ∨ (res = false ∧ s.dev.on F.CAN.CTRL_FD_EN 0 bus = true))) → d1 = (s.dev.inc C.CAN.RX_FRAMES 0 bus).canGood bus → d1.act = mQuiesce → 
    Becomes (.canFrameRx bus f res) s (d1.inc C.CAN.RX_QUIESCE 0 bus)) ∧
  (∀ (s : State) (f : CanFrame) (rest : (List WiredIn)) (d1 : Dev), 
    (s.dev.route 1).wired = .can f :: rest → s.dev.mayPlace 1 1 = true → d1 = ((s.dev.setRoute 1 (fun r => { r with wired := rest })).place 1 1 2).journal 1 2 0 f.time (.wired (.can f)) → 
    Becomes (.canFrameEvent) s ((d1.gwPut { seq := d1.seqNow 1, ing := f.src, bus := 0, frame := f }).showLanes 1)) ∧
  (∀ (s : State), (∀ f, (s.dev.route 1).wired.head? ≠ some (.can f)) → NoEffect (.canFrameEvent) s) ∧
  (∀ (s : State) (bus data : Nat) (p : Page), 
    Writable s.dev 0 (0x020 + bus) p → p.tag = .CAN → 
    Becomes (.canRxAck bus data) s ((s.dev.setCan p.inst (fun c => { (if bitOf data 0 = true ∧ c.rxq ≠ [] then { c with rxq := c.rxq.tail, rxHead := (c.rxHead + 1) % 64 } else c) with hp := if bitOf data 1 = true then c.hp.tail else c.hp })).showCanRx p.inst)) ∧
  (∀ (s : State) (bus word data : Nat) (p : Page) (i : Nat), 
    Writable s.dev 0 (0x020 + bus) p → p.tag = .CAN → word < 20 → i = s.dev.g F.CAN.TX_SEL_IDX 0 p.inst → s.dev.txWritable p.inst i = true → 
    Becomes (.canTxWinWrite bus word data) s ((s.dev.setCan p.inst (fun c => c.setEnt i (fun x => { x with bytes := (padTo 80 x.bytes).take (4 * word) ++ toLE 4 data ++ (padTo 80 x.bytes).drop (4 * word + 4) }))).showTxEnt p.inst i)) ∧
  (∀ (s : State) (bus word data : Nat) (p : Page), 
    Writable s.dev 0 (0x020 + bus) p → p.tag = .CAN → word < 20 → s.dev.txWritable p.inst (s.dev.g F.CAN.TX_SEL_IDX 0 p.inst) = false → 
    Becomes (.canTxWinWrite bus word data) s (s.dev.inc C.CAN.TX_PUSH_ERR 0 p.inst)) ∧
  (∀ (s : State) (bus data : Nat) (p : Page), 
    Writable s.dev 0 (0x020 + bus) p → p.tag = .CAN → s.dev.txWritable p.inst (data % 64) = false → 
    Becomes (.canTxPush bus data) s (s.dev.inc C.CAN.TX_PUSH_ERR 0 p.inst)) ∧
  (∀ (s : State) (bus data : Nat) (p : Page), 
    Writable s.dev 0 (0x020 + bus) p → p.tag = .CAN → s.dev.txWritable p.inst (data % 64) = true → 
    Becomes (.canTxPush bus data) s (s.dev.canPush p.inst (data % 64) none)) ∧
  (∀ (s : State) (bus data : Nat) (p : Page) (st : Nat), 
    Writable s.dev 0 (0x020 + bus) p → p.tag = .CAN → st = ((s.dev.canC p.inst).ent (data % 64)).st → st ≠ 0 → st ≠ 1 → st ≠ 2 → st ≠ 8 → 
    Becomes (.canTxAck bus data) s (s.dev.canState p.inst (data % 64) 0)) ∧
  (∀ (s : State) (bus data : Nat) (p : Page) (st : Nat), 
    Writable s.dev 0 (0x020 + bus) p → p.tag = .CAN → st = ((s.dev.canC p.inst).ent (data % 64)).st → ((st = 0 ∨ st = 1 ∨ st = 2 ∨ st = 8)) → 
    NoEffect (.canTxAck bus data) s) ∧
  (∀ (s : State) (bus data : Nat) (p : Page) (st : Nat), 
    Writable s.dev 0 (0x020 + bus) p → p.tag = .CAN → st = ((s.dev.canC p.inst).ent (data % 64)).st → st ≠ 1 → st ≠ 2 → st ≠ 8 → 
    NoEffect (.canTxAbort bus data) s) ∧
  (∀ (s : State) (bus data : Nat) (p : Page), 
    Writable s.dev 0 (0x020 + bus) p → p.tag = .CAN → ((((s.dev.canC p.inst).ent (data % 64)).st = 1 ∨ ((s.dev.canC p.inst).ent (data % 64)).st = 8)) → 
    Becomes (.canTxAbort bus data) s (s.dev.canState p.inst (data % 64) 9)) ∧
  (∀ (s : State) (bus data : Nat) (p : Page), 
    Writable s.dev 0 (0x020 + bus) p → p.tag = .CAN → ((s.dev.canC p.inst).ent (data % 64)).st = 2 → 
    Becomes (.canTxAbort bus data) s (s.dev.setCan p.inst (fun c => c.setEnt (data % 64) (fun x => { x with abort := true })))) ∧
  (∀ (s : State) (data : Nat) (p : Page), 
    Writable s.dev 0 0x007 p → 
    Becomes (.standbyRelease true data) s (s.dev.each (bitList 16 data) (fun d n => d.wBit F.GWY.STANDBY_ETH_PORT n false))) ∧
  (∀ (s : State) (data : Nat) (p : Page), 
    Writable s.dev 0 0x007 p → 
    Becomes (.standbyRelease false data) s (s.dev.each (bitList 32 data) (fun d n => (d.wBit F.GWY.STANDBY_CAN_BUS n false).showStb n)))

/-- What the CAN attempt, time-aware, error, sleep and wake rows do

CAN_ARBITRATION on a bus that may send, with no entry on the bus, puts on the bus the contender that goes before the others; else, or with no contender, it has no effect. CAN_TX_ATTEMPT_END with an entry on the bus shows TDCV where compensation applied; then: sent, it emits the frame, clears LEC, lowers the transmit error count and ends the entry SENT; lost, it puts the entry where its abort, one-shot and window say; in error, it shows LEC, adds 8 to the transmit count where the rule counts, and puts the entry, if still on the bus, where those say; then a sleep request that waited takes effect. With no entry on the bus it has no effect. Of a timed entry of a controller that is up: CAN_TAT_WINDOW_CLOSE ends it LATE where it waits or is held and marks it where it is on the bus; CAN_TAT_LAUNCH of one that waits and is not ready makes it ready and on an idle bus arbitrates; otherwise these have no effect. CAN_RECOVER_WRITE with bit 0 asks for recovery. CAN_RECOVERY_DONE of a recovering controller clears state and counts and makes held entries pending, and otherwise has no effect. CAN_RECEIVE_ERROR on a bus that is heard counts a protocol exception, and else shows LEC and in normal operation moves the counts; on one that is not heard it has no effect. On a CAN page that can be written CAN_SLEEP_EDGE and CAN_SLEEP_FRAME ask for sleep and CAN_WAKE_REQ wakes. CAN_OPMODE_CHANGE of a controller that is up, with no entry on the bus, takes the live OPMODE over, and otherwise has no effect. (R418, R420, R425, R426, R427, R429, R430, R431, R432, R433) -/
def Obligations.CanAttempts : Prop :=
  (∀ (s : State) (bus : Nat) (x : CanTx), 
    s.dev.canMode bus = 1 → s.dev.g F.CAN.STAT_STATE 0 bus < 2 → s.dev.mayRadiate = true → (s.dev.canC bus).tx.any (fun x => x.st == 2) = false → (s.dev.contenders bus).foldl (fun (b : Option CanTx) x => some (b.elim x (fun y => if x.before y then x else y))) none = some x → 
    Becomes (.canArbitration bus) s (s.dev.canState bus x.idx 2)) ∧
  (∀ (s : State) (bus : Nat), 
    (s.dev.canMode bus ≠ 1 ∨ 2 ≤ s.dev.g F.CAN.STAT_STATE 0 bus ∨ s.dev.mayRadiate = false ∨ (s.dev.canC bus).tx.any (fun x => x.st == 2) = true ∨ s.dev.contenders bus = []) → 
    NoEffect (.canArbitration bus) s) ∧
  (∀ (s : State) (bus : Nat) (x : CanTx) (tdcv : Nat) (d1 d2 : Dev), 
    s.dev.canActive bus = some x → (d1 = (if x.brs = true ∧ s.dev.on F.CAN.TDC_CFG_EN 0 bus = true ∧ s.dev.g F.CAN.TDC_CFG_TDCF 0 bus ≤ tdcv then s.dev.w F.CAN.STAT_TDCV tdcv 0 bus else s.dev)) → d2 = (d1.emit (.canFrame bus x.bytes)).w F.CAN.STAT_LEC 0 0 bus → 
    Becomes (.canTxAttemptEnd bus .sent tdcv) s (slept ((d2.canCounts bus (d2.g F.CAN.ERRCNT_TEC 0 bus - 1) (d2.g F.CAN.ERRCNT_REC 0 bus)).canState bus x.idx 3) bus)) ∧
  (∀ (s : State) (bus : Nat) (x : CanTx) (tdcv : Nat) (d1 : Dev), 
    s.dev.canActive bus = some x → (d1 = (if x.brs = true ∧ s.dev.on F.CAN.TDC_CFG_EN 0 bus = true ∧ s.dev.g F.CAN.TDC_CFG_TDCF 0 bus ≤ tdcv then s.dev.w F.CAN.STAT_TDCV tdcv 0 bus else s.dev)) → 
    Becomes (.canTxAttemptEnd bus .lost tdcv) s (slept (d1.canState bus x.idx (d1.failedState bus x 4)) bus)) ∧
  (∀ (s : State) (bus : Nat) (x : CanTx) (tdcv lec : Nat) (counts : Bool) (d1 d2 d3 : Dev), 
    s.dev.canActive bus = some x → (d1 = (if x.brs = true ∧ s.dev.on F.CAN.TDC_CFG_EN 0 bus = true ∧ s.dev.g F.CAN.TDC_CFG_TDCF 0 bus ≤ tdcv then s.dev.w F.CAN.STAT_TDCV tdcv 0 bus else s.dev)) → d2 = d1.w F.CAN.STAT_LEC lec 0 bus → d3 = (if counts = true then d2.canErr bus 8 0 else d2) → 
    Becomes (.canTxAttemptEnd bus (.error lec counts) tdcv) s (slept (if (d3.canActive bus).isSome = true then d3.canState bus x.idx (d3.failedState bus x 5) else d3) bus)) ∧
  (∀ (s : State) (bus : Nat) (how : AttemptEnd) (tdcv : Nat), s.dev.canActive bus = none → NoEffect (.canTxAttemptEnd bus how tdcv) s) ∧
  (∀ (s : State) (bus idx : Nat) (idle : Bool), 
    (s.dev.canUp bus = false ∨ ((s.dev.canC bus).ent idx).tat = false ∨ (((s.dev.canC bus).ent idx).st ≠ 1 ∧ ((s.dev.canC bus).ent idx).st ≠ 2 ∧ ((s.dev.canC bus).ent idx).st ≠ 8)) → 
    NoEffect (.canTatWindowClose bus idx) s ∧ NoEffect (.canTatLaunch bus idx idle) s) ∧
  (∀ (s : State) (bus idx : Nat) (idle : Bool), 
    (((s.dev.canC bus).ent idx).st ≠ 1 ∨ ((s.dev.canC bus).ent idx).ready = true) → 
    NoEffect (.canTatLaunch bus idx idle) s) ∧
  (∀ (s : State) (bus idx : Nat), 
    s.dev.canUp bus = true → ((s.dev.canC bus).ent idx).tat = true → ((((s.dev.canC bus).ent idx).st = 1 ∨ ((s.dev.canC bus).ent idx).st = 8)) → 
    Becomes (.canTatWindowClose bus idx) s (s.dev.canState bus idx 6)) ∧
  (∀ (s : State) (bus idx : Nat), 
    s.dev.canUp bus = true → ((s.dev.canC bus).ent idx).tat = true → ((s.dev.canC bus).ent idx).st = 2 → 
    Becomes (.canTatWindowClose bus idx) s (s.dev.setCan bus (fun c => c.setEnt idx (fun x => { x with closed := true })))) ∧
  (∀ (s : State) (bus idx : Nat) (idle : Bool), 
    s.dev.canUp bus = true → ((s.dev.canC bus).ent idx).tat = true → ((s.dev.canC bus).ent idx).st = 1 → ((s.dev.canC bus).ent idx).ready = false → 
    Becomes (.canTatLaunch bus idx idle) s ((s.dev.setCan bus (fun c => c.setEnt idx (fun x => { x with ready := true }))).when idle (fun d => d.canArbitrate bus))) ∧
  (∀ (s : State) (bus data : Nat) (p : Page), 
    Writable s.dev 0 (0x020 + bus) p → p.tag = .CAN → bitOf data 0 = true → 
    Becomes (.canRecoverWrite bus data) s (s.dev.canRecover p.inst)) ∧
  (∀ (s : State) (bus : Nat) (d1 : Dev), 
    s.dev.canUp bus = true → s.dev.g F.CAN.STAT_STATE 0 bus = 3 → d1 = ((s.dev.w F.CAN.STAT_STATE 0 0 bus).w F.CAN.ERRCNT_TEC 0 0 bus).w F.CAN.ERRCNT_REC 0 0 bus → 
    Becomes (.canRecoveryDone bus) s (d1.each ((d1.canC bus).tx.filter (fun x => x.st == 8)) (fun d x => d.canState bus x.idx 1))) ∧
  (∀ (s : State) (bus data : Nat) (p : Page), Writable s.dev 0 (0x020 + bus) p → bitOf data 0 = false → NoEffect (.canRecoverWrite bus data) s) ∧
  (∀ (s : State) (bus : Nat), (s.dev.canUp bus = false ∨ s.dev.g F.CAN.STAT_STATE 0 bus ≠ 3) → NoEffect (.canRecoveryDone bus) s) ∧
  (∀ (s : State) (bus lec recUp tecUp : Nat) (d1 : Dev), 
    s.dev.canHears bus = true → d1 = s.dev.w F.CAN.STAT_LEC lec 0 bus → 
    Becomes (.canReceiveError bus lec recUp tecUp false) s (if d1.canMode bus = 1 then d1.canErr bus tecUp recUp else d1)) ∧
  (∀ (s : State) (bus lec recUp tecUp : Nat), 
    s.dev.canHears bus = true → 
    Becomes (.canReceiveError bus lec recUp tecUp true) s (s.dev.inc C.CAN.PXE 0 bus)) ∧
  (∀ (s : State) (bus lec recUp tecUp : Nat) (pxe : Bool), s.dev.canHears bus = false → NoEffect (.canReceiveError bus lec recUp tecUp pxe) s) ∧
  (∀ (s : State) (bus : Nat) (p : Page), 
    Writable s.dev 0 (0x020 + bus) p → p.tag = .CAN → 
    Becomes (.canSleepEdge bus) s ((s.dev.w F.CAN.CTRL_SLEEP_REQ 1 0 p.inst).canSleepReq p.inst 1)) ∧
  (∀ (s : State) (bus : Nat) (p : Page), 
    Writable s.dev 0 (0x020 + bus) p → p.tag = .CAN → 
    Becomes (.canSleepFrame bus) s ((s.dev.w F.CAN.CTRL_SLEEP_REQ 2 0 p.inst).canSleepReq p.inst 2)) ∧
  (∀ (s : State) (bus : Nat) (p : Page), 
    Writable s.dev 0 (0x020 + bus) p → p.tag = .CAN → 
    Becomes (.canWakeReq bus) s ((s.dev.w F.CAN.CTRL_SLEEP_REQ 0 0 p.inst).canWake p.inst)) ∧
  (∀ (s : State) (bus : Nat), 
    s.dev.canUp bus = true → s.dev.canActive bus = none → 
    Becomes (.canOpmodeChange bus) s ((s.dev.setCan bus (fun c => { c with op := s.dev.g F.CAN.CTRL_OPMODE 0 bus })).showStb bus)) ∧
  (∀ (s : State) (bus : Nat), (s.dev.canUp bus = false ∨ s.dev.canActive bus ≠ none) → NoEffect (.canOpmodeChange bus) s)

/-- What GATEWAY_EVENT, ACF_PDU_RX and the gateway's commands do

GATEWAY_EVENT of an engine that is up, with an event whose record need not wait, takes the oldest event and runs its rule under the event's sequence number; with none, with the engine down or while the record waits it has no effect. ACF_PDU_RX of an engine that is up takes the oldest PDU: one with no stream or a bad form counts ACF_BAD, of another the skipped messages are counted and each CAN message becomes an event of its stream; with none or the engine down it has no effect. When their commands are ready: GW_RULE_SET applies records up to the first refused one and ends with OK, or with RANGE, and their number; GW_RULE_READ writes 48 octets a rule. GW_FRESH_SET stores both freshness values of each rule and, with its bit, clears FRESH_LOST; GW_FRESH_READ writes them. GW_INJECT makes each record an event with ingress 48. BUS_MODE of OP 0 to 3 wakes, puts to sleep with wake on edge, puts to sleep with wake on frame, or starts recovery on each bus of the mask that is ready for it, and fails for the others with UNIT_DOWN; each of the four rows leaves a command of another of these OPs alone. (R9, R362, R432, R433, R434, R435, R438, R441, R442, R445, Table 15-6) -/
def Obligations.GatewayRows : Prop :=
  (∀ (s : State) (e : GwEv) (rest : (List GwEv)), 
    s.dev.gw.inq = e :: rest → s.dev.gwUp = true → s.dev.recordWaits 1 e.seq = false → 
    Becomes (.gatewayEvent) s ({ s.dev with gw := { s.dev.gw with inq := rest } }.underSeq e.seq (fun d => d.gwRun e))) ∧
  (∀ (s : State), s.dev.gw.inq.head?.all (fun e => !s.dev.gwUp || s.dev.recordWaits 1 e.seq) = true → NoEffect (.gatewayEvent) s) ∧
  (∀ (s : State), (s.dev.gw.pdus = [] ∨ s.dev.gwUp = false) → NoEffect (.acfPduRx) s) ∧
  (∀ (s : State) (p : Pkt) (rest : (List Pkt)) (d1 : Dev), 
    s.dev.gw.pdus = p :: rest → s.dev.gwUp = true → d1 = { s.dev with gw := { s.dev.gw with pdus := rest } } → d1.acfPdu p.data = none → 
    Becomes (.acfPduRx) s (d1.inc C.GWY.ACF_BAD)) ∧
  (∀ (s : State) (p : Pkt) (rest : (List Pkt)) (d1 : Dev) (m : (Nat×(List (Nat×CanFrame))×Nat)), 
    s.dev.gw.pdus = p :: rest → s.dev.gwUp = true → d1 = { s.dev with gw := { s.dev.gw with pdus := rest } } → d1.acfPdu p.data = some m → 
    Becomes (.acfPduRx) s ((d1.addc C.GWY.ACF_SKIP m.2.2).each m.2.1 (fun d x => d.gwPut { seq := p.seq, ing := 32 + m.1, bus := x.1, frame := { x.2 with src := 32 + m.1, time := p.time } }))) ∧
  (∀ (s : State) (id : Nat) (c : Cmd) (r : (Dev×Nat×Bool)), 
    Ready s.dev 0x0501 id c (gwRange 48) → r = applyRecs (fun d n b => if d.ruleBad b then none else some (d.setRule n b)) (c.recs s.host 48) (c.par 24 2) s.dev 0 → 
    Becomes (.gwRuleSet id false) s (r.1.showRules.finish id (if r.2.2 then c.ok r.2.1 else c.bad stRange r.2.1))) ∧
  (∀ (s : State) (id : Nat) (c : Cmd), 
    Ready s.dev 0x0502 id c (gwRange 48) → 
    BecomesWith (.gwRuleRead id false) s (s.dev.finish id c.ok)
      ([(c.addr, (List.range c.cnt).flatMap (fun i => s.dev.gw.rule (c.par 24 2 + i)))])) ∧
  (∀ (s : State) (id : Nat) (c : Cmd) (r : (Dev×Nat×Bool)), 
    Ready s.dev 0x0503 id c (gwRange 8) → r = applyRecs (fun d n b => some { d with gw := { d.gw with freshRx := kvSet 0 d.gw.freshRx n (leAt b 0 4), freshTx := kvSet 0 d.gw.freshTx n (leAt b 4 4) } }) (c.recs s.host 8) (c.par 24 2) s.dev 0 → 
    Becomes (.gwFreshSet id false) s ((r.1.when (bitOf (c.par 26 1) 0) (fun d => d.w F.GWY.STAT_FRESH_LOST 0)).finish id (c.ok r.2.1))) ∧
  (∀ (s : State) (id : Nat) (c : Cmd), 
    Ready s.dev 0x0504 id c (gwRange 8) → 
    BecomesWith (.gwFreshRead id false) s (s.dev.finish id c.ok)
      ([(c.addr, (List.range c.cnt).flatMap (fun i => toLE 4 (kvGet 0 s.dev.gw.freshRx (c.par 24 2 + i)) ++ toLE 4 (kvGet 0 s.dev.gw.freshTx (c.par 24 2 + i))))])) ∧
  (∀ (s : State) (id : Nat) (c : Cmd), 
    Ready s.dev 0x0505 id c (fun _ c => if c.len != 80 * c.cnt || 256 < c.cnt then some 0 else none) → 
    Becomes (.gwInject id false) s ((s.dev.each (c.recs s.host 80) (fun d b => d.gwPut { seq := c.seq, ing := 48, bus := 0, frame := injected b d.evTime })).finish id (c.ok c.cnt))) ∧
  (∀ (s : State) (id : Nat) (c : Cmd) (good : (List Nat)), 
    Ready s.dev 0x0506 id c busRange → c.par 28 1 = 0 → c.par 24 4 ≠ 0 → good = (bitList 32 (c.par 24 4)).filter (s.dev.busReady 0) → 
    Becomes (.busWake id) s ((s.dev.each good (fun d n => d.canWake n)).finish id { tryM := c.par 24 4, okM := ofBits good, fail := stDown, result := 0 })) ∧
  (∀ (s : State) (id : Nat) (c : Cmd) (good : (List Nat)), 
    Ready s.dev 0x0506 id c busRange → c.par 28 1 = 1 → c.par 24 4 ≠ 0 → good = (bitList 32 (c.par 24 4)).filter (s.dev.busReady 1) → 
    Becomes (.busSleepEdge id) s ((s.dev.each good (fun d n => d.canSleepReq n 1)).finish id { tryM := c.par 24 4, okM := ofBits good, fail := stDown, result := 0 })) ∧
  (∀ (s : State) (id : Nat) (c : Cmd) (good : (List Nat)), 
    Ready s.dev 0x0506 id c busRange → c.par 28 1 = 2 → c.par 24 4 ≠ 0 → good = (bitList 32 (c.par 24 4)).filter (s.dev.busReady 2) → 
    Becomes (.busSleepFrame id) s ((s.dev.each good (fun d n => d.canSleepReq n 2)).finish id { tryM := c.par 24 4, okM := ofBits good, fail := stDown, result := 0 })) ∧
  (∀ (s : State) (id : Nat) (c : Cmd) (good : (List Nat)), 
    Ready s.dev 0x0506 id c busRange → c.par 28 1 = 3 → c.par 24 4 ≠ 0 → good = (bitList 32 (c.par 24 4)).filter (s.dev.busReady 3) → 
    Becomes (.busRecover id) s ((s.dev.each good (fun d n => d.canRecover n)).finish id { tryM := c.par 24 4, okM := ofBits good, fail := stDown, result := 0 })) ∧
  (∀ (s : State) (id : Nat) (c : Cmd) (op : Nat), 
    s.dev.cmd id = some c → c.par 28 1 = op → op ≤ 3 → 
    (op ≠ 0 → NoEffect (.busWake id) s) ∧ (op ≠ 1 → NoEffect (.busSleepEdge id) s) ∧ (op ≠ 2 → NoEffect (.busSleepFrame id) s) ∧ (op ≠ 3 → NoEffect (.busRecover id) s))

/-- What the Voxnen link rows do

Of an enabled link whose page works: VXL_SIGNAL_DETECT moves DETECT to LOCK; VXL_BLOCK_LOCK moves LOCK to HELLO with both data lanes mapped; VXL_HELLO_TX in HELLO sends the HELLO; VXL_HELLO_RX acts on the peer's; VXL_LOCK_TIMEOUT in LOCK or HELLO is a fault of cause 1; VXL_FAULT_RETRY from FAULT and VXL_LOSS_OF_LOCK from UP lead to DETECT; each in another state has no effect. In UP: VXL_LANE_FAIL of a lane below 3 that counts as failed and was not shows it failed, and then a lane that carries nothing is recorded, for one in use with the bench lane free the peer is asked to swap it, and else the link degrades; of another lane it has no effect. VXL_LANE_SWAP_RX of a data lane that waits swaps it; of one that does not wait and has not failed it answers with the set, and swaps it with the bench lane free, else the link degrades; of another it has no effect. VXL_FRAME_RX in LOCK, HELLO or UP of a frame that a check refuses counts that check's counter; in UP, outside QUIESCE and SHADOW and with an ID, a data frame that passes counts and goes to the wired lane of the owning die; in DETECT or FAULT it has no effect. VXL_FC_SET_RX in UP keeps the held set, VXL_FC_EXPIRY releases a class. VXL_FC_XOFF at the XOFF fill and not yet off, VXL_FC_REPEAT while off and above XON, and VXL_FC_XON while off and at most XON send their set, of a link that may send flow control, and have no effect otherwise. Of a link that is not enabled or whose page does not work all these rows have no effect. (R453, R454, R455, R456, R457, R458, R462, R464, R482, Table 16-1) -/
def Obligations.LinkRows : Prop :=
  (∀ (s : State) (link : Nat), s.dev.vxlUp link = true → s.dev.vxlState link = 1 → Becomes (.vxlSignalDetect link) s (s.dev.vxlTo link 2)) ∧
  (∀ (s : State) (link : Nat), 
    s.dev.vxlUp link = true → s.dev.vxlState link = 2 → 
    Becomes (.vxlBlockLock link) s ((((s.dev.w F.VXL.LANE_STAT_LOCK 3 0 link).w F.VXL.LANE_STAT_MAP0 0 0 link).w F.VXL.LANE_STAT_MAP1 1 0 link).vxlTo link 3)) ∧
  (∀ (s : State) (link : Nat), 
    s.dev.vxlUp link = true → s.dev.vxlState link = 3 → 
    Becomes (.vxlHelloTx link) s (s.dev.hudSend link (s.dev.helloMsg link))) ∧
  (∀ (s : State) (link : Nat) (msg : (List Byte)), s.dev.vxlUp link = true → Becomes (.vxlHelloRx link msg) s (s.dev.helloRx link msg)) ∧
  (∀ (s : State) (link : Nat), 
    s.dev.vxlUp link = true → ((s.dev.vxlState link = 2 ∨ s.dev.vxlState link = 3)) → 
    Becomes (.vxlLockTimeout link) s (s.dev.vxlFault link 1)) ∧
  (∀ (s : State) (link : Nat), s.dev.vxlUp link = true → s.dev.vxlState link = 5 → Becomes (.vxlFaultRetry link) s (s.dev.vxlTo link 1)) ∧
  (∀ (s : State) (link : Nat), s.dev.vxlUp link = true → s.dev.vxlState link = 4 → Becomes (.vxlLossOfLock link) s (s.dev.vxlTo link 1)) ∧
  (∀ (s : State) (link lane : Nat) (bad : (Option Nat)) (d1 : Dev), 
    s.dev.vxlUp link = true → s.dev.vxlState link = 4 → lane < 3 → s.dev.laneBad link bad = true → bitOf (s.dev.g F.VXL.LANE_STAT_FAILED 0 link) lane = false → d1 = (s.dev.wBit F.VXL.LANE_STAT_FAILED lane true 0 link).wBit F.VXL.LANE_STAT_LOCK lane false 0 link → 
    Becomes (.vxlLaneFail link ⟨lane, bad⟩) s (if s.dev.g F.VXL.LANE_STAT_MAP0 0 link ≠ lane ∧ s.dev.g F.VXL.LANE_STAT_MAP1 0 link ≠ lane then d1.setUnit { d1.unit 5 0 (3 * link + lane) with state := .failed } else if s.dev.benchFree link = true then d1.laneSet link lane else d1.vxlDegrade link lane)) ∧
  (∀ (s : State) (link lane : Nat) (bad : (Option Nat)), 
    (s.dev.vxlState link ≠ 4 ∨ 3 ≤ lane ∨ s.dev.laneBad link bad = false ∨ bitOf (s.dev.g F.VXL.LANE_STAT_FAILED 0 link) lane = true) → 
    NoEffect (.vxlLaneFail link ⟨lane, bad⟩) s) ∧
  (∀ (s : State) (link : Nat), 
    (s.dev.vxlState link ≠ 1 → NoEffect (.vxlSignalDetect link) s) ∧ (s.dev.vxlState link ≠ 2 → NoEffect (.vxlBlockLock link) s) ∧ (s.dev.vxlState link ≠ 3 → NoEffect (.vxlHelloTx link) s) ∧ (s.dev.vxlState link ≠ 2 ∧ s.dev.vxlState link ≠ 3 → NoEffect (.vxlLockTimeout link) s) ∧ (s.dev.vxlState link ≠ 5 → NoEffect (.vxlFaultRetry link) s) ∧ (s.dev.vxlState link ≠ 4 → NoEffect (.vxlLossOfLock link) s)) ∧
  (∀ (s : State) (link : Nat) (msg : (List Byte)) (lane : Nat) (bad : (Option Nat)) (frame : (List Byte)) (codeErr : Bool) (mask cls : Nat), 
    s.dev.vxlUp link = false → 
    NoEffect (.vxlSignalDetect link) s ∧ NoEffect (.vxlBlockLock link) s ∧ NoEffect (.vxlHelloTx link) s ∧ NoEffect (.vxlHelloRx link msg) s ∧ NoEffect (.vxlLockTimeout link) s ∧ NoEffect (.vxlFaultRetry link) s ∧ NoEffect (.vxlLossOfLock link) s ∧ NoEffect (.vxlLaneFail link ⟨lane, bad⟩) s ∧ NoEffect (.vxlFrameRx link frame codeErr) s ∧ NoEffect (.vxlFcSetRx link mask) s ∧ NoEffect (.vxlFcExpiry link cls) s ∧ NoEffect (.vxlFcXoff link) s ∧ NoEffect (.vxlFcRepeat link) s ∧ NoEffect (.vxlFcXon link) s) ∧
  (∀ (s : State) (link lane : Nat), 
    s.dev.vxlUp link = true → s.dev.vxlState link = 4 → lane < 2 → (s.dev.vxlL link).swap = some lane → 
    Becomes (.vxlLaneSwapRx link lane) s ((s.dev.laneSwap link lane).checkDeferred ⟨.VXL, 0, link⟩)) ∧
  (∀ (s : State) (link lane : Nat) (d1 : Dev), 
    s.dev.vxlUp link = true → s.dev.vxlState link = 4 → lane < 2 → (s.dev.vxlL link).swap ≠ some lane → bitOf (s.dev.g F.VXL.LANE_STAT_FAILED 0 link) lane = false → d1 = s.dev.emit (.vxlSet link 0xB lane) → 
    Becomes (.vxlLaneSwapRx link lane) s (if d1.benchFree link = true then (d1.laneSwap link lane).checkDeferred ⟨.VXL, 0, link⟩ else (d1.wBit F.VXL.LANE_STAT_FAILED lane true 0 link).vxlDegrade link lane)) ∧
  (∀ (s : State) (link lane : Nat), 
    (s.dev.vxlUp link = false ∨ s.dev.vxlState link ≠ 4 ∨ 2 ≤ lane ∨ ((s.dev.vxlL link).swap ≠ some lane ∧ bitOf (s.dev.g F.VXL.LANE_STAT_FAILED 0 link) lane = true)) → 
    NoEffect (.vxlLaneSwapRx link lane) s) ∧
  (∀ (s : State) (link : Nat) (frame : (List Byte)) (codeErr : Bool) (k : Ctr), 
    s.dev.vxlUp link = true → 2 ≤ s.dev.vxlState link → s.dev.vxlState link ≠ 5 → s.dev.fabCheck link frame codeErr = some k → 
    Becomes (.vxlFrameRx link frame codeErr) s (s.dev.inc k 0 link)) ∧
  (∀ (s : State) (link : Nat) (frame body : (List Byte)), 
    s.dev.vxlUp link = true → s.dev.vxlState link = 4 → s.dev.fabCheck link frame false = none → fabType frame ≠ 2 → fabType frame ≠ 3 → s.dev.act ≠ mQuiesce → s.dev.act ≠ mShadow → s.dev.hasId = true → body = frame.take (frame.length - 4) → 
    Becomes (.vxlFrameRx link frame false) s (((s.dev.inc C.VXL.RX_FRAMES 0 link).addc C.VXL.RX_OCTETS body.length 0 link).toWired (portOwner (16 + link)) 1 body.length (fun b => .fab link body s.dev.evTime b))) ∧
  (∀ (s : State) (link : Nat) (frame : (List Byte)) (codeErr : Bool), 
    (s.dev.vxlState link < 2 ∨ s.dev.vxlState link = 5) → 
    NoEffect (.vxlFrameRx link frame codeErr) s) ∧
  (∀ (s : State) (link : Nat), 
    (s.dev.vxlFcMay link = false ∨ (s.dev.vxlL link).xoff = true ∨ s.dev.wiredLane (16 + link) < s.dev.g F.VXL.FC_THR_XOFF 0 link → NoEffect (.vxlFcXoff link) s) ∧ (s.dev.vxlFcMay link = false ∨ (s.dev.vxlL link).xoff = false ∨ s.dev.wiredLane (16 + link) ≤ s.dev.g F.VXL.FC_THR_XON 0 link → NoEffect (.vxlFcRepeat link) s) ∧ (s.dev.vxlFcMay link = false ∨ (s.dev.vxlL link).xoff = false ∨ s.dev.g F.VXL.FC_THR_XON 0 link < s.dev.wiredLane (16 + link) → NoEffect (.vxlFcXon link) s)) ∧
  (∀ (s : State) (link mask : Nat), 
    s.dev.vxlUp link = true → s.dev.vxlState link = 4 → 
    Becomes (.vxlFcSetRx link mask) s (s.dev.w F.VXL.STAT_HELD_RX mask 0 link)) ∧
  (∀ (s : State) (link cls : Nat), 
    s.dev.vxlUp link = true → cls < 8 → 
    Becomes (.vxlFcExpiry link cls) s (s.dev.wBit F.VXL.STAT_HELD_RX cls false 0 link)) ∧
  (∀ (s : State) (link : Nat), 
    s.dev.vxlFcMay link = true → (s.dev.vxlL link).xoff = false → s.dev.g F.VXL.FC_THR_XOFF 0 link ≤ s.dev.wiredLane (16 + link) → 
    Becomes (.vxlFcXoff link) s ((s.dev.setVxl link (fun x => { x with xoff := true })).vxlFc link true)) ∧
  (∀ (s : State) (link : Nat), 
    s.dev.vxlFcMay link = true → (s.dev.vxlL link).xoff = true → s.dev.g F.VXL.FC_THR_XON 0 link < s.dev.wiredLane (16 + link) → 
    Becomes (.vxlFcRepeat link) s (s.dev.vxlFc link true)) ∧
  (∀ (s : State) (link : Nat), 
    s.dev.vxlFcMay link = true → (s.dev.vxlL link).xoff = true → s.dev.wiredLane (16 + link) ≤ s.dev.g F.VXL.FC_THR_XON 0 link → 
    Becomes (.vxlFcXon link) s ((s.dev.setVxl link (fun x => { x with xoff := false })).vxlFc link false))

/-- What LSA_RX, LSA_REFRESH, LSA_EXPIRY, HUDDLE_SETTLE, SPT_RECOMPUTE and the fabric's commands do

LSA_RX of an LSA on an enabled link in UP, with the huddle running, takes the message, and otherwise has no effect. LSA_REFRESH originates with the next sequence number where the huddle runs and the device may radiate, and otherwise has no effect. LSA_EXPIRY of a held LSA of another device removes it, and a settled huddle is unsettled and originates; of another it has no effect. HUDDLE_SETTLE, with the huddle running, of an uncontested ID that is not settled, settles and originates, and ends a re-huddle: its token returns and its command ends with OK; otherwise it has no effect. SPT_RECOMPUTE of a settled device with an ID fills the 64 entries with the best paths and counts, then the device routes enter each Route die that is up outside SHADOW at its place in the order; otherwise it has no effect. When their commands are ready: FAB_SEND of a known destination, with cells free, meters the packet and sends it or drops it; with no cells free it is dropped and counted. HUD_REHUDDLE that is granted its token stays in flight; with the queue of requests full it ends with RANGE and cause 7; queued, it waits with an interim record due. LSDB_READ and CLAIM_READ write the records, CLAIM_SET applies records on each addressed die and ends with RANGE and cause 6 where a bucket is full. (R461, R463, R464, R465, R466, R467, R468, R469, R471, Table 16-5) -/
def Obligations.HuddleRows : Prop :=
  (∀ (s : State) (link : Nat) (msg : (List Byte)), 
    s.dev.vxlUp link = true → s.dev.vxlState link = 4 → s.dev.hud.on = true → leAt msg 0 1 = 1 → 
    Becomes (.lsaRx link msg) s (s.dev.lsaRx link msg)) ∧
  (∀ (s : State) (link : Nat) (msg : (List Byte)), 
    (s.dev.vxlUp link = false ∨ s.dev.vxlState link ≠ 4 ∨ s.dev.hud.on = false ∨ leAt msg 0 1 ≠ 1) → 
    NoEffect (.lsaRx link msg) s) ∧
  (∀ (s : State), (s.dev.hud.on = false ∨ s.dev.mayRadiate = false) → NoEffect (.lsaRefresh) s) ∧
  (∀ (s : State) (eui : Nat), 
    (eui = s.dev.hudEui ∨ s.dev.hud.lsas.any (fun (r : LsaRec) => r.eui == eui) = false) → 
    NoEffect (.lsaExpiry eui) s) ∧
  (∀ (s : State), 
    (s.dev.hud.on = false ∨ s.dev.hud.id = 255 ∨ s.dev.others.any (fun r => r.id == s.dev.hud.id) = true ∨ s.dev.on F.HUD.STAT_SETTLED = true) → 
    NoEffect (.huddleSettle) s) ∧
  (∀ (s : State), (s.dev.on F.HUD.STAT_SETTLED = false ∨ s.dev.hasId = false) → NoEffect (.sptRecompute) s) ∧
  (∀ (s : State) (d1 : Dev), 
    s.dev.hud.on = true → s.dev.mayRadiate = true → d1 = (s.dev.w F.HUD.SEQ_N ((s.dev.g F.HUD.SEQ_N + 1) % 2 ^ 32)).inc C.HUD.LSA_TX → 
    Becomes (.lsaRefresh) s ((d1.keepLsa { eui := d1.hudEui, bytes := d1.lsaMsg, link := 255, since := d1.time.lt }).each d1.hudLinks (fun d l => d.hudSend l d1.lsaMsg))) ∧
  (∀ (s : State) (eui : Nat) (d1 : Dev), 
    eui ≠ s.dev.hudEui → s.dev.hud.lsas.any (fun (r : LsaRec) => r.eui == eui) = true → d1 = { s.dev with hud := { s.dev.hud with lsas := s.dev.hud.lsas.filter (fun (r : LsaRec) => r.eui != eui) } }.w F.HUD.STAT_DEVICES (s.dev.hud.lsas.filter (fun (r : LsaRec) => r.eui != eui)).length → 
    Becomes (.lsaExpiry eui) s (if d1.on F.HUD.STAT_SETTLED = true then (d1.setSettled false).originate else d1)) ∧
  (∀ (s : State), 
    s.dev.hud.on = true → s.dev.hud.id ≠ 255 → s.dev.others.any (fun r => r.id == s.dev.hud.id) = false → s.dev.on F.HUD.STAT_SETTLED = false → ((s.dev.setSettled true).originate).mt.held.find? (fun r => r.act == 6) = none → 
    Becomes (.huddleSettle) s ((s.dev.setSettled true).originate)) ∧
  (∀ (s : State) (d1 : Dev) (r : TokenReq) (d2 : Dev), 
    s.dev.hud.on = true → s.dev.hud.id ≠ 255 → s.dev.others.any (fun r => r.id == s.dev.hud.id) = false → s.dev.on F.HUD.STAT_SETTLED = false → d1 = (s.dev.setSettled true).originate → d1.mt.held.find? (fun r => r.act == 6) = some r → d2 = (d1.w F.HUD.STAT_REHUDDLE 0).releaseToken 6 r.scope → 
    Becomes (.huddleSettle) s (r.cmd.elim d2 (fun id => (d2.cmd id).elim d2 (fun c => d2.finish id c.ok)))) ∧
  (∀ (s : State) (t : (List (Option Path))) (d1 : Dev), 
    s.dev.on F.HUD.STAT_SETTLED = true → s.dev.hasId = true → t = sptPaths s.dev.hud.id s.dev.hud.lsas → d1 = (s.dev.each (List.range 64) (fun d i => (((d.w F.HUD.SPT_VALID (b2n (t.getD i none).isSome) 0 0 i).w F.HUD.SPT_LINK ((t.getD i none).getD (0, 0, 0)).2.2 0 0 i).w F.HUD.SPT_HOPS (min 63 ((t.getD i none).getD (0, 0, 0)).2.1) 0 0 i).w F.HUD.SPT_COST (min 65535 ((t.getD i none).getD (0, 0, 0)).1) 0 0 i)).inc C.HUD.SPT_RUNS → 
    Becomes (.sptRecompute) s ({ d1 with hud := { d1.hud with devWait := ([1, 2] : List Nat).filter (fun die => d1.dieUp die&&d1.act != mShadow) } }.devEvents)) ∧
  (∀ (s : State) (id : Nat) (c : Cmd) (g : FwdEnt) (d1 : Dev) (b : Nat) (m : (Dev×Nat)), 
    Ready s.dev 0x0601 id c (fun d c => if c.len == 0 || 9216 < c.len || !(d.route 1).fwd.any (fun e => e.kind == 1&&e.key == c.par 24 1 % 64) then some 0 else none) → (s.dev.devFind 1 (c.par 24 1 % 64)).2 = some g → s.dev.alloc 1 2 c.len = some (d1, b) → m = d1.meterFlow 1 26 (c.par 25 1 % 8) c.len d1.evTime → 
    Becomes (.fabSend id false) s (((if m.2 = 2 then m.1.colourOut 1 m.2 else (m.1.colourOut 1 m.2).sendFab 1 g.port 4 (c.par 25 1 % 8) 0 (m.2 == 1) false (c.par 24 1 % 64) 26 (c.buf s.host c.len) (m.1.colourOut 1 m.2).evTime b).release 1 b).finish id c.ok)) ∧
  (∀ (s : State) (id : Nat) (c : Cmd) (g : FwdEnt), 
    Ready s.dev 0x0601 id c (fun d c => if c.len == 0 || 9216 < c.len || !(d.route 1).fwd.any (fun e => e.kind == 1&&e.key == c.par 24 1 % 64) then some 0 else none) → (s.dev.devFind 1 (c.par 24 1 % 64)).2 = some g → s.dev.alloc 1 2 c.len = none → 
    Becomes (.fabSend id false) s ((s.dev.inc C.ING.BUF_DROP 1 0 2).finish id c.ok)) ∧
  (∀ (s : State) (id : Nat) (c : Cmd) (r : (Dev×TokenAnswer)), 
    Ready s.dev 0x0602 id c noRange → s.dev.cmdHolds c.id = false → r = s.dev.requestToken ⟨6, 2, some c.id, 0⟩ → r.2 ≠ .granted → 
    Becomes (.hudRehuddle id) s (if r.2 = .full then r.1.finish id (c.bad stRange 7) else r.1.setCmd c.id (fun c => { c with stage := .waiting, interim := true }))) ∧
  (∀ (s : State) (id : Nat) (c : Cmd) (d1 : Dev), 
    Ready s.dev 0x0602 id c noRange → s.dev.cmdHolds c.id = false → d1 = (s.dev.requestToken ⟨6, 2, some c.id, 0⟩).1 → (s.dev.requestToken ⟨6, 2, some c.id, 0⟩).2 = .granted → 
    Becomes (.hudRehuddle id) s (d1)) ∧
  (∀ (s : State) (id : Nat) (c : Cmd), 
    Ready s.dev 0x0603 id c (fun _ c => if 64 < c.cnt || c.len != 64 * c.cnt then some 0 else none) → 
    BecomesWith (.lsdbRead id false) s (s.dev.finish id (c.ok (s.dev.hud.lsas.take c.cnt).length))
      ([(c.addr, (s.dev.hud.lsas.take c.cnt).flatMap (fun r => r.bytes ++ toLE 1 r.link ++ toLE 7 0 ++ toLE 8 ((s.dev.time.lt - r.since) / 320000)))])) ∧
  (∀ (s : State) (id : Nat) (c : Cmd) (r : (Dev×Reply)), 
    Ready s.dev 0x0604 id c (fun _ c => if 4096 < c.cnt || c.len != 32 * c.cnt then some 0 else none) → r = s.dev.perDie c (fun d die => ((applyRecs (fun d _ b => d.claimSet die b) (c.recs s.host 32) 0 d 0).1, if (applyRecs (fun d _ b => d.claimSet die b) (c.recs s.host 32) 0 d 0).2.2 then 0 else stRange)) → 
    Becomes (.claimSet id false) s (r.1.reply id { r.2 with result := if r.2.fail == stRange then 6 else 0 })) ∧
  (∀ (s : State) (id : Nat) (c : Cmd) (t : ((List Byte)×Nat)), 
    Ready s.dev 0x0605 id c (fun _ c => if c.len < 32 * c.cnt then some 0 else none) → t = takeBuckets c.cnt (((s.dev.route c.die1).cedes.filter (fun x => c.par 28 4 ≤ x.pos / 4)).map (fun x => (x.pos / 4, x.bytes))) → 
    BecomesWith (.claimRead id false) s (s.dev.finish id (c.ok t.2))
      ([(c.addr, t.1)]))

/-- What the rows of a pair's members do: heartbeat, possession, takeover, formation, leaving

Of a member whose twin operation runs: HEARTBEAT_PULSE emits a pulse of the width of its code. UMP_GO_RISE records UMP_GO; a ready STANDBY in SHADOW then counts the lost records and starts the takeover, a member that forms in SHADOW leaves as DETACHED and says so, another does no more. UMP_GO_FALL records it and releases possession; then a takeover ends DETACHED, a holder in SERVICE or the issuer of a formation is demoted. POSSESSION_TAKE with UMP_GO, not blocked and not the holder: in a takeover that waits for it, or in SERVICE or BRINGUP, possession is taken; the takeover goes on, another lets its outputs go. PAIR_TIME_MEASURE of a joining member sets its offset. TWIN_PEER_NOTICE of a state shows it; that the partner holds makes a holder release, block and raise POSS_CONFLICT; that it broke makes a PRIMARY leave for SOLO, an issuer's formation fail, another STANDBY or forming member DETACHED; of a formation makes a DETACHED SHADOW form; of its copy makes a forming SHADOW take it and a STANDBY. If twin operation does not run these rows have no effect. POSS_LINE_HIGH shows the line and makes a holder release and raise POSS_FAULT. TAKEOVER_BACKLOG_DONE at step 3 runs the journal, and with nothing left that is next drops and counts the rest and makes what does not pass fresh; TAKEOVER_POSS_TIMEOUT without possession detaches and raises TAKEOVER_FAIL; out of a takeover neither has an effect. DUTY_USAGE_REPORT of a PRIMARY reports, of a STANDBY notes; LAG_ALARM raises LAG past the limit. When their commands are ready: TWN_FORM that may begin starts the formation, else it ends with RANGE and the cause; TWN_BREAK leaves a PRIMARY for SOLO, a STANDBY or DETACHED for DETACHED, and tells the partner; TWN_HANDOVER with a ready partner is pending; out of those states the last two end with RANGE. (R480, R481, R483, R493, R498, R500, R501, R502, R504, R505, R508, Table 17-6) -/
def Obligations.TwinMembers : Prop :=
  (∀ (s : State), 
    s.dev.twinRuns = true → 
    Becomes (.heartbeatPulse) s ((s.dev.w F.TWN.STAT_HB_CODE s.dev.hbCode).emit (.umpPulse (200 + 200 * s.dev.hbCode)))) ∧
  (∀ (s : State) (lost : Nat) (d1 : Dev), 
    s.dev.twinRuns = true → s.dev.on F.TWN.STAT_GO = false → d1 = s.dev.w F.TWN.STAT_GO 1 → 
    Becomes (.umpGoRise lost) s (if d1.twin = 3 ∧ d1.g F.TWN.STAT_HB_CODE = 1 ∧ d1.mode = mShadow then { (d1.addc C.TWN.LOST_REC lost).twinTo 5 with tw := { ((d1.addc C.TWN.LOST_REC lost).twinTo 5).tw with step := 1 } }.startTrans mService 2 else if d1.twin = 6 ∧ d1.mode = mShadow then (d1.leavePair 4).emit (.twinMsg 3 []) else d1)) ∧
  (∀ (s : State) (lost : Nat), s.dev.on F.TWN.STAT_GO = true → NoEffect (.umpGoRise lost) s) ∧
  (∀ (s : State) (d1 : Dev), 
    s.dev.twinRuns = true → d1 = { s.dev.w F.TWN.STAT_GO 0 with tw := { s.dev.tw with blocked := false } }.releasePoss → 
    Becomes (.umpGoFall) s (if d1.twin = 5 then (d1.leavePair 4).w F.BTL.BOOT_STAT_TRANS 0 else if (s.dev.on F.TWN.STAT_POSS_HELD = true ∧ d1.mode = mService) ∨ (d1.twin = 6 ∧ d1.mode ≠ mShadow) then d1.demote else d1)) ∧
  (∀ (s : State) (lost ofs : Nat) (msg : PeerMsg), 
    s.dev.twinRuns = false → 
    NoEffect .heartbeatPulse s ∧ NoEffect (.umpGoRise lost) s ∧ NoEffect .umpGoFall s ∧ NoEffect .possessionTake s ∧ NoEffect (.pairTimeMeasure ofs) s ∧ NoEffect (.twinPeerNotice msg) s) ∧
  (∀ (s : State), 
    s.dev.on F.TWN.STAT_POSS_HELD = true → 
    Becomes (.possLineHigh) s ((s.dev.w F.TWN.STAT_POSS_LINE 1).releasePoss.raise E.TWN.POSS_FAULT)) ∧
  (∀ (s : State), s.dev.on F.TWN.STAT_POSS_HELD = false → Becomes (.possLineHigh) s (s.dev.w F.TWN.STAT_POSS_LINE 1)) ∧
  (∀ (s : State) (taking : Bool) (d1 : Dev), 
    s.dev.twinRuns = true → s.dev.on F.TWN.STAT_GO = true → s.dev.tw.blocked = false → s.dev.on F.TWN.STAT_POSS_HELD = false → taking = (s.dev.twin == 5&&s.dev.tw.step == 1) → ((taking = true ∨ ((s.dev.mode = mService ∨ s.dev.mode = mBringup) ∧ (s.dev.act = mService ∨ s.dev.act = mBringup)))) → d1 = ({ s.dev with pins := { s.dev.pins with possLow := true } }.w F.TWN.STAT_POSS_HELD 1).w F.TWN.STAT_POSS_LINE 0 → 
    Becomes (.possessionTake) s (if taking = true then { d1 with tw := { d1.tw with step := 3 } } else (d1.rfswFollow).originate)) ∧
  (∀ (s : State), 
    (s.dev.on F.TWN.STAT_GO = false ∨ s.dev.tw.blocked = true ∨ s.dev.on F.TWN.STAT_POSS_HELD = true) → 
    NoEffect (.possessionTake) s) ∧
  (∀ (s : State) (d1 d2 : Dev), 
    s.dev.twin = 5 → s.dev.tw.step = 3 → d1 = s.dev.runJournal → d1.tw.intake.any (fun x => d1.isNext x) = false → d2 = ({ d1.addc C.TWN.LOST_REC d1.tw.intake.length with tw := { (d1.addc C.TWN.LOST_REC d1.tw.intake.length).tw with intake := [], step := 4 } }.showLag.dutyTaken.takeoverFresh).takeoverCamps → 
    Becomes (.takeoverBacklogDone) s (((d2.each ([5, 6] : List Nat) (fun d die => d.bandFollow die)).rfswFollow).originate)) ∧
  (∀ (s : State) (d1 : Dev), 
    s.dev.twin = 5 → s.dev.tw.step = 3 → d1 = s.dev.runJournal → d1.tw.intake.any (fun x => d1.isNext x) = true → 
    Becomes (.takeoverBacklogDone) s (d1)) ∧
  (∀ (s : State), (s.dev.twin ≠ 5 ∨ s.dev.tw.step ≠ 3) → NoEffect (.takeoverBacklogDone) s) ∧
  (∀ (s : State), (s.dev.twin ≠ 5 ∨ s.dev.on F.TWN.STAT_POSS_HELD = true) → NoEffect (.takeoverPossTimeout) s) ∧
  (∀ (s : State), 
    s.dev.twin = 5 → s.dev.on F.TWN.STAT_POSS_HELD = false → 
    Becomes (.takeoverPossTimeout) s (((s.dev.leavePair 4).w F.BTL.BOOT_STAT_TRANS 0).raise E.TWN.TAKEOVER_FAIL)) ∧
  (∀ (s : State) (ofs : Nat), 
    s.dev.twinRuns = true → s.dev.mode = mShadow → ((s.dev.twin = 3 ∨ s.dev.twin = 6)) → 
    Becomes (.pairTimeMeasure ofs) s (((s.dev.w F.TWN.PT_OFS_LO_O (ofs % 2 ^ 32)).w F.TWN.PT_OFS_HI_O (ofs / 2 ^ 32 % 2 ^ 32)).emit (.twinMsg 4 []))) ∧
  (∀ (s : State), 
    s.dev.twin = 2 → 
    Becomes (.dutyUsageReport none) s (s.dev.emit (.twinMsg 2 (s.dev.usage.flatMap (fun u => toLE 1 u.1 ++ toLE 8 u.2))))) ∧
  (∀ (s : State) (l : (List (Nat×Nat))), 
    s.dev.twin = 3 → 
    Becomes (.dutyUsageReport (some l)) s ({ s.dev with tw := { s.dev.tw with duty := l, dutyAt := s.dev.time.lt } })) ∧
  (∀ (s : State), 
    ((s.dev.twin = 2 ∨ s.dev.twin = 3)) → 1000 * s.dev.g F.TWN.JCFG_LAG_MAX < s.dev.g F.TWN.LAG_US → 
    Becomes (.lagAlarm) s (s.dev.raise E.TWN.LAG)) ∧
  (∀ (s : State) (rx : (Option (List (Nat×Nat)))), s.dev.twin ≠ 2 → s.dev.twin ≠ 3 → NoEffect (.dutyUsageReport rx) s ∧ NoEffect .lagAlarm s) ∧
  (∀ (s : State) (ofs : Nat), (s.dev.mode ≠ mShadow ∨ (s.dev.twin ≠ 3 ∧ s.dev.twin ≠ 6)) → NoEffect (.pairTimeMeasure ofs) s) ∧
  (∀ (s : State) (n : Nat), s.dev.twinRuns = true → Becomes (.twinPeerNotice (.state n)) s (s.dev.w F.TWN.STAT_PARTNER n)) ∧
  (∀ (s : State), 
    s.dev.twinRuns = true → 
    Becomes (.twinPeerNotice .holds) s (if s.dev.on F.TWN.STAT_POSS_HELD = true then { s.dev.releasePoss with tw := { s.dev.tw with blocked := true } }.raise E.TWN.POSS_CONFLICT else s.dev)) ∧
  (∀ (s : State), 
    s.dev.twinRuns = true → 
    Becomes (.twinPeerNotice .broke) s (if s.dev.twin = 2 then s.dev.leavePair 1 else if s.dev.twin = 6 ∧ s.dev.mode ≠ mShadow then s.dev.formFails else if s.dev.twin = 3 ∨ s.dev.twin = 6 then s.dev.leavePair 4 else s.dev)) ∧
  (∀ (s : State) (copy : TwinCopy), 
    s.dev.twinRuns = true → 
    Becomes (.twinPeerNotice .forming) s (if s.dev.twin = 4 ∧ s.dev.mode = mShadow then s.dev.twinTo 6 else s.dev) ∧ Becomes (.twinPeerNotice (.formed copy)) s (if s.dev.twin = 6 ∧ s.dev.mode = mShadow then (s.dev.putCopy copy).twinTo 3 else s.dev)) ∧
  (∀ (s : State) (id : Nat) (c : Cmd) (cause : Nat), 
    Ready s.dev 0x0701 id c noRange → s.dev.tw.form ≠ some id → s.dev.formCause cause = 0 → 
    Becomes (.twnForm id cause) s (({ s.dev with tw := { s.dev.tw with form := some id } }.twinTo 6).startTrans mQuiesce 1)) ∧
  (∀ (s : State) (id : Nat) (c : Cmd) (cause : Nat), 
    Ready s.dev 0x0701 id c noRange → s.dev.tw.form ≠ some id → s.dev.formCause cause ≠ 0 → 
    Becomes (.twnForm id cause) s (s.dev.finish id (c.bad stRange (s.dev.formCause cause)))) ∧
  (∀ (s : State) (id : Nat) (c : Cmd), 
    Ready s.dev 0x0702 id c noRange → 
    Becomes (.twnBreak id) s (if s.dev.twin = 2 then ((s.dev.leavePair 1).emit (.twinMsg 3 [])).finish id c.ok else if s.dev.twin = 3 ∨ s.dev.twin = 4 then ((s.dev.leavePair 4).emit (.twinMsg 3 [])).finish id c.ok else s.dev.finish id (c.bad stRange 1))) ∧
  (∀ (s : State) (id : Nat) (c : Cmd), 
    Ready s.dev 0x0703 id c noRange → s.dev.twin = 2 → s.dev.g F.TWN.STAT_PARTNER = 3 → s.dev.on F.TWN.STAT_LINK_UP = true → s.dev.g F.TWN.LAG_US ≤ 1000 * s.dev.g F.TWN.JCFG_LAG_MAX → 
    Becomes (.twnHandover id) s ({ s.dev with tw := { s.dev.tw with handover := true } }.finish id c.ok)) ∧
  (∀ (s : State) (id : Nat) (c : Cmd), 
    Ready s.dev 0x0703 id c noRange → ((s.dev.twin ≠ 2 ∨ s.dev.g F.TWN.STAT_PARTNER ≠ 3 ∨ s.dev.on F.TWN.STAT_LINK_UP = false ∨ 1000 * s.dev.g F.TWN.JCFG_LAG_MAX < s.dev.g F.TWN.LAG_US)) → 
    Becomes (.twnHandover id) s (s.dev.finish id (c.bad stRange (if s.dev.twin ≠ 2 then 1 else 3))))

/-- What the umpire's rows and the journal's rows do

Of an umpire whose duty runs and a member it has: UMPIRE_PULSE_RX classifies the pulse, keeps the member's last three codes and its run of REPLACE, ends its block at NOT_READY, blocks the other where the holder goes from three REPLACE pulses to HOLDING, and then the first grant and the verdict are decided; UMPIRE_HB_LOST forgets the codes and decides the same; UMPIRE_ERR_N_LOW of the holder, where ERR_N is watched, decides with it. UMPIRE_RELEASE_TIMEOUT while an old holder leaves ends its wait and, with RST_EN, holds its reset low. In other cases these rows have no effect. UMPIRE_RESET_RELEASE of a member whose reset is held low lets it go, and otherwise has no effect. JOURNAL_RECORD_RX at a STANDBY whose twin operation runs, of a record that it does not have and that is new or next, keeps it, runs what is next and shows the lag; JOURNAL_ACK_TIMER there runs what is next and reports for each die the number up to which it has every record. At a PRIMARY JOURNAL_ACK_RX drops a Route die's acknowledged records, shows the lag and frees the vectors that they held back, JOURNAL_RESEND sends a Route die's others again, JOURNAL_STALL with records outstanding stalls the journal, and JOURNAL_STALL_BREAK of a stalled holder breaks the pair. In other cases these six rows have no effect. (R484, R485, R486, R487, R488, R489, Table 17-3, Table 17-4) -/
def Obligations.UmpireAndJournal : Prop :=
  (∀ (s : State) (member widthUs k : Nat) (d1 d2 : Dev), 
    s.dev.umpireRuns = true → member ≤ 1 → k = pulseCode widthUs → d1 = (s.dev.setUmp member (fun m => { m with codes := (k :: m.codes).take 3, replRun := if k == 3 then m.replRun + 1 else 0, replAt := if k == 3&&m.replRun == 0 then s.dev.time.lt else m.replAt, lost := false })).showCode member k → d2 = (if d1.umpBlocked member&&k == 2 then d1.setBlock member false else d1) → 
    Becomes (.umpirePulseRx member widthUs) s (((if s.dev.goHolder == some member&&3 ≤ (s.dev.umpOf member).replRun&&k == 0 then d2.setBlock (1 - member) true else d2).firstGrant).verdict false)) ∧
  (∀ (s : State) (member : Nat), 
    s.dev.umpireRuns = true → member ≤ 1 → 
    Becomes (.umpireHbLost member) s (((s.dev.setUmp member (fun m => { m with lost := true, codes := [], replRun := 0 })).firstGrant).verdict false)) ∧
  (∀ (s : State) (member : Nat), 
    s.dev.umpireRuns = true → s.dev.on F.TWN.UMP_CFG_ERR_EN = true → s.dev.goHolder = some member → 
    Becomes (.umpireErrNLow member) s (s.dev.verdict true)) ∧
  (∀ (s : State) (m : Nat) (d1 : Dev), 
    s.dev.tw.leaving = some m → s.dev.umpireRuns = true → d1 = { s.dev with tw := { s.dev.tw with leaving := none } } → 
    Becomes (.umpireReleaseTimeout) s (if d1.on F.TWN.UMP_CFG_RST_EN = true then { d1 with pins := { d1.pins with porstOut := putBit d1.pins.porstOut m true } } else d1)) ∧
  (∀ (s : State) (member widthUs : Nat), 
    (s.dev.umpireRuns = false ∨ 1 < member) → 
    NoEffect (.umpirePulseRx member widthUs) s ∧ NoEffect (.umpireHbLost member) s) ∧
  (∀ (s : State) (member : Nat), 
    (s.dev.umpireRuns = false ∨ s.dev.on F.TWN.UMP_CFG_ERR_EN = false ∨ s.dev.goHolder ≠ some member) → 
    NoEffect (.umpireErrNLow member) s) ∧
  (∀ (s : State), (s.dev.tw.leaving = none ∨ s.dev.umpireRuns = false) → NoEffect (.umpireReleaseTimeout) s) ∧
  (∀ (s : State) (member : Nat), bitOf s.dev.pins.porstOut member = false → NoEffect (.umpireResetRelease member) s) ∧
  (∀ (s : State) (member : Nat), 
    bitOf s.dev.pins.porstOut member = true → 
    Becomes (.umpireResetRelease member) s ({ s.dev with pins := { s.dev.pins with porstOut := putBit s.dev.pins.porstOut member false } }.setUmp member (fun _ => { lost := true }))) ∧
  (∀ (s : State) (die : Nat) (record : JRec), 
    isRoute die = true → s.dev.twinRuns = true → s.dev.twin = 3 → s.dev.tw.intake.contains (die, record) = false → (((s.dev.route die).seq ≤ record.seq ∨ s.dev.isNext (die, record) = true)) → 
    Becomes (.journalRecordRx die record) s (({ s.dev with tw := { s.dev.tw with intake := s.dev.tw.intake ++ [(die, record)] } }.runJournal).showLag)) ∧
  (∀ (s : State) (die : Nat) (record : JRec), 
    (isRoute die = false ∨ s.dev.twinRuns = false ∨ s.dev.twin ≠ 3 ∨ s.dev.tw.intake.contains (die, record) = true ∨ (record.seq < (s.dev.route die).seq ∧ s.dev.isNext (die, record) = false)) → 
    NoEffect (.journalRecordRx die record) s) ∧
  (∀ (s : State), (s.dev.twinRuns = false ∨ s.dev.twin ≠ 3) → NoEffect (.journalAckTimer) s) ∧
  (∀ (s : State) (die seq lagUs : Nat), 
    (isRoute die = false ∨ s.dev.twin ≠ 2) → 
    NoEffect (.journalAckRx die seq lagUs) s ∧ NoEffect (.journalResend die) s) ∧
  (∀ (s : State), (s.dev.twin ≠ 2 ∨ s.dev.jrnOut = false) → NoEffect (.journalStall) s) ∧
  (∀ (s : State), (s.dev.twin ≠ 2 ∨ s.dev.tw.stalled = false ∨ s.dev.on F.TWN.STAT_POSS_HELD = false) → NoEffect (.journalStallBreak) s) ∧
  (∀ (s : State) (d1 : Dev) (got : (Nat→Nat)), 
    s.dev.twinRuns = true → s.dev.twin = 3 → d1 = s.dev.runJournal.showLag → got = (fun die => forN d1.tw.intake.length (d1.route die).seq (fun n _ => if d1.tw.intake.any (fun x => x.1 == die&&x.2.seq == n) then n + 1 else n)) → 
    Becomes (.journalAckTimer) s (d1.emit (.twinMsg 1 (toLE 8 (got 1) ++ toLE 8 (got 2) ++ toLE 4 (d1.g F.TWN.LAG_US))))) ∧
  (∀ (s : State) (die seq lagUs : Nat), 
    isRoute die = true → s.dev.twin = 2 → 
    Becomes (.journalAckRx die seq lagUs) s ((s.dev.setRoute die (fun r => { r with jrn := r.jrn.filter (fun x => seq ≤ x.seq), acked := max r.acked seq })).w F.TWN.LAG_US lagUs |>.freeVecs (fun x => x.1 == die&&decide (x.2.1 < seq)))) ∧
  (∀ (s : State) (die : Nat), 
    isRoute die = true → s.dev.twin = 2 → 
    Becomes (.journalResend die) s (s.dev.each (s.dev.route die).jrn (fun d r => (d.inc C.TWN.JRN_RESEND).emit (.jrnSend die r.seq)))) ∧
  (∀ (s : State), s.dev.twin = 2 → s.dev.jrnOut = true → Becomes (.journalStall) s ({ s.dev with tw := { s.dev.tw with stalled := true } })) ∧
  (∀ (s : State), 
    s.dev.twin = 2 → s.dev.tw.stalled = true → s.dev.on F.TWN.STAT_POSS_HELD = true → 
    Becomes (.journalStallBreak) s (((s.dev.leavePair 1).raise E.TWN.TWIN_BROKEN).emit (.twinMsg 3 [])))

/-- What the log's rows, SB_NOW, the scoreboard rows and PS_READ do

When their commands are ready: LOG_READ writes the records from a SEQ on, at most COUNT, and answers the first one's SEQ. LOG_FLUSH with an empty log ends with OK; otherwise it waits for the records so far and starts a page. SB_NOW with a ring asks for a dump. PS_READ writes and removes the oldest sampling records of its die, shows the buffer not full and answers their number. LOG_FLUSH_TIMER with its period set, or at 128 records, starts a page, and otherwise has no effect. LOG_PAGE_PROGRAMMED of a page in programming: when it went well the page's records move to flash, the counts are shown and the flushes that are served complete, and while others wait a page is started; when it failed the log moves to the next sector, raises LOG_FLASH and starts a page again; with no page in programming it has no effect. SCOREBOARD_CAPTURE with a ring, of a set period or a dump asked for: in DOZE the capture is only counted as missed; else those missed in DOZE count in SKIPPED, and then, with the last dump written and room in the ring, it takes header and counters and shows BUSY, and otherwise it is missed and counts SKIPPED. With no ring, or with no period and no dump asked for, it has no effect. SCOREBOARD_DUMP_WRITTEN while BUSY clears it: a dump that was written goes into the ring at TAIL, TAIL and LAST_SEQ move on, it counts and vector 10 fires; one that was not is missed and raises RING_DMA; a change of the ring that waited takes hold. When not BUSY it has no effect. (R536, R544, R545, R546, R547, R548, R549, R550, R551, R552, Table 19-1, Table 19-5) -/
def Obligations.LogAndScoreboards : Prop :=
  (∀ (s : State) (id : Nat) (c : Cmd) (l : (List LogRec)), 
    Ready s.dev 0x0903 id c (fun _ c => if c.cnt ≤ 8192&&32 * c.cnt ≤ c.len then none else some 0) → l = (s.dev.logAll.filter (fun r => c.par 28 4 ≤ r.seq)).take c.cnt → 
    BecomesWith (.logRead id false) s (s.dev.finish id (c.ok (l.head?.elim 0 (fun r => r.seq))))
      ([(c.addr, l.flatMap LogRec.bytes)])) ∧
  (∀ (s : State) (id : Nat) (c : Cmd), Ready s.dev 0x0904 id c noRange → s.dev.log.ram = [] → Becomes (.logFlush id) s (s.dev.finish id c.ok)) ∧
  (∀ (s : State) (id : Nat) (c : Cmd), 
    Ready s.dev 0x0904 id c noRange → s.dev.log.ram ≠ [] → 
    Becomes (.logFlush id) s ({ s.dev with log := { s.dev.log with flushCmds := s.dev.log.flushCmds ++ [(id, s.dev.log.last)] } }.logStart)) ∧
  (∀ (s : State), s.dev.g F.CPT.LOG_CFG_FLUSH = 0 → s.dev.log.ram.length < 128 → NoEffect (.logFlushTimer) s) ∧
  (∀ (s : State), (s.dev.g F.CPT.LOG_CFG_FLUSH ≠ 0 ∨ 128 ≤ s.dev.log.ram.length) → Becomes (.logFlushTimer) s (s.dev.logStart)) ∧
  (∀ (s : State) (d1 d2 d3 : Dev), 
    s.dev.log.busy ≠ 0 → d1 = { s.dev with log := { s.dev.log.program (s.dev.log.ram.take s.dev.log.busy) with ram := s.dev.log.ram.drop s.dev.log.busy, busy := 0 } } → d2 = d1.w F.CPT.LOG_STAT_UNFLUSHED d1.log.ram.length → d3 = (d2.w F.CPT.LOG_OLDEST_SEQ ((d2.logAll.head?).elim 0 (fun r => r.seq))).flushDone → 
    Becomes (.logPageProgrammed true) s (if d3.log.flushCmds = [] then d3 else d3.logStart)) ∧
  (∀ (s : State), 
    s.dev.log.busy ≠ 0 → 
    Becomes (.logPageProgrammed false) s (({ s.dev with log := { s.dev.log.nextSector with busy := 0 } }.raise E.CPT.LOG_FLASH).logStart)) ∧
  (∀ (s : State) (ok : Bool), s.dev.log.busy = 0 → NoEffect (.logPageProgrammed ok) s) ∧
  (∀ (s : State) (id : Nat) (c : Cmd), 
    Ready s.dev 0x0905 id c (fun d _ => if d.g F.SBD.RING_CFG_SIZE_LOG2 == 0 then some 0 else none) → 
    Becomes (.sbNow id) s ({ s.dev with sb := { s.dev.sb with nowDue := true } }.finish id c.ok)) ∧
  (∀ (s : State) (id : Nat) (c : Cmd) (die : Nat), 
    Ready s.dev 0x0906 id c (fun _ c => if c.cnt ≤ 4096&&c.len == 16 * c.cnt then none else some 0) → die = (if c.target == 1 then 1 else 2) → 
    BecomesWith (.psRead id false) s (((s.dev.setSamples die ((s.dev.samples die).drop c.cnt)).w F.PLY.PS_STAT_FULL 0 die).finish id (c.ok ((s.dev.samples die).take c.cnt).length))
      ([(c.addr, ((s.dev.samples die).take c.cnt).flatMap SampRec.bytes)])) ∧
  (∀ (s : State), 
    (s.dev.g F.SBD.RING_CFG_SIZE_LOG2 = 0 ∨ (s.dev.g F.SBD.CFG_PERIOD = 0 ∧ s.dev.sb.nowDue = false)) → 
    NoEffect (.scoreboardCapture) s) ∧
  (∀ (s : State), 
    s.dev.g F.SBD.RING_CFG_SIZE_LOG2 ≠ 0 → ((s.dev.g F.SBD.CFG_PERIOD ≠ 0 ∨ s.dev.sb.nowDue = true)) → s.dev.mode = mDoze → 
    Becomes (.scoreboardCapture) s ({ s.dev with sb := { s.dev.sb with dozed := s.dev.sb.dozed + 1 } })) ∧
  (∀ (s : State) (lg : Nat) (d0 d1 d2 : Dev), 
    lg = s.dev.g F.SBD.RING_CFG_SIZE_LOG2 → lg ≠ 0 → ((s.dev.g F.SBD.CFG_PERIOD ≠ 0 ∨ s.dev.sb.nowDue = true)) → s.dev.mode ≠ mDoze → d0 = (if s.dev.sb.dozed = 0 then s.dev else s.dev.addc C.SBD.SKIPPED s.dev.sb.dozed) → d1 = { d0 with sb := { d0.sb with nowDue := false, missed := d0.sb.missed + d0.sb.dozed, dozed := 0 } } → d1.on F.SBD.STAT_BUSY = false → (d1.g F.SBD.RING_TAIL_T + 2 ^ 32 - d1.g F.SBD.RING_HEAD_H) % 2 ^ 32 + dumpLength ≤ 2 ^ lg → d2 = { d1 with sb := { d1.sb with header := d1.dumpHeader, body := d1.dumpBody, base := d1.g F.SBD.RING_BASE_LO_A / 4096 * 4096 + 2 ^ 32 * d1.g F.SBD.RING_BASE_HI_A, sizeLog2 := lg, missed := 0 } } → 
    Becomes (.scoreboardCapture) s ((d2.w F.SBD.STAT_BODY bodySize).w F.SBD.STAT_BUSY 1)) ∧
  (∀ (s : State) (lg : Nat) (d0 d1 : Dev), 
    lg = s.dev.g F.SBD.RING_CFG_SIZE_LOG2 → lg ≠ 0 → ((s.dev.g F.SBD.CFG_PERIOD ≠ 0 ∨ s.dev.sb.nowDue = true)) → s.dev.mode ≠ mDoze → d0 = (if s.dev.sb.dozed = 0 then s.dev else s.dev.addc C.SBD.SKIPPED s.dev.sb.dozed) → d1 = { d0 with sb := { d0.sb with nowDue := false, missed := d0.sb.missed + d0.sb.dozed, dozed := 0 } } → ((d1.on F.SBD.STAT_BUSY = true ∨ 2 ^ lg < (d1.g F.SBD.RING_TAIL_T + 2 ^ 32 - d1.g F.SBD.RING_HEAD_H) % 2 ^ 32 + dumpLength)) → 
    Becomes (.scoreboardCapture) s ({ d1 with sb := { d1.sb with missed := d1.sb.missed + 1 } }.inc C.SBD.SKIPPED)) ∧
  (∀ (s : State) (t : Nat) (d1 d2 d3 : Dev), 
    s.dev.on F.SBD.STAT_BUSY = true → d1 = s.dev.w F.SBD.STAT_BUSY 0 → t = d1.g F.SBD.RING_TAIL_T → d2 = { d1 with sb := { d1.sb with ring := ringWrite d1.sb.ring d1.sb.base d1.sb.sizeLog2 t (padTo dumpLength (d1.sb.header ++ d1.sb.body)), header := [], body := [] } } → d3 = ((d2.w F.SBD.RING_TAIL_T (t + dumpLength)).w F.SBD.LAST_SEQ_SEQ (d2.g F.SBD.LAST_SEQ_SEQ + 1)).inc C.SBD.DUMPS → 
    Becomes (.scoreboardDumpWritten false) s ((if s.dev.sb.renew = true then d3.ringRenew else d3).fireVec 10)) ∧
  (∀ (s : State) (d1 d2 : Dev), 
    s.dev.on F.SBD.STAT_BUSY = true → d1 = s.dev.w F.SBD.STAT_BUSY 0 → d2 = { d1 with sb := { d1.sb with missed := d1.sb.missed + 1, header := [], body := [] } } → 
    Becomes (.scoreboardDumpWritten true) s ((if s.dev.sb.renew = true then d2.ringRenew else d2).raise E.SBD.RING_DMA)) ∧
  (∀ (s : State) (dmaErr : Bool), s.dev.on F.SBD.STAT_BUSY = false → NoEffect (.scoreboardDumpWritten dmaErr) s)

/-- What the update commands, ACTIVATION_BEGIN, TRIAL_WARNING and TRIAL_EXPIRY do

When their commands are ready: with a restart due UPD_OPEN and UPD_WRITE end with MODE; else UPD_OPEN that ends well empties the bank and opens the session, and UPD_WRITE that ends well programs its octets, erasing each sector at its first touch, and shows the pages. UPD_CHECK ends with OK, or with RANGE and the failed check, which of check 5 shows in LAST_DETAIL; in RECOVER RESULT bit 16 is set. UPD_ACTIVATE in RECOVER programs GEN and TRIAL, ends the session and, unless BOOT_RECOVER led there, makes the restart due; a PRIMARY ends it with MODE; a holder of its token ends with OK; granted every region it leaves the pair as a STANDBY, ends the session, makes the restart due and ends with OK. UPD_CONFIRM that ends well programs GOOD, ends the trial, counts and logs; UPD_REVERT gives the running bank up and makes the revert due. UPD_INFO writes both banks' words and manifests. CFG_WRITE of a good blob that ends well stores it, counts and logs; of another it ends with RANGE, 6 and the failed check; in RECOVER of the running bank's blob it ends with MODE. ACTIVATION_BEGIN has no effect with no restart due, while its command waits for its record, or, out of RECOVER, with no activation token, during a transition or before t_q. In RECOVER it resets the chip with cause 7; in SERVICE it begins, logging, and enters QUIESCE; in another mode it begins where it had not, drops what is queued, flushes the log, saves the state, programs GEN and TRIAL of an activation, and resets the chip with cause 7 unless power went. In a trial TRIAL_WARNING shows 60 s and fires vector 12, TRIAL_EXPIRY gives the bank up, fires vector 12 and, with REVERT_RESET 1, makes the revert due; with no trial neither has an effect. (R122, R564, R565, R566, R567, R570, R571, R572, R573, R574, R575, R578) -/
def Obligations.UpdateRows : Prop :=
  (∀ (s : State) (id : Nat) (c : Cmd) (i : Nat) (d1 : Dev), 
    Ready s.dev 0x0A01 id c openRange → s.dev.upd.due = 0 → s.dev.openBank c = some i → d1 = (s.dev.setImgBank i (fun b => { factory := b.factory, erased := b.erased, cells := b.cells })).endSession → 
    Becomes (.updOpen id .done) s (({ d1 with upd := { d1.upd with session := some i } }.w F.UPD.STAT_SESSION 1).finish id c.ok)) ∧
  (∀ (s : State) (id : Nat) (c : Cmd) (sectors : (List Nat)) (d1 d2 d3 : Dev), 
    Ready s.dev 0x0A02 id c writeRange → s.dev.upd.due = 0 → sectors = (((writePages (c.par 24 4) c.len).map (fun p => p / 16)).eraseDups).filter (fun x => !s.dev.upd.pages.any (fun p => p / 16 == x)) → d1 = (s.dev.freshBytes c.len).2.setImgBank (s.dev.upd.session.getD 0) (fun b => (sectors.foldl (fun (b : ImgBank) x => b.erase x) b).program (c.par 24 4) (c.buf s.host c.len)) → d2 = { d1 with upd := { d1.upd with pages := d1.upd.pages ++ writePages (c.par 24 4) c.len } } → d3 = (d2.w F.UPD.SESSION_PAGES_N d2.upd.pages.length).addc C.UPD.PAGES_WRITTEN (writePages (c.par 24 4) c.len).length → 
    Becomes (.updWrite id false .done) s (d3.finish id c.ok)) ∧
  (∀ (s : State) (id : Nat) (c : Cmd) (fate : FlashEnd), 
    s.dev.upd.due ≠ 0 → 
    (Ready s.dev 0x0A01 id c openRange → Becomes (.updOpen id fate) s (s.dev.finish id (c.bad stMode))) ∧ (Ready s.dev 0x0A02 id c writeRange → Becomes (.updWrite id false fate) s (s.dev.finish id (c.bad stMode)))) ∧
  (∀ (s : State) (id : Nat) (c : Cmd) (flag : Nat), 
    Ready s.dev 0x0A03 id c noRange → s.dev.checkResult = none → flag = (if s.dev.mode = mRecover then 65536 else 0) → 
    Becomes (.updCheck id) s (s.dev.finish id (c.ok flag))) ∧
  (∀ (s : State) (id : Nat) (c : Cmd) (r flag : Nat), 
    Ready s.dev 0x0A03 id c noRange → s.dev.checkResult = some r → flag = (if s.dev.mode = mRecover then 65536 else 0) → 
    Becomes (.updCheck id) s ((if r % 256 = 4 then s.dev.lastDetail 5 (r / 256) s.dev.staging else s.dev).finish id (c.bad stRange (r + flag)))) ∧
  (∀ (s : State) (id : Nat) (c : Cmd) (d1 : Dev), 
    Ready s.dev 0x0A04 id c activateRange → s.dev.mode = mRecover → d1 = (s.dev.programTrial s.dev.staging .done).endSession → 
    Becomes (.updActivate id) s ((if d1.pwr.recoverPin = true then d1 else { d1 with upd := { d1.upd with due := 1 } }).finish id c.ok)) ∧
  (∀ (s : State) (id : Nat) (c : Cmd), 
    Ready s.dev 0x0A04 id c activateRange → s.dev.mode ≠ mRecover → ((s.dev.twin = 2 ∨ s.dev.cmdHolds c.id = true)) → 
    Becomes (.updActivate id) s (s.dev.finish id (if s.dev.twin = 2 then c.bad stMode else c.ok))) ∧
  (∀ (s : State) (id : Nat) (c : Cmd) (d1 d2 : Dev), 
    Ready s.dev 0x0A04 id c activateRange → s.dev.mode ≠ mRecover → s.dev.twin ≠ 2 → s.dev.cmdHolds c.id = false → d1 = (s.dev.requestToken ⟨7, allRegions, some c.id, 0⟩).1 → (s.dev.requestToken ⟨7, allRegions, some c.id, 0⟩).2 = .granted → d2 = (if d1.twin = 3 then (d1.emit (.twinMsg 3 [])).leavePair 4 else d1) → 
    Becomes (.updActivate id) s ({ d2.endSession with upd := { d2.endSession.upd with due := 1 } }.finish id c.ok)) ∧
  (∀ (s : State) (fate : FlashEnd), 
    (s.dev.upd.due = 0 ∨ s.dev.restartWaits = true ∨ (s.dev.mode ≠ mRecover ∧ (s.dev.on F.UPD.STAT_ACT_BUSY = false ∨ s.dev.on F.BTL.BOOT_STAT_TRANS = true ∨ s.dev.beforeQ = true))) → 
    NoEffect (.activationBegin fate) s) ∧
  (∀ (s : State) (fate : FlashEnd), 
    s.dev.upd.due ≠ 0 → s.dev.restartWaits = false → s.dev.mode = mRecover → 
    Becomes (.activationBegin fate) s (s.dev.chipReset 7)) ∧
  (∀ (s : State) (fate : FlashEnd), 
    s.dev.upd.due ≠ 0 → s.dev.restartWaits = false → s.dev.mode = mService → s.dev.on F.UPD.STAT_ACT_BUSY = true → s.dev.on F.BTL.BOOT_STAT_TRANS = false → s.dev.beforeQ = false → 
    Becomes (.activationBegin fate) s ((if s.dev.upd.backMode = none then s.dev.restartBegins else s.dev).startTrans mQuiesce 1)) ∧
  (∀ (s : State) (fate : FlashEnd) (d0 d1 d2 : Dev), 
    s.dev.upd.due ≠ 0 → s.dev.restartWaits = false → s.dev.mode ≠ mRecover → s.dev.mode ≠ mService → s.dev.on F.UPD.STAT_ACT_BUSY = true → s.dev.on F.BTL.BOOT_STAT_TRANS = false → s.dev.beforeQ = false → d0 = (if s.dev.upd.backMode = none then s.dev.restartBegins else s.dev) → d1 = ((d0.addc C.UPD.ACT_DROPS d0.queued).flushAll).saveAll → d2 = (if s.dev.upd.due = 1 then d1.programTrial s.dev.staging fate else d1) → 
    Becomes (.activationBegin fate) s (if d2.pwr.inReset = true then d2 else d2.chipReset 7)) ∧
  (∀ (s : State) (id : Nat) (c : Cmd) (d1 : Dev), 
    Ready s.dev 0x0A05 id c trialRange → d1 = ((s.dev.setImgBank s.dev.runBank (fun b => { b with good := markGood })).trialOver).inc C.UPD.CONFIRMS → 
    Becomes (.updConfirm id .done) s ((d1.logRec 0x0B03 1 0 (toLE 1 s.dev.runBank ++ toLE 4 (((s.dev.setImgBank s.dev.runBank (fun b => { b with good := markGood })).trialOver).imgBank s.dev.runBank).gen)).finish id c.ok)) ∧
  (∀ (s : State) (id : Nat) (c : Cmd), 
    Ready s.dev 0x0A06 id c trialRange → 
    Becomes (.updRevert id) s ((((s.dev.giveUp s.dev.runBank 5 0 0).trialOver).revertDue).finish id c.ok)) ∧
  (∀ (s : State) (id : Nat) (c : Cmd), 
    Ready s.dev 0x0A07 id c (lenIs 192) → 
    BecomesWith (.updInfo id false) s (s.dev.finish id c.ok)
      ([(c.addr, (s.dev.imgBank 0).words ++ (s.dev.imgBank 1).words ++ (s.dev.imgBank 0).read 0 64 ++ (s.dev.imgBank 1).read 0 64 ++ List.replicate 16 0#8)])) ∧
  (∀ (s : State) (id : Nat) (c : Cmd) (b : (List Byte)), 
    Ready s.dev 0x0A08 id c cfgRange → s.dev.mode ≠ mRecover → b = c.buf s.host c.len → blobLen b = c.len → blobFail b (s.dev.imgBank (if c.par 24 1 = 0 then s.dev.runBank else s.dev.staging)).schema = 0 → 
    Becomes (.cfgWrite id false .done) s (((({ s.dev with boot := { s.dev.boot with blob := b } }).inc C.UPD.CFG_WRITES).logRec 0x0B06 1 0 (toLE 4 c.len ++ toLE 2 (leAt b 8 2))).finish id c.ok)) ∧
  (∀ (s : State) (id : Nat) (c : Cmd) (b : (List Byte)) (chk : Nat), 
    Ready s.dev 0x0A08 id c cfgRange → ((s.dev.mode ≠ mRecover ∨ c.par 24 1 ≠ 0)) → b = c.buf s.host c.len → (chk = (if blobLen b ≠ c.len ∧ leAt b 0 4 = 0x43474C42 then 2 else blobFail b (s.dev.imgBank (if c.par 24 1 = 0 then s.dev.runBank else s.dev.staging)).schema)) → chk ≠ 0 → 
    Becomes (.cfgWrite id false .done) s (s.dev.finish id (c.bad stRange (6 + 256 * chk)))) ∧
  (∀ (s : State) (id : Nat) (c : Cmd) (fate : FlashEnd), 
    Ready s.dev 0x0A08 id c cfgRange → s.dev.mode = mRecover → c.par 24 1 = 0 → 
    Becomes (.cfgWrite id false fate) s (s.dev.finish id (c.bad stMode))) ∧
  (∀ (s : State), s.dev.on F.UPD.STAT_TRIAL = false → NoEffect .trialWarning s ∧ NoEffect .trialExpiry s) ∧
  (∀ (s : State), s.dev.on F.UPD.STAT_TRIAL = true → Becomes (.trialWarning) s ((s.dev.w F.UPD.WIN_LEFT_SEC 60).fireVec 12)) ∧
  (∀ (s : State) (d1 : Dev), 
    s.dev.on F.UPD.STAT_TRIAL = true → d1 = ((s.dev.giveUp s.dev.runBank 4 0 0).trialOver).fireVec 12 → 
    Becomes (.trialExpiry) s (if d1.on F.UPD.CFG_REVERT_RESET then d1.revertDue else d1))

/-- What the campaign commands and the campaign events do

When their commands are ready: CMP_IMG_LOAD keeps an image with its SHA-256, or ends with UNIT_DOWN while the DRAM is down; CMP_IMG_INFO writes an image's size and hash, 0 for none. CMP_SET of a record that is not refused defines the campaign, of a refused one ends with RANGE cause 3; CMP_MEMBERS adds member records up to the first refused one and ends with OK and their number, or with RANGE, the cause and their number. CMP_CTRL: CMP_START arms a DEFINED campaign, logs it and announces it to its members; CMP_PAUSE pauses a running one, CMP_RESUME returns it to its state, CMP_STOP ends it as CANCELLED, CMP_CLEAR removes a finished one; each leaves a command of another OP alone. CMP_STATUS and CMP_MEMBER_READ write a campaign's status and members, zeros where there is none. CAMPAIGN_SLOT of a campaign that can send, with a root: if the meter holds it or the duty share does, that is counted in METER_HOLD or DUTY_HOLD as a timer event of the engine's die; else, if the air MAC plans the frame, the event builds it and the group counter moves on, and if not, only what planning counted stays. With no root it counts NO_ROOT; with the counter at its end the campaign halts with cause 1; where the campaign cannot send it has no effect. CAMPAIGN_WAIT_END ends the round of a campaign whose wait has passed, and otherwise has no effect. CAMPAIGN_REPORT takes the oldest report, which acts; with none it has no effect. CAMPAIGN_ENGINE_SWITCHOVER, with Route-0 the engine, the spare active and no campaign frame held, makes Route-1 the engine, and otherwise has no effect. (R585, R586, R587, R589, R591, R592, R593, R594, R595, R602, Table 21-3, Table 21-4) -/
def Obligations.CampaignRows : Prop :=
  (∀ (s : State) (id : Nat) (c : Cmd), 
    Ready s.dev 0x0B01 id c imgLoadRange → s.dev.pwr.dramUp = true → 
    Becomes (.cmpImgLoad id false) s (({ s.dev with cmp := { s.dev.cmp with images := s.dev.cmp.images.filter (fun (x : NodeImg) => x.idx != c.par 24 1) ++ [({ idx := c.par 24 1, data := c.buf s.host c.len, hash := sha256 (c.buf s.host c.len) } : NodeImg)] } }.showCmp).finish id c.ok)) ∧
  (∀ (s : State) (id : Nat) (c : Cmd), 
    Ready s.dev 0x0B01 id c imgLoadRange → s.dev.pwr.dramUp = false → 
    Becomes (.cmpImgLoad id false) s (s.dev.finish id (c.bad stDown))) ∧
  (∀ (s : State) (id : Nat) (c : Cmd), 
    Ready s.dev 0x0B02 id c (lenIs 40) → 
    BecomesWith (.cmpImgInfo id false) s (s.dev.finish id c.ok)
      ([(c.addr, toLE 4 ((s.dev.img (c.par 24 1)).elim 0 (fun x => x.data.length)) ++ toLE 4 0 ++ padTo 32 ((s.dev.img (c.par 24 1)).elim [] (fun x => x.hash)))])) ∧
  (∀ (s : State) (id : Nat) (c : Cmd) (x : Camp), 
    Ready s.dev 0x0B03 id c cmpSetRange → x = ({ cid := c.cid, body := c.buf s.host 64 } : Camp) → s.dev.campRefused x = false → 
    Becomes (.cmpSet id false) s (({ s.dev with cmp := { s.dev.cmp with list := s.dev.cmp.list.filter (fun (o : Camp) => o.cid != c.cid) ++ [({ x with fcnt := x.fcntStart } : Camp)] } }.showCmp).finish id c.ok)) ∧
  (∀ (s : State) (id : Nat) (c : Cmd) (x : Camp), 
    Ready s.dev 0x0B03 id c cmpSetRange → x = ({ cid := c.cid, body := c.buf s.host 64 } : Camp) → s.dev.campRefused x = true → 
    Becomes (.cmpSet id false) s (s.dev.finish id (c.bad stRange 3))) ∧
  (∀ (s : State) (id : Nat) (c : Cmd) (r : (Dev×Nat×Nat)), 
    Ready s.dev 0x0B04 id c cmpMembersRange → r = addMembers c.cid (c.recs s.host 8) s.dev 0 → r.2.2 = 0 → 
    Becomes (.cmpMembers id false) s (r.1.showCmp.finish id (c.ok r.2.1))) ∧
  (∀ (s : State) (id : Nat) (c : Cmd) (r : (Dev×Nat×Nat)), 
    Ready s.dev 0x0B04 id c cmpMembersRange → r = addMembers c.cid (c.recs s.host 8) s.dev 0 → r.2.2 ≠ 0 → 
    Becomes (.cmpMembers id false) s (r.1.showCmp.finish id (c.bad stRange (r.2.2 + 65536 * r.2.1)))) ∧
  (∀ (s : State) (id : Nat) (c : Cmd) (x : Camp) (d1 : Dev), 
    Ready s.dev 0x0B05 id c (ctrlRange (fun st => st == 1)) → c.par 25 1 = 0 → s.dev.camp c.cid = some x → d1 = s.dev.setCamp x.cid (fun (y : Camp) => { y with state := 2 }) → 
    Becomes (.cmpStart id) s ((((d1.logRec 0x0C01 1 d1.cmp.engine (toLE 1 x.cid ++ toLE 2 x.tenant ++ toLE 1 x.image ++ toLE 2 (d1.campBlocks x))).announce x (fun _ => true)).showCmp).finish id c.ok)) ∧
  (∀ (s : State) (id : Nat) (c : Cmd) (x : Camp), 
    Ready s.dev 0x0B05 id c (ctrlRange (fun st => 2 ≤ st&&st ≤ 4)) → c.par 25 1 = 1 → s.dev.camp c.cid = some x → 
    Becomes (.cmpPause id) s (((s.dev.setCamp x.cid (fun (c : Camp) => { c with state := 5, resume := c.state })).showCmp).finish id c.ok)) ∧
  (∀ (s : State) (id : Nat) (c : Cmd) (x : Camp), 
    Ready s.dev 0x0B05 id c (ctrlRange (fun st => st == 5)) → c.par 25 1 = 2 → s.dev.camp c.cid = some x → 
    Becomes (.cmpResume id) s (((s.dev.setCamp x.cid (fun (c : Camp) => { c with state := c.resume })).showCmp).finish id c.ok)) ∧
  (∀ (s : State) (id : Nat) (c : Cmd) (x : Camp), 
    Ready s.dev 0x0B05 id c (ctrlRange (fun st => 2 ≤ st&&st ≤ 5)) → c.par 25 1 = 3 → s.dev.camp c.cid = some x → 
    Becomes (.cmpStop id) s (((s.dev.setCamp x.cid (fun (c : Camp) => { c with state := 8 })).showCmp).finish id c.ok)) ∧
  (∀ (s : State) (id : Nat) (c : Cmd) (x : Camp), 
    Ready s.dev 0x0B05 id c (ctrlRange (fun st => 6 ≤ st)) → c.par 25 1 = 4 → s.dev.camp c.cid = some x → 
    Becomes (.cmpClear id) s (({ s.dev with cmp := { s.dev.cmp with list := s.dev.cmp.list.filter (fun (o : Camp) => o.cid != x.cid) } }.showCmp).finish id c.ok)) ∧
  (∀ (s : State) (id : Nat) (c : Cmd) (op : Nat), 
    s.dev.cmd id = some c → c.par 25 1 = op → op ≤ 4 → 
    (op ≠ 0 → NoEffect (.cmpStart id) s) ∧ (op ≠ 1 → NoEffect (.cmpPause id) s) ∧ (op ≠ 2 → NoEffect (.cmpResume id) s) ∧ (op ≠ 3 → NoEffect (.cmpStop id) s) ∧ (op ≠ 4 → NoEffect (.cmpClear id) s)) ∧
  (∀ (s : State) (id : Nat) (c : Cmd) (x : Camp), 
    Ready s.dev 0x0B06 id c cmpStatusRange → s.dev.camp c.cid = some x → x.state ≠ 0 → 
    BecomesWith (.cmpStatus id false) s (s.dev.finish id c.ok)
      ([(c.addr, toLE 1 x.state ++ toLE 1 x.cause ++ toLE 1 x.round ++ toLE 1 0 ++ toLE 2 x.ptr ++ toLE 2 (s.dev.campBlocks x) ++ toLE 4 x.fcnt ++ toLE 4 x.members.length ++ toLE 4 x.finals ++ toLE 4 x.repair.length ++ toLE 4 x.frames ++ toLE 4 0)])) ∧
  (∀ (s : State) (id : Nat) (c : Cmd), 
    Ready s.dev 0x0B06 id c cmpStatusRange → s.dev.camp c.cid = none → 
    BecomesWith (.cmpStatus id false) s (s.dev.finish id c.ok)
      ([(c.addr, List.replicate 32 0#8)])) ∧
  (∀ (s : State) (id : Nat) (c : Cmd), 
    Ready s.dev 0x0B07 id c cmpReadRange → 
    BecomesWith (.cmpMemberRead id false) s (s.dev.finish id c.ok)
      ([(c.addr, (List.range c.cnt).flatMap (fun i => (((s.dev.camp c.cid).elim [] (fun x => x.members))[c.par 28 4 + i]?).elim (List.replicate 16 0#8) (fun m => m.bytes)))])) ∧
  (∀ (s : State) (cid : Nat) (c : Camp) (root : (List Byte)) (x : Tx) (r : (Dev×Bool)) (d1 : Dev), 
    s.dev.camp cid = some c → c.state = 3 → s.dev.cmp.lost = false → s.dev.seqOpen s.dev.cmp.engine = true → s.dev.act = mService → s.dev.inCampSlot c = true → c.nextBlocks.isEmpty = false → s.dev.campHeld (fun k => k == cid) = false → c.fcnt ≠ 0xFFFFFFFF → s.dev.root c.tenant = some root → x = s.dev.blockTx c (s.dev.blockPsdu c root) → s.dev.campHold c x = 0 → r = s.dev.planTx (bandAir c.band) x (some (s.dev.slotLimit (bandAir c.band))) → r.2 = true → d1 = (r.1.sequence s.dev.cmp.engine 5).journal s.dev.cmp.engine 5 0 s.dev.evTime (.camp cid 0) → 
    Becomes (.campaignSlot cid) s (((d1.meterDn d1.cmp.engine c.tenant x.psdu.length d1.evTime 0).1.frameBuilt c).showCmp)) ∧
  (∀ (s : State) (cid : Nat) (c : Camp) (root : (List Byte)) (x : Tx) (r : (Dev×Bool)), 
    s.dev.camp cid = some c → c.state = 3 → s.dev.cmp.lost = false → s.dev.seqOpen s.dev.cmp.engine = true → s.dev.act = mService → s.dev.inCampSlot c = true → c.nextBlocks.isEmpty = false → s.dev.campHeld (fun k => k == cid) = false → c.fcnt ≠ 0xFFFFFFFF → s.dev.root c.tenant = some root → x = s.dev.blockTx c (s.dev.blockPsdu c root) → s.dev.campHold c x = 0 → r = s.dev.planTx (bandAir c.band) x (some (s.dev.slotLimit (bandAir c.band))) → r.2 = false → 
    Becomes (.campaignSlot cid) s (r.1)) ∧
  (∀ (s : State) (cid : Nat) (c : Camp) (root : (List Byte)) (x : Tx) (flag : Nat) (d1 : Dev), 
    s.dev.camp cid = some c → c.state = 3 → s.dev.cmp.lost = false → s.dev.seqOpen s.dev.cmp.engine = true → s.dev.act = mService → s.dev.inCampSlot c = true → c.nextBlocks.isEmpty = false → s.dev.campHeld (fun k => k == cid) = false → c.fcnt ≠ 0xFFFFFFFF → s.dev.root c.tenant = some root → x = s.dev.blockTx c (s.dev.blockPsdu c root) → flag = s.dev.campHold c x → flag ≠ 0 → d1 = (s.dev.sequence s.dev.cmp.engine 5).journal s.dev.cmp.engine 5 flag s.dev.evTime (.camp cid flag) → 
    Becomes (.campaignSlot cid) s ((d1.inc (if flag = 1 then C.CMP.METER_HOLD else C.CMP.DUTY_HOLD) d1.cmp.engine).showCmp)) ∧
  (∀ (s : State) (cid : Nat) (c : Camp), 
    s.dev.camp cid = some c → c.state = 3 → s.dev.cmp.lost = false → s.dev.seqOpen s.dev.cmp.engine = true → s.dev.act = mService → s.dev.inCampSlot c = true → c.nextBlocks.isEmpty = false → s.dev.campHeld (fun k => k == cid) = false → c.fcnt ≠ 0xFFFFFFFF → s.dev.root c.tenant = none → 
    Becomes (.campaignSlot cid) s (s.dev.inc C.CRY.NO_ROOT s.dev.cmp.engine)) ∧
  (∀ (s : State) (cid : Nat), 
    (∀ c, s.dev.camp cid = some c → c.state ≠ 3 ∨ s.dev.cmp.lost = true ∨ s.dev.seqOpen s.dev.cmp.engine = false ∨ s.dev.act ≠ mService ∨ s.dev.inCampSlot c = false ∨ c.nextBlocks = [] ∨ s.dev.campHeld (fun k => k == cid) = true) → 
    NoEffect (.campaignSlot cid) s) ∧
  (∀ (s : State) (cid : Nat) (c : Camp), 
    s.dev.camp cid = some c → c.state = 3 → s.dev.cmp.lost = false → s.dev.seqOpen s.dev.cmp.engine = true → s.dev.act = mService → s.dev.inCampSlot c = true → c.nextBlocks.isEmpty = false → s.dev.campHeld (fun k => k == cid) = false → c.fcnt = 0xFFFFFFFF → 
    Becomes (.campaignSlot cid) s (s.dev.haltCamp cid 1)) ∧
  (∀ (s : State) (cid : Nat) (c : Camp), 
    s.dev.camp cid = some c → c.state = 4 → c.waitLeft = 0 → s.dev.cmp.lost = false → s.dev.mode ≠ mShadow → 
    Becomes (.campaignWaitEnd cid) s (s.dev.waitEnd c)) ∧
  (∀ (s : State) (cid : Nat), 
    (∀ c, s.dev.camp cid = some c → c.state ≠ 4 ∨ c.waitLeft ≠ 0 ∨ s.dev.cmp.lost = true ∨ s.dev.mode = mShadow) → 
    NoEffect (.campaignWaitEnd cid) s) ∧
  (∀ (s : State) (r : (NodeKey×Nat×List Byte)) (rest : (List (NodeKey×Nat×List Byte))), 
    s.dev.cmpIn = r :: rest → 
    Becomes (.campaignReport) s ({ s.dev with cmpIn := rest }.campReport r.1 r.2.1 r.2.2)) ∧
  (∀ (s : State), s.dev.cmpIn = [] → NoEffect (.campaignReport) s) ∧
  (∀ (s : State), 
    s.dev.cmp.engine = 1 → (s.dev.unit 6 2 0).state = .active → s.dev.campHeld (fun _ => true) = false → 
    Becomes (.campaignEngineSwitchover) s ({ (s.dev.w F.CMP.STAT_ACTIVE 0 1) with cmp := { s.dev.cmp with engine := 2 } }.showCmp)) ∧
  (∀ (s : State), 
    (s.dev.cmp.engine ≠ 1 ∨ (s.dev.unit 6 2 0).state ≠ .active ∨ s.dev.campHeld (fun _ => true) = true) → 
    NoEffect (.campaignEngineSwitchover) s)

/-- A step takes the command at the front of the queue

A step of a state whose queue begins with a command is that command's effect on the state with the queue's rest. The queue is the model's own (assumption 1). (00_scope.md, 95_what_each_step_holds.md) -/
def Obligations.StepRunsFront : Prop :=
  ∀ (c : Instr) (s : State) (rest : List Instr), s.pending = c :: rest → step s = exec c { s with pending := rest }

/-- A step of an empty queue is one tick of the time island

With no command waiting a step lets one tick pass, a choice of the model (assumption 1). Out of reset, with no reset due, no DOZE entry under way and no DEV entry waiting to be written: the time island takes one tick, which while the clock runs raises local time by 1; only registers, the bands, their fuses, the Air dies and the reload marks of the Route dies can change beside it, and the rest of the device stays. Host memory stays. No word spells a command, so placing one leaves a state as it is. (R57, R58, 00_scope.md) -/
def Obligations.EmptyQueueTicks : Prop :=
  ((∀ (s : State), s.pending = [] → step s = .next { s with dev := s.dev.idle })) ∧
  ((∀ (d : Dev), d.pwr.inReset = false → d.pwr.resetDue = none → d.dozeEntering = false → d.hud.devWait = [] →
      ∃ rf bands fuses air, d.idle = { d.tick with rf := rf, bands := bands, fuses := fuses, air := air, routes := d.routes.map (fun (r : Route) => { r with reload := [] }) })) ∧
  ((∀ (d : Dev), d.clockRuns = true → d.tick = { d with time := d.tick.time } ∧ d.tick.time.lt = (d.time.lt + 1) % 2 ^ 64)) ∧
  ((∀ (s : State) (nbits w : Nat), decodeTableWord nbits w = none ∧ s.withFetchWord nbits w = s))

/-- The state right after reset

At reset every register field of every page holds its reset value in both copies, every counter is 0, the outputs are in their Reset states, boot is due, local time is 0, the log is empty, no key is held, no chip reset is due, no command waits, and host memory is in its canonical form. Where the spec gives a field no reset value the value is the model's own (assumption 7). (R57, R107, R546, Table 2-8, Table 2-9, Table 5-1) -/
def Obligations.ResetState : Prop :=
  (Inv State.reset ∧ Settled State.reset ∧ State.reset.pending = []) ∧
  ((∀ (f : Fld) (p : Page) (i : Nat), State.reset.dev.get f p i = f.reset i ∧ State.reset.dev.getS f p i = f.reset i)) ∧
  ((∀ (c : Ctr) (die inst i : Nat), State.reset.dev.ctr c die inst i = 0)) ∧
  (State.reset.dev.pins = Pins.atReset ∧ State.reset.dev.pwr.bootDue = true ∧ State.reset.dev.time.lt = 0) ∧
  (State.reset.dev.log.ram = [] ∧ State.reset.dev.vault.keys = [] ∧ State.reset.dev.hl.inflight = [] ∧ State.reset.dev.mt.held = [])

/-- Every step keeps the invariant: canonical host memory and no reset left due

For every state with host memory in its canonical form and no chip reset left due, and for every command at the front of its queue, a step answers a next state; that state has both properties again, and its queue is the rest of the queue. (R108, R511, 00_scope.md) -/
def Obligations.InvariantKept : Prop :=
  ∀ (s : State), Inv s → Settled s → ∃ t, step s = .next t ∧ Inv t ∧ Settled t ∧ t.pending = s.pending.tail

/-- Any queue of commands runs to its end, first in first out

For every list of commands at the front of a queue, as many steps as the list has commands run exactly those commands one after another, each on the state that the one before left, with no fault and no refusal; what stood behind them in the queue is then the whole queue. (R9, 00_scope.md) -/
def Obligations.RunsInOrder : Prop :=
  ∀ (cs rest : List Instr) (s : State), ∃ t, runAll cs { s with pending := rest } = .next t ∧
      steps cs.length { s with pending := cs ++ rest } = .next t ∧ t.pending = rest

/-- Every command completes, whatever the queue, and leaves the queue alone

Every row of the table, in every state, answers a next state: there is no fault and no refusal. The queue is left as it is, what the command does to the device and to host memory does not depend on the queue, and no chip reset is left due. (R9, R511, 00_scope.md) -/
def Obligations.EveryCommandCompletes : Prop :=
  ∀ (i : Instr) (s : State), ∃ (d : Dev) (h : List Host.Cell), d.pwr.resetDue = none ∧
      ∀ (q : List Instr), exec i { s with pending := q } = .next { dev := d, host := h, pending := q }

/-- Only the reads of the host and the completion ring write host memory, and only where they say

A row that is neither a read into a data buffer nor a completion write leaves host memory as it is. A row whose effect is a list of writes leaves every octet outside them as it was, and with canonical memory a write's octets read back. Memory that nothing has written reads as 0 (assumption 4). (R5, R96, R99, R102, Table 4-8) -/
def Obligations.HostMemoryFrame : Prop :=
  ((∀ (i : Instr) (s t : State), writesHost i = false → exec i s = .next t → t.host = s.host)) ∧
  ((∀ (i : Instr) (s t : State) (d : Dev) (ws : List (Nat × List Byte)) (a : Nat), BecomesWith i s d ws → exec i s = .next t →
      (∀ w ∈ ws, a < w.1 ∨ w.1 + w.2.length ≤ a) → memGet t.host a = memGet s.host a)) ∧
  ((∀ (m : List Host.Cell) (a : Nat) (bs : List Byte), Memory.wf m = true → memRead (memWrite m a bs) a bs.length = bs))

/-- A host command that its mode or its unit does not take is not executed

For every host command but those of CMP_CTRL: with no command of that opcode sequenced under the number, the row has no effect. With one whose turn it is (no earlier key command waits, where it is a key command) and whose opcode the mode does not accept, it completes with RANGE or MODE; with one whose unit is down, with RANGE, MODE or UNIT_DOWN. Nothing changes but the command's outcome. (R102, R627, R104, R25) -/
def Obligations.HostRowsRefuse : Prop :=
  ((∀ (op id : Nat) (i : Instr) (s : State), HostRow op id i → (∀ c, s.dev.cmd id = some c → c.op ≠ op ∨ c.stage ≠ .sequenced) → NoEffect i s)) ∧
  ((∀ (op id : Nat) (i : Instr) (s : State) (c : Cmd), HostRow op id i → s.dev.cmd id = some c → c.op = op → c.stage = .sequenced → s.dev.keyBehind c = false →
      s.dev.modeAccepts op = false → ∃ st res, (st = stRange ∨ st = stMode) ∧ Becomes i s (s.dev.finish id (c.bad st res)))) ∧
  ((∀ (op id : Nat) (i : Instr) (s : State) (c : Cmd), HostRow op id i → s.dev.cmd id = some c → c.op = op → c.stage = .sequenced → s.dev.keyBehind c = false →
      s.dev.targetDown c = true → ∃ st res, (st = stRange ∨ st = stMode ∨ st = stDown) ∧ Becomes i s (s.dev.finish id (c.bad st res))))

/-- What a write of a register does to a field of each access type, and what counting does to a counter

A write gives an RW field the bits written there; it gives them to the staged copy of an RWS field and leaves its live copy; it clears the bits of a W1C field that are written 1 and keeps the others; it leaves fields of the other types. Every field with another place is left as it was. A counter that counts n becomes the sum or stays at its largest value, and every field and every other counter stays. (R5, R6, R7, R546, Table 0-5) -/
def Obligations.RegisterAccess : Prop :=
  ((∀ (d : Dev) (p : Page) (data : Nat) (f : Fld) (i : Nat), f.acc = .rw → (d.writeField p data (f, i)).get f p i = bitsOf data f.lsb f.width)) ∧
  ((∀ (d : Dev) (p : Page) (data : Nat) (f : Fld) (i : Nat), f.acc = .rws →
      (d.writeField p data (f, i)).getS f p i = bitsOf data f.lsb f.width ∧ (d.writeField p data (f, i)).get f p i = d.get f p i)) ∧
  ((∀ (d : Dev) (p : Page) (data : Nat) (f : Fld) (i k : Nat), f.acc = .w1c → k < f.width →
      bitOf ((d.writeField p data (f, i)).get f p i) k = (bitOf (d.get f p i) k && !bitOf (bitsOf data f.lsb f.width) k))) ∧
  ((∀ (d : Dev) (p : Page) (data : Nat) (f : Fld) (i : Nat), (f.acc = .ro ∨ f.acc = .rc ∨ f.acc = .wo) → d.writeField p data (f, i) = d)) ∧
  ((∀ (d : Dev) (p q : Page) (data : Nat) (f g : Fld) (i j : Nat), g.key q j ≠ f.key p i →
      (d.writeField p data (f, i)).get g q j = d.get g q j ∧ (d.writeField p data (f, i)).getS g q j = d.getS g q j)) ∧
  ((∀ (d : Dev) (c : Ctr) (n die inst i : Nat), (d.addc c n die inst i).ctr c die inst i = min (2 ^ 64 - 1) (d.ctr c die inst i + n))) ∧
  ((∀ (d : Dev) (c e : Ctr) (n die inst i die' inst' j : Nat), e.key ⟨e.tag, die', inst'⟩ j ≠ c.key ⟨c.tag, die, inst⟩ i →
      (d.addc c n die inst i).ctr e die' inst' j = d.ctr e die' inst' j)) ∧
  ((∀ (d : Dev) (c : Ctr) (n die inst i : Nat) (f : Fld) (p : Page) (j : Nat), (d.addc c n die inst i).get f p j = d.get f p j))

/-- Register addresses, and the page that a page number denotes on every die

A die number, a page number and an offset spell one BAR0 offset and are read back from it. Two pages of different dies or numbers share no address. A page number denotes the same block type and instance on every die that implements it, and a die implements exactly the pages listed for it. (R75, R76) -/
def Obligations.PageAddresses : Prop :=
  ((∀ (die page off : Nat), die < 8 → page < 512 → off < 4096 → die * 0x200000 + page * 0x1000 + off < 2 ^ 24 ∧
      addrDie (die * 0x200000 + page * 0x1000 + off) = die ∧ addrPage (die * 0x200000 + page * 0x1000 + off) = page ∧
      addrOff (die * 0x200000 + page * 0x1000 + off) = off)) ∧
  ((∀ (p : Page) (off : Nat), p ∈ allPages → off < 4096 → addrDie (p.base + off) = p.die ∧ addrPage (p.base + off) = p.num ∧ addrOff (p.base + off) = off)) ∧
  ((∀ (a b num : Nat) (p q : Page), pageAt a num = some p → pageAt b num = some q → p.tag = q.tag ∧ p.inst = q.inst)) ∧
  ((∀ (die num : Nat) (p : Page), pageAt die num = some p ↔ p ∈ allPages ∧ p.die = die ∧ p.num = num))

/-- What PORST_N, a chip reset and a block soft reset clear and what they keep

PORST_N low leaves every field at its reset value and every counter at 0, and keeps the fuses of a band that is not being programmed, the stored key images and the flash banks. A chip reset, as WARM_RST_N asks for, leaves every counter at 0, every field of a page other than TIM, FCL, HUD, TWN, VLT and GWY at its reset value, keeps every field of TIM but its lock, and keeps local time. A block soft reset leaves the RW and RWS fields of its page beyond the common registers at their reset values and its counters at 0, keeps its lock, and keeps the fields and counters of every other page. That the status fields which only show other state survive it is the model's choice (assumption 12). (R40, R82, R89, R107, R108, R439, R465, R515, R546, Table 5-1) -/
def Obligations.ResetScopes : Prop :=
  ((∀ (s : State), ∃ t, exec .porstNAssert s = .next t ∧ (∀ f p i, t.dev.get f p i = f.reset i ∧ t.dev.getS f p i = f.reset i) ∧
      (∀ c die inst i, t.dev.ctr c die inst i = 0) ∧ (∀ die, 5 ≤ die → die ≤ 6 → s.dev.on F.LIM.LOCK_PROG_BUSY die = false → t.dev.fuse die = s.dev.fuse die) ∧ t.dev.blobs = s.dev.blobs ∧ t.dev.upd.banks = s.dev.upd.banks)) ∧
  ((∀ (s : State), s.dev.pwr.inReset = false → ∃ t, exec .warmRstN s = .next t ∧
      (∀ f p i, p ∈ allPages → f.off + f.stride * i < 4096 → f.lsb < 32 →
      (p.tag ≠ .TIM ∧ p.tag ≠ .FCL ∧ p.tag ≠ .HUD ∧ p.tag ≠ .TWN ∧ p.tag ≠ .VLT ∧ p.tag ≠ .GWY → t.dev.get f p i = f.reset i ∧ t.dev.getS f p i = f.reset i) ∧
      (p.tag = .TIM → f.key p i ≠ (pgLock .TIM).key p 0 → t.dev.get f p i = s.dev.get f p i ∧ t.dev.getS f p i = s.dev.getS f p i)) ∧
      (∀ c die inst i, t.dev.ctr c die inst i = 0) ∧ t.dev.time.lt = s.dev.time.lt)) ∧
  ((∀ (s : State) (die page : Nat) (p : Page), Writable s.dev die page p → Working s → ∃ t, exec (.blockSoftReset die page) s = .next t ∧
      (∀ f i, 0x40 ≤ f.off → f.off + f.stride * i < 4096 → f.lsb < 32 → f.acc = .rws ∨ (f.acc = .rw ∧ keepsStatus p.tag = false) →
      t.dev.get f p i = f.reset i ∧ t.dev.getS f p i = f.reset i) ∧
      (∀ c i, c.tag = p.tag → c.off + 8 * i < 4096 → t.dev.ctr c p.die p.inst i = 0) ∧ t.dev.locked p = s.dev.locked p ∧
      (∀ f q i, q ∈ allPages → q ≠ p → f.off + f.stride * i < 4096 → f.lsb < 32 → t.dev.get f q i = s.dev.get f q i ∧ t.dev.getS f q i = s.dev.getS f q i) ∧
      (∀ c q i, q ∈ allPages → q ≠ p → q.tag = c.tag → c.off + 8 * i < 4096 → t.dev.ctr c q.die q.inst i = s.dev.ctr c q.die q.inst i)))

/-- A reaction code of 6 or 7 is ignored

A write of a page's reaction codes gives each source it names the code written, except a code of 6 or 7: that source keeps its previous code. (R81) -/
def Obligations.ReactionCodes : Prop :=
  ∀ (s : State) (die page data : Nat) (hi : Bool) (p : Page), Writable s.dev die page p → Working s →
      ∃ t, exec (.reactCodeWrite die page hi data) s = .next t ∧ ∀ k, k < (if hi then 6 else 10) →
      t.dev.react p ((if hi then 10 else 0) + k) =
      (if bitsOf data (3 * k) 3 = 6 ∨ bitsOf data (3 * k) 3 = 7 then s.dev.react p ((if hi then 10 else 0) + k) else bitsOf data (3 * k) 3)

/-- A node is identified by its tag and tenant, which fix the six octets K6 and the Route die that owns it

The key is the six octets of the tag, most significant first, and the tenant in two octets with bits [15:12] zero. Two nodes with different tags or tenants have different keys. The owner is Route-0 when bit 0 of the CRC-32C of the key, started at 0xFFFFFFFF, is 0 and Route-1 when it is 1, and depends on nothing else. (R299, R300) -/
def Obligations.NodeKeys : Prop :=
  ((∀ (k : NodeKey), k.tag < 2 ^ 32 → k.tenant < 4096 → k.k6.length = 6 ∧
      (∀ j, j < 4 → k.k6[j]? = some (BitVec.ofNat 8 (k.tag / 256 ^ (3 - j)))) ∧ k.k6[4]? = some (BitVec.ofNat 8 (k.tenant / 256)) ∧
      k.k6[5]? = some (BitVec.ofNat 8 k.tenant) ∧ k.tenant / 256 < 16)) ∧
  ((∀ (a b : NodeKey), a.tag < 2 ^ 32 → a.tenant < 4096 → b.tag < 2 ^ 32 → b.tenant < 4096 → a.k6 = b.k6 → a = b)) ∧
  ((∀ (k : NodeKey), (bitOf (crc32c 0xFFFFFFFF k.k6) 0 = false → k.owner = 1) ∧ (bitOf (crc32c 0xFFFFFFFF k.k6) 0 = true → k.owner = 2)))

/-- A log record of a severity at or above LOG_CFG.IRQ_SEV fires vector 9

Writing a record whose severity is at or above CPT.LOG_CFG.IRQ_SEV fires vector 9: the message goes out while the vector is unmasked, and else its pending bit is set. A record below it fires nothing. With IRQ_SEV 0 every record fires it. (R545) -/
def Obligations.LogVector : Prop :=
  ((∀ (d : Dev) (code sev die : Nat) (data : List Byte), d.g F.CPT.LOG_CFG_IRQ_SEV ≤ sev → bitOf d.hl.msixUnmask 9 = true →
      (d.logPut code sev die data).out = .msix 9 (kvGet 0 d.hl.msixTbl 144 + 2 ^ 32 * kvGet 0 d.hl.msixTbl 148) (kvGet 0 d.hl.msixTbl 152) :: d.out ∧
      (d.logPut code sev die data).hl = d.hl)) ∧
  ((∀ (d : Dev) (code sev die : Nat) (data : List Byte), d.g F.CPT.LOG_CFG_IRQ_SEV ≤ sev → bitOf d.hl.msixUnmask 9 = false →
      (d.logPut code sev die data).out = d.out ∧ (d.logPut code sev die data).hl = { d.hl with msixPend := putBit d.hl.msixPend 9 true })) ∧
  ((∀ (d : Dev) (code sev die : Nat) (data : List Byte), sev < d.g F.CPT.LOG_CFG_IRQ_SEV →
      (d.logPut code sev die data).out = d.out ∧ (d.logPut code sev die data).hl = d.hl))

/-- Incompatible activities never hold one region's token at once

At reset no two holders of one region's token are incompatible. A request for tokens and a release of tokens, with the grants to queued requests that follow it, keep that so. (R525, R526, R527, Table 18-7) -/
def Obligations.TokensExclusive : Prop :=
  (TokensOk State.reset.dev) ∧
  ((∀ (s : State) (act scope arg : Nat), TokensOk s.dev → ∃ t, exec (.tokenRequest act scope arg) s = .next t ∧ TokensOk t.dev)) ∧
  ((∀ (s : State) (act scope : Nat), TokensOk s.dev → ∃ t, exec (.tokenRelease act scope) s = .next t ∧ TokensOk t.dev))
end

