-- ==== Sys2Proof/Laws/Bits.lean ====
section
/-! SUPPORT. The bits of values: what the field helpers do, bit by bit. -/

namespace Sys2Proof

/-- A field cut to its own width. -/
theorem trunc_bitsOf (v lo w : Nat) : trunc w (bitsOf v lo w) = bitsOf v lo w := by simp [trunc, bitsOf]

/-- A bit is the bit that the library names. -/
theorem bitOf_eq (v i : Nat) : bitOf v i = v.testBit i := by
  rw [Nat.testBit_eq_decide_div_mod_eq]; unfold bitOf; rw [Bool.eq_iff_iff]; simp

/-- The bits after one is set. -/
theorem testBit_putBit (v i j : Nat) : (putBit v i true).testBit j = (v.testBit j || i == j) := by
  have hr : v % 2 ^ i < 2 ^ i := Nat.mod_lt _ (by positivity)
  have hv : v = 2 ^ i * (v / 2 ^ i) + v % 2 ^ i := (Nat.div_add_mod v (2 ^ i)).symm
  have e : putBit v i true = 2 ^ i * (2 * (v / 2 ^ i / 2) + 1) + v % 2 ^ i := by
    have h2 : v / 2 ^ i = 2 * (v / 2 ^ i / 2) + v / 2 ^ i % 2 := (Nat.div_add_mod _ 2).symm
    unfold putBit putBits bitsOf
    simp only [if_true, pow_one]
    generalize v / 2 ^ i % 2 = b at *
    generalize v / 2 ^ i / 2 = q at *
    rw [h2] at hv
    have : v - b * 2 ^ i = 2 ^ i * (2 * q) + v % 2 ^ i := by
      conv_lhs => rw [hv]
      rw [mul_add, mul_comm b]; omega
    rw [this]; ring
  rw [e, Nat.testBit_two_pow_mul_add _ hr]
  conv_rhs => rw [hv, Nat.testBit_two_pow_mul_add _ hr]
  by_cases hj : j < i
  · have : (i == j) = false := by simp; omega
    simp [hj, this]
  · simp only [hj, if_false]
    obtain ⟨k, rfl⟩ := Nat.exists_eq_add_of_le (Nat.le_of_not_lt hj)
    cases k with
    | zero => simp
    | succ k =>
      have h1 : i + (k + 1) - i = k + 1 := by omega
      have h2 : (i == i + (k + 1)) = false := by simp
      rw [h1, h2, Nat.testBit_succ, Nat.testBit_succ]
      have : (2 * (v / 2 ^ i / 2) + 1) / 2 = v / 2 ^ i / 2 := by omega
      rw [this]; simp

/-- The bits of the value of a list. -/
theorem testBit_ofBits (l : List Nat) (k : Nat) : (ofBits l).testBit k = l.contains k := by
  have gen : ∀ (l : List Nat) a, (l.foldl (fun a i => putBit a i true) a).testBit k = (a.testBit k || l.contains k) := by
    intro l
    induction l with
    | nil => intro a; simp
    | cons i l ih =>
      intro a
      rw [List.foldl_cons, ih, testBit_putBit, List.contains_cons, Bool.or_assoc]
      have : (i == k) = (k == i) := by rw [Bool.eq_iff_iff]; constructor <;> (intro h; simp at h ⊢; exact h.symm)
      rw [this]
  have := gen l 0
  rw [Nat.zero_testBit, Bool.false_or] at this
  exact this

end Sys2Proof
end

