-- ==== Sys2Proof/Laws/Commands.lean ====
section
/-! SUPPORT. What the shared operations under the commands do: a command in flight that is ready runs its body, a page write that reaches one page that
takes it has its effect, and one that cannot records a failed access. -/

namespace Sys2Proof.Machine
open Sys2Proof Sys2Proof.Safety

/-- A command that is ready runs its body and takes its reply. -/
theorem Dev.runCmd_ready {d : Dev} {op id : Nat} {c : Cmd} {range : Dev → Cmd → Option Nat} (h : Ready d op id c range)
    (body : Dev → Cmd → Dev × Reply) : d.runCmd op id false range body = (body d c).1.reply id (body d c).2 := by
  obtain ⟨h1, h2, h3, h4, h5, h6, h7⟩ := h
  simp [Dev.runCmd, h1, h2, h3, h4, h5, h6, h7]

/-- The same for a command that also writes its data buffer. -/
theorem Dev.runCmdH_ready {d : Dev} {op id : Nat} {c : Cmd} {range : Dev → Cmd → Option Nat} (h : Ready d op id c range) (m : List Host.Cell)
    (body : List Host.Cell → Dev → Cmd → Dev × Reply × List Byte) :
    d.runCmdH m op id false range body = ((body m d c).1.reply id (body m d c).2.1, [(c.addr, (body m d c).2.2)]) := by
  obtain ⟨h1, h2, h3, h4, h5, h6, h7⟩ := h
  simp [Dev.runCmdH, h1, h2, h3, h4, h5, h6, h7]

/-- A read that a page answers: a counter, a register of the common part, or one of the block. -/
theorem Dev.regRead_readable {d : Dev} {addr size : Nat} {p : Page} (h : Readable d addr size p) :
    d.regRead (addr % 2 ^ 24) size =
      if 0x800 ≤ addrOff addr then d.ctrRead addr size else if addrOff addr < 0x040 then d.emit (.readData addr (d.commonWord p (addrOff addr)))
      else d.blockRead p addr := by
  obtain ⟨h0, h1, h2, h3, h4⟩ := h
  have h5 : (addrDie addr == 0 && addrPage addr == 0x1FF) = false := by
    cases h6 : (addrDie addr == 0 && addrPage addr == 0x1FF)
    · rfl
    · simp only [Bool.and_eq_true, beq_iff_eq] at h6
      rw [h6.1, h6.2] at h2
      rw [show pageAt 0 0x1FF = none by decide +kernel] at h2
      exact absurd h2 (by simp)
  rw [Nat.mod_eq_of_lt h0]
  simp [Dev.regRead, h1, h2, h3, h4, h5]

/-- A page write that reaches one page that can be written. -/
theorem Dev.pageWrite_one {d : Dev} {die page : Nat} {p : Page} (h : Writable d die page p) (off : Nat) (lockable : Bool) (f : Dev → Page → Dev) :
    d.pageWrite die page off lockable f = f d p := by
  obtain ⟨⟨h1, h2⟩, h3⟩ := h
  simp [Dev.pageWrite, Dev.each, h1, h2, h3]

/-- A page write that no lock protects against. -/
theorem Dev.pageWrite_reached {d : Dev} {die page : Nat} {p : Page} (h : Reaches d die page p) (off : Nat) (f : Dev → Page → Dev) :
    d.pageWrite die page off false f = f d p := by
  obtain ⟨h1, h2⟩ := h
  simp [Dev.pageWrite, Dev.each, h1, h2]

/-- A page write that reaches one locked page. -/
theorem Dev.pageWrite_locked {d : Dev} {die page : Nat} {p : Page} (h : Reaches d die page p) (l : d.locked p = true) (off : Nat)
    (f : Dev → Page → Dev) : d.pageWrite die page off true f = d.failAcc (p.base + off) 0 5 := by
  obtain ⟨h1, h2⟩ := h
  simp [Dev.pageWrite, Dev.each, h1, h2, l]

/-- A page write that reaches no page. -/
theorem Dev.pageWrite_none {d : Dev} {die page : Nat} (h : targets die page = []) (off : Nat) (lockable : Bool) (f : Dev → Page → Dev) :
    d.pageWrite die page off lockable f = d.failAcc (die * 0x200000 + page * 0x1000 + off) 0 1 := by
  simp [Dev.pageWrite, h]

/-- An internal event that heads its input and may take its place runs. -/
theorem Dev.intEvent_heads {α : Type} {d : Dev} {die : Nat} {e : IntEv} {rest : List IntEv} (h : Heads d die e rest) {kind : Nat}
    {f : IntEv → Option α} {body : Dev → α → Dev} (x : α) (hf : f e = some x) :
    d.intEvent die kind f body = (body (placed d die kind e rest) x).showLanes die := by
  obtain ⟨h1, h2⟩ := h
  simp [Dev.intEvent, Dev.intEventF, h1, h2, takeInt, hf, placed]

/-- A TIMER event of an open order runs the work of its kinds. -/
theorem Dev.timerEvent_open {d : Dev} {die : Nat} {kinds : List (Nat × Nat)} (h : d.seqOpen die = true) :
    d.timerEvent die kinds = (timed d die kinds).each (d.dueKinds die kinds) (fun d k => forN k.2 d (fun d _ => d.timerWork die k.1)) := by
  simp [Dev.timerEvent, h, timed]

/-- With no such command sequenced under the number nothing happens. -/
theorem Dev.runCmd_absent {d : Dev} {op id : Nat} (h : ∀ c, d.cmd id = some c → c.op ≠ op ∨ c.stage ≠ .sequenced) (dma : Bool) (range : Dev → Cmd → Option Nat)
    (body : Dev → Cmd → Dev × Reply) : d.runCmd op id dma range body = d := by
  unfold Dev.runCmd
  split
  · rfl
  · rename_i c hc
    rw [if_pos]
    rcases h c hc with h | h <;> simp [h]

/-- The same for a command that writes its data buffer. -/
theorem Dev.runCmdH_absent {d : Dev} {op id : Nat} (h : ∀ c, d.cmd id = some c → c.op ≠ op ∨ c.stage ≠ .sequenced) (m : List Host.Cell) (dma : Bool) (range : Dev → Cmd → Option Nat)
    (body : List Host.Cell → Dev → Cmd → Dev × Reply × List Byte) : d.runCmdH m op id dma range body = (d, []) := by
  unfold Dev.runCmdH
  split
  · rfl
  · rename_i c hc
    rw [if_pos]
    rcases h c hc with h | h <;> simp [h]

/-- A command that the mode does not accept completes with RANGE or MODE. -/
theorem Dev.runCmd_mode {d : Dev} {op id : Nat} {c : Cmd} (h1 : d.cmd id = some c) (h2 : c.op = op) (h3 : c.stage = .sequenced) (h0 : d.keyBehind c = false)
    (h4 : d.modeAccepts op = false) (range : Dev → Cmd → Option Nat) : ∃ st res, (st = stRange ∨ st = stMode) ∧
    (∀ dma body, d.runCmd op id dma range body = d.finish id (c.bad st res)) ∧
    (∀ m dma body, d.runCmdH m op id dma range body = (d.finish id (c.bad st res), [])) := by
  cases hr : range d c with
  | some r => exact ⟨stRange, r, Or.inl rfl, by intros; simp [Dev.runCmd, h1, h2, h3, h0, hr], by intros; simp [Dev.runCmdH, h1, h2, h3, h0, hr]⟩
  | none => exact ⟨stMode, 0, Or.inr rfl, by intros; simp [Dev.runCmd, h1, h2, h3, h0, hr, h4], by intros; simp [Dev.runCmdH, h1, h2, h3, h0, hr, h4]⟩

/-- A command whose unit is down completes with RANGE, MODE or UNIT_DOWN. -/
theorem Dev.runCmd_down {d : Dev} {op id : Nat} {c : Cmd} (h1 : d.cmd id = some c) (h2 : c.op = op) (h3 : c.stage = .sequenced) (h0 : d.keyBehind c = false)
    (h4 : d.targetDown c = true) (range : Dev → Cmd → Option Nat) : ∃ st res, (st = stRange ∨ st = stMode ∨ st = stDown) ∧
    (∀ dma body, d.runCmd op id dma range body = d.finish id (c.bad st res)) ∧
    (∀ m dma body, d.runCmdH m op id dma range body = (d.finish id (c.bad st res), [])) := by
  cases hr : range d c with
  | some r => exact ⟨stRange, r, Or.inl rfl, by intros; simp [Dev.runCmd, h1, h2, h3, h0, hr], by intros; simp [Dev.runCmdH, h1, h2, h3, h0, hr]⟩
  | none =>
    cases hm : d.modeAccepts op with
    | false => exact ⟨stMode, 0, Or.inr (Or.inl rfl), by intros; simp [Dev.runCmd, h1, h2, h3, h0, hr, hm], by intros; simp [Dev.runCmdH, h1, h2, h3, h0, hr, hm]⟩
    | true => exact ⟨stDown, 0, Or.inr (Or.inr rfl), by intros; simp [Dev.runCmd, h1, h2, h3, h0, hr, hm, h4], by intros; simp [Dev.runCmdH, h1, h2, h3, h0, hr, hm, h4]⟩

/-- The row of a host command runs that command alone, by its opcode and number. -/
theorem hostRow_shape {op id : Nat} {i : Instr} (h : HostRow op id i) (s : State) :
    (∃ dma range body, exec i s = .next { s with dev := (s.dev.runCmd op id dma range body).settle }) ∨
    (∃ dma range body, exec i s = .next (State.mk s.pending (memWrites s.host (s.dev.runCmdH s.host op id dma range body).2)
      (s.dev.runCmdH s.host op id dma range body).1.settle)) := by
  cases h <;> first | exact Or.inl ⟨_, _, _, rfl⟩ | exact Or.inr ⟨_, _, _, rfl⟩

end Sys2Proof.Machine
end

