-- ==== Sys2Proof/Laws/Pages.lean ====
section
/-! SUPPORT. Pages and their addresses: which page a number names, that pages share no key, and where the keys of a page lie. -/

namespace Sys2Proof.Machine
open Sys2Proof

/-- Dies and page numbers fit an address. -/
theorem pages_small : ∀ p ∈ allPages, p.die < 8 ∧ p.num < 512 := by decide +kernel

/-- Every page is found under its number. -/
theorem pages_found : ∀ p ∈ allPages, pageAt p.die p.num = some p := by decide +kernel

/-- The list of tags is complete. -/
theorem tags_all (t : Tag) : t ∈ allTags := by cases t <;> decide

/-- Page kinds have disjoint ranges of numbers. -/
theorem pages_tag : ∀ t ∈ allTags, ∀ u ∈ allTags, t ≠ u → (pageRow t).first + (pageRow t).count ≤ (pageRow u).first ∨
    (pageRow u).first + (pageRow u).count ≤ (pageRow t).first := by decide +kernel

/-- Pages with one base are one page. -/
theorem base_inj {p q : Page} (hp : p ∈ allPages) (hq : q ∈ allPages) (h : p.base = q.base) : p = q := by
  obtain ⟨h1, h2⟩ := pages_small p hp
  obtain ⟨h3, h4⟩ := pages_small q hq
  unfold Page.base at h
  have a : p.die = q.die := by omega
  have b : p.num = q.num := by omega
  have e1 := pages_found p hp
  have e2 := pages_found q hq
  rw [a, b] at e1
  rw [e1] at e2
  exact Option.some.inj e2

/-- Pages begin at multiples of 4 KiB. -/
theorem base_aligned (p : Page) : p.base % 4096 = 0 := by unfold Page.base; omega

/-- The keys of a page lie in its range. -/
theorem key_bounds (f : Fld) (p : Page) (i : Nat) (h1 : f.off + f.stride * i < 4096) (h2 : f.lsb < 32) : p.base * 32 ≤ f.key p i ∧ f.key p i < (p.base + 4096) * 32 := by
  unfold Fld.key; omega

end Sys2Proof.Machine
end

