-- ==== Sys2Proof/Laws/State.lean ====
section
/-! SUPPORT. What each update of the device leaves as it was, one lemma for each field, so that no later proof unfolds a record update. -/

namespace Sys2Proof.Machine
open Sys2Proof

@[simp] theorem Dev.put_commits (d : Dev) (f : Fld) (p : Page) (v i : Nat) : (d.put f p v i).commits = d.commits := rfl
@[simp] theorem Dev.put_out (d : Dev) (f : Fld) (p : Page) (v i : Nat) : (d.put f p v i).out = d.out := rfl
@[simp] theorem Dev.put_free (d : Dev) (f : Fld) (p : Page) (v i : Nat) : (d.put f p v i).free = d.free := rfl
@[simp] theorem Dev.put_pins (d : Dev) (f : Fld) (p : Page) (v i : Nat) : (d.put f p v i).pins = d.pins := rfl
@[simp] theorem Dev.put_pwr (d : Dev) (f : Fld) (p : Page) (v i : Nat) : (d.put f p v i).pwr = d.pwr := rfl
@[simp] theorem Dev.put_time (d : Dev) (f : Fld) (p : Page) (v i : Nat) : (d.put f p v i).time = d.time := rfl
@[simp] theorem Dev.put_avl (d : Dev) (f : Fld) (p : Page) (v i : Nat) : (d.put f p v i).avl = d.avl := rfl
@[simp] theorem Dev.put_hl (d : Dev) (f : Fld) (p : Page) (v i : Nat) : (d.put f p v i).hl = d.hl := rfl
@[simp] theorem Dev.put_boot (d : Dev) (f : Fld) (p : Page) (v i : Nat) : (d.put f p v i).boot = d.boot := rfl
@[simp] theorem Dev.put_ms (d : Dev) (f : Fld) (p : Page) (v i : Nat) : (d.put f p v i).ms = d.ms := rfl
@[simp] theorem Dev.put_mt (d : Dev) (f : Fld) (p : Page) (v i : Nat) : (d.put f p v i).mt = d.mt := rfl
@[simp] theorem Dev.put_log (d : Dev) (f : Fld) (p : Page) (v i : Nat) : (d.put f p v i).log = d.log := rfl
@[simp] theorem Dev.put_sb (d : Dev) (f : Fld) (p : Page) (v i : Nat) : (d.put f p v i).sb = d.sb := rfl
@[simp] theorem Dev.put_cpt (d : Dev) (f : Fld) (p : Page) (v i : Nat) : (d.put f p v i).cpt = d.cpt := rfl
@[simp] theorem Dev.put_bands (d : Dev) (f : Fld) (p : Page) (v i : Nat) : (d.put f p v i).bands = d.bands := rfl
@[simp] theorem Dev.put_fuses (d : Dev) (f : Fld) (p : Page) (v i : Nat) : (d.put f p v i).fuses = d.fuses := rfl
@[simp] theorem Dev.put_stored (d : Dev) (f : Fld) (p : Page) (v i : Nat) : (d.put f p v i).stored = d.stored := rfl
@[simp] theorem Dev.put_air (d : Dev) (f : Fld) (p : Page) (v i : Nat) : (d.put f p v i).air = d.air := rfl
@[simp] theorem Dev.put_ledgers (d : Dev) (f : Fld) (p : Page) (v i : Nat) : (d.put f p v i).ledgers = d.ledgers := rfl
@[simp] theorem Dev.put_routes (d : Dev) (f : Fld) (p : Page) (v i : Nat) : (d.put f p v i).routes = d.routes := rfl
@[simp] theorem Dev.put_pop (d : Dev) (f : Fld) (p : Page) (v i : Nat) : (d.put f p v i).pop = d.pop := rfl
@[simp] theorem Dev.put_popLogged (d : Dev) (f : Fld) (p : Page) (v i : Nat) : (d.put f p v i).popLogged = d.popLogged := rfl
@[simp] theorem Dev.put_popQ (d : Dev) (f : Fld) (p : Page) (v i : Nat) : (d.put f p v i).popQ = d.popQ := rfl
@[simp] theorem Dev.put_fabSeq (d : Dev) (f : Fld) (p : Page) (v i : Nat) : (d.put f p v i).fabSeq = d.fabSeq := rfl
@[simp] theorem Dev.put_cmpIn (d : Dev) (f : Fld) (p : Page) (v i : Nat) : (d.put f p v i).cmpIn = d.cmpIn := rfl
@[simp] theorem Dev.put_vault (d : Dev) (f : Fld) (p : Page) (v i : Nat) : (d.put f p v i).vault = d.vault := rfl
@[simp] theorem Dev.put_blobs (d : Dev) (f : Fld) (p : Page) (v i : Nat) : (d.put f p v i).blobs = d.blobs := rfl
@[simp] theorem Dev.put_eth (d : Dev) (f : Fld) (p : Page) (v i : Nat) : (d.put f p v i).eth = d.eth := rfl
@[simp] theorem Dev.put_can (d : Dev) (f : Fld) (p : Page) (v i : Nat) : (d.put f p v i).can = d.can := rfl
@[simp] theorem Dev.put_gw (d : Dev) (f : Fld) (p : Page) (v i : Nat) : (d.put f p v i).gw = d.gw := rfl
@[simp] theorem Dev.put_vxl (d : Dev) (f : Fld) (p : Page) (v i : Nat) : (d.put f p v i).vxl = d.vxl := rfl
@[simp] theorem Dev.put_hud (d : Dev) (f : Fld) (p : Page) (v i : Nat) : (d.put f p v i).hud = d.hud := rfl
@[simp] theorem Dev.put_tw (d : Dev) (f : Fld) (p : Page) (v i : Nat) : (d.put f p v i).tw = d.tw := rfl
@[simp] theorem Dev.put_cmp (d : Dev) (f : Fld) (p : Page) (v i : Nat) : (d.put f p v i).cmp = d.cmp := rfl
@[simp] theorem Dev.put_upd (d : Dev) (f : Fld) (p : Page) (v i : Nat) : (d.put f p v i).upd = d.upd := rfl

@[simp] theorem Dev.putS_commits (d : Dev) (f : Fld) (p : Page) (v i : Nat) : (d.putS f p v i).commits = d.commits := rfl
@[simp] theorem Dev.putS_out (d : Dev) (f : Fld) (p : Page) (v i : Nat) : (d.putS f p v i).out = d.out := rfl
@[simp] theorem Dev.putS_free (d : Dev) (f : Fld) (p : Page) (v i : Nat) : (d.putS f p v i).free = d.free := rfl
@[simp] theorem Dev.putS_pins (d : Dev) (f : Fld) (p : Page) (v i : Nat) : (d.putS f p v i).pins = d.pins := rfl
@[simp] theorem Dev.putS_pwr (d : Dev) (f : Fld) (p : Page) (v i : Nat) : (d.putS f p v i).pwr = d.pwr := rfl
@[simp] theorem Dev.putS_time (d : Dev) (f : Fld) (p : Page) (v i : Nat) : (d.putS f p v i).time = d.time := rfl
@[simp] theorem Dev.putS_avl (d : Dev) (f : Fld) (p : Page) (v i : Nat) : (d.putS f p v i).avl = d.avl := rfl
@[simp] theorem Dev.putS_hl (d : Dev) (f : Fld) (p : Page) (v i : Nat) : (d.putS f p v i).hl = d.hl := rfl
@[simp] theorem Dev.putS_boot (d : Dev) (f : Fld) (p : Page) (v i : Nat) : (d.putS f p v i).boot = d.boot := rfl
@[simp] theorem Dev.putS_ms (d : Dev) (f : Fld) (p : Page) (v i : Nat) : (d.putS f p v i).ms = d.ms := rfl
@[simp] theorem Dev.putS_mt (d : Dev) (f : Fld) (p : Page) (v i : Nat) : (d.putS f p v i).mt = d.mt := rfl
@[simp] theorem Dev.putS_log (d : Dev) (f : Fld) (p : Page) (v i : Nat) : (d.putS f p v i).log = d.log := rfl
@[simp] theorem Dev.putS_sb (d : Dev) (f : Fld) (p : Page) (v i : Nat) : (d.putS f p v i).sb = d.sb := rfl
@[simp] theorem Dev.putS_cpt (d : Dev) (f : Fld) (p : Page) (v i : Nat) : (d.putS f p v i).cpt = d.cpt := rfl
@[simp] theorem Dev.putS_bands (d : Dev) (f : Fld) (p : Page) (v i : Nat) : (d.putS f p v i).bands = d.bands := rfl
@[simp] theorem Dev.putS_fuses (d : Dev) (f : Fld) (p : Page) (v i : Nat) : (d.putS f p v i).fuses = d.fuses := rfl
@[simp] theorem Dev.putS_stored (d : Dev) (f : Fld) (p : Page) (v i : Nat) : (d.putS f p v i).stored = d.stored := rfl
@[simp] theorem Dev.putS_air (d : Dev) (f : Fld) (p : Page) (v i : Nat) : (d.putS f p v i).air = d.air := rfl
@[simp] theorem Dev.putS_ledgers (d : Dev) (f : Fld) (p : Page) (v i : Nat) : (d.putS f p v i).ledgers = d.ledgers := rfl
@[simp] theorem Dev.putS_routes (d : Dev) (f : Fld) (p : Page) (v i : Nat) : (d.putS f p v i).routes = d.routes := rfl
@[simp] theorem Dev.putS_pop (d : Dev) (f : Fld) (p : Page) (v i : Nat) : (d.putS f p v i).pop = d.pop := rfl
@[simp] theorem Dev.putS_popLogged (d : Dev) (f : Fld) (p : Page) (v i : Nat) : (d.putS f p v i).popLogged = d.popLogged := rfl
@[simp] theorem Dev.putS_popQ (d : Dev) (f : Fld) (p : Page) (v i : Nat) : (d.putS f p v i).popQ = d.popQ := rfl
@[simp] theorem Dev.putS_fabSeq (d : Dev) (f : Fld) (p : Page) (v i : Nat) : (d.putS f p v i).fabSeq = d.fabSeq := rfl
@[simp] theorem Dev.putS_cmpIn (d : Dev) (f : Fld) (p : Page) (v i : Nat) : (d.putS f p v i).cmpIn = d.cmpIn := rfl
@[simp] theorem Dev.putS_vault (d : Dev) (f : Fld) (p : Page) (v i : Nat) : (d.putS f p v i).vault = d.vault := rfl
@[simp] theorem Dev.putS_blobs (d : Dev) (f : Fld) (p : Page) (v i : Nat) : (d.putS f p v i).blobs = d.blobs := rfl
@[simp] theorem Dev.putS_eth (d : Dev) (f : Fld) (p : Page) (v i : Nat) : (d.putS f p v i).eth = d.eth := rfl
@[simp] theorem Dev.putS_can (d : Dev) (f : Fld) (p : Page) (v i : Nat) : (d.putS f p v i).can = d.can := rfl
@[simp] theorem Dev.putS_gw (d : Dev) (f : Fld) (p : Page) (v i : Nat) : (d.putS f p v i).gw = d.gw := rfl
@[simp] theorem Dev.putS_vxl (d : Dev) (f : Fld) (p : Page) (v i : Nat) : (d.putS f p v i).vxl = d.vxl := rfl
@[simp] theorem Dev.putS_hud (d : Dev) (f : Fld) (p : Page) (v i : Nat) : (d.putS f p v i).hud = d.hud := rfl
@[simp] theorem Dev.putS_tw (d : Dev) (f : Fld) (p : Page) (v i : Nat) : (d.putS f p v i).tw = d.tw := rfl
@[simp] theorem Dev.putS_cmp (d : Dev) (f : Fld) (p : Page) (v i : Nat) : (d.putS f p v i).cmp = d.cmp := rfl
@[simp] theorem Dev.putS_upd (d : Dev) (f : Fld) (p : Page) (v i : Nat) : (d.putS f p v i).upd = d.upd := rfl

@[simp] theorem Dev.w_commits (d : Dev) (f : Fld) (v die inst i : Nat) : (d.w f v die inst i).commits = d.commits := rfl
@[simp] theorem Dev.w_out (d : Dev) (f : Fld) (v die inst i : Nat) : (d.w f v die inst i).out = d.out := rfl
@[simp] theorem Dev.w_free (d : Dev) (f : Fld) (v die inst i : Nat) : (d.w f v die inst i).free = d.free := rfl
@[simp] theorem Dev.w_pins (d : Dev) (f : Fld) (v die inst i : Nat) : (d.w f v die inst i).pins = d.pins := rfl
@[simp] theorem Dev.w_pwr (d : Dev) (f : Fld) (v die inst i : Nat) : (d.w f v die inst i).pwr = d.pwr := rfl
@[simp] theorem Dev.w_time (d : Dev) (f : Fld) (v die inst i : Nat) : (d.w f v die inst i).time = d.time := rfl
@[simp] theorem Dev.w_avl (d : Dev) (f : Fld) (v die inst i : Nat) : (d.w f v die inst i).avl = d.avl := rfl
@[simp] theorem Dev.w_hl (d : Dev) (f : Fld) (v die inst i : Nat) : (d.w f v die inst i).hl = d.hl := rfl
@[simp] theorem Dev.w_boot (d : Dev) (f : Fld) (v die inst i : Nat) : (d.w f v die inst i).boot = d.boot := rfl
@[simp] theorem Dev.w_ms (d : Dev) (f : Fld) (v die inst i : Nat) : (d.w f v die inst i).ms = d.ms := rfl
@[simp] theorem Dev.w_mt (d : Dev) (f : Fld) (v die inst i : Nat) : (d.w f v die inst i).mt = d.mt := rfl
@[simp] theorem Dev.w_log (d : Dev) (f : Fld) (v die inst i : Nat) : (d.w f v die inst i).log = d.log := rfl
@[simp] theorem Dev.w_sb (d : Dev) (f : Fld) (v die inst i : Nat) : (d.w f v die inst i).sb = d.sb := rfl
@[simp] theorem Dev.w_cpt (d : Dev) (f : Fld) (v die inst i : Nat) : (d.w f v die inst i).cpt = d.cpt := rfl
@[simp] theorem Dev.w_bands (d : Dev) (f : Fld) (v die inst i : Nat) : (d.w f v die inst i).bands = d.bands := rfl
@[simp] theorem Dev.w_fuses (d : Dev) (f : Fld) (v die inst i : Nat) : (d.w f v die inst i).fuses = d.fuses := rfl
@[simp] theorem Dev.w_stored (d : Dev) (f : Fld) (v die inst i : Nat) : (d.w f v die inst i).stored = d.stored := rfl
@[simp] theorem Dev.w_air (d : Dev) (f : Fld) (v die inst i : Nat) : (d.w f v die inst i).air = d.air := rfl
@[simp] theorem Dev.w_ledgers (d : Dev) (f : Fld) (v die inst i : Nat) : (d.w f v die inst i).ledgers = d.ledgers := rfl
@[simp] theorem Dev.w_routes (d : Dev) (f : Fld) (v die inst i : Nat) : (d.w f v die inst i).routes = d.routes := rfl
@[simp] theorem Dev.w_pop (d : Dev) (f : Fld) (v die inst i : Nat) : (d.w f v die inst i).pop = d.pop := rfl
@[simp] theorem Dev.w_popLogged (d : Dev) (f : Fld) (v die inst i : Nat) : (d.w f v die inst i).popLogged = d.popLogged := rfl
@[simp] theorem Dev.w_popQ (d : Dev) (f : Fld) (v die inst i : Nat) : (d.w f v die inst i).popQ = d.popQ := rfl
@[simp] theorem Dev.w_fabSeq (d : Dev) (f : Fld) (v die inst i : Nat) : (d.w f v die inst i).fabSeq = d.fabSeq := rfl
@[simp] theorem Dev.w_cmpIn (d : Dev) (f : Fld) (v die inst i : Nat) : (d.w f v die inst i).cmpIn = d.cmpIn := rfl
@[simp] theorem Dev.w_vault (d : Dev) (f : Fld) (v die inst i : Nat) : (d.w f v die inst i).vault = d.vault := rfl
@[simp] theorem Dev.w_blobs (d : Dev) (f : Fld) (v die inst i : Nat) : (d.w f v die inst i).blobs = d.blobs := rfl
@[simp] theorem Dev.w_eth (d : Dev) (f : Fld) (v die inst i : Nat) : (d.w f v die inst i).eth = d.eth := rfl
@[simp] theorem Dev.w_can (d : Dev) (f : Fld) (v die inst i : Nat) : (d.w f v die inst i).can = d.can := rfl
@[simp] theorem Dev.w_gw (d : Dev) (f : Fld) (v die inst i : Nat) : (d.w f v die inst i).gw = d.gw := rfl
@[simp] theorem Dev.w_vxl (d : Dev) (f : Fld) (v die inst i : Nat) : (d.w f v die inst i).vxl = d.vxl := rfl
@[simp] theorem Dev.w_hud (d : Dev) (f : Fld) (v die inst i : Nat) : (d.w f v die inst i).hud = d.hud := rfl
@[simp] theorem Dev.w_tw (d : Dev) (f : Fld) (v die inst i : Nat) : (d.w f v die inst i).tw = d.tw := rfl
@[simp] theorem Dev.w_cmp (d : Dev) (f : Fld) (v die inst i : Nat) : (d.w f v die inst i).cmp = d.cmp := rfl
@[simp] theorem Dev.w_upd (d : Dev) (f : Fld) (v die inst i : Nat) : (d.w f v die inst i).upd = d.upd := rfl

@[simp] theorem Dev.wBoth_commits (d : Dev) (f : Fld) (v die inst i : Nat) : (d.wBoth f v die inst i).commits = d.commits := rfl
@[simp] theorem Dev.wBoth_out (d : Dev) (f : Fld) (v die inst i : Nat) : (d.wBoth f v die inst i).out = d.out := rfl
@[simp] theorem Dev.wBoth_free (d : Dev) (f : Fld) (v die inst i : Nat) : (d.wBoth f v die inst i).free = d.free := rfl
@[simp] theorem Dev.wBoth_pins (d : Dev) (f : Fld) (v die inst i : Nat) : (d.wBoth f v die inst i).pins = d.pins := rfl
@[simp] theorem Dev.wBoth_pwr (d : Dev) (f : Fld) (v die inst i : Nat) : (d.wBoth f v die inst i).pwr = d.pwr := rfl
@[simp] theorem Dev.wBoth_time (d : Dev) (f : Fld) (v die inst i : Nat) : (d.wBoth f v die inst i).time = d.time := rfl
@[simp] theorem Dev.wBoth_avl (d : Dev) (f : Fld) (v die inst i : Nat) : (d.wBoth f v die inst i).avl = d.avl := rfl
@[simp] theorem Dev.wBoth_hl (d : Dev) (f : Fld) (v die inst i : Nat) : (d.wBoth f v die inst i).hl = d.hl := rfl
@[simp] theorem Dev.wBoth_boot (d : Dev) (f : Fld) (v die inst i : Nat) : (d.wBoth f v die inst i).boot = d.boot := rfl
@[simp] theorem Dev.wBoth_ms (d : Dev) (f : Fld) (v die inst i : Nat) : (d.wBoth f v die inst i).ms = d.ms := rfl
@[simp] theorem Dev.wBoth_mt (d : Dev) (f : Fld) (v die inst i : Nat) : (d.wBoth f v die inst i).mt = d.mt := rfl
@[simp] theorem Dev.wBoth_log (d : Dev) (f : Fld) (v die inst i : Nat) : (d.wBoth f v die inst i).log = d.log := rfl
@[simp] theorem Dev.wBoth_sb (d : Dev) (f : Fld) (v die inst i : Nat) : (d.wBoth f v die inst i).sb = d.sb := rfl
@[simp] theorem Dev.wBoth_cpt (d : Dev) (f : Fld) (v die inst i : Nat) : (d.wBoth f v die inst i).cpt = d.cpt := rfl
@[simp] theorem Dev.wBoth_bands (d : Dev) (f : Fld) (v die inst i : Nat) : (d.wBoth f v die inst i).bands = d.bands := rfl
@[simp] theorem Dev.wBoth_fuses (d : Dev) (f : Fld) (v die inst i : Nat) : (d.wBoth f v die inst i).fuses = d.fuses := rfl
@[simp] theorem Dev.wBoth_stored (d : Dev) (f : Fld) (v die inst i : Nat) : (d.wBoth f v die inst i).stored = d.stored := rfl
@[simp] theorem Dev.wBoth_air (d : Dev) (f : Fld) (v die inst i : Nat) : (d.wBoth f v die inst i).air = d.air := rfl
@[simp] theorem Dev.wBoth_ledgers (d : Dev) (f : Fld) (v die inst i : Nat) : (d.wBoth f v die inst i).ledgers = d.ledgers := rfl
@[simp] theorem Dev.wBoth_routes (d : Dev) (f : Fld) (v die inst i : Nat) : (d.wBoth f v die inst i).routes = d.routes := rfl
@[simp] theorem Dev.wBoth_pop (d : Dev) (f : Fld) (v die inst i : Nat) : (d.wBoth f v die inst i).pop = d.pop := rfl
@[simp] theorem Dev.wBoth_popLogged (d : Dev) (f : Fld) (v die inst i : Nat) : (d.wBoth f v die inst i).popLogged = d.popLogged := rfl
@[simp] theorem Dev.wBoth_popQ (d : Dev) (f : Fld) (v die inst i : Nat) : (d.wBoth f v die inst i).popQ = d.popQ := rfl
@[simp] theorem Dev.wBoth_fabSeq (d : Dev) (f : Fld) (v die inst i : Nat) : (d.wBoth f v die inst i).fabSeq = d.fabSeq := rfl
@[simp] theorem Dev.wBoth_cmpIn (d : Dev) (f : Fld) (v die inst i : Nat) : (d.wBoth f v die inst i).cmpIn = d.cmpIn := rfl
@[simp] theorem Dev.wBoth_vault (d : Dev) (f : Fld) (v die inst i : Nat) : (d.wBoth f v die inst i).vault = d.vault := rfl
@[simp] theorem Dev.wBoth_blobs (d : Dev) (f : Fld) (v die inst i : Nat) : (d.wBoth f v die inst i).blobs = d.blobs := rfl
@[simp] theorem Dev.wBoth_eth (d : Dev) (f : Fld) (v die inst i : Nat) : (d.wBoth f v die inst i).eth = d.eth := rfl
@[simp] theorem Dev.wBoth_can (d : Dev) (f : Fld) (v die inst i : Nat) : (d.wBoth f v die inst i).can = d.can := rfl
@[simp] theorem Dev.wBoth_gw (d : Dev) (f : Fld) (v die inst i : Nat) : (d.wBoth f v die inst i).gw = d.gw := rfl
@[simp] theorem Dev.wBoth_vxl (d : Dev) (f : Fld) (v die inst i : Nat) : (d.wBoth f v die inst i).vxl = d.vxl := rfl
@[simp] theorem Dev.wBoth_hud (d : Dev) (f : Fld) (v die inst i : Nat) : (d.wBoth f v die inst i).hud = d.hud := rfl
@[simp] theorem Dev.wBoth_tw (d : Dev) (f : Fld) (v die inst i : Nat) : (d.wBoth f v die inst i).tw = d.tw := rfl
@[simp] theorem Dev.wBoth_cmp (d : Dev) (f : Fld) (v die inst i : Nat) : (d.wBoth f v die inst i).cmp = d.cmp := rfl
@[simp] theorem Dev.wBoth_upd (d : Dev) (f : Fld) (v die inst i : Nat) : (d.wBoth f v die inst i).upd = d.upd := rfl

@[simp] theorem Dev.wBit_commits (d : Dev) (f : Fld) (bit : Nat) (b : Bool) (die inst i : Nat) : (d.wBit f bit b die inst i).commits = d.commits := rfl
@[simp] theorem Dev.wBit_out (d : Dev) (f : Fld) (bit : Nat) (b : Bool) (die inst i : Nat) : (d.wBit f bit b die inst i).out = d.out := rfl
@[simp] theorem Dev.wBit_free (d : Dev) (f : Fld) (bit : Nat) (b : Bool) (die inst i : Nat) : (d.wBit f bit b die inst i).free = d.free := rfl
@[simp] theorem Dev.wBit_pins (d : Dev) (f : Fld) (bit : Nat) (b : Bool) (die inst i : Nat) : (d.wBit f bit b die inst i).pins = d.pins := rfl
@[simp] theorem Dev.wBit_pwr (d : Dev) (f : Fld) (bit : Nat) (b : Bool) (die inst i : Nat) : (d.wBit f bit b die inst i).pwr = d.pwr := rfl
@[simp] theorem Dev.wBit_time (d : Dev) (f : Fld) (bit : Nat) (b : Bool) (die inst i : Nat) : (d.wBit f bit b die inst i).time = d.time := rfl
@[simp] theorem Dev.wBit_avl (d : Dev) (f : Fld) (bit : Nat) (b : Bool) (die inst i : Nat) : (d.wBit f bit b die inst i).avl = d.avl := rfl
@[simp] theorem Dev.wBit_hl (d : Dev) (f : Fld) (bit : Nat) (b : Bool) (die inst i : Nat) : (d.wBit f bit b die inst i).hl = d.hl := rfl
@[simp] theorem Dev.wBit_boot (d : Dev) (f : Fld) (bit : Nat) (b : Bool) (die inst i : Nat) : (d.wBit f bit b die inst i).boot = d.boot := rfl
@[simp] theorem Dev.wBit_ms (d : Dev) (f : Fld) (bit : Nat) (b : Bool) (die inst i : Nat) : (d.wBit f bit b die inst i).ms = d.ms := rfl
@[simp] theorem Dev.wBit_mt (d : Dev) (f : Fld) (bit : Nat) (b : Bool) (die inst i : Nat) : (d.wBit f bit b die inst i).mt = d.mt := rfl
@[simp] theorem Dev.wBit_log (d : Dev) (f : Fld) (bit : Nat) (b : Bool) (die inst i : Nat) : (d.wBit f bit b die inst i).log = d.log := rfl
@[simp] theorem Dev.wBit_sb (d : Dev) (f : Fld) (bit : Nat) (b : Bool) (die inst i : Nat) : (d.wBit f bit b die inst i).sb = d.sb := rfl
@[simp] theorem Dev.wBit_cpt (d : Dev) (f : Fld) (bit : Nat) (b : Bool) (die inst i : Nat) : (d.wBit f bit b die inst i).cpt = d.cpt := rfl
@[simp] theorem Dev.wBit_bands (d : Dev) (f : Fld) (bit : Nat) (b : Bool) (die inst i : Nat) : (d.wBit f bit b die inst i).bands = d.bands := rfl
@[simp] theorem Dev.wBit_fuses (d : Dev) (f : Fld) (bit : Nat) (b : Bool) (die inst i : Nat) : (d.wBit f bit b die inst i).fuses = d.fuses := rfl
@[simp] theorem Dev.wBit_stored (d : Dev) (f : Fld) (bit : Nat) (b : Bool) (die inst i : Nat) : (d.wBit f bit b die inst i).stored = d.stored := rfl
@[simp] theorem Dev.wBit_air (d : Dev) (f : Fld) (bit : Nat) (b : Bool) (die inst i : Nat) : (d.wBit f bit b die inst i).air = d.air := rfl
@[simp] theorem Dev.wBit_ledgers (d : Dev) (f : Fld) (bit : Nat) (b : Bool) (die inst i : Nat) : (d.wBit f bit b die inst i).ledgers = d.ledgers := rfl
@[simp] theorem Dev.wBit_routes (d : Dev) (f : Fld) (bit : Nat) (b : Bool) (die inst i : Nat) : (d.wBit f bit b die inst i).routes = d.routes := rfl
@[simp] theorem Dev.wBit_pop (d : Dev) (f : Fld) (bit : Nat) (b : Bool) (die inst i : Nat) : (d.wBit f bit b die inst i).pop = d.pop := rfl
@[simp] theorem Dev.wBit_popLogged (d : Dev) (f : Fld) (bit : Nat) (b : Bool) (die inst i : Nat) : (d.wBit f bit b die inst i).popLogged = d.popLogged := rfl
@[simp] theorem Dev.wBit_popQ (d : Dev) (f : Fld) (bit : Nat) (b : Bool) (die inst i : Nat) : (d.wBit f bit b die inst i).popQ = d.popQ := rfl
@[simp] theorem Dev.wBit_fabSeq (d : Dev) (f : Fld) (bit : Nat) (b : Bool) (die inst i : Nat) : (d.wBit f bit b die inst i).fabSeq = d.fabSeq := rfl
@[simp] theorem Dev.wBit_cmpIn (d : Dev) (f : Fld) (bit : Nat) (b : Bool) (die inst i : Nat) : (d.wBit f bit b die inst i).cmpIn = d.cmpIn := rfl
@[simp] theorem Dev.wBit_vault (d : Dev) (f : Fld) (bit : Nat) (b : Bool) (die inst i : Nat) : (d.wBit f bit b die inst i).vault = d.vault := rfl
@[simp] theorem Dev.wBit_blobs (d : Dev) (f : Fld) (bit : Nat) (b : Bool) (die inst i : Nat) : (d.wBit f bit b die inst i).blobs = d.blobs := rfl
@[simp] theorem Dev.wBit_eth (d : Dev) (f : Fld) (bit : Nat) (b : Bool) (die inst i : Nat) : (d.wBit f bit b die inst i).eth = d.eth := rfl
@[simp] theorem Dev.wBit_can (d : Dev) (f : Fld) (bit : Nat) (b : Bool) (die inst i : Nat) : (d.wBit f bit b die inst i).can = d.can := rfl
@[simp] theorem Dev.wBit_gw (d : Dev) (f : Fld) (bit : Nat) (b : Bool) (die inst i : Nat) : (d.wBit f bit b die inst i).gw = d.gw := rfl
@[simp] theorem Dev.wBit_vxl (d : Dev) (f : Fld) (bit : Nat) (b : Bool) (die inst i : Nat) : (d.wBit f bit b die inst i).vxl = d.vxl := rfl
@[simp] theorem Dev.wBit_hud (d : Dev) (f : Fld) (bit : Nat) (b : Bool) (die inst i : Nat) : (d.wBit f bit b die inst i).hud = d.hud := rfl
@[simp] theorem Dev.wBit_tw (d : Dev) (f : Fld) (bit : Nat) (b : Bool) (die inst i : Nat) : (d.wBit f bit b die inst i).tw = d.tw := rfl
@[simp] theorem Dev.wBit_cmp (d : Dev) (f : Fld) (bit : Nat) (b : Bool) (die inst i : Nat) : (d.wBit f bit b die inst i).cmp = d.cmp := rfl
@[simp] theorem Dev.wBit_upd (d : Dev) (f : Fld) (bit : Nat) (b : Bool) (die inst i : Nat) : (d.wBit f bit b die inst i).upd = d.upd := rfl

@[simp] theorem Dev.wSat_commits (d : Dev) (f : Fld) (n die inst i : Nat) : (d.wSat f n die inst i).commits = d.commits := rfl
@[simp] theorem Dev.wSat_out (d : Dev) (f : Fld) (n die inst i : Nat) : (d.wSat f n die inst i).out = d.out := rfl
@[simp] theorem Dev.wSat_free (d : Dev) (f : Fld) (n die inst i : Nat) : (d.wSat f n die inst i).free = d.free := rfl
@[simp] theorem Dev.wSat_pins (d : Dev) (f : Fld) (n die inst i : Nat) : (d.wSat f n die inst i).pins = d.pins := rfl
@[simp] theorem Dev.wSat_pwr (d : Dev) (f : Fld) (n die inst i : Nat) : (d.wSat f n die inst i).pwr = d.pwr := rfl
@[simp] theorem Dev.wSat_time (d : Dev) (f : Fld) (n die inst i : Nat) : (d.wSat f n die inst i).time = d.time := rfl
@[simp] theorem Dev.wSat_avl (d : Dev) (f : Fld) (n die inst i : Nat) : (d.wSat f n die inst i).avl = d.avl := rfl
@[simp] theorem Dev.wSat_hl (d : Dev) (f : Fld) (n die inst i : Nat) : (d.wSat f n die inst i).hl = d.hl := rfl
@[simp] theorem Dev.wSat_boot (d : Dev) (f : Fld) (n die inst i : Nat) : (d.wSat f n die inst i).boot = d.boot := rfl
@[simp] theorem Dev.wSat_ms (d : Dev) (f : Fld) (n die inst i : Nat) : (d.wSat f n die inst i).ms = d.ms := rfl
@[simp] theorem Dev.wSat_mt (d : Dev) (f : Fld) (n die inst i : Nat) : (d.wSat f n die inst i).mt = d.mt := rfl
@[simp] theorem Dev.wSat_log (d : Dev) (f : Fld) (n die inst i : Nat) : (d.wSat f n die inst i).log = d.log := rfl
@[simp] theorem Dev.wSat_sb (d : Dev) (f : Fld) (n die inst i : Nat) : (d.wSat f n die inst i).sb = d.sb := rfl
@[simp] theorem Dev.wSat_cpt (d : Dev) (f : Fld) (n die inst i : Nat) : (d.wSat f n die inst i).cpt = d.cpt := rfl
@[simp] theorem Dev.wSat_bands (d : Dev) (f : Fld) (n die inst i : Nat) : (d.wSat f n die inst i).bands = d.bands := rfl
@[simp] theorem Dev.wSat_fuses (d : Dev) (f : Fld) (n die inst i : Nat) : (d.wSat f n die inst i).fuses = d.fuses := rfl
@[simp] theorem Dev.wSat_stored (d : Dev) (f : Fld) (n die inst i : Nat) : (d.wSat f n die inst i).stored = d.stored := rfl
@[simp] theorem Dev.wSat_air (d : Dev) (f : Fld) (n die inst i : Nat) : (d.wSat f n die inst i).air = d.air := rfl
@[simp] theorem Dev.wSat_ledgers (d : Dev) (f : Fld) (n die inst i : Nat) : (d.wSat f n die inst i).ledgers = d.ledgers := rfl
@[simp] theorem Dev.wSat_routes (d : Dev) (f : Fld) (n die inst i : Nat) : (d.wSat f n die inst i).routes = d.routes := rfl
@[simp] theorem Dev.wSat_pop (d : Dev) (f : Fld) (n die inst i : Nat) : (d.wSat f n die inst i).pop = d.pop := rfl
@[simp] theorem Dev.wSat_popLogged (d : Dev) (f : Fld) (n die inst i : Nat) : (d.wSat f n die inst i).popLogged = d.popLogged := rfl
@[simp] theorem Dev.wSat_popQ (d : Dev) (f : Fld) (n die inst i : Nat) : (d.wSat f n die inst i).popQ = d.popQ := rfl
@[simp] theorem Dev.wSat_fabSeq (d : Dev) (f : Fld) (n die inst i : Nat) : (d.wSat f n die inst i).fabSeq = d.fabSeq := rfl
@[simp] theorem Dev.wSat_cmpIn (d : Dev) (f : Fld) (n die inst i : Nat) : (d.wSat f n die inst i).cmpIn = d.cmpIn := rfl
@[simp] theorem Dev.wSat_vault (d : Dev) (f : Fld) (n die inst i : Nat) : (d.wSat f n die inst i).vault = d.vault := rfl
@[simp] theorem Dev.wSat_blobs (d : Dev) (f : Fld) (n die inst i : Nat) : (d.wSat f n die inst i).blobs = d.blobs := rfl
@[simp] theorem Dev.wSat_eth (d : Dev) (f : Fld) (n die inst i : Nat) : (d.wSat f n die inst i).eth = d.eth := rfl
@[simp] theorem Dev.wSat_can (d : Dev) (f : Fld) (n die inst i : Nat) : (d.wSat f n die inst i).can = d.can := rfl
@[simp] theorem Dev.wSat_gw (d : Dev) (f : Fld) (n die inst i : Nat) : (d.wSat f n die inst i).gw = d.gw := rfl
@[simp] theorem Dev.wSat_vxl (d : Dev) (f : Fld) (n die inst i : Nat) : (d.wSat f n die inst i).vxl = d.vxl := rfl
@[simp] theorem Dev.wSat_hud (d : Dev) (f : Fld) (n die inst i : Nat) : (d.wSat f n die inst i).hud = d.hud := rfl
@[simp] theorem Dev.wSat_tw (d : Dev) (f : Fld) (n die inst i : Nat) : (d.wSat f n die inst i).tw = d.tw := rfl
@[simp] theorem Dev.wSat_cmp (d : Dev) (f : Fld) (n die inst i : Nat) : (d.wSat f n die inst i).cmp = d.cmp := rfl
@[simp] theorem Dev.wSat_upd (d : Dev) (f : Fld) (n die inst i : Nat) : (d.wSat f n die inst i).upd = d.upd := rfl

@[simp] theorem Dev.addc_commits (d : Dev) (c : Ctr) (n die inst i : Nat) : (d.addc c n die inst i).commits = d.commits := rfl
@[simp] theorem Dev.addc_out (d : Dev) (c : Ctr) (n die inst i : Nat) : (d.addc c n die inst i).out = d.out := rfl
@[simp] theorem Dev.addc_free (d : Dev) (c : Ctr) (n die inst i : Nat) : (d.addc c n die inst i).free = d.free := rfl
@[simp] theorem Dev.addc_pins (d : Dev) (c : Ctr) (n die inst i : Nat) : (d.addc c n die inst i).pins = d.pins := rfl
@[simp] theorem Dev.addc_pwr (d : Dev) (c : Ctr) (n die inst i : Nat) : (d.addc c n die inst i).pwr = d.pwr := rfl
@[simp] theorem Dev.addc_time (d : Dev) (c : Ctr) (n die inst i : Nat) : (d.addc c n die inst i).time = d.time := rfl
@[simp] theorem Dev.addc_avl (d : Dev) (c : Ctr) (n die inst i : Nat) : (d.addc c n die inst i).avl = d.avl := rfl
@[simp] theorem Dev.addc_hl (d : Dev) (c : Ctr) (n die inst i : Nat) : (d.addc c n die inst i).hl = d.hl := rfl
@[simp] theorem Dev.addc_boot (d : Dev) (c : Ctr) (n die inst i : Nat) : (d.addc c n die inst i).boot = d.boot := rfl
@[simp] theorem Dev.addc_ms (d : Dev) (c : Ctr) (n die inst i : Nat) : (d.addc c n die inst i).ms = d.ms := rfl
@[simp] theorem Dev.addc_mt (d : Dev) (c : Ctr) (n die inst i : Nat) : (d.addc c n die inst i).mt = d.mt := rfl
@[simp] theorem Dev.addc_log (d : Dev) (c : Ctr) (n die inst i : Nat) : (d.addc c n die inst i).log = d.log := rfl
@[simp] theorem Dev.addc_sb (d : Dev) (c : Ctr) (n die inst i : Nat) : (d.addc c n die inst i).sb = d.sb := rfl
@[simp] theorem Dev.addc_cpt (d : Dev) (c : Ctr) (n die inst i : Nat) : (d.addc c n die inst i).cpt = d.cpt := rfl
@[simp] theorem Dev.addc_bands (d : Dev) (c : Ctr) (n die inst i : Nat) : (d.addc c n die inst i).bands = d.bands := rfl
@[simp] theorem Dev.addc_fuses (d : Dev) (c : Ctr) (n die inst i : Nat) : (d.addc c n die inst i).fuses = d.fuses := rfl
@[simp] theorem Dev.addc_stored (d : Dev) (c : Ctr) (n die inst i : Nat) : (d.addc c n die inst i).stored = d.stored := rfl
@[simp] theorem Dev.addc_air (d : Dev) (c : Ctr) (n die inst i : Nat) : (d.addc c n die inst i).air = d.air := rfl
@[simp] theorem Dev.addc_ledgers (d : Dev) (c : Ctr) (n die inst i : Nat) : (d.addc c n die inst i).ledgers = d.ledgers := rfl
@[simp] theorem Dev.addc_routes (d : Dev) (c : Ctr) (n die inst i : Nat) : (d.addc c n die inst i).routes = d.routes := rfl
@[simp] theorem Dev.addc_pop (d : Dev) (c : Ctr) (n die inst i : Nat) : (d.addc c n die inst i).pop = d.pop := rfl
@[simp] theorem Dev.addc_popLogged (d : Dev) (c : Ctr) (n die inst i : Nat) : (d.addc c n die inst i).popLogged = d.popLogged := rfl
@[simp] theorem Dev.addc_popQ (d : Dev) (c : Ctr) (n die inst i : Nat) : (d.addc c n die inst i).popQ = d.popQ := rfl
@[simp] theorem Dev.addc_fabSeq (d : Dev) (c : Ctr) (n die inst i : Nat) : (d.addc c n die inst i).fabSeq = d.fabSeq := rfl
@[simp] theorem Dev.addc_cmpIn (d : Dev) (c : Ctr) (n die inst i : Nat) : (d.addc c n die inst i).cmpIn = d.cmpIn := rfl
@[simp] theorem Dev.addc_vault (d : Dev) (c : Ctr) (n die inst i : Nat) : (d.addc c n die inst i).vault = d.vault := rfl
@[simp] theorem Dev.addc_blobs (d : Dev) (c : Ctr) (n die inst i : Nat) : (d.addc c n die inst i).blobs = d.blobs := rfl
@[simp] theorem Dev.addc_eth (d : Dev) (c : Ctr) (n die inst i : Nat) : (d.addc c n die inst i).eth = d.eth := rfl
@[simp] theorem Dev.addc_can (d : Dev) (c : Ctr) (n die inst i : Nat) : (d.addc c n die inst i).can = d.can := rfl
@[simp] theorem Dev.addc_gw (d : Dev) (c : Ctr) (n die inst i : Nat) : (d.addc c n die inst i).gw = d.gw := rfl
@[simp] theorem Dev.addc_vxl (d : Dev) (c : Ctr) (n die inst i : Nat) : (d.addc c n die inst i).vxl = d.vxl := rfl
@[simp] theorem Dev.addc_hud (d : Dev) (c : Ctr) (n die inst i : Nat) : (d.addc c n die inst i).hud = d.hud := rfl
@[simp] theorem Dev.addc_tw (d : Dev) (c : Ctr) (n die inst i : Nat) : (d.addc c n die inst i).tw = d.tw := rfl
@[simp] theorem Dev.addc_cmp (d : Dev) (c : Ctr) (n die inst i : Nat) : (d.addc c n die inst i).cmp = d.cmp := rfl
@[simp] theorem Dev.addc_upd (d : Dev) (c : Ctr) (n die inst i : Nat) : (d.addc c n die inst i).upd = d.upd := rfl

@[simp] theorem Dev.inc_commits (d : Dev) (c : Ctr) (die inst i : Nat) : (d.inc c die inst i).commits = d.commits := rfl
@[simp] theorem Dev.inc_out (d : Dev) (c : Ctr) (die inst i : Nat) : (d.inc c die inst i).out = d.out := rfl
@[simp] theorem Dev.inc_free (d : Dev) (c : Ctr) (die inst i : Nat) : (d.inc c die inst i).free = d.free := rfl
@[simp] theorem Dev.inc_pins (d : Dev) (c : Ctr) (die inst i : Nat) : (d.inc c die inst i).pins = d.pins := rfl
@[simp] theorem Dev.inc_pwr (d : Dev) (c : Ctr) (die inst i : Nat) : (d.inc c die inst i).pwr = d.pwr := rfl
@[simp] theorem Dev.inc_time (d : Dev) (c : Ctr) (die inst i : Nat) : (d.inc c die inst i).time = d.time := rfl
@[simp] theorem Dev.inc_avl (d : Dev) (c : Ctr) (die inst i : Nat) : (d.inc c die inst i).avl = d.avl := rfl
@[simp] theorem Dev.inc_hl (d : Dev) (c : Ctr) (die inst i : Nat) : (d.inc c die inst i).hl = d.hl := rfl
@[simp] theorem Dev.inc_boot (d : Dev) (c : Ctr) (die inst i : Nat) : (d.inc c die inst i).boot = d.boot := rfl
@[simp] theorem Dev.inc_ms (d : Dev) (c : Ctr) (die inst i : Nat) : (d.inc c die inst i).ms = d.ms := rfl
@[simp] theorem Dev.inc_mt (d : Dev) (c : Ctr) (die inst i : Nat) : (d.inc c die inst i).mt = d.mt := rfl
@[simp] theorem Dev.inc_log (d : Dev) (c : Ctr) (die inst i : Nat) : (d.inc c die inst i).log = d.log := rfl
@[simp] theorem Dev.inc_sb (d : Dev) (c : Ctr) (die inst i : Nat) : (d.inc c die inst i).sb = d.sb := rfl
@[simp] theorem Dev.inc_cpt (d : Dev) (c : Ctr) (die inst i : Nat) : (d.inc c die inst i).cpt = d.cpt := rfl
@[simp] theorem Dev.inc_bands (d : Dev) (c : Ctr) (die inst i : Nat) : (d.inc c die inst i).bands = d.bands := rfl
@[simp] theorem Dev.inc_fuses (d : Dev) (c : Ctr) (die inst i : Nat) : (d.inc c die inst i).fuses = d.fuses := rfl
@[simp] theorem Dev.inc_stored (d : Dev) (c : Ctr) (die inst i : Nat) : (d.inc c die inst i).stored = d.stored := rfl
@[simp] theorem Dev.inc_air (d : Dev) (c : Ctr) (die inst i : Nat) : (d.inc c die inst i).air = d.air := rfl
@[simp] theorem Dev.inc_ledgers (d : Dev) (c : Ctr) (die inst i : Nat) : (d.inc c die inst i).ledgers = d.ledgers := rfl
@[simp] theorem Dev.inc_routes (d : Dev) (c : Ctr) (die inst i : Nat) : (d.inc c die inst i).routes = d.routes := rfl
@[simp] theorem Dev.inc_pop (d : Dev) (c : Ctr) (die inst i : Nat) : (d.inc c die inst i).pop = d.pop := rfl
@[simp] theorem Dev.inc_popLogged (d : Dev) (c : Ctr) (die inst i : Nat) : (d.inc c die inst i).popLogged = d.popLogged := rfl
@[simp] theorem Dev.inc_popQ (d : Dev) (c : Ctr) (die inst i : Nat) : (d.inc c die inst i).popQ = d.popQ := rfl
@[simp] theorem Dev.inc_fabSeq (d : Dev) (c : Ctr) (die inst i : Nat) : (d.inc c die inst i).fabSeq = d.fabSeq := rfl
@[simp] theorem Dev.inc_cmpIn (d : Dev) (c : Ctr) (die inst i : Nat) : (d.inc c die inst i).cmpIn = d.cmpIn := rfl
@[simp] theorem Dev.inc_vault (d : Dev) (c : Ctr) (die inst i : Nat) : (d.inc c die inst i).vault = d.vault := rfl
@[simp] theorem Dev.inc_blobs (d : Dev) (c : Ctr) (die inst i : Nat) : (d.inc c die inst i).blobs = d.blobs := rfl
@[simp] theorem Dev.inc_eth (d : Dev) (c : Ctr) (die inst i : Nat) : (d.inc c die inst i).eth = d.eth := rfl
@[simp] theorem Dev.inc_can (d : Dev) (c : Ctr) (die inst i : Nat) : (d.inc c die inst i).can = d.can := rfl
@[simp] theorem Dev.inc_gw (d : Dev) (c : Ctr) (die inst i : Nat) : (d.inc c die inst i).gw = d.gw := rfl
@[simp] theorem Dev.inc_vxl (d : Dev) (c : Ctr) (die inst i : Nat) : (d.inc c die inst i).vxl = d.vxl := rfl
@[simp] theorem Dev.inc_hud (d : Dev) (c : Ctr) (die inst i : Nat) : (d.inc c die inst i).hud = d.hud := rfl
@[simp] theorem Dev.inc_tw (d : Dev) (c : Ctr) (die inst i : Nat) : (d.inc c die inst i).tw = d.tw := rfl
@[simp] theorem Dev.inc_cmp (d : Dev) (c : Ctr) (die inst i : Nat) : (d.inc c die inst i).cmp = d.cmp := rfl
@[simp] theorem Dev.inc_upd (d : Dev) (c : Ctr) (die inst i : Nat) : (d.inc c die inst i).upd = d.upd := rfl

@[simp] theorem Dev.emit_rf (d : Dev) (o : Out) : (d.emit o).rf = d.rf := rfl
@[simp] theorem Dev.emit_commits (d : Dev) (o : Out) : (d.emit o).commits = d.commits := rfl
@[simp] theorem Dev.emit_free (d : Dev) (o : Out) : (d.emit o).free = d.free := rfl
@[simp] theorem Dev.emit_pins (d : Dev) (o : Out) : (d.emit o).pins = d.pins := rfl
@[simp] theorem Dev.emit_pwr (d : Dev) (o : Out) : (d.emit o).pwr = d.pwr := rfl
@[simp] theorem Dev.emit_time (d : Dev) (o : Out) : (d.emit o).time = d.time := rfl
@[simp] theorem Dev.emit_avl (d : Dev) (o : Out) : (d.emit o).avl = d.avl := rfl
@[simp] theorem Dev.emit_hl (d : Dev) (o : Out) : (d.emit o).hl = d.hl := rfl
@[simp] theorem Dev.emit_boot (d : Dev) (o : Out) : (d.emit o).boot = d.boot := rfl
@[simp] theorem Dev.emit_ms (d : Dev) (o : Out) : (d.emit o).ms = d.ms := rfl
@[simp] theorem Dev.emit_mt (d : Dev) (o : Out) : (d.emit o).mt = d.mt := rfl
@[simp] theorem Dev.emit_log (d : Dev) (o : Out) : (d.emit o).log = d.log := rfl
@[simp] theorem Dev.emit_sb (d : Dev) (o : Out) : (d.emit o).sb = d.sb := rfl
@[simp] theorem Dev.emit_cpt (d : Dev) (o : Out) : (d.emit o).cpt = d.cpt := rfl
@[simp] theorem Dev.emit_bands (d : Dev) (o : Out) : (d.emit o).bands = d.bands := rfl
@[simp] theorem Dev.emit_fuses (d : Dev) (o : Out) : (d.emit o).fuses = d.fuses := rfl
@[simp] theorem Dev.emit_stored (d : Dev) (o : Out) : (d.emit o).stored = d.stored := rfl
@[simp] theorem Dev.emit_air (d : Dev) (o : Out) : (d.emit o).air = d.air := rfl
@[simp] theorem Dev.emit_ledgers (d : Dev) (o : Out) : (d.emit o).ledgers = d.ledgers := rfl
@[simp] theorem Dev.emit_routes (d : Dev) (o : Out) : (d.emit o).routes = d.routes := rfl
@[simp] theorem Dev.emit_pop (d : Dev) (o : Out) : (d.emit o).pop = d.pop := rfl
@[simp] theorem Dev.emit_popLogged (d : Dev) (o : Out) : (d.emit o).popLogged = d.popLogged := rfl
@[simp] theorem Dev.emit_popQ (d : Dev) (o : Out) : (d.emit o).popQ = d.popQ := rfl
@[simp] theorem Dev.emit_fabSeq (d : Dev) (o : Out) : (d.emit o).fabSeq = d.fabSeq := rfl
@[simp] theorem Dev.emit_cmpIn (d : Dev) (o : Out) : (d.emit o).cmpIn = d.cmpIn := rfl
@[simp] theorem Dev.emit_vault (d : Dev) (o : Out) : (d.emit o).vault = d.vault := rfl
@[simp] theorem Dev.emit_blobs (d : Dev) (o : Out) : (d.emit o).blobs = d.blobs := rfl
@[simp] theorem Dev.emit_eth (d : Dev) (o : Out) : (d.emit o).eth = d.eth := rfl
@[simp] theorem Dev.emit_can (d : Dev) (o : Out) : (d.emit o).can = d.can := rfl
@[simp] theorem Dev.emit_gw (d : Dev) (o : Out) : (d.emit o).gw = d.gw := rfl
@[simp] theorem Dev.emit_vxl (d : Dev) (o : Out) : (d.emit o).vxl = d.vxl := rfl
@[simp] theorem Dev.emit_hud (d : Dev) (o : Out) : (d.emit o).hud = d.hud := rfl
@[simp] theorem Dev.emit_tw (d : Dev) (o : Out) : (d.emit o).tw = d.tw := rfl
@[simp] theorem Dev.emit_cmp (d : Dev) (o : Out) : (d.emit o).cmp = d.cmp := rfl
@[simp] theorem Dev.emit_upd (d : Dev) (o : Out) : (d.emit o).upd = d.upd := rfl

@[simp] theorem Dev.setRoute_rf (d : Dev) (die : Nat) (f : Route → Route) : (d.setRoute die f).rf = d.rf := rfl
@[simp] theorem Dev.setRoute_commits (d : Dev) (die : Nat) (f : Route → Route) : (d.setRoute die f).commits = d.commits := rfl
@[simp] theorem Dev.setRoute_out (d : Dev) (die : Nat) (f : Route → Route) : (d.setRoute die f).out = d.out := rfl
@[simp] theorem Dev.setRoute_free (d : Dev) (die : Nat) (f : Route → Route) : (d.setRoute die f).free = d.free := rfl
@[simp] theorem Dev.setRoute_pins (d : Dev) (die : Nat) (f : Route → Route) : (d.setRoute die f).pins = d.pins := rfl
@[simp] theorem Dev.setRoute_pwr (d : Dev) (die : Nat) (f : Route → Route) : (d.setRoute die f).pwr = d.pwr := rfl
@[simp] theorem Dev.setRoute_time (d : Dev) (die : Nat) (f : Route → Route) : (d.setRoute die f).time = d.time := rfl
@[simp] theorem Dev.setRoute_avl (d : Dev) (die : Nat) (f : Route → Route) : (d.setRoute die f).avl = d.avl := rfl
@[simp] theorem Dev.setRoute_hl (d : Dev) (die : Nat) (f : Route → Route) : (d.setRoute die f).hl = d.hl := rfl
@[simp] theorem Dev.setRoute_boot (d : Dev) (die : Nat) (f : Route → Route) : (d.setRoute die f).boot = d.boot := rfl
@[simp] theorem Dev.setRoute_ms (d : Dev) (die : Nat) (f : Route → Route) : (d.setRoute die f).ms = d.ms := rfl
@[simp] theorem Dev.setRoute_mt (d : Dev) (die : Nat) (f : Route → Route) : (d.setRoute die f).mt = d.mt := rfl
@[simp] theorem Dev.setRoute_log (d : Dev) (die : Nat) (f : Route → Route) : (d.setRoute die f).log = d.log := rfl
@[simp] theorem Dev.setRoute_sb (d : Dev) (die : Nat) (f : Route → Route) : (d.setRoute die f).sb = d.sb := rfl
@[simp] theorem Dev.setRoute_cpt (d : Dev) (die : Nat) (f : Route → Route) : (d.setRoute die f).cpt = d.cpt := rfl
@[simp] theorem Dev.setRoute_bands (d : Dev) (die : Nat) (f : Route → Route) : (d.setRoute die f).bands = d.bands := rfl
@[simp] theorem Dev.setRoute_fuses (d : Dev) (die : Nat) (f : Route → Route) : (d.setRoute die f).fuses = d.fuses := rfl
@[simp] theorem Dev.setRoute_stored (d : Dev) (die : Nat) (f : Route → Route) : (d.setRoute die f).stored = d.stored := rfl
@[simp] theorem Dev.setRoute_air (d : Dev) (die : Nat) (f : Route → Route) : (d.setRoute die f).air = d.air := rfl
@[simp] theorem Dev.setRoute_ledgers (d : Dev) (die : Nat) (f : Route → Route) : (d.setRoute die f).ledgers = d.ledgers := rfl
@[simp] theorem Dev.setRoute_pop (d : Dev) (die : Nat) (f : Route → Route) : (d.setRoute die f).pop = d.pop := rfl
@[simp] theorem Dev.setRoute_popLogged (d : Dev) (die : Nat) (f : Route → Route) : (d.setRoute die f).popLogged = d.popLogged := rfl
@[simp] theorem Dev.setRoute_popQ (d : Dev) (die : Nat) (f : Route → Route) : (d.setRoute die f).popQ = d.popQ := rfl
@[simp] theorem Dev.setRoute_fabSeq (d : Dev) (die : Nat) (f : Route → Route) : (d.setRoute die f).fabSeq = d.fabSeq := rfl
@[simp] theorem Dev.setRoute_cmpIn (d : Dev) (die : Nat) (f : Route → Route) : (d.setRoute die f).cmpIn = d.cmpIn := rfl
@[simp] theorem Dev.setRoute_vault (d : Dev) (die : Nat) (f : Route → Route) : (d.setRoute die f).vault = d.vault := rfl
@[simp] theorem Dev.setRoute_blobs (d : Dev) (die : Nat) (f : Route → Route) : (d.setRoute die f).blobs = d.blobs := rfl
@[simp] theorem Dev.setRoute_eth (d : Dev) (die : Nat) (f : Route → Route) : (d.setRoute die f).eth = d.eth := rfl
@[simp] theorem Dev.setRoute_can (d : Dev) (die : Nat) (f : Route → Route) : (d.setRoute die f).can = d.can := rfl
@[simp] theorem Dev.setRoute_gw (d : Dev) (die : Nat) (f : Route → Route) : (d.setRoute die f).gw = d.gw := rfl
@[simp] theorem Dev.setRoute_vxl (d : Dev) (die : Nat) (f : Route → Route) : (d.setRoute die f).vxl = d.vxl := rfl
@[simp] theorem Dev.setRoute_hud (d : Dev) (die : Nat) (f : Route → Route) : (d.setRoute die f).hud = d.hud := rfl
@[simp] theorem Dev.setRoute_tw (d : Dev) (die : Nat) (f : Route → Route) : (d.setRoute die f).tw = d.tw := rfl
@[simp] theorem Dev.setRoute_cmp (d : Dev) (die : Nat) (f : Route → Route) : (d.setRoute die f).cmp = d.cmp := rfl
@[simp] theorem Dev.setRoute_upd (d : Dev) (die : Nat) (f : Route → Route) : (d.setRoute die f).upd = d.upd := rfl

@[simp] theorem Dev.setAir_rf (d : Dev) (die : Nat) (f : AirDie → AirDie) : (d.setAir die f).rf = d.rf := rfl
@[simp] theorem Dev.setAir_commits (d : Dev) (die : Nat) (f : AirDie → AirDie) : (d.setAir die f).commits = d.commits := rfl
@[simp] theorem Dev.setAir_out (d : Dev) (die : Nat) (f : AirDie → AirDie) : (d.setAir die f).out = d.out := rfl
@[simp] theorem Dev.setAir_free (d : Dev) (die : Nat) (f : AirDie → AirDie) : (d.setAir die f).free = d.free := rfl
@[simp] theorem Dev.setAir_pins (d : Dev) (die : Nat) (f : AirDie → AirDie) : (d.setAir die f).pins = d.pins := rfl
@[simp] theorem Dev.setAir_pwr (d : Dev) (die : Nat) (f : AirDie → AirDie) : (d.setAir die f).pwr = d.pwr := rfl
@[simp] theorem Dev.setAir_time (d : Dev) (die : Nat) (f : AirDie → AirDie) : (d.setAir die f).time = d.time := rfl
@[simp] theorem Dev.setAir_avl (d : Dev) (die : Nat) (f : AirDie → AirDie) : (d.setAir die f).avl = d.avl := rfl
@[simp] theorem Dev.setAir_hl (d : Dev) (die : Nat) (f : AirDie → AirDie) : (d.setAir die f).hl = d.hl := rfl
@[simp] theorem Dev.setAir_boot (d : Dev) (die : Nat) (f : AirDie → AirDie) : (d.setAir die f).boot = d.boot := rfl
@[simp] theorem Dev.setAir_ms (d : Dev) (die : Nat) (f : AirDie → AirDie) : (d.setAir die f).ms = d.ms := rfl
@[simp] theorem Dev.setAir_mt (d : Dev) (die : Nat) (f : AirDie → AirDie) : (d.setAir die f).mt = d.mt := rfl
@[simp] theorem Dev.setAir_log (d : Dev) (die : Nat) (f : AirDie → AirDie) : (d.setAir die f).log = d.log := rfl
@[simp] theorem Dev.setAir_sb (d : Dev) (die : Nat) (f : AirDie → AirDie) : (d.setAir die f).sb = d.sb := rfl
@[simp] theorem Dev.setAir_cpt (d : Dev) (die : Nat) (f : AirDie → AirDie) : (d.setAir die f).cpt = d.cpt := rfl
@[simp] theorem Dev.setAir_bands (d : Dev) (die : Nat) (f : AirDie → AirDie) : (d.setAir die f).bands = d.bands := rfl
@[simp] theorem Dev.setAir_fuses (d : Dev) (die : Nat) (f : AirDie → AirDie) : (d.setAir die f).fuses = d.fuses := rfl
@[simp] theorem Dev.setAir_stored (d : Dev) (die : Nat) (f : AirDie → AirDie) : (d.setAir die f).stored = d.stored := rfl
@[simp] theorem Dev.setAir_ledgers (d : Dev) (die : Nat) (f : AirDie → AirDie) : (d.setAir die f).ledgers = d.ledgers := rfl
@[simp] theorem Dev.setAir_routes (d : Dev) (die : Nat) (f : AirDie → AirDie) : (d.setAir die f).routes = d.routes := rfl
@[simp] theorem Dev.setAir_pop (d : Dev) (die : Nat) (f : AirDie → AirDie) : (d.setAir die f).pop = d.pop := rfl
@[simp] theorem Dev.setAir_popLogged (d : Dev) (die : Nat) (f : AirDie → AirDie) : (d.setAir die f).popLogged = d.popLogged := rfl
@[simp] theorem Dev.setAir_popQ (d : Dev) (die : Nat) (f : AirDie → AirDie) : (d.setAir die f).popQ = d.popQ := rfl
@[simp] theorem Dev.setAir_fabSeq (d : Dev) (die : Nat) (f : AirDie → AirDie) : (d.setAir die f).fabSeq = d.fabSeq := rfl
@[simp] theorem Dev.setAir_cmpIn (d : Dev) (die : Nat) (f : AirDie → AirDie) : (d.setAir die f).cmpIn = d.cmpIn := rfl
@[simp] theorem Dev.setAir_vault (d : Dev) (die : Nat) (f : AirDie → AirDie) : (d.setAir die f).vault = d.vault := rfl
@[simp] theorem Dev.setAir_blobs (d : Dev) (die : Nat) (f : AirDie → AirDie) : (d.setAir die f).blobs = d.blobs := rfl
@[simp] theorem Dev.setAir_eth (d : Dev) (die : Nat) (f : AirDie → AirDie) : (d.setAir die f).eth = d.eth := rfl
@[simp] theorem Dev.setAir_can (d : Dev) (die : Nat) (f : AirDie → AirDie) : (d.setAir die f).can = d.can := rfl
@[simp] theorem Dev.setAir_gw (d : Dev) (die : Nat) (f : AirDie → AirDie) : (d.setAir die f).gw = d.gw := rfl
@[simp] theorem Dev.setAir_vxl (d : Dev) (die : Nat) (f : AirDie → AirDie) : (d.setAir die f).vxl = d.vxl := rfl
@[simp] theorem Dev.setAir_hud (d : Dev) (die : Nat) (f : AirDie → AirDie) : (d.setAir die f).hud = d.hud := rfl
@[simp] theorem Dev.setAir_tw (d : Dev) (die : Nat) (f : AirDie → AirDie) : (d.setAir die f).tw = d.tw := rfl
@[simp] theorem Dev.setAir_cmp (d : Dev) (die : Nat) (f : AirDie → AirDie) : (d.setAir die f).cmp = d.cmp := rfl
@[simp] theorem Dev.setAir_upd (d : Dev) (die : Nat) (f : AirDie → AirDie) : (d.setAir die f).upd = d.upd := rfl

@[simp] theorem Dev.setBand_rf (d : Dev) (die : Nat) (f : BandDie → BandDie) : (d.setBand die f).rf = d.rf := rfl
@[simp] theorem Dev.setBand_commits (d : Dev) (die : Nat) (f : BandDie → BandDie) : (d.setBand die f).commits = d.commits := rfl
@[simp] theorem Dev.setBand_out (d : Dev) (die : Nat) (f : BandDie → BandDie) : (d.setBand die f).out = d.out := rfl
@[simp] theorem Dev.setBand_free (d : Dev) (die : Nat) (f : BandDie → BandDie) : (d.setBand die f).free = d.free := rfl
@[simp] theorem Dev.setBand_pins (d : Dev) (die : Nat) (f : BandDie → BandDie) : (d.setBand die f).pins = d.pins := rfl
@[simp] theorem Dev.setBand_pwr (d : Dev) (die : Nat) (f : BandDie → BandDie) : (d.setBand die f).pwr = d.pwr := rfl
@[simp] theorem Dev.setBand_time (d : Dev) (die : Nat) (f : BandDie → BandDie) : (d.setBand die f).time = d.time := rfl
@[simp] theorem Dev.setBand_avl (d : Dev) (die : Nat) (f : BandDie → BandDie) : (d.setBand die f).avl = d.avl := rfl
@[simp] theorem Dev.setBand_hl (d : Dev) (die : Nat) (f : BandDie → BandDie) : (d.setBand die f).hl = d.hl := rfl
@[simp] theorem Dev.setBand_boot (d : Dev) (die : Nat) (f : BandDie → BandDie) : (d.setBand die f).boot = d.boot := rfl
@[simp] theorem Dev.setBand_ms (d : Dev) (die : Nat) (f : BandDie → BandDie) : (d.setBand die f).ms = d.ms := rfl
@[simp] theorem Dev.setBand_mt (d : Dev) (die : Nat) (f : BandDie → BandDie) : (d.setBand die f).mt = d.mt := rfl
@[simp] theorem Dev.setBand_log (d : Dev) (die : Nat) (f : BandDie → BandDie) : (d.setBand die f).log = d.log := rfl
@[simp] theorem Dev.setBand_sb (d : Dev) (die : Nat) (f : BandDie → BandDie) : (d.setBand die f).sb = d.sb := rfl
@[simp] theorem Dev.setBand_cpt (d : Dev) (die : Nat) (f : BandDie → BandDie) : (d.setBand die f).cpt = d.cpt := rfl
@[simp] theorem Dev.setBand_fuses (d : Dev) (die : Nat) (f : BandDie → BandDie) : (d.setBand die f).fuses = d.fuses := rfl
@[simp] theorem Dev.setBand_stored (d : Dev) (die : Nat) (f : BandDie → BandDie) : (d.setBand die f).stored = d.stored := rfl
@[simp] theorem Dev.setBand_air (d : Dev) (die : Nat) (f : BandDie → BandDie) : (d.setBand die f).air = d.air := rfl
@[simp] theorem Dev.setBand_ledgers (d : Dev) (die : Nat) (f : BandDie → BandDie) : (d.setBand die f).ledgers = d.ledgers := rfl
@[simp] theorem Dev.setBand_routes (d : Dev) (die : Nat) (f : BandDie → BandDie) : (d.setBand die f).routes = d.routes := rfl
@[simp] theorem Dev.setBand_pop (d : Dev) (die : Nat) (f : BandDie → BandDie) : (d.setBand die f).pop = d.pop := rfl
@[simp] theorem Dev.setBand_popLogged (d : Dev) (die : Nat) (f : BandDie → BandDie) : (d.setBand die f).popLogged = d.popLogged := rfl
@[simp] theorem Dev.setBand_popQ (d : Dev) (die : Nat) (f : BandDie → BandDie) : (d.setBand die f).popQ = d.popQ := rfl
@[simp] theorem Dev.setBand_fabSeq (d : Dev) (die : Nat) (f : BandDie → BandDie) : (d.setBand die f).fabSeq = d.fabSeq := rfl
@[simp] theorem Dev.setBand_cmpIn (d : Dev) (die : Nat) (f : BandDie → BandDie) : (d.setBand die f).cmpIn = d.cmpIn := rfl
@[simp] theorem Dev.setBand_vault (d : Dev) (die : Nat) (f : BandDie → BandDie) : (d.setBand die f).vault = d.vault := rfl
@[simp] theorem Dev.setBand_blobs (d : Dev) (die : Nat) (f : BandDie → BandDie) : (d.setBand die f).blobs = d.blobs := rfl
@[simp] theorem Dev.setBand_eth (d : Dev) (die : Nat) (f : BandDie → BandDie) : (d.setBand die f).eth = d.eth := rfl
@[simp] theorem Dev.setBand_can (d : Dev) (die : Nat) (f : BandDie → BandDie) : (d.setBand die f).can = d.can := rfl
@[simp] theorem Dev.setBand_gw (d : Dev) (die : Nat) (f : BandDie → BandDie) : (d.setBand die f).gw = d.gw := rfl
@[simp] theorem Dev.setBand_vxl (d : Dev) (die : Nat) (f : BandDie → BandDie) : (d.setBand die f).vxl = d.vxl := rfl
@[simp] theorem Dev.setBand_hud (d : Dev) (die : Nat) (f : BandDie → BandDie) : (d.setBand die f).hud = d.hud := rfl
@[simp] theorem Dev.setBand_tw (d : Dev) (die : Nat) (f : BandDie → BandDie) : (d.setBand die f).tw = d.tw := rfl
@[simp] theorem Dev.setBand_cmp (d : Dev) (die : Nat) (f : BandDie → BandDie) : (d.setBand die f).cmp = d.cmp := rfl
@[simp] theorem Dev.setBand_upd (d : Dev) (die : Nat) (f : BandDie → BandDie) : (d.setBand die f).upd = d.upd := rfl

@[simp] theorem Dev.setCan_rf (d : Dev) (n : Nat) (f : CanCtl → CanCtl) : (d.setCan n f).rf = d.rf := rfl
@[simp] theorem Dev.setCan_commits (d : Dev) (n : Nat) (f : CanCtl → CanCtl) : (d.setCan n f).commits = d.commits := rfl
@[simp] theorem Dev.setCan_out (d : Dev) (n : Nat) (f : CanCtl → CanCtl) : (d.setCan n f).out = d.out := rfl
@[simp] theorem Dev.setCan_free (d : Dev) (n : Nat) (f : CanCtl → CanCtl) : (d.setCan n f).free = d.free := rfl
@[simp] theorem Dev.setCan_pins (d : Dev) (n : Nat) (f : CanCtl → CanCtl) : (d.setCan n f).pins = d.pins := rfl
@[simp] theorem Dev.setCan_pwr (d : Dev) (n : Nat) (f : CanCtl → CanCtl) : (d.setCan n f).pwr = d.pwr := rfl
@[simp] theorem Dev.setCan_time (d : Dev) (n : Nat) (f : CanCtl → CanCtl) : (d.setCan n f).time = d.time := rfl
@[simp] theorem Dev.setCan_avl (d : Dev) (n : Nat) (f : CanCtl → CanCtl) : (d.setCan n f).avl = d.avl := rfl
@[simp] theorem Dev.setCan_hl (d : Dev) (n : Nat) (f : CanCtl → CanCtl) : (d.setCan n f).hl = d.hl := rfl
@[simp] theorem Dev.setCan_boot (d : Dev) (n : Nat) (f : CanCtl → CanCtl) : (d.setCan n f).boot = d.boot := rfl
@[simp] theorem Dev.setCan_ms (d : Dev) (n : Nat) (f : CanCtl → CanCtl) : (d.setCan n f).ms = d.ms := rfl
@[simp] theorem Dev.setCan_mt (d : Dev) (n : Nat) (f : CanCtl → CanCtl) : (d.setCan n f).mt = d.mt := rfl
@[simp] theorem Dev.setCan_log (d : Dev) (n : Nat) (f : CanCtl → CanCtl) : (d.setCan n f).log = d.log := rfl
@[simp] theorem Dev.setCan_sb (d : Dev) (n : Nat) (f : CanCtl → CanCtl) : (d.setCan n f).sb = d.sb := rfl
@[simp] theorem Dev.setCan_cpt (d : Dev) (n : Nat) (f : CanCtl → CanCtl) : (d.setCan n f).cpt = d.cpt := rfl
@[simp] theorem Dev.setCan_bands (d : Dev) (n : Nat) (f : CanCtl → CanCtl) : (d.setCan n f).bands = d.bands := rfl
@[simp] theorem Dev.setCan_fuses (d : Dev) (n : Nat) (f : CanCtl → CanCtl) : (d.setCan n f).fuses = d.fuses := rfl
@[simp] theorem Dev.setCan_stored (d : Dev) (n : Nat) (f : CanCtl → CanCtl) : (d.setCan n f).stored = d.stored := rfl
@[simp] theorem Dev.setCan_air (d : Dev) (n : Nat) (f : CanCtl → CanCtl) : (d.setCan n f).air = d.air := rfl
@[simp] theorem Dev.setCan_ledgers (d : Dev) (n : Nat) (f : CanCtl → CanCtl) : (d.setCan n f).ledgers = d.ledgers := rfl
@[simp] theorem Dev.setCan_routes (d : Dev) (n : Nat) (f : CanCtl → CanCtl) : (d.setCan n f).routes = d.routes := rfl
@[simp] theorem Dev.setCan_pop (d : Dev) (n : Nat) (f : CanCtl → CanCtl) : (d.setCan n f).pop = d.pop := rfl
@[simp] theorem Dev.setCan_popLogged (d : Dev) (n : Nat) (f : CanCtl → CanCtl) : (d.setCan n f).popLogged = d.popLogged := rfl
@[simp] theorem Dev.setCan_popQ (d : Dev) (n : Nat) (f : CanCtl → CanCtl) : (d.setCan n f).popQ = d.popQ := rfl
@[simp] theorem Dev.setCan_fabSeq (d : Dev) (n : Nat) (f : CanCtl → CanCtl) : (d.setCan n f).fabSeq = d.fabSeq := rfl
@[simp] theorem Dev.setCan_cmpIn (d : Dev) (n : Nat) (f : CanCtl → CanCtl) : (d.setCan n f).cmpIn = d.cmpIn := rfl
@[simp] theorem Dev.setCan_vault (d : Dev) (n : Nat) (f : CanCtl → CanCtl) : (d.setCan n f).vault = d.vault := rfl
@[simp] theorem Dev.setCan_blobs (d : Dev) (n : Nat) (f : CanCtl → CanCtl) : (d.setCan n f).blobs = d.blobs := rfl
@[simp] theorem Dev.setCan_eth (d : Dev) (n : Nat) (f : CanCtl → CanCtl) : (d.setCan n f).eth = d.eth := rfl
@[simp] theorem Dev.setCan_gw (d : Dev) (n : Nat) (f : CanCtl → CanCtl) : (d.setCan n f).gw = d.gw := rfl
@[simp] theorem Dev.setCan_vxl (d : Dev) (n : Nat) (f : CanCtl → CanCtl) : (d.setCan n f).vxl = d.vxl := rfl
@[simp] theorem Dev.setCan_hud (d : Dev) (n : Nat) (f : CanCtl → CanCtl) : (d.setCan n f).hud = d.hud := rfl
@[simp] theorem Dev.setCan_tw (d : Dev) (n : Nat) (f : CanCtl → CanCtl) : (d.setCan n f).tw = d.tw := rfl
@[simp] theorem Dev.setCan_cmp (d : Dev) (n : Nat) (f : CanCtl → CanCtl) : (d.setCan n f).cmp = d.cmp := rfl
@[simp] theorem Dev.setCan_upd (d : Dev) (n : Nat) (f : CanCtl → CanCtl) : (d.setCan n f).upd = d.upd := rfl

@[simp] theorem Dev.setEth_rf (d : Dev) (n : Nat) (f : EthPort → EthPort) : (d.setEth n f).rf = d.rf := rfl
@[simp] theorem Dev.setEth_commits (d : Dev) (n : Nat) (f : EthPort → EthPort) : (d.setEth n f).commits = d.commits := rfl
@[simp] theorem Dev.setEth_out (d : Dev) (n : Nat) (f : EthPort → EthPort) : (d.setEth n f).out = d.out := rfl
@[simp] theorem Dev.setEth_free (d : Dev) (n : Nat) (f : EthPort → EthPort) : (d.setEth n f).free = d.free := rfl
@[simp] theorem Dev.setEth_pins (d : Dev) (n : Nat) (f : EthPort → EthPort) : (d.setEth n f).pins = d.pins := rfl
@[simp] theorem Dev.setEth_pwr (d : Dev) (n : Nat) (f : EthPort → EthPort) : (d.setEth n f).pwr = d.pwr := rfl
@[simp] theorem Dev.setEth_time (d : Dev) (n : Nat) (f : EthPort → EthPort) : (d.setEth n f).time = d.time := rfl
@[simp] theorem Dev.setEth_avl (d : Dev) (n : Nat) (f : EthPort → EthPort) : (d.setEth n f).avl = d.avl := rfl
@[simp] theorem Dev.setEth_hl (d : Dev) (n : Nat) (f : EthPort → EthPort) : (d.setEth n f).hl = d.hl := rfl
@[simp] theorem Dev.setEth_boot (d : Dev) (n : Nat) (f : EthPort → EthPort) : (d.setEth n f).boot = d.boot := rfl
@[simp] theorem Dev.setEth_ms (d : Dev) (n : Nat) (f : EthPort → EthPort) : (d.setEth n f).ms = d.ms := rfl
@[simp] theorem Dev.setEth_mt (d : Dev) (n : Nat) (f : EthPort → EthPort) : (d.setEth n f).mt = d.mt := rfl
@[simp] theorem Dev.setEth_log (d : Dev) (n : Nat) (f : EthPort → EthPort) : (d.setEth n f).log = d.log := rfl
@[simp] theorem Dev.setEth_sb (d : Dev) (n : Nat) (f : EthPort → EthPort) : (d.setEth n f).sb = d.sb := rfl
@[simp] theorem Dev.setEth_cpt (d : Dev) (n : Nat) (f : EthPort → EthPort) : (d.setEth n f).cpt = d.cpt := rfl
@[simp] theorem Dev.setEth_bands (d : Dev) (n : Nat) (f : EthPort → EthPort) : (d.setEth n f).bands = d.bands := rfl
@[simp] theorem Dev.setEth_fuses (d : Dev) (n : Nat) (f : EthPort → EthPort) : (d.setEth n f).fuses = d.fuses := rfl
@[simp] theorem Dev.setEth_stored (d : Dev) (n : Nat) (f : EthPort → EthPort) : (d.setEth n f).stored = d.stored := rfl
@[simp] theorem Dev.setEth_air (d : Dev) (n : Nat) (f : EthPort → EthPort) : (d.setEth n f).air = d.air := rfl
@[simp] theorem Dev.setEth_ledgers (d : Dev) (n : Nat) (f : EthPort → EthPort) : (d.setEth n f).ledgers = d.ledgers := rfl
@[simp] theorem Dev.setEth_routes (d : Dev) (n : Nat) (f : EthPort → EthPort) : (d.setEth n f).routes = d.routes := rfl
@[simp] theorem Dev.setEth_pop (d : Dev) (n : Nat) (f : EthPort → EthPort) : (d.setEth n f).pop = d.pop := rfl
@[simp] theorem Dev.setEth_popLogged (d : Dev) (n : Nat) (f : EthPort → EthPort) : (d.setEth n f).popLogged = d.popLogged := rfl
@[simp] theorem Dev.setEth_popQ (d : Dev) (n : Nat) (f : EthPort → EthPort) : (d.setEth n f).popQ = d.popQ := rfl
@[simp] theorem Dev.setEth_fabSeq (d : Dev) (n : Nat) (f : EthPort → EthPort) : (d.setEth n f).fabSeq = d.fabSeq := rfl
@[simp] theorem Dev.setEth_cmpIn (d : Dev) (n : Nat) (f : EthPort → EthPort) : (d.setEth n f).cmpIn = d.cmpIn := rfl
@[simp] theorem Dev.setEth_vault (d : Dev) (n : Nat) (f : EthPort → EthPort) : (d.setEth n f).vault = d.vault := rfl
@[simp] theorem Dev.setEth_blobs (d : Dev) (n : Nat) (f : EthPort → EthPort) : (d.setEth n f).blobs = d.blobs := rfl
@[simp] theorem Dev.setEth_can (d : Dev) (n : Nat) (f : EthPort → EthPort) : (d.setEth n f).can = d.can := rfl
@[simp] theorem Dev.setEth_gw (d : Dev) (n : Nat) (f : EthPort → EthPort) : (d.setEth n f).gw = d.gw := rfl
@[simp] theorem Dev.setEth_vxl (d : Dev) (n : Nat) (f : EthPort → EthPort) : (d.setEth n f).vxl = d.vxl := rfl
@[simp] theorem Dev.setEth_hud (d : Dev) (n : Nat) (f : EthPort → EthPort) : (d.setEth n f).hud = d.hud := rfl
@[simp] theorem Dev.setEth_tw (d : Dev) (n : Nat) (f : EthPort → EthPort) : (d.setEth n f).tw = d.tw := rfl
@[simp] theorem Dev.setEth_cmp (d : Dev) (n : Nat) (f : EthPort → EthPort) : (d.setEth n f).cmp = d.cmp := rfl
@[simp] theorem Dev.setEth_upd (d : Dev) (n : Nat) (f : EthPort → EthPort) : (d.setEth n f).upd = d.upd := rfl

@[simp] theorem Dev.setVxl_rf (d : Dev) (n : Nat) (f : VxlLink → VxlLink) : (d.setVxl n f).rf = d.rf := rfl
@[simp] theorem Dev.setVxl_commits (d : Dev) (n : Nat) (f : VxlLink → VxlLink) : (d.setVxl n f).commits = d.commits := rfl
@[simp] theorem Dev.setVxl_out (d : Dev) (n : Nat) (f : VxlLink → VxlLink) : (d.setVxl n f).out = d.out := rfl
@[simp] theorem Dev.setVxl_free (d : Dev) (n : Nat) (f : VxlLink → VxlLink) : (d.setVxl n f).free = d.free := rfl
@[simp] theorem Dev.setVxl_pins (d : Dev) (n : Nat) (f : VxlLink → VxlLink) : (d.setVxl n f).pins = d.pins := rfl
@[simp] theorem Dev.setVxl_pwr (d : Dev) (n : Nat) (f : VxlLink → VxlLink) : (d.setVxl n f).pwr = d.pwr := rfl
@[simp] theorem Dev.setVxl_time (d : Dev) (n : Nat) (f : VxlLink → VxlLink) : (d.setVxl n f).time = d.time := rfl
@[simp] theorem Dev.setVxl_avl (d : Dev) (n : Nat) (f : VxlLink → VxlLink) : (d.setVxl n f).avl = d.avl := rfl
@[simp] theorem Dev.setVxl_hl (d : Dev) (n : Nat) (f : VxlLink → VxlLink) : (d.setVxl n f).hl = d.hl := rfl
@[simp] theorem Dev.setVxl_boot (d : Dev) (n : Nat) (f : VxlLink → VxlLink) : (d.setVxl n f).boot = d.boot := rfl
@[simp] theorem Dev.setVxl_ms (d : Dev) (n : Nat) (f : VxlLink → VxlLink) : (d.setVxl n f).ms = d.ms := rfl
@[simp] theorem Dev.setVxl_mt (d : Dev) (n : Nat) (f : VxlLink → VxlLink) : (d.setVxl n f).mt = d.mt := rfl
@[simp] theorem Dev.setVxl_log (d : Dev) (n : Nat) (f : VxlLink → VxlLink) : (d.setVxl n f).log = d.log := rfl
@[simp] theorem Dev.setVxl_sb (d : Dev) (n : Nat) (f : VxlLink → VxlLink) : (d.setVxl n f).sb = d.sb := rfl
@[simp] theorem Dev.setVxl_cpt (d : Dev) (n : Nat) (f : VxlLink → VxlLink) : (d.setVxl n f).cpt = d.cpt := rfl
@[simp] theorem Dev.setVxl_bands (d : Dev) (n : Nat) (f : VxlLink → VxlLink) : (d.setVxl n f).bands = d.bands := rfl
@[simp] theorem Dev.setVxl_fuses (d : Dev) (n : Nat) (f : VxlLink → VxlLink) : (d.setVxl n f).fuses = d.fuses := rfl
@[simp] theorem Dev.setVxl_stored (d : Dev) (n : Nat) (f : VxlLink → VxlLink) : (d.setVxl n f).stored = d.stored := rfl
@[simp] theorem Dev.setVxl_air (d : Dev) (n : Nat) (f : VxlLink → VxlLink) : (d.setVxl n f).air = d.air := rfl
@[simp] theorem Dev.setVxl_ledgers (d : Dev) (n : Nat) (f : VxlLink → VxlLink) : (d.setVxl n f).ledgers = d.ledgers := rfl
@[simp] theorem Dev.setVxl_routes (d : Dev) (n : Nat) (f : VxlLink → VxlLink) : (d.setVxl n f).routes = d.routes := rfl
@[simp] theorem Dev.setVxl_pop (d : Dev) (n : Nat) (f : VxlLink → VxlLink) : (d.setVxl n f).pop = d.pop := rfl
@[simp] theorem Dev.setVxl_popLogged (d : Dev) (n : Nat) (f : VxlLink → VxlLink) : (d.setVxl n f).popLogged = d.popLogged := rfl
@[simp] theorem Dev.setVxl_popQ (d : Dev) (n : Nat) (f : VxlLink → VxlLink) : (d.setVxl n f).popQ = d.popQ := rfl
@[simp] theorem Dev.setVxl_fabSeq (d : Dev) (n : Nat) (f : VxlLink → VxlLink) : (d.setVxl n f).fabSeq = d.fabSeq := rfl
@[simp] theorem Dev.setVxl_cmpIn (d : Dev) (n : Nat) (f : VxlLink → VxlLink) : (d.setVxl n f).cmpIn = d.cmpIn := rfl
@[simp] theorem Dev.setVxl_vault (d : Dev) (n : Nat) (f : VxlLink → VxlLink) : (d.setVxl n f).vault = d.vault := rfl
@[simp] theorem Dev.setVxl_blobs (d : Dev) (n : Nat) (f : VxlLink → VxlLink) : (d.setVxl n f).blobs = d.blobs := rfl
@[simp] theorem Dev.setVxl_eth (d : Dev) (n : Nat) (f : VxlLink → VxlLink) : (d.setVxl n f).eth = d.eth := rfl
@[simp] theorem Dev.setVxl_can (d : Dev) (n : Nat) (f : VxlLink → VxlLink) : (d.setVxl n f).can = d.can := rfl
@[simp] theorem Dev.setVxl_gw (d : Dev) (n : Nat) (f : VxlLink → VxlLink) : (d.setVxl n f).gw = d.gw := rfl
@[simp] theorem Dev.setVxl_hud (d : Dev) (n : Nat) (f : VxlLink → VxlLink) : (d.setVxl n f).hud = d.hud := rfl
@[simp] theorem Dev.setVxl_tw (d : Dev) (n : Nat) (f : VxlLink → VxlLink) : (d.setVxl n f).tw = d.tw := rfl
@[simp] theorem Dev.setVxl_cmp (d : Dev) (n : Nat) (f : VxlLink → VxlLink) : (d.setVxl n f).cmp = d.cmp := rfl
@[simp] theorem Dev.setVxl_upd (d : Dev) (n : Nat) (f : VxlLink → VxlLink) : (d.setVxl n f).upd = d.upd := rfl

@[simp] theorem Dev.setCmd_rf (d : Dev) (id : Nat) (f : Cmd → Cmd) : (d.setCmd id f).rf = d.rf := rfl
@[simp] theorem Dev.setCmd_commits (d : Dev) (id : Nat) (f : Cmd → Cmd) : (d.setCmd id f).commits = d.commits := rfl
@[simp] theorem Dev.setCmd_out (d : Dev) (id : Nat) (f : Cmd → Cmd) : (d.setCmd id f).out = d.out := rfl
@[simp] theorem Dev.setCmd_free (d : Dev) (id : Nat) (f : Cmd → Cmd) : (d.setCmd id f).free = d.free := rfl
@[simp] theorem Dev.setCmd_pins (d : Dev) (id : Nat) (f : Cmd → Cmd) : (d.setCmd id f).pins = d.pins := rfl
@[simp] theorem Dev.setCmd_pwr (d : Dev) (id : Nat) (f : Cmd → Cmd) : (d.setCmd id f).pwr = d.pwr := rfl
@[simp] theorem Dev.setCmd_time (d : Dev) (id : Nat) (f : Cmd → Cmd) : (d.setCmd id f).time = d.time := rfl
@[simp] theorem Dev.setCmd_avl (d : Dev) (id : Nat) (f : Cmd → Cmd) : (d.setCmd id f).avl = d.avl := rfl
@[simp] theorem Dev.setCmd_boot (d : Dev) (id : Nat) (f : Cmd → Cmd) : (d.setCmd id f).boot = d.boot := rfl
@[simp] theorem Dev.setCmd_ms (d : Dev) (id : Nat) (f : Cmd → Cmd) : (d.setCmd id f).ms = d.ms := rfl
@[simp] theorem Dev.setCmd_mt (d : Dev) (id : Nat) (f : Cmd → Cmd) : (d.setCmd id f).mt = d.mt := rfl
@[simp] theorem Dev.setCmd_log (d : Dev) (id : Nat) (f : Cmd → Cmd) : (d.setCmd id f).log = d.log := rfl
@[simp] theorem Dev.setCmd_sb (d : Dev) (id : Nat) (f : Cmd → Cmd) : (d.setCmd id f).sb = d.sb := rfl
@[simp] theorem Dev.setCmd_cpt (d : Dev) (id : Nat) (f : Cmd → Cmd) : (d.setCmd id f).cpt = d.cpt := rfl
@[simp] theorem Dev.setCmd_bands (d : Dev) (id : Nat) (f : Cmd → Cmd) : (d.setCmd id f).bands = d.bands := rfl
@[simp] theorem Dev.setCmd_fuses (d : Dev) (id : Nat) (f : Cmd → Cmd) : (d.setCmd id f).fuses = d.fuses := rfl
@[simp] theorem Dev.setCmd_stored (d : Dev) (id : Nat) (f : Cmd → Cmd) : (d.setCmd id f).stored = d.stored := rfl
@[simp] theorem Dev.setCmd_air (d : Dev) (id : Nat) (f : Cmd → Cmd) : (d.setCmd id f).air = d.air := rfl
@[simp] theorem Dev.setCmd_ledgers (d : Dev) (id : Nat) (f : Cmd → Cmd) : (d.setCmd id f).ledgers = d.ledgers := rfl
@[simp] theorem Dev.setCmd_routes (d : Dev) (id : Nat) (f : Cmd → Cmd) : (d.setCmd id f).routes = d.routes := rfl
@[simp] theorem Dev.setCmd_pop (d : Dev) (id : Nat) (f : Cmd → Cmd) : (d.setCmd id f).pop = d.pop := rfl
@[simp] theorem Dev.setCmd_popLogged (d : Dev) (id : Nat) (f : Cmd → Cmd) : (d.setCmd id f).popLogged = d.popLogged := rfl
@[simp] theorem Dev.setCmd_popQ (d : Dev) (id : Nat) (f : Cmd → Cmd) : (d.setCmd id f).popQ = d.popQ := rfl
@[simp] theorem Dev.setCmd_fabSeq (d : Dev) (id : Nat) (f : Cmd → Cmd) : (d.setCmd id f).fabSeq = d.fabSeq := rfl
@[simp] theorem Dev.setCmd_cmpIn (d : Dev) (id : Nat) (f : Cmd → Cmd) : (d.setCmd id f).cmpIn = d.cmpIn := rfl
@[simp] theorem Dev.setCmd_vault (d : Dev) (id : Nat) (f : Cmd → Cmd) : (d.setCmd id f).vault = d.vault := rfl
@[simp] theorem Dev.setCmd_blobs (d : Dev) (id : Nat) (f : Cmd → Cmd) : (d.setCmd id f).blobs = d.blobs := rfl
@[simp] theorem Dev.setCmd_eth (d : Dev) (id : Nat) (f : Cmd → Cmd) : (d.setCmd id f).eth = d.eth := rfl
@[simp] theorem Dev.setCmd_can (d : Dev) (id : Nat) (f : Cmd → Cmd) : (d.setCmd id f).can = d.can := rfl
@[simp] theorem Dev.setCmd_gw (d : Dev) (id : Nat) (f : Cmd → Cmd) : (d.setCmd id f).gw = d.gw := rfl
@[simp] theorem Dev.setCmd_vxl (d : Dev) (id : Nat) (f : Cmd → Cmd) : (d.setCmd id f).vxl = d.vxl := rfl
@[simp] theorem Dev.setCmd_hud (d : Dev) (id : Nat) (f : Cmd → Cmd) : (d.setCmd id f).hud = d.hud := rfl
@[simp] theorem Dev.setCmd_tw (d : Dev) (id : Nat) (f : Cmd → Cmd) : (d.setCmd id f).tw = d.tw := rfl
@[simp] theorem Dev.setCmd_cmp (d : Dev) (id : Nat) (f : Cmd → Cmd) : (d.setCmd id f).cmp = d.cmp := rfl
@[simp] theorem Dev.setCmd_upd (d : Dev) (id : Nat) (f : Cmd → Cmd) : (d.setCmd id f).upd = d.upd := rfl

@[simp] theorem Dev.setCamp_rf (d : Dev) (cid : Nat) (f : Camp → Camp) : (d.setCamp cid f).rf = d.rf := rfl
@[simp] theorem Dev.setCamp_commits (d : Dev) (cid : Nat) (f : Camp → Camp) : (d.setCamp cid f).commits = d.commits := rfl
@[simp] theorem Dev.setCamp_out (d : Dev) (cid : Nat) (f : Camp → Camp) : (d.setCamp cid f).out = d.out := rfl
@[simp] theorem Dev.setCamp_free (d : Dev) (cid : Nat) (f : Camp → Camp) : (d.setCamp cid f).free = d.free := rfl
@[simp] theorem Dev.setCamp_pins (d : Dev) (cid : Nat) (f : Camp → Camp) : (d.setCamp cid f).pins = d.pins := rfl
@[simp] theorem Dev.setCamp_pwr (d : Dev) (cid : Nat) (f : Camp → Camp) : (d.setCamp cid f).pwr = d.pwr := rfl
@[simp] theorem Dev.setCamp_time (d : Dev) (cid : Nat) (f : Camp → Camp) : (d.setCamp cid f).time = d.time := rfl
@[simp] theorem Dev.setCamp_avl (d : Dev) (cid : Nat) (f : Camp → Camp) : (d.setCamp cid f).avl = d.avl := rfl
@[simp] theorem Dev.setCamp_hl (d : Dev) (cid : Nat) (f : Camp → Camp) : (d.setCamp cid f).hl = d.hl := rfl
@[simp] theorem Dev.setCamp_boot (d : Dev) (cid : Nat) (f : Camp → Camp) : (d.setCamp cid f).boot = d.boot := rfl
@[simp] theorem Dev.setCamp_ms (d : Dev) (cid : Nat) (f : Camp → Camp) : (d.setCamp cid f).ms = d.ms := rfl
@[simp] theorem Dev.setCamp_mt (d : Dev) (cid : Nat) (f : Camp → Camp) : (d.setCamp cid f).mt = d.mt := rfl
@[simp] theorem Dev.setCamp_log (d : Dev) (cid : Nat) (f : Camp → Camp) : (d.setCamp cid f).log = d.log := rfl
@[simp] theorem Dev.setCamp_sb (d : Dev) (cid : Nat) (f : Camp → Camp) : (d.setCamp cid f).sb = d.sb := rfl
@[simp] theorem Dev.setCamp_cpt (d : Dev) (cid : Nat) (f : Camp → Camp) : (d.setCamp cid f).cpt = d.cpt := rfl
@[simp] theorem Dev.setCamp_bands (d : Dev) (cid : Nat) (f : Camp → Camp) : (d.setCamp cid f).bands = d.bands := rfl
@[simp] theorem Dev.setCamp_fuses (d : Dev) (cid : Nat) (f : Camp → Camp) : (d.setCamp cid f).fuses = d.fuses := rfl
@[simp] theorem Dev.setCamp_stored (d : Dev) (cid : Nat) (f : Camp → Camp) : (d.setCamp cid f).stored = d.stored := rfl
@[simp] theorem Dev.setCamp_air (d : Dev) (cid : Nat) (f : Camp → Camp) : (d.setCamp cid f).air = d.air := rfl
@[simp] theorem Dev.setCamp_ledgers (d : Dev) (cid : Nat) (f : Camp → Camp) : (d.setCamp cid f).ledgers = d.ledgers := rfl
@[simp] theorem Dev.setCamp_routes (d : Dev) (cid : Nat) (f : Camp → Camp) : (d.setCamp cid f).routes = d.routes := rfl
@[simp] theorem Dev.setCamp_pop (d : Dev) (cid : Nat) (f : Camp → Camp) : (d.setCamp cid f).pop = d.pop := rfl
@[simp] theorem Dev.setCamp_popLogged (d : Dev) (cid : Nat) (f : Camp → Camp) : (d.setCamp cid f).popLogged = d.popLogged := rfl
@[simp] theorem Dev.setCamp_popQ (d : Dev) (cid : Nat) (f : Camp → Camp) : (d.setCamp cid f).popQ = d.popQ := rfl
@[simp] theorem Dev.setCamp_fabSeq (d : Dev) (cid : Nat) (f : Camp → Camp) : (d.setCamp cid f).fabSeq = d.fabSeq := rfl
@[simp] theorem Dev.setCamp_cmpIn (d : Dev) (cid : Nat) (f : Camp → Camp) : (d.setCamp cid f).cmpIn = d.cmpIn := rfl
@[simp] theorem Dev.setCamp_vault (d : Dev) (cid : Nat) (f : Camp → Camp) : (d.setCamp cid f).vault = d.vault := rfl
@[simp] theorem Dev.setCamp_blobs (d : Dev) (cid : Nat) (f : Camp → Camp) : (d.setCamp cid f).blobs = d.blobs := rfl
@[simp] theorem Dev.setCamp_eth (d : Dev) (cid : Nat) (f : Camp → Camp) : (d.setCamp cid f).eth = d.eth := rfl
@[simp] theorem Dev.setCamp_can (d : Dev) (cid : Nat) (f : Camp → Camp) : (d.setCamp cid f).can = d.can := rfl
@[simp] theorem Dev.setCamp_gw (d : Dev) (cid : Nat) (f : Camp → Camp) : (d.setCamp cid f).gw = d.gw := rfl
@[simp] theorem Dev.setCamp_vxl (d : Dev) (cid : Nat) (f : Camp → Camp) : (d.setCamp cid f).vxl = d.vxl := rfl
@[simp] theorem Dev.setCamp_hud (d : Dev) (cid : Nat) (f : Camp → Camp) : (d.setCamp cid f).hud = d.hud := rfl
@[simp] theorem Dev.setCamp_tw (d : Dev) (cid : Nat) (f : Camp → Camp) : (d.setCamp cid f).tw = d.tw := rfl
@[simp] theorem Dev.setCamp_upd (d : Dev) (cid : Nat) (f : Camp → Camp) : (d.setCamp cid f).upd = d.upd := rfl

@[simp] theorem Dev.setUmp_rf (d : Dev) (m : Nat) (f : UmpMember → UmpMember) : (d.setUmp m f).rf = d.rf := rfl
@[simp] theorem Dev.setUmp_commits (d : Dev) (m : Nat) (f : UmpMember → UmpMember) : (d.setUmp m f).commits = d.commits := rfl
@[simp] theorem Dev.setUmp_out (d : Dev) (m : Nat) (f : UmpMember → UmpMember) : (d.setUmp m f).out = d.out := rfl
@[simp] theorem Dev.setUmp_free (d : Dev) (m : Nat) (f : UmpMember → UmpMember) : (d.setUmp m f).free = d.free := rfl
@[simp] theorem Dev.setUmp_pins (d : Dev) (m : Nat) (f : UmpMember → UmpMember) : (d.setUmp m f).pins = d.pins := rfl
@[simp] theorem Dev.setUmp_pwr (d : Dev) (m : Nat) (f : UmpMember → UmpMember) : (d.setUmp m f).pwr = d.pwr := rfl
@[simp] theorem Dev.setUmp_time (d : Dev) (m : Nat) (f : UmpMember → UmpMember) : (d.setUmp m f).time = d.time := rfl
@[simp] theorem Dev.setUmp_avl (d : Dev) (m : Nat) (f : UmpMember → UmpMember) : (d.setUmp m f).avl = d.avl := rfl
@[simp] theorem Dev.setUmp_hl (d : Dev) (m : Nat) (f : UmpMember → UmpMember) : (d.setUmp m f).hl = d.hl := rfl
@[simp] theorem Dev.setUmp_boot (d : Dev) (m : Nat) (f : UmpMember → UmpMember) : (d.setUmp m f).boot = d.boot := rfl
@[simp] theorem Dev.setUmp_ms (d : Dev) (m : Nat) (f : UmpMember → UmpMember) : (d.setUmp m f).ms = d.ms := rfl
@[simp] theorem Dev.setUmp_mt (d : Dev) (m : Nat) (f : UmpMember → UmpMember) : (d.setUmp m f).mt = d.mt := rfl
@[simp] theorem Dev.setUmp_log (d : Dev) (m : Nat) (f : UmpMember → UmpMember) : (d.setUmp m f).log = d.log := rfl
@[simp] theorem Dev.setUmp_sb (d : Dev) (m : Nat) (f : UmpMember → UmpMember) : (d.setUmp m f).sb = d.sb := rfl
@[simp] theorem Dev.setUmp_cpt (d : Dev) (m : Nat) (f : UmpMember → UmpMember) : (d.setUmp m f).cpt = d.cpt := rfl
@[simp] theorem Dev.setUmp_bands (d : Dev) (m : Nat) (f : UmpMember → UmpMember) : (d.setUmp m f).bands = d.bands := rfl
@[simp] theorem Dev.setUmp_fuses (d : Dev) (m : Nat) (f : UmpMember → UmpMember) : (d.setUmp m f).fuses = d.fuses := rfl
@[simp] theorem Dev.setUmp_stored (d : Dev) (m : Nat) (f : UmpMember → UmpMember) : (d.setUmp m f).stored = d.stored := rfl
@[simp] theorem Dev.setUmp_air (d : Dev) (m : Nat) (f : UmpMember → UmpMember) : (d.setUmp m f).air = d.air := rfl
@[simp] theorem Dev.setUmp_ledgers (d : Dev) (m : Nat) (f : UmpMember → UmpMember) : (d.setUmp m f).ledgers = d.ledgers := rfl
@[simp] theorem Dev.setUmp_routes (d : Dev) (m : Nat) (f : UmpMember → UmpMember) : (d.setUmp m f).routes = d.routes := rfl
@[simp] theorem Dev.setUmp_pop (d : Dev) (m : Nat) (f : UmpMember → UmpMember) : (d.setUmp m f).pop = d.pop := rfl
@[simp] theorem Dev.setUmp_popLogged (d : Dev) (m : Nat) (f : UmpMember → UmpMember) : (d.setUmp m f).popLogged = d.popLogged := rfl
@[simp] theorem Dev.setUmp_popQ (d : Dev) (m : Nat) (f : UmpMember → UmpMember) : (d.setUmp m f).popQ = d.popQ := rfl
@[simp] theorem Dev.setUmp_fabSeq (d : Dev) (m : Nat) (f : UmpMember → UmpMember) : (d.setUmp m f).fabSeq = d.fabSeq := rfl
@[simp] theorem Dev.setUmp_cmpIn (d : Dev) (m : Nat) (f : UmpMember → UmpMember) : (d.setUmp m f).cmpIn = d.cmpIn := rfl
@[simp] theorem Dev.setUmp_vault (d : Dev) (m : Nat) (f : UmpMember → UmpMember) : (d.setUmp m f).vault = d.vault := rfl
@[simp] theorem Dev.setUmp_blobs (d : Dev) (m : Nat) (f : UmpMember → UmpMember) : (d.setUmp m f).blobs = d.blobs := rfl
@[simp] theorem Dev.setUmp_eth (d : Dev) (m : Nat) (f : UmpMember → UmpMember) : (d.setUmp m f).eth = d.eth := rfl
@[simp] theorem Dev.setUmp_can (d : Dev) (m : Nat) (f : UmpMember → UmpMember) : (d.setUmp m f).can = d.can := rfl
@[simp] theorem Dev.setUmp_gw (d : Dev) (m : Nat) (f : UmpMember → UmpMember) : (d.setUmp m f).gw = d.gw := rfl
@[simp] theorem Dev.setUmp_vxl (d : Dev) (m : Nat) (f : UmpMember → UmpMember) : (d.setUmp m f).vxl = d.vxl := rfl
@[simp] theorem Dev.setUmp_hud (d : Dev) (m : Nat) (f : UmpMember → UmpMember) : (d.setUmp m f).hud = d.hud := rfl
@[simp] theorem Dev.setUmp_cmp (d : Dev) (m : Nat) (f : UmpMember → UmpMember) : (d.setUmp m f).cmp = d.cmp := rfl
@[simp] theorem Dev.setUmp_upd (d : Dev) (m : Nat) (f : UmpMember → UmpMember) : (d.setUmp m f).upd = d.upd := rfl

@[simp] theorem Dev.emit_out (d : Dev) (o : Out) : (d.emit o).out = o :: d.out := rfl
@[simp] theorem Dev.put_rf (d : Dev) (f : Fld) (p : Page) (v i : Nat) : (d.put f p v i).rf = d.rf.set f p i v := rfl
@[simp] theorem Dev.setCmd_inflight (d : Dev) (id : Nat) (f : Cmd → Cmd) : (d.setCmd id f).hl.inflight = mapIf (fun c => c.id == id) f d.hl.inflight := rfl

end Sys2Proof.Machine
end

