-- ==== Sys2Proof/Laws/Store.lean ====
section
/-! SUPPORT. The laws of key and value lists and of octet memory: a read after a write, and the canonical form that every write keeps. -/

namespace Sys2Proof.Machine
open Sys2Proof

theorem kvGet_append (d : Nat) (l m : List (Nat × Nat)) (k : Nat) :
    kvGet d (l ++ m) k = if l.any (fun e => e.1 == k) then kvGet d l k else kvGet d m k := by
  induction l with
  | nil => simp
  | cons e l ih =>
    obtain ⟨a, v⟩ := e
    by_cases h : a = k
    · simp [kvGet, h]
    · have hb : (a == k) = false := by simpa using h
      simp only [List.cons_append, kvGet, hb, Bool.false_eq_true, if_false, ih, List.any_cons, Bool.false_or]

theorem kvGet_none (d : Nat) (l : List (Nat × Nat)) (k : Nat) (h : ∀ e ∈ l, e.1 ≠ k) : kvGet d l k = d := by
  induction l with
  | nil => rfl
  | cons e l ih =>
    obtain ⟨a, v⟩ := e
    have h1 : a ≠ k := h (a, v) (by simp)
    simp [kvGet, h1, ih (fun e he => h e (by simp [he]))]

theorem kvGet_filter (d : Nat) (p : Nat → Bool) (l : List (Nat × Nat)) (k : Nat) (h : p k = true) :
    kvGet d (l.filter (fun e => p e.1)) k = kvGet d l k := by
  induction l with
  | nil => rfl
  | cons e l ih =>
    obtain ⟨a, v⟩ := e
    by_cases hp : p a = true
    · simp [hp, kvGet, ih]
    · have : a ≠ k := fun hk => hp (hk ▸ h)
      simp [hp, kvGet, ih, this]

/-- A read of the key just written gives the value written. -/
@[simp] theorem kvGet_kvSet_same (d : Nat) (l : List (Nat × Nat)) (k v : Nat) : kvGet d (kvSet d l k v) k = v := by
  have h1 : (l.filter (fun e => decide (e.1 < k))).any (fun e => e.1 == k) = false := by
    simp only [List.any_eq_false, List.mem_filter, decide_eq_true_eq, beq_iff_eq, and_imp]
    intro e _ h; omega
  have h2 : kvGet d (l.filter (fun e => decide (k < e.1))) k = d :=
    kvGet_none d _ k (fun e he => by simp only [List.mem_filter, decide_eq_true_eq] at he; omega)
  unfold kvSet
  rw [List.append_assoc, kvGet_append, h1]
  by_cases hv : v = d
  · simp [hv, h2]
  · simp [hv, kvGet]

/-- A write leaves every other key as it was. -/
theorem kvGet_kvSet_other (d d' : Nat) (l : List (Nat × Nat)) (k v k' : Nat) (h : k' ≠ k) : kvGet d (kvSet d' l k v) k' = kvGet d l k' := by
  have mid : ((if v == d' then [] else [(k, v)]) : List (Nat × Nat)).any (fun e => e.1 == k') = false := by
    split
    · rfl
    · simp; exact fun hh => h hh.symm
  have lo_none : (l.filter (fun e => decide (e.1 < k))).any (fun e => e.1 == k') = false → (k' < k → ∀ e ∈ l, e.1 ≠ k') := by
    intro hf hlt e he hk
    have : (l.filter (fun e => decide (e.1 < k))).any (fun e => e.1 == k') = true :=
      List.any_eq_true.mpr ⟨e, List.mem_filter.mpr ⟨he, by simp; omega⟩, by simp [hk]⟩
    simp_all
  unfold kvSet
  rw [List.append_assoc, kvGet_append]
  by_cases hlt : k' < k
  · by_cases ha : (l.filter (fun e => decide (e.1 < k))).any (fun e => e.1 == k') = true
    · rw [if_pos ha]
      exact kvGet_filter d (fun a => decide (a < k)) l k' (by simpa using hlt)
    · have hn := lo_none (Bool.eq_false_iff.mpr ha) hlt
      rw [if_neg ha, kvGet_append, mid, kvGet_none d l k' hn]
      exact kvGet_none d _ k' (fun e he => hn e (List.mem_of_mem_filter he))
  · have ha : (l.filter (fun e => decide (e.1 < k))).any (fun e => e.1 == k') = false := by
      simp only [List.any_eq_false, List.mem_filter, decide_eq_true_eq, beq_iff_eq, and_imp]
      intro e _ h1 h2; omega
    rw [ha, kvGet_append, mid]
    exact kvGet_filter d (fun a => decide (k < a)) l k' (by simp; omega)

/-- A filter that drops a key leaves its default. -/
theorem kvGet_filterD (d : Nat) (P : Nat × Nat → Bool) (l : List (Nat × Nat)) (k : Nat) (h : ∀ v, P (k, v) = false) : kvGet d (l.filter P) k = d :=
  kvGet_none d _ k (fun e he hk => by
    obtain ⟨a, v⟩ := e
    rw [List.mem_filter] at he
    subst hk
    rw [h v] at he; exact Bool.noConfusion he.2)

/-- A filter that keeps a key leaves its value. -/
theorem kvGet_filterK (d : Nat) (P : Nat × Nat → Bool) (l : List (Nat × Nat)) (k : Nat) (h : ∀ v, P (k, v) = true) : kvGet d (l.filter P) k = kvGet d l k := by
  induction l with
  | nil => rfl
  | cons e l ih =>
    obtain ⟨a, v⟩ := e
    by_cases hp : P (a, v) = true
    · simp [hp, kvGet, ih]
    · have : a ≠ k := fun hk => hp (hk ▸ h v)
      simp [hp, kvGet, ih, this]

/-- Inside the range taken out. -/
theorem kvOut_in (d lo hi : Nat) (l : List (Nat × Nat)) (k : Nat) (h1 : lo ≤ k) (h2 : k < hi) : kvGet d (kvOut lo hi l) k = d :=
  kvGet_filterD d _ l k (fun v => by simp; omega)

/-- Outside the range taken out. -/
theorem kvOut_out (d lo hi : Nat) (l : List (Nat × Nat)) (k : Nat) (h : k < lo ∨ hi ≤ k) : kvGet d (kvOut lo hi l) k = kvGet d l k :=
  kvGet_filter d (fun x => !(decide (lo ≤ x) && decide (x < hi))) l k (by simp; omega)

/-- A key that the first list does not have. -/
theorem kvGet_append_left (d : Nat) (l m : List (Nat × Nat)) (k : Nat) (h : ∀ e ∈ l, e.1 ≠ k) : kvGet d (l ++ m) k = kvGet d m k := by
  rw [kvGet_append, if_neg]
  simp only [List.any_eq_true, not_exists, not_and]
  intro e he hk
  exact h e he (by simpa using hk)

/-- A key that the second list does not have. -/
theorem kvGet_append_right (d : Nat) (l m : List (Nat × Nat)) (k : Nat) (h : ∀ e ∈ m, e.1 ≠ k) : kvGet d (l ++ m) k = kvGet d l k := by
  rw [kvGet_append]
  split
  · rfl
  · rename_i hn
    rw [kvGet_none d m k h, kvGet_none d l k]
    intro e he hk
    exact hn (List.any_eq_true.2 ⟨e, he, by simpa using hk⟩)

/-- Inside a spliced range the other list counts. -/
theorem kvSplice_in (d lo hi : Nat) (l src : List (Nat × Nat)) (k : Nat) (h1 : lo ≤ k) (h2 : k < hi) : kvGet d (kvSplice lo hi l src) k = kvGet d src k := by
  unfold kvSplice
  rw [kvGet_append_right _ _ _ _ (by intro e he; simp at he; omega), kvGet_append_left _ _ _ _ (by intro e he; simp at he; omega)]
  exact kvGet_filter d (fun x => decide (lo ≤ x) && decide (x < hi)) src k (by simp; omega)

/-- Outside a spliced range nothing changes. -/
theorem kvSplice_out (d lo hi : Nat) (l src : List (Nat × Nat)) (k : Nat) (h : k < lo ∨ hi ≤ k) (hl : lo ≤ hi) : kvGet d (kvSplice lo hi l src) k = kvGet d l k := by
  unfold kvSplice
  have mid : ∀ e ∈ kvIn lo hi src, e.1 ≠ k := by intro e he; unfold kvIn at he; simp at he; omega
  rcases h with h | h
  · rw [List.append_assoc, kvGet_append_right _ _ _ _ (by
      intro e he; rw [List.mem_append] at he
      rcases he with he | he
      · exact mid e he
      · simp at he; omega)]
    exact kvGet_filter d (fun x => decide (x < lo)) l k (by simp; omega)
  · rw [List.append_assoc, kvGet_append_left _ _ _ _ (by intro e he; simp at he; omega), kvGet_append_left _ _ _ _ mid]
    exact kvGet_filter d (fun x => decide (hi ≤ x)) l k (by simp; omega)

/-! ## Octet memory -/

theorem memOk_weaken {b c : Nat} {m : List Host.Cell} (h : b ≤ c) (hm : memOk (some c) m = true) : memOk (some b) m = true := by
  cases m with
  | nil => rfl
  | cons e l =>
    obtain ⟨k, v⟩ := e
    simp only [memOk, Bool.and_eq_true, decide_eq_true_eq] at hm ⊢
    exact ⟨⟨by omega, hm.1.2⟩, hm.2⟩

theorem memOk_none {b : Nat} {m : List Host.Cell} (hm : memOk (some b) m = true) : memOk none m = true := by
  cases m with
  | nil => rfl
  | cons e l =>
    obtain ⟨k, v⟩ := e
    simp only [memOk, Bool.and_eq_true] at hm ⊢
    exact ⟨hm.1.2, hm.2⟩

theorem memSet_ok (m : List Host.Cell) (a : Nat) (v : Byte) : ∀ b : Nat, b < a → memOk (some b) m = true → memOk (some b) (memSet m a v) = true := by
  induction m with
  | nil =>
    intro b hb _
    unfold memSet
    split
    · rfl
    · simp_all [memOk]
  | cons e l ih =>
    obtain ⟨k, w⟩ := e
    intro b hb hm
    simp only [memOk, Bool.and_eq_true, decide_eq_true_eq] at hm
    unfold memSet
    split
    · rename_i hk
      simp only [memOk, Bool.and_eq_true, decide_eq_true_eq]
      exact ⟨hm.1, ih k hk hm.2⟩
    · split
      · rename_i hk hka
        have hka : k = a := by simpa using hka
        split
        · exact memOk_weaken (by omega) hm.2
        · simp only [memOk, Bool.and_eq_true, decide_eq_true_eq]
          exact ⟨⟨hb, by simp_all⟩, hka ▸ hm.2⟩
      · rename_i hk hka
        have hka : ¬ k = a := by simpa using hka
        split
        · simp only [memOk, Bool.and_eq_true, decide_eq_true_eq]; exact ⟨hm.1, hm.2⟩
        · simp only [memOk, Bool.and_eq_true, decide_eq_true_eq]
          exact ⟨⟨hb, by simp_all⟩, ⟨by omega, hm.1.2⟩, hm.2⟩

/-- A write of one octet keeps the canonical form. -/
theorem memSet_wf {m : List Host.Cell} (a : Nat) (v : Byte) (hm : Memory.wf m = true) : Memory.wf (memSet m a v) = true := by
  unfold Memory.wf at *
  cases m with
  | nil => unfold memSet; split <;> simp_all [memOk]
  | cons e l =>
    obtain ⟨k, w⟩ := e
    simp only [memOk, Bool.and_eq_true] at hm
    unfold memSet
    split
    · rename_i hk
      simp only [memOk, Bool.and_eq_true]
      exact ⟨hm.1, memSet_ok l a v k hk hm.2⟩
    · split
      · rename_i hk hka
        have hka : k = a := by simpa using hka
        split
        · exact memOk_none hm.2
        · simp only [memOk, Bool.and_eq_true]; exact ⟨by simp_all, hka ▸ hm.2⟩
      · rename_i hk hka
        have hka : ¬ k = a := by simpa using hka
        split
        · simp only [memOk, Bool.and_eq_true]; exact hm
        · simp only [memOk, Bool.and_eq_true, decide_eq_true_eq]
          exact ⟨by simp_all, ⟨by omega, hm.1⟩, hm.2⟩

/-- Writes of octets keep the canonical form. -/
theorem memWrite_wf (bs : List Byte) : ∀ (m : List Host.Cell) (a : Nat), Memory.wf m = true → Memory.wf (memWrite m a bs) = true := by
  induction bs with
  | nil => intro m a h; exact h
  | cons b bs ih => intro m a h; exact ih _ _ (memSet_wf a b h)

/-- A list of writes keeps the canonical form. -/
theorem memWrites_wf (ws : List (Nat × List Byte)) : ∀ (m : List Host.Cell), Memory.wf m = true → Memory.wf (memWrites m ws) = true := by
  induction ws with
  | nil => intro m h; exact h
  | cons w ws ih => intro m h; exact ih _ (memWrite_wf w.2 m w.1 h)

/-- A write leaves every other octet as it was. -/
theorem memGet_memSet_other (m : List Host.Cell) (a a' : Nat) (v : Byte) (h : a' ≠ a) : memGet (memSet m a v) a' = memGet m a' := by
  induction m with
  | nil => unfold memSet; split <;> simp [memGet, h.symm]
  | cons e l ih =>
    obtain ⟨k, w⟩ := e
    unfold memSet
    split
    · simp [memGet, ih]
    · split
      · rename_i _ hka
        have hka : k = a := by simpa using hka
        split <;> simp [memGet, hka, h.symm]
      · split <;> simp [memGet, h.symm]

theorem memGet_zero_of_ok (m : List Host.Cell) : ∀ (b a : Nat), memOk (some b) m = true → a ≤ b → memGet m a = 0#8 := by
  induction m with
  | nil => intros; rfl
  | cons e l ih =>
    obtain ⟨k, w⟩ := e
    intro b a hm hab
    simp only [memOk, Bool.and_eq_true, decide_eq_true_eq] at hm
    have : k ≠ a := by omega
    simp [memGet, this, ih k a hm.2 (by omega)]

theorem memGet_memSet_ok (m : List Host.Cell) (a : Nat) (v : Byte) : ∀ b : Nat, memOk (some b) m = true → memGet (memSet m a v) a = v := by
  induction m with
  | nil => intro b _; unfold memSet; split <;> simp_all [memGet]
  | cons e l ih =>
    obtain ⟨k, w⟩ := e
    intro b hm
    simp only [memOk, Bool.and_eq_true, decide_eq_true_eq] at hm
    unfold memSet
    split
    · rename_i hk
      have : k ≠ a := by omega
      simp [memGet, this, ih k hm.2]
    · split
      · rename_i hk hka
        have hka : k = a := by simpa using hka
        split
        · rename_i hv
          have hv : v = 0#8 := by simpa using hv
          rw [hv]; exact memGet_zero_of_ok l k a hm.2 (by omega)
        · simp [memGet]
      · rename_i hk hka
        have hka : ¬ k = a := by simpa using hka
        split
        · rename_i hv
          have hv : v = 0#8 := by simpa using hv
          simp only [memGet, beq_iff_eq, hka, if_false, hv]
          exact memGet_zero_of_ok l k a hm.2 (by omega)
        · simp [memGet]

/-- A read of the octet just written gives it. -/
theorem memGet_memSet_same {m : List Host.Cell} (a : Nat) (v : Byte) (hm : Memory.wf m = true) : memGet (memSet m a v) a = v := by
  cases m with
  | nil => unfold memSet; split <;> simp_all [memGet]
  | cons e l =>
    obtain ⟨k, w⟩ := e
    unfold Memory.wf at hm
    by_cases h0 : 0 < k
    · exact memGet_memSet_ok ((k, w) :: l) a v 0 (by simp only [memOk, Bool.and_eq_true, decide_eq_true_eq] at hm ⊢; exact ⟨⟨h0, hm.1⟩, hm.2⟩)
    · have hk : k = 0 := by omega
      subst hk
      simp only [memOk, Bool.and_eq_true] at hm
      unfold memSet
      split
      · rename_i hlt
        have : (0 : Nat) ≠ a := by omega
        simp [memGet, this, memGet_memSet_ok l a v 0 hm.2]
      · split
        · split
          · rename_i hv
            have hv : v = 0#8 := by simpa using hv
            rw [hv]; exact memGet_zero_of_ok l 0 a hm.2 (by omega)
          · simp [memGet]
        · rename_i h1 h2
          have : ¬ 0 = a := by simpa using h2
          omega

/-- Octets outside a write are as they were. -/
theorem memGet_memWrite_outside (bs : List Byte) : ∀ (m : List Host.Cell) (a x : Nat), (x < a ∨ a + bs.length ≤ x) →
    memGet (memWrite m a bs) x = memGet m x := by
  induction bs with
  | nil => intros; rfl
  | cons b bs ih =>
    intro m a x h
    simp only [List.length_cons] at h
    unfold memWrite
    rw [ih (memSet m a b) (a + 1) x (by omega), memGet_memSet_other m a x b (by omega)]

/-- Octets outside every write are as they were. -/
theorem memGet_memWrites_outside (a : Nat) (ws : List (Nat × List Byte)) : ∀ m, (∀ w ∈ ws, a < w.1 ∨ w.1 + w.2.length ≤ a) →
    memGet (memWrites m ws) a = memGet m a := by
  induction ws with
  | nil => intros; rfl
  | cons w ws ih =>
    intro m h
    show memGet (memWrites (memWrite m w.1 w.2) ws) a = _
    rw [ih _ (fun w hw => h w (by simp [hw])), memGet_memWrite_outside _ _ _ _ (h w (by simp))]

/-- A read of one more octet. -/
theorem memRead_cons (m : List Host.Cell) (a n : Nat) : memRead m a (n + 1) = memGet m a :: memRead m (a + 1) n := by
  simp [memRead, List.range_succ_eq_map, List.map_map, Function.comp_def, Nat.add_assoc, Nat.add_comm 1]

/-- Octets just written read back. -/
theorem memRead_memWrite (bs : List Byte) : ∀ (m : List Host.Cell) (a : Nat), Memory.wf m = true → memRead (memWrite m a bs) a bs.length = bs := by
  induction bs with
  | nil => intros; rfl
  | cons b bs ih =>
    intro m a h
    rw [List.length_cons, memRead_cons]
    unfold memWrite
    rw [ih _ _ (memSet_wf a b h), memGet_memWrite_outside bs _ _ _ (Or.inl (by omega)), memGet_memSet_same a b h]

end Sys2Proof.Machine
end

