-- ==== Sys2Proof/Laws/Registers.lean ====
section
/-! SUPPORT. Reads after writes of register fields and counters, and what the end of a command leaves. -/

namespace Sys2Proof.Machine
open Sys2Proof

/-- A field just written reads back cut to its width. -/
theorem Dev.get_put_same (d : Dev) (f : Fld) (p : Page) (v i : Nat) : (d.put f p v i).get f p i = trunc f.width v := by
  unfold Dev.put Dev.get RegFile.set RegFile.get
  cases h : f.acc <;> simp

/-- A write leaves every field with another key as it was. -/
theorem Dev.get_put_other (d : Dev) (f f' : Fld) (p p' : Page) (v i i' : Nat) (h : f'.key p' i' ≠ f.key p i) :
    (d.put f p v i).get f' p' i' = d.get f' p' i' := by
  unfold Dev.put Dev.get RegFile.set RegFile.get
  cases f.acc <;> cases f'.acc <;> simp [kvGet_kvSet_other, h]

/-- The same for a field named by die and instance. -/
theorem Dev.g_w_same (d : Dev) (f : Fld) (v die inst i : Nat) : (d.w f v die inst i).g f die inst i = trunc f.width v :=
  d.get_put_same f _ v i

/-- The same for another field named by die and instance. -/
theorem Dev.g_w_other (d : Dev) (f f' : Fld) (v die inst i die' inst' i' : Nat) (h : f'.key (f'.page die' inst') i' ≠ f.key (f.page die inst) i) :
    (d.w f v die inst i).g f' die' inst' i' = d.g f' die' inst' i' := d.get_put_other f f' _ _ v i i' h

/-- A counter after an addition. -/
theorem Dev.ctr_addc_same (d : Dev) (c : Ctr) (n die inst i : Nat) :
    (d.addc c n die inst i).ctr c die inst i = satAdd ctrCap (d.ctr c die inst i) n := by
  simp [Dev.addc, Dev.ctr]

/-- Another counter after an addition. -/
theorem Dev.ctr_addc_other (d : Dev) (c c' : Ctr) (n die inst i die' inst' i' : Nat)
    (h : c'.key ⟨c'.tag, die', inst'⟩ i' ≠ c.key ⟨c.tag, die, inst⟩ i) :
    (d.addc c n die inst i).ctr c' die' inst' i' = d.ctr c' die' inst' i' := by
  simp [Dev.addc, Dev.ctr, kvGet_kvSet_other, h]

/-- A register field after a counter's addition. -/
@[simp] theorem Dev.get_addc (d : Dev) (c : Ctr) (n die inst i : Nat) (f : Fld) (p : Page) (j : Nat) :
    (d.addc c n die inst i).get f p j = d.get f p j := by
  unfold Dev.addc Dev.get RegFile.get
  cases f.acc <;> rfl

/-- The same by die and instance. -/
@[simp] theorem Dev.g_addc (d : Dev) (c : Ctr) (n die inst i : Nat) (f : Fld) (die' inst' j : Nat) :
    (d.addc c n die inst i).g f die' inst' j = d.g f die' inst' j := d.get_addc c n die inst i f _ j

/-- The same for one event counted. -/
@[simp] theorem Dev.g_inc (d : Dev) (c : Ctr) (die inst i : Nat) (f : Fld) (die' inst' j : Nat) :
    (d.inc c die inst i).g f die' inst' j = d.g f die' inst' j := d.g_addc c 1 die inst i f die' inst' j

/-- What goes out on an interface leaves the registers. -/
@[simp] theorem Dev.g_emit (d : Dev) (o : Out) (f : Fld) (die inst i : Nat) : (d.emit o).g f die inst i = d.g f die inst i := rfl

/-- Nothing falls due: the command's end leaves the device. -/
theorem Dev.settle_none {d : Dev} (h0 : d.pwr.inReset = false) (h : d.pwr.resetDue = none) : d.settle = d := by
  unfold Dev.settle; rw [if_neg (by simp [h0]), h]

/-- A reset that falls due takes hold at the command's end. -/
theorem Dev.settle_some {d : Dev} {c : Nat} (h0 : d.pwr.inReset = false) (h : d.pwr.resetDue = some c) : d.settle = d.chipReset c := by
  unfold Dev.settle; rw [if_neg (by simp [h0]), h]

/-- After a command's end nothing is due. -/
@[simp] theorem Dev.settle_settled (d : Dev) : d.settle.pwr.resetDue = none := by
  unfold Dev.settle
  split
  · rfl
  · split
    · rfl
    · assumption

/-- A command over the device alone. -/
theorem run_eq (s : State) (f : Dev → Dev) : run s f = .next { s with dev := (f s.dev).settle } := rfl

/-- A command that may write host memory. -/
theorem runHost_eq (s : State) (f : List Host.Cell → Dev → Dev × List (Nat × List Byte)) :
    runHost s f = .next { s with dev := (f s.host s.dev).1.settle, host := memWrites s.host (f s.host s.dev).2 } := rfl

/-- The shape of every command's answer: the queue stays, host memory takes the command's writes, and nothing is due. -/
theorem exec_shape (c : Instr) (s : State) :
    ∃ (d : Dev) (ws : List (Nat × List Byte)), exec c s = .next { s with dev := d.settle, host := memWrites s.host ws } := by
  cases c <;> first | exact ⟨_, [], rfl⟩ | exact ⟨_, _, rfl⟩

/-- What a command over the device alone does, apart from the queue. -/
theorem run_fun (k : Dev → Dev) : ∃ (f : List Host.Cell → Dev → Dev) (g : List Host.Cell → Dev → List (Nat × List Byte)), ∀ (q : List Instr) (h : List Host.Cell) (d : Dev),
    run ⟨q, h, d⟩ k = .next ⟨q, memWrites h (g h d), (f h d).settle⟩ := ⟨fun _ d => k d, fun _ _ => [], fun _ _ _ => rfl⟩

/-- The same for one that reads host memory. -/
theorem runH_fun (k : List Host.Cell → Dev → Dev) : ∃ (f : List Host.Cell → Dev → Dev) (g : List Host.Cell → Dev → List (Nat × List Byte)), ∀ (q : List Instr) (h : List Host.Cell) (d : Dev),
    run ⟨q, h, d⟩ (k h) = .next ⟨q, memWrites h (g h d), (f h d).settle⟩ := ⟨k, fun _ _ => [], fun _ _ _ => rfl⟩

/-- The same for one that may write it. -/
theorem runHost_fun (k : List Host.Cell → Dev → Dev × List (Nat × List Byte)) : ∃ (f : List Host.Cell → Dev → Dev) (g : List Host.Cell → Dev → List (Nat × List Byte)), ∀ (q : List Instr) (h : List Host.Cell) (d : Dev),
    runHost ⟨q, h, d⟩ k = .next ⟨q, memWrites h (g h d), (f h d).settle⟩ :=
  ⟨fun h d => (k h d).1, fun h d => (k h d).2, fun _ _ _ => rfl⟩

/-- Every command is a function of device and host memory; the queue stays, and nothing is due at its end. -/
theorem exec_fun (i : Instr) : ∃ (f : List Host.Cell → Dev → Dev) (g : List Host.Cell → Dev → List (Nat × List Byte)), ∀ (q : List Instr) (h : List Host.Cell) (d : Dev),
    exec i ⟨q, h, d⟩ = .next ⟨q, memWrites h (g h d), (f h d).settle⟩ := by
  cases i <;> (dsimp only [exec]; first
    | exact run_fun _
    | exact runHost_fun _
    | (dsimp only [execHostCmd, execNodeWrite, execFwdAdd, execFwdDelete, execQueueSet, execPolicerSet, execGwRuleSet, execGwFreshSet, execGwInject,
        execFabSend, execClaimSet, execDebugUnlock, execUpdWrite, execCfgWrite, execCmpImgLoad, execCmpSet, execCmpMembers]
       exact runH_fun _))

/-- After a tick nothing is due. -/
theorem Dev.idle_settled (d : Dev) : d.idle.pwr.resetDue = none := Dev.settle_settled _

/-- A write of a live copy leaves what the host reads of a field with another key. -/
theorem Dev.getS_put_other (d : Dev) (f f' : Fld) (p p' : Page) (v i i' : Nat) (h : f'.key p' i' ≠ f.key p i) :
    (d.put f p v i).getS f' p' i' = d.getS f' p' i' := by
  unfold Dev.put Dev.getS RegFile.set RegFile.getS
  cases f.acc <;> cases f'.acc <;> simp [kvGet_kvSet_other, h]

end Sys2Proof.Machine
end

