-- ==== Sys2Proof/Laws/Tokens.lean ====
section
/-! SUPPORT. Operations that leave the maintenance tokens alone, and what a grant adds to them. -/

namespace Sys2Proof.Machine
open Sys2Proof

/-- A fold of operations that leave the tokens alone. -/
theorem Dev.each_mt {α : Type} (l : List α) (f : Dev → α → Dev) (h : ∀ d a, (f d a).mt = d.mt) : ∀ d : Dev, (d.each l f).mt = d.mt := by
  unfold Dev.each
  induction l with
  | nil => intro d; rfl
  | cons a l ih => intro d; rw [List.foldl_cons, ih, h]
/-- A conditional one. -/
theorem Dev.when_mt (d : Dev) (b : Bool) (f : Dev → Dev) (h : (f d).mt = d.mt) : (d.when b f).mt = d.mt := by unfold Dev.when; split <;> simp [h]
@[simp] theorem Dev.fireVec_mt (d : Dev) (v : Nat) : (d.fireVec v).mt = d.mt := by unfold Dev.fireVec; split <;> rfl
@[simp] theorem Dev.logPut_mt (d : Dev) (c s x : Nat) (b : List Byte) : (d.logPut c s x b).mt = d.mt := by
  unfold Dev.logPut; dsimp only
  rw [Dev.when_mt _ _ _ (by simp), Dev.inc_mt, Dev.when_mt _ _ _ (by simp)]; rfl
@[simp] theorem Dev.logRec_mt (d : Dev) (c s x : Nat) (b : List Byte) : (d.logRec c s x b).mt = d.mt := by
  unfold Dev.logRec; dsimp only
  generalize (if s < 3 then logRamCap - logRamKept else logRamCap) = room
  generalize (if (d.log.lost == 0) = true then 1 else 2) = need
  split
  · rw [Dev.logPut_mt, Dev.when_mt]; simp
  · rfl
@[simp] theorem Dev.fclRecord_mt (d : Dev) (a b c e : Fld) (p : Page) (n : Nat) : (d.fclRecord a b c e p n).mt = d.mt := rfl
@[simp] theorem Dev.pin_mt (d : Dev) (p : Page) : (d.pinUpdate p).mt = d.mt := by
  unfold Dev.pinUpdate; split
  · unfold Dev.collectUp; split <;> rfl
  · rfl
@[simp] theorem Dev.softReset_mt (d : Dev) (p : Page) (b : Bool) : (d.softReset p b).mt = d.mt := by unfold Dev.softReset; dsimp only; rw [Dev.put_mt]
@[simp] theorem Dev.errN_mt (d : Dev) : d.errNFollow.mt = d.mt := by unfold Dev.errNFollow; rw [Dev.w_mt]
@[simp] theorem Dev.resetSoon_mt (d : Dev) (c : Nat) : (d.resetSoon c).mt = d.mt := rfl
@[simp] theorem Dev.reaction_mt (d : Dev) (p : Page) (n c : Nat) : (d.reaction p n c).mt = d.mt := by
  unfold Dev.reaction; dsimp only
  have h : ((((d.when (c != 0 && !d.on F.FCL.FIRST_VALID) (fun d => d.fclRecord F.FCL.FIRST_DIE F.FCL.FIRST_PAGE F.FCL.FIRST_SRC F.FCL.FIRST_VALID p n)).pinUpdate p).when
      (2 ≤ c && c ≤ 5) (fun d => d.logRec 0x0201 (if 4 ≤ c then 3 else 2) p.die (stickyData p n c)))).mt = d.mt := by
    rw [Dev.when_mt _ _ _ (by simp), Dev.pin_mt, Dev.when_mt _ _ _ (by simp)]
  split
  · rw [Dev.fireVec_mt, Dev.inc_mt, h]
  · rw [Dev.inc_mt, Dev.inc_mt, h]
  · rw [Dev.softReset_mt, Dev.inc_mt, h]
  · rw [Dev.resetSoon_mt, Dev.fclRecord_mt, h]
  · rw [Dev.errN_mt, Dev.w_mt, Dev.inc_mt, h]
  · exact h
@[simp] theorem Dev.raiseAt_mt (d : Dev) (p : Page) (n : Nat) : (d.raiseAt p n).mt = d.mt := by
  unfold Dev.raiseAt; split
  · rfl
  · split
    · rfl
    · simp
@[simp] theorem Dev.raise_mt (d : Dev) (e : Src) (x y : Nat) : (d.raise e x y).mt = d.mt := Dev.raiseAt_mt d _ _
@[simp] theorem Dev.vxlSend_mt (d : Dev) (l : Nat) (f : List Byte) : (d.vxlSend l f).mt = d.mt := rfl
@[simp] theorem Dev.hudSend_mt (d : Dev) (l : Nat) (f : List Byte) : (d.hudSend l f).mt = d.mt := rfl
@[simp] theorem Dev.keepLsa_mt (d : Dev) (r : LsaRec) : (d.keepLsa r).mt = d.mt := rfl
@[simp] theorem Dev.originate_mt (d : Dev) : d.originate.mt = d.mt := by
  unfold Dev.originate; split
  · rfl
  · dsimp only; rw [Dev.each_mt _ _ (by simp)]; rfl
@[simp] theorem Dev.setSettled_mt (d : Dev) (b : Bool) : (d.setSettled b).mt = d.mt := by
  unfold Dev.setSettled; split
  · rfl
  · dsimp only; rw [Dev.when_mt _ _ _ rfl]; simp
@[simp] theorem Dev.takeId_mt (d : Dev) (i : Nat) : (d.takeId i).mt = d.mt := by
  unfold Dev.takeId; dsimp only; split <;> simp
@[simp] theorem Dev.changeId_mt (d : Dev) (i : Nat) : (d.changeId i).mt = d.mt := by
  unfold Dev.changeId; dsimp only; rw [Dev.originate_mt, Dev.when_mt _ _ _ (by simp)]; simp
@[simp] theorem Dev.startHuddle_mt (d : Dev) : d.startHuddle.mt = d.mt := by unfold Dev.startHuddle; simp
@[simp] theorem Dev.rehuddle_mt (d : Dev) : d.rehuddle.mt = d.mt := by
  unfold Dev.rehuddle; dsimp only; split
  · simp
  · split <;> simp

@[simp] theorem Dev.showTokens_mt (d : Dev) : d.showTokens.mt = d.mt := by
  unfold Dev.showTokens; dsimp only
  rw [Dev.w_mt, Dev.w_mt, Dev.each_mt _ _ (by simp), Dev.each_mt _ _ (by simp)]
@[simp] theorem Dev.showMaint_mt (d : Dev) (m : Nat) : (d.showMaint m).mt = d.mt := by
  unfold Dev.showMaint
  rw [Dev.each_mt]
  intro d p; rfl
@[simp] theorem Dev.showRx_mt (d : Dev) (x : Nat) : (d.showRx x).mt = d.mt := by
  unfold Dev.showRx
  dsimp only; rw [Dev.each_mt _ _ (by intro d a; rfl), Dev.each_mt _ _ (by intro d a; rfl)]
@[simp] theorem Dev.abandonAll_mt (d : Dev) (x : Nat) (b : Bool) : (d.abandonAll x b).mt = d.mt := by
  unfold Dev.abandonAll; dsimp only
  rw [Dev.showRx_mt, Dev.setAir_mt, Dev.each_mt]; simp
@[simp] theorem Dev.showChains_mt (d : Dev) (x : Nat) : (d.showChains x).mt = d.mt := rfl
@[simp] theorem Dev.bandTo_mt (d : Dev) (x st : Nat) : (d.bandTo x st).mt = d.mt := by
  unfold Dev.bandTo; dsimp only
  rw [Dev.when_mt _ _ _ (by simp), Dev.showChains_mt, Dev.when_mt _ _ _ (by simp)]; rfl
@[simp] theorem Dev.rxCalKick_mt (d : Dev) (x : Nat) : (d.rxCalKick x).mt = d.mt := by unfold Dev.rxCalKick; split <;> simp
@[simp] theorem Dev.setChain_mt (d : Dev) (x c : Nat) (f : TxChain → TxChain) : (d.setChain x c f).mt = d.mt := rfl
@[simp] theorem Dev.calKick_mt (d : Dev) (x : Nat) : (d.calKick x).mt = d.mt := by
  unfold Dev.calKick; split
  · rfl
  · split
    · rfl
    · split <;> rfl
@[simp] theorem Dev.onGrant_mt (d : Dev) (r : TokenReq) : (d.onGrant r).mt = d.mt := by
  unfold Dev.onGrant; dsimp only
  split
  · split
    · simp
    · rw [Dev.calKick_mt, Dev.each_mt]
      intro d c; repeat' split
      all_goals rfl
  · rfl
  · split <;> rfl
  · rfl
  · rw [Dev.rehuddle_mt, Dev.w_mt]
  · rfl
  · rfl
  · rfl

/-- A grant adds its request to the holders. -/
theorem Dev.grant_held (d : Dev) (r : TokenReq) : (d.grant r).mt.held = d.mt.held ++ [r] := by
  unfold Dev.grant; dsimp only
  rw [Dev.when_mt]
  · rw [Dev.onGrant_mt]; rfl
  · cases r.cmd <;> simp

end Sys2Proof.Machine
end

