-- ==== Sys2Proof/Machine/Outputs.lean ====
section
/-! DEFINITION. The outputs of Table 2-9: the rail that feeds each, and the level of each while that rail is off, in reset, in DOZE and while the device
works (R41, R43, R44). -/

namespace Sys2Proof.Machine
open Sys2Proof

/-- An output ball of Tables 2-3 to 2-6, by its row of Table 2-9. Chains are numbered as in `Pins`: low-band 0 to 3, then high-band. -/
inductive Ball where
  | ant (chain : Nat) | trsw (chain : Nat) | paEn (chain : Nat) | paBias (chain : Nat) | rfsw (high : Bool)
  | poss | umpHb | errN | linkTx | mdc | mdio | phyRst | clkreqN | wakeN
  | ddrResetN | ddrCa | ddrCs | ddrCk | flCsN | flResetN
  | canTxd (bus : Nat) | canStb (bus : Nat) | ppsOut | pmbScl | pmbSda | gpio (n : Nat) | tdo | dbgTx
  deriving DecidableEq, Repr

/-- The rail that feeds an output, in the numbering of `Power.railsOff` (Tables 2-3 to 2-6). -/
def Ball.rail : Ball → Nat
  | .ant _ | .paBias _ => 6
  | .linkTx => 2
  | .ddrResetN => 4
  | .ddrCa | .ddrCs | .ddrCk => 5
  | .mdc | .mdio | .flCsN | .flResetN | .pmbScl | .pmbSda | .tdo | .dbgTx => 8
  | .trsw _ | .paEn _ | .rfsw _ | .poss | .umpHb | .errN | .phyRst | .clkreqN | .wakeN | .canTxd _ | .canStb _ | .ppsOut | .gpio _ => 9

/-- High where a pin's bit is set, low where it is not. -/
def levelOf (b : Bool) : Level := if b then .high else .low

/-- Whether the device holds its outputs in the Reset column: in reset, and from its release to boot. -/
def Dev.outputsReset (d : Dev) : Bool := d.pwr.inReset || d.pwr.bootDue

/-- Whether regions are gated for DOZE, which gives the outputs the DOZE column. -/
def Dev.dozing (d : Dev) : Bool := d.ms.dozeStep == 6

/-- The Reset column's level in reset, the DOZE column's in DOZE, and what the block drives otherwise. -/
def Dev.driven (d : Dev) (reset doze : Level) : Level := if d.outputsReset then reset else if d.dozing then doze else .active

/-- The level of an output while its rail is up: the columns Reset and DOZE of Table 2-9 and R44, or what the device drives. A released open-drain output
is high-impedance. CAN TXD is recessive, high, unless a controller sends. -/
def Dev.poweredLevel (d : Dev) : Ball → Level
  | .ant c => if bitOf d.pins.rfOut c then .active else .low
  | .trsw c => levelOf (bitOf d.pins.trsw c)
  | .paEn c => levelOf (bitOf d.pins.paEn c)
  | .paBias c => if d.pins.paBias.getD c 0 == 0 then .low else .active
  | .rfsw high => levelOf (bitOf d.pins.rfsw (b2n high))
  | .poss => if d.pins.possLow then .low else .hiz
  | .umpHb => d.driven .low .low
  | .errN => levelOf (!d.pins.errNLow)
  | .linkTx => if d.pins.linksIdle then .low else .active
  | .mdc | .mdio => d.driven .hiz .hiz
  | .phyRst => levelOf (!d.pins.phyRstLow)
  | .clkreqN => d.driven .hiz .hiz
  | .wakeN => if d.pins.wakeNLow then .low else .hiz
  | .ddrResetN => levelOf (!d.pins.ddrRstLow)
  | .ddrCa | .ddrCs | .ddrCk => d.driven .low .low
  | .flCsN => d.driven .high .high
  | .flResetN => levelOf (!d.pins.flRstLow)
  | .canTxd _ => d.driven .high .high
  | .canStb n => levelOf (bitOf d.pins.canStb n)
  | .ppsOut => levelOf d.pins.ppsOut
  | .pmbScl | .pmbSda => if d.outputsReset then .hiz else if d.avl.busy == 0 && d.dozing then .hiz else .active
  | .gpio _ => if d.outputsReset then .hiz else .active
  | .tdo => d.driven .hiz .active
  | .dbgTx => d.driven .hiz .high

/-- The level of an output: high-impedance once its supply is below the level of R41, its powered level otherwise (Table 2-9). -/
def Dev.ballLevel (d : Dev) (b : Ball) : Level := if bitOf d.pwr.railsOff b.rail then .hiz else d.poweredLevel b

end Sys2Proof.Machine
end

