-- ==== Sys2Proof/Tests/Slice0.lean ====
section
/-! SUPPORT. Tests: ill-formed terms that the checks of WellFormed refuse, one step on small states, and for every statement of Obligations states and
operands that meet its hypotheses. -/

set_option Elab.async false

namespace Sys2Proof.Tests
open Sys2Proof Sys2Proof.Machine Sys2Proof.Safety

/-! ## Small states -/

/-- A booted device in SERVICE with every region powered. -/
def up : Dev :=
  let d : Dev := { pwr := { powered := 0xFFFFFF, bootDue := false } }
  (d.w F.BTL.BOOT_STAT_DONE 1).w F.BTL.BOOT_STAT_MODE 2

/-- The same device in another mode. -/
def inMode (m : Nat) : Dev := up.w F.BTL.BOOT_STAT_MODE m

/-- A sequenced command numbered 0, with its opcode, TARGET, LENGTH, COUNT and the octets from 24 on. -/
def cmdOf (op target len cnt : Nat) (par : List Nat) : Cmd :=
  { id := 0, ring := 0, bytes := padTo 64 (toLE 2 op ++ toLE 1 target ++ toLE 1 0 ++ toLE 4 0 ++ toLE 4 len ++ toLE 4 cnt ++ toLE 8 0 ++
      par.map (fun x => BitVec.ofNat 8 x)),
    stage := .sequenced, toSeq := 0, seq := 0, discard := false, interim := false, cpl := ⟨0, 0, 0, 0⟩ }

/-- A device with one command in flight. -/
def flying (d : Dev) (c : Cmd) : Dev := { d with hl := { d.hl with inflight := [c] } }

/-- The device in a mode with one command in flight. -/
def st (mode : Nat) (c : Cmd) : State := { dev := flying (inMode mode) c }

/-- A device whose Route and Air dies are far above the pace target. -/
def fastDie : Dev :=
  let d := ((((up.w F.SNS.AVL_CTRL_EN 1).w F.SNS.AVL_CTRL_PERIOD 1).w F.SNS.AVL_TARGET_PACE 100).w F.SNS.AVL_LIMITS_CEIL 850).w F.SNS.AVL_LIMITS_FLOOR 600
  d.each [1, 2, 3, 4] (fun d x => d.w F.SNS.DIE_PACE_PACE 1000 0 0 x)

/-- The command with its outcome, waiting for its record. -/
def finished (c : Cmd) : Cmd := { c with stage := .finished }

/-- A device with a challenge, a debug key and the right answer in the data buffer. -/
def unlocking : State :=
  let c := cmdOf 0x0909 4 16 0 [4, 0]
  let d := { flying up c with
    cpt := { challenge := some (padTo 16 []) }
    vault := { keys := [⟨2 * 65536 + 4, 0, padTo 16 []⟩] } }
  { dev := d, host := memWrite [] 0 (aesCmac (padTo 16 []) (d.debugText (padTo 16 []) 0)) }

/-- The words of a programmed limit image of Band-H with one sub-band over the whole band and every cell allowed. -/
def limitWords : List (Nat × Nat) :=
  [(0, 4452), (1, 511 * 65536), (2, 100 + 1000 * 256 + 3600 * 2 ^ 18)] ++ (List.range 16).map (fun i => (17 + i, 0xFFFFFFFF))

/-- A device with no region powered. -/
def dark : Dev := { up with pwr := { up.pwr with powered := 0 } }

/-- A native transmission on channel 0 of Air-H, chain 0. -/
def sampleTx : Tx :=
  { id := 1, kind := 1, channel := 0, mode := 0, map := 0, mapWord := 0xAAAAAAAAAAAA, rate := 0, psdu := [], wakeCode := 0, wakeIdx := 0,
    power := none, start := 0, chain := 0, retune := false, cls := 0, who := .test }

/-- A native transmission from test control. -/
def sampleTest : TxSpec := { kind := 1, channel := 0 }

/-- A window of the mask monitor with more power in the next cell than in cell 0. -/
def maskWindow : List (Int × Nat) := [(0, 1), (1, 1000)]

/-- A device with that transmission handed over and its chain idle at its channel. -/
def starting : Dev :=
  let d := (up.w F.RSM.TX_STAT_STATE 1 6 0 0).setChain 6 0 (fun k => { k with tuned := some (0, 1) })
  let d := d.setFuse 6 (fun f => { f with state := 2, words := limitWords })
  d.setAir 4 (fun a => { a with handed := [sampleTx] })

/-- A device that receives native frames on channel 511 of Air-H. -/
def listening : Dev :=
  ((((up.w F.RSM.BAND_STAT_STATE 3 6).w F.DEM.CH_CFG_EN 1 4 15 31).w F.DEM.CH_CFG_PFAM 1 4 15 31).w F.DEM.DET_CFG_CFO_MAX 10 4 15).w F.DEM.CH_CFG_MODE 0 4 15 31

/-- A reception on channel 511, with or without its SIG. -/
def recepOf (sig : Bool) : Recep :=
  { id := 1, channel := 511, family := 0, tref := 0, snr := 100, cfo := 0, chains := 255, role := 0, sic := false, partner := 0, ended := none,
    sig := sig, map := 0, mapWord := 0xAAAAAAAAAAAA, rate := 0, length := 2 }

/-- A long weaker frame whose stronger frame overlapped all of it. -/
def longOver : Recep :=
  { recepOf true with role := 2, ended := some true, length := 250, mapWord := 0x555555555555, spans := [(0, 10 ^ 9)] }

/-- A device with that reception under way. -/
def hearing (sig : Bool) : Dev := (listening.w F.CMB.CFG_MAX_SYM 1000 4).setAir 4 (fun a => { a with receps := [recepOf sig] })

/-- A SIG of map 0, rate 0 and length 2 with its check. -/
def goodSig : Nat := sigOf 0 0 2

/-- What the decoder gives for a frame of two octets that are the FCS of nothing, and for one whose FCS is wrong. -/
def goodFrame : DecodeEnv := { bits := scramble 0x5D (toLE 2 (fcs16 [])) }
/-- See `goodFrame`. -/
def badFrame : DecodeEnv := { bits := scramble 0x5D (toLE 2 (fcs16 [] + 1)) }

/-- A frame on its way to the air MAC. -/
def sampleRx : RxFrame :=
  { band := 1, channel := 511, family := 0, role := 0, nov := 0, map := 0, rate := 0, tref := 0, snr := 100, cfo := 0, chains := 255, recMap := 0,
    noFit := false, psdu := [] }

/-- A commit of a demodulator page that waits for two channels. -/
def demCommit : PendCommit := { tag := .DEM, die := 4, inst := 15, snap := [], deferred := false }

/-- A device in which that commit waits. -/
def demWaiting : Dev := { up.setAir 4 (fun a => { a with demWait := [510, 511] }) with commits := [demCommit] }


/-- A downlink for the node of tag 1 of tenant 0. -/
def sampleDl : DlFrame :=
  { id := 1, tag := 1, tenant := 0, epoch := 0, fcnt := 0, micl := 0, enc := true, nh := 0, payload := [], psdu := [], cls := 0, cells := 1, sends := 0,
    onAir := false }

/-- The entry of that node: of class W, with the listen slot 0 of Band-H. -/
def classNode : NodeEnt :=
  { pos := 0, key := ⟨1, 0⟩, det := { classW := true, assigned := true, aBand := 1, listen := true } }

/-- The Route die that owns that node, which is also its TARGET value. -/
def nodeDie : Nat := (⟨1, 0⟩ : NodeKey).owner

/-- A device that knows the node. -/
def knowing : Dev := up.setRoute nodeDie (fun r => { r with nodes := [classNode] })

/-- A device in the listen slot of the node, with its downlink. -/
def listenSlot : Dev := knowing.setAir 4 (fun a => { a with slot := 1, slotStart := 1000000, dl := [sampleDl] })

/-- A node command for that node. -/
def nodeCmd (op len : Nat) : Cmd := cmdOf op nodeDie len 0 [1, 0, 0, 0, 0, 0]

/-- A PLAN_SET for it on slot 50 and channel 511 of Band-H. -/
def planCmd : Cmd := cmdOf 0x0401 nodeDie 0 0 [1, 0, 0, 0, 0, 0, 50, 0, 255, 129]

/-- A device that knows the node and has that slot and channel. -/
def planning : Dev :=
  (((knowing.w F.DEM.CH_CFG_EN 1 4 15 31).w F.AMC.BCN_CH_EN 1 4).w F.AMC.SF_CFG_LEN 100 4).w F.DEM.CH_CFG_MODE 0 4 15 31

/-- The TARGET value of the owner of the legacy node with short address 5. -/
def releaseTarget : Nat := (⟨0xFFFF0005, 0⟩ : NodeKey).owner

/-- A legacy command frame from the extended address 7 on channel 511, secured where it is a Disassociation Notification. -/
def legacyRx (n : Nat) : RxFrame :=
  let h := toLE 2 (3 + flag (n == 3) 3 + 3 * 2 ^ 14) ++ toLE 1 1 ++ toLE 2 0 ++ toLE 8 7
  let a := h ++ toLE 1 13 ++ toLE 4 1 ++ toLE 1 1 ++ toLE 1 n
  let c := ccmSeal (legKey (padTo 16 []) 7 1) (legNonce 7 1 5) a [0x01#8] 4 true
  { sampleRx with family := 5, psdu := up.legFcs 4 (if n == 3 then a ++ c.1 ++ c.2 else h ++ toLE 1 n ++ [0x00#8]) }

/-- A device with a legacy PAN on channel 511 of Band-H that has received such a frame. -/
def legacyUp (n : Nat) : Dev :=
  let d := ((up.w F.AMC.LEG_PAN_EN 1 4).w F.AMC.LEG_GANG_LEADER 511 4).w F.AMC.LEG_CFG_CLOSED 1 4
  let d := d.setAir 4 (fun a => { a with macIn := [legacyRx n], leg := if n == 3 then [⟨5, 7, 0, 1⟩] else [] })
  { d with vault := { keys := [⟨0, 0, padTo 16 []⟩] } }

/-- A device in which LEG_RELEASE runs for the node with short address 5 of a tenant with a root; with an entry, its downlink counter has run out. -/
def releasing (entry : Bool) : Dev :=
  let d := (flying up (cmdOf 0x0405 releaseTarget 0 0 [5, 0])).setAir 3 (fun a => { a with leg := [⟨5, 7, 0, 1⟩] })
  let e : NodeEnt := { pos := 0, key := ⟨0xFFFF0005, 0⟩, det := { dlFcnt := 0xFFFFFFFF } }
  let d := if entry then d.setRoute releaseTarget (fun r => { r with nodes := [e] }) else d
  { d with vault := { keys := [⟨0, 0, padTo 16 []⟩] } }

/-- A beacon of another border router. -/
def beaconRx : RxFrame := { sampleRx with family := 2, psdu := padTo 18 (toLE 2 0 ++ toLE 4 9) }

/-- The header of that frame. -/
def legacyHdr (n : Nat) : LegHdr := (legHdr (legacyRx n).mac).getD ⟨0, false, false, 0, 0, 0, 0, 0, 0, 0, 0, 0, 0, 0, 0⟩

/-- An air frame on its way to its play. -/
def sampleIn : AirIn :=
  { band := 1, ch := 0, psdu := [], tref := 0, fin := 0, snr := 0, map := 0, rate := 0, recMap := 0, noFit := false, slot := 0, sf := 0, offs := 0,
    leg := false, key := ⟨1, 0⟩, ext := 0, secBad := false, buf := 1 }

/-- An Ethernet frame on its way to the forwarding play. -/
def sampleFwd : FwdIn :=
  { port := 0, dev := none, data := [], ip := false, own := false, flood := false, time := 0, cls := none, sub := none, buf := 1 }

/-- A learned address of port 0. -/
def sampleFwdEnt : FwdEnt :=
  { pos := 0, kind := 0, ver := false, static := false, plen := 0, vlan := 0, key := 1, age := 0, port := 0, dest := 0, action := 0, dev := 0, sub := 0,
    cls := 0, clsEn := false, nhMac := 0 }

/-- A frame of a node that is not resident. -/
def sampleSlow : SlowOp := .frame sampleIn

/-- A rehash of the node table at its first bucket. -/
def sampleMig : Migration := { table := 0, seed := 1, pos := 0, cmd := 0, bad := 0 }

/-- A device with the first Route die changed. -/
def placing (f : Route → Route) : Dev := up.setRoute 1 f

/-- The same with every crypto engine of that die at work. -/
def noEngines (d : Dev) : Dev :=
  d.setRoute 1 (fun r => { r with jobs := (List.range 20).map (fun i => { id := i, region := i / 5, engine := i % 5 }) })

/-- A commit of the first Route die's sequencer page. -/
def routeCommit : PendCommit := { tag := .ING, die := 1, inst := 0, snap := [], deferred := false }

/-- A commit of the first Route die's scheduler page that loads the lineup of port 0. -/
def lineupCommit : PendCommit := { tag := .SCH, die := 1, inst := 0, snap := [(F.SCH.LUP_CTRL_LOAD.key ⟨.SCH, 1, 0⟩ 0, 1)], deferred := false }

/-- A packet in a queue. -/
def samplePkt : Pkt := { buf := 1, data := [], time := 0, seq := 0, cls := 0, cells := 1 }

/-- The first fixed queue of the host port, with that packet. -/
def fullQueue : Queue := { num := 16384 + 16 * 26, port := 26, en := true, pkts := [samplePkt] }

/-- A device with the link of port 15 up. -/
def ethOn : Dev := ((up.w F.ETH.STAT_LINK 1 0 15).w F.ETH.MODE_PCS 1 0 15)

/-- A frame of 64 octets with its FCS. -/
def minFrame : List Byte := List.replicate 60 0#8 ++ toLE 4 (crc32eth (List.replicate 60 0#8))

/-- A device with the controller of bus 31 in normal operation. -/
def onBus : Dev := up.setCan 31 (fun c => { c with op := 1 })

/-- The same with one transmit entry. -/
def canEnt (x : CanTx) : Dev := onBus.setCan 31 (fun c => { c with tx := [x] })

/-- A pending entry of bus 31 with a launch time. -/
def timedEnt : CanTx := { idx := 63, bytes := padTo 80 (toLE 4 0 ++ toLE 2 0xFFFF), st := 1 }

/-- A classical frame that a controller receives. -/
def sampleCan : CanRx := { id := 5, ide := false, dlc := 0, data := [] }

/-- A frame of a bus on its way to the gateway. -/
def sampleCf (src : Nat) : CanFrame := { id := 5, ide := false, fd := false, brs := false, rtr := false, data := [], src := src, time := 0 }

/-- A gateway event of a frame of bus 31. -/
def sampleGw : GwEv := { seq := 0, ing := 31, bus := 0, frame := sampleCf 31 }

/-- A PDU of stream 0 without messages. -/
def acfPkt : Pkt := { samplePkt with data := List.replicate 12 0#8 ++ toBE 2 0x22F0 ++ toLE 1 0x82 ++ toLE 2 0 ++ toLE 1 0 ++ toBE 8 0 }

/-- A device with stream 0 open and that PDU waiting. -/
def acfUp : Dev := { up.w F.GWY.ST_CFG_DIR 1 with gw := { up.gw with pdus := [acfPkt] } }

/-- A device whose link 7 is enabled and in a state. -/
def linkIn (n : Nat) : Dev := ((up.w F.VXL.CFG_EN 1 0 7).w F.VXL.STAT_STATE n 0 7).w F.VXL.LANE_STAT_MAP1 1 0 7

/-- A data frame of the fabric with one octet. -/
def fabFrame : List Byte :=
  let h := List.replicate 4 0#8 ++ toBE 2 1 ++ List.replicate 8 0#8
  let b := h ++ toBE 2 (crc16h h) ++ [0#8]
  b ++ toBE 4 (crc32cStd b)

/-- A member of a pair in a twin state and a mode. -/
def twinIn (state mode : Nat) : Dev := ((inMode mode).w F.TWN.CFG_EN 1).w F.TWN.STAT_STATE state

/-- A holder in SOLO with its partner detached and the twin link up. -/
def forming : Dev := (((twinIn 1 2).w F.TWN.STAT_POSS_HELD 1).w F.TWN.STAT_LINK_UP 1).w F.TWN.STAT_PARTNER 4

/-- A configuration blob without entries. -/
def smallBlob : List Byte :=
  let b := toLE 4 0x43474C42 ++ toLE 4 36 ++ toLE 2 0xFFFF ++ toLE 6 0 ++ toLE 1 1 ++ toLE 1 0 ++ toLE 2 0 ++ toLE 4 15 ++ toLE 4 0 ++ toLE 4 0
  b ++ toLE 4 (crc32cStd b)

/-- A CFG_WRITE of it against the running set. -/
def blobCmd : Cmd := cmdOf 0x0A08 4 36 0 [0]

/-- A campaign record on slot 50 and channel 511 of Band-H. -/
def campBody : List Byte :=
  padTo 64 (toLE 2 0 ++ toLE 1 0 ++ toLE 1 65 ++ toLE 4 0 ++ toLE 1 0 ++ toLE 1 0 ++ toLE 2 0 ++ toLE 2 511 ++ toLE 2 50 ++ toLE 1 1 ++ toLE 1 1 ++
    toLE 2 0 ++ toLE 2 0 ++ toLE 2 1 ++ toLE 4 0 ++ toLE 4 0 ++ toLE 1 100 ++ toLE 1 0)

/-- Campaign 1 with that record in a state, with one block to send. -/
def campIn (n : Nat) : Camp := { cid := 1, body := campBody, state := n, send := [0] }

/-- A device that knows the node of tag 1 with the campaign in a state, or none for state 0. -/
def campDev (n : Nat) : Dev := { planning with cmp := { images := [⟨0, [], []⟩], list := if n == 0 then [] else [campIn n] } }

/-- The device in the campaign's slot, with its tenant's root. -/
def campSending : Dev :=
  let d := (campDev 3).setAir 4 (fun a => { a with running := true, slot := 50 })
  { d with vault := { keys := [⟨0, 0, padTo 16 []⟩] } }

/-- The same device with its tenant's downlink meter empty. -/
def campMetered : Dev :=
  campSending.setMeter 1 2 0 { en := true, cir := 1, cbs := 1 }

/-- A CMP_CTRL of campaign 1. -/
def ctrlCmd (op : Nat) : Cmd := cmdOf 0x0B05 1 0 0 [1, op]

/-- A device that receives on the channel of a unit whose substitution holds its token. -/
def receivingUnit : Dev := { hearing true with mt := { held := [⟨2, 16, none, substArg 2 4 541 2⟩] } }

/-- A device with link 0 in UP and a substitution of its lane 0 that holds its token. -/
def lanePending : Dev :=
  { (up.w F.VXL.CFG_EN 1 0 0).w F.VXL.STAT_STATE 4 0 0 with mt := { held := [⟨2, 16, none, substArg 5 0 0 2⟩] } }

/-- A device whose ring 3 has a command for Route-0, which has no room for it. -/
def fullRing : State :=
  { dev := { (up.w F.HST.CR_CFG_WEIGHT 1 0 0 3).w F.HST.CR_TAIL_IDX 1 0 0 3 with hl := { inflight := List.replicate 192 (cmdOf 1 1 0 0 []) } },
    host := memWrite [] 2 [1#8] }
/-! ## What WellFormed refuses -/

theorem test_refuses_1 :
    (Instr.supplyMonitorTrip ⟨6, 0⟩).wf = false ∧
    (Instr.supplyMonitorReturn 6).wf = false ∧
    (Instr.resetReq 4294967296).wf = false ∧
    (Instr.ledgerClr 4294967296).wf = false ∧
    (Instr.tamperFire 7).wf = false ∧
    (Instr.pmbAlert 65536).wf = false ∧
    (Instr.sensorPublish [] (List.replicate 12 0)).wf = false ∧
    (Instr.sensorPublish (List.replicate 24 0) []).wf = false ∧
    (Instr.latchingRead 16777216).wf = false ∧
    (Instr.registerWrite 16777216 0 4).wf = false ∧
    (Instr.registerWrite 0 18446744073709551616 4).wf = false ∧
    (Instr.registerWrite 0 0 2).wf = false ∧
    (Instr.readClear ⟨2 ^ 24, 4⟩).wf = false ∧
    (Instr.readClear ⟨0, 2⟩).wf = false := by decide +kernel

theorem test_refuses_2 :
    (Instr.bar2Access false 16777216 4).wf = false ∧
    (Instr.bar2Access false 0 2).wf = false ∧
    (Instr.blockSoftReset 8 0).wf = false ∧
    (Instr.blockSoftReset 0 512).wf = false ∧
    (Instr.softResetDone 7 0).wf = false ∧
    (Instr.softResetDone 0 512).wf = false ∧
    (Instr.stickyClear 8 0 0).wf = false ∧
    (Instr.stickyClear 0 512 0).wf = false ∧
    (Instr.stickyClear 0 0 4294967296).wf = false ∧
    (Instr.reactCodeWrite 8 0 false 0).wf = false ∧
    (Instr.reactCodeWrite 0 512 false 0).wf = false ∧
    (Instr.reactCodeWrite 0 0 false 4294967296).wf = false ∧
    (Instr.doorbell 4 0).wf = false ∧
    (Instr.doorbell 0 4294967296).wf = false := by decide +kernel

theorem test_refuses_3 :
    (Instr.ringResume 4).wf = false ∧
    (Instr.cqHeadWrite 4294967296).wf = false ∧
    (Instr.bandLoLocked 4).wf = false ∧
    (Instr.rsmResumeBand 4).wf = false ∧
    (Instr.txTuneRequest 4 0 0 false).wf = false ∧
    (Instr.txTuneRequest 5 4 0 false).wf = false ∧
    (Instr.txTuneRequest 5 0 512 false).wf = false ∧
    (Instr.txSynthLocked 4 0).wf = false ∧
    (Instr.txSynthLocked 5 4).wf = false ∧
    (Instr.rsmResumeTx 4 0).wf = false ∧
    (Instr.rsmResumeTx 5 16).wf = false ∧
    (Instr.lockDataWrite 4 0).wf = false ∧
    (Instr.lockDataWrite 5 4294967296).wf = false ∧
    (Instr.lockGo 4 0).wf = false := by decide +kernel

theorem test_refuses_4 :
    (Instr.lockGo 5 4294967296).wf = false ∧
    (Instr.lockProgramDone 4 none).wf = false ∧
    (Instr.lockProgramDone 5 (some 157)).wf = false ∧
    (Instr.lockVfuseLoss 4 0).wf = false ∧
    (Instr.lockVfuseLoss 5 158).wf = false ∧
    (Instr.sampleFifoOverflow 0 0).wf = false ∧
    (Instr.sampleFifoOverflow 3 8).wf = false ∧
    (Instr.demCommitLive 0 0).wf = false ∧
    (Instr.demCommitLive 3 512).wf = false ∧
    (Instr.sigDecode 0 0 0).wf = false ∧
    (Instr.sigDecode 3 0 68719476736).wf = false ∧
    (Instr.frameDelivery 0).wf = false ∧
    (Instr.wakeCallSchedule 0 0 0).wf = false ∧
    (Instr.wakeCallSchedule 3 4294967296 0).wf = false := by decide +kernel

theorem test_refuses_5 :
    (Instr.wakeCallSchedule 3 0 4096).wf = false ∧
    (Instr.neighbourLost 0 0).wf = false ∧
    (Instr.neighbourLost 3 4294967296).wf = false ∧
    (Instr.airFrame 0 ({} : PlayEnv)).wf = false ∧
    (Instr.airFrame 1 { lane := 3 }).wf = false ∧
    (Instr.hostCmd 0 0).wf = false ∧
    (Instr.timer 0 []).wf = false ∧
    (Instr.timer 1 [(9, 1)]).wf = false ∧
    (Instr.playWatchdog 0 0).wf = false ∧
    (Instr.playWatchdog 1 5).wf = false ∧
    (Instr.lineupGate 0 0).wf = false ∧
    (Instr.lineupGate 1 28).wf = false ∧
    (Instr.ethTxStart 16).wf = false ∧
    (Instr.ethPauseRx 16 0 0 []).wf = false := by decide +kernel

theorem test_refuses_6 :
    (Instr.ethPauseRx 0 65536 0 []).wf = false ∧
    (Instr.ethPauseExpiry 16 0).wf = false ∧
    (Instr.ethPauseExpiry 0 8).wf = false ∧
    (Instr.tsPop 16 0).wf = false ∧
    (Instr.tsPop 0 4294967296).wf = false ∧
    (Instr.canFrameRx 32 sampleCan false).wf = false ∧
    (Instr.canFrameRx 0 { sampleCan with data := List.replicate 65 0#8 } false).wf = false ∧
    (Instr.canRxAck 32 0).wf = false ∧
    (Instr.canRxAck 0 4294967296).wf = false ∧
    (Instr.canTxWinWrite 32 0 0).wf = false ∧
    (Instr.canTxWinWrite 0 20 0).wf = false ∧
    (Instr.canTxWinWrite 0 0 4294967296).wf = false ∧
    (Instr.canSleepEdge 32).wf = false ∧
    (Instr.canTatWindowClose 32 0).wf = false := by decide +kernel

theorem test_refuses_7 :
    (Instr.canTatWindowClose 0 64).wf = false ∧
    (Instr.vxlSignalDetect 8).wf = false ∧
    (Instr.vxlHelloRx 8 (List.replicate 16 0#8)).wf = false ∧
    (Instr.vxlHelloRx 0 []).wf = false ∧
    (Instr.vxlLaneFail 8 ⟨0, none⟩).wf = false ∧
    (Instr.vxlLaneFail 0 ⟨3, none⟩).wf = false ∧
    (Instr.vxlLaneSwapRx 8 0).wf = false ∧
    (Instr.vxlLaneSwapRx 0 3).wf = false ∧
    (Instr.vxlFcSetRx 8 0).wf = false ∧
    (Instr.vxlFcSetRx 0 256).wf = false ∧
    (Instr.vxlFcExpiry 8 0).wf = false ∧
    (Instr.vxlFcExpiry 0 8).wf = false ∧
    (Instr.lsaRx 8 (List.replicate 48 0#8)).wf = false ∧
    (Instr.lsaRx 0 []).wf = false := by decide +kernel

theorem test_refuses_8 :
    (Instr.lsaExpiry 18446744073709551616).wf = false ∧
    (Instr.umpirePulseRx 2 0).wf = false ∧
    (Instr.journalRecordRx 0 (⟨0, 0, 0, 0, .mode 0⟩ : JRec)).wf = false ∧
    (Instr.journalRecordRx 1 ⟨0, 16, 0, 0, .mode 0⟩).wf = false ∧
    (Instr.pairTimeMeasure 18446744073709551616).wf = false ∧
    (Instr.twnForm 0 9).wf = false ∧
    (Instr.errorSourceFire 7 0 0 0 0 none).wf = false ∧
    (Instr.errorSourceFire 0 512 0 0 0 none).wf = false ∧
    (Instr.errorSourceFire 0 0 16 0 0 none).wf = false ∧
    (Instr.collectorClear 4096 0).wf = false ∧
    (Instr.collectorClear 0 4294967296).wf = false ∧
    (Instr.tokenRequest 0 0 0).wf = false ∧
    (Instr.tokenRequest 8 0 0).wf = false ∧
    (Instr.tokenRequest 1 4294967296 0).wf = false := by decide +kernel

theorem test_refuses_9 :
    (Instr.tokenRelease 0 0).wf = false ∧
    (Instr.tokenRelease 8 0).wf = false ∧
    (Instr.substitutionSwitchover 7 0 0 []).wf = false ∧
    (Instr.substitutionSwitchover 0 7 0 []).wf = false ∧
    (Instr.campaignSlot 32).wf = false := by decide +kernel

/-- The same commands with operands in range pass. -/
theorem test_passes_1 :
    (Instr.supplyMonitorTrip ⟨0, 0⟩).wf = true ∧
    (Instr.supplyMonitorReturn 0).wf = true ∧
    (Instr.resetReq 0).wf = true ∧
    (Instr.ledgerClr 0).wf = true ∧
    (Instr.tamperFire 0).wf = true ∧
    (Instr.pmbAlert 0).wf = true ∧
    (Instr.sensorPublish (List.replicate 24 0) (List.replicate 12 0)).wf = true ∧
    (Instr.latchingRead 0).wf = true ∧
    (Instr.registerWrite 0 0 4).wf = true ∧
    (Instr.readClear ⟨0, 4⟩).wf = true ∧
    (Instr.bar2Access false 0 4).wf = true ∧
    (Instr.blockSoftReset 0 0).wf = true ∧
    (Instr.softResetDone 0 0).wf = true ∧
    (Instr.stickyClear 0 0 0).wf = true ∧
    (Instr.reactCodeWrite 0 0 false 0).wf = true ∧
    (Instr.doorbell 0 0).wf = true ∧
    (Instr.ringResume 0).wf = true ∧
    (Instr.cqHeadWrite 0).wf = true ∧
    (Instr.bandLoLocked 5).wf = true ∧
    (Instr.rsmResumeBand 5).wf = true := by decide +kernel

/-- The same commands with operands in range pass. -/
theorem test_passes_2 :
    (Instr.txTuneRequest 5 0 0 false).wf = true ∧
    (Instr.txSynthLocked 5 0).wf = true ∧
    (Instr.rsmResumeTx 5 0).wf = true ∧
    (Instr.lockDataWrite 5 0).wf = true ∧
    (Instr.lockGo 5 0).wf = true ∧
    (Instr.lockProgramDone 5 none).wf = true ∧
    (Instr.lockVfuseLoss 5 0).wf = true ∧
    (Instr.sampleFifoOverflow 3 0).wf = true ∧
    (Instr.demCommitLive 3 0).wf = true ∧
    (Instr.sigDecode 3 0 0).wf = true ∧
    (Instr.frameDelivery 3).wf = true ∧
    (Instr.wakeCallSchedule 3 0 0).wf = true ∧
    (Instr.neighbourLost 3 0).wf = true ∧
    (Instr.airFrame 1 ({} : PlayEnv)).wf = true ∧
    (Instr.hostCmd 0 1).wf = true ∧
    (Instr.timer 1 []).wf = true ∧
    (Instr.playWatchdog 1 0).wf = true ∧
    (Instr.lineupGate 1 0).wf = true ∧
    (Instr.ethTxStart 0).wf = true ∧
    (Instr.ethPauseRx 0 0 0 []).wf = true := by decide +kernel

/-- The same commands with operands in range pass. -/
theorem test_passes_3 :
    (Instr.ethPauseExpiry 0 0).wf = true ∧
    (Instr.tsPop 0 0).wf = true ∧
    (Instr.canFrameRx 0 sampleCan false).wf = true ∧
    (Instr.canRxAck 0 0).wf = true ∧
    (Instr.canTxWinWrite 0 0 0).wf = true ∧
    (Instr.canSleepEdge 0).wf = true ∧
    (Instr.canTatWindowClose 0 0).wf = true ∧
    (Instr.vxlSignalDetect 0).wf = true ∧
    (Instr.vxlHelloRx 0 (List.replicate 16 0#8)).wf = true ∧
    (Instr.vxlLaneFail 0 ⟨0, none⟩).wf = true ∧
    (Instr.vxlLaneSwapRx 0 0).wf = true ∧
    (Instr.vxlFcSetRx 0 0).wf = true ∧
    (Instr.vxlFcExpiry 0 0).wf = true ∧
    (Instr.lsaRx 0 (List.replicate 48 0#8)).wf = true ∧
    (Instr.lsaExpiry 0).wf = true ∧
    (Instr.umpirePulseRx 0 0).wf = true ∧
    (Instr.journalRecordRx 1 (⟨0, 0, 0, 0, .mode 0⟩ : JRec)).wf = true ∧
    (Instr.pairTimeMeasure 0).wf = true ∧
    (Instr.twnForm 0 0).wf = true ∧
    (Instr.errorSourceFire 0 0 0 0 0 none).wf = true := by decide +kernel

/-- The same commands with operands in range pass. -/
theorem test_passes_4 :
    (Instr.collectorClear 0 0).wf = true ∧
    (Instr.tokenRequest 1 0 0).wf = true ∧
    (Instr.tokenRelease 1 0).wf = true ∧
    (Instr.substitutionSwitchover 0 0 0 []).wf = true ∧
    (Instr.campaignSlot 0).wf = true := by decide +kernel

/-! ## Known answers and single steps -/

/-- The octets of a number written most significant first. -/
def be (n v : Nat) : List Byte := toBE n v

/-- CRC-32C of "123456789": the check value of the polynomial that R122 names. -/
theorem test_crc32c_check : crc32cStd [0x31#8, 0x32#8, 0x33#8, 0x34#8, 0x35#8, 0x36#8, 0x37#8, 0x38#8, 0x39#8] = 0xE3069283 := by decide +kernel

/-- AES-128 of FIPS-197, appendix C.1. -/
theorem test_aes128_fips197 :
    aesEnc (be 16 0x000102030405060708090A0B0C0D0E0F) (be 16 0x00112233445566778899AABBCCDDEEFF) = be 16 0x69C4E0D86A7B0430D8CDB78070B4C55A := by
  decide +kernel

/-- AES-CMAC of the empty message, RFC 4493 example 1. -/
theorem test_cmac_rfc4493 : aesCmac (be 16 0x2B7E151628AED2A6ABF7158809CF4F3C) [] = be 16 0xBB1D6929E95937287FA37D129B756746 := by decide +kernel

/-- SHA-256 of "abc", FIPS 180-4. -/
theorem test_sha256_abc : sha256 [0x61#8, 0x62#8, 0x63#8] = be 32 0xBA7816BF8F01CFEA414140DE5DAE2223B00361A396177A9CB410FF61F20015AD := by decide +kernel

/-- R110: any other value than 0xD1A6 is ignored; a larger value counts by its low half. -/
theorem test_reset_req_other : NoEffect (.resetReq 0xD1A7) { dev := up } := rfl

/-- R89: a write to a locked page is dropped and recorded with the lock's cause. -/
theorem test_locked_write : (up.put (pgLock .SNS) ⟨.SNS, 0, 0⟩ 1).pageWrite 0 0x00B 0x204 true (fun _ _ => {}) =
    (up.put (pgLock .SNS) ⟨.SNS, 0, 0⟩ 1).failAcc 0x00B204 0 5 := by decide +kernel

/-- Table 3-3: the reset values of the pace window and interval. -/
theorem test_reset_values : State.reset.dev.g F.SNS.PACE_CFG_WIN = 32000 ∧ State.reset.dev.g F.SNS.PACE_CFG_INT = 10 := by decide

/-- R299: K6 is the tag and the tenant, most significant octet first. -/
theorem test_k6 : (⟨0x12345678, 0xABC⟩ : NodeKey).k6 = [0x12#8, 0x34#8, 0x56#8, 0x78#8, 0x0A#8, 0xBC#8] := by decide

/-- Table 18-7: calibration and a rehash may hold one region together, substitution and a rehash may not, and nothing joins an activation. -/
theorem test_compatible : compatible 1 3 = true ∧ compatible 2 3 = false ∧ compatible 7 1 = false := by decide

/-- R546: a counter stays at its largest value. -/
theorem test_counter_saturates : ((up.addc C.FCL.INTS (2 ^ 64 - 1)).inc C.FCL.INTS).ctr C.FCL.INTS = 2 ^ 64 - 1 := by decide +kernel

/-- R75 and Table 4-3: VXL7 of die 0 begins at page 0x047. -/
theorem test_page_base : (⟨.VXL, 0, 7⟩ : Page).base = 0x047000 ∧ pageAt 0 0x048 = none := by decide

/-- R102: an opcode that the table does not list is BAD_OPCODE, a zero LENGTH where one is used is ZERO_FIELD. -/
theorem test_command_checks : (cmdOf 0x7777 1 1 1 []).early = some stBadOp ∧ (cmdOf 0x0201 1 0 1 []).early = some stZero ∧
    (cmdOf 0x0201 3 32 1 []).early = some stBadTarget ∧ (cmdOf 0x0201 8 32 1 []).early = some stReserved ∧ (cmdOf 0x0201 1 32 1 []).early = none := by decide +kernel

/-- States and operands that meet the hypotheses of `Obligations.ResetPins`, one part for each clause with hypotheses of its own. -/
theorem witness_ResetPins :
    (∃ (s : State), (s.dev.pwr.porstLow = false)) ∧
    (∃ (s : State), (s.dev.pwr.inReset = true)) ∧
    (∃ (s : State), (s.dev.pwr.porstLow = true) ∧ (s.dev.pwr.monLow = 0)) ∧
    (∃ (s : State), (s.dev.pwr.porstLow = true) ∧ (s.dev.pwr.monLow ≠ 0)) ∧
    (∃ (s : State) (mon : Nat), (mon < 5) ∧ (s.dev.pwr.porstLow = false) ∧ (s.dev.pwr.monLow = 0)) ∧
    (∃ (s : State) (mon : Nat), (mon < 5) ∧ ((s.dev.pwr.porstLow = true ∨ s.dev.pwr.monLow ≠ 0))) ∧
    (∃ (mon : Nat), (5 ≤ mon)) ∧
    (∃ (s : State) (mon : Nat), (bitOf s.dev.pwr.monLow mon = true) ∧ (putBit s.dev.pwr.monLow mon false = 0) ∧ (s.dev.pwr.porstLow = false)) ∧
    (∃ (s : State) (mon : Nat), (bitOf s.dev.pwr.monLow mon = true) ∧ ((putBit s.dev.pwr.monLow mon false ≠ 0 ∨ s.dev.pwr.porstLow = true))) ∧
    (∃ (s : State) (mon : Nat), (bitOf s.dev.pwr.monLow mon = false)) ∧
    (∃ (s : State), (s.dev.pwr.inReset = false)) ∧
    (∃ (s : State), (s.dev.pwr.inReset = false) ∧ (s.dev.pwr.bootDue = false) ∧ (s.dev.pwr.bootHeld = false)) ∧
    (∃ (s : State), (s.dev.pwr.inReset = true ∨ s.dev.pwr.bootDue = true ∨ s.dev.pwr.bootHeld = true)) :=
  ⟨⟨{}, by decide +kernel⟩,
   ⟨{ dev := { pwr := { inReset := true } } }, by decide +kernel⟩,
   ⟨{ dev := { pwr := { porstLow := true } } }, by decide +kernel⟩,
   ⟨{ dev := { pwr := { porstLow := true, monLow := 1 } } }, by decide +kernel⟩,
   ⟨{}, 4, by decide +kernel⟩,
   ⟨{ dev := { pwr := { porstLow := true } } }, 4, by decide +kernel⟩,
   ⟨5, by decide +kernel⟩,
   ⟨{ dev := { pwr := { monLow := 16 } } }, 4, by decide +kernel⟩,
   ⟨{ dev := { pwr := { monLow := 17 } } }, 4, by decide +kernel⟩,
   ⟨{ dev := { pwr := { monLow := 15 } } }, 4, by decide +kernel⟩,
   ⟨{}, by decide +kernel⟩,
   ⟨{ dev := up }, by decide +kernel⟩,
   ⟨{ dev := { pwr := { inReset := true } } }, by decide +kernel⟩⟩

/-- States and operands that meet the hypotheses of `Obligations.RequestedResets`, one part for each clause with hypotheses of its own. -/
theorem witness_RequestedResets :
    (∃ (s : State) (code : Nat), (Writable s.dev 0 0x004 ⟨.BTL, 0, 0⟩) ∧ (code % 65536 = 0xD1A6)) ∧
    (∃ (s : State) (code : Nat), (Writable s.dev 0 0x004 ⟨.BTL, 0, 0⟩) ∧ (code % 65536 ≠ 0xD1A6)) ∧
    (∃ (s : State) (code : Nat), (Writable s.dev 0 0x004 ⟨.BTL, 0, 0⟩) ∧ (code % 65536 = 0xD1A6) ∧ (s.dev.pwr.resetDue = none) ∧ (s.dev.pwr.inReset = false)) ∧
    (∃ (s : State) (data : Nat), (Writable s.dev 0 0x004 ⟨.BTL, 0, 0⟩) ∧ (bitOf data 0 = true)) ∧
    (∃ (s : State) (data : Nat), (Writable s.dev 0 0x004 ⟨.BTL, 0, 0⟩) ∧ (bitOf data 0 = false)) ∧
    (∃ (r : Nat), (r < 4)) :=
  ⟨⟨{ dev := up }, 0xFFFFD1A6, by decide +kernel⟩,
   ⟨{ dev := up }, 0xD1A7, by decide +kernel⟩,
   ⟨{ dev := up }, 0xFFFFD1A6, by decide +kernel⟩,
   ⟨{ dev := up }, 1, by decide +kernel⟩,
   ⟨{ dev := up }, 2, by decide +kernel⟩,
   ⟨3, by decide +kernel⟩⟩

/-- States and operands that meet the hypotheses of `Obligations.TamperRows`, one part for each clause with hypotheses of its own. -/
theorem witness_TamperRows :
    (∃ (s : State) (source : Nat), (source < 7) ∧ (bitOf (s.dev.g F.VLT.TAMPER_STAT_ASSERTED) source = false) ∧ (s.dev.pwr.inReset = false) ∧ ((s.dev.wBit F.VLT.TAMPER_STAT_ASSERTED source true).on F.VLT.TAMPER_CFG_EN 0 0 source = true) ∧ ((s.dev.wBit F.VLT.TAMPER_STAT_ASSERTED source true).booted = true) ∧ (¬(((s.dev.wBit F.VLT.TAMPER_STAT_ASSERTED source true).tamperAct source).twin = 3 ∧ 2 ≤ ((s.dev.wBit F.VLT.TAMPER_STAT_ASSERTED source true).tamperAct source).g F.VLT.TAMPER_CFG_LEVEL 0 0 source))) ∧
    (∃ (s : State) (source : Nat), (source < 7) ∧ (bitOf (s.dev.g F.VLT.TAMPER_STAT_ASSERTED) source = false) ∧ (s.dev.pwr.inReset = false) ∧ ((s.dev.wBit F.VLT.TAMPER_STAT_ASSERTED source true).on F.VLT.TAMPER_CFG_EN 0 0 source = true) ∧ ((s.dev.wBit F.VLT.TAMPER_STAT_ASSERTED source true).booted = true) ∧ (((s.dev.wBit F.VLT.TAMPER_STAT_ASSERTED source true).tamperAct source).twin = 3) ∧ (2 ≤ ((s.dev.wBit F.VLT.TAMPER_STAT_ASSERTED source true).tamperAct source).g F.VLT.TAMPER_CFG_LEVEL 0 0 source)) ∧
    (∃ (s : State) (source : Nat), (source < 7) ∧ (bitOf (s.dev.g F.VLT.TAMPER_STAT_ASSERTED) source = false) ∧ (s.dev.pwr.inReset = false) ∧ ((s.dev.wBit F.VLT.TAMPER_STAT_ASSERTED source true).on F.VLT.TAMPER_CFG_EN 0 0 source = false)) ∧
    (∃ (s : State) (source : Nat), (source < 7) ∧ (bitOf (s.dev.g F.VLT.TAMPER_STAT_ASSERTED) source = false) ∧ (s.dev.pwr.inReset = false) ∧ ((s.dev.wBit F.VLT.TAMPER_STAT_ASSERTED source true).on F.VLT.TAMPER_CFG_EN 0 0 source = true) ∧ ((s.dev.wBit F.VLT.TAMPER_STAT_ASSERTED source true).booted = false)) ∧
    (∃ (s : State) (source : Nat), (7 ≤ source ∨ bitOf (s.dev.g F.VLT.TAMPER_STAT_ASSERTED) source = true ∨ s.dev.pwr.inReset = true)) ∧
    (∃ (source : Nat), (source < 7)) ∧
    (∃ (source : Nat), (7 ≤ source)) ∧
    (∃ (s : State), (s.dev.on F.VLT.BLOB_STAT_ERASE_BUSY = true) ∧ (s.dev.ms.dozeStep ≠ 6)) ∧
    (∃ (s : State) (d1 : Dev), (d1 = ((s.dev.setBlob 0 {}).setBlob 1 {}).w F.VLT.BLOB_STAT_ERASE_BUSY 0) ∧ (s.dev.on F.VLT.BLOB_STAT_ERASE_BUSY = true) ∧ (s.dev.ms.dozeStep = 6)) ∧
    (∃ (s : State), (s.dev.on F.VLT.BLOB_STAT_ERASE_BUSY = false)) ∧
    (∃ (s : State) (id : Nat) (c : Cmd), (Ready s.dev 0x0306 id c noRange) ∧ ((List.range 7).any (fun i => bitOf (s.dev.g F.VLT.TAMPER_STAT_ASSERTED) i&&s.dev.on F.VLT.TAMPER_CFG_EN 0 0 i&&decide (2 ≤ s.dev.g F.VLT.TAMPER_CFG_LEVEL 0 0 i)) = false)) ∧
    (∃ (s : State) (id : Nat) (c : Cmd), (Ready s.dev 0x0306 id c noRange) ∧ ((List.range 7).any (fun i => bitOf (s.dev.g F.VLT.TAMPER_STAT_ASSERTED) i&&s.dev.on F.VLT.TAMPER_CFG_EN 0 0 i&&decide (2 ≤ s.dev.g F.VLT.TAMPER_CFG_LEVEL 0 0 i)) = true)) :=
  ⟨⟨{ dev := up.w F.VLT.TAMPER_CFG_EN 1 0 0 6 }, 6, by decide +kernel⟩,
   ⟨{ dev := ((up.w F.VLT.TAMPER_CFG_EN 1 0 0 6).w F.VLT.TAMPER_CFG_LEVEL 2 0 0 6).w F.TWN.STAT_STATE 3 }, 6, by decide +kernel⟩,
   ⟨{ dev := up.w F.VLT.TAMPER_CFG_EN 0 0 0 6 }, 6, by decide +kernel⟩,
   ⟨{ dev := (State.reset.dev).w F.VLT.TAMPER_CFG_EN 1 0 0 6 }, 6, by decide +kernel⟩,
   ⟨{ dev := up }, 7, by decide +kernel⟩,
   ⟨6, by decide +kernel⟩,
   ⟨7, by decide +kernel⟩,
   ⟨{ dev := up.w F.VLT.BLOB_STAT_ERASE_BUSY 1 }, by decide +kernel⟩,
   ⟨{ dev := { (up.w F.VLT.BLOB_STAT_ERASE_BUSY 1) with ms := { up.ms with dozeStep := 6 } } }, (((({ dev := { (up.w F.VLT.BLOB_STAT_ERASE_BUSY 1) with ms := { up.ms with dozeStep := 6 } } }) : State).dev.setBlob 0 {}).setBlob 1 {}).w F.VLT.BLOB_STAT_ERASE_BUSY 0, rfl, by decide +kernel⟩,
   ⟨{ dev := up }, by decide +kernel⟩,
   ⟨st 1 (cmdOf 0x0306 4 0 0 []), 0, cmdOf 0x0306 4 0 0 [], by decide +kernel⟩,
   ⟨{ dev := ((((st 1 (cmdOf 0x0306 4 0 0 [])).dev.w F.VLT.TAMPER_STAT_ASSERTED 64).w F.VLT.TAMPER_CFG_EN 1 0 0 6).w F.VLT.TAMPER_CFG_LEVEL 2 0 0 6) }, 0, cmdOf 0x0306 4 0 0 [], by decide +kernel⟩⟩

/-- States and operands that meet the hypotheses of `Obligations.VoltageLoop`, one part for each clause with hypotheses of its own. -/
theorem witness_VoltageLoop :
    (∃ (s : State), (s.dev.loopRuns = false ∨ (s.dev.avl.busy ≠ 0 ∧ s.dev.avl.busy ≠ 2) ∨ (s.dev.avl.busy = 2 ∧ ¬ s.dev.lowPace < s.dev.g F.SNS.AVL_TARGET_PACE))) ∧
    (∃ (s : State) (mv : Nat), (s.dev.loopRuns = true) ∧ (s.dev.avl.busy = 0) ∧ (s.dev.lowPace < s.dev.g F.SNS.AVL_TARGET_PACE) ∧ (mv = s.dev.avlClamp (s.dev.vcore + 5)) ∧ (mv ≠ s.dev.vcore)) ∧
    (∃ (s : State) (mv : Nat), (s.dev.loopRuns = true) ∧ (s.dev.avl.busy = 0) ∧ (¬ s.dev.lowPace < s.dev.g F.SNS.AVL_TARGET_PACE) ∧ (aboveHyst s.dev.lowPace (s.dev.g F.SNS.AVL_TARGET_PACE) (s.dev.g F.SNS.AVL_CTRL_HYST) = true) ∧ (mv = s.dev.avlClamp (s.dev.vcore - 5)) ∧ (mv ≠ s.dev.vcore)) ∧
    (∃ (s : State), (s.dev.loopRuns = true) ∧ (s.dev.avl.busy = 0) ∧ ((s.dev.lowPace < s.dev.g F.SNS.AVL_TARGET_PACE → s.dev.avlClamp (s.dev.vcore + 5) = s.dev.vcore)) ∧ ((¬ s.dev.lowPace < s.dev.g F.SNS.AVL_TARGET_PACE → aboveHyst s.dev.lowPace (s.dev.g F.SNS.AVL_TARGET_PACE) (s.dev.g F.SNS.AVL_CTRL_HYST) = true → s.dev.avlClamp (s.dev.vcore - 5) = s.dev.vcore))) ∧
    (∃ (s : State), (s.dev.loopRuns = true) ∧ (s.dev.avl.busy = 2) ∧ (s.dev.lowPace < s.dev.g F.SNS.AVL_TARGET_PACE)) ∧
    (∃ (s : State), (s.dev.avl.busy ≠ 0) ∧ (s.dev.avl.hostNext = none) ∧ (s.dev.avl.ceilDue = false) ∧ (s.dev.avl.bigRaise = false)) ∧
    (∃ (s : State) (d1 : Dev), (d1 = { s.dev with avl := { s.dev.avl with busy := 0, bigRaise := false } }) ∧ (s.dev.avl.busy ≠ 0) ∧ (s.dev.avl.hostNext = none) ∧ (s.dev.avl.ceilDue = false) ∧ (s.dev.avl.bigRaise = true) ∧ (d1.loopRuns = false)) ∧
    (∃ (s : State) (mv : Nat), (s.dev.avl.busy ≠ 0) ∧ (s.dev.avl.hostNext = some mv)) ∧
    (∃ (s : State), (s.dev.avl.busy ≠ 0) ∧ (s.dev.avl.hostNext = none) ∧ (s.dev.avl.ceilDue = true)) ∧
    (∃ (s : State) (d1 : Dev), (d1 = { s.dev with avl := { s.dev.avl with busy := 0, bigRaise := false } }) ∧ (s.dev.avl.busy ≠ 0) ∧ (s.dev.avl.hostNext = none) ∧ (s.dev.avl.ceilDue = false) ∧ (s.dev.avl.bigRaise = true) ∧ (d1.loopRuns = true)) ∧
    (∃ (s : State), (s.dev.avl.busy = 0)) ∧
    (∃ (s : State) (d1 : Dev), (d1 = (({ s.dev with avl := { s.dev.avl with busy := 0, halted := true, bigRaise := false, ceilDue := false } } : Dev).avlShow.logRec 0x0301 3 0 (toLE 2 s.dev.vcore)).raise E.CPT.PMBUS) ∧ (s.dev.avl.hostNext = none)) ∧
    (∃ (s : State) (d1 : Dev) (mv : Nat), (d1 = (({ s.dev with avl := { s.dev.avl with busy := 0, halted := true, bigRaise := false, ceilDue := false } } : Dev).avlShow.logRec 0x0301 3 0 (toLE 2 s.dev.vcore)).raise E.CPT.PMBUS) ∧ (s.dev.avl.hostNext = some mv)) ∧
    (∃ (s : State) (id : Nat) (c : Cmd), (Ready s.dev 0x0902 id c (fun _ c => if 600 ≤ c.par 24 2&&c.par 24 2 ≤ 850 then none else some 0)) ∧ (s.dev.locked ⟨.SNS, 0, 0⟩ = false) ∧ (s.dev.avl.busy = 0)) ∧
    (∃ (s : State) (id : Nat) (c : Cmd) (d1 : Dev), (d1 = ((s.dev.wBoth F.SNS.AVL_CTRL_EN 0).w F.SNS.AVL_STAT_HOST_OVR 1).avlShow) ∧ (Ready s.dev 0x0902 id c (fun _ c => if 600 ≤ c.par 24 2&&c.par 24 2 ≤ 850 then none else some 0)) ∧ (s.dev.locked ⟨.SNS, 0, 0⟩ = false) ∧ (s.dev.avl.busy ≠ 0)) ∧
    (∃ (s : State) (id : Nat) (c : Cmd), (Ready s.dev 0x0902 id c (fun _ c => if 600 ≤ c.par 24 2&&c.par 24 2 ≤ 850 then none else some 0)) ∧ (s.dev.locked ⟨.SNS, 0, 0⟩ = true)) :=
  ⟨⟨{ dev := up }, by decide +kernel⟩,
   ⟨{ dev := ((((up.w F.SNS.AVL_CTRL_EN 1).w F.SNS.AVL_CTRL_PERIOD 1).w F.SNS.AVL_TARGET_PACE 100).w F.SNS.AVL_LIMITS_CEIL 850) }, (((((up.w F.SNS.AVL_CTRL_EN 1).w F.SNS.AVL_CTRL_PERIOD 1).w F.SNS.AVL_TARGET_PACE 100).w F.SNS.AVL_LIMITS_CEIL 850)).avlClamp (up.vcore + 5), by decide +kernel⟩,
   ⟨{ dev := fastDie }, fastDie.avlClamp (fastDie.vcore - 5), by decide +kernel⟩,
   ⟨{ dev := (((up.w F.SNS.AVL_CTRL_EN 1).w F.SNS.AVL_CTRL_PERIOD 1).w F.SNS.AVL_LIMITS_CEIL 0).w F.SNS.AVL_LIMITS_FLOOR 0 }, by decide +kernel⟩,
   ⟨{ dev := { ((((up.w F.SNS.AVL_CTRL_EN 1).w F.SNS.AVL_CTRL_PERIOD 1).w F.SNS.AVL_TARGET_PACE 100)) with avl := { busy := 2 } } }, by decide +kernel⟩,
   ⟨{ dev := { up with avl := { busy := 3 } } }, by decide +kernel⟩,
   ⟨{ dev := { up with avl := { busy := 2, bigRaise := true } } }, { (({ dev := { up with avl := { busy := 2, bigRaise := true } } }) : State).dev with avl := { (({ dev := { up with avl := { busy := 2, bigRaise := true } } }) : State).dev.avl with busy := 0, bigRaise := false } }, rfl, by decide +kernel⟩,
   ⟨{ dev := { up with avl := { busy := 1, hostNext := some 850 } } }, 850, by decide +kernel⟩,
   ⟨{ dev := { up with avl := { busy := 1, ceilDue := true } } }, by decide +kernel⟩,
   ⟨{ dev := { ((up.w F.SNS.AVL_CTRL_EN 1).w F.SNS.AVL_CTRL_PERIOD 1) with avl := { busy := 2, bigRaise := true } } }, { (({ dev := { ((up.w F.SNS.AVL_CTRL_EN 1).w F.SNS.AVL_CTRL_PERIOD 1) with avl := { busy := 2, bigRaise := true } } }) : State).dev with avl := { (({ dev := { ((up.w F.SNS.AVL_CTRL_EN 1).w F.SNS.AVL_CTRL_PERIOD 1) with avl := { busy := 2, bigRaise := true } } }) : State).dev.avl with busy := 0, bigRaise := false } }, rfl, by decide +kernel⟩,
   ⟨{ dev := up }, by decide +kernel⟩,
   ⟨{ dev := up }, (({ (({ dev := up }) : State).dev with avl := { (({ dev := up }) : State).dev.avl with busy := 0, halted := true, bigRaise := false, ceilDue := false } } : Dev).avlShow.logRec 0x0301 3 0 (toLE 2 (({ dev := up }) : State).dev.vcore)).raise E.CPT.PMBUS, rfl, by decide +kernel⟩,
   ⟨{ dev := { up with avl := { busy := 1, hostNext := some 850 } } }, (({ (({ dev := { up with avl := { busy := 1, hostNext := some 850 } } }) : State).dev with avl := { (({ dev := { up with avl := { busy := 1, hostNext := some 850 } } }) : State).dev.avl with busy := 0, halted := true, bigRaise := false, ceilDue := false } } : Dev).avlShow.logRec 0x0301 3 0 (toLE 2 (({ dev := { up with avl := { busy := 1, hostNext := some 850 } } }) : State).dev.vcore)).raise E.CPT.PMBUS, 850, rfl, by decide +kernel⟩,
   ⟨st 2 (cmdOf 0x0902 4 0 0 [0x58, 0x02]), 0, cmdOf 0x0902 4 0 0 [0x58, 0x02], by decide +kernel⟩,
   ⟨{ (st 2 (cmdOf 0x0902 4 0 0 [0x58, 0x02])) with dev := { (st 2 (cmdOf 0x0902 4 0 0 [0x58, 0x02])).dev with avl := { busy := 1 } } }, 0, cmdOf 0x0902 4 0 0 [0x58, 0x02], (((({ (st 2 (cmdOf 0x0902 4 0 0 [0x58, 0x02])) with dev := { (st 2 (cmdOf 0x0902 4 0 0 [0x58, 0x02])).dev with avl := { busy := 1 } } }) : State).dev.wBoth F.SNS.AVL_CTRL_EN 0).w F.SNS.AVL_STAT_HOST_OVR 1).avlShow, rfl, by decide +kernel⟩,
   ⟨{ (st 2 (cmdOf 0x0902 4 0 0 [0x58, 0x02])) with dev := (st 2 (cmdOf 0x0902 4 0 0 [0x58, 0x02])).dev.put (pgLock .SNS) ⟨.SNS, 0, 0⟩ 1 }, 0, cmdOf 0x0902 4 0 0 [0x58, 0x02], by decide +kernel⟩⟩

/-- States and operands that meet the hypotheses of `Obligations.PaceAndSensors`, one part for each clause with hypotheses of its own. -/
theorem witness_PaceAndSensors :
    (∃ (s : State) (r : PaceReading) (pace : Nat), (s.dev.g F.SNS.PACE_CFG_WIN ≠ 0) ∧ (s.dev.g F.SNS.PACE_CFG_INT ≠ 0) ∧ (pace = s.dev.paceOf r.steps) ∧ (r.die < 7) ∧ ((s.dev.unit r.type r.die r.index).state = .active) ∧ (worstPace (s.dev.w F.SNS.DIE_PACE_PACE pace 0 0 r.die).vcore ≤ pace) ∧ (r.type ≠ 4) ∧ (r.type ≠ 5)) ∧
    (∃ (s : State), (s.dev.g F.SNS.PACE_CFG_WIN ≠ 0) ∧ (s.dev.g F.SNS.PACE_CFG_INT ≠ 0)) ∧
    (∃ (s : State), (s.dev.g F.SNS.PACE_CFG_INT = 0 ∨ s.dev.g F.SNS.PACE_CFG_WIN = 0)) ∧
    (∃ (s : State) (temps : (List Int)) (mv : (List Nat)) (d1 : Dev), (d1 = s.dev.showSensors temps mv) ∧ (d1.sensed.all (fun i => decide (temps.getD i 0 ≤ sext 12 (d1.g F.SNS.TEMP_CFG_HIGH))&&decide (temps.getD i 0 ≤ d1.tjMax)) = true) ∧ (d1.cpt.overTemp = false) ∧ ((List.range 12).all (fun k => d1.supplyOk k (mv.getD k 0)) = true)) :=
  ⟨⟨{ dev := ((up.w F.SNS.PACE_CFG_WIN 320).w F.SNS.PACE_CFG_INT 1) }, ⟨1, 1, 0, 1350, 0⟩, 1350, by decide +kernel⟩,
   ⟨{ dev := ((up.w F.SNS.PACE_CFG_WIN 320).w F.SNS.PACE_CFG_INT 1) }, by decide +kernel⟩,
   ⟨{ dev := up.w F.SNS.PACE_CFG_INT 0 }, by decide +kernel⟩,
   ⟨{ dev := up.w F.SNS.SUP_CFG_TOL 0 }, [], [], (({ dev := up.w F.SNS.SUP_CFG_TOL 0 }) : State).dev.showSensors (([]) : (List Int)) (([]) : (List Nat)), rfl, by decide +kernel⟩⟩

/-- States and operands that meet the hypotheses of `Obligations.TimeIsland`, one part for each clause with hypotheses of its own. -/
theorem witness_TimeIsland :
    (∃ (s : State), (s.dev.time.stepDue = false)) ∧
    (∃ (s : State), (s.dev.time.stepDue = true)) ∧
    (∃ (s : State), (s.dev.disc = 0)) ∧
    (∃ (s : State), (s.dev.disc = 1)) ∧
    (∃ (s : State), (s.dev.disc ≠ 1 ∨ s.dev.time.okRun < 8 ∨ s.dev.time.okSec + 1 < s.dev.time.ptpSec)) ∧
    (∃ (s : State), (s.dev.disc = 2) ∧ (min s.dev.time.ptpNs (1000000000 - s.dev.time.ptpNs) ≤ s.dev.g F.TIM.DISC_CTRL_PPS_WIN * 10)) ∧
    (∃ (s : State), (s.dev.disc = 2) ∧ (s.dev.g F.TIM.DISC_CTRL_PPS_WIN * 10 < min s.dev.time.ptpNs (1000000000 - s.dev.time.ptpNs))) ∧
    (∃ (s : State), (s.dev.disc = 3) ∧ (s.dev.g F.TIM.DISC_CTRL_SRC = 2)) ∧
    (∃ (s : State), (s.dev.disc = 3) ∧ (s.dev.g F.TIM.DISC_CTRL_SRC ≠ 2)) ∧
    (∃ (d : Dev), (d.g F.TIM.DISC_CTRL_SRC ≠ 2)) ∧
    (∃ (d : Dev) (off : Nat) (sec : Nat), (d.g F.TIM.DISC_CTRL_SRC = 2) ∧ (off = (if 2 * d.time.ptpNs < 1000000000 then d.time.ptpNs else 1000000000 - d.time.ptpNs)) ∧ (sec = (if 2 * d.time.ptpNs < 1000000000 then d.time.ptpSec else d.time.ptpSec + 1))) ∧
    (∃ (s : State), (s.dev.disc = 1) ∧ (8 ≤ s.dev.time.okRun) ∧ (s.dev.time.ptpSec ≤ s.dev.time.okSec + 1)) ∧
    (∃ (s : State), (s.dev.disc = 2) ∧ (s.dev.time.updAt + 960000000 ≤ s.dev.time.lt)) ∧
    (∃ (s : State), (s.dev.disc ≠ 2 ∨ s.dev.time.lt < s.dev.time.updAt + 960000000)) ∧
    (∃ (s : State), (s.dev.time.ppsAllowed = true) ∧ (ppsMode s.dev.mode = true) ∧ (s.dev.g F.TIM.PPS_OUT_CFG_WIDTH ≠ 0)) ∧
    (∃ (s : State), (s.dev.time.ppsAllowed = false ∨ ppsMode s.dev.mode = false ∨ s.dev.g F.TIM.PPS_OUT_CFG_WIDTH = 0)) :=
  ⟨⟨{ dev := up }, by decide +kernel⟩,
   ⟨{ dev := { up with time := { stepDue := true, stepNs := -5 } } }, by decide +kernel⟩,
   ⟨{ dev := up }, by decide +kernel⟩,
   ⟨{ dev := up.w F.TIM.DISC_STAT_STATE 1 }, by decide +kernel⟩,
   ⟨{ dev := up }, by decide +kernel⟩,
   ⟨{ dev := (up.w F.TIM.DISC_STAT_STATE 2).w F.TIM.DISC_CTRL_PPS_WIN 100 }, by decide +kernel⟩,
   ⟨{ dev := { (up.w F.TIM.DISC_STAT_STATE 2).w F.TIM.DISC_CTRL_PPS_WIN 100 with time := { ptpNs := 1001 } } }, by decide +kernel⟩,
   ⟨{ dev := (up.w F.TIM.DISC_STAT_STATE 3).w F.TIM.DISC_CTRL_SRC 2 }, by decide +kernel⟩,
   ⟨{ dev := (up.w F.TIM.DISC_STAT_STATE 3).w F.TIM.DISC_CTRL_SRC 1 }, by decide +kernel⟩,
   ⟨up, by decide +kernel⟩,
   ⟨up.w F.TIM.DISC_CTRL_SRC 2, 0, 0, by decide +kernel⟩,
   ⟨{ dev := { up.w F.TIM.DISC_STAT_STATE 1 with time := { okRun := 8, okSec := 1, ptpSec := 2 } } }, by decide +kernel⟩,
   ⟨{ dev := { up.w F.TIM.DISC_STAT_STATE 2 with time := { lt := 960000000 } } }, by decide +kernel⟩,
   ⟨{ dev := { up.w F.TIM.DISC_STAT_STATE 2 with time := { lt := 959999999 } } }, by decide +kernel⟩,
   ⟨{ dev := { up.w F.TIM.PPS_OUT_CFG_WIDTH 1 with time := { ppsAllowed := true } } }, by decide +kernel⟩,
   ⟨{ dev := up }, by decide +kernel⟩⟩

/-- States and operands that meet the hypotheses of `Obligations.RegisterReads`, one part for each clause with hypotheses of its own. -/
theorem witness_RegisterReads :
    (∃ (s : State) (addr : Nat) (size : Nat) (p : Page), (Readable s.dev addr size p) ∧ ((s.dev.get (pgUread p.tag) p = 0 ∨ (0 < addrOff addr ∧ addrOff addr < 0x800)))) ∧
    (∃ (s : State) (addr : Nat) (p : Page), (Readable s.dev addr 4 p) ∧ (0x040 ≤ addrOff addr) ∧ (addrOff addr < 0x800) ∧ (s.dev.splitAt addr = none) ∧ (s.dev.splitHigh addr = false)) ∧
    (∃ (s : State) (addr : Nat) (p : Page), (Readable s.dev addr 4 p) ∧ (addrOff addr < 0x040)) ∧
    (∃ (s : State) (addr : Nat) (p : Page), (Readable s.dev addr 8 p) ∧ (0x800 ≤ addrOff addr)) ∧
    (∃ (s : State) (addr : Nat) (p : Page) (v : Nat) (his : (List (Nat×Nat))), (Readable s.dev addr 4 p) ∧ (0x040 ≤ addrOff addr) ∧ (addrOff addr < 0x800) ∧ (s.dev.splitAt addr = some (v, his))) ∧
    (∃ (s : State) (addr : Nat) (p : Page), (Readable s.dev addr 4 p) ∧ (0x040 ≤ addrOff addr) ∧ (addrOff addr < 0x800) ∧ (s.dev.splitAt addr = none) ∧ (s.dev.splitHigh addr = true)) ∧
    (∃ (s : State) (addr : Nat) (p : Page) (k : Nat), (Readable s.dev addr 4 p) ∧ (0x800 ≤ addrOff addr) ∧ (addr % 8 = 0) ∧ (k = addr / 8 * 8)) ∧
    (∃ (s : State) (addr : Nat) (p : Page) (k : Nat), (Readable s.dev addr 4 p) ∧ (0x800 ≤ addrOff addr) ∧ (addr % 8 ≠ 0) ∧ (k = addr / 8 * 8) ∧ (kvGet (2 ^ 32) s.dev.rf.ctrHi k ≠ 2 ^ 32)) ∧
    (∃ (s : State) (addr : Nat) (p : Page) (k : Nat), (Readable s.dev addr 4 p) ∧ (0x800 ≤ addrOff addr) ∧ (addr % 8 ≠ 0) ∧ (k = addr / 8 * 8) ∧ (kvGet (2 ^ 32) s.dev.rf.ctrHi k = 2 ^ 32)) ∧
    (∃ (s : State) (addr : Nat) (size : Nat), (addr < 2 ^ 24) ∧ (addrDie addr = 0) ∧ (addrPage addr = 0x1FF) ∧ (s.dev.regionOn 0 = true) ∧ (accessOk (addrOff addr) size = true)) ∧
    (∃ (addr : Nat), (addr < 2 ^ 24) ∧ (addrDie addr = 7)) ∧
    (∃ (addr : Nat), (addr < 2 ^ 24) ∧ (addrDie addr ≠ 7) ∧ (¬(addrDie addr = 0 ∧ addrPage addr = 0x1FF)) ∧ (pageAt (addrDie addr) (addrPage addr) = none)) ∧
    (∃ (s : State) (addr : Nat) (p : Page), (addr < 2 ^ 24) ∧ (addrDie addr ≠ 7) ∧ (¬(addrDie addr = 0 ∧ addrPage addr = 0x1FF)) ∧ (pageAt (addrDie addr) (addrPage addr) = some p) ∧ (p.poweredBy s.dev.pwr.powered = false)) ∧
    (∃ (s : State) (addr : Nat) (size : Nat) (p : Page), (addr < 2 ^ 24) ∧ (addrDie addr ≠ 7) ∧ (¬(addrDie addr = 0 ∧ addrPage addr = 0x1FF)) ∧ (pageAt (addrDie addr) (addrPage addr) = some p) ∧ (p.poweredBy s.dev.pwr.powered = true) ∧ (accessOk (addrOff addr) size = false)) ∧
    (∃ (s : State) (addr : Nat) (p : Page), (Readable s.dev addr 4 p) ∧ (s.dev.get (pgUread p.tag) p = 1) ∧ (addrOff addr = 0)) ∧
    (∃ (s : State) (addr : Nat) (size : Nat) (p : Page) (v : Nat), (Readable s.dev addr size p) ∧ (s.dev.get (pgUread p.tag) p = 1) ∧ (0x800 ≤ addrOff addr) ∧ (v = kvGet 0 s.dev.rf.ctrs (p.base + addrOff addr / 8 * 8))) ∧
    (∃ (s : State) (addr : Nat) (size : Nat) (p : Page), (Readable s.dev addr size p)) :=
  ⟨⟨{ dev := up }, 0x00A040, 4, ⟨.TIM, 0, 0⟩, by decide +kernel⟩,
   ⟨{ dev := up }, 0x0060E4, ⟨.HST, 0, 0⟩, by decide +kernel⟩,
   ⟨{ dev := up }, 0x006004, ⟨.HST, 0, 0⟩, by decide +kernel⟩,
   ⟨{ dev := up }, 0x00A800, ⟨.TIM, 0, 0⟩, by decide +kernel⟩,
   ⟨{ dev := up }, 0x00A040, ⟨.TIM, 0, 0⟩, 0, [(0x00A044, 0)], by decide +kernel⟩,
   ⟨{ dev := up }, 0x00A044, ⟨.TIM, 0, 0⟩, by decide +kernel⟩,
   ⟨{ dev := up }, 0x00A800, ⟨.TIM, 0, 0⟩, 0x00A800, by decide +kernel⟩,
   ⟨{ dev := { up with rf := { up.rf with ctrHi := [(0x00A800, 1)] } } }, 0x00A804, ⟨.TIM, 0, 0⟩, 0x00A800, by decide +kernel⟩,
   ⟨{ dev := up }, 0x00A804, ⟨.TIM, 0, 0⟩, 0x00A800, by decide +kernel⟩,
   ⟨{ dev := up }, 0x1FF800, 8, by decide +kernel⟩,
   ⟨0xE06004, by decide +kernel⟩,
   ⟨0x0FF004, by decide +kernel⟩,
   ⟨{ dev := { up with pwr := { up.pwr with powered := 0 } } }, 0x006004, ⟨.HST, 0, 0⟩, by decide +kernel⟩,
   ⟨{ dev := up }, 0x006004, 8, ⟨.HST, 0, 0⟩, by decide +kernel⟩,
   ⟨{ dev := up.put (pgUread .TIM) ⟨.TIM, 0, 0⟩ 1 }, 0x00A000, ⟨.TIM, 0, 0⟩, by decide +kernel⟩,
   ⟨{ dev := up.put (pgUread .TIM) ⟨.TIM, 0, 0⟩ 1 }, 0x00A800, 8, ⟨.TIM, 0, 0⟩, 0, by decide +kernel⟩,
   ⟨{ dev := up }, 0x00A040, 4, ⟨.TIM, 0, 0⟩, by decide +kernel⟩⟩

/-- States and operands that meet the hypotheses of `Obligations.RegisterWrites`, one part for each clause with hypotheses of its own. -/
theorem witness_RegisterWrites :
    (∃ (addr : Nat), (addr < 2 ^ 24) ∧ (addrPage addr = 0x1FF) ∧ ((addrDie addr = 0 ∨ addrDie addr = 7))) ∧
    (∃ (addr : Nat), (addr < 2 ^ 24) ∧ (addrPage addr ≠ 0x1FF) ∧ (targets (addrDie addr) (addrPage addr) = [])) ∧
    (∃ (addr : Nat) (size : Nat), (addr < 2 ^ 24) ∧ (addrPage addr ≠ 0x1FF) ∧ (targets (addrDie addr) (addrPage addr) ≠ []) ∧ (accessOk (addrOff addr) size = false)) ∧
    (∃ (addr : Nat) (size : Nat), (addr < 2 ^ 24) ∧ (addrPage addr ≠ 0x1FF) ∧ (targets (addrDie addr) (addrPage addr) ≠ []) ∧ (accessOk (addrOff addr) size = true) ∧ (addrOff addr < 0x040)) ∧
    (∃ (addr : Nat), (addr < 2 ^ 24) ∧ (addrPage addr = rsmPage) ∧ (targets (addrDie addr) (addrPage addr) ≠ []) ∧ ((addrOff addr = 0x058 ∨ addrOff addr = 0x05C))) ∧
    ((∃ (addr data size : Nat) (f : State → Answer), addr < 2 ^ 24 ∧ addrPage addr ≠ 0x1FF ∧ targets (addrDie addr) (addrPage addr) ≠ [] ∧ accessOk (addrOff addr) size = true ∧ 0x040 ≤ addrOff addr ∧ ¬(addrPage addr = rsmPage ∧ (addrOff addr = 0x058 ∨ addrOff addr = 0x05C)) ∧ regCommand (addrDie addr) (addrPage addr) (addrOff addr) (data % 2 ^ 32) = some f)) ∧
    (∃ (addr : Nat) (data : Nat) (size : Nat), (addr < 2 ^ 24) ∧ (addrPage addr ≠ 0x1FF) ∧ (targets (addrDie addr) (addrPage addr) ≠ []) ∧ (accessOk (addrOff addr) size = true) ∧ (0x040 ≤ addrOff addr) ∧ (¬(addrPage addr = rsmPage ∧ (addrOff addr = 0x058 ∨ addrOff addr = 0x05C))) ∧ ((regCommand (addrDie addr) (addrPage addr) (addrOff addr) (data % 2 ^ 32)).isNone = true)) ∧
    (∃ (d : Dev) (die : Nat) (page : Nat) (off : Nat) (data : Nat) (p : Page), (Writable d die page p) ∧ (¬(p.tag = .LIM ∧ off = F.LIM.LOCK_IDX_IDX.off ∧ 156 < data % 256))) ∧
    (∃ (d : Dev) (die : Nat) (page : Nat) (data : Nat) (p : Page), (Writable d die page p) ∧ (p.tag = .LIM) ∧ (156 < data % 256)) ∧
    (∃ (s : State) (die : Nat) (page : Nat) (p : Page), (Writable s.dev die page p)) ∧
    (∃ (s : State) (die : Nat) (page : Nat) (p : Page), (pageAt die page = some p) ∧ (s.dev.get (pgRstBusy p.tag) p = 1)) ∧
    ((∃ (s : State) (die page : Nat), ∀ p, pageAt die page = some p → s.dev.get (pgRstBusy p.tag) p ≠ 1)) ∧
    (∃ (d : Dev) (p : Page), (d.get (pgCommitBusy p.tag) p = 1)) ∧
    (∃ (d : Dev) (p : Page), (d.get (pgCommitBusy p.tag) p ≠ 1) ∧ (isRoute p.die = true) ∧ (d.dieHalted p.die = true)) :=
  ⟨⟨0x1FF00C, by decide +kernel⟩,
   ⟨0x0FF004, by decide +kernel⟩,
   ⟨0x006004, 8, by decide +kernel⟩,
   ⟨0x006008, 4, by decide +kernel⟩,
   ⟨5 * 0x200000 + rsmPage * 0x1000 + 0x058, by decide +kernel⟩,
   ⟨0x0020C4, 1, 4, execFirstClear 1, by decide +kernel, by decide +kernel, by decide +kernel, by decide +kernel, by decide +kernel, by decide +kernel, rfl⟩,
   ⟨0x00B040, 5, 4, by decide +kernel⟩,
   ⟨up, 0, 0x00B, 0x040, 5, ⟨.SNS, 0, 0⟩, by decide +kernel⟩,
   ⟨up, 5, limPage, 157, ⟨.LIM, 5, 0⟩, by decide +kernel⟩,
   ⟨{ dev := up }, 6, 0x187, ⟨.TXF, 6, 3⟩, by decide +kernel⟩,
   ⟨{ dev := up.put (pgRstBusy .TXF) ⟨.TXF, 6, 3⟩ 1 }, 6, 0x187, ⟨.TXF, 6, 3⟩, by decide +kernel⟩,
   ⟨{}, 6, 0x1FE, by intro p h; rw [show pageAt 6 0x1FE = none by decide +kernel] at h; exact absurd h (by simp)⟩,
   ⟨up.put (pgCommitBusy .TXF) ⟨.TXF, 6, 3⟩ 1, ⟨.TXF, 6, 3⟩, by decide +kernel⟩,
   ⟨{ up with pwr := { up.pwr with halted := 2 } }, ⟨.ING, 1, 0⟩, by decide +kernel⟩⟩

/-- States and operands that meet the hypotheses of `Obligations.RegisterWriteFails`, one part for each clause with hypotheses of its own. -/
theorem witness_RegisterWriteFails :
    ((∃ (die page : Nat), targets die page = [])) ∧
    ((∃ (s : State) (die page c : Nat) (p : Page), targets die page = [p] ∧ s.dev.pageFault p = some c)) ∧
    ((∃ (s : State) (die page : Nat) (p : Page), Reaches s.dev die page p ∧ s.dev.locked p = true)) ∧
    ((∃ (f : Fld) (p : Page) (i : Nat), ∀ g ∈ [F.HST.ACC_ERR_CNT_CNT, F.HST.ACC_ERR_OFFSET, F.HST.ACC_ERR_BAR, F.HST.ACC_ERR_CAUSE], f.key p i ≠ g.key ⟨.HST, 0, 0⟩ 0)) :=
  ⟨⟨3, 0, by decide +kernel⟩,
   ⟨{}, 6, 0x187, 3, ⟨.TXF, 6, 3⟩, by decide +kernel⟩,
   ⟨{ dev := up.put (pgLock .TXF) ⟨.TXF, 6, 3⟩ 1 }, 6, 0x187, ⟨.TXF, 6, 3⟩, by decide +kernel⟩,
   ⟨F.HST.CQ_HEAD_CNT, ⟨.HST, 0, 0⟩, 0, by decide +kernel⟩⟩

/-- States and operands that meet the hypotheses of `Obligations.ErrorRows`, one part for each clause with hypotheses of its own. -/
theorem witness_ErrorRows :
    (∃ (s : State) (die : Nat) (page : Nat) (p : Page), (Reaches s.dev die page p)) ∧
    (∃ (s : State) (data : Nat), (Writable s.dev 0 0x002 ⟨.FCL, 0, 0⟩) ∧ (bitOf data 0 = true)) ∧
    (∃ (s : State) (die : Nat) (page : Nat) (p : Page), (Writable s.dev die page p) ∧ (s.dev.on F.FCL.INJ_EN = false)) ∧
    (∃ (s : State) (data : Nat), (Writable s.dev 0 0x002 ⟨.FCL, 0, 0⟩) ∧ (bitOf data 0 = false)) ∧
    (∃ (s : State) (die : Nat) (page : Nat) (src : Nat) (p : Page), (pageAt die page = some p) ∧ (p.poweredBy s.dev.pwr.powered = true) ∧ ((srcAt p src).isSome = true)) ∧
    ((∃ (s : State) (die page src : Nat), ∀ p, pageAt die page = some p → (p.poweredBy s.dev.pwr.powered && (srcAt p src).isSome) = false)) ∧
    (∃ (s : State) (die : Nat) (page : Nat) (p : Page), (Writable s.dev die page p) ∧ (s.dev.on F.FCL.INJ_EN = true)) ∧
    (∃ (s : State) (die : Nat) (page : Nat) (p : Page), (Writable s.dev die page p)) ∧
    (∃ (s : State), (Reaches s.dev 0 0x002 ⟨.FCL, 0, 0⟩)) ∧
    (∃ (s : State) (x : Nat), (Reaches s.dev 0 0x002 ⟨.FCL, 0, 0⟩) ∧ (x < 7)) ∧
    (∃ (s : State) (r : Nat), (Reaches s.dev 0 0x002 ⟨.FCL, 0, 0⟩) ∧ (r < 24)) ∧
    (∃ (s : State) (off : Nat), (Reaches s.dev 0 0x002 ⟨.FCL, 0, 0⟩) ∧ ((off < 0x040 ∨ 0x0C0 ≤ off ∨ off % 4 ≠ 0))) ∧
    (∃ (s : State) (data : Nat), (Writable s.dev 0 0x002 ⟨.FCL, 0, 0⟩) ∧ (bitOf data 0 = true) ∧ (s.dev.code5Left = false)) ∧
    (∃ (s : State) (data : Nat), (Writable s.dev 0 0x002 ⟨.FCL, 0, 0⟩) ∧ ((bitOf data 0&&!s.dev.code5Left) = false)) :=
  ⟨⟨{ dev := up }, 1, 0x080, ⟨.ING, 1, 0⟩, by decide +kernel⟩,
   ⟨{ dev := up }, 1, by decide +kernel⟩,
   ⟨{ dev := up }, 1, 0x080, ⟨.ING, 1, 0⟩, by decide +kernel⟩,
   ⟨{ dev := up }, 2, by decide +kernel⟩,
   ⟨{ dev := up }, 1, 0x080, 0, ⟨.ING, 1, 0⟩, by decide +kernel⟩,
   ⟨{}, 6, 0x1FE, 0, by intro p h; rw [show pageAt 6 0x1FE = none by decide +kernel] at h; exact absurd h (by simp)⟩,
   ⟨{ dev := up.w F.FCL.INJ_EN 1 }, 1, 0x080, ⟨.ING, 1, 0⟩, by decide +kernel⟩,
   ⟨{ dev := up }, 1, 0x080, ⟨.ING, 1, 0⟩, by decide +kernel⟩,
   ⟨{ dev := up }, by decide +kernel⟩,
   ⟨{ dev := up }, 6, by decide +kernel⟩,
   ⟨{ dev := up }, 23, by decide +kernel⟩,
   ⟨{ dev := up }, 0x0C0, by decide +kernel⟩,
   ⟨{ dev := up }, 1, by decide +kernel⟩,
   ⟨{ dev := up }, 2, by decide +kernel⟩⟩

/-- States and operands that meet the hypotheses of `Obligations.TokenRows`, one part for each clause with hypotheses of its own. -/
theorem witness_TokenRows :
    (∃ (act : Nat) (scope : Nat), (1 ≤ act) ∧ (act ≤ 7) ∧ (scope ≠ 0)) ∧
    (∃ (act : Nat) (scope : Nat), (act = 0 ∨ 7 < act ∨ scope = 0)) ∧
    (∃ (d : Dev) (r : TokenReq), (d.grantMode = true) ∧ (d.mt.grantable d.mt.queue r = true)) ∧
    (∃ (d : Dev) (act : Nat) (scope : Nat) (arg : Nat), ((d.grantMode&&d.mt.grantable d.mt.queue ⟨act, scope, none, arg⟩) = false) ∧ (d.mt.queue.any (fun q => q.act == act&&q.scope == scope&&q.arg == arg&&q.cmd.isNone) = true)) ∧
    (∃ (d : Dev) (act : Nat) (scope : Nat) (arg : Nat), ((d.grantMode&&d.mt.grantable d.mt.queue ⟨act, scope, none, arg⟩) = false) ∧ (d.mt.queue.any (fun q => q.act == act&&q.scope == scope&&q.arg == arg&&q.cmd.isNone) = false)) ∧
    (∃ (d : Dev) (act : Nat) (scope : Nat), (d.holds act scope = false)) ∧
    (∃ (s : State), (s.dev.g F.MNT.SCRUB_CFG_PERIOD = 0 ∨ s.dev.mt.scrubTodo.any (fun e => e.2.isNone) = true)) ∧
    (∃ (s : State) (pass : (List (Nat×(Option Nat)))), (pass = ((List.range 24).filter (fun r => s.dev.regionOn r)).map (fun r => (r, none))) ∧ (s.dev.g F.MNT.SCRUB_CFG_PERIOD ≠ 0) ∧ (s.dev.mt.scrubTodo = [])) ∧
    (∃ (s : State) (pass : (List (Nat×(Option Nat)))), (pass = ((List.range 24).filter (fun r => s.dev.regionOn r)).map (fun r => (r, none))) ∧ (s.dev.g F.MNT.SCRUB_CFG_PERIOD ≠ 0) ∧ (s.dev.mt.scrubTodo ≠ []) ∧ (s.dev.mt.scrubTodo.any (fun e => e.2.isNone) = false)) ∧
    (∃ (s : State) (r : Nat) (rest : (List (Nat×(Option Nat)))), (s.dev.mt.scrubTodo = (r, none) :: rest) ∧ (s.dev.holds 4 (2 ^ r) = true)) ∧
    (∃ (s : State) (r : Nat) (id : Nat) (rest : (List (Nat×(Option Nat)))), (s.dev.mt.scrubTodo = (r, some id) :: rest) ∧ (s.dev.holds 4 (2 ^ r) = true) ∧ (rest.any (fun e => e.2 == some id) = true)) ∧
    (∃ (s : State) (r : Nat) (id : Nat) (rest : (List (Nat×(Option Nat)))), (s.dev.mt.scrubTodo = (r, some id) :: rest) ∧ (s.dev.holds 4 (2 ^ r) = true) ∧ (rest.any (fun e => e.2 == some id) = false)) ∧
    ((∃ (s : State), ∀ r ∈ s.dev.mt.scrubTodo.head?, s.dev.holds 4 (2 ^ r.1) = false)) ∧
    (∃ (s : State) (id : Nat) (c : Cmd), (Ready s.dev 0x0803 id c noRange)) ∧
    (∃ (d : Dev) (c : Cmd) (mask : Nat) (mine : (List (Nat×(Option Nat)))), (mine = (bitList 24 mask).map (fun y => (y, some c.id))) ∧ (d.mt.scrubTodo ≠ []) ∧ (d.mt.scrubTodo.any (fun e => e.2 == some c.id) = false)) ∧
    (∃ (d : Dev) (c : Cmd) (mask : Nat) (r : Nat) (mine : (List (Nat×(Option Nat)))), (mine = (bitList 24 mask).map (fun y => (y, some c.id))) ∧ (d.mt.scrubTodo = []) ∧ (r = (bitList 24 mask).headD 0) ∧ ((d.requestToken ⟨4, 2 ^ r, some c.id, r⟩).2 = .granted)) ∧
    (∃ (d : Dev) (c : Cmd) (mask : Nat) (r : Nat) (mine : (List (Nat×(Option Nat)))), (mine = (bitList 24 mask).map (fun y => (y, some c.id))) ∧ (d.mt.scrubTodo = []) ∧ (r = (bitList 24 mask).headD 0) ∧ ((d.requestToken ⟨4, 2 ^ r, some c.id, r⟩).2 = .queued)) ∧
    (∃ (d : Dev) (c : Cmd) (mask : Nat) (r : Nat), (d.mt.scrubTodo = []) ∧ (r = (bitList 24 mask).headD 0) ∧ ((d.requestToken ⟨4, 2 ^ r, some c.id, r⟩).2 = .full)) :=
  ⟨⟨7, 0xFFFFFF, by decide +kernel⟩,
   ⟨8, 1, by decide +kernel⟩,
   ⟨up, ⟨7, 0xFFFFFF, none, 0⟩, by decide +kernel⟩,
   ⟨{ up with mt := { up.mt with held := [⟨7, 0xFFFFFF, none, 0⟩], queue := [⟨1, 1, none, 0⟩] } }, 1, 1, 0, by decide +kernel⟩,
   ⟨{ up with mt := { up.mt with held := [⟨7, 0xFFFFFF, none, 0⟩] } }, 1, 1, 0, by decide +kernel⟩,
   ⟨up, 4, 8, by decide +kernel⟩,
   ⟨{ dev := up.w F.MNT.SCRUB_CFG_PERIOD 0 }, by decide +kernel⟩,
   ⟨{ dev := up.w F.MNT.SCRUB_CFG_PERIOD 1 }, ((List.range 24).filter (fun r => (({ dev := up.w F.MNT.SCRUB_CFG_PERIOD 1 }) : State).dev.regionOn r)).map (fun r => (r, none)), rfl, by decide +kernel⟩,
   ⟨{ dev := { up.w F.MNT.SCRUB_CFG_PERIOD 1 with mt := { up.mt with scrubTodo := [(3, some 0)] } } }, ((List.range 24).filter (fun r => (({ dev := { up.w F.MNT.SCRUB_CFG_PERIOD 1 with mt := { up.mt with scrubTodo := [(3, some 0)] } } }) : State).dev.regionOn r)).map (fun r => (r, none)), rfl, by decide +kernel⟩,
   ⟨{ dev := { up with mt := { up.mt with scrubTodo := [(3, none), (4, none)], held := [⟨4, 8, none, 3⟩] } } }, 3, [(4, none)], by decide +kernel⟩,
   ⟨{ dev := { up with mt := { up.mt with scrubTodo := [(3, some 0), (4, some 0)], held := [⟨4, 8, some 0, 3⟩] } } }, 3, 0, [(4, some 0)], by decide +kernel⟩,
   ⟨{ dev := { up with mt := { up.mt with scrubTodo := [(3, some 0)], held := [⟨4, 8, some 0, 3⟩] } } }, 3, 0, [], by decide +kernel⟩,
   ⟨{}, by intro r h; exact absurd h (by simp)⟩,
   ⟨st 2 (cmdOf 0x0803 4 0 0 [8]), 0, cmdOf 0x0803 4 0 0 [8], by decide +kernel⟩,
   ⟨{ up with mt := { up.mt with scrubTodo := [(3, none)] } }, cmdOf 0x0803 4 0 0 [8], 8, (bitList 24 ((8) : Nat)).map (fun y => (y, some ((cmdOf 0x0803 4 0 0 [8]) : Cmd).id)), rfl, by decide +kernel⟩,
   ⟨up, cmdOf 0x0803 4 0 0 [8], 8, 3, (bitList 24 ((8) : Nat)).map (fun y => (y, some ((cmdOf 0x0803 4 0 0 [8]) : Cmd).id)), rfl, by decide +kernel⟩,
   ⟨{ up with mt := { up.mt with held := [⟨7, 0xFFFFFF, none, 0⟩] } }, cmdOf 0x0803 4 0 0 [8], 8, 3, (bitList 24 ((8) : Nat)).map (fun y => (y, some ((cmdOf 0x0803 4 0 0 [8]) : Cmd).id)), rfl, by decide +kernel⟩,
   ⟨{ up with mt := { up.mt with held := [⟨7, 0xFFFFFF, none, 0⟩], queue := List.replicate 64 ⟨1, 1, none, 0⟩ } }, cmdOf 0x0803 4 0 0 [8], 8, 3, by decide +kernel⟩⟩

/-- States and operands that meet the hypotheses of `Obligations.BenchRows`, one part for each clause with hypotheses of its own. -/
theorem witness_BenchRows :
    (∃ (s : State) (id : Nat) (c : Cmd) (t : Nat) (x : Nat) (i : Nat), (Ready s.dev 0x0801 id c (fun d c => if d.cmdHolds c.id then none else if unitExists (c.par 24 1) (c.par 25 1) (c.par 28 4)&&(d.unit (c.par 24 1) (c.par 25 1) (c.par 28 4)).state == .active then (if (d.sparesFor (c.par 24 1) (c.par 25 1) (c.par 28 4)).isEmpty then some 2 else none) else some 1)) ∧ (t = c.par 24 1) ∧ (x = c.par 25 1) ∧ (i = c.par 28 4)) ∧
    (∃ (s : State) (id : Nat) (c : Cmd) (r : TokenReq), (r = ⟨2, substScope (c.par 24 1) (c.par 25 1) (c.par 28 4), some c.id, substArg (c.par 24 1) (c.par 25 1) (c.par 28 4) 2⟩) ∧ (Ready s.dev 0x0801 id c (fun d c => if d.cmdHolds c.id then none else if unitExists (c.par 24 1) (c.par 25 1) (c.par 28 4)&&(d.unit (c.par 24 1) (c.par 25 1) (c.par 28 4)).state == .active then (if (d.sparesFor (c.par 24 1) (c.par 25 1) (c.par 28 4)).isEmpty then some 2 else none) else some 1)) ∧ (s.dev.cmdHolds c.id = false) ∧ (s.dev.grantMode = true) ∧ (s.dev.mt.grantable s.dev.mt.queue r = true)) ∧
    (∃ (s : State) (type : Nat) (die : Nat) (old : Nat) (sparesOk : (List Bool)) (r : TokenReq), (s.dev.mt.held.find? (fun r => r.act == 2&&r.arg / 2 ^ 22 == type * 8 + die&&r.arg % 2 ^ 20 == old) = some r) ∧ ((type = 2 → s.dev.unitBusy die old = false)) ∧ ((type = 5 → (s.dev.laneServes (old / 3) (old % 3)&&(s.dev.unit 5 die old).state == .active&&sparesOk.headD true) = false))) ∧
    (∃ (s : State) (die : Nat) (old : Nat) (r : TokenReq), (s.dev.mt.held.find? (fun r => r.act == 2&&r.arg / 2 ^ 22 == 2 * 8 + die&&r.arg % 2 ^ 20 == old) = some r) ∧ (s.dev.unitBusy die old = true)) ∧
    (∃ (s : State) (die : Nat) (old : Nat) (sparesOk : (List Bool)) (r : TokenReq), (s.dev.mt.held.find? (fun r => r.act == 2&&r.arg / 2 ^ 22 == 5 * 8 + die&&r.arg % 2 ^ 20 == old) = some r) ∧ ((s.dev.laneServes (old / 3) (old % 3)&&(s.dev.unit 5 die old).state == .active&&sparesOk.headD true) = true)) ∧
    (∃ (s : State) (type : Nat) (die : Nat) (old : Nat), (s.dev.mt.held.find? (fun r => r.act == 2&&r.arg / 2 ^ 22 == type * 8 + die&&r.arg % 2 ^ 20 == old) = none)) ∧
    (∃ (d : Dev) (type : Nat) (die : Nat) (old : Nat), ((d.unit type die old).state ≠ .active)) ∧
    (∃ (d : Dev) (type : Nat) (die : Nat) (old : Nat), ((d.unit type die old).state = .active)) ∧
    (∃ (s : State) (id : Nat) (c : Cmd), (Ready s.dev 0x0802 id c (fun _ c => if 4096 < c.cnt||c.len != 16 * c.cnt then some 0 else if (unitDies (c.par 24 1)).contains (c.par 25 1)&&c.par 28 4 + c.cnt ≤ unitCount (c.par 24 1) then none else some 1))) :=
  ⟨⟨st 2 (cmdOf 0x0801 4 0 0 [0, 1, 0, 0, 0]), 0, cmdOf 0x0801 4 0 0 [0, 1, 0, 0, 0], 0, 1, 0, by decide +kernel⟩,
   ⟨st 2 (cmdOf 0x0801 4 0 0 [0, 1, 0, 0, 0]), 0, cmdOf 0x0801 4 0 0 [0, 1, 0, 0, 0], ⟨2, substScope (((cmdOf 0x0801 4 0 0 [0, 1, 0, 0, 0]) : Cmd).par 24 1) (((cmdOf 0x0801 4 0 0 [0, 1, 0, 0, 0]) : Cmd).par 25 1) (((cmdOf 0x0801 4 0 0 [0, 1, 0, 0, 0]) : Cmd).par 28 4), some ((cmdOf 0x0801 4 0 0 [0, 1, 0, 0, 0]) : Cmd).id, substArg (((cmdOf 0x0801 4 0 0 [0, 1, 0, 0, 0]) : Cmd).par 24 1) (((cmdOf 0x0801 4 0 0 [0, 1, 0, 0, 0]) : Cmd).par 25 1) (((cmdOf 0x0801 4 0 0 [0, 1, 0, 0, 0]) : Cmd).par 28 4) 2⟩, rfl, by decide +kernel⟩,
   ⟨{ dev := { up with mt := { up.mt with held := [⟨2, 16, none, substArg 0 1 0 2⟩] } } }, 0, 1, 0, [], ⟨2, 16, none, substArg 0 1 0 2⟩, by decide +kernel⟩,
   ⟨{ dev := receivingUnit }, 4, 541, ⟨2, 16, none, substArg 2 4 541 2⟩, by decide +kernel⟩,
   ⟨{ dev := lanePending }, 0, 0, [], ⟨2, 16, none, substArg 5 0 0 2⟩, by decide +kernel⟩,
   ⟨{ dev := up }, 0, 1, 0, by decide +kernel⟩,
   ⟨up, 0, 1, 7, by decide +kernel⟩,
   ⟨up, 0, 1, 0, by decide +kernel⟩,
   ⟨st 2 (cmdOf 0x0802 4 16 1 [0, 1, 0, 0, 127]), 0, cmdOf 0x0802 4 16 1 [0, 1, 0, 0, 127], by decide +kernel⟩⟩

/-- States and operands that meet the hypotheses of `Obligations.RingRows`, one part for each clause with hypotheses of its own. -/
theorem witness_RingRows :
    (∃ (s : State), (Writable s.dev 0 0x006 ⟨.HST, 0, 0⟩)) ∧
    (∃ (s : State) (ring : Nat), (Writable s.dev 0 0x006 ⟨.HST, 0, 0⟩) ∧ (ring < 4)) ∧
    (∃ (s : State) (ring : Nat), (s.dev.fetching = false ∨ 4 ≤ ring ∨ s.dev.ringReady ring = false)) ∧
    (∃ (s : State) (ring : Nat), (s.dev.fetching = true) ∧ (ring < 4) ∧ (s.dev.ringReady ring = true)) ∧
    (∃ (s : State) (ring : Nat) (die : Nat), (s.dev.fetching = true) ∧ (ring < 4) ∧ (s.dev.ringReady ring = true) ∧ (s.dev.fullDie (s.dev.headCmd s.host ring) = some die)) ∧
    (∃ (s : State) (ring : Nat), (s.dev.fetching = true) ∧ (ring < 4) ∧ (s.dev.ringReady ring = true) ∧ (s.dev.fullDie (s.dev.headCmd s.host ring) = none) ∧ (s.dev.nextRing s.host ≠ some ring)) ∧
    (∃ (s : State) (ring : Nat) (left : Nat), (s.dev.fetching = true) ∧ (ring < 4) ∧ (s.dev.ringReady ring = true) ∧ (s.dev.fullDie (s.dev.headCmd s.host ring) = none) ∧ (s.dev.nextRing s.host = some ring) ∧ (left = (if s.dev.hl.visit == ring&&s.dev.hl.visitLeft != 0 then s.dev.hl.visitLeft else s.dev.weight ring))) ∧
    (∃ (s : State) (id : Nat), (s.dev.cmd id = none)) ∧
    (∃ (s : State) (id : Nat) (c : Cmd), (s.dev.cmd id = some c) ∧ ((c.evs.any (fun e => s.dev.recordWaits e.1 e.2) = true ∨ (c.interim = false ∧ c.stage ≠ .finished) ∨ (c.interim = true ∧ c.ring ≠ 4 ∧ c.discard = false ∧ s.dev.cqRoom = false)))) ∧
    (∃ (s : State) (id : Nat) (c : Cmd), (s.dev.cmd id = some c) ∧ (c.evs.any (fun e => s.dev.recordWaits e.1 e.2) = false) ∧ (c.interim = true) ∧ ((c.ring = 4 ∨ c.discard = true))) ∧
    (∃ (s : State) (id : Nat) (c : Cmd), (s.dev.cmd id = some c) ∧ (c.evs.any (fun e => s.dev.recordWaits e.1 e.2) = false) ∧ (c.interim = true) ∧ (c.ring ≠ 4) ∧ (c.discard = false) ∧ (s.dev.cqRoom = true)) ∧
    (∃ (s : State) (id : Nat) (c : Cmd), (s.dev.cmd id = some c) ∧ (c.evs.any (fun e => s.dev.recordWaits e.1 e.2) = false) ∧ (c.interim = false) ∧ (c.stage = .finished) ∧ (c.ring = 4)) ∧
    (∃ (s : State) (id : Nat) (c : Cmd), (s.dev.cmd id = some c) ∧ (c.evs.any (fun e => s.dev.recordWaits e.1 e.2) = false) ∧ (c.interim = false) ∧ (c.stage = .finished) ∧ (c.ring ≠ 4) ∧ ((c.discard = true ∨ (bitOf c.flags 1&&c.cpl.status == stOk) = true))) ∧
    (∃ (s : State) (id : Nat) (c : Cmd), (s.dev.cmd id = some c) ∧ (c.evs.any (fun e => s.dev.recordWaits e.1 e.2) = false) ∧ (c.interim = false) ∧ (c.stage = .finished) ∧ (c.ring ≠ 4) ∧ (c.discard = false) ∧ ((bitOf c.flags 1&&c.cpl.status == stOk) = false) ∧ ((s.dev.cqRoom = false ∨ s.dev.orderedBehind c = true))) ∧
    (∃ (s : State) (id : Nat) (c : Cmd), (s.dev.cmd id = some c) ∧ (c.evs.any (fun e => s.dev.recordWaits e.1 e.2) = false) ∧ (c.interim = false) ∧ (c.stage = .finished) ∧ (c.ring ≠ 4) ∧ (c.discard = false) ∧ ((bitOf c.flags 1&&c.cpl.status == stOk) = false) ∧ (s.dev.cqRoom = true) ∧ (s.dev.orderedBehind c = false)) ∧
    (∃ (s : State), (s.dev.g F.HST.CQ_IRQ_TIME ≠ 0) ∧ (s.dev.hl.unsignalled ≠ 0)) ∧
    (∃ (s : State), (s.dev.g F.HST.CQ_IRQ_TIME = 0 ∨ s.dev.hl.unsignalled = 0)) ∧
    (∃ (s : State), (s.dev.g F.HST.CQ_STALL_MS ≠ 0) ∧ (s.dev.cqRoom = false)) ∧
    (∃ (s : State), (s.dev.g F.HST.CQ_STALL_MS = 0 ∨ s.dev.cqRoom = true)) :=
  ⟨⟨{ dev := up }, by decide +kernel⟩,
   ⟨{ dev := up }, 3, by decide +kernel⟩,
   ⟨{ dev := up }, 4, by decide +kernel⟩,
   ⟨{ dev := (up.w F.HST.CR_CFG_WEIGHT 1 0 0 3).w F.HST.CR_TAIL_IDX 1 0 0 3 }, 3, by decide +kernel⟩,
   ⟨fullRing, 3, 0, by decide +kernel⟩,
   ⟨{ dev := (((up.w F.HST.CR_CFG_WEIGHT 1 0 0 3).w F.HST.CR_TAIL_IDX 1 0 0 3).w F.HST.CR_CFG_WEIGHT 1 0 0 0).w F.HST.CR_TAIL_IDX 1 0 0 0 }, 3, by decide +kernel⟩,
   ⟨{ dev := (up.w F.HST.CR_CFG_WEIGHT 1 0 0 3).w F.HST.CR_TAIL_IDX 1 0 0 3 }, 3, 1, by decide +kernel⟩,
   ⟨{ dev := up }, 0, by decide +kernel⟩,
   ⟨{ dev := flying up (cmdOf 1 4 0 0 []) }, 0, cmdOf 1 4 0 0 [], by decide +kernel⟩,
   ⟨{ dev := flying up { cmdOf 1 4 0 0 [] with interim := true, discard := true } }, 0, { cmdOf 1 4 0 0 [] with interim := true, discard := true }, by decide +kernel⟩,
   ⟨{ dev := (flying up { cmdOf 1 4 0 0 [] with interim := true }).w F.HST.CQ_CFG_SIZE_LOG2 6 }, 0, { cmdOf 1 4 0 0 [] with interim := true }, by decide +kernel⟩,
   ⟨{ dev := flying up { finished (cmdOf 1 4 0 0 []) with ring := 4 } }, 0, { finished (cmdOf 1 4 0 0 []) with ring := 4 }, by decide +kernel⟩,
   ⟨{ dev := flying up { finished (cmdOf 1 4 0 0 []) with discard := true } }, 0, { finished (cmdOf 1 4 0 0 []) with discard := true }, by decide +kernel⟩,
   ⟨{ dev := (((flying up (finished (cmdOf 1 4 0 0 []))).w F.HST.CQ_CFG_SIZE_LOG2 6).w F.HST.CQ_TAIL_CNT 64) }, 0, finished (cmdOf 1 4 0 0 []), by decide +kernel⟩,
   ⟨{ dev := (flying up (finished (cmdOf 1 4 0 0 []))).w F.HST.CQ_CFG_SIZE_LOG2 6 }, 0, finished (cmdOf 1 4 0 0 []), by decide +kernel⟩,
   ⟨{ dev := { up.w F.HST.CQ_IRQ_TIME 1 with hl := { unsignalled := 1 } } }, by decide +kernel⟩,
   ⟨{ dev := up }, by decide +kernel⟩,
   ⟨{ dev := ((up.w F.HST.CQ_STALL_MS 1).w F.HST.CQ_CFG_SIZE_LOG2 6).w F.HST.CQ_TAIL_CNT 64 }, by decide +kernel⟩,
   ⟨{ dev := up.w F.HST.CQ_STALL_MS 0 }, by decide +kernel⟩⟩

/-- States and operands that meet the hypotheses of `Obligations.CommandRows`, one part for each clause with hypotheses of its own. -/
theorem witness_CommandRows :
    (∃ (s : State) (id : Nat) (die : Nat) (c : Cmd), (s.dev.cmd id = some c) ∧ (s.dev.hostNext id die c = true) ∧ ((s.dev.dieUp die = true → s.dev.mode ≠ mShadow → s.dev.mayPlace die 2 = true))) ∧
    (∃ (s : State) (id : Nat), (s.dev.cmd id = none)) ∧
    (∃ (s : State) (id : Nat) (die : Nat) (c : Cmd), (s.dev.cmd id = some c) ∧ (s.dev.hostNext id die c = false)) ∧
    (∃ (s : State) (id : Nat) (die : Nat) (c : Cmd), (s.dev.cmd id = some c) ∧ (s.dev.hostNext id die c = true) ∧ (s.dev.dieUp die = true) ∧ (s.dev.mode ≠ mShadow) ∧ (s.dev.mayPlace die 2 = false)) ∧
    (∃ (s : State) (id : Nat) (die : Nat) (c : Cmd), (Working s) ∧ (s.dev.hl.inflight = [c]) ∧ (s.dev.hl.mboxWait = none) ∧ (c.id = id) ∧ (isRoute die = true) ∧ (c.stage = .fetched) ∧ (c.toSeq = 2 ^ (die - 1)) ∧ (c.dies = 2 ^ (die - 1)) ∧ (c.early = none) ∧ (c.evs = []) ∧ (s.dev.dieUp die = true) ∧ (s.dev.mode = mService) ∧ (s.dev.mayPlace die 2 = true)) ∧
    (∃ (s : State) (id : Nat) (c : Cmd), (Ready s.dev 0x0001 id c noRange)) ∧
    (∃ (s : State) (data : Nat), (Writable s.dev 0 0x000 ⟨.CPT, 0, 0⟩) ∧ (bitOf data 0 = false)) ∧
    (∃ (s : State) (data : Nat), (Writable s.dev 0 0x000 ⟨.CPT, 0, 0⟩) ∧ (bitOf data 0 = true) ∧ (s.dev.on F.CPT.MBOX_STAT_BUSY = true)) ∧
    (∃ (s : State) (data : Nat), (Writable s.dev 0 0x000 ⟨.CPT, 0, 0⟩) ∧ (bitOf data 0 = true) ∧ (s.dev.on F.CPT.MBOX_STAT_BUSY = false) ∧ ((s.dev.booted = false ∨ (s.dev.mode ≠ mRecover ∧ s.dev.fetching = false)))) ∧
    (∃ (s : State) (data : Nat) (c : Cmd) (d1 : Dev), (c = s.dev.viaEngine { id := s.dev.hl.nextId, ring := 4, bytes := (List.range 16).flatMap (fun w => toLE 4 (s.dev.g F.CPT.MBOX_CMD_W 0 0 w)), stage := .fetched, toSeq := 0, seq := 0, discard := false, interim := false, cpl := ⟨0, 0, 0, 0⟩ }) ∧ (d1 = ((s.dev.w F.CPT.MBOX_STAT_BUSY 1).w F.CPT.MBOX_STAT_DONE 0).inc C.CPT.MBOX_CMDS) ∧ (Writable s.dev 0 0x000 ⟨.CPT, 0, 0⟩) ∧ (bitOf data 0 = true) ∧ (s.dev.on F.CPT.MBOX_STAT_BUSY = false) ∧ (s.dev.booted = true) ∧ (s.dev.mode ≠ mRecover) ∧ (s.dev.fetching = true)) ∧
    (∃ (d : Dev) (c : Cmd), (d.hl.mboxWait = some c) ∧ (d.fullDie c = none)) ∧
    (∃ (d : Dev) (c : Cmd), (d.hl.mboxWait = some c) ∧ ((d.fullDie c).isSome = true)) :=
  ⟨⟨{ dev := flying up { cmdOf 1 1 0 0 [] with stage := .fetched, toSeq := 1 } }, 0, 1, { cmdOf 1 1 0 0 [] with stage := .fetched, toSeq := 1 }, by decide +kernel⟩,
   ⟨{ dev := up }, 0, by decide +kernel⟩,
   ⟨{ dev := flying up (cmdOf 1 1 0 0 []) }, 0, 1, cmdOf 1 1 0 0 [], by decide +kernel⟩,
   ⟨{ dev := flying (up.setRoute 1 (fun r => { r with air := [sampleIn], visit := 0, left := 1 })) { cmdOf 1 1 0 0 [] with stage := .fetched, toSeq := 1 } }, 0, 1, { cmdOf 1 1 0 0 [] with stage := .fetched, toSeq := 1 }, by decide +kernel⟩,
   ⟨{ dev := flying up { cmdOf 1 1 0 0 [] with stage := .fetched, toSeq := 1 } }, 0, 1, { cmdOf 1 1 0 0 [] with stage := .fetched, toSeq := 1 }, by decide +kernel⟩,
   ⟨st 2 (cmdOf 1 7 0 0 []), 0, cmdOf 1 7 0 0 [], by decide +kernel⟩,
   ⟨{ dev := up }, 2, by decide +kernel⟩,
   ⟨{ dev := up.w F.CPT.MBOX_STAT_BUSY 1 }, 1, by decide +kernel⟩,
   ⟨{ dev := up.w F.BTL.BOOT_STAT_DONE 0 }, 1, by decide +kernel⟩,
   ⟨{ dev := up }, 1, (({ dev := up }) : State).dev.viaEngine { id := (({ dev := up }) : State).dev.hl.nextId, ring := 4, bytes := (List.range 16).flatMap (fun w => toLE 4 ((({ dev := up }) : State).dev.g F.CPT.MBOX_CMD_W 0 0 w)), stage := .fetched, toSeq := 0, seq := 0, discard := false, interim := false, cpl := ⟨0, 0, 0, 0⟩ }, (((({ dev := up }) : State).dev.w F.CPT.MBOX_STAT_BUSY 1).w F.CPT.MBOX_STAT_DONE 0).inc C.CPT.MBOX_CMDS, rfl, rfl, by decide +kernel⟩,
   ⟨{ up with hl := { up.hl with mboxWait := some (cmdOf 1 4 0 0 []) } }, cmdOf 1 4 0 0 [], by decide +kernel⟩,
   ⟨{ fullRing.dev with hl := { fullRing.dev.hl with mboxWait := some (cmdOf 1 1 0 0 []) } }, cmdOf 1 1 0 0 [], by decide +kernel⟩⟩

/-- States and operands that meet the hypotheses of `Obligations.ModeRequests`, one part for each clause with hypotheses of its own. -/
theorem witness_ModeRequests :
    (∃ (s : State), (Writable s.dev 0 0x004 ⟨.BTL, 0, 0⟩)) ∧
    (∃ (s : State) (m : Nat), (m = s.dev.g F.BTL.BOOT_STAT_TARGET) ∧ (s.dev.booted = true) ∧ (s.dev.on F.BTL.BOOT_STAT_TRANS = true) ∧ ((m = mDoze → s.dev.dozeEntering = true)) ∧ ((s.dev.twin = 5 → s.dev.tw.step = 4))) ∧
    (∃ (s : State), (s.dev.booted = false ∨ s.dev.on F.BTL.BOOT_STAT_TRANS = false ∨ (s.dev.twin = 5 ∧ s.dev.tw.step ≠ 4) ∨ (s.dev.g F.BTL.BOOT_STAT_TARGET = mDoze ∧ s.dev.dozeEntering = false))) ∧
    (∃ (d : Dev), (d.g F.BTL.BOOT_STAT_TARGET = mDoze)) ∧
    (∃ (d : Dev) (m : Nat), (m = d.g F.BTL.BOOT_STAT_TARGET) ∧ (m ≠ mDoze) ∧ (d.ms.dozeStep ≠ 7)) ∧
    (∃ (d : Dev) (m : Nat) (d1 : Dev), (m = d.g F.BTL.BOOT_STAT_TARGET) ∧ (d1 = ({ d with ms := { d.ms with dozeStep := 0 } } : Dev).enterMode m) ∧ (m ≠ mDoze) ∧ (d.ms.dozeStep = 7)) ∧
    (∃ (s : State), (s.dev.mode = mQuiesce) ∧ (s.dev.on F.BTL.BOOT_STAT_TRANS = false) ∧ (s.dev.g F.BTL.QUIESCE_MAX_SEC ≠ 0) ∧ (s.dev.on F.UPD.STAT_ACT_BUSY = false) ∧ (s.dev.twin ≠ 6)) ∧
    (∃ (s : State), (s.dev.mode ≠ mQuiesce ∨ s.dev.on F.BTL.BOOT_STAT_TRANS = true ∨ s.dev.g F.BTL.QUIESCE_MAX_SEC = 0 ∨ s.dev.on F.UPD.STAT_ACT_BUSY = true ∨ s.dev.twin = 6)) :=
  ⟨⟨{ dev := up }, by decide +kernel⟩,
   ⟨{ dev := ((inMode 1).w F.BTL.BOOT_STAT_TARGET 2).w F.BTL.BOOT_STAT_TRANS 1 }, (({ dev := ((inMode 1).w F.BTL.BOOT_STAT_TARGET 2).w F.BTL.BOOT_STAT_TRANS 1 }) : State).dev.g F.BTL.BOOT_STAT_TARGET, rfl, by decide +kernel⟩,
   ⟨{ dev := up }, by decide +kernel⟩,
   ⟨up.w F.BTL.BOOT_STAT_TARGET 4, by decide +kernel⟩,
   ⟨up.w F.BTL.BOOT_STAT_TARGET 2, ((up.w F.BTL.BOOT_STAT_TARGET 2) : Dev).g F.BTL.BOOT_STAT_TARGET, rfl, by decide +kernel⟩,
   ⟨{ up.w F.BTL.BOOT_STAT_TARGET 2 with ms := { up.ms with dozeStep := 7 } }, (({ up.w F.BTL.BOOT_STAT_TARGET 2 with ms := { up.ms with dozeStep := 7 } }) : Dev).g F.BTL.BOOT_STAT_TARGET, ({ (({ up.w F.BTL.BOOT_STAT_TARGET 2 with ms := { up.ms with dozeStep := 7 } }) : Dev) with ms := { (({ up.w F.BTL.BOOT_STAT_TARGET 2 with ms := { up.ms with dozeStep := 7 } }) : Dev).ms with dozeStep := 0 } } : Dev).enterMode (((({ up.w F.BTL.BOOT_STAT_TARGET 2 with ms := { up.ms with dozeStep := 7 } }) : Dev).g F.BTL.BOOT_STAT_TARGET) : Nat), rfl, rfl, by decide +kernel⟩,
   ⟨{ dev := (inMode 5).w F.BTL.QUIESCE_MAX_SEC 1 }, by decide +kernel⟩,
   ⟨{ dev := up }, by decide +kernel⟩⟩

/-- States and operands that meet the hypotheses of `Obligations.WakeRows`, one part for each clause with hypotheses of its own. -/
theorem witness_WakeRows :
    (∃ (s : State), (s.dev.ms.dozeStep = 6)) ∧
    (∃ (s : State), (s.dev.dozeEntering = false) ∧ (s.dev.ms.dozeStep ≠ 6)) ∧
    (∃ (s : State) (n : Nat) (high : Bool), (s.dev.ms.dozeStep = 6) ∧ (bitOf (s.dev.g F.BTL.DOZE_GPIO_EN) n = true) ∧ (bitOf (s.dev.g F.BTL.DOZE_GPIO_POL) n = high)) ∧
    (∃ (s : State) (n : Nat) (high : Bool), (s.dev.dozeEntering = true) ∧ (bitOf (s.dev.g F.BTL.DOZE_GPIO_EN) n = true) ∧ (bitOf (s.dev.g F.BTL.DOZE_GPIO_POL) n = high)) ∧
    (∃ (s : State) (n : Nat) (high : Bool), ((bitOf (s.dev.g F.BTL.DOZE_GPIO_EN) n = false ∨ bitOf (s.dev.g F.BTL.DOZE_GPIO_POL) n ≠ high))) ∧
    (∃ (s : State), (s.dev.dozeEntering = true)) ∧
    (∃ (s : State), (s.dev.ms.dozeStep = 6) ∧ (s.dev.g F.BTL.DOZE_TIMER_SEC ≠ 0)) ∧
    (∃ (s : State), (s.dev.ms.dozeStep ≠ 6 ∨ s.dev.g F.BTL.DOZE_TIMER_SEC = 0)) ∧
    (∃ (s : State) (bus : Nat) (frame : (Option CanRx)) (k : Nat) (d1 : Dev), (d1 = (s.dev.wakeCause frame.isSome frame.isNone false false false bus 0).wakeFrame k bus frame) ∧ (s.dev.ms.dozeStep = 6) ∧ (s.dev.wakesCan bus frame = true) ∧ (s.dev.wakeEntry bus frame = some k)) ∧
    (∃ (s : State) (bus : Nat) (frame : (Option CanRx)) (k : Nat) (d1 : Dev), (d1 = (s.dev.wakeCause frame.isSome frame.isNone false false false bus 0).wakeFrame k bus frame) ∧ (s.dev.dozeEntering = true) ∧ (4 ≤ s.dev.ms.dozeStep) ∧ (s.dev.wakesCan bus frame = true) ∧ (s.dev.wakeEntry bus frame = some k)) ∧
    (∃ (s : State) (bus : Nat) (frame : (Option CanRx)), ((s.dev.ms.dozeStep < 4 ∨ s.dev.wakesCan bus frame = false ∨ s.dev.wakeEntry bus frame = none ∨ (s.dev.dozeEntering = false ∧ s.dev.ms.dozeStep ≠ 6)))) ∧
    (∃ (s : State) (bus : Nat) (frame : (Option CanRx)), ((s.dev.dozeEntering&&decide (4 ≤ s.dev.ms.dozeStep)) = false) ∧ (s.dev.ms.dozeStep ≠ 6) ∧ (s.dev.wakesCan bus frame = true)) ∧
    (∃ (s : State) (bus : Nat) (frame : (Option CanRx)), ((s.dev.dozeEntering&&decide (4 ≤ s.dev.ms.dozeStep)) = false) ∧ (s.dev.ms.dozeStep ≠ 6) ∧ (s.dev.wakesCan bus frame = false)) ∧
    (∃ (s : State), ((s.dev.dozeEntering&&decide (4 ≤ s.dev.ms.dozeStep)) = true ∨ s.dev.ms.dozeStep = 6)) ∧
    (∃ (s : State), (s.dev.pins.wakeNLow = true) ∧ (s.dev.ms.dozeStep = 0)) ∧
    (∃ (s : State), (s.dev.pins.wakeNLow = false ∨ s.dev.ms.dozeStep ≠ 0)) :=
  ⟨⟨{ dev := { inMode 4 with ms := { dozeStep := 6 } } }, by decide +kernel⟩,
   ⟨{ dev := up }, by decide +kernel⟩,
   ⟨{ dev := { (inMode 4).w F.BTL.DOZE_GPIO_EN 128 with ms := { dozeStep := 6 } } }, 7, false, by decide +kernel⟩,
   ⟨{ dev := { (((inMode 2).w F.BTL.DOZE_GPIO_EN 128).w F.BTL.BOOT_STAT_TRANS 1).w F.BTL.BOOT_STAT_TARGET 4 with ms := { dozeStep := 5 } } }, 7, false, by decide +kernel⟩,
   ⟨{ dev := { inMode 4 with ms := { dozeStep := 6 } } }, 7, false, by decide +kernel⟩,
   ⟨{ dev := { ((inMode 2).w F.BTL.BOOT_STAT_TRANS 1).w F.BTL.BOOT_STAT_TARGET 4 with ms := { dozeStep := 0 } } }, by decide +kernel⟩,
   ⟨{ dev := { (inMode 4).w F.BTL.DOZE_TIMER_SEC 1 with ms := { dozeStep := 6 } } }, by decide +kernel⟩,
   ⟨{ dev := up }, by decide +kernel⟩,
   ⟨{ dev := { ((inMode 4).w F.CAN.STAT_ASLEEP 1 0 31).w F.GWY.WMAP_TRIG_BUS 31 0 0 63 |>.w F.GWY.WMAP_TRIG_KIND 1 0 0 63 with ms := { dozeStep := 6 } } }, 31, none, 63, ((({ dev := { ((inMode 4).w F.CAN.STAT_ASLEEP 1 0 31).w F.GWY.WMAP_TRIG_BUS 31 0 0 63 |>.w F.GWY.WMAP_TRIG_KIND 1 0 0 63 with ms := { dozeStep := 6 } } }) : State).dev.wakeCause ((none) : (Option CanRx)).isSome ((none) : (Option CanRx)).isNone false false false ((31) : Nat) 0).wakeFrame ((63) : Nat) ((31) : Nat) ((none) : (Option CanRx)), rfl, by decide +kernel⟩,
   ⟨{ dev := { ((((inMode 2).w F.BTL.BOOT_STAT_TRANS 1).w F.BTL.BOOT_STAT_TARGET 4).w F.CAN.STAT_ASLEEP 1 0 31).w F.GWY.WMAP_TRIG_BUS 31 0 0 63 |>.w F.GWY.WMAP_TRIG_KIND 1 0 0 63 with ms := { dozeStep := 4 } } }, 31, none, 63, ((({ dev := { ((((inMode 2).w F.BTL.BOOT_STAT_TRANS 1).w F.BTL.BOOT_STAT_TARGET 4).w F.CAN.STAT_ASLEEP 1 0 31).w F.GWY.WMAP_TRIG_BUS 31 0 0 63 |>.w F.GWY.WMAP_TRIG_KIND 1 0 0 63 with ms := { dozeStep := 4 } } }) : State).dev.wakeCause ((none) : (Option CanRx)).isSome ((none) : (Option CanRx)).isNone false false false ((31) : Nat) 0).wakeFrame ((63) : Nat) ((31) : Nat) ((none) : (Option CanRx)), rfl, by decide +kernel⟩,
   ⟨{ dev := up }, 0, none, by decide +kernel⟩,
   ⟨{ dev := up.w F.CAN.STAT_ASLEEP 1 0 31 }, 31, none, by decide +kernel⟩,
   ⟨{ dev := up }, 31, none, by decide +kernel⟩,
   ⟨{ dev := { inMode 4 with ms := { dozeStep := 6 } } }, by decide +kernel⟩,
   ⟨{ dev := { up with pins := { wakeNLow := true } } }, by decide +kernel⟩,
   ⟨{ dev := { up with pins := { wakeNLow := true }, ms := { dozeStep := 7 } } }, by decide +kernel⟩⟩

/-- States and operands that meet the hypotheses of `Obligations.BootAndCaptain`, one part for each clause with hypotheses of its own. -/
theorem witness_BootAndCaptain :
    (∃ (s : State), (s.dev.pwr.bootDue = true) ∧ (s.dev.pwr.inReset = false)) ∧
    (∃ (s : State), (s.dev.pwr.bootDue = false ∨ s.dev.pwr.inReset = true)) ∧
    (∃ (s : State) (id : Nat) (c : Cmd), (Ready s.dev 0x0901 id c (lenIs 64))) ∧
    (∃ (s : State) (id : Nat) (c : Cmd), (Ready s.dev 0x0908 id c (lenIs 16))) ∧
    ((∃ (s : State) (c : Cmd), Ready s.dev 0x0909 0 c (fun d c => if c.len != 16||decide (c.par 24 1 < 4)||decide (7 < c.par 24 1)||decide (3 < c.par 25 1)||d.cpt.blocked then some 0 else none) ∧ s.dev.debugGood (c.par 24 1) (c.par 25 1) (c.buf s.host 16) = true)) ∧
    (∃ (s : State) (id : Nat) (c : Cmd) (slot : Nat) (scope : Nat), (Ready s.dev 0x0909 id c (fun d c => if c.len != 16||decide (c.par 24 1 < 4)||decide (7 < c.par 24 1)||decide (3 < c.par 25 1)||d.cpt.blocked then some 0 else none)) ∧ (slot = c.par 24 1) ∧ (scope = c.par 25 1) ∧ (s.dev.debugGood slot scope (c.buf s.host 16) = false)) ∧
    (∃ (s : State) (id : Nat) (c : Cmd), (Ready s.dev 0x0907 id c (lenIs 184))) :=
  ⟨⟨{}, by decide +kernel⟩,
   ⟨{ dev := up }, by decide +kernel⟩,
   ⟨st 2 (cmdOf 0x0901 4 64 0 []), 0, cmdOf 0x0901 4 64 0 [], by decide +kernel⟩,
   ⟨st 2 (cmdOf 0x0908 4 16 0 []), 0, cmdOf 0x0908 4 16 0 [], by decide +kernel⟩,
   ⟨unlocking, cmdOf 0x0909 4 16 0 [4, 0], by decide +kernel⟩,
   ⟨st 2 (cmdOf 0x0909 4 16 0 [7, 3]), 0, cmdOf 0x0909 4 16 0 [7, 3], 7, 3, by decide +kernel⟩,
   ⟨st 2 (cmdOf 0x0907 4 184 0 []), 0, cmdOf 0x0907 4 184 0 [], by decide +kernel⟩⟩

/-- States and operands that meet the hypotheses of `Obligations.BandReceivers`, one part for each clause with hypotheses of its own. -/
theorem witness_BandReceivers :
    (∃ (s : State) (die : Nat) (d0 : Dev), (d0 = s.dev.setBand die (fun b => { b with autoTry := false })) ∧ (isBand die = true) ∧ (s.dev.bandState die = 2) ∧ ((d0.bandWanted die = 3 ∨ d0.bandWanted die = 5))) ∧
    (∃ (s : State) (die : Nat) (d0 : Dev), (d0 = s.dev.setBand die (fun b => { b with autoTry := false })) ∧ (isBand die = true) ∧ (s.dev.bandState die = 2) ∧ (d0.bandWanted die = 1)) ∧
    (∃ (s : State) (die : Nat), (isBand die = false ∨ s.dev.bandState die ≠ 2)) ∧
    (∃ (s : State) (die : Nat) (d0 : Dev), (d0 = s.dev.setBand die (fun b => { b with autoTry := false })) ∧ (isBand die = true) ∧ (3 ≤ s.dev.bandState die) ∧ (s.dev.bandState die ≤ 5)) ∧
    (∃ (s : State) (die : Nat) (d0 : Dev) (d1 : Dev), (d0 = s.dev.setBand die (fun b => { b with autoTry := false })) ∧ (d1 = (d0.w F.SYN.CAL_STAT_RX_BUSY 0 die).bandTo die 6) ∧ (isBand die = true) ∧ (s.dev.bandState die = 2)) ∧
    (∃ (s : State) (die : Nat), (isBand die = false ∨ s.dev.bandState die < 2 ∨ 5 < s.dev.bandState die)) ∧
    (∃ (s : State) (die : Nat) (n : Nat), (n = (s.dev.recentRetries die).length) ∧ (isBand die = true) ∧ (s.dev.bandState die = 6) ∧ (n < 3)) ∧
    (∃ (s : State) (die : Nat), (isBand die = false ∨ s.dev.bandState die ≠ 6 ∨ 3 ≤ (s.dev.recentRetries die).length)) ∧
    (∃ (s : State) (die : Nat) (p : Page), (Writable s.dev die rsmPage p) ∧ (s.dev.bandState p.die = 6)) ∧
    (∃ (s : State) (die : Nat) (p : Page), (Writable s.dev die rsmPage p) ∧ (s.dev.bandState p.die ≠ 6)) ∧
    (∃ (s : State) (die : Nat) (p : Page), (Writable s.dev die 0x182 p) ∧ (p.tag = .RSM)) :=
  ⟨⟨{ dev := (up.w F.RSM.BAND_STAT_STATE 2 6).w F.RSM.REQ_TARGET 3 6 }, 6, (({ dev := (up.w F.RSM.BAND_STAT_STATE 2 6).w F.RSM.REQ_TARGET 3 6 }) : State).dev.setBand ((6) : Nat) (fun b => { b with autoTry := false }), rfl, by decide +kernel⟩,
   ⟨{ dev := ((inMode 1).w F.RSM.BAND_STAT_STATE 2 6).w F.RSM.REQ_TARGET 1 6 }, 6, (({ dev := ((inMode 1).w F.RSM.BAND_STAT_STATE 2 6).w F.RSM.REQ_TARGET 1 6 }) : State).dev.setBand ((6) : Nat) (fun b => { b with autoTry := false }), rfl, by decide +kernel⟩,
   ⟨{ dev := up }, 4, by decide +kernel⟩,
   ⟨{ dev := up.w F.RSM.BAND_STAT_STATE 5 6 }, 6, (({ dev := up.w F.RSM.BAND_STAT_STATE 5 6 }) : State).dev.setBand ((6) : Nat) (fun b => { b with autoTry := false }), rfl, by decide +kernel⟩,
   ⟨{ dev := up.w F.RSM.BAND_STAT_STATE 2 6 }, 6, (({ dev := up.w F.RSM.BAND_STAT_STATE 2 6 }) : State).dev.setBand ((6) : Nat) (fun b => { b with autoTry := false }), ((((({ dev := up.w F.RSM.BAND_STAT_STATE 2 6 }) : State).dev.setBand ((6) : Nat) (fun b => { b with autoTry := false })) : Dev).w F.SYN.CAL_STAT_RX_BUSY 0 ((6) : Nat)).bandTo ((6) : Nat) 6, rfl, rfl, by decide +kernel⟩,
   ⟨{ dev := up.w F.RSM.BAND_STAT_STATE 6 6 }, 6, by decide +kernel⟩,
   ⟨{ dev := up.w F.RSM.BAND_STAT_STATE 6 6 }, 6, ((({ dev := up.w F.RSM.BAND_STAT_STATE 6 6 }) : State).dev.recentRetries ((6) : Nat)).length, rfl, by decide +kernel⟩,
   ⟨{ dev := up }, 6, by decide +kernel⟩,
   ⟨{ dev := up.w F.RSM.BAND_STAT_STATE 6 6 }, 6, ⟨.RSM, 6, 0⟩, by decide +kernel⟩,
   ⟨{ dev := up.w F.RSM.BAND_STAT_STATE 3 6 }, 6, ⟨.RSM, 6, 0⟩, by decide +kernel⟩,
   ⟨{ dev := up }, 6, ⟨.RSM, 6, 0⟩, by decide +kernel⟩⟩

/-- States and operands that meet the hypotheses of `Obligations.TransmitChains`, one part for each clause with hypotheses of its own. -/
theorem witness_TransmitChains :
    (∃ (s : State) (die : Nat) (chain : Nat) (channel : Nat) (gang : Bool) (n : Nat) (t : (Nat×Nat)), (t = s.dev.cellsOf die channel n) ∧ (isBand die = true) ∧ (chain < 4) ∧ (n = (if gang = true then if die = 5 then 2 else 16 else 1)) ∧ (channel + n ≤ 512) ∧ ((s.dev.txState die chain = 2 ∨ (s.dev.txState die chain = 1 ∧ (s.dev.chain die chain).tuned ≠ some t)))) ∧
    (∃ (s : State) (die : Nat) (chain : Nat) (channel : Nat) (gang : Bool) (n : Nat), (n = (if gang = true then if die = 5 then 2 else 16 else 1)) ∧ ((isBand die = false ∨ 4 ≤ chain ∨ 512 < channel + n ∨ s.dev.txState die chain = 0 ∨ s.dev.txState die chain = 7 ∨ (s.dev.txState die chain = 1 ∧ (s.dev.chain die chain).tuned = some (s.dev.cellsOf die channel n))))) ∧
    (∃ (s : State) (die : Nat) (chain : Nat) (channel : Nat) (gang : Bool) (n : Nat), (isBand die = true) ∧ (chain < 4) ∧ (n = (if gang = true then if die = 5 then 2 else 16 else 1)) ∧ (channel + n ≤ 512) ∧ (3 ≤ s.dev.txState die chain) ∧ (s.dev.txState die chain ≤ 6)) ∧
    (∃ (s : State) (die : Nat) (chain : Nat), (isBand die = true) ∧ (chain < 4) ∧ (s.dev.txState die chain = 2)) ∧
    (∃ (s : State) (die : Nat) (chain : Nat), (isBand die = false ∨ 4 ≤ chain ∨ s.dev.txState die chain ≠ 2)) ∧
    (∃ (s : State) (die : Nat) (chain : Nat) (d1 : Dev) (d2 : Dev) (d3 : Dev), (d1 = (s.dev.cutOff die chain).setChain die chain (fun k => { k with lossAt := some s.dev.time.lt, cal := if k.cal == 3 then 1 else k.cal })) ∧ (d2 = (s.dev.chain die chain).air.elim d1 (fun x => (d1.airedTx die chain x).txDropped (die - 2) x)) ∧ (d3 = (d2.wBit F.SYN.CAL_STAT_TX_BUSY chain false die).raise E.SYN.TXSYN_LOCK die) ∧ (isBand die = true) ∧ (chain < 4) ∧ (s.dev.txState die chain ≠ 0)) ∧
    (∃ (s : State) (die : Nat) (chain : Nat), (isBand die = false ∨ 4 ≤ chain ∨ s.dev.txState die chain = 0)) ∧
    (∃ (s : State) (die : Nat) (chains : Nat) (p : Page) (m : Nat), (m = ofBits ((bitList 4 chains).filter (fun c => s.dev.txState p.die c == 7))) ∧ (Writable s.dev die rsmPage p) ∧ (m ≠ 0)) ∧
    (∃ (s : State) (die : Nat) (chains : Nat) (p : Page), (Writable s.dev die rsmPage p) ∧ (ofBits ((bitList 4 chains).filter (fun c => s.dev.txState p.die c == 7)) = 0)) :=
  ⟨⟨{ dev := up.w F.RSM.TX_STAT_STATE 2 6 0 3 }, 6, 3, 511, false, 1, (({ dev := up.w F.RSM.TX_STAT_STATE 2 6 0 3 }) : State).dev.cellsOf ((6) : Nat) ((511) : Nat) ((1) : Nat), rfl, by decide +kernel⟩,
   ⟨{ dev := up }, 6, 3, 511, false, 1, by decide +kernel⟩,
   ⟨{ dev := up.w F.RSM.TX_STAT_STATE 4 6 0 3 }, 6, 3, 511, false, 1, by decide +kernel⟩,
   ⟨{ dev := up.w F.RSM.TX_STAT_STATE 2 6 0 3 }, 6, 3, by decide +kernel⟩,
   ⟨{ dev := up }, 6, 3, by decide +kernel⟩,
   ⟨{ dev := up.w F.RSM.TX_STAT_STATE 1 6 0 3 }, 6, 3, ((({ dev := up.w F.RSM.TX_STAT_STATE 1 6 0 3 }) : State).dev.cutOff ((6) : Nat) ((3) : Nat)).setChain ((6) : Nat) ((3) : Nat) (fun k => { k with lossAt := some (({ dev := up.w F.RSM.TX_STAT_STATE 1 6 0 3 }) : State).dev.time.lt, cal := if k.cal == 3 then 1 else k.cal }), ((({ dev := up.w F.RSM.TX_STAT_STATE 1 6 0 3 }) : State).dev.chain ((6) : Nat) ((3) : Nat)).air.elim ((((({ dev := up.w F.RSM.TX_STAT_STATE 1 6 0 3 }) : State).dev.cutOff ((6) : Nat) ((3) : Nat)).setChain ((6) : Nat) ((3) : Nat) (fun k => { k with lossAt := some (({ dev := up.w F.RSM.TX_STAT_STATE 1 6 0 3 }) : State).dev.time.lt, cal := if k.cal == 3 then 1 else k.cal })) : Dev) (fun x => (((((({ dev := up.w F.RSM.TX_STAT_STATE 1 6 0 3 }) : State).dev.cutOff ((6) : Nat) ((3) : Nat)).setChain ((6) : Nat) ((3) : Nat) (fun k => { k with lossAt := some (({ dev := up.w F.RSM.TX_STAT_STATE 1 6 0 3 }) : State).dev.time.lt, cal := if k.cal == 3 then 1 else k.cal })) : Dev).airedTx ((6) : Nat) ((3) : Nat) x).txDropped (((6) : Nat) - 2) x), (((((({ dev := up.w F.RSM.TX_STAT_STATE 1 6 0 3 }) : State).dev.chain ((6) : Nat) ((3) : Nat)).air.elim ((((({ dev := up.w F.RSM.TX_STAT_STATE 1 6 0 3 }) : State).dev.cutOff ((6) : Nat) ((3) : Nat)).setChain ((6) : Nat) ((3) : Nat) (fun k => { k with lossAt := some (({ dev := up.w F.RSM.TX_STAT_STATE 1 6 0 3 }) : State).dev.time.lt, cal := if k.cal == 3 then 1 else k.cal })) : Dev) (fun x => (((((({ dev := up.w F.RSM.TX_STAT_STATE 1 6 0 3 }) : State).dev.cutOff ((6) : Nat) ((3) : Nat)).setChain ((6) : Nat) ((3) : Nat) (fun k => { k with lossAt := some (({ dev := up.w F.RSM.TX_STAT_STATE 1 6 0 3 }) : State).dev.time.lt, cal := if k.cal == 3 then 1 else k.cal })) : Dev).airedTx ((6) : Nat) ((3) : Nat) x).txDropped (((6) : Nat) - 2) x)) : Dev).wBit F.SYN.CAL_STAT_TX_BUSY ((3) : Nat) false ((6) : Nat)).raise E.SYN.TXSYN_LOCK ((6) : Nat), rfl, rfl, rfl, by decide +kernel⟩,
   ⟨{ dev := up }, 4, 0, by decide +kernel⟩,
   ⟨{ dev := up.w F.RSM.TX_STAT_STATE 7 6 0 3 }, 6, 8, ⟨.RSM, 6, 0⟩, ofBits ((bitList 4 ((8) : Nat)).filter (fun c => (({ dev := up.w F.RSM.TX_STAT_STATE 7 6 0 3 }) : State).dev.txState ((⟨.RSM, 6, 0⟩) : Page).die c == 7)), rfl, by decide +kernel⟩,
   ⟨{ dev := up }, 6, 8, ⟨.RSM, 6, 0⟩, by decide +kernel⟩⟩

/-- States and operands that meet the hypotheses of `Obligations.Calibration`, one part for each clause with hypotheses of its own. -/
theorem witness_Calibration :
    (∃ (s : State) (die : Nat) (p : Page), (Writable s.dev die rsmPage p)) ∧
    (∃ (s : State) (die : Nat) (chains : Nat) (p : Page), (Writable s.dev die rsmPage p) ∧ (chains % 16 ≠ 0)) ∧
    (∃ (s : State) (die : Nat) (chains : Nat) (p : Page), (Writable s.dev die rsmPage p) ∧ (chains % 16 = 0)) ∧
    (∃ (s : State) (die : Nat), (isBand die = true) ∧ (s.dev.regionOn (rxRegion die) = true) ∧ (s.dev.tempMoved die (s.dev.tempC (rxRegion die)) (s.dev.g F.SYN.RX_TCAL_T die) = true)) ∧
    (∃ (s : State) (die : Nat), (isBand die = false ∨ s.dev.regionOn (rxRegion die) = false ∨ s.dev.tempMoved die (s.dev.tempC (rxRegion die)) (s.dev.g F.SYN.RX_TCAL_T die) = false)) ∧
    (∃ (s : State) (die : Nat), (isBand die = true) ∧ (s.dev.regionOn (txRegion die) = true) ∧ ((List.range 4).any (fun c => s.dev.tempMoved die (s.dev.tempC (txRegion die)) (s.dev.g F.SYN.TX_TCAL_T die 0 c)) = true)) ∧
    (∃ (s : State) (die : Nat), (isBand die = false ∨ s.dev.regionOn (txRegion die) = false ∨ (List.range 4).any (fun c => s.dev.tempMoved die (s.dev.tempC (txRegion die)) (s.dev.g F.SYN.TX_TCAL_T die 0 c)) = false)) ∧
    (∃ (s : State) (die : Nat) (d1 : Dev), (d1 = { s.dev with mt := { s.dev.mt with queue := s.dev.mt.queue.map (fun (r : TokenReq) => r.pastDefer die) } }) ∧ (isBand die = true)) ∧
    (∃ (s : State) (die : Nat) (relocked : Bool) (failed : Nat) (codes : (List DcoCode)) (d1 : Dev) (d2 : Dev) (bad : (List Nat)) (good : (List Nat)) (d3 : Dev) (d4 : Dev) (d5 : Dev) (d6 : Dev), (d1 = ((s.dev.w F.SYN.CAL_STAT_RX_BUSY 0 die).setBand die (fun b => { b.learn codes with rxCal := 0 })).showDco die) ∧ (d2 = (d1.w F.SYN.RX_TCAL_T (ofSigned 8 (d1.tempC (rxRegion die))) die).inc C.SYN.RX_CAL_CNT die) ∧ (bad = (bitList 8 (d2.g F.RXF.CHAIN_EN_EN die)).filter (fun c => bitOf failed c)) ∧ (good = (bitList 8 (d2.g F.RXF.CHAIN_EN_EN die)).filter (fun c => !bitOf failed c)) ∧ (d3 = d2.each good (fun d c => (d.wBit F.RXF.CHAIN_STAT_FAILED c false die).w F.RXF.FAIL_CAUSE_CAUSE 0 die 0 c)) ∧ (d4 = d3.each bad (fun d c => d.rxChainFail die c 2)) ∧ (d5 = (if relocked = false ∨ bad ≠ [] then ((d4.w F.SYN.CAL_STAT_LAST_FAIL 1 die).raise E.SYN.CAL_FAIL die).showChains die else d4.showChains die)) ∧ (d6 = (if relocked = false ∨ d5.g F.RXF.CHAIN_STAT_HEALTHY die = 0 then d5.bandTo die 6 else d5.bandTo die (if d5.bandWanted die = 3 ∨ d5.bandWanted die = 5 then d5.bandWanted die else 1))) ∧ (isBand die = true) ∧ (s.dev.bandState die = 4)) ∧
    (∃ (s : State) (die : Nat), (isBand die = false ∨ s.dev.bandState die ≠ 4)) ∧
    (∃ (s : State) (die : Nat) (chain : Nat) (d1 : Dev), (d1 = (s.dev.wBit F.SYN.CAL_STAT_TX_BUSY chain false die).setChain die chain (fun k => { k with cal := 0 })) ∧ (isBand die = true) ∧ (chain < 4) ∧ (s.dev.txState die chain = 6)) ∧
    (∃ (s : State) (die : Nat) (chain : Nat) (d1 : Dev) (d2 : Dev) (d3 : Dev) (d4 : Dev), (d1 = (s.dev.wBit F.SYN.CAL_STAT_TX_BUSY chain false die).setChain die chain (fun k => { k with cal := 0 })) ∧ (d2 = d1.w F.SYN.TX_TCAL_T (ofSigned 8 (d1.tempC (txRegion die))) die 0 chain) ∧ (d3 = (d2.w F.SYN.TX_TCAL_V d2.vddRfa die 0 chain).inc C.SYN.TX_CAL_CNT die 0 chain) ∧ (d4 = ((d3.wBit F.TXB.HELD_CHAINS chain false (die - 2)).setChain die chain (fun k => { k with cuts := [] })).w F.TXF.MASK_STAT_CUTS_10S 0 die chain) ∧ (isBand die = true) ∧ (chain < 4) ∧ (s.dev.txState die chain = 6)) ∧
    (∃ (s : State) (die : Nat) (chain : Nat), (isBand die = false ∨ 4 ≤ chain ∨ s.dev.txState die chain ≠ 6)) :=
  ⟨⟨{ dev := up }, 6, ⟨.RSM, 6, 0⟩, by decide +kernel⟩,
   ⟨{ dev := up }, 6, 8, ⟨.RSM, 6, 0⟩, by decide +kernel⟩,
   ⟨{ dev := up }, 6, 16, ⟨.RSM, 6, 0⟩, by decide +kernel⟩,
   ⟨{ dev := ((up.w F.SYN.CAL_CFG_THRESH 1 6).w F.SNS.TEMP_VALUE 400 0 0 22).w F.SNS.TEMP_VALID 1 0 0 22 }, 6, by decide +kernel⟩,
   ⟨{ dev := up.w F.SYN.CAL_CFG_THRESH 31 6 }, 6, by decide +kernel⟩,
   ⟨{ dev := (((up.w F.SYN.CAL_CFG_THRESH 1 6).w F.SYN.CAL_CFG_DEFER_MAX 1 6).w F.SNS.TEMP_VALUE 400 0 0 23).w F.SNS.TEMP_VALID 1 0 0 23 }, 6, by decide +kernel⟩,
   ⟨{ dev := up }, 4, by decide +kernel⟩,
   ⟨{ dev := up }, 6, { (({ dev := up }) : State).dev with mt := { (({ dev := up }) : State).dev.mt with queue := (({ dev := up }) : State).dev.mt.queue.map (fun (r : TokenReq) => r.pastDefer ((6) : Nat)) } }, rfl, by decide +kernel⟩,
   ⟨{ dev := (((inMode 1).w F.RSM.BAND_STAT_STATE 4 6).w F.RSM.REQ_TARGET 1 6).w F.RXF.CHAIN_EN_EN 128 6 }, 6, true, 0, [], (((({ dev := (((inMode 1).w F.RSM.BAND_STAT_STATE 4 6).w F.RSM.REQ_TARGET 1 6).w F.RXF.CHAIN_EN_EN 128 6 }) : State).dev.w F.SYN.CAL_STAT_RX_BUSY 0 ((6) : Nat)).setBand ((6) : Nat) (fun b => { b.learn (([]) : (List DcoCode)) with rxCal := 0 })).showDco ((6) : Nat), ((((((({ dev := (((inMode 1).w F.RSM.BAND_STAT_STATE 4 6).w F.RSM.REQ_TARGET 1 6).w F.RXF.CHAIN_EN_EN 128 6 }) : State).dev.w F.SYN.CAL_STAT_RX_BUSY 0 ((6) : Nat)).setBand ((6) : Nat) (fun b => { b.learn (([]) : (List DcoCode)) with rxCal := 0 })).showDco ((6) : Nat)) : Dev).w F.SYN.RX_TCAL_T (ofSigned 8 ((((((({ dev := (((inMode 1).w F.RSM.BAND_STAT_STATE 4 6).w F.RSM.REQ_TARGET 1 6).w F.RXF.CHAIN_EN_EN 128 6 }) : State).dev.w F.SYN.CAL_STAT_RX_BUSY 0 ((6) : Nat)).setBand ((6) : Nat) (fun b => { b.learn (([]) : (List DcoCode)) with rxCal := 0 })).showDco ((6) : Nat)) : Dev).tempC (rxRegion ((6) : Nat)))) ((6) : Nat)).inc C.SYN.RX_CAL_CNT ((6) : Nat), (bitList 8 (((((((((({ dev := (((inMode 1).w F.RSM.BAND_STAT_STATE 4 6).w F.RSM.REQ_TARGET 1 6).w F.RXF.CHAIN_EN_EN 128 6 }) : State).dev.w F.SYN.CAL_STAT_RX_BUSY 0 ((6) : Nat)).setBand ((6) : Nat) (fun b => { b.learn (([]) : (List DcoCode)) with rxCal := 0 })).showDco ((6) : Nat)) : Dev).w F.SYN.RX_TCAL_T (ofSigned 8 ((((((({ dev := (((inMode 1).w F.RSM.BAND_STAT_STATE 4 6).w F.RSM.REQ_TARGET 1 6).w F.RXF.CHAIN_EN_EN 128 6 }) : State).dev.w F.SYN.CAL_STAT_RX_BUSY 0 ((6) : Nat)).setBand ((6) : Nat) (fun b => { b.learn (([]) : (List DcoCode)) with rxCal := 0 })).showDco ((6) : Nat)) : Dev).tempC (rxRegion ((6) : Nat)))) ((6) : Nat)).inc C.SYN.RX_CAL_CNT ((6) : Nat)) : Dev).g F.RXF.CHAIN_EN_EN ((6) : Nat))).filter (fun c => bitOf ((0) : Nat) c), (bitList 8 (((((((((({ dev := (((inMode 1).w F.RSM.BAND_STAT_STATE 4 6).w F.RSM.REQ_TARGET 1 6).w F.RXF.CHAIN_EN_EN 128 6 }) : State).dev.w F.SYN.CAL_STAT_RX_BUSY 0 ((6) : Nat)).setBand ((6) : Nat) (fun b => { b.learn (([]) : (List DcoCode)) with rxCal := 0 })).showDco ((6) : Nat)) : Dev).w F.SYN.RX_TCAL_T (ofSigned 8 ((((((({ dev := (((inMode 1).w F.RSM.BAND_STAT_STATE 4 6).w F.RSM.REQ_TARGET 1 6).w F.RXF.CHAIN_EN_EN 128 6 }) : State).dev.w F.SYN.CAL_STAT_RX_BUSY 0 ((6) : Nat)).setBand ((6) : Nat) (fun b => { b.learn (([]) : (List DcoCode)) with rxCal := 0 })).showDco ((6) : Nat)) : Dev).tempC (rxRegion ((6) : Nat)))) ((6) : Nat)).inc C.SYN.RX_CAL_CNT ((6) : Nat)) : Dev).g F.RXF.CHAIN_EN_EN ((6) : Nat))).filter (fun c => !bitOf ((0) : Nat) c), ((((((((({ dev := (((inMode 1).w F.RSM.BAND_STAT_STATE 4 6).w F.RSM.REQ_TARGET 1 6).w F.RXF.CHAIN_EN_EN 128 6 }) : State).dev.w F.SYN.CAL_STAT_RX_BUSY 0 ((6) : Nat)).setBand ((6) : Nat) (fun b => { b.learn (([]) : (List DcoCode)) with rxCal := 0 })).showDco ((6) : Nat)) : Dev).w F.SYN.RX_TCAL_T (ofSigned 8 ((((((({ dev := (((inMode 1).w F.RSM.BAND_STAT_STATE 4 6).w F.RSM.REQ_TARGET 1 6).w F.RXF.CHAIN_EN_EN 128 6 }) : State).dev.w F.SYN.CAL_STAT_RX_BUSY 0 ((6) : Nat)).setBand ((6) : Nat) (fun b => { b.learn (([]) : (List DcoCode)) with rxCal := 0 })).showDco ((6) : Nat)) : Dev).tempC (rxRegion ((6) : Nat)))) ((6) : Nat)).inc C.SYN.RX_CAL_CNT ((6) : Nat)) : Dev).each (((bitList 8 (((((((((({ dev := (((inMode 1).w F.RSM.BAND_STAT_STATE 4 6).w F.RSM.REQ_TARGET 1 6).w F.RXF.CHAIN_EN_EN 128 6 }) : State).dev.w F.SYN.CAL_STAT_RX_BUSY 0 ((6) : Nat)).setBand ((6) : Nat) (fun b => { b.learn (([]) : (List DcoCode)) with rxCal := 0 })).showDco ((6) : Nat)) : Dev).w F.SYN.RX_TCAL_T (ofSigned 8 ((((((({ dev := (((inMode 1).w F.RSM.BAND_STAT_STATE 4 6).w F.RSM.REQ_TARGET 1 6).w F.RXF.CHAIN_EN_EN 128 6 }) : State).dev.w F.SYN.CAL_STAT_RX_BUSY 0 ((6) : Nat)).setBand ((6) : Nat) (fun b => { b.learn (([]) : (List DcoCode)) with rxCal := 0 })).showDco ((6) : Nat)) : Dev).tempC (rxRegion ((6) : Nat)))) ((6) : Nat)).inc C.SYN.RX_CAL_CNT ((6) : Nat)) : Dev).g F.RXF.CHAIN_EN_EN ((6) : Nat))).filter (fun c => !bitOf ((0) : Nat) c)) : (List Nat)) (fun d c => (d.wBit F.RXF.CHAIN_STAT_FAILED c false ((6) : Nat)).w F.RXF.FAIL_CAUSE_CAUSE 0 ((6) : Nat) 0 c), ((((((((((({ dev := (((inMode 1).w F.RSM.BAND_STAT_STATE 4 6).w F.RSM.REQ_TARGET 1 6).w F.RXF.CHAIN_EN_EN 128 6 }) : State).dev.w F.SYN.CAL_STAT_RX_BUSY 0 ((6) : Nat)).setBand ((6) : Nat) (fun b => { b.learn (([]) : (List DcoCode)) with rxCal := 0 })).showDco ((6) : Nat)) : Dev).w F.SYN.RX_TCAL_T (ofSigned 8 ((((((({ dev := (((inMode 1).w F.RSM.BAND_STAT_STATE 4 6).w F.RSM.REQ_TARGET 1 6).w F.RXF.CHAIN_EN_EN 128 6 }) : State).dev.w F.SYN.CAL_STAT_RX_BUSY 0 ((6) : Nat)).setBand ((6) : Nat) (fun b => { b.learn (([]) : (List DcoCode)) with rxCal := 0 })).showDco ((6) : Nat)) : Dev).tempC (rxRegion ((6) : Nat)))) ((6) : Nat)).inc C.SYN.RX_CAL_CNT ((6) : Nat)) : Dev).each (((bitList 8 (((((((((({ dev := (((inMode 1).w F.RSM.BAND_STAT_STATE 4 6).w F.RSM.REQ_TARGET 1 6).w F.RXF.CHAIN_EN_EN 128 6 }) : State).dev.w F.SYN.CAL_STAT_RX_BUSY 0 ((6) : Nat)).setBand ((6) : Nat) (fun b => { b.learn (([]) : (List DcoCode)) with rxCal := 0 })).showDco ((6) : Nat)) : Dev).w F.SYN.RX_TCAL_T (ofSigned 8 ((((((({ dev := (((inMode 1).w F.RSM.BAND_STAT_STATE 4 6).w F.RSM.REQ_TARGET 1 6).w F.RXF.CHAIN_EN_EN 128 6 }) : State).dev.w F.SYN.CAL_STAT_RX_BUSY 0 ((6) : Nat)).setBand ((6) : Nat) (fun b => { b.learn (([]) : (List DcoCode)) with rxCal := 0 })).showDco ((6) : Nat)) : Dev).tempC (rxRegion ((6) : Nat)))) ((6) : Nat)).inc C.SYN.RX_CAL_CNT ((6) : Nat)) : Dev).g F.RXF.CHAIN_EN_EN ((6) : Nat))).filter (fun c => !bitOf ((0) : Nat) c)) : (List Nat)) (fun d c => (d.wBit F.RXF.CHAIN_STAT_FAILED c false ((6) : Nat)).w F.RXF.FAIL_CAUSE_CAUSE 0 ((6) : Nat) 0 c)) : Dev).each (((bitList 8 (((((((((({ dev := (((inMode 1).w F.RSM.BAND_STAT_STATE 4 6).w F.RSM.REQ_TARGET 1 6).w F.RXF.CHAIN_EN_EN 128 6 }) : State).dev.w F.SYN.CAL_STAT_RX_BUSY 0 ((6) : Nat)).setBand ((6) : Nat) (fun b => { b.learn (([]) : (List DcoCode)) with rxCal := 0 })).showDco ((6) : Nat)) : Dev).w F.SYN.RX_TCAL_T (ofSigned 8 ((((((({ dev := (((inMode 1).w F.RSM.BAND_STAT_STATE 4 6).w F.RSM.REQ_TARGET 1 6).w F.RXF.CHAIN_EN_EN 128 6 }) : State).dev.w F.SYN.CAL_STAT_RX_BUSY 0 ((6) : Nat)).setBand ((6) : Nat) (fun b => { b.learn (([]) : (List DcoCode)) with rxCal := 0 })).showDco ((6) : Nat)) : Dev).tempC (rxRegion ((6) : Nat)))) ((6) : Nat)).inc C.SYN.RX_CAL_CNT ((6) : Nat)) : Dev).g F.RXF.CHAIN_EN_EN ((6) : Nat))).filter (fun c => bitOf ((0) : Nat) c)) : (List Nat)) (fun d c => d.rxChainFail ((6) : Nat) c 2), (if ((true) : Bool) = false ∨ (((bitList 8 (((((((((({ dev := (((inMode 1).w F.RSM.BAND_STAT_STATE 4 6).w F.RSM.REQ_TARGET 1 6).w F.RXF.CHAIN_EN_EN 128 6 }) : State).dev.w F.SYN.CAL_STAT_RX_BUSY 0 ((6) : Nat)).setBand ((6) : Nat) (fun b => { b.learn (([]) : (List DcoCode)) with rxCal := 0 })).showDco ((6) : Nat)) : Dev).w F.SYN.RX_TCAL_T (ofSigned 8 ((((((({ dev := (((inMode 1).w F.RSM.BAND_STAT_STATE 4 6).w F.RSM.REQ_TARGET 1 6).w F.RXF.CHAIN_EN_EN 128 6 }) : State).dev.w F.SYN.CAL_STAT_RX_BUSY 0 ((6) : Nat)).setBand ((6) : Nat) (fun b => { b.learn (([]) : (List DcoCode)) with rxCal := 0 })).showDco ((6) : Nat)) : Dev).tempC (rxRegion ((6) : Nat)))) ((6) : Nat)).inc C.SYN.RX_CAL_CNT ((6) : Nat)) : Dev).g F.RXF.CHAIN_EN_EN ((6) : Nat))).filter (fun c => bitOf ((0) : Nat) c)) : (List Nat)) ≠ [] then ((((((((((((((({ dev := (((inMode 1).w F.RSM.BAND_STAT_STATE 4 6).w F.RSM.REQ_TARGET 1 6).w F.RXF.CHAIN_EN_EN 128 6 }) : State).dev.w F.SYN.CAL_STAT_RX_BUSY 0 ((6) : Nat)).setBand ((6) : Nat) (fun b => { b.learn (([]) : (List DcoCode)) with rxCal := 0 })).showDco ((6) : Nat)) : Dev).w F.SYN.RX_TCAL_T (ofSigned 8 ((((((({ dev := (((inMode 1).w F.RSM.BAND_STAT_STATE 4 6).w F.RSM.REQ_TARGET 1 6).w F.RXF.CHAIN_EN_EN 128 6 }) : State).dev.w F.SYN.CAL_STAT_RX_BUSY 0 ((6) : Nat)).setBand ((6) : Nat) (fun b => { b.learn (([]) : (List DcoCode)) with rxCal := 0 })).showDco ((6) : Nat)) : Dev).tempC (rxRegion ((6) : Nat)))) ((6) : Nat)).inc C.SYN.RX_CAL_CNT ((6) : Nat)) : Dev).each (((bitList 8 (((((((((({ dev := (((inMode 1).w F.RSM.BAND_STAT_STATE 4 6).w F.RSM.REQ_TARGET 1 6).w F.RXF.CHAIN_EN_EN 128 6 }) : State).dev.w F.SYN.CAL_STAT_RX_BUSY 0 ((6) : Nat)).setBand ((6) : Nat) (fun b => { b.learn (([]) : (List DcoCode)) with rxCal := 0 })).showDco ((6) : Nat)) : Dev).w F.SYN.RX_TCAL_T (ofSigned 8 ((((((({ dev := (((inMode 1).w F.RSM.BAND_STAT_STATE 4 6).w F.RSM.REQ_TARGET 1 6).w F.RXF.CHAIN_EN_EN 128 6 }) : State).dev.w F.SYN.CAL_STAT_RX_BUSY 0 ((6) : Nat)).setBand ((6) : Nat) (fun b => { b.learn (([]) : (List DcoCode)) with rxCal := 0 })).showDco ((6) : Nat)) : Dev).tempC (rxRegion ((6) : Nat)))) ((6) : Nat)).inc C.SYN.RX_CAL_CNT ((6) : Nat)) : Dev).g F.RXF.CHAIN_EN_EN ((6) : Nat))).filter (fun c => !bitOf ((0) : Nat) c)) : (List Nat)) (fun d c => (d.wBit F.RXF.CHAIN_STAT_FAILED c false ((6) : Nat)).w F.RXF.FAIL_CAUSE_CAUSE 0 ((6) : Nat) 0 c)) : Dev).each (((bitList 8 (((((((((({ dev := (((inMode 1).w F.RSM.BAND_STAT_STATE 4 6).w F.RSM.REQ_TARGET 1 6).w F.RXF.CHAIN_EN_EN 128 6 }) : State).dev.w F.SYN.CAL_STAT_RX_BUSY 0 ((6) : Nat)).setBand ((6) : Nat) (fun b => { b.learn (([]) : (List DcoCode)) with rxCal := 0 })).showDco ((6) : Nat)) : Dev).w F.SYN.RX_TCAL_T (ofSigned 8 ((((((({ dev := (((inMode 1).w F.RSM.BAND_STAT_STATE 4 6).w F.RSM.REQ_TARGET 1 6).w F.RXF.CHAIN_EN_EN 128 6 }) : State).dev.w F.SYN.CAL_STAT_RX_BUSY 0 ((6) : Nat)).setBand ((6) : Nat) (fun b => { b.learn (([]) : (List DcoCode)) with rxCal := 0 })).showDco ((6) : Nat)) : Dev).tempC (rxRegion ((6) : Nat)))) ((6) : Nat)).inc C.SYN.RX_CAL_CNT ((6) : Nat)) : Dev).g F.RXF.CHAIN_EN_EN ((6) : Nat))).filter (fun c => bitOf ((0) : Nat) c)) : (List Nat)) (fun d c => d.rxChainFail ((6) : Nat) c 2)) : Dev).w F.SYN.CAL_STAT_LAST_FAIL 1 ((6) : Nat)).raise E.SYN.CAL_FAIL ((6) : Nat)).showChains ((6) : Nat) else ((((((((((((({ dev := (((inMode 1).w F.RSM.BAND_STAT_STATE 4 6).w F.RSM.REQ_TARGET 1 6).w F.RXF.CHAIN_EN_EN 128 6 }) : State).dev.w F.SYN.CAL_STAT_RX_BUSY 0 ((6) : Nat)).setBand ((6) : Nat) (fun b => { b.learn (([]) : (List DcoCode)) with rxCal := 0 })).showDco ((6) : Nat)) : Dev).w F.SYN.RX_TCAL_T (ofSigned 8 ((((((({ dev := (((inMode 1).w F.RSM.BAND_STAT_STATE 4 6).w F.RSM.REQ_TARGET 1 6).w F.RXF.CHAIN_EN_EN 128 6 }) : State).dev.w F.SYN.CAL_STAT_RX_BUSY 0 ((6) : Nat)).setBand ((6) : Nat) (fun b => { b.learn (([]) : (List DcoCode)) with rxCal := 0 })).showDco ((6) : Nat)) : Dev).tempC (rxRegion ((6) : Nat)))) ((6) : Nat)).inc C.SYN.RX_CAL_CNT ((6) : Nat)) : Dev).each (((bitList 8 (((((((((({ dev := (((inMode 1).w F.RSM.BAND_STAT_STATE 4 6).w F.RSM.REQ_TARGET 1 6).w F.RXF.CHAIN_EN_EN 128 6 }) : State).dev.w F.SYN.CAL_STAT_RX_BUSY 0 ((6) : Nat)).setBand ((6) : Nat) (fun b => { b.learn (([]) : (List DcoCode)) with rxCal := 0 })).showDco ((6) : Nat)) : Dev).w F.SYN.RX_TCAL_T (ofSigned 8 ((((((({ dev := (((inMode 1).w F.RSM.BAND_STAT_STATE 4 6).w F.RSM.REQ_TARGET 1 6).w F.RXF.CHAIN_EN_EN 128 6 }) : State).dev.w F.SYN.CAL_STAT_RX_BUSY 0 ((6) : Nat)).setBand ((6) : Nat) (fun b => { b.learn (([]) : (List DcoCode)) with rxCal := 0 })).showDco ((6) : Nat)) : Dev).tempC (rxRegion ((6) : Nat)))) ((6) : Nat)).inc C.SYN.RX_CAL_CNT ((6) : Nat)) : Dev).g F.RXF.CHAIN_EN_EN ((6) : Nat))).filter (fun c => !bitOf ((0) : Nat) c)) : (List Nat)) (fun d c => (d.wBit F.RXF.CHAIN_STAT_FAILED c false ((6) : Nat)).w F.RXF.FAIL_CAUSE_CAUSE 0 ((6) : Nat) 0 c)) : Dev).each (((bitList 8 (((((((((({ dev := (((inMode 1).w F.RSM.BAND_STAT_STATE 4 6).w F.RSM.REQ_TARGET 1 6).w F.RXF.CHAIN_EN_EN 128 6 }) : State).dev.w F.SYN.CAL_STAT_RX_BUSY 0 ((6) : Nat)).setBand ((6) : Nat) (fun b => { b.learn (([]) : (List DcoCode)) with rxCal := 0 })).showDco ((6) : Nat)) : Dev).w F.SYN.RX_TCAL_T (ofSigned 8 ((((((({ dev := (((inMode 1).w F.RSM.BAND_STAT_STATE 4 6).w F.RSM.REQ_TARGET 1 6).w F.RXF.CHAIN_EN_EN 128 6 }) : State).dev.w F.SYN.CAL_STAT_RX_BUSY 0 ((6) : Nat)).setBand ((6) : Nat) (fun b => { b.learn (([]) : (List DcoCode)) with rxCal := 0 })).showDco ((6) : Nat)) : Dev).tempC (rxRegion ((6) : Nat)))) ((6) : Nat)).inc C.SYN.RX_CAL_CNT ((6) : Nat)) : Dev).g F.RXF.CHAIN_EN_EN ((6) : Nat))).filter (fun c => bitOf ((0) : Nat) c)) : (List Nat)) (fun d c => d.rxChainFail ((6) : Nat) c 2)) : Dev).showChains ((6) : Nat)), (if ((true) : Bool) = false ∨ (((if ((true) : Bool) = false ∨ (((bitList 8 (((((((((({ dev := (((inMode 1).w F.RSM.BAND_STAT_STATE 4 6).w F.RSM.REQ_TARGET 1 6).w F.RXF.CHAIN_EN_EN 128 6 }) : State).dev.w F.SYN.CAL_STAT_RX_BUSY 0 ((6) : Nat)).setBand ((6) : Nat) (fun b => { b.learn (([]) : (List DcoCode)) with rxCal := 0 })).showDco ((6) : Nat)) : Dev).w F.SYN.RX_TCAL_T (ofSigned 8 ((((((({ dev := (((inMode 1).w F.RSM.BAND_STAT_STATE 4 6).w F.RSM.REQ_TARGET 1 6).w F.RXF.CHAIN_EN_EN 128 6 }) : State).dev.w F.SYN.CAL_STAT_RX_BUSY 0 ((6) : Nat)).setBand ((6) : Nat) (fun b => { b.learn (([]) : (List DcoCode)) with rxCal := 0 })).showDco ((6) : Nat)) : Dev).tempC (rxRegion ((6) : Nat)))) ((6) : Nat)).inc C.SYN.RX_CAL_CNT ((6) : Nat)) : Dev).g F.RXF.CHAIN_EN_EN ((6) : Nat))).filter (fun c => bitOf ((0) : Nat) c)) : (List Nat)) ≠ [] then ((((((((((((((({ dev := (((inMode 1).w F.RSM.BAND_STAT_STATE 4 6).w F.RSM.REQ_TARGET 1 6).w F.RXF.CHAIN_EN_EN 128 6 }) : State).dev.w F.SYN.CAL_STAT_RX_BUSY 0 ((6) : Nat)).setBand ((6) : Nat) (fun b => { b.learn (([]) : (List DcoCode)) with rxCal := 0 })).showDco ((6) : Nat)) : Dev).w F.SYN.RX_TCAL_T (ofSigned 8 ((((((({ dev := (((inMode 1).w F.RSM.BAND_STAT_STATE 4 6).w F.RSM.REQ_TARGET 1 6).w F.RXF.CHAIN_EN_EN 128 6 }) : State).dev.w F.SYN.CAL_STAT_RX_BUSY 0 ((6) : Nat)).setBand ((6) : Nat) (fun b => { b.learn (([]) : (List DcoCode)) with rxCal := 0 })).showDco ((6) : Nat)) : Dev).tempC (rxRegion ((6) : Nat)))) ((6) : Nat)).inc C.SYN.RX_CAL_CNT ((6) : Nat)) : Dev).each (((bitList 8 (((((((((({ dev := (((inMode 1).w F.RSM.BAND_STAT_STATE 4 6).w F.RSM.REQ_TARGET 1 6).w F.RXF.CHAIN_EN_EN 128 6 }) : State).dev.w F.SYN.CAL_STAT_RX_BUSY 0 ((6) : Nat)).setBand ((6) : Nat) (fun b => { b.learn (([]) : (List DcoCode)) with rxCal := 0 })).showDco ((6) : Nat)) : Dev).w F.SYN.RX_TCAL_T (ofSigned 8 ((((((({ dev := (((inMode 1).w F.RSM.BAND_STAT_STATE 4 6).w F.RSM.REQ_TARGET 1 6).w F.RXF.CHAIN_EN_EN 128 6 }) : State).dev.w F.SYN.CAL_STAT_RX_BUSY 0 ((6) : Nat)).setBand ((6) : Nat) (fun b => { b.learn (([]) : (List DcoCode)) with rxCal := 0 })).showDco ((6) : Nat)) : Dev).tempC (rxRegion ((6) : Nat)))) ((6) : Nat)).inc C.SYN.RX_CAL_CNT ((6) : Nat)) : Dev).g F.RXF.CHAIN_EN_EN ((6) : Nat))).filter (fun c => !bitOf ((0) : Nat) c)) : (List Nat)) (fun d c => (d.wBit F.RXF.CHAIN_STAT_FAILED c false ((6) : Nat)).w F.RXF.FAIL_CAUSE_CAUSE 0 ((6) : Nat) 0 c)) : Dev).each (((bitList 8 (((((((((({ dev := (((inMode 1).w F.RSM.BAND_STAT_STATE 4 6).w F.RSM.REQ_TARGET 1 6).w F.RXF.CHAIN_EN_EN 128 6 }) : State).dev.w F.SYN.CAL_STAT_RX_BUSY 0 ((6) : Nat)).setBand ((6) : Nat) (fun b => { b.learn (([]) : (List DcoCode)) with rxCal := 0 })).showDco ((6) : Nat)) : Dev).w F.SYN.RX_TCAL_T (ofSigned 8 ((((((({ dev := (((inMode 1).w F.RSM.BAND_STAT_STATE 4 6).w F.RSM.REQ_TARGET 1 6).w F.RXF.CHAIN_EN_EN 128 6 }) : State).dev.w F.SYN.CAL_STAT_RX_BUSY 0 ((6) : Nat)).setBand ((6) : Nat) (fun b => { b.learn (([]) : (List DcoCode)) with rxCal := 0 })).showDco ((6) : Nat)) : Dev).tempC (rxRegion ((6) : Nat)))) ((6) : Nat)).inc C.SYN.RX_CAL_CNT ((6) : Nat)) : Dev).g F.RXF.CHAIN_EN_EN ((6) : Nat))).filter (fun c => bitOf ((0) : Nat) c)) : (List Nat)) (fun d c => d.rxChainFail ((6) : Nat) c 2)) : Dev).w F.SYN.CAL_STAT_LAST_FAIL 1 ((6) : Nat)).raise E.SYN.CAL_FAIL ((6) : Nat)).showChains ((6) : Nat) else ((((((((((((({ dev := (((inMode 1).w F.RSM.BAND_STAT_STATE 4 6).w F.RSM.REQ_TARGET 1 6).w F.RXF.CHAIN_EN_EN 128 6 }) : State).dev.w F.SYN.CAL_STAT_RX_BUSY 0 ((6) : Nat)).setBand ((6) : Nat) (fun b => { b.learn (([]) : (List DcoCode)) with rxCal := 0 })).showDco ((6) : Nat)) : Dev).w F.SYN.RX_TCAL_T (ofSigned 8 ((((((({ dev := (((inMode 1).w F.RSM.BAND_STAT_STATE 4 6).w F.RSM.REQ_TARGET 1 6).w F.RXF.CHAIN_EN_EN 128 6 }) : State).dev.w F.SYN.CAL_STAT_RX_BUSY 0 ((6) : Nat)).setBand ((6) : Nat) (fun b => { b.learn (([]) : (List DcoCode)) with rxCal := 0 })).showDco ((6) : Nat)) : Dev).tempC (rxRegion ((6) : Nat)))) ((6) : Nat)).inc C.SYN.RX_CAL_CNT ((6) : Nat)) : Dev).each (((bitList 8 (((((((((({ dev := (((inMode 1).w F.RSM.BAND_STAT_STATE 4 6).w F.RSM.REQ_TARGET 1 6).w F.RXF.CHAIN_EN_EN 128 6 }) : State).dev.w F.SYN.CAL_STAT_RX_BUSY 0 ((6) : Nat)).setBand ((6) : Nat) (fun b => { b.learn (([]) : (List DcoCode)) with rxCal := 0 })).showDco ((6) : Nat)) : Dev).w F.SYN.RX_TCAL_T (ofSigned 8 ((((((({ dev := (((inMode 1).w F.RSM.BAND_STAT_STATE 4 6).w F.RSM.REQ_TARGET 1 6).w F.RXF.CHAIN_EN_EN 128 6 }) : State).dev.w F.SYN.CAL_STAT_RX_BUSY 0 ((6) : Nat)).setBand ((6) : Nat) (fun b => { b.learn (([]) : (List DcoCode)) with rxCal := 0 })).showDco ((6) : Nat)) : Dev).tempC (rxRegion ((6) : Nat)))) ((6) : Nat)).inc C.SYN.RX_CAL_CNT ((6) : Nat)) : Dev).g F.RXF.CHAIN_EN_EN ((6) : Nat))).filter (fun c => !bitOf ((0) : Nat) c)) : (List Nat)) (fun d c => (d.wBit F.RXF.CHAIN_STAT_FAILED c false ((6) : Nat)).w F.RXF.FAIL_CAUSE_CAUSE 0 ((6) : Nat) 0 c)) : Dev).each (((bitList 8 (((((((((({ dev := (((inMode 1).w F.RSM.BAND_STAT_STATE 4 6).w F.RSM.REQ_TARGET 1 6).w F.RXF.CHAIN_EN_EN 128 6 }) : State).dev.w F.SYN.CAL_STAT_RX_BUSY 0 ((6) : Nat)).setBand ((6) : Nat) (fun b => { b.learn (([]) : (List DcoCode)) with rxCal := 0 })).showDco ((6) : Nat)) : Dev).w F.SYN.RX_TCAL_T (ofSigned 8 ((((((({ dev := (((inMode 1).w F.RSM.BAND_STAT_STATE 4 6).w F.RSM.REQ_TARGET 1 6).w F.RXF.CHAIN_EN_EN 128 6 }) : State).dev.w F.SYN.CAL_STAT_RX_BUSY 0 ((6) : Nat)).setBand ((6) : Nat) (fun b => { b.learn (([]) : (List DcoCode)) with rxCal := 0 })).showDco ((6) : Nat)) : Dev).tempC (rxRegion ((6) : Nat)))) ((6) : Nat)).inc C.SYN.RX_CAL_CNT ((6) : Nat)) : Dev).g F.RXF.CHAIN_EN_EN ((6) : Nat))).filter (fun c => bitOf ((0) : Nat) c)) : (List Nat)) (fun d c => d.rxChainFail ((6) : Nat) c 2)) : Dev).showChains ((6) : Nat))) : Dev).g F.RXF.CHAIN_STAT_HEALTHY ((6) : Nat) = 0 then (((if ((true) : Bool) = false ∨ (((bitList 8 (((((((((({ dev := (((inMode 1).w F.RSM.BAND_STAT_STATE 4 6).w F.RSM.REQ_TARGET 1 6).w F.RXF.CHAIN_EN_EN 128 6 }) : State).dev.w F.SYN.CAL_STAT_RX_BUSY 0 ((6) : Nat)).setBand ((6) : Nat) (fun b => { b.learn (([]) : (List DcoCode)) with rxCal := 0 })).showDco ((6) : Nat)) : Dev).w F.SYN.RX_TCAL_T (ofSigned 8 ((((((({ dev := (((inMode 1).w F.RSM.BAND_STAT_STATE 4 6).w F.RSM.REQ_TARGET 1 6).w F.RXF.CHAIN_EN_EN 128 6 }) : State).dev.w F.SYN.CAL_STAT_RX_BUSY 0 ((6) : Nat)).setBand ((6) : Nat) (fun b => { b.learn (([]) : (List DcoCode)) with rxCal := 0 })).showDco ((6) : Nat)) : Dev).tempC (rxRegion ((6) : Nat)))) ((6) : Nat)).inc C.SYN.RX_CAL_CNT ((6) : Nat)) : Dev).g F.RXF.CHAIN_EN_EN ((6) : Nat))).filter (fun c => bitOf ((0) : Nat) c)) : (List Nat)) ≠ [] then ((((((((((((((({ dev := (((inMode 1).w F.RSM.BAND_STAT_STATE 4 6).w F.RSM.REQ_TARGET 1 6).w F.RXF.CHAIN_EN_EN 128 6 }) : State).dev.w F.SYN.CAL_STAT_RX_BUSY 0 ((6) : Nat)).setBand ((6) : Nat) (fun b => { b.learn (([]) : (List DcoCode)) with rxCal := 0 })).showDco ((6) : Nat)) : Dev).w F.SYN.RX_TCAL_T (ofSigned 8 ((((((({ dev := (((inMode 1).w F.RSM.BAND_STAT_STATE 4 6).w F.RSM.REQ_TARGET 1 6).w F.RXF.CHAIN_EN_EN 128 6 }) : State).dev.w F.SYN.CAL_STAT_RX_BUSY 0 ((6) : Nat)).setBand ((6) : Nat) (fun b => { b.learn (([]) : (List DcoCode)) with rxCal := 0 })).showDco ((6) : Nat)) : Dev).tempC (rxRegion ((6) : Nat)))) ((6) : Nat)).inc C.SYN.RX_CAL_CNT ((6) : Nat)) : Dev).each (((bitList 8 (((((((((({ dev := (((inMode 1).w F.RSM.BAND_STAT_STATE 4 6).w F.RSM.REQ_TARGET 1 6).w F.RXF.CHAIN_EN_EN 128 6 }) : State).dev.w F.SYN.CAL_STAT_RX_BUSY 0 ((6) : Nat)).setBand ((6) : Nat) (fun b => { b.learn (([]) : (List DcoCode)) with rxCal := 0 })).showDco ((6) : Nat)) : Dev).w F.SYN.RX_TCAL_T (ofSigned 8 ((((((({ dev := (((inMode 1).w F.RSM.BAND_STAT_STATE 4 6).w F.RSM.REQ_TARGET 1 6).w F.RXF.CHAIN_EN_EN 128 6 }) : State).dev.w F.SYN.CAL_STAT_RX_BUSY 0 ((6) : Nat)).setBand ((6) : Nat) (fun b => { b.learn (([]) : (List DcoCode)) with rxCal := 0 })).showDco ((6) : Nat)) : Dev).tempC (rxRegion ((6) : Nat)))) ((6) : Nat)).inc C.SYN.RX_CAL_CNT ((6) : Nat)) : Dev).g F.RXF.CHAIN_EN_EN ((6) : Nat))).filter (fun c => !bitOf ((0) : Nat) c)) : (List Nat)) (fun d c => (d.wBit F.RXF.CHAIN_STAT_FAILED c false ((6) : Nat)).w F.RXF.FAIL_CAUSE_CAUSE 0 ((6) : Nat) 0 c)) : Dev).each (((bitList 8 (((((((((({ dev := (((inMode 1).w F.RSM.BAND_STAT_STATE 4 6).w F.RSM.REQ_TARGET 1 6).w F.RXF.CHAIN_EN_EN 128 6 }) : State).dev.w F.SYN.CAL_STAT_RX_BUSY 0 ((6) : Nat)).setBand ((6) : Nat) (fun b => { b.learn (([]) : (List DcoCode)) with rxCal := 0 })).showDco ((6) : Nat)) : Dev).w F.SYN.RX_TCAL_T (ofSigned 8 ((((((({ dev := (((inMode 1).w F.RSM.BAND_STAT_STATE 4 6).w F.RSM.REQ_TARGET 1 6).w F.RXF.CHAIN_EN_EN 128 6 }) : State).dev.w F.SYN.CAL_STAT_RX_BUSY 0 ((6) : Nat)).setBand ((6) : Nat) (fun b => { b.learn (([]) : (List DcoCode)) with rxCal := 0 })).showDco ((6) : Nat)) : Dev).tempC (rxRegion ((6) : Nat)))) ((6) : Nat)).inc C.SYN.RX_CAL_CNT ((6) : Nat)) : Dev).g F.RXF.CHAIN_EN_EN ((6) : Nat))).filter (fun c => bitOf ((0) : Nat) c)) : (List Nat)) (fun d c => d.rxChainFail ((6) : Nat) c 2)) : Dev).w F.SYN.CAL_STAT_LAST_FAIL 1 ((6) : Nat)).raise E.SYN.CAL_FAIL ((6) : Nat)).showChains ((6) : Nat) else ((((((((((((({ dev := (((inMode 1).w F.RSM.BAND_STAT_STATE 4 6).w F.RSM.REQ_TARGET 1 6).w F.RXF.CHAIN_EN_EN 128 6 }) : State).dev.w F.SYN.CAL_STAT_RX_BUSY 0 ((6) : Nat)).setBand ((6) : Nat) (fun b => { b.learn (([]) : (List DcoCode)) with rxCal := 0 })).showDco ((6) : Nat)) : Dev).w F.SYN.RX_TCAL_T (ofSigned 8 ((((((({ dev := (((inMode 1).w F.RSM.BAND_STAT_STATE 4 6).w F.RSM.REQ_TARGET 1 6).w F.RXF.CHAIN_EN_EN 128 6 }) : State).dev.w F.SYN.CAL_STAT_RX_BUSY 0 ((6) : Nat)).setBand ((6) : Nat) (fun b => { b.learn (([]) : (List DcoCode)) with rxCal := 0 })).showDco ((6) : Nat)) : Dev).tempC (rxRegion ((6) : Nat)))) ((6) : Nat)).inc C.SYN.RX_CAL_CNT ((6) : Nat)) : Dev).each (((bitList 8 (((((((((({ dev := (((inMode 1).w F.RSM.BAND_STAT_STATE 4 6).w F.RSM.REQ_TARGET 1 6).w F.RXF.CHAIN_EN_EN 128 6 }) : State).dev.w F.SYN.CAL_STAT_RX_BUSY 0 ((6) : Nat)).setBand ((6) : Nat) (fun b => { b.learn (([]) : (List DcoCode)) with rxCal := 0 })).showDco ((6) : Nat)) : Dev).w F.SYN.RX_TCAL_T (ofSigned 8 ((((((({ dev := (((inMode 1).w F.RSM.BAND_STAT_STATE 4 6).w F.RSM.REQ_TARGET 1 6).w F.RXF.CHAIN_EN_EN 128 6 }) : State).dev.w F.SYN.CAL_STAT_RX_BUSY 0 ((6) : Nat)).setBand ((6) : Nat) (fun b => { b.learn (([]) : (List DcoCode)) with rxCal := 0 })).showDco ((6) : Nat)) : Dev).tempC (rxRegion ((6) : Nat)))) ((6) : Nat)).inc C.SYN.RX_CAL_CNT ((6) : Nat)) : Dev).g F.RXF.CHAIN_EN_EN ((6) : Nat))).filter (fun c => !bitOf ((0) : Nat) c)) : (List Nat)) (fun d c => (d.wBit F.RXF.CHAIN_STAT_FAILED c false ((6) : Nat)).w F.RXF.FAIL_CAUSE_CAUSE 0 ((6) : Nat) 0 c)) : Dev).each (((bitList 8 (((((((((({ dev := (((inMode 1).w F.RSM.BAND_STAT_STATE 4 6).w F.RSM.REQ_TARGET 1 6).w F.RXF.CHAIN_EN_EN 128 6 }) : State).dev.w F.SYN.CAL_STAT_RX_BUSY 0 ((6) : Nat)).setBand ((6) : Nat) (fun b => { b.learn (([]) : (List DcoCode)) with rxCal := 0 })).showDco ((6) : Nat)) : Dev).w F.SYN.RX_TCAL_T (ofSigned 8 ((((((({ dev := (((inMode 1).w F.RSM.BAND_STAT_STATE 4 6).w F.RSM.REQ_TARGET 1 6).w F.RXF.CHAIN_EN_EN 128 6 }) : State).dev.w F.SYN.CAL_STAT_RX_BUSY 0 ((6) : Nat)).setBand ((6) : Nat) (fun b => { b.learn (([]) : (List DcoCode)) with rxCal := 0 })).showDco ((6) : Nat)) : Dev).tempC (rxRegion ((6) : Nat)))) ((6) : Nat)).inc C.SYN.RX_CAL_CNT ((6) : Nat)) : Dev).g F.RXF.CHAIN_EN_EN ((6) : Nat))).filter (fun c => bitOf ((0) : Nat) c)) : (List Nat)) (fun d c => d.rxChainFail ((6) : Nat) c 2)) : Dev).showChains ((6) : Nat))) : Dev).bandTo ((6) : Nat) 6 else (((if ((true) : Bool) = false ∨ (((bitList 8 (((((((((({ dev := (((inMode 1).w F.RSM.BAND_STAT_STATE 4 6).w F.RSM.REQ_TARGET 1 6).w F.RXF.CHAIN_EN_EN 128 6 }) : State).dev.w F.SYN.CAL_STAT_RX_BUSY 0 ((6) : Nat)).setBand ((6) : Nat) (fun b => { b.learn (([]) : (List DcoCode)) with rxCal := 0 })).showDco ((6) : Nat)) : Dev).w F.SYN.RX_TCAL_T (ofSigned 8 ((((((({ dev := (((inMode 1).w F.RSM.BAND_STAT_STATE 4 6).w F.RSM.REQ_TARGET 1 6).w F.RXF.CHAIN_EN_EN 128 6 }) : State).dev.w F.SYN.CAL_STAT_RX_BUSY 0 ((6) : Nat)).setBand ((6) : Nat) (fun b => { b.learn (([]) : (List DcoCode)) with rxCal := 0 })).showDco ((6) : Nat)) : Dev).tempC (rxRegion ((6) : Nat)))) ((6) : Nat)).inc C.SYN.RX_CAL_CNT ((6) : Nat)) : Dev).g F.RXF.CHAIN_EN_EN ((6) : Nat))).filter (fun c => bitOf ((0) : Nat) c)) : (List Nat)) ≠ [] then ((((((((((((((({ dev := (((inMode 1).w F.RSM.BAND_STAT_STATE 4 6).w F.RSM.REQ_TARGET 1 6).w F.RXF.CHAIN_EN_EN 128 6 }) : State).dev.w F.SYN.CAL_STAT_RX_BUSY 0 ((6) : Nat)).setBand ((6) : Nat) (fun b => { b.learn (([]) : (List DcoCode)) with rxCal := 0 })).showDco ((6) : Nat)) : Dev).w F.SYN.RX_TCAL_T (ofSigned 8 ((((((({ dev := (((inMode 1).w F.RSM.BAND_STAT_STATE 4 6).w F.RSM.REQ_TARGET 1 6).w F.RXF.CHAIN_EN_EN 128 6 }) : State).dev.w F.SYN.CAL_STAT_RX_BUSY 0 ((6) : Nat)).setBand ((6) : Nat) (fun b => { b.learn (([]) : (List DcoCode)) with rxCal := 0 })).showDco ((6) : Nat)) : Dev).tempC (rxRegion ((6) : Nat)))) ((6) : Nat)).inc C.SYN.RX_CAL_CNT ((6) : Nat)) : Dev).each (((bitList 8 (((((((((({ dev := (((inMode 1).w F.RSM.BAND_STAT_STATE 4 6).w F.RSM.REQ_TARGET 1 6).w F.RXF.CHAIN_EN_EN 128 6 }) : State).dev.w F.SYN.CAL_STAT_RX_BUSY 0 ((6) : Nat)).setBand ((6) : Nat) (fun b => { b.learn (([]) : (List DcoCode)) with rxCal := 0 })).showDco ((6) : Nat)) : Dev).w F.SYN.RX_TCAL_T (ofSigned 8 ((((((({ dev := (((inMode 1).w F.RSM.BAND_STAT_STATE 4 6).w F.RSM.REQ_TARGET 1 6).w F.RXF.CHAIN_EN_EN 128 6 }) : State).dev.w F.SYN.CAL_STAT_RX_BUSY 0 ((6) : Nat)).setBand ((6) : Nat) (fun b => { b.learn (([]) : (List DcoCode)) with rxCal := 0 })).showDco ((6) : Nat)) : Dev).tempC (rxRegion ((6) : Nat)))) ((6) : Nat)).inc C.SYN.RX_CAL_CNT ((6) : Nat)) : Dev).g F.RXF.CHAIN_EN_EN ((6) : Nat))).filter (fun c => !bitOf ((0) : Nat) c)) : (List Nat)) (fun d c => (d.wBit F.RXF.CHAIN_STAT_FAILED c false ((6) : Nat)).w F.RXF.FAIL_CAUSE_CAUSE 0 ((6) : Nat) 0 c)) : Dev).each (((bitList 8 (((((((((({ dev := (((inMode 1).w F.RSM.BAND_STAT_STATE 4 6).w F.RSM.REQ_TARGET 1 6).w F.RXF.CHAIN_EN_EN 128 6 }) : State).dev.w F.SYN.CAL_STAT_RX_BUSY 0 ((6) : Nat)).setBand ((6) : Nat) (fun b => { b.learn (([]) : (List DcoCode)) with rxCal := 0 })).showDco ((6) : Nat)) : Dev).w F.SYN.RX_TCAL_T (ofSigned 8 ((((((({ dev := (((inMode 1).w F.RSM.BAND_STAT_STATE 4 6).w F.RSM.REQ_TARGET 1 6).w F.RXF.CHAIN_EN_EN 128 6 }) : State).dev.w F.SYN.CAL_STAT_RX_BUSY 0 ((6) : Nat)).setBand ((6) : Nat) (fun b => { b.learn (([]) : (List DcoCode)) with rxCal := 0 })).showDco ((6) : Nat)) : Dev).tempC (rxRegion ((6) : Nat)))) ((6) : Nat)).inc C.SYN.RX_CAL_CNT ((6) : Nat)) : Dev).g F.RXF.CHAIN_EN_EN ((6) : Nat))).filter (fun c => bitOf ((0) : Nat) c)) : (List Nat)) (fun d c => d.rxChainFail ((6) : Nat) c 2)) : Dev).w F.SYN.CAL_STAT_LAST_FAIL 1 ((6) : Nat)).raise E.SYN.CAL_FAIL ((6) : Nat)).showChains ((6) : Nat) else ((((((((((((({ dev := (((inMode 1).w F.RSM.BAND_STAT_STATE 4 6).w F.RSM.REQ_TARGET 1 6).w F.RXF.CHAIN_EN_EN 128 6 }) : State).dev.w F.SYN.CAL_STAT_RX_BUSY 0 ((6) : Nat)).setBand ((6) : Nat) (fun b => { b.learn (([]) : (List DcoCode)) with rxCal := 0 })).showDco ((6) : Nat)) : Dev).w F.SYN.RX_TCAL_T (ofSigned 8 ((((((({ dev := (((inMode 1).w F.RSM.BAND_STAT_STATE 4 6).w F.RSM.REQ_TARGET 1 6).w F.RXF.CHAIN_EN_EN 128 6 }) : State).dev.w F.SYN.CAL_STAT_RX_BUSY 0 ((6) : Nat)).setBand ((6) : Nat) (fun b => { b.learn (([]) : (List DcoCode)) with rxCal := 0 })).showDco ((6) : Nat)) : Dev).tempC (rxRegion ((6) : Nat)))) ((6) : Nat)).inc C.SYN.RX_CAL_CNT ((6) : Nat)) : Dev).each (((bitList 8 (((((((((({ dev := (((inMode 1).w F.RSM.BAND_STAT_STATE 4 6).w F.RSM.REQ_TARGET 1 6).w F.RXF.CHAIN_EN_EN 128 6 }) : State).dev.w F.SYN.CAL_STAT_RX_BUSY 0 ((6) : Nat)).setBand ((6) : Nat) (fun b => { b.learn (([]) : (List DcoCode)) with rxCal := 0 })).showDco ((6) : Nat)) : Dev).w F.SYN.RX_TCAL_T (ofSigned 8 ((((((({ dev := (((inMode 1).w F.RSM.BAND_STAT_STATE 4 6).w F.RSM.REQ_TARGET 1 6).w F.RXF.CHAIN_EN_EN 128 6 }) : State).dev.w F.SYN.CAL_STAT_RX_BUSY 0 ((6) : Nat)).setBand ((6) : Nat) (fun b => { b.learn (([]) : (List DcoCode)) with rxCal := 0 })).showDco ((6) : Nat)) : Dev).tempC (rxRegion ((6) : Nat)))) ((6) : Nat)).inc C.SYN.RX_CAL_CNT ((6) : Nat)) : Dev).g F.RXF.CHAIN_EN_EN ((6) : Nat))).filter (fun c => !bitOf ((0) : Nat) c)) : (List Nat)) (fun d c => (d.wBit F.RXF.CHAIN_STAT_FAILED c false ((6) : Nat)).w F.RXF.FAIL_CAUSE_CAUSE 0 ((6) : Nat) 0 c)) : Dev).each (((bitList 8 (((((((((({ dev := (((inMode 1).w F.RSM.BAND_STAT_STATE 4 6).w F.RSM.REQ_TARGET 1 6).w F.RXF.CHAIN_EN_EN 128 6 }) : State).dev.w F.SYN.CAL_STAT_RX_BUSY 0 ((6) : Nat)).setBand ((6) : Nat) (fun b => { b.learn (([]) : (List DcoCode)) with rxCal := 0 })).showDco ((6) : Nat)) : Dev).w F.SYN.RX_TCAL_T (ofSigned 8 ((((((({ dev := (((inMode 1).w F.RSM.BAND_STAT_STATE 4 6).w F.RSM.REQ_TARGET 1 6).w F.RXF.CHAIN_EN_EN 128 6 }) : State).dev.w F.SYN.CAL_STAT_RX_BUSY 0 ((6) : Nat)).setBand ((6) : Nat) (fun b => { b.learn (([]) : (List DcoCode)) with rxCal := 0 })).showDco ((6) : Nat)) : Dev).tempC (rxRegion ((6) : Nat)))) ((6) : Nat)).inc C.SYN.RX_CAL_CNT ((6) : Nat)) : Dev).g F.RXF.CHAIN_EN_EN ((6) : Nat))).filter (fun c => bitOf ((0) : Nat) c)) : (List Nat)) (fun d c => d.rxChainFail ((6) : Nat) c 2)) : Dev).showChains ((6) : Nat))) : Dev).bandTo ((6) : Nat) (if (((if ((true) : Bool) = false ∨ (((bitList 8 (((((((((({ dev := (((inMode 1).w F.RSM.BAND_STAT_STATE 4 6).w F.RSM.REQ_TARGET 1 6).w F.RXF.CHAIN_EN_EN 128 6 }) : State).dev.w F.SYN.CAL_STAT_RX_BUSY 0 ((6) : Nat)).setBand ((6) : Nat) (fun b => { b.learn (([]) : (List DcoCode)) with rxCal := 0 })).showDco ((6) : Nat)) : Dev).w F.SYN.RX_TCAL_T (ofSigned 8 ((((((({ dev := (((inMode 1).w F.RSM.BAND_STAT_STATE 4 6).w F.RSM.REQ_TARGET 1 6).w F.RXF.CHAIN_EN_EN 128 6 }) : State).dev.w F.SYN.CAL_STAT_RX_BUSY 0 ((6) : Nat)).setBand ((6) : Nat) (fun b => { b.learn (([]) : (List DcoCode)) with rxCal := 0 })).showDco ((6) : Nat)) : Dev).tempC (rxRegion ((6) : Nat)))) ((6) : Nat)).inc C.SYN.RX_CAL_CNT ((6) : Nat)) : Dev).g F.RXF.CHAIN_EN_EN ((6) : Nat))).filter (fun c => bitOf ((0) : Nat) c)) : (List Nat)) ≠ [] then ((((((((((((((({ dev := (((inMode 1).w F.RSM.BAND_STAT_STATE 4 6).w F.RSM.REQ_TARGET 1 6).w F.RXF.CHAIN_EN_EN 128 6 }) : State).dev.w F.SYN.CAL_STAT_RX_BUSY 0 ((6) : Nat)).setBand ((6) : Nat) (fun b => { b.learn (([]) : (List DcoCode)) with rxCal := 0 })).showDco ((6) : Nat)) : Dev).w F.SYN.RX_TCAL_T (ofSigned 8 ((((((({ dev := (((inMode 1).w F.RSM.BAND_STAT_STATE 4 6).w F.RSM.REQ_TARGET 1 6).w F.RXF.CHAIN_EN_EN 128 6 }) : State).dev.w F.SYN.CAL_STAT_RX_BUSY 0 ((6) : Nat)).setBand ((6) : Nat) (fun b => { b.learn (([]) : (List DcoCode)) with rxCal := 0 })).showDco ((6) : Nat)) : Dev).tempC (rxRegion ((6) : Nat)))) ((6) : Nat)).inc C.SYN.RX_CAL_CNT ((6) : Nat)) : Dev).each (((bitList 8 (((((((((({ dev := (((inMode 1).w F.RSM.BAND_STAT_STATE 4 6).w F.RSM.REQ_TARGET 1 6).w F.RXF.CHAIN_EN_EN 128 6 }) : State).dev.w F.SYN.CAL_STAT_RX_BUSY 0 ((6) : Nat)).setBand ((6) : Nat) (fun b => { b.learn (([]) : (List DcoCode)) with rxCal := 0 })).showDco ((6) : Nat)) : Dev).w F.SYN.RX_TCAL_T (ofSigned 8 ((((((({ dev := (((inMode 1).w F.RSM.BAND_STAT_STATE 4 6).w F.RSM.REQ_TARGET 1 6).w F.RXF.CHAIN_EN_EN 128 6 }) : State).dev.w F.SYN.CAL_STAT_RX_BUSY 0 ((6) : Nat)).setBand ((6) : Nat) (fun b => { b.learn (([]) : (List DcoCode)) with rxCal := 0 })).showDco ((6) : Nat)) : Dev).tempC (rxRegion ((6) : Nat)))) ((6) : Nat)).inc C.SYN.RX_CAL_CNT ((6) : Nat)) : Dev).g F.RXF.CHAIN_EN_EN ((6) : Nat))).filter (fun c => !bitOf ((0) : Nat) c)) : (List Nat)) (fun d c => (d.wBit F.RXF.CHAIN_STAT_FAILED c false ((6) : Nat)).w F.RXF.FAIL_CAUSE_CAUSE 0 ((6) : Nat) 0 c)) : Dev).each (((bitList 8 (((((((((({ dev := (((inMode 1).w F.RSM.BAND_STAT_STATE 4 6).w F.RSM.REQ_TARGET 1 6).w F.RXF.CHAIN_EN_EN 128 6 }) : State).dev.w F.SYN.CAL_STAT_RX_BUSY 0 ((6) : Nat)).setBand ((6) : Nat) (fun b => { b.learn (([]) : (List DcoCode)) with rxCal := 0 })).showDco ((6) : Nat)) : Dev).w F.SYN.RX_TCAL_T (ofSigned 8 ((((((({ dev := (((inMode 1).w F.RSM.BAND_STAT_STATE 4 6).w F.RSM.REQ_TARGET 1 6).w F.RXF.CHAIN_EN_EN 128 6 }) : State).dev.w F.SYN.CAL_STAT_RX_BUSY 0 ((6) : Nat)).setBand ((6) : Nat) (fun b => { b.learn (([]) : (List DcoCode)) with rxCal := 0 })).showDco ((6) : Nat)) : Dev).tempC (rxRegion ((6) : Nat)))) ((6) : Nat)).inc C.SYN.RX_CAL_CNT ((6) : Nat)) : Dev).g F.RXF.CHAIN_EN_EN ((6) : Nat))).filter (fun c => bitOf ((0) : Nat) c)) : (List Nat)) (fun d c => d.rxChainFail ((6) : Nat) c 2)) : Dev).w F.SYN.CAL_STAT_LAST_FAIL 1 ((6) : Nat)).raise E.SYN.CAL_FAIL ((6) : Nat)).showChains ((6) : Nat) else ((((((((((((({ dev := (((inMode 1).w F.RSM.BAND_STAT_STATE 4 6).w F.RSM.REQ_TARGET 1 6).w F.RXF.CHAIN_EN_EN 128 6 }) : State).dev.w F.SYN.CAL_STAT_RX_BUSY 0 ((6) : Nat)).setBand ((6) : Nat) (fun b => { b.learn (([]) : (List DcoCode)) with rxCal := 0 })).showDco ((6) : Nat)) : Dev).w F.SYN.RX_TCAL_T (ofSigned 8 ((((((({ dev := (((inMode 1).w F.RSM.BAND_STAT_STATE 4 6).w F.RSM.REQ_TARGET 1 6).w F.RXF.CHAIN_EN_EN 128 6 }) : State).dev.w F.SYN.CAL_STAT_RX_BUSY 0 ((6) : Nat)).setBand ((6) : Nat) (fun b => { b.learn (([]) : (List DcoCode)) with rxCal := 0 })).showDco ((6) : Nat)) : Dev).tempC (rxRegion ((6) : Nat)))) ((6) : Nat)).inc C.SYN.RX_CAL_CNT ((6) : Nat)) : Dev).each (((bitList 8 (((((((((({ dev := (((inMode 1).w F.RSM.BAND_STAT_STATE 4 6).w F.RSM.REQ_TARGET 1 6).w F.RXF.CHAIN_EN_EN 128 6 }) : State).dev.w F.SYN.CAL_STAT_RX_BUSY 0 ((6) : Nat)).setBand ((6) : Nat) (fun b => { b.learn (([]) : (List DcoCode)) with rxCal := 0 })).showDco ((6) : Nat)) : Dev).w F.SYN.RX_TCAL_T (ofSigned 8 ((((((({ dev := (((inMode 1).w F.RSM.BAND_STAT_STATE 4 6).w F.RSM.REQ_TARGET 1 6).w F.RXF.CHAIN_EN_EN 128 6 }) : State).dev.w F.SYN.CAL_STAT_RX_BUSY 0 ((6) : Nat)).setBand ((6) : Nat) (fun b => { b.learn (([]) : (List DcoCode)) with rxCal := 0 })).showDco ((6) : Nat)) : Dev).tempC (rxRegion ((6) : Nat)))) ((6) : Nat)).inc C.SYN.RX_CAL_CNT ((6) : Nat)) : Dev).g F.RXF.CHAIN_EN_EN ((6) : Nat))).filter (fun c => !bitOf ((0) : Nat) c)) : (List Nat)) (fun d c => (d.wBit F.RXF.CHAIN_STAT_FAILED c false ((6) : Nat)).w F.RXF.FAIL_CAUSE_CAUSE 0 ((6) : Nat) 0 c)) : Dev).each (((bitList 8 (((((((((({ dev := (((inMode 1).w F.RSM.BAND_STAT_STATE 4 6).w F.RSM.REQ_TARGET 1 6).w F.RXF.CHAIN_EN_EN 128 6 }) : State).dev.w F.SYN.CAL_STAT_RX_BUSY 0 ((6) : Nat)).setBand ((6) : Nat) (fun b => { b.learn (([]) : (List DcoCode)) with rxCal := 0 })).showDco ((6) : Nat)) : Dev).w F.SYN.RX_TCAL_T (ofSigned 8 ((((((({ dev := (((inMode 1).w F.RSM.BAND_STAT_STATE 4 6).w F.RSM.REQ_TARGET 1 6).w F.RXF.CHAIN_EN_EN 128 6 }) : State).dev.w F.SYN.CAL_STAT_RX_BUSY 0 ((6) : Nat)).setBand ((6) : Nat) (fun b => { b.learn (([]) : (List DcoCode)) with rxCal := 0 })).showDco ((6) : Nat)) : Dev).tempC (rxRegion ((6) : Nat)))) ((6) : Nat)).inc C.SYN.RX_CAL_CNT ((6) : Nat)) : Dev).g F.RXF.CHAIN_EN_EN ((6) : Nat))).filter (fun c => bitOf ((0) : Nat) c)) : (List Nat)) (fun d c => d.rxChainFail ((6) : Nat) c 2)) : Dev).showChains ((6) : Nat))) : Dev).bandWanted ((6) : Nat) = 3 ∨ (((if ((true) : Bool) = false ∨ (((bitList 8 (((((((((({ dev := (((inMode 1).w F.RSM.BAND_STAT_STATE 4 6).w F.RSM.REQ_TARGET 1 6).w F.RXF.CHAIN_EN_EN 128 6 }) : State).dev.w F.SYN.CAL_STAT_RX_BUSY 0 ((6) : Nat)).setBand ((6) : Nat) (fun b => { b.learn (([]) : (List DcoCode)) with rxCal := 0 })).showDco ((6) : Nat)) : Dev).w F.SYN.RX_TCAL_T (ofSigned 8 ((((((({ dev := (((inMode 1).w F.RSM.BAND_STAT_STATE 4 6).w F.RSM.REQ_TARGET 1 6).w F.RXF.CHAIN_EN_EN 128 6 }) : State).dev.w F.SYN.CAL_STAT_RX_BUSY 0 ((6) : Nat)).setBand ((6) : Nat) (fun b => { b.learn (([]) : (List DcoCode)) with rxCal := 0 })).showDco ((6) : Nat)) : Dev).tempC (rxRegion ((6) : Nat)))) ((6) : Nat)).inc C.SYN.RX_CAL_CNT ((6) : Nat)) : Dev).g F.RXF.CHAIN_EN_EN ((6) : Nat))).filter (fun c => bitOf ((0) : Nat) c)) : (List Nat)) ≠ [] then ((((((((((((((({ dev := (((inMode 1).w F.RSM.BAND_STAT_STATE 4 6).w F.RSM.REQ_TARGET 1 6).w F.RXF.CHAIN_EN_EN 128 6 }) : State).dev.w F.SYN.CAL_STAT_RX_BUSY 0 ((6) : Nat)).setBand ((6) : Nat) (fun b => { b.learn (([]) : (List DcoCode)) with rxCal := 0 })).showDco ((6) : Nat)) : Dev).w F.SYN.RX_TCAL_T (ofSigned 8 ((((((({ dev := (((inMode 1).w F.RSM.BAND_STAT_STATE 4 6).w F.RSM.REQ_TARGET 1 6).w F.RXF.CHAIN_EN_EN 128 6 }) : State).dev.w F.SYN.CAL_STAT_RX_BUSY 0 ((6) : Nat)).setBand ((6) : Nat) (fun b => { b.learn (([]) : (List DcoCode)) with rxCal := 0 })).showDco ((6) : Nat)) : Dev).tempC (rxRegion ((6) : Nat)))) ((6) : Nat)).inc C.SYN.RX_CAL_CNT ((6) : Nat)) : Dev).each (((bitList 8 (((((((((({ dev := (((inMode 1).w F.RSM.BAND_STAT_STATE 4 6).w F.RSM.REQ_TARGET 1 6).w F.RXF.CHAIN_EN_EN 128 6 }) : State).dev.w F.SYN.CAL_STAT_RX_BUSY 0 ((6) : Nat)).setBand ((6) : Nat) (fun b => { b.learn (([]) : (List DcoCode)) with rxCal := 0 })).showDco ((6) : Nat)) : Dev).w F.SYN.RX_TCAL_T (ofSigned 8 ((((((({ dev := (((inMode 1).w F.RSM.BAND_STAT_STATE 4 6).w F.RSM.REQ_TARGET 1 6).w F.RXF.CHAIN_EN_EN 128 6 }) : State).dev.w F.SYN.CAL_STAT_RX_BUSY 0 ((6) : Nat)).setBand ((6) : Nat) (fun b => { b.learn (([]) : (List DcoCode)) with rxCal := 0 })).showDco ((6) : Nat)) : Dev).tempC (rxRegion ((6) : Nat)))) ((6) : Nat)).inc C.SYN.RX_CAL_CNT ((6) : Nat)) : Dev).g F.RXF.CHAIN_EN_EN ((6) : Nat))).filter (fun c => !bitOf ((0) : Nat) c)) : (List Nat)) (fun d c => (d.wBit F.RXF.CHAIN_STAT_FAILED c false ((6) : Nat)).w F.RXF.FAIL_CAUSE_CAUSE 0 ((6) : Nat) 0 c)) : Dev).each (((bitList 8 (((((((((({ dev := (((inMode 1).w F.RSM.BAND_STAT_STATE 4 6).w F.RSM.REQ_TARGET 1 6).w F.RXF.CHAIN_EN_EN 128 6 }) : State).dev.w F.SYN.CAL_STAT_RX_BUSY 0 ((6) : Nat)).setBand ((6) : Nat) (fun b => { b.learn (([]) : (List DcoCode)) with rxCal := 0 })).showDco ((6) : Nat)) : Dev).w F.SYN.RX_TCAL_T (ofSigned 8 ((((((({ dev := (((inMode 1).w F.RSM.BAND_STAT_STATE 4 6).w F.RSM.REQ_TARGET 1 6).w F.RXF.CHAIN_EN_EN 128 6 }) : State).dev.w F.SYN.CAL_STAT_RX_BUSY 0 ((6) : Nat)).setBand ((6) : Nat) (fun b => { b.learn (([]) : (List DcoCode)) with rxCal := 0 })).showDco ((6) : Nat)) : Dev).tempC (rxRegion ((6) : Nat)))) ((6) : Nat)).inc C.SYN.RX_CAL_CNT ((6) : Nat)) : Dev).g F.RXF.CHAIN_EN_EN ((6) : Nat))).filter (fun c => bitOf ((0) : Nat) c)) : (List Nat)) (fun d c => d.rxChainFail ((6) : Nat) c 2)) : Dev).w F.SYN.CAL_STAT_LAST_FAIL 1 ((6) : Nat)).raise E.SYN.CAL_FAIL ((6) : Nat)).showChains ((6) : Nat) else ((((((((((((({ dev := (((inMode 1).w F.RSM.BAND_STAT_STATE 4 6).w F.RSM.REQ_TARGET 1 6).w F.RXF.CHAIN_EN_EN 128 6 }) : State).dev.w F.SYN.CAL_STAT_RX_BUSY 0 ((6) : Nat)).setBand ((6) : Nat) (fun b => { b.learn (([]) : (List DcoCode)) with rxCal := 0 })).showDco ((6) : Nat)) : Dev).w F.SYN.RX_TCAL_T (ofSigned 8 ((((((({ dev := (((inMode 1).w F.RSM.BAND_STAT_STATE 4 6).w F.RSM.REQ_TARGET 1 6).w F.RXF.CHAIN_EN_EN 128 6 }) : State).dev.w F.SYN.CAL_STAT_RX_BUSY 0 ((6) : Nat)).setBand ((6) : Nat) (fun b => { b.learn (([]) : (List DcoCode)) with rxCal := 0 })).showDco ((6) : Nat)) : Dev).tempC (rxRegion ((6) : Nat)))) ((6) : Nat)).inc C.SYN.RX_CAL_CNT ((6) : Nat)) : Dev).each (((bitList 8 (((((((((({ dev := (((inMode 1).w F.RSM.BAND_STAT_STATE 4 6).w F.RSM.REQ_TARGET 1 6).w F.RXF.CHAIN_EN_EN 128 6 }) : State).dev.w F.SYN.CAL_STAT_RX_BUSY 0 ((6) : Nat)).setBand ((6) : Nat) (fun b => { b.learn (([]) : (List DcoCode)) with rxCal := 0 })).showDco ((6) : Nat)) : Dev).w F.SYN.RX_TCAL_T (ofSigned 8 ((((((({ dev := (((inMode 1).w F.RSM.BAND_STAT_STATE 4 6).w F.RSM.REQ_TARGET 1 6).w F.RXF.CHAIN_EN_EN 128 6 }) : State).dev.w F.SYN.CAL_STAT_RX_BUSY 0 ((6) : Nat)).setBand ((6) : Nat) (fun b => { b.learn (([]) : (List DcoCode)) with rxCal := 0 })).showDco ((6) : Nat)) : Dev).tempC (rxRegion ((6) : Nat)))) ((6) : Nat)).inc C.SYN.RX_CAL_CNT ((6) : Nat)) : Dev).g F.RXF.CHAIN_EN_EN ((6) : Nat))).filter (fun c => !bitOf ((0) : Nat) c)) : (List Nat)) (fun d c => (d.wBit F.RXF.CHAIN_STAT_FAILED c false ((6) : Nat)).w F.RXF.FAIL_CAUSE_CAUSE 0 ((6) : Nat) 0 c)) : Dev).each (((bitList 8 (((((((((({ dev := (((inMode 1).w F.RSM.BAND_STAT_STATE 4 6).w F.RSM.REQ_TARGET 1 6).w F.RXF.CHAIN_EN_EN 128 6 }) : State).dev.w F.SYN.CAL_STAT_RX_BUSY 0 ((6) : Nat)).setBand ((6) : Nat) (fun b => { b.learn (([]) : (List DcoCode)) with rxCal := 0 })).showDco ((6) : Nat)) : Dev).w F.SYN.RX_TCAL_T (ofSigned 8 ((((((({ dev := (((inMode 1).w F.RSM.BAND_STAT_STATE 4 6).w F.RSM.REQ_TARGET 1 6).w F.RXF.CHAIN_EN_EN 128 6 }) : State).dev.w F.SYN.CAL_STAT_RX_BUSY 0 ((6) : Nat)).setBand ((6) : Nat) (fun b => { b.learn (([]) : (List DcoCode)) with rxCal := 0 })).showDco ((6) : Nat)) : Dev).tempC (rxRegion ((6) : Nat)))) ((6) : Nat)).inc C.SYN.RX_CAL_CNT ((6) : Nat)) : Dev).g F.RXF.CHAIN_EN_EN ((6) : Nat))).filter (fun c => bitOf ((0) : Nat) c)) : (List Nat)) (fun d c => d.rxChainFail ((6) : Nat) c 2)) : Dev).showChains ((6) : Nat))) : Dev).bandWanted ((6) : Nat) = 5 then (((if ((true) : Bool) = false ∨ (((bitList 8 (((((((((({ dev := (((inMode 1).w F.RSM.BAND_STAT_STATE 4 6).w F.RSM.REQ_TARGET 1 6).w F.RXF.CHAIN_EN_EN 128 6 }) : State).dev.w F.SYN.CAL_STAT_RX_BUSY 0 ((6) : Nat)).setBand ((6) : Nat) (fun b => { b.learn (([]) : (List DcoCode)) with rxCal := 0 })).showDco ((6) : Nat)) : Dev).w F.SYN.RX_TCAL_T (ofSigned 8 ((((((({ dev := (((inMode 1).w F.RSM.BAND_STAT_STATE 4 6).w F.RSM.REQ_TARGET 1 6).w F.RXF.CHAIN_EN_EN 128 6 }) : State).dev.w F.SYN.CAL_STAT_RX_BUSY 0 ((6) : Nat)).setBand ((6) : Nat) (fun b => { b.learn (([]) : (List DcoCode)) with rxCal := 0 })).showDco ((6) : Nat)) : Dev).tempC (rxRegion ((6) : Nat)))) ((6) : Nat)).inc C.SYN.RX_CAL_CNT ((6) : Nat)) : Dev).g F.RXF.CHAIN_EN_EN ((6) : Nat))).filter (fun c => bitOf ((0) : Nat) c)) : (List Nat)) ≠ [] then ((((((((((((((({ dev := (((inMode 1).w F.RSM.BAND_STAT_STATE 4 6).w F.RSM.REQ_TARGET 1 6).w F.RXF.CHAIN_EN_EN 128 6 }) : State).dev.w F.SYN.CAL_STAT_RX_BUSY 0 ((6) : Nat)).setBand ((6) : Nat) (fun b => { b.learn (([]) : (List DcoCode)) with rxCal := 0 })).showDco ((6) : Nat)) : Dev).w F.SYN.RX_TCAL_T (ofSigned 8 ((((((({ dev := (((inMode 1).w F.RSM.BAND_STAT_STATE 4 6).w F.RSM.REQ_TARGET 1 6).w F.RXF.CHAIN_EN_EN 128 6 }) : State).dev.w F.SYN.CAL_STAT_RX_BUSY 0 ((6) : Nat)).setBand ((6) : Nat) (fun b => { b.learn (([]) : (List DcoCode)) with rxCal := 0 })).showDco ((6) : Nat)) : Dev).tempC (rxRegion ((6) : Nat)))) ((6) : Nat)).inc C.SYN.RX_CAL_CNT ((6) : Nat)) : Dev).each (((bitList 8 (((((((((({ dev := (((inMode 1).w F.RSM.BAND_STAT_STATE 4 6).w F.RSM.REQ_TARGET 1 6).w F.RXF.CHAIN_EN_EN 128 6 }) : State).dev.w F.SYN.CAL_STAT_RX_BUSY 0 ((6) : Nat)).setBand ((6) : Nat) (fun b => { b.learn (([]) : (List DcoCode)) with rxCal := 0 })).showDco ((6) : Nat)) : Dev).w F.SYN.RX_TCAL_T (ofSigned 8 ((((((({ dev := (((inMode 1).w F.RSM.BAND_STAT_STATE 4 6).w F.RSM.REQ_TARGET 1 6).w F.RXF.CHAIN_EN_EN 128 6 }) : State).dev.w F.SYN.CAL_STAT_RX_BUSY 0 ((6) : Nat)).setBand ((6) : Nat) (fun b => { b.learn (([]) : (List DcoCode)) with rxCal := 0 })).showDco ((6) : Nat)) : Dev).tempC (rxRegion ((6) : Nat)))) ((6) : Nat)).inc C.SYN.RX_CAL_CNT ((6) : Nat)) : Dev).g F.RXF.CHAIN_EN_EN ((6) : Nat))).filter (fun c => !bitOf ((0) : Nat) c)) : (List Nat)) (fun d c => (d.wBit F.RXF.CHAIN_STAT_FAILED c false ((6) : Nat)).w F.RXF.FAIL_CAUSE_CAUSE 0 ((6) : Nat) 0 c)) : Dev).each (((bitList 8 (((((((((({ dev := (((inMode 1).w F.RSM.BAND_STAT_STATE 4 6).w F.RSM.REQ_TARGET 1 6).w F.RXF.CHAIN_EN_EN 128 6 }) : State).dev.w F.SYN.CAL_STAT_RX_BUSY 0 ((6) : Nat)).setBand ((6) : Nat) (fun b => { b.learn (([]) : (List DcoCode)) with rxCal := 0 })).showDco ((6) : Nat)) : Dev).w F.SYN.RX_TCAL_T (ofSigned 8 ((((((({ dev := (((inMode 1).w F.RSM.BAND_STAT_STATE 4 6).w F.RSM.REQ_TARGET 1 6).w F.RXF.CHAIN_EN_EN 128 6 }) : State).dev.w F.SYN.CAL_STAT_RX_BUSY 0 ((6) : Nat)).setBand ((6) : Nat) (fun b => { b.learn (([]) : (List DcoCode)) with rxCal := 0 })).showDco ((6) : Nat)) : Dev).tempC (rxRegion ((6) : Nat)))) ((6) : Nat)).inc C.SYN.RX_CAL_CNT ((6) : Nat)) : Dev).g F.RXF.CHAIN_EN_EN ((6) : Nat))).filter (fun c => bitOf ((0) : Nat) c)) : (List Nat)) (fun d c => d.rxChainFail ((6) : Nat) c 2)) : Dev).w F.SYN.CAL_STAT_LAST_FAIL 1 ((6) : Nat)).raise E.SYN.CAL_FAIL ((6) : Nat)).showChains ((6) : Nat) else ((((((((((((({ dev := (((inMode 1).w F.RSM.BAND_STAT_STATE 4 6).w F.RSM.REQ_TARGET 1 6).w F.RXF.CHAIN_EN_EN 128 6 }) : State).dev.w F.SYN.CAL_STAT_RX_BUSY 0 ((6) : Nat)).setBand ((6) : Nat) (fun b => { b.learn (([]) : (List DcoCode)) with rxCal := 0 })).showDco ((6) : Nat)) : Dev).w F.SYN.RX_TCAL_T (ofSigned 8 ((((((({ dev := (((inMode 1).w F.RSM.BAND_STAT_STATE 4 6).w F.RSM.REQ_TARGET 1 6).w F.RXF.CHAIN_EN_EN 128 6 }) : State).dev.w F.SYN.CAL_STAT_RX_BUSY 0 ((6) : Nat)).setBand ((6) : Nat) (fun b => { b.learn (([]) : (List DcoCode)) with rxCal := 0 })).showDco ((6) : Nat)) : Dev).tempC (rxRegion ((6) : Nat)))) ((6) : Nat)).inc C.SYN.RX_CAL_CNT ((6) : Nat)) : Dev).each (((bitList 8 (((((((((({ dev := (((inMode 1).w F.RSM.BAND_STAT_STATE 4 6).w F.RSM.REQ_TARGET 1 6).w F.RXF.CHAIN_EN_EN 128 6 }) : State).dev.w F.SYN.CAL_STAT_RX_BUSY 0 ((6) : Nat)).setBand ((6) : Nat) (fun b => { b.learn (([]) : (List DcoCode)) with rxCal := 0 })).showDco ((6) : Nat)) : Dev).w F.SYN.RX_TCAL_T (ofSigned 8 ((((((({ dev := (((inMode 1).w F.RSM.BAND_STAT_STATE 4 6).w F.RSM.REQ_TARGET 1 6).w F.RXF.CHAIN_EN_EN 128 6 }) : State).dev.w F.SYN.CAL_STAT_RX_BUSY 0 ((6) : Nat)).setBand ((6) : Nat) (fun b => { b.learn (([]) : (List DcoCode)) with rxCal := 0 })).showDco ((6) : Nat)) : Dev).tempC (rxRegion ((6) : Nat)))) ((6) : Nat)).inc C.SYN.RX_CAL_CNT ((6) : Nat)) : Dev).g F.RXF.CHAIN_EN_EN ((6) : Nat))).filter (fun c => !bitOf ((0) : Nat) c)) : (List Nat)) (fun d c => (d.wBit F.RXF.CHAIN_STAT_FAILED c false ((6) : Nat)).w F.RXF.FAIL_CAUSE_CAUSE 0 ((6) : Nat) 0 c)) : Dev).each (((bitList 8 (((((((((({ dev := (((inMode 1).w F.RSM.BAND_STAT_STATE 4 6).w F.RSM.REQ_TARGET 1 6).w F.RXF.CHAIN_EN_EN 128 6 }) : State).dev.w F.SYN.CAL_STAT_RX_BUSY 0 ((6) : Nat)).setBand ((6) : Nat) (fun b => { b.learn (([]) : (List DcoCode)) with rxCal := 0 })).showDco ((6) : Nat)) : Dev).w F.SYN.RX_TCAL_T (ofSigned 8 ((((((({ dev := (((inMode 1).w F.RSM.BAND_STAT_STATE 4 6).w F.RSM.REQ_TARGET 1 6).w F.RXF.CHAIN_EN_EN 128 6 }) : State).dev.w F.SYN.CAL_STAT_RX_BUSY 0 ((6) : Nat)).setBand ((6) : Nat) (fun b => { b.learn (([]) : (List DcoCode)) with rxCal := 0 })).showDco ((6) : Nat)) : Dev).tempC (rxRegion ((6) : Nat)))) ((6) : Nat)).inc C.SYN.RX_CAL_CNT ((6) : Nat)) : Dev).g F.RXF.CHAIN_EN_EN ((6) : Nat))).filter (fun c => bitOf ((0) : Nat) c)) : (List Nat)) (fun d c => d.rxChainFail ((6) : Nat) c 2)) : Dev).showChains ((6) : Nat))) : Dev).bandWanted ((6) : Nat) else 1)), rfl, rfl, rfl, rfl, rfl, rfl, rfl, rfl, by decide +kernel⟩,
   ⟨{ dev := up }, 6, by decide +kernel⟩,
   ⟨{ dev := up.w F.RSM.TX_STAT_STATE 6 6 0 3 }, 6, 3, ((({ dev := up.w F.RSM.TX_STAT_STATE 6 6 0 3 }) : State).dev.wBit F.SYN.CAL_STAT_TX_BUSY ((3) : Nat) false ((6) : Nat)).setChain ((6) : Nat) ((3) : Nat) (fun k => { k with cal := 0 }), rfl, by decide +kernel⟩,
   ⟨{ dev := up.w F.RSM.TX_STAT_STATE 6 6 0 3 }, 6, 3, ((({ dev := up.w F.RSM.TX_STAT_STATE 6 6 0 3 }) : State).dev.wBit F.SYN.CAL_STAT_TX_BUSY ((3) : Nat) false ((6) : Nat)).setChain ((6) : Nat) ((3) : Nat) (fun k => { k with cal := 0 }), ((((({ dev := up.w F.RSM.TX_STAT_STATE 6 6 0 3 }) : State).dev.wBit F.SYN.CAL_STAT_TX_BUSY ((3) : Nat) false ((6) : Nat)).setChain ((6) : Nat) ((3) : Nat) (fun k => { k with cal := 0 })) : Dev).w F.SYN.TX_TCAL_T (ofSigned 8 (((((({ dev := up.w F.RSM.TX_STAT_STATE 6 6 0 3 }) : State).dev.wBit F.SYN.CAL_STAT_TX_BUSY ((3) : Nat) false ((6) : Nat)).setChain ((6) : Nat) ((3) : Nat) (fun k => { k with cal := 0 })) : Dev).tempC (txRegion ((6) : Nat)))) ((6) : Nat) 0 ((3) : Nat), (((((((({ dev := up.w F.RSM.TX_STAT_STATE 6 6 0 3 }) : State).dev.wBit F.SYN.CAL_STAT_TX_BUSY ((3) : Nat) false ((6) : Nat)).setChain ((6) : Nat) ((3) : Nat) (fun k => { k with cal := 0 })) : Dev).w F.SYN.TX_TCAL_T (ofSigned 8 (((((({ dev := up.w F.RSM.TX_STAT_STATE 6 6 0 3 }) : State).dev.wBit F.SYN.CAL_STAT_TX_BUSY ((3) : Nat) false ((6) : Nat)).setChain ((6) : Nat) ((3) : Nat) (fun k => { k with cal := 0 })) : Dev).tempC (txRegion ((6) : Nat)))) ((6) : Nat) 0 ((3) : Nat)) : Dev).w F.SYN.TX_TCAL_V ((((((({ dev := up.w F.RSM.TX_STAT_STATE 6 6 0 3 }) : State).dev.wBit F.SYN.CAL_STAT_TX_BUSY ((3) : Nat) false ((6) : Nat)).setChain ((6) : Nat) ((3) : Nat) (fun k => { k with cal := 0 })) : Dev).w F.SYN.TX_TCAL_T (ofSigned 8 (((((({ dev := up.w F.RSM.TX_STAT_STATE 6 6 0 3 }) : State).dev.wBit F.SYN.CAL_STAT_TX_BUSY ((3) : Nat) false ((6) : Nat)).setChain ((6) : Nat) ((3) : Nat) (fun k => { k with cal := 0 })) : Dev).tempC (txRegion ((6) : Nat)))) ((6) : Nat) 0 ((3) : Nat)) : Dev).vddRfa ((6) : Nat) 0 ((3) : Nat)).inc C.SYN.TX_CAL_CNT ((6) : Nat) 0 ((3) : Nat), (((((((((((({ dev := up.w F.RSM.TX_STAT_STATE 6 6 0 3 }) : State).dev.wBit F.SYN.CAL_STAT_TX_BUSY ((3) : Nat) false ((6) : Nat)).setChain ((6) : Nat) ((3) : Nat) (fun k => { k with cal := 0 })) : Dev).w F.SYN.TX_TCAL_T (ofSigned 8 (((((({ dev := up.w F.RSM.TX_STAT_STATE 6 6 0 3 }) : State).dev.wBit F.SYN.CAL_STAT_TX_BUSY ((3) : Nat) false ((6) : Nat)).setChain ((6) : Nat) ((3) : Nat) (fun k => { k with cal := 0 })) : Dev).tempC (txRegion ((6) : Nat)))) ((6) : Nat) 0 ((3) : Nat)) : Dev).w F.SYN.TX_TCAL_V ((((((({ dev := up.w F.RSM.TX_STAT_STATE 6 6 0 3 }) : State).dev.wBit F.SYN.CAL_STAT_TX_BUSY ((3) : Nat) false ((6) : Nat)).setChain ((6) : Nat) ((3) : Nat) (fun k => { k with cal := 0 })) : Dev).w F.SYN.TX_TCAL_T (ofSigned 8 (((((({ dev := up.w F.RSM.TX_STAT_STATE 6 6 0 3 }) : State).dev.wBit F.SYN.CAL_STAT_TX_BUSY ((3) : Nat) false ((6) : Nat)).setChain ((6) : Nat) ((3) : Nat) (fun k => { k with cal := 0 })) : Dev).tempC (txRegion ((6) : Nat)))) ((6) : Nat) 0 ((3) : Nat)) : Dev).vddRfa ((6) : Nat) 0 ((3) : Nat)).inc C.SYN.TX_CAL_CNT ((6) : Nat) 0 ((3) : Nat)) : Dev).wBit F.TXB.HELD_CHAINS ((3) : Nat) false (((6) : Nat) - 2)).setChain ((6) : Nat) ((3) : Nat) (fun k => { k with cuts := [] })).w F.TXF.MASK_STAT_CUTS_10S 0 ((6) : Nat) ((3) : Nat), rfl, rfl, rfl, rfl, by decide +kernel⟩,
   ⟨{ dev := up }, 6, 0, by decide +kernel⟩⟩

/-- States and operands that meet the hypotheses of `Obligations.GainAndOffset`, one part for each clause with hypotheses of its own. -/
theorem witness_GainAndOffset :
    (∃ (s : State) (die : Nat) (chain : Nat) (level : Int), (isBand die = true) ∧ (chain < 8) ∧ (s.dev.g F.RXF.AGC_CFG_PERIOD die ≠ 0) ∧ (-10 * (s.dev.g F.RXF.AGC_CFG_TARGET die : Int) + 20 < level)) ∧
    (∃ (s : State) (die : Nat) (chain : Nat) (level : Int), (isBand die = true) ∧ (chain < 8) ∧ (s.dev.g F.RXF.AGC_CFG_PERIOD die ≠ 0) ∧ (level < -10 * (s.dev.g F.RXF.AGC_CFG_TARGET die : Int) - 20)) ∧
    (∃ (s : State) (die : Nat) (chain : Nat) (level : Int), (isBand die = true) ∧ (chain < 8) ∧ (s.dev.g F.RXF.AGC_CFG_PERIOD die ≠ 0) ∧ (¬ (-10 * (s.dev.g F.RXF.AGC_CFG_TARGET die : Int) + 20 < level)) ∧ (¬ (level < -10 * (s.dev.g F.RXF.AGC_CFG_TARGET die : Int) - 20))) ∧
    (∃ (s : State) (die : Nat) (chain : Nat), (isBand die = true) ∧ (chain < 8) ∧ (s.dev.g F.RXF.AGC_CFG_PERIOD die = 0)) ∧
    (∃ (s : State) (die : Nat) (chain : Nat) (count : Nat), (isBand die = true) ∧ (chain < 8) ∧ (s.dev.g F.RXF.AGC_CFG_PERIOD die ≠ 0) ∧ (s.dev.g F.RXF.AGC_CFG_CLIP_LIM die ≠ 0) ∧ (s.dev.g F.RXF.AGC_CFG_CLIP_LIM die ≤ count)) ∧
    (∃ (s : State) (die : Nat) (chain : Nat) (count : Nat), (isBand die = false ∨ 8 ≤ chain ∨ s.dev.g F.RXF.AGC_CFG_PERIOD die = 0 ∨ s.dev.g F.RXF.AGC_CFG_CLIP_LIM die = 0 ∨ count < s.dev.g F.RXF.AGC_CFG_CLIP_LIM die)) ∧
    (∃ (s : State) (die : Nat) (chain : Nat), (isBand die = true) ∧ (chain < 8) ∧ (s.dev.g F.RXF.DCO_CFG_COARSE_PERIOD die ≠ 0)) ∧
    (∃ (s : State) (die : Nat) (chain : Nat), (isBand die = false ∨ 8 ≤ chain ∨ s.dev.g F.RXF.DCO_CFG_COARSE_PERIOD die = 0)) ∧
    (∃ (d : Dev) (die : Nat) (fine : Int) (th : Int), (th = 2 ^ 20 * (d.g F.RXF.DCO_CFG_COARSE_THRESH die : Int)) ∧ (fine ≤ th) ∧ (-th ≤ fine)) ∧
    (∃ (d : Dev) (die : Nat) (chain : Nat) (q : Nat) (fine : Int) (th : Int) (f : Fld) (next : Int) (d1 : Dev) (k : Nat) (size : Int), (th = 2 ^ 20 * (d.g F.RXF.DCO_CFG_COARSE_THRESH die : Int)) ∧ (f = (if q = 0 then F.RXF.DCO_I else F.RXF.DCO_Q)) ∧ (next = (if 0 < fine then sext 8 (d.g f die 0 chain) - 1 else sext 8 (d.g f die 0 chain) + 1)) ∧ (d1 = d.setBand die (fun b => b.setFine (2 * chain + q) fine)) ∧ (k = 64 * chain + 2 * d.g F.RXF.GAIN_IDX die 0 chain + q) ∧ (size = 2 ^ 20 * (kvGet 0 (d1.band die).dcoSize k : Int)) ∧ ((th < fine ∨ fine < -th)) ∧ (-128 ≤ next) ∧ (next ≤ 127)) ∧
    (∃ (d : Dev) (die : Nat) (chain : Nat) (q : Nat) (fine : Int) (th : Int) (f : Fld) (d1 : Dev) (n : Nat) (d2 : Dev), (th = 2 ^ 20 * (d.g F.RXF.DCO_CFG_COARSE_THRESH die : Int)) ∧ (f = (if q = 0 then F.RXF.DCO_I else F.RXF.DCO_Q)) ∧ (d1 = d.setBand die (fun b => b.setFine (2 * chain + q) fine)) ∧ (n = kvGet 0 (d1.band die).dcoOver (2 * chain + q) + 1) ∧ (d2 = d1.setBand die (fun b => { b with dcoOver := kvSet 0 b.dcoOver (2 * chain + q) n })) ∧ ((th < fine ∨ fine < -th)) ∧ ((if 0 < fine then sext 8 (d.g f die 0 chain) = -128 else sext 8 (d.g f die 0 chain) = 127))) ∧
    (∃ (die : Nat), (isBand die = true)) ∧
    (∃ (die : Nat), (isBand die = false)) :=
  ⟨⟨{ dev := up.w F.RXF.AGC_CFG_PERIOD 1 6 }, 6, 7, 21, by decide +kernel⟩,
   ⟨{ dev := up.w F.RXF.AGC_CFG_PERIOD 1 6 }, 6, 7, -1000, by decide +kernel⟩,
   ⟨{ dev := (up.w F.RXF.AGC_CFG_PERIOD 1 6).w F.RXF.AGC_CFG_TARGET 2 6 }, 6, 7, 0, by decide +kernel⟩,
   ⟨{ dev := up.w F.RXF.AGC_CFG_PERIOD 0 6 }, 6, 7, by decide +kernel⟩,
   ⟨{ dev := (up.w F.RXF.AGC_CFG_PERIOD 1 6).w F.RXF.AGC_CFG_CLIP_LIM 1 6 }, 6, 7, 1, by decide +kernel⟩,
   ⟨{ dev := up }, 4, 0, 0, by decide +kernel⟩,
   ⟨{ dev := up.w F.RXF.DCO_CFG_COARSE_PERIOD 1 6 }, 6, 7, by decide +kernel⟩,
   ⟨{ dev := up }, 4, 0, by decide +kernel⟩,
   ⟨up.w F.RXF.DCO_CFG_COARSE_THRESH 1 6, 6, 0, 2 ^ 20 * (((up.w F.RXF.DCO_CFG_COARSE_THRESH 1 6) : Dev).g F.RXF.DCO_CFG_COARSE_THRESH ((6) : Nat) : Int), rfl, by decide +kernel⟩,
   ⟨up.w F.RXF.DCO_CFG_COARSE_THRESH 1 6, 6, 7, 1, 2 ^ 20 + 1, 2 ^ 20 * (((up.w F.RXF.DCO_CFG_COARSE_THRESH 1 6) : Dev).g F.RXF.DCO_CFG_COARSE_THRESH ((6) : Nat) : Int), (if ((1) : Nat) = 0 then F.RXF.DCO_I else F.RXF.DCO_Q), (if 0 < ((2 ^ 20 + 1) : Int) then sext 8 (((up.w F.RXF.DCO_CFG_COARSE_THRESH 1 6) : Dev).g (((if ((1) : Nat) = 0 then F.RXF.DCO_I else F.RXF.DCO_Q)) : Fld) ((6) : Nat) 0 ((7) : Nat)) - 1 else sext 8 (((up.w F.RXF.DCO_CFG_COARSE_THRESH 1 6) : Dev).g (((if ((1) : Nat) = 0 then F.RXF.DCO_I else F.RXF.DCO_Q)) : Fld) ((6) : Nat) 0 ((7) : Nat)) + 1), ((up.w F.RXF.DCO_CFG_COARSE_THRESH 1 6) : Dev).setBand ((6) : Nat) (fun b => b.setFine (2 * ((7) : Nat) + ((1) : Nat)) ((2 ^ 20 + 1) : Int)), 64 * ((7) : Nat) + 2 * ((up.w F.RXF.DCO_CFG_COARSE_THRESH 1 6) : Dev).g F.RXF.GAIN_IDX ((6) : Nat) 0 ((7) : Nat) + ((1) : Nat), 2 ^ 20 * (kvGet 0 (((((up.w F.RXF.DCO_CFG_COARSE_THRESH 1 6) : Dev).setBand ((6) : Nat) (fun b => b.setFine (2 * ((7) : Nat) + ((1) : Nat)) ((2 ^ 20 + 1) : Int))) : Dev).band ((6) : Nat)).dcoSize ((64 * ((7) : Nat) + 2 * ((up.w F.RXF.DCO_CFG_COARSE_THRESH 1 6) : Dev).g F.RXF.GAIN_IDX ((6) : Nat) 0 ((7) : Nat) + ((1) : Nat)) : Nat) : Int), rfl, rfl, rfl, rfl, rfl, rfl, by decide +kernel⟩,
   ⟨(up.w F.RXF.DCO_CFG_COARSE_THRESH 1 6).w F.RXF.DCO_Q 128 6 0 7, 6, 7, 1, 2 ^ 20 + 1, 2 ^ 20 * ((((up.w F.RXF.DCO_CFG_COARSE_THRESH 1 6).w F.RXF.DCO_Q 128 6 0 7) : Dev).g F.RXF.DCO_CFG_COARSE_THRESH ((6) : Nat) : Int), (if ((1) : Nat) = 0 then F.RXF.DCO_I else F.RXF.DCO_Q), (((up.w F.RXF.DCO_CFG_COARSE_THRESH 1 6).w F.RXF.DCO_Q 128 6 0 7) : Dev).setBand ((6) : Nat) (fun b => b.setFine (2 * ((7) : Nat) + ((1) : Nat)) ((2 ^ 20 + 1) : Int)), kvGet 0 ((((((up.w F.RXF.DCO_CFG_COARSE_THRESH 1 6).w F.RXF.DCO_Q 128 6 0 7) : Dev).setBand ((6) : Nat) (fun b => b.setFine (2 * ((7) : Nat) + ((1) : Nat)) ((2 ^ 20 + 1) : Int))) : Dev).band ((6) : Nat)).dcoOver (2 * ((7) : Nat) + ((1) : Nat)) + 1, (((((up.w F.RXF.DCO_CFG_COARSE_THRESH 1 6).w F.RXF.DCO_Q 128 6 0 7) : Dev).setBand ((6) : Nat) (fun b => b.setFine (2 * ((7) : Nat) + ((1) : Nat)) ((2 ^ 20 + 1) : Int))) : Dev).setBand ((6) : Nat) (fun b => { b with dcoOver := kvSet 0 b.dcoOver (2 * ((7) : Nat) + ((1) : Nat)) ((kvGet 0 ((((((up.w F.RXF.DCO_CFG_COARSE_THRESH 1 6).w F.RXF.DCO_Q 128 6 0 7) : Dev).setBand ((6) : Nat) (fun b => b.setFine (2 * ((7) : Nat) + ((1) : Nat)) ((2 ^ 20 + 1) : Int))) : Dev).band ((6) : Nat)).dcoOver (2 * ((7) : Nat) + ((1) : Nat)) + 1) : Nat) }), rfl, rfl, rfl, rfl, rfl, by decide +kernel⟩,
   ⟨6, by decide +kernel⟩,
   ⟨4, by decide +kernel⟩⟩

/-- States and operands that meet the hypotheses of `Obligations.LimitImage`, one part for each clause with hypotheses of its own. -/
theorem witness_LimitImage :
    (∃ (s : State) (die : Nat) (p : Page) (i : Nat), (i = s.dev.g F.LIM.LOCK_IDX_IDX p.die) ∧ (Writable s.dev die limPage p)) ∧
    (∃ (s : State) (die : Nat) (code : Nat) (p : Page) (staged : (List (Nat×Nat))) (f : BandFuses), (staged = (s.dev.band p.die).staged) ∧ (f = s.dev.fuse p.die) ∧ (Writable s.dev die limPage p) ∧ (code % 65536 = 0x4C4B) ∧ (s.dev.on F.LIM.LOCK_PROG_BUSY p.die = false)) ∧
    (∃ (s : State) (die : Nat) (code : Nat) (p : Page), (Writable s.dev die limPage p) ∧ ((code % 65536 ≠ 0x4C4B ∨ s.dev.on F.LIM.LOCK_PROG_BUSY p.die = true))) ∧
    (∃ (s : State) (die : Nat), (isBand die = true) ∧ (s.dev.on F.LIM.LOCK_PROG_BUSY die = true)) ∧
    (∃ (s : State) (die : Nat), (isBand die = false ∨ s.dev.on F.LIM.LOCK_PROG_BUSY die = false)) :=
  ⟨⟨{ dev := up }, 6, ⟨.LIM, 6, 0⟩, (({ dev := up }) : State).dev.g F.LIM.LOCK_IDX_IDX ((⟨.LIM, 6, 0⟩) : Page).die, rfl, by decide +kernel⟩,
   ⟨{ dev := (inMode 1).w F.SNS.SUPPLY_MV 1700 0 0 10 }, 6, 0x4C4B, ⟨.LIM, 6, 0⟩, ((({ dev := (inMode 1).w F.SNS.SUPPLY_MV 1700 0 0 10 }) : State).dev.band ((⟨.LIM, 6, 0⟩) : Page).die).staged, (({ dev := (inMode 1).w F.SNS.SUPPLY_MV 1700 0 0 10 }) : State).dev.fuse ((⟨.LIM, 6, 0⟩) : Page).die, rfl, rfl, by decide +kernel⟩,
   ⟨{ dev := up }, 6, 0x4C4A, ⟨.LIM, 6, 0⟩, by decide +kernel⟩,
   ⟨{ dev := up.w F.LIM.LOCK_PROG_BUSY 1 6 }, 6, by decide +kernel⟩,
   ⟨{ dev := up }, 6, by decide +kernel⟩⟩

/-- States and operands that meet the hypotheses of `Obligations.TransmitFrames`, one part for each clause with hypotheses of its own. -/
theorem witness_TransmitFrames :
    (∃ (s : State) (die : Nat) (chain : Nat), (isBand die = false ∨ 4 ≤ chain ∨ s.dev.nextStart (die - 2) chain = none)) ∧
    (∃ (s : State) (die : Nat) (id : Nat) (x : Tx) (d1 : Dev), (d1 = s.dev.setAir die (fun a => { a with planned := a.planned.filter (fun y => y.id != id) })) ∧ (isAir die = true) ∧ (s.dev.dieUp die = true) ∧ ((s.dev.airD die).planned.find? (fun x => x.id == id) = some x) ∧ (s.dev.turnOf die x = true)) ∧
    (∃ (s : State) (die : Nat) (t : TxSpec) (x : Tx), (x = { id := (s.dev.airD die).next, kind := t.kind, channel := t.channel, mode := t.mode, map := t.map, mapWord := 0, rate := t.rate, psdu := t.psdu, wakeCode := t.wakeCode, wakeIdx := t.wakeIdx, power := t.power, start := s.dev.time.lt + t.startUs * tickUs, chain := 0, retune := false, cls := 0, who := .test }) ∧ (isAir die = true) ∧ (s.dev.dieUp die = true)) ∧
    (∃ (s : State) (die : Nat) (id : Nat) (sel : DescSel), (isAir die = false ∨ s.dev.dieUp die = false ∨ (sel = .planned id ∧ (s.dev.airD die).planned.find? (fun x => x.id == id) = none))) ∧
    (∃ (s : State) (die : Nat) (id : Nat) (x : Tx), ((s.dev.airD die).planned.find? (fun x => x.id == id) = some x) ∧ (s.dev.turnOf die x = false)) ∧
    (∃ (s : State) (die : Nat) (chain : Nat) (x : Tx) (d1 : Dev), (d1 = s.dev.setAir (die - 2) (fun a => { a with handed := a.handed.filter (fun y => y.id != x.id) })) ∧ (isBand die = true) ∧ (chain < 4) ∧ (s.dev.nextStart (die - 2) chain = some x) ∧ (d1.startCause die chain x = none)) ∧
    (∃ (s : State) (die : Nat) (chain : Nat) (x : Tx) (cause : Nat) (d1 : Dev) (d2 : Dev), (d1 = s.dev.setAir (die - 2) (fun a => { a with handed := a.handed.filter (fun y => y.id != x.id) })) ∧ (d2 = d1.countRefusal die chain x cause) ∧ (isBand die = true) ∧ (chain < 4) ∧ (s.dev.nextStart (die - 2) chain = some x) ∧ (d1.startCause die chain x = some cause)) ∧
    (∃ (s : State) (die : Nat) (chain : Nat) (x : Tx) (d1 : Dev) (d2 : Dev), (d1 = ((s.dev.emit (.radiated die chain x.kind x.channel x.psdu (s.dev.wave (die - 2) chain x))).airedTx die chain x).txSent (die - 2) x) ∧ (d2 = (d1.outputsOff die chain).setChain die chain (fun k => { k with air := none })) ∧ (isBand die = true) ∧ (chain < 4) ∧ ((s.dev.chain die chain).air = some x)) ∧
    (∃ (s : State) (die : Nat) (chain : Nat) (x : Tx), (isBand die = true) ∧ (chain < 4) ∧ ((s.dev.chain die chain).air = some x)) ∧
    (∃ (s : State) (die : Nat) (chain : Nat), (isBand die = false ∨ 4 ≤ chain ∨ (s.dev.chain die chain).air = none)) ∧
    (∃ (s : State) (die : Nat) (chain : Nat), (s.dev.g F.TXF.MASK_CFG_CNT die chain = 0)) ∧
    (∃ (s : State) (die : Nat) (chain : Nat) (windows : (List (List (Int×Nat)))) (x : Tx), (isBand die = true) ∧ (chain < 4) ∧ ((s.dev.chain die chain).air = some x) ∧ (s.dev.g F.TXF.MASK_CFG_CNT die chain ≠ 0) ∧ (s.dev.maskTrip die chain windows x = false)) ∧
    ((∃ (s : State) (die chain : Nat) (windows : List (List (Int × Nat))) (x : Tx), isBand die = true ∧ chain < 4 ∧ (s.dev.chain die chain).air = some x ∧ s.dev.g F.TXF.MASK_CFG_CNT die chain ≠ 0 ∧ s.dev.maskTrip die chain windows x = true)) :=
  ⟨⟨{ dev := up }, 6, 0, by decide +kernel⟩,
   ⟨{ dev := up.setAir 4 (fun a => { a with planned := [sampleTx] }) }, 4, 1, sampleTx, (({ dev := up.setAir 4 (fun a => { a with planned := [sampleTx] }) }) : State).dev.setAir ((4) : Nat) (fun a => { a with planned := a.planned.filter (fun y => y.id != ((1) : Nat)) }), rfl, by decide +kernel⟩,
   ⟨{ dev := up }, 4, sampleTest, { id := ((({ dev := up }) : State).dev.airD ((4) : Nat)).next, kind := ((sampleTest) : TxSpec).kind, channel := ((sampleTest) : TxSpec).channel, mode := ((sampleTest) : TxSpec).mode, map := ((sampleTest) : TxSpec).map, mapWord := 0, rate := ((sampleTest) : TxSpec).rate, psdu := ((sampleTest) : TxSpec).psdu, wakeCode := ((sampleTest) : TxSpec).wakeCode, wakeIdx := ((sampleTest) : TxSpec).wakeIdx, power := ((sampleTest) : TxSpec).power, start := (({ dev := up }) : State).dev.time.lt + ((sampleTest) : TxSpec).startUs * tickUs, chain := 0, retune := false, cls := 0, who := .test }, rfl, by decide +kernel⟩,
   ⟨{ dev := up }, 4, 1, .planned 1, by decide +kernel⟩,
   ⟨{ dev := up.setAir 4 (fun a => { a with planned := [sampleTx, { sampleTx with id := 2, start := 1 }] }) }, 4, 2, { sampleTx with id := 2, start := 1 }, by decide +kernel⟩,
   ⟨{ dev := starting }, 6, 0, sampleTx, (({ dev := starting }) : State).dev.setAir (((6) : Nat) - 2) (fun a => { a with handed := a.handed.filter (fun y => y.id != ((sampleTx) : Tx).id) }), rfl, by decide +kernel⟩,
   ⟨{ dev := starting.w F.RSM.TX_STAT_STATE 2 6 0 0 }, 6, 0, sampleTx, 1, (({ dev := starting.w F.RSM.TX_STAT_STATE 2 6 0 0 }) : State).dev.setAir (((6) : Nat) - 2) (fun a => { a with handed := a.handed.filter (fun y => y.id != ((sampleTx) : Tx).id) }), (((({ dev := starting.w F.RSM.TX_STAT_STATE 2 6 0 0 }) : State).dev.setAir (((6) : Nat) - 2) (fun a => { a with handed := a.handed.filter (fun y => y.id != ((sampleTx) : Tx).id) })) : Dev).countRefusal ((6) : Nat) ((0) : Nat) ((sampleTx) : Tx) ((1) : Nat), rfl, rfl, by decide +kernel⟩,
   ⟨{ dev := up.setChain 6 3 (fun k => { k with air := some sampleTx }) }, 6, 3, sampleTx, (((({ dev := up.setChain 6 3 (fun k => { k with air := some sampleTx }) }) : State).dev.emit (.radiated ((6) : Nat) ((3) : Nat) ((sampleTx) : Tx).kind ((sampleTx) : Tx).channel ((sampleTx) : Tx).psdu ((({ dev := up.setChain 6 3 (fun k => { k with air := some sampleTx }) }) : State).dev.wave (((6) : Nat) - 2) ((3) : Nat) ((sampleTx) : Tx)))).airedTx ((6) : Nat) ((3) : Nat) ((sampleTx) : Tx)).txSent (((6) : Nat) - 2) ((sampleTx) : Tx), ((((((({ dev := up.setChain 6 3 (fun k => { k with air := some sampleTx }) }) : State).dev.emit (.radiated ((6) : Nat) ((3) : Nat) ((sampleTx) : Tx).kind ((sampleTx) : Tx).channel ((sampleTx) : Tx).psdu ((({ dev := up.setChain 6 3 (fun k => { k with air := some sampleTx }) }) : State).dev.wave (((6) : Nat) - 2) ((3) : Nat) ((sampleTx) : Tx)))).airedTx ((6) : Nat) ((3) : Nat) ((sampleTx) : Tx)).txSent (((6) : Nat) - 2) ((sampleTx) : Tx)) : Dev).outputsOff ((6) : Nat) ((3) : Nat)).setChain ((6) : Nat) ((3) : Nat) (fun k => { k with air := none }), rfl, rfl, by decide +kernel⟩,
   ⟨{ dev := up.setChain 6 3 (fun k => { k with air := some sampleTx }) }, 6, 3, sampleTx, by decide +kernel⟩,
   ⟨{ dev := up }, 6, 0, by decide +kernel⟩,
   ⟨{ dev := up.w F.TXF.MASK_CFG_CNT 0 6 }, 6, 0, by decide +kernel⟩,
   ⟨{ dev := (up.setChain 6 3 (fun k => { k with air := some sampleTx })).w F.TXF.MASK_CFG_CNT 1 6 3 }, 6, 3, [], sampleTx, by decide +kernel⟩,
   ⟨{ dev := (up.setChain 6 3 (fun k => { k with air := some sampleTx })).w F.TXF.MASK_CFG_CNT 1 6 3 }, 6, 3, [maskWindow], sampleTx, by decide +kernel⟩⟩

/-- States and operands that meet the hypotheses of `Obligations.Receptions`, one part for each clause with hypotheses of its own. -/
theorem witness_Receptions :
    (∃ (die : Nat), (isAir die = true)) ∧
    (∃ (s : State) (die : Nat) (channel : Nat) (pre : Preamble) (family : Nat) (q : Nat) (tref : Nat) (mix : (Nat×Int)) (here : (List Recep)), (q = clusterOf channel) ∧ (tref = s.dev.time.lt - pre.ago) ∧ (mix = s.dev.combined die pre) ∧ (here = (s.dev.airD die).receps.filter (fun r => r.channel == channel&&r.arriving die s.dev.time.lt)) ∧ (isAir die = true) ∧ (channel < 512) ∧ (s.dev.bandState (die + 2) = 3) ∧ (s.dev.dieUp die = true) ∧ (s.dev.detects die channel pre = some family) ∧ ((s.dev.airD die).demWait.contains channel = false) ∧ (-(100 * (s.dev.g F.DEM.DET_CFG_CFO_MAX die q : Int)) ≤ pre.cfo) ∧ (pre.cfo ≤ 100 * (s.dev.g F.DEM.DET_CFG_CFO_MAX die q : Int)) ∧ (sext 8 (s.dev.g F.DEM.DET_CFG_SNR_MIN die q) ≤ mix.2) ∧ ((family ≠ 2 ∨ s.dev.ownFrame die channel tref = false)) ∧ (s.dev.twinOf die channel family tref pre.cfo = none) ∧ ((4 ≤ family ∨ s.dev.ctxFree die channel = true)) ∧ (here.length < 2) ∧ ((family < 4 ∨ here = []))) ∧
    (∃ (s : State) (die : Nat) (channel : Nat) (pre : Preamble), (isAir die = false ∨ 512 ≤ channel ∨ s.dev.bandState (die + 2) ≠ 3 ∨ s.dev.dieUp die = false ∨ s.dev.detects die channel pre = none)) ∧
    (∃ (s : State) (die : Nat) (channel : Nat) (pre : Preamble) (family : Nat) (q : Nat), (q = clusterOf channel) ∧ (isAir die = true) ∧ (channel < 512) ∧ (s.dev.bandState (die + 2) = 3) ∧ (s.dev.dieUp die = true) ∧ (s.dev.detects die channel pre = some family) ∧ ((s.dev.airD die).demWait.contains channel = true)) ∧
    (∃ (s : State) (die : Nat) (channel : Nat) (pre : Preamble) (family : Nat) (q : Nat), (q = clusterOf channel) ∧ (isAir die = true) ∧ (channel < 512) ∧ (s.dev.bandState (die + 2) = 3) ∧ (s.dev.dieUp die = true) ∧ (s.dev.detects die channel pre = some family) ∧ ((s.dev.airD die).demWait.contains channel = false) ∧ ((pre.cfo < -(100 * (s.dev.g F.DEM.DET_CFG_CFO_MAX die q : Int)) ∨ 100 * (s.dev.g F.DEM.DET_CFG_CFO_MAX die q : Int) < pre.cfo))) ∧
    (∃ (s : State) (die : Nat) (id : Nat) (sig : Nat) (r : Recep) (d1 : Dev), (d1 = s.dev.inc C.DEC.SIG_DECODED die (clusterOf r.channel / 4)) ∧ (s.dev.recep die id = some r) ∧ (isAir die = true) ∧ (r.sig = false) ∧ (d1.sigFault die r.maxSym sig = none)) ∧
    (∃ (s : State) (die : Nat) (id : Nat) (sig : Nat) (r : Recep) (d1 : Dev) (c : Ctr), (d1 = s.dev.inc C.DEC.SIG_DECODED die (clusterOf r.channel / 4)) ∧ (s.dev.recep die id = some r) ∧ (isAir die = true) ∧ (r.sig = false) ∧ (d1.sigFault die r.maxSym sig = some c)) ∧
    (∃ (s : State) (die : Nat) (id : Nat) (env : DecodeEnv) (r : Recep) (psdu : (List Byte)) (fcs4 : Bool) (ok : Bool) (d1 : Dev) (d2 : Dev), (psdu = psduOf r env) ∧ (fcs4 = (decide (4 ≤ r.family)&&env.fcs4)) ∧ (ok = fcsOk psdu fcs4) ∧ (d1 = s.dev.strongOver die r ok) ∧ (d2 = (if r.role = 1 ∧ ok = false then d1.inc C.SIC.STRONG_FAIL die (clusterOf r.channel) else d1).dropRecep die id) ∧ (s.dev.recep die id = some r) ∧ (isAir die = true) ∧ (r.sig = true) ∧ ((r.role ≠ 2 ∨ r.sic = false)) ∧ ((r.family < 4 ∨ legacyPhyOk r env = true))) ∧
    (∃ (s : State) (die : Nat) (id : Nat) (env : DecodeEnv) (r : Recep), (s.dev.recep die id = some r) ∧ (isAir die = true) ∧ (r.sig = true) ∧ ((r.role ≠ 2 ∨ r.sic = false)) ∧ (4 ≤ r.family) ∧ (legacyPhyOk r env = false)) ∧
    (∃ (s : State) (die : Nat) (f : RxFrame) (l : (List RxFrame)), (isAir die = true) ∧ ((s.dev.airD die).deliv = f :: l)) ∧
    (∃ (s : State) (die : Nat), ((s.dev.airD die).deliv = [])) ∧
    (∃ (s : State) (die : Nat) (id : Nat) (r : Recep) (b : Bool) (nov : Nat) (d1 : Dev), (nov = r.overlapped die r.spans) ∧ (d1 = s.dev.dropRecep die id) ∧ (s.dev.recep die id = some r) ∧ (r.ended = some b) ∧ (isAir die = true) ∧ (r.sig = true) ∧ (r.role = 2) ∧ (128 < nov)) ∧
    (∃ (s : State) (die : Nat) (id : Nat) (bits : (List Byte)) (power : (List Nat)) (r : Recep) (b : Bool) (nov : Nat) (d1 : Dev), (nov = r.overlapped die r.spans) ∧ (d1 = (s.dev.dropRecep die id).weakDone die r 2 nov (DecodeEnv.mk bits power false false)) ∧ (s.dev.recep die id = some r) ∧ (r.ended = some b) ∧ (isAir die = true) ∧ (r.sig = true) ∧ (r.role = 2) ∧ (nov ≤ 128)) ∧
    (∃ (s : State) (die : Nat) (id : Nat), (s.dev.recep die id = none)) :=
  ⟨⟨4, by decide +kernel⟩,
   ⟨{ dev := listening }, 4, 511, { m1 := 65535, corr := [65535], snr := 100, cfo := 0 }, 0, clusterOf ((511) : Nat), (({ dev := listening }) : State).dev.time.lt - (({ m1 := 65535, corr := [65535], snr := 100, cfo := 0 }) : Preamble).ago, (({ dev := listening }) : State).dev.combined ((4) : Nat) (({ m1 := 65535, corr := [65535], snr := 100, cfo := 0 }) : Preamble), ((({ dev := listening }) : State).dev.airD ((4) : Nat)).receps.filter (fun r => r.channel == ((511) : Nat)&&r.arriving ((4) : Nat) (({ dev := listening }) : State).dev.time.lt), rfl, rfl, rfl, rfl, by decide +kernel⟩,
   ⟨{ dev := up }, 4, 511, {}, by decide +kernel⟩,
   ⟨{ dev := listening.setAir 4 (fun a => { a with demWait := [511] }) }, 4, 511, { m1 := 65535, corr := [65535], snr := 100, cfo := 0 }, 0, clusterOf ((511) : Nat), rfl, by decide +kernel⟩,
   ⟨{ dev := listening }, 4, 511, { m1 := 65535, corr := [65535], snr := 100, cfo := 1001 }, 0, clusterOf ((511) : Nat), rfl, by decide +kernel⟩,
   ⟨{ dev := hearing false }, 4, 1, goodSig, recepOf false, (({ dev := hearing false }) : State).dev.inc C.DEC.SIG_DECODED ((4) : Nat) (clusterOf ((recepOf false) : Recep).channel / 4), rfl, by decide +kernel⟩,
   ⟨{ dev := hearing false }, 4, 1, goodSig + 2 ^ 24, recepOf false, (({ dev := hearing false }) : State).dev.inc C.DEC.SIG_DECODED ((4) : Nat) (clusterOf ((recepOf false) : Recep).channel / 4), C.DEM.SIG_FAIL, rfl, by decide +kernel⟩,
   ⟨{ dev := hearing true }, 4, 1, goodFrame, recepOf true, psduOf ((recepOf true) : Recep) ((goodFrame) : DecodeEnv), (decide (4 ≤ ((recepOf true) : Recep).family)&&((goodFrame) : DecodeEnv).fcs4), fcsOk ((psduOf ((recepOf true) : Recep) ((goodFrame) : DecodeEnv)) : (List Byte)) (((decide (4 ≤ ((recepOf true) : Recep).family)&&((goodFrame) : DecodeEnv).fcs4)) : Bool), (({ dev := hearing true }) : State).dev.strongOver ((4) : Nat) ((recepOf true) : Recep) ((fcsOk ((psduOf ((recepOf true) : Recep) ((goodFrame) : DecodeEnv)) : (List Byte)) (((decide (4 ≤ ((recepOf true) : Recep).family)&&((goodFrame) : DecodeEnv).fcs4)) : Bool)) : Bool), (if ((recepOf true) : Recep).role = 1 ∧ ((fcsOk ((psduOf ((recepOf true) : Recep) ((goodFrame) : DecodeEnv)) : (List Byte)) (((decide (4 ≤ ((recepOf true) : Recep).family)&&((goodFrame) : DecodeEnv).fcs4)) : Bool)) : Bool) = false then (((({ dev := hearing true }) : State).dev.strongOver ((4) : Nat) ((recepOf true) : Recep) ((fcsOk ((psduOf ((recepOf true) : Recep) ((goodFrame) : DecodeEnv)) : (List Byte)) (((decide (4 ≤ ((recepOf true) : Recep).family)&&((goodFrame) : DecodeEnv).fcs4)) : Bool)) : Bool)) : Dev).inc C.SIC.STRONG_FAIL ((4) : Nat) (clusterOf ((recepOf true) : Recep).channel) else (((({ dev := hearing true }) : State).dev.strongOver ((4) : Nat) ((recepOf true) : Recep) ((fcsOk ((psduOf ((recepOf true) : Recep) ((goodFrame) : DecodeEnv)) : (List Byte)) (((decide (4 ≤ ((recepOf true) : Recep).family)&&((goodFrame) : DecodeEnv).fcs4)) : Bool)) : Bool)) : Dev)).dropRecep ((4) : Nat) ((1) : Nat), rfl, rfl, rfl, rfl, rfl, by decide +kernel⟩,
   ⟨{ dev := up.setAir 4 (fun a => { a with receps := [{ recepOf true with family := 5 }] }) }, 4, 1, { goodFrame with unsup := true }, { recepOf true with family := 5 }, by decide +kernel⟩,
   ⟨{ dev := up.setAir 4 (fun a => { a with deliv := [sampleRx] }) }, 4, sampleRx, [], by decide +kernel⟩,
   ⟨{ dev := up }, 4, by decide +kernel⟩,
   ⟨{ dev := up.setAir 4 (fun a => { a with receps := [longOver] }) }, 4, 1, longOver, true, ((longOver) : Recep).overlapped ((4) : Nat) ((longOver) : Recep).spans, (({ dev := up.setAir 4 (fun a => { a with receps := [longOver] }) }) : State).dev.dropRecep ((4) : Nat) ((1) : Nat), rfl, rfl, by decide +kernel⟩,
   ⟨{ dev := up.setAir 4 (fun a => { a with receps := [{ recepOf true with role := 2, ended := some true }] }) }, 4, 1, badFrame.bits, [], { recepOf true with role := 2, ended := some true }, true, (({ recepOf true with role := 2, ended := some true }) : Recep).overlapped ((4) : Nat) (({ recepOf true with role := 2, ended := some true }) : Recep).spans, ((({ dev := up.setAir 4 (fun a => { a with receps := [{ recepOf true with role := 2, ended := some true }] }) }) : State).dev.dropRecep ((4) : Nat) ((1) : Nat)).weakDone ((4) : Nat) (({ recepOf true with role := 2, ended := some true }) : Recep) 2 (((({ recepOf true with role := 2, ended := some true }) : Recep).overlapped ((4) : Nat) (({ recepOf true with role := 2, ended := some true }) : Recep).spans) : Nat) (DecodeEnv.mk ((badFrame.bits) : (List Byte)) (([]) : (List Nat)) false false), rfl, rfl, by decide +kernel⟩,
   ⟨{ dev := up }, 4, 0, by decide +kernel⟩⟩

/-- States and operands that meet the hypotheses of `Obligations.NoiseAndDemodulators`, one part for each clause with hypotheses of its own. -/
theorem witness_NoiseAndDemodulators :
    (∃ (s : State) (die : Nat) (obs : (List NoiseObs)) (used : (List NoiseObs)) (d0 : Dev) (d1 : Dev), (used = obs.filter (fun o => obsUsable die s.dev.time.lt (s.dev.g F.CMB.STAT_CHAINS_USED die) (s.dev.onAir die) o)) ∧ (d0 = s.dev.setAir die (fun a => { a with aired := [] })) ∧ (d1 = (d0.each ((List.range 512).filter (fun ch => d0.chMode die ch == 0)) (fun d ch => d.publishNoise die ch (used.filter (fun o => o.ch == ch)).length (if (used.filter (fun o => o.ch == ch)).isEmpty then [] else noiseCodes (used.filter (fun o => o.ch == ch))))).inc C.NSE.SF_MEASURED die) ∧ (isAir die = true) ∧ (s.dev.g F.NSE.OBS_CFG_MIN_OBS die ≠ 0)) ∧
    (∃ (s : State) (die : Nat), (isAir die = true) ∧ (s.dev.g F.NSE.OBS_CFG_MIN_OBS die = 0)) ∧
    (∃ (die : Nat), (isAir die = false)) ∧
    (∃ (s : State) (die : Nat) (channel : Nat) (p : Page) (j : Nat) (pc : PendCommit) (tied : (List Nat)) (d1 : Dev), (p = (⟨.DEM, die, channel / 32⟩ : Page)) ∧ (j = channel % 32) ∧ (tied = gangOf (fun i => s.dev.chMode die (32 * p.inst + i)) j ++ gangOf (fun i => snapGet pc.snap F.DEM.CH_CFG_MODE p i) j) ∧ (d1 = (s.dev.each chCfgFields (fun d f => d.put f p (snapGet pc.snap f p j) j)).setAir die (fun a => { a with demWait := a.demWait.filter (fun c => c != channel) })) ∧ (s.dev.pendingCommit p = some pc) ∧ (isAir die = true) ∧ ((s.dev.airD die).demWait.contains channel = true) ∧ ((s.dev.airD die).receps.any (fun r => r.channel / 32 == p.inst&&tied.contains (r.channel % 32)) = false)) ∧
    (∃ (s : State) (die : Nat) (channel : Nat) (p : Page) (j : Nat) (pc : PendCommit) (tied : (List Nat)), (p = (⟨.DEM, die, channel / 32⟩ : Page)) ∧ (j = channel % 32) ∧ (tied = gangOf (fun i => s.dev.chMode die (32 * p.inst + i)) j ++ gangOf (fun i => snapGet pc.snap F.DEM.CH_CFG_MODE p i) j) ∧ (s.dev.pendingCommit p = some pc) ∧ ((s.dev.airD die).receps.any (fun r => r.channel / 32 == p.inst&&tied.contains (r.channel % 32)) = true)) ∧
    (∃ (s : State) (die : Nat) (channel : Nat), (isAir die = false ∨ s.dev.pendingCommit ⟨.DEM, die, channel / 32⟩ = none ∨ (s.dev.airD die).demWait.contains channel = false)) :=
  ⟨⟨{ dev := up.w F.NSE.OBS_CFG_MIN_OBS 1 4 }, 4, [], (([]) : (List NoiseObs)).filter (fun o => obsUsable ((4) : Nat) (({ dev := up.w F.NSE.OBS_CFG_MIN_OBS 1 4 }) : State).dev.time.lt ((({ dev := up.w F.NSE.OBS_CFG_MIN_OBS 1 4 }) : State).dev.g F.CMB.STAT_CHAINS_USED ((4) : Nat)) ((({ dev := up.w F.NSE.OBS_CFG_MIN_OBS 1 4 }) : State).dev.onAir ((4) : Nat)) o), (({ dev := up.w F.NSE.OBS_CFG_MIN_OBS 1 4 }) : State).dev.setAir ((4) : Nat) (fun a => { a with aired := [] }), ((((({ dev := up.w F.NSE.OBS_CFG_MIN_OBS 1 4 }) : State).dev.setAir ((4) : Nat) (fun a => { a with aired := [] })) : Dev).each ((List.range 512).filter (fun ch => (((({ dev := up.w F.NSE.OBS_CFG_MIN_OBS 1 4 }) : State).dev.setAir ((4) : Nat) (fun a => { a with aired := [] })) : Dev).chMode ((4) : Nat) ch == 0)) (fun d ch => d.publishNoise ((4) : Nat) ch ((((([]) : (List NoiseObs)).filter (fun o => obsUsable ((4) : Nat) (({ dev := up.w F.NSE.OBS_CFG_MIN_OBS 1 4 }) : State).dev.time.lt ((({ dev := up.w F.NSE.OBS_CFG_MIN_OBS 1 4 }) : State).dev.g F.CMB.STAT_CHAINS_USED ((4) : Nat)) ((({ dev := up.w F.NSE.OBS_CFG_MIN_OBS 1 4 }) : State).dev.onAir ((4) : Nat)) o)) : (List NoiseObs)).filter (fun o => o.ch == ch)).length (if ((((([]) : (List NoiseObs)).filter (fun o => obsUsable ((4) : Nat) (({ dev := up.w F.NSE.OBS_CFG_MIN_OBS 1 4 }) : State).dev.time.lt ((({ dev := up.w F.NSE.OBS_CFG_MIN_OBS 1 4 }) : State).dev.g F.CMB.STAT_CHAINS_USED ((4) : Nat)) ((({ dev := up.w F.NSE.OBS_CFG_MIN_OBS 1 4 }) : State).dev.onAir ((4) : Nat)) o)) : (List NoiseObs)).filter (fun o => o.ch == ch)).isEmpty then [] else noiseCodes ((((([]) : (List NoiseObs)).filter (fun o => obsUsable ((4) : Nat) (({ dev := up.w F.NSE.OBS_CFG_MIN_OBS 1 4 }) : State).dev.time.lt ((({ dev := up.w F.NSE.OBS_CFG_MIN_OBS 1 4 }) : State).dev.g F.CMB.STAT_CHAINS_USED ((4) : Nat)) ((({ dev := up.w F.NSE.OBS_CFG_MIN_OBS 1 4 }) : State).dev.onAir ((4) : Nat)) o)) : (List NoiseObs)).filter (fun o => o.ch == ch))))).inc C.NSE.SF_MEASURED ((4) : Nat), rfl, rfl, rfl, by decide +kernel⟩,
   ⟨{ dev := up.w F.NSE.OBS_CFG_MIN_OBS 0 4 }, 4, by decide +kernel⟩,
   ⟨6, by decide +kernel⟩,
   ⟨{ dev := demWaiting }, 4, 511, (⟨.DEM, ((4) : Nat), ((511) : Nat) / 32⟩ : Page), ((511) : Nat) % 32, demCommit, gangOf (fun i => (({ dev := demWaiting }) : State).dev.chMode ((4) : Nat) (32 * (((⟨.DEM, ((4) : Nat), ((511) : Nat) / 32⟩ : Page)) : Page).inst + i)) ((((511) : Nat) % 32) : Nat) ++ gangOf (fun i => snapGet ((demCommit) : PendCommit).snap F.DEM.CH_CFG_MODE (((⟨.DEM, ((4) : Nat), ((511) : Nat) / 32⟩ : Page)) : Page) i) ((((511) : Nat) % 32) : Nat), ((({ dev := demWaiting }) : State).dev.each chCfgFields (fun d f => d.put f (((⟨.DEM, ((4) : Nat), ((511) : Nat) / 32⟩ : Page)) : Page) (snapGet ((demCommit) : PendCommit).snap f (((⟨.DEM, ((4) : Nat), ((511) : Nat) / 32⟩ : Page)) : Page) ((((511) : Nat) % 32) : Nat)) ((((511) : Nat) % 32) : Nat))).setAir ((4) : Nat) (fun a => { a with demWait := a.demWait.filter (fun c => c != ((511) : Nat)) }), rfl, rfl, rfl, rfl, by decide +kernel⟩,
   ⟨{ dev := { demWaiting.setAir 4 (fun a => { a with receps := [recepOf true] }) with commits := [demCommit] } }, 4, 511, (⟨.DEM, ((4) : Nat), ((511) : Nat) / 32⟩ : Page), ((511) : Nat) % 32, demCommit, gangOf (fun i => (({ dev := { demWaiting.setAir 4 (fun a => { a with receps := [recepOf true] }) with commits := [demCommit] } }) : State).dev.chMode ((4) : Nat) (32 * (((⟨.DEM, ((4) : Nat), ((511) : Nat) / 32⟩ : Page)) : Page).inst + i)) ((((511) : Nat) % 32) : Nat) ++ gangOf (fun i => snapGet ((demCommit) : PendCommit).snap F.DEM.CH_CFG_MODE (((⟨.DEM, ((4) : Nat), ((511) : Nat) / 32⟩ : Page)) : Page) i) ((((511) : Nat) % 32) : Nat), rfl, rfl, rfl, by decide +kernel⟩,
   ⟨{ dev := up }, 4, 0, by decide +kernel⟩⟩

/-- States and operands that meet the hypotheses of `Obligations.AirMac`, one part for each clause with hypotheses of its own. -/
theorem witness_AirMac :
    (∃ (s : State) (die : Nat), (isAir die = false ∨ s.dev.dieUp die = false ∨ (s.dev.airD die).macIn = [] ∨ (s.dev.airD die).macIn.head?.any (fun f => s.dev.rxOther die f) = true)) ∧
    (∃ (s : State) (die : Nat) (id : Nat), ((s.dev.airD die).dl.find? (fun f => f.id == id) = none)) ∧
    (∃ (s : State) (die : Nat) (tag : Nat) (tenant : Nat), (isAir die = false ∨ s.dev.g F.AMC.WAKE_CFG_CALLS die = 0 ∨ (s.dev.nodeOf ⟨tag, tenant⟩).elim false (fun e => e.det.classW) = false ∨ (s.dev.dlOf die ⟨tag, tenant⟩).any (fun f => !f.called&&!f.leg) = false ∨ (s.dev.airD die).calls.any (fun c => c.tag == tag&&c.tenant == tenant) = true)) ∧
    (∃ (s : State) (die : Nat) (n : Nat) (step : Int) (sp : SfPast) (d1 : Dev) (d2 : Dev), (n = s.dev.nextSf die) ∧ (step = s.dev.slewStep die) ∧ (sp = { start := (s.dev.airD die).sfStart, num := s.dev.g F.AMC.SF_NUM_NUM die, adj := step, slots := if (s.dev.airD die).running = true then (s.dev.airD die).rephase.elim (s.dev.sfSlots die) (fun r => s.dev.lastSlots die r.1) else 0 }) ∧ (d1 = s.dev.amcLive die) ∧ (d2 = (d1.setAir die (fun a => { a with sfStart := d1.time.lt, slot := 0, slotStart := d1.time.lt, running := true, rephase := none, slew := a.slew - step, past := sp })).w F.AMC.SF_NUM_NUM n die) ∧ (isAir die = true) ∧ (s.dev.dieUp die = true) ∧ (((s.dev.airD die).running = true ∨ s.dev.mode = mService ∨ s.dev.mode = mShadow))) ∧
    (∃ (s : State) (die : Nat), (isAir die = false ∨ s.dev.dieUp die = false ∨ ((s.dev.airD die).running = false ∧ s.dev.mode ≠ mService ∧ s.dev.mode ≠ mShadow))) ∧
    (∃ (s : State) (die : Nat) (last : Nat), (last = (s.dev.airD die).rephase.elim (s.dev.sfSlots die) (fun r => s.dev.lastSlots die r.1)) ∧ (isAir die = true) ∧ (s.dev.dieUp die = true) ∧ ((s.dev.airD die).running = true) ∧ ((s.dev.airD die).slot + 1 < last)) ∧
    (∃ (s : State) (die : Nat) (last : Nat), (last = (s.dev.airD die).rephase.elim (s.dev.sfSlots die) (fun r => s.dev.lastSlots die r.1)) ∧ ((isAir die = false ∨ s.dev.dieUp die = false ∨ (s.dev.airD die).running = false ∨ last ≤ (s.dev.airD die).slot + 1))) ∧
    (∃ (s : State) (die : Nat) (f : RxFrame) (rest : (List RxFrame)) (d1 : Dev), (d1 = s.dev.setAir die (fun a => { a with macIn := rest })) ∧ (isAir die = true) ∧ (s.dev.dieUp die = true) ∧ ((s.dev.airD die).macIn = f :: rest) ∧ (s.dev.rxOther die f = false)) ∧
    (∃ (s : State) (die : Nat) (id : Nat) (f : DlFrame) (e : NodeEnt) (start : Nat) (r : (Dev×Bool)), (start = (s.dev.airD die).slotStart + s.dev.g F.AMC.SLOT_TIME_DL_OFS die * tickUs) ∧ (r = s.dev.planTx die (Tx.of 3 e.det.aCh 0 0 start (s.dev.g F.AMC.PWR_DL die) f.psdu f.cls (.downlink id)) (some (s.dev.slotLimit die))) ∧ (isAir die = true) ∧ ((s.dev.airD die).dl.find? (fun f => f.id == id) = some f) ∧ (s.dev.nodeOf ⟨f.tag, f.tenant⟩ = some e) ∧ (f.leg = false) ∧ (f.onAir = false) ∧ ((e.det.assigned&&e.det.aBand == die - 3&&e.det.listen&&e.det.aSlot + 1 == (s.dev.airD die).slot&&e.det.due (s.dev.g F.AMC.SF_NUM_NUM die)) = true) ∧ (e.det.desync = false) ∧ (f.readyAt + 100 * tickUs ≤ start) ∧ (s.dev.airGate (die - 3) f.cls start = true)) ∧
    (∃ (s : State) (die : Nat) (id : Nat) (f : DlFrame) (e : NodeEnt) (start : Nat), (start = (s.dev.airD die).slotStart + s.dev.g F.AMC.SLOT_TIME_DL_OFS die * tickUs) ∧ ((s.dev.airD die).dl.find? (fun f => f.id == id) = some f) ∧ (s.dev.nodeOf ⟨f.tag, f.tenant⟩ = some e) ∧ ((f.leg = true ∨ f.onAir = true ∨ (e.det.assigned&&e.det.aBand == die - 3&&e.det.listen&&e.det.aSlot + 1 == (s.dev.airD die).slot&&e.det.due (s.dev.g F.AMC.SF_NUM_NUM die)) = false ∨ e.det.desync = true ∨ start < f.readyAt + 100 * tickUs ∨ s.dev.airGate (die - 3) f.cls start = false))) ∧
    (∃ (s : State) (die : Nat) (id : Nat) (f : DlFrame), ((s.dev.airD die).dl.find? (fun f => f.id == id&&f.endAt != 0) = some f) ∧ ((s.dev.inc C.AMC.DL_UNACK die).g F.AMC.REPLY_CFG_RETRY die ≤ f.sends)) ∧
    (∃ (s : State) (die : Nat) (id : Nat) (f : DlFrame), ((s.dev.airD die).dl.find? (fun f => f.id == id&&f.endAt != 0) = some f) ∧ (f.sends < (s.dev.inc C.AMC.DL_UNACK die).g F.AMC.REPLY_CFG_RETRY die)) ∧
    (∃ (s : State) (die : Nat) (id : Nat), ((s.dev.airD die).dl.find? (fun f => f.id == id&&f.endAt != 0) = none)) ∧
    (∃ (s : State) (die : Nat) (r : SchedReq) (rest : (List SchedReq)) (d1 : Dev), (d1 = s.dev.setAir die (fun a => { a with reqs := rest })) ∧ (isAir die = true) ∧ (s.dev.dieUp die = true) ∧ (s.dev.act ≠ mQuiesce) ∧ ((s.dev.airD die).planBlocked = false) ∧ ((s.dev.airD die).reqs = r :: rest)) ∧
    (∃ (s : State) (die : Nat), ((s.dev.airD die).reqs = [] ∨ isAir die = false ∨ s.dev.dieUp die = false ∨ s.dev.act = mQuiesce ∨ (s.dev.airD die).planBlocked = true)) ∧
    (∃ (s : State) (die : Nat) (tag : Nat) (tenant : Nat), (isAir die = true) ∧ (s.dev.g F.AMC.WAKE_CFG_CALLS die ≠ 0) ∧ ((s.dev.nodeOf ⟨tag, tenant⟩).elim false (fun e => e.det.classW) = true) ∧ ((s.dev.dlOf die ⟨tag, tenant⟩).any (fun f => !f.called&&!f.leg) = true) ∧ ((s.dev.airD die).calls.any (fun c => c.tag == tag&&c.tenant == tenant) = false)) ∧
    (∃ (s : State) (die : Nat) (tag : Nat) (tenant : Nat) (c : WakeCall), ((s.dev.airD die).calls.find? (fun c => c.tag == tag&&c.tenant == tenant&&c.sent&&c.calls != 0) = some c) ∧ (c.calls < s.dev.g F.AMC.WAKE_CFG_CALLS die)) ∧
    (∃ (s : State) (die : Nat) (tag : Nat) (tenant : Nat) (c : WakeCall), ((s.dev.airD die).calls.find? (fun c => c.tag == tag&&c.tenant == tenant&&c.sent&&c.calls != 0) = some c) ∧ (s.dev.g F.AMC.WAKE_CFG_CALLS die ≤ c.calls)) ∧
    (∃ (s : State) (die : Nat) (tag : Nat) (tenant : Nat), ((s.dev.airD die).calls.find? (fun c => c.tag == tag&&c.tenant == tenant&&c.sent&&c.calls != 0) = none)) :=
  ⟨⟨{ dev := up }, 4, by decide +kernel⟩,
   ⟨{ dev := up }, 4, 0, by decide +kernel⟩,
   ⟨{ dev := up }, 4, 0, 0, by decide +kernel⟩,
   ⟨{ dev := up.setAir 4 (fun a => { a with running := true }) }, 4, (({ dev := up.setAir 4 (fun a => { a with running := true }) }) : State).dev.nextSf ((4) : Nat), (({ dev := up.setAir 4 (fun a => { a with running := true }) }) : State).dev.slewStep ((4) : Nat), { start := ((({ dev := up.setAir 4 (fun a => { a with running := true }) }) : State).dev.airD ((4) : Nat)).sfStart, num := (({ dev := up.setAir 4 (fun a => { a with running := true }) }) : State).dev.g F.AMC.SF_NUM_NUM ((4) : Nat), adj := (((({ dev := up.setAir 4 (fun a => { a with running := true }) }) : State).dev.slewStep ((4) : Nat)) : Int), slots := if ((({ dev := up.setAir 4 (fun a => { a with running := true }) }) : State).dev.airD ((4) : Nat)).running = true then ((({ dev := up.setAir 4 (fun a => { a with running := true }) }) : State).dev.airD ((4) : Nat)).rephase.elim ((({ dev := up.setAir 4 (fun a => { a with running := true }) }) : State).dev.sfSlots ((4) : Nat)) (fun r => (({ dev := up.setAir 4 (fun a => { a with running := true }) }) : State).dev.lastSlots ((4) : Nat) r.1) else 0 }, (({ dev := up.setAir 4 (fun a => { a with running := true }) }) : State).dev.amcLive ((4) : Nat), ((((({ dev := up.setAir 4 (fun a => { a with running := true }) }) : State).dev.amcLive ((4) : Nat)) : Dev).setAir ((4) : Nat) (fun a => { a with sfStart := (((({ dev := up.setAir 4 (fun a => { a with running := true }) }) : State).dev.amcLive ((4) : Nat)) : Dev).time.lt, slot := 0, slotStart := (((({ dev := up.setAir 4 (fun a => { a with running := true }) }) : State).dev.amcLive ((4) : Nat)) : Dev).time.lt, running := true, rephase := none, slew := a.slew - (((({ dev := up.setAir 4 (fun a => { a with running := true }) }) : State).dev.slewStep ((4) : Nat)) : Int), past := (({ start := ((({ dev := up.setAir 4 (fun a => { a with running := true }) }) : State).dev.airD ((4) : Nat)).sfStart, num := (({ dev := up.setAir 4 (fun a => { a with running := true }) }) : State).dev.g F.AMC.SF_NUM_NUM ((4) : Nat), adj := (((({ dev := up.setAir 4 (fun a => { a with running := true }) }) : State).dev.slewStep ((4) : Nat)) : Int), slots := if ((({ dev := up.setAir 4 (fun a => { a with running := true }) }) : State).dev.airD ((4) : Nat)).running = true then ((({ dev := up.setAir 4 (fun a => { a with running := true }) }) : State).dev.airD ((4) : Nat)).rephase.elim ((({ dev := up.setAir 4 (fun a => { a with running := true }) }) : State).dev.sfSlots ((4) : Nat)) (fun r => (({ dev := up.setAir 4 (fun a => { a with running := true }) }) : State).dev.lastSlots ((4) : Nat) r.1) else 0 }) : SfPast) })).w F.AMC.SF_NUM_NUM (((({ dev := up.setAir 4 (fun a => { a with running := true }) }) : State).dev.nextSf ((4) : Nat)) : Nat) ((4) : Nat), rfl, rfl, rfl, rfl, rfl, by decide +kernel⟩,
   ⟨{ dev := up }, 6, by decide +kernel⟩,
   ⟨{ dev := (up.setAir 4 (fun a => { a with running := true })).w F.AMC.SF_CFG_LEN 100 4 }, 4, ((({ dev := (up.setAir 4 (fun a => { a with running := true })).w F.AMC.SF_CFG_LEN 100 4 }) : State).dev.airD ((4) : Nat)).rephase.elim ((({ dev := (up.setAir 4 (fun a => { a with running := true })).w F.AMC.SF_CFG_LEN 100 4 }) : State).dev.sfSlots ((4) : Nat)) (fun r => (({ dev := (up.setAir 4 (fun a => { a with running := true })).w F.AMC.SF_CFG_LEN 100 4 }) : State).dev.lastSlots ((4) : Nat) r.1), rfl, by decide +kernel⟩,
   ⟨{ dev := up }, 4, ((({ dev := up }) : State).dev.airD ((4) : Nat)).rephase.elim ((({ dev := up }) : State).dev.sfSlots ((4) : Nat)) (fun r => (({ dev := up }) : State).dev.lastSlots ((4) : Nat) r.1), rfl, by decide +kernel⟩,
   ⟨{ dev := up.setAir 4 (fun a => { a with macIn := [sampleRx] }) }, 4, sampleRx, [], (({ dev := up.setAir 4 (fun a => { a with macIn := [sampleRx] }) }) : State).dev.setAir ((4) : Nat) (fun a => { a with macIn := (([]) : (List RxFrame)) }), rfl, by decide +kernel⟩,
   ⟨{ dev := listenSlot }, 4, 1, sampleDl, classNode, ((({ dev := listenSlot }) : State).dev.airD ((4) : Nat)).slotStart + (({ dev := listenSlot }) : State).dev.g F.AMC.SLOT_TIME_DL_OFS ((4) : Nat) * tickUs, (({ dev := listenSlot }) : State).dev.planTx ((4) : Nat) (Tx.of 3 ((classNode) : NodeEnt).det.aCh 0 0 ((((({ dev := listenSlot }) : State).dev.airD ((4) : Nat)).slotStart + (({ dev := listenSlot }) : State).dev.g F.AMC.SLOT_TIME_DL_OFS ((4) : Nat) * tickUs) : Nat) ((({ dev := listenSlot }) : State).dev.g F.AMC.PWR_DL ((4) : Nat)) ((sampleDl) : DlFrame).psdu ((sampleDl) : DlFrame).cls (.downlink ((1) : Nat))) (some ((({ dev := listenSlot }) : State).dev.slotLimit ((4) : Nat))), rfl, rfl, by decide +kernel⟩,
   ⟨{ dev := knowing.setAir 4 (fun a => { a with dl := [sampleDl] }) }, 4, 1, sampleDl, classNode, ((({ dev := knowing.setAir 4 (fun a => { a with dl := [sampleDl] }) }) : State).dev.airD ((4) : Nat)).slotStart + (({ dev := knowing.setAir 4 (fun a => { a with dl := [sampleDl] }) }) : State).dev.g F.AMC.SLOT_TIME_DL_OFS ((4) : Nat) * tickUs, rfl, by decide +kernel⟩,
   ⟨{ dev := up.setAir 4 (fun a => { a with dl := [{ sampleDl with endAt := 1, sends := 255 }] }) }, 4, 1, { sampleDl with endAt := 1, sends := 255 }, by decide +kernel⟩,
   ⟨{ dev := (up.setAir 4 (fun a => { a with dl := [{ sampleDl with endAt := 1 }] })).w F.AMC.REPLY_CFG_RETRY 1 4 }, 4, 1, { sampleDl with endAt := 1 }, by decide +kernel⟩,
   ⟨{ dev := up }, 4, 0, by decide +kernel⟩,
   ⟨{ dev := knowing.setAir 4 (fun a => { a with reqs := [⟨1, 0, 1, false, 0, none⟩] }) }, 4, ⟨1, 0, 1, false, 0, none⟩, [], (({ dev := knowing.setAir 4 (fun a => { a with reqs := [⟨1, 0, 1, false, 0, none⟩] }) }) : State).dev.setAir ((4) : Nat) (fun a => { a with reqs := (([]) : (List SchedReq)) }), rfl, by decide +kernel⟩,
   ⟨{ dev := up }, 4, by decide +kernel⟩,
   ⟨{ dev := (knowing.setAir 4 (fun a => { a with dl := [sampleDl] })).w F.AMC.WAKE_CFG_CALLS 1 4 }, 4, 1, 0, by decide +kernel⟩,
   ⟨{ dev := (up.setAir 4 (fun a => { a with calls := [⟨1, 0, 1, true⟩] })).w F.AMC.WAKE_CFG_CALLS 2 4 }, 4, 1, 0, ⟨1, 0, 1, true⟩, by decide +kernel⟩,
   ⟨{ dev := (up.setAir 4 (fun a => { a with calls := [⟨1, 0, 1, true⟩] })).w F.AMC.WAKE_CFG_CALLS 1 4 }, 4, 1, 0, ⟨1, 0, 1, true⟩, by decide +kernel⟩,
   ⟨{ dev := up }, 4, 0, 0, by decide +kernel⟩⟩

/-- States and operands that meet the hypotheses of `Obligations.LegacyRows`, one part for each clause with hypotheses of its own. -/
theorem witness_LegacyRows :
    (∃ (s : State) (die : Nat) (f : RxFrame) (rest : (List RxFrame)) (h : LegHdr) (d1 : Dev), (d1 = s.dev.setAir die (fun a => { a with macIn := rest })) ∧ (isAir die = true) ∧ (s.dev.dieUp die = true) ∧ ((s.dev.airD die).macIn = f :: rest) ∧ (4 ≤ f.family) ∧ (legCmd f.mac = some 1) ∧ (legHdr f.mac = some h)) ∧
    (∃ (s : State) (die : Nat) (f : RxFrame) (rest : (List RxFrame)) (h : LegHdr) (d1 : Dev) (a : Dev), (d1 = s.dev.setAir die (fun a => { a with macIn := rest })) ∧ (a = d1.immAck die f h.seq (d1.legHeldFor die h).isSome) ∧ (isAir die = true) ∧ (s.dev.dieUp die = true) ∧ ((s.dev.airD die).macIn = f :: rest) ∧ (4 ≤ f.family) ∧ (legCmd f.mac = some 4) ∧ (legHdr f.mac = some h)) ∧
    (∃ (s : State) (die : Nat) (f : RxFrame) (rest : (List RxFrame)) (h : LegHdr) (d1 : Dev), (d1 = s.dev.setAir die (fun a => { a with macIn := rest })) ∧ (isAir die = true) ∧ (s.dev.dieUp die = true) ∧ ((s.dev.airD die).macIn = f :: rest) ∧ (4 ≤ f.family) ∧ (legCmd f.mac = some 3) ∧ (legHdr f.mac = some h)) ∧
    (∃ (s : State) (die : Nat) (f : RxFrame) (rest : (List RxFrame)) (d1 : Dev), (d1 = s.dev.setAir die (fun a => { a with macIn := rest })) ∧ (isAir die = true) ∧ (s.dev.dieUp die = true) ∧ ((s.dev.airD die).macIn = f :: rest) ∧ (4 ≤ f.family) ∧ (legCmd f.mac = some 7)) ∧
    (∃ (s : State) (die : Nat) (n : Nat), ((n = 1 ∨ n = 3 ∨ n = 4 ∨ n = 7)) ∧ ((isAir die = false ∨ s.dev.dieUp die = false ∨ (s.dev.airD die).macIn = [] ∨ (s.dev.airD die).macIn.head?.all (fun f => decide (4 ≤ f.family)&&legCmd f.mac == some n) = false))) ∧
    (∃ (s : State) (die : Nat) (id : Nat) (hx : LegHeld) (d1 : Dev), (d1 = (s.dev.setAir die (fun a => { a with held := a.held.filter (fun x => x.id != id) })).inc C.AMC.LEG_EXPIRED die) ∧ ((s.dev.airD die).held.find? (fun h => h.id == id) = some hx)) ∧
    (∃ (s : State) (die : Nat) (id : Nat), ((s.dev.airD die).held.find? (fun h => h.id == id) = none)) ∧
    (∃ (s : State) (id : Nat) (c : Cmd) (air : Nat) (n : LegNode), (Ready s.dev 0x0405 id c legReleaseRange) ∧ (s.dev.legShort (c.par 24 2) = some (air, n)) ∧ (s.dev.root (s.dev.legKeyOf air n).tenant = none)) ∧
    ((∃ (s : State) (c : Cmd) (n : LegNode) (root : List Byte), Ready s.dev 0x0405 0 c legReleaseRange ∧ s.dev.legShort (c.par 24 2) = some (3, n) ∧ s.dev.root (s.dev.legKeyOf 3 n).tenant = some root ∧ (s.dev.nodeOf (s.dev.legKeyOf 3 n)).isSome = true ∧ s.dev.nextFcnt (s.dev.legKeyOf 3 n) = none)) ∧
    ((∃ (s : State) (c : Cmd) (n : LegNode) (root : List Byte), Ready s.dev 0x0405 0 c legReleaseRange ∧ s.dev.legShort (c.par 24 2) = some (3, n) ∧ s.dev.root (s.dev.legKeyOf 3 n).tenant = some root ∧ (s.dev.nodeOf (s.dev.legKeyOf 3 n)).isSome = false)) :=
  ⟨⟨{ dev := legacyUp 1 }, 4, legacyRx 1, [], legacyHdr 1, (({ dev := legacyUp 1 }) : State).dev.setAir ((4) : Nat) (fun a => { a with macIn := (([]) : (List RxFrame)) }), rfl, by decide +kernel⟩,
   ⟨{ dev := legacyUp 4 }, 4, legacyRx 4, [], legacyHdr 4, (({ dev := legacyUp 4 }) : State).dev.setAir ((4) : Nat) (fun a => { a with macIn := (([]) : (List RxFrame)) }), (((({ dev := legacyUp 4 }) : State).dev.setAir ((4) : Nat) (fun a => { a with macIn := (([]) : (List RxFrame)) })) : Dev).immAck ((4) : Nat) ((legacyRx 4) : RxFrame) ((legacyHdr 4) : LegHdr).seq ((((({ dev := legacyUp 4 }) : State).dev.setAir ((4) : Nat) (fun a => { a with macIn := (([]) : (List RxFrame)) })) : Dev).legHeldFor ((4) : Nat) ((legacyHdr 4) : LegHdr)).isSome, rfl, rfl, by decide +kernel⟩,
   ⟨{ dev := legacyUp 3 }, 4, legacyRx 3, [], legacyHdr 3, (({ dev := legacyUp 3 }) : State).dev.setAir ((4) : Nat) (fun a => { a with macIn := (([]) : (List RxFrame)) }), rfl, by decide +kernel⟩,
   ⟨{ dev := legacyUp 7 }, 4, legacyRx 7, [], (({ dev := legacyUp 7 }) : State).dev.setAir ((4) : Nat) (fun a => { a with macIn := (([]) : (List RxFrame)) }), rfl, by decide +kernel⟩,
   ⟨{ dev := up }, 4, 7, by decide +kernel⟩,
   ⟨{ dev := up.setAir 4 (fun a => { a with held := [{ id := 1, short := 5, ext := 7, kind := 0, frame := [] }] }) }, 4, 1, { id := 1, short := 5, ext := 7, kind := 0, frame := [] }, ((({ dev := up.setAir 4 (fun a => { a with held := [{ id := 1, short := 5, ext := 7, kind := 0, frame := [] }] }) }) : State).dev.setAir ((4) : Nat) (fun a => { a with held := a.held.filter (fun x => x.id != ((1) : Nat)) })).inc C.AMC.LEG_EXPIRED ((4) : Nat), rfl, by decide +kernel⟩,
   ⟨{ dev := up }, 4, 0, by decide +kernel⟩,
   ⟨{ dev := (flying up (cmdOf 0x0405 (releaseTarget) 0 0 [5, 0])).setAir 3 (fun a => { a with leg := [⟨5, 7, 0, 1⟩] }) }, 0, cmdOf 0x0405 releaseTarget 0 0 [5, 0], 3, ⟨5, 7, 0, 1⟩, by decide +kernel⟩,
   ⟨{ dev := releasing true }, cmdOf 0x0405 releaseTarget 0 0 [5, 0], ⟨5, 7, 0, 1⟩, padTo 16 [], by decide +kernel⟩,
   ⟨{ dev := releasing false }, cmdOf 0x0405 releaseTarget 0 0 [5, 0], ⟨5, 7, 0, 1⟩, padTo 16 [], by decide +kernel⟩⟩

/-- States and operands that meet the hypotheses of `Obligations.NeighbourAndPlan`, one part for each clause with hypotheses of its own. -/
theorem witness_NeighbourAndPlan :
    (∃ (s : State) (die : Nat) (f : RxFrame) (rest : (List RxFrame)) (d1 : Dev) (nt : Nat) (old : (Option Nbr)) (cs : (List Nat)) (n : Nbr), (d1 = s.dev.setAir die (fun a => { a with macIn := rest })) ∧ (nt = leAt f.psdu 2 4) ∧ (old = (d1.airD die).nbrs.find? (fun n => n.tag == nt)) ∧ (cs = old.elim [] (fun n => n.chans)) ∧ (n = { tag := nt, state := 1, aligned := bitOf (leAt f.psdu 1 1) 2, snr := f.snr, slotCode := bitsOf (leAt f.psdu 10 2) 0 3, len := bitsOf (leAt f.psdu 10 2) 3 12, bslots := bitsOf (leAt f.psdu 12 2) 12 4, start := Dev.natStart die f - leAt f.psdu 8 2 * tickUs, chans := if cs.contains f.channel||decide (8 ≤ cs.length) then cs else cs ++ [f.channel], missed := 0, hold := 0 }) ∧ (isAir die = true) ∧ (s.dev.dieUp die = true) ∧ ((s.dev.airD die).macIn = f :: rest) ∧ (s.dev.isNbrBeacon die f = true)) ∧
    (∃ (s : State) (die : Nat), (isAir die = false ∨ s.dev.dieUp die = false ∨ (s.dev.airD die).macIn = [] ∨ (s.dev.airD die).macIn.head?.all (fun f => s.dev.isNbrBeacon die f) = false)) ∧
    (∃ (s : State) (die : Nat) (tag : Nat), (isAir die = true) ∧ ((s.dev.airD die).nbrs.any (fun n => n.tag == tag&&n.state == 1) = true)) ∧
    (∃ (s : State) (die : Nat) (tag : Nat), (isAir die = false ∨ (s.dev.airD die).nbrs.any (fun n => n.tag == tag&&n.state == 1) = false)) ∧
    (∃ (die : Nat), (isAir die = true)) ∧
    ((∃ (s : State) (c : Cmd), Ready s.dev 0x0401 0 c planSetRange ∧ (s.dev.airD (bandAir (c.par 32 2 / 32768))).planBlocked = false ∧ (((s.dev.setNode c.nodeKey (fun e => { e with det := { e.det with assigned := true, aBand := c.par 32 2 / 32768, listen := bitOf (c.par 38 1) 0, apin := bitOf (c.par 38 1) 1, aSlot := c.par 30 2, aCh := c.par 32 2 % 512, aPeriod := c.par 34 2, aPhase := c.par 36 2 } })).showPlan).resident c.nodeKey).isSome = true)) ∧
    ((∃ (s : State) (c : Cmd), Ready s.dev 0x0401 0 c planSetRange ∧ (s.dev.airD (bandAir (c.par 32 2 / 32768))).planBlocked = true)) ∧
    (∃ (s : State) (id : Nat) (c : Cmd), (Ready s.dev 0x0402 id c planRange)) ∧
    (∃ (s : State) (id : Nat) (c : Cmd) (e : NodeEnt), (Ready s.dev 0x0403 id c (fun d c => if c.len != 16 then some 0 else planRange d c)) ∧ (s.dev.resident c.nodeKey = some e)) ∧
    (∃ (s : State) (id : Nat) (c : Cmd), (Ready s.dev 0x0404 id c planRange)) :=
  ⟨⟨{ dev := up.setAir 4 (fun a => { a with macIn := [beaconRx] }) }, 4, beaconRx, [], (({ dev := up.setAir 4 (fun a => { a with macIn := [beaconRx] }) }) : State).dev.setAir ((4) : Nat) (fun a => { a with macIn := (([]) : (List RxFrame)) }), leAt ((beaconRx) : RxFrame).psdu 2 4, ((((({ dev := up.setAir 4 (fun a => { a with macIn := [beaconRx] }) }) : State).dev.setAir ((4) : Nat) (fun a => { a with macIn := (([]) : (List RxFrame)) })) : Dev).airD ((4) : Nat)).nbrs.find? (fun n => n.tag == ((leAt ((beaconRx) : RxFrame).psdu 2 4) : Nat)), ((((((({ dev := up.setAir 4 (fun a => { a with macIn := [beaconRx] }) }) : State).dev.setAir ((4) : Nat) (fun a => { a with macIn := (([]) : (List RxFrame)) })) : Dev).airD ((4) : Nat)).nbrs.find? (fun n => n.tag == ((leAt ((beaconRx) : RxFrame).psdu 2 4) : Nat))) : (Option Nbr)).elim [] (fun n => n.chans), { tag := ((leAt ((beaconRx) : RxFrame).psdu 2 4) : Nat), state := 1, aligned := bitOf (leAt ((beaconRx) : RxFrame).psdu 1 1) 2, snr := ((beaconRx) : RxFrame).snr, slotCode := bitsOf (leAt ((beaconRx) : RxFrame).psdu 10 2) 0 3, len := bitsOf (leAt ((beaconRx) : RxFrame).psdu 10 2) 3 12, bslots := bitsOf (leAt ((beaconRx) : RxFrame).psdu 12 2) 12 4, start := Dev.natStart ((4) : Nat) ((beaconRx) : RxFrame) - leAt ((beaconRx) : RxFrame).psdu 8 2 * tickUs, chans := if ((((((((({ dev := up.setAir 4 (fun a => { a with macIn := [beaconRx] }) }) : State).dev.setAir ((4) : Nat) (fun a => { a with macIn := (([]) : (List RxFrame)) })) : Dev).airD ((4) : Nat)).nbrs.find? (fun n => n.tag == ((leAt ((beaconRx) : RxFrame).psdu 2 4) : Nat))) : (Option Nbr)).elim [] (fun n => n.chans)) : (List Nat)).contains ((beaconRx) : RxFrame).channel||decide (8 ≤ ((((((((({ dev := up.setAir 4 (fun a => { a with macIn := [beaconRx] }) }) : State).dev.setAir ((4) : Nat) (fun a => { a with macIn := (([]) : (List RxFrame)) })) : Dev).airD ((4) : Nat)).nbrs.find? (fun n => n.tag == ((leAt ((beaconRx) : RxFrame).psdu 2 4) : Nat))) : (Option Nbr)).elim [] (fun n => n.chans)) : (List Nat)).length) then ((((((((({ dev := up.setAir 4 (fun a => { a with macIn := [beaconRx] }) }) : State).dev.setAir ((4) : Nat) (fun a => { a with macIn := (([]) : (List RxFrame)) })) : Dev).airD ((4) : Nat)).nbrs.find? (fun n => n.tag == ((leAt ((beaconRx) : RxFrame).psdu 2 4) : Nat))) : (Option Nbr)).elim [] (fun n => n.chans)) : (List Nat)) else ((((((((({ dev := up.setAir 4 (fun a => { a with macIn := [beaconRx] }) }) : State).dev.setAir ((4) : Nat) (fun a => { a with macIn := (([]) : (List RxFrame)) })) : Dev).airD ((4) : Nat)).nbrs.find? (fun n => n.tag == ((leAt ((beaconRx) : RxFrame).psdu 2 4) : Nat))) : (Option Nbr)).elim [] (fun n => n.chans)) : (List Nat)) ++ [((beaconRx) : RxFrame).channel], missed := 0, hold := 0 }, rfl, rfl, rfl, rfl, rfl, by decide +kernel⟩,
   ⟨{ dev := up }, 4, by decide +kernel⟩,
   ⟨{ dev := up.setAir 4 (fun a => { a with nbrs := [⟨9, 1, false, 0, 0, 0, 0, 0, [], 0, 0⟩] }) }, 4, 9, by decide +kernel⟩,
   ⟨{ dev := up }, 4, 0, by decide +kernel⟩,
   ⟨4, by decide +kernel⟩,
   ⟨{ dev := flying planning planCmd }, planCmd, by decide +kernel⟩,
   ⟨{ dev := flying (planning.setAir 4 (fun a => { a with planBlocked := true })) planCmd }, planCmd, by decide +kernel⟩,
   ⟨{ dev := flying knowing (nodeCmd 0x0402 0) }, 0, nodeCmd 0x0402 0, by decide +kernel⟩,
   ⟨{ dev := flying knowing (nodeCmd 0x0403 16) }, 0, nodeCmd 0x0403 16, classNode, by decide +kernel⟩,
   ⟨{ dev := flying knowing (nodeCmd 0x0404 0) }, 0, nodeCmd 0x0404 0, by decide +kernel⟩⟩

/-- States and operands that meet the hypotheses of `Obligations.VaultRows`, one part for each clause with hypotheses of its own. -/
theorem witness_VaultRows :
    (∃ (s : State), (s.dev.holds 5 (2 ^ 3) = false)) ∧
    (∃ (s : State) (id : Nat) (c : Cmd) (w : Nat) (n : Nat) (r : (Dev×Nat×Bool)) (stopAt : (Option Nat)), (n = stopAt.elim c.cnt (fun k => min k c.cnt)) ∧ (r = Dev.importKeys s.dev (c.par 24 1) (c.par 26 2) (if c.par 25 1 = 0xFF then none else s.dev.key 2 (c.par 25 1)) ((List.range n).map (fun i => memRead s.host (c.addr + w * i) w)) 0) ∧ (Ready s.dev 0x0301 id c importRange) ∧ (s.dev.vaultHold = false) ∧ ((c.par 25 1 = 0xFF → s.dev.mode = mBringup ∧ s.dev.locked ⟨.VLT, 0, 0⟩ = false)) ∧ (w = (if c.par 25 1 = 0xFF then classLen (c.par 24 1) else classLen (c.par 24 1) + 8))) ∧
    (∃ (s : State) (id : Nat) (c : Cmd), (Ready s.dev 0x0301 id c importRange) ∧ (s.dev.vaultHold = false) ∧ (c.par 25 1 = 0xFF) ∧ ((s.dev.mode ≠ mBringup ∨ s.dev.locked ⟨.VLT, 0, 0⟩ = true))) ∧
    (∃ (s : State), (s.dev.vaultHold = true)) ∧
    (∃ (s : State) (id : Nat) (c : Cmd), (Ready s.dev 0x0302 id c (keyRange 4096)) ∧ (s.dev.vaultHold = false)) ∧
    (∃ (s : State) (id : Nat) (c : Cmd), (Ready s.dev 0x0303 id c kcvRange)) ∧
    (∃ (s : State) (id : Nat) (c : Cmd) (i : Nat) (seq : Nat) (good : BlobSlot) (d1 : Dev) (fin : Dev) (lost : Dev), (i = s.dev.persistSlot) ∧ (seq = s.dev.g F.VLT.BLOB_SEQ_SEQ + 1) ∧ (good = ⟨1, seq, s.dev.snapshot, (s.dev.freshBytes 8).1⟩) ∧ (d1 = (s.dev.freshBytes 8).2) ∧ (fin = (((d1.setBlob i good).w F.VLT.BLOB_SEQ_SEQ seq).w F.VLT.BLOB_STAT_LOADED (i + 1)).inc C.VLT.PERSISTS) ∧ (lost = d1.setBlob i ⟨2, 0, [], []⟩) ∧ (Ready s.dev 0x0304 id c persistRange) ∧ (s.dev.vaultHold = false)) ∧
    (∃ (s : State) (id : Nat) (c : Cmd), (Ready s.dev 0x0305 id c noRange) ∧ (s.dev.vaultHold = false)) ∧
    (∃ (s : State), (s.dev.g F.VLT.MASK_CFG_PERIOD ≠ 0) ∧ (s.dev.vault.sweep = false) ∧ (s.dev.holds 5 (2 ^ 3) = false) ∧ (s.dev.booted = true)) ∧
    (∃ (s : State), (s.dev.g F.VLT.MASK_CFG_PERIOD = 0 ∨ s.dev.vault.sweep = true ∨ s.dev.holds 5 (2 ^ 3) = true ∨ s.dev.booted = false)) ∧
    (∃ (s : State) (old : Nat) (g : Nat) (d1 : Dev), (old = s.dev.g F.VLT.MASK_STAT_GEN) ∧ (g = 1 - old) ∧ (d1 = { s.dev with vault := { s.dev.vault with keys := s.dev.vault.keys.map (fun (k : VKey) => s.dev.vault.entry k.place g (s.dev.vault.plain k)), uniqueKey := masked (s.dev.vault.mask g) (masked (s.dev.vault.mask old) s.dev.vault.uniqueKey), masks := s.dev.vault.masks.set old [], sweep := false, sweptAt := s.dev.time.lt } }) ∧ (s.dev.holds 5 (2 ^ 3) = true)) ∧
    (∃ (s : State), (s.dev.showMaskAge.g F.VLT.MASK_CFG_PERIOD ≠ 0) ∧ (200 * s.dev.showMaskAge.g F.VLT.MASK_CFG_PERIOD < s.dev.showMaskAge.g F.VLT.MASK_STAT_AGE)) ∧
    (∃ (s : State), (s.dev.showMaskAge.g F.VLT.MASK_CFG_PERIOD = 0 ∨ s.dev.showMaskAge.g F.VLT.MASK_STAT_AGE ≤ 200 * s.dev.showMaskAge.g F.VLT.MASK_CFG_PERIOD)) :=
  ⟨⟨{ dev := up }, by decide +kernel⟩,
   ⟨st 1 (cmdOf 0x0301 4 32 1 [2, 255, 0, 0]), 0, cmdOf 0x0301 4 32 1 [2, 255, 0, 0], 32, ((none) : (Option Nat)).elim ((cmdOf 0x0301 4 32 1 [2, 255, 0, 0]) : Cmd).cnt (fun k => min k ((cmdOf 0x0301 4 32 1 [2, 255, 0, 0]) : Cmd).cnt), Dev.importKeys ((st 1 (cmdOf 0x0301 4 32 1 [2, 255, 0, 0])) : State).dev (((cmdOf 0x0301 4 32 1 [2, 255, 0, 0]) : Cmd).par 24 1) (((cmdOf 0x0301 4 32 1 [2, 255, 0, 0]) : Cmd).par 26 2) (if ((cmdOf 0x0301 4 32 1 [2, 255, 0, 0]) : Cmd).par 25 1 = 0xFF then none else ((st 1 (cmdOf 0x0301 4 32 1 [2, 255, 0, 0])) : State).dev.key 2 (((cmdOf 0x0301 4 32 1 [2, 255, 0, 0]) : Cmd).par 25 1)) ((List.range ((((none) : (Option Nat)).elim ((cmdOf 0x0301 4 32 1 [2, 255, 0, 0]) : Cmd).cnt (fun k => min k ((cmdOf 0x0301 4 32 1 [2, 255, 0, 0]) : Cmd).cnt)) : Nat)).map (fun i => memRead ((st 1 (cmdOf 0x0301 4 32 1 [2, 255, 0, 0])) : State).host (((cmdOf 0x0301 4 32 1 [2, 255, 0, 0]) : Cmd).addr + ((32) : Nat) * i) ((32) : Nat))) 0, none, rfl, rfl, by decide +kernel⟩,
   ⟨st 2 (cmdOf 0x0301 4 32 1 [2, 255, 0, 0]), 0, cmdOf 0x0301 4 32 1 [2, 255, 0, 0], by decide +kernel⟩,
   ⟨{ dev := (inMode 2).w F.VLT.TAMPER_STAT_HOLD 1 }, by decide +kernel⟩,
   ⟨st 2 (cmdOf 0x0302 4 0 4096 [0, 0, 0, 0]), 0, cmdOf 0x0302 4 0 4096 [0, 0, 0, 0], by decide +kernel⟩,
   ⟨st 2 (cmdOf 0x0303 4 4 1 [0, 0, 0, 0]), 0, cmdOf 0x0303 4 4 1 [0, 0, 0, 0], by decide +kernel⟩,
   ⟨st 2 (cmdOf 0x0304 4 0 0 []), 0, cmdOf 0x0304 4 0 0 [], ((st 2 (cmdOf 0x0304 4 0 0 [])) : State).dev.persistSlot, ((st 2 (cmdOf 0x0304 4 0 0 [])) : State).dev.g F.VLT.BLOB_SEQ_SEQ + 1, ⟨1, ((((st 2 (cmdOf 0x0304 4 0 0 [])) : State).dev.g F.VLT.BLOB_SEQ_SEQ + 1) : Nat), ((st 2 (cmdOf 0x0304 4 0 0 [])) : State).dev.snapshot, (((st 2 (cmdOf 0x0304 4 0 0 [])) : State).dev.freshBytes 8).1⟩, (((st 2 (cmdOf 0x0304 4 0 0 [])) : State).dev.freshBytes 8).2, ((((((((st 2 (cmdOf 0x0304 4 0 0 [])) : State).dev.freshBytes 8).2) : Dev).setBlob ((((st 2 (cmdOf 0x0304 4 0 0 [])) : State).dev.persistSlot) : Nat) ((⟨1, ((((st 2 (cmdOf 0x0304 4 0 0 [])) : State).dev.g F.VLT.BLOB_SEQ_SEQ + 1) : Nat), ((st 2 (cmdOf 0x0304 4 0 0 [])) : State).dev.snapshot, (((st 2 (cmdOf 0x0304 4 0 0 [])) : State).dev.freshBytes 8).1⟩) : BlobSlot)).w F.VLT.BLOB_SEQ_SEQ ((((st 2 (cmdOf 0x0304 4 0 0 [])) : State).dev.g F.VLT.BLOB_SEQ_SEQ + 1) : Nat)).w F.VLT.BLOB_STAT_LOADED (((((st 2 (cmdOf 0x0304 4 0 0 [])) : State).dev.persistSlot) : Nat) + 1)).inc C.VLT.PERSISTS, (((((st 2 (cmdOf 0x0304 4 0 0 [])) : State).dev.freshBytes 8).2) : Dev).setBlob ((((st 2 (cmdOf 0x0304 4 0 0 [])) : State).dev.persistSlot) : Nat) ⟨2, 0, [], []⟩, rfl, rfl, rfl, rfl, rfl, rfl, by decide +kernel⟩,
   ⟨st 2 (cmdOf 0x0305 4 0 0 []), 0, cmdOf 0x0305 4 0 0 [], by decide +kernel⟩,
   ⟨{ dev := up.w F.VLT.MASK_CFG_PERIOD 1 }, by decide +kernel⟩,
   ⟨{ dev := up.w F.VLT.MASK_CFG_PERIOD 0 }, by decide +kernel⟩,
   ⟨{ dev := { up with mt := { up.mt with held := [⟨5, 2 ^ 3, none, 0⟩] } } }, (({ dev := { up with mt := { up.mt with held := [⟨5, 2 ^ 3, none, 0⟩] } } }) : State).dev.g F.VLT.MASK_STAT_GEN, 1 - (((({ dev := { up with mt := { up.mt with held := [⟨5, 2 ^ 3, none, 0⟩] } } }) : State).dev.g F.VLT.MASK_STAT_GEN) : Nat), { (({ dev := { up with mt := { up.mt with held := [⟨5, 2 ^ 3, none, 0⟩] } } }) : State).dev with vault := { (({ dev := { up with mt := { up.mt with held := [⟨5, 2 ^ 3, none, 0⟩] } } }) : State).dev.vault with keys := (({ dev := { up with mt := { up.mt with held := [⟨5, 2 ^ 3, none, 0⟩] } } }) : State).dev.vault.keys.map (fun (k : VKey) => (({ dev := { up with mt := { up.mt with held := [⟨5, 2 ^ 3, none, 0⟩] } } }) : State).dev.vault.entry k.place ((1 - (((({ dev := { up with mt := { up.mt with held := [⟨5, 2 ^ 3, none, 0⟩] } } }) : State).dev.g F.VLT.MASK_STAT_GEN) : Nat)) : Nat) ((({ dev := { up with mt := { up.mt with held := [⟨5, 2 ^ 3, none, 0⟩] } } }) : State).dev.vault.plain k)), uniqueKey := masked ((({ dev := { up with mt := { up.mt with held := [⟨5, 2 ^ 3, none, 0⟩] } } }) : State).dev.vault.mask ((1 - (((({ dev := { up with mt := { up.mt with held := [⟨5, 2 ^ 3, none, 0⟩] } } }) : State).dev.g F.VLT.MASK_STAT_GEN) : Nat)) : Nat)) (masked ((({ dev := { up with mt := { up.mt with held := [⟨5, 2 ^ 3, none, 0⟩] } } }) : State).dev.vault.mask (((({ dev := { up with mt := { up.mt with held := [⟨5, 2 ^ 3, none, 0⟩] } } }) : State).dev.g F.VLT.MASK_STAT_GEN) : Nat)) (({ dev := { up with mt := { up.mt with held := [⟨5, 2 ^ 3, none, 0⟩] } } }) : State).dev.vault.uniqueKey), masks := (({ dev := { up with mt := { up.mt with held := [⟨5, 2 ^ 3, none, 0⟩] } } }) : State).dev.vault.masks.set (((({ dev := { up with mt := { up.mt with held := [⟨5, 2 ^ 3, none, 0⟩] } } }) : State).dev.g F.VLT.MASK_STAT_GEN) : Nat) [], sweep := false, sweptAt := (({ dev := { up with mt := { up.mt with held := [⟨5, 2 ^ 3, none, 0⟩] } } }) : State).dev.time.lt } }, rfl, rfl, rfl, by decide +kernel⟩,
   ⟨{ dev := { (up.w F.VLT.MASK_CFG_PERIOD 1) with time := { up.time with lt := 10 ^ 12 } } }, by decide +kernel⟩,
   ⟨{ dev := up }, by decide +kernel⟩⟩

/-- States and operands that meet the hypotheses of `Obligations.SequencedEvents`, one part for each clause with hypotheses of its own. -/
theorem witness_SequencedEvents :
    (∃ (s : State) (die : Nat), ((s.dev.route die).air = []) ∧ ((s.dev.route die).wired = []) ∧ ((s.dev.route die).xfer = []) ∧ ((s.dev.route die).modeEv = []) ∧ (s.dev.maintEvent die = none)) ∧
    (∃ (s : State) (die : Nat) (env : PlayEnv) (a : AirIn) (rest : (List AirIn)) (d1 : Dev) (d2 : Dev), (d1 = (s.dev.setRoute die (fun r => { r with air := rest })).place die 0 0) ∧ (d2 = d1.journal die 0 (if env.lane = 0 then 0 else 2) a.tref (.air a)) ∧ ((s.dev.route die).air = a :: rest) ∧ (s.dev.mayPlace die 0 = true) ∧ (s.dev.cryFree die = true)) ∧
    (∃ (s : State) (die : Nat) (a : AirIn) (rest : (List AirIn)), ((s.dev.route die).air = a :: rest) ∧ (s.dev.mayPlace die 0 = true) ∧ (s.dev.cryFree die = false)) ∧
    (∃ (s : State) (die : Nat) (a : AirIn) (rest : (List AirIn)), ((s.dev.route die).air = a :: rest) ∧ (s.dev.mayPlace die 0 = false)) ∧
    (∃ (s : State) (die : Nat) (env : PlayEnv) (f : FwdIn) (rest : (List WiredIn)) (d1 : Dev), (d1 = ((s.dev.setRoute die (fun r => { r with wired := rest })).place die 1 1).journal die 1 0 f.time (.wired (.eth f))) ∧ ((s.dev.route die).wired = .eth f :: rest) ∧ (s.dev.mayPlace die 1 = true) ∧ (env.lane = 0)) ∧
    (∃ (s : State) (die : Nat) (pc : PendCommit), (s.dev.commitOpen die = true) ∧ (s.dev.nextCommit die = some pc)) ∧
    (∃ (s : State) (die : Nat), (s.dev.seqOpen die = true)) ∧
    (∃ (s : State) (die : Nat), (s.dev.seqOpen die = false)) ∧
    ((∃ (s : State) (x : XferIn), (s.dev.route 1).xfer = [x] ∧ s.dev.mayPlace 1 3 = true ∧ ((s.dev.setRoute 1 (fun r => { r with xfer := [] })).alloc 1 3 x.size).isSome = true)) ∧
    (∃ (s : State) (die : Nat) (m : Nat) (after : Nat) (rest : (List (Nat×Nat))) (d0 : Dev) (d1 : Dev), (d0 = s.dev.setRoute die (fun r => { r with modeEv := rest })) ∧ (d1 = (if d0.mode = mShadow then d0 else d0.sequence die 14)) ∧ ((s.dev.route die).modeEv = (m, after) :: rest) ∧ (s.dev.dieUp die = true) ∧ (s.dev.hl.inflight.any (fun c => decide (c.id < after)&&bitOf c.toSeq (die - 1)) = false)) ∧
    (∃ (s : State) (die : Nat) (m : Nat) (after : Nat) (rest : (List (Nat×Nat))), ((s.dev.route die).modeEv = (m, after) :: rest) ∧ ((s.dev.dieUp die = false ∨ s.dev.hl.inflight.any (fun c => decide (c.id < after)&&bitOf c.toSeq (die - 1)) = true))) ∧
    (∃ (s : State) (die : Nat) (e : (TokenReq×Bool)) (d1 : Dev), (d1 = { s.dev with mt := { s.dev.mt with events := s.dev.mt.events.erase (die, e.1, e.2) } }) ∧ (s.dev.maintEvent die = some e) ∧ (s.dev.dieUp die = true)) ∧
    (∃ (s : State) (die : Nat) (kind : Nat) (play : Nat) (buf : Nat) (rest : (List AirIn)) (a : AirIn) (d1 : Dev), (d1 = ((s.dev.place die 0 kind).journal die kind 4 (s.dev.place die 0 kind).evTime (.air a)).setRoute die (fun r => { r with air := r.air.tail })) ∧ ((s.dev.route die).air = a :: rest) ∧ (s.dev.headPlay die 0 = some (kind, play, buf)) ∧ (s.dev.mayPlace die 0 = true)) ∧
    (∃ (s : State) (die : Nat) (src : Nat), (s.dev.headPlay die src = none)) ∧
    (∃ (s : State) (die : Nat) (job : Nat) (d1 : Dev), (d1 = ((s.dev.route die).jobs.find? (fun j => j.id == job)).elim s.dev (fun j => s.dev.viaLane die (4 * j.region) 2 j.id))) :=
  ⟨⟨{ dev := up }, 1, by decide +kernel⟩,
   ⟨{ dev := placing (fun r => { r with air := [sampleIn] }) }, 1, {}, sampleIn, [], ((({ dev := placing (fun r => { r with air := [sampleIn] }) }) : State).dev.setRoute ((1) : Nat) (fun r => { r with air := (([]) : (List AirIn)) })).place ((1) : Nat) 0 0, ((((({ dev := placing (fun r => { r with air := [sampleIn] }) }) : State).dev.setRoute ((1) : Nat) (fun r => { r with air := (([]) : (List AirIn)) })).place ((1) : Nat) 0 0) : Dev).journal ((1) : Nat) 0 (if (({}) : PlayEnv).lane = 0 then 0 else 2) ((sampleIn) : AirIn).tref (.air ((sampleIn) : AirIn)), rfl, rfl, by decide +kernel⟩,
   ⟨{ dev := noEngines (placing (fun r => { r with air := [sampleIn] })) }, 1, sampleIn, [], by decide +kernel⟩,
   ⟨{ dev := up.setRoute 1 (fun r => { r with air := [sampleIn], wired := [.eth sampleFwd], visit := 1, left := 1 }) }, 1, sampleIn, [], by decide +kernel⟩,
   ⟨{ dev := placing (fun r => { r with wired := [.eth sampleFwd] }) }, 1, {}, sampleFwd, [], (((({ dev := placing (fun r => { r with wired := [.eth sampleFwd] }) }) : State).dev.setRoute ((1) : Nat) (fun r => { r with wired := (([]) : (List WiredIn)) })).place ((1) : Nat) 1 1).journal ((1) : Nat) 1 0 ((sampleFwd) : FwdIn).time (.wired (.eth ((sampleFwd) : FwdIn))), rfl, by decide +kernel⟩,
   ⟨{ dev := { up with commits := [routeCommit] } }, 1, routeCommit, by decide +kernel⟩,
   ⟨{ dev := up }, 1, by decide +kernel⟩,
   ⟨{ dev := up }, 3, by decide +kernel⟩,
   ⟨{ dev := placing (fun r => { r with xfer := [.dao ⟨1, 0⟩ (some ⟨2, 0⟩) true 0 0] }) }, .dao ⟨1, 0⟩ (some ⟨2, 0⟩) true 0 0, by decide +kernel⟩,
   ⟨{ dev := up.setRoute 1 (fun r => { r with modeEv := [(2, 0)] }) }, 1, 2, 0, [], (({ dev := up.setRoute 1 (fun r => { r with modeEv := [(2, 0)] }) }) : State).dev.setRoute ((1) : Nat) (fun r => { r with modeEv := (([]) : (List (Nat×Nat))) }), (if (((({ dev := up.setRoute 1 (fun r => { r with modeEv := [(2, 0)] }) }) : State).dev.setRoute ((1) : Nat) (fun r => { r with modeEv := (([]) : (List (Nat×Nat))) })) : Dev).mode = mShadow then (((({ dev := up.setRoute 1 (fun r => { r with modeEv := [(2, 0)] }) }) : State).dev.setRoute ((1) : Nat) (fun r => { r with modeEv := (([]) : (List (Nat×Nat))) })) : Dev) else (((({ dev := up.setRoute 1 (fun r => { r with modeEv := [(2, 0)] }) }) : State).dev.setRoute ((1) : Nat) (fun r => { r with modeEv := (([]) : (List (Nat×Nat))) })) : Dev).sequence ((1) : Nat) 14), rfl, rfl, by decide +kernel⟩,
   ⟨{ dev := dark.setRoute 1 (fun r => { r with modeEv := [(2, 0)] }) }, 1, 2, 0, [], by decide +kernel⟩,
   ⟨{ dev := { up with mt := { up.mt with events := [(1, ⟨5, 8, none, 0⟩, true)] } } }, 1, (⟨5, 8, none, 0⟩, true), { (({ dev := { up with mt := { up.mt with events := [(1, ⟨5, 8, none, 0⟩, true)] } } }) : State).dev with mt := { (({ dev := { up with mt := { up.mt with events := [(1, ⟨5, 8, none, 0⟩, true)] } } }) : State).dev.mt with events := (({ dev := { up with mt := { up.mt with events := [(1, ⟨5, 8, none, 0⟩, true)] } } }) : State).dev.mt.events.erase (((1) : Nat), (((⟨5, 8, none, 0⟩, true)) : (TokenReq×Bool)).1, (((⟨5, 8, none, 0⟩, true)) : (TokenReq×Bool)).2) } }, rfl, by decide +kernel⟩,
   ⟨{ dev := placing (fun r => { r with air := [sampleIn] }) }, 1, 0, 0, 1, [], sampleIn, (((({ dev := placing (fun r => { r with air := [sampleIn] }) }) : State).dev.place ((1) : Nat) 0 ((0) : Nat)).journal ((1) : Nat) ((0) : Nat) 4 ((({ dev := placing (fun r => { r with air := [sampleIn] }) }) : State).dev.place ((1) : Nat) 0 ((0) : Nat)).evTime (.air ((sampleIn) : AirIn))).setRoute ((1) : Nat) (fun r => { r with air := r.air.tail }), rfl, by decide +kernel⟩,
   ⟨{ dev := up }, 1, 0, by decide +kernel⟩,
   ⟨{ dev := up }, 1, 0, (((({ dev := up }) : State).dev.route ((1) : Nat)).jobs.find? (fun j => j.id == ((0) : Nat))).elim (({ dev := up }) : State).dev (fun j => (({ dev := up }) : State).dev.viaLane ((1) : Nat) (4 * j.region) 2 j.id), rfl⟩⟩

/-- States and operands that meet the hypotheses of `Obligations.InternalEvents`, one part for each clause with hypotheses of its own. -/
theorem witness_InternalEvents :
    (∃ (s : State) (die : Nat), ((s.dev.route die).int = [])) ∧
    (∃ (s : State) (die : Nat), (s.dev.seqOpen die = true) ∧ (bitOf s.dev.time.stepFor (die - 1) = false)) ∧
    (∃ (s : State) (die : Nat), (s.dev.seqOpen die = false)) ∧
    (∃ (s : State) (die : Nat) (pos : Nat) (key : NodeKey) (age : Nat) (ver : Bool) (rest : (List IntEv)), (Heads s.dev die (.ageCas pos key age ver) rest)) ∧
    (∃ (s : State) (die : Nat) (f : FwdEnt) (rest : (List IntEv)), (Heads s.dev die (.ageFwd f) rest)) ∧
    (∃ (s : State) (die : Nat) (k : NodeKey) (rest : (List (Nat×NodeKey))) (d1 : Dev) (ok : Bool) (d2 : Dev), (d1 = { s.dev with popQ := rest }) ∧ (ok = decide (d1.pop < d1.popMax)) ∧ (d2 = (if ok = true then { d1 with pop := d1.pop + 1 }.showPop else d1)) ∧ (s.dev.popQ = (die, k) :: rest) ∧ (d1.dieUp die = true)) ∧
    (∃ (s : State) (die : Nat) (k : NodeKey) (rest : (List (Nat×NodeKey))) (d1 : Dev), (d1 = { s.dev with popQ := rest }) ∧ (s.dev.popQ = (die, k) :: rest) ∧ (d1.dieUp die = false)) ∧
    (∃ (s : State), (s.dev.popQ = [])) ∧
    (∃ (s : State) (die : Nat) (k : NodeKey) (ok : Bool) (rest : (List IntEv)), (Heads s.dev die (.pop k ok) rest)) ∧
    (∃ (s : State) (die : Nat) (o : SlowOp) (rest : (List SlowOp)) (d1 : Dev), (d1 = s.dev.setRoute die (fun r => { r with slow := rest })) ∧ ((s.dev.route die).slow = o :: rest) ∧ (s.dev.dieUp die = true) ∧ (s.dev.mode ≠ mShadow) ∧ (d1.coldRec o.key = none)) ∧
    ((∃ (s : State) (o : SlowOp) (e : NodeEnt), (s.dev.route 1).slow = [o] ∧ s.dev.dieUp 1 = true ∧ s.dev.mode ≠ mShadow ∧ (s.dev.setRoute 1 (fun r => { r with slow := [] })).coldRec o.key = some e ∧ s.dev.popQ = [])) ∧
    ((∃ (s : State) (o : SlowOp) (e : NodeEnt), (s.dev.route 1).slow = [o] ∧ (s.dev.setRoute 1 (fun r => { r with slow := [] })).coldRec o.key = some e ∧ e.ovf = false ∧ s.dev.popQ ≠ [])) ∧
    (∃ (s : State) (die : Nat), ((s.dev.route die).slow = [] ∨ s.dev.dieUp die = false ∨ s.dev.mode = mShadow)) ∧
    (∃ (s : State) (die : Nat) (env : PlayEnv) (o : SlowOp) (g : Bool) (f : Bool) (rest : (List IntEv)), (Heads s.dev die (.slow o g f) rest) ∧ (env.lane = 0)) ∧
    (∃ (s : State) (die : Nat) (t : Nat) (b : Nat) (rest : (List IntEv)) (m : Migration) (d1 : Dev) (d2 : Dev) (d3 : Dev) (d4 : Dev), (d1 = placed s.dev die 9 (.migrate t b) rest) ∧ (d2 = (if m.table = 0 then d1.each ((d1.route die).nodes.filter (fun e => e.pos / 4 == m.pos)) (fun d e => d.migrateNode die m.seed e) else d1.each ((d1.route die).fwd.filter (fun e => e.pos / 4 == m.pos)) (fun d e => d.migrateFwd die m.seed e))) ∧ (d3 = d2.setRoute die (fun r => { r with mig := mapIf (fun y => y.table == m.table) (fun y => { y with pos := m.pos + 1 }) r.mig })) ∧ (d4 = (if m.table = 0 then d3.w F.NTB.REHASH_POS_POS (m.pos + 1) die else d3)) ∧ (Heads s.dev die (.migrate t b) rest) ∧ (d1.migOf die t = some m)) ∧
    (∃ (s : State) (die : Nat) (l : FwdEnt) (rest : (List IntEv)), (Heads s.dev die (.learn l) rest)) ∧
    (∃ (s : State) (die : Nat) (o : AirOut) (rest : (List IntEv)), (Heads s.dev die (.airOut o) rest)) ∧
    (∃ (s : State) (die : Nat) (port : Nat) (q : Nat) (rest : (List IntEv)), (Heads s.dev die (.egress port q) rest)) :=
  ⟨⟨{ dev := up }, 1, by decide +kernel⟩,
   ⟨{ dev := up }, 2, by decide +kernel⟩,
   ⟨{ dev := up }, 3, by decide +kernel⟩,
   ⟨{ dev := placing (fun r => { r with int := [.ageCas 0 ⟨1, 0⟩ 0 false] }) }, 1, 0, ⟨1, 0⟩, 0, false, [], by decide +kernel⟩,
   ⟨{ dev := placing (fun r => { r with int := [.ageFwd sampleFwdEnt] }) }, 1, sampleFwdEnt, [], by decide +kernel⟩,
   ⟨{ dev := { up with popQ := [(1, ⟨1, 0⟩)] } }, 1, ⟨1, 0⟩, [], { (({ dev := { up with popQ := [(1, ⟨1, 0⟩)] } }) : State).dev with popQ := (([]) : (List (Nat×NodeKey))) }, decide ((({ (({ dev := { up with popQ := [(1, ⟨1, 0⟩)] } }) : State).dev with popQ := (([]) : (List (Nat×NodeKey))) }) : Dev).pop < (({ (({ dev := { up with popQ := [(1, ⟨1, 0⟩)] } }) : State).dev with popQ := (([]) : (List (Nat×NodeKey))) }) : Dev).popMax), (if ((decide ((({ (({ dev := { up with popQ := [(1, ⟨1, 0⟩)] } }) : State).dev with popQ := (([]) : (List (Nat×NodeKey))) }) : Dev).pop < (({ (({ dev := { up with popQ := [(1, ⟨1, 0⟩)] } }) : State).dev with popQ := (([]) : (List (Nat×NodeKey))) }) : Dev).popMax)) : Bool) = true then { (({ (({ dev := { up with popQ := [(1, ⟨1, 0⟩)] } }) : State).dev with popQ := (([]) : (List (Nat×NodeKey))) }) : Dev) with pop := (({ (({ dev := { up with popQ := [(1, ⟨1, 0⟩)] } }) : State).dev with popQ := (([]) : (List (Nat×NodeKey))) }) : Dev).pop + 1 }.showPop else (({ (({ dev := { up with popQ := [(1, ⟨1, 0⟩)] } }) : State).dev with popQ := (([]) : (List (Nat×NodeKey))) }) : Dev)), rfl, rfl, rfl, by decide +kernel⟩,
   ⟨{ dev := { dark with popQ := [(1, ⟨1, 0⟩)] } }, 1, ⟨1, 0⟩, [], { (({ dev := { dark with popQ := [(1, ⟨1, 0⟩)] } }) : State).dev with popQ := (([]) : (List (Nat×NodeKey))) }, rfl, by decide +kernel⟩,
   ⟨{ dev := up }, by decide +kernel⟩,
   ⟨{ dev := placing (fun r => { r with int := [.pop ⟨1, 0⟩ true] }) }, 1, ⟨1, 0⟩, true, [], by decide +kernel⟩,
   ⟨{ dev := up.setRoute 1 (fun r => { r with slow := [sampleSlow] }) }, 1, sampleSlow, [], (({ dev := up.setRoute 1 (fun r => { r with slow := [sampleSlow] }) }) : State).dev.setRoute ((1) : Nat) (fun r => { r with slow := (([]) : (List SlowOp)) }), rfl, by decide +kernel⟩,
   ⟨{ dev := up.setRoute 1 (fun r => { r with slow := [sampleSlow], cold := [{ pos := 0, key := sampleSlow.key }] }) }, sampleSlow, { pos := 0, key := sampleSlow.key }, by decide +kernel⟩,
   ⟨{ dev := { up.setRoute 1 (fun r => { r with slow := [sampleSlow], cold := [{ pos := 0, key := sampleSlow.key }] }) with popQ := [(1, ⟨1, 0⟩)] } }, sampleSlow, { pos := 0, key := sampleSlow.key }, by decide +kernel⟩,
   ⟨{ dev := up }, 1, by decide +kernel⟩,
   ⟨{ dev := placing (fun r => { r with int := [.slow sampleSlow true true] }) }, 1, {}, sampleSlow, true, true, [], by decide +kernel⟩,
   ⟨{ dev := placing (fun r => { r with int := [.migrate 0 0], mig := [sampleMig] }) }, 1, 0, 0, [], sampleMig, placed (({ dev := placing (fun r => { r with int := [.migrate 0 0], mig := [sampleMig] }) }) : State).dev ((1) : Nat) 9 (.migrate ((0) : Nat) ((0) : Nat)) (([]) : (List IntEv)), (if ((sampleMig) : Migration).table = 0 then ((placed (({ dev := placing (fun r => { r with int := [.migrate 0 0], mig := [sampleMig] }) }) : State).dev ((1) : Nat) 9 (.migrate ((0) : Nat) ((0) : Nat)) (([]) : (List IntEv))) : Dev).each ((((placed (({ dev := placing (fun r => { r with int := [.migrate 0 0], mig := [sampleMig] }) }) : State).dev ((1) : Nat) 9 (.migrate ((0) : Nat) ((0) : Nat)) (([]) : (List IntEv))) : Dev).route ((1) : Nat)).nodes.filter (fun e => e.pos / 4 == ((sampleMig) : Migration).pos)) (fun d e => d.migrateNode ((1) : Nat) ((sampleMig) : Migration).seed e) else ((placed (({ dev := placing (fun r => { r with int := [.migrate 0 0], mig := [sampleMig] }) }) : State).dev ((1) : Nat) 9 (.migrate ((0) : Nat) ((0) : Nat)) (([]) : (List IntEv))) : Dev).each ((((placed (({ dev := placing (fun r => { r with int := [.migrate 0 0], mig := [sampleMig] }) }) : State).dev ((1) : Nat) 9 (.migrate ((0) : Nat) ((0) : Nat)) (([]) : (List IntEv))) : Dev).route ((1) : Nat)).fwd.filter (fun e => e.pos / 4 == ((sampleMig) : Migration).pos)) (fun d e => d.migrateFwd ((1) : Nat) ((sampleMig) : Migration).seed e)), (((if ((sampleMig) : Migration).table = 0 then ((placed (({ dev := placing (fun r => { r with int := [.migrate 0 0], mig := [sampleMig] }) }) : State).dev ((1) : Nat) 9 (.migrate ((0) : Nat) ((0) : Nat)) (([]) : (List IntEv))) : Dev).each ((((placed (({ dev := placing (fun r => { r with int := [.migrate 0 0], mig := [sampleMig] }) }) : State).dev ((1) : Nat) 9 (.migrate ((0) : Nat) ((0) : Nat)) (([]) : (List IntEv))) : Dev).route ((1) : Nat)).nodes.filter (fun e => e.pos / 4 == ((sampleMig) : Migration).pos)) (fun d e => d.migrateNode ((1) : Nat) ((sampleMig) : Migration).seed e) else ((placed (({ dev := placing (fun r => { r with int := [.migrate 0 0], mig := [sampleMig] }) }) : State).dev ((1) : Nat) 9 (.migrate ((0) : Nat) ((0) : Nat)) (([]) : (List IntEv))) : Dev).each ((((placed (({ dev := placing (fun r => { r with int := [.migrate 0 0], mig := [sampleMig] }) }) : State).dev ((1) : Nat) 9 (.migrate ((0) : Nat) ((0) : Nat)) (([]) : (List IntEv))) : Dev).route ((1) : Nat)).fwd.filter (fun e => e.pos / 4 == ((sampleMig) : Migration).pos)) (fun d e => d.migrateFwd ((1) : Nat) ((sampleMig) : Migration).seed e))) : Dev).setRoute ((1) : Nat) (fun r => { r with mig := mapIf (fun y => y.table == ((sampleMig) : Migration).table) (fun y => { y with pos := ((sampleMig) : Migration).pos + 1 }) r.mig }), (if ((sampleMig) : Migration).table = 0 then (((((if ((sampleMig) : Migration).table = 0 then ((placed (({ dev := placing (fun r => { r with int := [.migrate 0 0], mig := [sampleMig] }) }) : State).dev ((1) : Nat) 9 (.migrate ((0) : Nat) ((0) : Nat)) (([]) : (List IntEv))) : Dev).each ((((placed (({ dev := placing (fun r => { r with int := [.migrate 0 0], mig := [sampleMig] }) }) : State).dev ((1) : Nat) 9 (.migrate ((0) : Nat) ((0) : Nat)) (([]) : (List IntEv))) : Dev).route ((1) : Nat)).nodes.filter (fun e => e.pos / 4 == ((sampleMig) : Migration).pos)) (fun d e => d.migrateNode ((1) : Nat) ((sampleMig) : Migration).seed e) else ((placed (({ dev := placing (fun r => { r with int := [.migrate 0 0], mig := [sampleMig] }) }) : State).dev ((1) : Nat) 9 (.migrate ((0) : Nat) ((0) : Nat)) (([]) : (List IntEv))) : Dev).each ((((placed (({ dev := placing (fun r => { r with int := [.migrate 0 0], mig := [sampleMig] }) }) : State).dev ((1) : Nat) 9 (.migrate ((0) : Nat) ((0) : Nat)) (([]) : (List IntEv))) : Dev).route ((1) : Nat)).fwd.filter (fun e => e.pos / 4 == ((sampleMig) : Migration).pos)) (fun d e => d.migrateFwd ((1) : Nat) ((sampleMig) : Migration).seed e))) : Dev).setRoute ((1) : Nat) (fun r => { r with mig := mapIf (fun y => y.table == ((sampleMig) : Migration).table) (fun y => { y with pos := ((sampleMig) : Migration).pos + 1 }) r.mig })) : Dev).w F.NTB.REHASH_POS_POS (((sampleMig) : Migration).pos + 1) ((1) : Nat) else (((((if ((sampleMig) : Migration).table = 0 then ((placed (({ dev := placing (fun r => { r with int := [.migrate 0 0], mig := [sampleMig] }) }) : State).dev ((1) : Nat) 9 (.migrate ((0) : Nat) ((0) : Nat)) (([]) : (List IntEv))) : Dev).each ((((placed (({ dev := placing (fun r => { r with int := [.migrate 0 0], mig := [sampleMig] }) }) : State).dev ((1) : Nat) 9 (.migrate ((0) : Nat) ((0) : Nat)) (([]) : (List IntEv))) : Dev).route ((1) : Nat)).nodes.filter (fun e => e.pos / 4 == ((sampleMig) : Migration).pos)) (fun d e => d.migrateNode ((1) : Nat) ((sampleMig) : Migration).seed e) else ((placed (({ dev := placing (fun r => { r with int := [.migrate 0 0], mig := [sampleMig] }) }) : State).dev ((1) : Nat) 9 (.migrate ((0) : Nat) ((0) : Nat)) (([]) : (List IntEv))) : Dev).each ((((placed (({ dev := placing (fun r => { r with int := [.migrate 0 0], mig := [sampleMig] }) }) : State).dev ((1) : Nat) 9 (.migrate ((0) : Nat) ((0) : Nat)) (([]) : (List IntEv))) : Dev).route ((1) : Nat)).fwd.filter (fun e => e.pos / 4 == ((sampleMig) : Migration).pos)) (fun d e => d.migrateFwd ((1) : Nat) ((sampleMig) : Migration).seed e))) : Dev).setRoute ((1) : Nat) (fun r => { r with mig := mapIf (fun y => y.table == ((sampleMig) : Migration).table) (fun y => { y with pos := ((sampleMig) : Migration).pos + 1 }) r.mig })) : Dev)), rfl, rfl, rfl, rfl, by decide +kernel⟩,
   ⟨{ dev := placing (fun r => { r with int := [.learn sampleFwdEnt] }) }, 1, sampleFwdEnt, [], by decide +kernel⟩,
   ⟨{ dev := placing (fun r => { r with int := [.airOut (.acked 1 1 0)] }) }, 1, .acked 1 1 0, [], by decide +kernel⟩,
   ⟨{ dev := placing (fun r => { r with int := [.egress 0 0] }) }, 1, 0, 0, [], by decide +kernel⟩⟩

/-- States and operands that meet the hypotheses of `Obligations.TableRows`, one part for each clause with hypotheses of its own. -/
theorem witness_TableRows :
    (∃ (s : State) (id : Nat) (c : Cmd) (e : NodeEnt), (Ready s.dev 0x0101 id c nodeRange96) ∧ (s.dev.resident c.nodeKey = some e)) ∧
    (∃ (s : State) (id : Nat) (c : Cmd) (e : NodeEnt), (Ready s.dev 0x0101 id c nodeRange96) ∧ (s.dev.resident c.nodeKey = none) ∧ (s.dev.coldRec c.nodeKey = some e)) ∧
    (∃ (s : State) (id : Nat) (c : Cmd), (Ready s.dev 0x0101 id c nodeRange96) ∧ (s.dev.resident c.nodeKey = none) ∧ (s.dev.coldRec c.nodeKey = none)) ∧
    (∃ (s : State) (id : Nat) (c : Cmd), (Ready s.dev 0x0102 id c nodeRange96) ∧ ((bitOf (leAt (c.buf s.host 96) 0 16) 44 = false ∨ slotKey (c.buf s.host 96) ≠ c.nodeKey))) ∧
    (∃ (s : State) (id : Nat) (c : Cmd), (Ready s.dev 0x0102 id c nodeRange96) ∧ (bitOf (leAt (c.buf s.host 96) 0 16) 44 = true) ∧ (slotKey (c.buf s.host 96) = c.nodeKey) ∧ ((s.dev.nodeOf c.nodeKey).isSome = true)) ∧
    ((∃ (s : State) (c : Cmd), Ready s.dev 0x0102 0 c nodeRange96 ∧ bitOf (leAt (c.buf s.host 96) 0 16) 44 = true ∧ slotKey (c.buf s.host 96) = c.nodeKey ∧ s.dev.nodeOf c.nodeKey = none ∧ (s.dev.route c.die1).creations.any (fun x => x.key == c.nodeKey) = false ∧ (s.dev.askCreate c.die1 c.nodeKey (.write c.id (c.buf s.host 96))).2 = true)) ∧
    ((∃ (s : State) (c : Cmd), Ready s.dev 0x0102 0 c nodeRange96 ∧ bitOf (leAt (c.buf s.host 96) 0 16) 44 = true ∧ slotKey (c.buf s.host 96) = c.nodeKey ∧ s.dev.nodeOf c.nodeKey = none ∧ (s.dev.route c.die1).creations.any (fun x => x.key == c.nodeKey) = true)) ∧
    ((∃ (s : State) (c e : Cmd), s.dev.nodeOf c.nodeKey = none ∧ Ready s.dev 0x0103 0 c nodeRange ∧ s.dev.nodeOf e.nodeKey = none ∧ Ready { s.dev with hl := { s.dev.hl with inflight := [e] } } 0x0104 0 e nodeRange)) ∧
    (∃ (s : State) (id : Nat) (c : Cmd), (Ready s.dev 0x0103 id c nodeRange) ∧ ((s.dev.nodeOf c.nodeKey).isSome = true)) ∧
    (∃ (s : State) (id : Nat) (c : Cmd), (Ready s.dev 0x0104 id c nodeRange) ∧ ((s.dev.nodeOf c.nodeKey).isSome = true)) ∧
    (∃ (s : State) (id : Nat) (c : Cmd) (t : ((List Byte)×Nat)), (t = takeBuckets c.cnt (((s.dev.route c.die1).dump (c.par 24 1)).filter (fun x => c.par 28 4 ≤ x.1))) ∧ (Ready s.dev 0x0105 id c (fun _ c => if 2 < c.par 24 1 || c.len < c.cnt * dumpSize (c.par 24 1) then some 0 else none))) ∧
    (∃ (s : State) (id : Nat) (c : Cmd) (d1 : Dev), (d1 = (s.dev.requestToken ⟨3, dieScope c.die1, some c.id, 0⟩).1) ∧ (Ready s.dev 0x0106 id c (fun _ c => if 1 < c.par 24 1 then some 0 else none)) ∧ (c.par 24 1 = 0) ∧ (s.dev.cmdHolds c.id = false) ∧ ((s.dev.requestToken ⟨3, dieScope c.die1, some c.id, 0⟩).2 = .granted)) ∧
    (∃ (s : State) (id : Nat) (c : Cmd) (d1 : Dev), (d1 = (s.dev.requestToken ⟨3, dieScope c.die1, some c.id, 1⟩).1) ∧ (Ready s.dev 0x0106 id c (fun _ c => if 1 < c.par 24 1 then some 0 else none)) ∧ (c.par 24 1 = 1) ∧ (s.dev.cmdHolds c.id = false) ∧ ((s.dev.requestToken ⟨3, dieScope c.die1, some c.id, 1⟩).2 = .granted)) ∧
    (∃ (s : State) (id : Nat) (c : Cmd) (r : (Dev×TokenAnswer)), (r = s.dev.requestToken ⟨3, dieScope c.die1, some c.id, c.par 24 1⟩) ∧ (Ready s.dev 0x0106 id c (fun _ c => if 1 < c.par 24 1 then some 0 else none)) ∧ (s.dev.cmdHolds c.id = false) ∧ (r.2 ≠ .granted)) ∧
    (∃ (s : State) (id : Nat) (c : Cmd) (r : (Dev×Reply)), (r = (([1, 2] : List Nat).filter (fun die => bitOf c.target (die - 1))).foldl (Dev.fwdAddOn ((List.range c.cnt).map (fun i => sliceB (c.buf s.host c.len) (32 * i) 32))) (s.dev, { tryM := 0, okM := 0 })) ∧ (Ready s.dev 0x0107 id c (fun _ c => if c.len != 32 * c.cnt then some 0 else none))) ∧
    (∃ (s : State) (id : Nat) (c : Cmd) (r : (Dev×Reply)), (r = s.dev.perDie c (fun d die => (d.deleteFwd die (fun e => e.kind != 1&&((List.range c.cnt).map (fun i => FwdEnt.ofBytes (sliceB (c.buf s.host c.len) (32 * i) 32))).any (fun r => r.same e)), 0))) ∧ (Ready s.dev 0x0108 id c (fun _ c => if c.len != 32 * c.cnt then some 0 else none))) ∧
    (∃ (s : State) (id : Nat) (c : Cmd) (r : (Dev×Reply)), (r = s.dev.perDie c (fun d die => (d.deleteFwd die (fun e => e.kind == 0&&!e.static&&(c.par 24 1 == 0||(e.dest == 0&&e.port == c.par 25 1))), 0))) ∧ (Ready s.dev 0x0109 id c (fun _ c => if 1 < c.par 24 1 || (c.par 24 1 == 1&&31 < c.par 25 1) then some 0 else none))) :=
  ⟨⟨{ dev := flying knowing (nodeCmd 0x0101 96) }, 0, nodeCmd 0x0101 96, classNode, by decide +kernel⟩,
   ⟨{ dev := flying (up.setRoute nodeDie (fun r => { r with cold := [classNode] })) (nodeCmd 0x0101 96) }, 0, nodeCmd 0x0101 96, classNode, by decide +kernel⟩,
   ⟨st 2 (nodeCmd 0x0101 96), 0, nodeCmd 0x0101 96, by decide +kernel⟩,
   ⟨st 2 (nodeCmd 0x0102 96), 0, nodeCmd 0x0102 96, by decide +kernel⟩,
   ⟨{ dev := flying knowing (nodeCmd 0x0102 96), host := memWrite [] 0 [1#8, 0#8, 0#8, 0#8, 0#8, 0x10#8] }, 0, nodeCmd 0x0102 96, by decide +kernel⟩,
   ⟨{ dev := flying up (nodeCmd 0x0102 96), host := memWrite [] 0 [1#8, 0#8, 0#8, 0#8, 0#8, 0x10#8] }, nodeCmd 0x0102 96, by decide +kernel⟩,
   ⟨{ dev := flying (up.askCreate nodeDie ⟨1, 0⟩ (.write 7 [])).1 (nodeCmd 0x0102 96), host := memWrite [] 0 [1#8, 0#8, 0#8, 0#8, 0#8, 0x10#8] }, nodeCmd 0x0102 96, by decide +kernel⟩,
   ⟨st 2 (nodeCmd 0x0103 0), nodeCmd 0x0103 0, nodeCmd 0x0104 0, by decide +kernel⟩,
   ⟨{ dev := flying knowing (nodeCmd 0x0103 0) }, 0, nodeCmd 0x0103 0, by decide +kernel⟩,
   ⟨{ dev := flying knowing (nodeCmd 0x0104 0) }, 0, nodeCmd 0x0104 0, by decide +kernel⟩,
   ⟨{ dev := flying knowing (nodeCmd 0x0105 96) }, 0, nodeCmd 0x0105 96, takeBuckets ((nodeCmd 0x0105 96) : Cmd).cnt ((((({ dev := flying knowing (nodeCmd 0x0105 96) }) : State).dev.route ((nodeCmd 0x0105 96) : Cmd).die1).dump (((nodeCmd 0x0105 96) : Cmd).par 24 1)).filter (fun x => ((nodeCmd 0x0105 96) : Cmd).par 28 4 ≤ x.1)), rfl, by decide +kernel⟩,
   ⟨st 2 (cmdOf 0x0106 1 0 0 [0, 0, 0, 0, 7]), 0, cmdOf 0x0106 1 0 0 [0, 0, 0, 0, 7], (((st 2 (cmdOf 0x0106 1 0 0 [0, 0, 0, 0, 7])) : State).dev.requestToken ⟨3, dieScope ((cmdOf 0x0106 1 0 0 [0, 0, 0, 0, 7]) : Cmd).die1, some ((cmdOf 0x0106 1 0 0 [0, 0, 0, 0, 7]) : Cmd).id, 0⟩).1, rfl, by decide +kernel⟩,
   ⟨st 2 (cmdOf 0x0106 1 0 0 [1, 0, 0, 0, 7]), 0, cmdOf 0x0106 1 0 0 [1, 0, 0, 0, 7], (((st 2 (cmdOf 0x0106 1 0 0 [1, 0, 0, 0, 7])) : State).dev.requestToken ⟨3, dieScope ((cmdOf 0x0106 1 0 0 [1, 0, 0, 0, 7]) : Cmd).die1, some ((cmdOf 0x0106 1 0 0 [1, 0, 0, 0, 7]) : Cmd).id, 1⟩).1, rfl, by decide +kernel⟩,
   ⟨{ st 2 (cmdOf 0x0106 1 0 0 [0, 0, 0, 0, 7]) with dev := { flying up (cmdOf 0x0106 1 0 0 [0, 0, 0, 0, 7]) with mt := { up.mt with held := [⟨9, dieScope 1, none, 0⟩] } } }, 0, cmdOf 0x0106 1 0 0 [0, 0, 0, 0, 7], (({ st 2 (cmdOf 0x0106 1 0 0 [0, 0, 0, 0, 7]) with dev := { flying up (cmdOf 0x0106 1 0 0 [0, 0, 0, 0, 7]) with mt := { up.mt with held := [⟨9, dieScope 1, none, 0⟩] } } }) : State).dev.requestToken ⟨3, dieScope ((cmdOf 0x0106 1 0 0 [0, 0, 0, 0, 7]) : Cmd).die1, some ((cmdOf 0x0106 1 0 0 [0, 0, 0, 0, 7]) : Cmd).id, ((cmdOf 0x0106 1 0 0 [0, 0, 0, 0, 7]) : Cmd).par 24 1⟩, rfl, by decide +kernel⟩,
   ⟨st 2 (cmdOf 0x0107 3 32 1 []), 0, cmdOf 0x0107 3 32 1 [], (([1, 2] : List Nat).filter (fun die => bitOf ((cmdOf 0x0107 3 32 1 []) : Cmd).target (die - 1))).foldl (Dev.fwdAddOn ((List.range ((cmdOf 0x0107 3 32 1 []) : Cmd).cnt).map (fun i => sliceB (((cmdOf 0x0107 3 32 1 []) : Cmd).buf ((st 2 (cmdOf 0x0107 3 32 1 [])) : State).host ((cmdOf 0x0107 3 32 1 []) : Cmd).len) (32 * i) 32))) (((st 2 (cmdOf 0x0107 3 32 1 [])) : State).dev, { tryM := 0, okM := 0 }), rfl, by decide +kernel⟩,
   ⟨st 2 (cmdOf 0x0108 3 32 1 []), 0, cmdOf 0x0108 3 32 1 [], ((st 2 (cmdOf 0x0108 3 32 1 [])) : State).dev.perDie ((cmdOf 0x0108 3 32 1 []) : Cmd) (fun d die => (d.deleteFwd die (fun e => e.kind != 1&&((List.range ((cmdOf 0x0108 3 32 1 []) : Cmd).cnt).map (fun i => FwdEnt.ofBytes (sliceB (((cmdOf 0x0108 3 32 1 []) : Cmd).buf ((st 2 (cmdOf 0x0108 3 32 1 [])) : State).host ((cmdOf 0x0108 3 32 1 []) : Cmd).len) (32 * i) 32))).any (fun r => r.same e)), 0)), rfl, by decide +kernel⟩,
   ⟨st 2 (cmdOf 0x0109 3 0 0 [1, 31]), 0, cmdOf 0x0109 3 0 0 [1, 31], ((st 2 (cmdOf 0x0109 3 0 0 [1, 31])) : State).dev.perDie ((cmdOf 0x0109 3 0 0 [1, 31]) : Cmd) (fun d die => (d.deleteFwd die (fun e => e.kind == 0&&!e.static&&(((cmdOf 0x0109 3 0 0 [1, 31]) : Cmd).par 24 1 == 0||(e.dest == 0&&e.port == ((cmdOf 0x0109 3 0 0 [1, 31]) : Cmd).par 25 1))), 0)), rfl, by decide +kernel⟩⟩

/-- States and operands that meet the hypotheses of `Obligations.SchedulingRows`, one part for each clause with hypotheses of its own. -/
theorem witness_SchedulingRows :
    (∃ (s : State) (die : Nat) (port : Nat), (s.dev.act = mQuiesce ∨ portOwner port ≠ die)) ∧
    (∃ (s : State) (id : Nat) (c : Cmd) (r : (Dev×Nat×Bool)), (r = applyRecs (fun d n b => d.queueSet c.die1 n b) (c.recs s.host 16) (c.par 24 2) s.dev 0) ∧ (Ready s.dev 0x0201 id c (queueRange 16)) ∧ (r.2.2 = true)) ∧
    (∃ (s : State) (id : Nat) (c : Cmd) (r : (Dev×Nat×Bool)), (r = applyRecs (fun d n b => d.queueSet c.die1 n b) (c.recs s.host 16) (c.par 24 2) s.dev 0) ∧ (Ready s.dev 0x0201 id c (queueRange 16)) ∧ (r.2.2 = false)) ∧
    (∃ (s : State) (id : Nat) (c : Cmd), (Ready s.dev 0x0202 id c (queueRange 32))) ∧
    (∃ (s : State) (id : Nat) (c : Cmd), (Ready s.dev 0x0203 id c (queueRange 0))) ∧
    (∃ (s : State) (id : Nat) (c : Cmd) (r : (Dev×Reply)), (r = (([1, 2] : List Nat).filter (fun die => bitOf c.target (die - 1))).foldl (Dev.policerSetOn s.host c) (s.dev, { tryM := 0, okM := 0 })) ∧ (Ready s.dev 0x0204 id c (fun _ c => if 4 < c.par 24 1 || meterCount (c.par 24 1) < c.par 26 2 + c.cnt || c.len != 16 * c.cnt then some 0 else none))) ∧
    (∃ (s : State) (id : Nat) (c : Cmd) (die : Nat), (Ready s.dev 0x0205 id c (queueRange 8)) ∧ (([1, 2] : List Nat).filter (fun die => bitOf c.target (die - 1)&&s.dev.dieUp die) = [die])) ∧
    (∃ (s : State) (die : Nat), (s.dev.seqOpen die = true) ∧ (bitOf s.dev.time.stepFor (die - 1) = false)) ∧
    (∃ (s : State) (die : Nat), (s.dev.seqOpen die = false)) ∧
    (∃ (s : State) (die : Nat) (port : Nat), ((s.dev.lineup die port).pending = none)) ∧
    (∃ (s : State) (die : Nat), (s.dev.commitOpen die = false ∨ s.dev.nextCommit die = none ∨ (∃ pc, s.dev.nextCommit die = some pc ∧ (pc.tag ≠ .SCH ∨ snapGet pc.snap F.SCH.LUP_CTRL_LOAD ⟨.SCH, die, 0⟩ ≠ 1)))) ∧
    (∃ (s : State) (die : Nat) (port : Nat) (d1 : Dev), (d1 = s.dev.sequence die 5) ∧ (s.dev.seqOpen die = true) ∧ (s.dev.act ≠ mQuiesce) ∧ (portOwner port = die)) ∧
    (∃ (s : State) (die : Nat) (pc : PendCommit), (s.dev.commitOpen die = true) ∧ (s.dev.nextCommit die = some pc) ∧ (pc.tag = .SCH) ∧ (snapGet pc.snap F.SCH.LUP_CTRL_LOAD ⟨.SCH, die, 0⟩ = 1)) ∧
    (∃ (s : State) (die : Nat) (port : Nat) (d1 : Dev), (d1 = s.dev.sequence die 5) ∧ (s.dev.seqOpen die = true) ∧ (s.dev.act ≠ mQuiesce) ∧ (portOwner port = die) ∧ ((s.dev.lineup die port).pending.isSome = true)) ∧
    (∃ (s : State) (die : Nat) (port : Nat) (eg : EgressEnv) (d1 : Dev) (q : Queue) (p : Pkt) (rest : (List Pkt)), (d1 = s.dev.countGated die port) ∧ (portOwner port = die) ∧ (s.dev.dieUp die = true) ∧ ((s.dev.act = mService ∨ s.dev.act = mBringup)) ∧ ((s.dev.portSt die port).taking = false) ∧ (s.dev.portTakes port eg = true) ∧ (d1.choose die port = some q) ∧ (q.pkts = p :: rest) ∧ (d1.recordWaits die p.seq = false)) ∧
    (∃ (s : State) (die : Nat) (port : Nat) (eg : EgressEnv) (d1 : Dev), (d1 = s.dev.countGated die port) ∧ (portOwner port = die) ∧ (s.dev.dieUp die = true) ∧ ((s.dev.act = mService ∨ s.dev.act = mBringup)) ∧ ((s.dev.portSt die port).taking = false) ∧ (s.dev.portTakes port eg = true) ∧ ((d1.choose die port).all (fun q => q.pkts.head?.all (fun p => d1.recordWaits die p.seq)) = true)) ∧
    (∃ (s : State) (die : Nat) (port : Nat), (portOwner port ≠ die ∨ s.dev.dieUp die = false ∨ (s.dev.act ≠ mService ∧ s.dev.act ≠ mBringup) ∨ (s.dev.portSt die port).taking = true)) ∧
    (∃ (s : State) (die : Nat) (port : Nat) (eg : EgressEnv), (portOwner port = die) ∧ (s.dev.dieUp die = true) ∧ ((s.dev.act = mService ∨ s.dev.act = mBringup)) ∧ ((s.dev.portSt die port).taking = false) ∧ (s.dev.portTakes port eg = false)) :=
  ⟨⟨{ dev := up }, 2, 0, by decide +kernel⟩,
   ⟨st 2 (cmdOf 0x0201 1 16 1 [0, 0]), 0, cmdOf 0x0201 1 16 1 [0, 0], applyRecs (fun d n b => d.queueSet ((cmdOf 0x0201 1 16 1 [0, 0]) : Cmd).die1 n b) (((cmdOf 0x0201 1 16 1 [0, 0]) : Cmd).recs ((st 2 (cmdOf 0x0201 1 16 1 [0, 0])) : State).host 16) (((cmdOf 0x0201 1 16 1 [0, 0]) : Cmd).par 24 2) ((st 2 (cmdOf 0x0201 1 16 1 [0, 0])) : State).dev 0, rfl, by decide +kernel⟩,
   ⟨{ st 2 (cmdOf 0x0201 1 16 1 [0, 0]) with host := memWrite [] 0 (List.replicate 16 0xFF#8) }, 0, cmdOf 0x0201 1 16 1 [0, 0], applyRecs (fun d n b => d.queueSet ((cmdOf 0x0201 1 16 1 [0, 0]) : Cmd).die1 n b) (((cmdOf 0x0201 1 16 1 [0, 0]) : Cmd).recs (({ st 2 (cmdOf 0x0201 1 16 1 [0, 0]) with host := memWrite [] 0 (List.replicate 16 0xFF#8) }) : State).host 16) (((cmdOf 0x0201 1 16 1 [0, 0]) : Cmd).par 24 2) (({ st 2 (cmdOf 0x0201 1 16 1 [0, 0]) with host := memWrite [] 0 (List.replicate 16 0xFF#8) }) : State).dev 0, rfl, by decide +kernel⟩,
   ⟨st 2 (cmdOf 0x0202 1 32 1 [0xFF, 0x3F]), 0, cmdOf 0x0202 1 32 1 [0xFF, 0x3F], by decide +kernel⟩,
   ⟨st 2 (cmdOf 0x0203 1 0 16384 [0, 0]), 0, cmdOf 0x0203 1 0 16384 [0, 0], by decide +kernel⟩,
   ⟨st 2 (cmdOf 0x0204 3 16 1 [4, 0, 0xFF, 0x0F]), 0, cmdOf 0x0204 3 16 1 [4, 0, 0xFF, 0x0F], (([1, 2] : List Nat).filter (fun die => bitOf ((cmdOf 0x0204 3 16 1 [4, 0, 0xFF, 0x0F]) : Cmd).target (die - 1))).foldl (Dev.policerSetOn ((st 2 (cmdOf 0x0204 3 16 1 [4, 0, 0xFF, 0x0F])) : State).host ((cmdOf 0x0204 3 16 1 [4, 0, 0xFF, 0x0F]) : Cmd)) (((st 2 (cmdOf 0x0204 3 16 1 [4, 0, 0xFF, 0x0F])) : State).dev, { tryM := 0, okM := 0 }), rfl, by decide +kernel⟩,
   ⟨st 2 (cmdOf 0x0205 2 8 1 [0, 0]), 0, cmdOf 0x0205 2 8 1 [0, 0], 2, by decide +kernel⟩,
   ⟨{ dev := up }, 2, by decide +kernel⟩,
   ⟨{ dev := up }, 3, by decide +kernel⟩,
   ⟨{ dev := up }, 1, 0, by decide +kernel⟩,
   ⟨{ dev := { up with commits := [routeCommit] } }, 1, by decide +kernel⟩,
   ⟨{ dev := up }, 2, 15, (({ dev := up }) : State).dev.sequence ((2) : Nat) 5, rfl, by decide +kernel⟩,
   ⟨{ dev := { up with commits := [lineupCommit] } }, 1, lineupCommit, by decide +kernel⟩,
   ⟨{ dev := placing (fun r => { r with lineups := [{ port := 0, pending := some ({}, 0) }] }) }, 1, 0, (({ dev := placing (fun r => { r with lineups := [{ port := 0, pending := some ({}, 0) }] }) }) : State).dev.sequence ((1) : Nat) 5, rfl, by decide +kernel⟩,
   ⟨{ dev := placing (fun r => { r with queues := [fullQueue] }) }, 1, 26, {}, (({ dev := placing (fun r => { r with queues := [fullQueue] }) }) : State).dev.countGated ((1) : Nat) ((26) : Nat), fullQueue, samplePkt, [], rfl, by decide +kernel⟩,
   ⟨{ dev := up }, 1, 26, {}, (({ dev := up }) : State).dev.countGated ((1) : Nat) ((26) : Nat), rfl, by decide +kernel⟩,
   ⟨{ dev := up }, 2, 0, by decide +kernel⟩,
   ⟨{ dev := up }, 1, 0, {}, by decide +kernel⟩⟩

/-- States and operands that meet the hypotheses of `Obligations.EthernetRows`, one part for each clause with hypotheses of its own. -/
theorem witness_EthernetRows :
    (∃ (s : State) (port : Nat), (s.dev.ethUp port = true) ∧ (s.dev.g F.ETH.MODE_PCS 0 port ≠ 0) ∧ (bitOf (s.dev.g F.GWY.STANDBY_ETH_PORT) port = false)) ∧
    (∃ (s : State) (port : Nat), (s.dev.on F.ETH.STAT_LINK 0 port = false)) ∧
    (∃ (s : State) (port : Nat), (s.dev.ethUp port = true) ∧ (s.dev.on F.ETH.STAT_LINK 0 port = true)) ∧
    (∃ (s : State) (port : Nat), (s.dev.fcMay port = false ∨ (s.dev.ethP port).xoff = true ∨ s.dev.wiredLane port < s.dev.g F.ETH.FC_THR_XOFF 0 port)) ∧
    (∃ (s : State) (port : Nat), ((s.dev.ethP port).tx.all (fun p => !s.dev.mayRadiate || s.dev.act == mQuiesce || bitOf (s.dev.g F.ETH.STAT_PAUSED 0 port) p.cls) = true)) ∧
    (∃ (s : State) (port : Nat) (frame : (List Byte)) (n : Nat), (s.dev.ethUp port = true) ∧ (s.dev.on F.ETH.STAT_LINK 0 port = true) ∧ (n = frame.length) ∧ (64 ≤ n) ∧ (n ≤ s.dev.g F.ETH.MAC_CFG_MAXLEN 0 port) ∧ (leAt frame (n - 4) 4 = crc32eth (frame.take (n - 4)))) ∧
    (∃ (s : State) (port : Nat) (frame : (List Byte)) (codeErr : Bool) (n : Nat) (fcs : Bool), (fcs = (decide (4 ≤ n)&&leAt frame (n - 4) 4 == crc32eth (frame.take (n - 4)))) ∧ (s.dev.ethUp port = true) ∧ (s.dev.on F.ETH.STAT_LINK 0 port = true) ∧ (n = frame.length) ∧ ((codeErr = true ∨ fcs = false ∨ n < 64 ∨ s.dev.g F.ETH.MAC_CFG_MAXLEN 0 port < n))) ∧
    (∃ (s : State) (port : Nat) (p : Pkt) (b : (List Byte)) (d1 : Dev), (d1 = ((((s.dev.setEth port (fun e => { e with tx := none, wire := some (b ++ toLE 4 (crc32eth b)), wireEnd := s.dev.wireTime port (b ++ toLE 4 (crc32eth b)).length })).emit (.ethFrame port (b ++ toLE 4 (crc32eth b)))).when (decide (p.data.length < 60)) (fun d => d.inc C.ETH.TX_PADDED 0 port)).inc C.ETH.TX_FRAMES 0 port).addc C.ETH.TX_OCTETS (b ++ toLE 4 (crc32eth b)).length 0 port) ∧ ((s.dev.ethP port).tx = some p) ∧ (s.dev.ethUp port = true) ∧ (s.dev.on F.ETH.STAT_LINK 0 port = true) ∧ (s.dev.mayRadiate = true) ∧ (s.dev.act ≠ mQuiesce) ∧ (bitOf (s.dev.g F.ETH.STAT_PAUSED 0 port) p.cls = false) ∧ (b = (if p.data.length < 60 then padTo 60 p.data else p.data))) ∧
    (∃ (s : State) (port : Nat) (step : Nat), (step = s.dev.g F.ETH.TX_STEP_STEP 0 port) ∧ (s.dev.ethUp port = true) ∧ (s.dev.onWire port ≠ none) ∧ (step ≠ 7)) ∧
    (∃ (s : State) (port : Nat), (s.dev.ethUp port = true)) ∧
    (∃ (s : State) (port : Nat) (cls : Nat), (s.dev.ethUp port = true) ∧ (cls < 8)) ∧
    (∃ (s : State) (port : Nat), (s.dev.fcMay port = true) ∧ ((s.dev.ethP port).xoff = false) ∧ (s.dev.g F.ETH.FC_THR_XOFF 0 port ≤ s.dev.wiredLane port)) ∧
    (∃ (s : State) (port : Nat), (s.dev.fcMay port = true) ∧ ((s.dev.ethP port).xoff = true) ∧ (s.dev.g F.ETH.FC_THR_XON 0 port < s.dev.wiredLane port)) ∧
    (∃ (s : State) (port : Nat), (s.dev.fcMay port = true) ∧ ((s.dev.ethP port).xoff = true) ∧ (s.dev.wiredLane port ≤ s.dev.g F.ETH.FC_THR_XON 0 port)) ∧
    (∃ (s : State) (port : Nat), (s.dev.ethUp port = false)) ∧
    (∃ (s : State) (port : Nat), (s.dev.onWire port = none ∨ s.dev.g F.ETH.TX_STEP_STEP 0 port = 7)) ∧
    (∃ (s : State) (port : Nat), (s.dev.g F.ETH.MODE_PCS 0 port = 0 ∨ bitOf (s.dev.g F.GWY.STANDBY_ETH_PORT) port = true)) ∧
    (∃ (cls : Nat), (8 ≤ cls)) ∧
    (∃ (s : State) (port : Nat), (s.dev.fcMay port = false ∨ (s.dev.ethP port).xoff = false)) ∧
    (∃ (s : State) (port : Nat) (p : Page), (Writable s.dev 0 (0x010 + port) p) ∧ (p.tag = .ETH)) ∧
    (∃ (s : State) (data : Nat) (p : Page), (Writable s.dev 0 0x010 p) ∧ (s.dev.on F.ETH.MDIO_CMD_BUSY = false) ∧ ((bitOf data 28 = true ∨ bitsOf data 26 2 = 1 ∨ bitsOf data 26 2 = 2)) ∧ (bitOf data 30 = true)) ∧
    (∃ (s : State) (data : Nat) (p : Page), (Writable s.dev 0 0x010 p) ∧ (s.dev.on F.ETH.MDIO_CMD_BUSY = false) ∧ ((bitOf data 28 = true ∨ bitsOf data 26 2 = 1 ∨ bitsOf data 26 2 = 2)) ∧ (bitOf data 30 = false)) ∧
    (∃ (s : State) (data : Nat) (p : Page), (Writable s.dev 0 0x010 p) ∧ ((s.dev.on F.ETH.MDIO_CMD_BUSY = true ∨ (bitOf data 28 = false ∧ (bitsOf data 26 2 = 0 ∨ bitsOf data 26 2 = 3))))) ∧
    (∃ (s : State), (s.dev.on F.ETH.MDIO_CMD_BUSY = false)) ∧
    (∃ (s : State), (s.dev.on F.ETH.MDIO_CMD_BUSY = true)) :=
  ⟨⟨{ dev := ethOn }, 15, by decide +kernel⟩,
   ⟨{ dev := up }, 15, by decide +kernel⟩,
   ⟨{ dev := ethOn }, 15, by decide +kernel⟩,
   ⟨{ dev := up }, 15, by decide +kernel⟩,
   ⟨{ dev := ethOn }, 15, by decide +kernel⟩,
   ⟨{ dev := ethOn }, 15, minFrame, 64, by decide +kernel⟩,
   ⟨{ dev := ethOn }, 15, List.replicate 64 1#8, false, 64, (decide (4 ≤ ((64) : Nat))&&leAt ((List.replicate 64 1#8) : (List Byte)) (((64) : Nat) - 4) 4 == crc32eth (((List.replicate 64 1#8) : (List Byte)).take (((64) : Nat) - 4))), rfl, by decide +kernel⟩,
   ⟨{ dev := ethOn.setEth 15 (fun e => { e with tx := some samplePkt }) }, 15, samplePkt, padTo 60 [], (((((({ dev := ethOn.setEth 15 (fun e => { e with tx := some samplePkt }) }) : State).dev.setEth ((15) : Nat) (fun e => { e with tx := none, wire := some (((padTo 60 []) : (List Byte)) ++ toLE 4 (crc32eth ((padTo 60 []) : (List Byte)))), wireEnd := (({ dev := ethOn.setEth 15 (fun e => { e with tx := some samplePkt }) }) : State).dev.wireTime ((15) : Nat) (((padTo 60 []) : (List Byte)) ++ toLE 4 (crc32eth ((padTo 60 []) : (List Byte)))).length })).emit (.ethFrame ((15) : Nat) (((padTo 60 []) : (List Byte)) ++ toLE 4 (crc32eth ((padTo 60 []) : (List Byte)))))).when (decide (((samplePkt) : Pkt).data.length < 60)) (fun d => d.inc C.ETH.TX_PADDED 0 ((15) : Nat))).inc C.ETH.TX_FRAMES 0 ((15) : Nat)).addc C.ETH.TX_OCTETS (((padTo 60 []) : (List Byte)) ++ toLE 4 (crc32eth ((padTo 60 []) : (List Byte)))).length 0 ((15) : Nat), rfl, by decide +kernel⟩,
   ⟨{ dev := ethOn.setEth 15 (fun e => { e with wire := some [], wireEnd := 1000 }) }, 15, 2, by decide +kernel⟩,
   ⟨{ dev := ethOn }, 0, by decide +kernel⟩,
   ⟨{ dev := ethOn }, 15, 7, by decide +kernel⟩,
   ⟨{ dev := ethOn.w F.ETH.FC_THR_XOFF 0 0 15 }, 15, by decide +kernel⟩,
   ⟨{ dev := (((ethOn.w F.ETH.FC_THR_XON 0 0 15).setEth 15 (fun e => { e with xoff := true })).setRoute 2 (fun r => { r with wired := [.eth sampleFwd], bufs := [⟨1, 1, 1, 1⟩] })) }, 15, by decide +kernel⟩,
   ⟨{ dev := ethOn.setEth 15 (fun e => { e with xoff := true }) }, 15, by decide +kernel⟩,
   ⟨{ dev := ethOn }, 16, by decide +kernel⟩,
   ⟨{ dev := ethOn }, 15, by decide +kernel⟩,
   ⟨{ dev := ethOn.w F.ETH.MODE_PCS 0 0 15 }, 15, by decide +kernel⟩,
   ⟨8, by decide +kernel⟩,
   ⟨{ dev := up }, 15, by decide +kernel⟩,
   ⟨{ dev := ethOn }, 15, ⟨.ETH, 0, 15⟩, by decide +kernel⟩,
   ⟨{ dev := up }, 0x44000000, ⟨.ETH, 0, 0⟩, by decide +kernel⟩,
   ⟨{ dev := up }, 0x04000000, ⟨.ETH, 0, 0⟩, by decide +kernel⟩,
   ⟨{ dev := up }, 0, ⟨.ETH, 0, 0⟩, by decide +kernel⟩,
   ⟨{ dev := up }, by decide +kernel⟩,
   ⟨{ dev := up.w F.ETH.MDIO_CMD_BUSY 1 }, by decide +kernel⟩⟩

/-- States and operands that meet the hypotheses of `Obligations.CanFramesAndQueues`, one part for each clause with hypotheses of its own. -/
theorem witness_CanFramesAndQueues :
    (∃ (s : State) (bus : Nat) (word : Nat) (p : Page), (Writable s.dev 0 (0x020 + bus) p) ∧ (p.tag = .CAN) ∧ (word < 20) ∧ (s.dev.txWritable p.inst (s.dev.g F.CAN.TX_SEL_IDX 0 p.inst) = false)) ∧
    (∃ (s : State) (bus : Nat) (data : Nat) (p : Page) (st : Nat), (Writable s.dev 0 (0x020 + bus) p) ∧ (p.tag = .CAN) ∧ (st = ((s.dev.canC p.inst).ent (data % 64)).st) ∧ (st ≠ 0) ∧ (st ≠ 1) ∧ (st ≠ 2) ∧ (st ≠ 8)) ∧
    (∃ (s : State) (bus : Nat), (s.dev.canHears bus = false)) ∧
    (∃ (s : State) (bus : Nat) (f : CanRx) (res : Bool), (s.dev.canHears bus = true) ∧ (f.fdf = true) ∧ ((res = true ∨ s.dev.on F.CAN.CTRL_FD_EN 0 bus = false))) ∧
    (∃ (s : State) (bus : Nat) (f : CanRx) (res : Bool) (i : Nat) (a : Nat) (n : Nat) (d1 : Dev) (x : CanFrame) (d2 : Dev), (d1 = (s.dev.inc C.CAN.RX_FRAMES 0 bus).canGood bus) ∧ (x = { id := f.id, ide := f.ide, fd := f.fdf, brs := f.brs, rtr := f.rtr, data := f.data.take 64, src := bus, time := d1.evTime, esi := f.esi, dlc := f.dlc, filt := n }) ∧ (d2 = d1.toHp bus (x.entry d1.time.lt 64)) ∧ (s.dev.canHears bus = true) ∧ ((f.fdf = false ∨ (res = false ∧ s.dev.on F.CAN.CTRL_FD_EN 0 bus = true))) ∧ (d1.act ≠ mQuiesce) ∧ (d1.canFilter bus f = (some i, a, n))) ∧
    (∃ (s : State) (bus : Nat) (f : CanRx) (res : Bool) (a : Nat) (n : Nat) (d1 : Dev) (x : CanFrame) (d2 : Dev), (d1 = (s.dev.inc C.CAN.RX_FRAMES 0 bus).canGood bus) ∧ (x = { id := f.id, ide := f.ide, fd := f.fdf, brs := f.brs, rtr := f.rtr, data := f.data.take 64, src := bus, time := d1.evTime, esi := f.esi, dlc := f.dlc, filt := n }) ∧ (d2 = (if a % 2 = 1 then d1.toRxq bus (x.entry d1.time.lt 64) else d1)) ∧ (s.dev.canHears bus = true) ∧ ((f.fdf = false ∨ (res = false ∧ s.dev.on F.CAN.CTRL_FD_EN 0 bus = true))) ∧ (d1.act ≠ mQuiesce) ∧ (d1.canFilter bus f = (none, a, n))) ∧
    (∃ (s : State) (bus : Nat) (f : CanRx) (res : Bool) (d1 : Dev), (d1 = (s.dev.inc C.CAN.RX_FRAMES 0 bus).canGood bus) ∧ (s.dev.canHears bus = true) ∧ ((f.fdf = false ∨ (res = false ∧ s.dev.on F.CAN.CTRL_FD_EN 0 bus = true))) ∧ (d1.act = mQuiesce)) ∧
    (∃ (s : State) (f : CanFrame) (rest : (List WiredIn)) (d1 : Dev), (d1 = ((s.dev.setRoute 1 (fun r => { r with wired := rest })).place 1 1 2).journal 1 2 0 f.time (.wired (.can f))) ∧ ((s.dev.route 1).wired = .can f :: rest) ∧ (s.dev.mayPlace 1 1 = true)) ∧
    ((∃ s : State, ∀ f, (s.dev.route 1).wired.head? ≠ some (.can f))) ∧
    (∃ (s : State) (bus : Nat) (p : Page), (Writable s.dev 0 (0x020 + bus) p) ∧ (p.tag = .CAN)) ∧
    (∃ (s : State) (bus : Nat) (word : Nat) (p : Page) (i : Nat), (i = s.dev.g F.CAN.TX_SEL_IDX 0 p.inst) ∧ (Writable s.dev 0 (0x020 + bus) p) ∧ (p.tag = .CAN) ∧ (word < 20) ∧ (s.dev.txWritable p.inst i = true)) ∧
    (∃ (s : State) (bus : Nat) (data : Nat) (p : Page), (Writable s.dev 0 (0x020 + bus) p) ∧ (p.tag = .CAN) ∧ (s.dev.txWritable p.inst (data % 64) = false)) ∧
    (∃ (s : State) (bus : Nat) (data : Nat) (p : Page), (Writable s.dev 0 (0x020 + bus) p) ∧ (p.tag = .CAN) ∧ (s.dev.txWritable p.inst (data % 64) = true)) ∧
    (∃ (s : State) (bus : Nat) (data : Nat) (p : Page) (st : Nat), (Writable s.dev 0 (0x020 + bus) p) ∧ (p.tag = .CAN) ∧ (st = ((s.dev.canC p.inst).ent (data % 64)).st) ∧ ((st = 0 ∨ st = 1 ∨ st = 2 ∨ st = 8))) ∧
    (∃ (s : State) (bus : Nat) (data : Nat) (p : Page) (st : Nat), (Writable s.dev 0 (0x020 + bus) p) ∧ (p.tag = .CAN) ∧ (st = ((s.dev.canC p.inst).ent (data % 64)).st) ∧ (st ≠ 1) ∧ (st ≠ 2) ∧ (st ≠ 8)) ∧
    (∃ (s : State) (bus : Nat) (data : Nat) (p : Page), (Writable s.dev 0 (0x020 + bus) p) ∧ (p.tag = .CAN) ∧ ((((s.dev.canC p.inst).ent (data % 64)).st = 1 ∨ ((s.dev.canC p.inst).ent (data % 64)).st = 8))) ∧
    (∃ (s : State) (bus : Nat) (data : Nat) (p : Page), (Writable s.dev 0 (0x020 + bus) p) ∧ (p.tag = .CAN) ∧ (((s.dev.canC p.inst).ent (data % 64)).st = 2)) ∧
    (∃ (s : State) (p : Page), (Writable s.dev 0 0x007 p)) :=
  ⟨⟨{ dev := onBus }, 31, 0, ⟨.CAN, 0, 31⟩, by decide +kernel⟩,
   ⟨{ dev := canEnt { idx := 63, st := 3 } }, 31, 63, ⟨.CAN, 0, 31⟩, 3, by decide +kernel⟩,
   ⟨{ dev := up }, 31, by decide +kernel⟩,
   ⟨{ dev := onBus }, 31, { sampleCan with fdf := true }, true, by decide +kernel⟩,
   ⟨{ dev := (onBus.w F.CAN.HFILT_ID_EN 1 0 31 7).w F.CAN.HFILT_ID_ID 5 0 31 7 }, 31, sampleCan, false, 7, 0, 135, ((({ dev := (onBus.w F.CAN.HFILT_ID_EN 1 0 31 7).w F.CAN.HFILT_ID_ID 5 0 31 7 }) : State).dev.inc C.CAN.RX_FRAMES 0 ((31) : Nat)).canGood ((31) : Nat), { id := ((sampleCan) : CanRx).id, ide := ((sampleCan) : CanRx).ide, fd := ((sampleCan) : CanRx).fdf, brs := ((sampleCan) : CanRx).brs, rtr := ((sampleCan) : CanRx).rtr, data := ((sampleCan) : CanRx).data.take 64, src := ((31) : Nat), time := ((((({ dev := (onBus.w F.CAN.HFILT_ID_EN 1 0 31 7).w F.CAN.HFILT_ID_ID 5 0 31 7 }) : State).dev.inc C.CAN.RX_FRAMES 0 ((31) : Nat)).canGood ((31) : Nat)) : Dev).evTime, esi := ((sampleCan) : CanRx).esi, dlc := ((sampleCan) : CanRx).dlc, filt := ((135) : Nat) }, ((((({ dev := (onBus.w F.CAN.HFILT_ID_EN 1 0 31 7).w F.CAN.HFILT_ID_ID 5 0 31 7 }) : State).dev.inc C.CAN.RX_FRAMES 0 ((31) : Nat)).canGood ((31) : Nat)) : Dev).toHp ((31) : Nat) ((({ id := ((sampleCan) : CanRx).id, ide := ((sampleCan) : CanRx).ide, fd := ((sampleCan) : CanRx).fdf, brs := ((sampleCan) : CanRx).brs, rtr := ((sampleCan) : CanRx).rtr, data := ((sampleCan) : CanRx).data.take 64, src := ((31) : Nat), time := ((((({ dev := (onBus.w F.CAN.HFILT_ID_EN 1 0 31 7).w F.CAN.HFILT_ID_ID 5 0 31 7 }) : State).dev.inc C.CAN.RX_FRAMES 0 ((31) : Nat)).canGood ((31) : Nat)) : Dev).evTime, esi := ((sampleCan) : CanRx).esi, dlc := ((sampleCan) : CanRx).dlc, filt := ((135) : Nat) }) : CanFrame).entry ((((({ dev := (onBus.w F.CAN.HFILT_ID_EN 1 0 31 7).w F.CAN.HFILT_ID_ID 5 0 31 7 }) : State).dev.inc C.CAN.RX_FRAMES 0 ((31) : Nat)).canGood ((31) : Nat)) : Dev).time.lt 64), rfl, rfl, rfl, by decide +kernel⟩,
   ⟨{ dev := onBus }, 31, sampleCan, false, 0, 127, ((({ dev := onBus }) : State).dev.inc C.CAN.RX_FRAMES 0 ((31) : Nat)).canGood ((31) : Nat), { id := ((sampleCan) : CanRx).id, ide := ((sampleCan) : CanRx).ide, fd := ((sampleCan) : CanRx).fdf, brs := ((sampleCan) : CanRx).brs, rtr := ((sampleCan) : CanRx).rtr, data := ((sampleCan) : CanRx).data.take 64, src := ((31) : Nat), time := ((((({ dev := onBus }) : State).dev.inc C.CAN.RX_FRAMES 0 ((31) : Nat)).canGood ((31) : Nat)) : Dev).evTime, esi := ((sampleCan) : CanRx).esi, dlc := ((sampleCan) : CanRx).dlc, filt := ((127) : Nat) }, (if ((0) : Nat) % 2 = 1 then ((((({ dev := onBus }) : State).dev.inc C.CAN.RX_FRAMES 0 ((31) : Nat)).canGood ((31) : Nat)) : Dev).toRxq ((31) : Nat) ((({ id := ((sampleCan) : CanRx).id, ide := ((sampleCan) : CanRx).ide, fd := ((sampleCan) : CanRx).fdf, brs := ((sampleCan) : CanRx).brs, rtr := ((sampleCan) : CanRx).rtr, data := ((sampleCan) : CanRx).data.take 64, src := ((31) : Nat), time := ((((({ dev := onBus }) : State).dev.inc C.CAN.RX_FRAMES 0 ((31) : Nat)).canGood ((31) : Nat)) : Dev).evTime, esi := ((sampleCan) : CanRx).esi, dlc := ((sampleCan) : CanRx).dlc, filt := ((127) : Nat) }) : CanFrame).entry ((((({ dev := onBus }) : State).dev.inc C.CAN.RX_FRAMES 0 ((31) : Nat)).canGood ((31) : Nat)) : Dev).time.lt 64) else ((((({ dev := onBus }) : State).dev.inc C.CAN.RX_FRAMES 0 ((31) : Nat)).canGood ((31) : Nat)) : Dev)), rfl, rfl, rfl, by decide +kernel⟩,
   ⟨{ dev := (inMode 5).setCan 31 (fun c => { c with op := 1 }) }, 31, sampleCan, false, ((({ dev := (inMode 5).setCan 31 (fun c => { c with op := 1 }) }) : State).dev.inc C.CAN.RX_FRAMES 0 ((31) : Nat)).canGood ((31) : Nat), rfl, by decide +kernel⟩,
   ⟨{ dev := placing (fun r => { r with wired := [.can (sampleCf 31)] }) }, sampleCf 31, [], (((({ dev := placing (fun r => { r with wired := [.can (sampleCf 31)] }) }) : State).dev.setRoute 1 (fun r => { r with wired := (([]) : (List WiredIn)) })).place 1 1 2).journal 1 2 0 ((sampleCf 31) : CanFrame).time (.wired (.can ((sampleCf 31) : CanFrame))), rfl, by decide +kernel⟩,
   ⟨{ dev := up }, by intro f h; rw [show (Dev.route up 1).wired.head? = none by decide +kernel] at h; cases h⟩,
   ⟨{ dev := onBus.setCan 31 (fun c => { c with rxq := [[]] }) }, 31, ⟨.CAN, 0, 31⟩, by decide +kernel⟩,
   ⟨{ dev := onBus.w F.CAN.TX_SEL_IDX 63 0 31 }, 31, 19, ⟨.CAN, 0, 31⟩, (({ dev := onBus.w F.CAN.TX_SEL_IDX 63 0 31 }) : State).dev.g F.CAN.TX_SEL_IDX 0 ((⟨.CAN, 0, 31⟩) : Page).inst, rfl, by decide +kernel⟩,
   ⟨{ dev := onBus }, 31, 0, ⟨.CAN, 0, 31⟩, by decide +kernel⟩,
   ⟨{ dev := onBus }, 31, 63, ⟨.CAN, 0, 31⟩, by decide +kernel⟩,
   ⟨{ dev := canEnt { idx := 63, st := 2 } }, 31, 63, ⟨.CAN, 0, 31⟩, 2, by decide +kernel⟩,
   ⟨{ dev := canEnt { idx := 63, st := 3 } }, 31, 63, ⟨.CAN, 0, 31⟩, 3, by decide +kernel⟩,
   ⟨{ dev := canEnt { idx := 63, st := 8 } }, 31, 63, ⟨.CAN, 0, 31⟩, by decide +kernel⟩,
   ⟨{ dev := canEnt { idx := 63, st := 2 } }, 31, 63, ⟨.CAN, 0, 31⟩, by decide +kernel⟩,
   ⟨{ dev := up }, ⟨.GWY, 0, 0⟩, by decide +kernel⟩⟩

/-- States and operands that meet the hypotheses of `Obligations.CanAttempts`, one part for each clause with hypotheses of its own. -/
theorem witness_CanAttempts :
    (∃ (s : State) (bus : Nat), (s.dev.canMode bus ≠ 1 ∨ 2 ≤ s.dev.g F.CAN.STAT_STATE 0 bus ∨ s.dev.mayRadiate = false ∨ (s.dev.canC bus).tx.any (fun x => x.st == 2) = true ∨ s.dev.contenders bus = [])) ∧
    (∃ (s : State) (bus : Nat), (s.dev.canUp bus = false ∨ s.dev.g F.CAN.STAT_STATE 0 bus ≠ 3)) ∧
    (∃ (s : State) (bus : Nat), (s.dev.canActive bus = none)) ∧
    (∃ (s : State) (bus : Nat) (idx : Nat), (s.dev.canUp bus = false ∨ ((s.dev.canC bus).ent idx).tat = false ∨ (((s.dev.canC bus).ent idx).st ≠ 1 ∧ ((s.dev.canC bus).ent idx).st ≠ 2 ∧ ((s.dev.canC bus).ent idx).st ≠ 8))) ∧
    (∃ (s : State) (bus : Nat), (s.dev.canHears bus = true)) ∧
    (∃ (s : State) (bus : Nat) (x : CanTx), (s.dev.canMode bus = 1) ∧ (s.dev.g F.CAN.STAT_STATE 0 bus < 2) ∧ (s.dev.mayRadiate = true) ∧ ((s.dev.canC bus).tx.any (fun x => x.st == 2) = false) ∧ ((s.dev.contenders bus).foldl (fun (b : Option CanTx) x => some (b.elim x (fun y => if x.before y then x else y))) none = some x)) ∧
    (∃ (s : State) (bus : Nat) (x : CanTx) (tdcv : Nat) (d1 : Dev) (d2 : Dev), (d1 = (if x.brs = true ∧ s.dev.on F.CAN.TDC_CFG_EN 0 bus = true ∧ s.dev.g F.CAN.TDC_CFG_TDCF 0 bus ≤ tdcv then s.dev.w F.CAN.STAT_TDCV tdcv 0 bus else s.dev)) ∧ (d2 = (d1.emit (.canFrame bus x.bytes)).w F.CAN.STAT_LEC 0 0 bus) ∧ (s.dev.canActive bus = some x)) ∧
    (∃ (s : State) (bus : Nat) (x : CanTx) (tdcv : Nat) (d1 : Dev), (d1 = (if x.brs = true ∧ s.dev.on F.CAN.TDC_CFG_EN 0 bus = true ∧ s.dev.g F.CAN.TDC_CFG_TDCF 0 bus ≤ tdcv then s.dev.w F.CAN.STAT_TDCV tdcv 0 bus else s.dev)) ∧ (s.dev.canActive bus = some x)) ∧
    (∃ (s : State) (bus : Nat) (x : CanTx) (tdcv : Nat) (lec : Nat) (counts : Bool) (d1 : Dev) (d2 : Dev) (d3 : Dev), (d1 = (if x.brs = true ∧ s.dev.on F.CAN.TDC_CFG_EN 0 bus = true ∧ s.dev.g F.CAN.TDC_CFG_TDCF 0 bus ≤ tdcv then s.dev.w F.CAN.STAT_TDCV tdcv 0 bus else s.dev)) ∧ (d2 = d1.w F.CAN.STAT_LEC lec 0 bus) ∧ (d3 = (if counts = true then d2.canErr bus 8 0 else d2)) ∧ (s.dev.canActive bus = some x)) ∧
    (∃ (s : State) (bus : Nat) (idx : Nat), (((s.dev.canC bus).ent idx).st ≠ 1 ∨ ((s.dev.canC bus).ent idx).ready = true)) ∧
    (∃ (s : State) (bus : Nat) (idx : Nat), (s.dev.canUp bus = true) ∧ (((s.dev.canC bus).ent idx).tat = true) ∧ ((((s.dev.canC bus).ent idx).st = 1 ∨ ((s.dev.canC bus).ent idx).st = 8))) ∧
    (∃ (s : State) (bus : Nat) (idx : Nat), (s.dev.canUp bus = true) ∧ (((s.dev.canC bus).ent idx).tat = true) ∧ (((s.dev.canC bus).ent idx).st = 2)) ∧
    (∃ (s : State) (bus : Nat) (idx : Nat), (s.dev.canUp bus = true) ∧ (((s.dev.canC bus).ent idx).tat = true) ∧ (((s.dev.canC bus).ent idx).st = 1) ∧ (((s.dev.canC bus).ent idx).ready = false)) ∧
    (∃ (s : State) (bus : Nat) (data : Nat) (p : Page), (Writable s.dev 0 (0x020 + bus) p) ∧ (p.tag = .CAN) ∧ (bitOf data 0 = true)) ∧
    (∃ (s : State) (bus : Nat) (d1 : Dev), (d1 = ((s.dev.w F.CAN.STAT_STATE 0 0 bus).w F.CAN.ERRCNT_TEC 0 0 bus).w F.CAN.ERRCNT_REC 0 0 bus) ∧ (s.dev.canUp bus = true) ∧ (s.dev.g F.CAN.STAT_STATE 0 bus = 3)) ∧
    (∃ (s : State) (bus : Nat) (data : Nat) (p : Page), (Writable s.dev 0 (0x020 + bus) p) ∧ (bitOf data 0 = false)) ∧
    (∃ (s : State) (bus : Nat) (lec : Nat) (d1 : Dev), (d1 = s.dev.w F.CAN.STAT_LEC lec 0 bus) ∧ (s.dev.canHears bus = true)) ∧
    (∃ (s : State) (bus : Nat), (s.dev.canHears bus = false)) ∧
    (∃ (s : State) (bus : Nat) (p : Page), (Writable s.dev 0 (0x020 + bus) p) ∧ (p.tag = .CAN)) ∧
    (∃ (s : State) (bus : Nat), (s.dev.canUp bus = true) ∧ (s.dev.canActive bus = none)) ∧
    (∃ (s : State) (bus : Nat), (s.dev.canUp bus = false ∨ s.dev.canActive bus ≠ none)) :=
  ⟨⟨{ dev := up }, 31, by decide +kernel⟩,
   ⟨{ dev := onBus }, 31, by decide +kernel⟩,
   ⟨{ dev := up }, 31, by decide +kernel⟩,
   ⟨{ dev := up }, 31, 63, by decide +kernel⟩,
   ⟨{ dev := onBus }, 31, by decide +kernel⟩,
   ⟨{ dev := canEnt { idx := 63, st := 1 } }, 31, { idx := 63, st := 1 }, by decide +kernel⟩,
   ⟨{ dev := canEnt { idx := 63, st := 2 } }, 31, { idx := 63, st := 2 }, 0, (if (({ idx := 63, st := 2 }) : CanTx).brs = true ∧ (({ dev := canEnt { idx := 63, st := 2 } }) : State).dev.on F.CAN.TDC_CFG_EN 0 ((31) : Nat) = true ∧ (({ dev := canEnt { idx := 63, st := 2 } }) : State).dev.g F.CAN.TDC_CFG_TDCF 0 ((31) : Nat) ≤ ((0) : Nat) then (({ dev := canEnt { idx := 63, st := 2 } }) : State).dev.w F.CAN.STAT_TDCV ((0) : Nat) 0 ((31) : Nat) else (({ dev := canEnt { idx := 63, st := 2 } }) : State).dev), ((((if (({ idx := 63, st := 2 }) : CanTx).brs = true ∧ (({ dev := canEnt { idx := 63, st := 2 } }) : State).dev.on F.CAN.TDC_CFG_EN 0 ((31) : Nat) = true ∧ (({ dev := canEnt { idx := 63, st := 2 } }) : State).dev.g F.CAN.TDC_CFG_TDCF 0 ((31) : Nat) ≤ ((0) : Nat) then (({ dev := canEnt { idx := 63, st := 2 } }) : State).dev.w F.CAN.STAT_TDCV ((0) : Nat) 0 ((31) : Nat) else (({ dev := canEnt { idx := 63, st := 2 } }) : State).dev)) : Dev).emit (.canFrame ((31) : Nat) (({ idx := 63, st := 2 }) : CanTx).bytes)).w F.CAN.STAT_LEC 0 0 ((31) : Nat), rfl, rfl, by decide +kernel⟩,
   ⟨{ dev := canEnt { idx := 63, st := 2 } }, 31, { idx := 63, st := 2 }, 0, (if (({ idx := 63, st := 2 }) : CanTx).brs = true ∧ (({ dev := canEnt { idx := 63, st := 2 } }) : State).dev.on F.CAN.TDC_CFG_EN 0 ((31) : Nat) = true ∧ (({ dev := canEnt { idx := 63, st := 2 } }) : State).dev.g F.CAN.TDC_CFG_TDCF 0 ((31) : Nat) ≤ ((0) : Nat) then (({ dev := canEnt { idx := 63, st := 2 } }) : State).dev.w F.CAN.STAT_TDCV ((0) : Nat) 0 ((31) : Nat) else (({ dev := canEnt { idx := 63, st := 2 } }) : State).dev), rfl, by decide +kernel⟩,
   ⟨{ dev := canEnt { idx := 63, st := 2 } }, 31, { idx := 63, st := 2 }, 0, 1, true, (if (({ idx := 63, st := 2 }) : CanTx).brs = true ∧ (({ dev := canEnt { idx := 63, st := 2 } }) : State).dev.on F.CAN.TDC_CFG_EN 0 ((31) : Nat) = true ∧ (({ dev := canEnt { idx := 63, st := 2 } }) : State).dev.g F.CAN.TDC_CFG_TDCF 0 ((31) : Nat) ≤ ((0) : Nat) then (({ dev := canEnt { idx := 63, st := 2 } }) : State).dev.w F.CAN.STAT_TDCV ((0) : Nat) 0 ((31) : Nat) else (({ dev := canEnt { idx := 63, st := 2 } }) : State).dev), (((if (({ idx := 63, st := 2 }) : CanTx).brs = true ∧ (({ dev := canEnt { idx := 63, st := 2 } }) : State).dev.on F.CAN.TDC_CFG_EN 0 ((31) : Nat) = true ∧ (({ dev := canEnt { idx := 63, st := 2 } }) : State).dev.g F.CAN.TDC_CFG_TDCF 0 ((31) : Nat) ≤ ((0) : Nat) then (({ dev := canEnt { idx := 63, st := 2 } }) : State).dev.w F.CAN.STAT_TDCV ((0) : Nat) 0 ((31) : Nat) else (({ dev := canEnt { idx := 63, st := 2 } }) : State).dev)) : Dev).w F.CAN.STAT_LEC ((1) : Nat) 0 ((31) : Nat), (if ((true) : Bool) = true then (((((if (({ idx := 63, st := 2 }) : CanTx).brs = true ∧ (({ dev := canEnt { idx := 63, st := 2 } }) : State).dev.on F.CAN.TDC_CFG_EN 0 ((31) : Nat) = true ∧ (({ dev := canEnt { idx := 63, st := 2 } }) : State).dev.g F.CAN.TDC_CFG_TDCF 0 ((31) : Nat) ≤ ((0) : Nat) then (({ dev := canEnt { idx := 63, st := 2 } }) : State).dev.w F.CAN.STAT_TDCV ((0) : Nat) 0 ((31) : Nat) else (({ dev := canEnt { idx := 63, st := 2 } }) : State).dev)) : Dev).w F.CAN.STAT_LEC ((1) : Nat) 0 ((31) : Nat)) : Dev).canErr ((31) : Nat) 8 0 else (((((if (({ idx := 63, st := 2 }) : CanTx).brs = true ∧ (({ dev := canEnt { idx := 63, st := 2 } }) : State).dev.on F.CAN.TDC_CFG_EN 0 ((31) : Nat) = true ∧ (({ dev := canEnt { idx := 63, st := 2 } }) : State).dev.g F.CAN.TDC_CFG_TDCF 0 ((31) : Nat) ≤ ((0) : Nat) then (({ dev := canEnt { idx := 63, st := 2 } }) : State).dev.w F.CAN.STAT_TDCV ((0) : Nat) 0 ((31) : Nat) else (({ dev := canEnt { idx := 63, st := 2 } }) : State).dev)) : Dev).w F.CAN.STAT_LEC ((1) : Nat) 0 ((31) : Nat)) : Dev)), rfl, rfl, rfl, by decide +kernel⟩,
   ⟨{ dev := up }, 31, 63, by decide +kernel⟩,
   ⟨{ dev := canEnt timedEnt }, 31, 63, by decide +kernel⟩,
   ⟨{ dev := canEnt { timedEnt with st := 2 } }, 31, 63, by decide +kernel⟩,
   ⟨{ dev := canEnt { timedEnt with ready := false } }, 31, 63, by decide +kernel⟩,
   ⟨{ dev := up }, 31, 1, ⟨.CAN, 0, 31⟩, by decide +kernel⟩,
   ⟨{ dev := onBus.w F.CAN.STAT_STATE 3 0 31 }, 31, (((({ dev := onBus.w F.CAN.STAT_STATE 3 0 31 }) : State).dev.w F.CAN.STAT_STATE 0 0 ((31) : Nat)).w F.CAN.ERRCNT_TEC 0 0 ((31) : Nat)).w F.CAN.ERRCNT_REC 0 0 ((31) : Nat), rfl, by decide +kernel⟩,
   ⟨{ dev := up }, 31, 0, ⟨.CAN, 0, 31⟩, by decide +kernel⟩,
   ⟨{ dev := onBus }, 31, 1, (({ dev := onBus }) : State).dev.w F.CAN.STAT_LEC ((1) : Nat) 0 ((31) : Nat), rfl, by decide +kernel⟩,
   ⟨{ dev := up }, 31, by decide +kernel⟩,
   ⟨{ dev := up }, 31, ⟨.CAN, 0, 31⟩, by decide +kernel⟩,
   ⟨{ dev := onBus }, 31, by decide +kernel⟩,
   ⟨{ dev := canEnt { idx := 63, st := 2 } }, 31, by decide +kernel⟩⟩

/-- States and operands that meet the hypotheses of `Obligations.GatewayRows`, one part for each clause with hypotheses of its own. -/
theorem witness_GatewayRows :
    (∃ (s : State), (s.dev.gw.inq.head?.all (fun e => !s.dev.gwUp || s.dev.recordWaits 1 e.seq) = true)) ∧
    (∃ (s : State) (e : GwEv) (rest : (List GwEv)), (s.dev.gw.inq = e :: rest) ∧ (s.dev.gwUp = true) ∧ (s.dev.recordWaits 1 e.seq = false)) ∧
    (∃ (s : State), (s.dev.gw.pdus = [] ∨ s.dev.gwUp = false)) ∧
    (∃ (s : State) (p : Pkt) (rest : (List Pkt)) (d1 : Dev), (d1 = { s.dev with gw := { s.dev.gw with pdus := rest } }) ∧ (s.dev.gw.pdus = p :: rest) ∧ (s.dev.gwUp = true) ∧ (d1.acfPdu p.data = none)) ∧
    (∃ (s : State) (p : Pkt) (rest : (List Pkt)) (d1 : Dev) (m : (Nat×(List (Nat×CanFrame))×Nat)), (d1 = { s.dev with gw := { s.dev.gw with pdus := rest } }) ∧ (s.dev.gw.pdus = p :: rest) ∧ (s.dev.gwUp = true) ∧ (d1.acfPdu p.data = some m)) ∧
    (∃ (s : State) (id : Nat) (c : Cmd) (r : (Dev×Nat×Bool)), (r = applyRecs (fun d n b => if d.ruleBad b then none else some (d.setRule n b)) (c.recs s.host 48) (c.par 24 2) s.dev 0) ∧ (Ready s.dev 0x0501 id c (gwRange 48))) ∧
    (∃ (s : State) (id : Nat) (c : Cmd), (Ready s.dev 0x0502 id c (gwRange 48))) ∧
    (∃ (s : State) (id : Nat) (c : Cmd) (r : (Dev×Nat×Bool)), (r = applyRecs (fun d n b => some { d with gw := { d.gw with freshRx := kvSet 0 d.gw.freshRx n (leAt b 0 4), freshTx := kvSet 0 d.gw.freshTx n (leAt b 4 4) } }) (c.recs s.host 8) (c.par 24 2) s.dev 0) ∧ (Ready s.dev 0x0503 id c (gwRange 8))) ∧
    (∃ (s : State) (id : Nat) (c : Cmd), (Ready s.dev 0x0504 id c (gwRange 8))) ∧
    (∃ (s : State) (id : Nat) (c : Cmd), (Ready s.dev 0x0505 id c (fun _ c => if c.len != 80 * c.cnt || 256 < c.cnt then some 0 else none))) ∧
    (∃ (s : State) (id : Nat) (c : Cmd) (good : (List Nat)), (good = (bitList 32 (c.par 24 4)).filter (s.dev.busReady 0)) ∧ (Ready s.dev 0x0506 id c busRange) ∧ (c.par 28 1 = 0) ∧ (c.par 24 4 ≠ 0)) ∧
    (∃ (s : State) (id : Nat) (c : Cmd) (good : (List Nat)), (good = (bitList 32 (c.par 24 4)).filter (s.dev.busReady 1)) ∧ (Ready s.dev 0x0506 id c busRange) ∧ (c.par 28 1 = 1) ∧ (c.par 24 4 ≠ 0)) ∧
    (∃ (s : State) (id : Nat) (c : Cmd) (good : (List Nat)), (good = (bitList 32 (c.par 24 4)).filter (s.dev.busReady 2)) ∧ (Ready s.dev 0x0506 id c busRange) ∧ (c.par 28 1 = 2) ∧ (c.par 24 4 ≠ 0)) ∧
    (∃ (s : State) (id : Nat) (c : Cmd) (good : (List Nat)), (good = (bitList 32 (c.par 24 4)).filter (s.dev.busReady 3)) ∧ (Ready s.dev 0x0506 id c busRange) ∧ (c.par 28 1 = 3) ∧ (c.par 24 4 ≠ 0)) ∧
    (∃ (s : State) (id : Nat) (c : Cmd) (op : Nat), (s.dev.cmd id = some c) ∧ (c.par 28 1 = op) ∧ (op ≤ 3)) :=
  ⟨⟨{ dev := up }, by decide +kernel⟩,
   ⟨{ dev := { up with gw := { up.gw with inq := [sampleGw] } } }, sampleGw, [], by decide +kernel⟩,
   ⟨{ dev := up }, by decide +kernel⟩,
   ⟨{ dev := { up with gw := { up.gw with pdus := [samplePkt] } } }, samplePkt, [], { (({ dev := { up with gw := { up.gw with pdus := [samplePkt] } } }) : State).dev with gw := { (({ dev := { up with gw := { up.gw with pdus := [samplePkt] } } }) : State).dev.gw with pdus := (([]) : (List Pkt)) } }, rfl, by decide +kernel⟩,
   ⟨{ dev := acfUp }, acfPkt, [], { (({ dev := acfUp }) : State).dev with gw := { (({ dev := acfUp }) : State).dev.gw with pdus := (([]) : (List Pkt)) } }, (0, [], 0), rfl, by decide +kernel⟩,
   ⟨st 2 (cmdOf 0x0501 1 48 1 [0xFF, 0x0F]), 0, cmdOf 0x0501 1 48 1 [0xFF, 0x0F], applyRecs (fun d n b => if d.ruleBad b then none else some (d.setRule n b)) (((cmdOf 0x0501 1 48 1 [0xFF, 0x0F]) : Cmd).recs ((st 2 (cmdOf 0x0501 1 48 1 [0xFF, 0x0F])) : State).host 48) (((cmdOf 0x0501 1 48 1 [0xFF, 0x0F]) : Cmd).par 24 2) ((st 2 (cmdOf 0x0501 1 48 1 [0xFF, 0x0F])) : State).dev 0, rfl, by decide +kernel⟩,
   ⟨st 2 (cmdOf 0x0502 1 48 1 [0xFF, 0x0F]), 0, cmdOf 0x0502 1 48 1 [0xFF, 0x0F], by decide +kernel⟩,
   ⟨st 2 (cmdOf 0x0503 1 8 1 [0xFF, 0x0F]), 0, cmdOf 0x0503 1 8 1 [0xFF, 0x0F], applyRecs (fun d n b => some { d with gw := { d.gw with freshRx := kvSet 0 d.gw.freshRx n (leAt b 0 4), freshTx := kvSet 0 d.gw.freshTx n (leAt b 4 4) } }) (((cmdOf 0x0503 1 8 1 [0xFF, 0x0F]) : Cmd).recs ((st 2 (cmdOf 0x0503 1 8 1 [0xFF, 0x0F])) : State).host 8) (((cmdOf 0x0503 1 8 1 [0xFF, 0x0F]) : Cmd).par 24 2) ((st 2 (cmdOf 0x0503 1 8 1 [0xFF, 0x0F])) : State).dev 0, rfl, by decide +kernel⟩,
   ⟨st 2 (cmdOf 0x0504 1 8 1 [0xFF, 0x0F]), 0, cmdOf 0x0504 1 8 1 [0xFF, 0x0F], by decide +kernel⟩,
   ⟨st 2 (cmdOf 0x0505 1 80 1 []), 0, cmdOf 0x0505 1 80 1 [], by decide +kernel⟩,
   ⟨{ dev := flying (onBus.w F.CAN.CTRL_OPMODE 1 0 31) (cmdOf 0x0506 1 0 0 [0, 0, 0, 128, 0]) }, 0, cmdOf 0x0506 1 0 0 [0, 0, 0, 128, 0], (bitList 32 (((cmdOf 0x0506 1 0 0 [0, 0, 0, 128, 0]) : Cmd).par 24 4)).filter ((({ dev := flying (onBus.w F.CAN.CTRL_OPMODE 1 0 31) (cmdOf 0x0506 1 0 0 [0, 0, 0, 128, 0]) }) : State).dev.busReady 0), rfl, by decide +kernel⟩,
   ⟨{ dev := flying (onBus.w F.CAN.CTRL_OPMODE 1 0 31) (cmdOf 0x0506 1 0 0 [0, 0, 0, 128, 1]) }, 0, cmdOf 0x0506 1 0 0 [0, 0, 0, 128, 1], (bitList 32 (((cmdOf 0x0506 1 0 0 [0, 0, 0, 128, 1]) : Cmd).par 24 4)).filter ((({ dev := flying (onBus.w F.CAN.CTRL_OPMODE 1 0 31) (cmdOf 0x0506 1 0 0 [0, 0, 0, 128, 1]) }) : State).dev.busReady 1), rfl, by decide +kernel⟩,
   ⟨{ dev := flying (onBus.w F.CAN.CTRL_OPMODE 1 0 31) (cmdOf 0x0506 1 0 0 [0, 0, 0, 128, 2]) }, 0, cmdOf 0x0506 1 0 0 [0, 0, 0, 128, 2], (bitList 32 (((cmdOf 0x0506 1 0 0 [0, 0, 0, 128, 2]) : Cmd).par 24 4)).filter ((({ dev := flying (onBus.w F.CAN.CTRL_OPMODE 1 0 31) (cmdOf 0x0506 1 0 0 [0, 0, 0, 128, 2]) }) : State).dev.busReady 2), rfl, by decide +kernel⟩,
   ⟨{ dev := flying (onBus.w F.CAN.CTRL_OPMODE 1 0 31) (cmdOf 0x0506 1 0 0 [0, 0, 0, 128, 3]) }, 0, cmdOf 0x0506 1 0 0 [0, 0, 0, 128, 3], (bitList 32 (((cmdOf 0x0506 1 0 0 [0, 0, 0, 128, 3]) : Cmd).par 24 4)).filter ((({ dev := flying (onBus.w F.CAN.CTRL_OPMODE 1 0 31) (cmdOf 0x0506 1 0 0 [0, 0, 0, 128, 3]) }) : State).dev.busReady 3), rfl, by decide +kernel⟩,
   ⟨st 2 (cmdOf 0x0506 1 0 0 [0, 0, 0, 128, 1]), 0, cmdOf 0x0506 1 0 0 [0, 0, 0, 128, 1], 1, by decide +kernel⟩⟩

/-- States and operands that meet the hypotheses of `Obligations.LinkRows`, one part for each clause with hypotheses of its own. -/
theorem witness_LinkRows :
    (∃ (s : State) (link : Nat), (s.dev.vxlUp link = true) ∧ (s.dev.vxlState link = 3)) ∧
    (∃ (s : State) (link : Nat), (s.dev.vxlUp link = true) ∧ (s.dev.vxlState link = 1)) ∧
    (∃ (s : State) (link : Nat), (s.dev.vxlUp link = true)) ∧
    (∃ (s : State) (link : Nat), (s.dev.vxlUp link = true) ∧ (s.dev.vxlState link = 2)) ∧
    (∃ (s : State) (link : Nat), (s.dev.vxlUp link = true) ∧ ((s.dev.vxlState link = 2 ∨ s.dev.vxlState link = 3))) ∧
    (∃ (s : State) (link : Nat), (s.dev.vxlUp link = true) ∧ (s.dev.vxlState link = 5)) ∧
    (∃ (s : State) (link : Nat), (s.dev.vxlUp link = true) ∧ (s.dev.vxlState link = 4)) ∧
    (∃ (s : State) (link : Nat) (lane : Nat) (bad : (Option Nat)) (d1 : Dev), (d1 = (s.dev.wBit F.VXL.LANE_STAT_FAILED lane true 0 link).wBit F.VXL.LANE_STAT_LOCK lane false 0 link) ∧ (s.dev.vxlUp link = true) ∧ (s.dev.vxlState link = 4) ∧ (lane < 3) ∧ (s.dev.laneBad link bad = true) ∧ (bitOf (s.dev.g F.VXL.LANE_STAT_FAILED 0 link) lane = false)) ∧
    (∃ (s : State) (link : Nat) (lane : Nat) (bad : (Option Nat)), (s.dev.vxlState link ≠ 4 ∨ 3 ≤ lane ∨ s.dev.laneBad link bad = false ∨ bitOf (s.dev.g F.VXL.LANE_STAT_FAILED 0 link) lane = true)) ∧
    (∃ (s : State) (link : Nat), (s.dev.vxlUp link = false)) ∧
    (∃ (s : State) (link : Nat) (lane : Nat), (s.dev.vxlUp link = true) ∧ (s.dev.vxlState link = 4) ∧ (lane < 2) ∧ ((s.dev.vxlL link).swap = some lane)) ∧
    (∃ (s : State) (link : Nat) (lane : Nat) (d1 : Dev), (d1 = s.dev.emit (.vxlSet link 0xB lane)) ∧ (s.dev.vxlUp link = true) ∧ (s.dev.vxlState link = 4) ∧ (lane < 2) ∧ ((s.dev.vxlL link).swap ≠ some lane) ∧ (bitOf (s.dev.g F.VXL.LANE_STAT_FAILED 0 link) lane = false)) ∧
    (∃ (s : State) (link : Nat) (lane : Nat), (s.dev.vxlUp link = false ∨ s.dev.vxlState link ≠ 4 ∨ 2 ≤ lane ∨ ((s.dev.vxlL link).swap ≠ some lane ∧ bitOf (s.dev.g F.VXL.LANE_STAT_FAILED 0 link) lane = true))) ∧
    (∃ (s : State) (link : Nat) (frame : (List Byte)) (codeErr : Bool) (k : Ctr), (s.dev.vxlUp link = true) ∧ (2 ≤ s.dev.vxlState link) ∧ (s.dev.vxlState link ≠ 5) ∧ (s.dev.fabCheck link frame codeErr = some k)) ∧
    (∃ (s : State) (link : Nat) (frame : (List Byte)) (body : (List Byte)), (s.dev.vxlUp link = true) ∧ (s.dev.vxlState link = 4) ∧ (s.dev.fabCheck link frame false = none) ∧ (fabType frame ≠ 2) ∧ (fabType frame ≠ 3) ∧ (s.dev.act ≠ mQuiesce) ∧ (s.dev.act ≠ mShadow) ∧ (s.dev.hasId = true) ∧ (body = frame.take (frame.length - 4))) ∧
    (∃ (s : State) (link : Nat), (s.dev.vxlState link < 2 ∨ s.dev.vxlState link = 5)) ∧
    (∃ (s : State) (link : Nat) (cls : Nat), (s.dev.vxlUp link = true) ∧ (cls < 8)) ∧
    (∃ (s : State) (link : Nat), (s.dev.vxlFcMay link = true) ∧ ((s.dev.vxlL link).xoff = false) ∧ (s.dev.g F.VXL.FC_THR_XOFF 0 link ≤ s.dev.wiredLane (16 + link))) ∧
    (∃ (s : State) (link : Nat), (s.dev.vxlFcMay link = true) ∧ ((s.dev.vxlL link).xoff = true) ∧ (s.dev.g F.VXL.FC_THR_XON 0 link < s.dev.wiredLane (16 + link))) ∧
    (∃ (s : State) (link : Nat), (s.dev.vxlFcMay link = true) ∧ ((s.dev.vxlL link).xoff = true) ∧ (s.dev.wiredLane (16 + link) ≤ s.dev.g F.VXL.FC_THR_XON 0 link)) :=
  ⟨⟨{ dev := linkIn 3 }, 7, by decide +kernel⟩,
   ⟨{ dev := linkIn 1 }, 7, by decide +kernel⟩,
   ⟨{ dev := linkIn 3 }, 7, by decide +kernel⟩,
   ⟨{ dev := linkIn 2 }, 7, by decide +kernel⟩,
   ⟨{ dev := linkIn 3 }, 7, by decide +kernel⟩,
   ⟨{ dev := linkIn 5 }, 7, by decide +kernel⟩,
   ⟨{ dev := linkIn 4 }, 7, by decide +kernel⟩,
   ⟨{ dev := linkIn 4 }, 7, 1, none, ((({ dev := linkIn 4 }) : State).dev.wBit F.VXL.LANE_STAT_FAILED ((1) : Nat) true 0 ((7) : Nat)).wBit F.VXL.LANE_STAT_LOCK ((1) : Nat) false 0 ((7) : Nat), rfl, by decide +kernel⟩,
   ⟨{ dev := linkIn 4 }, 7, 1, some 0, by decide +kernel⟩,
   ⟨{ dev := up }, 7, by decide +kernel⟩,
   ⟨{ dev := (linkIn 4).setVxl 7 (fun x => { x with swap := some 1 }) }, 7, 1, by decide +kernel⟩,
   ⟨{ dev := linkIn 4 }, 7, 1, (({ dev := linkIn 4 }) : State).dev.emit (.vxlSet ((7) : Nat) 0xB ((1) : Nat)), rfl, by decide +kernel⟩,
   ⟨{ dev := linkIn 4 }, 7, 2, by decide +kernel⟩,
   ⟨{ dev := linkIn 4 }, 7, [], false, C.VXL.RX_CODE_ERR, by decide +kernel⟩,
   ⟨{ dev := { linkIn 4 with hud := { up.hud with on := true, id := 0 } } }, 7, fabFrame, fabFrame.take 17, by decide +kernel⟩,
   ⟨{ dev := linkIn 1 }, 7, by decide +kernel⟩,
   ⟨{ dev := linkIn 4 }, 7, 7, by decide +kernel⟩,
   ⟨{ dev := (linkIn 4).w F.VXL.FC_THR_XOFF 0 0 7 }, 7, by decide +kernel⟩,
   ⟨{ dev := (((linkIn 4).w F.VXL.FC_THR_XON 0 0 7).setVxl 7 (fun x => { x with xoff := true })).setRoute 2 (fun r => { r with wired := [.eth sampleFwd] }) }, 7, by decide +kernel⟩,
   ⟨{ dev := (linkIn 4).setVxl 7 (fun x => { x with xoff := true }) }, 7, by decide +kernel⟩⟩

/-- States and operands that meet the hypotheses of `Obligations.HuddleRows`, one part for each clause with hypotheses of its own. -/
theorem witness_HuddleRows :
    (∃ (s : State), (s.dev.hud.on = false ∨ s.dev.mayRadiate = false)) ∧
    (∃ (s : State) (link : Nat) (msg : (List Byte)), (s.dev.vxlUp link = true) ∧ (s.dev.vxlState link = 4) ∧ (s.dev.hud.on = true) ∧ (leAt msg 0 1 = 1)) ∧
    (∃ (s : State), (s.dev.hud.on = false ∨ s.dev.hud.id = 255 ∨ s.dev.others.any (fun r => r.id == s.dev.hud.id) = true ∨ s.dev.on F.HUD.STAT_SETTLED = true)) ∧
    (∃ (s : State) (link : Nat) (msg : (List Byte)), (s.dev.vxlUp link = false ∨ s.dev.vxlState link ≠ 4 ∨ s.dev.hud.on = false ∨ leAt msg 0 1 ≠ 1)) ∧
    (∃ (s : State) (eui : Nat), (eui = s.dev.hudEui ∨ s.dev.hud.lsas.any (fun (r : LsaRec) => r.eui == eui) = false)) ∧
    (∃ (s : State), (s.dev.on F.HUD.STAT_SETTLED = false ∨ s.dev.hasId = false)) ∧
    (∃ (s : State) (d1 : Dev), (d1 = (s.dev.w F.HUD.SEQ_N ((s.dev.g F.HUD.SEQ_N + 1) % 2 ^ 32)).inc C.HUD.LSA_TX) ∧ (s.dev.hud.on = true) ∧ (s.dev.mayRadiate = true)) ∧
    (∃ (s : State) (eui : Nat) (d1 : Dev), (d1 = { s.dev with hud := { s.dev.hud with lsas := s.dev.hud.lsas.filter (fun (r : LsaRec) => r.eui != eui) } }.w F.HUD.STAT_DEVICES (s.dev.hud.lsas.filter (fun (r : LsaRec) => r.eui != eui)).length) ∧ (eui ≠ s.dev.hudEui) ∧ (s.dev.hud.lsas.any (fun (r : LsaRec) => r.eui == eui) = true)) ∧
    (∃ (s : State), (s.dev.hud.on = true) ∧ (s.dev.hud.id ≠ 255) ∧ (s.dev.others.any (fun r => r.id == s.dev.hud.id) = false) ∧ (s.dev.on F.HUD.STAT_SETTLED = false) ∧ (((s.dev.setSettled true).originate).mt.held.find? (fun r => r.act == 6) = none)) ∧
    (∃ (s : State) (d1 : Dev) (r : TokenReq) (d2 : Dev), (d1 = (s.dev.setSettled true).originate) ∧ (d2 = (d1.w F.HUD.STAT_REHUDDLE 0).releaseToken 6 r.scope) ∧ (s.dev.hud.on = true) ∧ (s.dev.hud.id ≠ 255) ∧ (s.dev.others.any (fun r => r.id == s.dev.hud.id) = false) ∧ (s.dev.on F.HUD.STAT_SETTLED = false) ∧ (d1.mt.held.find? (fun r => r.act == 6) = some r)) ∧
    ((∃ s : State, s.dev.on F.HUD.STAT_SETTLED = true ∧ s.dev.hasId = true)) ∧
    ((∃ (s : State) (c : Cmd) (g : FwdEnt), Ready s.dev 0x0601 0 c (fun d c => if c.len == 0 || 9216 < c.len || !(d.route 1).fwd.any (fun e => e.kind == 1&&e.key == c.par 24 1 % 64) then some 0 else none) ∧ (s.dev.devFind 1 (c.par 24 1 % 64)).2 = some g ∧ (s.dev.alloc 1 2 c.len).isSome = true)) ∧
    ((∃ (s : State) (c : Cmd), Ready s.dev 0x0601 0 c (fun d c => if c.len == 0 || 9216 < c.len || !(d.route 1).fwd.any (fun e => e.kind == 1&&e.key == c.par 24 1 % 64) then some 0 else none) ∧ (s.dev.devFind 1 (c.par 24 1 % 64)).2.isSome = true ∧ s.dev.alloc 1 2 c.len = none)) ∧
    (∃ (s : State) (id : Nat) (c : Cmd) (r : (Dev×TokenAnswer)), (r = s.dev.requestToken ⟨6, 2, some c.id, 0⟩) ∧ (Ready s.dev 0x0602 id c noRange) ∧ (s.dev.cmdHolds c.id = false) ∧ (r.2 ≠ .granted)) ∧
    (∃ (s : State) (id : Nat) (c : Cmd) (d1 : Dev), (d1 = (s.dev.requestToken ⟨6, 2, some c.id, 0⟩).1) ∧ (Ready s.dev 0x0602 id c noRange) ∧ (s.dev.cmdHolds c.id = false) ∧ ((s.dev.requestToken ⟨6, 2, some c.id, 0⟩).2 = .granted)) ∧
    (∃ (s : State) (id : Nat) (c : Cmd), (Ready s.dev 0x0603 id c (fun _ c => if 64 < c.cnt || c.len != 64 * c.cnt then some 0 else none))) ∧
    (∃ (s : State) (id : Nat) (c : Cmd) (r : (Dev×Reply)), (r = s.dev.perDie c (fun d die => ((applyRecs (fun d _ b => d.claimSet die b) (c.recs s.host 32) 0 d 0).1, if (applyRecs (fun d _ b => d.claimSet die b) (c.recs s.host 32) 0 d 0).2.2 then 0 else stRange))) ∧ (Ready s.dev 0x0604 id c (fun _ c => if 4096 < c.cnt || c.len != 32 * c.cnt then some 0 else none))) ∧
    (∃ (s : State) (id : Nat) (c : Cmd) (t : ((List Byte)×Nat)), (t = takeBuckets c.cnt (((s.dev.route c.die1).cedes.filter (fun x => c.par 28 4 ≤ x.pos / 4)).map (fun x => (x.pos / 4, x.bytes)))) ∧ (Ready s.dev 0x0605 id c (fun _ c => if c.len < 32 * c.cnt then some 0 else none))) :=
  ⟨⟨{ dev := up }, by decide +kernel⟩,
   ⟨{ dev := { linkIn 4 with hud := { up.hud with on := true } } }, 7, [1#8], by decide +kernel⟩,
   ⟨{ dev := up }, by decide +kernel⟩,
   ⟨{ dev := up }, 7, [], by decide +kernel⟩,
   ⟨{ dev := up }, 77, by decide +kernel⟩,
   ⟨{ dev := up }, by decide +kernel⟩,
   ⟨{ dev := { up with hud := { up.hud with on := true } } }, ((({ dev := { up with hud := { up.hud with on := true } } }) : State).dev.w F.HUD.SEQ_N (((({ dev := { up with hud := { up.hud with on := true } } }) : State).dev.g F.HUD.SEQ_N + 1) % 2 ^ 32)).inc C.HUD.LSA_TX, rfl, by decide +kernel⟩,
   ⟨{ dev := { up.w F.HUD.STAT_SETTLED 1 with hud := { up.hud with lsas := [⟨77, [], 7, 0⟩] } } }, 77, { (({ dev := { up.w F.HUD.STAT_SETTLED 1 with hud := { up.hud with lsas := [⟨77, [], 7, 0⟩] } } }) : State).dev with hud := { (({ dev := { up.w F.HUD.STAT_SETTLED 1 with hud := { up.hud with lsas := [⟨77, [], 7, 0⟩] } } }) : State).dev.hud with lsas := (({ dev := { up.w F.HUD.STAT_SETTLED 1 with hud := { up.hud with lsas := [⟨77, [], 7, 0⟩] } } }) : State).dev.hud.lsas.filter (fun (r : LsaRec) => r.eui != ((77) : Nat)) } }.w F.HUD.STAT_DEVICES ((({ dev := { up.w F.HUD.STAT_SETTLED 1 with hud := { up.hud with lsas := [⟨77, [], 7, 0⟩] } } }) : State).dev.hud.lsas.filter (fun (r : LsaRec) => r.eui != ((77) : Nat))).length, rfl, by decide +kernel⟩,
   ⟨{ dev := { up with hud := { up.hud with on := true, id := 0 } } }, by decide +kernel⟩,
   ⟨{ dev := { up with hud := { up.hud with on := true, id := 0 }, mt := { up.mt with held := [⟨6, 2, none, 0⟩] } } }, ((({ dev := { up with hud := { up.hud with on := true, id := 0 }, mt := { up.mt with held := [⟨6, 2, none, 0⟩] } } }) : State).dev.setSettled true).originate, ⟨6, 2, none, 0⟩, (((((({ dev := { up with hud := { up.hud with on := true, id := 0 }, mt := { up.mt with held := [⟨6, 2, none, 0⟩] } } }) : State).dev.setSettled true).originate) : Dev).w F.HUD.STAT_REHUDDLE 0).releaseToken 6 ((⟨6, 2, none, 0⟩) : TokenReq).scope, rfl, rfl, by decide +kernel⟩,
   ⟨{ dev := { up.w F.HUD.STAT_SETTLED 1 with hud := { up.hud with on := true, id := 0 } } }, by decide +kernel⟩,
   ⟨{ dev := flying (placing (fun r => { r with fwd := [{ sampleFwdEnt with kind := 1 }] })) (cmdOf 0x0601 1 64 0 [1, 7]) }, cmdOf 0x0601 1 64 0 [1, 7], { sampleFwdEnt with kind := 1 }, by decide +kernel⟩,
   ⟨{ dev := flying (up.setRoute 1 (fun r => { r with fwd := [{ sampleFwdEnt with kind := 1 }], bufs := [⟨9, 2, 10 ^ 6, 1⟩] })) (cmdOf 0x0601 1 64 0 [1, 7]) }, cmdOf 0x0601 1 64 0 [1, 7], by decide +kernel⟩,
   ⟨{ st 2 (cmdOf 0x0602 4 0 0 []) with dev := { flying up (cmdOf 0x0602 4 0 0 []) with mt := { up.mt with held := [⟨6, 2, none, 0⟩] } } }, 0, cmdOf 0x0602 4 0 0 [], (({ st 2 (cmdOf 0x0602 4 0 0 []) with dev := { flying up (cmdOf 0x0602 4 0 0 []) with mt := { up.mt with held := [⟨6, 2, none, 0⟩] } } }) : State).dev.requestToken ⟨6, 2, some ((cmdOf 0x0602 4 0 0 []) : Cmd).id, 0⟩, rfl, by decide +kernel⟩,
   ⟨st 2 (cmdOf 0x0602 4 0 0 []), 0, cmdOf 0x0602 4 0 0 [], (((st 2 (cmdOf 0x0602 4 0 0 [])) : State).dev.requestToken ⟨6, 2, some ((cmdOf 0x0602 4 0 0 []) : Cmd).id, 0⟩).1, rfl, by decide +kernel⟩,
   ⟨st 2 (cmdOf 0x0603 4 4096 64 []), 0, cmdOf 0x0603 4 4096 64 [], by decide +kernel⟩,
   ⟨st 2 (cmdOf 0x0604 3 32 1 []), 0, cmdOf 0x0604 3 32 1 [], ((st 2 (cmdOf 0x0604 3 32 1 [])) : State).dev.perDie ((cmdOf 0x0604 3 32 1 []) : Cmd) (fun d die => ((applyRecs (fun d _ b => d.claimSet die b) (((cmdOf 0x0604 3 32 1 []) : Cmd).recs ((st 2 (cmdOf 0x0604 3 32 1 [])) : State).host 32) 0 d 0).1, if (applyRecs (fun d _ b => d.claimSet die b) (((cmdOf 0x0604 3 32 1 []) : Cmd).recs ((st 2 (cmdOf 0x0604 3 32 1 [])) : State).host 32) 0 d 0).2.2 then 0 else stRange)), rfl, by decide +kernel⟩,
   ⟨st 2 (cmdOf 0x0605 2 32 1 []), 0, cmdOf 0x0605 2 32 1 [], takeBuckets ((cmdOf 0x0605 2 32 1 []) : Cmd).cnt (((((st 2 (cmdOf 0x0605 2 32 1 [])) : State).dev.route ((cmdOf 0x0605 2 32 1 []) : Cmd).die1).cedes.filter (fun x => ((cmdOf 0x0605 2 32 1 []) : Cmd).par 28 4 ≤ x.pos / 4)).map (fun x => (x.pos / 4, x.bytes))), rfl, by decide +kernel⟩⟩

/-- States and operands that meet the hypotheses of `Obligations.TwinMembers`, one part for each clause with hypotheses of its own. -/
theorem witness_TwinMembers :
    (∃ (s : State), (s.dev.twinRuns = false)) ∧
    (∃ (s : State), (s.dev.twinRuns = true)) ∧
    (∃ (s : State), (s.dev.on F.TWN.STAT_POSS_HELD = false)) ∧
    (∃ (s : State) (d1 : Dev), (d1 = s.dev.w F.TWN.STAT_GO 1) ∧ (s.dev.twinRuns = true) ∧ (s.dev.on F.TWN.STAT_GO = false)) ∧
    (∃ (s : State), (s.dev.twin ≠ 5 ∨ s.dev.tw.step ≠ 3)) ∧
    (∃ (s : State), (s.dev.on F.TWN.STAT_GO = true)) ∧
    (∃ (s : State), (s.dev.twin ≠ 5 ∨ s.dev.on F.TWN.STAT_POSS_HELD = true)) ∧
    (∃ (s : State) (d1 : Dev), (d1 = { s.dev.w F.TWN.STAT_GO 0 with tw := { s.dev.tw with blocked := false } }.releasePoss) ∧ (s.dev.twinRuns = true)) ∧
    (∃ (s : State), (s.dev.twin ≠ 2) ∧ (s.dev.twin ≠ 3)) ∧
    (∃ (s : State), (s.dev.on F.TWN.STAT_POSS_HELD = true)) ∧
    (∃ (s : State) (taking : Bool) (d1 : Dev), (taking = (s.dev.twin == 5&&s.dev.tw.step == 1)) ∧ (d1 = ({ s.dev with pins := { s.dev.pins with possLow := true } }.w F.TWN.STAT_POSS_HELD 1).w F.TWN.STAT_POSS_LINE 0) ∧ (s.dev.twinRuns = true) ∧ (s.dev.on F.TWN.STAT_GO = true) ∧ (s.dev.tw.blocked = false) ∧ (s.dev.on F.TWN.STAT_POSS_HELD = false) ∧ ((taking = true ∨ ((s.dev.mode = mService ∨ s.dev.mode = mBringup) ∧ (s.dev.act = mService ∨ s.dev.act = mBringup))))) ∧
    (∃ (s : State), (s.dev.on F.TWN.STAT_GO = false ∨ s.dev.tw.blocked = true ∨ s.dev.on F.TWN.STAT_POSS_HELD = true)) ∧
    ((∃ s : State, s.dev.twin = 5 ∧ s.dev.tw.step = 3 ∧ s.dev.runJournal.tw.intake.any (fun x => s.dev.runJournal.isNext x) = false)) ∧
    ((∃ s : State, s.dev.twin = 5 ∧ s.dev.tw.step = 3 ∧ s.dev.runJournal.tw.intake.any (fun x => s.dev.runJournal.isNext x) = true)) ∧
    (∃ (s : State), (s.dev.twin = 5) ∧ (s.dev.on F.TWN.STAT_POSS_HELD = false)) ∧
    (∃ (s : State), (s.dev.twinRuns = true) ∧ (s.dev.mode = mShadow) ∧ ((s.dev.twin = 3 ∨ s.dev.twin = 6))) ∧
    (∃ (s : State), (s.dev.twin = 2)) ∧
    (∃ (s : State), (s.dev.twin = 3)) ∧
    (∃ (s : State), ((s.dev.twin = 2 ∨ s.dev.twin = 3)) ∧ (1000 * s.dev.g F.TWN.JCFG_LAG_MAX < s.dev.g F.TWN.LAG_US)) ∧
    (∃ (s : State), (s.dev.mode ≠ mShadow ∨ (s.dev.twin ≠ 3 ∧ s.dev.twin ≠ 6))) ∧
    (∃ (s : State) (id : Nat) (c : Cmd) (cause : Nat), (Ready s.dev 0x0701 id c noRange) ∧ (s.dev.tw.form ≠ some id) ∧ (s.dev.formCause cause = 0)) ∧
    (∃ (s : State) (id : Nat) (c : Cmd) (cause : Nat), (Ready s.dev 0x0701 id c noRange) ∧ (s.dev.tw.form ≠ some id) ∧ (s.dev.formCause cause ≠ 0)) ∧
    (∃ (s : State) (id : Nat) (c : Cmd), (Ready s.dev 0x0702 id c noRange)) ∧
    (∃ (s : State) (id : Nat) (c : Cmd), (Ready s.dev 0x0703 id c noRange) ∧ (s.dev.twin = 2) ∧ (s.dev.g F.TWN.STAT_PARTNER = 3) ∧ (s.dev.on F.TWN.STAT_LINK_UP = true) ∧ (s.dev.g F.TWN.LAG_US ≤ 1000 * s.dev.g F.TWN.JCFG_LAG_MAX)) ∧
    (∃ (s : State) (id : Nat) (c : Cmd), (Ready s.dev 0x0703 id c noRange) ∧ ((s.dev.twin ≠ 2 ∨ s.dev.g F.TWN.STAT_PARTNER ≠ 3 ∨ s.dev.on F.TWN.STAT_LINK_UP = false ∨ 1000 * s.dev.g F.TWN.JCFG_LAG_MAX < s.dev.g F.TWN.LAG_US))) :=
  ⟨⟨{ dev := up }, by decide +kernel⟩,
   ⟨{ dev := twinIn 2 2 }, by decide +kernel⟩,
   ⟨{ dev := up }, by decide +kernel⟩,
   ⟨{ dev := (twinIn 3 3).w F.TWN.STAT_HB_CODE 1 }, (({ dev := (twinIn 3 3).w F.TWN.STAT_HB_CODE 1 }) : State).dev.w F.TWN.STAT_GO 1, rfl, by decide +kernel⟩,
   ⟨{ dev := up }, by decide +kernel⟩,
   ⟨{ dev := (twinIn 3 3).w F.TWN.STAT_GO 1 }, by decide +kernel⟩,
   ⟨{ dev := up }, by decide +kernel⟩,
   ⟨{ dev := (twinIn 2 2).w F.TWN.STAT_POSS_HELD 1 }, { (({ dev := (twinIn 2 2).w F.TWN.STAT_POSS_HELD 1 }) : State).dev.w F.TWN.STAT_GO 0 with tw := { (({ dev := (twinIn 2 2).w F.TWN.STAT_POSS_HELD 1 }) : State).dev.tw with blocked := false } }.releasePoss, rfl, by decide +kernel⟩,
   ⟨{ dev := up }, by decide +kernel⟩,
   ⟨{ dev := up.w F.TWN.STAT_POSS_HELD 1 }, by decide +kernel⟩,
   ⟨{ dev := (twinIn 1 2).w F.TWN.STAT_GO 1 }, ((({ dev := (twinIn 1 2).w F.TWN.STAT_GO 1 }) : State).dev.twin == 5&&(({ dev := (twinIn 1 2).w F.TWN.STAT_GO 1 }) : State).dev.tw.step == 1), ({ (({ dev := (twinIn 1 2).w F.TWN.STAT_GO 1 }) : State).dev with pins := { (({ dev := (twinIn 1 2).w F.TWN.STAT_GO 1 }) : State).dev.pins with possLow := true } }.w F.TWN.STAT_POSS_HELD 1).w F.TWN.STAT_POSS_LINE 0, rfl, rfl, by decide +kernel⟩,
   ⟨{ dev := twinIn 1 2 }, by decide +kernel⟩,
   ⟨{ dev := { twinIn 5 3 with tw := { up.tw with step := 3 } } }, by decide +kernel⟩,
   ⟨{ dev := { noEngines (twinIn 5 3) with tw := { up.tw with step := 3, intake := [(1, ⟨0, 0, 0, 0, .air sampleIn⟩)] } } }, by decide +kernel⟩,
   ⟨{ dev := twinIn 5 3 }, by decide +kernel⟩,
   ⟨{ dev := twinIn 6 3 }, by decide +kernel⟩,
   ⟨{ dev := twinIn 2 2 }, by decide +kernel⟩,
   ⟨{ dev := twinIn 3 3 }, by decide +kernel⟩,
   ⟨{ dev := (twinIn 3 3).w F.TWN.LAG_US 0xFFFFFFFF }, by decide +kernel⟩,
   ⟨{ dev := up }, by decide +kernel⟩,
   ⟨{ dev := flying forming (cmdOf 0x0701 4 0 0 []) }, 0, cmdOf 0x0701 4 0 0 [], 0, by decide +kernel⟩,
   ⟨{ dev := flying up (cmdOf 0x0701 4 0 0 []) }, 0, cmdOf 0x0701 4 0 0 [], 0, by decide +kernel⟩,
   ⟨{ dev := flying (twinIn 2 2) (cmdOf 0x0702 4 0 0 []) }, 0, cmdOf 0x0702 4 0 0 [], by decide +kernel⟩,
   ⟨{ dev := flying (((twinIn 2 2).w F.TWN.STAT_PARTNER 3).w F.TWN.STAT_LINK_UP 1) (cmdOf 0x0703 4 0 0 []) }, 0, cmdOf 0x0703 4 0 0 [], by decide +kernel⟩,
   ⟨{ dev := flying up (cmdOf 0x0703 4 0 0 []) }, 0, cmdOf 0x0703 4 0 0 [], by decide +kernel⟩⟩

/-- States and operands that meet the hypotheses of `Obligations.UmpireAndJournal`, one part for each clause with hypotheses of its own. -/
theorem witness_UmpireAndJournal :
    (∃ (s : State), (s.dev.tw.leaving = none ∨ s.dev.umpireRuns = false)) ∧
    (∃ (s : State) (member : Nat), (s.dev.umpireRuns = false ∨ 1 < member)) ∧
    (∃ (s : State), (s.dev.twinRuns = false ∨ s.dev.twin ≠ 3)) ∧
    ((∃ (s : State) (member : Nat), s.dev.umpireRuns = true ∧ member ≤ 1)) ∧
    (∃ (s : State) (member : Nat), (s.dev.umpireRuns = false ∨ s.dev.on F.TWN.UMP_CFG_ERR_EN = false ∨ s.dev.goHolder ≠ some member)) ∧
    (∃ (s : State), (s.dev.twin ≠ 2 ∨ s.dev.jrnOut = false)) ∧
    (∃ (s : State) (member : Nat), (s.dev.umpireRuns = true) ∧ (member ≤ 1)) ∧
    (∃ (s : State) (member : Nat), (s.dev.umpireRuns = true) ∧ (s.dev.on F.TWN.UMP_CFG_ERR_EN = true) ∧ (s.dev.goHolder = some member)) ∧
    (∃ (s : State) (m : Nat) (d1 : Dev), (d1 = { s.dev with tw := { s.dev.tw with leaving := none } }) ∧ (s.dev.tw.leaving = some m) ∧ (s.dev.umpireRuns = true)) ∧
    (∃ (s : State) (member : Nat), (bitOf s.dev.pins.porstOut member = false)) ∧
    (∃ (s : State) (member : Nat), (bitOf s.dev.pins.porstOut member = true)) ∧
    (∃ (s : State) (die : Nat) (record : JRec), (isRoute die = true) ∧ (s.dev.twinRuns = true) ∧ (s.dev.twin = 3) ∧ (s.dev.tw.intake.contains (die, record) = false) ∧ (((s.dev.route die).seq ≤ record.seq ∨ s.dev.isNext (die, record) = true))) ∧
    (∃ (s : State) (die : Nat) (record : JRec), (isRoute die = false ∨ s.dev.twinRuns = false ∨ s.dev.twin ≠ 3 ∨ s.dev.tw.intake.contains (die, record) = true ∨ (record.seq < (s.dev.route die).seq ∧ s.dev.isNext (die, record) = false))) ∧
    (∃ (s : State) (die : Nat), (isRoute die = false ∨ s.dev.twin ≠ 2)) ∧
    (∃ (s : State), (s.dev.twin ≠ 2 ∨ s.dev.tw.stalled = false ∨ s.dev.on F.TWN.STAT_POSS_HELD = false)) ∧
    (∃ (s : State) (d1 : Dev) (got : (Nat→Nat)), (d1 = s.dev.runJournal.showLag) ∧ (got = (fun die => forN d1.tw.intake.length (d1.route die).seq (fun n _ => if d1.tw.intake.any (fun x => x.1 == die&&x.2.seq == n) then n + 1 else n))) ∧ (s.dev.twinRuns = true) ∧ (s.dev.twin = 3)) ∧
    (∃ (s : State) (die : Nat), (isRoute die = true) ∧ (s.dev.twin = 2)) ∧
    (∃ (s : State), (s.dev.twin = 2) ∧ (s.dev.jrnOut = true)) ∧
    (∃ (s : State), (s.dev.twin = 2) ∧ (s.dev.tw.stalled = true) ∧ (s.dev.on F.TWN.STAT_POSS_HELD = true)) :=
  ⟨⟨{ dev := up }, by decide +kernel⟩,
   ⟨{ dev := up }, 0, by decide +kernel⟩,
   ⟨{ dev := up }, by decide +kernel⟩,
   ⟨{ dev := up.w F.TWN.UMP_CFG_EN 1 }, 1, by decide +kernel⟩,
   ⟨{ dev := up }, 0, by decide +kernel⟩,
   ⟨{ dev := up }, by decide +kernel⟩,
   ⟨{ dev := up.w F.TWN.UMP_CFG_EN 1 }, 1, by decide +kernel⟩,
   ⟨{ dev := ((up.w F.TWN.UMP_CFG_EN 1).w F.TWN.UMP_CFG_ERR_EN 1).w F.TWN.UMP_STAT_GO_B 1 }, 1, by decide +kernel⟩,
   ⟨{ dev := { (up.w F.TWN.UMP_CFG_EN 1).w F.TWN.UMP_CFG_RST_EN 1 with tw := { up.tw with leaving := some 0 } } }, 0, { (({ dev := { (up.w F.TWN.UMP_CFG_EN 1).w F.TWN.UMP_CFG_RST_EN 1 with tw := { up.tw with leaving := some 0 } } }) : State).dev with tw := { (({ dev := { (up.w F.TWN.UMP_CFG_EN 1).w F.TWN.UMP_CFG_RST_EN 1 with tw := { up.tw with leaving := some 0 } } }) : State).dev.tw with leaving := none } }, rfl, by decide +kernel⟩,
   ⟨{ dev := up }, 0, by decide +kernel⟩,
   ⟨{ dev := { up with pins := { up.pins with porstOut := 2 } } }, 1, by decide +kernel⟩,
   ⟨{ dev := twinIn 3 3 }, 2, ⟨0, 15, 0, 0, .timer []⟩, by decide +kernel⟩,
   ⟨{ dev := up }, 2, ⟨0, 15, 0, 0, .timer []⟩, by decide +kernel⟩,
   ⟨{ dev := up }, 2, by decide +kernel⟩,
   ⟨{ dev := up }, by decide +kernel⟩,
   ⟨{ dev := twinIn 3 3 }, (({ dev := twinIn 3 3 }) : State).dev.runJournal.showLag, (fun die => forN (((({ dev := twinIn 3 3 }) : State).dev.runJournal.showLag) : Dev).tw.intake.length ((((({ dev := twinIn 3 3 }) : State).dev.runJournal.showLag) : Dev).route die).seq (fun n _ => if (((({ dev := twinIn 3 3 }) : State).dev.runJournal.showLag) : Dev).tw.intake.any (fun x => x.1 == die&&x.2.seq == n) then n + 1 else n)), rfl, rfl, by decide +kernel⟩,
   ⟨{ dev := twinIn 2 2 }, 2, by decide +kernel⟩,
   ⟨{ dev := (twinIn 2 2).setRoute 2 (fun r => { r with jrn := [⟨0, 15, 0, 0, .timer []⟩] }) }, by decide +kernel⟩,
   ⟨{ dev := { (twinIn 2 2).w F.TWN.STAT_POSS_HELD 1 with tw := { up.tw with stalled := true } } }, by decide +kernel⟩⟩

/-- States and operands that meet the hypotheses of `Obligations.LogAndScoreboards`, one part for each clause with hypotheses of its own. -/
theorem witness_LogAndScoreboards :
    (∃ (s : State), (s.dev.log.busy = 0)) ∧
    (∃ (s : State) (id : Nat) (c : Cmd) (l : (List LogRec)), (l = (s.dev.logAll.filter (fun r => c.par 28 4 ≤ r.seq)).take c.cnt) ∧ (Ready s.dev 0x0903 id c (fun _ c => if c.cnt ≤ 8192&&32 * c.cnt ≤ c.len then none else some 0))) ∧
    (∃ (s : State), (s.dev.g F.SBD.RING_CFG_SIZE_LOG2 = 0 ∨ (s.dev.g F.SBD.CFG_PERIOD = 0 ∧ s.dev.sb.nowDue = false))) ∧
    (∃ (s : State) (id : Nat) (c : Cmd), (Ready s.dev 0x0904 id c noRange) ∧ (s.dev.log.ram = [])) ∧
    (∃ (s : State) (id : Nat) (c : Cmd), (Ready s.dev 0x0904 id c noRange) ∧ (s.dev.log.ram ≠ [])) ∧
    (∃ (s : State), (s.dev.g F.CPT.LOG_CFG_FLUSH = 0) ∧ (s.dev.log.ram.length < 128)) ∧
    (∃ (s : State), (s.dev.g F.CPT.LOG_CFG_FLUSH ≠ 0 ∨ 128 ≤ s.dev.log.ram.length)) ∧
    (∃ (s : State) (d1 : Dev) (d2 : Dev) (d3 : Dev), (d1 = { s.dev with log := { s.dev.log.program (s.dev.log.ram.take s.dev.log.busy) with ram := s.dev.log.ram.drop s.dev.log.busy, busy := 0 } }) ∧ (d2 = d1.w F.CPT.LOG_STAT_UNFLUSHED d1.log.ram.length) ∧ (d3 = (d2.w F.CPT.LOG_OLDEST_SEQ ((d2.logAll.head?).elim 0 (fun r => r.seq))).flushDone) ∧ (s.dev.log.busy ≠ 0)) ∧
    (∃ (s : State), (s.dev.log.busy ≠ 0)) ∧
    (∃ (s : State) (id : Nat) (c : Cmd), (Ready s.dev 0x0905 id c (fun d _ => if d.g F.SBD.RING_CFG_SIZE_LOG2 == 0 then some 0 else none))) ∧
    (∃ (s : State) (id : Nat) (c : Cmd) (die : Nat), (Ready s.dev 0x0906 id c (fun _ c => if c.cnt ≤ 4096&&c.len == 16 * c.cnt then none else some 0)) ∧ (die = (if c.target == 1 then 1 else 2))) ∧
    (∃ (s : State), (s.dev.g F.SBD.RING_CFG_SIZE_LOG2 ≠ 0) ∧ ((s.dev.g F.SBD.CFG_PERIOD ≠ 0 ∨ s.dev.sb.nowDue = true)) ∧ (s.dev.mode = mDoze)) ∧
    (∃ (s : State) (lg : Nat) (d0 : Dev) (d1 : Dev) (d2 : Dev), (d0 = (if s.dev.sb.dozed = 0 then s.dev else s.dev.addc C.SBD.SKIPPED s.dev.sb.dozed)) ∧ (d1 = { d0 with sb := { d0.sb with nowDue := false, missed := d0.sb.missed + d0.sb.dozed, dozed := 0 } }) ∧ (d2 = { d1 with sb := { d1.sb with header := d1.dumpHeader, body := d1.dumpBody, base := d1.g F.SBD.RING_BASE_LO_A / 4096 * 4096 + 2 ^ 32 * d1.g F.SBD.RING_BASE_HI_A, sizeLog2 := lg, missed := 0 } }) ∧ (lg = s.dev.g F.SBD.RING_CFG_SIZE_LOG2) ∧ (lg ≠ 0) ∧ ((s.dev.g F.SBD.CFG_PERIOD ≠ 0 ∨ s.dev.sb.nowDue = true)) ∧ (s.dev.mode ≠ mDoze) ∧ (d1.on F.SBD.STAT_BUSY = false) ∧ ((d1.g F.SBD.RING_TAIL_T + 2 ^ 32 - d1.g F.SBD.RING_HEAD_H) % 2 ^ 32 + dumpLength ≤ 2 ^ lg)) ∧
    (∃ (s : State) (lg : Nat) (d0 : Dev) (d1 : Dev), (d0 = (if s.dev.sb.dozed = 0 then s.dev else s.dev.addc C.SBD.SKIPPED s.dev.sb.dozed)) ∧ (d1 = { d0 with sb := { d0.sb with nowDue := false, missed := d0.sb.missed + d0.sb.dozed, dozed := 0 } }) ∧ (lg = s.dev.g F.SBD.RING_CFG_SIZE_LOG2) ∧ (lg ≠ 0) ∧ ((s.dev.g F.SBD.CFG_PERIOD ≠ 0 ∨ s.dev.sb.nowDue = true)) ∧ (s.dev.mode ≠ mDoze) ∧ ((d1.on F.SBD.STAT_BUSY = true ∨ 2 ^ lg < (d1.g F.SBD.RING_TAIL_T + 2 ^ 32 - d1.g F.SBD.RING_HEAD_H) % 2 ^ 32 + dumpLength))) ∧
    ((∃ s : State, s.dev.on F.SBD.STAT_BUSY = true)) ∧
    (∃ (s : State) (d1 : Dev) (d2 : Dev), (d1 = s.dev.w F.SBD.STAT_BUSY 0) ∧ (d2 = { d1 with sb := { d1.sb with missed := d1.sb.missed + 1, header := [], body := [] } }) ∧ (s.dev.on F.SBD.STAT_BUSY = true)) ∧
    (∃ (s : State), (s.dev.on F.SBD.STAT_BUSY = false)) :=
  ⟨⟨{ dev := up }, by decide +kernel⟩,
   ⟨st 2 (cmdOf 0x0903 4 262144 8192 [0, 0, 0, 0]), 0, cmdOf 0x0903 4 262144 8192 [0, 0, 0, 0], (((st 2 (cmdOf 0x0903 4 262144 8192 [0, 0, 0, 0])) : State).dev.logAll.filter (fun r => ((cmdOf 0x0903 4 262144 8192 [0, 0, 0, 0]) : Cmd).par 28 4 ≤ r.seq)).take ((cmdOf 0x0903 4 262144 8192 [0, 0, 0, 0]) : Cmd).cnt, rfl, by decide +kernel⟩,
   ⟨{ dev := up }, by decide +kernel⟩,
   ⟨{ dev := { flying up (cmdOf 0x0904 4 0 0 []) with log := { up.log with ram := [] } } }, 0, cmdOf 0x0904 4 0 0 [], by decide +kernel⟩,
   ⟨{ dev := (flying up (cmdOf 0x0904 4 0 0 [])).logRec 0x0101 1 0 [] }, 0, cmdOf 0x0904 4 0 0 [], by decide +kernel⟩,
   ⟨{ dev := up.w F.CPT.LOG_CFG_FLUSH 0 }, by decide +kernel⟩,
   ⟨{ dev := up.w F.CPT.LOG_CFG_FLUSH 1 }, by decide +kernel⟩,
   ⟨{ dev := (up.logRec 0x0101 1 0 []).logStart }, { (({ dev := (up.logRec 0x0101 1 0 []).logStart }) : State).dev with log := { (({ dev := (up.logRec 0x0101 1 0 []).logStart }) : State).dev.log.program ((({ dev := (up.logRec 0x0101 1 0 []).logStart }) : State).dev.log.ram.take (({ dev := (up.logRec 0x0101 1 0 []).logStart }) : State).dev.log.busy) with ram := (({ dev := (up.logRec 0x0101 1 0 []).logStart }) : State).dev.log.ram.drop (({ dev := (up.logRec 0x0101 1 0 []).logStart }) : State).dev.log.busy, busy := 0 } }, (({ (({ dev := (up.logRec 0x0101 1 0 []).logStart }) : State).dev with log := { (({ dev := (up.logRec 0x0101 1 0 []).logStart }) : State).dev.log.program ((({ dev := (up.logRec 0x0101 1 0 []).logStart }) : State).dev.log.ram.take (({ dev := (up.logRec 0x0101 1 0 []).logStart }) : State).dev.log.busy) with ram := (({ dev := (up.logRec 0x0101 1 0 []).logStart }) : State).dev.log.ram.drop (({ dev := (up.logRec 0x0101 1 0 []).logStart }) : State).dev.log.busy, busy := 0 } }) : Dev).w F.CPT.LOG_STAT_UNFLUSHED (({ (({ dev := (up.logRec 0x0101 1 0 []).logStart }) : State).dev with log := { (({ dev := (up.logRec 0x0101 1 0 []).logStart }) : State).dev.log.program ((({ dev := (up.logRec 0x0101 1 0 []).logStart }) : State).dev.log.ram.take (({ dev := (up.logRec 0x0101 1 0 []).logStart }) : State).dev.log.busy) with ram := (({ dev := (up.logRec 0x0101 1 0 []).logStart }) : State).dev.log.ram.drop (({ dev := (up.logRec 0x0101 1 0 []).logStart }) : State).dev.log.busy, busy := 0 } }) : Dev).log.ram.length, ((((({ (({ dev := (up.logRec 0x0101 1 0 []).logStart }) : State).dev with log := { (({ dev := (up.logRec 0x0101 1 0 []).logStart }) : State).dev.log.program ((({ dev := (up.logRec 0x0101 1 0 []).logStart }) : State).dev.log.ram.take (({ dev := (up.logRec 0x0101 1 0 []).logStart }) : State).dev.log.busy) with ram := (({ dev := (up.logRec 0x0101 1 0 []).logStart }) : State).dev.log.ram.drop (({ dev := (up.logRec 0x0101 1 0 []).logStart }) : State).dev.log.busy, busy := 0 } }) : Dev).w F.CPT.LOG_STAT_UNFLUSHED (({ (({ dev := (up.logRec 0x0101 1 0 []).logStart }) : State).dev with log := { (({ dev := (up.logRec 0x0101 1 0 []).logStart }) : State).dev.log.program ((({ dev := (up.logRec 0x0101 1 0 []).logStart }) : State).dev.log.ram.take (({ dev := (up.logRec 0x0101 1 0 []).logStart }) : State).dev.log.busy) with ram := (({ dev := (up.logRec 0x0101 1 0 []).logStart }) : State).dev.log.ram.drop (({ dev := (up.logRec 0x0101 1 0 []).logStart }) : State).dev.log.busy, busy := 0 } }) : Dev).log.ram.length) : Dev).w F.CPT.LOG_OLDEST_SEQ (((((({ (({ dev := (up.logRec 0x0101 1 0 []).logStart }) : State).dev with log := { (({ dev := (up.logRec 0x0101 1 0 []).logStart }) : State).dev.log.program ((({ dev := (up.logRec 0x0101 1 0 []).logStart }) : State).dev.log.ram.take (({ dev := (up.logRec 0x0101 1 0 []).logStart }) : State).dev.log.busy) with ram := (({ dev := (up.logRec 0x0101 1 0 []).logStart }) : State).dev.log.ram.drop (({ dev := (up.logRec 0x0101 1 0 []).logStart }) : State).dev.log.busy, busy := 0 } }) : Dev).w F.CPT.LOG_STAT_UNFLUSHED (({ (({ dev := (up.logRec 0x0101 1 0 []).logStart }) : State).dev with log := { (({ dev := (up.logRec 0x0101 1 0 []).logStart }) : State).dev.log.program ((({ dev := (up.logRec 0x0101 1 0 []).logStart }) : State).dev.log.ram.take (({ dev := (up.logRec 0x0101 1 0 []).logStart }) : State).dev.log.busy) with ram := (({ dev := (up.logRec 0x0101 1 0 []).logStart }) : State).dev.log.ram.drop (({ dev := (up.logRec 0x0101 1 0 []).logStart }) : State).dev.log.busy, busy := 0 } }) : Dev).log.ram.length) : Dev).logAll.head?).elim 0 (fun r => r.seq))).flushDone, rfl, rfl, rfl, by decide +kernel⟩,
   ⟨{ dev := (up.logRec 0x0101 1 0 []).logStart }, by decide +kernel⟩,
   ⟨{ dev := flying (up.w F.SBD.RING_CFG_SIZE_LOG2 20) (cmdOf 0x0905 4 0 0 []) }, 0, cmdOf 0x0905 4 0 0 [], by decide +kernel⟩,
   ⟨st 2 (cmdOf 0x0906 2 16 1 []), 0, cmdOf 0x0906 2 16 1 [], 2, by decide +kernel⟩,
   ⟨{ dev := { (inMode 4).w F.SBD.RING_CFG_SIZE_LOG2 24 with sb := { up.sb with nowDue := true } } }, by decide +kernel⟩,
   ⟨{ dev := { up.w F.SBD.RING_CFG_SIZE_LOG2 24 with sb := { up.sb with nowDue := true } } }, 24, (if (({ dev := { up.w F.SBD.RING_CFG_SIZE_LOG2 24 with sb := { up.sb with nowDue := true } } }) : State).dev.sb.dozed = 0 then (({ dev := { up.w F.SBD.RING_CFG_SIZE_LOG2 24 with sb := { up.sb with nowDue := true } } }) : State).dev else (({ dev := { up.w F.SBD.RING_CFG_SIZE_LOG2 24 with sb := { up.sb with nowDue := true } } }) : State).dev.addc C.SBD.SKIPPED (({ dev := { up.w F.SBD.RING_CFG_SIZE_LOG2 24 with sb := { up.sb with nowDue := true } } }) : State).dev.sb.dozed), { (((if (({ dev := { up.w F.SBD.RING_CFG_SIZE_LOG2 24 with sb := { up.sb with nowDue := true } } }) : State).dev.sb.dozed = 0 then (({ dev := { up.w F.SBD.RING_CFG_SIZE_LOG2 24 with sb := { up.sb with nowDue := true } } }) : State).dev else (({ dev := { up.w F.SBD.RING_CFG_SIZE_LOG2 24 with sb := { up.sb with nowDue := true } } }) : State).dev.addc C.SBD.SKIPPED (({ dev := { up.w F.SBD.RING_CFG_SIZE_LOG2 24 with sb := { up.sb with nowDue := true } } }) : State).dev.sb.dozed)) : Dev) with sb := { (((if (({ dev := { up.w F.SBD.RING_CFG_SIZE_LOG2 24 with sb := { up.sb with nowDue := true } } }) : State).dev.sb.dozed = 0 then (({ dev := { up.w F.SBD.RING_CFG_SIZE_LOG2 24 with sb := { up.sb with nowDue := true } } }) : State).dev else (({ dev := { up.w F.SBD.RING_CFG_SIZE_LOG2 24 with sb := { up.sb with nowDue := true } } }) : State).dev.addc C.SBD.SKIPPED (({ dev := { up.w F.SBD.RING_CFG_SIZE_LOG2 24 with sb := { up.sb with nowDue := true } } }) : State).dev.sb.dozed)) : Dev).sb with nowDue := false, missed := (((if (({ dev := { up.w F.SBD.RING_CFG_SIZE_LOG2 24 with sb := { up.sb with nowDue := true } } }) : State).dev.sb.dozed = 0 then (({ dev := { up.w F.SBD.RING_CFG_SIZE_LOG2 24 with sb := { up.sb with nowDue := true } } }) : State).dev else (({ dev := { up.w F.SBD.RING_CFG_SIZE_LOG2 24 with sb := { up.sb with nowDue := true } } }) : State).dev.addc C.SBD.SKIPPED (({ dev := { up.w F.SBD.RING_CFG_SIZE_LOG2 24 with sb := { up.sb with nowDue := true } } }) : State).dev.sb.dozed)) : Dev).sb.missed + (((if (({ dev := { up.w F.SBD.RING_CFG_SIZE_LOG2 24 with sb := { up.sb with nowDue := true } } }) : State).dev.sb.dozed = 0 then (({ dev := { up.w F.SBD.RING_CFG_SIZE_LOG2 24 with sb := { up.sb with nowDue := true } } }) : State).dev else (({ dev := { up.w F.SBD.RING_CFG_SIZE_LOG2 24 with sb := { up.sb with nowDue := true } } }) : State).dev.addc C.SBD.SKIPPED (({ dev := { up.w F.SBD.RING_CFG_SIZE_LOG2 24 with sb := { up.sb with nowDue := true } } }) : State).dev.sb.dozed)) : Dev).sb.dozed, dozed := 0 } }, { (({ (((if (({ dev := { up.w F.SBD.RING_CFG_SIZE_LOG2 24 with sb := { up.sb with nowDue := true } } }) : State).dev.sb.dozed = 0 then (({ dev := { up.w F.SBD.RING_CFG_SIZE_LOG2 24 with sb := { up.sb with nowDue := true } } }) : State).dev else (({ dev := { up.w F.SBD.RING_CFG_SIZE_LOG2 24 with sb := { up.sb with nowDue := true } } }) : State).dev.addc C.SBD.SKIPPED (({ dev := { up.w F.SBD.RING_CFG_SIZE_LOG2 24 with sb := { up.sb with nowDue := true } } }) : State).dev.sb.dozed)) : Dev) with sb := { (((if (({ dev := { up.w F.SBD.RING_CFG_SIZE_LOG2 24 with sb := { up.sb with nowDue := true } } }) : State).dev.sb.dozed = 0 then (({ dev := { up.w F.SBD.RING_CFG_SIZE_LOG2 24 with sb := { up.sb with nowDue := true } } }) : State).dev else (({ dev := { up.w F.SBD.RING_CFG_SIZE_LOG2 24 with sb := { up.sb with nowDue := true } } }) : State).dev.addc C.SBD.SKIPPED (({ dev := { up.w F.SBD.RING_CFG_SIZE_LOG2 24 with sb := { up.sb with nowDue := true } } }) : State).dev.sb.dozed)) : Dev).sb with nowDue := false, missed := (((if (({ dev := { up.w F.SBD.RING_CFG_SIZE_LOG2 24 with sb := { up.sb with nowDue := true } } }) : State).dev.sb.dozed = 0 then (({ dev := { up.w F.SBD.RING_CFG_SIZE_LOG2 24 with sb := { up.sb with nowDue := true } } }) : State).dev else (({ dev := { up.w F.SBD.RING_CFG_SIZE_LOG2 24 with sb := { up.sb with nowDue := true } } }) : State).dev.addc C.SBD.SKIPPED (({ dev := { up.w F.SBD.RING_CFG_SIZE_LOG2 24 with sb := { up.sb with nowDue := true } } }) : State).dev.sb.dozed)) : Dev).sb.missed + (((if (({ dev := { up.w F.SBD.RING_CFG_SIZE_LOG2 24 with sb := { up.sb with nowDue := true } } }) : State).dev.sb.dozed = 0 then (({ dev := { up.w F.SBD.RING_CFG_SIZE_LOG2 24 with sb := { up.sb with nowDue := true } } }) : State).dev else (({ dev := { up.w F.SBD.RING_CFG_SIZE_LOG2 24 with sb := { up.sb with nowDue := true } } }) : State).dev.addc C.SBD.SKIPPED (({ dev := { up.w F.SBD.RING_CFG_SIZE_LOG2 24 with sb := { up.sb with nowDue := true } } }) : State).dev.sb.dozed)) : Dev).sb.dozed, dozed := 0 } }) : Dev) with sb := { (({ (((if (({ dev := { up.w F.SBD.RING_CFG_SIZE_LOG2 24 with sb := { up.sb with nowDue := true } } }) : State).dev.sb.dozed = 0 then (({ dev := { up.w F.SBD.RING_CFG_SIZE_LOG2 24 with sb := { up.sb with nowDue := true } } }) : State).dev else (({ dev := { up.w F.SBD.RING_CFG_SIZE_LOG2 24 with sb := { up.sb with nowDue := true } } }) : State).dev.addc C.SBD.SKIPPED (({ dev := { up.w F.SBD.RING_CFG_SIZE_LOG2 24 with sb := { up.sb with nowDue := true } } }) : State).dev.sb.dozed)) : Dev) with sb := { (((if (({ dev := { up.w F.SBD.RING_CFG_SIZE_LOG2 24 with sb := { up.sb with nowDue := true } } }) : State).dev.sb.dozed = 0 then (({ dev := { up.w F.SBD.RING_CFG_SIZE_LOG2 24 with sb := { up.sb with nowDue := true } } }) : State).dev else (({ dev := { up.w F.SBD.RING_CFG_SIZE_LOG2 24 with sb := { up.sb with nowDue := true } } }) : State).dev.addc C.SBD.SKIPPED (({ dev := { up.w F.SBD.RING_CFG_SIZE_LOG2 24 with sb := { up.sb with nowDue := true } } }) : State).dev.sb.dozed)) : Dev).sb with nowDue := false, missed := (((if (({ dev := { up.w F.SBD.RING_CFG_SIZE_LOG2 24 with sb := { up.sb with nowDue := true } } }) : State).dev.sb.dozed = 0 then (({ dev := { up.w F.SBD.RING_CFG_SIZE_LOG2 24 with sb := { up.sb with nowDue := true } } }) : State).dev else (({ dev := { up.w F.SBD.RING_CFG_SIZE_LOG2 24 with sb := { up.sb with nowDue := true } } }) : State).dev.addc C.SBD.SKIPPED (({ dev := { up.w F.SBD.RING_CFG_SIZE_LOG2 24 with sb := { up.sb with nowDue := true } } }) : State).dev.sb.dozed)) : Dev).sb.missed + (((if (({ dev := { up.w F.SBD.RING_CFG_SIZE_LOG2 24 with sb := { up.sb with nowDue := true } } }) : State).dev.sb.dozed = 0 then (({ dev := { up.w F.SBD.RING_CFG_SIZE_LOG2 24 with sb := { up.sb with nowDue := true } } }) : State).dev else (({ dev := { up.w F.SBD.RING_CFG_SIZE_LOG2 24 with sb := { up.sb with nowDue := true } } }) : State).dev.addc C.SBD.SKIPPED (({ dev := { up.w F.SBD.RING_CFG_SIZE_LOG2 24 with sb := { up.sb with nowDue := true } } }) : State).dev.sb.dozed)) : Dev).sb.dozed, dozed := 0 } }) : Dev).sb with header := (({ (((if (({ dev := { up.w F.SBD.RING_CFG_SIZE_LOG2 24 with sb := { up.sb with nowDue := true } } }) : State).dev.sb.dozed = 0 then (({ dev := { up.w F.SBD.RING_CFG_SIZE_LOG2 24 with sb := { up.sb with nowDue := true } } }) : State).dev else (({ dev := { up.w F.SBD.RING_CFG_SIZE_LOG2 24 with sb := { up.sb with nowDue := true } } }) : State).dev.addc C.SBD.SKIPPED (({ dev := { up.w F.SBD.RING_CFG_SIZE_LOG2 24 with sb := { up.sb with nowDue := true } } }) : State).dev.sb.dozed)) : Dev) with sb := { (((if (({ dev := { up.w F.SBD.RING_CFG_SIZE_LOG2 24 with sb := { up.sb with nowDue := true } } }) : State).dev.sb.dozed = 0 then (({ dev := { up.w F.SBD.RING_CFG_SIZE_LOG2 24 with sb := { up.sb with nowDue := true } } }) : State).dev else (({ dev := { up.w F.SBD.RING_CFG_SIZE_LOG2 24 with sb := { up.sb with nowDue := true } } }) : State).dev.addc C.SBD.SKIPPED (({ dev := { up.w F.SBD.RING_CFG_SIZE_LOG2 24 with sb := { up.sb with nowDue := true } } }) : State).dev.sb.dozed)) : Dev).sb with nowDue := false, missed := (((if (({ dev := { up.w F.SBD.RING_CFG_SIZE_LOG2 24 with sb := { up.sb with nowDue := true } } }) : State).dev.sb.dozed = 0 then (({ dev := { up.w F.SBD.RING_CFG_SIZE_LOG2 24 with sb := { up.sb with nowDue := true } } }) : State).dev else (({ dev := { up.w F.SBD.RING_CFG_SIZE_LOG2 24 with sb := { up.sb with nowDue := true } } }) : State).dev.addc C.SBD.SKIPPED (({ dev := { up.w F.SBD.RING_CFG_SIZE_LOG2 24 with sb := { up.sb with nowDue := true } } }) : State).dev.sb.dozed)) : Dev).sb.missed + (((if (({ dev := { up.w F.SBD.RING_CFG_SIZE_LOG2 24 with sb := { up.sb with nowDue := true } } }) : State).dev.sb.dozed = 0 then (({ dev := { up.w F.SBD.RING_CFG_SIZE_LOG2 24 with sb := { up.sb with nowDue := true } } }) : State).dev else (({ dev := { up.w F.SBD.RING_CFG_SIZE_LOG2 24 with sb := { up.sb with nowDue := true } } }) : State).dev.addc C.SBD.SKIPPED (({ dev := { up.w F.SBD.RING_CFG_SIZE_LOG2 24 with sb := { up.sb with nowDue := true } } }) : State).dev.sb.dozed)) : Dev).sb.dozed, dozed := 0 } }) : Dev).dumpHeader, body := (({ (((if (({ dev := { up.w F.SBD.RING_CFG_SIZE_LOG2 24 with sb := { up.sb with nowDue := true } } }) : State).dev.sb.dozed = 0 then (({ dev := { up.w F.SBD.RING_CFG_SIZE_LOG2 24 with sb := { up.sb with nowDue := true } } }) : State).dev else (({ dev := { up.w F.SBD.RING_CFG_SIZE_LOG2 24 with sb := { up.sb with nowDue := true } } }) : State).dev.addc C.SBD.SKIPPED (({ dev := { up.w F.SBD.RING_CFG_SIZE_LOG2 24 with sb := { up.sb with nowDue := true } } }) : State).dev.sb.dozed)) : Dev) with sb := { (((if (({ dev := { up.w F.SBD.RING_CFG_SIZE_LOG2 24 with sb := { up.sb with nowDue := true } } }) : State).dev.sb.dozed = 0 then (({ dev := { up.w F.SBD.RING_CFG_SIZE_LOG2 24 with sb := { up.sb with nowDue := true } } }) : State).dev else (({ dev := { up.w F.SBD.RING_CFG_SIZE_LOG2 24 with sb := { up.sb with nowDue := true } } }) : State).dev.addc C.SBD.SKIPPED (({ dev := { up.w F.SBD.RING_CFG_SIZE_LOG2 24 with sb := { up.sb with nowDue := true } } }) : State).dev.sb.dozed)) : Dev).sb with nowDue := false, missed := (((if (({ dev := { up.w F.SBD.RING_CFG_SIZE_LOG2 24 with sb := { up.sb with nowDue := true } } }) : State).dev.sb.dozed = 0 then (({ dev := { up.w F.SBD.RING_CFG_SIZE_LOG2 24 with sb := { up.sb with nowDue := true } } }) : State).dev else (({ dev := { up.w F.SBD.RING_CFG_SIZE_LOG2 24 with sb := { up.sb with nowDue := true } } }) : State).dev.addc C.SBD.SKIPPED (({ dev := { up.w F.SBD.RING_CFG_SIZE_LOG2 24 with sb := { up.sb with nowDue := true } } }) : State).dev.sb.dozed)) : Dev).sb.missed + (((if (({ dev := { up.w F.SBD.RING_CFG_SIZE_LOG2 24 with sb := { up.sb with nowDue := true } } }) : State).dev.sb.dozed = 0 then (({ dev := { up.w F.SBD.RING_CFG_SIZE_LOG2 24 with sb := { up.sb with nowDue := true } } }) : State).dev else (({ dev := { up.w F.SBD.RING_CFG_SIZE_LOG2 24 with sb := { up.sb with nowDue := true } } }) : State).dev.addc C.SBD.SKIPPED (({ dev := { up.w F.SBD.RING_CFG_SIZE_LOG2 24 with sb := { up.sb with nowDue := true } } }) : State).dev.sb.dozed)) : Dev).sb.dozed, dozed := 0 } }) : Dev).dumpBody, base := (({ (((if (({ dev := { up.w F.SBD.RING_CFG_SIZE_LOG2 24 with sb := { up.sb with nowDue := true } } }) : State).dev.sb.dozed = 0 then (({ dev := { up.w F.SBD.RING_CFG_SIZE_LOG2 24 with sb := { up.sb with nowDue := true } } }) : State).dev else (({ dev := { up.w F.SBD.RING_CFG_SIZE_LOG2 24 with sb := { up.sb with nowDue := true } } }) : State).dev.addc C.SBD.SKIPPED (({ dev := { up.w F.SBD.RING_CFG_SIZE_LOG2 24 with sb := { up.sb with nowDue := true } } }) : State).dev.sb.dozed)) : Dev) with sb := { (((if (({ dev := { up.w F.SBD.RING_CFG_SIZE_LOG2 24 with sb := { up.sb with nowDue := true } } }) : State).dev.sb.dozed = 0 then (({ dev := { up.w F.SBD.RING_CFG_SIZE_LOG2 24 with sb := { up.sb with nowDue := true } } }) : State).dev else (({ dev := { up.w F.SBD.RING_CFG_SIZE_LOG2 24 with sb := { up.sb with nowDue := true } } }) : State).dev.addc C.SBD.SKIPPED (({ dev := { up.w F.SBD.RING_CFG_SIZE_LOG2 24 with sb := { up.sb with nowDue := true } } }) : State).dev.sb.dozed)) : Dev).sb with nowDue := false, missed := (((if (({ dev := { up.w F.SBD.RING_CFG_SIZE_LOG2 24 with sb := { up.sb with nowDue := true } } }) : State).dev.sb.dozed = 0 then (({ dev := { up.w F.SBD.RING_CFG_SIZE_LOG2 24 with sb := { up.sb with nowDue := true } } }) : State).dev else (({ dev := { up.w F.SBD.RING_CFG_SIZE_LOG2 24 with sb := { up.sb with nowDue := true } } }) : State).dev.addc C.SBD.SKIPPED (({ dev := { up.w F.SBD.RING_CFG_SIZE_LOG2 24 with sb := { up.sb with nowDue := true } } }) : State).dev.sb.dozed)) : Dev).sb.missed + (((if (({ dev := { up.w F.SBD.RING_CFG_SIZE_LOG2 24 with sb := { up.sb with nowDue := true } } }) : State).dev.sb.dozed = 0 then (({ dev := { up.w F.SBD.RING_CFG_SIZE_LOG2 24 with sb := { up.sb with nowDue := true } } }) : State).dev else (({ dev := { up.w F.SBD.RING_CFG_SIZE_LOG2 24 with sb := { up.sb with nowDue := true } } }) : State).dev.addc C.SBD.SKIPPED (({ dev := { up.w F.SBD.RING_CFG_SIZE_LOG2 24 with sb := { up.sb with nowDue := true } } }) : State).dev.sb.dozed)) : Dev).sb.dozed, dozed := 0 } }) : Dev).g F.SBD.RING_BASE_LO_A / 4096 * 4096 + 2 ^ 32 * (({ (((if (({ dev := { up.w F.SBD.RING_CFG_SIZE_LOG2 24 with sb := { up.sb with nowDue := true } } }) : State).dev.sb.dozed = 0 then (({ dev := { up.w F.SBD.RING_CFG_SIZE_LOG2 24 with sb := { up.sb with nowDue := true } } }) : State).dev else (({ dev := { up.w F.SBD.RING_CFG_SIZE_LOG2 24 with sb := { up.sb with nowDue := true } } }) : State).dev.addc C.SBD.SKIPPED (({ dev := { up.w F.SBD.RING_CFG_SIZE_LOG2 24 with sb := { up.sb with nowDue := true } } }) : State).dev.sb.dozed)) : Dev) with sb := { (((if (({ dev := { up.w F.SBD.RING_CFG_SIZE_LOG2 24 with sb := { up.sb with nowDue := true } } }) : State).dev.sb.dozed = 0 then (({ dev := { up.w F.SBD.RING_CFG_SIZE_LOG2 24 with sb := { up.sb with nowDue := true } } }) : State).dev else (({ dev := { up.w F.SBD.RING_CFG_SIZE_LOG2 24 with sb := { up.sb with nowDue := true } } }) : State).dev.addc C.SBD.SKIPPED (({ dev := { up.w F.SBD.RING_CFG_SIZE_LOG2 24 with sb := { up.sb with nowDue := true } } }) : State).dev.sb.dozed)) : Dev).sb with nowDue := false, missed := (((if (({ dev := { up.w F.SBD.RING_CFG_SIZE_LOG2 24 with sb := { up.sb with nowDue := true } } }) : State).dev.sb.dozed = 0 then (({ dev := { up.w F.SBD.RING_CFG_SIZE_LOG2 24 with sb := { up.sb with nowDue := true } } }) : State).dev else (({ dev := { up.w F.SBD.RING_CFG_SIZE_LOG2 24 with sb := { up.sb with nowDue := true } } }) : State).dev.addc C.SBD.SKIPPED (({ dev := { up.w F.SBD.RING_CFG_SIZE_LOG2 24 with sb := { up.sb with nowDue := true } } }) : State).dev.sb.dozed)) : Dev).sb.missed + (((if (({ dev := { up.w F.SBD.RING_CFG_SIZE_LOG2 24 with sb := { up.sb with nowDue := true } } }) : State).dev.sb.dozed = 0 then (({ dev := { up.w F.SBD.RING_CFG_SIZE_LOG2 24 with sb := { up.sb with nowDue := true } } }) : State).dev else (({ dev := { up.w F.SBD.RING_CFG_SIZE_LOG2 24 with sb := { up.sb with nowDue := true } } }) : State).dev.addc C.SBD.SKIPPED (({ dev := { up.w F.SBD.RING_CFG_SIZE_LOG2 24 with sb := { up.sb with nowDue := true } } }) : State).dev.sb.dozed)) : Dev).sb.dozed, dozed := 0 } }) : Dev).g F.SBD.RING_BASE_HI_A, sizeLog2 := ((24) : Nat), missed := 0 } }, rfl, rfl, rfl, by decide +kernel⟩,
   ⟨{ dev := { (up.w F.SBD.RING_CFG_SIZE_LOG2 24).w F.SBD.STAT_BUSY 1 with sb := { up.sb with nowDue := true, dozed := 2 } } }, 24, (if (({ dev := { (up.w F.SBD.RING_CFG_SIZE_LOG2 24).w F.SBD.STAT_BUSY 1 with sb := { up.sb with nowDue := true, dozed := 2 } } }) : State).dev.sb.dozed = 0 then (({ dev := { (up.w F.SBD.RING_CFG_SIZE_LOG2 24).w F.SBD.STAT_BUSY 1 with sb := { up.sb with nowDue := true, dozed := 2 } } }) : State).dev else (({ dev := { (up.w F.SBD.RING_CFG_SIZE_LOG2 24).w F.SBD.STAT_BUSY 1 with sb := { up.sb with nowDue := true, dozed := 2 } } }) : State).dev.addc C.SBD.SKIPPED (({ dev := { (up.w F.SBD.RING_CFG_SIZE_LOG2 24).w F.SBD.STAT_BUSY 1 with sb := { up.sb with nowDue := true, dozed := 2 } } }) : State).dev.sb.dozed), { (((if (({ dev := { (up.w F.SBD.RING_CFG_SIZE_LOG2 24).w F.SBD.STAT_BUSY 1 with sb := { up.sb with nowDue := true, dozed := 2 } } }) : State).dev.sb.dozed = 0 then (({ dev := { (up.w F.SBD.RING_CFG_SIZE_LOG2 24).w F.SBD.STAT_BUSY 1 with sb := { up.sb with nowDue := true, dozed := 2 } } }) : State).dev else (({ dev := { (up.w F.SBD.RING_CFG_SIZE_LOG2 24).w F.SBD.STAT_BUSY 1 with sb := { up.sb with nowDue := true, dozed := 2 } } }) : State).dev.addc C.SBD.SKIPPED (({ dev := { (up.w F.SBD.RING_CFG_SIZE_LOG2 24).w F.SBD.STAT_BUSY 1 with sb := { up.sb with nowDue := true, dozed := 2 } } }) : State).dev.sb.dozed)) : Dev) with sb := { (((if (({ dev := { (up.w F.SBD.RING_CFG_SIZE_LOG2 24).w F.SBD.STAT_BUSY 1 with sb := { up.sb with nowDue := true, dozed := 2 } } }) : State).dev.sb.dozed = 0 then (({ dev := { (up.w F.SBD.RING_CFG_SIZE_LOG2 24).w F.SBD.STAT_BUSY 1 with sb := { up.sb with nowDue := true, dozed := 2 } } }) : State).dev else (({ dev := { (up.w F.SBD.RING_CFG_SIZE_LOG2 24).w F.SBD.STAT_BUSY 1 with sb := { up.sb with nowDue := true, dozed := 2 } } }) : State).dev.addc C.SBD.SKIPPED (({ dev := { (up.w F.SBD.RING_CFG_SIZE_LOG2 24).w F.SBD.STAT_BUSY 1 with sb := { up.sb with nowDue := true, dozed := 2 } } }) : State).dev.sb.dozed)) : Dev).sb with nowDue := false, missed := (((if (({ dev := { (up.w F.SBD.RING_CFG_SIZE_LOG2 24).w F.SBD.STAT_BUSY 1 with sb := { up.sb with nowDue := true, dozed := 2 } } }) : State).dev.sb.dozed = 0 then (({ dev := { (up.w F.SBD.RING_CFG_SIZE_LOG2 24).w F.SBD.STAT_BUSY 1 with sb := { up.sb with nowDue := true, dozed := 2 } } }) : State).dev else (({ dev := { (up.w F.SBD.RING_CFG_SIZE_LOG2 24).w F.SBD.STAT_BUSY 1 with sb := { up.sb with nowDue := true, dozed := 2 } } }) : State).dev.addc C.SBD.SKIPPED (({ dev := { (up.w F.SBD.RING_CFG_SIZE_LOG2 24).w F.SBD.STAT_BUSY 1 with sb := { up.sb with nowDue := true, dozed := 2 } } }) : State).dev.sb.dozed)) : Dev).sb.missed + (((if (({ dev := { (up.w F.SBD.RING_CFG_SIZE_LOG2 24).w F.SBD.STAT_BUSY 1 with sb := { up.sb with nowDue := true, dozed := 2 } } }) : State).dev.sb.dozed = 0 then (({ dev := { (up.w F.SBD.RING_CFG_SIZE_LOG2 24).w F.SBD.STAT_BUSY 1 with sb := { up.sb with nowDue := true, dozed := 2 } } }) : State).dev else (({ dev := { (up.w F.SBD.RING_CFG_SIZE_LOG2 24).w F.SBD.STAT_BUSY 1 with sb := { up.sb with nowDue := true, dozed := 2 } } }) : State).dev.addc C.SBD.SKIPPED (({ dev := { (up.w F.SBD.RING_CFG_SIZE_LOG2 24).w F.SBD.STAT_BUSY 1 with sb := { up.sb with nowDue := true, dozed := 2 } } }) : State).dev.sb.dozed)) : Dev).sb.dozed, dozed := 0 } }, rfl, rfl, by decide +kernel⟩,
   ⟨{ dev := up.w F.SBD.STAT_BUSY 1 }, by decide +kernel⟩,
   ⟨{ dev := up.w F.SBD.STAT_BUSY 1 }, (({ dev := up.w F.SBD.STAT_BUSY 1 }) : State).dev.w F.SBD.STAT_BUSY 0, { (((({ dev := up.w F.SBD.STAT_BUSY 1 }) : State).dev.w F.SBD.STAT_BUSY 0) : Dev) with sb := { (((({ dev := up.w F.SBD.STAT_BUSY 1 }) : State).dev.w F.SBD.STAT_BUSY 0) : Dev).sb with missed := (((({ dev := up.w F.SBD.STAT_BUSY 1 }) : State).dev.w F.SBD.STAT_BUSY 0) : Dev).sb.missed + 1, header := [], body := [] } }, rfl, rfl, by decide +kernel⟩,
   ⟨{ dev := up }, by decide +kernel⟩⟩

/-- States and operands that meet the hypotheses of `Obligations.UpdateRows`, one part for each clause with hypotheses of its own. -/
theorem witness_UpdateRows :
    (∃ (s : State), (s.dev.upd.due = 0 ∨ s.dev.restartWaits = true ∨ (s.dev.mode ≠ mRecover ∧ (s.dev.on F.UPD.STAT_ACT_BUSY = false ∨ s.dev.on F.BTL.BOOT_STAT_TRANS = true ∨ s.dev.beforeQ = true)))) ∧
    (∃ (s : State) (id : Nat) (c : Cmd) (i : Nat) (d1 : Dev), (d1 = (s.dev.setImgBank i (fun b => { factory := b.factory, erased := b.erased, cells := b.cells })).endSession) ∧ (Ready s.dev 0x0A01 id c openRange) ∧ (s.dev.upd.due = 0) ∧ (s.dev.openBank c = some i)) ∧
    ((∃ (s : State) (c : Cmd), Ready s.dev 0x0A02 0 c writeRange ∧ s.dev.upd.due = 0)) ∧
    (∃ (s : State), (s.dev.upd.due ≠ 0)) ∧
    (∃ (s : State) (id : Nat) (c : Cmd) (flag : Nat), (Ready s.dev 0x0A03 id c noRange) ∧ (s.dev.checkResult = none) ∧ (flag = (if s.dev.mode = mRecover then 65536 else 0))) ∧
    (∃ (s : State) (id : Nat) (c : Cmd) (r : Nat) (flag : Nat), (Ready s.dev 0x0A03 id c noRange) ∧ (s.dev.checkResult = some r) ∧ (flag = (if s.dev.mode = mRecover then 65536 else 0))) ∧
    (∃ (s : State) (id : Nat) (c : Cmd) (d1 : Dev), (d1 = (s.dev.programTrial s.dev.staging .done).endSession) ∧ (Ready s.dev 0x0A04 id c activateRange) ∧ (s.dev.mode = mRecover)) ∧
    (∃ (s : State) (id : Nat) (c : Cmd), (Ready s.dev 0x0A04 id c activateRange) ∧ (s.dev.mode ≠ mRecover) ∧ ((s.dev.twin = 2 ∨ s.dev.cmdHolds c.id = true))) ∧
    (∃ (s : State) (id : Nat) (c : Cmd) (d1 : Dev) (d2 : Dev), (d1 = (s.dev.requestToken ⟨7, allRegions, some c.id, 0⟩).1) ∧ (d2 = (if d1.twin = 3 then (d1.emit (.twinMsg 3 [])).leavePair 4 else d1)) ∧ (Ready s.dev 0x0A04 id c activateRange) ∧ (s.dev.mode ≠ mRecover) ∧ (s.dev.twin ≠ 2) ∧ (s.dev.cmdHolds c.id = false) ∧ ((s.dev.requestToken ⟨7, allRegions, some c.id, 0⟩).2 = .granted)) ∧
    (∃ (s : State), (s.dev.upd.due ≠ 0) ∧ (s.dev.restartWaits = false) ∧ (s.dev.mode = mRecover)) ∧
    (∃ (s : State), (s.dev.upd.due ≠ 0) ∧ (s.dev.restartWaits = false) ∧ (s.dev.mode = mService) ∧ (s.dev.on F.UPD.STAT_ACT_BUSY = true) ∧ (s.dev.on F.BTL.BOOT_STAT_TRANS = false) ∧ (s.dev.beforeQ = false)) ∧
    (∃ (s : State) (fate : FlashEnd) (d0 : Dev) (d1 : Dev) (d2 : Dev), (d0 = (if s.dev.upd.backMode = none then s.dev.restartBegins else s.dev)) ∧ (d1 = ((d0.addc C.UPD.ACT_DROPS d0.queued).flushAll).saveAll) ∧ (d2 = (if s.dev.upd.due = 1 then d1.programTrial s.dev.staging fate else d1)) ∧ (s.dev.upd.due ≠ 0) ∧ (s.dev.restartWaits = false) ∧ (s.dev.mode ≠ mRecover) ∧ (s.dev.mode ≠ mService) ∧ (s.dev.on F.UPD.STAT_ACT_BUSY = true) ∧ (s.dev.on F.BTL.BOOT_STAT_TRANS = false) ∧ (s.dev.beforeQ = false)) ∧
    (∃ (s : State) (id : Nat) (c : Cmd) (d1 : Dev), (d1 = ((s.dev.setImgBank s.dev.runBank (fun b => { b with good := markGood })).trialOver).inc C.UPD.CONFIRMS) ∧ (Ready s.dev 0x0A05 id c trialRange)) ∧
    (∃ (s : State) (id : Nat) (c : Cmd), (Ready s.dev 0x0A06 id c trialRange)) ∧
    (∃ (s : State) (id : Nat) (c : Cmd), (Ready s.dev 0x0A07 id c (lenIs 192))) ∧
    (∃ (s : State) (id : Nat) (c : Cmd) (b : (List Byte)), (Ready s.dev 0x0A08 id c cfgRange) ∧ (s.dev.mode ≠ mRecover) ∧ (b = c.buf s.host c.len) ∧ (blobLen b = c.len) ∧ (blobFail b (s.dev.imgBank (if c.par 24 1 = 0 then s.dev.runBank else s.dev.staging)).schema = 0)) ∧
    (∃ (s : State) (id : Nat) (c : Cmd) (b : (List Byte)) (chk : Nat), (b = c.buf s.host c.len) ∧ (chk = (if blobLen b ≠ c.len ∧ leAt b 0 4 = 0x43474C42 then 2 else blobFail b (s.dev.imgBank (if c.par 24 1 = 0 then s.dev.runBank else s.dev.staging)).schema)) ∧ (Ready s.dev 0x0A08 id c cfgRange) ∧ ((s.dev.mode ≠ mRecover ∨ c.par 24 1 ≠ 0)) ∧ (chk ≠ 0)) ∧
    (∃ (s : State) (id : Nat) (c : Cmd), (Ready s.dev 0x0A08 id c cfgRange) ∧ (s.dev.mode = mRecover) ∧ (c.par 24 1 = 0)) ∧
    (∃ (s : State), (s.dev.on F.UPD.STAT_TRIAL = false)) ∧
    (∃ (s : State), (s.dev.on F.UPD.STAT_TRIAL = true)) ∧
    (∃ (s : State) (d1 : Dev), (d1 = ((s.dev.giveUp s.dev.runBank 4 0 0).trialOver).fireVec 12) ∧ (s.dev.on F.UPD.STAT_TRIAL = true)) :=
  ⟨⟨{ dev := up }, by decide +kernel⟩,
   ⟨st 2 (cmdOf 0x0A01 4 0 0 [255]), 0, cmdOf 0x0A01 4 0 0 [255], 1, (((st 2 (cmdOf 0x0A01 4 0 0 [255])) : State).dev.setImgBank ((1) : Nat) (fun b => { factory := b.factory, erased := b.erased, cells := b.cells })).endSession, rfl, by decide +kernel⟩,
   ⟨{ dev := { flying up (cmdOf 0x0A02 4 4096 0 [0, 240, 191, 2]) with upd := { up.upd with session := some 1 } } }, cmdOf 0x0A02 4 4096 0 [0, 240, 191, 2], by decide +kernel⟩,
   ⟨{ dev := { flying up (cmdOf 0x0A01 4 0 0 [255]) with upd := { up.upd with due := 1 } } }, by decide +kernel⟩,
   ⟨{ dev := { flying up (cmdOf 0x0A03 4 0 0 []) with upd := { up.upd with banks := [{}, { factory := true }] } } }, 0, cmdOf 0x0A03 4 0 0 [], 0, by decide +kernel⟩,
   ⟨st 2 (cmdOf 0x0A03 4 0 0 []), 0, cmdOf 0x0A03 4 0 0 [], 8, 0, by decide +kernel⟩,
   ⟨{ dev := { flying (inMode 0) (cmdOf 0x0A04 4 0 0 [0]) with upd := { up.upd with session := some 1, pages := [0] } } }, 0, cmdOf 0x0A04 4 0 0 [0], ((({ dev := { flying (inMode 0) (cmdOf 0x0A04 4 0 0 [0]) with upd := { up.upd with session := some 1, pages := [0] } } }) : State).dev.programTrial (({ dev := { flying (inMode 0) (cmdOf 0x0A04 4 0 0 [0]) with upd := { up.upd with session := some 1, pages := [0] } } }) : State).dev.staging .done).endSession, rfl, by decide +kernel⟩,
   ⟨{ dev := { flying (up.w F.TWN.STAT_STATE 2) (cmdOf 0x0A04 4 0 0 [0]) with upd := { up.upd with session := some 1, pages := [0] } } }, 0, cmdOf 0x0A04 4 0 0 [0], by decide +kernel⟩,
   ⟨{ dev := { flying up (cmdOf 0x0A04 4 0 0 [0]) with upd := { up.upd with session := some 1, pages := [0] } } }, 0, cmdOf 0x0A04 4 0 0 [0], ((({ dev := { flying up (cmdOf 0x0A04 4 0 0 [0]) with upd := { up.upd with session := some 1, pages := [0] } } }) : State).dev.requestToken ⟨7, allRegions, some ((cmdOf 0x0A04 4 0 0 [0]) : Cmd).id, 0⟩).1, (if ((((({ dev := { flying up (cmdOf 0x0A04 4 0 0 [0]) with upd := { up.upd with session := some 1, pages := [0] } } }) : State).dev.requestToken ⟨7, allRegions, some ((cmdOf 0x0A04 4 0 0 [0]) : Cmd).id, 0⟩).1) : Dev).twin = 3 then (((((({ dev := { flying up (cmdOf 0x0A04 4 0 0 [0]) with upd := { up.upd with session := some 1, pages := [0] } } }) : State).dev.requestToken ⟨7, allRegions, some ((cmdOf 0x0A04 4 0 0 [0]) : Cmd).id, 0⟩).1) : Dev).emit (.twinMsg 3 [])).leavePair 4 else ((((({ dev := { flying up (cmdOf 0x0A04 4 0 0 [0]) with upd := { up.upd with session := some 1, pages := [0] } } }) : State).dev.requestToken ⟨7, allRegions, some ((cmdOf 0x0A04 4 0 0 [0]) : Cmd).id, 0⟩).1) : Dev)), rfl, rfl, by decide +kernel⟩,
   ⟨{ dev := { inMode 0 with upd := { up.upd with due := 1 } } }, by decide +kernel⟩,
   ⟨{ dev := { (inMode 2).w F.UPD.STAT_ACT_BUSY 1 with upd := { up.upd with due := 1 } } }, by decide +kernel⟩,
   ⟨{ dev := { (inMode 1).w F.UPD.STAT_ACT_BUSY 1 with upd := { up.upd with due := 1 } } }, .done, (if (({ dev := { (inMode 1).w F.UPD.STAT_ACT_BUSY 1 with upd := { up.upd with due := 1 } } }) : State).dev.upd.backMode = none then (({ dev := { (inMode 1).w F.UPD.STAT_ACT_BUSY 1 with upd := { up.upd with due := 1 } } }) : State).dev.restartBegins else (({ dev := { (inMode 1).w F.UPD.STAT_ACT_BUSY 1 with upd := { up.upd with due := 1 } } }) : State).dev), (((((if (({ dev := { (inMode 1).w F.UPD.STAT_ACT_BUSY 1 with upd := { up.upd with due := 1 } } }) : State).dev.upd.backMode = none then (({ dev := { (inMode 1).w F.UPD.STAT_ACT_BUSY 1 with upd := { up.upd with due := 1 } } }) : State).dev.restartBegins else (({ dev := { (inMode 1).w F.UPD.STAT_ACT_BUSY 1 with upd := { up.upd with due := 1 } } }) : State).dev)) : Dev).addc C.UPD.ACT_DROPS (((if (({ dev := { (inMode 1).w F.UPD.STAT_ACT_BUSY 1 with upd := { up.upd with due := 1 } } }) : State).dev.upd.backMode = none then (({ dev := { (inMode 1).w F.UPD.STAT_ACT_BUSY 1 with upd := { up.upd with due := 1 } } }) : State).dev.restartBegins else (({ dev := { (inMode 1).w F.UPD.STAT_ACT_BUSY 1 with upd := { up.upd with due := 1 } } }) : State).dev)) : Dev).queued).flushAll).saveAll, (if (({ dev := { (inMode 1).w F.UPD.STAT_ACT_BUSY 1 with upd := { up.upd with due := 1 } } }) : State).dev.upd.due = 1 then (((((((if (({ dev := { (inMode 1).w F.UPD.STAT_ACT_BUSY 1 with upd := { up.upd with due := 1 } } }) : State).dev.upd.backMode = none then (({ dev := { (inMode 1).w F.UPD.STAT_ACT_BUSY 1 with upd := { up.upd with due := 1 } } }) : State).dev.restartBegins else (({ dev := { (inMode 1).w F.UPD.STAT_ACT_BUSY 1 with upd := { up.upd with due := 1 } } }) : State).dev)) : Dev).addc C.UPD.ACT_DROPS (((if (({ dev := { (inMode 1).w F.UPD.STAT_ACT_BUSY 1 with upd := { up.upd with due := 1 } } }) : State).dev.upd.backMode = none then (({ dev := { (inMode 1).w F.UPD.STAT_ACT_BUSY 1 with upd := { up.upd with due := 1 } } }) : State).dev.restartBegins else (({ dev := { (inMode 1).w F.UPD.STAT_ACT_BUSY 1 with upd := { up.upd with due := 1 } } }) : State).dev)) : Dev).queued).flushAll).saveAll) : Dev).programTrial (({ dev := { (inMode 1).w F.UPD.STAT_ACT_BUSY 1 with upd := { up.upd with due := 1 } } }) : State).dev.staging ((.done) : FlashEnd) else (((((((if (({ dev := { (inMode 1).w F.UPD.STAT_ACT_BUSY 1 with upd := { up.upd with due := 1 } } }) : State).dev.upd.backMode = none then (({ dev := { (inMode 1).w F.UPD.STAT_ACT_BUSY 1 with upd := { up.upd with due := 1 } } }) : State).dev.restartBegins else (({ dev := { (inMode 1).w F.UPD.STAT_ACT_BUSY 1 with upd := { up.upd with due := 1 } } }) : State).dev)) : Dev).addc C.UPD.ACT_DROPS (((if (({ dev := { (inMode 1).w F.UPD.STAT_ACT_BUSY 1 with upd := { up.upd with due := 1 } } }) : State).dev.upd.backMode = none then (({ dev := { (inMode 1).w F.UPD.STAT_ACT_BUSY 1 with upd := { up.upd with due := 1 } } }) : State).dev.restartBegins else (({ dev := { (inMode 1).w F.UPD.STAT_ACT_BUSY 1 with upd := { up.upd with due := 1 } } }) : State).dev)) : Dev).queued).flushAll).saveAll) : Dev)), rfl, rfl, rfl, by decide +kernel⟩,
   ⟨{ dev := flying (up.w F.UPD.STAT_TRIAL 1) (cmdOf 0x0A05 4 0 0 []) }, 0, cmdOf 0x0A05 4 0 0 [], (((({ dev := flying (up.w F.UPD.STAT_TRIAL 1) (cmdOf 0x0A05 4 0 0 []) }) : State).dev.setImgBank (({ dev := flying (up.w F.UPD.STAT_TRIAL 1) (cmdOf 0x0A05 4 0 0 []) }) : State).dev.runBank (fun b => { b with good := markGood })).trialOver).inc C.UPD.CONFIRMS, rfl, by decide +kernel⟩,
   ⟨{ dev := flying (up.w F.UPD.STAT_TRIAL 1) (cmdOf 0x0A06 4 0 0 []) }, 0, cmdOf 0x0A06 4 0 0 [], by decide +kernel⟩,
   ⟨st 2 (cmdOf 0x0A07 4 192 0 []), 0, cmdOf 0x0A07 4 192 0 [], by decide +kernel⟩,
   ⟨{ dev := { flying up blobCmd with upd := { up.upd with banks := [{}, {}] } }, host := memWrite [] 0 smallBlob }, 0, blobCmd, smallBlob, by decide +kernel⟩,
   ⟨{ dev := { flying up blobCmd with upd := { up.upd with banks := [{}, {}] } } }, 0, blobCmd, ((blobCmd) : Cmd).buf (({ dev := { flying up blobCmd with upd := { up.upd with banks := [{}, {}] } } }) : State).host ((blobCmd) : Cmd).len, (if blobLen ((((blobCmd) : Cmd).buf (({ dev := { flying up blobCmd with upd := { up.upd with banks := [{}, {}] } } }) : State).host ((blobCmd) : Cmd).len) : (List Byte)) ≠ ((blobCmd) : Cmd).len ∧ leAt ((((blobCmd) : Cmd).buf (({ dev := { flying up blobCmd with upd := { up.upd with banks := [{}, {}] } } }) : State).host ((blobCmd) : Cmd).len) : (List Byte)) 0 4 = 0x43474C42 then 2 else blobFail ((((blobCmd) : Cmd).buf (({ dev := { flying up blobCmd with upd := { up.upd with banks := [{}, {}] } } }) : State).host ((blobCmd) : Cmd).len) : (List Byte)) ((({ dev := { flying up blobCmd with upd := { up.upd with banks := [{}, {}] } } }) : State).dev.imgBank (if ((blobCmd) : Cmd).par 24 1 = 0 then (({ dev := { flying up blobCmd with upd := { up.upd with banks := [{}, {}] } } }) : State).dev.runBank else (({ dev := { flying up blobCmd with upd := { up.upd with banks := [{}, {}] } } }) : State).dev.staging)).schema), rfl, rfl, by decide +kernel⟩,
   ⟨{ dev := flying (inMode 0) blobCmd }, 0, blobCmd, by decide +kernel⟩,
   ⟨{ dev := up }, by decide +kernel⟩,
   ⟨{ dev := up.w F.UPD.STAT_TRIAL 1 }, by decide +kernel⟩,
   ⟨{ dev := up.w F.UPD.STAT_TRIAL 1 }, (((({ dev := up.w F.UPD.STAT_TRIAL 1 }) : State).dev.giveUp (({ dev := up.w F.UPD.STAT_TRIAL 1 }) : State).dev.runBank 4 0 0).trialOver).fireVec 12, rfl, by decide +kernel⟩⟩

/-- States and operands that meet the hypotheses of `Obligations.CampaignRows`, one part for each clause with hypotheses of its own. -/
theorem witness_CampaignRows :
    (∃ (s : State) (cid : Nat), (∀ c, s.dev.camp cid = some c → c.state ≠ 3 ∨ s.dev.cmp.lost = true ∨ s.dev.seqOpen s.dev.cmp.engine = false ∨ s.dev.act ≠ mService ∨ s.dev.inCampSlot c = false ∨ c.nextBlocks = [] ∨ s.dev.campHeld (fun k => k == cid) = true)) ∧
    (∃ (s : State), (s.dev.cmpIn = [])) ∧
    (∃ (s : State) (id : Nat) (c : Cmd), (Ready s.dev 0x0B01 id c imgLoadRange) ∧ (s.dev.pwr.dramUp = true)) ∧
    (∃ (s : State) (id : Nat) (c : Cmd), (Ready s.dev 0x0B01 id c imgLoadRange) ∧ (s.dev.pwr.dramUp = false)) ∧
    (∃ (s : State) (id : Nat) (c : Cmd), (Ready s.dev 0x0B02 id c (lenIs 40))) ∧
    (∃ (s : State) (id : Nat) (c : Cmd) (x : Camp), (x = ({ cid := c.cid, body := c.buf s.host 64 } : Camp)) ∧ (Ready s.dev 0x0B03 id c cmpSetRange) ∧ (s.dev.campRefused x = false)) ∧
    (∃ (s : State) (id : Nat) (c : Cmd) (x : Camp), (x = ({ cid := c.cid, body := c.buf s.host 64 } : Camp)) ∧ (Ready s.dev 0x0B03 id c cmpSetRange) ∧ (s.dev.campRefused x = true)) ∧
    (∃ (s : State) (id : Nat) (c : Cmd) (r : (Dev×Nat×Nat)), (r = addMembers c.cid (c.recs s.host 8) s.dev 0) ∧ (Ready s.dev 0x0B04 id c cmpMembersRange) ∧ (r.2.2 = 0)) ∧
    (∃ (s : State) (id : Nat) (c : Cmd) (r : (Dev×Nat×Nat)), (r = addMembers c.cid (c.recs s.host 8) s.dev 0) ∧ (Ready s.dev 0x0B04 id c cmpMembersRange) ∧ (r.2.2 ≠ 0)) ∧
    (∃ (s : State) (id : Nat) (c : Cmd) (x : Camp) (d1 : Dev), (d1 = s.dev.setCamp x.cid (fun (y : Camp) => { y with state := 2 })) ∧ (Ready s.dev 0x0B05 id c (ctrlRange (fun st => st == 1))) ∧ (c.par 25 1 = 0) ∧ (s.dev.camp c.cid = some x)) ∧
    (∃ (s : State) (id : Nat) (c : Cmd) (x : Camp), (Ready s.dev 0x0B05 id c (ctrlRange (fun st => 2 ≤ st&&st ≤ 4))) ∧ (c.par 25 1 = 1) ∧ (s.dev.camp c.cid = some x)) ∧
    (∃ (s : State) (id : Nat) (c : Cmd) (x : Camp), (Ready s.dev 0x0B05 id c (ctrlRange (fun st => st == 5))) ∧ (c.par 25 1 = 2) ∧ (s.dev.camp c.cid = some x)) ∧
    (∃ (s : State) (id : Nat) (c : Cmd) (x : Camp), (Ready s.dev 0x0B05 id c (ctrlRange (fun st => 2 ≤ st&&st ≤ 5))) ∧ (c.par 25 1 = 3) ∧ (s.dev.camp c.cid = some x)) ∧
    (∃ (s : State) (id : Nat) (c : Cmd) (x : Camp), (Ready s.dev 0x0B05 id c (ctrlRange (fun st => 6 ≤ st))) ∧ (c.par 25 1 = 4) ∧ (s.dev.camp c.cid = some x)) ∧
    (∃ (s : State) (id : Nat) (c : Cmd) (op : Nat), (s.dev.cmd id = some c) ∧ (c.par 25 1 = op) ∧ (op ≤ 4)) ∧
    (∃ (s : State) (id : Nat) (c : Cmd) (x : Camp), (Ready s.dev 0x0B06 id c cmpStatusRange) ∧ (s.dev.camp c.cid = some x) ∧ (x.state ≠ 0)) ∧
    (∃ (s : State) (id : Nat) (c : Cmd), (Ready s.dev 0x0B06 id c cmpStatusRange) ∧ (s.dev.camp c.cid = none)) ∧
    (∃ (s : State) (id : Nat) (c : Cmd), (Ready s.dev 0x0B07 id c cmpReadRange)) ∧
    (∃ (s : State) (cid : Nat) (c : Camp) (root : (List Byte)) (x : Tx) (r : (Dev×Bool)) (d1 : Dev), (x = s.dev.blockTx c (s.dev.blockPsdu c root)) ∧ (r = s.dev.planTx (bandAir c.band) x (some (s.dev.slotLimit (bandAir c.band)))) ∧ (d1 = (r.1.sequence s.dev.cmp.engine 5).journal s.dev.cmp.engine 5 0 s.dev.evTime (.camp cid 0)) ∧ (s.dev.camp cid = some c) ∧ (c.state = 3) ∧ (s.dev.cmp.lost = false) ∧ (s.dev.seqOpen s.dev.cmp.engine = true) ∧ (s.dev.act = mService) ∧ (s.dev.inCampSlot c = true) ∧ (c.nextBlocks.isEmpty = false) ∧ (s.dev.campHeld (fun k => k == cid) = false) ∧ (c.fcnt ≠ 0xFFFFFFFF) ∧ (s.dev.root c.tenant = some root) ∧ (s.dev.campHold c x = 0) ∧ (r.2 = true)) ∧
    (∃ (s : State) (cid : Nat) (c : Camp) (root : (List Byte)) (x : Tx) (r : (Dev×Bool)), (x = s.dev.blockTx c (s.dev.blockPsdu c root)) ∧ (r = s.dev.planTx (bandAir c.band) x (some (s.dev.slotLimit (bandAir c.band)))) ∧ (s.dev.camp cid = some c) ∧ (c.state = 3) ∧ (s.dev.cmp.lost = false) ∧ (s.dev.seqOpen s.dev.cmp.engine = true) ∧ (s.dev.act = mService) ∧ (s.dev.inCampSlot c = true) ∧ (c.nextBlocks.isEmpty = false) ∧ (s.dev.campHeld (fun k => k == cid) = false) ∧ (c.fcnt ≠ 0xFFFFFFFF) ∧ (s.dev.root c.tenant = some root) ∧ (s.dev.campHold c x = 0) ∧ (r.2 = false)) ∧
    (∃ (s : State) (cid : Nat) (c : Camp) (root : (List Byte)) (x : Tx) (flag : Nat) (d1 : Dev), (x = s.dev.blockTx c (s.dev.blockPsdu c root)) ∧ (d1 = (s.dev.sequence s.dev.cmp.engine 5).journal s.dev.cmp.engine 5 flag s.dev.evTime (.camp cid flag)) ∧ (s.dev.camp cid = some c) ∧ (c.state = 3) ∧ (s.dev.cmp.lost = false) ∧ (s.dev.seqOpen s.dev.cmp.engine = true) ∧ (s.dev.act = mService) ∧ (s.dev.inCampSlot c = true) ∧ (c.nextBlocks.isEmpty = false) ∧ (s.dev.campHeld (fun k => k == cid) = false) ∧ (c.fcnt ≠ 0xFFFFFFFF) ∧ (s.dev.root c.tenant = some root) ∧ (flag = s.dev.campHold c x) ∧ (flag ≠ 0)) ∧
    (∃ (s : State) (cid : Nat) (c : Camp), (s.dev.camp cid = some c) ∧ (c.state = 3) ∧ (s.dev.cmp.lost = false) ∧ (s.dev.seqOpen s.dev.cmp.engine = true) ∧ (s.dev.act = mService) ∧ (s.dev.inCampSlot c = true) ∧ (c.nextBlocks.isEmpty = false) ∧ (s.dev.campHeld (fun k => k == cid) = false) ∧ (c.fcnt ≠ 0xFFFFFFFF) ∧ (s.dev.root c.tenant = none)) ∧
    (∃ (s : State) (cid : Nat) (c : Camp), (s.dev.camp cid = some c) ∧ (c.state = 3) ∧ (s.dev.cmp.lost = false) ∧ (s.dev.seqOpen s.dev.cmp.engine = true) ∧ (s.dev.act = mService) ∧ (s.dev.inCampSlot c = true) ∧ (c.nextBlocks.isEmpty = false) ∧ (s.dev.campHeld (fun k => k == cid) = false) ∧ (c.fcnt = 0xFFFFFFFF)) ∧
    (∃ (s : State) (cid : Nat) (c : Camp), (s.dev.camp cid = some c) ∧ (c.state = 4) ∧ (c.waitLeft = 0) ∧ (s.dev.cmp.lost = false) ∧ (s.dev.mode ≠ mShadow)) ∧
    (∃ (s : State) (cid : Nat), (∀ c, s.dev.camp cid = some c → c.state ≠ 4 ∨ c.waitLeft ≠ 0 ∨ s.dev.cmp.lost = true ∨ s.dev.mode = mShadow)) ∧
    (∃ (s : State) (r : (NodeKey×Nat×List Byte)) (rest : (List (NodeKey×Nat×List Byte))), (s.dev.cmpIn = r :: rest)) ∧
    (∃ (s : State), (s.dev.cmp.engine = 1) ∧ ((s.dev.unit 6 2 0).state = .active) ∧ (s.dev.campHeld (fun _ => true) = false)) ∧
    (∃ (s : State), (s.dev.cmp.engine ≠ 1 ∨ (s.dev.unit 6 2 0).state ≠ .active ∨ s.dev.campHeld (fun _ => true) = true)) :=
  ⟨⟨{ dev := campDev 3 }, 1, by decide +kernel⟩,
   ⟨{ dev := up }, by decide +kernel⟩,
   ⟨{ dev := flying { up with pwr := { up.pwr with dramUp := true } } (cmdOf 0x0B01 1 0 0 [7]) }, 0, cmdOf 0x0B01 1 0 0 [7], by decide +kernel⟩,
   ⟨{ dev := flying { up with pwr := { up.pwr with dramUp := false } } (cmdOf 0x0B01 1 0 0 [7]) }, 0, cmdOf 0x0B01 1 0 0 [7], by decide +kernel⟩,
   ⟨st 2 (cmdOf 0x0B02 1 40 0 [7]), 0, cmdOf 0x0B02 1 40 0 [7], by decide +kernel⟩,
   ⟨{ dev := flying (campDev 0) (cmdOf 0x0B03 1 64 0 [31]), host := memWrite [] 0 campBody }, 0, cmdOf 0x0B03 1 64 0 [31], ({ cid := ((cmdOf 0x0B03 1 64 0 [31]) : Cmd).cid, body := ((cmdOf 0x0B03 1 64 0 [31]) : Cmd).buf (({ dev := flying (campDev 0) (cmdOf 0x0B03 1 64 0 [31]), host := memWrite [] 0 campBody }) : State).host 64 } : Camp), rfl, by decide +kernel⟩,
   ⟨st 2 (cmdOf 0x0B03 1 64 0 [31]), 0, cmdOf 0x0B03 1 64 0 [31], ({ cid := ((cmdOf 0x0B03 1 64 0 [31]) : Cmd).cid, body := ((cmdOf 0x0B03 1 64 0 [31]) : Cmd).buf ((st 2 (cmdOf 0x0B03 1 64 0 [31])) : State).host 64 } : Camp), rfl, by decide +kernel⟩,
   ⟨{ dev := flying (campDev 1) (cmdOf 0x0B04 1 8 1 [1]) }, 0, cmdOf 0x0B04 1 8 1 [1], addMembers ((cmdOf 0x0B04 1 8 1 [1]) : Cmd).cid (((cmdOf 0x0B04 1 8 1 [1]) : Cmd).recs (({ dev := flying (campDev 1) (cmdOf 0x0B04 1 8 1 [1]) }) : State).host 8) (({ dev := flying (campDev 1) (cmdOf 0x0B04 1 8 1 [1]) }) : State).dev 0, rfl, by decide +kernel⟩,
   ⟨{ dev := flying (campDev 1) (cmdOf 0x0B04 1 8 1 [1]), host := memWrite [] 6 [1] }, 0, cmdOf 0x0B04 1 8 1 [1], addMembers ((cmdOf 0x0B04 1 8 1 [1]) : Cmd).cid (((cmdOf 0x0B04 1 8 1 [1]) : Cmd).recs (({ dev := flying (campDev 1) (cmdOf 0x0B04 1 8 1 [1]), host := memWrite [] 6 [1] }) : State).host 8) (({ dev := flying (campDev 1) (cmdOf 0x0B04 1 8 1 [1]), host := memWrite [] 6 [1] }) : State).dev 0, rfl, by decide +kernel⟩,
   ⟨{ dev := flying (campDev 1) (ctrlCmd 0) }, 0, ctrlCmd 0, campIn 1, (({ dev := flying (campDev 1) (ctrlCmd 0) }) : State).dev.setCamp ((campIn 1) : Camp).cid (fun (y : Camp) => { y with state := 2 }), rfl, by decide +kernel⟩,
   ⟨{ dev := flying (campDev 4) (ctrlCmd 1) }, 0, ctrlCmd 1, campIn 4, by decide +kernel⟩,
   ⟨{ dev := flying (campDev 5) (ctrlCmd 2) }, 0, ctrlCmd 2, campIn 5, by decide +kernel⟩,
   ⟨{ dev := flying (campDev 2) (ctrlCmd 3) }, 0, ctrlCmd 3, campIn 2, by decide +kernel⟩,
   ⟨{ dev := flying (campDev 8) (ctrlCmd 4) }, 0, ctrlCmd 4, campIn 8, by decide +kernel⟩,
   ⟨{ dev := flying (campDev 4) (ctrlCmd 1) }, 0, ctrlCmd 1, 1, by decide +kernel⟩,
   ⟨{ dev := flying (campDev 3) (cmdOf 0x0B06 1 32 0 [1]) }, 0, cmdOf 0x0B06 1 32 0 [1], campIn 3, by decide +kernel⟩,
   ⟨{ dev := flying (campDev 0) (cmdOf 0x0B06 1 32 0 [1]) }, 0, cmdOf 0x0B06 1 32 0 [1], by decide +kernel⟩,
   ⟨{ dev := flying (campDev 3) (cmdOf 0x0B07 1 16 1 [1]) }, 0, cmdOf 0x0B07 1 16 1 [1], by decide +kernel⟩,
   ⟨{ dev := campSending }, 1, campIn 3, padTo 16 [], (({ dev := campSending }) : State).dev.blockTx ((campIn 3) : Camp) ((({ dev := campSending }) : State).dev.blockPsdu ((campIn 3) : Camp) ((padTo 16 []) : (List Byte))), (({ dev := campSending }) : State).dev.planTx (bandAir ((campIn 3) : Camp).band) (((({ dev := campSending }) : State).dev.blockTx ((campIn 3) : Camp) ((({ dev := campSending }) : State).dev.blockPsdu ((campIn 3) : Camp) ((padTo 16 []) : (List Byte)))) : Tx) (some ((({ dev := campSending }) : State).dev.slotLimit (bandAir ((campIn 3) : Camp).band))), ((((({ dev := campSending }) : State).dev.planTx (bandAir ((campIn 3) : Camp).band) (((({ dev := campSending }) : State).dev.blockTx ((campIn 3) : Camp) ((({ dev := campSending }) : State).dev.blockPsdu ((campIn 3) : Camp) ((padTo 16 []) : (List Byte)))) : Tx) (some ((({ dev := campSending }) : State).dev.slotLimit (bandAir ((campIn 3) : Camp).band)))) : (Dev×Bool)).1.sequence (({ dev := campSending }) : State).dev.cmp.engine 5).journal (({ dev := campSending }) : State).dev.cmp.engine 5 0 (({ dev := campSending }) : State).dev.evTime (.camp ((1) : Nat) 0), rfl, rfl, rfl, by decide +kernel⟩,
   ⟨{ dev := { campSending with pwr := { campSending.pwr with halted := 64 } } }, 1, campIn 3, padTo 16 [], (({ dev := { campSending with pwr := { campSending.pwr with halted := 64 } } }) : State).dev.blockTx ((campIn 3) : Camp) ((({ dev := { campSending with pwr := { campSending.pwr with halted := 64 } } }) : State).dev.blockPsdu ((campIn 3) : Camp) ((padTo 16 []) : (List Byte))), (({ dev := { campSending with pwr := { campSending.pwr with halted := 64 } } }) : State).dev.planTx (bandAir ((campIn 3) : Camp).band) (((({ dev := { campSending with pwr := { campSending.pwr with halted := 64 } } }) : State).dev.blockTx ((campIn 3) : Camp) ((({ dev := { campSending with pwr := { campSending.pwr with halted := 64 } } }) : State).dev.blockPsdu ((campIn 3) : Camp) ((padTo 16 []) : (List Byte)))) : Tx) (some ((({ dev := { campSending with pwr := { campSending.pwr with halted := 64 } } }) : State).dev.slotLimit (bandAir ((campIn 3) : Camp).band))), rfl, rfl, by decide +kernel⟩,
   ⟨{ dev := campMetered }, 1, campIn 3, padTo 16 [], (({ dev := campMetered }) : State).dev.blockTx ((campIn 3) : Camp) ((({ dev := campMetered }) : State).dev.blockPsdu ((campIn 3) : Camp) ((padTo 16 []) : (List Byte))), 1, ((({ dev := campMetered }) : State).dev.sequence (({ dev := campMetered }) : State).dev.cmp.engine 5).journal (({ dev := campMetered }) : State).dev.cmp.engine 5 ((1) : Nat) (({ dev := campMetered }) : State).dev.evTime (.camp ((1) : Nat) ((1) : Nat)), rfl, rfl, by decide +kernel⟩,
   ⟨{ dev := { campSending with vault := {} } }, 1, campIn 3, by decide +kernel⟩,
   ⟨{ dev := campSending.setCamp 1 (fun c => { c with fcnt := 0xFFFFFFFF }) }, 1, { campIn 3 with fcnt := 0xFFFFFFFF }, by decide +kernel⟩,
   ⟨{ dev := campDev 4 }, 1, campIn 4, by decide +kernel⟩,
   ⟨{ dev := campDev 3 }, 1, by decide +kernel⟩,
   ⟨{ dev := { up with cmpIn := [(⟨1, 0⟩, 0, [])] } }, (⟨1, 0⟩, 0, []), [], by decide +kernel⟩,
   ⟨{ dev := up.setUnit { (up.unit 6 2 0) with state := .active } }, by decide +kernel⟩,
   ⟨{ dev := up }, by decide +kernel⟩⟩

/-- States and operands that meet the hypotheses of `Obligations.StepRunsFront`, one part for each clause with hypotheses of its own. -/
theorem witness_StepRunsFront : (∃ (c : Instr) (s : State) (rest : List Instr), s.pending = c :: rest) := ⟨.nop 0, { pending := [.nop 0] }, [], rfl⟩

/-- States and operands that meet the hypotheses of `Obligations.EmptyQueueTicks`, one part for each clause with hypotheses of its own. -/
theorem witness_EmptyQueueTicks :
    ((∃ (s : State), s.pending = [])) ∧
    ((∃ (d : Dev), d.pwr.inReset = false ∧ d.pwr.resetDue = none ∧ d.dozeEntering = false ∧ d.hud.devWait = [])) ∧
    ((∃ (d : Dev), d.clockRuns = true ∧ d.time.lt = 2 ^ 64 - 1)) :=
  ⟨⟨{}, rfl⟩,
   ⟨up, by decide +kernel⟩,
   ⟨{ up with time := { lt := 2 ^ 64 - 1 } }, by decide +kernel⟩⟩

/-- States and operands that meet the hypotheses of `Obligations.InvariantKept`, one part for each clause with hypotheses of its own. -/
theorem witness_InvariantKept : (∃ (s : State), Inv s ∧ Settled s) := ⟨State.reset, by decide +kernel⟩

/-- States and operands that meet the hypotheses of `Obligations.HostMemoryFrame`, one part for each clause with hypotheses of its own. -/
theorem witness_HostMemoryFrame :
    ((∃ (i : Instr) (s t : State), writesHost i = false ∧ exec i s = .next t)) ∧
    ((∃ (i : Instr) (s t : State) (d : Dev) (ws : List (Nat × List Byte)) (a : Nat), BecomesWith i s d ws ∧ exec i s = .next t ∧ ws.length = 1 ∧ ∀ w ∈ ws, a < w.1 ∨ w.1 + w.2.length ≤ a)) ∧
    ((∃ (m : List Host.Cell), Memory.wf m = true)) :=
  ⟨⟨.porstNAssert, State.reset, _, rfl, rfl⟩,
   ⟨.cmpImgInfo 0 false, st 2 (cmdOf 0x0B02 1 40 0 [7]), _, _, _, 40, (show exec _ _ = _ from rfl), rfl, by decide +kernel, by decide +kernel⟩,
   ⟨[(3, 1#8)], by decide⟩⟩

/-- States and operands that meet the hypotheses of `Obligations.HostRowsRefuse`, one part for each clause with hypotheses of its own. -/
theorem witness_HostRowsRefuse :
    ((∃ (op id : Nat) (i : Instr) (s : State), HostRow op id i ∧ (∀ c, s.dev.cmd id = some c → c.op ≠ op ∨ c.stage ≠ .sequenced))) ∧
    ((∃ (op id : Nat) (i : Instr) (s : State) (c : Cmd), HostRow op id i ∧ s.dev.cmd id = some c ∧ c.op = op ∧ c.stage = .sequenced ∧ s.dev.keyBehind c = false ∧ s.dev.modeAccepts op = false)) ∧
    ((∃ (op id : Nat) (i : Instr) (s : State) (c : Cmd), HostRow op id i ∧ s.dev.cmd id = some c ∧ c.op = op ∧ c.stage = .sequenced ∧ s.dev.keyBehind c = false ∧ s.dev.targetDown c = true)) :=
  ⟨⟨1, 0, .nop 0, {}, .nop 0, fun c h => by cases h⟩,
   ⟨0x0201, 0, .queueSet 0 false, st 0 (cmdOf 0x0201 1 32 1 []), cmdOf 0x0201 1 32 1 [], .queueSet 0 false, by decide +kernel⟩,
   ⟨0x0201, 0, .queueSet 0 false, { dev := flying { up with pwr := { up.pwr with powered := 0 } } (cmdOf 0x0201 1 32 1 []) }, cmdOf 0x0201 1 32 1 [], .queueSet 0 false, by decide +kernel⟩⟩

/-- States and operands that meet the hypotheses of `Obligations.RegisterAccess`, one part for each clause with hypotheses of its own. -/
theorem witness_RegisterAccess :
    ((∃ (f : Fld), f.acc = .rw)) ∧
    ((∃ (f : Fld), f.acc = .rws)) ∧
    ((∃ (f : Fld) (k : Nat), f.acc = .w1c ∧ k < f.width)) ∧
    ((∃ (f : Fld), f.acc = .ro)) ∧
    ((∃ (p q : Page) (f g : Fld) (i j : Nat), g.key q j ≠ f.key p i)) ∧
    ((∃ (c e : Ctr), e.key ⟨e.tag, 0, 0⟩ 0 ≠ c.key ⟨c.tag, 0, 0⟩ 0)) :=
  ⟨⟨pgEn .FCL, rfl⟩,
   ⟨F.SNS.AVL_CTRL_EN, rfl⟩,
   ⟨pgSticky .FCL, 15, by decide⟩,
   ⟨pgRun .FCL, rfl⟩,
   ⟨⟨.FCL, 0, 0⟩, ⟨.FCL, 0, 0⟩, pgEn .FCL, pgSrst .FCL, 0, 0, by decide⟩,
   ⟨C.FCL.INTS, C.FCL.TRAPS, by decide⟩⟩

/-- States and operands that meet the hypotheses of `Obligations.PageAddresses`, one part for each clause with hypotheses of its own. -/
theorem witness_PageAddresses :
    ((∃ (die page off : Nat), die < 8 ∧ page < 512 ∧ off < 4096)) ∧
    ((∃ (p : Page) (off : Nat), p ∈ allPages ∧ off < 4096)) ∧
    ((∃ (a b num : Nat) (p q : Page), pageAt a num = some p ∧ pageAt b num = some q)) :=
  ⟨⟨7, 511, 4095, by decide⟩,
   ⟨⟨.TXF, 6, 3⟩, 4095, by decide +kernel⟩,
   ⟨5, 6, 0x187, ⟨.TXF, 5, 3⟩, ⟨.TXF, 6, 3⟩, by decide⟩⟩

/-- States and operands that meet the hypotheses of `Obligations.ResetScopes`, one part for each clause with hypotheses of its own. -/
theorem witness_ResetScopes :
    ((∃ (s : State), s.dev.pwr.inReset = false)) ∧
    ((∃ (s : State) (die page : Nat) (p : Page), Writable s.dev die page p ∧ Working s)) :=
  ⟨⟨{ dev := up }, rfl⟩,
   ⟨{ dev := up }, 0, 0x010, ⟨.ETH, 0, 0⟩, by decide +kernel⟩⟩

/-- States and operands that meet the hypotheses of `Obligations.ReactionCodes`, one part for each clause with hypotheses of its own. -/
theorem witness_ReactionCodes : (∃ (s : State) (die page : Nat) (p : Page), Writable s.dev die page p ∧ Working s) := ⟨{ dev := up }, 0, 0x010, ⟨.ETH, 0, 0⟩, by decide +kernel⟩

/-- States and operands that meet the hypotheses of `Obligations.NodeKeys`, one part for each clause with hypotheses of its own. -/
theorem witness_NodeKeys :
    ((∃ (k : NodeKey), k.tag < 2 ^ 32 ∧ k.tenant < 4096)) ∧
    ((∃ (a b : NodeKey), a.tag < 2 ^ 32 ∧ a.tenant < 4096 ∧ b.tag < 2 ^ 32 ∧ b.tenant < 4096 ∧ a.k6 = b.k6)) ∧
    ((∃ (a b : NodeKey), bitOf (crc32c 0xFFFFFFFF a.k6) 0 = false ∧ bitOf (crc32c 0xFFFFFFFF b.k6) 0 = true)) :=
  ⟨⟨⟨0xFFFFFFFF, 4095⟩, by decide⟩,
   ⟨⟨1, 2⟩, ⟨1, 2⟩, by decide⟩,
   ⟨⟨1, 0⟩, ⟨2, 0⟩, by decide +kernel⟩⟩

/-- States and operands that meet the hypotheses of `Obligations.LogVector`, one part for each clause with hypotheses of its own. -/
theorem witness_LogVector :
    ((∃ (d : Dev) (sev : Nat), d.g F.CPT.LOG_CFG_IRQ_SEV ≤ sev ∧ bitOf d.hl.msixUnmask 9 = true)) ∧
    ((∃ (d : Dev) (sev : Nat), d.g F.CPT.LOG_CFG_IRQ_SEV ≤ sev ∧ bitOf d.hl.msixUnmask 9 = false)) ∧
    ((∃ (d : Dev) (sev : Nat), sev < d.g F.CPT.LOG_CFG_IRQ_SEV)) :=
  ⟨⟨{ hl := { msixUnmask := 512 } }, 3, by decide +kernel⟩,
   ⟨{}, 3, by decide +kernel⟩,
   ⟨({} : Dev).w F.CPT.LOG_CFG_IRQ_SEV 2, 1, by decide +kernel⟩⟩

/-- States and operands that meet the hypotheses of `Obligations.TokensExclusive`, one part for each clause with hypotheses of its own. -/
theorem witness_TokensExclusive :
    ((∃ (s : State), TokensOk s.dev)) ∧
    ((∃ (s : State), TokensOk s.dev ∧ s.dev.mt.queue.length = 1)) :=
  ⟨⟨{ dev := { up with mt := { held := [⟨2, 1, none, 0⟩] } } }, List.pairwise_singleton _ _⟩,
   ⟨{ dev := { up with mt := { held := [⟨2, 1, none, 0⟩], queue := [⟨2, 1, none, 1⟩] } } }, List.pairwise_singleton _ _, rfl⟩⟩
end Sys2Proof.Tests
end

/-! PROOFS. What a row becomes: the answer of every command, of a write to one page, and of a host command that is ready. -/

namespace Sys2Proof.Machine
open Sys2Proof Sys2Proof.Safety

/-- Every command answers a next state with nothing due; what it does does not depend on the queue, and the queue stays. -/
theorem exec_completes (i : Instr) (s : State) : ∃ (d : Dev) (h : List Host.Cell), d.pwr.resetDue = none ∧
    ∀ q : List Instr, exec i { s with pending := q } = .next { dev := d, host := h, pending := q } := by
  obtain ⟨f, g, hx⟩ := exec_fun i
  exact ⟨_, _, Dev.settle_settled _, fun q => hx q s.host s.dev⟩

/-- A row that writes one page which can be written has the effect of the write there. -/
theorem becomes_of_pageWrite {s : State} {die page off : Nat} {p : Page} {lockable : Bool} {f : Dev → Page → Dev} {i : Instr}
    (hexec : exec i s = run s (fun d => d.pageWrite die page off lockable f)) (h : Writable s.dev die page p) : Becomes i s (f s.dev p) := by
  rw [Becomes, hexec, run_eq, Dev.pageWrite_one h]

/-- A reply that ends its command completes it. -/
theorem Dev.reply_done (d : Dev) (id : Nat) {r : Reply} (h : r.later = false) : d.reply id r = d.finish id r := by
  rw [Dev.reply, h]; rfl

/-- The row of a command that is ready runs its body and, where the reply ends the command, completes it. -/
theorem becomes_of_runCmd {i : Instr} {s : State} {op id : Nat} {c : Cmd} {range : Dev → Cmd → Option Nat} {body : Dev → Cmd → Dev × Reply}
    (hexec : exec i s = .next { s with dev := (s.dev.runCmd op id false range body).settle }) (h : Ready s.dev op id c range)
    (hdone : (body s.dev c).2.later = false) :
    Becomes i s ((body s.dev c).1.finish id (body s.dev c).2) := by
  rw [Becomes, hexec, Dev.runCmd_ready h, Dev.reply_done _ id hdone]

/-- The same for a command that writes its data buffer. -/
theorem becomesWith_of_runCmdH {i : Instr} {s : State} {op id : Nat} {c : Cmd} {range : Dev → Cmd → Option Nat}
    {body : List Host.Cell → Dev → Cmd → Dev × Reply × List Byte}
    (hexec : exec i s = runHost s (fun m d => d.runCmdH m op id false range body)) (h : Ready s.dev op id c range)
    (hdone : (body s.host s.dev c).2.1.later = false) :
    BecomesWith i s ((body s.host s.dev c).1.finish id (body s.host s.dev c).2.1) [(c.addr, (body s.host s.dev c).2.2)] := by
  rw [BecomesWith, hexec, runHost_eq, Dev.runCmdH_ready h, Dev.reply_done _ id hdone]

end Sys2Proof.Machine

/-! PROOFS. The order of the queue, that every command completes, and the frame on host memory. -/

namespace Sys2Proof.Machine
open Sys2Proof Sys2Proof.Safety

/-- A step with a command waiting is that command on the rest of the queue. -/
theorem step_cons (c : Instr) (q : List Instr) (s : State) : step { s with pending := c :: q } = exec c { s with pending := q } := rfl

/-- A command that answers a next state hands it to those behind it. -/
theorem runAll_cons {c : Instr} {s t : State} (h : exec c s = .next t) (cs : List Instr) : runAll (c :: cs) s = runAll cs t := by
  simp only [runAll, h]

/-- A step that answers a next state hands it to the steps behind it. -/
theorem steps_succ {s t : State} (h : step s = .next t) (n : Nat) : steps (n + 1) s = steps n t := by
  simp only [steps, h]

/-- Settles O49, by induction on the commands: the first leaves the rest of the queue as it was. -/
theorem runsInOrder : Obligations.RunsInOrder := by
  intro cs rest
  induction cs with
  | nil => exact fun s => ⟨_, rfl, rfl, rfl⟩
  | cons c cs ih =>
    intro s
    obtain ⟨d, h, -, hexec⟩ := exec_completes c s
    obtain ⟨t, hrun, hsteps, hrest⟩ := ih { dev := d, host := h, pending := [] }
    refine ⟨t, ?_, ?_, hrest⟩
    · rw [runAll_cons (hexec rest), hrun]
    · have hstep := (step_cons c (cs ++ rest) s).trans (hexec (cs ++ rest))
      rw [List.length_cons, List.cons_append, steps_succ hstep, hsteps]

/-- Settles O50: every command is a function of device and host memory, followed by the end that all commands share. -/
theorem everyCommandCompletes : Obligations.EveryCommandCompletes := exec_completes

/-- A meaning that lists no writes changes the device alone. -/
theorem runHost_no_writes {s : State} {f : List Host.Cell → Dev → Dev × List (Nat × List Byte)} (h : (f s.host s.dev).2 = []) :
    ∃ d : Dev, runHost s f = .next { s with dev := d } :=
  ⟨_, by rw [runHost_eq, h]; rfl⟩

/-- A fetch reads the command's record and writes nothing, whatever becomes of it (R96, R97). -/
theorem execCommandFetch_device_only (ring : Nat) (readErr : Bool) (s : State) :
    ∃ d : Dev, execCommandFetch ring readErr s = .next { s with dev := d } := by
  refine runHost_no_writes ?_
  dsimp only
  repeat' split
  all_goals rfl

/-- A row that is no read into a data buffer and no completion write changes the device alone. -/
theorem exec_device_only {i : Instr} (h : writesHost i = false) (s : State) : ∃ d : Dev, exec i s = .next { s with dev := d } := by
  cases i
  case commandFetch ring readErr => exact execCommandFetch_device_only ring readErr s
  all_goals first | exact nomatch (h : true = false) | exact ⟨_, rfl⟩

/-- Settles O51, from the frame of a list of writes and the reads of octets just written. -/
theorem hostMemoryFrame : Obligations.HostMemoryFrame := by
  refine ⟨?_, ?_, fun m a bs h => memRead_memWrite bs m a h⟩
  · intro i s t hi ht
    obtain ⟨d, hd⟩ := exec_device_only hi s
    cases (hd.symm.trans ht)
    rfl
  · intro i s t d ws a hb ht houtside
    cases (hb.symm.trans ht)
    exact memGet_memWrites_outside a ws s.host houtside

end Sys2Proof.Machine

/-! PROOFS. Writes of register fields by access type (R5 to R7) and counting (R546). -/

namespace Sys2Proof.Machine
open Sys2Proof Sys2Proof.Safety

/-- The copy that the host reads, after the host's copy was written. -/
theorem Dev.getS_putS_same (d : Dev) (f : Fld) (p : Page) (v i : Nat) : (d.putS f p v i).getS f p i = trunc f.width v := by
  unfold Dev.putS Dev.getS RegFile.setS RegFile.getS
  cases h : f.acc <;> simp

/-- A write of the host's copy of a staged field leaves its live copy. -/
theorem Dev.get_putS_rws {f : Fld} (h : f.acc = .rws) (d : Dev) (p : Page) (v i : Nat) : (d.putS f p v i).get f p i = d.get f p i := by
  simp only [Dev.putS, Dev.get, RegFile.setS, RegFile.get, h]

/-- A write of the host's copy leaves every field with another key as it was. -/
theorem Dev.get_putS_other (d : Dev) (f f' : Fld) (p p' : Page) (v i i' : Nat) (h : f'.key p' i' ≠ f.key p i) :
    (d.putS f p v i).get f' p' i' = d.get f' p' i' := by
  unfold Dev.putS Dev.get RegFile.setS RegFile.get
  cases f.acc <;> cases f'.acc <;> simp [kvGet_kvSet_other, h]

/-- The same for what the host reads of another field. -/
theorem Dev.getS_putS_other (d : Dev) (f f' : Fld) (p p' : Page) (v i i' : Nat) (h : f'.key p' i' ≠ f.key p i) :
    (d.putS f p v i).getS f' p' i' = d.getS f' p' i' := by
  unfold Dev.putS Dev.getS RegFile.setS RegFile.getS
  cases f.acc <;> cases f'.acc <;> simp [kvGet_kvSet_other, h]

section
variable {f : Fld} (d : Dev) (p : Page) (data i : Nat)

/-- An RW field takes the bits written. -/
theorem Dev.writeField_rw (h : f.acc = .rw) : d.writeField p data (f, i) = d.put f p (bitsOf data f.lsb f.width) i := by
  simp only [Dev.writeField, h]

/-- The staged copy of an RWS field takes the bits written. -/
theorem Dev.writeField_rws (h : f.acc = .rws) : d.writeField p data (f, i) = d.putS f p (bitsOf data f.lsb f.width) i := by
  simp only [Dev.writeField, h]

/-- A W1C field keeps the set bits that are not written 1. -/
theorem Dev.writeField_w1c (h : f.acc = .w1c) : d.writeField p data (f, i) =
    d.put f p (ofBits ((bitList f.width (d.get f p i)).filter (fun b => !bitOf (bitsOf data f.lsb f.width) b))) i := by
  simp only [Dev.writeField, h]

/-- A field of another access type ignores a write. -/
theorem Dev.writeField_ignored (h : f.acc = .ro ∨ f.acc = .rc ∨ f.acc = .wo) : d.writeField p data (f, i) = d := by
  rcases h with h | h | h <;> simp only [Dev.writeField, h]

/-- A write of a field leaves both copies of every field with another key. -/
theorem Dev.writeField_other (q : Page) (g : Fld) (j : Nat) (h : g.key q j ≠ f.key p i) :
    (d.writeField p data (f, i)).get g q j = d.get g q j ∧ (d.writeField p data (f, i)).getS g q j = d.getS g q j := by
  cases hacc : f.acc with
  | rw => rw [d.writeField_rw p data i hacc]; exact ⟨d.get_put_other _ _ _ _ _ _ _ h, d.getS_put_other _ _ _ _ _ _ _ h⟩
  | rws => rw [d.writeField_rws p data i hacc]; exact ⟨d.get_putS_other _ _ _ _ _ _ _ h, d.getS_putS_other _ _ _ _ _ _ _ h⟩
  | w1c => rw [d.writeField_w1c p data i hacc]; exact ⟨d.get_put_other _ _ _ _ _ _ _ h, d.getS_put_other _ _ _ _ _ _ _ h⟩
  | ro | rc | wo => rw [d.writeField_ignored p data i (by simp [hacc])]; exact ⟨rfl, rfl⟩

end

/-- Whether a bit number is among the set bits of a value that a test keeps. -/
theorem contains_bitList_filter (w v k : Nat) (t : Nat → Bool) : ((bitList w v).filter t).contains k = (decide (k < w) && bitOf v k && t k) := by
  rw [Bool.eq_iff_iff]
  simp [bitList, and_assoc, and_comm (a := t k = true)]

/-- A bit of a value cut to a width, below the width. -/
theorem bitOf_trunc {w k : Nat} (h : k < w) (v : Nat) : bitOf (trunc w v) k = v.testBit k := by
  rw [bitOf_eq, trunc, Nat.testBit_mod_two_pow, decide_eq_true h, Bool.true_and]

/-- A W1C field after a write, bit by bit (R7). -/
theorem Dev.bitOf_writeField_w1c {f : Fld} (hacc : f.acc = .w1c) {k : Nat} (hk : k < f.width) (d : Dev) (p : Page) (data i : Nat) :
    bitOf ((d.writeField p data (f, i)).get f p i) k = (bitOf (d.get f p i) k && !bitOf (bitsOf data f.lsb f.width) k) := by
  rw [d.writeField_w1c p data i hacc, Dev.get_put_same, bitOf_trunc hk, testBit_ofBits, contains_bitList_filter, decide_eq_true hk, Bool.true_and]

/-- Settles O53, from what a write does to a field of each access type. -/
theorem registerAccess : Obligations.RegisterAccess := by
  refine ⟨?_, ?_, ?_, ?_, ?_, ?_, ?_, ?_⟩
  · intro d p data f i hacc
    rw [d.writeField_rw p data i hacc, Dev.get_put_same, trunc_bitsOf]
  · intro d p data f i hacc
    rw [d.writeField_rws p data i hacc]
    exact ⟨by rw [Dev.getS_putS_same, trunc_bitsOf], Dev.get_putS_rws hacc d p _ i⟩
  · intro d p data f i k hacc hk
    exact Dev.bitOf_writeField_w1c hacc hk d p data i
  · intro d p data f i hacc
    exact d.writeField_ignored p data i hacc
  · intro d p q data f g i j hkey
    exact d.writeField_other p data i q g j hkey
  · intro d c n die inst i
    exact d.ctr_addc_same c n die inst i
  · intro d c e n die inst i die' inst' j hkey
    exact d.ctr_addc_other c e n die inst i die' inst' j hkey
  · intro d c n die inst i f p j
    exact d.get_addc c n die inst i f p j

end Sys2Proof.Machine

/-! PROOFS. Reads of registers through BAR0 and BAR2 (R75 to R79, R88). -/

namespace Sys2Proof.Machine
open Sys2Proof Sys2Proof.Safety

section
variable {d : Dev} {addr size : Nat} {p : Page}

/-- A read of a counter of a page that answers. -/
theorem Dev.regRead_counter (h : Readable d addr size p) (hoff : 0x800 ≤ addrOff addr) : d.regRead (addr % 2 ^ 24) size = d.ctrRead addr size := by
  rw [Dev.regRead_readable h, if_pos hoff]

/-- A read of a register of the common part. -/
theorem Dev.regRead_common (h : Readable d addr size p) (hoff : addrOff addr < 0x040) :
    d.regRead (addr % 2 ^ 24) size = d.emit (.readData addr (d.commonWord p (addrOff addr))) := by
  rw [Dev.regRead_readable h, if_neg (by omega), if_pos hoff]

/-- A read of a register of the block. -/
theorem Dev.regRead_block (h : Readable d addr size p) (hlo : 0x040 ≤ addrOff addr) (hhi : addrOff addr < 0x800) :
    d.regRead (addr % 2 ^ 24) size = d.blockRead p addr := by
  rw [Dev.regRead_readable h, if_neg (by omega), if_neg (by omega)]

/-- A read of the page 0x1FF of the Anchor die. -/
theorem Dev.regRead_msix (h : addr < 2 ^ 24) (hdie : addrDie addr = 0) (hpage : addrPage addr = 0x1FF) (hpwr : d.regionOn 0 = true)
    (hsize : accessOk (addrOff addr) size = true) : d.regRead (addr % 2 ^ 24) size = d.emit (.readData addr (d.msixWord (addrOff addr) size)) := by
  rw [Nat.mod_eq_of_lt h]
  simp [Dev.regRead, hdie, hpage, hpwr, hsize]

/-- A read of die 7 fails (R77). -/
theorem Dev.regRead_die7 (h : addr < 2 ^ 24) (hdie : addrDie addr = 7) : d.regRead (addr % 2 ^ 24) size = d.failRead addr 2 := by
  rw [Nat.mod_eq_of_lt h]
  simp [Dev.regRead, hdie]

/-- A read of one die outside the MSI-X page is answered by the page under its number, or fails. -/
theorem Dev.regRead_one (h : addr < 2 ^ 24) (hdie : addrDie addr ≠ 7) (hmsix : ¬(addrDie addr = 0 ∧ addrPage addr = 0x1FF)) :
    d.regRead (addr % 2 ^ 24) size = (pageAt (addrDie addr) (addrPage addr)).elim (d.failRead addr 1) (fun p =>
      if !p.poweredBy d.pwr.powered then d.failRead addr 3
      else if !accessOk (addrOff addr) size then d.failRead addr 4
      else if 0x800 ≤ addrOff addr then d.ctrRead addr size
      else if addrOff addr < 0x040 then d.emit (.readData addr (d.commonWord p (addrOff addr)))
      else d.blockRead p addr) := by
  have hbool : (addrDie addr == 0 && addrPage addr == 0x1FF) = false := by simpa using hmsix
  rw [Nat.mod_eq_of_lt h]
  simp only [Dev.regRead, beq_eq_false_iff_ne.mpr hdie, hbool, Bool.false_eq_true, if_false]
  cases pageAt (addrDie addr) (addrPage addr) <;> rfl

/-- The low half of a split register is returned and its other words are held (R57). -/
theorem Dev.blockRead_split {v : Nat} {his : List (Nat × Nat)} (h : d.splitAt addr = some (v, his)) :
    d.blockRead p addr = (d.each his (fun d h => { d with rf := { d.rf with split := kvSet 0 d.rf.split h.1 h.2 } })).emit (.readData addr v) := by
  simp only [Dev.blockRead, h]

/-- Another word of a split register returns what is held. -/
theorem Dev.blockRead_held (h : d.splitAt addr = none) (hhigh : d.splitHigh addr = true) :
    d.blockRead p addr = d.emit (.readData addr (kvGet 0 d.rf.split addr)) := by
  simp only [Dev.blockRead, h, hhigh, if_true]

/-- A register that is no split register is returned and its RC fields are cleared (R5). -/
theorem Dev.blockRead_plain (h : d.splitAt addr = none) (hhigh : d.splitHigh addr = false) :
    d.blockRead p addr = ((fieldsAt p (addrOff addr)).filter (fun x => x.1.acc == .rc)).foldl (fun d x => d.put x.1 p 0 x.2)
      (d.emit (.readData addr (d.word p (addrOff addr)))) := by
  simp only [Dev.blockRead, h, hhigh, Bool.false_eq_true, if_false]

/-- A whole counter in 8 octets. -/
theorem Dev.ctrRead_whole : d.ctrRead addr 8 = d.emit (.readData addr (kvGet 0 d.rf.ctrs (addr / 8 * 8))) := rfl

/-- The low half of a counter is returned and the high half held (R78). -/
theorem Dev.ctrRead_low (h : addr % 8 = 0) : d.ctrRead addr 4 =
    ({ d with rf := { d.rf with ctrHi := kvSet (2 ^ 32) d.rf.ctrHi (addr / 8 * 8) (kvGet 0 d.rf.ctrs (addr / 8 * 8) / 2 ^ 32) } } : Dev).emit
      (.readData addr (kvGet 0 d.rf.ctrs (addr / 8 * 8) % 2 ^ 32)) := by
  simp [Dev.ctrRead, h]

/-- The high half of a counter: what is held, or with nothing held the counter's own, and nothing is held after that (R78, log 13). -/
theorem Dev.ctrRead_high (h : addr % 8 ≠ 0) : d.ctrRead addr 4 =
    ({ d with rf := { d.rf with ctrHi := kvSet (2 ^ 32) d.rf.ctrHi (addr / 8 * 8) (2 ^ 32) } } : Dev).emit
      (.readData addr (if kvGet (2 ^ 32) d.rf.ctrHi (addr / 8 * 8) = 2 ^ 32 then kvGet 0 d.rf.ctrs (addr / 8 * 8) / 2 ^ 32
        else kvGet (2 ^ 32) d.rf.ctrHi (addr / 8 * 8))) := by
  simp [Dev.ctrRead, h]

end

/-- What becomes of the device at a BAR2 access that is denied: it is counted, and a read returns 0 (R88). -/
def Dev.bar2Deny (d : Dev) (write : Bool) (addr : Nat) : Dev := (d.wSat F.HST.UREAD_DENY_CNT 1).when (!write) (fun d => d.emit (.readData addr 0))

/-- A BAR2 access of a powered page with a size and alignment that it takes (R88). -/
theorem bar2Access_readable {s : State} {addr size : Nat} {p : Page} (h : Readable s.dev addr size p) (write : Bool) :
    Becomes (.bar2Access write addr size) s
      (if write || s.dev.get (pgUread p.tag) p == 0 then s.dev.bar2Deny write addr
      else if addrOff addr == 0 then s.dev.emit (.readData addr p.id)
      else if addrOff addr < 0x800 then s.dev.bar2Deny write addr
      else
        let v := kvGet 0 s.dev.rf.ctrs (p.base + addrOff addr / 8 * 8)
        s.dev.emit (.readData addr (if size == 8 then v else if addrOff addr % 8 == 0 then v % 2 ^ 32 else v / 2 ^ 32))) := by
  obtain ⟨hlt, hdie, hpage, hpwr, hsize⟩ := h
  have haddr : addr % barBytes = addr := Nat.mod_eq_of_lt hlt
  show execBar2Access write addr size s = _
  simp only [execBar2Access, run_eq, haddr, hpage, hpwr, hsize, beq_eq_false_iff_ne.mpr hdie, Bool.not_true, Bool.false_eq_true, if_false]
  rfl

/-- READ_CLEAR leaves the device that the read leaves. -/
theorem readClear_of_regRead {s : State} {addr size : Nat} {d : Dev} (h : s.dev.regRead (addr % 2 ^ 24) size = d) :
    Becomes (.readClear ⟨addr, size⟩) s d := h ▸ rfl

/-- LATCHING_READ is a read of 4 octets. -/
theorem latchingRead_of_regRead {s : State} {addr : Nat} {d : Dev} (h : s.dev.regRead (addr % 2 ^ 24) 4 = d) :
    Becomes (.latchingRead addr) s d := h ▸ rfl

/-- COUNTER_HALF_READ is a read of 4 octets. -/
theorem counterHalfRead_of_regRead {s : State} {addr : Nat} {d : Dev} (h : s.dev.regRead (addr % 2 ^ 24) 4 = d) :
    Becomes (.counterHalfRead addr) s d := h ▸ rfl

/-- Settles O7, clause by clause: the read that a row makes, then the case of the register space that answers it. -/
theorem registerReads : Obligations.RegisterReads := by
  refine ⟨?_, ?_, ?_, ?_, ?_, ?_, ?_, ?_, ?_, ?_, ?_, ?_, ?_, ?_, ?_, ?_, ?_⟩
  · intro s addr p h hlo hhi hnone hhigh
    exact readClear_of_regRead ((Dev.regRead_block h hlo hhi).trans (Dev.blockRead_plain hnone hhigh))
  · intro s addr p h hoff
    exact readClear_of_regRead (Dev.regRead_common h hoff)
  · intro s addr p h hoff
    exact readClear_of_regRead ((Dev.regRead_counter h hoff).trans Dev.ctrRead_whole)
  · intro s addr p v his h hlo hhi hsplit
    exact latchingRead_of_regRead ((Dev.regRead_block h hlo hhi).trans (Dev.blockRead_split hsplit))
  · intro s addr p h hlo hhi hnone hhigh
    exact readClear_of_regRead ((Dev.regRead_block h hlo hhi).trans (Dev.blockRead_held hnone hhigh))
  · rintro s addr p k h hoff hlow rfl
    exact counterHalfRead_of_regRead ((Dev.regRead_counter h hoff).trans (Dev.ctrRead_low hlow))
  · rintro s addr p k h hoff hhigh rfl hheld
    exact counterHalfRead_of_regRead ((Dev.regRead_counter h hoff).trans ((Dev.ctrRead_high hhigh).trans (by rw [if_neg hheld])))
  · rintro s addr p k h hoff hhigh rfl hnothing
    exact counterHalfRead_of_regRead ((Dev.regRead_counter h hoff).trans ((Dev.ctrRead_high hhigh).trans (by rw [if_pos hnothing])))
  · intro s addr size h hdie hpage hpwr hsize
    exact readClear_of_regRead (Dev.regRead_msix h hdie hpage hpwr hsize)
  · intro s addr size h hdie
    exact readClear_of_regRead (Dev.regRead_die7 h hdie)
  · intro s addr size h hdie hmsix hpage
    exact readClear_of_regRead ((Dev.regRead_one h hdie hmsix).trans (by rw [hpage]; rfl))
  · intro s addr size p h hdie hmsix hpage hpwr
    exact readClear_of_regRead ((Dev.regRead_one h hdie hmsix).trans (by rw [hpage, Option.elim_some, hpwr]; rfl))
  · intro s addr size p h hdie hmsix hpage hpwr hsize
    exact readClear_of_regRead ((Dev.regRead_one h hdie hmsix).trans (by rw [hpage, Option.elim_some, hpwr, hsize]; rfl))
  · intro s addr p h huread hoff
    have hbar := bar2Access_readable h false
    rwa [huread, hoff] at hbar
  · rintro s addr size p v h huread hoff rfl
    have hbar := bar2Access_readable h false
    rwa [huread, if_neg (by decide), if_neg (by simp; omega), if_neg (by omega)] at hbar
  · intro s addr size p h hdeny
    have hbar := bar2Access_readable h false
    rcases hdeny with huread | ⟨hpos, hlow⟩
    · rwa [huread] at hbar
    · rwa [if_neg (c := (addrOff addr == 0) = true) (by simp; omega), if_pos hlow, ite_self] at hbar
  · intro s addr size p h
    exact bar2Access_readable h true

end Sys2Proof.Machine

/-! PROOFS. Writes of registers through BAR0 and of the common registers of a page (R75 to R89). -/

namespace Sys2Proof.Machine
open Sys2Proof Sys2Proof.Safety

section
variable {d : Dev} {addr data size : Nat}

/-- A write of the MSI-X page, of the Anchor die or of every die. -/
theorem Dev.regWrite_msix (h : addr < 2 ^ 24) (hpage : addrPage addr = 0x1FF) (hdie : addrDie addr = 0 ∨ addrDie addr = 7) :
    d.regWrite (addr % 2 ^ 24) data size = d.msixWrite addr data size := by
  rw [Nat.mod_eq_of_lt h]
  rcases hdie with hdie | hdie <;> simp [Dev.regWrite, hpage, hdie]

/-- A write to a page that no addressed die has fails. -/
theorem Dev.regWrite_no_page (h : addr < 2 ^ 24) (hpage : addrPage addr ≠ 0x1FF) (hnone : targets (addrDie addr) (addrPage addr) = []) :
    d.regWrite (addr % 2 ^ 24) data size = d.failAcc addr 0 1 := by
  rw [Nat.mod_eq_of_lt h]
  simp [Dev.regWrite, hpage, hnone]

/-- A write to a page that some die has: a wrong size or alignment fails; else the register at the offset takes it. -/
theorem Dev.regWrite_some (h : addr < 2 ^ 24) (hpage : addrPage addr ≠ 0x1FF) (hsome : targets (addrDie addr) (addrPage addr) ≠ []) :
    d.regWrite (addr % 2 ^ 24) data size =
      if accessOk (addrOff addr) size = false then d.failAcc addr 0 4
      else if addrOff addr < 0x040 then d.commonWrite (addrDie addr) (addrPage addr) (addrOff addr) (data % 2 ^ 32)
      else if addrPage addr = rsmPage ∧ (addrOff addr = 0x058 ∨ addrOff addr = 0x05C) then d.rsmWrite (addrDie addr) (addrOff addr) data
      else (regCommand (addrDie addr) (addrPage addr) (addrOff addr) (data % 2 ^ 32)).elim
        (d.plainWrite (addrDie addr) (addrPage addr) (addrOff addr) (data % 2 ^ 32)) d.via := by
  have hempty : (targets (addrDie addr) (addrPage addr)).isEmpty = false := by simpa using hsome
  rw [Nat.mod_eq_of_lt h]
  simp only [Dev.regWrite, beq_eq_false_iff_ne.mpr hpage, hempty, Bool.false_and, Bool.false_eq_true, if_false, Bool.not_eq_true',
    Bool.and_eq_true, Bool.or_eq_true, beq_iff_eq]
  cases regCommand (addrDie addr) (addrPage addr) (addrOff addr) (data % 2 ^ 32) <;> rfl

end

/-- REGISTER_WRITE leaves the device that the write leaves. -/
theorem registerWrite_of_regWrite {s : State} {addr data size : Nat} {d : Dev} (h : s.dev.regWrite (addr % 2 ^ 24) data size = d) :
    Becomes (.registerWrite addr data size) s d := h ▸ rfl

/-- A plain write to one page that takes it (R5, R79). -/
theorem Dev.plainWrite_one {d : Dev} {die page : Nat} {p : Page} (h : Writable d die page p) (off data : Nat) :
    d.plainWrite die page off data =
      if p.tag = .LIM ∧ off = F.LIM.LOCK_IDX_IDX.off ∧ 156 < data % 256 then d.failAcc (p.base + off) 0 8
      else ((fieldsAt p off).foldl (fun d x => d.writeField p data x) d).afterWrite p off data := by
  simp only [Dev.plainWrite, Dev.pageWrite_one h, Bool.and_eq_true, beq_iff_eq, decide_eq_true_eq, and_assoc]

/-- SOFT_RESET_DONE ends the soft reset in progress of the page under its number, if a die implements that page (R82). -/
theorem softResetDone_becomes (die page : Nat) (s : State) : Becomes (.softResetDone die page) s ((pageAt die page).elim s.dev (fun p =>
    if s.dev.get (pgRstBusy p.tag) p != 1 then s.dev else (s.dev.put (pgRstBusy p.tag) p 0).blockFresh p)) := rfl

/-- Settles O8, clause by clause: the case of the register space that a write meets. -/
theorem registerWrites : Obligations.RegisterWrites := by
  refine ⟨?_, ?_, ?_, ?_, ?_, ?_, ?_, ?_, ?_, ?_, ?_, ?_, ?_, ?_, ?_, ?_⟩
  · intro s addr data size h hpage hdie
    exact registerWrite_of_regWrite (Dev.regWrite_msix h hpage hdie)
  · intro s addr data size h hpage hnone
    exact registerWrite_of_regWrite (Dev.regWrite_no_page h hpage hnone)
  · intro s addr data size h hpage hsome hsize
    exact registerWrite_of_regWrite ((Dev.regWrite_some h hpage hsome).trans (if_pos hsize))
  · intro s addr data size h hpage hsome hsize hoff
    exact registerWrite_of_regWrite ((Dev.regWrite_some h hpage hsome).trans (by rw [hsize, if_neg Bool.noConfusion, if_pos hoff]))
  · intro s addr data h hpage hsome hoff
    have hsize : accessOk (addrOff addr) 4 = true := by rcases hoff with hoff | hoff <;> rw [hoff] <;> rfl
    exact registerWrite_of_regWrite ((Dev.regWrite_some h (by rw [hpage]; decide) hsome).trans
      (by rw [hsize, if_neg Bool.noConfusion, if_neg (by omega), if_pos ⟨hpage, hoff⟩]))
  · intro s addr data size f h hpage hsome hsize hoff hrsm hcmd
    exact registerWrite_of_regWrite ((Dev.regWrite_some h hpage hsome).trans
      (by rw [hsize, if_neg Bool.noConfusion, if_neg (by omega), if_neg hrsm, hcmd]; rfl))
  · intro s addr data size h hpage hsome hsize hoff hrsm hcmd
    exact registerWrite_of_regWrite ((Dev.regWrite_some h hpage hsome).trans
      (by rw [hsize, if_neg Bool.noConfusion, if_neg (by omega), if_neg hrsm, Option.isNone_iff_eq_none.mp hcmd]; rfl))
  · intro d die page off data p h hlim
    exact (Dev.plainWrite_one h off data).trans (if_neg hlim)
  · intro d die page data p h htag hdata
    exact (Dev.plainWrite_one h _ data).trans (if_pos ⟨htag, rfl, hdata⟩)
  · intro s die page p h
    exact becomes_of_pageWrite (i := .blockSoftReset die page) rfl h
  · intro s die page p hpage hbusy
    have hdone := softResetDone_becomes die page s
    rwa [hpage, Option.elim_some, hbusy] at hdone
  · intro s die page hidle
    have hdone := softResetDone_becomes die page s
    cases hpage : pageAt die page with
    | none => rwa [hpage] at hdone
    | some p => rwa [hpage, Option.elim_some, if_pos (by simpa using hidle p hpage)] at hdone
  · intro s die page p h
    exact becomes_of_pageWrite (i := .pageLock die page) rfl h
  · intro s die page p h
    exact becomes_of_pageWrite (i := .pgCommit die page) rfl h
  · intro d p hbusy
    simp only [Dev.commitGo, hbusy, beq_self_eq_true, if_true]
  · intro d p hbusy hroute hhalted
    simp only [Dev.commitGo, beq_eq_false_iff_ne.mpr hbusy, hroute, hhalted, Bool.false_eq_true, if_false, Bool.and_self, if_true]

end Sys2Proof.Machine

/-! PROOFS. The gateway's rows and its commands (chapter 15). -/

namespace Sys2Proof.Machine
open Sys2Proof Sys2Proof.Safety

section
variable {i : Instr} {s : State} {id op : Nat} {c : Cmd} {go : Dev → Nat → Dev}

/-- A row of BUS_MODE whose command is ready and of the row's OP acts on the buses of its mask that take it, and the others fail (R445). -/
theorem becomes_of_busMode (hexec : exec i s = run s (fun d => d.busMode id op go)) (h : Ready s.dev 0x0506 id c busRange) (hop : c.par 28 1 = op) :
    Becomes i s ((s.dev.each ((bitList 32 (c.par 24 4)).filter (s.dev.busReady op)) go).finish id
      { tryM := c.par 24 4, okM := ofBits ((bitList 32 (c.par 24 4)).filter (s.dev.busReady op)), fail := stDown, result := 0 }) := by
  have hany : (s.dev.cmd id).any (fun c => c.par 28 1 == op || 3 < c.par 28 1) = true := by simp [h.1, hop]
  rw [run_eq, Dev.busMode, hany, Bool.not_true, if_neg Bool.noConfusion] at hexec
  exact becomes_of_runCmd hexec h rfl

/-- A row of BUS_MODE leaves a command of another OP alone. -/
theorem noEffect_of_busMode (hexec : exec i s = run s (fun d => d.busMode id op go)) (h : s.dev.cmd id = some c) (hop : c.par 28 1 ≠ op)
    (hle : c.par 28 1 ≤ 3) : NoEffect i s := by
  have hany : (s.dev.cmd id).any (fun c => c.par 28 1 == op || 3 < c.par 28 1) = false := by simpa [h] using And.intro hop hle
  rw [NoEffect, Becomes, hexec, run_eq, Dev.busMode, hany]
  rfl

end

/-- With no event waiting GATEWAY_EVENT has no effect. -/
theorem gatewayEvent_nil {s : State} (h : s.dev.gw.inq = []) : NoEffect .gatewayEvent s := by
  show execGatewayEvent s = _
  simp only [execGatewayEvent, run_eq, h]

/-- GATEWAY_EVENT takes the oldest event, unless the engine is down or the event's record waits (R434, R490). -/
theorem gatewayEvent_cons {s : State} {e : GwEv} {rest : List GwEv} (h : s.dev.gw.inq = e :: rest) : Becomes .gatewayEvent s
    (if !s.dev.gwUp || s.dev.recordWaits 1 e.seq then s.dev
    else { s.dev with gw := { s.dev.gw with inq := rest } }.underSeq e.seq (fun d => d.gwRun e)) := by
  show execGatewayEvent s = _
  simp only [execGatewayEvent, run_eq, h]

/-- The events that the messages of a PDU become, each joining the engine's queue (R434, R441). -/
def Dev.putMessages (d : Dev) (p : Pkt) (m : Nat × List (Nat × CanFrame) × Nat) : Dev :=
  (d.addc C.GWY.ACF_SKIP m.2.2).each m.2.1 (fun d x =>
    d.gwPut { seq := p.seq, ing := 32 + m.1, bus := x.1, frame := { x.2 with src := 32 + m.1, time := p.time } })

/-- With no PDU waiting ACF_PDU_RX has no effect. -/
theorem acfPduRx_nil {s : State} (h : s.dev.gw.pdus = []) : NoEffect .acfPduRx s := by
  show execAcfPduRx s = _
  simp only [execAcfPduRx, run_eq, h]

/-- ACF_PDU_RX of an engine that is up takes the oldest PDU and splits it, or counts it as bad (R441). -/
theorem acfPduRx_cons {s : State} {p : Pkt} {rest : List Pkt} {d : Dev} (h : s.dev.gw.pdus = p :: rest)
    (hd : d = { s.dev with gw := { s.dev.gw with pdus := rest } }) :
    Becomes .acfPduRx s (if !s.dev.gwUp then s.dev else (d.acfPdu p.data).elim (d.inc C.GWY.ACF_BAD) (d.putMessages p)) := by
  subst hd
  show execAcfPduRx s = _
  simp only [execAcfPduRx, run_eq, h]
  cases Dev.acfPdu { s.dev with gw := { s.dev.gw with pdus := rest } } p.data <;> rfl

/-- Settles O37, clause by clause: the events of the engine, then its commands, then the four rows of BUS_MODE. -/
theorem gatewayRows : Obligations.GatewayRows := by
  refine ⟨?_, ?_, ?_, ?_, ?_, ?_, ?_, ?_, ?_, ?_, ?_, ?_, ?_, ?_, ?_⟩
  · intro s e rest hinq hup hwait
    have hevent := gatewayEvent_cons hinq
    rwa [hup, hwait] at hevent
  · intro s hheld
    cases hinq : s.dev.gw.inq with
    | nil => exact gatewayEvent_nil hinq
    | cons e rest =>
      have hevent := gatewayEvent_cons hinq
      rwa [if_pos (by simpa [hinq] using hheld)] at hevent
  · intro s hnone
    cases hpdus : s.dev.gw.pdus with
    | nil => exact acfPduRx_nil hpdus
    | cons p rest =>
      have hpdu := acfPduRx_cons hpdus rfl
      rwa [if_pos (by simpa [hpdus] using hnone)] at hpdu
  · intro s p rest d1 hpdus hup hd1 hbad
    have hpdu := acfPduRx_cons hpdus hd1
    rwa [hup, hbad] at hpdu
  · intro s p rest d1 m hpdus hup hd1 hgood
    have hpdu := acfPduRx_cons hpdus hd1
    rwa [hup, hgood] at hpdu
  · rintro s id c r h rfl
    exact becomes_of_runCmd (i := .gwRuleSet id false) rfl h (by dsimp only; split <;> rfl)
  · intro s id c h
    exact becomesWith_of_runCmdH (i := .gwRuleRead id false) rfl h rfl
  · rintro s id c r h rfl
    exact becomes_of_runCmd (i := .gwFreshSet id false) rfl h rfl
  · intro s id c h
    exact becomesWith_of_runCmdH (i := .gwFreshRead id false) rfl h rfl
  · intro s id c h
    exact becomes_of_runCmd (i := .gwInject id false) rfl h rfl
  · rintro s id c good h hop - rfl
    exact becomes_of_busMode (i := .busWake id) rfl h hop
  · rintro s id c good h hop - rfl
    exact becomes_of_busMode (i := .busSleepEdge id) rfl h hop
  · rintro s id c good h hop - rfl
    exact becomes_of_busMode (i := .busSleepFrame id) rfl h hop
  · rintro s id c good h hop - rfl
    exact becomes_of_busMode (i := .busRecover id) rfl h hop
  · rintro s id c op hcmd rfl hle
    exact ⟨fun hne => noEffect_of_busMode (i := .busWake id) rfl hcmd hne hle,
      fun hne => noEffect_of_busMode (i := .busSleepEdge id) rfl hcmd hne hle,
      fun hne => noEffect_of_busMode (i := .busSleepFrame id) rfl hcmd hne hle,
      fun hne => noEffect_of_busMode (i := .busRecover id) rfl hcmd hne hle⟩

end Sys2Proof.Machine

/-! PROOFS. What a row over the device alone becomes. -/

namespace Sys2Proof.Machine
open Sys2Proof Sys2Proof.Safety

/-- A row over the device alone becomes what its meaning makes of the device. -/
theorem becomes_of_run {i : Instr} {s : State} {f : Dev → Dev} {d : Dev} (hexec : exec i s = run s f) (h : f s.dev = d) : Becomes i s d := by
  rw [Becomes, hexec, run_eq, h]

end Sys2Proof.Machine

/-! PROOFS. The tamper sources' rows and TAMPER_ACK (chapter 10). -/

namespace Sys2Proof.Machine
open Sys2Proof Sys2Proof.Safety

/-- TAMPER_FIRE of a source that cannot be asserted now has no effect. -/
theorem tamperFire_refused {s : State} {source : Nat}
    (h : 7 ≤ source ∨ bitOf (s.dev.g F.VLT.TAMPER_STAT_ASSERTED) source = true ∨ s.dev.pwr.inReset = true) :
    NoEffect (.tamperFire source) s := by
  refine becomes_of_run (show execTamperFire source s = _ from rfl) ?_
  exact if_pos (by simpa [or_assoc] using h)

/-- TAMPER_FIRE of a source that can be asserted marks it; it then waits, acts, or is all there is to it (R292, R293, Table 10-10, Table 17-6). -/
theorem tamperFire_taken {s : State} {source : Nat} {d : Dev} (hsource : source < 7) (hidle : bitOf (s.dev.g F.VLT.TAMPER_STAT_ASSERTED) source = false)
    (hreset : s.dev.pwr.inReset = false) (hd : d = s.dev.wBit F.VLT.TAMPER_STAT_ASSERTED source true) :
    Becomes (.tamperFire source) s
      (if d.on F.VLT.TAMPER_CFG_EN 0 0 source = false then d
      else if d.booted = false then { d with vault := { d.vault with latched := d.vault.latched ++ [source] } }
      else if (d.tamperAct source).twin = 3 ∧ 2 ≤ (d.tamperAct source).g F.VLT.TAMPER_CFG_LEVEL 0 0 source then
        ((d.tamperAct source).leavePair 4).emit (.twinMsg 3 [])
      else d.tamperAct source) := by
  subst hd
  refine becomes_of_run (show execTamperFire source s = _ from rfl) ?_
  refine (if_neg ?_).trans ?_
  · simp [hidle, hreset, hsource]
  · simp only [Bool.not_eq_true', Bool.and_eq_true, beq_iff_eq, decide_eq_true_eq]

/-- TAMPER_ERASE_DONE while the erase runs ends it, and in DOZE gates region A0 again (R28, Table 10-9). -/
theorem tamperEraseDone_running {s : State} {d : Dev} (hbusy : s.dev.on F.VLT.BLOB_STAT_ERASE_BUSY = true)
    (hd : d = ((s.dev.setBlob 0 {}).setBlob 1 {}).w F.VLT.BLOB_STAT_ERASE_BUSY 0) :
    Becomes .tamperEraseDone s
      (if s.dev.ms.dozeStep = 6 then { d with pwr := { d.pwr with powered := putBit d.pwr.powered 0 false } } else d) := by
  subst hd
  refine becomes_of_run (show execTamperEraseDone s = _ from rfl) ?_
  refine (if_neg (by rw [hbusy]; exact Bool.noConfusion)).trans ?_
  simp only [Dev.when, beq_iff_eq]

/-- TAMPER_ACK that is ready ends its command, with HOLD cleared unless a source that holds the vault is asserted still (Table 10-5). -/
theorem tamperAck_ready {s : State} {id : Nat} {c : Cmd} (h : Ready s.dev 0x0306 id c noRange) :
    Becomes (.tamperAck id) s
      (if (List.range 7).any (fun i => bitOf (s.dev.g F.VLT.TAMPER_STAT_ASSERTED) i && s.dev.on F.VLT.TAMPER_CFG_EN 0 0 i &&
          decide (2 ≤ s.dev.g F.VLT.TAMPER_CFG_LEVEL 0 0 i)) = true then s.dev.finish id (c.bad stDown)
      else (s.dev.w F.VLT.TAMPER_STAT_HOLD 0).finish id c.ok) := by
  have hrun := becomes_of_runCmd (i := .tamperAck id) rfl h (by split <;> rfl)
  split at hrun <;> rename_i hheld
  · rwa [if_pos hheld]
  · rwa [if_neg hheld]

/-- Settles O3: the cases of TAMPER_FIRE, then the other rows. -/
theorem tamperRows : Obligations.TamperRows := by
  refine ⟨?_, ?_, ?_, ?_, ?_, ?_, ?_, ?_, ?_, ?_, ?_, ?_⟩
  · intro s source hsource hidle hreset hen hboot hstay
    have hfire := tamperFire_taken hsource hidle hreset rfl
    rwa [if_neg (by simp [hen]), if_neg (by simp [hboot]), if_neg hstay] at hfire
  · intro s source hsource hidle hreset hen hboot htwin hlevel
    have hfire := tamperFire_taken hsource hidle hreset rfl
    rwa [if_neg (by simp [hen]), if_neg (by simp [hboot]), if_pos ⟨htwin, hlevel⟩] at hfire
  · intro s source hsource hidle hreset hen
    have hfire := tamperFire_taken hsource hidle hreset rfl
    rwa [if_pos hen] at hfire
  · intro s source hsource hidle hreset hen hboot
    have hfire := tamperFire_taken hsource hidle hreset rfl
    rwa [if_neg (by simp [hen]), if_pos hboot] at hfire
  · intro s source h
    exact tamperFire_refused h
  · intro s source h
    exact becomes_of_run (show execTamperRearm source s = _ from rfl) (if_pos h)
  · intro s source h
    exact becomes_of_run (show execTamperRearm source s = _ from rfl) (if_neg (by omega))
  · intro s hbusy hdoze
    have hdone := tamperEraseDone_running hbusy rfl
    rwa [if_neg hdoze] at hdone
  · intro s d1 hbusy hd1 hdoze
    have hdone := tamperEraseDone_running hbusy hd1
    rwa [if_pos hdoze] at hdone
  · intro s hidle
    refine becomes_of_run (show execTamperEraseDone s = _ from rfl) ?_
    exact if_pos (by rw [hidle]; rfl)
  · intro s id c h hfree
    have hack := tamperAck_ready h
    rwa [if_neg (by rw [hfree]; exact Bool.noConfusion)] at hack
  · intro s id c h hheld
    have hack := tamperAck_ready h
    rwa [if_pos hheld] at hack

end Sys2Proof.Machine

/-! PROOFS. Pace intervals and the sensors (chapters 3 and 19). -/

namespace Sys2Proof.Machine
open Sys2Proof Sys2Proof.Safety

/-- Going through a range of numbers of which one alone changes the device makes that one's change. -/
theorem Dev.each_range_one {f : Dev → Nat → Dev} {k : Nat} (hother : ∀ d x, x ≠ k → f d x = d) {n : Nat} (hk : k < n) (d : Dev) :
    d.each (List.range n) f = f d k := by
  induction n with
  | zero => omega
  | succ n ih =>
    have hsplit : d.each (List.range (n + 1)) f = f (d.each (List.range n) f) n := by
      simp only [Dev.each, List.range_succ, List.foldl_append, List.foldl_cons, List.foldl_nil]
    rw [hsplit]
    by_cases hlast : n = k
    · subst hlast
      have hbefore : d.each (List.range n) f = d := by
        refine List.foldlRecOn (motive := fun e => e = d) (List.range n) f rfl ?_
        intro e he x hx
        rw [hother e x (List.mem_range.mp hx).ne, he]
      rw [hbefore]
    · rw [hother _ n hlast, ih (by omega)]

/-- Going through an empty list changes nothing. -/
theorem Dev.each_nil {α : Type} (d : Dev) (f : Dev → α → Dev) : d.each [] f = d := rfl

/-- Going through one thing makes its change. -/
theorem Dev.each_one {α : Type} (d : Dev) (a : α) (f : Dev → α → Dev) : d.each [a] f = f d a := rfl

/-- The lower median of one figure is that figure. -/
theorem lowerMedian_one (p : Nat) : lowerMedian [p] = p := by simp [lowerMedian]

/-- PACE_INTERVAL with measurement off has no effect. -/
theorem paceInterval_off {s : State} {readings : List PaceReading} {blocks : List (Nat × Nat × Nat)}
    (h : s.dev.g F.SNS.PACE_CFG_INT = 0 ∨ s.dev.g F.SNS.PACE_CFG_WIN = 0) : NoEffect (.paceInterval readings blocks) s := by
  refine becomes_of_run (show execPaceInterval readings blocks s = _ from rfl) ?_
  exact if_pos (by simpa using h.symm)

section
variable {s : State} (hwin : s.dev.g F.SNS.PACE_CFG_WIN ≠ 0) (hint : s.dev.g F.SNS.PACE_CFG_INT ≠ 0)
include hwin hint

/-- PACE_INTERVAL with nothing measured only looks whether the voltage loop owes a raise (R55). -/
theorem paceInterval_none : Becomes (.paceInterval [] []) s s.dev.paceWatch := by
  refine becomes_of_run (show execPaceInterval [] [] s = _ from rfl) ?_
  exact if_neg (by simp [hwin, hint])

/-- PACE_INTERVAL with one reading of an active unit of a judged type that is fast enough shows it, judges the unit's wear against its own pace, and
counts its corrected errors (R50, R51, R519). -/
theorem paceInterval_one {r : PaceReading} {pace : Nat} (hpace : pace = s.dev.paceOf r.steps) (hdie : r.die < 7)
    (hactive : (s.dev.unit r.type r.die r.index).state = .active) (hfast : worstPace (s.dev.w F.SNS.DIE_PACE_PACE pace 0 0 r.die).vcore ≤ pace)
    (h4 : r.type ≠ 4) (h5 : r.type ≠ 5) :
    Becomes (.paceInterval [r] []) s ((((s.dev.w F.SNS.DIE_PACE_PACE pace 0 0 r.die).wearStep r pace pace).corrStep r).paceWatch) := by
  subst hpace
  refine becomes_of_run (show execPaceInterval [r] [] s = _ from rfl) ?_
  refine (if_neg (by simp [hwin, hint])).trans ?_
  have hpaced : [r].filter (fun r => r.type != 4 && r.type != 5) = [r] := List.filter_cons_of_pos (by simp [h4, h5])
  have hact : [r].filter (fun r => (s.dev.unit r.type r.die r.index).state == .active) = [r] := List.filter_cons_of_pos (by simp [hactive])
  have hwatched : [r].filter (fun r => (s.dev.unit r.type r.die r.index).state == .active ||
      (s.dev.unit r.type r.die r.index).state == .spare) = [r] := List.filter_cons_of_pos (by simp [hactive])
  simp only [hpaced, hact, hwatched, List.filter_nil, List.map_nil, List.append_nil]
  rw [Dev.each_range_one (k := r.die) (fun d x hx => by simp [hx.symm, lowestPace]) hdie]
  simp [lowestPace, Dev.each_nil, Dev.each_one, hfast, lowerMedian_one]

end

/-- With no region too hot and no supply out of range, checking the limits changes nothing (R539, R540). -/
theorem Dev.sensorLimits_ok {d : Dev} {temps : List Int} {mv : List Nat}
    (hcool : ∀ i ∈ d.sensed, temps.getD i 0 ≤ sext 12 (d.g F.SNS.TEMP_CFG_HIGH))
    (hsup : ∀ k ∈ List.range 12, d.supplyOk k (mv.getD k 0) = true) : d.sensorLimits temps mv = d := by
  have hhigh : d.sensed.filter (fun i => decide (sext 12 (d.g F.SNS.TEMP_CFG_HIGH) < temps.getD i 0)) = [] :=
    List.filter_eq_nil_iff.mpr (fun i hi => by simpa using hcool i hi)
  have hbad : (List.range 12).filter (fun k => !d.supplyOk k (mv.getD k 0)) = [] :=
    List.filter_eq_nil_iff.mpr (fun k hk => by simp only [hsup k hk, Bool.not_true, Bool.false_eq_true, not_false_eq_true])
  simp only [Dev.sensorLimits, hhigh, Dev.each_nil, hbad]

/-- With no region above the grade's maximum, a part that was not too hot stays so (R55). -/
theorem Dev.heatWatch_cool {d : Dev} {temps : List Int} (hcool : ∀ i ∈ d.sensed, temps.getD i 0 ≤ d.tjMax) (hcold : d.cpt.overTemp = false) :
    d.heatWatch temps = d := by
  have hnone : d.sensed.find? (fun i => decide (d.tjMax < temps.getD i 0)) = none :=
    List.find?_eq_none.mpr (fun i hi => by simpa using hcool i hi)
  simp only [Dev.heatWatch, hnone, hcold, Bool.false_and, Bool.false_eq_true, if_false]

/-- SENSOR_PUBLISH shows the readings, checks their limits and watches the grade maximum (R539, R540, R55). -/
theorem sensorPublish_becomes (s : State) (temps : List Int) (mv : List Nat) :
    Becomes (.sensorPublish temps mv) s (((s.dev.showSensors temps mv).sensorLimits temps mv).heatWatch temps) := rfl

/-- Settles O5: one reading, none, measurement off, then the three parts of SENSOR_PUBLISH. -/
theorem paceAndSensors : Obligations.PaceAndSensors := by
  refine ⟨?_, ?_, ?_, sensorPublish_becomes, ?_, ?_⟩
  · intro s r pace hwin hint hpace hdie hactive hfast h4 h5
    exact paceInterval_one hwin hint hpace hdie hactive hfast h4 h5
  · intro s hwin hint
    exact paceInterval_none hwin hint
  · intro s readings blocks h
    exact paceInterval_off h
  · intro s temps mv d1 hd1 hcool hcold hsup
    simp only [List.all_eq_true, Bool.and_eq_true, decide_eq_true_eq] at hcool hsup
    have hpub := sensorPublish_becomes s temps mv
    rwa [← hd1, Dev.sensorLimits_ok (fun i hi => (hcool i hi).1) hsup, Dev.heatWatch_cool (fun i hi => (hcool i hi).2) hcold] at hpub
  · intro d temps mv
    rfl

end Sys2Proof.Machine

/-! PROOFS. Receptions: preambles, SIG, frames, their delivery, and the recovery of weaker ones (chapter 7). -/

namespace Sys2Proof.Machine
open Sys2Proof Sys2Proof.Safety

/-- SAMPLE_FIFO_OVERFLOW of an Air die shows the chain, counts and raises SAMPLE_OVF (R27). -/
theorem sampleFifoOverflow_air {s : State} {die : Nat} (chain : Nat) (hair : isAir die = true) : Becomes (.sampleFifoOverflow die chain) s
    ((((s.dev.w F.CHZ.OVF_STAT_CHAIN chain die).w F.CHZ.OVF_STAT_OVF 1 die).inc C.CHZ.OVF_CNT die).raise E.CHZ.SAMPLE_OVF die) := by
  refine becomes_of_run (show execSampleFifoOverflow die chain s = _ from rfl) ?_
  exact if_neg (by rw [hair]; exact Bool.noConfusion)

/-- PREAMBLE_ACCEPT is the meaning of a preamble with all its measurements. -/
theorem preambleAccept_becomes (s : State) (die channel : Nat) (pre : Preamble) :
    Becomes (.preambleAccept die channel pre.toP1Seen pre.snr pre.chSnr pre.cfo pre.ago) s (s.dev.preamble die channel pre) := rfl

/-- On a die that does not receive, or where nothing is detected, a preamble leaves the device alone. -/
theorem Dev.preamble_unheard {d : Dev} {die channel : Nat} {pre : Preamble}
    (h : isAir die = false ∨ 512 ≤ channel ∨ d.bandState (die + 2) ≠ 3 ∨ d.dieUp die = false ∨ d.detects die channel pre = none) :
    d.preamble die channel pre = d := by
  unfold Dev.preamble
  by_cases hdeaf : (!isAir die || decide (512 ≤ channel) || d.bandState (die + 2) != 3 || !d.dieUp die) = true
  · exact if_pos hdeaf
  · have hnone : d.detects die channel pre = none := by
      simp only [Bool.or_eq_true, Bool.not_eq_true', decide_eq_true_eq, bne_iff_ne] at hdeaf
      tauto
    simp only [hnone, ite_self]

section
variable {d : Dev} {die channel family : Nat} {pre : Preamble} (hair : isAir die = true) (hchannel : channel < 512)
  (hband : d.bandState (die + 2) = 3) (hup : d.dieUp die = true) (hfamily : d.detects die channel pre = some family)
include hair hchannel hband hup

/-- The die and the channel receive. -/
theorem Dev.listens : (!isAir die || decide (512 ≤ channel) || d.bandState (die + 2) != 3 || !d.dieUp die) = false := by
  simp [hair, hchannel, hband, hup]

include hfamily

/-- A detection on a channel for which a commit waits is abandoned (R201). -/
theorem Dev.preamble_waiting (hwait : (d.airD die).demWait.contains channel = true) :
    d.preamble die channel pre = d.inc C.DEM.ABANDON die (clusterOf channel) := by
  simp only [Dev.preamble, Dev.listens hair hchannel hband hup, hfamily, hwait, Bool.false_eq_true, if_false, if_true]

variable (hfree : (d.airD die).demWait.contains channel = false)
include hfree

/-- A detection beyond the limit of its carrier offset is rejected (R182). -/
theorem Dev.preamble_offset (hcfo : pre.cfo < -(100 * (d.g F.DEM.DET_CFG_CFO_MAX die (clusterOf channel) : Int)) ∨
      100 * (d.g F.DEM.DET_CFG_CFO_MAX die (clusterOf channel) : Int) < pre.cfo) :
    d.preamble die channel pre = d.inc C.DEM.CFO_REJECT die (clusterOf channel) := by
  simp only [Dev.preamble, Dev.listens hair hchannel hband hup, hfamily, hfree, Bool.false_eq_true, if_false, Bool.or_eq_true,
    decide_eq_true_eq, if_pos hcfo]

/-- The receptions that arrive on a channel now. -/
def Dev.arrivingOn (d : Dev) (die channel : Nat) : List Recep :=
  (d.airD die).receps.filter (fun r => r.channel == channel && r.arriving die d.time.lt)

/-- What a reception is when its preamble has just been accepted (R184, R186). -/
def Dev.newRecep (d : Dev) (die channel family : Nat) (pre : Preamble) : Recep :=
  { id := (d.airD die).next, channel := channel, family := family, tref := d.time.lt - pre.ago, snr := (d.combined die pre).2, cfo := pre.cfo,
    chains := (d.combined die pre).1, role := 0, sic := false, partner := 0, ended := none, sig := decide (family ≥ 4),
    map := if family < 4 then 0 else 0xFFF, mapWord := 0, rate := 0, length := 0, maxSym := d.g F.CMB.CFG_MAX_SYM die, heard := (d.combined die pre).1 }

/-- A detection that passes every check starts a reception, with the one that arrives already if there is one (R181, R187). -/
theorem Dev.preamble_starts
    (hlow : -(100 * (d.g F.DEM.DET_CFG_CFO_MAX die (clusterOf channel) : Int)) ≤ pre.cfo)
    (hhigh : pre.cfo ≤ 100 * (d.g F.DEM.DET_CFG_CFO_MAX die (clusterOf channel) : Int))
    (hsnr : sext 8 (d.g F.DEM.DET_CFG_SNR_MIN die (clusterOf channel)) ≤ (d.combined die pre).2)
    (hown : family ≠ 2 ∨ d.ownFrame die channel (d.time.lt - pre.ago) = false)
    (htwin : d.twinOf die channel family (d.time.lt - pre.ago) pre.cfo = none)
    (hctx : 4 ≤ family ∨ d.ctxFree die channel = true) (hroom : (d.arrivingOn die channel).length < 2)
    (hlegacy : family < 4 ∨ d.arrivingOn die channel = []) :
    d.preamble die channel pre = d.acquire die (d.newRecep die channel family pre) (d.arrivingOn die channel).head? := by
  have hcfo : ¬(pre.cfo < -(100 * (d.g F.DEM.DET_CFG_CFO_MAX die (clusterOf channel) : Int)) ∨
      100 * (d.g F.DEM.DET_CFG_CFO_MAX die (clusterOf channel) : Int) < pre.cfo) := by omega
  have hother : (family == 2 && d.ownFrame die channel (d.time.lt - pre.ago)) = false := by
    rcases hown with h | h <;> simp [h]
  have hdecoder : (decide (family < 4) && decide ((d.arrivingOn die channel).length < 2) && !d.ctxFree die channel) = false := by
    rcases hctx with h | h <;> simp [h]
  have halone : (decide (4 ≤ family) && !(d.arrivingOn die channel).isEmpty) = false := by
    rcases hlegacy with h | h <;> simp [h]
  unfold Dev.arrivingOn at hdecoder halone hroom
  simp only [Dev.preamble, Dev.listens hair hchannel hband hup, hfamily, hfree, Bool.false_eq_true, if_false, Bool.or_eq_true,
    decide_eq_true_eq, if_neg hcfo, if_neg (Int.not_lt.mpr hsnr), hother, htwin, Option.any_none, Option.elim_none, hdecoder, halone,
    if_neg (Nat.not_le.mpr hroom)]
  rfl

end

/-- A row that names no reception has no effect. -/
theorem noReception_noEffect {s : State} {die id : Nat} (h : s.dev.recep die id = none) (sig : Nat) (env : DecodeEnv) (bits : List Byte)
    (power : List Nat) (fr : Option ResidFrame) :
    NoEffect (.sigDecode die id sig) s ∧ NoEffect (.frameDecoded die id env) s ∧ NoEffect (.sicRecovery die id bits power fr) s := by
  refine ⟨becomes_of_run (show execSigDecode die id sig s = _ from rfl) ?_,
    becomes_of_run (show execFrameDecoded die id env s = _ from rfl) ?_,
    becomes_of_run (show execSicRecovery die id bits power fr s = _ from rfl) ?_⟩
  all_goals simp only [h]

section
variable {s : State} {die id : Nat} {r : Recep} (hr : s.dev.recep die id = some r) (hair : isAir die = true)
include hr hair

section
variable {d : Dev} {sig : Nat} (hsig : r.sig = false) (hd : d = s.dev.inc C.DEC.SIG_DECODED die (clusterOf r.channel / 4))
include hsig hd

/-- A good SIG counts and fills in its reception (R174, R185). -/
theorem sigDecode_good (hgood : d.sigFault die r.maxSym sig = none) :
    Becomes (.sigDecode die id sig) s (d.setRecep die id (fun r => d.withSig die sig r)) := by
  subst hd
  refine becomes_of_run (show execSigDecode die id sig s = _ from rfl) ?_
  simp only [hr, hair, hsig, Bool.not_true, Bool.or_self, Bool.false_eq_true, if_false, hgood]

/-- A bad SIG counts its cause and ends its reception, with nothing cancelled from a weaker one (R185, R188). -/
theorem sigDecode_bad {c : Ctr} (hbad : d.sigFault die r.maxSym sig = some c) :
    Becomes (.sigDecode die id sig) s (((d.inc c die (clusterOf r.channel)).strongOver die r false).dropRecep die id) := by
  subst hd
  refine becomes_of_run (show execSigDecode die id sig s = _ from rfl) ?_
  simp only [hr, hair, hsig, Bool.not_true, Bool.or_self, Bool.false_eq_true, if_false, hbad]

end

variable (hsig : r.sig = true)
include hsig

section
variable {env : DecodeEnv} (hrole : r.role ≠ 2 ∨ r.sic = false)
include hrole

omit hr in
/-- FRAME_DECODED finds a reception with its SIG that is no weaker frame of a collision job. -/
theorem Recep.decodes : (!isAir die || !r.sig || r.role == 2 && r.sic) = false := by
  rcases hrole with h | h <;> simp [hair, hsig, h]

/-- A legacy frame out of the PHY subset is counted and ends (Table 7-4). -/
theorem frameDecoded_unsupported (hlegacy : 4 ≤ r.family) (hphy : legacyPhyOk r env = false) : Becomes (.frameDecoded die id env) s
    ((s.dev.inc C.DEM.LEGACY_UNSUP die (clusterOf r.channel)).dropRecep die id) := by
  refine becomes_of_run (show execFrameDecoded die id env s = _ from rfl) ?_
  simp only [hr, Recep.decodes hair hsig hrole, Bool.false_eq_true, if_false, hlegacy, hphy, decide_true, Bool.not_false, Bool.and_self, if_true]

/-- Another frame ends: a weaker one that waits for it is told, a stronger one that failed counts, and it is delivered or counts as bad (R188, R194). -/
theorem frameDecoded_done {psdu : List Byte} {fcs4 ok : Bool} {d1 d2 : Dev} (hphy : r.family < 4 ∨ legacyPhyOk r env = true)
    (hpsdu : psdu = psduOf r env) (hfcs4 : fcs4 = (decide (4 ≤ r.family) && env.fcs4)) (hok : ok = fcsOk psdu fcs4) (hd1 : d1 = s.dev.strongOver die r ok)
    (hd2 : d2 = (if r.role = 1 ∧ ok = false then d1.inc C.SIC.STRONG_FAIL die (clusterOf r.channel) else d1).dropRecep die id) :
    Becomes (.frameDecoded die id env) s
      (if ok = true then d2.deliverRx die r psdu (if r.role = 1 then 1 else 0) 0 env.power (if fcs4 = true then 4 else 2)
      else d2.inc C.DEC.FCS_FAIL die (clusterOf r.channel / 4)) := by
  have hsubset : (decide (4 ≤ r.family) && !legacyPhyOk r env) = false := by
    rcases hphy with h | h <;> simp [h]
  subst hpsdu hfcs4 hok hd1 hd2
  refine becomes_of_run (show execFrameDecoded die id env s = _ from rfl) ?_
  simp only [hr, Recep.decodes hair hsig hrole, hsubset, Bool.false_eq_true, if_false, Dev.when, Bool.and_eq_true, beq_iff_eq, Bool.not_eq_true']

end

section
variable {bits : List Byte} {power : List Nat} {fr : Option ResidFrame} {b : Bool} (hended : r.ended = some b) (hrole : r.role = 2)
include hended hrole

/-- A weaker frame overlapped too long is counted and ends (R189). -/
theorem sicRecovery_long (hlong : 128 < r.overlapped die r.spans) : Becomes (.sicRecovery die id bits power fr) s
    (((s.dev.dropRecep die id).strongOver die r false).inc C.SIC.LONG die (clusterOf r.channel)) := by
  refine becomes_of_run (show execSicRecovery die id bits power fr s = _ from rfl) ?_
  simp only [hr, hended, hair, hsig, hrole, Bool.not_true, bne_self_eq_false, Bool.or_self, Bool.false_eq_true, if_false, if_pos hlong]

/-- Another weaker frame is delivered or counted, and a frame that the residual search found on its span follows (R188, R190). -/
theorem sicRecovery_done {nov : Nat} {d : Dev} (hnov : nov = r.overlapped die r.spans) (hshort : nov ≤ 128)
    (hd : d = (s.dev.dropRecep die id).weakDone die r 2 nov (DecodeEnv.mk bits power false false)) :
    Becomes (.sicRecovery die id bits power fr) s (match fr, r.spans.getLast? with
      | some f, some span => if b = true ∧ r.resid = true ∧ d.onSpan die r f span = true then d.residual die r f span else d
      | _, _ => d) := by
  subst hnov hd
  refine becomes_of_run (show execSicRecovery die id bits power fr s = _ from rfl) ?_
  simp only [hr, hended, hair, hsig, hrole, Bool.not_true, bne_self_eq_false, Bool.or_self, Bool.false_eq_true, if_false,
    if_neg (Nat.not_lt.mpr hshort)]
  cases fr with
  | none => rfl
  | some f =>
    cases r.spans.getLast? with
    | none => rfl
    | some span => simp only [Bool.and_eq_true, and_assoc]

end
end

/-- FRAME_DELIVERY with nothing decoded has no effect. -/
theorem frameDelivery_nil {s : State} {die : Nat} (h : (s.dev.airD die).deliv = []) : NoEffect (.frameDelivery die) s := by
  refine becomes_of_run (show execFrameDelivery die s = _ from rfl) ?_
  simp only [h]

/-- FRAME_DELIVERY passes the oldest frame of an Air die to the air MAC (R195). -/
theorem frameDelivery_cons {s : State} {die : Nat} {f : RxFrame} {l : List RxFrame} (hair : isAir die = true) (h : (s.dev.airD die).deliv = f :: l) :
    Becomes (.frameDelivery die) s ((s.dev.setAir die (fun a => { a with deliv := l, macIn := a.macIn ++ [f] })).inc C.CMB.FRAMES_OUT die) := by
  refine becomes_of_run (show execFrameDelivery die s = _ from rfl) ?_
  simp only [h, hair, Bool.not_true, Bool.false_eq_true, if_false]

/-- Settles O24: the preambles, then SIG, frames, deliveries and recoveries, and the rows that name no reception. -/
theorem receptions : Obligations.Receptions := by
  refine ⟨?_, ?_, ?_, ?_, ?_, ?_, ?_, ?_, ?_, ?_, ?_, ?_, ?_, ?_⟩
  · intro s die chain hair
    exact sampleFifoOverflow_air chain hair
  · rintro s die channel pre family q tref mix here rfl hair hchannel hband hup hfamily rfl rfl rfl hfree hlow hhigh hsnr hown htwin hctx hroom hlegacy
    have hstarts := Dev.preamble_starts hair hchannel hband hup hfamily hfree hlow hhigh hsnr hown htwin hctx hroom hlegacy
    have hrow := preambleAccept_becomes s die channel pre
    rwa [hstarts] at hrow
  · intro s die channel pre h
    have hrow := preambleAccept_becomes s die channel pre
    rwa [Dev.preamble_unheard h] at hrow
  · rintro s die channel pre family q rfl hair hchannel hband hup hfamily hwait
    have hrow := preambleAccept_becomes s die channel pre
    rwa [Dev.preamble_waiting hair hchannel hband hup hfamily hwait] at hrow
  · rintro s die channel pre family q rfl hair hchannel hband hup hfamily hfree hcfo
    have hrow := preambleAccept_becomes s die channel pre
    rwa [Dev.preamble_offset hair hchannel hband hup hfamily hfree hcfo] at hrow
  · intro s die id sig r d1 hr hair hsig hd1 hgood
    exact sigDecode_good hr hair hsig hd1 hgood
  · intro s die id sig r d1 c hr hair hsig hd1 hbad
    exact sigDecode_bad hr hair hsig hd1 hbad
  · intro s die id env r psdu fcs4 ok d1 d2 hr hair hsig hrole hphy hpsdu hfcs4 hok hd1 hd2
    exact frameDecoded_done hr hair hsig hrole hphy hpsdu hfcs4 hok hd1 hd2
  · intro s die id env r hr hair hsig hrole hlegacy hphy
    exact frameDecoded_unsupported hr hair hsig hrole hlegacy hphy
  · intro s die f l hair h
    exact frameDelivery_cons hair h
  · intro s die h
    exact frameDelivery_nil h
  · rintro s die id bits power r b fr nov d1 hr hended hair hsig hrole rfl hlong rfl
    exact sicRecovery_long hr hair hsig hended hrole hlong
  · intro s die id bits power r b nov d1 fr hr hended hair hsig hrole hnov hshort hd1
    exact sicRecovery_done hr hair hsig hended hrole hnov hshort hd1
  · intro s die id sig env bits power fr h
    exact noReception_noEffect h sig env bits power fr

end Sys2Proof.Machine

/-! PROOFS. Legacy nodes: association, data requests, beacons, expiry and release (chapters 9 and 10). -/

namespace Sys2Proof.Machine
open Sys2Proof Sys2Proof.Safety

/-- A row that takes frames of its kind off an Air die's queue runs on the oldest frame when that is one, with the frame taken. -/
theorem Dev.takeRx_taken {d d1 : Dev} {die : Nat} {f : RxFrame} {rest : List RxFrame} {ok : RxFrame → Bool} (hair : isAir die = true)
    (hup : d.dieUp die = true) (hmac : (d.airD die).macIn = f :: rest) (hok : ok f = true)
    (hd1 : d1 = d.setAir die (fun a => { a with macIn := rest })) (body : Dev → RxFrame → Dev) : d.takeRx die ok body = body d1 f := by
  subst hd1
  simp only [Dev.takeRx, hmac, hair, hup, hok, Bool.and_self, if_true]

/-- Otherwise it leaves the device alone. -/
theorem Dev.takeRx_left {d : Dev} {die : Nat} {ok : RxFrame → Bool}
    (h : isAir die = false ∨ d.dieUp die = false ∨ (d.airD die).macIn = [] ∨ (d.airD die).macIn.head?.all ok = false) (body : Dev → RxFrame → Dev) :
    d.takeRx die ok body = d := by
  unfold Dev.takeRx
  cases hmac : (d.airD die).macIn with
  | nil => rfl
  | cons f rest =>
    refine if_neg ?_
    rcases h with h | h | h | h
    · simp [h]
    · simp [h]
    · rw [hmac] at h
      exact nomatch h
    · rw [hmac] at h
      simp [show ok f = false from h]

/-- The legacy commands of one kind (Table 9-8). -/
def legKind (n : Nat) (f : RxFrame) : Bool := decide (4 ≤ f.family) && legCmd f.mac == some n

/-- A legacy frame whose command is of a kind is one of that kind. -/
theorem legKind_of {f : RxFrame} {n : Nat} (hfam : 4 ≤ f.family) (hcmd : legCmd f.mac = some n) : legKind n f = true := by
  simp [legKind, hfam, hcmd]

/-- A held frame that is not there does not expire. -/
theorem legPersistExpiry_none {s : State} {die id : Nat} (h : (s.dev.airD die).held.find? (fun h => h.id == id) = none) :
    NoEffect (.legPersistExpiry die id) s := by
  refine becomes_of_run (show execLegPersistExpiry die id s = _ from rfl) ?_
  simp only [h]

/-- A held frame that expires is dropped and counted; an unfetched response gives its address back, and a notification frees the address (R253, R254). -/
theorem legPersistExpiry_held {s : State} {die id : Nat} {x : LegHeld} {d : Dev} (h : (s.dev.airD die).held.find? (fun h => h.id == id) = some x)
    (hd : d = (s.dev.setAir die (fun a => { a with held := a.held.filter (fun x => x.id != id) })).inc C.AMC.LEG_EXPIRED die) :
    Becomes (.legPersistExpiry die id) s (match x.kind, (d.airD die).leg.find? (fun n => n.short == x.short) with
      | 1, some n => if n.state = 0 then d.legFree die n else d
      | 2, some n => d.legFree die n
      | _, _ => d) := by
  refine becomes_of_run (show execLegPersistExpiry die id s = _ from rfl) ?_
  simp only [h, ← hd]
  cases (d.airD die).leg.find? (fun n => n.short == x.short) with
  | none => rcases x.kind with _ | _ | _ | k <;> rfl
  | some n =>
    rcases x.kind with _ | _ | _ | k
    · rfl
    · simp only [beq_iff_eq]
    · rfl
    · rfl

/-- Settles O27: the four request rows, the rows that find no such frame, expiry, and the three ends of LEG_RELEASE. -/
theorem legacyRows : Obligations.LegacyRows := by
  refine ⟨?_, ?_, ?_, ?_, ?_, ?_, ?_, ?_, ?_, ?_⟩
  · intro s die f rest h d1 hair hup hmac hfam hcmd hhdr hd1
    refine becomes_of_run (show execLegAssocRequest die s = _ from rfl) ?_
    refine (Dev.takeRx_taken hair hup hmac (legKind_of hfam hcmd) hd1 _).trans ?_
    cases hpan : d1.legAddressed die f.channel h with
    | none => simp only [hhdr, hpan]
    | some k =>
      cases hnode : (d1.airD die).leg.find? (fun n => n.ext == h.src && n.state == 1) with
      | none => simp only [hhdr, hpan, hnode, bne_iff_ne, Bool.and_eq_true, Bool.not_eq_true', Option.isNone_iff_eq_none]
      | some n => simp only [hhdr, hpan, hnode, bne_iff_ne]
  · intro s die f rest h d1 a hair hup hmac hfam hcmd hhdr hd1 ha
    subst ha
    refine becomes_of_run (show execLegDataRequest die s = _ from rfl) ?_
    refine (Dev.takeRx_taken hair hup hmac (legKind_of hfam hcmd) hd1 _).trans ?_
    cases hnode : d1.legOf die h with
    | none => simp only [hhdr, hnode, Option.isNone_iff_eq_none]
    | some n => simp only [hhdr, hnode, Bool.or_eq_true, beq_iff_eq, Option.isNone_iff_eq_none]
  · intro s die f rest h d1 hair hup hmac hfam hcmd hhdr hd1
    refine becomes_of_run (show execLegDisassocNotify die s = _ from rfl) ?_
    refine (Dev.takeRx_taken hair hup hmac (legKind_of hfam hcmd) hd1 _).trans ?_
    cases hpan : d1.legAddressed die f.channel h with
    | none => simp only [hhdr, hpan]
    | some k =>
      cases hnode : d1.legOf die h with
      | none => simp only [hhdr, hpan, hnode]
      | some n => simp only [hhdr, hpan, hnode, Dev.when]
  · intro s die f rest d1 hair hup hmac hfam hcmd hd1
    refine becomes_of_run (show execLegBeaconRequest die s = _ from rfl) ?_
    exact Dev.takeRx_taken hair hup hmac (legKind_of hfam hcmd) hd1 _
  · rintro s die n hn hleft
    have htake := Dev.takeRx_left (ok := legKind n) hleft
    rcases hn with rfl | rfl | rfl | rfl
    · exact becomes_of_run (show execLegAssocRequest die s = _ from rfl) (htake _)
    · exact becomes_of_run (show execLegDisassocNotify die s = _ from rfl) (htake _)
    · exact becomes_of_run (show execLegDataRequest die s = _ from rfl) (htake _)
    · exact becomes_of_run (show execLegBeaconRequest die s = _ from rfl) (htake _)
  · intro s die id x d1 h hd1
    exact legPersistExpiry_held h hd1
  · intro s die id h
    exact legPersistExpiry_none h
  · intro s id c air n h hshort hroot
    have hrun := becomes_of_runCmd (i := .legRelease id) rfl h (by simp only [hshort, hroot]; rfl)
    simpa only [hshort, hroot] using hrun
  · intro s id c air n k root h hshort hk hroot hnode hfcnt
    subst hk
    have hrun := becomes_of_runCmd (i := .legRelease id) rfl h (by simp only [hshort, hroot, hnode, hfcnt]; rfl)
    simpa only [hshort, hroot, hnode, hfcnt, if_true] using hrun
  · intro s id c air n k root d1 fc d2 level hd sl h hshort hk hroot hctr hd2 hlevel hhd hsl
    subst hk hd2 hlevel hhd hsl
    have hrun := becomes_of_runCmd (i := .legRelease id) rfl h (by simp only [hshort, hroot, hctr]; rfl)
    simpa only [hshort, hroot, hctr] using hrun

end Sys2Proof.Machine

/-! PROOFS. The events that a Route die's sequencer places (chapter 12), its lanes' watchdog, and the end of a crypto job. -/

namespace Sys2Proof.Machine
open Sys2Proof Sys2Proof.Safety

section
variable {d : Dev} {die : Nat} {env : PlayEnv} {a : AirIn} {rest : List AirIn} (hair : (d.route die).air = a :: rest)
include hair

/-- An air frame that may not be placed waits (R339), which counts where the journal alone holds it back (R491). -/
theorem Dev.airEvent_turned (hplace : d.mayPlace die 0 = false) : d.airEvent die env = d.turned die 0 := by
  simp only [Dev.airEvent, hair, hplace, Bool.not_false, if_true]

variable (hplace : d.mayPlace die 0 = true)
include hplace

/-- An air frame that finds no crypto reservation is dropped and counted, and takes no number (R355). -/
theorem Dev.airEvent_full (hfull : d.cryFree die = false) : d.airEvent die env =
    (((d.setRoute die (fun r => { r with air := rest })).inc C.ING.CRY_FULL die).release die a.buf).showLanes die := by
  simp only [Dev.airEvent, hair, hplace, hfull, Bool.not_true, Bool.not_false, Bool.false_eq_true, if_false, if_true]

/-- An air frame that may be placed and finds a crypto reservation is numbered and journalled, and runs its play (R275, R338, R355). -/
theorem Dev.airEvent_placed {d1 d2 : Dev} (hfree : d.cryFree die = true)
    (hd1 : d1 = (d.setRoute die (fun r => { r with air := rest })).place die 0 0)
    (hd2 : d2 = d1.journal die 0 (if env.lane = 0 then 0 else 2) a.tref (.air a)) :
    d.airEvent die env = (((d2.takeJob die).1.playAir die (d2.takeJob die).2 a env).sampleAll die env).showLanes die := by
  subst hd1 hd2
  simp only [Dev.airEvent, hair, hplace, hfree, Bool.not_true, Bool.false_eq_true, if_false, bne_iff_ne, ite_not]

end

/-- AIR_FRAME is the air event of its die. -/
theorem airFrame_becomes (s : State) (die : Nat) (env : PlayEnv) : Becomes (.airFrame die env) s (s.dev.airEvent die env) := rfl

/-- TIMER is the timer event of its die. -/
theorem timer_becomes (s : State) (die : Nat) (kinds : List (Nat × Nat)) : Becomes (.timer die kinds) s (s.dev.timerEvent die kinds) := rfl

/-- While a die's order is closed no timer event runs (R339). -/
theorem Dev.timerEvent_closed {d : Dev} {die : Nat} (kinds : List (Nat × Nat)) (h : d.seqOpen die = false) : d.timerEvent die kinds = d := by
  simp only [Dev.timerEvent, h, Bool.not_false, if_true]

section
variable {s : State} {die : Nat} (env : PlayEnv)

/-- AIR_FRAME with no frame waiting has no effect. -/
theorem airFrame_nil (h : (s.dev.route die).air = []) : NoEffect (.airFrame die env) s := by
  refine becomes_of_run (show execAirFrame die env s = _ from rfl) ?_
  simp only [Dev.airEvent, h]

/-- WIRED_FRAME with no frame waiting has no effect. -/
theorem wiredFrame_nil (h : (s.dev.route die).wired = []) : NoEffect (.wiredFrame die env) s := by
  refine becomes_of_run (show execWiredFrame die env s = _ from rfl) ?_
  simp only [h]

/-- XFER with nothing to cross has no effect. -/
theorem xfer_nil (h : (s.dev.route die).xfer = []) : NoEffect (.xfer die env) s := by
  refine becomes_of_run (show execXfer die env s = _ from rfl) ?_
  simp only [h]

/-- MODE_EVENT with no mode waiting has no effect. -/
theorem modeEvent_nil (h : (s.dev.route die).modeEv = []) : NoEffect (.modeEvent die) s := by
  refine becomes_of_run (show execModeEvent die s = _ from rfl) ?_
  simp only [h]

/-- MAINT with no token event waiting has no effect. -/
theorem maint_none (h : s.dev.maintEvent die = none) : NoEffect (.maint die) s := by
  refine becomes_of_run (show execMaint die s = _ from rfl) ?_
  simp only [h]

variable {env}

/-- WIRED_FRAME takes an Ethernet frame that may be placed, numbers and journals it and forwards it (R337, R338). -/
theorem wiredFrame_eth {f : FwdIn} {rest : List WiredIn} {d : Dev} (hwired : (s.dev.route die).wired = .eth f :: rest)
    (hplace : s.dev.mayPlace die 1 = true) (hlane : env.lane = 0)
    (hd : d = ((s.dev.setRoute die (fun r => { r with wired := rest })).place die 1 1).journal die 1 0 f.time (.wired (.eth f))) :
    Becomes (.wiredFrame die env) s (s.dev.orWait ((((d.fwdPlay die f).release die f.buf).sampleAll die env).showLanes die)) := by
  subst hd
  refine becomes_of_run (show execWiredFrame die env s = _ from rfl) ?_
  simp only [hwired, hplace, hlane, Bool.not_true, bne_self_eq_false, Bool.false_eq_true, if_false]

/-- XFER of what may be placed and finds cells takes its number and its effect (R338, R339). -/
theorem xfer_placed {x : XferIn} {rest : List XferIn} {d1 d2 : Dev} {b : Nat} (hxfer : (s.dev.route die).xfer = x :: rest)
    (hplace : s.dev.mayPlace die 3 = true) (hlane : env.lane = 0)
    (hcells : (s.dev.setRoute die (fun r => { r with xfer := rest })).alloc die 3 x.size = some (d1, b)) (hd2 : d2 = d1.place die 3 6) :
    Becomes (.xfer die env) s
      (s.dev.orWait ((((d2.journal die 6 0 d2.evTime (.xfer x)).playXfer die b x).sampleAll die env).showLanes die)) := by
  subst hd2
  refine becomes_of_run (show execXfer die env s = _ from rfl) ?_
  simp only [hxfer, hplace, hlane, hcells, Bool.not_true, bne_self_eq_false, Bool.false_eq_true, if_false]

/-- COMMIT_EVENT of an open order runs its next commit (R85). -/
theorem commitEvent_next {pc : PendCommit} (hopen : s.dev.commitOpen die = true) (hnext : s.dev.nextCommit die = some pc) :
    Becomes (.commitEvent die) s (s.dev.commitEvent die pc) := by
  refine becomes_of_run (show execCommitEvent die s = _ from rfl) ?_
  simp only [hopen, hnext, Bool.not_true, Bool.false_eq_true, if_false, Option.elim_some]

section
variable {m after : Nat} {rest : List (Nat × Nat)} (hmode : (s.dev.route die).modeEv = (m, after) :: rest)
include hmode

/-- MODE_EVENT waits while the die is down or an earlier command is in flight (R337, R339). -/
theorem modeEvent_waits (h : s.dev.dieUp die = false ∨ s.dev.hl.inflight.any (fun c => decide (c.id < after) && bitOf c.toSeq (die - 1)) = true) :
    NoEffect (.modeEvent die) s := by
  refine becomes_of_run (show execModeEvent die s = _ from rfl) ?_
  simp only [hmode]
  exact if_pos (by simpa only [Bool.or_eq_true, Bool.not_eq_true'] using h)

/-- Otherwise it takes the next mode, its number unless the device is a SHADOW, and its effect (R337, R338). -/
theorem modeEvent_taken {d0 d1 : Dev} (hup : s.dev.dieUp die = true)
    (hfirst : s.dev.hl.inflight.any (fun c => decide (c.id < after) && bitOf c.toSeq (die - 1)) = false)
    (hd0 : d0 = s.dev.setRoute die (fun r => { r with modeEv := rest })) (hd1 : d1 = (if d0.mode = mShadow then d0 else d0.sequence die 14)) :
    Becomes (.modeEvent die) s ((d1.journal die 14 0 d1.evTime (.mode m)).regime die m) := by
  subst hd0 hd1
  refine becomes_of_run (show execModeEvent die s = _ from rfl) ?_
  simp only [hmode, hup, hfirst, Bool.not_true, Bool.or_self, Bool.false_eq_true, if_false, beq_iff_eq]

end

/-- MAINT of a die that is up takes the next token event and, out of SHADOW, its number (R525). -/
theorem maint_taken {e : TokenReq × Bool} {d : Dev} (he : s.dev.maintEvent die = some e) (hup : s.dev.dieUp die = true)
    (hd : d = { s.dev with mt := { s.dev.mt with events := s.dev.mt.events.erase (die, e.1, e.2) } }) :
    Becomes (.maint die) s (if d.mode = mShadow then d else d.sequence die 15) := by
  subst hd
  refine becomes_of_run (show execMaint die s = _ from rfl) ?_
  simp only [he, hup, Bool.not_true, Bool.false_eq_true, if_false, beq_iff_eq]

/-- PLAY_WATCHDOG of a source with no play at its head has no effect. -/
theorem playWatchdog_none {src : Nat} (h : s.dev.headPlay die src = none) : NoEffect (.playWatchdog die src) s := by
  refine becomes_of_run (show execPlayWatchdog die src s = _ from rfl) ?_
  simp only [h]

/-- PLAY_WATCHDOG of an air frame that may be placed takes its number, drops its packet, records the abort, counts and raises WATCHDOG (R338, R349). -/
theorem playWatchdog_air {kind play buf : Nat} {rest : List AirIn} {a : AirIn} {d : Dev} (hair : (s.dev.route die).air = a :: rest)
    (hplay : s.dev.headPlay die 0 = some (kind, play, buf)) (hplace : s.dev.mayPlace die 0 = true)
    (hd : d = ((s.dev.place die 0 kind).journal die kind 4 (s.dev.place die 0 kind).evTime (.air a)).setRoute die
      (fun r => { r with air := r.air.tail })) :
    Becomes (.playWatchdog die 0) s
      (((((d.aborted die play 1).inc C.PLY.WD_EXPIRED die (d.cluster die)).release die buf).raise E.PLY.WATCHDOG die (d.cluster die)).showLanes die) := by
  subst hd
  have hbody : s.dev.headBody die 0 = some (.air a) := by simp only [Dev.headBody, hair, List.head?_cons, Option.map_some]
  refine becomes_of_run (show execPlayWatchdog die 0 s = _ from rfl) ?_
  simp only [hplay, hplace, hbody, Bool.not_true, Bool.false_eq_true, if_false, Option.elim_some]
  rfl

end

/-- CRYPTO_JOB_DONE passes the job's result through its region's lane, clears its working key and frees its reservation (R273, R355). -/
theorem cryptoJobDone_becomes {s : State} {die job : Nat} {d : Dev}
    (hd : d = ((s.dev.route die).jobs.find? (fun j => j.id == job)).elim s.dev (fun j => s.dev.viaLane die (4 * j.region) 2 j.id)) :
    Becomes (.cryptoJobDone die job) s
      (((d.wkEnd die (some job)).setRoute die (fun r => { r with jobs := r.jobs.filter (fun j => j.id != job) })).showCry die) := by
  subst hd
  rfl

/-- Settles O30, row by row: frames, commits and timers, crossings, modes, tokens, the watchdog and the end of a job. -/
theorem sequencedEvents : Obligations.SequencedEvents := by
  refine ⟨?_, ?_, ?_, ?_, ?_, ?_, ?_, ?_, ?_, ?_, ?_, ?_, ?_, ?_, ?_⟩
  · intro s die env a rest d1 d2 hair hplace hfree hd1 hd2
    have hrow := airFrame_becomes s die env
    rwa [Dev.airEvent_placed hair hplace hfree hd1 hd2] at hrow
  · intro s die env a rest hair hplace hfull
    have hrow := airFrame_becomes s die env
    rwa [Dev.airEvent_full hair hplace hfull] at hrow
  · intro s die env a rest hair hplace
    have hrow := airFrame_becomes s die env
    rwa [Dev.airEvent_turned hair hplace] at hrow
  · intro s die env f rest d1 hwired hplace hlane hd1
    exact wiredFrame_eth hwired hplace hlane hd1
  · intro s die env hair hwired hxfer hmode hmaint
    exact ⟨airFrame_nil env hair, wiredFrame_nil env hwired, xfer_nil env hxfer, modeEvent_nil hmode, maint_none hmaint⟩
  · intro s die pc hopen hnext
    exact commitEvent_next hopen hnext
  · intro s die kinds hopen
    have hrow := timer_becomes s die kinds
    rwa [Dev.timerEvent_open hopen] at hrow
  · intro s die kinds hclosed
    have hrow := timer_becomes s die kinds
    rwa [Dev.timerEvent_closed kinds hclosed] at hrow
  · intro s die env x rest d1 b d2 hxfer hplace hlane hcells hd2
    exact xfer_placed hxfer hplace hlane hcells hd2
  · intro s die m after rest d0 d1 hmode hup hfirst hd0 hd1
    exact modeEvent_taken hmode hup hfirst hd0 hd1
  · intro s die m after rest hmode hwaits
    exact modeEvent_waits hmode hwaits
  · intro s die e d1 he hup hd1
    exact maint_taken he hup hd1
  · intro s die kind play buf rest a d1 hair hplay hplace hd1
    exact playWatchdog_air hair hplay hplace hd1
  · intro s die src h
    exact playWatchdog_none h
  · intro s die job d1 hd1
    exact cryptoJobDone_becomes hd1

end Sys2Proof.Machine

/-! PROOFS. The pins, monitors and the watchdog that reset the package or the device (Tables 2-8 and 5-1). -/

namespace Sys2Proof.Machine
open Sys2Proof Sys2Proof.Safety

/-- PORST_N low is the package reset of cause 1; monitors that hold reset go on holding it (R107). -/
theorem porstNAssert_becomes (s : State) : Becomes .porstNAssert s (s.dev.packageReset true s.dev.pwr.monLow 1 0) := rfl

/-- TRST_N resets the TAP alone (R107). -/
theorem tapReset_becomes (s : State) : Becomes .tapReset s { s.dev with pwr := { s.dev.pwr with tapReset := true } } := rfl

section
variable {s : State}

section
variable {recover : Bool}

/-- PORST_N rises with no monitor tripped: reset ends and boot is due (R110, Table 2-8). -/
theorem porstNRelease_ends (hlow : s.dev.pwr.porstLow = true) (hmon : s.dev.pwr.monLow = 0) : Becomes (.porstNRelease recover) s
    { s.dev with pwr := { s.dev.pwr with porstLow := false, recoverPin := recover, inReset := false, bootDue := true, railsOff := 0 }, time := {} } := by
  refine becomes_of_run (show execPorstNRelease recover s = _ from rfl) ?_
  simp only [hlow, hmon, Bool.not_true, Bool.false_eq_true, if_false, beq_self_eq_true, if_true, Dev.porstRelease]

/-- PORST_N rises while a monitor holds reset: only BOOT_RECOVER is sampled (R110). -/
theorem porstNRelease_held (hlow : s.dev.pwr.porstLow = true) (hmon : s.dev.pwr.monLow ≠ 0) : Becomes (.porstNRelease recover) s
    { s.dev with pwr := { s.dev.pwr with porstLow := false, recoverPin := recover } } := by
  refine becomes_of_run (show execPorstNRelease recover s = _ from rfl) ?_
  simp only [hlow, Bool.not_true, Bool.false_eq_true, if_false, beq_iff_eq, if_neg hmon]

/-- PORST_N that is high does not rise. -/
theorem porstNRelease_high (hhigh : s.dev.pwr.porstLow = false) : NoEffect (.porstNRelease recover) s := by
  refine becomes_of_run (show execPorstNRelease recover s = _ from rfl) ?_
  simp only [hhigh, Bool.not_false, if_true]

end

section
variable {mon : Nat} (rails : Nat)

/-- The first trip of a monitored rail with PORST_N high resets the package with cause 2 (R40). -/
theorem supplyMonitorTrip_first (hmon : mon < 5) (hhigh : s.dev.pwr.porstLow = false) (hnone : s.dev.pwr.monLow = 0) :
    Becomes (.supplyMonitorTrip ⟨mon, rails⟩) s (((s.dev.railsGo rails).packageReset false (2 ^ mon) 2 mon).railsGo rails) := by
  refine becomes_of_run (show execSupplyMonitorTrip ⟨mon, rails⟩ s = _ from rfl) ?_
  simp only [if_neg (Nat.not_le.mpr hmon), hhigh, hnone, bne_self_eq_false, Bool.or_self, Bool.false_eq_true, if_false]

/-- A further trip joins the monitors that hold reset (R40). -/
theorem supplyMonitorTrip_more (hmon : mon < 5) (hheld : s.dev.pwr.porstLow = true ∨ s.dev.pwr.monLow ≠ 0) :
    Becomes (.supplyMonitorTrip ⟨mon, rails⟩) s { s.dev.railsGo rails with
      pwr := { (s.dev.railsGo rails).pwr with monLow := putBit s.dev.pwr.monLow mon true, inReset := true } } := by
  have hheld' : (s.dev.pwr.porstLow || s.dev.pwr.monLow != 0) = true := by simpa only [Bool.or_eq_true, bne_iff_ne] using hheld
  refine becomes_of_run (show execSupplyMonitorTrip ⟨mon, rails⟩ s = _ from rfl) ?_
  simp only [if_neg (Nat.not_le.mpr hmon), hheld', if_true]

/-- The loss of a rail that no monitor watches resets nothing (assumption 17). -/
theorem supplyMonitorTrip_unwatched (hmon : 5 ≤ mon) : Becomes (.supplyMonitorTrip ⟨mon, rails⟩) s (s.dev.railsGo rails) := by
  refine becomes_of_run (show execSupplyMonitorTrip ⟨mon, rails⟩ s = _ from rfl) ?_
  exact if_pos hmon

end

section
variable {mon : Nat}

/-- The last tripped rail returns with PORST_N high: reset ends and boot is due (R40, Table 2-8). -/
theorem supplyMonitorReturn_ends (hlow : bitOf s.dev.pwr.monLow mon = true) (hlast : putBit s.dev.pwr.monLow mon false = 0)
    (hhigh : s.dev.pwr.porstLow = false) : Becomes (.supplyMonitorReturn mon) s
    { s.dev with pwr := { s.dev.pwr with monLow := 0, inReset := false, bootDue := true, railsOff := 0 }, time := {} } := by
  refine becomes_of_run (show execSupplyMonitorReturn mon s = _ from rfl) ?_
  simp only [hlow, hlast, hhigh, Bool.not_true, Bool.not_false, Bool.false_eq_true, if_false, beq_self_eq_true, Bool.and_self, if_true,
    Dev.porstRelease]

/-- A rail returns while another or PORST_N holds reset: it alone stops holding it (R40). -/
theorem supplyMonitorReturn_held (hlow : bitOf s.dev.pwr.monLow mon = true)
    (hheld : putBit s.dev.pwr.monLow mon false ≠ 0 ∨ s.dev.pwr.porstLow = true) : Becomes (.supplyMonitorReturn mon) s
    { s.dev with pwr := { s.dev.pwr with monLow := putBit s.dev.pwr.monLow mon false } } := by
  have hstays : (putBit s.dev.pwr.monLow mon false == 0 && !s.dev.pwr.porstLow) = false := by
    rcases hheld with h | h <;> simp [h]
  refine becomes_of_run (show execSupplyMonitorReturn mon s = _ from rfl) ?_
  simp only [hlow, hstays, Bool.not_true, Bool.false_eq_true, if_false]

/-- A monitor that has not tripped has nothing to return from. -/
theorem supplyMonitorReturn_good (hgood : bitOf s.dev.pwr.monLow mon = false) : NoEffect (.supplyMonitorReturn mon) s := by
  refine becomes_of_run (show execSupplyMonitorReturn mon s = _ from rfl) ?_
  simp only [hgood, Bool.not_false, if_true]

end

/-- WARM_RST_N of a device out of package reset is the chip reset of cause 3 (R107). -/
theorem warmRstN_resets (hout : s.dev.pwr.inReset = false) : Becomes .warmRstN s (s.dev.chipReset 3) := by
  refine becomes_of_run (show execWarmRstN s = _ from rfl) ?_
  simp only [hout, Bool.false_eq_true, if_false]

/-- The package's reset outlasts WARM_RST_N (R40). -/
theorem warmRstN_held (hin : s.dev.pwr.inReset = true) : NoEffect .warmRstN s :=
  becomes_of_run (show execWarmRstN s = _ from rfl) (if_pos hin)

/-- The watchdog of a started captain is the chip reset of cause 5 (R109). -/
theorem captainWatchdog_resets (hout : s.dev.pwr.inReset = false) (hdue : s.dev.pwr.bootDue = false) (hheld : s.dev.pwr.bootHeld = false) :
    Becomes .captainWatchdog s (s.dev.chipReset 5) := by
  refine becomes_of_run (show execCaptainWatchdog s = _ from rfl) ?_
  simp only [hout, hdue, hheld, Bool.or_self, Bool.false_eq_true, if_false]

/-- The watchdog does not run before the boot (R109). -/
theorem captainWatchdog_stopped (h : s.dev.pwr.inReset = true ∨ s.dev.pwr.bootDue = true ∨ s.dev.pwr.bootHeld = true) : NoEffect .captainWatchdog s := by
  refine becomes_of_run (show execCaptainWatchdog s = _ from rfl) ?_
  exact if_pos (by simpa only [Bool.or_eq_true, or_assoc] using h)

end

/-- Settles O1, pin by pin: PORST_N, the supply monitors, WARM_RST_N, the captain's watchdog and TRST_N. -/
theorem resetPins : Obligations.ResetPins := by
  exact ⟨porstNAssert_becomes, fun _ _ => porstNRelease_ends, fun _ _ => porstNRelease_held, fun _ _ => porstNRelease_high,
    fun _ _ => supplyMonitorTrip_first, fun _ _ => supplyMonitorTrip_more, fun _ _ => supplyMonitorTrip_unwatched,
    fun _ _ => supplyMonitorReturn_ends, fun _ _ => supplyMonitorReturn_held, fun _ _ => supplyMonitorReturn_good,
    fun _ => warmRstN_resets, fun _ => warmRstN_held, fun _ => captainWatchdog_resets, fun _ => captainWatchdog_stopped, tapReset_becomes⟩

end Sys2Proof.Machine

/-! PROOFS. What a package reset, a chip reset and a block soft reset clear and keep (Table 5-1, R82). -/

namespace Sys2Proof.Machine
open Sys2Proof Sys2Proof.Safety

/-- A page found under a number is in the index. -/
theorem pageAt_mem {die num : Nat} {p : Page} (h : pageAt die num = some p) : p ∈ allPages := by
  obtain ⟨t, hfind, rfl⟩ := Option.map_eq_some_iff.mp h
  have hrow := List.find?_some hfind
  simp only [Bool.and_eq_true, decide_eq_true_eq, List.contains_iff_mem] at hrow
  obtain ⟨⟨hdie, hfirst⟩, hlast⟩ := hrow
  refine List.mem_flatMap.mpr ⟨t, tags_all t, List.mem_flatMap.mpr ⟨die, hdie, List.mem_map.mpr ⟨num - (pageRow t).first, ?_, rfl⟩⟩⟩
  exact List.mem_range.mpr (by omega)

/-- A page that a write reaches is in the index, by its own die's number or by that of die 7 (R77). -/
theorem targets_mem {die page : Nat} {p : Page} (h : p ∈ targets die page) : p ∈ allPages := by
  unfold targets at h
  split at h
  · obtain ⟨x, -, hx⟩ := List.mem_filterMap.mp h
    exact pageAt_mem hx
  · exact pageAt_mem (Option.mem_toList.mp h)

/-- Different pages lie 4 KiB or more apart. -/
theorem pages_apart {p q : Page} (hp : p ∈ allPages) (hq : q ∈ allPages) (hne : q ≠ p) : q.base + 4096 ≤ p.base ∨ p.base + 4096 ≤ q.base := by
  have hbase : q.base ≠ p.base := fun h => hne (base_inj hq hp h)
  have hpa := base_aligned p
  have hqa := base_aligned q
  omega

/-- The key of PG_STAT.RST_BUSY (Table 4-1). -/
theorem pgRstBusy_key (p : Page) : (pgRstBusy p.tag).key p 0 = (p.base + 0x00C) * 32 + 1 := by simp [Fld.key, pgRstBusy, Fld.common]

/-- The key of PG_ACCESS.LOCK (Table 4-1). -/
theorem pgLock_key (p : Page) : (pgLock p.tag).key p 0 = (p.base + 0x024) * 32 + 1 := by simp [Fld.key, pgLock, Fld.common]

/-- The test for the keys of a page, which the resets filter by. -/
theorem inPage_iff (p : Page) (k : Nat) : (decide (p.lo ≤ k) && decide (k < p.hi)) = true ↔ p.base * 32 ≤ k ∧ k < (p.base + 4096) * 32 := by
  rw [Bool.and_eq_true, decide_eq_true_eq, decide_eq_true_eq]
  rfl

/-- A key among those of the bytes `lo` to `hi` of a page is one of the page. -/
theorem inPage_of_bytes (p : Page) {lo hi k : Nat} (hhi : hi ≤ 4096) (h : (decide ((p.base + lo) * 32 ≤ k) && decide (k < (p.base + hi) * 32)) = true) :
    p.base * 32 ≤ k ∧ k < (p.base + 4096) * 32 := by
  simp only [Bool.and_eq_true, decide_eq_true_eq] at h
  omega

/-- A counter of a page is that of the page's own offsets. -/
theorem Dev.ctr_page (d : Dev) {c : Ctr} {p : Page} (htag : c.tag = p.tag) (i : Nat) :
    d.ctr c p.die p.inst i = kvGet 0 d.rf.ctrs (p.base + c.off + 8 * i) := by
  unfold Dev.ctr Ctr.key
  rw [htag]

/-- Both copies of a field read the same from register files that agree at its key, in the lists that hold it. -/
theorem RegFile.copies_eq {r r' : RegFile} {f : Fld} {p : Page} {i : Nat}
    (hregs : f.acc ≠ .rws → kvGet (f.reset i) r.regs (f.key p i) = kvGet (f.reset i) r'.regs (f.key p i))
    (hlive : kvGet (f.reset i) r.live (f.key p i) = kvGet (f.reset i) r'.live (f.key p i))
    (hstaged : kvGet (f.reset i) r.staged (f.key p i) = kvGet (f.reset i) r'.staged (f.key p i)) :
    r.get f p i = r'.get f p i ∧ r.getS f p i = r'.getS f p i := by
  unfold RegFile.get RegFile.getS
  cases hacc : f.acc with
  | rws => exact ⟨hlive, hstaged⟩
  | rw | ro | wo | w1c | rc => exact ⟨hregs (by simp [hacc]), hregs (by simp [hacc])⟩

/-- In an empty register file both copies of every field hold its reset value. -/
theorem RegFile.copies_empty (f : Fld) (p : Page) (i : Nat) : ({} : RegFile).get f p i = f.reset i ∧ ({} : RegFile).getS f p i = f.reset i := by
  unfold RegFile.get RegFile.getS
  cases f.acc <;> exact ⟨rfl, rfl⟩

/-- Both copies of a field hold its reset value where the lists that hold it name no other value at its key. -/
theorem RegFile.copies_reset {r : RegFile} {f : Fld} {p : Page} {i : Nat} (hregs : f.acc ≠ .rws → kvGet (f.reset i) r.regs (f.key p i) = f.reset i)
    (hlive : kvGet (f.reset i) r.live (f.key p i) = f.reset i) (hstaged : kvGet (f.reset i) r.staged (f.key p i) = f.reset i) :
    r.get f p i = f.reset i ∧ r.getS f p i = f.reset i := by
  obtain ⟨hget, hgetS⟩ := RegFile.copies_empty f p i
  have hcopies := RegFile.copies_eq (r' := {}) hregs hlive hstaged
  rwa [hget, hgetS] at hcopies

/-! ## The package reset -/

/-- A reset keeps the fuses of a band whose programming it does not interrupt (Table 2-10). -/
theorem Dev.fusesCut_idle {d : Dev} {die : Nat} (hdie : 5 ≤ die) (hidle : d.on F.LIM.LOCK_PROG_BUSY die = false) :
    d.fusesCut.getD (die - 5) {} = d.fuse die := by
  obtain ⟨n, rfl⟩ := Nat.exists_eq_add_of_le' hdie
  simp only [Dev.fusesCut, Dev.fuse, List.getD_eq_getElem?_getD, List.getElem?_map, List.getElem?_zipIdx, Nat.add_sub_cancel, Nat.zero_add]
  cases d.fuses[n]? with
  | none => rfl
  | some x => simp [hidle]

/-- PORST_N low leaves an empty register file, the fuses but for programming cut short, and key images and flash banks as they were (R107, Table 5-1). -/
theorem porstNAssert_keeps (s : State) : ∃ t, exec .porstNAssert s = .next t ∧ t.dev.rf = {} ∧ t.dev.fuses = s.dev.fusesCut ∧
    t.dev.blobs = s.dev.blobs ∧ t.dev.upd.banks = s.dev.upd.banks :=
  ⟨_, rfl, rfl, rfl, rfl, rfl⟩

/-! ## The chip reset -/

/-- The pages of which a chip reset keeps registers (R108, R294, R439, R465, R493, R515). -/
def chipKeeps : List Tag := [.TIM, .FCL, .HUD, .TWN, .VLT, .GWY]

/-- What a chip reset keeps of the unstaged registers lies on those pages. -/
theorem RegFile.afterChip_regs_mem {r : RegFile} {e : Nat × Nat} (h : e ∈ r.afterChip.regs) :
    ∃ t ∈ chipKeeps, (⟨t, 0, 0⟩ : Page).base * 32 ≤ e.1 ∧ e.1 < ((⟨t, 0, 0⟩ : Page).base + 4096) * 32 := by
  unfold RegFile.afterChip at h
  simp only [List.mem_filter, Bool.or_eq_true, beq_iff_eq] at h
  rcases h.2 with (((((((((htim | hfirst) | hid) | hvalid) | hofsLo) | hofsHi) | hlatch) | hasserted) | hlost) | hlast)
  · exact ⟨.TIM, by decide, (inPage_iff _ _).mp (Bool.and_eq_true_iff.mp htim).1⟩
  · exact ⟨.FCL, by decide, inPage_of_bytes _ (by decide) hfirst⟩
  · exact ⟨.HUD, by decide, hid ▸ key_bounds _ _ _ (by decide) (by decide)⟩
  · exact ⟨.HUD, by decide, hvalid ▸ key_bounds _ _ _ (by decide) (by decide)⟩
  · exact ⟨.TWN, by decide, hofsLo ▸ key_bounds _ _ _ (by decide) (by decide)⟩
  · exact ⟨.TWN, by decide, hofsHi ▸ key_bounds _ _ _ (by decide) (by decide)⟩
  · exact ⟨.FCL, by decide, hlatch ▸ key_bounds _ _ _ (by decide) (by decide)⟩
  · exact ⟨.VLT, by decide, hasserted ▸ key_bounds _ _ _ (by decide) (by decide)⟩
  · exact ⟨.GWY, by decide, hlost ▸ key_bounds _ _ _ (by decide) (by decide)⟩
  · exact ⟨.FCL, by decide, inPage_of_bytes _ (by decide) hlast⟩

/-- The pages of which a chip reset keeps registers are on die 0. -/
theorem chipKeeps_mem : ∀ t ∈ chipKeeps, (⟨t, 0, 0⟩ : Page) ∈ allPages := by decide +kernel

/-- TIM has one page. -/
theorem eq_tim {p : Page} (hp : p ∈ allPages) (h : p.tag = .TIM) : p = ⟨.TIM, 0, 0⟩ :=
  (by decide +kernel : ∀ p ∈ allPages, p.tag = .TIM → p = ⟨.TIM, 0, 0⟩) p hp h

section
variable (r : RegFile) {f : Fld} {p : Page} {i : Nat} (hp : p ∈ allPages) (hoff : f.off + f.stride * i < 4096) (hlsb : f.lsb < 32)
include hp hoff hlsb

/-- A chip reset returns every field of a page of which it keeps nothing to its reset value (R108). -/
theorem RegFile.copies_afterChip_other (htag : p.tag ∉ chipKeeps) : r.afterChip.get f p i = f.reset i ∧ r.afterChip.getS f p i = f.reset i := by
  obtain ⟨hlo, hhi⟩ := key_bounds f p i hoff hlsb
  have hapart : ∀ t ∈ chipKeeps, (⟨t, 0, 0⟩ : Page).base + 4096 ≤ p.base ∨ p.base + 4096 ≤ (⟨t, 0, 0⟩ : Page).base :=
    fun t ht => pages_apart hp (chipKeeps_mem t ht) (fun h => htag (h ▸ ht))
  have htim : (decide ((⟨.TIM, 0, 0⟩ : Page).lo ≤ f.key p i) && decide (f.key p i < (⟨.TIM, 0, 0⟩ : Page).hi)) = false := by
    have hpages := hapart .TIM (by decide)
    exact Bool.eq_false_iff.mpr (mt (inPage_iff _ _).mp (by omega))
  refine RegFile.copies_reset (fun _ => kvGet_none _ _ _ (fun e he => ?_)) (kvGet_filterD _ _ _ _ fun _ => htim)
    (kvGet_filterD _ _ _ _ fun _ => htim)
  obtain ⟨t, ht, hkept⟩ := RegFile.afterChip_regs_mem he
  have hpages := hapart t ht
  omega

/-- A chip reset keeps every field of TIM but its lock (R107, R108). -/
theorem RegFile.copies_afterChip_tim (htag : p.tag = .TIM) (hlock : f.key p i ≠ (pgLock .TIM).key p 0) :
    r.afterChip.get f p i = r.get f p i ∧ r.afterChip.getS f p i = r.getS f p i := by
  have htim := (inPage_iff p (f.key p i)).mpr (key_bounds f p i hoff hlsb)
  obtain rfl := eq_tim hp htag
  refine RegFile.copies_eq (fun _ => kvGet_filterK _ _ _ _ fun _ => ?_) (kvGet_filterK _ _ _ _ fun _ => htim) (kvGet_filterK _ _ _ _ fun _ => htim)
  simp only [htim, bne_iff_ne.mpr hlock, Bool.and_self, Bool.true_or]

end

/-! ## The block soft reset -/

section
variable (r : RegFile) (p : Page) (keepSticky : Bool)

/-- On a page that shows no state which goes on, a block soft reset takes every key beyond the common registers out of the unstaged ones (R82). -/
theorem RegFile.softReset_regs_reset {k : Nat} (hstatus : keepsStatus p.tag = false) (hlo : (p.base + 0x40) * 32 ≤ k) (hhi : k < (p.base + 4096) * 32)
    (v : Nat) : kvGet v (r.softReset p keepSticky).regs k = v := by
  refine (kvSplice_in v _ _ _ _ k (by unfold Page.lo; omega) hhi).trans (kvGet_filterD v _ _ k (fun _ => ?_))
  simp only [hstatus, Bool.false_and, Bool.or_false, Bool.and_eq_false_iff, Bool.or_eq_false_iff, decide_eq_false_iff_not]
  omega

/-- PG_ACCESS outlives a block soft reset (R89). -/
theorem RegFile.softReset_regs_access {k : Nat} (hlo : (p.base + 0x024) * 32 ≤ k) (hhi : k < (p.base + 0x028) * 32) (v : Nat) :
    kvGet v (r.softReset p keepSticky).regs k = kvGet v r.regs k := by
  refine (kvSplice_in v _ _ _ _ k (by unfold Page.lo; omega) (by unfold Page.hi; omega)).trans (kvGet_filterK v _ _ k (fun _ => ?_))
  have hpage := (inPage_iff p k).mpr (by omega)
  simp only [hpage, decide_eq_true hlo, decide_eq_true hhi, Bool.and_self, Bool.or_true, Bool.true_or]

end

section
variable {d : Dev} {p q : Page} {keepSticky : Bool} {f : Fld} {i : Nat}

/-- A block soft reset of a page shows in every field but RST_BUSY what is left of the register file (R82). -/
theorem Dev.copies_softReset (hkey : f.key q i ≠ (p.base + 0x00C) * 32 + 1) :
    (d.softReset p keepSticky).get f q i = (d.rf.softReset p keepSticky).get f q i ∧
    (d.softReset p keepSticky).getS f q i = (d.rf.softReset p keepSticky).getS f q i := by
  rw [← pgRstBusy_key] at hkey
  exact ⟨Dev.get_put_other _ _ _ _ _ _ _ _ hkey, Dev.getS_put_other _ _ _ _ _ _ _ _ hkey⟩

/-- A block soft reset leaves both copies of the staged fields and the RW fields of its page beyond the common registers at their reset values,
the latter on a page that shows no state which goes on (R82, assumption 12). -/
theorem Dev.softReset_field (hcommon : 0x40 ≤ f.off) (hoff : f.off + f.stride * i < 4096) (hlsb : f.lsb < 32)
    (hacc : f.acc = .rws ∨ (f.acc = .rw ∧ keepsStatus p.tag = false)) :
    (d.softReset p keepSticky).get f p i = f.reset i ∧ (d.softReset p keepSticky).getS f p i = f.reset i := by
  obtain ⟨hlo, hhi⟩ := key_bounds f p i hoff hlsb
  have hblock : (p.base + 0x40) * 32 ≤ f.key p i := by unfold Fld.key; omega
  obtain ⟨hget, hgetS⟩ := Dev.copies_softReset (d := d) (p := p) (keepSticky := keepSticky) (show f.key p i ≠ _ by omega)
  rw [hget, hgetS]
  refine RegFile.copies_reset (fun hrws => ?_) (kvOut_in _ _ _ _ _ hlo hhi) (kvOut_in _ _ _ _ _ hlo hhi)
  exact RegFile.softReset_regs_reset _ _ _ (hacc.resolve_left hrws).2 hblock hhi _

/-- A block soft reset keeps its page's lock (R82, R89). -/
theorem Dev.softReset_locked : (d.softReset p keepSticky).locked p = d.locked p := by
  have hkey := pgLock_key p
  have hlock := RegFile.softReset_regs_access d.rf p keepSticky (k := (pgLock p.tag).key p 0) (by omega) (by omega) 0
  unfold Dev.locked
  rw [(Dev.copies_softReset (by omega)).1]
  exact congrArg (· == 1) hlock

section
variable (hp : p ∈ allPages) (hq : q ∈ allPages) (hne : q ≠ p)
include hp hq hne

/-- A block soft reset keeps both copies of every field of another page (R82). -/
theorem Dev.softReset_field_other (hoff : f.off + f.stride * i < 4096) (hlsb : f.lsb < 32) :
    (d.softReset p keepSticky).get f q i = d.get f q i ∧ (d.softReset p keepSticky).getS f q i = d.getS f q i := by
  obtain ⟨hlo, hhi⟩ := key_bounds f q i hoff hlsb
  have hapart := pages_apart hp hq hne
  have hout : f.key q i < p.lo ∨ p.hi ≤ f.key q i := by unfold Page.lo Page.hi; omega
  obtain ⟨hget, hgetS⟩ := Dev.copies_softReset (d := d) (p := p) (keepSticky := keepSticky) (show f.key q i ≠ _ by omega)
  rw [hget, hgetS]
  exact RegFile.copies_eq (fun _ => kvSplice_out _ _ _ _ _ _ hout (by unfold Page.lo Page.hi; omega)) (kvOut_out _ _ _ _ _ hout) (kvOut_out _ _ _ _ _ hout)

/-- A block soft reset keeps the counters of every other page (R82). -/
theorem Dev.softReset_ctr_other {c : Ctr} (htag : q.tag = c.tag) (hoff : c.off + 8 * i < 4096) :
    (d.softReset p keepSticky).ctr c q.die q.inst i = d.ctr c q.die q.inst i := by
  have hapart := pages_apart hp hq hne
  rw [Dev.ctr_page _ htag.symm, Dev.ctr_page _ htag.symm]
  exact kvOut_out _ _ _ _ _ (by omega)

end

/-- A block soft reset leaves the counters of its page at 0 (R82, R546). -/
theorem Dev.softReset_ctr {c : Ctr} (htag : c.tag = p.tag) (hoff : c.off + 8 * i < 4096) :
    (d.softReset p keepSticky).ctr c p.die p.inst i = 0 := by
  rw [Dev.ctr_page _ htag]
  exact kvOut_in _ _ _ _ _ (by omega) (by omega)

end

/-- BLOCK_SOFT_RESET of a page that can be written, on a device out of reset, is the soft reset of the page (R82). -/
theorem blockSoftReset_next {s : State} {die page : Nat} {p : Page} (h : Writable s.dev die page p) (hworking : Working s) :
    exec (.blockSoftReset die page) s = .next { s with dev := s.dev.softReset p } := by
  have hbecomes := becomes_of_pageWrite (i := .blockSoftReset die page) rfl h
  rwa [Becomes, Dev.settle_none (d := s.dev.softReset p) hworking.1 hworking.2] at hbecomes

/-- Settles O55: the package reset, the chip reset, then the block soft reset. -/
theorem resetScopes : Obligations.ResetScopes := by
  refine ⟨?_, ?_, ?_⟩
  · intro s
    obtain ⟨t, hexec, hrf, hfuses, hblobs, hbanks⟩ := porstNAssert_keeps s
    refine ⟨t, hexec, ?_, ?_, ?_, hblobs, hbanks⟩
    · intro f p i
      rw [Dev.get, Dev.getS, hrf]
      exact RegFile.copies_empty f p i
    · intro c die inst i
      rw [Dev.ctr, hrf]
      rfl
    · intro die hlo _ hidle
      rw [Dev.fuse, hfuses]
      exact Dev.fusesCut_idle hlo hidle
  · intro s hout
    refine ⟨{ s with dev := s.dev.chipReset 3 }, warmRstN_resets hout, ?_, fun _ _ _ _ => rfl, rfl⟩
    intro f p i hp hoff hlsb
    exact ⟨fun htag => RegFile.copies_afterChip_other _ hp hoff hlsb (by simpa [chipKeeps] using htag),
      RegFile.copies_afterChip_tim _ hp hoff hlsb⟩
  · intro s die page p hwrite hworking
    have hnext := blockSoftReset_next hwrite hworking
    obtain ⟨⟨htargets, -⟩, -⟩ := hwrite
    have hp : p ∈ allPages := targets_mem (by rw [htargets]; exact List.mem_singleton_self p)
    exact ⟨_, hnext, fun _ _ => Dev.softReset_field, fun _ _ => Dev.softReset_ctr, Dev.softReset_locked,
      fun _ _ _ => Dev.softReset_field_other hp, fun _ _ _ hq hne => Dev.softReset_ctr_other hp hq hne⟩

end Sys2Proof.Machine

/-! PROOFS. The state right after reset (Tables 2-8, 2-9 and 5-1). -/

namespace Sys2Proof.Machine
open Sys2Proof Sys2Proof.Safety

/-- Both copies of every field hold the reset value right after reset (R107). -/
theorem reset_copies (f : Fld) (p : Page) (i : Nat) : State.reset.dev.get f p i = f.reset i ∧ State.reset.dev.getS f p i = f.reset i :=
  RegFile.copies_empty f p i

/-- Every counter is 0 right after reset (R546). -/
theorem reset_ctr (c : Ctr) (die inst i : Nat) : State.reset.dev.ctr c die inst i = 0 := rfl

/-- Settles O47: the register file is empty, and the other parts of the state are those that the tables give. -/
theorem resetState : Obligations.ResetState :=
  ⟨⟨rfl, rfl, rfl⟩, reset_copies, reset_ctr, ⟨rfl, rfl, rfl⟩, rfl, rfl, rfl, rfl⟩

end Sys2Proof.Machine

/-! PROOFS. One tick of the time island, which a step of an empty queue lets pass (R57, R58). -/

namespace Sys2Proof.Machine
open Sys2Proof Sys2Proof.Safety

/-- The second device is the first but for registers, the bands, their fuses and the Air dies: where the figures that follow the time stand. -/
def Dev.SameButFigures (d e : Dev) : Prop := e = { d with rf := e.rf, bands := e.bands, fuses := e.fuses, air := e.air }

namespace Dev.SameButFigures

theorem refl (d : Dev) : d.SameButFigures d := rfl

theorem trans {d e f : Dev} (hde : d.SameButFigures e) (hef : e.SameButFigures f) : d.SameButFigures f :=
  Eq.trans hef (congrArg (fun x : Dev => { x with rf := f.rf, bands := f.bands, fuses := f.fuses, air := f.air }) hde)

/-- A choice between two changes. -/
theorem ite {d e f : Dev} {c : Prop} [Decidable c] (he : d.SameButFigures e) (hf : d.SameButFigures f) :
    d.SameButFigures (if c then e else f) := by
  split
  · exact he
  · exact hf

/-- One change after another along a list. -/
theorem each {α : Type} {f : Dev → α → Dev} (hf : ∀ (d : Dev) (a : α), d.SameButFigures (f d a)) (d : Dev) (l : List α) :
    d.SameButFigures (d.each l f) :=
  List.foldlRecOn (motive := fun e => d.SameButFigures e) l f (refl d) (fun e he a _ => he.trans (hf e a))

theorem hud {d e : Dev} (h : d.SameButFigures e) : e.hud = d.hud := by
  rw [SameButFigures] at h
  rw [h]

theorem pwr {d e : Dev} (h : d.SameButFigures e) : e.pwr = d.pwr := by
  rw [SameButFigures] at h
  rw [h]

end Dev.SameButFigures

section
variable (d : Dev) (die : Nat)

/-- Programming words changes fuses and shows their number. -/
theorem Dev.programWords_same (n : Nat) : d.SameButFigures (d.programWords die n) := rfl

/-- What shows the words of the limit images are registers (Table 6-12). -/
theorem Dev.showLim_same : d.SameButFigures (d.showLim die) := rfl

/-- Fuse programming that goes on changes fuses and registers (R160). -/
theorem Dev.progTick_same : d.SameButFigures (d.progTick die) := .ite ((d.programWords_same die _).trans (Dev.showLim_same _ die)) (.refl d)

/-- The retries that count are the band's, and shown in a register (Table 6-11). -/
theorem Dev.retryTick_same : d.SameButFigures (d.retryTick die) := .ite rfl (.refl d)

/-- The cut-offs that count are the band's, and shown in registers (Table 8-7). -/
theorem Dev.cutTick_same : d.SameButFigures (d.cutTick die) := by
  refine .each (fun d c => ?_) d _
  exact .ite rfl (.refl d)

/-- The duty figures are registers (Table 8-5). -/
theorem Dev.showDuty_same (air : Nat) : d.SameButFigures (d.showDuty air) := by
  refine .each (fun d s => ?_) d _
  exact rfl

/-- What a tick changes in the figures of a band. -/
theorem Dev.bandTick_same : d.SameButFigures (d.bandTick die) :=
  (((d.progTick_same die).trans (Dev.retryTick_same _ die)).trans (Dev.cutTick_same _ die)).trans (.ite (Dev.showDuty_same _ _) (.refl _))

/-- What is left of a trial's window is shown in a register (R574). -/
theorem Dev.trialTick_same : d.SameButFigures d.trialTick := .ite rfl (.refl d)

/-- A tick changes the time alone, whether or not the clock runs (R57, R58). -/
theorem Dev.tick_eq : d.tick = { d with time := d.tick.time } := by
  unfold Dev.tick
  split <;> rfl

/-- A tick leaves power and reset as they were. -/
@[simp] theorem Dev.tick_pwr : d.tick.pwr = d.pwr := by rw [Dev.tick_eq]

/-- A tick leaves the huddle as it was. -/
@[simp] theorem Dev.tick_hud : d.tick.hud = d.hud := by rw [Dev.tick_eq]

/-- A tick neither begins nor ends the entry into DOZE. -/
@[simp] theorem Dev.tick_dozeEntering : d.tick.dozeEntering = d.dozeEntering := by rw [Dev.tick_eq]; rfl

/-- The device with the reload marks of its Route dies taken away (R366). -/
def Dev.reloaded : Dev := { d with routes := d.routes.map (fun (r : Route) => { r with reload := [] }) }

/-- A tick does not look at the Route dies. -/
theorem Dev.reloaded_tick : d.reloaded.tick = { d.tick with routes := d.reloaded.routes } := by
  have hclock : d.reloaded.clockRuns = d.clockRuns := rfl
  unfold Dev.tick
  rw [hclock]
  split <;> rfl

/-- The parts of an idle step: the reload marks, the clock, what falls due with the time, and the load maps of the two Air dies. -/
theorem Dev.idle_parts : ∃ maps : Dev → Nat → Dev, (∀ (e : Dev) (air : Nat), e.SameButFigures (maps e air)) ∧
    d.idle = (((d.reloaded.tick.dozeTick.trialTick.bandTick 5).bandTick 6).devEvents.each [3, 4] maps).settle := by
  refine ⟨_, fun e air => ?_, rfl⟩
  exact .ite rfl (.refl e)

end

section
variable {d : Dev}

/-- A tick of a running clock raises local time by 1 (R57). -/
theorem Dev.tick_lt (hclock : d.clockRuns = true) : d.tick.time.lt = (d.time.lt + 1) % 2 ^ 64 := by
  unfold Dev.tick
  rw [if_pos hclock]

/-- With no entry under way a tick does nothing for DOZE (Table 5-7). -/
theorem Dev.dozeTick_idle (hdoze : d.dozeEntering = false) : d.dozeTick = d := if_neg (by rw [hdoze]; exact Bool.noConfusion)

/-- With no DEV entry waiting a tick writes none (R469). -/
theorem Dev.devEvents_none (hdev : d.hud.devWait = []) : d.devEvents = d := by
  simp only [Dev.devEvents, hdev, List.filter_nil, List.isEmpty_nil, if_true]

/-- Out of reset, with no reset due, no DOZE entry under way and no DEV entry waiting, an idle step is the tick and the figures that follow it. -/
theorem Dev.idle_same (hout : d.pwr.inReset = false) (hdue : d.pwr.resetDue = none) (hdoze : d.dozeEntering = false) (hdev : d.hud.devWait = []) :
    d.reloaded.tick.SameButFigures d.idle := by
  obtain ⟨maps, hmaps, hidle⟩ := d.idle_parts
  rw [hidle, Dev.dozeTick_idle (d := d.reloaded.tick) (by rw [Dev.tick_dozeEntering]; exact hdoze)]
  have hbands : d.reloaded.tick.SameButFigures ((d.reloaded.tick.trialTick.bandTick 5).bandTick 6) :=
    ((Dev.trialTick_same _).trans (Dev.bandTick_same _ 5)).trans (Dev.bandTick_same _ 6)
  rw [Dev.devEvents_none (by rw [hbands.hud, Dev.tick_hud]; exact hdev)]
  have hall := hbands.trans (.each hmaps _ [3, 4])
  rwa [Dev.settle_none (by rw [hall.pwr, Dev.tick_pwr]; exact hout) (by rw [hall.pwr, Dev.tick_pwr]; exact hdue)]

end

/-- Settles O46: the step, what an idle step changes, the tick itself, and words that spell no command. -/
theorem emptyQueueTicks : Obligations.EmptyQueueTicks := by
  refine ⟨?_, ?_, fun d hclock => ⟨d.tick_eq, Dev.tick_lt hclock⟩, fun _ _ _ => ⟨rfl, rfl⟩⟩
  · intro s hempty
    simp only [step, hempty]
  · intro d hout hdue hdoze hdev
    have hsame := Dev.idle_same hout hdue hdoze hdev
    rw [Dev.reloaded_tick] at hsame
    exact ⟨_, _, _, _, hsame⟩

end Sys2Proof.Machine

/-! PROOFS. The voltage loop, its regulator, and VCORE_SET (R52, R54, R55, Table 3-2). -/

namespace Sys2Proof.Machine
open Sys2Proof Sys2Proof.Safety

/-- A VOUT_COMMAND shows the voltage, sends it, and is in progress from there on (R52). -/
theorem Dev.vout_eq (d : Dev) (mv kind : Nat) :
    d.vout mv kind = { (d.w F.SNS.VCORE_SET_MV mv).emit (.pmbus mv) with avl := { d.avl with busy := kind } } := rfl

/-- Showing the loop's state leaves the loop as it is. -/
@[simp] theorem Dev.avlShow_avl (d : Dev) : d.avlShow.avl = d.avl := rfl

/-- A raise of 25 mV falls due where the loop runs, lowers VCORE and a figure is below target (Table 3-2). -/
theorem Dev.paceWatch_due {d : Dev} (hrun : d.loopRuns = true) (hlower : d.avl.busy = 2) (hlow : d.lowPace < d.g F.SNS.AVL_TARGET_PACE) :
    d.paceWatch = { d with avl := { d.avl with bigRaise := true } } :=
  if_pos (by simp [hrun, hlower, hlow])

/-- With no figure below target no raise falls due. -/
theorem Dev.paceWatch_fast {d : Dev} (hfast : ¬ d.lowPace < d.g F.SNS.AVL_TARGET_PACE) : d.paceWatch = d :=
  if_neg (by simp [hfast])

/-- PMB_ALERT pauses the loop and logs STATUS_WORD (R55). -/
theorem pmbAlert_becomes (s : State) (statusWord : Nat) : Becomes (.pmbAlert statusWord) s
    (({ s.dev with avl := { s.dev.avl with pauseMask := putBit s.dev.avl.pauseMask 0 true } } : Dev).avlShow.logRec 0x0302 2 0 (toLE 2 statusWord)) :=
  rfl

/-- PMB_ALERT_RELEASE ends that pause (R55). -/
theorem pmbAlertRelease_becomes (s : State) : Becomes .pmbAlertRelease s
    (({ s.dev with avl := { s.dev.avl with pauseMask := putBit s.dev.avl.pauseMask 0 false } } : Dev).avlShow) := rfl

section
variable {s : State}

/-- AVL_PERIOD of a loop that does not run has no effect (R52). -/
theorem avlPeriod_stopped (hstop : s.dev.loopRuns = false) : NoEffect .avlPeriod s := by
  refine becomes_of_run (show execAvlPeriod s = _ from rfl) ?_
  exact if_pos (by rw [hstop]; rfl)

section
variable (hrun : s.dev.loopRuns = true)
include hrun

/-- While a lowering command is in progress AVL_PERIOD only looks whether the loop owes a raise (Table 3-2). -/
theorem avlPeriod_lowering (hlower : s.dev.avl.busy = 2) : Becomes .avlPeriod s s.dev.paceWatch := by
  refine becomes_of_run (show execAvlPeriod s = _ from rfl) ?_
  exact (if_neg (by simp [hrun])).trans (if_pos (by simp [hlower]))

/-- While another command is in progress AVL_PERIOD has no effect (Table 3-2). -/
theorem avlPeriod_busy (hbusy : s.dev.avl.busy ≠ 0) (hlower : s.dev.avl.busy ≠ 2) : NoEffect .avlPeriod s := by
  refine becomes_of_run (show execAvlPeriod s = _ from rfl) ?_
  exact (if_neg (by simp [hrun])).trans ((if_neg (by simp [hlower])).trans (if_pos (by simp [hbusy])))

/-- With no command in progress AVL_PERIOD steps VCORE up below target and down above its hysteresis, where the step changes it (R52). -/
theorem avlPeriod_free (hfree : s.dev.avl.busy = 0) : Becomes .avlPeriod s
    (if s.dev.lowPace < s.dev.g F.SNS.AVL_TARGET_PACE then
      if s.dev.avlClamp (s.dev.vcore + 5) = s.dev.vcore then s.dev else s.dev.vout (s.dev.avlClamp (s.dev.vcore + 5)) 1
    else if aboveHyst s.dev.lowPace (s.dev.g F.SNS.AVL_TARGET_PACE) (s.dev.g F.SNS.AVL_CTRL_HYST) = true then
      if s.dev.avlClamp (s.dev.vcore - 5) = s.dev.vcore then s.dev else s.dev.vout (s.dev.avlClamp (s.dev.vcore - 5)) 2
    else s.dev) := by
  refine becomes_of_run (show execAvlPeriod s = _ from rfl) ?_
  refine (if_neg (by simp [hrun])).trans ((if_neg (by simp [hfree])).trans ((if_neg (by simp [hfree])).trans ?_))
  simp only [beq_iff_eq]

end

/-- VCORE_COMMAND_DONE with no command in progress has no effect. -/
theorem vcoreCommandDone_free (hfree : s.dev.avl.busy = 0) : NoEffect .vcoreCommandDone s := by
  refine becomes_of_run (show execVcoreCommandDone s = _ from rfl) ?_
  exact if_pos (by simp [hfree])

section
variable (hbusy : s.dev.avl.busy ≠ 0)
include hbusy

/-- At the end of a command a host value that waits goes out first (Table 3-2, assumption 23). -/
theorem vcoreCommandDone_host {mv : Nat} (hhost : s.dev.avl.hostNext = some mv) : Becomes .vcoreCommandDone s
    (({ s.dev with avl := { s.dev.avl with busy := 0, hostNext := none, bigRaise := false } } : Dev).vout mv 3) := by
  refine becomes_of_run (show execVcoreCommandDone s = _ from rfl) ?_
  refine (if_neg (by simp [hbusy])).trans ?_
  simp only [hhost]

/-- At the end of a command with no host value waiting, CEIL goes out where it is due, else a raise of 25 mV where it is due and the loop runs
(Table 3-2, assumption 23). -/
theorem vcoreCommandDone_loop {d : Dev} (hhost : s.dev.avl.hostNext = none) (hd : d = { s.dev with avl := { s.dev.avl with busy := 0, bigRaise := false } }) :
    Becomes .vcoreCommandDone s
      (if s.dev.avl.ceilDue = true then ({ d with avl := { d.avl with ceilDue := false } } : Dev).vout (s.dev.g F.SNS.AVL_LIMITS_CEIL) 4
      else if s.dev.avl.bigRaise = true then if d.loopRuns = true then d.vout (d.avlClamp (d.vcore + 25)) 1 else d
      else { s.dev with avl := { s.dev.avl with busy := 0 } }) := by
  subst hd
  refine becomes_of_run (show execVcoreCommandDone s = _ from rfl) ?_
  refine (if_neg (by simp [hbusy])).trans ?_
  simp only [hhost]
  rfl

end

/-- PMBUS_NO_ACK ends the command in progress and halts the loop, and a host value that waits goes out (R55, Table 3-2). -/
theorem pmbusNoAck_becomes {d : Dev}
    (hd : d = (({ s.dev with avl := { s.dev.avl with busy := 0, halted := true, bigRaise := false, ceilDue := false } } : Dev).avlShow.logRec 0x0301 3 0
      (toLE 2 s.dev.vcore)).raise E.CPT.PMBUS) :
    Becomes .pmbusNoAck s (s.dev.avl.hostNext.elim d (fun mv => ({ d with avl := { d.avl with hostNext := none } } : Dev).vout mv 3)) := by
  subst hd
  refine becomes_of_run (show execPmbusNoAck s = _ from rfl) ?_
  dsimp only
  cases s.dev.avl.hostNext <;> rfl

/-- VCORE_SET of a locked SNS page ends with LOCKED; else it takes the loop out of the hands of EN and sends its value, or keeps it for the end of the
command in progress (R54, R536, Table 3-2). -/
theorem vcoreSet_ready {id : Nat} {c : Cmd} {d : Dev}
    (h : Ready s.dev 0x0902 id c (fun _ c => if 600 ≤ c.par 24 2 && c.par 24 2 ≤ 850 then none else some 0))
    (hd : d = ((s.dev.wBoth F.SNS.AVL_CTRL_EN 0).w F.SNS.AVL_STAT_HOST_OVR 1).avlShow) :
    Becomes (.vcoreSet id) s
      (if s.dev.locked ⟨.SNS, 0, 0⟩ = true then s.dev.finish id (c.bad stLocked)
      else (if s.dev.avl.busy = 0 then d.vout (c.par 24 2) 3
        else { d with avl := { s.dev.avl with hostNext := some (c.par 24 2), bigRaise := false } }).finish id c.ok) := by
  subst hd
  have hrun := becomes_of_runCmd (i := .vcoreSet id) rfl h (by split <;> rfl)
  split at hrun <;> rename_i hlocked
  · rwa [if_pos hlocked]
  · rw [if_neg hlocked]
    simpa only [bne_iff_ne, ite_not, Dev.avlShow_avl, Dev.w_avl, Dev.wBoth_avl] using hrun

end

/-- Settles O4, row by row: AVL_PERIOD, VCORE_COMMAND_DONE, PMBUS_NO_ACK, the two rows of PMB_ALERT, and VCORE_SET. -/
theorem voltageLoop : Obligations.VoltageLoop := by
  refine ⟨?_, ?_, ?_, ?_, ?_, ?_, ?_, ?_, ?_, ?_, fun s => vcoreCommandDone_free, ?_, ?_, pmbAlert_becomes, pmbAlertRelease_becomes, ?_, ?_, ?_⟩
  · intro s mv hrun hfree hlow hmv hne
    subst hmv
    have hperiod := avlPeriod_free hrun hfree
    rwa [if_pos hlow, if_neg hne, Dev.vout_eq] at hperiod
  · intro s mv hrun hfree hfast habove hmv hne
    subst hmv
    have hperiod := avlPeriod_free hrun hfree
    rwa [if_neg hfast, if_pos habove, if_neg hne, Dev.vout_eq] at hperiod
  · intro s hrun hfree hup hdown
    have hperiod := avlPeriod_free hrun hfree
    by_cases hlow : s.dev.lowPace < s.dev.g F.SNS.AVL_TARGET_PACE
    · rwa [if_pos hlow, if_pos (hup hlow)] at hperiod
    · rw [if_neg hlow] at hperiod
      split at hperiod
      · rename_i habove
        rwa [if_pos (hdown hlow habove)] at hperiod
      · exact hperiod
  · intro s hrun hlower hlow
    have hperiod := avlPeriod_lowering hrun hlower
    rwa [Dev.paceWatch_due hrun hlower hlow] at hperiod
  · intro s hstill
    cases hrun : s.dev.loopRuns with
    | false => exact avlPeriod_stopped hrun
    | true =>
      rcases hstill with hstop | ⟨hbusy, hlower⟩ | ⟨hlower, hfast⟩
      · exact absurd hrun (by simp [hstop])
      · exact avlPeriod_busy hrun hbusy hlower
      · have hperiod := avlPeriod_lowering hrun hlower
        rwa [Dev.paceWatch_fast hfast] at hperiod
  · intro s hbusy hhost hceil hraise
    have hdone := vcoreCommandDone_loop hbusy hhost rfl
    rwa [if_neg (by simp [hceil]), if_neg (by simp [hraise])] at hdone
  · intro s d1 hbusy hhost hceil hraise hd1 hstop
    have hdone := vcoreCommandDone_loop hbusy hhost hd1
    rwa [if_neg (by simp [hceil]), if_pos hraise, if_neg (by simp [hstop])] at hdone
  · intro s mv hbusy hhost
    exact vcoreCommandDone_host hbusy hhost
  · intro s hbusy hhost hceil
    have hdone := vcoreCommandDone_loop hbusy hhost rfl
    rwa [if_pos hceil] at hdone
  · intro s d1 hbusy hhost hceil hraise hd1 hrun
    have hdone := vcoreCommandDone_loop hbusy hhost hd1
    rwa [if_neg (by simp [hceil]), if_pos hraise, if_pos hrun] at hdone
  · intro s d1 hd1 hhost
    have hack := pmbusNoAck_becomes hd1
    rwa [hhost] at hack
  · intro s d1 mv hd1 hhost
    have hack := pmbusNoAck_becomes hd1
    rwa [hhost] at hack
  · intro s id c h hopen hfree
    have hset := vcoreSet_ready h rfl
    rwa [if_neg (by simp [hopen]), if_pos hfree] at hset
  · intro s id c d1 h hopen hbusy hd1
    have hset := vcoreSet_ready h hd1
    rwa [if_neg (by simp [hopen]), if_neg hbusy] at hset
  · intro s id c h hlocked
    have hset := vcoreSet_ready h rfl
    rwa [if_pos hlocked] at hset

end Sys2Proof.Machine

/-! PROOFS. The time island's rows: PTP steps, edges of PPS_IN, the discipline's states, and PPS_OUT (R59 to R63, Table 3-4). -/

namespace Sys2Proof.Machine
open Sys2Proof Sys2Proof.Safety

/-- Under another source than PPS_IN the servo rests (R60). -/
theorem Dev.ppsServo_off {d : Dev} (hsrc : d.g F.TIM.DISC_CTRL_SRC ≠ 2) : d.ppsServo = d := if_pos (by simp [hsrc])

/-- An accepted edge under another source latches local time and nothing else (R61). -/
theorem Dev.ppsAccept_latch {d : Dev} (hsrc : d.g F.TIM.DISC_CTRL_SRC ≠ 2) : d.ppsAccept = { d with time := { d.time with ppsCap := d.time.lt } } := by
  have htime : (d.g F.TIM.DISC_CTRL_SRC == 2) = false := by simpa using hsrc
  simp only [Dev.ppsAccept, htime, Bool.false_eq_true, if_false]
  exact Dev.ppsServo_off hsrc

/-- An accepted edge under PPS_IN also gives the offset of the nearest second, on which the servo acts (R60, R62). -/
theorem Dev.ppsAccept_sample {d : Dev} {off sec : Nat} (hsrc : d.g F.TIM.DISC_CTRL_SRC = 2)
    (hoff : off = if 2 * d.time.ptpNs < 1000000000 then d.time.ptpNs else 1000000000 - d.time.ptpNs)
    (hsec : sec = if 2 * d.time.ptpNs < 1000000000 then d.time.ptpSec else d.time.ptpSec + 1) :
    d.ppsAccept =
      ({ d with time := { ({ d.time with ppsCap := d.time.lt } : Time).sample sec (off < 1000) with updAt := d.time.lt } } : Dev).ppsServo := by
  subst hoff hsec
  simp only [Dev.ppsAccept, hsrc, beq_self_eq_true, if_true]

/-- Entering another state writes it, fires vector 11, and starts the runs of seconds over (Table 3-4, Table 4-4). -/
theorem Dev.discTo_other {d : Dev} {st : Nat} (hother : d.disc ≠ st) : d.discTo st =
    { (d.w F.TIM.DISC_STAT_STATE st).fireVec 11 with time := { d.time with okRun := 0, okSec := 0, updAt := d.time.lt } } :=
  if_neg (by simpa using hother)

/-- PPS_OUT_END lowers PPS_OUT (R63). -/
theorem ppsOutEnd_becomes (s : State) : Becomes .ppsOutEnd s { s.dev with pins := { s.dev.pins with ppsOut := false } } := rfl

section
variable {s : State}

/-- PTP_STEP applies what is due (R59). -/
theorem ptpStep_becomes : Becomes .ptpStep s s.dev.ptpStep := rfl

/-- PTP_STEP with none due has no effect (R59). -/
theorem ptpStep_none (hdue : s.dev.time.stepDue = false) : NoEffect .ptpStep s := by
  refine becomes_of_run (show execPtpStep s = _ from rfl) ?_
  exact if_pos (by rw [hdue]; rfl)

/-- In FREE an edge has no effect (assumption 22). -/
theorem ppsInEdge_free (hstate : s.dev.disc = 0) : NoEffect .ppsInEdge s := by
  refine becomes_of_run (show execPpsInEdge s = _ from rfl) ?_
  simp only [hstate]

/-- In ACQUIRE every edge is accepted (R61). -/
theorem ppsInEdge_acquire (hstate : s.dev.disc = 1) : Becomes .ppsInEdge s s.dev.ppsAccept := by
  refine becomes_of_run (show execPpsInEdge s = _ from rfl) ?_
  simp only [hstate]

/-- In LOCKED an edge within the window is accepted, and another counted (R61). -/
theorem ppsInEdge_locked (hstate : s.dev.disc = 2) : Becomes .ppsInEdge s
    (if min s.dev.time.ptpNs (1000000000 - s.dev.time.ptpNs) ≤ s.dev.g F.TIM.DISC_CTRL_PPS_WIN * 10 then s.dev.ppsAccept
    else s.dev.wSat F.TIM.DISC_STAT_REJ 1) := by
  refine becomes_of_run (show execPpsInEdge s = _ from rfl) ?_
  simp only [hstate]

/-- In HOLDOVER an edge is accepted, and under PPS_IN the discipline goes back to ACQUIRE (R61, R62). -/
theorem ppsInEdge_holdover (hstate : s.dev.disc = 3) : Becomes .ppsInEdge s
    (if s.dev.g F.TIM.DISC_CTRL_SRC = 2 then s.dev.ppsAccept.discTo 1 else s.dev.ppsAccept) := by
  refine becomes_of_run (show execPpsInEdge s = _ from rfl) ?_
  simp only [hstate, Dev.when, beq_iff_eq]

/-- DISC_LOCK in ACQUIRE after 8 good seconds that reach up to now enters LOCKED (R62). -/
theorem discLock_enters (hstate : s.dev.disc = 1) (hrun : 8 ≤ s.dev.time.okRun) (hlast : s.dev.time.ptpSec ≤ s.dev.time.okSec + 1) :
    Becomes .discLock s (s.dev.discTo 2) := by
  refine becomes_of_run (show execDiscLock s = _ from rfl) ?_
  exact if_pos (by simp [hstate, hrun, hlast])

/-- DISC_LOCK otherwise has no effect. -/
theorem discLock_stays (h : s.dev.disc ≠ 1 ∨ s.dev.time.okRun < 8 ∨ s.dev.time.okSec + 1 < s.dev.time.ptpSec) : NoEffect .discLock s := by
  refine becomes_of_run (show execDiscLock s = _ from rfl) ?_
  refine if_neg ?_
  simp only [Bool.and_eq_true, beq_iff_eq, decide_eq_true_eq]
  omega

/-- 3 s in ticks of local time. -/
theorem threeSeconds_ticks : 3000000 * tickUs = 960000000 := rfl

/-- DISC_HOLDOVER in LOCKED 3 s or more after the last update enters HOLDOVER (R62). -/
theorem discHoldover_enters (hstate : s.dev.disc = 2) (hlate : s.dev.time.updAt + 960000000 ≤ s.dev.time.lt) :
    Becomes .discHoldover s (s.dev.discTo 3) := by
  refine becomes_of_run (show execDiscHoldover s = _ from rfl) ?_
  refine if_pos ?_
  rw [Bool.and_eq_true, beq_iff_eq, decide_eq_true_eq, threeSeconds_ticks]
  exact ⟨hstate, hlate⟩

/-- DISC_HOLDOVER otherwise has no effect. -/
theorem discHoldover_stays (h : s.dev.disc ≠ 2 ∨ s.dev.time.lt < s.dev.time.updAt + 960000000) : NoEffect .discHoldover s := by
  refine becomes_of_run (show execDiscHoldover s = _ from rfl) ?_
  refine if_neg ?_
  rw [Bool.and_eq_true, beq_iff_eq, decide_eq_true_eq, threeSeconds_ticks]
  omega

/-- PPS_OUT rises at a second where pulses may start, the mode drives them, and they have a width (R63). -/
theorem ppsOutPulse_rises (hallowed : s.dev.time.ppsAllowed = true) (hmode : ppsMode s.dev.mode = true)
    (hwidth : s.dev.g F.TIM.PPS_OUT_CFG_WIDTH ≠ 0) : Becomes .ppsOutPulse s { s.dev with pins := { s.dev.pins with ppsOut := true } } := by
  refine becomes_of_run (show execPpsOutPulse s = _ from rfl) ?_
  exact if_pos (by simp [hallowed, hmode, hwidth])

/-- PPS_OUT_PULSE otherwise has no effect. -/
theorem ppsOutPulse_stays (h : s.dev.time.ppsAllowed = false ∨ ppsMode s.dev.mode = false ∨ s.dev.g F.TIM.PPS_OUT_CFG_WIDTH = 0) :
    NoEffect .ppsOutPulse s := by
  refine becomes_of_run (show execPpsOutPulse s = _ from rfl) ?_
  exact if_neg (by rcases h with h | h | h <;> simp [h])

end

/-- Settles O6, row by row; the two ways of accepting an edge stand between PPS_IN_EDGE and the discipline's rows. -/
theorem timeIsland : Obligations.TimeIsland := by
  refine ⟨fun _ _ => ptpStep_becomes, fun _ => ptpStep_none, fun _ => ppsInEdge_acquire, ?_, ?_, ?_, ?_, fun _ => ppsInEdge_free, fun _ => Dev.ppsAccept_latch,
    fun _ _ _ => Dev.ppsAccept_sample, ?_, fun _ => discLock_stays, ?_, fun _ => discHoldover_stays, fun _ => ppsOutPulse_rises,
    fun _ => ppsOutPulse_stays, ppsOutEnd_becomes⟩
  · intro s hstate hwithin
    have hedge := ppsInEdge_locked hstate
    rwa [if_pos hwithin] at hedge
  · intro s hstate hbeyond
    have hedge := ppsInEdge_locked hstate
    rwa [if_neg hbeyond.not_ge] at hedge
  · intro s hstate hsrc
    have hedge := ppsInEdge_holdover hstate
    rwa [if_pos hsrc] at hedge
  · intro s hstate hsrc
    have hedge := ppsInEdge_holdover hstate
    rwa [if_neg hsrc] at hedge
  · intro s hstate hrun hlast
    have hlock := discLock_enters hstate hrun hlast
    rwa [Dev.discTo_other (by rw [hstate]; decide)] at hlock
  · intro s hstate hlate
    have hholdover := discHoldover_enters hstate hlate
    rwa [Dev.discTo_other (by rw [hstate]; decide)] at hholdover

end Sys2Proof.Machine

/-! PROOFS. Effects that go through a range of numbers, each with a place of its own. -/

namespace Sys2Proof.Machine
open Sys2Proof Sys2Proof.Safety

/-- Going through a range of numbers, of which each changes its own place alone, makes at a place the change of its number. -/
theorem Dev.each_range_at {β : Type} {n : Nat} {f : Dev → Nat → Dev} (place : Dev → Nat → β) (change : Nat → β → β)
    (hsame : ∀ (d : Dev) (k : Nat), place (f d k) k = change k (place d k))
    (hother : ∀ (d : Dev) (k j : Nat), k < n → j < n → k ≠ j → place (f d j) k = place d k) {k : Nat} (hk : k < n) (d : Dev) :
    place (d.each (List.range n) f) k = change k (place d k) := by
  have hupto : ∀ m ≤ n, place (d.each (List.range m) f) k = if k < m then change k (place d k) else place d k := by
    intro m hm
    induction m with
    | zero => rfl
    | succ m ih =>
      have hlast : d.each (List.range (m + 1)) f = f (d.each (List.range m) f) m := by
        simp only [Dev.each, List.range_succ, List.foldl_append, List.foldl_cons, List.foldl_nil]
      have hbefore := ih (by omega)
      rw [hlast]
      by_cases hkm : k = m
      · subst hkm
        rw [hsame, hbefore, if_neg (Nat.lt_irrefl k), if_pos (Nat.lt_succ_self k)]
      · rw [hother _ _ _ hk (by omega) hkm, hbefore]
        simp only [show (k < m + 1) = (k < m) by rw [eq_iff_iff]; omega]
  rw [hupto n le_rfl, if_pos hk]

end Sys2Proof.Machine

/-! PROOFS. Register addresses, and what a page number denotes on the dies that implement it (R75, R76). -/

namespace Sys2Proof.Machine
open Sys2Proof Sys2Proof.Safety

/-- The index lists the pages whose die and place among their kind the kind's row of Table 4-3 has. -/
theorem mem_allPages {p : Page} : p ∈ allPages ↔ p.die ∈ (pageRow p.tag).dies ∧ p.inst < (pageRow p.tag).count := by
  unfold allPages
  simp only [List.mem_flatMap, List.mem_map, List.mem_range]
  constructor
  · rintro ⟨t, -, die, hdie, i, hi, rfl⟩
    exact ⟨hdie, hi⟩
  · rintro ⟨hdie, hinst⟩
    exact ⟨p.tag, tags_all p.tag, p.die, hdie, p.inst, hinst, rfl⟩

/-- A page found under a die and a number has both. -/
theorem pageAt_die_num {die num : Nat} {p : Page} (h : pageAt die num = some p) : p.die = die ∧ p.num = num := by
  obtain ⟨t, hfind, rfl⟩ := Option.map_eq_some_iff.mp h
  have hrow := List.find?_some hfind
  simp only [Bool.and_eq_true, decide_eq_true_eq] at hrow
  obtain ⟨⟨-, hfirst⟩, -⟩ := hrow
  exact ⟨rfl, Nat.add_sub_of_le hfirst⟩

/-- A die has the page of its own under a number, if any. -/
theorem pageAt_iff {die num : Nat} {p : Page} : pageAt die num = some p ↔ p ∈ allPages ∧ p.die = die ∧ p.num = num := by
  constructor
  · exact fun h => ⟨pageAt_mem h, pageAt_die_num h⟩
  · rintro ⟨hp, rfl, rfl⟩
    exact pages_found p hp

/-- Pages with one number are of one kind, on whatever dies they are (R76). -/
theorem tag_eq_of_num {p q : Page} (hp : p ∈ allPages) (hq : q ∈ allPages) (h : p.num = q.num) : p.tag = q.tag := by
  obtain ⟨-, hpcount⟩ := mem_allPages.mp hp
  obtain ⟨-, hqcount⟩ := mem_allPages.mp hq
  by_contra hne
  have hapart := pages_tag p.tag (tags_all _) q.tag (tags_all _) hne
  unfold Page.num at h
  omega

/-- A die, a page and an offset within their ranges are read back from the offset in BAR0 that they spell (R75). -/
theorem addr_fields {die page off : Nat} (hdie : die < 8) (hpage : page < 512) (hoff : off < 4096) :
    addrDie (die * 0x200000 + page * 0x1000 + off) = die ∧ addrPage (die * 0x200000 + page * 0x1000 + off) = page ∧
      addrOff (die * 0x200000 + page * 0x1000 + off) = off := by
  unfold addrDie addrPage addrOff
  omega

/-- Settles O54: addresses by their parts, pages by the rows of the page index. -/
theorem pageAddresses : Obligations.PageAddresses := by
  refine ⟨?_, ?_, ?_, fun _ _ _ => pageAt_iff⟩
  · intro die page off hdie hpage hoff
    exact ⟨by omega, addr_fields hdie hpage hoff⟩
  · intro p off hp hoff
    obtain ⟨hdie, hnum⟩ := pages_small p hp
    exact addr_fields hdie hnum hoff
  · intro a b num p q hp hq
    obtain ⟨hpmem, -, hpnum⟩ := pageAt_iff.mp hp
    obtain ⟨hqmem, -, hqnum⟩ := pageAt_iff.mp hq
    have hnum : p.num = q.num := hpnum.trans hqnum.symm
    have htag := tag_eq_of_num hpmem hqmem hnum
    unfold Page.num at hnum
    rw [htag] at hnum
    exact ⟨htag, Nat.add_left_cancel hnum⟩

end Sys2Proof.Machine

/-! PROOFS. Host commands that their mode or their unit does not take (R102, R627). -/

namespace Sys2Proof.Machine
open Sys2Proof Sys2Proof.Safety

section
variable {op id : Nat} {i : Instr} {s : State} (hrow : HostRow op id i)
include hrow

/-- What a host command comes to where it comes to the same under every body, its row becomes. -/
theorem hostRow_becomes {d : Dev}
    (hrun : ∀ dma range body, s.dev.runCmd op id dma range body = d)
    (hrunH : ∀ m dma range body, s.dev.runCmdH m op id dma range body = (d, [])) : Becomes i s d := by
  rcases hostRow_shape hrow s with ⟨dma, range, body, hexec⟩ | ⟨dma, range, body, hexec⟩
  · rw [Becomes, hexec, hrun]
  · rw [Becomes, hexec, hrunH]
    rfl

/-- A check that ends a command with one of some statuses, whatever its body, is what its row comes to. -/
theorem hostRow_refused {c : Cmd} {P : Nat → Prop}
    (hcheck : ∀ range : Dev → Cmd → Option Nat, ∃ st res, P st ∧
      (∀ dma body, s.dev.runCmd op id dma range body = s.dev.finish id (c.bad st res)) ∧
      (∀ m dma body, s.dev.runCmdH m op id dma range body = (s.dev.finish id (c.bad st res), []))) :
    ∃ st res, P st ∧ Becomes i s (s.dev.finish id (c.bad st res)) := by
  rcases hostRow_shape hrow s with ⟨dma, range, body, hexec⟩ | ⟨dma, range, body, hexec⟩
  · obtain ⟨st, res, hst, hrun, -⟩ := hcheck range
    exact ⟨st, res, hst, by rw [Becomes, hexec, hrun]⟩
  · obtain ⟨st, res, hst, -, hrunH⟩ := hcheck range
    exact ⟨st, res, hst, by rw [Becomes, hexec, hrunH]; rfl⟩

end

/-- Settles O52: a command that is not there, one that the mode refuses, and one whose unit is down. -/
theorem hostRowsRefuse : Obligations.HostRowsRefuse := by
  refine ⟨?_, ?_, ?_⟩
  · intro op id i s hrow habsent
    exact hostRow_becomes hrow (Dev.runCmd_absent habsent) (Dev.runCmdH_absent habsent)
  · intro op id i s c hrow hcmd hop hstage hturn hmode
    exact hostRow_refused hrow (Dev.runCmd_mode hcmd hop hstage hturn hmode)
  · intro op id i s c hrow hcmd hop hstage hturn hdown
    exact hostRow_refused hrow (Dev.runCmd_down hcmd hop hstage hturn hdown)

end Sys2Proof.Machine

/-! PROOFS. Page writes that fail: which access is recorded, and what a failed access leaves (R77, R79, R89). -/

namespace Sys2Proof.Machine
open Sys2Proof Sys2Proof.Safety

section
variable {s : State} {i : Instr} {die page off : Nat} {lockable : Bool} {f : Dev → Page → Dev}

/-- A row that writes a page which no die has is the failed access of cause 1. -/
theorem becomes_of_pageWrite_none (hexec : exec i s = run s (fun d => d.pageWrite die page off lockable f)) (h : targets die page = []) :
    Becomes i s (s.dev.failAcc (die * 0x200000 + page * 0x1000 + off) 0 1) :=
  becomes_of_run hexec (Dev.pageWrite_none h off lockable f)

section
variable {p : Page}

/-- A row that writes one page which is unpowered or in block soft reset is the failed access of that page's cause. -/
theorem becomes_of_pageWrite_fault {c : Nat} (hexec : exec i s = run s (fun d => d.pageWrite die page off lockable f))
    (h : targets die page = [p]) (hfault : s.dev.pageFault p = some c) : Becomes i s (s.dev.failAcc (p.base + off) 0 c) := by
  refine becomes_of_run hexec ?_
  simp only [Dev.pageWrite, h, Dev.each_one, hfault]

/-- A row that writes one locked page is the failed access of cause 5. -/
theorem becomes_of_pageWrite_locked (hexec : exec i s = run s (fun d => d.pageWrite die page off true f)) (h : Reaches s.dev die page p)
    (hlock : s.dev.locked p = true) : Becomes i s (s.dev.failAcc (p.base + off) 0 5) :=
  becomes_of_run hexec (Dev.pageWrite_locked h hlock off f)

/-- A row whose write no lock protects against has the effect of the write on one page that can be reached. -/
theorem becomes_of_pageWrite_reached (hexec : exec i s = run s (fun d => d.pageWrite die page off false f)) (h : Reaches s.dev die page p) :
    Becomes i s (f s.dev p) :=
  becomes_of_run hexec (Dev.pageWrite_reached h off f)

end
end

/-- A failed access keeps every field but those that record it (R79). -/
theorem Dev.get_failAcc {d : Dev} {addr bar cause : Nat} {f : Fld} {p : Page} {i : Nat}
    (h : ∀ g ∈ [F.HST.ACC_ERR_CNT_CNT, F.HST.ACC_ERR_OFFSET, F.HST.ACC_ERR_BAR, F.HST.ACC_ERR_CAUSE], f.key p i ≠ g.key ⟨.HST, 0, 0⟩ 0) :
    (d.failAcc addr bar cause).get f p i = d.get f p i := by
  have hkept (e : Dev) (g : Fld) (v : Nat) (hg : g ∈ [F.HST.ACC_ERR_CNT_CNT, F.HST.ACC_ERR_OFFSET, F.HST.ACC_ERR_BAR, F.HST.ACC_ERR_CAUSE])
      (hpage : g.page 0 0 = ⟨.HST, 0, 0⟩) : (e.w g v).get f p i = e.get f p i :=
    Dev.get_put_other _ _ _ _ _ _ _ _ (hpage ▸ h g hg)
  unfold Dev.failAcc
  dsimp only
  split
  · rw [hkept _ _ _ (by simp) rfl, hkept _ _ _ (by simp) rfl, hkept _ _ _ (by simp) rfl, Dev.wSat, hkept _ _ _ (by simp) rfl]
  · rw [Dev.wSat, hkept _ _ _ (by simp) rfl]

/-- A failed access changes registers alone. -/
theorem Dev.failAcc_registers (d : Dev) (addr bar cause : Nat) : { d.failAcc addr bar cause with rf := d.rf } = d := by
  unfold Dev.failAcc
  dsimp only
  split <;> rfl

/-- Settles O9: the pages that no die has, those that cannot take a write, the locked ones, and what a failed access leaves. -/
theorem registerWriteFails : Obligations.RegisterWriteFails := by
  refine ⟨?_, ?_, ?_, ?_⟩
  · intro s die page bits data hi hnone
    refine ⟨?_, ?_, ?_, ?_, ?_, ?_⟩ <;> exact becomes_of_pageWrite_none rfl hnone
  · intro s die page bits data c hi p hone hfault
    refine ⟨?_, ?_, ?_, ?_, ?_, ?_⟩ <;> exact becomes_of_pageWrite_fault rfl hone hfault
  · intro s die page bits data hi p hreach hlock
    refine ⟨?_, ?_, ?_, ?_, ?_, ?_⟩
    case refine_6 => exact becomes_of_pageWrite_reached (i := .stickyClear die page bits) rfl hreach
    all_goals exact becomes_of_pageWrite_locked rfl hreach hlock
  · intro d addr bar cause f p i hother
    exact ⟨Dev.get_failAcc hother, Dev.failAcc_registers d addr bar cause⟩

end Sys2Proof.Machine

/-! PROOFS. Error sources: the rows that fire, force and clear them, and their reaction codes (R81, R510 to R517). -/

namespace Sys2Proof.Machine
open Sys2Proof Sys2Proof.Safety

section
variable {s : State} {die page src kind place : Nat} {unit : Option Nat}

/-- A source that a powered page lists takes its side action, is raised, and its bench unit is judged (R510, R511, R520). -/
theorem errorSourceFire_listed {p : Page} (hpage : pageAt die page = some p) (hpower : p.poweredBy s.dev.pwr.powered = true)
    (hsrc : (srcAt p src).isSome = true) :
    Becomes (.errorSourceFire die page src kind place unit) s (((s.dev.errorHits p src kind place).raiseAt p src).memHit p src unit) := by
  refine becomes_of_run (show execErrorSourceFire die page src kind place unit s = _ from rfl) ?_
  simp only [hpage, Option.elim_some, hpower, hsrc, Bool.and_self, if_true]

/-- A source that no powered page lists does not fire. -/
theorem errorSourceFire_unlisted (h : ∀ p, pageAt die page = some p → (p.poweredBy s.dev.pwr.powered && (srcAt p src).isSome) = false) :
    NoEffect (.errorSourceFire die page src kind place unit) s := by
  refine becomes_of_run (show execErrorSourceFire die page src kind place unit s = _ from rfl) ?_
  cases hpage : pageAt die page with
  | none => rfl
  | some p => simp only [Option.elim_some, h p hpage, Bool.false_eq_true, if_false]

end

section
variable {s : State} {data : Nat}

section
variable (h : Reaches s.dev 0 0x002 ⟨.FCL, 0, 0⟩)
include h

/-- COLLECTOR_CLEAR of the package word, a die word or a region word clears there, and at another offset does nothing (R514). -/
theorem collectorClear_becomes (off data : Nat) : Becomes (.collectorClear off data) s
    (if off = 0x040 then s.dev.clearPkg data
    else if 0x044 ≤ off ∧ off < 0x060 ∧ off % 4 = 0 then s.dev.clearDie ((off - 0x044) / 4) data
    else if 0x060 ≤ off ∧ off < 0x0C0 ∧ off % 4 = 0 then s.dev.clearRegion ((off - 0x060) / 4) data
    else s.dev) := by
  have hrow := becomes_of_pageWrite_reached (i := .collectorClear off data) rfl h
  simpa only [Bool.and_eq_true, beq_iff_eq, decide_eq_true_eq, and_assoc] using hrow

end

section
variable (h : Writable s.dev 0 0x002 ⟨.FCL, 0, 0⟩)
include h

/-- FIRST_CLEAR with bit 0 empties FIRST (R515). -/
theorem firstClear_becomes : Becomes (.firstClear data) s
    (s.dev.when (bitOf data 0) (fun d => (((d.w F.FCL.FIRST_DIE 0).w F.FCL.FIRST_PAGE 0).w F.FCL.FIRST_SRC 0).w F.FCL.FIRST_VALID 0)) :=
  becomes_of_pageWrite (i := .firstClear data) rfl h

/-- ERRN_LATCH_CLEAR with bit 0 and no sticky bit of code 5 left clears the latch, and the pin follows (R516). -/
theorem errnLatchClear_becomes : Becomes (.errnLatchClear data) s
    (s.dev.when (bitOf data 0 && !s.dev.code5Left) (fun d => (d.w F.FCL.ERRN_LATCH 0).errNFollow)) :=
  becomes_of_pageWrite (i := .errnLatchClear data) rfl h

end
end

/-- ERROR_FORCE of a page that can be written forces the sources named there (R517). -/
theorem errorForce_becomes {s : State} {die page : Nat} {p : Page} (h : Writable s.dev die page p) (bits : Nat) :
    Becomes (.errorForce die page bits) s (s.dev.force p bits) := becomes_of_pageWrite (i := .errorForce die page bits) rfl h

/-- REACT_CODE_WRITE of a page that can be written sets one half of its sources' codes (R81). -/
theorem reactCodeWrite_becomes {s : State} {die page : Nat} {p : Page} (h : Writable s.dev die page p) (hi : Bool) (data : Nat) :
    Becomes (.reactCodeWrite die page hi data) s (s.dev.reactWrite p hi data) :=
  becomes_of_pageWrite (i := .reactCodeWrite die page hi data) rfl h

/-- Settles O10: firing, then the common registers of a page, then the collector words and FCL's own clears. -/
theorem errorRows : Obligations.ErrorRows := by
  refine ⟨?_, ?_, ?_, ?_, ?_, ?_, ?_, ?_, ?_, ?_, ?_, ?_, ?_, ?_⟩
  · intro s die page src kind place unit p hpage hpower hsrc
    exact errorSourceFire_listed hpage hpower hsrc
  · intro s die page src kind place unit h
    exact errorSourceFire_unlisted h
  · intro s die page bits p h
    exact becomes_of_pageWrite_reached (i := .stickyClear die page bits) rfl h
  · intro s die page bits p h hinj
    have hforce := errorForce_becomes h bits
    rwa [Dev.force, if_pos hinj] at hforce
  · intro s die page bits p h hinj
    have hforce := errorForce_becomes h bits
    rwa [Dev.force, hinj] at hforce
  · intro s die page data hi p h
    exact reactCodeWrite_becomes h hi data
  · intro s data h
    exact collectorClear_becomes h 0x040 data
  · intro s x data h hx
    have hclear := collectorClear_becomes h (0x044 + 4 * x) data
    rwa [if_neg (by omega), if_pos (by omega), Nat.add_sub_cancel_left, Nat.mul_div_cancel_left x (by decide)] at hclear
  · intro s r data h hr
    have hclear := collectorClear_becomes h (0x060 + 4 * r) data
    rwa [if_neg (by omega), if_neg (by omega), if_pos (by omega), Nat.add_sub_cancel_left, Nat.mul_div_cancel_left r (by decide)] at hclear
  · intro s off data h hoff
    have hclear := collectorClear_becomes h off data
    rwa [if_neg (by omega), if_neg (by omega), if_neg (by omega)] at hclear
  · intro s data h hgo
    have hclear := firstClear_becomes (data := data) h
    rwa [hgo] at hclear
  · intro s data h hgo
    have hclear := firstClear_becomes (data := data) h
    rwa [hgo] at hclear
  · intro s data h hgo hleft
    have hclear := errnLatchClear_becomes (data := data) h
    rwa [hgo, hleft] at hclear
  · intro s data h hstays
    have hclear := errnLatchClear_becomes (data := data) h
    rwa [hstays] at hclear

end Sys2Proof.Machine

/-! PROOFS. Reaction codes that a write leaves: codes 6 and 7 are ignored (R81). -/

namespace Sys2Proof.Machine
open Sys2Proof Sys2Proof.Safety

/-- Where the code of a source stands: bit `3 * (n % 10)` of the low register for sources 0 to 9, of the high one for 10 to 15 (Table 4-1). -/
theorem pgReact_key (p : Page) (n rst : Nat) : (pgReact p.tag n rst).key p 0 =
    if n < 10 then (p.base + 0x018) * 32 + 3 * n else (p.base + 0x01C) * 32 + 3 * (n - 10) := by
  unfold pgReact
  split <;> simp [Fld.key, Fld.common]

/-- A code is 3 bits wide. -/
theorem pgReact_width (t : Tag) (n rst : Nat) : (pgReact t n rst).width = 3 := by
  unfold pgReact
  split <;> rfl

/-- Sources have codes of their own. -/
theorem pgReact_key_ne {p : Page} {n m : Nat} (hn : n < 16) (hm : m < 16) (hne : n ≠ m) (rst rst' : Nat) :
    (pgReact p.tag n rst).key p 0 ≠ (pgReact p.tag m rst').key p 0 := by
  rw [pgReact_key, pgReact_key]
  split <;> split <;> omega

/-- A source takes the code written, unless that is 6 or 7 (R81). -/
theorem Dev.react_setReact_same (d : Dev) (p : Page) (n : Nat) {code : Nat} (hcode : code < 8) :
    (d.setReact p n code).react p n = if code = 6 ∨ code = 7 then d.react p n else code := by
  unfold Dev.setReact Dev.react
  by_cases htaken : code ≤ 5
  · rw [if_pos htaken, if_neg (by omega), Dev.get_put_same, pgReact_width]
    exact Nat.mod_eq_of_lt hcode
  · rw [if_neg htaken, if_pos (by omega)]

/-- A write of one source's code leaves that of another. -/
theorem Dev.react_setReact_other (d : Dev) (p : Page) {n m : Nat} (hn : n < 16) (hm : m < 16) (hne : n ≠ m) (code : Nat) :
    (d.setReact p m code).react p n = d.react p n := by
  unfold Dev.setReact Dev.react
  split
  · exact Dev.get_put_other _ _ _ _ _ _ _ _ (pgReact_key_ne hn hm hne _ _)
  · rfl

/-- The region word that a place to report names. -/
def Collect.regionNo : Collect → Nat
  | .region r _ => r
  | .die _ | .package _ => 0

/-- A page reports to one of the 24 region words, if to any (Table 18-2). -/
theorem collect_regionNo : ∀ p ∈ allPages, p.collect.regionNo < 24 := by decide +kernel

/-- A key of the common registers of a page is none of a collector word (Table 4-1, Table 18-1). -/
theorem react_key_ne_word {p : Page} (hp : p ∈ allPages) {n : Nat} (hn : n < 16) (rst : Nat) {f : Fld} {i : Nat} (htag : f.tag = .FCL)
    (hlo : 0x040 ≤ f.off) (hhi : f.off + f.stride * i < 4096) (hlsb : f.lsb < 32) : (pgReact p.tag n rst).key p 0 ≠ f.key (f.page 0 0) i := by
  have hpage : f.page 0 0 = ⟨.FCL, 0, 0⟩ := by rw [Fld.page, htag]
  have hword : ((⟨.FCL, 0, 0⟩ : Page).base + 0x040) * 32 ≤ f.key ⟨.FCL, 0, 0⟩ i := by unfold Fld.key; omega
  obtain ⟨-, hend⟩ := key_bounds f ⟨.FCL, 0, 0⟩ i hhi hlsb
  rw [hpage, pgReact_key]
  by_cases hfcl : p = ⟨.FCL, 0, 0⟩
  · subst hfcl
    split <;> omega
  · have hapart := pages_apart (chipKeeps_mem .FCL (by decide)) hp hfcl
    split <;> omega

/-- Reporting an error pin to the collector words leaves the reaction codes (R514). -/
theorem Dev.react_pinUpdate {p : Page} (hp : p ∈ allPages) (d : Dev) {n : Nat} (hn : n < 16) : (d.pinUpdate p).react p n = d.react p n := by
  have hcollect := collect_regionNo p hp
  have hdie := (pages_small p hp).1
  have hword (e : Dev) (f : Fld) (bit i : Nat) (htag : f.tag = .FCL) (hlo : 0x040 ≤ f.off) (hhi : f.off + f.stride * i < 4096)
      (hlsb : f.lsb < 32) : (e.wBit f bit true 0 0 i).react p n = e.react p n :=
    Dev.get_put_other _ _ _ _ _ _ _ _ (react_key_ne_word hp hn _ htag hlo hhi hlsb)
  have hpkg (e : Dev) (bit : Nat) : (e.wBit F.FCL.PKG_WORD_D bit true).react p n = e.react p n :=
    hword _ _ _ _ rfl (by decide) (by decide) (by decide)
  have hdieBit (e : Dev) (bit : Nat) : (e.setDieBit p.die bit).react p n = e.react p n := by
    rw [Dev.setDieBit, hpkg, hword _ _ _ _ rfl (by decide) (by simp only [F.FCL.DIE_WORD_D]; omega) (by decide)]
  unfold Dev.pinUpdate Dev.collectUp
  split
  · cases hc : p.collect with
    | region r bit =>
      rw [hc, Collect.regionNo] at hcollect
      exact (hdieBit _ _).trans (hword _ _ _ _ rfl (by decide) (by simp only [F.FCL.REGION_WORD_D]; omega) (by decide))
    | die bit => exact hdieBit _ _
    | package bit => exact hpkg _ _
  · rfl

/-- Codes written one after another, each to its own source: a source has the code written to it, unless that is 6 or 7 (R81). -/
theorem Dev.react_setReacts (d : Dev) (p : Page) {base cnt k : Nat} (hcnt : base + cnt ≤ 16) (hk : k < cnt) {code : Nat → Nat}
    (hcode : ∀ j, code j < 8) : (d.each (List.range cnt) (fun d j => d.setReact p (base + j) (code j))).react p (base + k) =
      if code k = 6 ∨ code k = 7 then d.react p (base + k) else code k := by
  refine Dev.each_range_at (fun e j => e.react p (base + j)) (fun j old => if code j = 6 ∨ code j = 7 then old else code j) ?_ ?_ hk d
  · exact fun e j => Dev.react_setReact_same e p _ (hcode j)
  · exact fun e j m hj hm hne => Dev.react_setReact_other e p (by omega) (by omega) (by omega) _

/-- A write of reaction codes leaves the package's power and resets. -/
theorem Dev.reactWrite_pwr (d : Dev) (p : Page) (hi : Bool) (data : Nat) : (d.reactWrite p hi data).pwr = d.pwr := by
  have hset (e : Dev) (n code : Nat) : (e.setReact p n code).pwr = e.pwr := by
    unfold Dev.setReact
    split <;> rfl
  have hpin (e : Dev) : (e.pinUpdate p).pwr = e.pwr := by
    unfold Dev.pinUpdate Dev.collectUp
    split
    · split <;> rfl
    · rfl
  rw [Dev.reactWrite, hpin]
  exact List.foldlRecOn (motive := fun e : Dev => e.pwr = d.pwr) _ _ rfl (fun e he k _ => (hset e _ _).trans he)

/-- Settles O56: each source that the half names takes its three bits, one source after another. -/
theorem reactionCodes : Obligations.ReactionCodes := by
  intro s die page data hi p h hworking
  have hp : p ∈ allPages := targets_mem (by rw [h.1.1]; exact List.mem_singleton_self p)
  have hbecomes := reactCodeWrite_becomes h hi data
  rw [Becomes, Dev.settle_none (by rw [Dev.reactWrite_pwr, hworking.1]) (by rw [Dev.reactWrite_pwr, hworking.2])] at hbecomes
  refine ⟨_, hbecomes, ?_⟩
  intro k hk
  have hcode (j : Nat) : bitsOf data (3 * j) 3 < 8 := Nat.mod_lt _ (by decide)
  have hcnt : (if hi then 10 else 0) + (if hi then 6 else 10) ≤ 16 := by cases hi <;> decide
  show (s.dev.reactWrite p hi data).react p _ = _
  rw [Dev.reactWrite, Dev.react_pinUpdate hp _ (by omega)]
  exact Dev.react_setReacts _ _ hcnt hk hcode

end Sys2Proof.Machine

/-! PROOFS. RESET_REQ, LEDGER_CLR and the reset of the host link (R93, R110, R118). -/

namespace Sys2Proof.Machine
open Sys2Proof Sys2Proof.Safety

section
variable {s : State} (h : Writable s.dev 0 0x004 ⟨.BTL, 0, 0⟩)
include h

/-- RESET_REQ of its code makes a chip reset of cause 6 due (R110). -/
theorem resetReq_becomes (code : Nat) : Becomes (.resetReq code) s (if code % 65536 = 0xD1A6 then s.dev.resetSoon 6 else s.dev) := by
  have hrow := becomes_of_pageWrite (i := .resetReq code) rfl h
  simpa only [beq_iff_eq] using hrow

/-- LEDGER_CLR with bit 0 makes the clearing of the failure counts due (R118). -/
theorem ledgerClr_becomes (data : Nat) : Becomes (.ledgerClr data) s
    (if bitOf data 0 = true then { s.dev with boot := { s.dev.boot with clearDue := true } } else s.dev) :=
  becomes_of_pageWrite (i := .ledgerClr data) rfl h

end

/-- HOST_LINK_RESET resets the host link, and for PERST_N also takes the link down (R93). -/
theorem hostLinkReset_becomes (perst : Bool) (s : State) : Becomes (.hostLinkReset perst) s
    (if perst = true then s.dev.hostLinkReset.emit (.linkTrain false) else s.dev.hostLinkReset) := rfl

/-- A host link reset marks the commands of the rings in flight, masks the vectors and ends the ring visit; the rest of the host link stays (R93). -/
theorem Dev.hostLinkReset_hl (d : Dev) : d.hostLinkReset.hl = { d.hl with
    msixUnmask := 0, unsignalled := 0, visitLeft := 0,
    inflight := d.hl.inflight.map (fun c => if c.ring == 4 then c else { c with discard := true }) } := rfl

/-- What a host link reset does to the registers of one command ring (R93). -/
def Dev.ringCleared (d : Dev) (r : Nat) : Dev :=
  ((d.w F.HST.CR_CFG_WEIGHT 0 0 0 r).w F.HST.CR_TAIL_IDX 0 0 0 r).w F.HST.CR_HEAD_IDX 0 0 0 r

/-- A host link reset clears the registers of the command rings, then those of the completion ring (R93). -/
theorem Dev.hostLinkReset_rf (d : Dev) : d.hostLinkReset.rf =
    (((d.each (List.range 4) Dev.ringCleared).w F.HST.CQ_HEAD_CNT 0).w F.HST.CQ_TAIL_CNT 0).rf := rfl

/-- What the registers of the host link read after its reset. -/
theorem Dev.g_hostLinkReset (d : Dev) (f : Fld) (i : Nat) : d.hostLinkReset.g f 0 0 i =
    (((d.each (List.range 4) Dev.ringCleared).w F.HST.CQ_HEAD_CNT 0).w F.HST.CQ_TAIL_CNT 0).g f 0 0 i := by
  rw [Dev.g, Dev.get, Dev.hostLinkReset_rf, Dev.g, Dev.get]

/-- The fields of a command ring that a host link reset clears (R93). -/
def ringFields : List Fld := [F.HST.CR_CFG_WEIGHT, F.HST.CR_TAIL_IDX, F.HST.CR_HEAD_IDX]

/-- Those fields share no key with one another, from ring to ring, nor with the counts of the completion ring (Table 4-5). -/
theorem ringField_key {f : Fld} (hf : f ∈ ringFields) (k : Nat) :
    (∀ g ∈ ringFields, ∀ j, f ≠ g ∨ k ≠ j → f.key (f.page 0 0) k ≠ g.key (g.page 0 0) j) ∧
    (k < 4 → f.key (f.page 0 0) k < F.HST.CQ_HEAD_CNT.key (F.HST.CQ_HEAD_CNT.page 0 0) 0) := by
  simp only [ringFields, List.mem_cons, List.not_mem_nil, or_false, forall_eq_or_imp, forall_eq] at hf ⊢
  rcases hf with rfl | rfl | rfl
  all_goals simp [Fld.key, Fld.page, F.HST.CR_CFG_WEIGHT, F.HST.CR_TAIL_IDX, F.HST.CR_HEAD_IDX, F.HST.CQ_HEAD_CNT]
  all_goals exact ⟨⟨fun j => by omega, fun j => by omega⟩, by omega⟩

section
variable {f : Fld} (hf : f ∈ ringFields)
include hf

/-- A ring that is cleared reads 0. -/
theorem Dev.g_ringCleared_same (d : Dev) (r : Nat) : (d.ringCleared r).g f 0 0 r = 0 := by
  have hkey := (ringField_key hf r).1
  simp only [ringFields, List.mem_cons, List.not_mem_nil, or_false] at hf
  unfold Dev.ringCleared
  rcases hf with rfl | rfl | rfl
  · rw [Dev.g_w_other _ _ _ _ _ _ _ _ _ _ (hkey _ (by decide) r (.inl (by decide))),
      Dev.g_w_other _ _ _ _ _ _ _ _ _ _ (hkey _ (by decide) r (.inl (by decide))), Dev.g_w_same]
    rfl
  · rw [Dev.g_w_other _ _ _ _ _ _ _ _ _ _ (hkey _ (by decide) r (.inl (by decide))), Dev.g_w_same]
    rfl
  · rw [Dev.g_w_same]
    rfl

/-- A ring that is cleared leaves the others. -/
theorem Dev.g_ringCleared_other (d : Dev) {k r : Nat} (hne : k ≠ r) : (d.ringCleared r).g f 0 0 k = d.g f 0 0 k := by
  have hkey := (ringField_key hf k).1
  unfold Dev.ringCleared
  rw [Dev.g_w_other _ _ _ _ _ _ _ _ _ _ (hkey _ (by decide) r (.inr hne)), Dev.g_w_other _ _ _ _ _ _ _ _ _ _ (hkey _ (by decide) r (.inr hne)),
    Dev.g_w_other _ _ _ _ _ _ _ _ _ _ (hkey _ (by decide) r (.inr hne))]

/-- A host link reset leaves WEIGHT and both indexes of every command ring at 0 (R93). -/
theorem Dev.hostLinkReset_ring (d : Dev) {r : Nat} (hr : r < 4) : d.hostLinkReset.g f 0 0 r = 0 := by
  have hcq := (ringField_key hf r).2 hr
  have htail : F.HST.CQ_HEAD_CNT.key (F.HST.CQ_HEAD_CNT.page 0 0) 0 < F.HST.CQ_TAIL_CNT.key (F.HST.CQ_TAIL_CNT.page 0 0) 0 := by decide
  rw [Dev.g_hostLinkReset, Dev.g_w_other _ _ _ _ _ _ _ _ _ _ (hcq.trans htail).ne, Dev.g_w_other _ _ _ _ _ _ _ _ _ _ hcq.ne]
  exact Dev.each_range_at (fun e k => e.g f 0 0 k) (fun _ _ => 0) (fun e k => Dev.g_ringCleared_same hf e k)
    (fun e k j _ _ hne => Dev.g_ringCleared_other hf e hne) hr d

end

/-- A host link reset leaves both counts of the completion ring at 0 (R93). -/
theorem Dev.hostLinkReset_cq (d : Dev) : d.hostLinkReset.g F.HST.CQ_HEAD_CNT = 0 ∧ d.hostLinkReset.g F.HST.CQ_TAIL_CNT = 0 := by
  rw [Dev.g_hostLinkReset, Dev.g_hostLinkReset, Dev.g_w_other _ F.HST.CQ_TAIL_CNT F.HST.CQ_HEAD_CNT _ _ _ _ _ _ _ (by decide), Dev.g_w_same,
    Dev.g_w_same]
  exact ⟨rfl, rfl⟩

/-- Settles O2: the requests through the boot page, then what a host link reset clears and keeps. -/
theorem requestedResets : Obligations.RequestedResets := by
  refine ⟨?_, ?_, ?_, ?_, ?_, hostLinkReset_becomes false, hostLinkReset_becomes true, Dev.hostLinkReset_hl, ?_, Dev.hostLinkReset_cq⟩
  · intro s code h hcode
    have hreq := resetReq_becomes h code
    rwa [if_pos hcode] at hreq
  · intro s code h hcode _ hout
    have hreq := resetReq_becomes h code
    rwa [if_pos hcode, Becomes, Dev.settle_some (d := s.dev.resetSoon 6) hout rfl] at hreq
  · intro s code h hcode
    have hreq := resetReq_becomes h code
    rwa [if_neg hcode] at hreq
  · intro s data h hgo
    have hclr := ledgerClr_becomes h data
    rwa [if_pos hgo] at hclr
  · intro s data h hgo
    have hclr := ledgerClr_becomes h data
    rwa [if_neg (by simp [hgo])] at hclr
  · intro d r hr
    exact ⟨d.hostLinkReset_ring (by decide) hr, d.hostLinkReset_ring (by decide) hr, d.hostLinkReset_ring (by decide) hr⟩

end Sys2Proof.Machine

/-! PROOFS. Command and completion rings (R95 to R100, R105, R106, R490, R626). -/

namespace Sys2Proof.Machine
open Sys2Proof Sys2Proof.Safety

section
variable {i : Instr} {s : State} {f : List Host.Cell → Dev → Dev × List (Nat × List Byte)} {d : Dev}

/-- A row that may write host memory becomes what its meaning makes of the device and the writes that it lists. -/
theorem becomesWith_of_runHost {ws : List (Nat × List Byte)} (hexec : exec i s = runHost s f) (h : f s.host s.dev = (d, ws)) :
    BecomesWith i s d ws := by
  rw [BecomesWith, hexec, runHost_eq, h]

/-- With no writes listed it becomes the device alone. -/
theorem becomes_of_runHost (hexec : exec i s = runHost s f) (h : f s.host s.dev = (d, [])) : Becomes i s d :=
  becomesWith_of_runHost hexec h

end

section
variable {s : State}

section
variable {ring : Nat} (h : Writable s.dev 0 0x006 ⟨.HST, 0, 0⟩) (hring : ring < 4)
include h hring

/-- DOORBELL of a ring sets its CR_TAIL (R95). -/
theorem doorbell_becomes (idx : Nat) : Becomes (.doorbell ring idx) s (s.dev.w F.HST.CR_TAIL_IDX idx 0 0 ring) := by
  have hrow := becomes_of_pageWrite (i := .doorbell ring idx) rfl h
  rwa [if_pos hring] at hrow

/-- RING_RESUME of a ring clears its HALT (R100). -/
theorem ringResume_becomes : Becomes (.ringResume ring) s (s.dev.w F.HST.CR_STAT_HALT 0 0 0 ring) := by
  have hrow := becomes_of_pageWrite (i := .ringResume ring) rfl h
  rwa [if_pos hring] at hrow

end

/-- A ring that gives nothing, or a device that does not fetch, leaves COMMAND_FETCH nothing to do (R96). -/
theorem commandFetch_none {ring : Nat} (readErr : Bool) (h : s.dev.fetching = false ∨ 4 ≤ ring ∨ s.dev.ringReady ring = false) :
    NoEffect (.commandFetch ring readErr) s := by
  refine becomes_of_runHost (show execCommandFetch ring readErr s = _ from rfl) ?_
  exact if_pos (by simpa only [Bool.or_eq_true, Bool.not_eq_true', decide_eq_true_eq, or_assoc] using h)

section
variable {ring : Nat} (hfetch : s.dev.fetching = true) (hring : ring < 4) (hready : s.dev.ringReady ring = true)
include hfetch hring hready

/-- A fetch from a ring that is ready goes on to read. -/
theorem Dev.fetches : (!s.dev.fetching || decide (4 ≤ ring) || !s.dev.ringReady ring) = false := by
  simp [hfetch, hring, hready]

/-- A read error halts the ring, shows cause 1 and fires vector 1 (R100). -/
theorem commandFetch_error : Becomes (.commandFetch ring true) s
    (((s.dev.w F.HST.CR_STAT_HALT 1 0 0 ring).w F.HST.CR_STAT_CAUSE 1 0 0 ring).fireVec 1) := by
  refine becomes_of_runHost (show execCommandFetch ring true s = _ from rfl) ?_
  simp only [Dev.fetches hfetch hring hready, Bool.false_eq_true, if_false, if_true]

/-- An addressed die with no room is named in CR_STAT (R98). -/
theorem commandFetch_full {die : Nat} (hfull : s.dev.fullDie (s.dev.headCmd s.host ring) = some die) :
    Becomes (.commandFetch ring false) s (s.dev.w F.HST.CR_STAT_STALL_DIE (die + 1) 0 0 ring) := by
  refine becomes_of_runHost (show execCommandFetch ring false s = _ from rfl) ?_
  simp only [Dev.fetches hfetch hring hready, Bool.false_eq_true, if_false, hfull]

section
variable (hroom : s.dev.fullDie (s.dev.headCmd s.host ring) = none)
include hroom

/-- A ring waits for its turn (R96). -/
theorem commandFetch_turn (hturn : s.dev.nextRing s.host ≠ some ring) : NoEffect (.commandFetch ring false) s := by
  refine becomes_of_runHost (show execCommandFetch ring false s = _ from rfl) ?_
  simp only [Dev.fetches hfetch hring hready, Bool.false_eq_true, if_false, hroom, bne_iff_ne, if_pos hturn]

/-- The ring whose turn it is gives its command: the visit is counted, CR_HEAD advances and the command goes into flight (R96, R97). -/
theorem commandFetch_taken {left : Nat} (hturn : s.dev.nextRing s.host = some ring)
    (hleft : left = if (s.dev.hl.visit == ring && s.dev.hl.visitLeft != 0) = true then s.dev.hl.visitLeft else s.dev.weight ring) :
    Becomes (.commandFetch ring false) s
      ((((({ s.dev with hl := { s.dev.hl with visit := ring, visitLeft := left - 1 } } : Dev).w F.HST.CR_STAT_STALL_DIE 0 0 0 ring).w
        F.HST.CR_HEAD_IDX (s.dev.g F.HST.CR_HEAD_IDX 0 0 ring + 1) 0 0 ring).dispatch (s.dev.headCmd s.host ring))) := by
  subst hleft
  refine becomes_of_runHost (show execCommandFetch ring false s = _ from rfl) ?_
  simp only [Dev.fetches hfetch hring hready, Bool.false_eq_true, if_false, hroom, hturn, bne_self_eq_false]
  rfl

end
end

section
variable {id : Nat} (writeErr : Bool)

/-- COMPLETION_WRITE of a number that no command has does nothing. -/
theorem completionWrite_absent (h : s.dev.cmd id = none) : NoEffect (.completionWrite id writeErr) s := by
  refine becomes_of_runHost (show execCompletionWrite id writeErr s = _ from rfl) ?_
  simp only [h]

variable {c : Cmd} (hcmd : s.dev.cmd id = some c)
include hcmd

/-- A command's record waits for the journal records of its events (R490). -/
theorem completionWrite_journal (hwait : c.evs.any (fun e => s.dev.recordWaits e.1 e.2) = true) : NoEffect (.completionWrite id writeErr) s := by
  refine becomes_of_runHost (show execCompletionWrite id writeErr s = _ from rfl) ?_
  simp only [hcmd, hwait, if_true]

variable (hclear : c.evs.any (fun e => s.dev.recordWaits e.1 e.2) = false)

section
variable (hinterim : c.interim = true)
include hclear hinterim

/-- An interim record of a mailbox command, or after a host link reset, is dropped (R93, R105). -/
theorem completionWrite_interim_dropped (h : c.ring = 4 ∨ c.discard = true) :
    Becomes (.completionWrite id writeErr) s (s.dev.setCmd id (fun c => { c with interim := false })) := by
  refine becomes_of_runHost (show execCompletionWrite id writeErr s = _ from rfl) ?_
  simp only [hcmd, hclear, hinterim, Bool.false_eq_true, if_false, if_true, Bool.or_eq_true, beq_iff_eq, if_pos h]

variable (hring : c.ring ≠ 4) (hkept : c.discard = false)
include hring hkept

/-- An interim record waits for room in the completion ring (R99). -/
theorem completionWrite_interim_full (hfull : s.dev.cqRoom = false) : NoEffect (.completionWrite id writeErr) s := by
  refine becomes_of_runHost (show execCompletionWrite id writeErr s = _ from rfl) ?_
  simp only [hcmd, hclear, hinterim, hkept, hfull, beq_eq_false_iff_ne.mpr hring, Bool.or_self, Bool.not_false, Bool.false_eq_true, if_false, if_true]

/-- An interim record is written with status BUSY (R105), or lost to a write error, which raises HOST_LINK (R100). -/
theorem completionWrite_interim (hroom : s.dev.cqRoom = true) :
    BecomesWith (.completionWrite id false) s ((s.dev.setCmd id (fun c => { c with interim := false })).recordWritten false)
      [(s.dev.cqAddr, c.record stBusy 0 c.units 0 true s.dev.cqPhase)] ∧
    Becomes (.completionWrite id true) s ((s.dev.setCmd id (fun c => { c with interim := false })).raise E.FCL.HOST_LINK) := by
  constructor
  · refine becomesWith_of_runHost (show execCompletionWrite id false s = _ from rfl) ?_
    simp only [hcmd, hclear, hinterim, hkept, hroom, beq_eq_false_iff_ne.mpr hring, Bool.or_self, Bool.not_true, Bool.false_eq_true, if_false, if_true]
  · refine becomes_of_runHost (show execCompletionWrite id true s = _ from rfl) ?_
    simp only [hcmd, hclear, hinterim, hkept, hroom, beq_eq_false_iff_ne.mpr hring, Bool.or_self, Bool.not_true, Bool.false_eq_true, if_false, if_true]

end

/-- With no record due nothing is written. -/
theorem completionWrite_early (hinterim : c.interim = false) (hstage : c.stage ≠ .finished) : NoEffect (.completionWrite id writeErr) s := by
  refine becomes_of_runHost (show execCompletionWrite id writeErr s = _ from rfl) ?_
  simp only [hcmd, hinterim, Bool.false_eq_true, if_false, bne_iff_ne, if_pos hstage, ite_self]

section
variable (hinterim : c.interim = false) (hstage : c.stage = .finished)
include hclear hinterim hstage

/-- A finished mailbox command shows its record in MBOX_CPL (R535). -/
theorem completionWrite_mailbox (hring : c.ring = 4) : Becomes (.completionWrite id writeErr) s ((s.dev.mailboxDone c).releaseSlot id) := by
  refine becomes_of_runHost (show execCompletionWrite id writeErr s = _ from rfl) ?_
  simp only [hcmd, hclear, hinterim, hstage, hring, bne_self_eq_false, beq_self_eq_true, Bool.false_eq_true, if_false, if_true]

variable (hring : c.ring ≠ 4)
include hring

/-- After a host link reset, and with NO_CPL on OK, only the slot is released (R93, R106). -/
theorem completionWrite_silent (h : c.discard = true ∨ (bitOf c.flags 1 && c.cpl.status == stOk) = true) :
    Becomes (.completionWrite id writeErr) s (s.dev.releaseSlot id) := by
  refine becomes_of_runHost (show execCompletionWrite id writeErr s = _ from rfl) ?_
  simp only [hcmd, hclear, hinterim, hstage, beq_eq_false_iff_ne.mpr hring, bne_self_eq_false, Bool.false_eq_true, if_false]
  rcases h with h | h
  · exact if_pos h
  · rw [if_pos h, ite_self]

variable (hkept : c.discard = false) (hrecord : (bitOf c.flags 1 && c.cpl.status == stOk) = false)
include hkept hrecord

/-- A record waits for room in the completion ring and for the earlier commands of its order (R98, R99). -/
theorem completionWrite_waits (h : s.dev.cqRoom = false ∨ s.dev.orderedBehind c = true) : NoEffect (.completionWrite id writeErr) s := by
  refine becomes_of_runHost (show execCompletionWrite id writeErr s = _ from rfl) ?_
  simp only [hcmd, hclear, hinterim, hstage, hkept, hrecord, beq_eq_false_iff_ne.mpr hring, bne_self_eq_false, Bool.false_eq_true, if_false]
  exact if_pos (by simpa only [Bool.or_eq_true, Bool.not_eq_true'] using h)

/-- A finished command's record is written and its slot released (R99), or is lost to a write error, which raises HOST_LINK (R100). -/
theorem completionWrite_final (hroom : s.dev.cqRoom = true) (hfirst : s.dev.orderedBehind c = false) :
    BecomesWith (.completionWrite id false) s ((s.dev.releaseSlot id).recordWritten (bitOf c.flags 2))
      [(s.dev.cqAddr, c.record c.cpl.status c.cpl.unitOk c.cpl.unitTry c.cpl.result false s.dev.cqPhase)] ∧
    Becomes (.completionWrite id true) s ((s.dev.releaseSlot id).raise E.FCL.HOST_LINK) := by
  constructor
  · refine becomesWith_of_runHost (show execCompletionWrite id false s = _ from rfl) ?_
    simp only [hcmd, hclear, hinterim, hstage, hkept, hrecord, hroom, hfirst, beq_eq_false_iff_ne.mpr hring, bne_self_eq_false, Bool.not_true,
      Bool.or_self, Bool.false_eq_true, if_false]
  · refine becomes_of_runHost (show execCompletionWrite id true s = _ from rfl) ?_
    simp only [hcmd, hclear, hinterim, hstage, hkept, hrecord, hroom, hfirst, beq_eq_false_iff_ne.mpr hring, bne_self_eq_false, Bool.not_true,
      Bool.or_self, Bool.false_eq_true, if_false, if_true]

end
end

/-- CQ_IRQ_TIME with TIME on and records unsignalled fires vector 0 (R626). -/
theorem cqIrqTime_becomes (s : State) : Becomes .cqIrqTime s
    (if (s.dev.g F.HST.CQ_IRQ_TIME != 0 && s.dev.hl.unsignalled != 0) = true then s.dev.fireVec0 else s.dev) := rfl

/-- CQ_STALL_TIMEOUT with CQ_STALL on and a full ring fires vector 1 (R99). -/
theorem cqStallTimeout_becomes (s : State) : Becomes .cqStallTimeout s
    (if (s.dev.g F.HST.CQ_STALL_MS != 0 && !s.dev.cqRoom) = true then s.dev.fireVec 1 else s.dev) := rfl

end

/-- Settles O13: the writes of the ring registers, then fetches, completions and the two timers. -/
theorem ringRows : Obligations.RingRows := by
  refine ⟨?_, ?_, ?_, ?_, ?_, ?_, ?_, ?_, ?_, ?_, ?_, ?_, ?_, ?_, ?_, ?_, ?_, ?_, ?_, ?_, ?_, ?_⟩
  · intro s ring idx h hring
    exact doorbell_becomes h hring idx
  · intro s ring h hring
    exact ringResume_becomes h hring
  · intro s cnt h
    exact becomes_of_pageWrite (i := .cqHeadWrite cnt) rfl h
  · intro s ring er h
    exact commandFetch_none er h
  · intro s ring hfetch hring hready
    exact commandFetch_error hfetch hring hready
  · intro s ring die hfetch hring hready hfull
    exact commandFetch_full hfetch hring hready hfull
  · intro s ring hfetch hring hready hroom hturn
    exact commandFetch_turn hfetch hring hready hroom hturn
  · intro s ring left hfetch hring hready hroom hturn hleft
    exact commandFetch_taken hfetch hring hready hroom hturn hleft
  · intro s id er habsent
    exact completionWrite_absent er habsent
  · intro s id er c hcmd hwaits
    cases hclear : c.evs.any (fun e => s.dev.recordWaits e.1 e.2) with
    | true => exact completionWrite_journal er hcmd hclear
    | false =>
      rw [hclear] at hwaits
      rcases hwaits with hwaits | ⟨hinterim, hstage⟩ | ⟨hinterim, hring, hkept, hfull⟩
      · exact nomatch hwaits
      · exact completionWrite_early er hcmd hinterim hstage
      · exact completionWrite_interim_full er hcmd hclear hinterim hring hkept hfull
  · intro s id er c hcmd hclear hinterim hdrop
    exact completionWrite_interim_dropped er hcmd hclear hinterim hdrop
  · intro s id c hcmd hclear hinterim hring hkept hroom
    exact (completionWrite_interim hcmd hclear hinterim hring hkept hroom).1
  · intro s id c hcmd hclear hinterim hring hkept hroom
    exact (completionWrite_interim hcmd hclear hinterim hring hkept hroom).2
  · intro s id c er hcmd hclear hinterim hstage hring
    exact completionWrite_mailbox er hcmd hclear hinterim hstage hring
  · intro s id c er hcmd hclear hinterim hstage hring hsilent
    exact completionWrite_silent er hcmd hclear hinterim hstage hring hsilent
  · intro s id c er hcmd hclear hinterim hstage hring hkept hrecord hwaits
    exact completionWrite_waits er hcmd hclear hinterim hstage hring hkept hrecord hwaits
  · intro s id c hcmd hclear hinterim hstage hring hkept hrecord hroom hfirst
    exact (completionWrite_final hcmd hclear hinterim hstage hring hkept hrecord hroom hfirst).1
  · intro s id c hcmd hclear hinterim hstage hring hkept hrecord hroom hfirst
    exact (completionWrite_final hcmd hclear hinterim hstage hring hkept hrecord hroom hfirst).2
  · intro s htime hrecords
    have hirq := cqIrqTime_becomes s
    rwa [if_pos (by simp [htime, hrecords])] at hirq
  · intro s hoff
    have hirq := cqIrqTime_becomes s
    rwa [if_neg (by rcases hoff with h | h <;> simp [h])] at hirq
  · intro s hstall hfull
    have hout := cqStallTimeout_becomes s
    rwa [if_pos (by simp [hstall, hfull])] at hout
  · intro s hoff
    have hout := cqStallTimeout_becomes s
    rwa [if_neg (by rcases hoff with h | h <;> simp [h])] at hout

end Sys2Proof.Machine

/-! PROOFS. A command takes its place on a Route die, NOP, and the mailbox (R97, R101, R102, R339, R535). -/

namespace Sys2Proof.Machine
open Sys2Proof Sys2Proof.Safety

section
variable {s : State} {id die : Nat}

/-- HOST_CMD of a number that no command has does nothing. -/
theorem hostCmd_absent (h : s.dev.cmd id = none) : NoEffect (.hostCmd id die) s := by
  refine becomes_of_run (show execHostCmd id die s = _ from rfl) ?_
  simp only [h]

variable {c : Cmd} (hcmd : s.dev.cmd id = some c)
include hcmd

/-- A command that is not the next of the captain's lane on the die does not take a place there (R97). -/
theorem hostCmd_behind (hnext : s.dev.hostNext id die c = false) : NoEffect (.hostCmd id die) s := by
  refine becomes_of_run (show execHostCmd id die s = _ from rfl) ?_
  simp only [hcmd, hnext, Bool.not_false, if_true]

variable (hnext : s.dev.hostNext id die c = true)
include hnext

/-- A command waits while it may not take its place; where the journal alone holds it back that is counted (R339, R491). -/
theorem hostCmd_waits (hup : s.dev.dieUp die = true) (hmode : s.dev.mode ≠ mShadow) (hplace : s.dev.mayPlace die 2 = false) :
    Becomes (.hostCmd id die) s (s.dev.turned die 2) := by
  refine becomes_of_run (show execHostCmd id die s = _ from rfl) ?_
  simp only [hcmd, hnext, hup, hplace, beq_eq_false_iff_ne.mpr hmode, Bool.not_true, Bool.not_false, Bool.and_self, Bool.false_eq_true, if_false,
    if_true]

/-- Otherwise it takes its place (R97, R339, R496). -/
theorem hostCmd_taken (h : s.dev.dieUp die = true → s.dev.mode ≠ mShadow → s.dev.mayPlace die 2 = true) :
    Becomes (.hostCmd id die) s (s.dev.hostTake s.host id die c) := by
  have hgo : ¬(s.dev.dieUp die && !(s.dev.mode == mShadow) && !s.dev.mayPlace die 2) = true := by
    simp only [Bool.and_eq_true, Bool.not_eq_true', beq_eq_false_iff_ne]
    rintro ⟨⟨hup, hmode⟩, hplace⟩
    exact Bool.noConfusion ((h hup hmode).symm.trans hplace)
  refine becomes_of_run (show execHostCmd id die s = _ from rfl) ?_
  simp only [hcmd, hnext, Bool.not_true, Bool.false_eq_true, if_false, if_neg hgo]

end

/-- The second device has the host link, the maintenance state, the log and the power of the first. -/
def Dev.SameLink (d e : Dev) : Prop := e.hl = d.hl ∧ e.mt = d.mt ∧ e.log = d.log ∧ e.pwr = d.pwr

/-- What two devices after one another have, the first and the last have. -/
theorem Dev.SameLink.trans {d e f : Dev} (hde : d.SameLink e) (hef : e.SameLink f) : d.SameLink f := by
  obtain ⟨hhl, hmt, hlog, hpwr⟩ := hef
  rw [Dev.SameLink, hhl, hmt, hlog, hpwr]
  exact hde

/-- Taking a number in a Route die's order leaves them (R338). -/
theorem Dev.place_sameLink (d : Dev) (die src kind : Nat) : d.SameLink (d.place die src kind) := ⟨rfl, rfl, rfl, rfl⟩

/-- Sending a journal record leaves them (R488). -/
theorem Dev.journal_sameLink (d : Dev) (die kind flags time : Nat) (body : JBody) : d.SameLink (d.journal die kind flags time body) := by
  unfold Dev.journal
  split <;> exact ⟨rfl, rfl, rfl, rfl⟩

/-- A change of a Route die that keeps its next number, whether or not the die is listed. -/
theorem Dev.route_setRoute_seq (d : Dev) (die : Nat) {f : Route → Route} (hf : ∀ r, (f r).seq = r.seq) :
    ((d.setRoute die f).route die).seq = (d.route die).seq := by
  have hmod (l : List Route) (n : Nat) : ((modAt l n f).getD n {}).seq = (l.getD n {}).seq := by
    induction l generalizing n with
    | nil => rfl
    | cons r l ih =>
      cases n with
      | zero => exact hf r
      | succ n => exact ih n
  exact hmod d.routes (die - 1)

/-- Sending a journal record takes no number (R488). -/
theorem Dev.journal_seqNow (d : Dev) (die kind flags time : Nat) (body : JBody) : (d.journal die kind flags time body).seqNow die = d.seqNow die := by
  unfold Dev.journal
  split
  · exact congrArg (· - 1) (d.route_setRoute_seq die (fun _ => rfl))
  · rfl

/-- With nothing waiting in the mailbox, nothing goes from it into flight. -/
theorem Dev.mboxTry_none {d : Dev} (h : d.hl.mboxWait = none) : d.mboxTry = d := by simp only [Dev.mboxTry, h]

/-- The mailbox's command goes into flight where every die that it addresses has room (R101). -/
theorem Dev.mboxTry_room {d : Dev} {c : Cmd} (h : d.hl.mboxWait = some c) (hroom : d.fullDie c = none) :
    d.mboxTry = ({ d with hl := { d.hl with mboxWait := none } } : Dev).dispatch { c with id := d.hl.nextId } := by
  simp only [Dev.mboxTry, h, hroom, Option.isSome_none, Bool.false_eq_true, if_false]

/-- It waits where one has none (R98, R101). -/
theorem Dev.mboxTry_full {d : Dev} {c : Cmd} (h : d.hl.mboxWait = some c) (hfull : (d.fullDie c).isSome = true) : d.mboxTry = d := by
  simp only [Dev.mboxTry, h, hfull, if_true]

/-- Changing the only command in flight, under its number. -/
theorem Dev.setCmd_alone {d : Dev} {c : Cmd} (h : d.hl.inflight = [c]) (f : Cmd → Cmd) :
    d.setCmd c.id f = { d with hl := { d.hl with inflight := [f c] } } := by
  simp only [Dev.setCmd, h, mapIf, List.map_cons, List.map_nil, beq_self_eq_true, if_true]

/-- The only command in flight that every addressed die has and whose early checks pass becomes sequenced (R102). -/
theorem Dev.hostChecked_alone {d : Dev} {c : Cmd} (h : d.hl.inflight = [c]) (hseq : c.toSeq = 0) (hearly : c.early = none) :
    d.hostChecked c.id = { d with hl := { d.hl with inflight := [{ c with stage := .sequenced }] } } := by
  have hcmd : d.cmd c.id = some c := by simp [Dev.cmd, h]
  simp only [Dev.hostChecked, hcmd, hseq, bne_self_eq_false, Bool.false_eq_true, if_false, hearly, Option.elim_none, Dev.setCmd_alone h]

/-- The only command in flight, once a change of it has left it to no other die, is sequenced as that change is shown (R102). -/
theorem Dev.setCmd_checked {d k : Dev} {c : Cmd} {die : Nat} {f : Cmd → Cmd} (hflight : d.hl.inflight = [c]) (hbox : d.hl.mboxWait = none)
    (hid : (f c).id = c.id) (hseq : (f c).toSeq = 0) (hearly : (f c).early = none) (hk : k = (d.setCmd c.id f).showLanes die) :
    k.mboxTry.hostChecked c.id = { k with hl := { k.hl with inflight := [{ f c with stage := .sequenced }] } } := by
  have hkhl : k.hl = { d.hl with inflight := [f c] } := by rw [hk, Dev.setCmd_alone hflight]; rfl
  have hkbox : k.hl.mboxWait = none := by rw [hkhl, hbox]
  have hkflight : k.hl.inflight = [f c] := by rw [hkhl]
  rw [Dev.mboxTry_none hkbox, ← hid, Dev.hostChecked_alone hkflight hseq hearly]

/-- The only command in flight, addressed to one Route die that is up, is sequenced as it takes its place there outside SHADOW; its SEQ is the number
that it takes (R97, R338). -/
theorem Dev.hostTake_alone {d t : Dev} {c : Cmd} {die : Nat} {h : List Host.Cell} (hflight : d.hl.inflight = [c]) (hbox : d.hl.mboxWait = none)
    (hroute : isRoute die = true) (hdies : c.dies = 2 ^ (die - 1)) (hseq : c.toSeq = 2 ^ (die - 1)) (hearly : c.early = none) (hevs : c.evs = [])
    (hup : d.dieUp die = true) (hmode : d.mode ≠ mShadow) (ht : t = d.hostTake h c.id die c) :
    t.hl.inflight = [{ c with toSeq := 0, stage := .sequenced, seq := (d.place die 2 3).seqNow die % 2 ^ 32,
                              evs := [(die, (d.place die 2 3).seqNow die)] }] ∧
    t.mt = d.mt ∧ t.log = d.log ∧ t.pwr = d.pwr := by
  have hplaced : (d.dieUp die && !(d.mode == mShadow)) = true := by simp [hup, hmode]
  have hdie : die = 1 ∨ die = 2 := by simpa only [isRoute, Bool.or_eq_true, beq_iff_eq] using hroute
  have hlow : (([0, 1] : List Nat).find? (fun b => bitOf (2 ^ (die - 1)) b)).getD 0 = die - 1 := by
    rcases hdie with rfl | rfl <;> decide
  have hput : putBit (2 ^ (die - 1)) (die - 1) false = 0 := by
    rcases hdie with rfl | rfl <;> decide
  unfold Dev.hostTake at ht
  simp only [hplaced, if_true, Dev.when, hdies, hlow, beq_self_eq_true, Dev.journal_seqNow] at ht
  generalize hj : (d.place die 2 3).journal die 3 0 (d.place die 2 3).evTime (.host c.ring c.bytes (c.journalData h)) = j at ht
  have hsame : d.SameLink j := (d.place_sameLink die 2 3).trans (by rw [← hj]; exact Dev.journal_sameLink _ _ _ _ _ _)
  obtain ⟨hhl, hmt, hlog, hpwr⟩ := hsame
  have hjflight : j.hl.inflight = [c] := by rw [hhl, hflight]
  have hjbox : j.hl.mboxWait = none := by rw [hhl, hbox]
  rw [Dev.setCmd_checked hjflight hjbox rfl (by simp only [hseq, hput]) hearly rfl] at ht
  subst ht
  simp only [hseq, hput, hevs, List.nil_append]
  exact ⟨trivial, hmt, hlog, hpwr⟩

/-- HOST_CMD in SERVICE of the only command in flight, addressed to one Route die that is up, sequences it, and leaves the maintenance state and
the log (R97, R102, R338). -/
theorem hostCmd_alone {s : State} {die : Nat} {c : Cmd} (hworking : Working s) (hflight : s.dev.hl.inflight = [c])
    (hbox : s.dev.hl.mboxWait = none) (hroute : isRoute die = true) (hstage : c.stage = .fetched) (hseq : c.toSeq = 2 ^ (die - 1))
    (hdies : c.dies = 2 ^ (die - 1)) (hearly : c.early = none) (hevs : c.evs = []) (hup : s.dev.dieUp die = true) (hmode : s.dev.mode = mService)
    (hplace : s.dev.mayPlace die 2 = true) : Completes (.hostCmd c.id die) s (fun t =>
      t.dev.hl.inflight = [{ c with toSeq := 0, stage := .sequenced, seq := (s.dev.place die 2 3).seqNow die % 2 ^ 32,
                                    evs := [(die, (s.dev.place die 2 3).seqNow die)] }] ∧
      t.dev.mt = s.dev.mt ∧ t.dev.log = s.dev.log ∧ t.host = s.host ∧ t.pending = s.pending) := by
  have hcmd : s.dev.cmd c.id = some c := by simp [Dev.cmd, hflight]
  have hnext : s.dev.hostNext c.id die c = true := by
    simp [Dev.hostNext, hroute, hstage, hflight, hseq, bitOf_eq, Nat.testBit_two_pow_self]
  have htaken := hostCmd_taken hcmd hnext (fun _ _ => hplace)
  obtain ⟨hinflight, hmt, hlog, hpwr⟩ := Dev.hostTake_alone (h := s.host) hflight hbox hroute hdies hseq hearly hevs hup
    (by rw [hmode]; decide) rfl
  rw [Becomes, Dev.settle_none (by rw [hpwr, hworking.1]) (by rw [hpwr, hworking.2])] at htaken
  exact ⟨_, htaken, hinflight, hmt, hlog, rfl, rfl⟩

/-- NOP that is ready ends with the units that are up (Table 4-7). -/
theorem nop_ready {s : State} {id : Nat} {c : Cmd} (h : Ready s.dev 0x0001 id c noRange) : Becomes (.nop id) s (s.dev.finish id
    { tryM := c.target, okM := ofBits ((bitList 3 c.target).filter (fun b => if b == 2 then true else s.dev.dieUp (b + 1))), fail := stDown }) :=
  becomes_of_runCmd (i := .nop id) rfl h rfl

/-- The command that the sixteen words of the mailbox make (R535). -/
def Dev.mailboxCmd (d : Dev) : Cmd :=
  d.viaEngine { id := d.hl.nextId
                ring := 4
                bytes := (List.range 16).flatMap (fun w => toLE 4 (d.g F.CPT.MBOX_CMD_W 0 0 w))
                stage := .fetched
                toSeq := 0
                seq := 0
                discard := false
                interim := false
                cpl := ⟨0, 0, 0, 0⟩ }

section
variable {s : State} {data : Nat} (h : Writable s.dev 0 0x000 ⟨.CPT, 0, 0⟩)
include h

/-- MBOX_GO without bit 0 does nothing (R535). -/
theorem mboxGo_off (hgo : bitOf data 0 = false) : NoEffect (.mboxGo data) s := by
  unfold NoEffect
  have hrow := becomes_of_pageWrite (i := .mboxGo data) rfl h
  simpa only [hgo, Bool.not_false, if_true] using hrow

variable (hgo : bitOf data 0 = true)
include hgo

/-- MBOX_GO of a busy mailbox counts a rejection (R535). -/
theorem mboxGo_busy (hbusy : s.dev.on F.CPT.MBOX_STAT_BUSY = true) : Becomes (.mboxGo data) s (s.dev.inc C.CPT.MBOX_REJECT) := by
  have hrow := becomes_of_pageWrite (i := .mboxGo data) rfl h
  simpa only [hgo, hbusy, Bool.not_true, Bool.false_eq_true, if_false, if_true] using hrow

variable (hidle : s.dev.on F.CPT.MBOX_STAT_BUSY = false)
include hidle

/-- MBOX_GO does nothing before boot has finished, nor outside RECOVER on a device that does not fetch (R535). -/
theorem mboxGo_stopped (hstop : s.dev.booted = false ∨ (s.dev.mode ≠ mRecover ∧ s.dev.fetching = false)) : NoEffect (.mboxGo data) s := by
  unfold NoEffect
  have hrow := becomes_of_pageWrite (i := .mboxGo data) rfl h
  have hstopped : (!s.dev.booted || s.dev.mode != mRecover && !s.dev.fetching) = true := by
    rcases hstop with h | ⟨hmode, hfetch⟩
    · simp [h]
    · simp [hmode, hfetch]
  simpa only [hgo, hidle, hstopped, Bool.not_true, Bool.false_eq_true, if_false, if_true] using hrow

/-- MBOX_GO of a fetching device outside RECOVER makes the sixteen words wait as a command (R535). -/
theorem mboxGo_waits {d : Dev} (hboot : s.dev.booted = true) (hmode : s.dev.mode ≠ mRecover) (hfetch : s.dev.fetching = true)
    (hd : d = ((s.dev.w F.CPT.MBOX_STAT_BUSY 1).w F.CPT.MBOX_STAT_DONE 0).inc C.CPT.MBOX_CMDS) :
    Becomes (.mboxGo data) s (({ d with hl := { d.hl with mboxWait := some s.dev.mailboxCmd } } : Dev).mboxTry) := by
  subst hd
  have hrow := becomes_of_pageWrite (i := .mboxGo data) rfl h
  have hrunning : (!s.dev.booted || s.dev.mode != mRecover && !s.dev.fetching) = false := by simp [hboot, hfetch]
  have hmode' : (((s.dev.w F.CPT.MBOX_STAT_BUSY 1).w F.CPT.MBOX_STAT_DONE 0).inc C.CPT.MBOX_CMDS).mode ≠ mRecover := by
    unfold Dev.mode
    rw [Dev.g_inc, Dev.g_w_other _ _ _ _ _ _ _ _ _ _ (by decide), Dev.g_w_other _ _ _ _ _ _ _ _ _ _ (by decide)]
    exact hmode
  simp only [hgo, hidle, hrunning, beq_eq_false_iff_ne.mpr hmode', Bool.not_true, Bool.false_eq_true, if_false] at hrow
  exact hrow

end

/-- Settles O14: the cases of HOST_CMD, NOP, and the cases of MBOX_GO. -/
theorem commandRows : Obligations.CommandRows := by
  refine ⟨?_, ?_, ?_, ?_, ?_, ?_, ?_, ?_, ?_, ?_, ?_, ?_⟩
  · intro s id die h
    exact hostCmd_absent h
  · intro s id die c hcmd hnext
    exact hostCmd_behind hcmd hnext
  · intro s id die c hcmd hnext hup hmode hplace
    exact hostCmd_waits hcmd hnext hup hmode hplace
  · intro s id die c hcmd hnext h
    exact hostCmd_taken hcmd hnext h
  · rintro s id die c hworking hflight hbox rfl hroute hstage hseq hdies hearly hevs hup hmode hplace
    exact hostCmd_alone hworking hflight hbox hroute hstage hseq hdies hearly hevs hup hmode hplace
  · intro s id c h
    exact nop_ready h
  · intro s data h hgo
    exact mboxGo_off h hgo
  · intro s data h hgo hbusy
    exact mboxGo_busy h hgo hbusy
  · intro s data h hgo hidle hstop
    exact mboxGo_stopped h hgo hidle hstop
  · rintro s data c d1 h hgo hidle hboot hmode hfetch rfl hd1
    exact mboxGo_waits h hgo hidle hboot hmode hfetch hd1
  · intro d c hwait hroom
    exact Dev.mboxTry_room hwait hroom
  · intro d c hwait hfull
    exact Dev.mboxTry_full hwait hfull

end Sys2Proof.Machine

/-! PROOFS. Mode requests and transitions, and the end of QUIESCE (R83, R125 to R131, Table 5-6). -/

namespace Sys2Proof.Machine
open Sys2Proof Sys2Proof.Safety

/-- A request of a mode, where the boot page can be written, stages it as TARGET and starts the page's commit (R83). -/
theorem Dev.modeReq_writable {d : Dev} (h : Writable d 0 0x004 ⟨.BTL, 0, 0⟩) (mode : Nat) :
    d.modeReq mode = (d.putS F.BTL.MODE_REQ_TARGET ⟨.BTL, 0, 0⟩ mode).commitGo ⟨.BTL, 0, 0⟩ := Dev.pageWrite_one h _ _ _

section
variable {s : State}

/-- MODE_ENTERED completes the transition under way of a booted device, unless it waits for DOZE entry or for a takeover's fourth step (R125, Table 5-6). -/
theorem modeEntered_completes (hboot : s.dev.booted = true) (htrans : s.dev.on F.BTL.BOOT_STAT_TRANS = true)
    (hdoze : s.dev.g F.BTL.BOOT_STAT_TARGET = mDoze → s.dev.dozeEntering = true) (htwin : s.dev.twin = 5 → s.dev.tw.step = 4) :
    Becomes .modeEntered s (s.dev.completeTrans.twinEntered (s.dev.g F.BTL.BOOT_STAT_TARGET)) := by
  refine becomes_of_run (show execModeEntered s = _ from rfl) (if_neg ?_)
  simp only [hboot, htrans, Bool.not_true, Bool.or_eq_true, Bool.and_eq_true, beq_iff_eq, bne_iff_ne, Bool.not_eq_true', Bool.false_eq_true, false_or]
  rintro (⟨htarget, hidle⟩ | ⟨htakeover, hstep⟩)
  · exact Bool.noConfusion ((hdoze htarget).symm.trans hidle)
  · exact hstep (htwin htakeover)

/-- Otherwise it does nothing. -/
theorem modeEntered_stays (h : s.dev.booted = false ∨ s.dev.on F.BTL.BOOT_STAT_TRANS = false ∨ (s.dev.twin = 5 ∧ s.dev.tw.step ≠ 4) ∨
    (s.dev.g F.BTL.BOOT_STAT_TARGET = mDoze ∧ s.dev.dozeEntering = false)) : NoEffect .modeEntered s := by
  refine becomes_of_run (show execModeEntered s = _ from rfl) (if_pos ?_)
  simp only [Bool.or_eq_true, Bool.and_eq_true, beq_iff_eq, bne_iff_ne, Bool.not_eq_true']
  tauto

/-- QUIESCE that has lasted its limit, with nothing else under way, is logged and left for SERVICE (R127). -/
theorem quiesceMaxExpiry_leaves (hmode : s.dev.mode = mQuiesce) (htrans : s.dev.on F.BTL.BOOT_STAT_TRANS = false)
    (hlimit : s.dev.g F.BTL.QUIESCE_MAX_SEC ≠ 0) (hact : s.dev.on F.UPD.STAT_ACT_BUSY = false) (htwin : s.dev.twin ≠ 6) :
    Becomes .quiesceMaxExpiry s ((s.dev.logRec 0x0402 1 0 (toLE 4 (s.dev.g F.BTL.QUIESCE_MAX_SEC))).startTrans mService 1) :=
  becomes_of_run (show execQuiesceMaxExpiry s = _ from rfl) (if_neg (by simp [hmode, htrans, hlimit, hact, htwin]))

/-- Otherwise it goes on. -/
theorem quiesceMaxExpiry_stays (h : s.dev.mode ≠ mQuiesce ∨ s.dev.on F.BTL.BOOT_STAT_TRANS = true ∨ s.dev.g F.BTL.QUIESCE_MAX_SEC = 0 ∨
    s.dev.on F.UPD.STAT_ACT_BUSY = true ∨ s.dev.twin = 6) : NoEffect .quiesceMaxExpiry s :=
  becomes_of_run (show execQuiesceMaxExpiry s = _ from rfl)
    (if_pos (by simpa only [Bool.or_eq_true, bne_iff_ne, beq_iff_eq, or_assoc] using h))

end

section
variable {d : Dev}

/-- To complete a transition to DOZE is to end the steps of its entry, gate the regions and enter it (R129). -/
theorem Dev.completeTrans_doze (hdoze : d.g F.BTL.BOOT_STAT_TARGET = mDoze) : d.completeTrans = (d.dozeTo 5).dozeGate.enterMode mDoze := by
  simp only [Dev.completeTrans, hdoze, beq_self_eq_true, if_true]

variable (hdoze : d.g F.BTL.BOOT_STAT_TARGET ≠ mDoze)
include hdoze

/-- Another transition that ends no wake enters its mode (R125). -/
theorem Dev.completeTrans_enters (hwake : d.ms.dozeStep ≠ 7) : d.completeTrans = d.enterMode (d.g F.BTL.BOOT_STAT_TARGET) := by
  simp only [Dev.completeTrans, beq_eq_false_iff_ne.mpr hdoze, beq_eq_false_iff_ne.mpr hwake, Bool.false_eq_true, if_false]

/-- One that ends a wake also releases WAKE_N where a configuration request has come (R131). -/
theorem Dev.completeTrans_wakes {d1 : Dev} (hwake : d.ms.dozeStep = 7)
    (hd1 : d1 = ({ d with ms := { d.ms with dozeStep := 0 } } : Dev).enterMode (d.g F.BTL.BOOT_STAT_TARGET)) :
    d.completeTrans = if d1.ms.cfgSeen = true then { d1 with pins := { d1.pins with wakeNLow := false } } else d1 := by
  subst hd1
  simp only [Dev.completeTrans, beq_eq_false_iff_ne.mpr hdoze, hwake, beq_self_eq_true, Bool.false_eq_true, if_false, if_true]

end

/-- Settles O15: the four requests, the end of a transition, and the limit of QUIESCE. -/
theorem modeRequests : Obligations.ModeRequests := by
  refine ⟨?_, ?_, ?_, ?_, ?_, ?_, ?_, ?_, ?_, ?_, ?_, ?_⟩
  · intro s h
    exact becomes_of_run (show execModeReqService s = _ from rfl) (Dev.modeReq_writable h _)
  · intro s h
    exact becomes_of_run (show execModeReqBringup s = _ from rfl) (Dev.modeReq_writable h _)
  · intro s h
    exact becomes_of_run (show execModeReqQuiesce s = _ from rfl) (Dev.modeReq_writable h _)
  · intro s h
    exact becomes_of_run (show execModeReqDoze s = _ from rfl) (Dev.modeReq_writable h _)
  · rintro s m rfl hboot htrans hdoze htwin
    exact modeEntered_completes hboot htrans hdoze htwin
  · intro s h
    exact modeEntered_stays h
  · intro d hdoze
    exact Dev.completeTrans_doze hdoze
  · rintro d m rfl hdoze hwake
    exact Dev.completeTrans_enters hdoze hwake
  · rintro d m d1 rfl hdoze hwake hd1
    exact Dev.completeTrans_wakes hdoze hwake hd1
  · intro d m
    rfl
  · intro s hmode htrans hlimit hact htwin
    exact quiesceMaxExpiry_leaves hmode htrans hlimit hact htwin
  · intro s h
    exact quiesceMaxExpiry_stays h

end Sys2Proof.Machine

/-! PROOFS. The states of a Band die's receivers (R139, R140, Table 6-2). -/

namespace Sys2Proof.Machine
open Sys2Proof Sys2Proof.Safety

section
variable {s : State} {die : Nat}

/-- BAND_LO_LOCKED in LO_SETTLE leads to the state that is wanted (Table 6-2). -/
theorem bandLoLocked_settled {d : Dev} (hband : isBand die = true) (hstate : s.dev.bandState die = 2)
    (hd : d = s.dev.setBand die (fun b => { b with autoTry := false })) :
    Becomes (.bandLoLocked die) s
      (if d.bandWanted die = 3 ∨ d.bandWanted die = 5 then (d.bandTo die (d.bandWanted die)).bandFollow die
      else if d.bandWanted die = 1 then d.bandTo die 1
      else d) := by
  refine becomes_of_run (show execBandLoLocked die s = _ from rfl) ((if_neg (by simp [hband, hstate])).trans ?_)
  simp only [Bool.or_eq_true, beq_iff_eq, ← hd]

/-- BAND_LO_LOCKED in another state, or on another die, does nothing. -/
theorem bandLoLocked_other (h : isBand die = false ∨ s.dev.bandState die ≠ 2) : NoEffect (.bandLoLocked die) s :=
  becomes_of_run (show execBandLoLocked die s = _ from rfl) (if_pos (by simpa only [Bool.or_eq_true, Bool.not_eq_true', bne_iff_ne] using h))

/-- BAND_LO_LOCK_LOST from LO_SETTLE on leads to FAULT: a loss past LO_SETTLE is counted, and one in it after an automatic retry and three recent ones
raises RELOCK_EXHAUSTED (R140, Table 6-2). -/
theorem bandLoLockLost_faults {d : Dev} (hband : isBand die = true) (hlo : 2 ≤ s.dev.bandState die) (hhi : s.dev.bandState die ≤ 5)
    (hd : d = s.dev.setBand die (fun b => { b with autoTry := false })) : Becomes (.bandLoLockLost die) s
      (Dev.when (((d.when (s.dev.bandState die != 2) (fun d => d.inc C.RSM.LO_LOSS_CNT die)).w F.SYN.CAL_STAT_RX_BUSY 0 die).bandTo die 6)
        (s.dev.bandState die == 2 && (s.dev.band die).autoTry && decide (3 ≤ (s.dev.recentRetries die).length))
        (fun d => d.raise E.RSM.RELOCK_EXHAUSTED die)) := by
  subst hd
  exact becomes_of_run (show execBandLoLockLost die s = _ from rfl) (if_neg (by simp [hband, hlo, hhi]))

/-- BAND_LO_LOCK_LOST in another state, or on another die, does nothing. -/
theorem bandLoLockLost_other (h : isBand die = false ∨ s.dev.bandState die < 2 ∨ 5 < s.dev.bandState die) : NoEffect (.bandLoLockLost die) s := by
  refine becomes_of_run (show execBandLoLockLost die s = _ from rfl) (if_pos ?_)
  rcases h with h | h
  · simp [h]
  · simp only [Bool.or_eq_true, Bool.not_eq_true', Bool.and_eq_false_iff, decide_eq_false_iff_not]
    omega

/-- BAND_FAULT_RETRY in FAULT with fewer than three recent retries is one more (R140). -/
theorem bandFaultRetry_retries {n : Nat} (hband : isBand die = true) (hstate : s.dev.bandState die = 6)
    (hn : n = (s.dev.recentRetries die).length) (hfew : n < 3) : Becomes (.bandFaultRetry die) s
      (((s.dev.setBand die (fun b => { b with retries := s.dev.recentRetries die ++ [s.dev.time.lt], autoTry := true })).w
        F.RSM.BAND_STAT_RETRIES (n + 1) die).bandTo die 2) := by
  subst hn
  exact becomes_of_run (show execBandFaultRetry die s = _ from rfl) (if_neg (by simp [hband, hstate]; omega))

/-- Otherwise it does nothing. -/
theorem bandFaultRetry_stays (h : isBand die = false ∨ s.dev.bandState die ≠ 6 ∨ 3 ≤ (s.dev.recentRetries die).length) :
    NoEffect (.bandFaultRetry die) s :=
  becomes_of_run (show execBandFaultRetry die s = _ from rfl)
    (if_pos (by simpa only [Bool.or_eq_true, Bool.not_eq_true', bne_iff_ne, decide_eq_true_eq, or_assoc] using h))

/-- RSM_RESUME_BAND leads a band in FAULT to LO_SETTLE (R140). -/
theorem rsmResumeBand_becomes {p : Page} (h : Writable s.dev die rsmPage p) : Becomes (.rsmResumeBand die) s
    (if s.dev.bandState p.die = 6 then (s.dev.setBand p.die (fun b => { b with autoTry := false })).bandTo p.die 2 else s.dev) := by
  have hrow := becomes_of_pageWrite (i := .rsmResumeBand die) rfl h
  simpa only [Dev.resumeBand, beq_iff_eq] using hrow

/-- A request of a band state stages it as TARGET and starts the page's commit (R83). -/
theorem Dev.bandReq_writable {d : Dev} {p : Page} (h : Writable d die 0x182 p) (htag : p.tag = .RSM) (state : Nat) :
    d.bandReq die state = (d.putS F.RSM.REQ_TARGET p state).commitGo p :=
  (Dev.pageWrite_one h _ _ _).trans (if_neg (by simp [htag]))

end

/-- Settles O18: the LO's lock and its loss, the retries, and the requests. -/
theorem bandReceivers : Obligations.BandReceivers := by
  refine ⟨?_, ?_, ?_, ?_, ?_, ?_, ?_, ?_, ?_, ?_, ?_, ?_, ?_⟩
  · intro s die d0 hband hstate hd0 hwanted
    have hlocked := bandLoLocked_settled hband hstate hd0
    rwa [if_pos hwanted] at hlocked
  · intro s die d0 hband hstate hd0 hwanted
    have hlocked := bandLoLocked_settled hband hstate hd0
    rwa [if_neg (by omega), if_pos hwanted] at hlocked
  · intro s die h
    exact bandLoLocked_other h
  · intro s die d0 hband hlo hhi hd0
    have hlost := bandLoLockLost_faults hband (by omega) hhi hd0
    have hpast : s.dev.bandState die ≠ 2 := by omega
    simpa only [Dev.when, bne_iff_ne.mpr hpast, beq_eq_false_iff_ne.mpr hpast, Bool.false_and, Bool.false_eq_true, if_false, if_true] using hlost
  · intro s die d0 d1 hband hstate hd0 hd1
    subst hd1
    have hlost := bandLoLockLost_faults hband (by omega) (by omega) hd0
    simpa only [hstate, Dev.when, bne_self_eq_false, beq_self_eq_true, Bool.true_and, Bool.false_eq_true, if_false, Bool.and_eq_true,
      decide_eq_true_eq] using hlost
  · intro s die h
    exact bandLoLockLost_other h
  · intro s die n hband hstate hn hfew
    exact bandFaultRetry_retries hband hstate hn hfew
  · intro s die h
    exact bandFaultRetry_stays h
  · intro s die p h hstate
    have hresume := rsmResumeBand_becomes h
    rwa [if_pos hstate] at hresume
  · intro s die p h hstate
    have hresume := rsmResumeBand_becomes h
    rwa [if_neg hstate] at hresume
  · intro s die p h htag
    exact becomes_of_run (show execBandReqStandby die s = _ from rfl) (Dev.bandReq_writable h htag _)
  · intro s die p h htag
    exact becomes_of_run (show execBandReqReceive die s = _ from rfl) (Dev.bandReq_writable h htag _)
  · intro s die p h htag
    exact becomes_of_run (show execBandReqHold die s = _ from rfl) (Dev.bandReq_writable h htag _)

end Sys2Proof.Machine

/-! PROOFS. The transmit chains of a Band die: tuning, and the synthesizer's lock (R137, R139, R141, Table 6-3). -/

namespace Sys2Proof.Machine
open Sys2Proof Sys2Proof.Safety

section
variable {s : State} {die chain : Nat}

/-- What TX_TUNE_REQUEST of a chain, for cells within the channels, comes to in each of the chain's states (Table 6-3). -/
def Dev.tuneAsked (d : Dev) (die chain : Nat) (cells : Nat × Nat) : Dev :=
  match d.txState die chain with
  | 0 | 7 => d
  | 1 => if (d.chain die chain).tuned = some cells then d else d.tuneNow die chain cells
  | 2 => d.tuneNow die chain cells
  | _ => d.setChain die chain (fun k => { k with pend := some cells })

/-- TX_TUNE_REQUEST outside the chains and the channels does nothing, and within them what the chain's state says. -/
theorem txTuneRequest_becomes (s : State) (die chain channel : Nat) {gang : Bool} {n : Nat}
    (hn : n = if gang = true then if die = 5 then 2 else 16 else 1) : Becomes (.txTuneRequest die chain channel gang) s
    (if isBand die = false ∨ 4 ≤ chain ∨ 512 < channel + n then s.dev else s.dev.tuneAsked die chain (s.dev.cellsOf die channel n)) := by
  subst hn
  refine becomes_of_run (show execTxTuneRequest die chain channel gang s = _ from rfl) ?_
  simp only [Bool.or_eq_true, Bool.not_eq_true', decide_eq_true_eq, or_assoc, beq_iff_eq]
  rfl

section
variable {d : Dev} {cells : Nat × Nat}

/-- A chain that tunes, or idles on other cells, tunes at once. -/
theorem Dev.tuneAsked_now (h : d.txState die chain = 2 ∨ (d.txState die chain = 1 ∧ (d.chain die chain).tuned ≠ some cells)) :
    d.tuneAsked die chain cells = d.tuneNow die chain cells := by
  unfold Dev.tuneAsked
  rcases h with hstate | ⟨hstate, htuned⟩
  · simp only [hstate]
  · simp only [hstate, if_neg htuned]

/-- A chain that is off or has failed, or idles on those cells, does nothing. -/
theorem Dev.tuneAsked_none (h : d.txState die chain = 0 ∨ d.txState die chain = 7 ∨
    (d.txState die chain = 1 ∧ (d.chain die chain).tuned = some cells)) : d.tuneAsked die chain cells = d := by
  unfold Dev.tuneAsked
  rcases h with hstate | hstate | ⟨hstate, htuned⟩
  · simp only [hstate]
  · simp only [hstate]
  · simp only [hstate, if_pos htuned]

/-- A chain in use keeps the cells for its next TX_IDLE. -/
theorem Dev.tuneAsked_kept (hlo : 3 ≤ d.txState die chain) (hhi : d.txState die chain ≤ 6) :
    d.tuneAsked die chain cells = d.setChain die chain (fun k => { k with pend := some cells }) := by
  unfold Dev.tuneAsked
  obtain hstate | hstate | hstate | hstate : d.txState die chain = 3 ∨ d.txState die chain = 4 ∨ d.txState die chain = 5 ∨ d.txState die chain = 6 := by
    omega
  all_goals simp only [hstate]

end

/-- TX_SYNTH_LOCKED leads a chain in TX_TUNE to TX_IDLE, and does nothing otherwise. -/
theorem txSynthLocked_becomes (s : State) (die chain : Nat) : Becomes (.txSynthLocked die chain) s
    (if isBand die = true ∧ chain < 4 ∧ s.dev.txState die chain = 2 then s.dev.txIdle die chain else s.dev) := by
  refine becomes_of_run (show execTxSynthLocked die chain s = _ from rfl) ?_
  simp only [Bool.and_eq_true, decide_eq_true_eq, beq_iff_eq, and_assoc]

/-- TX_SYNTH_LOCK_LOST of a chain that is off, or of no chain, does nothing. -/
theorem txSynthLockLost_off (h : isBand die = false ∨ 4 ≤ chain ∨ s.dev.txState die chain = 0) : NoEffect (.txSynthLockLost die chain) s :=
  becomes_of_run (show execTxSynthLockLost die chain s = _ from rfl)
    (if_pos (by simpa only [Bool.or_eq_true, Bool.not_eq_true', decide_eq_true_eq, beq_iff_eq, or_assoc] using h))

/-- TX_SYNTH_LOCK_LOST cuts the chain off, drops its frame, ends its calibration and raises TXSYN_LOCK; the chain then tunes, or fails where the loss
before came less than a second earlier (R141, Table 6-3). -/
theorem txSynthLockLost_lost {d1 d2 d3 : Dev} (hband : isBand die = true) (hchain : chain < 4) (hstate : s.dev.txState die chain ≠ 0)
    (hd1 : d1 = (s.dev.cutOff die chain).setChain die chain (fun k =>
      { k with lossAt := some s.dev.time.lt, cal := if k.cal == 3 then 1 else k.cal }))
    (hd2 : d2 = (s.dev.chain die chain).air.elim d1 (fun x => (d1.airedTx die chain x).txDropped (die - 2) x))
    (hd3 : d3 = (d2.wBit F.SYN.CAL_STAT_TX_BUSY chain false die).raise E.SYN.TXSYN_LOCK die) :
    Becomes (.txSynthLockLost die chain) s
      (if (s.dev.chain die chain).lossAt.elim false (fun t => decide (s.dev.time.lt < t + tickSec)) = false then d3.txTo die chain 2
      else if d3.txState die chain = 7 then d3 else (d3.txFail die chain).calSettle die) := by
  refine becomes_of_run (show execTxSynthLockLost die chain s = _ from rfl) ((if_neg (by simp [hband, hstate]; omega)).trans ?_)
  dsimp only
  rw [← hd1, ← hd2, ← hd3]
  simp only [Bool.not_eq_true', beq_iff_eq]

/-- RSM_RESUME_TX asks for the calibration of the named chains that have failed (R144). -/
theorem rsmResumeTx_becomes {chains m : Nat} {p : Page} (h : Writable s.dev die rsmPage p)
    (hm : m = ofBits ((bitList 4 chains).filter (fun c => s.dev.txState p.die c == 7))) : Becomes (.rsmResumeTx die chains) s
      (if m = 0 then s.dev else s.dev.calRequest p.die (2 ^ txRegion p.die) 3 m) := by
  have hrow := becomes_of_pageWrite (i := .rsmResumeTx die chains) rfl h
  simpa only [Dev.resumeTx, beq_iff_eq, ← hm] using hrow

end

/-- Settles O19: requests to tune, the synthesizer's lock and its loss, and the resumption of failed chains. -/
theorem transmitChains : Obligations.TransmitChains := by
  refine ⟨?_, ?_, ?_, ?_, ?_, ?_, ?_, ?_, ?_⟩
  · rintro s die chain channel gang n t hband hchain hn hcells rfl hstate
    have htune := txTuneRequest_becomes s die chain channel hn
    rwa [if_neg (by simp [hband]; omega), Dev.tuneAsked_now hstate] at htune
  · intro s die chain channel gang n hn hnone
    have htune := txTuneRequest_becomes s die chain channel hn
    by_cases hout : isBand die = false ∨ 4 ≤ chain ∨ 512 < channel + n
    · rwa [if_pos hout] at htune
    · rwa [if_neg hout, Dev.tuneAsked_none (by tauto)] at htune
  · intro s die chain channel gang n hband hchain hn hcells hlo hhi
    have htune := txTuneRequest_becomes s die chain channel hn
    rwa [if_neg (by simp [hband]; omega), Dev.tuneAsked_kept hlo hhi] at htune
  · intro s die chain hband hchain hstate
    have hlocked := txSynthLocked_becomes s die chain
    rwa [if_pos ⟨hband, hchain, hstate⟩] at hlocked
  · intro s die chain hother
    have hlocked := txSynthLocked_becomes s die chain
    rwa [if_neg (by rintro ⟨hband, hchain, hstate⟩; rw [hband] at hother; simp at hother; omega)] at hlocked
  · intro s die chain d1 d2 d3 hband hchain hstate hd1 hd2 hd3
    exact txSynthLockLost_lost hband hchain hstate hd1 hd2 hd3
  · intro s die chain h
    exact txSynthLockLost_off h
  · intro s die chains p m h hm hsome
    have hresume := rsmResumeTx_becomes h hm
    rwa [if_neg hsome] at hresume
  · intro s die chains p h hnone
    have hresume := rsmResumeTx_becomes (chains := chains) h rfl
    rwa [if_pos hnone] at hresume

end Sys2Proof.Machine

/-! PROOFS. Calibration of a Band die's receiver and chains (R143 to R146, R151, R163, R164, R214, Table 6-6). -/

namespace Sys2Proof.Machine
open Sys2Proof Sys2Proof.Safety

section
variable {s : State} {die : Nat}

/-- CAL_REQ_TX requests the calibration of the chains named among the four (R144). -/
theorem calReqTx_becomes {p : Page} (h : Writable s.dev die rsmPage p) (chains : Nat) : Becomes (.calReqTx die chains) s
    (if chains % 16 = 0 then s.dev else s.dev.calRequest p.die (2 ^ txRegion p.die) 1 (chains % 16)) := by
  have hrow := becomes_of_pageWrite (i := .calReqTx die chains) rfl h
  simpa only [Dev.calReqTx, beq_iff_eq] using hrow

/-- CAL_TEMP_TRIGGER of the receiver's region requests its calibration where the temperature has moved (R146). -/
theorem calTempTrigger_rx (s : State) (die : Nat) : Becomes (.calTempTrigger die false) s
    (if isBand die = true ∧ s.dev.regionOn (rxRegion die) = true ∧
        s.dev.tempMoved die (s.dev.tempC (rxRegion die)) (s.dev.g F.SYN.RX_TCAL_T die) = true then s.dev.calRequest die (2 ^ rxRegion die) 0 1
    else s.dev) := by
  refine becomes_of_run (show execCalTempTrigger die false s = _ from rfl) ?_
  cases hband : isBand die <;> cases hon : s.dev.regionOn (rxRegion die) <;> simp [hon]

/-- CAL_TEMP_TRIGGER of the transmitters' region requests the calibration of all four chains where the temperature has moved for one (R146). -/
theorem calTempTrigger_tx (s : State) (die : Nat) : Becomes (.calTempTrigger die true) s
    (if isBand die = true ∧ s.dev.regionOn (txRegion die) = true ∧
        (List.range 4).any (fun c => s.dev.tempMoved die (s.dev.tempC (txRegion die)) (s.dev.g F.SYN.TX_TCAL_T die 0 c)) = true then
      s.dev.calRequest die (2 ^ txRegion die) (if s.dev.g F.SYN.CAL_CFG_DEFER_MAX die = 0 then 1 else 2) 15
    else s.dev) := by
  refine becomes_of_run (show execCalTempTrigger die true s = _ from rfl) ?_
  cases hband : isBand die <;> cases hon : s.dev.regionOn (txRegion die) <;> simp [hon]

/-- CAL_DEFER_EXPIRY makes the die's deferred requests due and starts what may start (R146). -/
theorem calDeferExpiry_becomes {d : Dev} (hband : isBand die = true)
    (hd : d = { s.dev with mt := { s.dev.mt with queue := s.dev.mt.queue.map (fun (r : TokenReq) => r.pastDefer die) } }) :
    Becomes (.calDeferExpiry die) s
      ((d.setBand die (fun b => { b with chains := b.chains.map (fun k => if k.cal == 2 then { k with cal := 1 } else k) })).calKick die) := by
  subst hd
  exact becomes_of_run (show execCalDeferExpiry die s = _ from rfl) (if_neg (by simp [hband]))

section
variable {relocked : Bool} {failed : Nat} {codes : List DcoCode}

/-- RX_CAL_DONE of a band in CAL records what was learned, sorts the chains, shows a failure, and leads to FAULT or to the state that is wanted
(R143, R144, R151, R163). -/
theorem rxCalDone_done {d1 d2 d3 d4 d5 d6 : Dev} {bad good : List Nat} (hband : isBand die = true) (hstate : s.dev.bandState die = 4)
    (hd1 : d1 = ((s.dev.w F.SYN.CAL_STAT_RX_BUSY 0 die).setBand die (fun b => { b.learn codes with rxCal := 0 })).showDco die)
    (hd2 : d2 = (d1.w F.SYN.RX_TCAL_T (ofSigned 8 (d1.tempC (rxRegion die))) die).inc C.SYN.RX_CAL_CNT die)
    (hbad : bad = (bitList 8 (d2.g F.RXF.CHAIN_EN_EN die)).filter (fun c => bitOf failed c))
    (hgood : good = (bitList 8 (d2.g F.RXF.CHAIN_EN_EN die)).filter (fun c => !bitOf failed c))
    (hd3 : d3 = d2.each good (fun d c => (d.wBit F.RXF.CHAIN_STAT_FAILED c false die).w F.RXF.FAIL_CAUSE_CAUSE 0 die 0 c))
    (hd4 : d4 = d3.each bad (fun d c => d.rxChainFail die c 2))
    (hd5 : d5 = if relocked = false ∨ bad ≠ [] then ((d4.w F.SYN.CAL_STAT_LAST_FAIL 1 die).raise E.SYN.CAL_FAIL die).showChains die
      else d4.showChains die)
    (hd6 : d6 = if relocked = false ∨ d5.g F.RXF.CHAIN_STAT_HEALTHY die = 0 then d5.bandTo die 6
      else d5.bandTo die (if d5.bandWanted die = 3 ∨ d5.bandWanted die = 5 then d5.bandWanted die else 1)) :
    Becomes (.rxCalDone die relocked failed codes) s (d6.releaseToken 1 (2 ^ rxRegion die)) := by
  have hshown : (d4.when (!relocked || !bad.isEmpty) (fun d => (d.w F.SYN.CAL_STAT_LAST_FAIL 1 die).raise E.SYN.CAL_FAIL die)).showChains die = d5 := by
    rw [hd5]
    cases relocked <;> cases bad <;> rfl
  refine becomes_of_run (show execRxCalDone die relocked failed codes s = _ from rfl) ((if_neg (by simp [hband, hstate])).trans ?_)
  dsimp only
  rw [← hd1, ← hd2, ← hbad, ← hgood, ← hd3, ← hd4, hshown, hd6]
  simp only [Bool.or_eq_true, Bool.not_eq_true', beq_iff_eq]

/-- RX_CAL_DONE out of CAL does nothing. -/
theorem rxCalDone_other (h : isBand die = false ∨ s.dev.bandState die ≠ 4) : NoEffect (.rxCalDone die relocked failed codes) s :=
  becomes_of_run (show execRxCalDone die relocked failed codes s = _ from rfl)
    (if_pos (by simpa only [Bool.or_eq_true, Bool.not_eq_true', bne_iff_ne] using h))

end

section
variable {chain : Nat}

/-- TX_CAL_DONE out of TX_CAL does nothing. -/
theorem txCalDone_other {ok : Bool} (h : isBand die = false ∨ 4 ≤ chain ∨ s.dev.txState die chain ≠ 6) : NoEffect (.txCalDone die chain ok) s :=
  becomes_of_run (show execTxCalDone die chain ok s = _ from rfl)
    (if_pos (by simpa only [Bool.or_eq_true, Bool.not_eq_true', bne_iff_ne, decide_eq_true_eq, or_assoc] using h))

variable {d1 : Dev} (hband : isBand die = true) (hchain : chain < 4) (hstate : s.dev.txState die chain = 6)
  (hd1 : d1 = (s.dev.wBit F.SYN.CAL_STAT_TX_BUSY chain false die).setChain die chain (fun k => { k with cal := 0 }))
include hband hchain hstate

/-- A chain in TX_CAL ends its calibration. -/
theorem Dev.calibrates : (!isBand die || decide (4 ≤ chain) || s.dev.txState die chain != 6) = false := by
  simp [hband, hchain, hstate]

include hd1

/-- A calibration that fails is recorded, raises CAL_FAIL and fails its chain (R144). -/
theorem txCalDone_failed : Becomes (.txCalDone die chain false) s
    (((((d1.w F.SYN.CAL_STAT_LAST_FAIL 2 die).raise E.SYN.CAL_FAIL die).txFail die chain).calKick die).calSettle die) := by
  subst hd1
  refine becomes_of_run (show execTxCalDone die chain false s = _ from rfl) ?_
  simp only [Dev.calibrates hband hchain hstate, Bool.false_eq_true, if_false]

/-- A calibration that succeeds records T_cal and V_cal, ends a hold of the spectrum monitor and its count, and leads to TX_IDLE (R144, R214). -/
theorem txCalDone_succeeded {d2 d3 d4 : Dev} (hd2 : d2 = d1.w F.SYN.TX_TCAL_T (ofSigned 8 (d1.tempC (txRegion die))) die 0 chain)
    (hd3 : d3 = (d2.w F.SYN.TX_TCAL_V d2.vddRfa die 0 chain).inc C.SYN.TX_CAL_CNT die 0 chain)
    (hd4 : d4 = ((d3.wBit F.TXB.HELD_CHAINS chain false (die - 2)).setChain die chain (fun k => { k with cuts := [] })).w
      F.TXF.MASK_STAT_CUTS_10S 0 die chain) :
    Becomes (.txCalDone die chain true) s (((d4.txIdle die chain).calKick die).calSettle die) := by
  subst hd1 hd2 hd3 hd4
  refine becomes_of_run (show execTxCalDone die chain true s = _ from rfl) ?_
  simp only [Dev.calibrates hband hchain hstate, Bool.false_eq_true, if_false, if_true]

end
end

/-- Settles O20: the requests and what falls due, then the ends of calibrations. -/
theorem calibration : Obligations.Calibration := by
  refine ⟨?_, ?_, ?_, ?_, ?_, ?_, ?_, ?_, ?_, ?_, ?_, ?_, ?_⟩
  · intro s die p h
    exact becomes_of_pageWrite (i := .calReqRx die) rfl h
  · intro s die chains p h hsome
    have hreq := calReqTx_becomes h chains
    rwa [if_neg hsome] at hreq
  · intro s die chains p h hnone
    have hreq := calReqTx_becomes h chains
    rwa [if_pos hnone] at hreq
  · intro s die hband hon hmoved
    have htrigger := calTempTrigger_rx s die
    rwa [if_pos ⟨hband, hon, hmoved⟩] at htrigger
  · intro s die h
    have htrigger := calTempTrigger_rx s die
    rwa [if_neg (by simpa only [not_and_or, Bool.not_eq_true] using h)] at htrigger
  · intro s die hband hon hmoved
    have htrigger := calTempTrigger_tx s die
    rwa [if_pos ⟨hband, hon, hmoved⟩] at htrigger
  · intro s die h
    have htrigger := calTempTrigger_tx s die
    rwa [if_neg (by simpa only [not_and_or, Bool.not_eq_true] using h)] at htrigger
  · intro s die d1 hband hd1
    exact calDeferExpiry_becomes hband hd1
  · intro s die relocked failed codes d1 d2 bad good d3 d4 d5 d6 hband hstate hd1 hd2 hbad hgood hd3 hd4 hd5 hd6
    exact rxCalDone_done hband hstate hd1 hd2 hbad hgood hd3 hd4 hd5 hd6
  · intro s die relocked failed codes h
    exact rxCalDone_other h
  · intro s die chain d1 hband hchain hstate hd1
    exact txCalDone_failed hband hchain hstate hd1
  · intro s die chain d1 d2 d3 d4 hband hchain hstate hd1 hd2 hd3 hd4
    exact txCalDone_succeeded hband hchain hstate hd1 hd2 hd3 hd4
  · intro s die chain ok h
    exact txCalDone_other h

end Sys2Proof.Machine

/-! PROOFS. The limit image of a Band die and the programming of its fuses (R158 to R160, Table 6-8). -/

namespace Sys2Proof.Machine
open Sys2Proof Sys2Proof.Safety

section
variable {s : State} {die : Nat}

section
variable {p : Page} (h : Writable s.dev die limPage p)
include h

/-- LOCK_DATA_WRITE stages the word at LOCK_IDX and advances LOCK_IDX (R158). -/
theorem lockDataWrite_becomes {i : Nat} (word : Nat) (hi : i = s.dev.g F.LIM.LOCK_IDX_IDX p.die) : Becomes (.lockDataWrite die word) s
    (((s.dev.setBand p.die (fun b => { b with staged := kvSet 0 b.staged i (word % 2 ^ 32) })).w F.LIM.LOCK_IDX_IDX (min 156 (i + 1)) p.die).showLim
      p.die) := by
  subst hi
  exact becomes_of_pageWrite (i := .lockDataWrite die word) rfl h

/-- What LOCK_GO of a page comes to once its code is right and no programming is under way (R160, Table 6-8). -/
def Dev.lockGo (d : Dev) (die : Nat) (staged : List (Nat × Nat)) (f : BandFuses) : Dev :=
  if d.mode ≠ mBringup then d.lockResult die 2 0
  else if d.vfuse < 1700 then d.lockResult die 3 0
  else if 2 ≤ f.state then d.lockResult die 4 0
  else match limRefused die staged with
    | some w => d.lockResult die 5 w
    | none =>
      match (if f.state = 1 then lockConflict staged f.words else none) with
      | some w => d.lockResult die 6 w
      | none => ((d.setBand die (fun b => { b with progAt := d.time.lt })).w F.LIM.LOCK_PROG_BUSY 1 die).w F.LIM.LOCK_PROG_WORDS 0 die

/-- LOCK_GO with another code, or while programming is under way, does nothing; else it starts programming or ends with its result (R160). -/
theorem lockGo_becomes (code : Nat) : Becomes (.lockGo die code) s
    (if code % 65536 ≠ 0x4C4B ∨ s.dev.on F.LIM.LOCK_PROG_BUSY p.die = true then s.dev
    else s.dev.lockGo p.die (s.dev.band p.die).staged (s.dev.fuse p.die)) := by
  have hrow := becomes_of_pageWrite (i := .lockGo die code) rfl h
  simp only [Bool.or_eq_true, bne_iff_ne, beq_iff_eq] at hrow
  exact hrow

end

/-- With no programming under way its two ends do nothing. -/
theorem lockEnds_idle (h : isBand die = false ∨ s.dev.on F.LIM.LOCK_PROG_BUSY die = false) (badWord : Option Nat) (words : Nat) :
    NoEffect (.lockProgramDone die badWord) s ∧ NoEffect (.lockVfuseLoss die words) s := by
  have hidle : (!isBand die || !s.dev.on F.LIM.LOCK_PROG_BUSY die) = true := by
    simpa only [Bool.or_eq_true, Bool.not_eq_true'] using h
  exact ⟨becomes_of_run (show execLockProgramDone die badWord s = _ from rfl) (if_pos hidle),
    becomes_of_run (show execLockVfuseLoss die words s = _ from rfl) (if_pos hidle)⟩

section
variable (hband : isBand die = true) (hbusy : s.dev.on F.LIM.LOCK_PROG_BUSY die = true)
include hband hbusy

/-- A programming under way ends. -/
theorem Dev.programs : (!isBand die || !s.dev.on F.LIM.LOCK_PROG_BUSY die) = false := by simp [hband, hbusy]

/-- Programming that ends well leaves every word and the lock word programmed and the die LOCKED (R160). -/
theorem lockProgramDone_good : Becomes (.lockProgramDone die none) s
    ((((((s.dev.w F.LIM.LOCK_PROG_BUSY 0 die).programWords die 156).setFuse die
      (fun f => { f with words := kvSet 0 f.words 156 0x4C4F434B, state := 2 })).lockResult die 1 0).showLim die).showBudget die) := by
  refine becomes_of_run (show execLockProgramDone die none s = _ from rfl) ?_
  simp only [Dev.programs hband hbusy, Bool.false_eq_true, if_false]

/-- A bad word leaves the words before it programmed and the die SPOILED, and raises LOCK_SPOILED (R160). -/
theorem lockProgramDone_bad (w : Nat) : Becomes (.lockProgramDone die (some w)) s
    ((((((s.dev.w F.LIM.LOCK_PROG_BUSY 0 die).programWords die (min w 156)).setFuse die (fun f => { f with state := 3 })).lockResult die 7 w).showLim
      die).raise E.LIM.LOCK_SPOILED die) := by
  refine becomes_of_run (show execLockProgramDone die (some w) s = _ from rfl) ?_
  simp only [Dev.programs hband hbusy, Bool.false_eq_true, if_false]

/-- The loss of VFUSE leaves the words done programmed and the die PARTIAL (R160). -/
theorem lockVfuseLoss_lost (words : Nat) : Becomes (.lockVfuseLoss die words) s
    (((((s.dev.w F.LIM.LOCK_PROG_BUSY 0 die).programWords die (max (s.dev.g F.LIM.LOCK_PROG_WORDS die) (min words 156))).setFuse die
      (fun f => { f with state := 1 })).lockResult die 8 0).showLim die) := by
  refine becomes_of_run (show execLockVfuseLoss die words s = _ from rfl) ?_
  simp only [Dev.programs hband hbusy, Bool.false_eq_true, if_false]

end
end

/-- Settles O22: the writes of the limit page, then the ends of programming. -/
theorem limitImage : Obligations.LimitImage := by
  refine ⟨?_, ?_, ?_, ?_, ?_, ?_, ?_⟩
  · intro s die word p i h hi
    exact lockDataWrite_becomes h word hi
  · rintro s die code p staged f h hcode hidle rfl rfl
    have hgo := lockGo_becomes h code
    rwa [if_neg (by simp [hcode, hidle])] at hgo
  · intro s die code p h hstop
    have hgo := lockGo_becomes h code
    rwa [if_pos hstop] at hgo
  · intro s die hband hbusy
    exact lockProgramDone_good hband hbusy
  · intro s die w hband hbusy
    exact lockProgramDone_bad hband hbusy w
  · intro s die words hband hbusy
    exact lockVfuseLoss_lost hband hbusy words
  · intro s die words bad h
    exact lockEnds_idle h bad words

end Sys2Proof.Machine

/-! PROOFS. Neighbouring border routers, and the planner's commands (R244, R245, R249, R255 to R257, Table 9-7). -/

namespace Sys2Proof.Machine
open Sys2Proof Sys2Proof.Safety

section
variable {s : State} {die : Nat}

/-- What the beacon `f` of a neighbour says of it, with the channels that it is known to use and this one, to eight at most (R255). -/
def RxFrame.nbr (f : RxFrame) (die : Nat) (old : Option Nbr) : Nbr :=
  let chans := old.elim [] (fun n => n.chans)
  { tag := leAt f.psdu 2 4
    state := 1
    aligned := bitOf (leAt f.psdu 1 1) 2
    snr := f.snr
    slotCode := bitsOf (leAt f.psdu 10 2) 0 3
    len := bitsOf (leAt f.psdu 10 2) 3 12
    bslots := bitsOf (leAt f.psdu 12 2) 12 4
    start := Dev.natStart die f - leAt f.psdu 8 2 * tickUs
    chans := if chans.contains f.channel || decide (8 ≤ chans.length) then chans else chans ++ [f.channel]
    missed := 0
    hold := 0 }

/-- NEIGHBOUR_BEACON takes a neighbour's beacon: a known neighbour, or a new one that the list has room for, becomes what it says and is followed;
else NBR_FULL is counted and raised (R255, R256). -/
theorem neighbourBeacon_taken {f : RxFrame} {rest : List RxFrame} {d : Dev} {old : Option Nbr} (hair : isAir die = true)
    (hup : s.dev.dieUp die = true) (hmac : (s.dev.airD die).macIn = f :: rest) (hd : d = s.dev.setAir die (fun a => { a with macIn := rest }))
    (hbeacon : s.dev.isNbrBeacon die f = true) (hold : old = (d.airD die).nbrs.find? (fun n => n.tag == leAt f.psdu 2 4)) :
    Becomes (.neighbourBeacon die) s
      (if old = none ∧ 32 ≤ (d.airD die).nbrs.length then (d.inc C.AMC.NBR_FULL die).raise E.AMC.NBR_FULL die
      else ((d.setAir die (fun a => { a with
          nbrs := if old.isSome then mapIf (fun x => x.tag == leAt f.psdu 2 4) (fun _ => f.nbr die old) a.nbrs else a.nbrs ++ [f.nbr die old] })).followNbr
        die (f.nbr die old) (leAt f.psdu 6 2)).showNbr die) := by
  refine becomes_of_run (show execNeighbourBeacon die s = _ from rfl) ((Dev.takeRx_taken hair hup hmac hbeacon hd _).trans ?_)
  dsimp only
  rw [← hold]
  simp only [Bool.and_eq_true, Option.isNone_iff_eq_none, decide_eq_true_eq]
  rfl

/-- NEIGHBOUR_LOST of a heard neighbour marks it lost, starts its hold-off and counts (R257). -/
theorem neighbourLost_becomes (s : State) (die tag : Nat) : Becomes (.neighbourLost die tag) s
    (if isAir die = false ∨ (s.dev.airD die).nbrs.any (fun n => n.tag == tag && n.state == 1) = false then s.dev
    else ((s.dev.setAir die (fun a => { a with
      nbrs := mapIf (fun n => n.tag == tag) (fun n => { n with state := 2, hold := s.dev.g F.AMC.NBR_CFG_HOLDOFF die }) a.nbrs })).inc
      C.AMC.NBR_LOST die).showNbr die) := by
  refine becomes_of_run (show execNeighbourLost die tag s = _ from rfl) ?_
  simp only [Bool.or_eq_true, Bool.not_eq_true']

end

section
variable {s : State} {id : Nat} {c : Cmd}

/-- What PLAN_SET asks of its node (Table 9-7). -/
def Cmd.assign (c : Cmd) (t : Detail) : Detail := { t with
  assigned := true
  aBand := c.par 32 2 / 32768
  listen := bitOf (c.par 38 1) 0
  apin := bitOf (c.par 38 1) 1
  aSlot := c.par 30 2
  aCh := c.par 32 2 % 512
  aPeriod := c.par 34 2
  aPhase := c.par 36 2 }

/-- PLAN_SET whose load map is rebuilt waits (R245). -/
theorem planSet_waits (h : Ready s.dev 0x0401 id c planSetRange) (hblocked : (s.dev.airD (bandAir (c.par 32 2 / 32768))).planBlocked = true) :
    NoEffect (.planSet id) s := by
  refine becomes_of_run (show execPlanSet id s = _ from rfl) ?_
  rw [Dev.runCmd_ready h]
  simp only [hblocked, if_true]
  rfl

/-- PLAN_SET gives the resident node its assignment and sends it (R244, R245). -/
theorem planSet_assigns {d : Dev} {e : NodeEnt} (h : Ready s.dev 0x0401 id c planSetRange)
    (hfree : (s.dev.airD (bandAir (c.par 32 2 / 32768))).planBlocked = false)
    (hd : d = (s.dev.setNode c.nodeKey (fun e => { e with det := c.assign e.det })).showPlan) (hnode : d.resident c.nodeKey = some e) :
    Becomes (.planSet id) s ((d.sendOwn c.die1 c.nodeKey 15 (assignElem e.det)).finish id c.ok) := by
  subst hd
  unfold Cmd.assign at hnode ⊢
  refine becomes_of_run (show execPlanSet id s = _ from rfl) ?_
  rw [Dev.runCmd_ready h]
  simp only [hfree, hnode, Bool.false_eq_true, if_false]
  rfl

/-- PLAN_GET writes the node's assignment (Table 9-7). -/
theorem planGet_reads {e : NodeEnt} (h : Ready s.dev 0x0403 id c (fun d c => if c.len != 16 then some 0 else planRange d c))
    (hnode : s.dev.resident c.nodeKey = some e) : BecomesWith (.planGet id false) s (s.dev.finish id c.ok)
      [(c.addr, padTo 16 (toLE 2 e.det.aSlot ++ toLE 2 (e.det.aCh + e.det.aBand * 32768) ++ toLE 2 e.det.aPeriod ++ toLE 2 e.det.aPhase ++
        toLE 1 (flag e.det.listen 0 + flag e.det.apin 1) ++ toLE 1 (flag e.det.classP 0 + flag e.det.classW 1) ++ toLE 1 e.det.unack ++
        toLE 1 (b2n e.det.desync)))] := by
  have hrun := becomesWith_of_runCmdH (i := .planGet id false) rfl h (by simp only [hnode]; rfl)
  simpa only [hnode] using hrun

end

/-- Settles O28: neighbours heard, lost and forgotten, then the planner's commands. -/
theorem neighbourAndPlan : Obligations.NeighbourAndPlan := by
  refine ⟨?_, ?_, ?_, ?_, ?_, ?_, ?_, ?_, ?_, ?_⟩
  · rintro s die f rest d1 nt old cs n hair hup hmac hd1 hbeacon rfl hold rfl rfl
    exact neighbourBeacon_taken hair hup hmac hd1 hbeacon hold
  · intro s die h
    exact becomes_of_run (show execNeighbourBeacon die s = _ from rfl) (Dev.takeRx_left h _)
  · intro s die tag hair hheard
    have hlost := neighbourLost_becomes s die tag
    rwa [if_neg (by simp [hair, hheard])] at hlost
  · intro s die tag h
    have hlost := neighbourLost_becomes s die tag
    rwa [if_pos h] at hlost
  · intro s die tag hair
    exact becomes_of_run (show execNeighbourHoldoffExpiry die tag s = _ from rfl) (if_neg (by simp [hair]))
  · intro s id c d1 e h hfree hd1 hnode
    exact planSet_assigns h hfree hd1 hnode
  · intro s id c h hblocked
    exact planSet_waits h hblocked
  · intro s id c h
    exact becomes_of_runCmd (i := .planClear id) rfl h rfl
  · intro s id c e h hnode
    exact planGet_reads h hnode
  · intro s id c h
    exact becomes_of_runCmd (i := .desyncClear id) rfl h rfl

end Sys2Proof.Machine

/-! PROOFS. The invariant that every step keeps (R108, R511). -/

namespace Sys2Proof.Machine
open Sys2Proof Sys2Proof.Safety

section
variable {s : State}

/-- A command that runs keeps canonical host memory, leaves no reset due, and leaves the queue alone (R108, R511). -/
theorem exec_keeps_invariant (i : Instr) (hinv : Inv s) : ∃ t, exec i s = .next t ∧ Inv t ∧ Settled t ∧ t.pending = s.pending := by
  obtain ⟨d, ws, hexec⟩ := exec_shape i s
  exact ⟨_, hexec, memWrites_wf ws s.host hinv, d.settle_settled, rfl⟩

/-- So does a tick, which is what a step of an empty queue comes to (R57). -/
theorem step_empty_keeps_invariant (hempty : s.pending = []) (hinv : Inv s) : ∃ t, step s = .next t ∧ Inv t ∧ Settled t ∧ t.pending = [] :=
  ⟨_, emptyQueueTicks.1 s hempty, hinv, s.dev.idle_settled, hempty⟩

end

/-- Settles O48, by the queue: a tick where it is empty, else the command at its front on the state with the queue's rest. -/
theorem invariantKept : Obligations.InvariantKept := by
  rintro ⟨q, h, d⟩ hinv -
  cases q with
  | nil => exact step_empty_keeps_invariant rfl hinv
  | cons c rest =>
    obtain ⟨t, hexec, ht⟩ := exec_keeps_invariant (s := ⟨rest, h, d⟩) c hinv
    exact ⟨t, (step_cons c rest ⟨rest, h, d⟩).trans hexec, ht⟩

end Sys2Proof.Machine

/-! PROOFS. Wake sources in DOZE and during its entry, and the release of WAKE_N (R130, R131, R433, R443, R444, Tables 5-7 to 5-9). -/

namespace Sys2Proof.Machine
open Sys2Proof Sys2Proof.Safety

section
variable {d : Dev} (latch : Dev → Dev) (entry : Option Nat) (env : CalEnv)

/-- Once DOZE is held its entry is no longer under way. -/
theorem Dev.dozeEntering_dozing (hdoze : d.ms.dozeStep = 6) : d.dozeEntering = false := by simp [Dev.dozeEntering, hdoze]

/-- A wake source that fires in DOZE is latched and wakes the device (R130). -/
theorem Dev.dozeWake_dozing (hdoze : d.ms.dozeStep = 6) : d.dozeWake latch entry env = (latch d).wakeUp entry env := by
  simp only [Dev.dozeWake, Dev.dozeEntering_dozing hdoze, hdoze, beq_self_eq_true, Bool.false_eq_true, if_false, if_true]

/-- One that fires during DOZE entry is latched and undoes the entry (Table 5-9). -/
theorem Dev.dozeWake_entering (hentering : d.dozeEntering = true) : d.dozeWake latch entry env = (latch d).dozeUndo :=
  if_pos hentering

/-- Elsewhere it has no effect (R130). -/
theorem Dev.dozeWake_elsewhere (hentering : d.dozeEntering = false) (hdoze : d.ms.dozeStep ≠ 6) : d.dozeWake latch entry env = d := by
  simp only [Dev.dozeWake, hentering, beq_eq_false_iff_ne.mpr hdoze, Bool.false_eq_true, if_false]

end

section
variable {d : Dev} {bus : Nat} {frame : Option CanRx}

/-- A bus from entry step 4 on, armed for an event that an entry of the wake map matches, is a wake source that also records entry and frame (R443, R444). -/
theorem Dev.canDozeWake_matched {k : Nat} (hstep : 4 ≤ d.ms.dozeStep) (harmed : d.wakesCan bus frame = true) (hentry : d.wakeEntry bus frame = some k)
    (cal : CalEnv) : d.canDozeWake bus frame cal =
      d.dozeWake (fun d => (d.wakeCause frame.isSome frame.isNone false false false bus 0).wakeFrame k bus frame) (some k) cal := by
  refine (if_neg ?_).trans ?_
  · simp [harmed, hstep]
  · simp only [hentry]

/-- Where the bus is not armed, no entry matches, or DOZE and its entry's later steps are not under way, it wakes nothing (Table 5-7). -/
theorem Dev.canDozeWake_unmatched (cal : CalEnv) (h : d.ms.dozeStep < 4 ∨ d.wakesCan bus frame = false ∨ d.wakeEntry bus frame = none ∨
    (d.dozeEntering = false ∧ d.ms.dozeStep ≠ 6)) : d.canDozeWake bus frame cal = d := by
  unfold Dev.canDozeWake
  split
  · rfl
  · next harmed =>
    cases hentry : d.wakeEntry bus frame with
    | none => rfl
    | some k =>
      rcases h with hearly | hoff | hnone | ⟨hentering, hdoze⟩
      · exact absurd (by simp [hearly]; omega) harmed
      · exact absurd (by simp [hoff]) harmed
      · exact nomatch hnone.symm.trans hentry
      · exact Dev.dozeWake_elsewhere _ _ _ hentering hdoze

end

section
variable (s : State) (cal : CalEnv)

/-- DOZE_WAKE of a GPIO is a wake source where DOZE_GPIO enables it at that level (R130). -/
theorem dozeWake_gpio (n : Nat) (high : Bool) : Becomes (.dozeWake (.gpio n high) cal) s
    (if bitOf (s.dev.g F.BTL.DOZE_GPIO_EN) n = true ∧ bitOf (s.dev.g F.BTL.DOZE_GPIO_POL) n = high then
      s.dev.dozeWake (fun d => d.wakeCause false false false true false 0 n) none cal
    else s.dev) := by
  refine becomes_of_run (show execDozeWake (.gpio n high) cal s = _ from rfl) ?_
  simp only [Bool.and_eq_true, beq_iff_eq]

/-- DOZE_WAKE of PERST_N is one always (R130). -/
theorem dozeWake_perst : Becomes (.dozeWake .perst cal) s (s.dev.dozeWake (fun d => d.wakeCause false false false false true 0 0) none cal) := rfl

/-- DOZE_WAKE of a bus (R443). -/
theorem dozeWake_can (bus : Nat) (frame : Option CanRx) : Becomes (.dozeWake (.can bus frame) cal) s (s.dev.canDozeWake bus frame cal) := rfl

/-- DOZE_TIMER_EXPIRY wakes the device in DOZE where a time is set (R130). -/
theorem dozeTimerExpiry_becomes : Becomes (.dozeTimerExpiry cal) s
    (if s.dev.ms.dozeStep = 6 ∧ s.dev.g F.BTL.DOZE_TIMER_SEC ≠ 0 then (s.dev.wakeCause false false true false false 0 0).wakeUp none cal else s.dev) := by
  refine becomes_of_run (show execDozeTimerExpiry cal s = _ from rfl) ?_
  simp only [Bool.and_eq_true, beq_iff_eq, bne_iff_ne]
  split
  · next h => exact Dev.dozeWake_dozing _ _ _ h.1
  · rfl

/-- CAN_BUS_WAKE in DOZE and from DOZE entry step 4 on is DOZE_WAKE of the bus (R444). -/
theorem canBusWake_dozing (bus : Nat) (frame : Option CanRx) (h : (s.dev.dozeEntering && decide (4 ≤ s.dev.ms.dozeStep)) = true ∨ s.dev.ms.dozeStep = 6) :
    exec (.canBusWake bus frame cal) s = exec (.dozeWake (.can bus frame) cal) s := by
  have hrun : Becomes (.canBusWake bus frame cal) s (s.dev.canDozeWake bus frame cal) :=
    becomes_of_run (show execCanBusWake bus frame cal s = _ from rfl) (if_pos (by simpa using h))
  exact Eq.trans hrun (Eq.symm (dozeWake_can s cal bus frame))

/-- Elsewhere it wakes a controller that is armed for the event (R433). -/
theorem canBusWake_awake (bus : Nat) (frame : Option CanRx) (hentry : (s.dev.dozeEntering && decide (4 ≤ s.dev.ms.dozeStep)) = false)
    (hdoze : s.dev.ms.dozeStep ≠ 6) : Becomes (.canBusWake bus frame cal) s (if s.dev.wakesCan bus frame = true then s.dev.canWake bus else s.dev) :=
  becomes_of_run (show execCanBusWake bus frame cal s = _ from rfl) (if_neg (by rw [hentry]; simpa using hdoze))

/-- WAKE_N_RELEASE notes the configuration request, and releases WAKE_N where it is low and no wake is under way (R131, Table 5-8). -/
theorem wakeNRelease_becomes : Becomes .wakeNRelease s
    (if s.dev.pins.wakeNLow = true ∧ s.dev.ms.dozeStep = 0 then
      { s.dev with ms := { s.dev.ms with cfgSeen := true }, pins := { s.dev.pins with wakeNLow := false } }
    else { s.dev with ms := { s.dev.ms with cfgSeen := true } }) := by
  refine becomes_of_run (show execWakeNRelease s = _ from rfl) ?_
  simp only [Bool.and_eq_true, beq_iff_eq]

end

/-- Settles O16: GPIO, PERST_N and the timer, then the buses, then WAKE_N. -/
theorem wakeRows : Obligations.WakeRows := by
  refine ⟨?_, ?_, ?_, ?_, ?_, ?_, ?_, ?_, ?_, ?_, ?_, ?_, ?_, ?_, ?_, ?_⟩
  · intro s n high cal hdoze hen hpol
    have hwake := dozeWake_gpio s cal n high
    rwa [if_pos ⟨hen, hpol⟩, Dev.dozeWake_dozing _ _ _ hdoze] at hwake
  · intro s n high cal hentering hen hpol
    have hwake := dozeWake_gpio s cal n high
    rwa [if_pos ⟨hen, hpol⟩, Dev.dozeWake_entering _ _ _ hentering] at hwake
  · intro s n high cal hoff
    have hwake := dozeWake_gpio s cal n high
    rwa [if_neg (by rintro ⟨hen, hpol⟩; simp [hen, hpol] at hoff)] at hwake
  · intro s cal hdoze
    have hwake := dozeWake_perst s cal
    rwa [Dev.dozeWake_dozing _ _ _ hdoze] at hwake
  · intro s cal hentering
    have hwake := dozeWake_perst s cal
    rwa [Dev.dozeWake_entering _ _ _ hentering] at hwake
  · intro s n high cal hentering hdoze
    have hgpio := dozeWake_gpio s cal n high
    have hperst := dozeWake_perst s cal
    rw [Dev.dozeWake_elsewhere _ _ _ hentering hdoze] at hgpio hperst
    rw [ite_self] at hgpio
    exact ⟨hgpio, hperst⟩
  · intro s cal hdoze htime
    have hwake := dozeTimerExpiry_becomes s cal
    rwa [if_pos ⟨hdoze, htime⟩] at hwake
  · intro s cal hoff
    have hwake := dozeTimerExpiry_becomes s cal
    rwa [if_neg (by tauto)] at hwake
  · rintro s bus frame cal k d1 hdoze harmed hentry rfl
    have hwake := dozeWake_can s cal bus frame
    rwa [Dev.canDozeWake_matched (by omega) harmed hentry, Dev.dozeWake_dozing _ _ _ hdoze] at hwake
  · rintro s bus frame cal k d1 hentering hstep harmed hentry rfl
    have hwake := dozeWake_can s cal bus frame
    rwa [Dev.canDozeWake_matched hstep harmed hentry, Dev.dozeWake_entering _ _ _ hentering] at hwake
  · intro s bus frame cal h
    have hwake := dozeWake_can s cal bus frame
    rwa [Dev.canDozeWake_unmatched cal h] at hwake
  · intro s bus frame cal hentry hdoze harmed
    have hwake := canBusWake_awake s cal bus frame hentry hdoze
    rwa [if_pos harmed] at hwake
  · intro s bus frame cal hentry hdoze hoff
    have hwake := canBusWake_awake s cal bus frame hentry hdoze
    rwa [if_neg (by simp [hoff])] at hwake
  · intro s bus frame cal h
    exact canBusWake_dozing s cal bus frame h
  · intro s hlow hstep
    have hrelease := wakeNRelease_becomes s
    rwa [if_pos ⟨hlow, hstep⟩] at hrelease
  · intro s h
    have hrelease := wakeNRelease_becomes s
    rwa [if_neg (by rintro ⟨hlow, hstep⟩; simp [hlow, hstep] at h)] at hrelease

end Sys2Proof.Machine

/-! PROOFS. What the row of a host command that is ready becomes, by what its body answers. -/

namespace Sys2Proof.Machine
open Sys2Proof Sys2Proof.Safety

/-- The row of a command that is ready completes it with the reply of its body, on the device that its body leaves. -/
theorem becomes_of_ready {i : Instr} {s : State} {op id : Nat} {c : Cmd} {range : Dev → Cmd → Option Nat} {body : Dev → Cmd → Dev × Reply}
    {d : Dev} {r : Reply} (hexec : exec i s = run s (fun d => d.runCmd op id false range body)) (h : Ready s.dev op id c range)
    (hbody : body s.dev c = (d, r)) (hdone : r.later = false) : Becomes i s (d.finish id r) := by
  refine becomes_of_run hexec ?_
  rw [Dev.runCmd_ready h, hbody]
  exact Dev.reply_done d id hdone

/-- The same for a command that writes its data buffer. -/
theorem becomesWith_of_ready {i : Instr} {s : State} {op id : Nat} {c : Cmd} {range : Dev → Cmd → Option Nat}
    {body : List Host.Cell → Dev → Cmd → Dev × Reply × List Byte} {d : Dev} {r : Reply} {bs : List Byte}
    (hexec : exec i s = runHost s (fun m d => d.runCmdH m op id false range body)) (h : Ready s.dev op id c range)
    (hbody : body s.host s.dev c = (d, r, bs)) (hdone : r.later = false) : BecomesWith i s (d.finish id r) [(c.addr, bs)] := by
  have hrun := becomesWith_of_runCmdH hexec h (by rw [hbody]; exact hdone)
  rwa [hbody] at hrun

end Sys2Proof.Machine

/-! PROOFS. Boot, and the captain's commands on identity, sensors and debug ports (R107, R111, R122, R534 to R538, Table 19-1). -/

namespace Sys2Proof.Machine
open Sys2Proof Sys2Proof.Safety

section
variable {s : State}

/-- BOOT_START with a boot due on a device out of reset runs the boot (R107, R111). -/
theorem bootStart_boots (hdue : s.dev.pwr.bootDue = true) (hout : s.dev.pwr.inReset = false) (env : BootEnv) :
    Becomes (.bootStart env) s (s.dev.bootRun env) :=
  becomes_of_run (show execBootStart env s = _ from rfl) (if_neg (by simp [hdue, hout]))

/-- Otherwise it has no effect. -/
theorem bootStart_stays (h : s.dev.pwr.bootDue = false ∨ s.dev.pwr.inReset = true) (env : BootEnv) : NoEffect (.bootStart env) s :=
  becomes_of_run (show execBootStart env s = _ from rfl) (if_pos (by simpa using h))

end

/-- DEBUG_UNLOCK's range check: its length, a management slot of 4 to 7, a scope of two bits, and no block of attempts (R538). -/
def unlockRange (d : Dev) (c : Cmd) : Option Nat :=
  if c.len != 16 || c.par 24 1 < 4 || 7 < c.par 24 1 || 3 < c.par 25 1 || d.cpt.blocked then some 0 else none

/-- The device once an attempt to unlock a scope with the key of a slot has used up the challenge and been logged with its result (R538). -/
def Dev.unlockTried (d : Dev) (slot scope : Nat) (good : Bool) : Dev :=
  ({ d with cpt := { d.cpt with challenge := none } } : Dev).logRec 0x0A01 2 0 (toLE 1 slot ++ toLE 1 scope ++ toLE 1 (b2n good))

section
variable {s : State} {id : Nat} {c : Cmd} {d : Dev} (h : Ready s.dev 0x0909 id c unlockRange)
include h

/-- DEBUG_UNLOCK with the right answer opens the ports of its scope beside those that are open (R538). -/
theorem debugUnlock_right (hgood : s.dev.debugGood (c.par 24 1) (c.par 25 1) (c.buf s.host 16) = true)
    (hd : d = s.dev.unlockTried (c.par 24 1) (c.par 25 1) true) : Becomes (.debugUnlock id false) s
      (((d.w F.CPT.STAT_DEBUG_UART (b2n (d.on F.CPT.STAT_DEBUG_UART || bitOf (c.par 25 1) 0))).w F.CPT.STAT_DEBUG_JTAG
        (b2n (d.on F.CPT.STAT_DEBUG_JTAG || bitOf (c.par 25 1) 1))).finish id c.ok) := by
  subst hd
  refine becomes_of_ready (show execDebugUnlock id false s = _ from rfl) h ?_ rfl
  simp only [hgood, if_true]
  rfl

/-- With a wrong answer it raises DEBUG_AUTH, blocks further attempts and ends with RANGE (R538). -/
theorem debugUnlock_wrong (hbad : s.dev.debugGood (c.par 24 1) (c.par 25 1) (c.buf s.host 16) = false)
    (hd : d = s.dev.unlockTried (c.par 24 1) (c.par 25 1) false) : Becomes (.debugUnlock id false) s
      (({ d.raise E.CPT.DEBUG_AUTH with cpt := { d.cpt with blocked := true } } : Dev).finish id (c.bad stRange)) := by
  subst hd
  refine becomes_of_ready (show execDebugUnlock id false s = _ from rfl) h ?_ rfl
  simp only [hbad, Bool.false_eq_true, if_false]
  rfl

end

/-- Settles O17: the boot, then the captain's commands by their bodies. -/
theorem bootAndCaptain : Obligations.BootAndCaptain := by
  refine ⟨?_, ?_, ?_, ?_, ?_, ?_, ?_, ?_⟩
  · intro s env hdue hout
    exact bootStart_boots hdue hout env
  · intro s env h
    exact bootStart_stays h env
  · intro s id c h
    exact becomesWith_of_ready (show execCptInfo id false s = _ from rfl) h rfl rfl
  · intro s id c h
    exact becomesWith_of_ready (show execDebugChal id false s = _ from rfl) h rfl rfl
  · rintro s id c _ _ d1 h rfl rfl hgood hd1
    exact debugUnlock_right h hgood hd1
  · rintro s id c _ _ h rfl rfl hbad
    exact debugUnlock_wrong h hbad rfl
  · intro s
    exact becomes_of_run (show execDebugBlockExpiry s = _ from rfl) rfl
  · intro s id c h
    exact becomesWith_of_ready (show execSensorRead id false s = _ from rfl) h rfl rfl

end Sys2Proof.Machine

/-! PROOFS. Downloads, checks, activation, trial and the configuration blob (R122, R564 to R578, Tables 20-7 to 20-9). -/

namespace Sys2Proof.Machine
open Sys2Proof Sys2Proof.Safety

section
variable {s : State} {id : Nat} {c : Cmd}

/-- UPD_OPEN with a restart due ends with MODE (Table 20-10). -/
theorem updOpen_due (h : Ready s.dev 0x0A01 id c openRange) (hdue : s.dev.upd.due ≠ 0) (fate : FlashEnd) :
    Becomes (.updOpen id fate) s (s.dev.finish id (c.bad stMode)) :=
  becomes_of_ready (show execUpdOpen id fate s = _ from rfl) h (if_pos (bne_iff_ne.mpr hdue)) rfl

/-- UPD_OPEN that ends well leaves its bank EMPTY, ends the session before it and opens its own (R564, R566). -/
theorem updOpen_opens {i : Nat} {d : Dev} (h : Ready s.dev 0x0A01 id c openRange) (hdue : s.dev.upd.due = 0) (hbank : s.dev.openBank c = some i)
    (hd : d = (s.dev.setImgBank i (fun b => { factory := b.factory, erased := b.erased, cells := b.cells })).endSession) :
    Becomes (.updOpen id .done) s (({ d with upd := { d.upd with session := some i } }.w F.UPD.STAT_SESSION 1).finish id c.ok) := by
  subst hd
  refine becomes_of_ready (show execUpdOpen id .done s = _ from rfl) h ((if_neg (by simp [hdue])).trans ?_) rfl
  rw [hbank]
  rfl

/-- UPD_WRITE with a restart due ends with MODE (Table 20-10). -/
theorem updWrite_due (h : Ready s.dev 0x0A02 id c writeRange) (hdue : s.dev.upd.due ≠ 0) (fate : FlashEnd) :
    Becomes (.updWrite id false fate) s (s.dev.finish id (c.bad stMode)) :=
  becomes_of_ready (show execUpdWrite id false fate s = _ from rfl) h (if_pos (bne_iff_ne.mpr hdue)) rfl

/-- UPD_WRITE that ends well erases the sectors that the session has not touched, programs its octets, and counts and shows its pages (R565). -/
theorem updWrite_programs {sectors : List Nat} {d1 d2 d3 : Dev} (h : Ready s.dev 0x0A02 id c writeRange) (hdue : s.dev.upd.due = 0)
    (hsectors : sectors = (((writePages (c.par 24 4) c.len).map (fun p => p / 16)).eraseDups).filter (fun x => !s.dev.upd.pages.any (fun p => p / 16 == x)))
    (hd1 : d1 = (s.dev.freshBytes c.len).2.setImgBank (s.dev.upd.session.getD 0)
      (fun b => (sectors.foldl (fun (b : ImgBank) x => b.erase x) b).program (c.par 24 4) (c.buf s.host c.len)))
    (hd2 : d2 = { d1 with upd := { d1.upd with pages := d1.upd.pages ++ writePages (c.par 24 4) c.len } })
    (hd3 : d3 = (d2.w F.UPD.SESSION_PAGES_N d2.upd.pages.length).addc C.UPD.PAGES_WRITTEN (writePages (c.par 24 4) c.len).length) :
    Becomes (.updWrite id false .done) s (d3.finish id c.ok) := by
  subst hsectors hd1 hd2 hd3
  exact becomes_of_ready (show execUpdWrite id false .done s = _ from rfl) h (if_neg (by simp [hdue])) rfl

/-- UPD_CHECK of a bank that passes ends with OK (R567, R577). -/
theorem updCheck_passes (h : Ready s.dev 0x0A03 id c noRange) (hpass : s.dev.checkResult = none) :
    Becomes (.updCheck id) s (s.dev.finish id (c.ok (if s.dev.mode = mRecover then 65536 else 0))) := by
  refine becomes_of_ready (show execUpdCheck id s = _ from rfl) h ?_ rfl
  simp only [hpass, beq_iff_eq]

/-- UPD_CHECK of one that fails ends with RANGE and the failed check, which LAST_DETAIL shows where step 5 found it (R567, R579). -/
theorem updCheck_fails {r : Nat} (h : Ready s.dev 0x0A03 id c noRange) (hfail : s.dev.checkResult = some r) :
    Becomes (.updCheck id) s ((if r % 256 = 4 then s.dev.lastDetail 5 (r / 256) s.dev.staging else s.dev).finish id
      (c.bad stRange (r + if s.dev.mode = mRecover then 65536 else 0))) := by
  refine becomes_of_ready (show execUpdCheck id s = _ from rfl) h ?_ rfl
  simp only [hfail, Dev.when, beq_iff_eq]

end

section
variable {s : State} {id : Nat} {c : Cmd} (h : Ready s.dev 0x0A04 id c activateRange)
include h

/-- UPD_ACTIVATE in RECOVER programs GEN and TRIAL itself, and the restart is due unless the recovery pin led there (R577). -/
theorem updActivate_recover {d : Dev} (hmode : s.dev.mode = mRecover) (hd : d = (s.dev.programTrial s.dev.staging .done).endSession) :
    Becomes (.updActivate id) s ((if d.pwr.recoverPin = true then d else { d with upd := { d.upd with due := 1 } }).finish id c.ok) := by
  subst hd
  exact becomes_of_ready (show execUpdActivate id s = _ from rfl) h (if_pos (by simp [hmode])) rfl

variable (hmode : s.dev.mode ≠ mRecover)
include hmode

/-- A PRIMARY ends it with MODE (R505, R573). -/
theorem updActivate_primary (htwin : s.dev.twin = 2) : Becomes (.updActivate id) s (s.dev.finish id (c.bad stMode)) := by
  refine becomes_of_ready (show execUpdActivate id s = _ from rfl) h ((if_neg (by simpa using hmode)).trans ?_) rfl
  exact if_pos (by simp [htwin])

/-- A command that holds its token already ends with OK (R570). -/
theorem updActivate_held (htwin : s.dev.twin ≠ 2) (hheld : s.dev.cmdHolds c.id = true) : Becomes (.updActivate id) s (s.dev.finish id c.ok) := by
  refine becomes_of_ready (show execUpdActivate id s = _ from rfl) h ((if_neg (by simpa using hmode)).trans ?_) rfl
  simp only [beq_eq_false_iff_ne.mpr htwin, hheld, Bool.false_eq_true, if_false, if_true]

/-- Granted the tokens of every region the activation is accepted: a STANDBY leaves its pair, the session ends, and the restart is due (R505, R570). -/
theorem updActivate_granted {d1 d2 : Dev} (htwin : s.dev.twin ≠ 2) (hfree : s.dev.cmdHolds c.id = false)
    (hd1 : d1 = (s.dev.requestToken ⟨7, allRegions, some c.id, 0⟩).1) (hgrant : (s.dev.requestToken ⟨7, allRegions, some c.id, 0⟩).2 = .granted)
    (hd2 : d2 = if d1.twin = 3 then (d1.emit (.twinMsg 3 [])).leavePair 4 else d1) :
    Becomes (.updActivate id) s ({ d2.endSession with upd := { d2.endSession.upd with due := 1 } }.finish id c.ok) := by
  subst hd1 hd2
  refine becomes_of_ready (show execUpdActivate id s = _ from rfl) h ((if_neg (by simpa using hmode)).trans ?_) rfl
  simp only [beq_eq_false_iff_ne.mpr htwin, hfree, Dev.cmdToken, hgrant, beq_iff_eq, Bool.false_eq_true, if_false]
  rfl

end

/-- The device once step 1 of Table 20-7 has been taken, where it was not before. -/
def Dev.restartNoted (d : Dev) : Dev := if d.upd.backMode = none then d.restartBegins else d

/-- ACTIVATION_BEGIN takes that step under the same condition. -/
theorem Dev.restartNoted_eq (d : Dev) : d.when d.upd.backMode.isNone (fun d => d.restartBegins) = d.restartNoted := by
  unfold Dev.when Dev.restartNoted
  cases d.upd.backMode <;> rfl

section
variable {s : State} (fate : FlashEnd)

/-- ACTIVATION_BEGIN does nothing until its restart may begin (R570, R571). -/
theorem activationBegin_waits (h : s.dev.upd.due = 0 ∨ s.dev.restartWaits = true ∨ (s.dev.mode ≠ mRecover ∧
    (s.dev.on F.UPD.STAT_ACT_BUSY = false ∨ s.dev.on F.BTL.BOOT_STAT_TRANS = true ∨ s.dev.beforeQ = true))) : NoEffect (.activationBegin fate) s := by
  refine becomes_of_run (show execActivationBegin fate s = _ from rfl) ?_
  rcases h with hdue | hrecord | ⟨hmode, hbusy | htrans | hbefore⟩
  · simp [hdue]
  · simp [hrecord]
  · simp [hmode, hbusy]
  · simp [hmode, htrans]
  · simp [hmode, hbefore]

variable (hdue : s.dev.upd.due ≠ 0) (hrecord : s.dev.restartWaits = false)
include hdue hrecord

/-- In RECOVER the chip resets with cause 7 (R577). -/
theorem activationBegin_recover (hmode : s.dev.mode = mRecover) : Becomes (.activationBegin fate) s (s.dev.chipReset 7) := by
  refine becomes_of_run (show execActivationBegin fate s = _ from rfl) ?_
  simp [hdue, hrecord, hmode]

variable (hmode : s.dev.mode ≠ mRecover) (hbusy : s.dev.on F.UPD.STAT_ACT_BUSY = true) (htrans : s.dev.on F.BTL.BOOT_STAT_TRANS = false)
  (hq : s.dev.beforeQ = false)
include hmode hbusy htrans hq

/-- Elsewhere a restart that may begin enters QUIESCE from SERVICE; with that held, and from another mode, it drops what is queued, flushes the log,
saves the state, programs an activation's bank, and resets the chip unless power went meanwhile (R570 to R574, Table 20-7). -/
theorem activationBegin_begins {d1 d2 : Dev} (hd1 : d1 = ((s.dev.restartNoted.addc C.UPD.ACT_DROPS s.dev.restartNoted.queued).flushAll).saveAll)
    (hd2 : d2 = if s.dev.upd.due = 1 then d1.programTrial s.dev.staging fate else d1) :
    Becomes (.activationBegin fate) s
      (if s.dev.mode = mService then s.dev.restartNoted.startTrans mQuiesce 1 else if d2.pwr.inReset = true then d2 else d2.chipReset 7) := by
  subst hd1 hd2
  refine becomes_of_run (show execActivationBegin fate s = _ from rfl) ?_
  simp only [beq_eq_false_iff_ne.mpr hdue, hrecord, beq_eq_false_iff_ne.mpr hmode, hbusy, htrans, hq, Bool.or_self, Bool.not_true, Bool.false_eq_true,
    if_false, beq_iff_eq, Dev.restartNoted_eq]

end

section
variable {s : State}

/-- UPD_CONFIRM that ends well programs GOOD on the running bank, and the trial is over (R574). -/
theorem updConfirm_confirms {id : Nat} {c : Cmd} {d : Dev} (h : Ready s.dev 0x0A05 id c trialRange)
    (hd : d = (s.dev.setImgBank s.dev.runBank (fun b => { b with good := markGood })).trialOver) :
    Becomes (.updConfirm id .done) s (((d.inc C.UPD.CONFIRMS).logRec 0x0B03 1 0 (toLE 1 s.dev.runBank ++ toLE 4 (d.imgBank s.dev.runBank).gen)).finish id
      c.ok) := by
  subst hd
  exact becomes_of_ready (show execUpdConfirm id .done s = _ from rfl) h rfl rfl

/-- TRIAL_WARNING in a trial shows 60 s and fires vector 12 (R574). -/
theorem trialWarning_becomes (s : State) : Becomes .trialWarning s (if s.dev.on F.UPD.STAT_TRIAL = true then (s.dev.w F.UPD.WIN_LEFT_SEC 60).fireVec 12 else s.dev) :=
  rfl

/-- TRIAL_EXPIRY with no trial has no effect. -/
theorem trialExpiry_none (hover : s.dev.on F.UPD.STAT_TRIAL = false) : NoEffect .trialExpiry s :=
  becomes_of_run (show execTrialExpiry s = _ from rfl) (if_pos (by simp [hover]))

/-- TRIAL_EXPIRY in a trial gives the running bank up and fires vector 12; with REVERT_RESET the revert is due (R574). -/
theorem trialExpiry_expires {d : Dev} (htrial : s.dev.on F.UPD.STAT_TRIAL = true) (hd : d = ((s.dev.giveUp s.dev.runBank 4 0 0).trialOver).fireVec 12) :
    Becomes .trialExpiry s (if d.on F.UPD.CFG_REVERT_RESET = true then d.revertDue else d) := by
  subst hd
  exact becomes_of_run (show execTrialExpiry s = _ from rfl) (if_neg (by simp [htrial]))

end

/-- The check that CFG_WRITE of a blob fails, 0 for none: the schema is that of the running bank for SEL 0, of the staging bank for SEL 1 (R122, R578). -/
def Dev.cfgFail (d : Dev) (c : Cmd) (b : List Byte) : Nat :=
  if blobLen b ≠ c.len ∧ leAt b 0 4 = 0x43474C42 then 2 else blobFail b (d.imgBank (if c.par 24 1 = 0 then d.runBank else d.staging)).schema

section
variable {s : State} {id : Nat} {c : Cmd} (h : Ready s.dev 0x0A08 id c cfgRange)
include h

/-- CFG_WRITE of the running bank's blob is not taken in RECOVER (R577). -/
theorem cfgWrite_recover (hmode : s.dev.mode = mRecover) (hsel : c.par 24 1 = 0) (fate : FlashEnd) :
    Becomes (.cfgWrite id false fate) s (s.dev.finish id (c.bad stMode)) :=
  becomes_of_ready (show execCfgWrite id false fate s = _ from rfl) h (if_pos (by simp [hmode, hsel])) rfl

variable {b : List Byte} (htaken : s.dev.mode ≠ mRecover ∨ c.par 24 1 ≠ 0) (hb : b = c.buf s.host c.len)
include htaken hb

/-- Elsewhere CFG_WRITE of a blob that fails a check writes nothing and ends with RANGE and the check (R578). -/
theorem cfgWrite_refused {chk : Nat} (hchk : chk = s.dev.cfgFail c b) (hbad : chk ≠ 0) (fate : FlashEnd) :
    Becomes (.cfgWrite id false fate) s (s.dev.finish id (c.bad stRange (6 + 256 * chk))) := by
  subst hb hchk
  refine becomes_of_ready (show execCfgWrite id false fate s = _ from rfl) h ((if_neg (by simpa [or_iff_not_imp_left] using htaken)).trans ?_) rfl
  simp only [Bool.and_eq_true, bne_iff_ne, beq_iff_eq]
  exact if_pos hbad

/-- A blob that fails none is stored, counted and logged where it ends well (R578). -/
theorem cfgWrite_stores (hgood : s.dev.cfgFail c b = 0) : Becomes (.cfgWrite id false .done) s
    ((((({ s.dev with boot := { s.dev.boot with blob := b } } : Dev).inc C.UPD.CFG_WRITES).logRec 0x0B06 1 0
      (toLE 4 c.len ++ toLE 2 (leAt b 8 2))).finish id c.ok)) := by
  subst hb
  refine becomes_of_ready (show execCfgWrite id false .done s = _ from rfl) h ((if_neg (by simpa [or_iff_not_imp_left] using htaken)).trans ?_) rfl
  simp only [Bool.and_eq_true, bne_iff_ne, beq_iff_eq]
  exact if_neg (not_not_intro hgood)

end

/-- Settles O43: downloads and checks, activation and the restart, then the trial, UPD_INFO and the configuration blob. -/
theorem updateRows : Obligations.UpdateRows := by
  refine ⟨?_, ?_, ?_, ?_, ?_, ?_, ?_, ?_, ?_, ?_, ?_, ?_, ?_, ?_, ?_, ?_, ?_, ?_, ?_, ?_, ?_⟩
  · intro s id c i d1 h hdue hbank hd1
    exact updOpen_opens h hdue hbank hd1
  · intro s id c sectors d1 d2 d3 h hdue hsectors hd1 hd2 hd3
    exact updWrite_programs h hdue hsectors hd1 hd2 hd3
  · intro s id c fate hdue
    exact ⟨fun h => updOpen_due h hdue fate, fun h => updWrite_due h hdue fate⟩
  · rintro s id c flag h hpass rfl
    exact updCheck_passes h hpass
  · rintro s id c r flag h hfail rfl
    exact updCheck_fails h hfail
  · intro s id c d1 h hmode hd1
    exact updActivate_recover h hmode hd1
  · intro s id c h hmode hended
    by_cases htwin : s.dev.twin = 2
    · rw [if_pos htwin]
      exact updActivate_primary h hmode htwin
    · rw [if_neg htwin]
      exact updActivate_held h hmode htwin (hended.resolve_left htwin)
  · intro s id c d1 d2 h hmode htwin hfree hd1 hgrant hd2
    exact updActivate_granted h hmode htwin hfree hd1 hgrant hd2
  · intro s fate h
    exact activationBegin_waits fate h
  · intro s fate hdue hrecord hmode
    exact activationBegin_recover fate hdue hrecord hmode
  · intro s fate hdue hrecord hmode hbusy htrans hq
    have hbegin := activationBegin_begins fate hdue hrecord (by rw [hmode]; decide) hbusy htrans hq rfl rfl
    rwa [if_pos hmode] at hbegin
  · rintro s fate d0 d1 d2 hdue hrecord hmode hservice hbusy htrans hq rfl hd1 hd2
    have hbegin := activationBegin_begins fate hdue hrecord hmode hbusy htrans hq hd1 hd2
    rwa [if_neg hservice] at hbegin
  · rintro s id c d1 h rfl
    exact updConfirm_confirms h rfl
  · intro s id c h
    exact becomes_of_ready (show execUpdRevert id s = _ from rfl) h rfl rfl
  · intro s id c h
    exact becomesWith_of_ready (show execUpdInfo id false s = _ from rfl) h rfl rfl
  · intro s id c b h hmode hb hlen hgood
    exact cfgWrite_stores h (.inl hmode) hb ((if_neg (fun hbad => hbad.1 hlen)).trans hgood)
  · intro s id c b chk h htaken hb hchk hbad
    exact cfgWrite_refused h htaken hb hchk hbad .done
  · intro s id c fate h hmode hsel
    exact cfgWrite_recover h hmode hsel fate
  · intro s hover
    have hwarning := trialWarning_becomes s
    rw [if_neg (by simp [hover])] at hwarning
    exact ⟨hwarning, trialExpiry_none hover⟩
  · intro s htrial
    have hwarning := trialWarning_becomes s
    rwa [if_pos htrial] at hwarning
  · intro s d1 htrial hd1
    exact trialExpiry_expires htrial hd1

end Sys2Proof.Machine

/-! PROOFS. Gain and offset control of a Band die's receive chains, and a stuck converter (R149 to R152, R163). -/

namespace Sys2Proof.Machine
open Sys2Proof Sys2Proof.Safety

section
variable {s : State} {die chain : Nat}

/-- The step that AGC_PERIOD asks of a gain index `idx` for a target and a level in 0.1 dB: down above the target's window, up to at most 20 below it,
none within (R149). -/
def gainStep (target level : Int) (idx : Nat) : Option Nat :=
  if target + 20 < level then some (idx - 1) else if level < target - 20 then some (min 20 (idx + 1)) else none

/-- AGC_PERIOD of a receive chain takes the step asked for with automatic gain on, and else the fixed index (R149). -/
theorem agcPeriod_becomes (hband : isBand die = true) (hchain : chain < 8) (level : Int) : Becomes (.agcPeriod die chain level) s
    (if s.dev.g F.RXF.AGC_CFG_PERIOD die = 0 then s.dev.setGain die chain (s.dev.g F.RXF.AGC_FIX_IDX die)
    else (gainStep (-10 * (s.dev.g F.RXF.AGC_CFG_TARGET die : Int)) level (s.dev.g F.RXF.GAIN_IDX die 0 chain)).elim s.dev
      (s.dev.setGain die chain)) := by
  refine becomes_of_run (show execAgcPeriod die chain level s = _ from rfl) ((if_neg (by simp [hband, hchain])).trans ?_)
  simp only [beq_iff_eq, gainStep]
  split_ifs <;> rfl

/-- AGC_PERIOD on a die that is no Band die does nothing. -/
theorem agcPeriod_other (hband : isBand die = false) (level : Int) : NoEffect (.agcPeriod die chain level) s :=
  becomes_of_run (show execAgcPeriod die chain level s = _ from rfl) (if_pos (by simp [hband]))

/-- AGC_CLIP of a receive chain moves the index two down, unless automatic gain is off, there is no clip limit or the clips are too few (R149). -/
theorem agcClip_becomes (s : State) (die chain count : Nat) : Becomes (.agcClip die chain count) s
    (if isBand die = false ∨ 8 ≤ chain ∨ s.dev.g F.RXF.AGC_CFG_PERIOD die = 0 ∨ s.dev.g F.RXF.AGC_CFG_CLIP_LIM die = 0 ∨
        count < s.dev.g F.RXF.AGC_CFG_CLIP_LIM die then s.dev
    else s.dev.setGain die chain (s.dev.g F.RXF.GAIN_IDX die 0 chain - 2)) := by
  refine becomes_of_run (show execAgcClip die chain count s = _ from rfl) ?_
  simp only [Bool.or_eq_true, Bool.not_eq_true', beq_iff_eq, decide_eq_true_eq, or_assoc]

/-- DCO_COARSE_PERIOD of a receive chain steps I and then Q, each by the estimate that the period's samples give, unless its period is 0 (R151). -/
theorem dcoCoarsePeriod_becomes (s : State) (die chain : Nat) (samplesI samplesQ : List Int) : Becomes (.dcoCoarsePeriod die chain samplesI samplesQ) s
    (if isBand die = false ∨ 8 ≤ chain ∨ s.dev.g F.RXF.DCO_CFG_COARSE_PERIOD die = 0 then s.dev
    else (s.dev.dcoStep die chain 0 (s.dev.fineOf die chain 0 samplesI)).dcoStep die chain 1 (s.dev.fineOf die chain 1 samplesQ)) := by
  refine becomes_of_run (show execDcoCoarsePeriod die chain samplesI samplesQ s = _ from rfl) ?_
  simp only [Bool.or_eq_true, Bool.not_eq_true', beq_iff_eq, decide_eq_true_eq, or_assoc]

/-- CONVERTER_STUCK fails a chain of a Band die with cause 3 (R163). -/
theorem converterStuck_becomes (s : State) (die chain : Nat) : Becomes (.converterStuck die chain) s
    (if isBand die = true then s.dev.rxChainFail die chain 3 else s.dev) :=
  becomes_of_run (show execConverterStuck die chain s = _ from rfl) rfl

end

section
variable {d d1 d2 : Dev} {die chain q : Nat} {fine th : Int} (hth : th = 2 ^ 20 * (d.g F.RXF.DCO_CFG_COARSE_THRESH die : Int))
include hth

/-- An estimate within the threshold is stored and nothing else happens (R151). -/
theorem Dev.dcoStep_within (hle : fine ≤ th) (hge : -th ≤ fine) :
    d.dcoStep die chain q fine = d.setBand die (fun b => b.setFine (2 * chain + q) fine) := by
  subst hth
  exact if_pos (by simp only [hle, hge, decide_true, Bool.and_self])

variable {f : Fld} (hbeyond : th < fine ∨ fine < -th) (hf : f = if q = 0 then F.RXF.DCO_I else F.RXF.DCO_Q)
  (hd1 : d1 = d.setBand die (fun b => b.setFine (2 * chain + q) fine))
include hbeyond hf hd1

/-- A step that an estimate beyond the threshold calls for: the code moves by one toward cancellation and the estimate is corrected by the step's size;
where the code would leave its range the call is counted and the third fails the chain (R151, R152). -/
theorem Dev.dcoStep_beyond {next size : Int} {k n : Nat}
    (hnext : next = if 0 < fine then sext 8 (d.g f die 0 chain) - 1 else sext 8 (d.g f die 0 chain) + 1)
    (hk : k = 64 * chain + 2 * d.g F.RXF.GAIN_IDX die 0 chain + q) (hsize : size = 2 ^ 20 * (kvGet 0 (d1.band die).dcoSize k : Int))
    (hn : n = kvGet 0 (d1.band die).dcoOver (2 * chain + q) + 1)
    (hd2 : d2 = d1.setBand die (fun b => { b with dcoOver := kvSet 0 b.dcoOver (2 * chain + q) n })) :
    d.dcoStep die chain q fine =
      if next < -128 ∨ 127 < next then if 3 ≤ n then d2.rxChainFail die chain 1 else d2
      else (d1.setBand die (fun b => { b.setFine (2 * chain + q) (if 0 < fine then fine - size else fine + size) with
        dcoOver := kvSet 0 b.dcoOver (2 * chain + q) 0, dco := kvSet 256 b.dco k (ofSigned 8 next) })).w f (ofSigned 8 next) die 0 chain := by
  subst hth hf hd1 hnext hk hsize hn hd2
  have hout : ¬(decide (fine ≤ 2 ^ 20 * (d.g F.RXF.DCO_CFG_COARSE_THRESH die : Int)) &&
      decide (-(2 ^ 20 * (d.g F.RXF.DCO_CFG_COARSE_THRESH die : Int)) ≤ fine)) = true := by
    simp only [Bool.and_eq_true, decide_eq_true_eq]
    omega
  refine (if_neg hout).trans ?_
  simp only [beq_iff_eq, Bool.or_eq_true, decide_eq_true_eq]

end

/-- Settles O21: the gain rows, then DCO_COARSE_PERIOD with the three outcomes of its step, then a stuck converter. -/
theorem gainAndOffset : Obligations.GainAndOffset := by
  refine ⟨?_, ?_, ?_, ?_, ?_, ?_, ?_, ?_, ?_, ?_, ?_, ?_, ?_⟩
  · intro s die chain level hband hchain hauto habove
    have hagc := agcPeriod_becomes (s := s) hband hchain level
    rwa [if_neg hauto, gainStep, if_pos habove] at hagc
  · intro s die chain level hband hchain hauto hbelow
    have hagc := agcPeriod_becomes (s := s) hband hchain level
    rwa [if_neg hauto, gainStep, if_neg (by omega), if_pos hbelow] at hagc
  · intro s die chain level hband hchain hauto habove hbelow
    have hagc := agcPeriod_becomes (s := s) hband hchain level
    rwa [if_neg hauto, gainStep, if_neg habove, if_neg hbelow] at hagc
  · intro s die chain level hband hchain hfixed
    have hagc := agcPeriod_becomes (s := s) hband hchain level
    rwa [if_pos hfixed] at hagc
  · intro s die chain count hband hchain hauto hlimit hclips
    have hclip := agcClip_becomes s die chain count
    rwa [if_neg (by simp [hband, hauto, hlimit]; omega)] at hclip
  · intro s die chain count h
    have hclip := agcClip_becomes s die chain count
    rwa [if_pos h] at hclip
  · intro s die chain samplesI samplesQ hband hchain hperiod
    have hcoarse := dcoCoarsePeriod_becomes s die chain samplesI samplesQ
    rwa [if_neg (by simp [hband, hchain, hperiod])] at hcoarse
  · intro s die chain samplesI samplesQ h
    have hcoarse := dcoCoarsePeriod_becomes s die chain samplesI samplesQ
    rwa [if_pos h] at hcoarse
  · intro d die chain q fine th hth hle hge
    exact Dev.dcoStep_within hth hle hge
  · intro d die chain q fine th f next d1 k size hth hbeyond hf hnext hlow hhigh hd1 hk hsize
    rw [Dev.dcoStep_beyond hth hbeyond hf hd1 hnext hk hsize rfl rfl, if_neg (by omega)]
  · intro d die chain q fine th f d1 n d2 hth hbeyond hf hend hd1 hn hd2
    rw [Dev.dcoStep_beyond hth hbeyond hf hd1 rfl rfl rfl hn hd2, if_pos (by split_ifs at hend ⊢ <;> omega)]
  · intro s die chain hband
    have hstuck := converterStuck_becomes s die chain
    rwa [if_pos hband] at hstuck
  · intro s die chain level hband
    have hstuck := converterStuck_becomes s die chain
    rw [if_neg (by simp [hband])] at hstuck
    exact ⟨hstuck, agcPeriod_other hband level⟩

end Sys2Proof.Machine

/-! PROOFS. Frames of a transmit chain: descriptors, starts, ends, underruns and the mask monitor (R142, R161, R205, R206, R212 to R215, Table 8-4). -/

namespace Sys2Proof.Machine
open Sys2Proof Sys2Proof.Safety

section
variable {s : State} {die : Nat}

section
variable (hair : isAir die = true) (hup : s.dev.dieUp die = true)
include hair hup

/-- The die hands over descriptors. -/
theorem Dev.handsOver : ¬(!isAir die || !s.dev.dieUp die) = true := by simp [hair, hup]

/-- TX_DESCRIPTOR of a planned transmission takes it off the plan when its turn has come; it is handed over, or backs off again where it contends for a
busy gang (R205, R215, Table 9-8). -/
theorem txDescriptor_planned {id : Nat} {x : Tx} {d : Dev} (hfind : (s.dev.airD die).planned.find? (fun x => x.id == id) = some x)
    (hturn : s.dev.turnOf die x = true) (hd : d = s.dev.setAir die (fun a => { a with planned := a.planned.filter (fun y => y.id != id) })) :
    Becomes (.txDescriptor die (.planned id)) s
      (if x.csma = true ∧ d.gangBusy die x.channel = true then d.backOff die x else d.takeDescriptor die x) := by
  subst hd
  refine becomes_of_run (show execTxDescriptor die (.planned id) s = _ from rfl) ((if_neg (Dev.handsOver hair hup)).trans ?_)
  simp only [hfind, hturn, Bool.not_true, Bool.false_eq_true, if_false, Bool.and_eq_true]

/-- TX_DESCRIPTOR of a test transmission hands it over with the next number (R205). -/
theorem txDescriptor_test {t : TxSpec} {x : Tx}
    (hx : x = { id := (s.dev.airD die).next, kind := t.kind, channel := t.channel, mode := t.mode, map := t.map, mapWord := 0, rate := t.rate,
                psdu := t.psdu, wakeCode := t.wakeCode, wakeIdx := t.wakeIdx, power := t.power, start := s.dev.time.lt + t.startUs * tickUs,
                chain := 0, retune := false, cls := 0, who := .test }) :
    Becomes (.txDescriptor die (.test t)) s ((s.dev.setAir die (fun a => { a with next := a.next + 1 })).takeDescriptor die x) := by
  subst hx
  exact becomes_of_run (show execTxDescriptor die (.test t) s = _ from rfl) (if_neg (Dev.handsOver hair hup))

end

/-- TX_DESCRIPTOR on no Air die that is up does nothing. -/
theorem txDescriptor_down (h : isAir die = false ∨ s.dev.dieUp die = false) (sel : DescSel) : NoEffect (.txDescriptor die sel) s :=
  becomes_of_run (show execTxDescriptor die sel s = _ from rfl) (if_pos (by simpa only [Bool.or_eq_true, Bool.not_eq_true'] using h))

/-- TX_DESCRIPTOR of a number that is not planned, or whose turn has not come, does nothing (R215). -/
theorem txDescriptor_notDue {id : Nat}
    (h : ∀ x, (s.dev.airD die).planned.find? (fun x => x.id == id) = some x → s.dev.turnOf die x = false) :
    NoEffect (.txDescriptor die (.planned id)) s := by
  refine becomes_of_run (show execTxDescriptor die (.planned id) s = _ from rfl) (ite_eq_left_iff.mpr fun _ => ?_)
  cases hfind : (s.dev.airD die).planned.find? (fun x => x.id == id) with
  | none => simp only [hfind]
  | some x => simp only [hfind, h x hfind, Bool.not_false, if_true]

variable {chain : Nat}

section
variable (hband : isBand die = true) (hchain : chain < 4)
include hband hchain

/-- One of the four transmit chains of a Band die. -/
theorem isTxChain : ¬(!isBand die || decide (4 ≤ chain)) = true := by simp [hband, hchain]

section
variable {x : Tx} {d : Dev} (hnext : s.dev.nextStart (die - 2) chain = some x)
  (hd : d = s.dev.setAir (die - 2) (fun a => { a with handed := a.handed.filter (fun y => y.id != x.id) }))
include hnext hd

/-- TX_START takes the chain's next transmission off those handed over and starts its frame where no cause refuses it (R161). -/
theorem txStart_starts (hcause : d.startCause die chain x = none) : Becomes (.txStart die chain) s (d.startFrame die chain x) := by
  subst hd
  refine becomes_of_run (show execTxStart die chain s = _ from rfl) ((if_neg (isTxChain hband hchain)).trans ?_)
  simp only [hnext, hcause]

/-- A refused start is counted; it moves or waits where the chain calibrates, is dropped by causes 5 to 9, and else waits; then a calibration starts that
may (R161, R218, Tables 6-6 and 8-4). -/
theorem txStart_refused {cause : Nat} (hcause : d.startCause die chain x = some cause) : Becomes (.txStart die chain) s
    ((if cause = 2 then (d.countRefusal die chain x cause).moveStart (die - 2) chain x
      else if 5 ≤ cause ∧ cause ≤ 9 then (d.countRefusal die chain x cause).txDropped (die - 2) x
      else (d.countRefusal die chain x cause).txWaits (die - 2) x).calKick die) := by
  subst hd
  refine becomes_of_run (show execTxStart die chain s = _ from rfl) ((if_neg (isTxChain hband hchain)).trans ?_)
  simp only [hnext, hcause, beq_iff_eq, Bool.and_eq_true, decide_eq_true_eq]

end

variable {x : Tx} (hair : (s.dev.chain die chain).air = some x)
include hair

/-- TX_FRAME_END puts the frame on the air output and brings its chain back to rest (R142, R197). -/
theorem txFrameEnd_ends {d1 d2 : Dev}
    (hd1 : d1 = ((s.dev.emit (.radiated die chain x.kind x.channel x.psdu (s.dev.wave (die - 2) chain x))).airedTx die chain x).txSent (die - 2) x)
    (hd2 : d2 = (d1.outputsOff die chain).setChain die chain (fun k => { k with air := none })) :
    Becomes (.txFrameEnd die chain) s ((d2.txIdle die chain).calSettle die) := by
  subst hd1 hd2
  refine becomes_of_run (show execTxFrameEnd die chain s = _ from rfl) ((if_neg (isTxChain hband hchain)).trans ?_)
  simp only [hair]

/-- TX_UNDERRUN of a frame counts, cuts it off, drops it and raises TX_UNDERRUN (R206). -/
theorem txUnderrun_cuts : Becomes (.txUnderrun die chain) s
    (((s.dev.inc C.TXB.UNDERRUN (die - 2)).cutAndDrop die chain).raise E.TXB.TX_UNDERRUN (die - 2)) :=
  becomes_of_run (show execTxUnderrun die chain s = _ from rfl) (if_neg (by simp [hband, hchain, hair]))

variable {windows : List (List (Int × Nat))} (hcnt : s.dev.g F.TXF.MASK_CFG_CNT die chain ≠ 0)
include hcnt

/-- The mask monitor records the ratio of the last window, and no more while the last CNT windows do not each violate the mask (R212). -/
theorem maskCut_records (htrip : s.dev.maskTrip die chain windows x = false) :
    Becomes (.maskCut die chain windows) s (s.dev.w F.TXF.MASK_STAT_ACR (s.dev.maskRatio die windows x) die chain) := by
  refine becomes_of_run (show execMaskCut die chain windows s = _ from rfl) ((if_neg (isTxChain hband hchain)).trans ?_)
  simp only [hair, Option.elim_some, beq_iff_eq, hcnt, if_false, htrip, Bool.not_false, if_true]

/-- Where the last CNT windows each violate the mask the frame is cut off and dropped, and a chain with MAX cut-offs in 10 s that is not held yet is held
and its calibration requested (R213, R214). -/
theorem maskCut_trips {cuts : List Nat} {max : Nat} {d1 d2 d3 : Dev} (htrip : s.dev.maskTrip die chain windows x = true)
    (hcuts : cuts = (s.dev.chain die chain).cuts.filter (fun t => decide (s.dev.time.lt < t + 10 * tickSec)) ++ [s.dev.time.lt])
    (hd1 : d1 = s.dev.setChain die chain (fun k => { k with cuts := cuts }))
    (hd2 : d2 = (d1.w F.TXF.MASK_STAT_ACR (s.dev.maskRatio die windows x) die chain).w F.TXF.MASK_STAT_CUTS_10S (min 15 cuts.length) die chain)
    (hd3 : d3 = ((d2.inc C.TXF.MASK_CUT_CNT die chain).cutAndDrop die chain).raise E.TXF.MASK_CUT die chain)
    (hmax : max = d3.g F.TXB.MASK_TRIP_MAX (die - 2)) :
    Becomes (.maskCut die chain windows) s
      (if max = 0 ∨ cuts.length < max ∨ bitOf (d3.g F.TXB.HELD_CHAINS (die - 2)) chain = true then d3
      else (d3.wBit F.TXB.HELD_CHAINS chain true (die - 2)).calRequest die (2 ^ txRegion die) 1 (2 ^ chain)) := by
  refine becomes_of_run (show execMaskCut die chain windows s = _ from rfl) ((if_neg (isTxChain hband hchain)).trans ?_)
  simp only [hair, Option.elim_some, beq_iff_eq, hcnt, if_false, htrip, Bool.not_true, Bool.false_eq_true]
  rw [← hcuts, ← hd1, ← hd2, ← hd3, ← hmax]
  simp only [Bool.or_eq_true, beq_iff_eq, decide_eq_true_eq, or_assoc]

end

/-- A row of a transmit chain that needs a transmission of it leaves the device alone where there is none. -/
theorem txChain_left {d e : Dev} {o : Option Tx} (h : isBand die = false ∨ 4 ≤ chain ∨ o = none) (hnone : o = none → e = d) :
    (if (!isBand die || decide (4 ≤ chain)) = true then d else e) = d := by
  rcases h with h | h | h
  · exact if_pos (by simp [h])
  · exact if_pos (by simp [h])
  · rw [hnone h, ite_self]

section
variable (h : isBand die = false ∨ 4 ≤ chain ∨ (s.dev.chain die chain).air = none)
include h

/-- TX_FRAME_END of a chain with nothing on air does nothing. -/
theorem txFrameEnd_none : NoEffect (.txFrameEnd die chain) s :=
  becomes_of_run (show execTxFrameEnd die chain s = _ from rfl) (txChain_left h fun hnone => by simp only [hnone])

/-- TX_UNDERRUN of a chain with nothing on air does nothing. -/
theorem txUnderrun_none : NoEffect (.txUnderrun die chain) s :=
  becomes_of_run (show execTxUnderrun die chain s = _ from rfl)
    (if_pos (by simpa only [Bool.or_eq_true, Bool.not_eq_true', decide_eq_true_eq, Option.isNone_iff_eq_none, or_assoc] using h))

/-- MASK_CUT of a chain with nothing on air does nothing. -/
theorem maskCut_none (windows : List (List (Int × Nat))) : NoEffect (.maskCut die chain windows) s :=
  becomes_of_run (show execMaskCut die chain windows s = _ from rfl) (txChain_left h fun hnone => by rw [hnone]; rfl)

end

/-- MASK_CUT with the monitor of its chain off does nothing (R212). -/
theorem maskCut_off (hoff : s.dev.g F.TXF.MASK_CFG_CNT die chain = 0) (windows : List (List (Int × Nat))) :
    NoEffect (.maskCut die chain windows) s := by
  refine becomes_of_run (show execMaskCut die chain windows s = _ from rfl) (ite_eq_left_iff.mpr fun _ => ?_)
  cases (s.dev.chain die chain).air with
  | none => rfl
  | some x => exact if_pos (by simp [hoff])

end

/-- Settles O23: descriptors, starts, the end of a frame, underruns, and the mask monitor. -/
theorem transmitFrames : Obligations.TransmitFrames := by
  refine ⟨?_, ?_, ?_, ?_, ?_, ?_, ?_, ?_, ?_, ?_, ?_, ?_, ?_⟩
  · intro s die id x d1 hair hup hfind hturn hd1
    exact txDescriptor_planned hair hup hfind hturn hd1
  · intro s die t x hair hup hx
    exact txDescriptor_test hair hup hx
  · rintro s die id sel (h | h | ⟨rfl, hnone⟩)
    · exact txDescriptor_down (.inl h) sel
    · exact txDescriptor_down (.inr h) sel
    · exact txDescriptor_notDue fun x hfind => nomatch hnone.symm.trans hfind
  · intro s die id x hfind hturn
    refine txDescriptor_notDue fun y hy => ?_
    cases hfind.symm.trans hy
    exact hturn
  · intro s die chain x d1 hband hchain hnext hd1 hcause
    exact txStart_starts hband hchain hnext hd1 hcause
  · rintro s die chain x cause d1 d2 hband hchain hnext hd1 hcause rfl
    exact txStart_refused hband hchain hnext hd1 hcause
  · intro s die chain h
    exact becomes_of_run (show execTxStart die chain s = _ from rfl) (txChain_left h fun hnone => by simp only [hnone])
  · intro s die chain x d1 d2 hband hchain hair hd1 hd2
    exact txFrameEnd_ends hband hchain hair hd1 hd2
  · intro s die chain x hband hchain hair
    exact txUnderrun_cuts hband hchain hair
  · intro s die chain windows h
    exact ⟨txFrameEnd_none h, txUnderrun_none h, maskCut_none h windows⟩
  · intro s die chain windows hoff
    exact maskCut_off hoff windows
  · intro s die chain windows x hband hchain hair hcnt htrip
    exact maskCut_records hband hchain hair hcnt htrip
  · intro s die chain windows x cuts max d1 d2 d3 hband hchain hair hcnt htrip hcuts hd1 hd2 hd3 hmax
    exact maskCut_trips hband hchain hair hcnt htrip hcuts hd1 hd2 hd3 hmax

end Sys2Proof.Machine

/-! PROOFS. The air MAC: superframes and slots, frames received, downlinks, the planner's requests, and wake-up calls (R226, R229, R238, R241 to R249). -/

namespace Sys2Proof.Machine
open Sys2Proof Sys2Proof.Safety

section
variable {s : State} {die : Nat}

/-- What keeps a superframe from beginning: no Air die that is up, or none that runs and a mode that starts none (R226, R228). -/
theorem Dev.superframeIdle_iff (d : Dev) (die : Nat) :
    (!isAir die || !d.dieUp die || !((d.airD die).running || d.mode == mService || d.mode == mShadow)) = true ↔
      isAir die = false ∨ d.dieUp die = false ∨ (d.airD die).running = false ∧ d.mode ≠ mService ∧ d.mode ≠ mShadow := by
  simp only [Bool.or_eq_true, Bool.not_eq_true', Bool.or_eq_false_iff, beq_eq_false_iff_ne, or_assoc, and_assoc]

/-- SUPERFRAME_BOUNDARY keeps what the past superframe was, makes a waiting commit live, and begins the next superframe (R226 to R229, R257, R258). -/
theorem superframeBoundary_begins {n : Nat} {step : Int} {sp : SfPast} {d1 d2 : Dev} (hair : isAir die = true) (hup : s.dev.dieUp die = true)
    (hruns : (s.dev.airD die).running = true ∨ s.dev.mode = mService ∨ s.dev.mode = mShadow) (hn : n = s.dev.nextSf die)
    (hstep : step = s.dev.slewStep die)
    (hsp : sp = { start := (s.dev.airD die).sfStart, num := s.dev.g F.AMC.SF_NUM_NUM die, adj := step,
                  slots := if (s.dev.airD die).running = true then
                      (s.dev.airD die).rephase.elim (s.dev.sfSlots die) (fun r => s.dev.lastSlots die r.1) else 0 })
    (hd1 : d1 = s.dev.amcLive die)
    (hd2 : d2 = (d1.setAir die (fun a => { a with
        sfStart := d1.time.lt, slot := 0, slotStart := d1.time.lt, running := true, rephase := none, slew := a.slew - step, past := sp })).w
      F.AMC.SF_NUM_NUM n die) :
    Becomes (.superframeBoundary die) s (((((d2.nbrTick die).sfEvent die).planBeacons die).slotBegin die).showDuty die) := by
  subst hn hstep hsp hd1 hd2
  refine becomes_of_run (show execSuperframeBoundary die s = _ from rfl) (if_neg ?_)
  rw [Dev.superframeIdle_iff]
  rcases hruns with h | h | h <;> simp [hair, hup, h]

/-- SLOT_START of a running superframe that is not in its last slot begins the next slot (R229, R258). -/
theorem slotStart_becomes {last : Nat} (hlast : last = (s.dev.airD die).rephase.elim (s.dev.sfSlots die) (fun r => s.dev.lastSlots die r.1)) :
    Becomes (.slotStart die) s
      (if isAir die = false ∨ s.dev.dieUp die = false ∨ (s.dev.airD die).running = false ∨ last ≤ (s.dev.airD die).slot + 1 then s.dev
      else (s.dev.setAir die (fun a => { a with slot := a.slot + 1, slotStart := s.dev.time.lt })).slotBegin die) := by
  subst hlast
  refine becomes_of_run (show execSlotStart die s = _ from rfl) ?_
  simp only [Bool.or_eq_true, Bool.not_eq_true', decide_eq_true_eq, or_assoc]

/-- AIR_MAC_RX takes the oldest frame that no other row takes: legacy frames and native ones of a family but F2 are passed on, an F2 node frame is counted
in FMT_DROP, another in FOREIGN, and a beacon of its own has no further effect (R238). -/
theorem airMacRx_taken {f : RxFrame} {rest : List RxFrame} {d : Dev} (hair : isAir die = true) (hup : s.dev.dieUp die = true)
    (hmac : (s.dev.airD die).macIn = f :: rest) (hother : s.dev.rxOther die f = false) (hd : d = s.dev.setAir die (fun a => { a with macIn := rest })) :
    Becomes (.airMacRx die) s
      (if 4 ≤ f.family then d.rxLegacy die f
      else if f.family = 2 then
        if leAt f.psdu 0 1 % 8 = 0 ∧ f.psdu.length = 18 then d
        else if leAt f.psdu 0 1 % 8 = 1 ∨ leAt f.psdu 0 1 % 8 = 2 ∨ leAt f.psdu 0 1 % 8 = 5 then d.inc C.AMC.FMT_DROP die
        else d.inc C.AMC.FOREIGN die
      else d.rxNative die f) := by
  refine becomes_of_run (show execAirMacRx die s = _ from rfl) ((Dev.takeRx_taken hair hup hmac (by rw [hother]; rfl) hd _).trans ?_)
  simp only [beq_iff_eq]
  generalize leAt f.psdu 0 1 % 8 = type
  rcases type with _ | _ | _ | _ | _ | _ | type <;> simp

/-- Whether this slot is the listen slot of a node (R241). -/
def Dev.listensNow (d : Dev) (die : Nat) (t : Detail) : Bool :=
  t.assigned && t.aBand == die - 3 && t.listen && t.aSlot + 1 == (d.airD die).slot && t.due (d.g F.AMC.SF_NUM_NUM die)

section
variable {id : Nat} {f : DlFrame} {e : NodeEnt} {start : Nat}
  (hstart : start = (s.dev.airD die).slotStart + s.dev.g F.AMC.SLOT_TIME_DL_OFS die * tickUs)
  (hfind : (s.dev.airD die).dl.find? (fun f => f.id == id) = some f) (hnode : s.dev.nodeOf ⟨f.tag, f.tenant⟩ = some e)
include hstart hfind hnode

/-- LISTEN_SLOT_DOWNLINK of a downlink in the store for a known node: unless something holds it back, the node is made desynchronised where its drift may
be too large, and else the downlink is planned and marked on the air where it finds a chain (R241, R248, R249). -/
theorem listenSlotDownlink_becomes : Becomes (.listenSlotDownlink die id) s
    (if isAir die = false ∨ f.leg = true ∨ f.onAir = true ∨ s.dev.listensNow die e.det = false ∨ e.det.desync = true ∨
        start < f.readyAt + 100 * tickUs ∨ s.dev.airGate (die - 3) f.cls start = false then s.dev
    else if s.dev.driftBeyond die e.det (start + s.dev.ptOfs) = true then s.dev.desync die ⟨f.tag, f.tenant⟩
    else
      let r := s.dev.planTx die (Tx.of 3 e.det.aCh 0 0 start (s.dev.g F.AMC.PWR_DL die) f.psdu f.cls (.downlink id)) (some (s.dev.slotLimit die))
      if r.2 = true then r.1.setDl die id (fun f => { f with onAir := true, endAt := 0 }) else r.1) := by
  subst hstart
  refine becomes_of_run (show execListenSlotDownlink die id s = _ from rfl) ?_
  simp only [hfind, hnode, Dev.listensNow, Bool.or_eq_true, Bool.not_eq_true', decide_eq_true_eq, or_assoc]

end

/-- LISTEN_SLOT_DOWNLINK of a downlink that is not in the store does nothing. -/
theorem listenSlotDownlink_none {id : Nat} (h : (s.dev.airD die).dl.find? (fun f => f.id == id) = none) : NoEffect (.listenSlotDownlink die id) s := by
  refine becomes_of_run (show execListenSlotDownlink die id s = _ from rfl) ?_
  simp only [h]

/-- NODE_ACK_MISSING of a downlink that has been sent counts; with its sends used up it expires and is reported, and else it waits again and is reported
unacknowledged (R242, R249). -/
theorem nodeAckMissing_sent {id : Nat} {f : DlFrame} {d : Dev} (hfind : (s.dev.airD die).dl.find? (fun f => f.id == id && f.endAt != 0) = some f)
    (hd : d = s.dev.inc C.AMC.DL_UNACK die) : Becomes (.nodeAckMissing die id) s
      (if d.g F.AMC.REPLY_CFG_RETRY die ≤ f.sends then
        ((d.setAir die (fun a => { a with dl := a.dl.filter (fun x => x.id != id) })).inc C.AMC.DL_EXPIRED die).outcome ⟨f.tag, f.tenant⟩
          (.expired id f.tag f.tenant)
      else (d.setDl die id (fun f => { f with onAir := false, endAt := 0 })).outcome ⟨f.tag, f.tenant⟩ (.unacked id f.tag f.tenant)) := by
  subst hd
  refine becomes_of_run (show execNodeAckMissing die id s = _ from rfl) ?_
  simp only [hfind]

/-- NODE_ACK_MISSING of a downlink that has not been sent does nothing. -/
theorem nodeAckMissing_none {id : Nat} (h : (s.dev.airD die).dl.find? (fun f => f.id == id && f.endAt != 0) = none) :
    NoEffect (.nodeAckMissing die id) s := by
  refine becomes_of_run (show execNodeAckMissing die id s = _ from rfl) ?_
  simp only [h]

/-- What pauses the planner of an Air die: QUIESCE, and a rebuild of the load map (R127, R245, Table 9-11). -/
theorem Dev.plannerPaused_iff (d : Dev) (die : Nat) :
    (!isAir die || !d.dieUp die || d.act == mQuiesce || (d.airD die).planBlocked) = true ↔
      isAir die = false ∨ d.dieUp die = false ∨ d.act = mQuiesce ∨ (d.airD die).planBlocked = true := by
  simp only [Bool.or_eq_true, Bool.not_eq_true', beq_iff_eq, or_assoc]

/-- SCHED_REQ takes the oldest request, which the planner answers where the device knows the node (R244, R245). -/
theorem schedReq_taken {r : SchedReq} {rest : List SchedReq} {d : Dev} (hair : isAir die = true) (hup : s.dev.dieUp die = true)
    (hact : s.dev.act ≠ mQuiesce) (hfree : (s.dev.airD die).planBlocked = false) (hreqs : (s.dev.airD die).reqs = r :: rest)
    (hd : d = s.dev.setAir die (fun a => { a with reqs := rest })) :
    Becomes (.schedReq die) s ((d.nodeOf ⟨r.tag, r.tenant⟩).elim d (fun e => d.planFor die e r)) := by
  refine becomes_of_run (show execSchedReq die s = _ from rfl) ?_
  simp only [hreqs, ← hd]
  refine (if_neg (by rw [Dev.plannerPaused_iff]; simp [hair, hup, hact, hfree])).trans ?_
  cases d.nodeOf ⟨r.tag, r.tenant⟩ with
  | none => rfl
  | some e => rfl

/-- SCHED_REQ with no request, or with the planner paused, does nothing. -/
theorem schedReq_none (h : (s.dev.airD die).reqs = [] ∨ isAir die = false ∨ s.dev.dieUp die = false ∨ s.dev.act = mQuiesce ∨
    (s.dev.airD die).planBlocked = true) : NoEffect (.schedReq die) s := by
  refine becomes_of_run (show execSchedReq die s = _ from rfl) ?_
  cases hreqs : (s.dev.airD die).reqs with
  | nil => rfl
  | cons r rest => exact if_pos ((Dev.plannerPaused_iff _ _).mpr (h.resolve_left (by simp [hreqs])))

section
variable (s die) (tag tenant : Nat)

/-- WAKE_CALL_SCHEDULE notes a call for a class W node with a downlink not called for and no call (R247). -/
theorem wakeCallSchedule_becomes : Becomes (.wakeCallSchedule die tag tenant) s
    (if isAir die = false ∨ s.dev.g F.AMC.WAKE_CFG_CALLS die = 0 ∨ (s.dev.nodeOf ⟨tag, tenant⟩).elim false (fun e => e.det.classW) = false ∨
        (s.dev.dlOf die ⟨tag, tenant⟩).any (fun f => !f.called && !f.leg) = false ∨
        (s.dev.airD die).calls.any (fun c => c.tag == tag && c.tenant == tenant) = true then s.dev
    else s.dev.setAir die (fun a => { a with
      calls := a.calls ++ [{ tag := tag, tenant := tenant, calls := 0, sent := false }]
      dl := mapIf (fun f => f.tag == tag && f.tenant == tenant) (fun f => { f with called := true }) a.dl })) := by
  refine becomes_of_run (show execWakeCallSchedule die tag tenant s = _ from rfl) ?_
  simp only [Bool.or_eq_true, Bool.not_eq_true', beq_iff_eq, or_assoc]

end

section
variable {tag tenant : Nat}

/-- WAKE_CALL_NO_ANSWER of a call that went out repeats it below its limit, and else ends it, counts and reports (R247, R249). -/
theorem wakeCallNoAnswer_sent {c : WakeCall}
    (h : (s.dev.airD die).calls.find? (fun c => c.tag == tag && c.tenant == tenant && c.sent && c.calls != 0) = some c) :
    Becomes (.wakeCallNoAnswer die tag tenant) s
      (if c.calls < s.dev.g F.AMC.WAKE_CFG_CALLS die then s.dev.setAir die (fun a => { a with
        calls := mapIf (fun x => x.tag == tag && x.tenant == tenant) (fun x => { x with sent := false }) a.calls })
      else ((s.dev.setAir die (fun a => { a with calls := a.calls.filter (fun x => !(x.tag == tag && x.tenant == tenant)) })).inc
        C.AMC.WAKE_NORESP die).outcome ⟨tag, tenant⟩ (.noCall tag tenant)) := by
  refine becomes_of_run (show execWakeCallNoAnswer die tag tenant s = _ from rfl) ?_
  simp only [h]

/-- WAKE_CALL_NO_ANSWER of no call that went out does nothing. -/
theorem wakeCallNoAnswer_none (h : (s.dev.airD die).calls.find? (fun c => c.tag == tag && c.tenant == tenant && c.sent && c.calls != 0) = none) :
    NoEffect (.wakeCallNoAnswer die tag tenant) s := by
  refine becomes_of_run (show execWakeCallNoAnswer die tag tenant s = _ from rfl) ?_
  simp only [h]

end
end

/-- Settles O26: superframes and slots, frames received, downlinks, the planner's requests, and wake-up calls. -/
theorem airMac : Obligations.AirMac := by
  refine ⟨?_, ?_, ?_, ?_, ?_, ?_, ?_, ?_, ?_, ?_, ?_, ?_, ?_, ?_, ?_, ?_, ?_, ?_, ?_⟩
  · intro s die n step sp d1 d2 hair hup hruns hn hstep hsp hd1 hd2
    exact superframeBoundary_begins hair hup hruns hn hstep hsp hd1 hd2
  · intro s die h
    exact becomes_of_run (show execSuperframeBoundary die s = _ from rfl) (if_pos ((Dev.superframeIdle_iff s.dev die).mpr h))
  · intro s die last hlast hair hup hruns hbefore
    have hslot := slotStart_becomes hlast
    rwa [if_neg (by simp [hair, hup, hruns, hbefore])] at hslot
  · intro s die last hlast h
    have hslot := slotStart_becomes hlast
    rwa [if_pos h] at hslot
  · intro s die f rest d1 hair hup hmac hother hd1
    exact airMacRx_taken hair hup hmac hother hd1
  · intro s die h
    refine becomes_of_run (show execAirMacRx die s = _ from rfl) (Dev.takeRx_left (h.imp_right (Or.imp_right (Or.imp_right fun hother => ?_))) _)
    cases hhead : (s.dev.airD die).macIn.head? with
    | none => simp [hhead] at hother
    | some f => simpa [hhead] using hother
  · rintro s die id f e start r hair hstart hfind hnode hleg hidle hhere hsync hready hgate rfl
    have hdl := listenSlotDownlink_becomes hstart hfind hnode
    rwa [if_neg (by simp [Dev.listensNow, hair, hleg, hidle, hhere, hsync, hready, hgate])] at hdl
  · intro s die id h
    exact listenSlotDownlink_none h
  · intro s die id f e start hstart hfind hnode h
    have hdl := listenSlotDownlink_becomes hstart hfind hnode
    rwa [if_pos (.inr h)] at hdl
  · intro s die id f hfind hused
    have hmissing := nodeAckMissing_sent hfind rfl
    rwa [if_pos hused] at hmissing
  · intro s die id f hfind hleft
    have hmissing := nodeAckMissing_sent hfind rfl
    rwa [if_neg (Nat.not_le.mpr hleft)] at hmissing
  · intro s die id h
    exact nodeAckMissing_none h
  · intro s die r rest d1 hair hup hact hfree hreqs hd1
    exact schedReq_taken hair hup hact hfree hreqs hd1
  · intro s die h
    exact schedReq_none h
  · intro s die tag tenant hair hcalls hclass hpending hcall
    have hwake := wakeCallSchedule_becomes s die tag tenant
    rwa [if_neg (by simp [hair, hcalls, hclass, hpending, hcall])] at hwake
  · intro s die tag tenant h
    have hwake := wakeCallSchedule_becomes s die tag tenant
    rwa [if_pos h] at hwake
  · intro s die tag tenant c hcall hbelow
    have hnone := wakeCallNoAnswer_sent hcall
    rwa [if_pos hbelow] at hnone
  · intro s die tag tenant c hcall hlimit
    have hnone := wakeCallNoAnswer_sent hcall
    rwa [if_neg (Nat.not_lt.mpr hlimit)] at hnone
  · intro s die tag tenant h
    exact wakeCallNoAnswer_none h

end Sys2Proof.Machine

/-! PROOFS. The noise unit's publication (R197) and the demodulators' commits (R201). -/

namespace Sys2Proof.Machine
open Sys2Proof Sys2Proof.Safety

/-- A change of an Air die's state leaves the register fields. -/
theorem Dev.g_setAir (d : Dev) (air : Nat) (k : AirDie → AirDie) (f : Fld) (die inst i : Nat) : (d.setAir air k).g f die inst i = d.g f die inst i := rfl

section
variable {s : State} {die : Nat}

section
variable (hair : isAir die = true)
include hair

/-- NOISE_PUBLISH on an Air die with a MIN_OBS publishes for every native channel from the usable observations, counts the superframe and notes its
number (R197). -/
theorem noisePublish_publishes {obs used : List NoiseObs} {d0 d1 : Dev} (hmin : s.dev.g F.NSE.OBS_CFG_MIN_OBS die ≠ 0)
    (hused : used = obs.filter (fun o => obsUsable die s.dev.time.lt (s.dev.g F.CMB.STAT_CHAINS_USED die) (s.dev.onAir die) o))
    (hd0 : d0 = s.dev.setAir die (fun a => { a with aired := [] }))
    (hd1 : d1 = (d0.each ((List.range 512).filter (fun ch => d0.chMode die ch == 0)) (fun d ch =>
      d.publishNoise die ch (used.filter (fun o => o.ch == ch)).length
        (if (used.filter (fun o => o.ch == ch)).isEmpty then [] else noiseCodes (used.filter (fun o => o.ch == ch))))).inc C.NSE.SF_MEASURED die) :
    Becomes (.noisePublish die obs) s (d1.setAir die (fun a => { a with sfNoise := d1.g F.AMC.SF_NUM_NUM die })) := by
  subst hused hd0 hd1
  refine becomes_of_run (show execNoisePublish die obs s = _ from rfl) ((if_neg (by simp [hair])).trans ((if_neg ?_).trans ?_))
  · rwa [Dev.g_setAir, beq_iff_eq]
  · simp only [Dev.g_inc]

/-- NOISE_PUBLISH with a MIN_OBS of 0 holds every code and only forgets what was on the air (R197). -/
theorem noisePublish_holds (hmin : s.dev.g F.NSE.OBS_CFG_MIN_OBS die = 0) (obs : List NoiseObs) :
    Becomes (.noisePublish die obs) s (s.dev.setAir die (fun a => { a with aired := [] })) := by
  refine becomes_of_run (show execNoisePublish die obs s = _ from rfl) ((if_neg (by simp [hair])).trans (if_pos ?_))
  rwa [Dev.g_setAir, beq_iff_eq]

end

/-- NOISE_PUBLISH on a die that is no Air die does nothing. -/
theorem noisePublish_other (hair : isAir die = false) (obs : List NoiseObs) : NoEffect (.noisePublish die obs) s :=
  becomes_of_run (show execNoisePublish die obs s = _ from rfl) (if_pos (by simp [hair]))

section
variable {channel j : Nat} {p : Page} {pc : PendCommit} {tied : List Nat} (hp : p = ⟨.DEM, die, channel / 32⟩) (hj : j = channel % 32)
  (hpc : s.dev.pendingCommit p = some pc)
  (htied : tied = gangOf (fun i => s.dev.chMode die (32 * p.inst + i)) j ++ gangOf (fun i => snapGet pc.snap F.DEM.CH_CFG_MODE p i) j)
include hp hj hpc htied

/-- DEM_COMMIT_LIVE of a waiting channel with its old and new gangs at rest puts its settings live; the page's commit is done with its last channel
(R201). -/
theorem demCommitLive_lives {d : Dev} (hair : isAir die = true) (hwait : (s.dev.airD die).demWait.contains channel = true)
    (hrest : (s.dev.airD die).receps.any (fun r => r.channel / 32 == p.inst && tied.contains (r.channel % 32)) = false)
    (hd : d = (s.dev.each chCfgFields (fun d f => d.put f p (snapGet pc.snap f p j) j)).setAir die
      (fun a => { a with demWait := a.demWait.filter (fun c => c != channel) })) :
    Becomes (.demCommitLive die channel) s
      (if (d.airD die).demWait.any (fun c => c / 32 == p.inst) = true then d else (d.liveFrom p pc.snap).commitDone p) := by
  subst hp hj htied hd
  refine becomes_of_run (show execDemCommitLive die channel s = _ from rfl) ?_
  simp only [hpc]
  exact (if_neg (by rw [hair, hwait]; decide)).trans (if_neg (by rw [hrest]; decide))

/-- DEM_COMMIT_LIVE of a channel with a reception in progress in its old or new gang does nothing (R201). -/
theorem demCommitLive_receiving
    (hbusy : (s.dev.airD die).receps.any (fun r => r.channel / 32 == p.inst && tied.contains (r.channel % 32)) = true) :
    NoEffect (.demCommitLive die channel) s := by
  subst hp hj htied
  refine becomes_of_run (show execDemCommitLive die channel s = _ from rfl) ?_
  simp only [hpc]
  exact ite_eq_left_iff.mpr fun _ => if_pos hbusy

end

/-- DEM_COMMIT_LIVE of a channel that waits for no commit does nothing. -/
theorem demCommitLive_notWaiting {channel : Nat}
    (h : isAir die = false ∨ s.dev.pendingCommit ⟨.DEM, die, channel / 32⟩ = none ∨ (s.dev.airD die).demWait.contains channel = false) :
    NoEffect (.demCommitLive die channel) s := by
  refine becomes_of_run (show execDemCommitLive die channel s = _ from rfl) ?_
  cases hpc : s.dev.pendingCommit ⟨.DEM, die, channel / 32⟩ with
  | none => simp only [hpc]
  | some pc =>
    have hidle : isAir die = false ∨ (s.dev.airD die).demWait.contains channel = false := h.imp_right fun h => h.resolve_left (by simp [hpc])
    simp only [hpc]
    exact if_pos (by simpa only [Bool.or_eq_true, Bool.not_eq_true'] using hidle)

end

/-- Settles O25: the noise unit's publication, then a channel that goes live, one that still receives, and one that waits for no commit. -/
theorem noiseAndDemodulators : Obligations.NoiseAndDemodulators := by
  refine ⟨?_, ?_, ?_, ?_, ?_, ?_⟩
  · intro s die obs used d0 d1 hair hmin hused hd0 hd1
    exact noisePublish_publishes hair hmin hused hd0 hd1
  · intro s die obs hair hmin
    exact noisePublish_holds hair hmin obs
  · intro s die obs hair
    exact noisePublish_other hair obs
  · intro s die channel p j pc tied d1 hp hj hpc hair hwait htied hrest hd1
    exact demCommitLive_lives hp hj hpc htied hair hwait hrest hd1
  · intro s die channel p j pc tied hp hj hpc htied hbusy
    exact demCommitLive_receiving hp hj hpc htied hbusy
  · intro s die channel h
    exact demCommitLive_notWaiting h

end Sys2Proof.Machine

/-! PROOFS. Single kinds of timer work, internal events, the population counter, and the slow path (R310 to R324, R337 to R339, R360, R374). -/

namespace Sys2Proof.Machine
open Sys2Proof Sys2Proof.Safety

/-- A device function on the condition that two numbers are equal. -/
theorem Dev.when_beq (d : Dev) (a b : Nat) (f : Dev → Dev) : d.when (a == b) f = if a = b then f d else d := by
  simp only [Dev.when, beq_iff_eq]

/-- A TIMER event is of its own kinds alone while no time step waits for its die (R59). -/
theorem Dev.dueKinds_noStep {d : Dev} {die : Nat} (kinds : List (Nat × Nat)) (h : bitOf d.time.stepFor (die - 1) = false) :
    d.dueKinds die kinds = kinds := by
  simp only [Dev.dueKinds, h, Bool.false_eq_true, if_false]

/-- With no internal event waiting none is taken (R337). -/
theorem Dev.intEvent_nil {α : Type} {d : Dev} {die : Nat} (h : (d.route die).int = []) (kind : Nat) (f : IntEv → Option α) (body : Dev → α → Dev) :
    d.intEvent die kind f body = d := by
  simp only [Dev.intEvent, Dev.intEventF, h, takeInt]

section
variable {i : Instr} {s : State} {die kind : Nat}

/-- The row of one kind of timer work numbers a TIMER event and does that work once (R339 rule 2). -/
theorem timerRow_open (hexec : exec i s = run s (fun d => d.timerEvent die [(kind, 1)])) (hopen : s.dev.seqOpen die = true)
    (hstep : bitOf s.dev.time.stepFor (die - 1) = false) : Becomes i s ((timed s.dev die [(kind, 1)]).timerWork die kind) := by
  refine becomes_of_run hexec ?_
  rw [Dev.timerEvent_open hopen, Dev.dueKinds_noStep _ hstep, Dev.each_one]
  rfl

/-- While the order is closed it has no effect (R339). -/
theorem timerRow_closed (hexec : exec i s = run s (fun d => d.timerEvent die [(kind, 1)])) (hclosed : s.dev.seqOpen die = false) : NoEffect i s :=
  becomes_of_run hexec (Dev.timerEvent_closed _ hclosed)

section
variable {α : Type} {f : IntEv → Option α} {body : Dev → α → Dev} (hexec : exec i s = run s (fun d => d.intEvent die kind f body))
include hexec

/-- The row of an internal event that heads its input and is of the row's kind has that event's effect once it is placed (R337, R339). -/
theorem intRow_heads {e : IntEv} {rest : List IntEv} (h : Heads s.dev die e rest) {x : α} (hx : f e = some x) :
    Becomes i s ((body (placed s.dev die kind e rest) x).showLanes die) :=
  becomes_of_run hexec (Dev.intEvent_heads h x hx)

/-- With no internal event waiting it has no effect (R337). -/
theorem intRow_nil (h : (s.dev.route die).int = []) : NoEffect i s :=
  becomes_of_run hexec (Dev.intEvent_nil h _ _ _)

end
end

section
variable {s : State} {die : Nat} {rest : List IntEv}

/-- POP_ANSWER gives the creation its answer and leaves the sampling records of its play (R310, R311, R551). -/
theorem popAnswer_becomes {k : NodeKey} {ok : Bool} (env : PlayEnv) (h : Heads s.dev die (.pop k ok) rest) :
    Becomes (.popAnswer die env) s ((((placed s.dev die 7 (.pop k ok) rest).popAnswer die k ok).showLanes die).sampleAll die env) :=
  becomes_of_run (show execPopAnswer die env s = _ from rfl) (congrArg (·.sampleAll die env) (Dev.intEvent_heads h (k, ok) rfl))

/-- SLOW_RESULT without a lane error goes on with what waits for the result, if that finds its reservation (R316, R355). -/
theorem slowResult_becomes {env : PlayEnv} {o : SlowOp} {granted found : Bool} (h : Heads s.dev die (.slow o granted found) rest) (hlane : env.lane = 0) :
    Becomes (.slowResult die env) s
      (s.dev.orWait ((((placed s.dev die 10 (.slow o granted found) rest).slowResult die env o granted found).showLanes die).sampleAll die env)) := by
  refine becomes_of_run (show execSlowResult die env s = _ from rfl) ((if_neg (by simp [hlane])).trans ?_)
  rw [Dev.intEvent_heads h (o, granted, found) rfl]

/-- MIGRATE reinserts the entries of its bucket, and asks for the next bucket or ends the migration after the last (R318). -/
theorem migrate_becomes {t b : Nat} {m : Migration} {d1 d2 d3 d4 : Dev} (h : Heads s.dev die (.migrate t b) rest)
    (hd1 : d1 = placed s.dev die 9 (.migrate t b) rest) (hm : d1.migOf die t = some m)
    (hd2 : d2 = (if m.table = 0 then d1.each ((d1.route die).nodes.filter (fun e => e.pos / 4 == m.pos)) (fun d e => d.migrateNode die m.seed e)
      else d1.each ((d1.route die).fwd.filter (fun e => e.pos / 4 == m.pos)) (fun d e => d.migrateFwd die m.seed e)))
    (hd3 : d3 = d2.setRoute die (fun r => { r with mig := mapIf (fun y => y.table == m.table) (fun y => { y with pos := m.pos + 1 }) r.mig }))
    (hd4 : d4 = (if m.table = 0 then d3.w F.NTB.REHASH_POS_POS (m.pos + 1) die else d3)) :
    Becomes (.migrate die) s ((if m.pos + 1 < (if m.table = 0 then ntbBuckets else fwdBuckets) then
      d4.setRoute die (fun r => { r with int := r.int ++ [.migrate m.table (m.pos + 1)] }) else d4.migrateEnd die m).showLanes die) := by
  have hrow := intRow_heads (i := .migrate die) rfl h (x := (t, b)) rfl
  simp only [← hd1, hm, Dev.when_beq, beq_iff_eq] at hrow
  rwa [← hd2, ← hd3, ← hd4] at hrow

end

section
variable {s : State}

/-- POP_REQUEST with no request has no effect. -/
theorem popRequest_nil (h : s.dev.popQ = []) : NoEffect .popRequest s := by
  refine becomes_of_run (show execPopRequest s = _ from rfl) ?_
  simp only [h]

section
variable {die : Nat} {k : NodeKey} {rest : List (Nat × NodeKey)} {d1 : Dev} (hq : s.dev.popQ = (die, k) :: rest)
  (hd1 : d1 = { s.dev with popQ := rest })
include hq hd1

/-- POP_REQUEST drops the oldest request when its die is down. -/
theorem popRequest_down (hdown : d1.dieUp die = false) : Becomes .popRequest s d1 := by
  refine becomes_of_run (show execPopRequest s = _ from rfl) ?_
  simp only [hq, ← hd1, hdown, Bool.not_false, if_true]

/-- POP_REQUEST answers the oldest request of a die that is up, and counts the node at once while the population is below its limit (R310). -/
theorem popRequest_up {ok : Bool} {d2 : Dev} (hup : d1.dieUp die = true) (hok : ok = decide (d1.pop < d1.popMax))
    (hd2 : d2 = (if ok = true then { d1 with pop := d1.pop + 1 }.showPop else d1)) :
    Becomes .popRequest s ((d2.setRoute die (fun r => { r with int := r.int ++ [IntEv.pop k ok] })).showLanes die) := by
  subst hd1 hok hd2
  refine becomes_of_run (show execPopRequest s = _ from rfl) ?_
  simp only [hq, hup, Bool.not_true, Bool.false_eq_true, if_false]

end

section
variable {die : Nat}

/-- SLOW_PATH_OP with no operation, of a die that is down, or in SHADOW, has no effect (R495). -/
theorem slowPathOp_idle (h : (s.dev.route die).slow = [] ∨ s.dev.dieUp die = false ∨ s.dev.mode = mShadow) : NoEffect (.slowPathOp die) s := by
  refine becomes_of_run (show execSlowPathOp die s = _ from rfl) ?_
  cases hslow : (s.dev.route die).slow with
  | nil => simp only [hslow]
  | cons o rest =>
    have hidle : s.dev.dieUp die = false ∨ s.dev.mode = mShadow := h.resolve_left (by simp [hslow])
    simp only [hslow]
    exact if_pos (by simpa only [Bool.or_eq_true, Bool.not_eq_true', beq_iff_eq] using hidle)

section
variable {o : SlowOp} {rest : List SlowOp} {d : Dev} (hslow : (s.dev.route die).slow = o :: rest)
  (hd : d = s.dev.setRoute die (fun r => { r with slow := rest }))
include hslow hd

/-- SLOW_PATH_OP that finds a cold record waits for a creation's request that waits for the population counter (R310, R316). -/
theorem slowPathOp_waits {e : NodeEnt} (hcold : d.coldRec o.key = some e) (hfit : e.ovf = false) (hq : s.dev.popQ ≠ []) :
    NoEffect (.slowPathOp die) s := by
  have hqueue : (d.inc C.NTB.COLD_HITS die).popQ = s.dev.popQ := by rw [hd, Dev.inc_popQ, Dev.setRoute_popQ]
  refine becomes_of_run (show execSlowPathOp die s = _ from rfl) ?_
  simp only [hslow, ← hd, hcold, hfit, hqueue, Bool.false_eq_true, if_false]
  exact ite_eq_left_iff.mpr fun _ => if_pos (by simpa using hq)

variable (hup : s.dev.dieUp die = true) (hmode : s.dev.mode ≠ mShadow)
include hup hmode

/-- SLOW_PATH_OP that finds no cold record counts a miss and answers so (R316). -/
theorem slowPathOp_miss (hcold : d.coldRec o.key = none) :
    Becomes (.slowPathOp die) s (((d.inc C.NTB.COLD_MISS die).setRoute die (fun r => { r with int := r.int ++ [.slow o false false] })).showLanes die) := by
  refine becomes_of_run (show execSlowPathOp die s = _ from rfl) ?_
  simp only [hslow, ← hd, hcold]
  exact if_neg (by simp [hup, hmode])

/-- SLOW_PATH_OP that finds a cold record counts a hit and, when the record fitted its table and the population is below its limit, counts the node at
once and answers a grant (R310, R316). -/
theorem slowPathOp_hit {e : NodeEnt} {d1 d2 : Dev} {grant : Bool} (hcold : d.coldRec o.key = some e) (hd1 : d1 = d.inc C.NTB.COLD_HITS die)
    (hfree : e.ovf = true ∨ s.dev.popQ = []) (hgrant : grant = (!e.ovf && decide (d1.pop < d1.popMax)))
    (hd2 : d2 = (if grant = true then { d1 with pop := d1.pop + 1 }.showPop else d1)) :
    Becomes (.slowPathOp die) s ((d2.setRoute die (fun r => { r with int := r.int ++ [.slow o grant true] })).showLanes die) := by
  have hq : d1.popQ = s.dev.popQ := by rw [hd1, hd, Dev.inc_popQ, Dev.setRoute_popQ]
  subst hd2
  refine becomes_of_run (show execSlowPathOp die s = _ from rfl) ?_
  simp only [hslow, ← hd, hcold, ← hd1]
  refine (if_neg (by simp [hup, hmode])).trans ?_
  cases hovf : e.ovf with
  | true => simp [hgrant, hovf]
  | false =>
    have hnone : d1.popQ = [] := hq.trans (hfree.resolve_left (by simp [hovf]))
    by_cases hbelow : d1.pop < d1.popMax <;> simp [hgrant, hovf, hnone, hbelow]

end
end
end

/-- Settles O31, row by row: timer work, the ager's events, creations, the slow path, migration, learning, reports and transmissions. -/
theorem internalEvents : Obligations.InternalEvents := by
  refine ⟨?_, ?_, ?_, ?_, ?_, ?_, ?_, ?_, ?_, ?_, ?_, ?_, ?_, ?_, ?_, ?_, ?_, ?_, ?_, ?_⟩
  · intro s die hopen hstep
    exact timerRow_open rfl hopen hstep
  · intro s die hopen hstep
    exact timerRow_open rfl hopen hstep
  · intro s die hopen hstep
    exact timerRow_open rfl hopen hstep
  · intro s die hclosed
    exact ⟨timerRow_closed (kind := 6) rfl hclosed, timerRow_closed (kind := 2) rfl hclosed, timerRow_closed (kind := 3) rfl hclosed⟩
  · intro s die hnone
    exact ⟨intRow_nil (i := .ageCas die) rfl hnone, intRow_nil (i := .migrate die) rfl hnone, intRow_nil (i := .learn die) rfl hnone,
      intRow_nil (i := .airOutcome die) rfl hnone, intRow_nil (i := .egressDone die) rfl hnone⟩
  · intro s die pos key age ver rest h
    exact (intRow_heads (i := .ageCas die) rfl h rfl :)
  · intro s die f rest h
    exact (intRow_heads (i := .ageCas die) rfl h rfl :)
  · intro s die k rest d1 ok d2 hq hd1 hup hok hd2
    exact popRequest_up hq hd1 hup hok hd2
  · intro s die k rest d1 hq hd1 hdown
    exact popRequest_down hq hd1 hdown
  · intro s h
    exact popRequest_nil h
  · intro s die env k ok rest h
    exact popAnswer_becomes env h
  · intro s die o rest d1 hslow hup hmode hd1 hcold
    exact slowPathOp_miss hslow hd1 hup hmode hcold
  · intro s die o rest d1 e d2 grant hslow hup hmode hd1 hcold hfree hgrant hd2
    exact slowPathOp_hit hslow rfl hup hmode hcold hd1 hfree hgrant hd2
  · intro s die o rest e hslow hcold hfit hq
    exact slowPathOp_waits hslow rfl hcold hfit hq
  · intro s die h
    exact slowPathOp_idle h
  · intro s die env o granted found rest h hlane
    exact slowResult_becomes h hlane
  · intro s die t b rest m d1 d2 d3 d4 h hd1 hm hd2 hd3 hd4
    exact migrate_becomes h hd1 hm hd2 hd3 hd4
  · intro s die l rest h
    exact (intRow_heads (i := .learn die) rfl h rfl :)
  · intro s die o rest h
    exact (intRow_heads (i := .airOutcome die) rfl h rfl :)
  · intro s die port q rest h
    exact (intRow_heads (i := .egressDone die) rfl h rfl :)

end Sys2Proof.Machine

/-! PROOFS. The key commands, the persistent key blob and the re-masking sweep (R280 to R287, R294, Tables 10-5 and 10-7). -/

namespace Sys2Proof.Machine
open Sys2Proof Sys2Proof.Safety

section
variable {s : State} {id : Nat} {c : Cmd}

section
variable (h : Ready s.dev 0x0301 id c importRange) (hfree : s.dev.vaultHold = false) (stopAt : Option Nat)
include h hfree

/-- KEY_IMPORT of clear keys ends with MODE out of BRINGUP, and there with LOCKED on a locked vault (R281). -/
theorem keyImport_refused (hclear : c.par 25 1 = 0xFF) (hbar : s.dev.mode ≠ mBringup ∨ s.dev.locked ⟨.VLT, 0, 0⟩ = true) :
    Becomes (.keyImport id false stopAt) s (s.dev.finish id (c.bad (if s.dev.mode ≠ mBringup then stMode else stLocked))) := by
  refine becomes_of_ready (show execKeyImport id false stopAt s = _ from rfl) h ?_ rfl
  by_cases hmode : s.dev.mode = mBringup
  · have hlock := hbar.resolve_left (not_not_intro hmode)
    simp [hfree, hclear, hmode, hlock]
  · simp [hfree, hclear, hmode]

/-- Every other import loads its keys in slot order: it ends with RANGE at a key that fails its check, with UNIT_DOWN where it is stopped, each with the count
loaded, and with OK once all are loaded (R281). -/
theorem keyImport_loads {w n : Nat} {r : Dev × Nat × Bool}
    (hopen : c.par 25 1 = 0xFF → s.dev.mode = mBringup ∧ s.dev.locked ⟨.VLT, 0, 0⟩ = false)
    (hw : w = if c.par 25 1 = 0xFF then classLen (c.par 24 1) else classLen (c.par 24 1) + 8)
    (hn : n = stopAt.elim c.cnt (fun k => min k c.cnt))
    (hr : r = Dev.importKeys s.dev (c.par 24 1) (c.par 26 2) (if c.par 25 1 = 0xFF then none else s.dev.key 2 (c.par 25 1))
      ((List.range n).map (fun i => memRead s.host (c.addr + w * i) w)) 0) :
    Becomes (.keyImport id false stopAt) s
      (r.1.finish id (if r.2.2 = true then c.bad stRange r.2.1 else if r.2.1 < c.cnt then c.bad stDown r.2.1 else c.ok)) := by
  have hmode : (c.par 25 1 == 0xFF && s.dev.mode != mBringup) = false := by simpa using fun hclear => (hopen hclear).1
  have hlock : (c.par 25 1 == 0xFF && s.dev.locked ⟨.VLT, 0, 0⟩) = false := by simpa using fun hclear => (hopen hclear).2
  subst hw hn hr
  refine becomes_of_ready (show execKeyImport id false stopAt s = _ from rfl) h ?_ ?_
  · simp only [hfree, hmode, hlock, beq_iff_eq, Bool.false_eq_true, if_false]
    split_ifs <;> rfl
  · split_ifs <;> rfl

end

/-- KEY_KCV writes each slot's check value and a 1, or four zeros for an empty slot (R282). -/
theorem keyKcv_answers (h : Ready s.dev 0x0303 id c kcvRange) :
    BecomesWith (.keyKcv id false) s (s.dev.finish id c.ok) [(c.addr, (List.range c.cnt).flatMap (fun i =>
      (s.dev.key (c.par 24 1) (c.par 26 2 + i)).elim [0#8, 0#8, 0#8, 0#8] (fun k => kcvOf k ++ [1#8])))] := by
  refine becomesWith_of_ready (show execKeyKcv id false s = _ from rfl) h ?_ rfl
  congr 3
  funext i
  cases s.dev.key (c.par 24 1) (c.par 26 2 + i) <;> rfl

end

/-- The device once KEY_PERSIST has written the vault's snapshot with a fresh IV to the chosen slot, as the next valid blob and the loaded one (R286). -/
def Dev.persisted (d : Dev) : Dev :=
  ((((d.freshBytes 8).2.setBlob d.persistSlot ⟨1, d.g F.VLT.BLOB_SEQ_SEQ + 1, d.snapshot, (d.freshBytes 8).1⟩).w
    F.VLT.BLOB_SEQ_SEQ (d.g F.VLT.BLOB_SEQ_SEQ + 1)).w F.VLT.BLOB_STAT_LOADED (d.persistSlot + 1)).inc C.VLT.PERSISTS

/-- The device once a KEY_PERSIST that was cut short has left the chosen slot invalid (Tables 10-7 and 10-10). -/
def Dev.persistLost (d : Dev) : Dev := (d.freshBytes 8).2.setBlob d.persistSlot ⟨2, 0, [], []⟩

section
variable {s : State} {id : Nat} {c : Cmd} (h : Ready s.dev 0x0304 id c persistRange) (hfree : s.dev.vaultHold = false)
include h hfree

/-- KEY_PERSIST that ends well answers the number of its blob (R286). -/
theorem keyPersist_done : Becomes (.keyPersist id .done) s (s.dev.persisted.finish id (c.ok (s.dev.g F.VLT.BLOB_SEQ_SEQ + 1))) :=
  becomes_of_ready (show execKeyPersist id .done s = _ from rfl) h (if_neg (by simp [hfree])) rfl

/-- A failed read-back ends it with DMA_ERROR (Table 10-7). -/
theorem keyPersist_readFail : Becomes (.keyPersist id .readFail) s (s.dev.persistLost.finish id (c.bad stDma)) :=
  becomes_of_ready (show execKeyPersist id .readFail s = _ from rfl) h (if_neg (by simp [hfree])) rfl

/-- A tamper ends it with UNIT_DOWN (Table 10-10). -/
theorem keyPersist_tamper : Becomes (.keyPersist id .tamper) s (s.dev.persistLost.finish id (c.bad stDown)) :=
  becomes_of_ready (show execKeyPersist id .tamper s = _ from rfl) h (if_neg (by simp [hfree])) rfl

/-- Power lost after step 5 finds the blob complete; before that the slot is invalid and the command stays in flight (Table 10-7). -/
theorem keyPersist_powerLost (step : Nat) : Becomes (.keyPersist id (.powerLost step)) s
    (if 5 < step then s.dev.persisted.finish id (c.ok (s.dev.g F.VLT.BLOB_SEQ_SEQ + 1)) else s.dev.persistLost.w F.VLT.BLOB_STAT_PERSIST_BUSY 1) := by
  refine becomes_of_run (show execKeyPersist id (.powerLost step) s = _ from rfl) ?_
  rw [Dev.runCmd_ready h]
  simp only [hfree, Bool.false_eq_true, if_false]
  by_cases hstep : 5 < step
  · simp only [if_pos hstep]
    rfl
  · simp only [if_neg hstep]
    rfl

end

section
variable {s : State}

/-- REMASK_START asks for the vault's token (R284). -/
theorem remaskStart_asks (hperiod : s.dev.g F.VLT.MASK_CFG_PERIOD ≠ 0) (hidle : s.dev.vault.sweep = false) (hfree : s.dev.holds 5 (2 ^ 3) = false)
    (hboot : s.dev.booted = true) : Becomes .remaskStart s (s.dev.requestToken ⟨5, 2 ^ 3, none, 0⟩).1 :=
  becomes_of_run (show execRemaskStart s = _ from rfl) (if_neg (by simp [-Nat.reducePow, hperiod, hidle, hfree, hboot]))

/-- REMASK_START with re-masking off, a sweep on its way, its token held, or before boot has ended has no effect. -/
theorem remaskStart_stays (h : s.dev.g F.VLT.MASK_CFG_PERIOD = 0 ∨ s.dev.vault.sweep = true ∨ s.dev.holds 5 (2 ^ 3) = true ∨ s.dev.booted = false) :
    NoEffect .remaskStart s :=
  becomes_of_run (show execRemaskStart s = _ from rfl)
    (if_pos (by simpa only [Bool.or_eq_true, beq_iff_eq, Bool.not_eq_true', or_assoc] using h))

/-- REMASK_DONE of a granted sweep holds every key under the other generation's mask, forgets the old mask and returns the token (R283). -/
theorem remaskDone_sweeps {old g : Nat} {d : Dev} (hheld : s.dev.holds 5 (2 ^ 3) = true) (hgen : old = s.dev.g F.VLT.MASK_STAT_GEN) (hg : g = 1 - old)
    (hd : d = { s.dev with vault := { s.dev.vault with
      keys := s.dev.vault.keys.map (fun (k : VKey) => s.dev.vault.entry k.place g (s.dev.vault.plain k))
      uniqueKey := masked (s.dev.vault.mask g) (masked (s.dev.vault.mask old) s.dev.vault.uniqueKey)
      masks := s.dev.vault.masks.set old [], sweep := false, sweptAt := s.dev.time.lt } }) :
    Becomes .remaskDone s ((((d.w F.VLT.MASK_STAT_GEN g).showMaskAge).inc C.VLT.REMASKS).releaseToken 5 (2 ^ 3)) := by
  subst hgen hg hd
  exact becomes_of_run (show execRemaskDone s = _ from rfl) (if_neg (by simp [-Nat.reducePow, hheld]))

/-- REMASK_LATE shows the age and raises MASK_LATE where it passes twice a period that is not 0 (R284). -/
theorem remaskLate_raises (hperiod : s.dev.showMaskAge.g F.VLT.MASK_CFG_PERIOD ≠ 0)
    (hlate : 200 * s.dev.showMaskAge.g F.VLT.MASK_CFG_PERIOD < s.dev.showMaskAge.g F.VLT.MASK_STAT_AGE) :
    Becomes .remaskLate s (s.dev.showMaskAge.raise E.VLT.MASK_LATE) :=
  becomes_of_run (show execRemaskLate s = _ from rfl) (if_pos (by simp [hperiod, hlate]))

/-- Otherwise it only shows the age. -/
theorem remaskLate_shows (h : s.dev.showMaskAge.g F.VLT.MASK_CFG_PERIOD = 0 ∨
    s.dev.showMaskAge.g F.VLT.MASK_STAT_AGE ≤ 200 * s.dev.showMaskAge.g F.VLT.MASK_CFG_PERIOD) : Becomes .remaskLate s s.dev.showMaskAge :=
  becomes_of_run (show execRemaskLate s = _ from rfl)
    (if_neg (by simpa only [Bool.and_eq_true, bne_iff_ne, decide_eq_true_eq, not_and_or, not_not, not_lt] using h))

end

/-- Settles O29: the key commands by their bodies, with and without HOLD, then the sweep. -/
theorem vaultRows : Obligations.VaultRows := by
  refine ⟨?_, ?_, ?_, ?_, ?_, ?_, ?_, ?_, ?_, ?_, ?_, ?_, ?_⟩
  · intro s id c w n r stopAt h hfree hopen hw hn hr
    exact keyImport_loads h hfree stopAt hopen hw hn hr
  · intro s id c stopAt h hfree hclear hbar
    exact keyImport_refused h hfree stopAt hclear hbar
  · intro s id c fate stopAt hhold
    exact ⟨fun h => becomes_of_ready (show execKeyImport id false stopAt s = _ from rfl) h (if_pos hhold) rfl,
      fun h => becomes_of_ready (show execKeyErase id s = _ from rfl) h (if_pos hhold) rfl,
      fun h => becomes_of_ready (show execKeyPersist id fate s = _ from rfl) h (if_pos hhold) rfl,
      fun h => becomes_of_ready (show execVaultReload id s = _ from rfl) h (if_pos hhold) rfl⟩
  · intro s id c h hfree
    exact becomes_of_ready (show execKeyErase id s = _ from rfl) h (if_neg (by simp [hfree])) rfl
  · intro s id c h
    exact keyKcv_answers h
  · rintro s id c fate _ _ _ _ _ _ h hfree rfl rfl rfl rfl rfl rfl
    cases fate with
    | done => exact keyPersist_done h hfree
    | readFail => exact keyPersist_readFail h hfree
    | tamper => exact keyPersist_tamper h hfree
    | powerLost step => exact keyPersist_powerLost h hfree step
  · intro s id c h hfree
    exact becomes_of_ready (show execVaultReload id s = _ from rfl) h (if_neg (by simp [hfree])) rfl
  · intro s hperiod hidle hfree hboot
    exact remaskStart_asks hperiod hidle hfree hboot
  · intro s h
    exact remaskStart_stays h
  · intro s old g d1 hheld hgen hg hd1
    exact remaskDone_sweeps hheld hgen hg hd1
  · intro s hfree
    exact becomes_of_run (show execRemaskDone s = _ from rfl) (if_pos (by simp [-Nat.reducePow, hfree]))
  · intro s hperiod hlate
    exact remaskLate_raises hperiod hlate
  · intro s h
    exact remaskLate_shows h

end Sys2Proof.Machine

/-! PROOFS. Node keys: the octets of K6, and the Route die that owns a node (R299, R300). -/

namespace Sys2Proof

/-- How many octets a value is cut into. -/
@[simp] theorem length_toLE (n v : Nat) : (toLE n v).length = n := by
  induction n generalizing v with
  | zero => rfl
  | succ n ih => rw [toLE, List.length_cons, ih]

/-- The same, most significant octet first. -/
@[simp] theorem length_toBE (n v : Nat) : (toBE n v).length = n := by rw [toBE, List.length_reverse, length_toLE]

/-- Octet `j` of a value, least significant first. -/
theorem getElem?_toLE {n j : Nat} (h : j < n) (v : Nat) : (toLE n v)[j]? = some (BitVec.ofNat 8 (v / 256 ^ j)) := by
  induction n generalizing v j with
  | zero => exact absurd h (Nat.not_lt_zero j)
  | succ n ih =>
    cases j with
    | zero => rw [toLE, List.getElem?_cons_zero, pow_zero, Nat.div_one]
    | succ j => rw [toLE, List.getElem?_cons_succ, ih (Nat.lt_of_succ_lt_succ h), Nat.div_div_eq_div_mul, Nat.pow_succ']

/-- Octet `j` of a value, most significant first. -/
theorem getElem?_toBE {n j : Nat} (h : j < n) (v : Nat) : (toBE n v)[j]? = some (BitVec.ofNat 8 (v / 256 ^ (n - 1 - j))) := by
  rw [toBE, List.getElem?_reverse (by rwa [length_toLE]), length_toLE, getElem?_toLE (by omega)]

/-- The octets of a value read back. -/
theorem leNat_toLE (n v : Nat) : leNat (toLE n v) = v % 256 ^ n := by
  induction n generalizing v with
  | zero => rw [pow_zero, Nat.mod_one]; rfl
  | succ n ih => rw [toLE, leNat, ih, Nat.pow_succ', Nat.mod_mul, BitVec.toNat_ofNat]

/-- Values that the octets can hold differ in their octets. -/
theorem toBE_injective {n a b : Nat} (ha : a < 256 ^ n) (hb : b < 256 ^ n) (h : toBE n a = toBE n b) : a = b := by
  have hval := congrArg leNat (List.reverse_injective h)
  rwa [leNat_toLE, leNat_toLE, Nat.mod_eq_of_lt ha, Nat.mod_eq_of_lt hb] at hval

end Sys2Proof

namespace Sys2Proof.Machine
open Sys2Proof Sys2Proof.Safety

/-- K6 is six octets. -/
theorem NodeKey.length_k6 (k : NodeKey) : k.k6.length = 6 := by rw [NodeKey.k6, List.length_append, length_toBE, length_toBE]

/-- The first four octets of K6 are those of the tag, most significant first (R299). -/
theorem NodeKey.k6_tag (k : NodeKey) {j : Nat} (h : j < 4) : k.k6[j]? = some (BitVec.ofNat 8 (k.tag / 256 ^ (3 - j))) := by
  rw [NodeKey.k6, List.getElem?_append_left (by rwa [length_toBE]), getElem?_toBE h]

section
variable {k : NodeKey} (htenant : k.tenant < 4096)
include htenant

/-- K6 of a tenant of 12 bits holds that tenant. -/
theorem NodeKey.k6_eq : k.k6 = toBE 4 k.tag ++ toBE 2 k.tenant := by rw [NodeKey.k6, Nat.mod_eq_of_lt htenant]

/-- The last two octets of K6 are those of the tenant (R299). -/
theorem NodeKey.k6_tenant {j : Nat} (h : j < 2) : k.k6[4 + j]? = some (BitVec.ofNat 8 (k.tenant / 256 ^ (1 - j))) := by
  rw [NodeKey.k6_eq htenant, List.getElem?_append_right (by simp), length_toBE, Nat.add_sub_cancel_left, getElem?_toBE h]

end

/-- Nodes with the same K6 have the same tag and tenant (R299). -/
theorem NodeKey.k6_injective {a b : NodeKey} (hta : a.tag < 2 ^ 32) (hna : a.tenant < 4096) (htb : b.tag < 2 ^ 32) (hnb : b.tenant < 4096)
    (h : a.k6 = b.k6) : a = b := by
  rw [NodeKey.k6_eq hna, NodeKey.k6_eq hnb] at h
  obtain ⟨htag, htenant⟩ := List.append_inj h (by rw [length_toBE, length_toBE])
  cases a
  cases b
  exact congrArg₂ NodeKey.mk (toBE_injective hta htb htag) (toBE_injective (hna.trans (by decide)) (hnb.trans (by decide)) htenant)

/-- The owner of a node by bit 0 of the CRC-32C of its K6 (R300). -/
theorem NodeKey.owner_eq (k : NodeKey) : k.owner = if bitOf (crc32c 0xFFFFFFFF k.k6) 0 = true then 2 else 1 := by
  have hmod := Nat.mod_two_eq_zero_or_one (crc32c 0xFFFFFFFF k.k6)
  rw [NodeKey.owner, crc32cStd, bitOf, pow_zero, Nat.div_one]
  rcases hmod with hmod | hmod <;> rw [hmod] <;> rfl

/-- Settles O57: the octets of K6 part by part, that they fix the key, and the owner by one bit of their CRC. -/
theorem nodeKeys : Obligations.NodeKeys := by
  refine ⟨?_, ?_, ?_⟩
  · intro k _ htenant
    have htop : k.tenant / 256 < 16 := by omega
    exact ⟨k.length_k6, fun j hj => k.k6_tag hj, NodeKey.k6_tenant htenant (j := 0) (by decide),
      by simpa using NodeKey.k6_tenant htenant (j := 1) (by decide), htop⟩
  · intro a b hta hna htb hnb h
    exact NodeKey.k6_injective hta hna htb hnb h
  · intro k
    rw [k.owner_eq]
    exact ⟨fun h => by rw [h]; rfl, fun h => by rw [h]; rfl⟩

end Sys2Proof.Machine

/-! PROOFS. The commands over node tables and forwarding tables (R310, R311, R317, R318, R321, R332, R333, Table 11-8). -/

namespace Sys2Proof.Machine
open Sys2Proof Sys2Proof.Safety

/-- The row of a command that is ready and whose reply does not end it leaves the device that its body leaves. -/
theorem becomes_of_ready_later {i : Instr} {s : State} {op id : Nat} {c : Cmd} {range : Dev → Cmd → Option Nat} {body : Dev → Cmd → Dev × Reply}
    {d : Dev} {r : Reply} (hexec : exec i s = run s (fun d => d.runCmd op id false range body)) (h : Ready s.dev op id c range)
    (hbody : body s.dev c = (d, r)) (hlater : r.later = true) : Becomes i s d := by
  refine becomes_of_run hexec ?_
  rw [Dev.runCmd_ready h, hbody]
  exact if_pos hlater

/-- The row of a command that is ready replies on the device that its body leaves. -/
theorem becomes_of_ready_reply {i : Instr} {s : State} {op id : Nat} {c : Cmd} {range : Dev → Cmd → Option Nat} {body : Dev → Cmd → Dev × Reply}
    {r : Dev × Reply} (hexec : exec i s = run s (fun d => d.runCmd op id false range body)) (h : Ready s.dev op id c range)
    (hbody : r = body s.dev c) : Becomes i s (r.1.reply id r.2) := by
  subst hbody
  exact becomes_of_run hexec (Dev.runCmd_ready h body)

section
variable {d : Dev} {c : Cmd} {act scope arg : Nat} (go : Dev → Dev × Reply) (hfree : d.cmdHolds c.id = false)
include hfree

/-- A command that is granted the tokens it asks for goes on with its work (R527). -/
theorem Dev.cmdToken_granted (hgrant : (d.requestToken ⟨act, scope, some c.id, arg⟩).2 = .granted) :
    d.cmdToken c act scope arg go = go (d.requestToken ⟨act, scope, some c.id, arg⟩).1 := by
  simp only [Dev.cmdToken, hfree, hgrant, Bool.false_eq_true, if_false]

/-- One that finds the queue of requests full ends with RANGE and cause 7 (R527). -/
theorem Dev.cmdToken_full (hfull : (d.requestToken ⟨act, scope, some c.id, arg⟩).2 = .full) :
    d.cmdToken c act scope arg go = ((d.requestToken ⟨act, scope, some c.id, arg⟩).1, c.bad stRange 7) := by
  simp only [Dev.cmdToken, hfree, hfull, Bool.false_eq_true, if_false]

/-- One whose request is queued waits, with an interim record due (R105, R527). -/
theorem Dev.cmdToken_waits (hgrant : (d.requestToken ⟨act, scope, some c.id, arg⟩).2 ≠ .granted)
    (hfull : (d.requestToken ⟨act, scope, some c.id, arg⟩).2 ≠ .full) :
    d.cmdToken c act scope arg go =
      ((d.requestToken ⟨act, scope, some c.id, arg⟩).1.setCmd c.id (fun c => { c with stage := .waiting, interim := true }), c.later) := by
  unfold Dev.cmdToken
  dsimp only
  rw [hfree, if_neg Bool.noConfusion]
  split
  · next h => exact absurd h hgrant
  · next h => exact absurd h hfull
  · rfl

end

section
variable {s : State} {id : Nat} {c : Cmd}

section
variable (h : Ready s.dev 0x0101 id c nodeRange96)
include h

/-- NODE_READ of a node with a resident entry writes it and answers 0x100 (Table 11-8). -/
theorem nodeRead_resident {e : NodeEnt} (hres : s.dev.resident c.nodeKey = some e) :
    BecomesWith (.nodeRead id false) s (s.dev.finish id (c.ok 256)) [(c.addr, e.bytes false)] :=
  becomesWith_of_ready (show execNodeRead id false s = _ from rfl) h (by simp only [hres]) rfl

/-- NODE_READ of a node with a cold record alone writes that and answers 0x200 (Table 11-8). -/
theorem nodeRead_cold {e : NodeEnt} (hres : s.dev.resident c.nodeKey = none) (hcold : s.dev.coldRec c.nodeKey = some e) :
    BecomesWith (.nodeRead id false) s (s.dev.finish id (c.ok 512)) [(c.addr, e.bytes true)] :=
  becomesWith_of_ready (show execNodeRead id false s = _ from rfl) h (by simp only [hres, hcold]) rfl

/-- NODE_READ of a node without an entry ends with RANGE and cause 1, and writes nothing (Table 11-8). -/
theorem nodeRead_absent (hres : s.dev.resident c.nodeKey = none) (hcold : s.dev.coldRec c.nodeKey = none) :
    Becomes (.nodeRead id false) s (s.dev.finish id (c.bad stRange 1)) := by
  have hrun : BecomesWith (.nodeRead id false) s (s.dev.finish id (c.bad stRange 1)) [(c.addr, [])] :=
    becomesWith_of_ready (show execNodeRead id false s = _ from rfl) h (by simp only [hres, hcold]) rfl
  exact hrun

end

section
variable {d : Dev} {b : List Byte}

/-- A creation that NODE_WRITE may ask for keeps the command in flight (R310, R311). -/
theorem Dev.writeNew_asks {d1 : Dev} (hnew : (d.route c.die1).creations.any (fun x => x.key == c.nodeKey) = false)
    (hask : d.askCreate c.die1 c.nodeKey (.write c.id b) = (d1, true)) : d.writeNew c b = (d1, c.later) := by
  simp only [Dev.writeNew, hnew, hask, Bool.false_eq_true, if_false, if_true]

/-- Where the creation is already asked for, or no place for its request is left, NODE_WRITE ends with RANGE and cause 5 (R310, R311). -/
theorem Dev.writeNew_refused (hrefused : (d.route c.die1).creations.any (fun x => x.key == c.nodeKey) = true ∨
      (d.askCreate c.die1 c.nodeKey (.write c.id b)).2 = false) :
    d.writeNew c b = (if (d.route c.die1).creations.any (fun x => x.key == c.nodeKey) = true then d
      else (d.askCreate c.die1 c.nodeKey (.write c.id b)).1, c.bad stRange 5) := by
  by_cases hasked : (d.route c.die1).creations.any (fun x => x.key == c.nodeKey) = true
  · simp only [Dev.writeNew, hasked, if_true]
  · simp only [Dev.writeNew, hasked, hrefused.resolve_left hasked, Bool.false_eq_true, if_false]

end

section
variable (h : Ready s.dev 0x0102 id c nodeRange96)
include h

/-- NODE_WRITE of a record that is not valid or is of another key ends with RANGE (Table 11-8). -/
theorem nodeWrite_refused (hbad : bitOf (leAt (c.buf s.host 96) 0 16) 44 = false ∨ slotKey (c.buf s.host 96) ≠ c.nodeKey) :
    Becomes (.nodeWrite id false) s (s.dev.finish id (c.bad stRange)) :=
  becomes_of_ready (show execNodeWrite id false s = _ from rfl) h (if_pos (by simpa using hbad)) rfl

section
variable (hvalid : bitOf (leAt (c.buf s.host 96) 0 16) 44 = true) (hkey : slotKey (c.buf s.host 96) = c.nodeKey)
include hvalid hkey

/-- NODE_WRITE of a node that exists overwrites its entry and answers its place (Table 11-8). -/
theorem nodeWrite_overwrites (hnode : (s.dev.nodeOf c.nodeKey).isSome = true) : Becomes (.nodeWrite id false) s
    ((s.dev.writeNode c.die1 c.nodeKey (c.buf s.host 96)).finish id (c.ok ((s.dev.writeNode c.die1 c.nodeKey (c.buf s.host 96)).nodePlace c.nodeKey))) :=
  becomes_of_ready (show execNodeWrite id false s = _ from rfl) h ((if_neg (by simp [hvalid, hkey])).trans (if_pos hnode)) rfl

section
variable (hnode : s.dev.nodeOf c.nodeKey = none)
include hnode

/-- NODE_WRITE of a node that does not exist stays in flight behind the creation that it asks for (R310, R311). -/
theorem nodeWrite_asks {d1 : Dev} (hnew : (s.dev.route c.die1).creations.any (fun x => x.key == c.nodeKey) = false)
    (hask : s.dev.askCreate c.die1 c.nodeKey (.write c.id (c.buf s.host 96)) = (d1, true)) : Becomes (.nodeWrite id false) s d1 :=
  becomes_of_ready_later (show execNodeWrite id false s = _ from rfl) h
    ((if_neg (by simp [hvalid, hkey])).trans ((if_neg (by simp [hnode])).trans (Dev.writeNew_asks hnew hask))) rfl

/-- Where the creation is already asked for or cannot be, it ends with RANGE and cause 5 (R310, R311). -/
theorem nodeWrite_full {d1 : Dev} (hd1 : d1 = (if (s.dev.route c.die1).creations.any (fun x => x.key == c.nodeKey) = true then s.dev
      else (s.dev.askCreate c.die1 c.nodeKey (.write c.id (c.buf s.host 96))).1))
    (hrefused : (s.dev.route c.die1).creations.any (fun x => x.key == c.nodeKey) = true ∨
      (s.dev.askCreate c.die1 c.nodeKey (.write c.id (c.buf s.host 96))).2 = false) :
    Becomes (.nodeWrite id false) s (d1.finish id (c.bad stRange 5)) := by
  subst hd1
  exact becomes_of_ready (show execNodeWrite id false s = _ from rfl) h
    ((if_neg (by simp [hvalid, hkey])).trans ((if_neg (by simp [hnode])).trans (Dev.writeNew_refused hrefused))) rfl

end
end
end

/-- NODE_DELETE and NODE_PIN of a node without an entry end with RANGE and cause 1 (Table 11-8). -/
theorem nodeDelete_nodePin_absent (hnode : s.dev.nodeOf c.nodeKey = none) :
    (Ready s.dev 0x0103 id c nodeRange → Becomes (.nodeDelete id) s (s.dev.finish id (c.bad stRange 1))) ∧
    (Ready s.dev 0x0104 id c nodeRange → Becomes (.nodePin id) s (s.dev.finish id (c.bad stRange 1))) :=
  ⟨fun h => becomes_of_ready (show execNodeDelete id s = _ from rfl) h (if_pos (by simp [hnode])) rfl,
    fun h => becomes_of_ready (show execNodePin id s = _ from rfl) h (if_pos (by simp [hnode])) rfl⟩

section
variable (hnode : (s.dev.nodeOf c.nodeKey).isSome = true)
include hnode

/-- NODE_DELETE deletes the node's entries (R317, Table 11-8). -/
theorem nodeDelete_deletes (h : Ready s.dev 0x0103 id c nodeRange) :
    Becomes (.nodeDelete id) s (((s.dev.deleteNode c.nodeKey).showPlan).finish id c.ok) :=
  becomes_of_ready (show execNodeDelete id s = _ from rfl) h (if_neg (by simp [Option.isSome_iff_ne_none.mp hnode])) rfl

/-- What NODE_PIN makes of an entry: its pins and, with SET_MAP, its map (Table 11-8). -/
def Cmd.pinned (c : Cmd) (e : NodeEnt) : NodeEnt := { e with
  pin := bitOf (c.par 30 1) 0
  det := { e.det with
    mpin := bitOf (c.par 30 1) 1
    map := if bitOf (c.par 30 1) 2 then c.par 32 2 % 4096 else e.det.map
    mapNew := bitOf (c.par 30 1) 2 || e.det.mapNew } }

/-- NODE_PIN sets the pins and the map of the node's entry (Table 11-8). -/
theorem nodePin_pins (h : Ready s.dev 0x0104 id c nodeRange) :
    Becomes (.nodePin id) s ((s.dev.setNode c.nodeKey c.pinned).finish id c.ok) :=
  becomes_of_ready (show execNodePin id s = _ from rfl) h (if_neg (by simp [Option.isSome_iff_ne_none.mp hnode])) rfl

end

/-- TABLE_REHASH's range check: a node table or a forwarding table. -/
def rehashRange (_ : Dev) (c : Cmd) : Option Nat := if 1 < c.par 24 1 then some 0 else none

/-- TABLE_REHASH once it holds its token: the new seed is loaded, and the migration of the table begins at bucket 0 (R318). -/
def Dev.startRehash (d : Dev) (c : Cmd) : Dev :=
  ((if c.par 24 1 == 0 then (d.w F.NTB.SEED_NEW_SEED (c.par 28 4) c.die1).w F.NTB.REHASH_POS_POS 0 c.die1
    else d.w F.FWD.SEED_NEW_SEED (c.par 28 4) c.die1).setRoute c.die1 (fun r => { r with
      mig := r.mig ++ [⟨c.par 24 1, c.par 28 4, 0, c.id, 0, false⟩], int := r.int ++ [.migrate (c.par 24 1) 0] })).showLanes c.die1

section
variable (h : Ready s.dev 0x0106 id c rehashRange) (hfree : s.dev.cmdHolds c.id = false)
include h hfree

/-- TABLE_REHASH that is granted its token starts the migration and stays in flight (R318, R525). -/
theorem tableRehash_granted (hgrant : (s.dev.requestToken ⟨3, dieScope c.die1, some c.id, c.par 24 1⟩).2 = .granted) :
    Becomes (.tableRehash id) s ((s.dev.requestToken ⟨3, dieScope c.die1, some c.id, c.par 24 1⟩).1.startRehash c) :=
  becomes_of_ready_later (show execTableRehash id s = _ from rfl) h (Dev.cmdToken_granted _ hfree hgrant) rfl

/-- With the queue of requests full it ends with RANGE and cause 7; queued, it waits with an interim record due (R527). -/
theorem tableRehash_notGranted {r : Dev × TokenAnswer} (hr : r = s.dev.requestToken ⟨3, dieScope c.die1, some c.id, c.par 24 1⟩)
    (hgrant : r.2 ≠ .granted) : Becomes (.tableRehash id) s
      (if r.2 = .full then r.1.finish id (c.bad stRange 7) else r.1.setCmd c.id (fun c => { c with stage := .waiting, interim := true })) := by
  subst hr
  split
  · next hfull => exact becomes_of_ready (show execTableRehash id s = _ from rfl) h (Dev.cmdToken_full _ hfree hfull) rfl
  · next hfull => exact becomes_of_ready_later (show execTableRehash id s = _ from rfl) h (Dev.cmdToken_waits _ hfree hgrant hfull) rfl

end
end

/-- Settles O32: the commands of a node, the whole-table commands, then those of the forwarding tables. -/
theorem tableRows : Obligations.TableRows := by
  refine ⟨?_, ?_, ?_, ?_, ?_, ?_, ?_, ?_, ?_, ?_, ?_, ?_, ?_, ?_, ?_, ?_, ?_⟩
  · intro s id c e h hres
    exact nodeRead_resident h hres
  · intro s id c e h hres hcold
    exact nodeRead_cold h hres hcold
  · intro s id c h hres hcold
    exact nodeRead_absent h hres hcold
  · intro s id c h hbad
    exact nodeWrite_refused h hbad
  · intro s id c h hvalid hkey hnode
    exact nodeWrite_overwrites h hvalid hkey hnode
  · intro s id c d1 h hvalid hkey hnode hnew hask
    exact nodeWrite_asks h hvalid hkey hnode hnew hask
  · intro s id c d1 h hvalid hkey hnode hd1 hrefused
    exact nodeWrite_full h hvalid hkey hnode hd1 hrefused
  · intro s id c hnode
    exact nodeDelete_nodePin_absent hnode
  · intro s id c h hnode
    exact nodeDelete_deletes hnode h
  · intro s id c h hnode
    exact nodePin_pins hnode h
  · rintro s id c _ h rfl
    exact becomesWith_of_ready (show execTableDump id false s = _ from rfl) h rfl rfl
  · rintro s id c _ h htable hfree rfl hgrant
    have hrow := tableRehash_granted h hfree (by rwa [htable])
    simpa only [Dev.startRehash, htable, beq_self_eq_true, if_true] using hrow
  · rintro s id c _ h htable hfree rfl hgrant
    have hrow := tableRehash_granted h hfree (by rwa [htable])
    simpa only [Dev.startRehash, htable, Nat.reduceBEq, Bool.false_eq_true, if_false] using hrow
  · intro s id c r h hfree hr hgrant
    exact tableRehash_notGranted h hfree hr hgrant
  · intro s id c r h hr
    exact becomes_of_ready_reply (show execFwdAdd id false s = _ from rfl) h hr
  · intro s id c r h hr
    exact becomes_of_ready_reply (show execFwdDelete id false s = _ from rfl) h hr
  · intro s id c r h hr
    exact becomes_of_ready_reply (show execFwdFlush id s = _ from rfl) h hr

end Sys2Proof.Machine

/-! PROOFS. The front of the queue, the vector of the log (R545), and that holders of a region's token are compatible (R525 to R527). -/

namespace Sys2Proof.Machine
open Sys2Proof Sys2Proof.Safety

/-- Settles O45: a queue that begins with a command is that command on the rest of the queue. -/
theorem stepRunsFront : Obligations.StepRunsFront := by
  rintro c ⟨q, host, dev⟩ rest rfl
  exact step_cons c rest ⟨rest, host, dev⟩

/-- A conditional write of a register field leaves the outputs and the host link. -/
theorem Dev.when_w_out_hl (d : Dev) (b : Bool) (f : Fld) (v : Nat) :
    (d.when b (fun d => d.w f v)).out = d.out ∧ (d.when b (fun d => d.w f v)).hl = d.hl := by
  cases b <;> exact ⟨rfl, rfl⟩

/-- A conditional write of a register field leaves every field of another key. -/
theorem Dev.g_when_w_other (d : Dev) (b : Bool) {f f' : Fld} (v : Nat) (h : f'.key (f'.page 0 0) 0 ≠ f.key (f.page 0 0) 0) :
    (d.when b (fun d => d.w f v)).g f' = d.g f' := by
  cases b
  · rfl
  · exact Dev.g_w_other d f f' v 0 0 0 0 0 0 h

/-- A record kept in the RAM front, shown in CPT.LOG_STAT, LOG_NEWEST and LOG_OLDEST, and counted (R542, R554). -/
def Dev.logKept (d : Dev) (r : LogRec) : Dev :=
  let d := { d with log := { d.log with ram := d.log.ram ++ [r], last := r.seq } }
  let d := (d.w F.CPT.LOG_STAT_UNFLUSHED d.log.ram.length).w F.CPT.LOG_NEWEST_SEQ r.seq
  (d.when (d.g F.CPT.LOG_OLDEST_SEQ == 0) (fun d => d.w F.CPT.LOG_OLDEST_SEQ r.seq)).inc C.CPT.LOG_RECORDS

section
variable (d : Dev) (r : LogRec)

@[simp] theorem Dev.logKept_out : (d.logKept r).out = d.out := by
  rw [Dev.logKept, Dev.inc_out, (Dev.when_w_out_hl _ _ _ _).1]; rfl

@[simp] theorem Dev.logKept_hl : (d.logKept r).hl = d.hl := by
  rw [Dev.logKept, Dev.inc_hl, (Dev.when_w_out_hl _ _ _ _).2]; rfl

/-- Keeping a record leaves the severity that fires the vector. -/
theorem Dev.logKept_irqSev : (d.logKept r).g F.CPT.LOG_CFG_IRQ_SEV = d.g F.CPT.LOG_CFG_IRQ_SEV := by
  rw [Dev.logKept, Dev.g_inc, Dev.g_when_w_other _ _ _ (by decide +kernel), Dev.g_w_other _ _ _ _ _ _ _ _ _ _ (by decide +kernel),
    Dev.g_w_other _ _ _ _ _ _ _ _ _ _ (by decide +kernel)]
  rfl

end

/-- A record is kept, and vector 9 fires where its severity reaches IRQ_SEV (R545). -/
theorem Dev.logPut_eq (d : Dev) (code sev die : Nat) (data : List Byte) :
    ∃ r : LogRec, d.logPut code sev die data = (d.logKept r).when (decide (d.g F.CPT.LOG_CFG_IRQ_SEV ≤ sev)) (fun d => d.fireVec 9) := by
  refine ⟨{ seq := (d.log.last + 1) % 2 ^ 32, time := d.time.lt, code := code, sev := sev, die := die, data := padTo 12 data,
            boot := d.g F.BTL.BOOT_SEQ_SEQ % 65536 }, ?_⟩
  rw [← Dev.logKept_irqSev]
  rfl

/-- Settles O58: what vector 9 does while it is unmasked and while it is masked. -/
theorem logVector : Obligations.LogVector := by
  refine ⟨?_, ?_, ?_⟩
  · intro d code sev die data hsev hmask
    obtain ⟨r, hput⟩ := d.logPut_eq code sev die data
    rw [hput, decide_eq_true hsev, Dev.when, if_pos rfl, Dev.fireVec, Dev.logKept_hl, if_pos hmask]
    exact ⟨by rw [Dev.emit_out, Dev.logKept_out], Dev.logKept_hl d r⟩
  · intro d code sev die data hsev hmask
    obtain ⟨r, hput⟩ := d.logPut_eq code sev die data
    rw [hput, decide_eq_true hsev, Dev.when, if_pos rfl, Dev.fireVec, Dev.logKept_hl, if_neg (by simp [hmask])]
    exact ⟨Dev.logKept_out d r, rfl⟩
  · intro d code sev die data hsev
    obtain ⟨r, hput⟩ := d.logPut_eq code sev die data
    rw [hput, decide_eq_false (Nat.not_le.mpr hsev), Dev.when, if_neg Bool.false_ne_true]
    exact ⟨Dev.logKept_out d r, Dev.logKept_hl d r⟩

/-- Exclusion speaks of the holders alone. -/
theorem tokensOk_of_held_eq {d e : Dev} (h : TokensOk d) (heq : e.mt.held = d.mt.held) : TokensOk e := by
  unfold TokensOk
  rwa [heq]

/-- With no holder there is no conflict. -/
theorem tokensOk_of_held_nil {d : Dev} (h : d.mt.held = []) : TokensOk d := by
  simp only [TokensOk, h, List.Pairwise.nil]

/-- The grant of a request that can be granted keeps the holders compatible (R527). -/
theorem Dev.grant_tokensOk {d : Dev} (h : TokensOk d) {earlier : List TokenReq} {r : TokenReq} (hgrant : d.mt.grantable earlier r = true) :
    TokensOk (d.grant r) := by
  unfold TokensOk
  rw [Dev.grant_held]
  refine List.pairwise_append.mpr ⟨h, List.pairwise_singleton _ r, fun o ho r' hr' hover => ?_⟩
  obtain rfl := List.mem_singleton.mp hr'
  have hcompat := List.all_eq_true.mp hgrant o (List.mem_append_left _ ho)
  simpa [hover] using hcompat

/-- The grants to queued requests keep the holders compatible. -/
theorem Dev.drainTokens_tokensOk {d : Dev} (h : TokensOk d) : TokensOk d.drainTokens := by
  refine List.foldlRecOn (motive := TokensOk) d.mt.queue _ (tokensOk_of_held_eq h rfl) fun e he r _ => ?_
  dsimp only
  split
  · next hgrant => exact Dev.grant_tokensOk he (Bool.and_eq_true_iff.mp hgrant).2
  · exact tokensOk_of_held_eq he rfl

/-- A request for tokens keeps the holders compatible: what is granted can be granted, and a request that waits holds nothing. -/
theorem Dev.requestToken_tokensOk {d : Dev} (h : TokensOk d) (r : TokenReq) : TokensOk (d.requestToken r).1 := by
  unfold Dev.requestToken
  split
  · next hgrant => exact tokensOk_of_held_eq (Dev.grant_tokensOk h (Bool.and_eq_true_iff.mp hgrant).2) (by simp)
  · split
    · exact h
    · split
      · exact h
      · exact tokensOk_of_held_eq h (by simp)

/-- A release of tokens, with the grants that follow it, keeps the holders compatible. -/
theorem Dev.releaseToken_tokensOk {d : Dev} (h : TokensOk d) (act scope : Nat) : TokensOk (d.releaseToken act scope) := by
  unfold Dev.releaseToken
  split
  · exact h
  · next r _ =>
    refine tokensOk_of_held_eq (Dev.drainTokens_tokensOk ?_) (by rw [Dev.showMaint_mt, Dev.showTokens_mt])
    exact List.Pairwise.sublist List.erase_sublist h

/-- A command's end keeps the holders compatible: a chip reset leaves no holder. -/
theorem Dev.settle_tokensOk {d : Dev} (h : TokensOk d) : TokensOk d.settle := by
  unfold Dev.settle
  split
  · exact h
  · split
    · exact tokensOk_of_held_nil rfl
    · exact h

/-- Settles O59: at reset nothing is held, and requests, grants and releases keep the holders compatible. -/
theorem tokensExclusive : Obligations.TokensExclusive := by
  refine ⟨tokensOk_of_held_nil rfl, fun s act scope arg h => ⟨_, rfl, Dev.settle_tokensOk ?_⟩, fun s act scope h =>
    ⟨_, rfl, Dev.settle_tokensOk (Dev.releaseToken_tokensOk h act scope)⟩⟩
  dsimp only
  split
  · exact Dev.requestToken_tokensOk h _
  · exact h

end Sys2Proof.Machine

/-! PROOFS. Queues and meters, the lineups' timer events, and what a port takes from its queues (R366 to R391, Table 13-4). -/

namespace Sys2Proof.Machine
open Sys2Proof Sys2Proof.Safety

/-- The row of a command that is ready and writes its data buffer replies on the device that its body leaves. -/
theorem becomesWith_of_ready_reply {i : Instr} {s : State} {op id : Nat} {c : Cmd} {range : Dev → Cmd → Option Nat}
    {body : List Host.Cell → Dev → Cmd → Dev × Reply × List Byte} {d : Dev} {r : Reply} {bs : List Byte}
    (hexec : exec i s = runHost s (fun m d => d.runCmdH m op id false range body)) (h : Ready s.dev op id c range)
    (hbody : body s.host s.dev c = (d, r, bs)) : BecomesWith i s (d.reply id r) [(c.addr, bs)] := by
  rw [BecomesWith, hexec, runHost_eq, Dev.runCmdH_ready h, hbody]

section
variable {s : State} {id : Nat} {c : Cmd} (h : Ready s.dev 0x0201 id c (queueRange 16)) {r : Dev × Nat × Bool}
  (hr : r = applyRecs (fun d n b => d.queueSet c.die1 n b) (c.recs s.host 16) (c.par 24 2) s.dev 0)
include h hr

/-- QUEUE_SET applies its records up to the first that is refused: OK with their number, or RANGE with the number taken (R368, Table 13-4). -/
theorem queueSet_becomes :
    Becomes (.queueSet id false) s (r.1.finish id (if r.2.2 = true then c.ok r.2.1 else c.bad stRange r.2.1)) := by
  subst hr
  refine becomes_of_ready (show execQueueSet id false s = _ from rfl) h rfl ?_
  split <;> rfl

end

/-- SAMPLE_READ with one addressed die that is up writes the last samples of its queues (R387, Table 13-4). -/
theorem sampleRead_one {s : State} {id die : Nat} {c : Cmd} (h : Ready s.dev 0x0205 id c (queueRange 8))
    (hdie : ([1, 2] : List Nat).filter (fun die => bitOf c.target (die - 1) && s.dev.dieUp die) = [die]) :
    BecomesWith (.sampleRead id false) s (s.dev.reply id (s.dev.perDie c (fun d _ => (d, 0))).2)
      [(c.addr, (List.range c.cnt).flatMap (fun i =>
        toLE 4 (s.dev.queue die (c.par 24 2 + i)).smpDepth ++ toLE 4 (s.dev.queue die (c.par 24 2 + i)).smpSoj))] := by
  refine becomesWith_of_ready_reply (show execSampleRead id false s = _ from rfl) h ?_
  simp only [hdie, List.length_singleton, Nat.mod_one]
  rfl

section
variable {s : State} {die port : Nat}

/-- What keeps a lineup's event from its place: a closed order, QUIESCE, or a port of the other die (R127, R389). -/
theorem Dev.lineupHeld_iff (d : Dev) (die port : Nat) :
    (!d.seqOpen die || d.act == mQuiesce || portOwner port != die) = true ↔ d.seqOpen die = false ∨ d.act = mQuiesce ∨ portOwner port ≠ die := by
  simp only [Bool.or_eq_true, Bool.not_eq_true', beq_iff_eq, bne_iff_ne, or_assoc]

/-- LINEUP_GATE steps the port's gates as a numbered and journalled TIMER event, where nothing holds it (R389). -/
theorem lineupGate_becomes (s : State) (die port : Nat) : Becomes (.lineupGate die port) s
    (if s.dev.seqOpen die = false ∨ s.dev.act = mQuiesce ∨ portOwner port ≠ die then s.dev
    else ((s.dev.sequence die 5).journal die 5 0 s.dev.evTime (.gate port false)).gateNow die port) := by
  exact becomes_of_run (show execLineupGate die port s = _ from rfl) (if_congr (Dev.lineupHeld_iff s.dev die port) rfl rfl)

/-- LINEUP_TAKEOVER makes the pending bank active in the same way; with no bank pending it does nothing (R390). -/
theorem lineupTakeover_becomes (s : State) (die port : Nat) : Becomes (.lineupTakeover die port) s
    (if (s.dev.seqOpen die = false ∨ s.dev.act = mQuiesce ∨ portOwner port ≠ die) ∨ (s.dev.lineup die port).pending = none then s.dev
    else ((s.dev.sequence die 5).journal die 5 0 s.dev.evTime (.gate port true)).takeover die port) := by
  refine becomes_of_run (show execLineupTakeover die port s = _ from rfl) (if_congr ?_ rfl rfl)
  rw [Bool.or_eq_true, Dev.lineupHeld_iff, Option.isNone_iff_eq_none]

/-- Neither row has an effect where something holds it. -/
theorem lineup_held (h : s.dev.seqOpen die = false ∨ s.dev.act = mQuiesce ∨ portOwner port ≠ die) :
    NoEffect (.lineupGate die port) s ∧ NoEffect (.lineupTakeover die port) s := by
  have hgate := lineupGate_becomes s die port
  have htake := lineupTakeover_becomes s die port
  rw [if_pos h] at hgate
  rw [if_pos (.inl h)] at htake
  exact ⟨hgate, htake⟩

/-- LINEUP_LOAD runs the next commit where it is one of SCH with LOAD 1 (R390). -/
theorem lineupLoad_loads {pc : PendCommit} (hopen : s.dev.commitOpen die = true) (hnext : s.dev.nextCommit die = some pc) (htag : pc.tag = .SCH)
    (hload : snapGet pc.snap F.SCH.LUP_CTRL_LOAD ⟨.SCH, die, 0⟩ = 1) : Becomes (.lineupLoad die) s (s.dev.commitEvent die pc) := by
  refine becomes_of_run (show execLineupLoad die s = _ from rfl) ?_
  simp only [hopen, hnext, htag, hload, Bool.not_true, Bool.false_eq_true, if_false, beq_self_eq_true, Bool.and_self, if_true]

/-- With no such commit, or no commit that may be placed, it does nothing. -/
theorem lineupLoad_none (h : s.dev.commitOpen die = false ∨ s.dev.nextCommit die = none ∨
      ∃ pc, s.dev.nextCommit die = some pc ∧ (pc.tag ≠ .SCH ∨ snapGet pc.snap F.SCH.LUP_CTRL_LOAD ⟨.SCH, die, 0⟩ ≠ 1)) :
    NoEffect (.lineupLoad die) s := by
  refine becomes_of_run (show execLineupLoad die s = _ from rfl) ?_
  obtain hclosed | hnone | ⟨pc, hnext, hother⟩ := h
  · exact if_pos (by rw [hclosed]; rfl)
  · simp only [hnone, ite_self]
  · simp only [hnext]
    refine ite_eq_left_iff.mpr fun _ => if_neg ?_
    rw [Bool.and_eq_true, beq_iff_eq, beq_iff_eq]
    exact not_and_or.mpr hother

end

section
variable {s : State} {die port : Nat}

/-- What keeps a port from asking for a packet: another die's port, a die that is down, a mode that sends nothing, or a choice still under way (R127, R372). -/
theorem Dev.portIdle_iff (d : Dev) (die port : Nat) :
    (portOwner port != die || !d.dieUp die || !(d.act == mService || d.act == mBringup) || (d.portSt die port).taking) = true ↔
      portOwner port ≠ die ∨ d.dieUp die = false ∨ (d.act ≠ mService ∧ d.act ≠ mBringup) ∨ (d.portSt die port).taking = true := by
  simp only [Bool.or_eq_true, Bool.not_eq_true', Bool.or_eq_false_iff, beq_eq_false_iff_ne, bne_iff_ne, or_assoc]

/-- PORT_DEQUEUE of a port that asks for nothing does nothing. -/
theorem portDequeue_idle (h : portOwner port ≠ die ∨ s.dev.dieUp die = false ∨ (s.dev.act ≠ mService ∧ s.dev.act ≠ mBringup) ∨
    (s.dev.portSt die port).taking = true) (eg : EgressEnv) : NoEffect (.portDequeue die port eg) s :=
  becomes_of_run (show execPortDequeue die port eg s = _ from rfl) (if_pos ((Dev.portIdle_iff s.dev die port).mpr h))

section
variable {eg : EgressEnv} (hport : portOwner port = die) (hup : s.dev.dieUp die = true) (hact : s.dev.act = mService ∨ s.dev.act = mBringup)
  (hfree : (s.dev.portSt die port).taking = false)
include hport hup hact hfree

/-- A port of a working die that is free asks for a packet. -/
theorem Dev.portAsks :
    ¬(portOwner port != die || !s.dev.dieUp die || !(s.dev.act == mService || s.dev.act == mBringup) || (s.dev.portSt die port).taking) = true := by
  rw [Dev.portIdle_iff]
  rintro (h | h | ⟨hs, hb⟩ | h)
  · exact h hport
  · exact Bool.noConfusion (hup.symm.trans h)
  · exact hact.elim hs hb
  · exact Bool.noConfusion (hfree.symm.trans h)

/-- PORT_DEQUEUE of a port whose transmitter takes no packet counts a packet for a halted band alone (Table 1-6). -/
theorem portDequeue_busy (htakes : s.dev.portTakes port eg = false) : Becomes (.portDequeue die port eg) s
    (if (port = 24 ∨ port = 25) ∧ s.dev.bandRuns (port - 21) = false ∧ (s.dev.choose die port).any (fun q => !q.pkts.isEmpty) = true then
      s.dev.inc C.TXB.NO_CHAIN (port - 21) else s.dev) := by
  refine becomes_of_run (show execPortDequeue die port eg s = _ from rfl) ((if_neg (Dev.portAsks hport hup hact hfree)).trans ?_)
  simp only [htakes, Bool.not_false, if_true, Dev.when, Bool.and_eq_true, Bool.or_eq_true, beq_iff_eq, Bool.not_eq_true', and_assoc]

section
variable (htakes : s.dev.portTakes port eg = true) {d : Dev} (hd : d = s.dev.countGated die port)
include htakes hd

/-- PORT_DEQUEUE hands the head of the chosen queue to the transmitter, or drops it for its bad cells, and an EGRESS_DONE falls due (R366, R372, R374). -/
theorem portDequeue_takes {q : Queue} {p : Pkt} {rest : List Pkt} (hq : d.choose die port = some q) (hpkts : q.pkts = p :: rest)
    (hrec : d.recordWaits die p.seq = false) : Becomes (.portDequeue die port eg) s
      ((((if eg.bufErr = true then d.raise E.ING.BUF_ECC die else d.egress port p eg).setPort die port (fun st => { st with taking := true })).setRoute die
        (fun r => { r with int := r.int ++ [.egress port q.num] })).showLanes die) := by
  refine becomes_of_run (show execPortDequeue die port eg s = _ from rfl) ((if_neg (Dev.portAsks hport hup hact hfree)).trans ?_)
  simp only [htakes, Bool.not_true, Bool.false_eq_true, if_false, ← hd, hq, hpkts, List.head?_cons, hrec]

/-- With no packet chosen, or one whose record waits for its acknowledgement, it counts the packets that gates hold and no more (R389, R490). -/
theorem portDequeue_waits (hwait : (d.choose die port).all (fun q => q.pkts.head?.all (fun p => d.recordWaits die p.seq)) = true) :
    Becomes (.portDequeue die port eg) s d := by
  refine becomes_of_run (show execPortDequeue die port eg s = _ from rfl) ((if_neg (Dev.portAsks hport hup hact hfree)).trans ?_)
  simp only [htakes, Bool.not_true, Bool.false_eq_true, if_false, ← hd]
  cases hq : d.choose die port with
  | none => rfl
  | some q =>
    cases hp : q.pkts.head? with
    | none => simp only [hp]
    | some p =>
      have hrec : d.recordWaits die p.seq = true := by simpa [hq, hp] using hwait
      simp only [hp, hrec, if_true]

end
end
end

/-- Settles O33: the queue and meter commands, the timer events of shapers, sampler and lineups, and PORT_DEQUEUE. -/
theorem schedulingRows : Obligations.SchedulingRows := by
  refine ⟨?_, ?_, ?_, ?_, ?_, ?_, ?_, ?_, ?_, ?_, ?_, ?_, ?_, ?_, ?_, ?_, ?_, ?_, ?_⟩
  · intro s id c r h hr hall
    have hset := queueSet_becomes h hr
    rwa [if_pos hall] at hset
  · intro s id c r h hr hstop
    have hset := queueSet_becomes h hr
    rwa [if_neg (by simp [hstop])] at hset
  · intro s id c h
    exact becomesWith_of_ready (show execQueueRead id false s = _ from rfl) h rfl rfl
  · intro s id c h
    exact becomes_of_ready (show execQueueFlush id s = _ from rfl) h rfl rfl
  · intro s id c r h hr
    exact becomes_of_ready_reply (show execPolicerSet id false s = _ from rfl) h hr
  · intro s id c die h hdie
    exact sampleRead_one h hdie
  · intro s die queues hopen hstep
    exact timerRow_open (kind := b2n queues) rfl hopen hstep
  · intro s die hopen hstep
    exact timerRow_open (kind := 5) rfl hopen hstep
  · intro s die port queues hclosed
    exact ⟨timerRow_closed (kind := b2n queues) rfl hclosed, timerRow_closed (kind := 5) rfl hclosed, lineup_held (.inl hclosed)⟩
  · intro s die port h
    exact lineup_held (.inr h)
  · intro s die port hnone
    have htake := lineupTakeover_becomes s die port
    rwa [if_pos (.inr hnone)] at htake
  · intro s die h
    exact lineupLoad_none h
  · rintro s die port d1 hopen hact hport rfl
    have hgate := lineupGate_becomes s die port
    rwa [if_neg (by simp [hopen, hact, hport])] at hgate
  · intro s die pc hopen hnext htag hload
    exact lineupLoad_loads hopen hnext htag hload
  · rintro s die port d1 hopen hact hport hpending rfl
    have htake := lineupTakeover_becomes s die port
    rwa [if_neg (by simp [hopen, hact, hport, Option.isSome_iff_ne_none.mp hpending])] at htake
  · intro s die port eg d1 q p rest hport hup hact hfree htakes hd1 hq hpkts hrec
    exact portDequeue_takes hport hup hact hfree htakes hd1 hq hpkts hrec
  · intro s die port eg d1 hport hup hact hfree htakes hd1 hwait
    exact portDequeue_waits hport hup hact hfree htakes hd1 hwait
  · intro s die port eg h
    exact portDequeue_idle h eg
  · intro s die port eg hport hup hact hfree htakes
    exact portDequeue_busy hport hup hact hfree htakes

end Sys2Proof.Machine

/-! PROOFS. The Ethernet ports: receive, transmit, link, pause, flow control, timestamps and management (R399 to R413). -/

namespace Sys2Proof.Machine
open Sys2Proof Sys2Proof.Safety

section
variable {s : State} {port : Nat}

/-- ETH_FRAME_RX tests code, FCS, the least length and MAXLEN in this order, counts the first that fails, and accepts a frame that passes (R402). -/
theorem ethFrameRx_checks {frame : List Byte} {codeErr fcs : Bool} {n : Nat} (hup : s.dev.ethUp port = true)
    (hlink : s.dev.on F.ETH.STAT_LINK 0 port = true) (hn : n = frame.length)
    (hfcs : fcs = (decide (4 ≤ n) && leAt frame (n - 4) 4 == crc32eth (frame.take (n - 4)))) :
    Becomes (.ethFrameRx port frame codeErr) s
      (if codeErr = true ∨ fcs = false ∨ n < 64 ∨ s.dev.g F.ETH.MAC_CFG_MAXLEN 0 port < n then
        s.dev.inc (if codeErr = true then C.ETH.RX_CODE_ERR else if fcs = false then C.ETH.RX_FCS_ERR else if n < 64 then C.ETH.RX_RUNT
          else C.ETH.RX_OVERSIZE) 0 port
      else s.dev.ethAccept port frame) := by
  refine becomes_of_run (show execEthFrameRx port frame codeErr s = _ from rfl) ((if_neg (by simp [hup, hlink])).trans ?_)
  have hbad : (decide (n < 4) || leAt frame (n - 4) 4 != crc32eth (frame.take (n - 4))) = !fcs := by
    simp only [hfcs, Bool.not_and, bne, ← decide_not, Nat.not_le]
  simp only [← hn, hbad]
  cases codeErr
  · cases fcs
    · rfl
    · by_cases hrunt : n < 64
      · simp [hrunt]
      · simp [hrunt]
  · rfl

/-- ETH_FRAME_RX of a MAC that is down or has no link does nothing (R401). -/
theorem ethFrameRx_off (h : s.dev.ethUp port = false ∨ s.dev.on F.ETH.STAT_LINK 0 port = false) (frame : List Byte) (codeErr : Bool) :
    NoEffect (.ethFrameRx port frame codeErr) s :=
  becomes_of_run (show execEthFrameRx port frame codeErr s = _ from rfl) (if_pos (by simpa using h))

/-- ETH_TX_START of a packet that nothing holds back sends it, padded and with its FCS, counts it and stamps the time of a message that it recognises
(R405, R406, R409, R411). -/
theorem ethTxStart_sends {p : Pkt} {b : List Byte} {d : Dev} (htx : (s.dev.ethP port).tx = some p) (hup : s.dev.ethUp port = true)
    (hlink : s.dev.on F.ETH.STAT_LINK 0 port = true) (hradiate : s.dev.mayRadiate = true) (hact : s.dev.act ≠ mQuiesce)
    (hpause : bitOf (s.dev.g F.ETH.STAT_PAUSED 0 port) p.cls = false) (hb : b = (if p.data.length < 60 then padTo 60 p.data else p.data))
    (hd : d = ((((s.dev.setEth port (fun e => { e with
        tx := none, wire := some (b ++ toLE 4 (crc32eth b)), wireEnd := s.dev.wireTime port (b ++ toLE 4 (crc32eth b)).length })).emit
          (.ethFrame port (b ++ toLE 4 (crc32eth b)))).when (decide (p.data.length < 60)) (fun d => d.inc C.ETH.TX_PADDED 0 port)).inc
            C.ETH.TX_FRAMES 0 port).addc C.ETH.TX_OCTETS (b ++ toLE 4 (crc32eth b)).length 0 port) :
    Becomes (.ethTxStart port) s (if d.on F.ETH.PTP_CFG_TX_EN 0 port then (d.ptpInfo port b).elim d (fun i => d.stamp port i true) else d) := by
  subst hb hd
  refine becomes_of_run (show execEthTxStart port s = _ from rfl) ?_
  simp only [htx]
  exact if_neg (by simp [hup, hlink, hradiate, hact, hpause])

/-- ETH_TX_START of no packet, or of one that something holds back, does nothing (R401, R405, R409). -/
theorem ethTxStart_held (h : s.dev.ethUp port = false ∨ s.dev.on F.ETH.STAT_LINK 0 port = false ∨
      (s.dev.ethP port).tx.all (fun p => !s.dev.mayRadiate || s.dev.act == mQuiesce || bitOf (s.dev.g F.ETH.STAT_PAUSED 0 port) p.cls) = true) :
    NoEffect (.ethTxStart port) s := by
  refine becomes_of_run (show execEthTxStart port s = _ from rfl) ?_
  cases htx : (s.dev.ethP port).tx with
  | none => rfl
  | some p => exact if_pos (by simpa [htx, or_assoc] using h)

/-- ETH_TX_UNDERRUN of a MAC that is down, sends nothing, or is at step 7 does nothing (R407). -/
theorem ethTxUnderrun_none (h : s.dev.ethUp port = false ∨ s.dev.onWire port = none ∨ s.dev.g F.ETH.TX_STEP_STEP 0 port = 7) :
    NoEffect (.ethTxUnderrun port) s :=
  becomes_of_run (show execEthTxUnderrun port s = _ from rfl) (if_pos (by simpa [or_assoc] using h))

/-- ETH_TX_UNDERRUN cuts the frame, counts it, moves STEP up and raises TX_UNDERRUN (R407). -/
theorem ethTxUnderrun_cuts {step : Nat} (hstep : step = s.dev.g F.ETH.TX_STEP_STEP 0 port) (hup : s.dev.ethUp port = true)
    (hwire : s.dev.onWire port ≠ none) (hlow : step ≠ 7) : Becomes (.ethTxUnderrun port) s
      (((((((s.dev.setEth port (fun e => { e with wire := none })).emit (.ethUnderrun port)).inc C.ETH.TX_UNDERRUN 0 port)).w
        F.ETH.TX_STEP_STEP (step + 1) 0 port).showStep port).raise E.ETH.TX_UNDERRUN 0 port) := by
  subst hstep
  exact becomes_of_run (show execEthTxUnderrun port s = _ from rfl) (if_neg (by simp [hup, hwire, hlow]))

/-- ETH_LINK_UP of a MAC that is down, disabled, or in standby does nothing (R401, R444). -/
theorem ethLinkUp_off (h : s.dev.ethUp port = false ∨ s.dev.g F.ETH.MODE_PCS 0 port = 0 ∨ bitOf (s.dev.g F.GWY.STANDBY_ETH_PORT) port = true) :
    NoEffect (.ethLinkUp port) s :=
  becomes_of_run (show execEthLinkUp port s = _ from rfl) (if_pos (by simpa [or_assoc] using h))

/-- The pause rows do nothing at a MAC that is down; ETH_PAUSE_RX needs a link, ETH_PAUSE_EXPIRY a class (R408). -/
theorem ethPauseRx_off (h : s.dev.ethUp port = false ∨ s.dev.on F.ETH.STAT_LINK 0 port = false) (opcode enables : Nat) (times : List Nat) :
    NoEffect (.ethPauseRx port opcode enables times) s :=
  becomes_of_run (show execEthPauseRx port opcode enables times s = _ from rfl) (if_pos (by simpa using h))

theorem ethPauseExpiry_off {cls : Nat} (h : s.dev.ethUp port = false ∨ 8 ≤ cls) : NoEffect (.ethPauseExpiry port cls) s :=
  becomes_of_run (show execEthPauseExpiry port cls s = _ from rfl) (if_pos (by simpa using h))

/-- ETH_FC_REPEAT of a port that sends no flow control, is not off, or whose lane is at most at XON does nothing (R410). -/
theorem ethFcRepeat_off (h : s.dev.fcMay port = false ∨ (s.dev.ethP port).xoff = false ∨ s.dev.wiredLane port ≤ s.dev.g F.ETH.FC_THR_XON 0 port) :
    NoEffect (.ethFcRepeat port) s :=
  becomes_of_run (show execEthFcRepeat port s = _ from rfl) (if_pos (by simpa [or_assoc] using h))

/-- ETH_FC_XON of a port that sends no flow control, is not off, or whose lane is above XON does nothing (R410). -/
theorem ethFcXon_off (h : s.dev.fcMay port = false ∨ (s.dev.ethP port).xoff = false ∨ s.dev.g F.ETH.FC_THR_XON 0 port < s.dev.wiredLane port) :
    NoEffect (.ethFcXon port) s :=
  becomes_of_run (show execEthFcXon port s = _ from rfl) (if_pos (by simpa [or_assoc] using h))

end

section
variable {s : State} {data : Nat} {p : Page}


/-- What MDIO_CMD keeps of a write (R413, Table 14-3). -/
def Dev.mdioKept (d : Dev) (data : Nat) : Dev :=
  (((((d.w F.ETH.MDIO_CMD_DATA (bitsOf data 0 16)).w F.ETH.MDIO_CMD_REG (bitsOf data 16 5)).w F.ETH.MDIO_CMD_PHYAD (bitsOf data 21 5)).w
    F.ETH.MDIO_CMD_OP (bitsOf data 26 2)).w F.ETH.MDIO_CMD_CL45 (bitsOf data 28 1)).w F.ETH.MDIO_CMD_GO (bitsOf data 30 1)

/-- MDIO_CMD on an idle interface with an OP of its clause keeps its fields, and with GO 1 sets BUSY and starts the operation; otherwise it is ignored
(R413). -/
theorem mdioCmd_becomes (h : Writable s.dev 0 0x010 p) : Becomes (.mdioCmd data) s
    (if s.dev.on F.ETH.MDIO_CMD_BUSY = true ∨ bitOf data 28 = false ∧ (bitsOf data 26 2 = 0 ∨ bitsOf data 26 2 = 3) then s.dev
    else if bitOf data 30 = false then s.dev.mdioKept data
    else ((s.dev.mdioKept data).w F.ETH.MDIO_CMD_BUSY 1).emit (.mdio (bitOf data 28) (bitsOf data 26 2) (bitsOf data 21 5) (bitsOf data 16 5)
      ((s.dev.mdioKept data).g F.ETH.MDIO_DEVAD_D) (bitsOf data 0 16))) := by
  have hrow : Becomes (.mdioCmd data) s _ := becomes_of_pageWrite (show execMdioCmd data s = _ from rfl) h
  simp only [Bool.or_eq_true, Bool.and_eq_true, Bool.not_eq_true', beq_iff_eq] at hrow
  exact hrow

end

/-- Settles O34: receive, transmit, link, pause and flow control, then timestamps and the management interface. -/
theorem ethernetRows : Obligations.EthernetRows := by
  refine ⟨?_, ?_, ?_, ?_, ?_, ?_, ?_, ?_, ?_, ?_, ?_, ?_, ?_, ?_, ?_, ?_, ?_, ?_, ?_, ?_, ?_, ?_, ?_, ?_, ?_, ?_⟩
  · intro s port frame n hup hlink hn hmin hmax hcrc
    have hrx := ethFrameRx_checks (codeErr := false) hup hlink hn rfl
    rwa [if_neg (by simp [hcrc]; omega)] at hrx
  · intro s port frame codeErr n fcs hup hlink hn hfcs hbad
    have hrx := ethFrameRx_checks (codeErr := codeErr) hup hlink hn hfcs
    rwa [if_pos hbad] at hrx
  · intro s port p b d1 htx hup hlink hradiate hact hpause hb hd1
    exact ethTxStart_sends htx hup hlink hradiate hact hpause hb hd1
  · intro s port step hstep hup hwire hlow
    exact ethTxUnderrun_cuts hstep hup hwire hlow
  · intro s port hup hpcs hstandby
    exact becomes_of_run (show execEthLinkUp port s = _ from rfl) (if_neg (by simp [hup, hpcs, hstandby]))
  · intro s port lock localFault remoteFault hup
    exact becomes_of_run (show execEthLinkDown port lock localFault remoteFault s = _ from rfl) (if_neg (by simp [hup]))
  · intro s port opcode enables times hup hlink
    exact becomes_of_run (show execEthPauseRx port opcode enables times s = _ from rfl) (if_neg (by simp [hup, hlink]))
  · intro s port cls hup hcls
    exact becomes_of_run (show execEthPauseExpiry port cls s = _ from rfl) (if_neg (by simp [hup, hcls]))
  · intro s port hmay hon hfill
    exact becomes_of_run (show execEthFcXoff port s = _ from rfl) (if_neg (by simp [hmay, hon, hfill]))
  · intro s port hmay hoff hfill
    exact becomes_of_run (show execEthFcRepeat port s = _ from rfl) (if_neg (by simp [hmay, hoff, hfill]))
  · intro s port hmay hoff hfill
    exact becomes_of_run (show execEthFcXon port s = _ from rfl) (if_neg (by simp [hmay, hoff, hfill]))
  · intro s port frame codeErr opcode enables times lock localFault remoteFault cls hdown
    exact ⟨ethFrameRx_off (.inl hdown) frame codeErr, ethTxStart_held (.inl hdown), ethTxUnderrun_none (.inl hdown), ethLinkUp_off (.inl hdown),
      becomes_of_run (show execEthLinkDown port lock localFault remoteFault s = _ from rfl) (if_pos (by simp [hdown])),
      ethPauseRx_off (.inl hdown) opcode enables times, ethPauseExpiry_off (.inl hdown)⟩
  · intro s port frame codeErr opcode enables times hlink
    exact ⟨ethFrameRx_off (.inr hlink) frame codeErr, ethTxStart_held (.inr (.inl hlink)), ethPauseRx_off (.inr hlink) opcode enables times⟩
  · intro s port hheld
    exact ethTxStart_held (.inr (.inr hheld))
  · intro s port h
    exact ethTxUnderrun_none (.inr h)
  · intro s port h
    exact ethLinkUp_off (.inr h)
  · intro s port cls hcls
    exact ethPauseExpiry_off (.inr hcls)
  · intro s port h
    exact becomes_of_run (show execEthFcXoff port s = _ from rfl) (if_pos (by simpa [or_assoc] using h))
  · intro s port h
    exact ⟨ethFcRepeat_off (h.imp_right .inl), ethFcXon_off (h.imp_right .inl)⟩
  · intro s port
    exact ⟨fun hlow => ethFcRepeat_off (.inr (.inr hlow)), fun hhigh => ethFcXon_off (.inr (.inr hhigh))⟩
  · intro s port data p h htag
    have hpop : Becomes (.tsPop port data) s _ := becomes_of_pageWrite (show execTsPop port data s = _ from rfl) h
    rwa [if_neg (by simp [htag])] at hpop
  · intro s data p h hidle hop hgo
    have hcmd := mdioCmd_becomes (data := data) h
    rwa [if_neg (by rcases hop with hop | hop | hop <;> simp [hidle, hop]), if_neg (by simp [hgo])] at hcmd
  · intro s data p h hidle hop hgo
    have hcmd := mdioCmd_becomes (data := data) h
    rwa [if_neg (by rcases hop with hop | hop | hop <;> simp [hidle, hop]), if_pos hgo] at hcmd
  · intro s data p h hrefused
    have hcmd := mdioCmd_becomes (data := data) h
    rwa [if_pos hrefused] at hcmd
  · intro s data hidle
    exact becomes_of_run (show execMdioDone data s = _ from rfl) (if_pos (by simp [hidle]))
  · intro s data hbusy
    exact becomes_of_run (show execMdioDone data s = _ from rfl) (if_neg (by simp [hbusy]))

end Sys2Proof.Machine

/-! PROOFS. CAN frames, the receive queues and transmit entries, and STANDBY_RELEASE (R417, R421 to R425, R431, R434, R444). -/

namespace Sys2Proof.Machine
open Sys2Proof Sys2Proof.Safety

/-- A row that writes one page which can be written becomes what the write there leaves. -/
theorem becomes_of_write {s : State} {die page off : Nat} {p : Page} {lockable : Bool} {f : Dev → Page → Dev} {i : Instr} {d : Dev}
    (hexec : exec i s = run s (fun d => d.pageWrite die page off lockable f)) (h : Writable s.dev die page p) (hd : f s.dev p = d) : Becomes i s d :=
  hd ▸ becomes_of_pageWrite hexec h

/-- A device function on a condition that is decided. -/
theorem Dev.when_decide (d : Dev) (P : Prop) [Decidable P] (f : Dev → Dev) : d.when (decide P) f = if P then f d else d := by
  simp only [Dev.when, decide_eq_true_eq]

section
variable {s : State} {bus : Nat} {f : CanRx} {res : Bool}

/-- CAN_FRAME_RX on a bus that is not heard does nothing (R418). -/
theorem canFrameRx_unheard (h : s.dev.canHears bus = false) : NoEffect (.canFrameRx bus f res) s :=
  becomes_of_run (show execCanFrameRx bus f res s = _ from rfl) (if_pos (by rw [h]; rfl))

section
variable (hears : s.dev.canHears bus = true)
include hears

/-- CAN_FRAME_RX of an FD frame that the controller does not decode counts a protocol exception (R417). -/
theorem canFrameRx_exception (hfd : f.fdf = true) (hres : res = true ∨ s.dev.on F.CAN.CTRL_FD_EN 0 bus = false) :
    Becomes (.canFrameRx bus f res) s (s.dev.inc C.CAN.PXE 0 bus) :=
  becomes_of_run (show execCanFrameRx bus f res s = _ from rfl) ((if_neg (by simp [hears])).trans (if_pos (by simpa [hfd] using hres)))

section
variable (hplain : f.fdf = false ∨ (res = false ∧ s.dev.on F.CAN.CTRL_FD_EN 0 bus = true)) {d1 : Dev}
  (hd1 : d1 = (s.dev.inc C.CAN.RX_FRAMES 0 bus).canGood bus)
include hplain hd1

/-- In QUIESCE a frame is counted and dropped (R127). -/
theorem canFrameRx_quiesce (hact : d1.act = mQuiesce) : Becomes (.canFrameRx bus f res) s (d1.inc C.CAN.RX_QUIESCE 0 bus) := by
  refine becomes_of_run (show execCanFrameRx bus f res s = _ from rfl) ((if_neg (by simp [hears])).trans ?_)
  refine (if_neg (by rcases hplain with h | ⟨h, hen⟩ <;> simp [*])).trans ?_
  simp only [← hd1, hact, beq_self_eq_true, if_true]

section
variable (hact : d1.act ≠ mQuiesce) {a n : Nat} {x : CanFrame}
  (hx : x = { id := f.id, ide := f.ide, fd := f.fdf, brs := f.brs, rtr := f.rtr, data := f.data.take 64, src := bus, time := d1.evTime,
              esi := f.esi, dlc := f.dlc, filt := n })
include hact hx

/-- A frame that a high-priority filter takes goes to the high-priority buffer, and with the gateway's action in normal operation to the gateway
(R421 to R423, R434). -/
theorem canFrameRx_highPriority {i : Nat} (hfilter : d1.canFilter bus f = (some i, a, n)) {d2 : Dev} (hd2 : d2 = d1.toHp bus (x.entry d1.time.lt 64)) :
    Becomes (.canFrameRx bus f res) s (if a = 2 ∧ d2.canMode bus = 1 then d2.toGateway x else d2) := by
  subst hd2 hx
  refine becomes_of_run (show execCanFrameRx bus f res s = _ from rfl) ((if_neg (by simp [hears])).trans ?_)
  refine (if_neg (by rcases hplain with h | ⟨h, hen⟩ <;> simp [*])).trans ?_
  simp only [← hd1, beq_eq_false_iff_ne.mpr hact, Bool.false_eq_true, if_false, hfilter, Dev.when_beq, ite_and]

/-- Any other frame goes by its filter's action: counted with action 0, else to the receive queue, to the gateway in normal operation, or both
(R421 to R423, R434). -/
theorem canFrameRx_byAction (hfilter : d1.canFilter bus f = (none, a, n)) {d2 : Dev}
    (hd2 : d2 = (if a % 2 = 1 then d1.toRxq bus (x.entry d1.time.lt 64) else d1)) :
    Becomes (.canFrameRx bus f res) s
      (if a = 0 then d1.inc C.CAN.RX_FILTERED 0 bus else if 2 ≤ a ∧ d2.canMode bus = 1 then d2.toGateway x else d2) := by
  subst hd2 hx
  refine becomes_of_run (show execCanFrameRx bus f res s = _ from rfl) ((if_neg (by simp [hears])).trans ?_)
  refine (if_neg (by rcases hplain with h | ⟨h, hen⟩ <;> simp [*])).trans ?_
  simp only [← hd1, beq_eq_false_iff_ne.mpr hact, Bool.false_eq_true, if_false, hfilter, Dev.when_beq, Dev.when_decide, ite_and, beq_iff_eq]

end
end
end

/-- CAN_FRAME_EVENT of a frame that heads the wired lane and may be placed is numbered, journalled and given to the gateway (R434). -/
theorem canFrameEvent_placed {x : CanFrame} {rest : List WiredIn} {d : Dev} (hwired : (s.dev.route 1).wired = .can x :: rest)
    (hplace : s.dev.mayPlace 1 1 = true)
    (hd : d = ((s.dev.setRoute 1 (fun r => { r with wired := rest })).place 1 1 2).journal 1 2 0 x.time (.wired (.can x))) :
    Becomes .canFrameEvent s ((d.gwPut { seq := d.seqNow 1, ing := x.src, bus := 0, frame := x }).showLanes 1) := by
  subst hd
  refine becomes_of_run (show execCanFrameEvent s = _ from rfl) ?_
  simp only [hwired, hplace, Bool.not_true, Bool.false_eq_true, if_false]

/-- With another head or none it does nothing. -/
theorem canFrameEvent_other (h : ∀ x, (s.dev.route 1).wired.head? ≠ some (.can x)) : NoEffect .canFrameEvent s := by
  refine becomes_of_run (show execCanFrameEvent s = _ from rfl) ?_
  cases hwired : (s.dev.route 1).wired with
  | nil => rfl
  | cons w rest =>
    cases w with
    | can x => exact absurd (by rw [hwired]; rfl) (h x)
    | eth y => rfl
    | fab l y t b => rfl

end

section
variable {s : State} {bus data : Nat} {p : Page} (h : Writable s.dev 0 (0x020 + bus) p) (htag : p.tag = .CAN)
include h htag

/-- CAN_TX_ACK frees an entry in a final state and leaves any other (R425). -/
theorem canTxAck_becomes {st : Nat} (hst : st = ((s.dev.canC p.inst).ent (data % 64)).st) : Becomes (.canTxAck bus data) s
    (if st = 0 ∨ st = 1 ∨ st = 2 ∨ st = 8 then s.dev else s.dev.canState p.inst (data % 64) 0) := by
  subst hst
  refine becomes_of_write (show execCanTxAck bus data s = _ from rfl) h ((if_neg (by simp [htag])).trans (if_congr ?_ rfl rfl))
  simp only [Bool.or_eq_true, beq_iff_eq, or_assoc]

/-- CAN_TX_ABORT ends a pending or held entry, marks one on the bus, and leaves any other (R428). -/
theorem canTxAbort_becomes {st : Nat} (hst : st = ((s.dev.canC p.inst).ent (data % 64)).st) : Becomes (.canTxAbort bus data) s
    (if st = 1 ∨ st = 8 then s.dev.canState p.inst (data % 64) 9
    else if st = 2 then s.dev.setCan p.inst (fun c => c.setEnt (data % 64) (fun x => { x with abort := true })) else s.dev) := by
  subst hst
  refine becomes_of_write (show execCanTxAbort bus data s = _ from rfl) h ((if_neg (by simp [htag])).trans (if_congr ?_ rfl (if_congr ?_ rfl rfl)))
  · simp only [Bool.or_eq_true, beq_iff_eq]
  · exact beq_iff_eq

end

/-- Settles O35: received frames and their event, the queues' acknowledgements, the transmit entries, and the ends of standby. -/
theorem canFramesAndQueues : Obligations.CanFramesAndQueues := by
  refine ⟨?_, ?_, ?_, ?_, ?_, ?_, ?_, ?_, ?_, ?_, ?_, ?_, ?_, ?_, ?_, ?_, ?_, ?_, ?_⟩
  · intro s bus f res hdeaf
    exact canFrameRx_unheard hdeaf
  · intro s bus f res hears hfd hres
    exact canFrameRx_exception hears hfd hres
  · intro s bus f res i a n d1 x d2 hears hplain hd1 hact hfilter hx hd2
    exact canFrameRx_highPriority hears hplain hd1 hact hx hfilter hd2
  · intro s bus f res a n d1 x d2 hears hplain hd1 hact hfilter hx hd2
    exact canFrameRx_byAction hears hplain hd1 hact hx hfilter hd2
  · intro s bus f res d1 hears hplain hd1 hact
    exact canFrameRx_quiesce hears hplain hd1 hact
  · intro s f rest d1 hwired hplace hd1
    exact canFrameEvent_placed hwired hplace hd1
  · intro s hother
    exact canFrameEvent_other hother
  · intro s bus data p h htag
    refine becomes_of_write (show execCanRxAck bus data s = _ from rfl) h ((if_neg (by simp [htag])).trans ?_)
    refine congrArg (fun g => (s.dev.setCan p.inst g).showCanRx p.inst) (funext fun c => ?_)
    obtain ⟨op, sleepPend, tx, rxq, hp, rxHead, pushes⟩ := c
    cases rxq <;> cases bitOf data 0 <;> cases bitOf data 1 <;> rfl
  · intro s bus word data p i h htag hword hi hfree
    exact becomes_of_write (show execCanTxWinWrite bus word data s = _ from rfl) h
      ((if_neg (by simp [htag, hword])).trans ((if_neg (by simp [← hi, hfree])).trans (by rw [hi])))
  · intro s bus word data p h htag hword hbusy
    exact becomes_of_write (show execCanTxWinWrite bus word data s = _ from rfl) h ((if_neg (by simp [htag, hword])).trans (if_pos (by simp [hbusy])))
  · intro s bus data p h htag hbusy
    exact becomes_of_write (show execCanTxPush bus data s = _ from rfl) h ((if_neg (by simp [htag])).trans (if_pos (by simp [hbusy])))
  · intro s bus data p h htag hfree
    exact becomes_of_write (show execCanTxPush bus data s = _ from rfl) h ((if_neg (by simp [htag])).trans (if_neg (by simp [hfree])))
  · intro s bus data p st h htag hst h0 h1 h2 h8
    have hack := canTxAck_becomes h htag hst
    rwa [if_neg (by simp [h0, h1, h2, h8])] at hack
  · intro s bus data p st h htag hst hopen
    have hack := canTxAck_becomes h htag hst
    rwa [if_pos hopen] at hack
  · intro s bus data p st h htag hst h1 h2 h8
    have habort := canTxAbort_becomes h htag hst
    rwa [if_neg (by simp [h1, h8]), if_neg h2] at habort
  · intro s bus data p h htag hwaits
    have habort := canTxAbort_becomes (data := data) h htag rfl
    rwa [if_pos hwaits] at habort
  · intro s bus data p h htag hactive
    have habort := canTxAbort_becomes (data := data) h htag rfl
    rwa [if_neg (by simp [hactive]), if_pos hactive] at habort
  · intro s data p h
    exact becomes_of_write (show execStandbyRelease true data s = _ from rfl) h rfl
  · intro s data p h
    exact becomes_of_write (show execStandbyRelease false data s = _ from rfl) h rfl

end Sys2Proof.Machine

/-! PROOFS. CAN attempts, time-aware entries, error confinement, sleep and wake (R418, R420, R425 to R433). -/

namespace Sys2Proof.Machine
open Sys2Proof Sys2Proof.Safety

section
variable {s : State} {bus : Nat}

/-- What keeps a controller from starting an attempt: no normal operation, bus-off, no possession where it is required, or an attempt on the bus (R418,
R426, Table 17-2). -/
theorem Dev.canQuiet_iff (d : Dev) (bus : Nat) :
    (d.canMode bus != 1 || decide (2 ≤ d.g F.CAN.STAT_STATE 0 bus) || !d.mayRadiate || (d.canC bus).tx.any (fun x => x.st == 2)) = true ↔
      d.canMode bus ≠ 1 ∨ 2 ≤ d.g F.CAN.STAT_STATE 0 bus ∨ d.mayRadiate = false ∨ (d.canC bus).tx.any (fun x => x.st == 2) = true := by
  simp only [Bool.or_eq_true, bne_iff_ne, decide_eq_true_eq, Bool.not_eq_true', or_assoc]

/-- CAN_ARBITRATION of a controller that may send puts the first contender on the bus (R426). -/
theorem canArbitration_sends {x : CanTx} (hmode : s.dev.canMode bus = 1) (hstate : s.dev.g F.CAN.STAT_STATE 0 bus < 2)
    (hradiate : s.dev.mayRadiate = true) (hidle : (s.dev.canC bus).tx.any (fun x => x.st == 2) = false)
    (hfirst : (s.dev.contenders bus).foldl (fun (b : Option CanTx) x => some (b.elim x (fun y => if x.before y then x else y))) none = some x) :
    Becomes (.canArbitration bus) s (s.dev.canState bus x.idx 2) := by
  refine becomes_of_run (show execCanArbitration bus s = _ from rfl) ((if_neg ?_).trans (by rw [hfirst]))
  rw [Dev.canQuiet_iff]
  simp only [hmode, hradiate, hidle, ne_eq, not_true_eq_false, Bool.true_eq_false, Bool.false_eq_true, or_false, Nat.not_le.mpr hstate,
    not_false_eq_true]

/-- With no contender, or of a controller that may not send, it does nothing. -/
theorem canArbitration_none (h : s.dev.canMode bus ≠ 1 ∨ 2 ≤ s.dev.g F.CAN.STAT_STATE 0 bus ∨ s.dev.mayRadiate = false ∨
    (s.dev.canC bus).tx.any (fun x => x.st == 2) = true ∨ s.dev.contenders bus = []) : NoEffect (.canArbitration bus) s := by
  refine becomes_of_run (show execCanArbitration bus s = _ from rfl) (ite_eq_left_iff.mpr fun hmay => ?_)
  have hnone : s.dev.contenders bus = [] := by
    rw [Dev.canQuiet_iff] at hmay
    tauto
  rw [hnone]
  rfl

section
variable {x : CanTx} (hactive : s.dev.canActive bus = some x) {tdcv : Nat} {d1 : Dev}
  (hd1 : d1 = (if x.brs = true ∧ s.dev.on F.CAN.TDC_CFG_EN 0 bus = true ∧ s.dev.g F.CAN.TDC_CFG_TDCF 0 bus ≤ tdcv then
    s.dev.w F.CAN.STAT_TDCV tdcv 0 bus else s.dev))
include hactive hd1

/-- The end of an attempt shows the delay where compensation applied, does what its outcome asks for, and then lets a sleep request that waited take
effect (R420, R433). -/
theorem canTxAttemptEnd_becomes (how : AttemptEnd) : Becomes (.canTxAttemptEnd bus how tdcv) s (slept (match how with
    | .sent =>
      let d := (d1.emit (.canFrame bus x.bytes)).w F.CAN.STAT_LEC 0 0 bus
      (d.canCounts bus (d.g F.CAN.ERRCNT_TEC 0 bus - 1) (d.g F.CAN.ERRCNT_REC 0 bus)).canState bus x.idx 3
    | .lost => d1.canState bus x.idx (d1.failedState bus x 4)
    | .error lec counts =>
      let d := if counts = true then (d1.w F.CAN.STAT_LEC lec 0 bus).canErr bus 8 0 else d1.w F.CAN.STAT_LEC lec 0 bus
      if (d.canActive bus).isSome = true then d.canState bus x.idx (d.failedState bus x 5) else d) bus) := by
  have hshown : s.dev.when (x.brs && s.dev.on F.CAN.TDC_CFG_EN 0 bus && decide (s.dev.g F.CAN.TDC_CFG_TDCF 0 bus ≤ tdcv))
      (fun d => d.w F.CAN.STAT_TDCV tdcv 0 bus) = d1 := by
    simp only [hd1, Dev.when, Bool.and_eq_true, decide_eq_true_eq, and_assoc]
  have hslept (d : Dev) : d.when ((d.canC bus).sleepPend != 0) (fun d => d.canSleep bus (d.canC bus).sleepPend) = slept d bus := by
    simp only [Dev.when, slept, bne_iff_ne, ite_not]
  refine becomes_of_run (show execCanTxAttemptEnd bus how tdcv s = _ from rfl) ?_
  simp only [hactive, hshown, hslept]
  cases how <;> rfl

end

/-- With no entry on the bus it does nothing. -/
theorem canTxAttemptEnd_none (h : s.dev.canActive bus = none) (how : AttemptEnd) (tdcv : Nat) : NoEffect (.canTxAttemptEnd bus how tdcv) s := by
  refine becomes_of_run (show execCanTxAttemptEnd bus how tdcv s = _ from rfl) ?_
  simp only [h]

section
variable {idx : Nat}

/-- CAN_TAT_WINDOW_CLOSE of a timed entry ends it LATE where it waits and marks it where it is on the bus (R429). -/
theorem canTatWindowClose_becomes : Becomes (.canTatWindowClose bus idx) s
    (if s.dev.canUp bus = false ∨ ((s.dev.canC bus).ent idx).tat = false then s.dev
    else if ((s.dev.canC bus).ent idx).st = 1 ∨ ((s.dev.canC bus).ent idx).st = 8 then s.dev.canState bus idx 6
    else if ((s.dev.canC bus).ent idx).st = 2 then s.dev.setCan bus (fun c => c.setEnt idx (fun x => { x with closed := true }))
    else s.dev) := by
  refine becomes_of_run (show execCanTatWindowClose bus idx s = _ from rfl) ?_
  simp only [Bool.or_eq_true, Bool.not_eq_true', beq_iff_eq]

/-- CAN_TAT_LAUNCH of a timed entry that waits and is not ready makes it ready, and on an idle bus arbitrates (R426, R429). -/
theorem canTatLaunch_becomes (idle : Bool) : Becomes (.canTatLaunch bus idx idle) s
    (if s.dev.canUp bus = false ∨ ((s.dev.canC bus).ent idx).tat = false ∨ ((s.dev.canC bus).ent idx).st ≠ 1 ∨
        ((s.dev.canC bus).ent idx).ready = true then s.dev
    else (s.dev.setCan bus (fun c => c.setEnt idx (fun x => { x with ready := true }))).when idle (fun d => d.canArbitrate bus)) := by
  refine becomes_of_run (show execCanTatLaunch bus idx idle s = _ from rfl) ?_
  simp only [Bool.or_eq_true, Bool.not_eq_true', bne_iff_ne, or_assoc]

end

/-- CAN_RECOVERY_DONE of a recovering controller clears its state and counts and makes its held entries pending (R431, R432). -/
theorem canRecoveryDone_becomes {d : Dev}
    (hd : d = ((s.dev.w F.CAN.STAT_STATE 0 0 bus).w F.CAN.ERRCNT_TEC 0 0 bus).w F.CAN.ERRCNT_REC 0 0 bus) : Becomes (.canRecoveryDone bus) s
    (if s.dev.canUp bus = false ∨ s.dev.g F.CAN.STAT_STATE 0 bus ≠ 3 then s.dev
    else d.each ((d.canC bus).tx.filter (fun x => x.st == 8)) (fun d x => d.canState bus x.idx 1)) := by
  subst hd
  refine becomes_of_run (show execCanRecoveryDone bus s = _ from rfl) ?_
  simp only [Bool.or_eq_true, Bool.not_eq_true', bne_iff_ne]

/-- CAN_RECEIVE_ERROR on a bus that is heard counts a protocol exception, or shows LEC and in normal operation moves the counts (R417, R430). -/
theorem canReceiveError_becomes (lec recUp tecUp : Nat) (pxe : Bool) {d : Dev} (hd : d = s.dev.w F.CAN.STAT_LEC lec 0 bus) :
    Becomes (.canReceiveError bus lec recUp tecUp pxe) s
      (if s.dev.canHears bus = false then s.dev else if pxe = true then s.dev.inc C.CAN.PXE 0 bus
      else if d.canMode bus = 1 then d.canErr bus tecUp recUp else d) := by
  subst hd
  refine becomes_of_run (show execCanReceiveError bus lec recUp tecUp pxe s = _ from rfl) ?_
  simp only [Bool.not_eq_true', beq_iff_eq]

/-- A write of CTRL_SLEEP.REQ keeps the request and acts on it (R433). -/
theorem becomes_of_sleepWrite {i : Instr} {p : Page} {req : Nat} {go : Dev → Nat → Dev}
    (hexec : exec i s = run s (fun d => d.sleepWrite bus req go)) (h : Writable s.dev 0 (0x020 + bus) p) (htag : p.tag = .CAN) :
    Becomes i s (go (s.dev.w F.CAN.CTRL_SLEEP_REQ req 0 p.inst) p.inst) :=
  becomes_of_write hexec h (if_neg (by simp [htag]))

/-- CAN_OPMODE_CHANGE takes the live OPMODE over where the controller is up and nothing is on the bus (R418). -/
theorem canOpmodeChange_becomes (s : State) (bus : Nat) : Becomes (.canOpmodeChange bus) s
    (if s.dev.canUp bus = false ∨ s.dev.canActive bus ≠ none then s.dev
    else (s.dev.setCan bus (fun c => { c with op := s.dev.g F.CAN.CTRL_OPMODE 0 bus })).showStb bus) := by
  refine becomes_of_run (show execCanOpmodeChange bus s = _ from rfl) ?_
  simp only [Bool.or_eq_true, Bool.not_eq_true', Option.isSome_iff_ne_none]

end

/-- Settles O36: arbitration and the ends of attempts, timed entries, recovery and errors, then sleep, wake and the change of mode. -/
theorem canAttempts : Obligations.CanAttempts := by
  refine ⟨?_, ?_, ?_, ?_, ?_, ?_, ?_, ?_, ?_, ?_, ?_, ?_, ?_, ?_, ?_, ?_, ?_, ?_, ?_, ?_, ?_, ?_, ?_⟩
  · intro s bus x hmode hstate hradiate hidle hfirst
    exact canArbitration_sends hmode hstate hradiate hidle hfirst
  · intro s bus h
    exact canArbitration_none h
  · rintro s bus x tdcv d1 _ hactive hd1 rfl
    exact canTxAttemptEnd_becomes hactive hd1 .sent
  · intro s bus x tdcv d1 hactive hd1
    exact canTxAttemptEnd_becomes hactive hd1 .lost
  · rintro s bus x tdcv lec counts d1 _ _ hactive hd1 rfl rfl
    exact canTxAttemptEnd_becomes hactive hd1 (.error lec counts)
  · intro s bus how tdcv hnone
    exact canTxAttemptEnd_none hnone how tdcv
  · intro s bus idx idle h
    have hclose := canTatWindowClose_becomes (s := s) (bus := bus) (idx := idx)
    have hlaunch := canTatLaunch_becomes (s := s) (bus := bus) (idx := idx) idle
    rw [if_pos (by tauto)] at hlaunch
    refine ⟨?_, hlaunch⟩
    by_cases hoff : s.dev.canUp bus = false ∨ ((s.dev.canC bus).ent idx).tat = false
    · rwa [if_pos hoff] at hclose
    · rwa [if_neg hoff, if_neg (by tauto), if_neg (by tauto)] at hclose
  · intro s bus idx idle h
    have hlaunch := canTatLaunch_becomes (s := s) (bus := bus) (idx := idx) idle
    rwa [if_pos (.inr (.inr h))] at hlaunch
  · intro s bus idx hup htat hwaits
    have hclose := canTatWindowClose_becomes (s := s) (bus := bus) (idx := idx)
    rwa [if_neg (by simp [hup, htat]), if_pos hwaits] at hclose
  · intro s bus idx hup htat hactive
    have hclose := canTatWindowClose_becomes (s := s) (bus := bus) (idx := idx)
    rwa [if_neg (by simp [hup, htat]), if_neg (by simp [hactive]), if_pos hactive] at hclose
  · intro s bus idx idle hup htat hwaits hready
    have hlaunch := canTatLaunch_becomes (s := s) (bus := bus) (idx := idx) idle
    rwa [if_neg (by simp [hup, htat, hwaits, hready])] at hlaunch
  · intro s bus data p h htag hbit
    exact becomes_of_write (show execCanRecoverWrite bus data s = _ from rfl) h (if_pos (by simp [htag, hbit]))
  · intro s bus d1 hup hstate hd1
    have hdone := canRecoveryDone_becomes hd1
    rwa [if_neg (by simp [hup, hstate])] at hdone
  · intro s bus data p h hbit
    exact becomes_of_write (show execCanRecoverWrite bus data s = _ from rfl) h (if_neg (by simp [hbit]))
  · intro s bus h
    have hdone := canRecoveryDone_becomes (s := s) (bus := bus) rfl
    rwa [if_pos h] at hdone
  · intro s bus lec recUp tecUp d1 hears hd1
    have herror := canReceiveError_becomes lec recUp tecUp false hd1
    rwa [if_neg (by simp [hears]), if_neg Bool.false_ne_true] at herror
  · intro s bus lec recUp tecUp hears
    have herror := canReceiveError_becomes (s := s) (bus := bus) lec recUp tecUp true rfl
    rwa [if_neg (by simp [hears]), if_pos rfl] at herror
  · intro s bus lec recUp tecUp pxe hdeaf
    have herror := canReceiveError_becomes (s := s) (bus := bus) lec recUp tecUp pxe rfl
    rwa [if_pos hdeaf] at herror
  · intro s bus p h htag
    exact becomes_of_sleepWrite (go := fun d n => d.canSleepReq n 1) rfl h htag
  · intro s bus p h htag
    exact becomes_of_sleepWrite (go := fun d n => d.canSleepReq n 2) rfl h htag
  · intro s bus p h htag
    exact becomes_of_sleepWrite (go := fun d n => d.canWake n) rfl h htag
  · intro s bus hup hnone
    have hchange := canOpmodeChange_becomes s bus
    rwa [if_neg (by simp [hup, hnone])] at hchange
  · intro s bus h
    have hchange := canOpmodeChange_becomes s bus
    rwa [if_pos h] at hchange

end Sys2Proof.Machine

/-! PROOFS. Requests for maintenance tokens, releases, scrub passes and their slices (R525 to R529, Tables 18-6 and 18-7). -/

namespace Sys2Proof.Machine
open Sys2Proof Sys2Proof.Safety

section
variable {d : Dev} {r : TokenReq}

/-- A request that the mode permits and that is compatible with holders and queue is granted and shown (R527, R529). -/
theorem Dev.requestToken_grants (hmode : d.grantMode = true) (hgrant : d.mt.grantable d.mt.queue r = true) :
    d.requestToken r = (((d.grant r).showTokens).showMaint r.scope, .granted) := by
  rw [Dev.requestToken, if_pos (by rw [hmode, hgrant]; rfl)]

section
variable (hno : (d.grantMode && d.mt.grantable d.mt.queue r) = false) (hint : r.cmd = none)
include hno hint

/-- An internal request that waits already changes nothing (R527). -/
theorem Dev.requestToken_merges
    (hwaits : d.mt.queue.any (fun q => q.act == r.act && q.scope == r.scope && q.arg == r.arg && q.cmd.isNone) = true) :
    d.requestToken r = (d, .merged) := by
  rw [Dev.requestToken, if_neg (by rw [hno]; exact Bool.false_ne_true), if_pos (by rw [hint, hwaits]; rfl)]

/-- Another internal request joins the end of the queue, whatever its length, and is counted (R527). -/
theorem Dev.requestToken_queues
    (hnew : d.mt.queue.any (fun q => q.act == r.act && q.scope == r.scope && q.arg == r.arg && q.cmd.isNone) = false) :
    d.requestToken r = (((({ d with mt := { d.mt with queue := d.mt.queue ++ [r] } } : Dev).inc C.MNT.WAITED).showTokens).showMaint r.scope, .queued) := by
  rw [Dev.requestToken, if_neg (by rw [hno]; exact Bool.false_ne_true), if_neg (by rw [hnew, Bool.and_false]; exact Bool.false_ne_true),
    if_neg (by rw [hint]; exact Bool.false_ne_true)]

end
end

/-- A release by an activity that does not hold the scope changes nothing (R527). -/
theorem Dev.releaseToken_absent {d : Dev} {act scope : Nat} (h : d.holds act scope = false) : d.releaseToken act scope = d := by
  have hnone : d.mt.held.find? (fun r => r.act == act && r.scope == scope) = none := by
    rw [List.find?_eq_none]
    exact List.any_eq_false.mp h
  rw [Dev.releaseToken, hnone]

section
variable {s : State} {corrected r : Nat} {cmd : Option Nat} {rest : List (Nat × Option Nat)}

/-- The device once a slice's corrections are counted, its token is released, and the next slice is asked for (R528). -/
def Dev.sliceDone (d : Dev) (corrected r : Nat) (rest : List (Nat × Option Nat)) : Dev :=
  ((({ d with mt := { d.mt with scrubTodo := rest } } : Dev).addc C.MNT.SCRUB_CORR corrected).releaseToken 4 (2 ^ r)).scrubNext

/-- SCRUB_SLICE_DONE of a slice whose token is held ends the slice, and the command whose last region it was (R528). -/
theorem scrubSliceDone_ends (htodo : s.dev.mt.scrubTodo = (r, cmd) :: rest) (hheld : s.dev.holds 4 (2 ^ r) = true) :
    Becomes (.scrubSliceDone corrected) s
      (if rest.any (fun e => e.2 == cmd) = true then s.dev.sliceDone corrected r rest
      else cmd.elim (s.dev.sliceDone corrected r rest) (fun id => (s.dev.sliceDone corrected r rest).finish id { tryM := 4, okM := 4 })) := by
  refine becomes_of_run (show execScrubSliceDone corrected s = _ from rfl) ?_
  simp only [htodo, hheld, Bool.not_true, Bool.false_eq_true, if_false]
  rfl

/-- With nothing to scrub, or the token not held, it does nothing (R528). -/
theorem scrubSliceDone_none (h : ∀ r ∈ s.dev.mt.scrubTodo.head?, s.dev.holds 4 (2 ^ r.1) = false) : NoEffect (.scrubSliceDone corrected) s := by
  refine becomes_of_run (show execScrubSliceDone corrected s = _ from rfl) ?_
  cases htodo : s.dev.mt.scrubTodo with
  | nil => rfl
  | cons e rest => exact if_pos (by rw [h e (by rw [htodo]; rfl)]; rfl)

/-- SCRUB_PASS_START adds a pass over the powered regions where none is under way and PERIOD is set, and where nothing was to be scrubbed it goes on to the
first (R528). -/
theorem scrubPassStart_becomes {pass : List (Nat × Option Nat)}
    (hpass : pass = ((List.range 24).filter (fun r => s.dev.regionOn r)).map (fun r => (r, none))) : Becomes .scrubPassStart s
      (if s.dev.g F.MNT.SCRUB_CFG_PERIOD = 0 ∨ s.dev.mt.scrubTodo.any (fun e => e.2.isNone) = true then s.dev
      else if s.dev.mt.scrubTodo = [] then (s.dev.scrubAdd pass).scrubNext else s.dev.scrubAdd pass) := by
  subst hpass
  refine becomes_of_run (show execScrubPassStart s = _ from rfl) ?_
  simp only [Bool.or_eq_true, beq_iff_eq, List.isEmpty_iff]

end

section
variable {d : Dev} {c : Cmd} {mask : Nat} {mine : List (Nat × Option Nat)} (hmine : mine = (bitList 24 mask).map (fun y => (y, some c.id)))
include hmine

/-- A host's scrub behind a pass under way waits, with an interim record due (R105, R528). -/
theorem Dev.scrubHost_behind (hbusy : d.mt.scrubTodo ≠ []) (hnew : d.mt.scrubTodo.any (fun e => e.2 == some c.id) = false) :
    d.scrubHost c mask = ((d.scrubAdd mine).setCmd c.id (fun c => { c with stage := .waiting, interim := true }), c.later) := by
  rw [Dev.scrubHost, if_neg (by rw [hnew]; exact Bool.false_ne_true), if_pos (by simpa using hbusy), hmine]

section
variable (hidle : d.mt.scrubTodo = []) {r : Nat} (hr : r = (bitList 24 mask).headD 0)
include hidle hr

/-- With nothing to scrub it asks for its first region's token: granted, it goes on; queued, it waits with an interim record due; with the queue full it
ends with RANGE and cause 7 (R105, R527, R528). -/
theorem Dev.scrubHost_first : d.scrubHost c mask =
    (let a := d.requestToken ⟨4, 2 ^ r, some c.id, r⟩
    if a.2 = .full then (a.1, c.bad stRange 7)
    else if a.2 = .granted then ((a.1.scrubAdd mine).w F.MNT.SCRUB_STAT_NEXT r, c.later)
    else (((a.1.scrubAdd mine).w F.MNT.SCRUB_STAT_NEXT r).setCmd c.id (fun c => { c with stage := .waiting, interim := true }), c.later)) := by
  subst hmine hr
  rw [Dev.scrubHost, if_neg (by rw [hidle]; exact Bool.false_ne_true), if_neg (by rw [hidle]; exact Bool.false_ne_true)]
  dsimp only
  cases (d.requestToken ⟨4, 2 ^ (bitList 24 mask).headD 0, some c.id, (bitList 24 mask).headD 0⟩).2 <;> rfl

end
end

/-- Settles O11: requests and releases, scrub passes and slices, then a host's scrub. -/
theorem tokenRows : Obligations.TokenRows := by
  refine ⟨?_, ?_, ?_, ?_, ?_, ?_, ?_, ?_, ?_, ?_, ?_, ?_, ?_, ?_, ?_, ?_, ?_, ?_, ?_⟩
  · intro s act scope arg hlo hhi hscope
    exact becomes_of_run (show execTokenRequest act scope arg s = _ from rfl) (if_pos (by simp [hlo, hhi, hscope]))
  · intro s act scope arg h
    exact becomes_of_run (show execTokenRequest act scope arg s = _ from rfl) (if_neg (by simp; omega))
  · intro d r hmode hgrant
    exact Dev.requestToken_grants hmode hgrant
  · intro d act scope arg hno hwaits
    exact Dev.requestToken_merges hno rfl hwaits
  · intro d act scope arg hno hnew
    exact Dev.requestToken_queues hno rfl hnew
  · intro s act scope
    exact becomes_of_run (show execTokenRelease act scope s = _ from rfl) rfl
  · intro d act scope hfree
    exact Dev.releaseToken_absent hfree
  · intro s h
    have hstart := scrubPassStart_becomes (s := s) rfl
    rwa [if_pos h] at hstart
  · intro s pass hperiod hidle hpass
    have hstart := scrubPassStart_becomes hpass
    rw [if_neg (by simp [hperiod, hidle]), if_pos hidle, Dev.scrubAdd, hidle] at hstart
    exact hstart
  · intro s pass hperiod hbusy hnone hpass
    have hstart := scrubPassStart_becomes hpass
    rwa [if_neg (by simp only [hperiod, hnone, Bool.false_eq_true, or_self, not_false_eq_true]), if_neg hbusy] at hstart
  · intro s corrected r rest htodo hheld
    have hdone := scrubSliceDone_ends (corrected := corrected) htodo hheld
    rwa [Option.elim_none, ite_self] at hdone
  · intro s corrected r id rest htodo hheld hmore
    have hdone := scrubSliceDone_ends (corrected := corrected) htodo hheld
    rwa [if_pos hmore] at hdone
  · intro s corrected r id rest htodo hheld hlast
    have hdone := scrubSliceDone_ends (corrected := corrected) htodo hheld
    rwa [if_neg (by rw [hlast]; exact Bool.false_ne_true)] at hdone
  · intro s corrected h
    exact scrubSliceDone_none h
  · intro s id c h
    exact becomes_of_ready_reply (show execMntScrub id s = _ from rfl) h rfl
  · intro d c mask mine hmine hbusy hnew
    exact Dev.scrubHost_behind hmine hbusy hnew
  · intro d c mask r mine hmine hidle hr hgranted
    rw [Dev.scrubHost_first hmine hidle hr]
    exact (if_neg (by simp [hgranted])).trans (if_pos hgranted)
  · intro d c mask r mine hmine hidle hr hqueued
    rw [Dev.scrubHost_first hmine hidle hr]
    exact (if_neg (by simp [hqueued])).trans (if_neg (by simp [hqueued]))
  · intro d c mask r hidle hr hfull
    rw [Dev.scrubHost_first rfl hidle hr]
    exact if_pos hfull

end Sys2Proof.Machine

/-! PROOFS. BEN_SUBST, the switch-over of a bench unit, and BEN_READ (R456, R521 to R523, R531, Tables 18-4 and 18-10). -/

namespace Sys2Proof.Machine
open Sys2Proof Sys2Proof.Safety

/-- BEN_SUBST's range check: a unit whose tokens it holds already, or an active unit with a spare (R531). -/
def substRange (d : Dev) (c : Cmd) : Option Nat :=
  if d.cmdHolds c.id then none
  else if unitExists (c.par 24 1) (c.par 25 1) (c.par 28 4) && (d.unit (c.par 24 1) (c.par 25 1) (c.par 28 4)).state == .active then
    (if (d.sparesFor (c.par 24 1) (c.par 25 1) (c.par 28 4)).isEmpty then some 2 else none)
  else some 1

/-- BEN_SUBST that is granted its tokens stays in flight on the device after the grant (R522, R527). -/
theorem benSubst_granted {s : State} {id : Nat} {c : Cmd} (h : Ready s.dev 0x0801 id c substRange) (hfree : s.dev.cmdHolds c.id = false) {r : TokenReq}
    (hr : r = ⟨2, substScope (c.par 24 1) (c.par 25 1) (c.par 28 4), some c.id, substArg (c.par 24 1) (c.par 25 1) (c.par 28 4) 2⟩)
    (hmode : s.dev.grantMode = true) (hgrant : s.dev.mt.grantable s.dev.mt.queue r = true) :
    Becomes (.benSubst id) s (((s.dev.grant r).showTokens).showMaint r.scope) := by
  have hasked := Dev.requestToken_grants hmode hgrant
  subst hr
  refine becomes_of_ready_later (r := c.later) (show execBenSubst id s = _ from rfl) h ((Dev.cmdToken_granted _ hfree ?_).trans ?_) rfl
  · rw [hasked]
  · rw [hasked]

section
variable {s : State} {type die old : Nat} {sparesOk : List Bool} {r : TokenReq}
  (hheld : s.dev.mt.held.find? (fun r => r.act == 2 && r.arg / 2 ^ 22 == type * 8 + die && r.arg % 2 ^ 20 == old) = some r)
include hheld

/-- SUBSTITUTION_SWITCHOVER of a unit whose substitution holds its tokens: a channel unit that receives waits, a lane that serves an open link starts its
swap, and any other unit is switched over, after which a commit held back is checked (R456, R522, Table 7-8). -/
theorem substitutionSwitchover_becomes : Becomes (.substitutionSwitchover type die old sparesOk) s
    (if type = 2 ∧ s.dev.unitBusy die old = true then s.dev
    else if type = 5 ∧ (s.dev.laneServes (old / 3) (old % 3) && (s.dev.unit 5 die old).state == .active && sparesOk.headD true) = true then
      s.dev.laneSet (old / 3) (old % 3)
    else (s.dev.switchOver type die old (r.arg / 2 ^ 20 % 4) r.cmd sparesOk).checkDeferred (unitPage type die old)) := by
  refine becomes_of_run (show execSubstitutionSwitchover type die old sparesOk s = _ from rfl) ?_
  simp only [hheld, Bool.and_eq_true, beq_iff_eq, and_assoc]

end

/-- SUBSTITUTION_SWITCHOVER of a unit whose substitution holds no token does nothing. -/
theorem substitutionSwitchover_none {s : State} {type die old : Nat}
    (hnone : s.dev.mt.held.find? (fun r => r.act == 2 && r.arg / 2 ^ 22 == type * 8 + die && r.arg % 2 ^ 20 == old) = none) (sparesOk : List Bool) :
    NoEffect (.substitutionSwitchover type die old sparesOk) s := by
  refine becomes_of_run (show execSubstitutionSwitchover type die old sparesOk s = _ from rfl) ?_
  simp only [hnone]

/-- Settles O12: BEN_SUBST, the switch-over at its point and of a unit that is active or not, and BEN_READ. -/
theorem benchRows : Obligations.BenchRows := by
  refine ⟨?_, ?_, ?_, ?_, ?_, ?_, ?_, ?_, ?_⟩
  · rintro s id c t x i h rfl rfl rfl
    exact becomes_of_ready_reply (show execBenSubst id s = _ from rfl) h rfl
  · intro s id c r h hfree hr hmode hgrant
    exact benSubst_granted h hfree hr hmode hgrant
  · intro s type die old sparesOk r hheld hquiet hlane
    have hswitch := substitutionSwitchover_becomes (sparesOk := sparesOk) hheld
    rwa [if_neg (by rintro ⟨htype, hbusy⟩; rw [hquiet htype] at hbusy; exact Bool.false_ne_true hbusy),
      if_neg (by rintro ⟨htype, hserves⟩; rw [hlane htype] at hserves; exact Bool.false_ne_true hserves)] at hswitch
  · intro s die old sparesOk r hheld hbusy
    have hswitch := substitutionSwitchover_becomes (sparesOk := sparesOk) hheld
    rwa [if_pos ⟨rfl, hbusy⟩] at hswitch
  · intro s die old sparesOk r hheld hserves
    have hswitch := substitutionSwitchover_becomes (sparesOk := sparesOk) hheld
    rwa [if_neg (by simp), if_pos ⟨rfl, hserves⟩] at hswitch
  · intro s type die old sparesOk hnone
    exact substitutionSwitchover_none hnone sparesOk
  · intro d type die old cause cmd sparesOk hretired
    exact if_neg (by simp [hretired])
  · intro d type die old cause cmd sparesOk hactive
    exact if_pos (by simp [hactive])
  · intro s id c h
    exact becomesWith_of_ready (show execBenRead id false s = _ from rfl) h rfl rfl

end Sys2Proof.Machine

/-! PROOFS. The Voxnen links: their states, lanes, frames and flow control (R453 to R464, Table 16-1). -/

namespace Sys2Proof.Machine
open Sys2Proof Sys2Proof.Safety

section
variable {s : State} {link : Nat}

section
variable {lane : Nat} {bad : Option Nat}

/-- VXL_LANE_FAIL outside UP, of a lane that does not exist, does not count as failed, or is shown failed already does nothing (R455). -/
theorem vxlLaneFail_none (h : s.dev.vxlUp link = false ∨ s.dev.vxlState link ≠ 4 ∨ 3 ≤ lane ∨ s.dev.laneBad link bad = false ∨
    bitOf (s.dev.g F.VXL.LANE_STAT_FAILED 0 link) lane = true) : NoEffect (.vxlLaneFail link ⟨lane, bad⟩) s :=
  becomes_of_run (show execVxlLaneFail link ⟨lane, bad⟩ s = _ from rfl) (if_pos (by simpa [or_assoc] using h))

/-- VXL_LANE_FAIL shows the lane failed: one that carries nothing is recorded, for one in use the peer is asked to swap it while the bench lane is free, and
else the link degrades (R455 to R457). -/
theorem vxlLaneFail_fails {d : Dev} (hup : s.dev.vxlUp link = true) (hstate : s.dev.vxlState link = 4) (hlane : lane < 3)
    (hbad : s.dev.laneBad link bad = true) (hgood : bitOf (s.dev.g F.VXL.LANE_STAT_FAILED 0 link) lane = false)
    (hd : d = (s.dev.wBit F.VXL.LANE_STAT_FAILED lane true 0 link).wBit F.VXL.LANE_STAT_LOCK lane false 0 link) :
    Becomes (.vxlLaneFail link ⟨lane, bad⟩) s
      (if s.dev.g F.VXL.LANE_STAT_MAP0 0 link ≠ lane ∧ s.dev.g F.VXL.LANE_STAT_MAP1 0 link ≠ lane then
        d.setUnit { d.unit 5 0 (3 * link + lane) with state := .failed }
      else if s.dev.benchFree link = true then d.laneSet link lane else d.vxlDegrade link lane) := by
  subst hd
  refine becomes_of_run (show execVxlLaneFail link ⟨lane, bad⟩ s = _ from rfl) ((if_neg (by simp [hup, hstate, hlane, hbad, hgood])).trans ?_)
  simp only [Bool.not_eq_true', Bool.or_eq_false_iff, beq_eq_false_iff_ne]

end

section
variable {lane : Nat}

/-- VXL_LANE_SWAP_RX outside UP, of a lane that carries no data, or of one that has failed and waits for no swap does nothing (R456). -/
theorem vxlLaneSwapRx_none (h : s.dev.vxlUp link = false ∨ s.dev.vxlState link ≠ 4 ∨ 2 ≤ lane ∨
    ((s.dev.vxlL link).swap ≠ some lane ∧ bitOf (s.dev.g F.VXL.LANE_STAT_FAILED 0 link) lane = true)) : NoEffect (.vxlLaneSwapRx link lane) s := by
  refine becomes_of_run (show execVxlLaneSwapRx link lane s = _ from rfl) (ite_eq_left_iff.mpr fun hserves => ?_)
  obtain ⟨hwaits, hfailed⟩ : (s.dev.vxlL link).swap ≠ some lane ∧ bitOf (s.dev.g F.VXL.LANE_STAT_FAILED 0 link) lane = true := by
    simp only [Bool.or_eq_true, Bool.not_eq_true', bne_iff_ne, decide_eq_true_eq] at hserves
    tauto
  exact (if_neg (by simpa using hwaits)).trans (if_pos hfailed)

section
variable (hup : s.dev.vxlUp link = true) (hstate : s.dev.vxlState link = 4) (hlane : lane < 2)
include hup hstate hlane

/-- VXL_LANE_SWAP_RX of a data lane whose swap waits for the peer swaps it (R456). -/
theorem vxlLaneSwapRx_swaps (hwaits : (s.dev.vxlL link).swap = some lane) :
    Becomes (.vxlLaneSwapRx link lane) s ((s.dev.laneSwap link lane).checkDeferred ⟨.VXL, 0, link⟩) :=
  becomes_of_run (show execVxlLaneSwapRx link lane s = _ from rfl) ((if_neg (by simp [hup, hstate, hlane])).trans (if_pos (by simp [hwaits])))

/-- VXL_LANE_SWAP_RX of a data lane that the peer gives up answers with the set, and swaps it while the bench lane is free, else the link degrades (R456,
R457). -/
theorem vxlLaneSwapRx_answers {d : Dev} (hnone : (s.dev.vxlL link).swap ≠ some lane)
    (hgood : bitOf (s.dev.g F.VXL.LANE_STAT_FAILED 0 link) lane = false) (hd : d = s.dev.emit (.vxlSet link 0xB lane)) :
    Becomes (.vxlLaneSwapRx link lane) s (if d.benchFree link = true then (d.laneSwap link lane).checkDeferred ⟨.VXL, 0, link⟩
      else (d.wBit F.VXL.LANE_STAT_FAILED lane true 0 link).vxlDegrade link lane) := by
  subst hd
  exact becomes_of_run (show execVxlLaneSwapRx link lane s = _ from rfl)
    ((if_neg (by simp [hup, hstate, hlane])).trans ((if_neg (by simpa using hnone)).trans (if_neg (by simp [hgood]))))

end
end

section
variable {frame : List Byte} {codeErr : Bool}

/-- VXL_FRAME_RX of a link that is down, in DETECT or in FAULT does nothing (R453). -/
theorem vxlFrameRx_off (h : s.dev.vxlUp link = false ∨ s.dev.vxlState link < 2 ∨ s.dev.vxlState link = 5) :
    NoEffect (.vxlFrameRx link frame codeErr) s :=
  becomes_of_run (show execVxlFrameRx link frame codeErr s = _ from rfl) (if_pos (by simpa [or_assoc] using h))

/-- VXL_FRAME_RX of a frame that a check refuses counts that check's counter (R458). -/
theorem vxlFrameRx_refused {k : Ctr} (hup : s.dev.vxlUp link = true) (hlo : 2 ≤ s.dev.vxlState link) (hfault : s.dev.vxlState link ≠ 5)
    (hcheck : s.dev.fabCheck link frame codeErr = some k) : Becomes (.vxlFrameRx link frame codeErr) s (s.dev.inc k 0 link) := by
  refine becomes_of_run (show execVxlFrameRx link frame codeErr s = _ from rfl) ((if_neg (by simp [hup, hfault]; omega)).trans ?_)
  simp only [hcheck]

/-- VXL_FRAME_RX of a data frame that passes, in UP outside QUIESCE and SHADOW with an ID, counts it and hands it to the wired lane of the owning die (R460,
R464). -/
theorem vxlFrameRx_data {body : List Byte} (hup : s.dev.vxlUp link = true) (hstate : s.dev.vxlState link = 4)
    (hcheck : s.dev.fabCheck link frame codeErr = none) (hmsg : fabType frame ≠ 2) (htwin : fabType frame ≠ 3) (hquiesce : s.dev.act ≠ mQuiesce)
    (hshadow : s.dev.act ≠ mShadow) (hid : s.dev.hasId = true) (hbody : body = frame.take (frame.length - 4)) :
    Becomes (.vxlFrameRx link frame codeErr) s (((s.dev.inc C.VXL.RX_FRAMES 0 link).addc C.VXL.RX_OCTETS body.length 0 link).toWired
      (portOwner (16 + link)) 1 body.length (fun b => .fab link body s.dev.evTime b)) := by
  subst hbody
  refine becomes_of_run (show execVxlFrameRx link frame codeErr s = _ from rfl) ((if_neg (by simp [hup, hstate])).trans ?_)
  simp only [hcheck, hstate, hid, beq_eq_false_iff_ne.mpr hmsg, beq_eq_false_iff_ne.mpr htwin, beq_eq_false_iff_ne.mpr hquiesce,
    beq_eq_false_iff_ne.mpr hshadow, bne_self_eq_false, Bool.or_false, Bool.not_true, Bool.false_eq_true, if_false]

end

/-- The rows of flow control do nothing of a link that sends none, or with the lane and the state of XOFF not as they ask (R462). -/
theorem vxlFcXoff_off (h : s.dev.vxlFcMay link = false ∨ (s.dev.vxlL link).xoff = true ∨
    s.dev.wiredLane (16 + link) < s.dev.g F.VXL.FC_THR_XOFF 0 link) : NoEffect (.vxlFcXoff link) s :=
  becomes_of_run (show execVxlFcXoff link s = _ from rfl) (if_pos (by simpa [or_assoc] using h))

theorem vxlFcRepeat_off (h : s.dev.vxlFcMay link = false ∨ (s.dev.vxlL link).xoff = false ∨
    s.dev.wiredLane (16 + link) ≤ s.dev.g F.VXL.FC_THR_XON 0 link) : NoEffect (.vxlFcRepeat link) s :=
  becomes_of_run (show execVxlFcRepeat link s = _ from rfl) (if_pos (by simpa [or_assoc] using h))

theorem vxlFcXon_off (h : s.dev.vxlFcMay link = false ∨ (s.dev.vxlL link).xoff = false ∨
    s.dev.g F.VXL.FC_THR_XON 0 link < s.dev.wiredLane (16 + link)) : NoEffect (.vxlFcXon link) s :=
  becomes_of_run (show execVxlFcXon link s = _ from rfl) (if_pos (by simpa [or_assoc] using h))

/-- A link that is down sends no flow control. -/
theorem Dev.vxlFcMay_down {d : Dev} (h : d.vxlUp link = false) : d.vxlFcMay link = false := by
  simp only [Dev.vxlFcMay, h, Bool.false_and]

end

/-- Settles O38: the links' states, their lanes, their frames, then flow control. -/
theorem linkRows : Obligations.LinkRows := by
  refine ⟨?_, ?_, ?_, ?_, ?_, ?_, ?_, ?_, ?_, ?_, ?_, ?_, ?_, ?_, ?_, ?_, ?_, ?_, ?_, ?_, ?_, ?_, ?_⟩
  · intro s link hup hstate
    exact becomes_of_run (show execVxlSignalDetect link s = _ from rfl) (if_pos (by simp [hup, hstate]))
  · intro s link hup hstate
    exact becomes_of_run (show execVxlBlockLock link s = _ from rfl) (if_pos (by simp [hup, hstate]))
  · intro s link hup hstate
    exact becomes_of_run (show execVxlHelloTx link s = _ from rfl) (if_pos (by simp [hup, hstate]))
  · intro s link msg hup
    exact becomes_of_run (show execVxlHelloRx link msg s = _ from rfl) (if_pos hup)
  · intro s link hup hstate
    exact becomes_of_run (show execVxlLockTimeout link s = _ from rfl) (if_pos (by simpa [hup] using hstate))
  · intro s link hup hstate
    exact becomes_of_run (show execVxlFaultRetry link s = _ from rfl) (if_pos (by simp [hup, hstate]))
  · intro s link hup hstate
    exact becomes_of_run (show execVxlLossOfLock link s = _ from rfl) (if_pos (by simp [hup, hstate]))
  · intro s link lane bad d1 hup hstate hlane hbad hgood hd1
    exact vxlLaneFail_fails hup hstate hlane hbad hgood hd1
  · intro s link lane bad h
    exact vxlLaneFail_none (.inr h)
  · intro s link
    refine ⟨fun h => ?_, fun h => ?_, fun h => ?_, fun ⟨hlock, hhello⟩ => ?_, fun h => ?_, fun h => ?_⟩
    · exact becomes_of_run (show execVxlSignalDetect link s = _ from rfl) (if_neg (by simp [h]))
    · exact becomes_of_run (show execVxlBlockLock link s = _ from rfl) (if_neg (by simp [h]))
    · exact becomes_of_run (show execVxlHelloTx link s = _ from rfl) (if_neg (by simp [h]))
    · exact becomes_of_run (show execVxlLockTimeout link s = _ from rfl) (if_neg (by simp [hlock, hhello]))
    · exact becomes_of_run (show execVxlFaultRetry link s = _ from rfl) (if_neg (by simp [h]))
    · exact becomes_of_run (show execVxlLossOfLock link s = _ from rfl) (if_neg (by simp [h]))
  · intro s link msg lane bad frame codeErr mask cls hdown
    refine ⟨?_, ?_, ?_, ?_, ?_, ?_, ?_, vxlLaneFail_none (.inl hdown), vxlFrameRx_off (.inl hdown), ?_, ?_,
      vxlFcXoff_off (.inl (Dev.vxlFcMay_down hdown)), vxlFcRepeat_off (.inl (Dev.vxlFcMay_down hdown)), vxlFcXon_off (.inl (Dev.vxlFcMay_down hdown))⟩
    · exact becomes_of_run (show execVxlSignalDetect link s = _ from rfl) (if_neg (by simp [hdown]))
    · exact becomes_of_run (show execVxlBlockLock link s = _ from rfl) (if_neg (by simp [hdown]))
    · exact becomes_of_run (show execVxlHelloTx link s = _ from rfl) (if_neg (by simp [hdown]))
    · exact becomes_of_run (show execVxlHelloRx link msg s = _ from rfl) (if_neg (by simp [hdown]))
    · exact becomes_of_run (show execVxlLockTimeout link s = _ from rfl) (if_neg (by simp [hdown]))
    · exact becomes_of_run (show execVxlFaultRetry link s = _ from rfl) (if_neg (by simp [hdown]))
    · exact becomes_of_run (show execVxlLossOfLock link s = _ from rfl) (if_neg (by simp [hdown]))
    · exact becomes_of_run (show execVxlFcSetRx link mask s = _ from rfl) (if_neg (by simp [hdown]))
    · exact becomes_of_run (show execVxlFcExpiry link cls s = _ from rfl) (if_neg (by simp [hdown]))
  · intro s link lane hup hstate hlane hwaits
    exact vxlLaneSwapRx_swaps hup hstate hlane hwaits
  · intro s link lane d1 hup hstate hlane hnone hgood hd1
    exact vxlLaneSwapRx_answers hup hstate hlane hnone hgood hd1
  · intro s link lane h
    exact vxlLaneSwapRx_none h
  · intro s link frame codeErr k hup hlo hfault hcheck
    exact vxlFrameRx_refused hup hlo hfault hcheck
  · intro s link frame body hup hstate hcheck hmsg htwin hquiesce hshadow hid hbody
    exact vxlFrameRx_data hup hstate hcheck hmsg htwin hquiesce hshadow hid hbody
  · intro s link frame codeErr h
    exact vxlFrameRx_off (.inr h)
  · intro s link
    exact ⟨vxlFcXoff_off, vxlFcRepeat_off, vxlFcXon_off⟩
  · intro s link mask hup hstate
    exact becomes_of_run (show execVxlFcSetRx link mask s = _ from rfl) (if_pos (by simp [hup, hstate]))
  · intro s link cls hup hcls
    exact becomes_of_run (show execVxlFcExpiry link cls s = _ from rfl) (if_pos (by simp [hup, hcls]))
  · intro s link hmay hon hfill
    exact becomes_of_run (show execVxlFcXoff link s = _ from rfl) (if_neg (by simp [hmay, hon, hfill]))
  · intro s link hmay hoff hfill
    exact becomes_of_run (show execVxlFcRepeat link s = _ from rfl) (if_neg (by simp [hmay, hoff, hfill]))
  · intro s link hmay hoff hfill
    exact becomes_of_run (show execVxlFcXon link s = _ from rfl) (if_neg (by simp [hmay, hoff, hfill]))

end Sys2Proof.Machine

/-! PROOFS. The huddle, the shortest-path table, and the fabric's commands (R461 to R474, Table 16-5). -/

namespace Sys2Proof.Machine
open Sys2Proof Sys2Proof.Safety

section
variable {s : State}

/-- LSA_RX takes the message of an LSA on a link in UP while the huddle runs (R464). -/
theorem lsaRx_becomes (s : State) (link : Nat) (msg : List Byte) : Becomes (.lsaRx link msg) s
    (if s.dev.vxlUp link = true ∧ s.dev.vxlState link = 4 ∧ s.dev.hud.on = true ∧ leAt msg 0 1 = 1 then s.dev.lsaRx link msg else s.dev) := by
  refine becomes_of_run (show execLsaRx link msg s = _ from rfl) ?_
  simp only [Bool.and_eq_true, beq_iff_eq, and_assoc]

/-- LSA_EXPIRY of a held LSA of another device removes it, and a settled huddle is unsettled and originates (R464). -/
theorem lsaExpiry_becomes {eui : Nat} {d : Dev} (hd : d = { s.dev with hud := { s.dev.hud with
      lsas := s.dev.hud.lsas.filter (fun (r : LsaRec) => r.eui != eui) } }.w F.HUD.STAT_DEVICES
        (s.dev.hud.lsas.filter (fun (r : LsaRec) => r.eui != eui)).length) : Becomes (.lsaExpiry eui) s
    (if eui = s.dev.hudEui ∨ s.dev.hud.lsas.any (fun (r : LsaRec) => r.eui == eui) = false then s.dev
    else if d.on F.HUD.STAT_SETTLED = true then (d.setSettled false).originate else d) := by
  subst hd
  refine becomes_of_run (show execLsaExpiry eui s = _ from rfl) ?_
  simp only [Bool.or_eq_true, beq_iff_eq, Bool.not_eq_true']

/-- What keeps the huddle from settling: it does not run, it has no ID, another device has the same, or it has settled (R466). -/
theorem Dev.huddleStays_iff (d : Dev) :
    (!d.hud.on || d.hud.id == 255 || d.others.any (fun r => r.id == d.hud.id) || d.on F.HUD.STAT_SETTLED) = true ↔
      d.hud.on = false ∨ d.hud.id = 255 ∨ d.others.any (fun r => r.id == d.hud.id) = true ∨ d.on F.HUD.STAT_SETTLED = true := by
  simp only [Bool.or_eq_true, beq_iff_eq, Bool.not_eq_true', or_assoc]

/-- HUDDLE_SETTLE settles and originates, and ends a re-huddle that holds its token, with its command (R466, R467). -/
theorem huddleSettle_settles {d : Dev} (hon : s.dev.hud.on = true) (hid : s.dev.hud.id ≠ 255)
    (hfree : s.dev.others.any (fun r => r.id == s.dev.hud.id) = false) (hopen : s.dev.on F.HUD.STAT_SETTLED = false)
    (hd : d = (s.dev.setSettled true).originate) : Becomes .huddleSettle s
      ((d.mt.held.find? (fun r => r.act == 6)).elim d (fun r =>
        let e := (d.w F.HUD.STAT_REHUDDLE 0).releaseToken 6 r.scope
        r.cmd.elim e (fun id => (e.cmd id).elim e (fun c => e.finish id c.ok)))) := by
  subst hd
  refine becomes_of_run (show execHuddleSettle s = _ from rfl) ((if_neg ?_).trans ?_)
  · rw [Dev.huddleStays_iff, hon, hfree, hopen]
    simp [hid]
  · dsimp only
    cases (s.dev.setSettled true).originate.mt.held.find? (fun r => r.act == 6) <;> rfl

end

section
variable {s : State} {id : Nat} {c : Cmd}

/-- FAB_SEND's range check: a length that a frame holds, and a destination with a DEV entry (R474). -/
def fabRange (d : Dev) (c : Cmd) : Option Nat :=
  if c.len == 0 || 9216 < c.len || !(d.route 1).fwd.any (fun e => e.kind == 1 && e.key == c.par 24 1 % 64) then some 0 else none

section
variable (h : Ready s.dev 0x0601 id c fabRange) {g : FwdEnt} (hdst : (s.dev.devFind 1 (c.par 24 1 % 64)).2 = some g)
include h hdst

/-- FAB_SEND with cells free meters the packet and sends it, or drops it where its colour is red (R381, R474). -/
theorem fabSend_sends {d : Dev} {b : Nat} {m : Dev × Nat} (hcells : s.dev.alloc 1 2 c.len = some (d, b))
    (hm : m = d.meterFlow 1 26 (c.par 25 1 % 8) c.len d.evTime) : Becomes (.fabSend id false) s
      (((if m.2 = 2 then m.1.colourOut 1 m.2
        else (m.1.colourOut 1 m.2).sendFab 1 g.port 4 (c.par 25 1 % 8) 0 (m.2 == 1) false (c.par 24 1 % 64) 26 (c.buf s.host c.len)
          (m.1.colourOut 1 m.2).evTime b).release 1 b).finish id c.ok) := by
  subst hm
  refine becomes_of_ready (show execFabSend id false s = _ from rfl) h ?_ rfl
  simp only [hdst, hcells, beq_iff_eq]

/-- With no cells free the packet is dropped and counted (R363). -/
theorem fabSend_drops (hcells : s.dev.alloc 1 2 c.len = none) : Becomes (.fabSend id false) s ((s.dev.inc C.ING.BUF_DROP 1 0 2).finish id c.ok) := by
  refine becomes_of_ready (show execFabSend id false s = _ from rfl) h ?_ rfl
  simp only [hdst, hcells]

end

section
variable (h : Ready s.dev 0x0602 id c noRange) (hfree : s.dev.cmdHolds c.id = false)
include h hfree

/-- HUD_REHUDDLE that is granted its token stays in flight (R467). -/
theorem hudRehuddle_granted (hgrant : (s.dev.requestToken ⟨6, 2, some c.id, 0⟩).2 = .granted) :
    Becomes (.hudRehuddle id) s (s.dev.requestToken ⟨6, 2, some c.id, 0⟩).1 :=
  becomes_of_ready_later (r := c.later) (show execHudRehuddle id s = _ from rfl) h (Dev.cmdToken_granted _ hfree hgrant) rfl

/-- With the queue of requests full it ends with RANGE and cause 7; queued, it waits with an interim record due (R105, R527). -/
theorem hudRehuddle_notGranted {r : Dev × TokenAnswer} (hr : r = s.dev.requestToken ⟨6, 2, some c.id, 0⟩) (hgrant : r.2 ≠ .granted) :
    Becomes (.hudRehuddle id) s
      (if r.2 = .full then r.1.finish id (c.bad stRange 7) else r.1.setCmd c.id (fun c => { c with stage := .waiting, interim := true })) := by
  subst hr
  split
  · next hfull => exact becomes_of_ready (show execHudRehuddle id s = _ from rfl) h (Dev.cmdToken_full _ hfree hfull) rfl
  · next hfull => exact becomes_of_ready_later (show execHudRehuddle id s = _ from rfl) h (Dev.cmdToken_waits _ hfree hgrant hfull) rfl

end
end

/-- Settles O39: the huddle's messages and its settling, the shortest paths, then the fabric's commands. -/
theorem huddleRows : Obligations.HuddleRows := by
  refine ⟨?_, ?_, ?_, ?_, ?_, ?_, ?_, ?_, ?_, ?_, ?_, ?_, ?_, ?_, ?_, ?_, ?_, ?_⟩
  · intro s link msg hup hstate hon htype
    have hrx := lsaRx_becomes s link msg
    rwa [if_pos ⟨hup, hstate, hon, htype⟩] at hrx
  · intro s link msg h
    have hrx := lsaRx_becomes s link msg
    rwa [if_neg (by rcases h with h | h | h | h <;> simp [h])] at hrx
  · intro s h
    exact becomes_of_run (show execLsaRefresh s = _ from rfl) (if_pos (by simpa using h))
  · intro s eui h
    have hexpiry := lsaExpiry_becomes (s := s) (eui := eui) rfl
    rwa [if_pos h] at hexpiry
  · intro s h
    exact becomes_of_run (show execHuddleSettle s = _ from rfl) (if_pos ((Dev.huddleStays_iff s.dev).mpr h))
  · intro s h
    exact becomes_of_run (show execSptRecompute s = _ from rfl) (if_pos (by simpa using h))
  · rintro s d1 hon hradiate rfl
    exact becomes_of_run (show execLsaRefresh s = _ from rfl) (if_neg (by simp [hon, hradiate]))
  · intro s eui d1 hother hheld hd1
    have hexpiry := lsaExpiry_becomes hd1
    rwa [if_neg (by simp [hother, hheld])] at hexpiry
  · intro s hon hid hfree hopen hnone
    have hsettle := huddleSettle_settles hon hid hfree hopen rfl
    rwa [hnone, Option.elim_none] at hsettle
  · rintro s d1 r d2 hon hid hfree hopen hd1 hheld rfl
    have hsettle := huddleSettle_settles hon hid hfree hopen hd1
    rwa [hheld, Option.elim_some] at hsettle
  · rintro s t d1 hsettled hid rfl rfl
    exact becomes_of_run (show execSptRecompute s = _ from rfl) (if_neg (by simp [hsettled, hid]))
  · intro s id c g d1 b m h hdst hcells hm
    exact fabSend_sends h hdst hcells hm
  · intro s id c g h hdst hcells
    exact fabSend_drops h hdst hcells
  · intro s id c r h hfree hr hgrant
    exact hudRehuddle_notGranted h hfree hr hgrant
  · rintro s id c d1 h hfree rfl hgrant
    exact hudRehuddle_granted h hfree hgrant
  · intro s id c h
    exact becomesWith_of_ready (show execLsdbRead id false s = _ from rfl) h rfl rfl
  · rintro s id c r h rfl
    exact becomes_of_run (show execClaimSet id false s = _ from rfl) (Dev.runCmd_ready h _)
  · rintro s id c t h rfl
    exact becomesWith_of_ready (show execClaimRead id false s = _ from rfl) h rfl rfl

end Sys2Proof.Machine

/-! PROOFS. The members of a pair: heartbeat, possession, takeover, formation and leaving (R480 to R509, Tables 17-3, 17-5 and 17-6). -/

namespace Sys2Proof.Machine
open Sys2Proof Sys2Proof.Safety

section
variable {s : State}

/-- UMP_GO_RISE records UMP_GO: a ready STANDBY in SHADOW starts the takeover, a member that forms in SHADOW leaves as DETACHED (R500, Table 17-6). -/
theorem umpGoRise_becomes {lost : Nat} {d : Dev} (hd : d = s.dev.w F.TWN.STAT_GO 1) : Becomes (.umpGoRise lost) s
    (if s.dev.twinRuns = false ∨ s.dev.on F.TWN.STAT_GO = true then s.dev
    else if d.twin = 3 ∧ d.g F.TWN.STAT_HB_CODE = 1 ∧ d.mode = mShadow then
      { (d.addc C.TWN.LOST_REC lost).twinTo 5 with tw := { ((d.addc C.TWN.LOST_REC lost).twinTo 5).tw with step := 1 } }.startTrans mService 2
    else if d.twin = 6 ∧ d.mode = mShadow then (d.leavePair 4).emit (.twinMsg 3 []) else d) := by
  subst hd
  refine becomes_of_run (show execUmpGoRise lost s = _ from rfl) ?_
  simp only [Bool.or_eq_true, Bool.not_eq_true', Bool.and_eq_true, beq_iff_eq, and_assoc]

/-- UMP_GO_FALL records it and releases possession; a takeover ends DETACHED, a holder in SERVICE or the issuer of a formation is demoted (R480, R502,
Table 17-6). -/
theorem umpGoFall_becomes {d : Dev} (hruns : s.dev.twinRuns = true)
    (hd : d = { s.dev.w F.TWN.STAT_GO 0 with tw := { s.dev.tw with blocked := false } }.releasePoss) : Becomes .umpGoFall s
    (if d.twin = 5 then (d.leavePair 4).w F.BTL.BOOT_STAT_TRANS 0
    else if (s.dev.on F.TWN.STAT_POSS_HELD = true ∧ d.mode = mService) ∨ (d.twin = 6 ∧ d.mode ≠ mShadow) then d.demote else d) := by
  subst hd
  refine becomes_of_run (show execUmpGoFall s = _ from rfl) ((if_neg (by simp [hruns])).trans ?_)
  simp only [Bool.or_eq_true, Bool.and_eq_true, beq_iff_eq, bne_iff_ne]

/-- POSS_LINE_HIGH shows the line, and a holder releases and raises POSS_FAULT (R481). -/
theorem possLineHigh_becomes (s : State) : Becomes .possLineHigh s
    (if s.dev.on F.TWN.STAT_POSS_HELD = true then (s.dev.w F.TWN.STAT_POSS_LINE 1).releasePoss.raise E.TWN.POSS_FAULT
    else s.dev.w F.TWN.STAT_POSS_LINE 1) :=
  becomes_of_run (show execPossLineHigh s = _ from rfl) rfl

/-- POSSESSION_TAKE drives POSS low where UMP_GO is high, nothing blocks it and the mode permits it: a takeover goes on, another lets its outputs go (R480,
Table 17-5). -/
theorem possessionTake_takes {taking : Bool} {d : Dev} (hruns : s.dev.twinRuns = true) (hgo : s.dev.on F.TWN.STAT_GO = true)
    (hopen : s.dev.tw.blocked = false) (hfree : s.dev.on F.TWN.STAT_POSS_HELD = false) (htaking : taking = (s.dev.twin == 5 && s.dev.tw.step == 1))
    (hmode : taking = true ∨ ((s.dev.mode = mService ∨ s.dev.mode = mBringup) ∧ (s.dev.act = mService ∨ s.dev.act = mBringup)))
    (hd : d = ({ s.dev with pins := { s.dev.pins with possLow := true } }.w F.TWN.STAT_POSS_HELD 1).w F.TWN.STAT_POSS_LINE 0) :
    Becomes .possessionTake s (if taking = true then { d with tw := { d.tw with step := 3 } } else (d.rfswFollow).originate) := by
  subst hd htaking
  refine becomes_of_run (show execPossessionTake s = _ from rfl) (if_neg ?_)
  simpa only [hruns, hgo, hopen, hfree, Bool.not_true, Bool.false_or, Bool.not_eq_true', Bool.not_eq_false, Bool.or_eq_true, Bool.and_eq_true,
    beq_iff_eq] using hmode

/-- POSSESSION_TAKE without twin operation or UMP_GO, while it is blocked, or of the holder does nothing. -/
theorem possessionTake_none (h : s.dev.twinRuns = false ∨ s.dev.on F.TWN.STAT_GO = false ∨ s.dev.tw.blocked = true ∨
    s.dev.on F.TWN.STAT_POSS_HELD = true) : NoEffect .possessionTake s :=
  becomes_of_run (show execPossessionTake s = _ from rfl) (if_pos (by rcases h with h | h | h | h <;> simp [h]))

/-- PAIR_TIME_MEASURE outside twin operation and SHADOW, or of a member that does not join does nothing (R493). -/
theorem pairTimeMeasure_none {ofs : Nat} (h : s.dev.twinRuns = false ∨ s.dev.mode ≠ mShadow ∨ (s.dev.twin ≠ 3 ∧ s.dev.twin ≠ 6)) :
    NoEffect (.pairTimeMeasure ofs) s :=
  becomes_of_run (show execPairTimeMeasure ofs s = _ from rfl) (if_pos (by simpa [or_assoc] using h))

section
variable (htwin : s.dev.twin = 5) (hstep : s.dev.tw.step = 3) {d : Dev} (hd : d = s.dev.runJournal)
include htwin hstep hd

/-- TAKEOVER_BACKLOG_DONE runs the journal and goes on only when nothing is left that is next (R500). -/
theorem takeoverBacklogDone_goesOn (hleft : d.tw.intake.any (fun x => d.isNext x) = true) : Becomes .takeoverBacklogDone s d := by
  subst hd
  exact becomes_of_run (show execTakeoverBacklogDone s = _ from rfl) ((if_neg (by simp [htwin, hstep])).trans (if_pos hleft))

/-- Then it counts and drops the rest, makes what does not pass fresh, and lets the outputs go (R501, Table 17-5 steps 3 and 4). -/
theorem takeoverBacklogDone_ends (hnone : d.tw.intake.any (fun x => d.isNext x) = false) {e : Dev}
    (he : e = ({ d.addc C.TWN.LOST_REC d.tw.intake.length with tw := { (d.addc C.TWN.LOST_REC d.tw.intake.length).tw with
      intake := [], step := 4 } }.showLag.dutyTaken.takeoverFresh).takeoverCamps) :
    Becomes .takeoverBacklogDone s (((e.each ([5, 6] : List Nat) (fun d die => d.bandFollow die)).rfswFollow).originate) := by
  refine becomes_of_run (show execTakeoverBacklogDone s = _ from rfl) ((if_neg (by simp [htwin, hstep])).trans ?_)
  simp only [← hd, hnone, Bool.false_eq_true, if_false, ← he]

end

section
variable (hruns : s.dev.twinRuns = true)
include hruns

/-- What a message of the partner does while twin operation runs: its possession makes a holder release and block itself, and its leaving ends the pair
(R498, Table 17-6). -/
theorem twinPeerNotice_holds : Becomes (.twinPeerNotice .holds) s (if s.dev.on F.TWN.STAT_POSS_HELD = true then
    { s.dev.releasePoss with tw := { s.dev.tw with blocked := true } }.raise E.TWN.POSS_CONFLICT else s.dev) :=
  becomes_of_run (show execTwinPeerNotice .holds s = _ from rfl) (if_neg (by simp [hruns]))

theorem twinPeerNotice_broke : Becomes (.twinPeerNotice .broke) s
    (if s.dev.twin = 2 then s.dev.leavePair 1 else if s.dev.twin = 6 ∧ s.dev.mode ≠ mShadow then s.dev.formFails
    else if s.dev.twin = 3 ∨ s.dev.twin = 6 then s.dev.leavePair 4 else s.dev) := by
  refine becomes_of_run (show execTwinPeerNotice .broke s = _ from rfl) ((if_neg (by simp [hruns])).trans ?_)
  simp only [Bool.or_eq_true, Bool.and_eq_true, beq_iff_eq, bne_iff_ne]

theorem twinPeerNotice_forming : Becomes (.twinPeerNotice .forming) s
    (if s.dev.twin = 4 ∧ s.dev.mode = mShadow then s.dev.twinTo 6 else s.dev) := by
  refine becomes_of_run (show execTwinPeerNotice .forming s = _ from rfl) ((if_neg (by simp [hruns])).trans ?_)
  simp only [Bool.and_eq_true, beq_iff_eq]

theorem twinPeerNotice_formed (copy : TwinCopy) : Becomes (.twinPeerNotice (.formed copy)) s
    (if s.dev.twin = 6 ∧ s.dev.mode = mShadow then (s.dev.putCopy copy).twinTo 3 else s.dev) := by
  refine becomes_of_run (show execTwinPeerNotice (.formed copy) s = _ from rfl) ((if_neg (by simp [hruns])).trans ?_)
  simp only [Bool.and_eq_true, beq_iff_eq]

end
end

section
variable {s : State} {id : Nat} {c : Cmd}

section
variable {cause : Nat} (h : Ready s.dev 0x0701 id c noRange) (hnew : s.dev.tw.form ≠ some id)
include h hnew

/-- TWN_FORM that may begin starts the formation and the issuer's way into QUIESCE, and stays in flight (R498). -/
theorem twnForm_begins (hmay : s.dev.formCause cause = 0) : Becomes (.twnForm id cause) s
    (({ s.dev with tw := { s.dev.tw with form := some id } }.twinTo 6).startTrans mQuiesce 1) :=
  becomes_of_ready_later (r := c.later) (show execTwnForm id cause s = _ from rfl) h ((if_pos (by simpa using hnew)).trans (by rw [hmay]; rfl)) rfl

/-- TWN_FORM that may not begin ends with RANGE and the cause (R498). -/
theorem twnForm_refused (hbad : s.dev.formCause cause ≠ 0) :
    Becomes (.twnForm id cause) s (s.dev.finish id (c.bad stRange (s.dev.formCause cause))) := by
  refine becomes_of_ready (show execTwnForm id cause s = _ from rfl) h ((if_pos (by simpa using hnew)).trans ?_) rfl
  split
  · next hzero => exact absurd hzero hbad
  · rfl

end

/-- TWN_BREAK leaves a PRIMARY for SOLO and a STANDBY or DETACHED for DETACHED, and tells the partner; of another member it ends with RANGE (R507). -/
theorem twnBreak_becomes (h : Ready s.dev 0x0702 id c noRange) : Becomes (.twnBreak id) s
    (if s.dev.twin = 2 then ((s.dev.leavePair 1).emit (.twinMsg 3 [])).finish id c.ok
    else if s.dev.twin = 3 ∨ s.dev.twin = 4 then ((s.dev.leavePair 4).emit (.twinMsg 3 [])).finish id c.ok
    else s.dev.finish id (c.bad stRange 1)) := by
  have hexec : exec (.twnBreak id) s = _ := (show execTwnBreak id s = _ from rfl)
  split
  · next hprimary => exact becomes_of_ready hexec h (if_pos (by simpa using hprimary)) rfl
  · next hprimary =>
    split
    · next hother => exact becomes_of_ready hexec h ((if_neg (by simpa using hprimary)).trans (if_pos (by simpa using hother))) rfl
    · next hother => exact becomes_of_ready hexec h ((if_neg (by simpa using hprimary)).trans (if_neg (by simpa using hother))) rfl

section
variable (h : Ready s.dev 0x0703 id c noRange)
include h

/-- TWN_HANDOVER with a ready partner is pending (R504). -/
theorem twnHandover_pends (hprimary : s.dev.twin = 2) (hpartner : s.dev.g F.TWN.STAT_PARTNER = 3) (hlink : s.dev.on F.TWN.STAT_LINK_UP = true)
    (hlag : s.dev.g F.TWN.LAG_US ≤ 1000 * s.dev.g F.TWN.JCFG_LAG_MAX) :
    Becomes (.twnHandover id) s ({ s.dev with tw := { s.dev.tw with handover := true } }.finish id c.ok) :=
  becomes_of_ready (show execTwnHandover id s = _ from rfl) h
    ((if_neg (by simp [hprimary])).trans (if_neg (by simpa [hpartner, hlink] using hlag))) rfl

/-- Of another member than a PRIMARY it ends with RANGE and cause 1, with a partner that is not ready with cause 3 (R504, R507). -/
theorem twnHandover_refused (hbad : s.dev.twin ≠ 2 ∨ s.dev.g F.TWN.STAT_PARTNER ≠ 3 ∨ s.dev.on F.TWN.STAT_LINK_UP = false ∨
    1000 * s.dev.g F.TWN.JCFG_LAG_MAX < s.dev.g F.TWN.LAG_US) :
    Becomes (.twnHandover id) s (s.dev.finish id (c.bad stRange (if s.dev.twin ≠ 2 then 1 else 3))) := by
  refine becomes_of_ready (show execTwnHandover id s = _ from rfl) h ?_ rfl
  by_cases hprimary : s.dev.twin = 2
  · rw [if_neg (not_not_intro hprimary)]
    exact (if_neg (by simp [hprimary])).trans (if_pos (by simpa [or_assoc] using hbad.resolve_left (not_not_intro hprimary)))
  · rw [if_pos hprimary]
    exact if_pos (by simpa using hprimary)

end
end

/-- Settles O40: heartbeat, UMP_GO and possession, the takeover, reports, the partner's messages, and the pair's commands. -/
theorem twinMembers : Obligations.TwinMembers := by
  refine ⟨?_, ?_, ?_, ?_, ?_, ?_, ?_, ?_, ?_, ?_, ?_, ?_, ?_, ?_, ?_, ?_, ?_, ?_, ?_, ?_, ?_, ?_, ?_, ?_, ?_, ?_, ?_, ?_, ?_⟩
  · intro s hruns
    exact becomes_of_run (show execHeartbeatPulse s = _ from rfl) (if_neg (by simp [hruns]))
  · intro s lost d1 hruns hlow hd1
    have hrise := umpGoRise_becomes (lost := lost) hd1
    rwa [if_neg (by simp [hruns, hlow])] at hrise
  · intro s lost hhigh
    have hrise := umpGoRise_becomes (s := s) (lost := lost) rfl
    rwa [if_pos (.inr hhigh)] at hrise
  · intro s d1 hruns hd1
    exact umpGoFall_becomes hruns hd1
  · intro s lost ofs msg hoff
    have hrise := umpGoRise_becomes (s := s) (lost := lost) rfl
    rw [if_pos (.inl hoff)] at hrise
    refine ⟨?_, hrise, ?_, possessionTake_none (.inl hoff), pairTimeMeasure_none (.inl hoff), ?_⟩
    · exact becomes_of_run (show execHeartbeatPulse s = _ from rfl) (if_pos (by simp [hoff]))
    · exact becomes_of_run (show execUmpGoFall s = _ from rfl) (if_pos (by simp [hoff]))
    · exact becomes_of_run (show execTwinPeerNotice msg s = _ from rfl) (if_pos (by simp [hoff]))
  · intro s hheld
    have hline := possLineHigh_becomes s
    rwa [if_pos hheld] at hline
  · intro s hfree
    have hline := possLineHigh_becomes s
    rwa [if_neg (by simp [hfree])] at hline
  · intro s taking d1 hruns hgo hopen hfree htaking hmode hd1
    exact possessionTake_takes hruns hgo hopen hfree htaking hmode hd1
  · intro s h
    exact possessionTake_none (.inr h)
  · intro s d1 d2 htwin hstep hd1 hnone hd2
    exact takeoverBacklogDone_ends htwin hstep hd1 hnone hd2
  · intro s d1 htwin hstep hd1 hleft
    exact takeoverBacklogDone_goesOn htwin hstep hd1 hleft
  · intro s h
    exact becomes_of_run (show execTakeoverBacklogDone s = _ from rfl) (if_pos (by simpa using h))
  · intro s h
    exact becomes_of_run (show execTakeoverPossTimeout s = _ from rfl) (if_pos (by simpa using h))
  · intro s htwin hfree
    exact becomes_of_run (show execTakeoverPossTimeout s = _ from rfl) (if_neg (by simp [htwin, hfree]))
  · intro s ofs hruns hmode hjoins
    exact becomes_of_run (show execPairTimeMeasure ofs s = _ from rfl) (if_neg (by rcases hjoins with h | h <;> simp [hruns, hmode, h]))
  · intro s htwin
    exact becomes_of_run (show execDutyUsageReport none s = _ from rfl) (if_pos (by simp [htwin]))
  · intro s l htwin
    exact becomes_of_run (show execDutyUsageReport (some l) s = _ from rfl) (if_pos (by simp [htwin]))
  · intro s hpair hlag
    exact becomes_of_run (show execLagAlarm s = _ from rfl) (if_pos (by simpa [hlag] using hpair))
  · intro s rx hprimary hstandby
    refine ⟨?_, becomes_of_run (show execLagAlarm s = _ from rfl) (if_neg (by simp [hprimary, hstandby]))⟩
    cases rx with
    | none => exact becomes_of_run (show execDutyUsageReport none s = _ from rfl) (if_neg (by simp [hprimary]))
    | some l => exact becomes_of_run (show execDutyUsageReport (some l) s = _ from rfl) (if_neg (by simp [hstandby]))
  · intro s ofs h
    exact pairTimeMeasure_none (.inr h)
  · intro s n hruns
    exact becomes_of_run (show execTwinPeerNotice (.state n) s = _ from rfl) (if_neg (by simp [hruns]))
  · intro s hruns
    exact twinPeerNotice_holds hruns
  · intro s hruns
    exact twinPeerNotice_broke hruns
  · intro s copy hruns
    exact ⟨twinPeerNotice_forming hruns, twinPeerNotice_formed hruns copy⟩
  · intro s id c cause h hnew hmay
    exact twnForm_begins h hnew hmay
  · intro s id c cause h hnew hbad
    exact twnForm_refused h hnew hbad
  · intro s id c h
    exact twnBreak_becomes h
  · intro s id c h hprimary hpartner hlink hlag
    exact twnHandover_pends h hprimary hpartner hlink hlag
  · intro s id c h hbad
    exact twnHandover_refused h hbad

end Sys2Proof.Machine

/-! PROOFS. The umpire's duty and the pair's journal (R483 to R490, Tables 17-3 and 17-4). -/

namespace Sys2Proof.Machine
open Sys2Proof Sys2Proof.Safety

section
variable {s : State} {member : Nat}

/-- UMPIRE_PULSE_RX classifies the pulse, keeps it, decides blocks, the first grant and the verdict (R484, R486, R487). -/
theorem umpirePulseRx_decides {widthUs k : Nat} {d1 d2 : Dev} (hruns : s.dev.umpireRuns = true) (hmember : member ≤ 1) (hk : k = pulseCode widthUs)
    (hd1 : d1 = (s.dev.setUmp member (fun m => { m with
        codes := (k :: m.codes).take 3, replRun := if k == 3 then m.replRun + 1 else 0,
        replAt := if k == 3 && m.replRun == 0 then s.dev.time.lt else m.replAt, lost := false })).showCode member k)
    (hd2 : d2 = (if d1.umpBlocked member && k == 2 then d1.setBlock member false else d1)) : Becomes (.umpirePulseRx member widthUs) s
      (((if s.dev.goHolder == some member && 3 ≤ (s.dev.umpOf member).replRun && k == 0 then d2.setBlock (1 - member) true else d2).firstGrant).verdict
        false) := by
  subst hk hd1 hd2
  exact becomes_of_run (show execUmpirePulseRx member widthUs s = _ from rfl) (if_neg (by simp [hruns, hmember]))

/-- UMPIRE_PULSE_RX and UMPIRE_HB_LOST do nothing without the duty, or of a member that the umpire does not have. -/
theorem umpirePulseRx_none (h : s.dev.umpireRuns = false ∨ 1 < member) (widthUs : Nat) : NoEffect (.umpirePulseRx member widthUs) s :=
  becomes_of_run (show execUmpirePulseRx member widthUs s = _ from rfl) (if_pos (by simpa using h))

theorem umpireHbLost_none (h : s.dev.umpireRuns = false ∨ 1 < member) : NoEffect (.umpireHbLost member) s :=
  becomes_of_run (show execUmpireHbLost member s = _ from rfl) (if_pos (by simpa using h))

/-- UMPIRE_RELEASE_TIMEOUT while an old holder leaves ends its wait, and with RST_EN holds its reset low (R485, Table 17-4). -/
theorem umpireReleaseTimeout_ends {m : Nat} {d : Dev} (hleaving : s.dev.tw.leaving = some m) (hruns : s.dev.umpireRuns = true)
    (hd : d = { s.dev with tw := { s.dev.tw with leaving := none } }) : Becomes .umpireReleaseTimeout s
      (if d.on F.TWN.UMP_CFG_RST_EN = true then { d with pins := { d.pins with porstOut := putBit d.pins.porstOut m true } } else d) := by
  subst hd
  refine becomes_of_run (show execUmpireReleaseTimeout s = _ from rfl) ?_
  simp only [hleaving, hruns, Bool.not_true, Bool.false_eq_true, if_false]
  rfl

/-- With no holder that leaves, or without the duty, it does nothing. -/
theorem umpireReleaseTimeout_none (h : s.dev.tw.leaving = none ∨ s.dev.umpireRuns = false) : NoEffect .umpireReleaseTimeout s := by
  refine becomes_of_run (show execUmpireReleaseTimeout s = _ from rfl) ?_
  cases hleaving : s.dev.tw.leaving with
  | none => rfl
  | some m => exact if_pos (by simpa [hleaving] using h)

end

section
variable {s : State} {die : Nat}

/-- What makes a STANDBY ignore a record: no Route die's, no twin operation, no STANDBY, one that it has, or an old one that is not next (R488). -/
theorem Dev.recordIgnored_iff (d : Dev) (die : Nat) (record : JRec) :
    (!isRoute die || !d.twinRuns || d.twin != 3 || d.tw.intake.contains (die, record) ||
        (decide (record.seq < (d.route die).seq) && !d.isNext (die, record))) = true ↔
      isRoute die = false ∨ d.twinRuns = false ∨ d.twin ≠ 3 ∨ d.tw.intake.contains (die, record) = true ∨
        (record.seq < (d.route die).seq ∧ d.isNext (die, record) = false) := by
  simp only [Bool.or_eq_true, Bool.and_eq_true, Bool.not_eq_true', bne_iff_ne, decide_eq_true_eq, or_assoc]

/-- JOURNAL_RECORD_RX of a record that the STANDBY does not have and that is new or next keeps it, runs what is next and shows the lag (R488). -/
theorem journalRecordRx_keeps {record : JRec} (hdie : isRoute die = true) (hruns : s.dev.twinRuns = true) (htwin : s.dev.twin = 3)
    (hnew : s.dev.tw.intake.contains (die, record) = false) (hturn : (s.dev.route die).seq ≤ record.seq ∨ s.dev.isNext (die, record) = true) :
    Becomes (.journalRecordRx die record) s
      (({ s.dev with tw := { s.dev.tw with intake := s.dev.tw.intake ++ [(die, record)] } }.runJournal).showLag) := by
  refine becomes_of_run (show execJournalRecordRx die record s = _ from rfl) (if_neg ?_)
  rw [Dev.recordIgnored_iff, hdie, hruns, hnew]
  rintro (h | h | h | h | ⟨hold, hnext⟩)
  · exact Bool.noConfusion h
  · exact Bool.noConfusion h
  · exact h htwin
  · exact Bool.noConfusion h
  · exact hturn.elim (fun hle => Nat.not_le.mpr hold hle) (fun hn => Bool.noConfusion (hn.symm.trans hnext))

/-- JOURNAL_ACK_RX and JOURNAL_RESEND do nothing but at a PRIMARY, of a Route die (R489). -/
theorem journalAckRx_none (h : isRoute die = false ∨ s.dev.twin ≠ 2) (seq lagUs : Nat) : NoEffect (.journalAckRx die seq lagUs) s :=
  becomes_of_run (show execJournalAckRx die seq lagUs s = _ from rfl) (if_pos (by simpa using h))

theorem journalResend_none (h : isRoute die = false ∨ s.dev.twin ≠ 2) : NoEffect (.journalResend die) s :=
  becomes_of_run (show execJournalResend die s = _ from rfl) (if_pos (by simpa using h))

end

/-- Settles O41: the umpire's rows, then the journal's at a STANDBY and at a PRIMARY. -/
theorem umpireAndJournal : Obligations.UmpireAndJournal := by
  refine ⟨?_, ?_, ?_, ?_, ?_, ?_, ?_, ?_, ?_, ?_, ?_, ?_, ?_, ?_, ?_, ?_, ?_, ?_, ?_, ?_⟩
  · intro s member widthUs k d1 d2 hruns hmember hk hd1 hd2
    exact umpirePulseRx_decides hruns hmember hk hd1 hd2
  · intro s member hruns hmember
    exact becomes_of_run (show execUmpireHbLost member s = _ from rfl) (if_neg (by simp [hruns, hmember]))
  · intro s member hruns hwatched hholder
    exact becomes_of_run (show execUmpireErrNLow member s = _ from rfl) (if_pos (by simp [hruns, hwatched, hholder]))
  · intro s m d1 hleaving hruns hd1
    exact umpireReleaseTimeout_ends hleaving hruns hd1
  · intro s member widthUs h
    exact ⟨umpirePulseRx_none h widthUs, umpireHbLost_none h⟩
  · intro s member h
    exact becomes_of_run (show execUmpireErrNLow member s = _ from rfl) (if_neg (by rcases h with h | h | h <;> simp [h]))
  · intro s h
    exact umpireReleaseTimeout_none h
  · intro s member hfree
    exact becomes_of_run (show execUmpireResetRelease member s = _ from rfl) (if_pos (by simp [hfree]))
  · intro s member hlow
    exact becomes_of_run (show execUmpireResetRelease member s = _ from rfl) (if_neg (by simp [hlow]))
  · intro s die record hdie hruns htwin hnew hturn
    exact journalRecordRx_keeps hdie hruns htwin hnew hturn
  · intro s die record h
    exact becomes_of_run (show execJournalRecordRx die record s = _ from rfl) (if_pos ((Dev.recordIgnored_iff s.dev die record).mpr h))
  · intro s h
    exact becomes_of_run (show execJournalAckTimer s = _ from rfl) (if_pos (by simpa using h))
  · intro s die seq lagUs h
    exact ⟨journalAckRx_none h seq lagUs, journalResend_none h⟩
  · intro s h
    exact becomes_of_run (show execJournalStall s = _ from rfl) (if_neg (by rcases h with h | h <;> simp [h]))
  · intro s h
    exact becomes_of_run (show execJournalStallBreak s = _ from rfl) (if_neg (by rcases h with h | h | h <;> simp [h]))
  · rintro s d1 got hruns htwin rfl rfl
    exact becomes_of_run (show execJournalAckTimer s = _ from rfl) (if_neg (by simp [hruns, htwin]))
  · intro s die seq lagUs hdie htwin
    exact becomes_of_run (show execJournalAckRx die seq lagUs s = _ from rfl) (if_neg (by simp [hdie, htwin]))
  · intro s die hdie htwin
    exact becomes_of_run (show execJournalResend die s = _ from rfl) (if_neg (by simp [hdie, htwin]))
  · intro s htwin hout
    exact becomes_of_run (show execJournalStall s = _ from rfl) (if_pos (by simp [htwin, hout]))
  · intro s htwin hstalled hheld
    exact becomes_of_run (show execJournalStallBreak s = _ from rfl) (if_pos (by simp [htwin, hstalled, hheld]))

end Sys2Proof.Machine

/-! PROOFS. The log's rows, the scoreboard and the sampling reads (R536, R544 to R552, Table 19-1, Table 19-5). -/

namespace Sys2Proof.Machine
open Sys2Proof Sys2Proof.Safety

section
variable {s : State}

/-- LOG_FLUSH_TIMER starts a page where its period is set or 128 records wait (R546). -/
theorem logFlushTimer_becomes (s : State) : Becomes .logFlushTimer s
    (if s.dev.g F.CPT.LOG_CFG_FLUSH = 0 ∧ s.dev.log.ram.length < 128 then s.dev else s.dev.logStart) := by
  refine becomes_of_run (show execLogFlushTimer s = _ from rfl) ?_
  simp only [Bool.and_eq_true, beq_iff_eq, decide_eq_true_eq]

/-- A capture is due with a ring, for a set period or for a dump that was asked for (R549, R550). -/
theorem Dev.captureIdle_iff (d : Dev) :
    (d.g F.SBD.RING_CFG_SIZE_LOG2 == 0 || (d.g F.SBD.CFG_PERIOD == 0 && !d.sb.nowDue)) = true ↔
      d.g F.SBD.RING_CFG_SIZE_LOG2 = 0 ∨ (d.g F.SBD.CFG_PERIOD = 0 ∧ d.sb.nowDue = false) := by
  simp only [Bool.or_eq_true, Bool.and_eq_true, beq_iff_eq, Bool.not_eq_true']

/-- With a ring, and a period set or a dump asked for, a capture is due. -/
theorem Dev.captureDue {d : Dev} (hring : d.g F.SBD.RING_CFG_SIZE_LOG2 ≠ 0) (hdue : d.g F.SBD.CFG_PERIOD ≠ 0 ∨ d.sb.nowDue = true) :
    ¬ (d.g F.SBD.RING_CFG_SIZE_LOG2 == 0 || (d.g F.SBD.CFG_PERIOD == 0 && !d.sb.nowDue)) = true := by
  rw [d.captureIdle_iff]
  rintro (hnone | ⟨hoff, hnot⟩)
  · exact hring hnone
  · exact hdue.elim (fun hset => hset hoff) (fun hasked => by simp [hnot] at hasked)

/-- The scoreboard's missed count takes in what DOZE missed, and the dump asked for is being served (R551). -/
def Dev.afterDoze (d : Dev) : Dev :=
  { d with sb := { d.sb with nowDue := false, missed := d.sb.missed + d.sb.dozed, dozed := 0 } }

/-- A capture that is due outside DOZE: what DOZE missed counts in SKIPPED, and then the dump is taken, or missed where the last one is not yet
written or the ring has no room (R551). -/
theorem scoreboardCapture_due {lg : Nat} {d0 d1 : Dev} (hlg : lg = s.dev.g F.SBD.RING_CFG_SIZE_LOG2) (hring : lg ≠ 0)
    (hdue : s.dev.g F.SBD.CFG_PERIOD ≠ 0 ∨ s.dev.sb.nowDue = true) (hmode : s.dev.mode ≠ mDoze)
    (hd0 : d0 = (if s.dev.sb.dozed = 0 then s.dev else s.dev.addc C.SBD.SKIPPED s.dev.sb.dozed)) (hd1 : d1 = d0.afterDoze) :
    Becomes .scoreboardCapture s
      (if d1.on F.SBD.STAT_BUSY = true ∨ 2 ^ lg < (d1.g F.SBD.RING_TAIL_T + 2 ^ 32 - d1.g F.SBD.RING_HEAD_H) % 2 ^ 32 + dumpLength then
        { d1 with sb := { d1.sb with missed := d1.sb.missed + 1 } }.inc C.SBD.SKIPPED
      else (({ d1 with sb := { d1.sb with
          header := d1.dumpHeader
          body := d1.dumpBody
          base := d1.g F.SBD.RING_BASE_LO_A / 4096 * 4096 + 2 ^ 32 * d1.g F.SBD.RING_BASE_HI_A
          sizeLog2 := lg
          missed := 0 } }.w F.SBD.STAT_BODY bodySize).w F.SBD.STAT_BUSY 1)) := by
  have hd1' : (s.dev.when (s.dev.sb.dozed != 0) (fun d => d.addc C.SBD.SKIPPED d.sb.dozed)).afterDoze = d1 := by
    rw [hd1, hd0]
    unfold Dev.when
    simp only [bne_iff_ne, ne_eq, ite_not]
  subst hlg
  refine becomes_of_run (show execScoreboardCapture s = _ from rfl) ((if_neg (Dev.captureDue hring hdue)).trans ((if_neg ?_).trans ?_))
  · simpa using hmode
  · simp only [← hd1', Bool.or_eq_true, decide_eq_true_eq]
    rfl

end

/-- Settles O42: the log's commands and pages, then the scoreboard's dumps and the sampling reads. -/
theorem logAndScoreboards : Obligations.LogAndScoreboards := by
  refine ⟨?_, ?_, ?_, ?_, ?_, ?_, ?_, ?_, ?_, ?_, ?_, ?_, ?_, ?_, ?_, ?_, ?_⟩
  · rintro s id c l h rfl
    exact becomesWith_of_ready (show execLogRead id false s = _ from rfl) h rfl rfl
  · intro s id c h hempty
    exact becomes_of_ready (show execLogFlush id s = _ from rfl) h (if_pos (by simp [hempty])) rfl
  · intro s id c h hsome
    exact becomes_of_ready_later (r := c.later) (show execLogFlush id s = _ from rfl) h (if_neg (by simpa using hsome)) rfl
  · intro s hoff hfew
    have htimer := logFlushTimer_becomes s
    rwa [if_pos ⟨hoff, hfew⟩] at htimer
  · intro s h
    have htimer := logFlushTimer_becomes s
    rwa [if_neg (by omega)] at htimer
  · rintro s d1 d2 d3 hbusy rfl rfl rfl
    refine becomes_of_run (show execLogPageProgrammed true s = _ from rfl) ((if_neg (by simpa using hbusy)).trans ?_)
    simp only [if_true, List.isEmpty_iff]
  · intro s hbusy
    exact becomes_of_run (show execLogPageProgrammed false s = _ from rfl) (if_neg (by simpa using hbusy))
  · intro s ok hidle
    exact becomes_of_run (show execLogPageProgrammed ok s = _ from rfl) (if_pos (by simpa using hidle))
  · intro s id c h
    exact becomes_of_ready (show execSbNow id s = _ from rfl) h rfl rfl
  · rintro s id c die h rfl
    exact becomesWith_of_ready (show execPsRead id false s = _ from rfl) h rfl rfl
  · intro s h
    exact becomes_of_run (show execScoreboardCapture s = _ from rfl) (if_pos (s.dev.captureIdle_iff.mpr h))
  · intro s hring hdue hdoze
    exact becomes_of_run (show execScoreboardCapture s = _ from rfl) ((if_neg (Dev.captureDue hring hdue)).trans (if_pos (by simpa using hdoze)))
  · rintro s lg d0 d1 d2 hlg hring hdue hmode hd0 hd1 hidle hroom rfl
    have hcapture := scoreboardCapture_due hlg hring hdue hmode hd0 hd1
    rwa [if_neg (not_or.mpr ⟨by simp [hidle], Nat.not_lt.mpr hroom⟩)] at hcapture
  · intro s lg d0 d1 hlg hring hdue hmode hd0 hd1 hmiss
    have hcapture := scoreboardCapture_due hlg hring hdue hmode hd0 hd1
    rwa [if_pos hmiss] at hcapture
  · rintro s t d1 d2 d3 hbusy rfl rfl rfl rfl
    exact becomes_of_run (show execScoreboardDumpWritten false s = _ from rfl) (if_neg (by simp [hbusy]))
  · rintro s d1 d2 hbusy rfl rfl
    exact becomes_of_run (show execScoreboardDumpWritten true s = _ from rfl) (if_neg (by simp [hbusy]))
  · intro s dmaErr hidle
    exact becomes_of_run (show execScoreboardDumpWritten dmaErr s = _ from rfl) (if_pos (by simp [hidle]))

end Sys2Proof.Machine

/-! PROOFS. Update campaigns: the images, the campaigns, CMP_CTRL and the engine's events (R584 to R602, Tables 21-3 and 21-4). -/

namespace Sys2Proof.Machine
open Sys2Proof Sys2Proof.Safety

section
variable {i : Instr} {s : State} {id op : Nat} {c : Cmd} {states : Nat → Bool} {go : Dev → Camp → Dev}

/-- A row of CMP_CTRL whose command is ready and of the row's OP acts on its campaign and ends with OK (Table 21-3). -/
theorem becomes_of_campCtrl {x : Camp} {d : Dev} (hexec : exec i s = run s (fun d => d.campCtrl id op states go))
    (h : Ready s.dev 0x0B05 id c (ctrlRange states)) (hop : c.par 25 1 = op) (hx : s.dev.camp c.cid = some x) (hgo : go s.dev x = d) :
    Becomes i s (d.showCmp.finish id c.ok) := by
  have hany : (s.dev.cmd id).any (fun c => c.par 25 1 == op || 4 < c.par 25 1) = true := by simp [h.1, hop]
  rw [run_eq, Dev.campCtrl, hany, Bool.not_true, if_neg Bool.noConfusion] at hexec
  exact becomes_of_ready hexec h (by simp only [hx, hgo]) rfl

/-- A row of CMP_CTRL leaves a command of another OP alone. -/
theorem noEffect_of_campCtrl (hexec : exec i s = run s (fun d => d.campCtrl id op states go)) (h : s.dev.cmd id = some c)
    (hle : c.par 25 1 ≤ 4) (hop : c.par 25 1 ≠ op) : NoEffect i s := by
  have hany : (s.dev.cmd id).any (fun c => c.par 25 1 == op || 4 < c.par 25 1) = false := by simpa [h] using And.intro hop hle
  rw [NoEffect, Becomes, hexec, run_eq, Dev.campCtrl, hany]
  rfl

end

/-- The octets of 0. -/
theorem toLE_zero (n : Nat) : toLE n 0 = List.replicate n 0#8 := by
  induction n with
  | zero => rfl
  | succ n ih => exact congrArg (List.cons 0#8) ih

section
variable {s : State} {cid : Nat}

/-- What keeps a campaign from sending: it is not sending, the engine is lost or its die takes no event, the device is out of SERVICE or out of the
campaign's slots, no block is left for the round, or a frame of it is held (R591). -/
def Dev.CampWaits (d : Dev) (cid : Nat) (c : Camp) : Prop :=
  c.state ≠ 3 ∨ d.cmp.lost = true ∨ d.seqOpen d.cmp.engine = false ∨ d.act ≠ mService ∨ d.inCampSlot c = false ∨ c.nextBlocks = [] ∨
    d.campHeld (fun k => k == cid) = true

/-- The engine's test of a campaign that waits. -/
theorem Dev.campWaits_iff (d : Dev) (cid : Nat) (c : Camp) :
    (c.state != 3 || d.cmp.lost || !d.seqOpen d.cmp.engine || d.act != mService || !d.inCampSlot c || c.nextBlocks.isEmpty ||
      d.campHeld (fun k => k == cid)) = true ↔ d.CampWaits cid c := by
  simp only [Dev.CampWaits, Bool.or_eq_true, bne_iff_ne, Bool.not_eq_true', List.isEmpty_iff, or_assoc]

/-- A campaign that can send does not wait. -/
theorem Dev.not_campWaits {d : Dev} {c : Camp} (hstate : c.state = 3) (hlost : d.cmp.lost = false) (hopen : d.seqOpen d.cmp.engine = true)
    (hact : d.act = mService) (hslot : d.inCampSlot c = true) (hleft : c.nextBlocks.isEmpty = false)
    (hheld : d.campHeld (fun k => k == cid) = false) : ¬ d.CampWaits cid c := by
  rw [← d.campWaits_iff, hstate, hlost, hopen, hact, hslot, hleft, hheld]
  simp

/-- The slot of a campaign whose frame is `x`: a frame that nothing holds and that the air MAC does not plan leaves only what planning counted; any
other is a timer event of the engine's die (R591, R592). -/
def Dev.campSlotFrame (d : Dev) (cid : Nat) (c : Camp) (x : Tx) : Dev :=
  let flag := d.campHold c x
  let r := d.planTx (bandAir c.band) x (some (d.slotLimit (bandAir c.band)))
  if flag = 0 ∧ r.2 = false then r.1
  else ((((if flag = 0 then r.1 else d).sequence d.cmp.engine 5).journal d.cmp.engine 5 flag d.evTime (.camp cid flag)).campSlotWork c flag
    x.psdu.length).showCmp

/-- CAMPAIGN_SLOT of a campaign that can send halts it at the end of its counter, counts a missing root, or sends its frame (R591, R592). -/
theorem campaignSlot_sends {c : Camp} (hc : s.dev.camp cid = some c) (hsend : ¬ s.dev.CampWaits cid c) : Becomes (.campaignSlot cid) s
    (if c.fcnt = 0xFFFFFFFF then s.dev.haltCamp cid 1
    else (s.dev.root c.tenant).elim (s.dev.inc C.CRY.NO_ROOT s.dev.cmp.engine)
      (fun root => s.dev.campSlotFrame cid c (s.dev.blockTx c (s.dev.blockPsdu c root)))) := by
  refine becomes_of_run (show execCampaignSlot cid s = _ from rfl) ?_
  rw [← s.dev.campWaits_iff] at hsend
  simp only [hc, if_neg hsend, Dev.campSlotFrame, beq_iff_eq, Bool.and_eq_true, Bool.not_eq_true']
  cases s.dev.root c.tenant <;> rfl

/-- CAMPAIGN_SLOT of no campaign, or of one that waits, has no effect (R591). -/
theorem campaignSlot_waits (h : ∀ c, s.dev.camp cid = some c → s.dev.CampWaits cid c) : NoEffect (.campaignSlot cid) s := by
  refine becomes_of_run (show execCampaignSlot cid s = _ from rfl) ?_
  cases hc : s.dev.camp cid with
  | none => rfl
  | some c => exact if_pos ((s.dev.campWaits_iff cid c).mpr (h c hc))

/-- The engine holds a frame for the meter, for the duty share, or not at all (R592). -/
theorem Dev.campHold_le (d : Dev) (c : Camp) (x : Tx) : d.campHold c x ≤ 2 := by
  unfold Dev.campHold
  dsimp only
  split
  · decide
  · split
    · decide
    · split <;> decide

/-- A hold counts in METER_HOLD or in DUTY_HOLD (R592). -/
theorem Dev.campSlotWork_hold (d : Dev) (c : Camp) {flag : Nat} (len : Nat) (hne : flag ≠ 0) (hle : flag ≤ 2) :
    d.campSlotWork c flag len = d.inc (if flag = 1 then C.CMP.METER_HOLD else C.CMP.DUTY_HOLD) d.cmp.engine := by
  obtain rfl | rfl : flag = 1 ∨ flag = 2 := by omega
  · rfl
  · rfl

/-- CAMPAIGN_WAIT_END ends the round of a campaign whose wait has passed (R593). -/
theorem campaignWaitEnd_becomes {c : Camp} (hc : s.dev.camp cid = some c) : Becomes (.campaignWaitEnd cid) s
    (if c.state = 4 ∧ c.waitLeft = 0 ∧ s.dev.cmp.lost = false ∧ s.dev.mode ≠ mShadow then s.dev.waitEnd c else s.dev) := by
  refine becomes_of_run (show execCampaignWaitEnd cid s = _ from rfl) ?_
  simp only [hc, Bool.and_eq_true, beq_iff_eq, bne_iff_ne, Bool.not_eq_true', and_assoc]

/-- CAMPAIGN_ENGINE_SWITCHOVER makes Route-1 the engine where Route-0 is it, the spare is active and no campaign frame is held (R602). -/
theorem campaignEngineSwitchover_becomes (s : State) : Becomes .campaignEngineSwitchover s
    (if s.dev.cmp.engine ≠ 1 ∨ (s.dev.unit 6 2 0).state ≠ .active ∨ s.dev.campHeld (fun _ => true) = true then s.dev
    else { (s.dev.w F.CMP.STAT_ACTIVE 0 1) with cmp := { s.dev.cmp with engine := 2 } }.showCmp) := by
  refine becomes_of_run (show execCampaignEngineSwitchover s = _ from rfl) ?_
  simp only [Bool.or_eq_true, bne_iff_ne, or_assoc]

end

/-- Settles O44: images and campaigns, CMP_CTRL, the engine's slots, the ends of rounds, the reports and the engine's switch-over. -/
theorem campaignRows : Obligations.CampaignRows := by
  refine ⟨?_, ?_, ?_, ?_, ?_, ?_, ?_, ?_, ?_, ?_, ?_, ?_, ?_, ?_, ?_, ?_, ?_, ?_, ?_, ?_, ?_, ?_, ?_, ?_, ?_, ?_, ?_, ?_⟩
  · intro s id c h hup
    exact becomes_of_ready (show execCmpImgLoad id false s = _ from rfl) h (if_neg (by simp [hup])) rfl
  · intro s id c h hdown
    exact becomes_of_ready (show execCmpImgLoad id false s = _ from rfl) h (if_pos (by simp [hdown])) rfl
  · intro s id c h
    exact becomesWith_of_ready (show execCmpImgInfo id false s = _ from rfl) h rfl rfl
  · rintro s id c x h rfl htaken
    exact becomes_of_ready (show execCmpSet id false s = _ from rfl) h (if_neg (by simp [htaken])) rfl
  · rintro s id c x h rfl hrefused
    exact becomes_of_ready (show execCmpSet id false s = _ from rfl) h (if_pos hrefused) rfl
  · rintro s id c r h rfl hall
    exact becomes_of_ready (show execCmpMembers id false s = _ from rfl) h (congrArg (Prod.mk _) (if_pos (by simpa using hall))) rfl
  · rintro s id c r h rfl hsome
    exact becomes_of_ready (show execCmpMembers id false s = _ from rfl) h (congrArg (Prod.mk _) (if_neg (by simpa using hsome))) rfl
  · rintro s id c x d1 h hop hx rfl
    exact becomes_of_campCtrl (show execCmpStart id s = _ from rfl) h hop hx rfl
  · intro s id c x h hop hx
    exact becomes_of_campCtrl (show execCmpPause id s = _ from rfl) h hop hx rfl
  · intro s id c x h hop hx
    exact becomes_of_campCtrl (show execCmpResume id s = _ from rfl) h hop hx rfl
  · intro s id c x h hop hx
    exact becomes_of_campCtrl (show execCmpStop id s = _ from rfl) h hop hx rfl
  · intro s id c x h hop hx
    exact becomes_of_campCtrl (show execCmpClear id s = _ from rfl) h hop hx rfl
  · rintro s id c op hc rfl hle
    exact ⟨noEffect_of_campCtrl (show execCmpStart id s = _ from rfl) hc hle, noEffect_of_campCtrl (show execCmpPause id s = _ from rfl) hc hle,
      noEffect_of_campCtrl (show execCmpResume id s = _ from rfl) hc hle, noEffect_of_campCtrl (show execCmpStop id s = _ from rfl) hc hle,
      noEffect_of_campCtrl (show execCmpClear id s = _ from rfl) hc hle⟩
  · intro s id c x h hx hstate
    refine becomesWith_of_ready (show execCmpStatus id false s = _ from rfl) h ?_ rfl
    simp only [hx, Option.getD_some, beq_iff_eq, if_neg hstate]
  · intro s id c h hnone
    refine becomesWith_of_ready (show execCmpStatus id false s = _ from rfl) h ?_ rfl
    simp only [hnone, Option.getD_none, Camp.finals, List.filter_nil, List.length_nil, beq_self_eq_true, if_true, toLE_zero,
      List.replicate_append_replicate]
  · intro s id c h
    exact becomesWith_of_ready (show execCmpMemberRead id false s = _ from rfl) h rfl rfl
  · rintro s cid c root x r d1 hc hstate hlost hopen hact hslot hleft hheld hcount hroot rfl hhold rfl hplan rfl
    have hsent := campaignSlot_sends hc (Dev.not_campWaits hstate hlost hopen hact hslot hleft hheld)
    rw [if_neg hcount, hroot, Option.elim_some, Dev.campSlotFrame, hhold, if_pos rfl, if_neg (by simp [hplan])] at hsent
    exact hsent
  · rintro s cid c root x r hc hstate hlost hopen hact hslot hleft hheld hcount hroot rfl hhold rfl hplan
    have hsent := campaignSlot_sends hc (Dev.not_campWaits hstate hlost hopen hact hslot hleft hheld)
    rw [if_neg hcount, hroot, Option.elim_some, Dev.campSlotFrame, if_pos ⟨hhold, hplan⟩] at hsent
    exact hsent
  · rintro s cid c root x flag d1 hc hstate hlost hopen hact hslot hleft hheld hcount hroot rfl rfl hhold rfl
    have hsent := campaignSlot_sends hc (Dev.not_campWaits hstate hlost hopen hact hslot hleft hheld)
    rw [if_neg hcount, hroot, Option.elim_some, Dev.campSlotFrame, if_neg (fun hboth => hhold hboth.1), if_neg hhold,
      Dev.campSlotWork_hold _ _ _ hhold (Dev.campHold_le _ _ _)] at hsent
    exact hsent
  · intro s cid c hc hstate hlost hopen hact hslot hleft hheld hcount hroot
    have hsent := campaignSlot_sends hc (Dev.not_campWaits hstate hlost hopen hact hslot hleft hheld)
    rwa [if_neg hcount, hroot, Option.elim_none] at hsent
  · intro s cid h
    exact campaignSlot_waits h
  · intro s cid c hc hstate hlost hopen hact hslot hleft hheld hend
    have hsent := campaignSlot_sends hc (Dev.not_campWaits hstate hlost hopen hact hslot hleft hheld)
    rwa [if_pos hend] at hsent
  · intro s cid c hc hstate hleft hlost hmode
    have hend := campaignWaitEnd_becomes hc
    rwa [if_pos ⟨hstate, hleft, hlost, hmode⟩] at hend
  · intro s cid h
    cases hc : s.dev.camp cid with
    | none => exact becomes_of_run (show execCampaignWaitEnd cid s = _ from rfl) (by simp only [hc])
    | some c =>
      have hend := campaignWaitEnd_becomes hc
      rwa [if_neg (by rcases h c hc with h | h | h | h <;> simp [h])] at hend
  · intro s r rest hfirst
    exact becomes_of_run (show execCampaignReport s = _ from rfl) (by simp only [hfirst])
  · intro s hnone
    exact becomes_of_run (show execCampaignReport s = _ from rfl) (by simp only [hnone])
  · intro s hengine hspare hheld
    have hswitch := campaignEngineSwitchover_becomes s
    rwa [if_neg (by simp [hengine, hspare, hheld])] at hswitch
  · intro s h
    have hswitch := campaignEngineSwitchover_becomes s
    rwa [if_pos h] at hswitch

end Sys2Proof.Machine
